-- ==== Sys2Proof/Word.lean ====
section
/-! DEFINITION. The units every other file counts in: a byte, a string of bytes, and a sparse table. -/

namespace Sys2Proof

/-- One byte, as it stands in host memory, in a buffer or in a key. -/
abbrev Byte := BitVec 8

/-- A byte string, first byte first (R12: the order its governing standard gives). -/
abbrev Bytes := List Byte

/-- A sparse table: keys strictly rising, and a key that is not listed stands for the table's own default. -/
abbrev Tab (α : Type) := List (Nat × α)

end Sys2Proof
end

