-- ==== Sys2Proof/Machine/Data.lean ====
section
/-! DEFINITION. The plain data that commands carry and State holds: status codes, key records, committed changes,
object-dictionary requests and the records that pass between modules. -/

namespace Sys2Proof.Machine

/-- The status codes of R20, by the number a completion or a reply carries. -/
inductive Status where
  | ok | verifyFail | malformed | badOpcode | chainAborted | keyNotFound | keyRevoked | keyUsage | keyExpired
  | quota | notActive | inputRange | counterExhausted | notOnCurve | aborted | serviceLocked | entropyFailed
  | faultDetected | ringOverrun
  deriving DecidableEq, Repr

/-- Ring states of R130. -/
inductive RingState where
  | disabled | enabled | stopping | error | halted
  deriving DecidableEq, Repr

/-- HIF_FN_STATE.STATE of R93. -/
inductive FnState where
  | unmapped | enabled | disabling | disabled | wedged
  deriving DecidableEq, Repr

/-- HIF_STATUS.SERVICE_STATE of R93. -/
inductive Service where
  | starting | ready | halted | locked | bootStopped
  deriving DecidableEq, Repr

/-- Key-domain states of R149. -/
inductive KeyState where
  | empty | active | sealFailed | destroying
  deriving DecidableEq, Repr

/-- Life-cycle states (R452). -/
inductive Life where
  | blank | test | vendor | stock | service | returned | scrap | invalid
  deriving DecidableEq, Repr

/-- Power states of R486. -/
inductive Power where
  | run | idle | standby | off
  deriving DecidableEq, Repr

/-- Alarm classes of R430, mildest first. -/
inductive AlarmClass where
  | record | alert | halt | lock | erase
  deriving DecidableEq, Repr

/-- Unit classes a step is dispatched to (R34, R38). -/
inductive UnitClass where
  | skipper | hash | hawkmoth | plume
  deriving DecidableEq, Repr

/-- State of a Hawkmoth engine or a Plume unit (R328, R333, R360). -/
inductive UnitState where
  | idle | busy | inReset | session | offline
  deriving DecidableEq, Repr

/-- What starts a disable procedure, in the order of the AUX values of FUNCTION_DISABLED (R599). -/
inductive Trigger where
  | enable | vfEnable | busMaster | d3hot | flr | remap | ideLoss | wedged
  deriving DecidableEq, Repr

/-- How a completer turns an access away: Unsupported Request (R54, R56), or Configuration Request Retry Status (R48). -/
inductive Cpl where
  | unsupported | retry
  deriving DecidableEq, Repr

/-- One ANCESTRY entry of a record: lineage index and generation, zero where unused (R165, R184). -/
structure Lin where
  idx : Nat
  gen : Nat
  deriving DecidableEq, Repr

/-- A key record (R165, R166); characters are held as the number their ASCII bytes spell. `material` is the open key where the record is
cached or bound, and MATERIAL with its SIV, 48 bytes, where it is stored or travels (R168). -/
structure Rec where
  tier      : Nat
  large     : Bool
  hardened  : Bool
  part      : Nat
  alg       : Nat
  usage     : Nat
  mode      : Nat
  expo      : Nat
  version   : Nat
  pub       : Bool
  origin    : Nat
  revoked   : Bool
  gen       : Nat
  parent    : Nat
  anc       : List Lin
  kcv       : Bytes
  runCount  : Nat
  runFirst  : Nat
  notBefore : Nat
  notAfter  : Nat
  counter   : Nat
  material  : Bytes
  deriving DecidableEq, Repr

/-- An ATC-table entry: the card ID and the tracked ATC (R267). -/
structure AtcEntry where
  card    : Bytes
  tracked : Nat
  deriving DecidableEq, Repr

/-- A quorum grant (R199, R200): its 32 bytes, what it was issued for, and what is left of it. -/
structure Grant where
  bytes    : Bytes
  cls      : Nat
  part     : Nat
  uses     : Nat
  left     : Nat
  id       : Nat
  expiry   : Nat
  digest   : Bytes
  issuedUs : Nat
  own      : Bool
  deriving DecidableEq, Repr

/-- A commit-log entry (R556). -/
structure CommitLog where
  seq    : Nat
  ring   : Nat
  index  : Nat
  tag    : Nat
  part   : Nat
  member : Nat
  status : Status
  handle : Nat
  deriving DecidableEq, Repr

/-- A creation-log entry (R191). -/
structure Creation where
  seq    : Nat
  ring   : Nat
  index  : Nat
  tag    : Nat
  handle : Nat
  deriving DecidableEq, Repr

/-- One committed change, by the change-record types of R542; the last four concern this module alone. -/
inductive Change where
  | record (slot : Nat) (r : Rec)
  | recordFree (slot : Nat)
  | large (first count : Nat) (content : Bytes)
  | largeFree (first : Nat)
  | revoke (slot : Nat)
  | lineageFree (idx : Nat) (bump : Bool)
  | restrict (slot notBefore notAfter expo : Nat)
  | counter (slot : Nat) (v : Nat)
  | atc (part : Nat) (e : AtcEntry)
  | atcTable (part capacity : Nat)
  | grant (g : Grant)
  | grantUse (id : Nat) (own : Bool)
  | od (idx sub : Nat) (v : Bytes)
  | partCreate (part : Nat) (nonce psk : Bytes)
  | partDestroy (part : Nat)
  | sealSet (part which : Nat) (wrapped : Bytes)
  | creation (part : Nat) (e : Creation)
  | log (e : CommitLog)
  | checkFail (part : Nat)
  | migration (st : Nat)
  | manifest (m : Bytes)
  | logClear (grantId : Nat)
  deriving DecidableEq, Repr

/-- Who asked for an object-dictionary operation and how the reply returns (R570, R579, R583): transport 0 mailbox,
1 management port, 2 Seam; session 0 is none; `peer` is the Seam position or the datagram's source. -/
structure Req where
  transport : Nat
  session   : Nat
  seq       : Nat
  reqId     : Nat
  peer      : Nat
  deriving DecidableEq, Repr

/-- A commit cycle as it travels on the pair link or as a vault stream (R541): its header and opened body. -/
structure CycleMsg where
  pairId   : Nat
  handover : Bool
  cycle    : Nat
  firstSeq : Nat
  count    : Nat
  time     : Nat
  epoch    : Nat
  changes  : List (List Change)
  tagOk    : Bool
  deriving DecidableEq, Repr

/-- A heartbeat record (R550), its MAC already checked into `macOk`. -/
structure Heartbeat where
  pairId     : Nat
  member     : Nat
  role       : Nat
  flags      : Nat
  tokenEpoch : Nat
  cycle      : Nat
  durableSeq : Nat
  seq        : Nat
  time       : Nat
  macOk      : Bool
  deriving DecidableEq, Repr

/-- A token record (R551), its MAC already checked into `macOk`. -/
structure Token where
  pairId : Nat
  epoch  : Nat
  active : Nat
  solo   : Bool
  seq    : Nat
  time   : Nat
  macOk  : Bool
  deriving DecidableEq, Repr

/-- A configuration change as the acting master broadcasts it (R526): no entry stands for an epoch step alone (R528). -/
structure CfgChange where
  entry  : Option (Nat × Nat × Bytes)
  epoch  : Nat
  digest : Bytes
  deriving DecidableEq, Repr

/-- The head of an SPDM request: its version, and the slot, index or session it names (R62 to R64). -/
structure SpdmHead where
  ver   : Nat
  param : Nat
  deriving DecidableEq, Repr

/-- A card's answer to AGREE: its ephemeral point, and its signature (R202). -/
structure CardAgree where
  point     : Bytes
  signature : Bytes
  deriving DecidableEq, Repr

/-- Where a datagram of the management port goes: the position it is for, and the address and UDP port it is sent to (R580, R583). -/
structure MgmtPath where
  position : Nat
  addr     : Bytes
  port     : Nat
  deriving DecidableEq, Repr

end Sys2Proof.Machine
end

