-- ==== Sys2Proof/Syntax.lean ====
section
/-! DEFINITION. The commands the module takes: one constructor per row of spec/opcode_table.json, in the table's order,
each with the operands its rule names. `slot` is an admission-buffer slot (a descriptor in flight), `rid` a ring as
`4096 * function + ring number`, `fn` a function number, `rq` the object-dictionary request that asks, `grant` the 32
bytes attached to a quorum write. Times that have passed are what the command itself reports. -/

namespace Sys2Proof

open Machine

/-- The commands and events of the module (R1 to R614), one constructor per row of the table. -/
inductive Instr where
  -- the path of a descriptor
  | doorbell (fn page p t : Nat)
  | descriptorReadIssue (rid : Nat)
  | descriptorArrival (rid : Nat) (data : Bytes)
  | readFault (slot addr : Nat)
  | readTimeout (slot addr : Nat)
  | chainReservationTake (rid : Nat)
  | keyBind (slot : Nat)
  | keyCacheMissDone (slot : Nat)
  | reservationEntryFree (slot : Nat)
  | stepDispatch (slot unit : Nat)
  | seedPoolDrawServed
  | skipperStepDone (slot : Nat)
  | hashStepDone (unit : Nat)
  | hawkmothOpDone (engine : Nat) (agree : Bool)
  | plumeOpDone (unit : Nat) (agree : Bool)
  | engineSelfTestDone (cls : UnitClass) (unit : Nat) (pass : Bool)
  | engineAbortDone (cls : UnitClass) (unit : Nat)
  | commitCycleClose
  | journalPageClose
  | journalPageProgrammed
  | commitCycleAck (cycle : Nat)
  | commitCycleReceive (c : CycleMsg)
  | cycleAckTimeout
  | completionWrite (slot : Nat)
  -- descriptor opcodes
  | nop (slot : Nat)
  | keyGenerate (slot : Nat)
  | keyGeneratePair (slot : Nat)
  | keyDerive (slot : Nat)
  | keyImportTr31 (slot : Nat)
  | keyImportWrap (slot : Nat)
  | keyExportTr31 (slot : Nat)
  | keyExportWrap (slot : Nat)
  | keyInvalidate (slot : Nat)
  | keyDestroy (slot : Nat)
  | keyQuery (slot : Nat)
  | keyRestrict (slot : Nat)
  | keyImportPublic (slot : Nat)
  | keyExportPublic (slot : Nat)
  | pinTranslate (slot : Nat)
  | pinVerifyOffset (slot : Nat)
  | pinVerifyValue (slot : Nat)
  | pinGenerate (slot : Nat)
  | pinChange (slot : Nat)
  | macGenerate (slot : Nat)
  | macVerify (slot : Nat)
  | macTranslate (slot : Nat)
  | cvvGenerate (slot : Nat)
  | cvvVerify (slot : Nat)
  | dukptPinTranslate (slot : Nat)
  | dukptMacGenerate (slot : Nat)
  | dukptMacVerify (slot : Nat)
  | dukptData (slot : Nat)
  | dukptInitialKey (slot : Nat)
  | dukptOriginatePin (slot : Nat)
  | dukptOriginateMac (slot : Nat)
  | emvArqcVerify (slot : Nat)
  | emvScriptMac (slot : Nat)
  | emvScriptEncrypt (slot : Nat)
  | emvScriptPin (slot : Nat)
  | authoriseBundle (slot : Nat)
  | ff1Tokenise (slot : Nat)
  | ff1Detokenise (slot : Nat)
  | bulkEncrypt (slot : Nat)
  | bulkDecrypt (slot : Nat)
  | sign (slot : Nat)
  | verify (slot : Nat)
  | keyAgree (slot : Nat)
  | kemEncapsulate (slot : Nat)
  | kemDecapsulate (slot : Nat)
  | randomBytes (slot : Nat)
  | drbgReseed (slot : Nat)
  | rawSessionOpen (slot : Nat)
  | rawSessionGranted (engine : Nat)
  | rawSessionClose (slot : Nat)
  | rawLoad (slot : Nat)
  | rawLoadKey (slot : Nat)
  | rawRead (slot : Nat)
  | rawModadd (slot : Nat)
  | rawModsub (slot : Nat)
  | rawModmul (slot : Nat)
  | rawModinv (slot : Nat)
  | rawModexp (slot : Nat)
  | rawAbort (slot : Nat)
  | rawSessionIdleTimeout (engine : Nat)
  -- background work
  | orphanSweepFree (record : Nat)
  | dramPatrolScrub (record : Nat) (correctable : Bool)
  | keyCacheScrub (critical : Bool) (key : Nat) (correctable : Bool)
  | sensorCalibration (sensor : Nat)
  | telemetryRefresh (dieTemp cocoonTemp inputMv inputMw nandWear : Nat)
  | recordRecoveryReply (record src : Nat) (copy : Option Rec)
  -- host link and functions
  | perstAssert
  | perstDeassert
  | hotReset
  | linkDownTimeout
  | linkTrained (speed width : Nat) (reversed : Bool)
  | vfEnableSet (numVfs : Nat)
  | vfEnableClear
  | busMasterEnableClear (fn : Nat)
  | d3hotEntry (fn : Nat)
  | d0Return (fn : Nat)
  | functionLevelReset (fn : Nat)
  | disableBufferTimeout (slot : Nat)
  | disableAck (part : Nat)
  | functionWedged (fn : Nat)
  | resetCold (key : Nat)
  | resetWarm (key : Nat)
  | hifFnErrRead (fn : Nat)
  | registerWrite (fn bar offset size value : Nat)
  | ideCheckFailed (stream : Nat)
  | doeDiscovery (index : Nat)
  | spdmGetCertificate (head : SpdmHead) (offset length : Nat)
  | spdmChallenge (head : SpdmHead) (nonce : Bytes)
  | spdmGetMeasurements (head : SpdmHead) (signed : Bool) (nonce : Bytes)
  | spdmKeyExchange (head : SpdmHead) (point : Bytes)
  | keyProg (stream keySet rx : Nat) (key : Bytes)
  | kSetGo (stream keySet rx : Nat)
  | kSetStop (stream keySet rx : Nat)
  | schedulingEpoch
  | quotaWrite (rq : Req) (part sub v : Nat)
  | partitionFunctionWrite (rq : Req) (part fn : Nat) (grant : Bytes)
  | partitionEnableWrite (rq : Req) (part v : Nat) (grant : Bytes)
  -- rings and digest rings
  | ringEnable (rid : Nat)
  | ringDisable (rid : Nat)
  | ringResume (rid : Nat)
  | ringSettle (rid : Nat)
  | grpDigEnable (gid base sizeLog2 : Nat)
  | grpDigDisable (gid : Nat)
  | grpDigBaseRead (gid : Nat)
  | grpDigConsWrite (gid c : Nat)
  -- key domains, measurements, quorum
  | partitionCreate (rq : Req) (part : Nat) (grant : Bytes)
  | partitionDestroy (rq : Req) (part : Nat) (grant : Bytes)
  | bindingMaskWrite (rq : Req) (part mask : Nat) (grant : Bytes)
  | manifestWrite (rq : Req) (m : Bytes) (grant : Bytes)
  | announcedMrWrite (rq : Req) (k : Nat) (v grant : Bytes)
  | finalise (rq : Req) (grant : Bytes)
  | cancel (rq : Req) (grant : Bytes)
  | quorumOpen (rq : Req) (cls part uses : Nat) (digest : Bytes)
  | quorumApprove (rq : Req) (id member : Nat) (signature : Bytes)
  | cardApprove (rq : Req) (id port : Nat) (credential : Bytes) (agree : CardAgree)
  | quorumRequestLapse (id : Nat)
  | policyWrite (rq : Req) (cls sub v : Nat) (grant : Bytes)
  | memberWrite (rq : Req) (member sub : Nat) (v grant : Bytes)
  | componentStart (rq : Req) (template : Bytes) (parent count : Nat) (grant : Bytes)
  | componentLoad (rq : Req) (port : Nat) (credential point signature answer : Bytes)
  | componentLoadTimeout
  | tier0Destroy (rq : Req) (handle : Nat) (grant : Bytes)
  | pinPolicyWrite (rq : Req) (part v : Nat) (grant : Bytes)
  | decTableWrite (rq : Req) (part table : Nat) (v grant : Bytes)
  | atcCapacityWrite (rq : Req) (part v : Nat) (grant : Bytes)
  | atcWindowWrite (rq : Req) (part v : Nat) (grant : Bytes)
  -- Looper
  | looperKdFormation
  | looperIdentitySeal
  | looperIdentityUnseal
  | looperRecordKeyFormation
  | looperNandKeyFormation
  | looperRecordSeal (seq : Nat)
  | looperRefused (code : Nat)
  | looperBlockDone
  -- entropy
  | entropyBlockRelease
  | warmupEnd
  | entropyReady
  | conditionerBlockOut (rawBits : Bytes)
  | entropyBlockArrival
  | entropyHealthFail (cause groups : Nat)
  | entropyTransportFault
  | entropyBlockTimeout
  | laneGeneratorRekey (lane : Nat)
  | laneGeneratorStall (lane : Nat)
  | engineGeneratorRekey (gen : Nat)
  | engineGeneratorStall (gen : Nat)
  | drbgInstantiate (part : Nat)
  | drbgReseedInterval (part : Nat)
  | drbgReseedCount (part : Nat)
  | drbgStagingRefill (part : Nat)
  | drbgTokenGrant (slot : Nat)
  | tapCtlWrite (rq : Req) (v : Nat) (grant : Bytes)
  -- events and cores
  | holdoffWindowClose (group : Nat)
  | msixCommit (source : Nat)
  | vectorControlWrite (fn vector : Nat) (mask : Bool)
  | functionMaskWrite (fn : Nat) (mask : Bool)
  | vectorControlRead (fn vector : Nat)
  | messageControlRead (fn : Nat)
  | eicSrcPendW1c (fn word v : Nat)
  | eicHoldWrite (fn : Nat) (hold : Bool)
  | eicGlobalHoldWrite (hold : Bool)
  | eicMapWrite (fn k v : Nat)
  | coreHandlerEntry (core : Nat)
  | coreClaimRead (core : Nat)
  | coreCompletionWrite (core source : Nat)
  | coreHandlerReturn (core : Nat)
  | coreWatchdogRestart (core : Nat)
  | coreWatchdogStage1 (core : Nat)
  | coreWatchdogStage2 (core : Nat)
  | wakeLatch (source : Nat)
  | wakeTimer
  | wakeListWrite (rq : Req) (entry source : Nat)
  | wakeTimerSWrite (rq : Req) (v : Nat)
  | idleEntry
  | idleExit (source : Nat)
  -- tamper
  | mantleChannelAlarm (channel reading : Nat)
  | enclosureLoopAlarm (loop reading : Nat)
  | caseSwitchAlarm (switch reading : Nat)
  | lightAlarm (site reading : Nat)
  | railAlarm (flag reading : Nat)
  | tempAlarm (flag reading : Nat)
  | clockFreq (flag reading : Nat)
  | clockGlitch (flag reading : Nat)
  | xtalStop
  | fsmCodewordInvalid (fsm reading : Nat)
  | bridgeFault (reading : Nat)
  | mainDieResponse
  | sleeveRemoval
  | sleeveInsertion (cert sigR sigS : Bytes) (drawn : Nat)
  | sleeveReleaseWrite (rq : Req) (v : Nat)
  | sleeveReleaseTimeout
  | sleeveLifeAccounting (mAh tenths : Nat)
  | unlock (rq : Req) (v : Nat) (passes : Bool) (grant : Bytes)
  | unlockReset
  | tamperClassWrite (rq : Req) (flag v : Nat) (grant : Bytes)
  | loopModeWrite (rq : Req) (isSwitch : Bool) (n v : Nat) (passes : Bool) (grant : Bytes)
  | loopWindowWrite (rq : Req) (n sub v : Nat) (passes : Bool) (grant : Bytes)
  | holdupExhausted
  -- life cycle and identity
  | targetWrite (rq : Req) (target : Nat) (grant : Bytes)
  | authCertWrite (rq : Req) (cert : Bytes)
  | lcTransitionReset
  | commissionTokenWrite (rq : Req) (token : Bytes)
  | identityGenerate (rq : Req)
  | certInstall (rq : Req) (chains : Bytes)
  | attestNonceWrite (rq : Req) (nonce : Bytes)
  | debugSessionExpiry
  | debugClose (rq : Req) (v : Nat)
  | observeOpen (rq : Req) (v : Nat) (grant : Bytes)
  | debugChallengeRefresh
  -- reset and power
  | mainPowerGood (sramOk : Bool)
  | coldMainReset
  | warmMainReset
  | stopPoint1
  | keyStoreLoaded
  | serviceReady
  | pfail
  | pfailFlushEnd (us : Nat)
  | powerRequest (rq : Req) (v : Nat)
  | resetRequest (rq : Req) (kind : Nat) (serial : Bytes)
  | seamResetCommand (rq : Req) (value grant : Bytes)
  | orderlyResetEffect
  | cocoonReset (rq : Req) (v : Nat) (passes : Bool) (grant : Bytes)
  | blockReset (rq : Req) (cls unit : Nat)
  | blockResetDone (pass : Bool)
  -- Seam, cluster time, configuration
  | seamLinkUp (port peerPosition peerPair peerMember : Nat) (peerCluster peerSerial peerPartner : Bytes) (chainsOk inService : Bool)
  | seamLinkDown (port : Nat)
  | seamFrameRefused (port linkSeq : Nat)
  | seamFrameRelay (inPort dest src cls hops flowSeq stamp : Nat) (payload : Bytes)
  | keepAliveSend (port : Nat)
  | seamResendTimeout (port : Nat)
  | seamLinkRekey (port : Nat)
  | linkDelayMeasure (port delay : Nat)
  | syncBroadcast
  | syncReceive (src masterTime : Nat) (masterUnsynced : Bool)
  | timeSyncClear
  | driftBoundExceeded
  | clusterTimeWrite (rq : Req) (v : Nat) (grant : Bytes)
  | masterElection
  | configWrite (rq : Req) (idx sub : Nat) (v grant : Bytes)
  | configChangeReceive (port : Nat) (c : CfgChange)
  | configPull (port : Nat)
  | configPullDone (epoch : Nat) (digest : Bytes) (entries : List (Nat × Nat × Bytes))
  | decisionWrite (rq : Req) (v grant : Bytes)
  | mgmtFrameReceive (src : Nat) (body : Bytes)
  -- pairs
  | heartbeatSend
  | heartbeatReceive (h : Heartbeat)
  | tokenRecordReceive (record : Bytes)
  | tokenLoss
  | arbOpen (point signature : Bytes) (refereeOk : Bool)
  | arbSessionTimeout
  | resyncRequest
  | collarClaim
  | claimWindowEnd
  | collarRxAssert
  | switchover (rq : Req) (v : Nat) (grant : Bytes)
  | vaultStreamReceive (src part : Nat) (c : CycleMsg)
  -- object dictionary
  | odRead (rq : Req) (idx sub : Nat)
  | odReadSegment (rq : Req) (idx sub offset maxLen : Nat)
  | odWrite (rq : Req) (idx sub : Nat) (v : Bytes)
  | odWriteGrant (rq : Req) (idx sub : Nat) (v grant : Bytes)
  | odWriteSegment (rq : Req) (idx sub offset total : Nat) (data : Bytes)
  | odWriteSegmentGrant (rq : Req) (idx sub offset total : Nat) (data grant : Bytes)
  | segmentStagingTimeout (session : Nat)
  | sessionOpen (rq : Req) (member : Nat) (point : Bytes)
  | sessionAuth (rq : Req) (signature : Bytes)
  | sessionClose (rq : Req)
  | sessionIdleTimeout (session : Nat)
  | mailboxGo (reqLen : Nat)
  | mgmtDatagram (peer : Nat) (dst : MgmtPath) (data : Bytes)
  -- recorder
  | logFlush
  | sealCheck (rq : Req) (seq : Nat)
  | logClear (rq : Req) (v : Nat) (grant : Bytes)
  -- rows the reader of the spec appended to the table
  | auxiliaryPowerReturn
  | auxiliaryPowerLoss
  | hostLinkDown
  | custodianCard (port : Nat) (inserted : Bool)
  | mgmtLinkChange (up : Bool)
  | collarRxDeassert
  | orphanSweepPassEnd (ms : Nat)
  | bufferReadCompletion (slot : Nat) (data : Bytes)
  | seamLinkFrameReceive (port linkAck : Nat) (credits : List Nat) (wrap : Bool)
  | arbiterHeartbeatTimeout (pair member : Nat)
  | resyncCopyReceive (cycle : Nat) (parts : List Nat) (changes : List Change)
  deriving DecidableEq, Repr

end Sys2Proof
end

