-- ==== Sys2Proof/Decode.lean ====
section
/-! DEFINITION. The command a table word spells. The table gives no row any bits, so no word spells a command. -/

namespace Sys2Proof

/-- The command a word of `nbits` bits spells by the table's bits: the table gives none (assumption 1). -/
def decodeTableWord (_nbits _w : Nat) : Option Instr := none

end Sys2Proof
end

