-- ==== Sys2Proof/Machine/Bytes.lean ====
section
/-! DEFINITION. Byte strings as numbers and back, slices, XOR, packed decimal digits and bit fields (R12, R220). -/

namespace Sys2Proof.Machine

/-- The byte a natural number's low eight bits spell. -/
def byteOf (n : Nat) : Byte := BitVec.ofNat 8 n

/-- `n` zero bytes. -/
def zeros (n : Nat) : Bytes := List.replicate n 0#8

/-- A little-endian number (R12). -/
def leNat : Bytes → Nat
  | [] => 0
  | b :: r => b.toNat + 256 * leNat r

/-- The low `n` bytes of a number, least significant first. -/
def leBytes : Nat → Nat → Bytes
  | 0, _ => []
  | n + 1, v => byteOf v :: leBytes n (v / 256)

/-- A big-endian number. -/
def beNat (b : Bytes) : Nat := b.foldl (fun a x => 256 * a + x.toNat) 0

/-- The low `n` bytes of a number, most significant first. -/
def beBytes (n v : Nat) : Bytes := (leBytes n v).reverse

/-- `n` bytes from offset `o`, zero-filled past the end. -/
def slice (b : Bytes) (o n : Nat) : Bytes :=
  let t := (b.drop o).take n
  t ++ zeros (n - t.length)

/-- Exactly `n` bytes: cut or zero-filled at the right. -/
def fit (n : Nat) (b : Bytes) : Bytes := slice b 0 n

/-- Bytes [o, o + length) of `b` replaced by `v`. -/
def splice (b : Bytes) (o : Nat) (v : Bytes) : Bytes :=
  slice b 0 o ++ v ++ b.drop (o + v.length)

/-- Little-endian field of a byte string. -/
def leAt (b : Bytes) (o n : Nat) : Nat := leNat (slice b o n)

/-- Big-endian field of a byte string. -/
def beAt (b : Bytes) (o n : Nat) : Nat := beNat (slice b o n)

/-- One byte of a byte string as a number. -/
def byteAt (b : Bytes) (o : Nat) : Nat := leAt b o 1

/-- All bytes zero. -/
def allZero (b : Bytes) : Bool := b.all (· == 0#8)

/-- Bytewise exclusive or, as long as the shorter string. -/
def xorBytes (a b : Bytes) : Bytes := List.zipWith (· ^^^ ·) a b

/-- Bits [hi:lo] of a number (R12). -/
def bits (v hi lo : Nat) : Nat := v / 2 ^ lo % 2 ^ (hi - lo + 1)

/-- Bit `i` of a number. -/
def bit (v i : Nat) : Bool := v / 2 ^ i % 2 == 1

/-- A truth value as 0 or 1. -/
def b2n (b : Bool) : Nat := if b then 1 else 0

/-- Number of one bits among the low `w` bits. -/
def popcount : Nat → Nat → Nat
  | 0, _ => 0
  | w + 1, v => v % 2 + popcount w (v / 2)

/-- ⌈a ÷ b⌉. -/
def ceilDiv (a b : Nat) : Nat := (a + b - 1) / b

/-- The nibbles of a byte string, high nibble first (R220). -/
def nibbles : Bytes → List Nat
  | [] => []
  | b :: r => b.toNat / 16 :: b.toNat % 16 :: nibbles r

/-- Nibbles packed two to a byte, high first; an odd last nibble takes a zero. -/
def packNibbles : List Nat → Bytes
  | [] => []
  | [a] => [byteOf (16 * a)]
  | a :: b :: r => byteOf (16 * a + b) :: packNibbles r

/-- Nibbles padded on the right with `p` to `n`. -/
def padNibbles (n p : Nat) (l : List Nat) : List Nat := l ++ List.replicate (n - l.length) p

/-- The `n` decimal digits of a number, with leading zeros. -/
def decDigits : Nat → Nat → List Nat
  | 0, _ => []
  | n + 1, v => decDigits n (v / 10) ++ [v % 10]

/-- The number some decimal digits spell. -/
def digitsNat (l : List Nat) : Nat := l.foldl (fun a d => 10 * a + d) 0

/-- ASCII bytes of a string. -/
def ascii (s : String) : Bytes := s.toList.map (fun c => byteOf c.toNat)

/-- Blocks of `n` bytes, the last one possibly short; `fuel` bounds the number of blocks. -/
def chunksAux (n : Nat) : Nat → Bytes → List Bytes
  | 0, _ => []
  | fuel + 1, b => if b.isEmpty then [] else b.take n :: chunksAux n fuel (b.drop n)

/-- Blocks of `n` bytes, the last one possibly short. -/
def chunks (n : Nat) (b : Bytes) : List Bytes := chunksAux n b.length b

/-- Odd parity set in every byte (R205 notes, R262, R263). -/
def oddParity (b : Bytes) : Bytes :=
  b.map (fun x => if popcount 7 (x.toNat / 2) % 2 == 0 then x ||| 1#8 else x &&& 0xFE#8)

end Sys2Proof.Machine
end

