-- ==== Sys2Proof/Machine/Aes.lean ====
section
/-! DEFINITION. AES of FIPS 197, which the Skipper lanes, Looper and the DRBG cores implement (R301, R321, R376).
The spec names the standard and does not print it: PRESUMED, log entry 10. -/

namespace Sys2Proof.Machine.Aes

open Sys2Proof.Machine

/-- Multiplication by x in GF(2^8). -/
def xtime (b : Nat) : Nat := if 128 ≤ b then (2 * b % 256) ^^^ 0x1B else 2 * b

/-- Multiplication in GF(2^8); `n` counts the bits of the second factor still to use. -/
def gmulAux : Nat → Nat → Nat → Nat
  | 0, _, _ => 0
  | n + 1, a, b => (if b % 2 == 1 then a else 0) ^^^ gmulAux n (xtime a) (b / 2)

/-- Multiplication in GF(2^8). -/
def gmul (a b : Nat) : Nat := gmulAux 8 a b

/-- The S-box, written out as FIPS 197 prints it. -/
def sbox : List Nat :=
  [0x63,0x7c,0x77,0x7b,0xf2,0x6b,0x6f,0xc5,0x30,0x01,0x67,0x2b,0xfe,0xd7,0xab,0x76,
   0xca,0x82,0xc9,0x7d,0xfa,0x59,0x47,0xf0,0xad,0xd4,0xa2,0xaf,0x9c,0xa4,0x72,0xc0,
   0xb7,0xfd,0x93,0x26,0x36,0x3f,0xf7,0xcc,0x34,0xa5,0xe5,0xf1,0x71,0xd8,0x31,0x15,
   0x04,0xc7,0x23,0xc3,0x18,0x96,0x05,0x9a,0x07,0x12,0x80,0xe2,0xeb,0x27,0xb2,0x75,
   0x09,0x83,0x2c,0x1a,0x1b,0x6e,0x5a,0xa0,0x52,0x3b,0xd6,0xb3,0x29,0xe3,0x2f,0x84,
   0x53,0xd1,0x00,0xed,0x20,0xfc,0xb1,0x5b,0x6a,0xcb,0xbe,0x39,0x4a,0x4c,0x58,0xcf] ++
  [0xd0,0xef,0xaa,0xfb,0x43,0x4d,0x33,0x85,0x45,0xf9,0x02,0x7f,0x50,0x3c,0x9f,0xa8,
   0x51,0xa3,0x40,0x8f,0x92,0x9d,0x38,0xf5,0xbc,0xb6,0xda,0x21,0x10,0xff,0xf3,0xd2,
   0xcd,0x0c,0x13,0xec,0x5f,0x97,0x44,0x17,0xc4,0xa7,0x7e,0x3d,0x64,0x5d,0x19,0x73,
   0x60,0x81,0x4f,0xdc,0x22,0x2a,0x90,0x88,0x46,0xee,0xb8,0x14,0xde,0x5e,0x0b,0xdb,
   0xe0,0x32,0x3a,0x0a,0x49,0x06,0x24,0x5c,0xc2,0xd3,0xac,0x62,0x91,0x95,0xe4,0x79] ++
  [0xe7,0xc8,0x37,0x6d,0x8d,0xd5,0x4e,0xa9,0x6c,0x56,0xf4,0xea,0x65,0x7a,0xae,0x08,
   0xba,0x78,0x25,0x2e,0x1c,0xa6,0xb4,0xc6,0xe8,0xdd,0x74,0x1f,0x4b,0xbd,0x8b,0x8a,
   0x70,0x3e,0xb5,0x66,0x48,0x03,0xf6,0x0e,0x61,0x35,0x57,0xb9,0x86,0xc1,0x1d,0x9e,
   0xe1,0xf8,0x98,0x11,0x69,0xd9,0x8e,0x94,0x9b,0x1e,0x87,0xe9,0xce,0x55,0x28,0xdf,
   0x8c,0xa1,0x89,0x0d,0xbf,0xe6,0x42,0x68,0x41,0x99,0x2d,0x0f,0xb0,0x54,0xbb,0x16]

/-- SubBytes of one byte. -/
def sub (b : Nat) : Nat := sbox.getD (b % 256) 0

/-- The inverse S-box of one byte: the place where the S-box holds it. -/
def invSub (b : Nat) : Nat := sbox.idxOf (b % 256)

/-- The round constants, by index from 1. -/
def rcon : Nat → Nat
  | 0 => 0
  | 1 => 1
  | n + 1 => xtime (rcon n)

/-- One word of the key schedule: `i` is its number, `nk` the key length in words, `w` the words so far, latest first. -/
def nextWord (nk i : Nat) (w : List (List Nat)) : List Nat :=
  let prev := w.getD 0 []
  let t := if i % nk == 0 then
      match (prev.rotateLeft 1).map sub with
      | a :: r => (a ^^^ rcon (i / nk)) :: r
      | [] => []
    else if nk > 6 && i % nk == 4 then prev.map sub else prev
  List.zipWith (· ^^^ ·) (w.getD (nk - 1) []) t

/-- `n` further words of the key schedule. -/
def expandAux (nk : Nat) : Nat → Nat → List (List Nat) → List (List Nat)
  | 0, _, w => w
  | n + 1, i, w => expandAux nk n (i + 1) (nextWord nk i w :: w)

/-- Number of rounds for a key of 16, 24 or 32 bytes (R301). -/
def rounds (key : Bytes) : Nat := key.length / 4 + 6

/-- The round keys, 16 bytes each, the first one first. -/
def roundKeys (key : Bytes) : List (List Nat) :=
  let nk := key.length / 4
  let w0 := ((chunks 4 key).map (fun c => c.map BitVec.toNat)).reverse
  let ws := (expandAux nk (4 * (rounds key + 1) - nk) nk w0).reverse
  (List.range (rounds key + 1)).map (fun r => ((ws.drop (4 * r)).take 4).flatten)

/-- ShiftRows on the 16 bytes taken column by column. -/
def shiftRows (s : List Nat) : List Nat := (List.range 16).map (fun i => s.getD ((i + 4 * (i % 4)) % 16) 0)

/-- The inverse of ShiftRows. -/
def invShiftRows (s : List Nat) : List Nat := (List.range 16).map (fun i => s.getD ((i + 12 * (i % 4)) % 16) 0)

/-- A column of the state multiplied by the circulant matrix whose first row is `m`. -/
def mixCol (m c : List Nat) : List Nat :=
  (List.range 4).map (fun r => ((List.range 4).map (fun j => gmul (c.getD j 0) (m.getD ((j + 4 - r) % 4) 0))).foldl (· ^^^ ·) 0)

/-- MixColumns, or its inverse, by the matrix's first row. -/
def mixColumns (m s : List Nat) : List Nat :=
  ((List.range 4).map (fun c => mixCol m ((s.drop (4 * c)).take 4))).flatten

/-- AddRoundKey. -/
def addKey (s k : List Nat) : List Nat := List.zipWith (· ^^^ ·) s k

/-- One block encrypted under a key of 16, 24 or 32 bytes. -/
def encrypt (key blk : Bytes) : Bytes :=
  match roundKeys key with
  | [] => blk
  | k0 :: ks =>
    let s0 := addKey ((fit 16 blk).map BitVec.toNat) k0
    let mid := ks.dropLast.foldl (fun s k => addKey (mixColumns [2, 3, 1, 1] (shiftRows (s.map sub))) k) s0
    (addKey (shiftRows (mid.map sub)) (ks.getLastD [])).map byteOf

/-- One block decrypted. -/
def decrypt (key blk : Bytes) : Bytes :=
  match (roundKeys key).reverse with
  | [] => blk
  | kn :: ks =>
    let s0 := (invShiftRows (addKey ((fit 16 blk).map BitVec.toNat) kn)).map invSub
    let mid := ks.dropLast.foldl
      (fun s k => (invShiftRows (mixColumns [14, 11, 13, 9] (addKey s k))).map invSub) s0
    (addKey mid (ks.getLastD [])).map byteOf

end Sys2Proof.Machine.Aes
end

