-- ==== Sys2Proof/Machine/Des.lean ====
section
/-! DEFINITION. DES and TDES, which the Skipper lanes implement beside AES (R301, R313).
The spec names them and does not print them: PRESUMED, log entry 10. -/

namespace Sys2Proof.Machine.Des

open Sys2Proof.Machine

/-- The bits of a number, most significant first. -/
def toBits : Nat → Nat → List Nat
  | 0, _ => []
  | n + 1, v => v / 2 ^ n % 2 :: toBits n v

/-- The number some bits spell, most significant first. -/
def ofBits (l : List Nat) : Nat := l.foldl (fun a b => 2 * a + b) 0

/-- Select bits by 1-based position. -/
def permute (t l : List Nat) : List Nat := t.map (fun i => l.getD (i - 1) 0)

/-- The initial permutation. -/
def ip : List Nat :=
  [58,50,42,34,26,18,10,2, 60,52,44,36,28,20,12,4, 62,54,46,38,30,22,14,6, 64,56,48,40,32,24,16,8,
   57,49,41,33,25,17,9,1, 59,51,43,35,27,19,11,3, 61,53,45,37,29,21,13,5, 63,55,47,39,31,23,15,7]

/-- The final permutation. -/
def fp : List Nat :=
  [40,8,48,16,56,24,64,32, 39,7,47,15,55,23,63,31, 38,6,46,14,54,22,62,30, 37,5,45,13,53,21,61,29,
   36,4,44,12,52,20,60,28, 35,3,43,11,51,19,59,27, 34,2,42,10,50,18,58,26, 33,1,41,9,49,17,57,25]

/-- The expansion of a half block. -/
def expansion : List Nat :=
  [32,1,2,3,4,5, 4,5,6,7,8,9, 8,9,10,11,12,13, 12,13,14,15,16,17,
   16,17,18,19,20,21, 20,21,22,23,24,25, 24,25,26,27,28,29, 28,29,30,31,32,1]

/-- The permutation after the S-boxes. -/
def pbox : List Nat :=
  [16,7,20,21,29,12,28,17, 1,15,23,26,5,18,31,10, 2,8,24,14,32,27,3,9, 19,13,30,6,22,11,4,25]

/-- Permuted choice 1. -/
def pc1 : List Nat :=
  [57,49,41,33,25,17,9,1,58,50,42,34,26,18, 10,2,59,51,43,35,27,19,11,3,60,52,44,36,
   63,55,47,39,31,23,15,7,62,54,46,38,30,22, 14,6,61,53,45,37,29,21,13,5,28,20,12,4]

/-- Permuted choice 2. -/
def pc2 : List Nat :=
  [14,17,11,24,1,5,3,28,15,6,21,10,23,19,12,4, 26,8,16,7,27,20,13,2,41,52,31,37,47,55,30,40,
   51,45,33,48,44,49,39,56,34,53,46,42,50,36,29,32]

/-- Left shifts of the key halves, round by round. -/
def shifts : List Nat := [1,1,2,2,2,2,2,2,1,2,2,2,2,2,2,1]

/-- S-boxes 1 to 4, row after row. -/
def sboxesLo : List (List Nat) :=
  [[14,4,13,1,2,15,11,8,3,10,6,12,5,9,0,7, 0,15,7,4,14,2,13,1,10,6,12,11,9,5,3,8,
    4,1,14,8,13,6,2,11,15,12,9,7,3,10,5,0, 15,12,8,2,4,9,1,7,5,11,3,14,10,0,6,13],
   [15,1,8,14,6,11,3,4,9,7,2,13,12,0,5,10, 3,13,4,7,15,2,8,14,12,0,1,10,6,9,11,5,
    0,14,7,11,10,4,13,1,5,8,12,6,9,3,2,15, 13,8,10,1,3,15,4,2,11,6,7,12,0,5,14,9],
   [10,0,9,14,6,3,15,5,1,13,12,7,11,4,2,8, 13,7,0,9,3,4,6,10,2,8,5,14,12,11,15,1,
    13,6,4,9,8,15,3,0,11,1,2,12,5,10,14,7, 1,10,13,0,6,9,8,7,4,15,14,3,11,5,2,12],
   [7,13,14,3,0,6,9,10,1,2,8,5,11,12,4,15, 13,8,11,5,6,15,0,3,4,7,2,12,1,10,14,9,
    10,6,9,0,12,11,7,13,15,1,3,14,5,2,8,4, 3,15,0,6,10,1,13,8,9,4,5,11,12,7,2,14]]

/-- S-boxes 5 to 8, row after row. -/
def sboxesHi : List (List Nat) :=
  [[2,12,4,1,7,10,11,6,8,5,3,15,13,0,14,9, 14,11,2,12,4,7,13,1,5,0,15,10,3,9,8,6,
    4,2,1,11,10,13,7,8,15,9,12,5,6,3,0,14, 11,8,12,7,1,14,2,13,6,15,0,9,10,4,5,3],
   [12,1,10,15,9,2,6,8,0,13,3,4,14,7,5,11, 10,15,4,2,7,12,9,5,6,1,13,14,0,11,3,8,
    9,14,15,5,2,8,12,3,7,0,4,10,1,13,11,6, 4,3,2,12,9,5,15,10,11,14,1,7,6,0,8,13],
   [4,11,2,14,15,0,8,13,3,12,9,7,5,10,6,1, 13,0,11,7,4,9,1,10,14,3,5,12,2,15,8,6,
    1,4,11,13,12,3,7,14,10,15,6,8,0,5,9,2, 6,11,13,8,1,4,10,7,9,5,0,15,14,2,3,12],
   [13,2,8,4,6,15,11,1,10,9,3,14,5,0,12,7, 1,15,13,8,10,3,7,4,12,5,6,11,0,14,9,2,
    7,11,4,1,9,12,14,2,0,6,10,13,15,3,5,8, 2,1,14,7,4,10,8,13,15,12,9,0,3,5,6,11]]

/-- The S-boxes on 48 bits. -/
def sboxes (l : List Nat) : List Nat :=
  ((List.range 8).map (fun i =>
    let g := (l.drop (6 * i)).take 6
    let row := 2 * g.getD 0 0 + g.getD 5 0
    let col := ofBits ((g.drop 1).take 4)
    toBits 4 (((sboxesLo ++ sboxesHi).getD i []).getD (16 * row + col) 0))).flatten

/-- The round function of a half block under a round key. -/
def feistel (r k : List Nat) : List Nat :=
  permute pbox (sboxes (List.zipWith (· ^^^ ·) (permute expansion r) k))

/-- The sixteen round keys, from the key halves and the shifts still to make. -/
def keysAux : List Nat → List Nat → List Nat → List (List Nat)
  | [], _, _ => []
  | n :: ns, c, d =>
    let c' := c.rotateLeft n
    let d' := d.rotateLeft n
    permute pc2 (c' ++ d') :: keysAux ns c' d'

/-- The round keys of an 8-byte key; parity bits play no part. -/
def roundKeys (key : Bytes) : List (List Nat) :=
  let k := permute pc1 (toBits 64 (beNat (fit 8 key)))
  keysAux shifts (k.take 28) (k.drop 28)

/-- One block through the sixteen rounds with the given round keys. -/
def run (ks : List (List Nat)) (blk : Bytes) : Bytes :=
  let b := permute ip (toBits 64 (beNat (fit 8 blk)))
  let (l, r) := ks.foldl (fun (p : List Nat × List Nat) k => (p.2, List.zipWith (· ^^^ ·) p.1 (feistel p.2 k)))
    (b.take 32, b.drop 32)
  beBytes 8 (ofBits (permute fp (r ++ l)))

/-- Single DES encryption. -/
def enc1 (key blk : Bytes) : Bytes := run (roundKeys key) blk

/-- Single DES decryption. -/
def dec1 (key blk : Bytes) : Bytes := run (roundKeys key).reverse blk

/-- The third key of TDES: its own, or the first again for a double-length key. -/
def third (key : Bytes) : Bytes := if key.length ≤ 16 then slice key 0 8 else slice key 16 8

/-- TDES encryption under a double- or triple-length key. -/
def encrypt (key blk : Bytes) : Bytes := enc1 (third key) (dec1 (slice key 8 8) (enc1 (slice key 0 8) blk))

/-- TDES decryption. -/
def decrypt (key blk : Bytes) : Bytes := dec1 (slice key 0 8) (enc1 (slice key 8 8) (dec1 (third key) blk))

end Sys2Proof.Machine.Des
end

