-- ==== Sys2Proof/Machine/Sha.lean ====
section
/-! DEFINITION. SHA-256, SHA-384 and SHA-512 of FIPS 180-4 and SHA-3 and SHAKE of FIPS 202 (R318), HMAC of FIPS 198-1.
The spec names the standards and does not print them: PRESUMED, log entry 10. -/

namespace Sys2Proof.Machine.Sha

open Sys2Proof.Machine

/-- The four 64-bit words a number holds, most significant first. -/
def fourWords (v : Nat) : List Nat := [192, 128, 64, 0].map (fun i => v / 2 ^ i % 2 ^ 64)

/-- The first 64 bits of the fractional parts of the cube roots of the first 80 primes, four to a row (`cubeRoots_eq` says so). -/
def cubeRoots : List Nat := List.flatMap fourWords
  [0x428A2F98D728AE227137449123EF65CDB5C0FBCFEC4D3B2FE9B5DBA58189DBBC,
   0x3956C25BF348B53859F111F1B605D019923F82A4AF194F9BAB1C5ED5DA6D8118,
   0xD807AA98A303024212835B0145706FBE243185BE4EE4B28C550C7DC3D5FFB4E2,
   0x72BE5D74F27B896F80DEB1FE3B1696B19BDC06A725C71235C19BF174CF692694,
   0xE49B69C19EF14AD2EFBE4786384F25E30FC19DC68B8CD5B5240CA1CC77AC9C65,
   0x2DE92C6F592B02754A7484AA6EA6E4835CB0A9DCBD41FBD476F988DA831153B5,
   0x983E5152EE66DFABA831C66D2DB43210B00327C898FB213FBF597FC7BEEF0EE4,
   0xC6E00BF33DA88FC2D5A79147930AA72506CA6351E003826F142929670A0E6E70,
   0x27B70A8546D22FFC2E1B21385C26C9264D2C6DFC5AC42AED53380D139D95B3DF,
   0x650A73548BAF63DE766A0ABB3C77B2A881C2C92E47EDAEE692722C851482353B,
   0xA2BFE8A14CF10364A81A664BBC423001C24B8B70D0F89791C76C51A30654BE30,
   0xD192E819D6EF5218D69906245565A910F40E35855771202A106AA07032BBD1B8,
   0x19A4C116B8D2D0C81E376C085141AB532748774CDF8EEB9934B0BCB5E19B48A8,
   0x391C0CB3C5C95A634ED8AA4AE3418ACB5B9CCA4F7763E373682E6FF3D6B2B8A3,
   0x748F82EE5DEFB2FC78A5636F43172F6084C87814A1F0AB728CC702081A6439EC,
   0x90BEFFFA23631E28A4506CEBDE82BDE9BEF9A3F7B2C67915C67178F2E372532B,
   0xCA273ECEEA26619CD186B8C721C0C207EADA7DD6CDE0EB1EF57D4F7FEE6ED178,
   0x06F067AA72176FBA0A637DC5A2C898A6113F9804BEF90DAE1B710B35131C471B,
   0x28DB77F523047D8432CAAB7B40C724933C9EBE0A15C9BEBC431D67C49C100D4C,
   0x4CC5D4BECB3E42B6597F299CFC657E2A5FCB6FAB3AD6FAEC6C44198C4A475817]

/-- The first 64 bits of the fractional parts of the square roots of the first 16 primes, four to a row (`squareRoots_eq` says so). -/
def squareRoots : List Nat := List.flatMap fourWords
  [0x6A09E667F3BCC908BB67AE8584CAA73B3C6EF372FE94F82BA54FF53A5F1D36F1,
   0x510E527FADE682D19B05688C2B3E6C1F1F83D9ABFB41BD6B5BE0CD19137E2179,
   0xCBBB9D5DC1059ED8629A292A367CD5079159015A3070DD17152FECD8F70E5939,
   0x67332667FFC00B318EB44A8768581511DB0C2E0D64F98FA747B5481DBEFA4FA4]

/-- The round constants of SHA-384 and SHA-512. -/
def k512 : List Nat := cubeRoots

/-- The round constants of SHA-256: the upper halves of the first 64. -/
def k256 : List Nat := (cubeRoots.take 64).map (· / 2 ^ 32)

/-- Initial state of SHA-512. -/
def h512 : List Nat := squareRoots.take 8

/-- Initial state of SHA-384. -/
def h384 : List Nat := squareRoots.drop 8

/-- Initial state of SHA-256. -/
def h256 : List Nat := (squareRoots.take 8).map (· / 2 ^ 32)

/-- Rotate a `w`-bit word right by `n`. -/
def rotr (w n x : Nat) : Nat := x / 2 ^ n + x % 2 ^ n * 2 ^ (w - n)

/-- What differs between the members of SHA-2: word width, the rotation counts and the round constants. -/
structure Params where
  w : Nat
  s0 : Nat × Nat × Nat
  s1 : Nat × Nat × Nat
  b0 : Nat × Nat × Nat
  b1 : Nat × Nat × Nat
  k : List Nat

/-- SHA-256. -/
def p256 : Params := ⟨32, (7, 18, 3), (17, 19, 10), (2, 13, 22), (6, 11, 25), k256⟩

/-- SHA-384 and SHA-512. -/
def p512 : Params := ⟨64, (1, 8, 7), (19, 61, 6), (28, 34, 39), (14, 18, 41), k512⟩

/-- The small sigma functions: two rotations and a shift. -/
def small (p : Params) (r : Nat × Nat × Nat) (x : Nat) : Nat := rotr p.w r.1 x ^^^ rotr p.w r.2.1 x ^^^ (x / 2 ^ r.2.2)

/-- The big sigma functions: three rotations. -/
def big (p : Params) (r : Nat × Nat × Nat) (x : Nat) : Nat := rotr p.w r.1 x ^^^ rotr p.w r.2.1 x ^^^ rotr p.w r.2.2 x

/-- The message schedule, latest word first: `n` words still to add. -/
def schedAux (p : Params) : Nat → List Nat → List Nat
  | 0, ws => ws
  | n + 1, ws => schedAux p n
      (((small p p.s1 (ws.getD 1 0) + ws.getD 6 0 + small p p.s0 (ws.getD 14 0) + ws.getD 15 0) % 2 ^ p.w) :: ws)

/-- One round on the eight working words, with schedule word plus constant. -/
def round (p : Params) (st : List Nat) (wk : Nat) : List Nat :=
  match st with
  | [a, b, c, d, e, f, g, h] =>
    let ch := (e &&& f) ^^^ ((2 ^ p.w - 1 - e) &&& g)
    let maj := (a &&& b) ^^^ (a &&& c) ^^^ (b &&& c)
    let t1 := h + big p p.b1 e + ch + wk
    let t2 := big p p.b0 a + maj
    [(t1 + t2) % 2 ^ p.w, a, b, c, (d + t1) % 2 ^ p.w, e, f, g]
  | _ => st

/-- One block into the chaining value. -/
def block (p : Params) (h : List Nat) (blk : Bytes) : List Nat :=
  let w0 := ((chunks (p.w / 8) blk).map beNat).reverse
  let ws := (schedAux p (p.k.length - 16) w0).reverse
  let st := (List.zipWith (· + ·) ws p.k).foldl (round p) h
  List.zipWith (fun a b => (a + b) % 2 ^ p.w) h st

/-- The padded message. -/
def pad (p : Params) (m : Bytes) : Bytes :=
  let bl := 2 * p.w
  let lenBytes := p.w / 4
  let z := (bl - (m.length + 1 + lenBytes) % bl) % bl
  m ++ [0x80#8] ++ zeros z ++ beBytes lenBytes (8 * m.length)

/-- The hash of a message from an initial state, cut to `n` bytes. -/
def hash (p : Params) (h0 : List Nat) (n : Nat) (m : Bytes) : Bytes :=
  let h := (chunks (2 * p.w) (pad p m)).foldl (block p) h0
  ((h.map (beBytes (p.w / 8))).flatten).take n

/-- SHA-256 (R318). -/
def sha256 (m : Bytes) : Bytes := hash p256 h256 32 m

/-- SHA-384 (R143). -/
def sha384 (m : Bytes) : Bytes := hash p512 h384 48 m

/-- SHA-512. -/
def sha512 (m : Bytes) : Bytes := hash p512 h512 64 m

/-- HMAC of FIPS 198-1 over a hash with the given block length. -/
def hmac (h : Bytes → Bytes) (blk : Nat) (key msg : Bytes) : Bytes :=
  let k0 := fit blk (if key.length > blk then h key else key)
  h (k0.map (· ^^^ 0x5C#8) ++ h (k0.map (· ^^^ 0x36#8) ++ msg))

/-- HMAC-SHA-256. -/
def hmac256 (key msg : Bytes) : Bytes := hmac sha256 64 key msg

/-- HMAC-SHA-384. -/
def hmac384 (key msg : Bytes) : Bytes := hmac sha384 128 key msg

/-- HMAC-SHA-512. -/
def hmac512 (key msg : Bytes) : Bytes := hmac sha512 128 key msg

/-! ### SHA-3 and SHAKE (FIPS 202) -/

/-- The round constants of Keccak-f[1600]. -/
def keccakRc : List Nat :=
  [0x0000000000000001, 0x0000000000008082, 0x800000000000808A, 0x8000000080008000, 0x000000000000808B, 0x0000000080000001,
   0x8000000080008081, 0x8000000000008009, 0x000000000000008A, 0x0000000000000088, 0x0000000080008009, 0x000000008000000A,
   0x000000008000808B, 0x800000000000008B, 0x8000000000008089, 0x8000000000008003, 0x8000000000008002, 0x8000000000000080,
   0x000000000000800A, 0x800000008000000A, 0x8000000080008081, 0x8000000000008080, 0x0000000080000001, 0x8000000080008008]

/-- Rotation offsets, lane x + 5y. -/
def keccakRot : List Nat :=
  [0, 1, 62, 28, 27, 36, 44, 6, 55, 20, 3, 10, 43, 25, 39, 41, 45, 15, 21, 8, 18, 2, 61, 56, 14]

/-- Rotate a 64-bit lane left. -/
def rotl64 (n x : Nat) : Nat := x * 2 ^ n % 2 ^ 64 + x / 2 ^ (64 - n)

/-- One round of Keccak-f[1600] on 25 lanes. -/
def keccakRound (a : List Nat) (rc : Nat) : List Nat :=
  let at_ (i : Nat) : Nat := a.getD i 0
  let c := (List.range 5).map (fun x => at_ x ^^^ at_ (x + 5) ^^^ at_ (x + 10) ^^^ at_ (x + 15) ^^^ at_ (x + 20))
  let d := (List.range 5).map (fun x => c.getD ((x + 4) % 5) 0 ^^^ rotl64 1 (c.getD ((x + 1) % 5) 0))
  let t := (List.range 25).map (fun i => at_ i ^^^ d.getD (i % 5) 0)
  let b := (List.range 25).map (fun i =>
    let x := i % 5
    let y := i / 5
    let sx := (x + 3 * y) % 5
    let sy := x
    rotl64 (keccakRot.getD (sx + 5 * sy) 0 % 64) (t.getD (sx + 5 * sy) 0))
  let e := (List.range 25).map (fun i =>
    let x := i % 5
    let y := i / 5
    b.getD i 0 ^^^ ((2 ^ 64 - 1 - b.getD ((x + 1) % 5 + 5 * y) 0) &&& b.getD ((x + 2) % 5 + 5 * y) 0))
  match e with
  | [] => []
  | e0 :: r => (e0 ^^^ rc) :: r

/-- Keccak-f[1600]. -/
def keccakF (a : List Nat) : List Nat := keccakRc.foldl keccakRound a

/-- Absorb one block of `rate` bytes. -/
def absorb (a : List Nat) (blk : Bytes) : List Nat :=
  keccakF (List.zipWith (· ^^^ ·) a ((chunks 8 (fit 200 blk)).map leNat))

/-- Squeeze `n` blocks of `rate` bytes. -/
def squeeze (rate : Nat) : Nat → List Nat → Bytes
  | 0, _ => []
  | n + 1, a => ((a.map (leBytes 8)).flatten).take rate ++ squeeze rate n (keccakF a)

/-- The sponge: `dom` is the domain byte that starts the padding. -/
def sponge (rate : Nat) (dom : Byte) (n : Nat) (m : Bytes) : Bytes :=
  let padLen := rate - m.length % rate
  let p := m ++ [dom] ++ zeros (padLen - 1)
  let p := p.dropLast ++ [p.getLastD 0#8 ^^^ 0x80#8]
  let a := (chunks rate p).foldl absorb (List.replicate 25 0)
  (squeeze rate (ceilDiv n rate) a).take n

/-- SHA3-256. -/
def sha3_256 (m : Bytes) : Bytes := sponge 136 0x06#8 32 m
/-- SHA3-384. -/
def sha3_384 (m : Bytes) : Bytes := sponge 104 0x06#8 48 m
/-- SHA3-512. -/
def sha3_512 (m : Bytes) : Bytes := sponge 72 0x06#8 64 m
/-- SHAKE128. -/
def shake128 (n : Nat) (m : Bytes) : Bytes := sponge 168 0x1F#8 n m
/-- SHAKE256. -/
def shake256 (n : Nat) (m : Bytes) : Bytes := sponge 136 0x1F#8 n m

end Sys2Proof.Machine.Sha
end

