-- ==== Sys2Proof/Machine/Modes.lean ====
section
/-! DEFINITION. Modes of operation over AES and TDES, MACs, key wrap, AES-SIV, the KDF of R146 and the CRC of R161, as
the standards named in 00_scope.md define them (assumption 10). A block cipher is a key beside the choice of AES or TDES. -/

namespace Sys2Proof.Machine

/-- A key with the cipher it belongs to. -/
structure Cipher where
  aes : Bool
  key : Bytes
  deriving DecidableEq, Repr

/-- Block length of a cipher. -/
def Cipher.block (c : Cipher) : Nat := if c.aes then 16 else 8

/-- Encrypt one block. -/
def Cipher.enc (c : Cipher) (b : Bytes) : Bytes := if c.aes then Aes.encrypt c.key b else Des.encrypt c.key b

/-- Decrypt one block. -/
def Cipher.dec (c : Cipher) (b : Bytes) : Bytes := if c.aes then Aes.decrypt c.key b else Des.decrypt c.key b

/-- CBC encryption of whole blocks (SP 800-38A). -/
def cbcEncAux (c : Cipher) : List Bytes → Bytes → Bytes
  | [], _ => []
  | b :: r, iv => let y := c.enc (xorBytes b iv); y ++ cbcEncAux c r y

/-- CBC encryption of whole blocks (SP 800-38A). -/
def cbcEnc (c : Cipher) (iv data : Bytes) : Bytes := cbcEncAux c (chunks c.block data) iv

/-- CBC decryption of whole blocks. -/
def cbcDecAux (c : Cipher) : List Bytes → Bytes → Bytes
  | [], _ => []
  | b :: r, iv => xorBytes (c.dec b) iv ++ cbcDecAux c r b

/-- CBC decryption of whole blocks. -/
def cbcDec (c : Cipher) (iv data : Bytes) : Bytes := cbcDecAux c (chunks c.block data) iv

/-- The last block of a CBC encryption from a zero IV. -/
def cbcMac (c : Cipher) (data : Bytes) : Bytes :=
  (chunks c.block data).foldl (fun y b => c.enc (xorBytes b y)) (zeros c.block)

/-- CTR keystream over blocks, the whole block a big-endian counter. -/
def ctrAux (c : Cipher) : List Bytes → Nat → Bytes
  | [], _ => []
  | b :: r, n => xorBytes b (c.enc (beBytes c.block n)) ++ ctrAux c r (n + 1)

/-- CTR mode from a full initial counter block (SP 800-38A). -/
def ctr (c : Cipher) (iv data : Bytes) : Bytes := ctrAux c (chunks c.block data) (beNat iv)

/-- Doubling in GF(2^128) or GF(2^64) for CMAC subkeys. -/
def dbl (n : Nat) (v : Nat) : Nat :=
  let w := 8 * n
  let r := if n = 16 then 0x87 else 0x1B
  if 2 ^ (w - 1) ≤ v then (2 * v % 2 ^ w) ^^^ r else 2 * v

/-- CMAC (SP 800-38B). -/
def cmac (c : Cipher) (m : Bytes) : Bytes :=
  let n := c.block
  let k1 := dbl n (beNat (c.enc (zeros n)))
  let k2 := dbl n k1
  let full := m.length ≠ 0 ∧ m.length % n = 0
  let lead := if full then m.length - n else m.length / n * n
  let last := m.drop lead
  let last' := if full then xorBytes last (beBytes n k1) else xorBytes (fit n (last ++ [0x80#8])) (beBytes n k2)
  c.enc (xorBytes last' (cbcMac c (m.take lead)))

/-- ISO/IEC 9797-1 padding method 1, 2 or 3 for 8-byte blocks. -/
def isoPad (method : Nat) (m : Bytes) : Bytes :=
  let up (x : Bytes) := x ++ zeros ((8 - x.length % 8) % 8)
  if method = 2 then up (m ++ [0x80#8])
  else if method = 3 then beBytes 8 (8 * m.length) ++ up m
  else if m.isEmpty then zeros 8 else up m

/-- MAC algorithm 1: CBC under the whole key (ISO/IEC 9797-1, ISO 16609). -/
def macAlg1 (key : Bytes) (pad : Nat) (m : Bytes) : Bytes := cbcMac ⟨false, key⟩ (isoPad pad m)

/-- Single-DES CBC chaining under the left key half. -/
def desChain (k : Bytes) (m : Bytes) : Bytes :=
  (chunks 8 m).foldl (fun y b => Des.enc1 k (xorBytes b y)) (zeros 8)

/-- MAC algorithm 3, the retail MAC (ISO/IEC 9797-1). -/
def macAlg3 (key : Bytes) (pad : Nat) (m : Bytes) : Bytes :=
  let kl := slice key 0 8
  Des.enc1 kl (Des.dec1 (slice key 8 8) (desChain kl (isoPad pad m)))

/-- Multiplication in GF(2^128) as GCM orders bits. -/
def gcmMulAux : Nat → Nat → Nat → Nat → Nat
  | 0, _, _, z => z
  | n + 1, x, v, z =>
    let z' := if x / 2 ^ 127 % 2 = 1 then z ^^^ v else z
    let v' := if v % 2 = 1 then (v / 2) ^^^ (0xE1 * 2 ^ 120) else v / 2
    gcmMulAux n (2 * x % 2 ^ 128) v' z'

/-- GHASH (SP 800-38D). -/
def ghash (h : Nat) (data : Bytes) : Nat :=
  (chunks 16 data).foldl (fun y b => gcmMulAux 128 (y ^^^ beNat (fit 16 b)) h 0) 0

/-- Zero bytes up to a multiple of 16. -/
def pad16 (b : Bytes) : Bytes := b ++ zeros ((16 - b.length % 16) % 16)

/-- The GCM counter block a nonce gives. -/
def gcmJ0 (c : Cipher) (iv : Bytes) : Nat :=
  if iv.length = 12 then beNat (iv ++ beBytes 4 1)
  else ghash (beNat (c.enc (zeros 16))) (pad16 iv ++ zeros 8 ++ beBytes 8 (8 * iv.length))

/-- GCM counter mode: only the last 32 bits count. -/
def gctrAux (c : Cipher) : List Bytes → Nat → Bytes
  | [], _ => []
  | b :: r, n => xorBytes b (c.enc (beBytes 16 n)) ++ gctrAux c r (n / 2 ^ 32 * 2 ^ 32 + (n + 1) % 2 ^ 32)

/-- GCM counter mode from counter block `j` plus one. -/
def gctr (c : Cipher) (j : Nat) (data : Bytes) : Bytes :=
  gctrAux c (chunks 16 data) (j / 2 ^ 32 * 2 ^ 32 + (j + 1) % 2 ^ 32)

/-- The full GCM tag over authenticated data and ciphertext. -/
def gcmTag (c : Cipher) (iv aad ct : Bytes) : Bytes :=
  let s := ghash (beNat (c.enc (zeros 16))) (pad16 aad ++ pad16 ct ++ beBytes 8 (8 * aad.length) ++ beBytes 8 (8 * ct.length))
  xorBytes (beBytes 16 s) (c.enc (beBytes 16 (gcmJ0 c iv)))

/-- AES-GCM encryption (SP 800-38D): ciphertext and full tag. -/
def gcmEnc (key iv aad pt : Bytes) : Bytes × Bytes :=
  let c : Cipher := ⟨true, key⟩
  let ct := gctr c (gcmJ0 c iv) pt
  (ct, gcmTag c iv aad ct)

/-- AES-GCM decryption: the plaintext if the leftmost bytes of the tag match. -/
def gcmDec (key iv aad ct tag : Bytes) : Option Bytes :=
  let c : Cipher := ⟨true, key⟩
  if (gcmTag c iv aad ct).take tag.length = tag then some (gctr c (gcmJ0 c iv) ct) else none

/-- One pass of the RFC 3394 wrapping. -/
def kwPass (key : Bytes) : List Bytes → Nat → Bytes → Bytes × List Bytes
  | [], _, a => (a, [])
  | r :: rs, t, a =>
    let b := Aes.encrypt key (a ++ r)
    let (a', out) := kwPass key rs (t + 1) (xorBytes (slice b 0 8) (beBytes 8 t))
    (a', slice b 8 8 :: out)

/-- The six passes of RFC 3394 from integrity value `a`. -/
def kwWrap (key a : Bytes) (p : List Bytes) : Bytes :=
  let n := p.length
  let (a', r) := (List.range 6).foldl (fun (acc : Bytes × List Bytes) j => kwPass key acc.2 (n * j + 1) acc.1) (a, p)
  a' ++ r.flatten

/-- One pass of the RFC 3394 unwrapping, over the blocks in reverse. -/
def kwUnpass (key : Bytes) : List Bytes → Nat → Bytes → Bytes × List Bytes
  | [], _, a => (a, [])
  | r :: rs, t, a =>
    let b := Aes.decrypt key (xorBytes a (beBytes 8 t) ++ r)
    let (a', out) := kwUnpass key rs (t - 1) (slice b 0 8)
    (a', slice b 8 8 :: out)

/-- The six passes of RFC 3394 undone: the integrity value and the blocks. -/
def kwUnwrap (key : Bytes) (w : Bytes) : Bytes × List Bytes :=
  let blocks := chunks 8 w
  let n := blocks.length - 1
  let (a, r) := (List.range 6).foldl
    (fun (acc : Bytes × List Bytes) j => kwUnpass key acc.2 (n * (6 - j)) acc.1) (blocks.headD [], (blocks.drop 1).reverse)
  (a, r.reverse)

/-- The initial value of RFC 3394. -/
def kwIv : Bytes := List.replicate 8 0xA6#8

/-- AES key wrap of RFC 3394. -/
def aesKw (key p : Bytes) : Bytes := kwWrap key kwIv (chunks 8 p)

/-- AES key unwrap of RFC 3394: none where the integrity check fails. -/
def aesKwUnwrap (key w : Bytes) : Option Bytes :=
  if w.length % 8 ≠ 0 ∨ w.length < 24 then none
  else
    let (a, r) := kwUnwrap key w
    if a = kwIv then some r.flatten else none

/-- AES key wrap with padding of RFC 5649. -/
def aesKwp (key p : Bytes) : Bytes :=
  let a := [0xA6#8, 0x59#8, 0x59#8, 0xA6#8] ++ beBytes 4 p.length
  let q := p ++ zeros ((8 - p.length % 8) % 8)
  if q.length ≤ 8 then Aes.encrypt key (a ++ q) else kwWrap key a (chunks 8 q)

/-- AES key unwrap with padding of RFC 5649: none where the integrity check fails. -/
def aesKwpUnwrap (key w : Bytes) : Option Bytes :=
  if w.length % 8 ≠ 0 ∨ w.length < 16 then none
  else
    let (a, p) := if w.length = 16 then let b := Aes.decrypt key w; (slice b 0 8, slice b 8 8)
      else let (a, r) := kwUnwrap key w; (a, r.flatten)
    let n := beAt a 4 4
    if slice a 0 4 = [0xA6#8, 0x59#8, 0x59#8, 0xA6#8] ∧ n ≤ p.length ∧ p.length < n + 8 ∧ allZero (p.drop n)
    then some (p.take n) else none

/-- S2V of RFC 5297 over one associated string and the plaintext. -/
def s2v (k1 ad p : Bytes) : Bytes :=
  let c : Cipher := ⟨true, k1⟩
  let d := xorBytes (beBytes 16 (dbl 16 (beNat (cmac c (zeros 16))))) (cmac c ad)
  if 16 ≤ p.length then
    cmac c (p.take (p.length - 16) ++ xorBytes (p.drop (p.length - 16)) d)
  else cmac c (xorBytes (beBytes 16 (dbl 16 (beNat d))) (fit 16 (p ++ [0x80#8])))

/-- The counter block a synthetic IV gives (RFC 5297 clears two bits). -/
def sivCtr (v : Bytes) : Bytes :=
  beBytes 16 (beNat v - b2n (bit (beNat v) 63) * 2 ^ 63 - b2n (bit (beNat v) 31) * 2 ^ 31)

/-- AES-SIV encryption under a double-length key: the synthetic IV and the ciphertext (R168). -/
def sivEnc (key ad p : Bytes) : Bytes × Bytes :=
  let h := key.length / 2
  let v := s2v (key.take h) ad p
  (v, ctr ⟨true, key.drop h⟩ (sivCtr v) p)

/-- AES-SIV decryption: the plaintext where the synthetic IV verifies (R168). -/
def sivDec (key ad iv ct : Bytes) : Option Bytes :=
  let h := key.length / 2
  let p := ctr ⟨true, key.drop h⟩ (sivCtr iv) ct
  if s2v (key.take h) ad p = iv then some p else none

/-- The KDF of R146: SP 800-108 in counter mode over a PRF of `n` bytes, with L in 32 bits after the context. -/
def kdf (prf : Bytes → Bytes) (n : Nat) (label ctx : Bytes) (lbits : Nat) : Bytes :=
  let fixed := label ++ [0#8] ++ ctx ++ beBytes 4 lbits
  let blocks := ceilDiv (lbits / 8) n
  (((List.range blocks).map (fun i => prf (beBytes 4 (i + 1) ++ fixed))).flatten).take (lbits / 8)

/-- The KDF of R146 over HMAC-SHA-384. -/
def kdfHmac (key label ctx : Bytes) (lbits : Nat) : Bytes := kdf (Sha.hmac384 key) 48 label ctx lbits

/-- The KDF of R146 over AES-CMAC (R205, KEY_DERIVE). -/
def kdfCmac (key label ctx : Bytes) (lbits : Nat) : Bytes := kdf (cmac ⟨true, key⟩) 16 label ctx lbits

/-- One bit of the CRC-8 of R161. -/
def crc8Bits : Nat → Nat → Nat
  | 0, c => c
  | n + 1, c => crc8Bits n (if 128 ≤ c then (2 * c % 256) ^^^ 0x07 else 2 * c)

/-- CRC-8, polynomial 0x07, initial value 0 (R161). -/
def crc8 (b : Bytes) : Nat := b.foldl (fun c x => crc8Bits 8 (c ^^^ x.toNat)) 0

end Sys2Proof.Machine
end

