-- ==== Sys2Proof/Machine/Operands.lean ====
section
/-! DEFINITION. The operand forms: descriptor fields (R105, R106), key handles (R160, R161), templates (R204), and the
completion header, digest and time encoding (R110, R111, R124). -/

namespace Sys2Proof.Machine

/-- The 16-bit code of a status (R20). -/
def Status.code : Status → Nat
  | .ok => 0x0000
  | .verifyFail => 0x0001
  | .malformed => 0x0101
  | .badOpcode => 0x0102
  | .chainAborted => 0x0103
  | .ringOverrun => 0x0104
  | .keyNotFound => 0x0201
  | .keyRevoked => 0x0202
  | .keyUsage => 0x0203
  | .keyExpired => 0x0204
  | .entropyFailed => 0x0301
  | .faultDetected => 0x0302
  | .aborted => 0x0303
  | .quota => 0x0401
  | .serviceLocked => 0x0402
  | .notActive => 0x0403
  | .inputRange => 0x0501
  | .notOnCurve => 0x0502
  | .counterExhausted => 0x0601

/-- The control word (R106). -/
def ctl (d : Bytes) : Nat := leAt d 0 8

/-- OPCODE. -/
def opcode (d : Bytes) : Nat := bits (ctl d) 11 0

/-- VERSION. -/
def dVersion (d : Bytes) : Nat := bits (ctl d) 15 12

/-- LAP as the descriptor carries it. -/
def dLap (d : Bytes) : Nat := bits (ctl d) 23 16

/-- FIRST. -/
def dFirst (d : Bytes) : Bool := bit (ctl d) 24

/-- LAST. -/
def dLast (d : Bytes) : Bool := bit (ctl d) 25

/-- FENCE. -/
def dFence (d : Bytes) : Bool := bit (ctl d) 26

/-- NOTIFY. -/
def dNotify (d : Bytes) : Bool := bit (ctl d) 27

/-- HARDEN_OVERRIDE. -/
def dHarden (d : Bytes) : Bool := bit (ctl d) 28

/-- DONE as the descriptor carries it. -/
def dDone (d : Bytes) : Bool := bit (ctl d) 31

/-- TAG. -/
def dTag (d : Bytes) : Nat := bits (ctl d) 47 32

/-- SRC is a scatter list. -/
def dSrcSg (d : Bytes) : Bool := bit (ctl d) 48

/-- DST is a scatter list. -/
def dDstSg (d : Bytes) : Bool := bit (ctl d) 49

/-- Key handle at position 1, 2 or 3. -/
def dKey (d : Bytes) (pos : Nat) : Nat := leAt d (8 * pos) 8

/-- The 64 inline operand bytes, 32 to 95. -/
def dOps (d : Bytes) : Bytes := slice d 32 64

/-- SRC. -/
def dSrc (d : Bytes) : Nat := leAt d 96 8

/-- DST. -/
def dDst (d : Bytes) : Nat := leAt d 104 8

/-- SRC_LEN. -/
def dSrcLen (d : Bytes) : Nat := leAt d 112 4

/-- DST_LEN. -/
def dDstLen (d : Bytes) : Nat := leAt d 116 4

/-- PARAM0. -/
def dP0 (d : Bytes) : Nat := leAt d 120 4

/-- PARAM1. -/
def dP1 (d : Bytes) : Nat := leAt d 124 4

/-- The CHECK byte of a handle's upper 56 bits (R161). -/
def handleCheck (h : Nat) : Nat := crc8 (beBytes 7 (h / 256))

/-- A handle from its partition, slot and generation (R160). -/
def mkHandle (part slot gen : Nat) : Nat :=
  let up := part * 2 ^ 56 + slot * 2 ^ 28 + gen * 2 ^ 8
  up + handleCheck up

/-- PARTITION of a handle. -/
def hPart (h : Nat) : Nat := bits h 63 56

/-- SLOT of a handle. -/
def hSlot (h : Nat) : Nat := bits h 55 28

/-- GENERATION of a handle. -/
def hGen (h : Nat) : Nat := bits h 27 8

/-- CHECK of a handle. -/
def hCheck (h : Nat) : Nat := bits h 7 0

/-- LAP of an index in a ring of `size` entries (R104). -/
def lapOf (index size : Nat) : Nat := index / size % 256

/-- Index arithmetic modulo 2^32 (R99). -/
def idxSub (a b : Nat) : Nat := (a + 2 ^ 32 - b % 2 ^ 32) % 2 ^ 32

/-- Index arithmetic modulo 2^32 (R99). -/
def idxAdd (a b : Nat) : Nat := (a + b) % 2 ^ 32

/-- ENGINE_TIME of a time in ns (R111): the smallest exponent that fits, the mantissa rounded down. -/
def encodeTimeAux (ns : Nat) : Nat → Nat → Nat
  | 0, _ => 0xFFFF
  | fuel + 1, e => if ns / 2 ^ (e + 1) ≤ 4095 then e * 4096 + ns / 2 ^ (e + 1) else encodeTimeAux ns fuel (e + 1)

/-- ENGINE_TIME of a time in ns (R111). -/
def encodeTime (ns : Nat) : Nat := if 4095 * 2 ^ 16 < ns then 0xFFFF else encodeTimeAux ns 16 0

/-- The 16-byte completion header (R110). -/
def header (st : Status) (lap detail len timeNs seq : Nat) : Bytes :=
  leBytes 2 st.code ++ leBytes 1 lap ++ leBytes 1 (128 + detail) ++ leBytes 4 len ++ leBytes 2 (encodeTime timeNs)
    ++ leBytes 6 seq

/-- The 16-byte digest (R124). -/
def digest (st : Status) (lap dlap tag ring index seq : Nat) : Bytes :=
  leBytes 2 st.code ++ leBytes 1 lap ++ leBytes 1 dlap ++ leBytes 2 tag ++ leBytes 2 ring ++ leBytes 4 index
    ++ leBytes 4 seq

/-- A key template of R204, read from 32 bytes. -/
structure Template where
  alg       : Nat
  usage     : Nat
  mode      : Nat
  expo      : Nat
  version   : Nat
  tier      : Nat
  hardened  : Nat
  notBefore : Nat
  notAfter  : Nat
  deriving DecidableEq, Repr

/-- Read a template (R204). -/
def readTemplate (b : Bytes) : Template where
  alg := leAt b 0 2
  usage := beAt b 2 2
  mode := byteAt b 4
  expo := byteAt b 5
  version := beAt b 6 2
  tier := byteAt b 8
  hardened := byteAt b 9
  notBefore := leAt b 16 8
  notAfter := leAt b 24 8

/-- Record bytes 0 to 79: everything but the material (R165, R166). -/
def Rec.header (r : Rec) : Bytes :=
  leBytes 1 (16 + 4 * r.tier + 2 * b2n r.large + b2n r.hardened) ++ leBytes 1 r.part ++ leBytes 2 r.alg
    ++ beBytes 2 r.usage ++ leBytes 1 r.mode ++ leBytes 1 r.expo ++ beBytes 2 r.version
    ++ leBytes 2 (2 ^ 15 * b2n r.pub + 2 ^ 12 * r.origin + 2 ^ 11 * b2n r.revoked)
    ++ leBytes 3 r.gen ++ zeros 1 ++ leBytes 8 r.parent
    ++ ((List.range 3).map (fun i =>
      let l := r.anc.getD i ⟨0, 0⟩
      leBytes 3 l.idx ++ leBytes 3 l.gen)).flatten
    ++ zeros 3 ++ fit 5 r.kcv ++ zeros 2 ++ leBytes 4 (r.runCount * 2 ^ 24 + r.runFirst) ++ leBytes 8 r.notBefore
    ++ leBytes 8 r.notAfter ++ leBytes 8 r.counter

/-- A record as it is stored: MATERIAL encrypted with AES-SIV under the partition's record key, bytes 0 to 79 as associated data, and the
synthetic IV after it (R165, R168). -/
def wrapRec (recKey : Bytes) (r : Rec) : Rec :=
  let (siv, ct) := sivEnc recKey r.header (fit 32 r.material)
  { r with material := ct ++ siv }

/-- The 128 bytes of a stored record (R165). -/
def Rec.stored (r : Rec) : Bytes := r.header ++ fit 48 r.material

end Sys2Proof.Machine
end

