-- ==== Sys2Proof/Machine/Fetch.lean ====
section
/-! DEFINITION. The checks a descriptor meets when it is fetched: the first offending byte, if there is one (R18, R104,
R106, R108, R109, R162). -/

namespace Sys2Proof.Machine

/-- The lowest offset of a non-zero byte among bytes `o` to `o + n - 1`. -/
def firstNonZero (d : Bytes) (o n : Nat) : Option Nat :=
  ((List.range n).find? (fun i => byteAt d (o + i) != 0)).map (o + ·)

/-- The first of several findings, lowest offset first. -/
def firstOf (l : List (Option Nat)) : Option Nat :=
  (l.filterMap id).foldl (fun m x => match m with
    | none => some x
    | some y => some (min x y)) none

/-- A finding at a byte where a condition fails. -/
@[noinline] def need (ok : Bool) (o : Nat) : Option Nat := if ok then none else some o

/-- The control-word checks of R104, R106 and R109. -/
def ctlCheck (d : Bytes) (index size : Nat) : Option Nat :=
  firstOf
    [need (dVersion d == 1) 1, need (dLap d == lapOf index size) 2, need (!dDone d) 3,
     need (bits (ctl d) 30 29 == 0) 3, need (bits (ctl d) 55 50 == 0) 6, need (bits (ctl d) 63 56 == 0) 7]

/-- A scatter list's entries: address, length, whether it is the last, whether its reserved flags are zero (R107). -/
def sgEntries (b : Bytes) : List (Nat × Nat × Bool × Bool) :=
  (chunks 16 b).map (fun e => (leAt e 0 8, leAt e 8 4, bit (leAt e 12 4) 0, leAt e 12 4 / 2 == 0))

/-- The entries up to the first with END, if the list has one within 256 entries (R107). -/
def sgCut : List (Nat × Nat × Bool × Bool) → Nat → Option (List (Nat × Nat × Bool × Bool))
  | [], _ => none
  | _, 0 => none
  | e :: r, n + 1 => if e.2.2.1 then some [e] else (sgCut r n).map (e :: ·)

/-- Whether a scatter list keeps R107: entry lengths 1 to 16,777,216, reserved flags zero, the sum as required. -/
def sgOk (b : Bytes) (len : Nat) (isSrc : Bool) : Bool :=
  match sgCut (sgEntries b) 256 with
  | none => false
  | some l =>
    l.all (fun e => decide (1 ≤ e.2.1 ∧ e.2.1 ≤ 16777216) && e.2.2.2) &&
      (if isSrc then (l.map (fun e => e.2.1)).sum == len else decide (len ≤ (l.map (fun e => e.2.1)).sum))

/-- The pieces of `data` that a scatter list spreads over host memory (R107). -/
def sgSpread : List (Nat × Nat × Bool × Bool) → Bytes → List (Nat × Bytes)
  | [], _ => []
  | e :: r, data => if data.isEmpty then [] else (e.1, data.take e.2.1) :: sgSpread r (data.drop e.2.1)

end Sys2Proof.Machine
end

