-- ==== Sys2Proof/Machine/OpcodeTable.lean ====
section
/-! DEFINITION. What each opcode's descriptor may hold: the defined opcodes and, for each, the first byte that breaks its
layout (R105, R108, R109, R205 to R209, R213, R214, R228 to R251, R259, R264 to R296, R332 to R338). -/

namespace Sys2Proof.Machine

/-- The defined opcodes (R108, R205, R213, R259, R332). -/
def opcodes : List Nat :=
  [0x000, 0x101, 0x102, 0x103, 0x104, 0x105, 0x106, 0x107, 0x108, 0x109, 0x10A, 0x10B, 0x10C, 0x10D, 0x201, 0x202, 0x203,
   0x204, 0x205, 0x301, 0x302, 0x303, 0x311, 0x312, 0x401, 0x402, 0x403, 0x404, 0x405, 0x406, 0x407, 0x501, 0x502, 0x503,
   0x504, 0x510, 0x601, 0x602, 0x701, 0x702, 0x801, 0x802, 0x803, 0x804, 0x805, 0x901, 0x902, 0x903, 0x904, 0x905, 0x906,
   0x907, 0x908, 0x909, 0x90A, 0x90B, 0xA01, 0xA02]

/-- The raw opcodes, enabled only while RAW_SESSIONS is above 0 (R332). -/
def isRaw (op : Nat) : Bool := decide (0x901 ≤ op ∧ op ≤ 0x90B)

/-- Largest buffer of an opcode (R107, R238, R283). -/
def maxLen : Nat := 16777216

/-! ### Parts of a layout -/

/-- Key positions that must be zero. -/
@[noinline] def noKeys (d : Bytes) (l : List Nat) : List (Option Nat) := l.map (fun p => firstNonZero d (8 * p) 8)

/-- No source buffer. -/
@[noinline] def noSrc (d : Bytes) : List (Option Nat) := [need (!dSrcSg d) 6, firstNonZero d 96 8, firstNonZero d 112 4]

/-- No destination buffer. -/
@[noinline] def noDst (d : Bytes) : List (Option Nat) := [need (!dDstSg d) 6, firstNonZero d 104 8, firstNonZero d 116 4]

/-- Neither buffer: bytes 96 to 119 are zero (R105). -/
@[noinline] def noBuf (d : Bytes) : List (Option Nat) := noSrc d ++ noDst d

/-- SRC_LEN within limits. -/
@[noinline] def srcIn (d : Bytes) (lo hi : Nat) : Option Nat := need (decide (lo ≤ dSrcLen d ∧ dSrcLen d ≤ hi)) 112

/-- DST_LEN no smaller than `n`. -/
@[noinline] def dstMin (d : Bytes) (n : Nat) : Option Nat := need (decide (n ≤ dDstLen d)) 116

/-- Operand bytes `a` up to, but not including, `b` are zero. -/
@[noinline] def zeroFrom (d : Bytes) (a b : Nat) : Option Nat := firstNonZero d a (b - a)

/-- PARAM0 and PARAM1 both zero. -/
@[noinline] def noParams (d : Bytes) : List (Option Nat) := [firstNonZero d 120 8]

/-- PARAM1 zero. -/
@[noinline] def noP1 (d : Bytes) : Option Nat := firstNonZero d 124 4

/-- Bits [hi:lo] of a parameter at byte `o` are reserved: the finding is the byte of the lowest one that is set. -/
@[noinline] def resv (v o hi lo : Nat) : Option Nat :=
  ((List.range (hi + 1 - lo)).find? (fun i => bit v (lo + i))).map (fun i => o + (lo + i) / 8)

/-- A PIN block format of R221. -/
@[noinline] def fmtOk (f : Nat) : Bool := f == 0 || f == 1 || f == 3 || f == 4

/-- Bytes 8 to 15 of a PIN block field that is not of format 4 are zero (R228). -/
@[noinline] def pinTail (d : Bytes) (o f : Nat) : Option Nat := if f = 4 then none else firstNonZero d (o + 8) 8

/-- The reserved bytes of an inline template (R204). -/
@[noinline] def templateResv (d : Bytes) : Option Nat := zeroFrom d 42 48

/-! ### MAC specifications (R237) -/

/-- A MAC specification. -/
structure MacSpec where
  alg     : Nat
  padding : Nat
  macLen  : Nat
  inlen   : Nat
  source  : Bool
  deriving DecidableEq, Repr

/-- Read a MAC specification from a parameter word. -/
@[noinline] def macSpec (w : Nat) : MacSpec := ⟨bits w 3 0, bits w 7 4, bits w 15 8, bits w 23 16, bit w 24⟩

/-- The MAC lengths an ALG takes at fetch; the CMAC limit of a TDES key is checked at bind (R237). -/
@[noinline] def macLenOk (alg len : Nat) : Bool :=
  match alg with
  | 1 => decide (4 ≤ len ∧ len ≤ 8)
  | 3 => decide (4 ≤ len ∧ len ≤ 8)
  | 5 => decide (4 ≤ len ∧ len ≤ 16)
  | 6 => decide (8 ≤ len ∧ len ≤ 32)
  | 7 => decide (8 ≤ len ∧ len ≤ 48)
  | 8 => decide (8 ≤ len ∧ len ≤ 64)
  | _ => false

/-- The checks of ALG, PADDING and MAC_LEN of a specification at byte `o`. -/
@[noinline] def macAlgCheck (m : MacSpec) (o : Nat) : List (Option Nat) :=
  [need (m.alg == 1 || m.alg == 3 || decide (5 ≤ m.alg ∧ m.alg ≤ 8)) o,
   need (if m.alg = 1 ∨ m.alg = 3 then decide (1 ≤ m.padding ∧ m.padding ≤ 3) else m.padding == 0) o,
   need (macLenOk m.alg m.macLen) (o + 1)]

/-- The checks of a specification that also places the data (R237, R238), with the longest inline data `cap`. -/
@[noinline] def macDataCheck (d : Bytes) (m : MacSpec) (cap : Nat) : List (Option Nat) :=
  macAlgCheck m 120 ++
    [resv (dP0 d) 120 31 25,
     need (if m.source then m.inlen == 0 else decide (m.inlen ≤ cap)) 122,
     need (m.source || decide (1 ≤ m.inlen) || !(m.alg == 1 || m.alg == 3)) 122] ++ noDst d ++
    (if m.source then [srcIn d 1 maxLen] else noSrc d)

/-! ### DUKPT parameters (R243) -/

/-- SELECTOR of PARAM1. -/
@[noinline] def dkSel (d : Bytes) : Nat := bits (dP1 d) 11 8

/-- Whether VARIANT is TDES DUKPT. -/
@[noinline] def dkTdes (d : Bytes) : Bool := bits (dP1 d) 7 4 == 1

/-- WORKING of PARAM1. -/
@[noinline] def dkWork (d : Bytes) : Nat := bits (dP1 d) 3 0

/-- Whether the working key is an AES key. -/
@[noinline] def dkWorkAes (d : Bytes) : Bool := decide (2 ≤ dkWork d)

/-- The checks of PARAM1 for an opcode with its permitted selectors (R243). -/
@[noinline] def dkCheck (d : Bytes) (sels : List Nat) : List (Option Nat) :=
  [resv (dP1 d) 124 31 12,
   need (bits (dP1 d) 7 4 == 1 || bits (dP1 d) 7 4 == 2) 124,
   need (if dkTdes d then dkWork d == 0 else decide (dkWork d ≤ 4)) 124,
   need (sels.contains (dkSel d) && !(dkTdes d && (dkSel d == 3 || dkSel d == 6))) 125]

/-- A PIN format suits the working key (R221, R243). -/
@[noinline] def dkFmt (d : Bytes) (f : Nat) : Bool := (f == 4) == dkWorkAes d

/-- The KSN or ID field: bytes 90 and 91 are zero under TDES DUKPT, and bytes 92 to 95 always (R244). -/
@[noinline] def ksnResv (d : Bytes) : List (Option Nat) := [if dkTdes d then zeroFrom d 90 92 else none, zeroFrom d 92 96]

/-- The ID field of an origination: bytes 80 to 89, or 80 to 87 under AES DUKPT (R251). -/
@[noinline] def idResv (d : Bytes) : List (Option Nat) := [zeroFrom d (if dkTdes d then 90 else 88) 96]

/-- ALG of a DUKPT MAC suits the working key (R243). -/
@[noinline] def dkAlg (d : Bytes) (m : MacSpec) : List (Option Nat) :=
  [need (m.alg == 1 || m.alg == 3 || m.alg == 5) 120,
   need (!(dkWorkAes d && (m.alg == 1 || m.alg == 3)) && !(m.alg == 3 && dkWork d != 0)) 124]

/-! ### EMV parameters (R264, R271) -/

/-- The data of an EMV opcode: inline from byte 64, or at SRC (R264). -/
@[noinline] def emvData (d : Bytes) : List (Option Nat) :=
  let il := bits (dP0 d) 15 8
  noDst d ++
    (if bit (dP0 d) 7 then [need (il == 0) 121, srcIn d 1 1024] else [need (decide (1 ≤ il ∧ il ≤ 32)) 121] ++ noSrc d) ++
    [zeroFrom d (64 + min il 32) 96]

/-! ### FF1 parameters (R278) -/

/-- LENGTH, the digits kept at the left and at the right, and whether a check digit is carried. -/
@[noinline] def ff1Shape (d : Bytes) : Nat × Nat × Nat × Nat :=
  (bits (dP0 d) 5 0, bits (dP0 d) 9 6, bits (dP0 d) 13 10, b2n (bits (dP0 d) 15 14 != 0))

/-- TWEAK_LEN. -/
@[noinline] def ff1Tweak (d : Bytes) : Nat := bits (dP0 d) 21 17

/-- COUNTER_MODE. -/
@[noinline] def ff1Counter (d : Bytes) : Bool := bit (dP0 d) 16

/-- The checks of both FF1 opcodes. -/
@[noinline] def ff1Check (d : Bytes) (detok : Bool) : List (Option Nat) :=
  let (len, lead, trail, chk) := ff1Shape d
  noKeys d [2, 3] ++ noBuf d ++
    [noP1 d, resv (dP0 d) 120 31 22, need (bits (dP0 d) 15 14 != 3) 121,
     need (decide (ff1Tweak d ≤ (if ff1Counter d then 8 else 16))) 122,
     need (decide (lead ≤ 8)) 120, need (decide (trail ≤ 8)) 121, need (decide (6 ≤ len ∧ len ≤ 32)) 120,
     need (decide (lead + trail + chk + 6 ≤ len ∧ len ≤ lead + trail + chk + 32)) 120,
     zeroFrom d (48 + min (ff1Tweak d) 16) 64,
     if detok && ff1Counter d then none else zeroFrom d 64 72, zeroFrom d 72 96]

/-! ### Bulk and signature parameters (R282, R287) -/

/-- The checks of both bulk opcodes (R282, R283); a payload that only a TDES key's blocks divide is judged at bind. -/
@[noinline] def bulkCheck (d : Bytes) (dec : Bool) : List (Option Nat) :=
  let mode := bits (dP0 d) 3 0
  let tag := bits (dP0 d) 12 8
  let ivGen := bit (dP0 d) 4
  let aad := dP1 d
  noKeys d [2, 3] ++
    [resv (dP0 d) 120 31 13, resv (dP0 d) 120 7 5, need (decide (1 ≤ mode ∧ mode ≤ 3)) 120,
     need (if mode = 3 then decide (12 ≤ tag ∧ tag ≤ 16) else tag == 0) 121,
     need (!ivGen || (mode != 2 && !dec)) 120, need (decide (aad ≤ 65535) && (mode == 3 || aad == 0)) 124,
     srcIn d 1 maxLen, need (decide (aad ≤ dSrcLen d)) 112, dstMin d (dSrcLen d - aad),
     need (mode != 1 || (dSrcLen d - aad) % 8 == 0) 112,
     if ivGen then zeroFrom d 32 48 else if mode = 3 then zeroFrom d 44 48 else none,
     if dec && mode == 3 then zeroFrom d (48 + min tag 16) 64 else zeroFrom d 48 64, zeroFrom d 64 96]

/-- Bytes of a HASH value of R287. -/
@[noinline] def hashLen (h : Nat) : Nat :=
  match h with
  | 1 => 32
  | 2 => 48
  | 3 => 64
  | 4 => 32
  | 5 => 48
  | 6 => 64
  | _ => 0

/-- HASH. -/
@[noinline] def sHash (d : Bytes) : Nat := bits (dP0 d) 3 0

/-- PREHASHED. -/
@[noinline] def sPre (d : Bytes) : Bool := bit (dP0 d) 4

/-- CONTEXT_LEN. -/
@[noinline] def sCtx (d : Bytes) : Nat := bits (dP1 d) 15 8

/-- INLINE_LEN of SIGN. -/
@[noinline] def sInl (d : Bytes) : Nat := bits (dP1 d) 7 0

/-- The parameter checks SIGN and VERIFY share: without a hash the scheme takes no digest and no RSA padding, and with one
it takes no context (R287). -/
@[noinline] def signParams (d : Bytes) : List (Option Nat) :=
  noKeys d [2, 3] ++
    [resv (dP0 d) 120 31 7, need (decide (sHash d ≤ 6)) 120, need (decide (bits (dP0 d) 6 5 ≤ 1)) 120,
     need (sHash d != 0 || (!sPre d && bits (dP0 d) 6 5 == 0)) 120, resv (dP1 d) 124 31 16,
     need (sHash d == 0 || sCtx d == 0) 125]

/-! ### Raw parameters (R333, R337, R338) -/

/-- R, A, B, N and E of a raw descriptor (R337). -/
@[noinline] def rawR (d : Bytes) : Nat := leAt d 32 2

/-- Word offset of A. -/
@[noinline] def rawA (d : Bytes) : Nat := leAt d 34 2

/-- Word offset of B. -/
@[noinline] def rawB (d : Bytes) : Nat := leAt d 36 2

/-- Word offset of the modulus. -/
@[noinline] def rawN (d : Bytes) : Nat := leAt d 38 2

/-- Word offset of the exponent. -/
@[noinline] def rawE (d : Bytes) : Nat := leAt d 40 2

/-- N_WORDS. -/
@[noinline] def rawWords (d : Bytes) : Nat := bits (dP0 d) 8 0

/-- NE. -/
@[noinline] def rawNe (d : Bytes) : Nat := bits (dP0 d) 24 16

/-- PRIVATE. -/
@[noinline] def rawPriv (d : Bytes) : Bool := bit (dP0 d) 30

/-- BYTE_ORDER. -/
@[noinline] def rawBig (d : Bytes) : Bool := bit (dP0 d) 31

/-- COMPONENT. -/
@[noinline] def rawComp (d : Bytes) : Nat := bits (dP0 d) 27 25

/-- Two ranges of words have a word in common. -/
@[noinline] def overlaps (a n b m : Nat) : Bool := decide (a < b + m ∧ b < a + n)

/-- The offset fields an opcode reads, by the byte they stand at (R332). -/
def rawReads (op : Nat) : List Nat :=
  match op with
  | 0x903 => [32]
  | 0x904 => [32]
  | 0x905 => [34]
  | 0x906 => [32, 34, 36, 38]
  | 0x907 => [32, 34, 36, 38]
  | 0x908 => [32, 34, 36, 38]
  | 0x909 => [32, 34, 38]
  | 0x90A => [32, 34, 38, 40]
  | _ => []

/-- The checks of every raw opcode. `inChain` and `opened` say whether the entry lies in a chain and whether a
RAW_SESSION_OPEN stands earlier in it (R333, R338). -/
def rawCheck (d : Bytes) (op : Nat) (inChain opened : Bool) : List (Option Nat) :=
  let n := rawWords d
  let arith := decide (0x906 ≤ op ∧ op ≤ 0x90A)
  let priv := op == 0x90A && rawPriv d
  let sized := op != 0x901 && op != 0x902 && op != 0x90B
  let ext (o len : Nat) : Option Nat := need (decide (leAt d o 2 + len ≤ 8192)) o
  let reads := rawReads op
  (if arith || op == 0x904 then noKeys d [2, 3] else noKeys d [1, 2, 3]) ++
    ([32, 34, 36, 38, 40].filter (fun o => !reads.contains o)).map (fun o => firstNonZero d o 2) ++
    [zeroFrom d 42 64,
     need (if sized then decide (1 ≤ n ∧ n ≤ 256) else n == 0) 120, resv (dP0 d) 120 15 9,
     need (if op = 0x90A then decide (1 ≤ rawNe d ∧ rawNe d ≤ 256) else rawNe d == 0) 122,
     need (if op = 0x904 then rawComp d != 7 else rawComp d == 0) 123, resv (dP0 d) 120 29 28,
     need (op == 0x90A || !rawPriv d) 123, need (op == 0x903 || op == 0x905 || !rawBig d) 123] ++
    (if priv then [firstNonZero d 36 6] else []) ++
    (if op = 0x901 then [noP1 d]
     else if dP1 d = 0xFFFFFFFF then [need (inChain && opened && op != 0x90B) 124]
     else [resv (dP1 d) 124 15 8]) ++
    [need (op != 0x90B || !inChain) 3] ++
    (reads.filter (fun o => o != 40)).map (fun o => ext o n) ++
    (if op = 0x90A && !priv then [ext 40 (rawNe d)] else []) ++
    (if arith then
      [need (!overlaps (rawR d) n (rawA d) n || rawR d == rawA d) 32,
       need (!(reads.contains 36) || !overlaps (rawR d) n (rawB d) n || rawR d == rawB d) 32,
       need (priv || !overlaps (rawR d) n (rawN d) n) 32,
       need (priv || op != 0x90A || !overlaps (rawR d) n (rawE d) (rawNe d)) 32]
     else []) ++
    (if op = 0x903 then
      (if dSrc d = 0 then [need (decide (n ≤ 4)) 120, firstNonZero d 112 4, zeroFrom d (64 + min (8 * n) 32) 96]
        else [need (dSrcLen d == 8 * n) 112, zeroFrom d 64 96]) ++ noDst d
     else if op = 0x905 then
      (if dDst d = 0 then [need (decide (n ≤ 8)) 120, firstNonZero d 116 4] else [dstMin d (8 * n)]) ++
        noSrc d ++ [zeroFrom d 64 96]
     else noBuf d ++ [zeroFrom d 64 96])

/-! ### The layout of each opcode -/

/-- Every finding against a descriptor's layout, in no order. -/
def opFindings (d : Bytes) (inChain opened : Bool) : List (Option Nat) :=
  let p0 := dP0 d
  let m := macSpec p0
  let op := opcode d
  match op with
  | 0x000 => [need (!dSrcSg d) 6, need (!dDstSg d) 6, firstNonZero d 8 120]
  | 0x101 => noKeys d [2, 3] ++ noBuf d ++ noParams d ++ [templateResv d, zeroFrom d 64 96]
  | 0x102 => noKeys d [2, 3] ++ noSrc d ++ noParams d ++ [templateResv d, zeroFrom d 64 96, dstMin d 32]
  | 0x103 => noKeys d [2, 3] ++ noBuf d ++ noParams d ++ [templateResv d]
  | 0x104 => noKeys d [3] ++ noDst d ++ [zeroFrom d 32 96, srcIn d 1 maxLen, resv p0 120 31 4, noP1 d]
  | 0x105 => noKeys d [3] ++ noDst d ++ noParams d ++ [templateResv d, zeroFrom d 64 96, srcIn d 1 maxLen]
  | 0x106 => noKeys d [3] ++ noSrc d ++ [zeroFrom d 32 96, need (p0 == 0x42 || p0 == 0x44) 120, noP1 d,
      dstMin d (if p0 = 0x42 then 112 else 128)]
  | 0x107 => noKeys d [3] ++ noSrc d ++ noParams d ++ [zeroFrom d 32 96, dstMin d 24]
  | 0x108 => noKeys d [2, 3] ++ noBuf d ++ noParams d ++ [zeroFrom d 32 96]
  | 0x109 => noKeys d [2, 3] ++ noBuf d ++ noParams d ++ [zeroFrom d 32 96]
  | 0x10A => noKeys d [2, 3] ++ noSrc d ++ noParams d ++ [zeroFrom d 32 96] ++
      (if dDst d = 0 then noDst d else [dstMin d 72])
  | 0x10B => noKeys d [2, 3] ++ noBuf d ++ noParams d ++ [zeroFrom d 49 96]
  | 0x10C => noKeys d [2, 3] ++ noDst d ++ noParams d ++ [templateResv d, zeroFrom d 64 96, srcIn d 1 maxLen]
  | 0x10D => noKeys d [2, 3] ++ noSrc d ++ noParams d ++ [zeroFrom d 32 96, dstMin d 32]
  | 0x201 => noKeys d [3] ++ noBuf d ++ [zeroFrom d 68 96, resv p0 120 31 9, need (fmtOk (bits p0 7 4)) 120,
      need (fmtOk (bits p0 3 0)) 120, noP1 d, pinTail d 32 (bits p0 3 0),
      if bit p0 8 then zeroFrom d 58 68 else none]
  | 0x202 => noKeys d [3] ++ noBuf d ++ [zeroFrom d 72 96, resv p0 120 31 12,
      need (decide (4 ≤ bits p0 11 8 ∧ bits p0 11 8 ≤ 12)) 121, need (decide (bits p0 7 4 ≤ 3)) 120,
      need (fmtOk (bits p0 3 0)) 120, noP1 d, pinTail d 32 (bits p0 3 0)]
  | 0x203 => noKeys d [3] ++ noBuf d ++ [zeroFrom d 60 96, resv p0 120 31 8, need (decide (bits p0 7 4 ≤ 9)) 120,
      need (fmtOk (bits p0 3 0)) 120, noP1 d, pinTail d 32 (bits p0 3 0)]
  | 0x204 =>
      let l := bits p0 15 12
      let n := bits p0 11 8
      noKeys d [3] ++ noBuf d ++ [zeroFrom d 32 48, zeroFrom d 66 96, resv p0 120 31 16,
        need (l == 0 || (decide (4 ≤ l ∧ l ≤ n) && dKey d 2 != 0)) 121, need (decide (4 ≤ n ∧ n ≤ 12)) 121,
        need (if dKey d 2 = 0 then bits p0 7 4 == 0 else decide (bits p0 7 4 ≤ 9)) 120, need (fmtOk (bits p0 3 0)) 120,
        noP1 d, if l = 0 then zeroFrom d 58 66 else none]
  | 0x205 =>
      let l := bits p0 11 8
      noKeys d [3] ++ noBuf d ++ [zeroFrom d 88 96, resv p0 120 31 17, resv p0 120 15 12,
        need (l == 0 || decide (4 ≤ l ∧ l ≤ 12)) 121, need (decide (bits p0 7 4 ≤ 9)) 120, need (fmtOk (bits p0 3 0)) 120,
        noP1 d, pinTail d 32 (bits p0 3 0), pinTail d 48 (bits p0 3 0),
        if l = 0 then zeroFrom d 74 82 else none, if l = 0 then zeroFrom d 84 88 else none,
        if bit p0 16 then zeroFrom d 32 48 else none, if bit p0 16 then zeroFrom d 82 88 else none]
  | 0x301 => noKeys d [2, 3] ++ macDataCheck d m 48 ++ [zeroFrom d 32 48, zeroFrom d (48 + min m.inlen 48) 96, noP1 d]
  | 0x302 => noKeys d [2, 3] ++ macDataCheck d m 48 ++ [need (m.source || decide (m.macLen ≤ 16)) 121, noP1 d] ++
      (if m.source then [zeroFrom d (32 + min m.macLen 64) 96]
       else [zeroFrom d (32 + min m.macLen 16) 48, zeroFrom d (48 + min m.inlen 48) 96])
  | 0x303 =>
      let m2 := macSpec (dP1 d)
      noKeys d [3] ++ macDataCheck d m 48 ++ macAlgCheck m2 124 ++ [resv (dP1 d) 124 31 16,
        need (decide (m.macLen ≤ 16)) 121, need (decide (m2.macLen ≤ 16)) 125,
        need (m.source || decide (1 ≤ m.inlen) || !(m2.alg == 1 || m2.alg == 3)) 122,
        zeroFrom d (32 + min m.macLen 16) 48, zeroFrom d (48 + min m.inlen 48) 96]
  | 0x311 => noKeys d [2, 3] ++ noBuf d ++ [zeroFrom d 32 48, zeroFrom d 62 96, resv p0 120 31 4,
      need (decide (3 ≤ bits p0 3 0 ∧ bits p0 3 0 ≤ 5)) 120, noP1 d]
  | 0x312 => noKeys d [2, 3] ++ noBuf d ++ [zeroFrom d 34 48, zeroFrom d 62 96, resv p0 120 31 4,
      need (decide (3 ≤ bits p0 3 0 ∧ bits p0 3 0 ≤ 5)) 120, noP1 d]
  | 0x401 => noKeys d [3] ++ noBuf d ++ dkCheck d [0] ++ ksnResv d ++ [zeroFrom d 68 80, resv p0 120 31 9,
      need (fmtOk (bits p0 7 4)) 120, need (fmtOk (bits p0 3 0)) 120, need (dkFmt d (bits p0 3 0)) 124,
      pinTail d 32 (bits p0 3 0), if bit p0 8 then zeroFrom d 58 68 else none]
  | 0x402 => noKeys d [2, 3] ++ macDataCheck d m 32 ++ dkCheck d [1, 2, 3] ++ dkAlg d m ++ ksnResv d ++
      [zeroFrom d 32 48, zeroFrom d (48 + min m.inlen 32) 80]
  | 0x403 => noKeys d [2, 3] ++ macDataCheck d m 32 ++ dkCheck d [1, 2, 3] ++ dkAlg d m ++ ksnResv d ++
      (if m.source then [zeroFrom d (32 + min m.macLen 16) 80]
       else [zeroFrom d (32 + min m.macLen 16) 48, zeroFrom d (48 + min m.inlen 32) 80])
  | 0x404 => noKeys d [2, 3] ++ dkCheck d [4, 5, 6] ++ ksnResv d ++ [resv p0 120 31 1,
      if dkWorkAes d then none else zeroFrom d 40 48, zeroFrom d 48 80, srcIn d (if dkWorkAes d then 16 else 8) maxLen,
      need (dSrcLen d % (if dkWorkAes d then 16 else 8) == 0) 112, dstMin d (dSrcLen d)]
  | 0x405 => noKeys d [2, 3] ++ noBuf d ++ [templateResv d, if dkTdes d then none else zeroFrom d 72 74, zeroFrom d 74 96,
      firstNonZero d 120 4, resv (dP1 d) 124 31 8, resv (dP1 d) 124 3 0,
      need (bits (dP1 d) 7 4 == 1 || bits (dP1 d) 7 4 == 2) 124]
  | 0x406 => noKeys d [3] ++ noBuf d ++ dkCheck d [0] ++ idResv d ++ [zeroFrom d 68 80, resv p0 120 31 9,
      need (fmtOk (bits p0 7 4)) 120, need (fmtOk (bits p0 3 0)) 120, need (dkFmt d (bits p0 7 4)) 124,
      pinTail d 32 (bits p0 3 0), if bit p0 8 then zeroFrom d 58 68 else none]
  | 0x407 => noKeys d [2, 3] ++ macDataCheck d m 32 ++ dkCheck d [1] ++ dkAlg d m ++ idResv d ++
      [zeroFrom d 32 48, zeroFrom d (48 + min m.inlen 32) 80]
  | 0x501 =>
      let arpc := bits p0 1 0
      let pad := bits p0 6 4
      noKeys d [2, 3] ++ emvData d ++ [firstNonZero d 51 1, resv p0 120 31 16, noP1 d, need (arpc != 3) 120,
        need (if arpc = 2 then decide (pad ≤ 4) else pad == 0) 120, if arpc = 1 then none else zeroFrom d 54 56,
        if arpc = 2 then zeroFrom d (60 + min pad 4) 64 else zeroFrom d 56 64]
  | 0x502 => noKeys d [2, 3] ++ emvData d ++ [zeroFrom d 32 40, firstNonZero d 51 1, zeroFrom d 54 64, resv p0 120 31 28,
      resv p0 120 23 16, resv p0 120 6 4, resv p0 120 2 0, need (decide (4 ≤ bits p0 27 24 ∧ bits p0 27 24 ≤ 8)) 123, noP1 d]
  | 0x503 => noKeys d [2, 3] ++ [zeroFrom d 32 40, firstNonZero d 51 1, zeroFrom d 54 96, resv p0 120 31 4,
      resv p0 120 2 0, noP1 d, srcIn d 1 1024, dstMin d (dSrcLen d / 8 * 8 + 8)]
  | 0x504 => noKeys d [3] ++ noBuf d ++ [firstNonZero d 69 1, zeroFrom d 72 96, resv p0 120 31 5, need (fmtOk (bits p0 3 0)) 120,
      pinTail d 32 (bits p0 3 0), noP1 d]
  | 0x510 =>
      let m2 := macSpec (dP1 d)
      noDst d ++ macAlgCheck m2 124 ++ [srcIn d 65 1344, zeroFrom d 32 96, resv p0 120 31 12,
        need (bits p0 9 8 == 1 || bits p0 9 8 == 2) 121, need (fmtOk (bits p0 7 4)) 120, need (fmtOk (bits p0 3 0)) 120,
        resv (dP1 d) 124 31 16, need (decide (m2.macLen ≤ 16)) 125]
  | 0x601 => ff1Check d false
  | 0x602 => ff1Check d true
  | 0x701 => bulkCheck d false
  | 0x702 => bulkCheck d true
  | 0x801 => signParams d ++
      (if sPre d then noSrc d ++ [need (sInl d == 0) 124, zeroFrom d (32 + hashLen (sHash d)) 96]
       else if dSrc d = 0 then noSrc d ++ [need (decide (1 ≤ sInl d ∧ sInl d ≤ 64)) 124, need (decide (sCtx d ≤ sInl d)) 125,
         zeroFrom d (32 + min (sInl d) 64) 96]
       else [need (sInl d == 0) 124, srcIn d 1 maxLen, need (decide (sCtx d ≤ dSrcLen d)) 125, zeroFrom d 32 96]) ++
      (if dDst d = 0 then noDst d else [])
  | 0x802 => signParams d ++ noDst d ++ [need (sInl d == 0) 124, need (decide (1 ≤ dSrcLen d)) 112,
      zeroFrom d (32 + (if sPre d then hashLen (sHash d) else 0)) 96]
  | 0x803 => noKeys d [3] ++ noDst d ++ [templateResv d, resv p0 120 31 1, noP1 d] ++
      (if dSrc d = 0 then noSrc d
       else [zeroFrom d 64 96, need (dSrcLen d == 65 || dSrcLen d == 97 || dSrcLen d == 133) 112])
  | 0x804 => noKeys d [3] ++ noSrc d ++ [templateResv d, zeroFrom d 64 96, resv p0 120 31 1, noP1 d, dstMin d 768]
  | 0x805 => noKeys d [3] ++ noDst d ++ [templateResv d, zeroFrom d 64 96, resv p0 120 31 1, noP1 d, srcIn d 1 maxLen]
  | 0xA01 => noKeys d [1, 2, 3] ++ noSrc d ++ [resv p0 120 31 9, resv p0 120 2 1, need (decide (bits p0 8 3 ≤ 32)) 120,
      need (decide (1 ≤ dP1 d ∧ dP1 d ≤ 65536)) 124, zeroFrom d (32 + min (bits p0 8 3) 32) 96] ++
      (if dDst d = 0 ∧ dP1 d ≤ 64 then noDst d else [need (dDst d != 0) 104, dstMin d (dP1 d)])
  | 0xA02 => noKeys d [1, 2, 3] ++ noBuf d ++ [resv p0 120 31 9, resv p0 120 2 0, need (decide (bits p0 8 3 ≤ 32)) 120,
      noP1 d, zeroFrom d (32 + min (bits p0 8 3) 32) 96]
  | _ => if isRaw op then rawCheck d op inChain opened else []

/-- The first offending byte by the opcode's layout, and of a scatter list's alignment (R107); an undefined opcode has
none (R109). -/
def opCheck (d : Bytes) (inChain opened : Bool) : Option Nat :=
  firstOf (need (!dSrcSg d || dSrc d % 16 == 0) 96 :: need (!dDstSg d || dDst d % 16 == 0) 104 :: opFindings d inChain opened)

/-! ### Buffers an opcode reads -/

/-- Whether an opcode reads SRC. -/
def readsSrc (d : Bytes) : Bool :=
  let op := opcode d
  op == 0x104 || op == 0x105 || op == 0x10C || op == 0x404 || op == 0x503 || op == 0x510 || op == 0x701 || op == 0x702
    || op == 0x802 || op == 0x805
    || ((op == 0x301 || op == 0x302 || op == 0x303 || op == 0x402 || op == 0x403 || op == 0x407) && (macSpec (dP0 d)).source)
    || ((op == 0x501 || op == 0x502) && bit (dP0 d) 7)
    || ((op == 0x801 || op == 0x803 || op == 0x903) && dSrc d != 0)

/-- Whether every buffer a descriptor needs before a step has been read (R119). -/
def buffersReady (d : Bytes) (sgSrc sgDst src : Option Bytes) : Bool :=
  (!dSrcSg d || sgSrc.isSome) && (!dDstSg d || sgDst.isSome) && (!readsSrc d || src.isSome)

end Sys2Proof.Machine
end

