-- ==== Sys2Proof/Machine/KeySpec.lean ====
section
/-! DEFINITION. Which key an opcode accepts at each position (R167, R172 to R176, R205, R213, R216, R223, R237, R240, R242,
R243, R259, R261, R340), and the facts about an algorithm that the opcodes share. -/

namespace Sys2Proof.Machine

/-! ### Algorithms (R167) -/

/-- A TDES key. -/
@[noinline] def isTdes (a : Nat) : Bool := a == 0x110 || a == 0x118

/-- An AES key. -/
@[noinline] def isAes (a : Nat) : Bool := a == 0x210 || a == 0x218 || a == 0x220

/-- An HMAC key of 16 to 255 bytes. -/
@[noinline] def isHmac (a : Nat) : Bool := decide (0x310 ≤ a ∧ a ≤ 0x3FF)

/-- An RSA key, modulus 1,024 to 16,384 bits. -/
@[noinline] def isRsa (a : Nat) : Bool := decide (0x40F ≤ a ∧ a ≤ 0x4FF)

/-- A key on P-256, P-384 or P-521. -/
@[noinline] def isEcc (a : Nat) : Bool := decide (0x501 ≤ a ∧ a ≤ 0x503)

/-- An ML-DSA key. -/
@[noinline] def isMldsa (a : Nat) : Bool := decide (0x601 ≤ a ∧ a ≤ 0x603)

/-- An ML-KEM key. -/
@[noinline] def isMlkem (a : Nat) : Bool := decide (0x701 ≤ a ∧ a ≤ 0x703)

/-- A symmetric key. -/
@[noinline] def isSym (a : Nat) : Bool := isTdes a || isAes a || isHmac a

/-- An asymmetric key. -/
@[noinline] def isAsym (a : Nat) : Bool := isRsa a || isEcc a || a == 0x504 || a == 0x505 || isMldsa a || isMlkem a

/-- Key bytes of a symmetric algorithm. -/
@[noinline] def symLen (a : Nat) : Nat :=
  if a = 0x110 then 16 else if a = 0x118 then 24 else if isAes a then a % 256 else if isHmac a then a % 256 else 0

/-- Modulus bits of an RSA algorithm code. -/
@[noinline] def rsaBits (a : Nat) : Nat := (a % 256 + 1) * 64

/-- Bytes of a public key (R285). -/
@[noinline] def pubLen (a : Nat) : Nat :=
  if isRsa a then rsaBits a / 8 + 4
  else if a = 0x501 then 65 else if a = 0x502 then 97 else if a = 0x503 then 133
  else if a = 0x504 ∨ a = 0x505 then 32
  else if a = 0x601 then 1312 else if a = 0x602 then 1952 else if a = 0x603 then 2592
  else if a = 0x701 then 800 else if a = 0x702 then 1184 else if a = 0x703 then 1568 else 0

/-- Bytes of a private key as stored (R169). -/
@[noinline] def privLen (a : Nat) : Nat :=
  if isRsa a then 7 * rsaBits a / 16 + 4
  else if a = 0x501 then 96 else if a = 0x502 then 144 else if a = 0x503 then 198
  else if a = 0x504 ∨ a = 0x505 then 64
  else if a = 0x601 then 2560 else if a = 0x602 then 4032 else if a = 0x603 then 4896
  else if a = 0x701 then 1632 else if a = 0x702 then 2400 else if a = 0x703 then 3168 else 0

/-- Granules of a content (R169). -/
@[noinline] def granules (len : Nat) : Nat := ceilDiv len 1008

/-- Whether a record of an algorithm is large (R167): Ed25519 and X25519 public keys stand in a standard record. -/
@[noinline] def isLarge (a : Nat) (pub : Bool) : Bool :=
  (isHmac a && decide (32 < a % 256)) || (isAsym a && !((a == 0x504 || a == 0x505) && pub))

/-- Signature bytes (R288). -/
@[noinline] def sigLen (a : Nat) : Nat :=
  if isRsa a then rsaBits a / 8
  else if a = 0x501 ∨ a = 0x504 then 64 else if a = 0x502 then 96 else if a = 0x503 then 132
  else if a = 0x601 then 2420 else if a = 0x602 then 3309 else if a = 0x603 then 4627 else 0

/-- ML-KEM ciphertext bytes (R293). -/
@[noinline] def ctLen (a : Nat) : Nat :=
  if a = 0x701 then 768 else if a = 0x702 then 1088 else if a = 0x703 then 1568 else 0

/-- Bytes of the secret that key agreement or encapsulation yields (R294). -/
@[noinline] def secretLen (a : Nat) : Nat := if a = 0x502 then 48 else if a = 0x503 then 66 else 32

/-! ### Usages and modes (R172, R173) -/

/-- The number two ASCII characters spell. -/
@[noinline] def chars (s : String) : Nat := beNat (ascii s)

/-- The algorithms and tiers a usage permits; none where the module does not accept the usage (R172). -/
def usageRow (u : Nat) : Option ((Nat → Bool) × Nat × Nat) :=
  let sym (a : Nat) : Bool := isTdes a || isAes a
  if u = chars "B0" then some (sym, 1, 2)
  else if u = chars "B1" then some (sym, 2, 3)
  else if u = chars "C0" ∨ u = chars "D0" ∨ u = chars "M6" ∨ u = chars "P0" then some (sym, 3, 3)
  else if chars "E0" ≤ u ∧ u ≤ chars "E6" then some (sym, 1, 2)
  else if u = chars "K0" ∨ u = chars "K1" then some (sym, 0, 3)
  else if u = chars "M0" ∨ u = chars "M1" ∨ u = chars "M3" ∨ u = chars "V1" ∨ u = chars "V2" then some (isTdes, 3, 3)
  else if u = chars "M7" then some (isHmac, 3, 3)
  else if u = chars "S0" then some (fun a => isRsa a || isEcc a || a == 0x504 || isMldsa a, 3, 3)
  else if u = chars "90" then some (isAes, 3, 3)
  else if u = chars "91" then some (fun a => isMlkem a || a == 0x505 || isEcc a, 3, 3)
  else none

/-- The directions of R173. -/
inductive Dir where
  | enc | dec | gen | ver | sign | sigVer | derive_
  deriving DecidableEq, Repr

/-- The modes a direction accepts. -/
def Dir.modes : Dir → List Nat
  | .enc => [0x42, 0x45, 0x4E]
  | .dec => [0x42, 0x44, 0x4E]
  | .gen => [0x43, 0x47, 0x4E]
  | .ver => [0x43, 0x56, 0x4E]
  | .sign => [0x53, 0x54, 0x4E]
  | .sigVer => [0x53, 0x54, 0x56, 0x4E]
  | .derive_ => [0x58, 0x4E]

/-- Whether a key's mode serves a direction. -/
@[noinline] def modeFor (r : Rec) (k : Dir) : Bool := k.modes.contains r.mode

/-- Whether a key has a usage. -/
@[noinline] def usedFor (r : Rec) (s : String) : Bool := r.usage == chars s

/-- The letters ASC X9 TR-31 gives as modes of use, those of R173 with Y (R204). -/
def modeLetters : List Nat := [0x42, 0x43, 0x44, 0x45, 0x47, 0x4E, 0x53, 0x54, 0x56, 0x58, 0x59]

/-- A P0 key of the algorithm a PIN block format needs (R221, R223). -/
@[noinline] def pinKey (r : Rec) (f : Nat) (k : Dir) : Bool :=
  usedFor r "P0" && modeFor r k && (if f = 4 then isAes r.alg else isTdes r.alg)

/-- A key that suits a MAC specification (R237). -/
@[noinline] def macKey (r : Rec) (m : MacSpec) (k : Dir) : Bool :=
  modeFor r k && (match m.alg with
    | 1 => (usedFor r "M0" || usedFor r "M1") && isTdes r.alg
    | 3 => usedFor r "M3" && r.alg == 0x110
    | 5 => usedFor r "M6" && (isAes r.alg || (isTdes r.alg && decide (m.macLen ≤ 8)))
    | _ => usedFor r "M7" && isHmac r.alg)

/-- A DUKPT base or initial key that suits the parameters: the algorithm of the variant, and a working key no longer than
it (R242, R243). -/
@[noinline] def dkKey (r : Rec) (d : Bytes) (usage : String) : Bool :=
  usedFor r usage && modeFor r .derive_ &&
    (if dkTdes d then r.alg == 0x110
     else isAes r.alg && decide ((match dkWork d with
       | 0 => 16
       | 1 => 24
       | 2 => 16
       | 3 => 24
       | _ => 32) ≤ symLen r.alg))

/-- The CMAC length limit of a DUKPT working key (R237). -/
@[noinline] def dkMac (d : Bytes) : Bool :=
  let m := macSpec (dP0 d)
  m.alg != 5 || decide (m.macLen ≤ (if dkWorkAes d then 16 else 8))

/-- A PIN-verification key whose usage agrees with CHECK_LEN and with TABLE or PVKI (R234, R236). -/
@[noinline] def refKey (r : Rec) (l : Nat) (sel : Nat) (ok : Rec → Bool) : Bool :=
  ok r && ((usedFor r "V1" && isTdes r.alg && l != 0 && decide (sel ≤ 3)) || (usedFor r "V2" && r.alg == 0x110 && l == 0))

/-- A parent for a new key of tier `t` (R175); a tier outside 1 to 3 is the template's own fault (R204). -/
@[noinline] def parentKey (r : Rec) (t : Nat) : Bool :=
  modeFor r .derive_ && decide (r.tier ≤ 2) && (decide (t < 1) || decide (3 < t) || decide (r.tier < t))

/-- TIER of a template at byte 32. -/
@[noinline] def tplTier (d : Bytes) : Nat := byteAt d 40

/-- A signature key that suits the parameters (R287, R288): the hash, the padding and the context are those of its scheme. -/
@[noinline] def sigKey (r : Rec) (d : Bytes) : Bool :=
  usedFor r "S0" &&
    (if isRsa r.alg then
      sHash d != 0 && (bits (dP0 d) 6 5 == 0 || decide (2 * hashLen (sHash d) + 2 ≤ ceilDiv (rsaBits r.alg - 1) 8))
     else if isEcc r.alg then sHash d != 0 && bits (dP0 d) 6 5 == 0
     else sHash d == 0 && (isMldsa r.alg || sCtx d == 0))

/-- A D0 key that suits the mode: TDES only in CBC (R283). -/
@[noinline] def bulkKey (r : Rec) (d : Bytes) : Bool :=
  usedFor r "D0" && (isAes r.alg || (isTdes r.alg && bits (dP0 d) 3 0 == 1))

/-- A raw session key: RSA, S0, private, in the Sign direction (R340). -/
@[noinline] def rawKey (r : Rec) : Bool := isRsa r.alg && usedFor r "S0" && modeFor r .sign && !r.pub

/-- The symmetric schemes' issuer master keys. -/
@[noinline] def emvKey (r : Rec) (usage : String) : Bool :=
  usedFor r usage && modeFor r .derive_ && (isTdes r.alg || isAes r.alg)

/-- Check 5 of R177 for the key at a position; none where the opcode takes no key there. -/
def keySpec (d : Bytes) (pos : Nat) : Option (Rec → Bool) :=
  let p0 := dP0 d
  let m := macSpec p0
  match opcode d, pos with
  | 0x101, 1 => some (fun r => parentKey r (tplTier d))
  | 0x102, 1 => some (fun r => parentKey r (tplTier d))
  | 0x103, 1 => some (fun r => isAes r.alg && parentKey r (tplTier d))
  | 0x104, 1 => some (fun r => usedFor r "K1" && modeFor r .dec)
  | 0x104, 2 => some (fun r => parentKey r (bits p0 1 0))
  | 0x105, 1 => some (fun r => usedFor r "K0" && modeFor r .dec && isAes r.alg)
  | 0x105, 2 => some (fun r => parentKey r (tplTier d))
  | 0x106, 1 => some (fun r => usedFor r "K1" && modeFor r .enc && (if p0 = 0x42 then isTdes r.alg else isAes r.alg))
  | 0x106, 2 => some (fun r => (r.expo == 0x45 || r.expo == 0x53) && !r.pub && (isSym r.alg || p0 == 0x44))
  | 0x107, 1 => some (fun r => usedFor r "K0" && modeFor r .enc && isAes r.alg)
  | 0x107, 2 => some (fun r => r.expo == 0x53 && isSym r.alg)
  | 0x108, 1 => some (fun r => decide (1 ≤ r.tier))
  | 0x109, 1 => some (fun r => decide (1 ≤ r.tier))
  | 0x10A, 1 => some (fun _ => true)
  | 0x10B, 1 => some (fun _ => true)
  | 0x10C, 1 => some (fun r => parentKey r (tplTier d))
  | 0x10D, 1 => some (fun r => isAsym r.alg)
  | 0x201, 1 => some (fun r => pinKey r (bits p0 3 0) .dec)
  | 0x201, 2 => some (fun r => pinKey r (bits p0 7 4) .enc)
  | 0x202, 1 => some (fun r => pinKey r (bits p0 3 0) .dec)
  | 0x202, 2 => some (fun r => usedFor r "V1" && modeFor r .ver && isTdes r.alg)
  | 0x203, 1 => some (fun r => pinKey r (bits p0 3 0) .dec)
  | 0x203, 2 => some (fun r => usedFor r "V2" && modeFor r .ver && r.alg == 0x110)
  | 0x204, 1 => some (fun r => pinKey r (bits p0 3 0) .enc)
  | 0x204, 2 => if dKey d 2 = 0 then none
      else some (fun r => refKey r (bits p0 15 12) (bits p0 7 4) (fun r => modeFor r .gen))
  | 0x205, 1 => some (fun r => pinKey r (bits p0 3 0) .dec)
  | 0x205, 2 => some (fun r => refKey r (bits p0 11 8) (bits p0 7 4) (fun r => r.mode == 0x43 || r.mode == 0x4E))
  | 0x301, 1 => some (fun r => macKey r m .gen)
  | 0x302, 1 => some (fun r => macKey r m .ver)
  | 0x303, 1 => some (fun r => macKey r m .ver)
  | 0x303, 2 => some (fun r => macKey r (macSpec (dP1 d)) .gen)
  | 0x311, 1 => some (fun r => usedFor r "C0" && modeFor r .gen && r.alg == 0x110)
  | 0x312, 1 => some (fun r => usedFor r "C0" && modeFor r .ver && r.alg == 0x110)
  | 0x401, 1 => some (fun r => dkKey r d "B0")
  | 0x401, 2 => some (fun r => pinKey r (bits p0 7 4) .enc)
  | 0x402, 1 => some (fun r => dkKey r d "B0" && dkMac d)
  | 0x403, 1 => some (fun r => dkKey r d "B0" && dkMac d)
  | 0x404, 1 => some (fun r => dkKey r d "B0")
  | 0x405, 1 => some (fun r => usedFor r "B0" && modeFor r .derive_ && (if dkTdes d then r.alg == 0x110 else isAes r.alg))
  | 0x406, 1 => some (fun r => dkKey r d "B1")
  | 0x406, 2 => some (fun r => pinKey r (bits p0 3 0) .dec)
  | 0x407, 1 => some (fun r => dkKey r d "B1" && dkMac d)
  | 0x501, 1 => some (fun r => emvKey r "E0")
  | 0x502, 1 => some (fun r => emvKey r "E2")
  | 0x503, 1 => some (fun r => emvKey r "E1")
  | 0x504, 1 => some (fun r => emvKey r "E1")
  | 0x504, 2 => some (fun r => pinKey r (bits p0 3 0) .dec)
  | 0x510, 1 => some (fun r => emvKey r "E0")
  | 0x510, 2 => some (fun r => (r.mode == 0x42 || r.mode == 0x4E) && pinKey r (bits p0 3 0) .dec && pinKey r (bits p0 7 4) .enc)
  | 0x510, 3 => some (fun r => macKey r (macSpec (dP1 d)) .gen)
  | 0x601, 1 => some (fun r => usedFor r "90" && modeFor r .enc && isAes r.alg)
  | 0x602, 1 => some (fun r => usedFor r "90" && modeFor r .dec && isAes r.alg)
  | 0x701, 1 => some (fun r => bulkKey r d && modeFor r .enc)
  | 0x702, 1 => some (fun r => bulkKey r d && modeFor r .dec)
  | 0x801, 1 => some (fun r => sigKey r d && modeFor r .sign && !r.pub)
  | 0x802, 1 => some (fun r => sigKey r d && modeFor r .sigVer)
  | 0x803, 1 => some (fun r => usedFor r "91" && modeFor r .dec && (isEcc r.alg || r.alg == 0x505) && !r.pub)
  | 0x803, 2 => some (fun r => parentKey r (tplTier d))
  | 0x804, 1 => some (fun r => usedFor r "91" && modeFor r .enc && isMlkem r.alg)
  | 0x804, 2 => some (fun r => parentKey r (tplTier d))
  | 0x805, 1 => some (fun r => usedFor r "91" && modeFor r .dec && isMlkem r.alg && !r.pub)
  | 0x805, 2 => some (fun r => parentKey r (tplTier d))
  | op, 1 => if decide (0x904 ≤ op ∧ op ≤ 0x90A) && op != 0x905 && dKey d 1 != 0 then some rawKey else none
  | _, _ => none

/-- The positions at which an opcode takes its new key's parent: a missing one is KEY_USAGE (R175). -/
def parentPos (d : Bytes) (pos : Nat) : Bool :=
  let op := opcode d
  (pos == 1 && (op == 0x101 || op == 0x102 || op == 0x103 || op == 0x10C || op == 0x405)) ||
    (pos == 2 && (op == 0x104 || op == 0x105 || op == 0x803 || op == 0x804 || op == 0x805))

/-- The positions an opcode binds, in order (R177). -/
def keyPositions (d : Bytes) : List Nat := [1, 2, 3].filter (fun p => (keySpec d p).isSome)

/-- Whether a descriptor names a key (R149). -/
def namesKey (d : Bytes) : Bool := !(keyPositions d).isEmpty

/-- Whether a descriptor's key binding waits for SRC: AUTHORISE_BUNDLE reads it in full first (R277). -/
def bindsAfterSrc (d : Bytes) : Bool := opcode d == 0x510

end Sys2Proof.Machine
end

