-- ==== Sys2Proof/Config.lean ====
section
/-! DEFINITION. What one module fixes and the spec does not give: values without a body, so that no proof can see them. -/

namespace Sys2Proof.Config

/-- Byte `n` of the stream every random draw is served from (R371 to R383): the spec fixes no value (assumption 3). -/
opaque freeByte : Nat → Byte

/-- Value `n` of what the spec leaves to chance as a number: dummy rounds, key-management times (assumption 3). -/
opaque freeNat : Nat → Nat

/-- Character `i` of the 12-character serial number (R11, OD 0x1000.02). -/
opaque serialByte : Nat → Byte

/-- Byte `i` of the FIS (R142). -/
opaque fisByte : Nat → Byte

/-- Byte `i` of the management port's MAC address in OTP (R585). -/
opaque macByte : Nat → Byte

/-- Byte `i` of the SHA-384 digest of boot object `k`: 0 boot ROM, 1 fuse configuration, 2 stage-1 loader, 3 resident
firmware, 4 sequencer microcode, 5 Seam firmware (R143). -/
opaque imageByte : Nat → Nat → Byte

/-- Byte `i` of the digest of the images in the inactive firmware slot (R154). -/
opaque stagedByte : Nat → Byte

/-- SEQUENCE of the running image set (R153, OD 0x1000.05). -/
opaque runningSequence : Nat

/-- Core number of a system source, set by firmware (R407). -/
opaque coreOf : Nat → Nat

/-- Core priority of a system source, set by firmware (R407). -/
opaque corePriority : Nat → Nat

/-- Byte `i` of the P-384 public key of Casuf authority `k`: 0 firmware (R154), 1 life cycle and debug (R456, R477),
2 product (R469). -/
opaque casufEcByte : Nat → Nat → Byte

/-- Byte `i` of the ML-DSA-87 public key of Casuf authority `k` (R154). -/
opaque casufMlByte : Nat → Nat → Byte

/-- The key-cache set of a record: the hash of R180 over PARTITION and SLOT is not given. -/
opaque cacheIndex : Nat → Nat → Nat

/-- What fixes the public exponent of a generated RSA key (R205): the spec states none. -/
opaque rsaExponent : Nat

/-- The algorithm letter a TR-31 header carries for a key whose letter ASC X9 TR-31 does not name (R208). -/
opaque tr31Letter : Nat → Byte

/-- The certificate chain shipped for half `k` of the identity key pair (R63, R470). -/
opaque shippedChain : Nat → Bytes

/-- Byte `i` of the Cocoon record key that Looper forms from the FIS: the spec does not give its two blocks (R321). -/
opaque recordKeyByte : Nat → Byte

/-- Byte `i` of the NAND key that Looper forms from the FIS: the spec does not give its two blocks (R24, R321). -/
opaque nandKeyByte : Nat → Byte

/-- Byte `i` of the granule key of the record that a slot holds in a generation: the spec does not say how it is formed (R165, R169). -/
opaque granuleByte : Nat → Nat → Nat → Byte

/-- Looper blocks the sealed identity object needs (R321: as the sealed object requires). -/
opaque identityBlocks : Nat

/-- The public key of the leaf of an X.509 chain, leaf first, that verifies under RFC 5280 to a Casuf authority key in the boot ROM:
2 product root, 3 commissioning authority; `ml` chooses the ML-DSA-87 chain (R464, R469, R470). -/
opaque chainKey : Nat → Bool → List Bytes → Option Bytes

/-- The subject serialNumber of a certificate (R469, R470). -/
opaque certSerial : Bytes → Bytes

/-- The P-256 public key of a Sleeve certificate that verifies against the Casuf Sleeve authority key in the boot ROM, and the cluster time
7 years after the date of manufacture it gives (R472, R474). -/
opaque sleeveKey : Bytes → Option (Bytes × Nat)

/-- Byte `i` of the secret that half `k` of the identity key pair is formed from: 0 P-384, 1 ML-DSA-87 (R466). -/
opaque identityByte : Nat → Nat → Byte

end Sys2Proof.Config
end

