-- ==== Sys2Proof/Machine/OdTable.lean ====
section
/-! DEFINITION. The entries of the object dictionary: size, access class, grant class, range, default and whether a row of
the command table is their own (R74, R212, R258, R300, R327, R363, R393, R417, R451, R479, R511, R563, R585, R586, R600). -/

namespace Sys2Proof.Machine

/-- Access classes of R17. -/
inductive Access where
  | ro | rw | wo | rwq | woo
  deriving DecidableEq, Repr

/-- One entry. `size` is its length in a body, 0 for a DOMAIN; `hi` bounds a number, `hi = 0` meaning any value;
`pa` says the Partition Administrator of partition 0 may write it too; `own` that a command of its own writes it. -/
structure Entry where
  size : Nat
  acc  : Access
  cls  : Nat
  pa   : Bool
  lo   : Nat
  hi   : Nat
  dflt : Bytes
  str  : Bool
  own  : Bool
  deriving DecidableEq, Repr

/-- A read-only entry of `n` bytes. -/
def eRo (n : Nat) : Entry := ⟨n, .ro, 0, false, 0, 0, zeros n, false, false⟩

/-- A numeric entry a session writes. -/
def eRw (n lo hi d : Nat) : Entry := ⟨n, .rw, 0, false, lo, hi, leBytes n d, false, false⟩

/-- An octet-string entry a grant writes. -/
def eQ (n cls d : Nat) : Entry := ⟨n, .rwq, cls, false, 0, 0, leBytes n d, false, false⟩

/-- A write-only entry. -/
def eWo (n : Nat) : Entry := ⟨n, .wo, 0, false, 0, 0, [], false, false⟩

/-- A read-only DOMAIN. -/
def eDom : Entry := eRo 0

/-- The same entry with a command row of its own. -/
def Entry.mine (e : Entry) : Entry := { e with own := true }

/-- The same entry with a range. -/
def Entry.rng (e : Entry) (lo hi : Nat) : Entry := { e with lo := lo, hi := hi }

/-- The class code a flag's source has by default (R437): 0 RECORD, 1 ALERT, 2 HALT, 3 LOCK, 4 ERASE. -/
def flagClass (f : Nat) : Nat :=
  if f < 48 then 4 else if f < 128 then 3 else if f < 140 then 4 else if f < 153 then 3 else if f = 153 then 2
  else if f = 154 then 1 else if f = 157 then 4 else 3

/-- The entries of one index from sub-index 1 on. -/
def odIndex (idx : Nat) : List Entry :=
  if idx = 0x1000 then [eRo 2, { eRo 12 with str := true }, eRo 1, { eRo 16 with str := true }, eRo 4, eRo 4, eRo 4, eRo 4]
  else if idx = 0x1001 then [eDom]
  else if idx = 0x1010 then
    [eRw 1 0 1 0, eRo 6, eRw 16 0 0 0, eRw 1 1 128 64, eRw 2 1024 65535 5170, eRo 1]
  else if idx = 0x1020 then [eRo 1, eRw 2 30 3600 600, eRo 4]
  else if 0x2100 ≤ idx ∧ idx < 0x2200 then
    let n := idx - 0x2100
    let q (w lo hi d : Nat) : Entry := ⟨w, .rw, 0, true, lo, hi, leBytes w d, false, true⟩
    [(eQ 1 4 n).mine, ((eQ 1 4 1).rng 0 1).mine, q 2 0 0 8, q 4 0 0 128, q 4 0 0 (2 ^ 20), q 4 0 0 16384, q 2 0 0 256,
     q 1 0 0 1, q 1 0 0 1, q 1 0 0 1, q 4 0 0 100, { q 1 0 0 64 with dflt := if n = 0 then leBytes 2 256 else leBytes 1 64 }, q 2 0 0 50, (eQ 1 4 0).rng 0 1,
     q 1 0 0 0, eRo 1]
  else if idx = 0x3000 then
    (List.replicate 8 (eRo 48)) ++ List.replicate 3 (eQ 48 2 0).mine
  else if idx = 0x3001 then
    [(eQ 0 2 0).mine, eRo 1, ((eQ 1 2 0).rng 0 1).mine, ((eQ 1 2 0).rng 0 1).mine, eRo 2]
  else if idx = 0x3002 then List.replicate 7 (eRo 4)
  else if 0x3100 ≤ idx ∧ idx < 0x3200 then
    [eRo 1, (eQ 1 2 5).mine, ((eQ 1 1 0).rng 0 1).mine, ((eQ 1 1 0).rng 0 1).mine, eRo 32, (eQ 1 12 1).rng 0 1, eRo 4,
     eRo 4, eRo 4, ⟨4, .rw, 0, true, 0, 0, leBytes 4 4096, false, true⟩, eDom, (eQ 2 12 0xC400).mine,
     { eQ 8 12 0 with dflt := [0x01#8, 0x23#8, 0x45#8, 0x67#8, 0x89#8, 0x01#8, 0x23#8, 0x45#8], own := true },
     { eQ 8 12 0 with dflt := List.replicate 8 0xFF#8, own := true },
     { eQ 8 12 0 with dflt := List.replicate 8 0xFF#8, own := true },
     { eQ 8 12 0 with dflt := List.replicate 8 0xFF#8, own := true },
     eRo 4, (eQ 4 12 0).mine, (eQ 2 12 0x400).mine, eRo 4, (eQ 1 12 0).rng 0 1]
  else if 0x3301 ≤ idx ∧ idx ≤ 0x330C then
    let c := idx - 0x3300
    let roles := if c = 3 then 2 else if c = 8 then 9 else if c = 12 then 5 else 1
    let m := if c = 4 ∨ c = 12 then 1 else 2
    let u := if c = 4 then 16 else if c = 12 then 4 else 1
    [(eQ 1 5 roles).mine, (eQ 1 5 m).mine, ((eQ 2 5 300).rng 30 3600).mine, ((eQ 1 5 u).rng 1 255).mine]
  else if idx = 0x3400 then [(eWo 36).mine, (eWo 69).mine, eRo 0, (eWo 5).mine]
  else if 0x3500 ≤ idx ∧ idx < 0x3540 then
    [(eQ 1 5 0).mine, (eQ 1 5 0).mine, (eQ 65 5 0).mine, { eQ 32 5 0 with str := true, own := true }]
  else if idx = 0x3600 then [(eQ 41 3 0).mine, (eWo 1).mine, eRo 1, eRo 13, (eQ 8 3 0).mine]
  else if idx = 0x4000 then [eRo 4, eRo 2, eRo 20, eRo 4, ((eQ 1 7 0).rng 0 1).mine]
  else if 0x4100 ≤ idx ∧ idx < 0x419F then [((eQ 1 5 (flagClass (idx - 0x4100))).rng 0 4).mine, eRo 4]
  else if 0x4200 ≤ idx ∧ idx < 0x4240 then
    [((eQ 1 5 0).rng 0 2).mine, (eQ 4 5 1000).mine, (eQ 4 5 10000).mine, eRo 4, eRo 4]
  else if 0x4300 ≤ idx ∧ idx < 0x4310 then [((eQ 1 5 0).rng 0 2).mine, eRo 1]
  else if idx = 0x4400 then [(eRw 1 0 1 0).mine]
  else if idx = 0x5000 then [eRo 1, eRo 4, eRo 4, eRo 8, eRo 8]
  else if idx = 0x5001 then List.replicate 6 (eRo 2)
  else if idx = 0x5002 then [(eQ 4 9 0).mine, eDom]
  else if 0x5011 ≤ idx ∧ idx ≤ 0x5014 then [eRo 8, eRo 4]
  else if 0x5100 ≤ idx ∧ idx < 0x5200 then [eRo 1, eRo 8, eRo 8, eRo 4, eRo 4]
  else if idx = 0x6000 then [eRo 8, eRo 8, eRo 4, eRo 1, eRo 4, eRo 8, eRo 4, eRo 1]
  else if idx = 0x6001 then [eDom]
  else if idx = 0x6002 then [((eQ 1 8 0).rng 0 1).mine]
  else if idx = 0x6003 then [(eWo 8).mine, eRo 1]
  else if idx = 0x7000 then
    [eQ 16 10 0, eQ 2 10 0, (eQ 2 10 0).mine, eQ 1 10 0, { eQ 8 10 0 with dflt := List.replicate 8 0xFF#8, own := true },
     eRo 8, eRo 48, eRo 1, eRo 1, (eQ 48 10 0).mine, eDom, eRo 48, eRo 2]
  else if idx = 0x7001 then [(eQ 8 10 0).mine, eRo 1, eRo 8, eRo 8]
  else if idx = 0x7010 then List.replicate 5 (eRo 4)
  else if idx = 0x7100 then
    [eQ 4 10 0, (eQ 1 10 0).rng 0 1, { eQ 12 10 0 with str := true }, eQ 2 10 0xFFFF, eQ 65 10 0,
     ((eQ 1 10 0).rng 0 1).mine]
  else if idx = 0x7101 then [eRo 4, eRo 8, eRo 8, eRo 2]
  else if idx = 0x7102 then [eRo 64, (eWo 48).mine, eRo 32, (eWo 161).mine]
  else if idx = 0x7110 then [eDom, eRo 22]
  else if 0x7200 ≤ idx ∧ idx < 0x7300 then [{ eQ 4 10 0 with dflt := List.replicate 4 0xFF#8 }, eRo 4]
  else if idx = 0x8000 then [eRo 1, eRo 1, eRo 4, eRo 1]
  else if idx = 0x8001 then [(eQ 1 6 0).mine]
  else if idx = 0x8010 then [eRo 32, { eWo 0 with acc := .woo, own := true }, eRo 16]
  else if idx = 0x8020 then [eRo 93, (eWo 0).mine, eRo 4, (eWo 1).mine, ((eQ 1 9 0).rng 0 1).mine]
  else if idx = 0x8030 then
    [eDom, eDom, (eWo 32).mine, eDom, (eWo 1).mine, { eWo 0 with acc := .woo, own := true }]
  else if idx = 0x8040 then [eRo 1, { eRo 16 with str := true }, eRo 4, eRo 2]
  else if idx = 0x9000 then [eRo 2, eRo 2, eRo 2, eRo 4, eRo 8, eRo 8, eRo 2, eRo 8]
  else if 0x9100 ≤ idx ∧ idx < 0x9108 then [eRo 1, eRo 8, eRo 8, eRo 1, eRo 8, eRo 2, eRo 4, eRo 4]
  else if 0x9110 ≤ idx ∧ idx < 0x9120 then [eRo 1, eRo 8, eRo 2]
  else if idx = 0x9120 then [eRo 8, eRo 4]
  else if 0x9140 ≤ idx ∧ idx < 0x9170 then [eRo 1, eRo 8, eRo 2, eRo 4, eRo 1]
  else if 0x9170 ≤ idx ∧ idx < 0x9180 then [eRo 1, eRo 8, eRo 2, eRo 4]
  else if idx = 0x9180 then [eRo 1, eRo 4]
  else if idx = 0xA000 then [eRo 1, (eWo 1).mine, eRw 2 0 0 100, eRo 4]
  else if idx = 0xA001 then [(eWo 16).mine, eRw 2 0 1000 20, ((eQ 1 11 0).rng 0 1).mine, eRo 4, eRo 8]
  else if idx = 0xA002 then [(eRw 4 0 0 0).mine]
  else if idx = 0xA010 then [eRw 1 0 1 0, eRw 1 0 1 1]
  else if idx = 0xA011 then [eRo 4]
  else if idx = 0xA020 then
    (List.range 64).map (fun i => (eRw 2 0 0 (if i = 0 then 1042 else 0xFFFF)).mine) ++ [eRo 2, eRo 8]
  else if idx = 0xA021 then [(eRw 4 0 0 0).mine]
  else if idx = 0xA030 then [eRo 4]
  else if idx = 0xA040 then [eRo 4, eRo 4]
  else []

/-- The entry at an index and sub-index (R564); sub-index 0 holds the highest sub-index present. -/
def odEntry (idx sub : Nat) : Option Entry :=
  if sub = 0 then
    if (odIndex idx).isEmpty then none
    else some { eRo 1 with dflt := leBytes 1 (odIndex idx).length }
  else if idx = 0x3400 ∧ sub = 3 then none
  else (odIndex idx)[sub - 1]?

/-- The default of an entry. -/
def odDefault (idx sub : Nat) : Bytes :=
  match odEntry idx sub with
  | some e => e.dflt
  | none => []

/-- Every index present, ascending (R585, DIRECTORY). -/
def odIndices : List Nat :=
  let span (a n : Nat) : List Nat := (List.range n).map (a + ·)
  [0x1000, 0x1001, 0x1010, 0x1020] ++ span 0x2100 256 ++ [0x3000, 0x3001, 0x3002] ++ span 0x3100 256 ++ span 0x3301 12
    ++ [0x3400] ++ span 0x3500 64 ++ [0x3600, 0x4000] ++ span 0x4100 159 ++ span 0x4200 64 ++ span 0x4300 16
    ++ [0x4400, 0x5000, 0x5001, 0x5002] ++ span 0x5011 4 ++ span 0x5100 256 ++ [0x6000, 0x6001, 0x6002, 0x6003, 0x7000,
    0x7001, 0x7010, 0x7100, 0x7101, 0x7102, 0x7110] ++ span 0x7200 256 ++ [0x8000, 0x8001, 0x8010, 0x8020, 0x8030, 0x8040,
    0x9000] ++ span 0x9100 8 ++ span 0x9110 16 ++ [0x9120] ++ span 0x9140 48 ++ span 0x9170 16 ++ [0x9180, 0xA000, 0xA001,
    0xA002, 0xA010, 0xA011, 0xA020, 0xA021, 0xA030, 0xA040]

end Sys2Proof.Machine
end

