-- ==== Sys2Proof/Machine/State.lean ====
section
/-! DEFINITION. Everything the spec gives the module to hold, as plain data, with the reasons a step can stop and the
state after reset. Numbers are natural numbers held within the widths INVENTORY.md lists; tables list only what differs
from the default their reader names. -/

namespace Sys2Proof.Machine

/-! ### Why a step stops -/

/-- A step that stops with a fault. No meaning of this model raises one: every event has an effect or none. -/
inductive Fault where
  /-- Raised by no meaning; it stands so that the type has a name for an absent address (safe). -/
  | absentAddress (addr : Nat)
  deriving DecidableEq, Repr

/-- A step that is refused. -/
inductive Refusal where
  /-- Raised only by an arm of exec whose command has no meaning yet (safe). -/
  | notModelled (mnemonic : String)
  deriving DecidableEq, Repr

/-! ### Functions and the host link (02_host_functions) -/

/-- One MSI-X table entry (R400); Mask Bit is 1 after reset. -/
structure MsixEntry where
  addr : Nat
  data : Nat
  mask : Bool
  deriving DecidableEq, Repr

/-- What one function holds: its configuration-space controls, the words written into its base address registers, and its HIF_
registers (R43, R44, R52, R56, R93). -/
structure Fn where
  bars        : Tab Nat
  mps         : Nat
  memSpace    : Bool
  busMaster   : Bool
  mrrs        : Nat
  tag10       : Bool
  d3hot       : Bool
  msixEnable  : Bool
  funcMask    : Bool
  msix        : Tab MsixEntry
  pba         : List Nat
  state       : FnState
  stray       : Nat
  ideLost     : Bool
  dropped     : Bool
  readTimeout : Bool
  readFault   : Bool
  errAddr     : Nat
  stallUs     : Nat
  hold        : Bool
  mapRefused  : Bool
  inFlr       : Bool
  deriving DecidableEq, Repr

/-- One selective IDE stream (R65 to R68): keys of the two key sets per direction, the set in use, the RID association registers
that name the functions it covers, and its 16 address association blocks of three registers each. -/
structure IdeStream where
  secure : Bool
  keys   : Tab Bytes
  active : Tab Nat
  rids   : Tab Nat
  addrs  : Tab Nat
  deriving DecidableEq, Repr

/-- What the host link and the PF hold once (R46, R49, R50, R57 to R69, R93). -/
structure Link where
  up             : Bool
  speed          : Nat
  width          : Nat
  reversed       : Bool
  retrains       : Nat
  trainedOnce    : Bool
  perst          : Bool
  perstSeenHigh  : Bool
  vfEnable       : Bool
  numVfs         : Nat
  ari            : Bool
  vfPending      : Option Nat
  sriovReject    : Bool
  coldOnPerst    : Bool
  warmOnLinkdown : Bool
  epoch          : Nat
  ide            : Tab IdeStream
  spdmSession    : Option Nat
  spdmKey        : Bytes
  spdmSeq        : Nat
  vfBars         : Tab Nat
  aerIde         : Bool
  deriving DecidableEq, Repr

/-! ### Rings, groups and descriptors in flight (03_work_rings, 01_architecture) -/

/-- One ring block (R130 to R139), with the indices below F without a written completion; `chainBad` says an entry of the chain that
still arrives was discarded, so the rest of it fails (R118, R132). -/
structure Ring where
  base      : Nat
  part      : Nat
  group     : Nat
  eventAll  : Bool
  sizeLog2  : Nat
  badCfg    : Bool
  badBase   : Bool
  state     : RingState
  settle    : RingState
  errCode   : Nat
  fetch     : Nat
  replay    : Nat
  latchLo   : Nat
  latchHi   : Nat
  prod      : Nat
  retire    : Nat
  glob      : Option Nat
  unwritten : List Nat
  chainAt   : Option Nat
  chainLen  : Nat
  chainWait : Bool
  chainBad  : Bool
  deriving DecidableEq, Repr

/-- One digest ring (R124 to R129, R138) and its group's binding (R98). -/
structure Group where
  base     : Nat
  sizeLog2 : Nat
  overflow : Bool
  enable   : Bool
  prod     : Nat
  cons     : Nat
  glob     : Option Nat
  deriving DecidableEq, Repr

/-- A key as it is bound to a descriptor (R32, R177). -/
structure Bound where
  pos    : Nat
  handle : Nat
  slot   : Nat
  rcd    : Rec
  deriving DecidableEq, Repr

/-- Where a descriptor in flight stands. -/
inductive Stage where
  | reading        -- read issued, data awaited
  | fetched        -- held in the admission buffer, not started
  | missWait       -- waiting for the unwrap of a key-cache miss
  | resvWait       -- waiting for a reservation-table entry
  | bound          -- keys bound; a step may be dispatched
  | queued         -- a step stands in a unit's queue or runs
  | drawWait       -- waiting for randomness, a token or a reseed
  | dataWait       -- waiting for source-buffer or scatter-list data
  | ran            -- every step has ended; the opcode's result is due
  | commitWait     -- its changes wait in the commit queue
  | closed         -- its changes are in a closed cycle or page
  | done           -- the completion may be handed over
  deriving DecidableEq, Repr

/-- A completion ready for the host (R110). -/
structure Result where
  status  : Status
  detail  : Nat
  len     : Nat
  inline_ : Option Bytes
  dst     : Bytes
  timeNs  : Nat
  seq     : Nat
  deriving DecidableEq, Repr

/-- A register page a descriptor uses: its lane and number, the load it took it for, the handle, and whether this descriptor loaded it
(R305, R308). -/
structure PageUse where
  lane   : Nat
  page   : Nat
  stamp  : Nat
  handle : Nat
  loaded : Bool
  deriving DecidableEq, Repr

/-- Countermeasure blocks reserved for a descriptor: the generator key and the number of the first block under it (R316, R317). -/
structure Blocks where
  key : Bytes
  ctr : Nat
  deriving DecidableEq, Repr

/-- One descriptor in flight: an admission-buffer slot (R37, R105, R119); `owed` is what its buffer reads still have to request,
`bufReads` how many of their requests are outstanding (R43, R44), `barred` that a lost IDE stream forbids its completion (R68), `ends`
the status a running entry of a failed chain takes once its step has run to its end (R118, R134), `lane` the lane chosen for its Skipper
work (R304), `hardDef` the partition's HARDEN_DEFAULT at its bind point, `blocks` and
`engBlocks` what it has reserved of a lane's and of an engine generator's buffer (R316, R359). -/
structure Slot where
  rid      : Nat
  part     : Nat
  index    : Nat
  desc     : Bytes
  stage    : Stage
  chain    : Option Nat
  chainEnd : Bool
  keys     : List Bound
  steps    : List UnitClass
  unit     : Option (UnitClass × Nat)
  started  : Bool
  random   : Bool
  rnd      : Bytes
  draws    : Nat
  src      : Option Bytes
  sgSrc    : Option Bytes
  sgDst    : Option Bytes
  resvd    : Option Nat
  ctr      : Nat
  early    : Option (Status × Nat)
  policy   : Nat
  dec      : Bytes
  lane     : Option Nat
  pages    : List PageUse
  hardDef  : Bool
  blocks   : Option Blocks
  engBlocks : Option Blocks
  sess     : Nat
  cut      : Option Status
  ends     : Option Status
  noWrite  : Bool
  readId   : Nat
  owed     : List (Nat × Nat)
  bufReads : Nat
  barred   : Bool
  changes  : List Change
  handle   : Nat
  time24   : Nat
  res      : Option Result
  deriving DecidableEq, Repr

/-- Admission (R31, R37, R119, R121, R122). -/
structure Admission where
  slots     : Tab Slot
  chainHold : Tab Nat
  cur       : Nat
  inTurn    : Bool
  deficit   : Tab Nat
  lastRing  : Tab Nat
  nextRead  : Nat
  deriving DecidableEq, Repr

/-- The disable procedure of a partition or a function (R81 to R85). -/
structure Disable where
  fn        : Nat
  trigger   : Trigger
  written   : Nat
  unwritten : Nat
  aborted   : Nat
  discarded : Nat
  firstSeq  : Nat
  lastSeq   : Nat
  remap     : Option Nat
  reply     : Option (Req × Nat × Nat × Nat)
  deriving DecidableEq, Repr

/-! ### Keys (04_keys) -/

/-- A stored record: the record, and which of its copies are good (R40, R168, R193). -/
structure KeyRec where
  rcd     : Rec
  nand    : Bool
  dram    : Bool
  damaged : Bool
  deriving DecidableEq, Repr

/-- One lineage entry (R184, R189); `fresh` says its own record's invalidation has already incremented it. -/
structure Lineage where
  gen    : Nat
  owner  : Option Nat
  parent : Nat
  fresh  : Bool
  deriving DecidableEq, Repr

/-- One key-cache entry (R180 to R183). -/
structure CacheEntry where
  part : Nat
  use  : Nat
  rcd  : Rec
  deriving DecidableEq, Repr

/-- What a formation of KD is for: a partition's creation, a new binding mask, a manifest, an announced register, this member's own seal
of a replicated partition, or the seal of a vault copy (R145, R539, R561). -/
inductive KdTask where
  | create (part : Nat)
  | mask (part mask : Nat)
  | manifest (m : Bytes)
  | announce (k : Nat) (v : Bytes)
  | own (part : Nat)
  | vault (key part : Nat) (nonce psk : Bytes)
  deriving DecidableEq, Repr

/-- A task that waits for KD: the request it answers, with index, sub-index and OP, and the grant uses it consumes. -/
structure KdJob where
  rq   : Option (Req × Nat × Nat × Nat)
  uses : List Change
  task : KdTask
  deriving DecidableEq, Repr

/-- The key store, with the records that are being unwrapped (R182) or recovered (R193), KD while hash unit 0 holds it, and the tasks
that wait for it (R145, R320). -/
structure Keys where
  recs      : Tab KeyRec
  slotGen   : Tab Nat
  retired   : List Nat
  large     : Tab (Nat × Bytes)
  lineage   : Tab Lineage
  linRet    : List Nat
  cache     : Tab CacheEntry
  useClock  : Nat
  unwrap    : List Nat
  recover   : Tab Nat
  sweepMs   : Nat
  damagedCnt : Nat
  kd        : Option Bytes
  grantKey  : Option Bytes
  kdJobs    : List KdJob
  deriving DecidableEq, Repr

/-- A DRBG generator of one partition (R376 to R383, R393). -/
structure Drbg where
  ready     : Bool
  key       : Bytes
  v         : Bytes
  counter   : Nat
  lastUs    : Nat
  staged    : Bytes
  tokens    : Nat
  reseeds   : Nat
  hostBytes : Nat
  waiting   : List Nat
  deriving DecidableEq, Repr

/-- What one partition holds beside its object-dictionary entries (R73, R83, R148 to R159, R191, R224, R267). -/
structure Part where
  fn       : Nat
  dis      : FnState
  disable  : Option Disable
  key      : KeyState
  nonce    : Bytes
  current  : Option Bytes
  pendingS : Option Bytes
  previous : Option Bytes
  added    : List Bytes
  psk      : Option Bytes
  pmk      : Option Bytes
  recKey   : Option Bytes
  creation : List Creation
  checkFails : Nat
  atc      : List AtcEntry
  atcCap   : Nat
  drbg     : Drbg
  deriving DecidableEq, Repr

/-- Measurement registers and migration (R143, R144, R153 to R159). -/
structure Meas where
  mr        : List Bytes
  portOpen  : Bool
  manifest  : Option Bytes
  migration : Nat
  deriving DecidableEq, Repr

/-- An open grant request (R198). -/
structure GrantReq where
  id        : Nat
  cls       : Nat
  part      : Nat
  uses      : Nat
  digest    : Bytes
  challenge : Bytes
  approvers : List Nat
  openedUs  : Nat
  deriving DecidableEq, Repr

/-- A key-component load (R201 to R203). -/
structure Load where
  state    : Nat
  template : Bytes
  parent   : Nat
  part     : Nat
  count    : Nat
  parts    : List Bytes
  members  : List Nat
  lastUs   : Nat
  handle   : Nat
  kcv      : Bytes
  deriving DecidableEq, Repr

/-- Quorum state (R195 to R200). -/
structure Quorum where
  requests : List GrantReq
  grants   : List Grant
  nextReq  : Nat
  nextId   : Nat
  load     : Load
  cards    : Tab Bool
  deriving DecidableEq, Repr

/-! ### Commit (01_architecture R35, R36; 14_cluster_and_pairs R541 to R545) -/

/-- One committed unit: a descriptor, a chain, a sweep freeing or an object-dictionary write. -/
structure Item where
  slots   : List Nat
  changes : List Change
  seq     : Nat
  reply   : Option (Req × Nat × Nat × Nat × Bytes)
  deriving DecidableEq, Repr

/-- A closed commit cycle or journal page. -/
structure Closed where
  cycle    : Nat
  items    : List Item
  handover : Bool
  late     : Bool
  time     : Nat
  deriving DecidableEq, Repr

/-- What survives every main reset, as the durable changes have left it (R35, R494). -/
structure Persist where
  keys   : Keys
  parts  : Tab Part
  store  : Tab Bytes
  change : Tab Nat
  grants : List Grant
  meas   : Meas
  logs   : List CommitLog
  deriving DecidableEq, Repr

/-- The commit stage. -/
structure Commit where
  queue       : List Item
  cycles      : List Closed
  pages       : List Closed
  cycle       : Nat
  seq         : Nat
  applied     : Nat
  durable     : Nat
  logs        : List CommitLog
  soloRequest : Bool
  journal     : List Closed
  base        : Persist
  deriving DecidableEq, Repr

/-- Reservation tables of the origination, tweak and ATC counters (R252 to R255, R268, R280). -/
structure Resv where
  slot   : Nat
  tag    : Nat
  last   : Nat
  users  : Nat
  deriving DecidableEq, Repr

/-! ### Units (07_skipper_lanes, 08_hawkmoth_engines) -/

/-- One register page (R305 to R308); `stamp` numbers the load it holds. -/
structure Page where
  handle : Nat
  slot   : Nat
  part   : Nat
  key    : Bytes
  users  : Nat
  use    : Nat
  stamp  : Nat
  deriving DecidableEq, Repr

/-- A countermeasure generator of a lane or of a group of engines: its key with the time it took it, the blocks put out under it, and
how many of them its buffer holds (R315, R373). -/
structure Gen where
  key     : Option Bytes
  keyedUs : Nat
  blocks  : Nat
  buf     : Nat
  stalled : Bool
  asked   : Bool
  rekeys  : Nat
  stalls  : Nat
  deriving DecidableEq, Repr

/-- One Skipper lane (R301 to R315, R327). -/
structure Lane where
  queue     : List Nat
  pages     : Tab Page
  gen       : Gen
  inReset   : Bool
  blocks    : Nat
  dummies   : Nat
  clears    : Nat
  deriving DecidableEq, Repr

/-- One hash unit (R317 to R320, R327); `held` is the key material its key register, message buffer and chaining state hold for the
step that runs, and all of it is zero where there is none (R319). -/
structure HashUnit where
  queue   : List Nat
  held    : Option Bytes
  inReset : Bool
  blocks  : Nat
  deriving DecidableEq, Repr

/-- Looper (R321 to R324, R327, R372): its requests in arrival order, the first one running: 0 KD, 1 identity seal, 2 identity unseal,
3 record key, 4 NAND key, 16 + SEQUENCE a record seal; the blocks the first one has done with its key register and the output they have
given, and whether its next block holds its draw. -/
structure Looper where
  queue     : List Nat
  block     : Nat
  keyReg    : Option Bytes
  out       : Bytes
  recordKey : Option Bytes
  nandKey   : Option Bytes
  blocks    : Nat
  refused   : Nat
  drawn     : Bool
  deriving DecidableEq, Repr

/-- One bank word of a Hawkmoth engine with its tag bit (R328, R339). -/
structure BankWord where
  v   : Nat
  tag : Bool
  deriving DecidableEq, Repr

/-- One RSA blinding pair, r^e and the inverse of r, with its last use (R351). -/
structure BlindPair where
  use : Nat
  re  : Nat
  ri  : Nat
  deriving DecidableEq, Repr

/-- One Hawkmoth engine (R328 to R358, R363); `window` is the command whose exponentiation tables its window store holds. -/
structure Engine where
  st         : UnitState
  queue      : List Nat
  bank       : Tab BankWord
  window     : Option Bytes
  reservedBy : Option Nat
  sess       : Nat
  sessPart   : Nat
  sessRid    : Nat
  sessKey    : Nat
  lastUs     : Nat
  openGen    : Nat
  commands   : Nat
  mismatches : Nat
  blind      : Tab BlindPair
  deriving DecidableEq, Repr

/-- One Plume unit (R360 to R363); `mem` is the key material its polynomial memory and Keccak state hold for the operation that runs. -/
structure Plume where
  st         : UnitState
  queue      : List Nat
  mem        : Option Bytes
  ops        : Nat
  mismatches : Nat
  deriving DecidableEq, Repr

/-- All units. -/
structure Units where
  lanes     : Tab Lane
  hashes    : Tab HashUnit
  looper    : Looper
  engines   : Tab Engine
  plumes    : Tab Plume
  mismatch1 : Option Nat
  mismatch2 : Option Nat
  blockRes  : Nat
  blockCls  : Nat
  blockUnit : Nat
  blockReq  : Option Req
  deriving DecidableEq, Repr

/-! ### Entropy (09_entropy) -/

/-- The health tests of one noise group: its last sample and the run it belongs to, and of the present window of 1,024 samples the first
value, its count and the samples so far, with the windows closed before (R366, R367). -/
structure GroupTest where
  last   : Option Bool
  run    : Nat
  first  : Bool
  count  : Nat
  pos    : Nat
  closed : Nat
  deriving DecidableEq, Repr

/-- The entropy block, the seed pool and the engine generators (R364 to R393). -/
structure Entropy where
  powered     : Bool
  st          : Nat
  passed      : Nat
  ready       : Bool
  cause       : Nat
  groups      : Nat
  tap         : Bool
  tapGroup    : Nat
  tapFree     : Nat
  tapBits     : Nat
  lfsr        : Nat
  phase       : Nat
  tests       : Tab GroupTest
  formed      : List (Bytes × List Nat)
  seqNo       : Nat
  held        : List Bytes
  pool        : List Bytes
  draws       : List (Nat × Nat × Nat)
  drawCount   : Tab Nat
  waitMax     : Tab Nat
  gens        : Tab Gen
  rawBits     : Nat
  blocksOut   : Nat
  deriving DecidableEq, Repr

/-! ### Events, cores and wake (10_events_interrupts) -/

/-- One map entry (R416). -/
structure MapEntry where
  enable   : Bool
  priority : Nat
  vector   : Nat
  deriving DecidableEq, Repr

/-- One hold-off group (R397, R416). -/
structure HoldOff where
  timer   : Nat
  isOpen  : Bool
  remain  : Nat
  deriving DecidableEq, Repr

/-- One supervisor core (R408 to R411): its stack of claimed priorities, whether it stands in a handler, and its watchdog. -/
structure Core where
  claimed : List (Nat × Nat)
  entered : Nat
  wdog    : Nat
  claim   : Nat
  deriving DecidableEq, Repr

/-- The event and interrupt controller with the Cocoon's wake logic (R394 to R417); `roused` says that a raise has ungated the clocks since
IDLE was entered (R412). -/
structure Eic where
  hostPend   : List Nat
  corePend   : List Nat
  ready      : List Nat
  quiet      : List Nat
  holdOff    : Tab HoldOff
  globalHold : Bool
  map        : Tab MapEntry
  cores      : Tab Core
  latches    : List Nat
  firstLatch : Option Nat
  wakeCause  : Nat
  wakeSet    : List Nat
  wakeArmed  : Bool
  wdogResets : Nat
  roused     : Bool
  deriving DecidableEq, Repr

/-! ### Tamper (11_tamper) -/

/-- An enclosure loop or a case switch (R421 to R424, R451). -/
structure Input where
  measured   : Nat
  mismatches : Nat
  closed     : Bool
  deriving DecidableEq, Repr

/-- The tamper machinery (R418 to R451); `prbs` is, by flag number, the 31-bit sequence register of each Mantle channel and enclosure loop
(R420). -/
structure Tamper where
  flags       : List Nat
  counts      : Tab Nat
  recent      : Tab Nat
  repeats     : Tab Nat
  latch       : Bool
  lockCause   : Nat
  machine     : AlarmClass
  response    : Option AlarmClass
  pendingMain : List (Nat × AlarmClass)
  bootStop    : Nat
  release     : Bool
  alarmOut    : Bool
  lockedOut   : Bool
  unlocks     : Nat
  unlockAt    : Bool
  loops       : Tab Input
  switches    : Tab Input
  pathCut     : Bool
  drs         : Option Bytes
  sram        : Bool
  prbs        : Tab Nat
  deriving DecidableEq, Repr

/-! ### Life cycle and identity (12_life_cycle_identity) -/

/-- An accepted transition whose disable procedure still runs (R457): its target, the request it answers and what that consumes. -/
structure Transition where
  target : Nat
  rq     : Req
  idx    : Nat
  sub    : Nat
  op     : Nat
  uses   : List Change
  deriving DecidableEq, Repr

/-- Life cycle, identity, debug and Sleeve (R452 to R479); `shut` keeps fetch closed until the next main reset (R457, R477), `voids`
are the void journal slots already recorded (R460), `prog` the OTP bits the Cocoon has still to program, as word and bit, with the
marks 64 (zero the DRS for a target) and 65 (a slot is done) among them, `progUs` the microseconds spent on the first of them (R457,
R458), `sleeveDue` a Sleeve that waits for its authentication, `sleeveEnd` the cluster time 7 years after its manufacture, and
`draws` the increments of its counter over the last 30 days with the operating time of each (R472, R474). -/
structure LifeCycle where
  otp        : Tab Nat
  latched    : Nat
  resetPend  : Bool
  prog       : List (Nat × Nat)
  progUs     : Nat
  parked     : Bool
  commChal   : Bytes
  identity   : Bool
  sealed     : Bool
  unsealed   : Bool
  certEc     : Bytes
  certMl     : Bytes
  certsSet   : Bool
  attest     : Bytes
  sleeve     : Bool
  sleeveAuth : Nat
  sleeveSer  : Bytes
  sleeveDue  : Bool
  sleeveEnd  : Nat
  draws      : List (Nat × Nat)
  drawn      : Nat
  daysLeft   : Nat
  dbgChal    : Bytes
  dbgValid   : Bool
  dbgOpen    : Bool
  dbgLevel   : Nat
  dbgScope   : Nat
  dbgEnd     : Nat
  trans      : Option Transition
  shut       : Bool
  voids      : List Nat
  deriving DecidableEq, Repr

/-! ### Reset, power and start-up (13_reset_power_startup) -/

/-- A main reset that has been asked for (R490, R493, R495). -/
structure PendingReset where
  kind    : Nat
  source  : Nat
  orderly : Bool
  core    : Nat
  deriving DecidableEq, Repr

/-- Reset, power and start-up (R480 to R511). -/
structure PowerState where
  mainOk     : Bool
  aux        : Bool
  power      : Power
  cycles     : Nat
  boots      : Nat
  kind       : Nat
  source     : Nat
  orderly    : Bool
  flushed    : Bool
  core       : Nat
  stopPoint  : Nat
  pfail      : Bool
  released   : Nat
  fuse       : Nat
  waiting    : Option PendingReset
  wasCold    : Bool
  dramValid  : Bool
  lastSeq    : Nat
  pfails     : Nat
  flushUs    : Nat
  standbyReq : Option Req
  memKey     : Option Bytes
  idleUs     : Nat
  deriving DecidableEq, Repr

/-! ### Cluster and pair (14_cluster_and_pairs) -/

/-- A frame as it leaves a port (R520). -/
structure Frame where
  port    : Nat
  dest    : Nat
  src     : Nat
  cls     : Nat
  hops    : Nat
  linkSeq : Nat
  linkAck : Nat
  flowSeq : Nat
  stamp   : Nat
  payload : Bytes
  deriving DecidableEq, Repr

/-- One Seam port, or the pair link as port 4 (R513 to R522, R533, R562). -/
structure Port where
  st        : Nat
  peer      : Bytes
  neighbour : Nat
  bypassed  : Nat
  retrains  : Nat
  wrapped   : Bool
  key       : Option Bytes
  linkSeq   : Nat
  linkAck   : Nat
  replay    : List Frame
  waiting   : List Frame
  credits   : Tab Nat
  fails     : Nat
  frames    : Nat
  delay     : Nat
  deriving DecidableEq, Repr

/-- Seam, cluster time and configuration (R512 to R537): per flow the highest FLOW_SEQ seen and sent; frames that await an end-to-end
answer; the time a synchronisation offset has been within 1 ms; the slew still owed; positions whose SYNC has stopped. -/
structure Seam where
  ports       : Tab Port
  unreachable : Nat
  quarantine  : Nat
  seen        : Tab Nat
  sent        : Tab Nat
  unacked     : List Frame
  unsynced    : Bool
  offset      : Int
  slew        : Int
  bound       : Nat
  lastSync    : Nat
  inBand      : Option Nat
  timeSet     : Bool
  masterGone  : List Nat
  pulling     : Option Nat
  conflict    : Bool
  deriving DecidableEq, Repr

/-- One member as a referee sees it (R552). -/
structure Watched where
  alive   : Bool
  hb      : Option Heartbeat
  highest : Nat
  deriving DecidableEq, Repr

/-- What a referee holds for one pair (R549, R552). -/
structure Referee where
  epoch  : Nat
  active : Nat
  solo   : Bool
  seq    : Nat
  a      : Watched
  b      : Watched
  deriving DecidableEq, Repr

/-- One vault copy of a partition of another pair (R561). -/
structure Vault where
  cycle : Nat
  nonce : Bytes
  wrap  : Option Bytes
  recs  : Tab Rec
  large : Tab (Nat × Bytes)
  atc   : List AtcEntry
  store : Tab Bytes
  deriving DecidableEq, Repr

/-- Pair, arbiter session and collar (R538 to R561): `rxFree` is when COLLAR_RX last deasserted, `gap` says a cycle was missed or
refused, `soloGap` that the standby has not resynchronised since SOLO, `foreign` that the other member has held the collar since. -/
structure Pair where
  role        : Nat
  collarTx    : Bool
  collarRx    : Bool
  rxFree      : Nat
  race        : Bool
  raceEpoch   : Nat
  solo        : Bool
  resync      : Bool
  resyncPm    : Nat
  gap         : Bool
  soloGap     : Bool
  tokenEpoch  : Nat
  tokenActive : Nat
  tokenHeld   : Bool
  tokenSeq    : Nat
  handover    : Bool
  switching   : Option Req
  hbSeq       : Nat
  hbLast      : Bytes
  partner     : Option Heartbeat
  foreign     : Bool
  arbChal     : Bytes
  arbKey      : Option Bytes
  takeover    : List Nat
  refs        : Tab Referee
  vaults      : Tab Vault
  deriving DecidableEq, Repr

/-! ### Object dictionary (15_object_dictionary) -/

/-- One session (R575 to R578). -/
structure Session where
  member    : Nat
  transport : Nat
  keyed     : Bool
  seq       : Nat
  cached    : Bytes
  busy      : Bool
  lastUs    : Nat
  clientPt  : Bytes
  modulePt  : Bytes
  challenge : Bytes
  key       : Bytes
  stageIdx  : Option (Nat × Nat)
  stageTot  : Nat
  stageData : Bytes
  stageUs   : Nat
  deriving DecidableEq, Repr

/-- The object dictionary's own state (R564 to R586). -/
structure Od where
  store     : Tab Bytes
  change    : Tab Nat
  sessions  : Tab Session
  nextSess  : Nat
  failures  : Nat
  fails     : Tab (List Nat)
  barred    : Tab Nat
  reqLen    : Nat
  replyLen  : Nat
  replyUp   : Bool
  busy      : Bool
  rejected  : Bool
  reqBuf    : Tab Byte
  replyBuf  : Tab Byte
  dropReply : Bool
  inbox     : List (Req × Bytes)
  mgmtUp    : Bool
  quotas    : List (Req × Nat × Nat × Nat)
  cfgWait   : List (Req × Nat × Nat × Nat × Bytes)
  relays    : List (Nat × Req × Nat)
  deriving DecidableEq, Repr

/-! ### Event recorder (16_event_recorder) -/

/-- One 64-byte record (R587). -/
structure LogRec where
  seq      : Nat
  timeUs   : Nat
  severity : Nat
  cocoon   : Bool
  cycles   : Nat
  source   : Nat
  code     : Nat
  part     : Nat
  aux      : Nat
  rpt      : Nat
  unsynced : Bool
  data     : Bytes
  cluster  : Nat
  chain    : Bytes
  deriving DecidableEq, Repr

/-- The three tiers and their counters (R589 to R600). -/
structure Recorder where
  cocoonBuf   : List LogRec
  mainBuf     : List LogRec
  early       : List LogRec
  nand        : List (LogRec × Option Bytes)
  copyOwed    : Bool
  next        : Nat
  reserved    : Nat
  everSeq     : Bool
  lastBytes   : Bytes
  dropped     : Nat
  cocoonDrop  : Nat
  reportedMain : Nat
  reportedCoc : Nat
  overwritten : Nat
  unreadable  : Nat
  sealResult  : Nat
  lastMode    : Bool
  change      : Nat
  deriving DecidableEq, Repr

/-! ### What leaves the module -/

/-- Everything the module has sent, oldest first: posted writes, MSI-X messages, replies, Seam frames and card commands. -/
structure Bus where
  reads    : List (Nat × Nat × Nat)
  issued   : List (Nat × Nat × Nat)
  refused  : List (Nat × Nat × Cpl)
  writes   : List (Nat × Nat × Bytes)
  messages : List (Nat × Nat × Nat)
  replies  : List (Req × Bytes)
  frames   : List Frame
  records  : List (Nat × Bytes)
  doe      : List Bytes
  vaults   : List (Nat × Nat × CycleMsg)
  cycles   : List CycleMsg
  acks     : List (Nat × Bool)
  cards    : List (Nat × Bytes)
  deriving DecidableEq, Repr

/-- Telemetry that counts since the last cold main reset (R40, R586); `shown` is what the unit entries read as since their last refresh
(R39, R327, R363). -/
structure Telemetry where
  shown       : Tab Nat
  dieTemp     : Nat
  cocoonTemp  : Nat
  inputMv     : Nat
  inputMw     : Nat
  dramCorr    : Nat
  sramCorr    : Nat
  wear        : Nat
  completions : Nat
  calibrated  : List Nat
  deriving DecidableEq, Repr

/-! ### The module -/

/-- The whole module, with its queue of waiting commands. -/
structure State where
  opUs     : Nat
  timeUs   : Nat
  free     : Nat
  service  : Service
  fns      : Tab Fn
  link     : Link
  rings    : Tab Ring
  groups   : Tab Group
  adm      : Admission
  commit   : Commit
  keys     : Keys
  parts    : Tab Part
  meas     : Meas
  quorum   : Quorum
  resv     : Tab Resv
  atcResv  : List (Nat × Bytes × Nat)
  units    : Units
  entropy  : Entropy
  eic      : Eic
  tamper   : Tamper
  life     : LifeCycle
  power    : PowerState
  seam     : Seam
  pair     : Pair
  od       : Od
  log      : Recorder
  tele     : Telemetry
  bus      : Bus
  pending  : List Instr
  deriving DecidableEq, Repr

/-! ### Values after reset -/

/-- A function after reset: PCI Express reset values, and its HIF_ registers at their Reset column (R93; assumption 2). -/
def fn0 : Fn where
  bars := []
  mps := 128
  memSpace := false
  busMaster := false
  mrrs := 512
  tag10 := false
  d3hot := false
  msixEnable := false
  funcMask := false
  msix := []
  pba := []
  state := .enabled
  stray := 0
  ideLost := false
  dropped := false
  readTimeout := false
  readFault := false
  errAddr := 0
  stallUs := 0
  hold := false
  mapRefused := false
  inFlr := false

/-- A ring block after reset (R137). -/
def ring0 : Ring where
  base := 0
  part := 0
  group := 0
  eventAll := false
  sizeLog2 := 6
  badCfg := false
  badBase := false
  state := .disabled
  settle := .disabled
  errCode := 0
  fetch := 0
  replay := 0
  latchLo := 0
  latchHi := 0
  prod := 0
  retire := 0
  glob := none
  unwritten := []
  chainAt := none
  chainLen := 0
  chainWait := false
  chainBad := false

/-- A digest ring after reset (R138). -/
def group0 : Group := ⟨0, 6, false, false, 0, 0, none⟩

/-- An MSI-X table entry after reset. -/
def msix0 : MsixEntry := ⟨0, 0, true⟩

/-- A map entry after reset (R416). -/
def map0 : MapEntry := ⟨false, 0, 0⟩

/-- A hold-off group after reset (R416). -/
def holdOff0 : HoldOff := ⟨0, false, 0⟩

/-- A countermeasure generator before its first key (R315, R373). -/
def gen0 : Gen := ⟨none, 0, 0, 0, false, false, 0, 0⟩

/-- A Skipper lane after reset: every page FREE (R308). -/
def lane0 : Lane := ⟨[], [], gen0, false, 0, 0, 0⟩

/-- A hash unit after reset. -/
def hash0 : HashUnit := ⟨[], none, false, 0⟩

/-- A Hawkmoth engine after reset: idle, its bank all zero and untagged (R328). -/
def engine0 : Engine := ⟨.idle, [], [], none, none, 0, 0, 0, 0, 0, 0, 0, 0, []⟩

/-- A Plume unit after reset. -/
def plume0 : Plume := ⟨.idle, [], none, 0, 0⟩

/-- A DRBG instance before instantiation (R383). -/
def drbg0 : Drbg := ⟨false, [], [], 0, 0, [], 0, 0, 0, []⟩

/-- Partition `p` as the first start finds it: mapped to VF `p`, enabled, its key domain EMPTY (R70, R74, R149). -/
def part0 (p : Nat) : Part where
  fn := p
  dis := .enabled
  disable := none
  key := .empty
  nonce := List.replicate 32 0#8
  current := none
  pendingS := none
  previous := none
  added := []
  psk := none
  pmk := none
  recKey := none
  creation := []
  checkFails := 0
  atc := []
  atcCap := 0
  drbg := drbg0

/-- No component load (R212). -/
def load0 : Load := ⟨0, [], 0, 0, 0, [], [], 0, 0, List.replicate 5 0#8⟩

/-- An enclosure loop or case switch before its first sample (R451). -/
def input0 : Input := ⟨0, 0, false⟩

/-- A core that runs no handler. -/
def core0 : Core := ⟨[], 0, 0, 0⟩

/-- A Seam port after a cold main reset: DISABLED and wrapped (R562). -/
def port0 : Port where
  st := 0
  peer := []
  neighbour := 0
  bypassed := 0
  retrains := 0
  wrapped := true
  key := none
  linkSeq := 0
  linkAck := 0
  replay := []
  waiting := []
  credits := []
  fails := 0
  frames := 0
  delay := 0

/-- An IDE stream without keys (R66). -/
def ide0 : IdeStream := ⟨false, [], [], [], []⟩

/-- The host link after reset (R93; HIF_CTL takes its OD defaults). -/
def link0 : Link where
  up := false
  speed := 0
  width := 0
  reversed := false
  retrains := 0
  trainedOnce := false
  perst := true
  perstSeenHigh := false
  vfEnable := false
  numVfs := 0
  ari := false
  vfPending := none
  sriovReject := false
  coldOnPerst := false
  warmOnLinkdown := true
  epoch := 0
  ide := []
  spdmSession := none
  spdmKey := []
  spdmSeq := 0
  vfBars := []
  aerIde := false

/-- Looper after a Cocoon reset (R321, R327). -/
def looper0 : Looper := ⟨[], 0, none, [], none, none, 0, 0, false⟩

/-- The units after reset. -/
def units0 : Units := ⟨[], [], looper0, [], [], none, none, 0, 0, 0, none⟩

/-- An empty key store (R212). -/
def keys0 : Keys := ⟨[], [], [], [], [], [], [], 0, [], [], 0, 0, none, none, []⟩

/-- Measurement registers cleared (R143), extend port open (R144), no migration (R159). -/
def meas0 : Meas := ⟨List.replicate 8 (List.replicate 48 0#8), true, none, 0⟩

/-- Nothing durable yet. -/
def persist0 : Persist := ⟨keys0, [], [], [], [], meas0, []⟩

/-- The commit stage after reset: COMMIT_SEQ and CYCLE count from the start of the history (R541). -/
def commit0 : Commit := ⟨[], [], [], 0, 0, 0, 0, [], false, [], persist0⟩

/-- No request, no grant, no load, no card. -/
def quorum0 : Quorum := ⟨[], [], 1, 1, load0, []⟩

/-- The entropy block OFF, the pool empty (R392). -/
def entropy0 : Entropy :=
  ⟨false, 0, 0, false, 0, 0, false, 0, 0, 0, 0, 0, [], [], 0, [], [], [], [], [], [], 0, 0⟩

/-- The event controller after reset; WAKE_CAUSE 0xFFFF (R416, R417). -/
def eic0 : Eic := ⟨[], [], [], [], [], false, [], [], [], none, 0xFFFF, [], false, 0, false⟩

/-- The tamper machinery after a Cocoon reset: ARMED, no flag, LOCK_CAUSE 0xFF (R450). -/
def tamper0 : Tamper where
  flags := []
  counts := []
  recent := []
  repeats := []
  latch := false
  lockCause := 0xFF
  machine := .record
  response := none
  pendingMain := []
  bootStop := 0
  release := false
  alarmOut := false
  lockedOut := false
  unlocks := 0
  unlockAt := false
  loops := []
  switches := []
  pathCut := false
  drs := none
  sram := true
  prbs := []

/-- OTP as shipped: words 0 to 2 hold their patterns and journal slots 0 to 2 the factory transitions (R454, R460). -/
def otp0 : Tab Nat :=
  [(0, 0xA5A5A5A5), (1, 0x3C3C3C3C), (2, 0x96969696), (8, 0xA5A5A5A5), (9, 0xFFFFFFFF), (10, 0x3C3C3C3C),
   (11, 0xFFFFFFFF), (12, 0x96969696), (13, 0xFFFFFFFF)]

/-- Life cycle as shipped: STOCK, identity sealed and certified in VENDOR (R452, R466, R470). -/
def life0 : LifeCycle where
  otp := otp0
  latched := 0x33
  resetPend := false
  prog := []
  progUs := 0
  parked := false
  commChal := List.replicate 32 0#8
  identity := true
  sealed := true
  unsealed := false
  certEc := []
  certMl := []
  certsSet := true
  attest := []
  sleeve := false
  sleeveAuth := 0
  sleeveSer := []
  sleeveDue := false
  sleeveEnd := 0
  draws := []
  drawn := 0
  daysLeft := 0
  dbgChal := List.replicate 32 0#8
  dbgValid := false
  dbgOpen := false
  dbgLevel := 0
  dbgScope := 0
  dbgEnd := 0
  trans := none
  shut := false
  voids := []

/-- Power just good: RST_CAUSE as the power-good cold reset leaves it, the fuse map as shipped (R501, R510). -/
def power0 : PowerState where
  mainOk := true
  aux := false
  power := .run
  cycles := 0
  boots := 0
  kind := 0
  source := 0
  orderly := false
  flushed := false
  core := 0
  stopPoint := 0
  pfail := false
  released := 0
  fuse := 0x3848
  waiting := none
  wasCold := true
  dramValid := false
  lastSeq := 0
  pfails := 0
  flushUs := 0
  standbyReq := none
  memKey := none
  idleUs := 0

/-- The Seam after a cold main reset (R562). -/
def seam0 : Seam where
  ports := []
  unreachable := 0
  quarantine := 0
  seen := []
  sent := []
  unacked := []
  unsynced := true
  offset := 0
  slew := 0
  bound := 0
  lastSync := 0
  inBand := none
  timeSet := false
  masterGone := []
  pulling := none
  conflict := false

/-- A referee's view of a pair it has not heard of. -/
def referee0 : Referee := ⟨0, 0xFF, false, 0, ⟨false, none, 0⟩, ⟨false, none, 0⟩⟩

/-- A vault copy that is still empty. -/
def vault0 : Vault := ⟨0, List.replicate 32 0#8, none, [], [], [], []⟩

/-- The pair machinery after reset: UNPAIRED (R562). -/
def pair0 : Pair where
  role := 0
  collarTx := false
  collarRx := false
  rxFree := 0
  race := false
  raceEpoch := 0
  solo := false
  resync := false
  resyncPm := 0
  gap := false
  soloGap := false
  tokenEpoch := 0
  tokenActive := 0xFF
  tokenHeld := false
  tokenSeq := 0
  handover := false
  switching := none
  hbSeq := 0
  hbLast := List.replicate 64 0#8
  partner := none
  foreign := false
  arbChal := List.replicate 32 0#8
  arbKey := none
  takeover := []
  refs := []
  vaults := []

/-- The object dictionary with every entry at its default (R564 to R585). -/
def od0 : Od where
  store := []
  change := []
  sessions := []
  nextSess := 1
  failures := 0
  fails := []
  barred := []
  reqLen := 0
  replyLen := 0
  replyUp := false
  busy := false
  rejected := false
  reqBuf := []
  replyBuf := []
  dropReply := false
  inbox := []
  mgmtUp := false
  quotas := []
  cfgWait := []
  relays := []

/-- An empty log (R600). -/
def log0 : Recorder := ⟨[], [], [], [], false, 0, 0, false, [], 0, 0, 0, 0, 0, 0, 0, false, 0⟩

/-- Nothing sent. -/
def bus0 : Bus := ⟨[], [], [], [], [], [], [], [], [], [], [], [], []⟩

/-- Telemetry at zero (R586). -/
def tele0 : Telemetry := ⟨[], 0, 0, 0, 0, 0, 0, 0, 0, []⟩

/-- The shipped module at main power-good, before any command: every register at its Reset column, every entry at its
default (R93, R137, R416, R450, R510, R562; assumption 2 names every value the spec does not give). -/
def State.reset : State where
  opUs := 0
  timeUs := 0
  free := 0
  service := .starting
  fns := []
  link := link0
  rings := []
  groups := []
  adm := ⟨[], [], 0, false, [], [], 0⟩
  commit := commit0
  keys := keys0
  parts := []
  meas := meas0
  quorum := quorum0
  resv := []
  atcResv := []
  units := units0
  entropy := entropy0
  eic := eic0
  tamper := tamper0
  life := life0
  power := power0
  seam := seam0
  pair := pair0
  od := od0
  log := log0
  tele := tele0
  bus := bus0
  pending := []

end Sys2Proof.Machine
end

