-- ==== Sys2Proof/Machine/Tab.lean ====
section
/-! DEFINITION. Reading and writing the sparse tables that hold everything the module has many of. -/

namespace Sys2Proof.Machine

/-- The value a table lists at a key, if it lists one. -/
def tget {α : Type} : Tab α → Nat → Option α
  | [], _ => none
  | (a, x) :: r, k => if a = k then some x else tget r k

/-- The value at a key, or the table's default where none is listed. -/
def tgetD {α : Type} (t : Tab α) (k : Nat) (d : α) : α := (tget t k).getD d

/-- Write one key, keeping the keys in rising order. -/
def tset {α : Type} : Tab α → Nat → α → Tab α
  | [], k, v => [(k, v)]
  | (a, x) :: r, k, v =>
    if k < a then (k, v) :: (a, x) :: r
    else if a = k then (k, v) :: r
    else (a, x) :: tset r k v

/-- Take one key out. -/
def terase {α : Type} (t : Tab α) (k : Nat) : Tab α := t.filter (fun e => e.1 != k)

/-- Change the value at a key, starting from the default where none is listed. -/
def tmod {α : Type} (t : Tab α) (k : Nat) (d : α) (f : α → α) : Tab α := tset t k (f (tgetD t k d))

/-- The keys a table lists. -/
def tkeys {α : Type} (t : Tab α) : List Nat := t.map (·.1)

/-- The values a table lists. -/
def tvals {α : Type} (t : Tab α) : List α := t.map (·.2)

/-- Change every listed value. -/
def tmap {α : Type} (t : Tab α) (f : Nat → α → α) : Tab α := t.map (fun e => (e.1, f e.1 e.2))

/-- Keep the listed entries that meet a test. -/
def tfilter {α : Type} (t : Tab α) (p : Nat → α → Bool) : Tab α := t.filter (fun e => p e.1 e.2)

/-- Number of listed entries that meet a test. -/
def tcount {α : Type} (t : Tab α) (p : Nat → α → Bool) : Nat := (tfilter t p).length

/-- The lowest key below `bound` that the table does not list, searched from `from_` with `fuel` tries. -/
def tlowestFree {α : Type} (t : Tab α) (from_ : Nat) : Nat → Option Nat
  | 0 => none
  | fuel + 1 => if (tget t from_).isNone then some from_ else tlowestFree t (from_ + 1) fuel

/-- The canonical form: keys strictly rising. -/
def tsorted {α : Type} : Tab α → Bool
  | [] => true
  | [_] => true
  | (a, _) :: (b, y) :: r => decide (a < b) && tsorted ((b, y) :: r)

/-- Write a cell of a memory whose unlisted cells read as `d`: a cell equal to `d` is never listed. -/
def cset {α : Type} [DecidableEq α] (d : α) (t : Tab α) (k : Nat) (v : α) : Tab α :=
  if v = d then terase t k else tset t k v

/-- The canonical form of such a memory. -/
def cwf {α : Type} [DecidableEq α] (d : α) (t : Tab α) : Bool :=
  tsorted t && t.all (fun e => decide (e.2 ≠ d))

/-- Write bytes from an address on into an addressed buffer that reads as zero where nothing is listed. -/
def bufWrite (t : Tab Byte) (at_ : Nat) (b : Bytes) : Tab Byte :=
  (List.range b.length).foldl (fun u i => cset 0#8 u (at_ + i) (b.getD i 0#8)) t

/-- Put a number into a set held as a rising list without repeats. -/
def sins (k : Nat) : List Nat → List Nat
  | [] => [k]
  | a :: r => if k < a then k :: a :: r else if a = k then a :: r else a :: sins k r

/-- Take a number out of such a set. -/
def sdel (k : Nat) (l : List Nat) : List Nat := l.filter (· != k)

/-- Whether a set holds a number. -/
def smem (k : Nat) (l : List Nat) : Bool := l.contains k

/-- Change the first element that meets a test. -/
def lmod {α : Type} (p : α → Bool) (f : α → α) : List α → List α
  | [] => []
  | a :: r => if p a then f a :: r else a :: lmod p f r

end Sys2Proof.Machine
end

