-- ==== Sys2Proof/Machine/Flags.lean ====
section
/-! DEFINITION. What the state shows: look-ups with their defaults, object-dictionary values, and every status bit that is
computed from the rest of the state (R74, R93, R149, R565). -/

namespace Sys2Proof.Machine

/-! ### Look-ups -/

/-- Function `n`. -/
@[noinline] def State.fn (s : State) (n : Nat) : Fn := tgetD s.fns n fn0

/-- Ring block `rid` (4096 · function + ring). -/
@[noinline] def State.ring (s : State) (rid : Nat) : Ring := tgetD s.rings rid ring0

/-- Digest ring `gid` (1024 · function + group). -/
@[noinline] def State.group (s : State) (gid : Nat) : Group := tgetD s.groups gid group0

/-- Partition `p`. -/
@[noinline] def State.part (s : State) (p : Nat) : Part := tgetD s.parts p (part0 p)

/-- The descriptor in an admission-buffer slot. -/
@[noinline] def State.slot (s : State) (n : Nat) : Option Slot := tget s.adm.slots n

/-- Skipper lane `l`. -/
@[noinline] def State.lane (s : State) (l : Nat) : Lane := tgetD s.units.lanes l lane0

/-- Hash unit `u`. -/
@[noinline] def State.hash (s : State) (u : Nat) : HashUnit := tgetD s.units.hashes u hash0

/-- Hawkmoth engine `e`. -/
@[noinline] def State.engine (s : State) (e : Nat) : Engine := tgetD s.units.engines e engine0

/-- Plume unit `u`. -/
@[noinline] def State.plume (s : State) (u : Nat) : Plume := tgetD s.units.plumes u plume0

/-- Hold-off group `h`. -/
@[noinline] def State.holdOff (s : State) (h : Nat) : HoldOff := tgetD s.eic.holdOff h holdOff0

/-- Core `c`. -/
@[noinline] def State.core (s : State) (c : Nat) : Core := tgetD s.eic.cores c core0

/-- Seam port `k`, port 4 being the pair link. -/
@[noinline] def State.port (s : State) (k : Nat) : Port := tgetD s.seam.ports k port0

/-- Lineage entry `i`: generation 1 until first incremented (R184). -/
@[noinline] def State.lin (s : State) (i : Nat) : Lineage := tgetD s.keys.lineage i ⟨1, none, 0, false⟩

/-- The stored record of a slot. -/
@[noinline] def State.rcd (s : State) (slot : Nat) : Option KeyRec := tget s.keys.recs slot

/-- Generation of a slot: 1 until its record is first freed (R163). -/
@[noinline] def State.slotGen (s : State) (slot : Nat) : Nat := tgetD s.keys.slotGen slot 1

/-! ### Changing one thing -/

/-- Change function `n`. -/
@[noinline] def State.modFn (s : State) (n : Nat) (f : Fn → Fn) : State := { s with fns := tset s.fns n (f (s.fn n)) }

/-- Change ring block `rid`. -/
@[noinline] def State.modRing (s : State) (rid : Nat) (f : Ring → Ring) : State := { s with rings := tset s.rings rid (f (s.ring rid)) }

/-- Change digest ring `gid`. -/
@[noinline] def State.modGroup (s : State) (gid : Nat) (f : Group → Group) : State :=
  { s with groups := tset s.groups gid (f (s.group gid)) }

/-- Change partition `p`. -/
@[noinline] def State.modPart (s : State) (p : Nat) (f : Part → Part) : State := { s with parts := tset s.parts p (f (s.part p)) }

/-- Change the descriptor in a slot, if there is one. -/
@[noinline] def State.modSlot (s : State) (n : Nat) (f : Slot → Slot) : State :=
  match s.slot n with
  | none => s
  | some x => { s with adm := { s.adm with slots := tset s.adm.slots n (f x) } }

/-- Change Skipper lane `l`. -/
@[noinline] def State.modLane (s : State) (l : Nat) (f : Lane → Lane) : State :=
  { s with units := { s.units with lanes := tset s.units.lanes l (f (s.lane l)) } }

/-- Change hash unit `u`. -/
@[noinline] def State.modHash (s : State) (u : Nat) (f : HashUnit → HashUnit) : State :=
  { s with units := { s.units with hashes := tset s.units.hashes u (f (s.hash u)) } }

/-- Change Hawkmoth engine `e`. -/
@[noinline] def State.modEngine (s : State) (e : Nat) (f : Engine → Engine) : State :=
  { s with units := { s.units with engines := tset s.units.engines e (f (s.engine e)) } }

/-- Change Plume unit `u`. -/
@[noinline] def State.modPlume (s : State) (u : Nat) (f : Plume → Plume) : State :=
  { s with units := { s.units with plumes := tset s.units.plumes u (f (s.plume u)) } }

/-- Change Looper. -/
@[noinline] def State.modLooper (s : State) (f : Looper → Looper) : State :=
  { s with units := { s.units with looper := f s.units.looper } }

/-- Change core `c`. -/
@[noinline] def State.modCore (s : State) (c : Nat) (f : Core → Core) : State :=
  { s with eic := { s.eic with cores := tset s.eic.cores c (f (s.core c)) } }

/-- Change Seam port `k`. -/
@[noinline] def State.modPort (s : State) (k : Nat) (f : Port → Port) : State :=
  { s with seam := { s.seam with ports := tset s.seam.ports k (f (s.port k)) } }

/-! ### Object-dictionary values -/

/-- Where an entry's value is stored. -/
def odKey (idx sub : Nat) : Nat := idx * 256 + sub

/-- The stored value of a persistent entry, or its default (R564, R566). -/
@[noinline] def State.odGet (s : State) (idx sub : Nat) : Bytes := (tget s.od.store (odKey idx sub)).getD (odDefault idx sub)

/-- The stored value of a numeric entry. -/
@[noinline] def State.odNat (s : State) (idx sub : Nat) : Nat := leNat (s.odGet idx sub)

/-- Wake-capable sources (R395). -/
def wakeCapable (n : Nat) : Bool := n == 1031 || n == 1032 || n == 1041 || n == 1042 || decide (1280 ≤ n ∧ n < 1440)

/-- WAKE_LIST positions that name a source (R413). -/
def State.wakeAt (s : State) (n : Nat) : List Nat := (List.range 64).filter (fun i => s.odNat 0xA020 (i + 1) == n)

/-- The main die is off (R440, R486). -/
def State.asleep (s : State) : Bool := s.power.power == .standby || s.power.power == .off

/-- Store an entry's value. -/
@[noinline] def State.odSet (s : State) (idx sub : Nat) (v : Bytes) : State :=
  { s with od := { s.od with store := tset s.od.store (odKey idx sub) v } }

/-- A quota of partition `p` (R74). -/
@[noinline] def State.quota (s : State) (p sub : Nat) : Nat := s.odNat (0x2100 + p) sub

/-- A policy entry of partition `p` (R212, R258, R300). -/
@[noinline] def State.policyEntry (s : State) (p sub : Nat) : Nat := s.odNat (0x3100 + p) sub

/-- The serial number, 12 ASCII bytes (R11). -/
def serial : Bytes := (List.range 12).map Config.serialByte

/-- The FIS (R142). -/
def fis : Bytes := (List.range 32).map Config.fisByte

/-! ### Service -/

/-- Whether a pair is configured (R538). -/
@[noinline] def State.paired (s : State) : Bool := s.odNat 0x7100 1 != 0

/-- HIF_STATUS.COLLAR_HELD: the module holds the collar, or no pair is configured (R93, R538). -/
@[noinline] def State.collarHeld (s : State) : Bool := !s.paired || s.pair.role == 3

/-- HIF_LINK.BELOW_GEN3 (R46). -/
@[noinline] def State.belowGen3 (s : State) : Bool := s.link.speed == 1 || s.link.speed == 2

/-- HIF_STATUS.FETCH_OPEN (R93). -/
@[noinline] def State.fetchOpen (s : State) : Bool := s.service == .ready && s.collarHeld && !s.belowGen3

/-- Whether a standby is configured: a pair, and the active not in SOLO (R35, R545). -/
@[noinline] def State.standby (s : State) : Bool := s.paired && !s.pair.solo

/-- Whether the module belongs to a cluster: CLUSTER_ID is not zero (R563). -/
@[noinline] def State.clustered (s : State) : Bool := !allZero (s.odGet 0x7000 1)

/-- SEAM_STATUS.CSTATE: STANDALONE, JOINED or QUARANTINED (R562). -/
@[noinline] def State.cstate (s : State) : Nat := if !s.clustered then 0 else if s.seam.quarantine = 0 then 1 else 2

/-- The compatible set of the cluster (R530): of the adopted manifest, or FORMATION_MR2 alone; unset until the cluster is formed. -/
@[noinline] def State.compatibleSet (s : State) : List Bytes :=
  let m := s.odGet 0x7000 0x0B
  if m.isEmpty then (if allZero (s.odGet 0x7000 0x0C) then [] else [s.odGet 0x7000 0x0C])
  else slice m 104 48 :: (List.range (min 16 (leAt m 248 4))).map (fun k => slice m (252 + 48 * k) 48)

/-- Whether MR2 lies in the compatible set (R531). -/
@[noinline] def State.compatible (s : State) : Bool :=
  !s.clustered || s.compatibleSet.isEmpty || s.compatibleSet.contains (s.meas.mr.getD 2 [])

/-- PAIR_STATUS.ELIGIBLE (R546). -/
@[noinline] def State.eligible (s : State) : Bool :=
  s.paired && s.service == .ready && s.tamper.response.isNone && s.seam.quarantine == 0 && !s.pair.gap && !s.pair.soloGap
    && s.compatible && s.parts.all (fun e => e.2.key != .sealFailed && (e.2.key != .active || e.2.psk.isSome))

/-- SERVICE_STATE's code (R93). -/
def Service.code : Service → Nat
  | .starting => 0
  | .ready => 1
  | .halted => 2
  | .locked => 3
  | .bootStopped => 4

/-- HIF_STATUS of a function (R93). -/
@[noinline] def State.hifStatus (s : State) (n : Nat) : Nat :=
  b2n s.fetchOpen * 2 ^ 12 + (if n = 0 then b2n s.link.sriovReject else 0) * 2 ^ 11 + b2n s.collarHeld * 2 ^ 9
    + b2n s.entropy.ready * 2 ^ 8 + s.service.code

/-! ### Functions and partitions -/

/-- Whether a function exists: the PF always, VF n while VF Enable is 1 and n is within NumVFs (R59). -/
@[noinline] def State.fnExists (s : State) (n : Nat) : Bool := n == 0 || (s.link.vfEnable && decide (n ≤ s.link.numVfs) && decide (n ≤ 255))

/-- The partitions a function hosts (R70 to R73). -/
@[noinline] def State.hosted (s : State) (n : Nat) : List Nat := (List.range 256).filter (fun p => (s.part p).fn == n)

/-- The partition HIF_FN_STATE names for a function: partition 0 on the PF, the mapped one on a VF (R93). -/
@[noinline] def State.mainPart (s : State) (n : Nat) : Option Nat :=
  if n = 0 then some 0 else (List.range 256).find? (fun p => (s.part p).fn == n)

/-- HIF_FN_STATE.STATE as a function shows it: it follows the partition HIF_FN_STATE names, partition 0 on the PF (R83, R88, R93); an
absent VF shows only its disable procedure, and is UNMAPPED otherwise (R60, R72). -/
@[noinline] def State.fnState (s : State) (n : Nat) : FnState :=
  if (s.fn n).state = .wedged then .wedged
  else match s.mainPart n with
    | none => .unmapped
    | some p =>
      let st := if (s.fn n).state = .disabling then .disabling
        else if (s.part p).dis = .enabled ∧ (s.fn n).state = .disabled then .disabled else (s.part p).dis
      if s.fnExists n || st != .enabled then st else .unmapped

/-- The code of a function state (R93). -/
def FnState.code : FnState → Nat
  | .unmapped => 0
  | .enabled => 1
  | .disabling => 2
  | .disabled => 3
  | .wedged => 4

/-- MSI-X vectors a function may use (R80): VECTORS of the hosting partition, 0 where there is none and on an absent VF (R72). -/
@[noinline] def State.vectors (s : State) (n : Nat) : Nat :=
  match s.mainPart n with
  | none => 0
  | some p => if s.fnExists n then s.quota p 0x0C else 0

/-- Whether a stream's RID association blocks cover function `n`, routing IDs counted from the PF's (R57, R65): of block `b`
the first register holds the limit in bits [23:8], the second the base there and V in bit 0. -/
def IdeStream.covers (i : IdeStream) (n : Nat) : Bool :=
  (List.range 8).any (fun b =>
    let hi := tgetD i.rids (2 * b) 0
    let lo := tgetD i.rids (2 * b + 1) 0
    bit lo 0 && decide (bits lo 23 8 ≤ n) && decide (n ≤ bits hi 23 8))

/-- Whether every TLP of a function lies within a Secure selective stream (R67, R93). -/
@[noinline] def State.ideSecure (s : State) (n : Nat) : Bool := s.link.ide.any (fun e => e.2.secure && e.2.covers n)

/-- Global number of a ring: its own on the PF, its binding on a VF (R94). -/
@[noinline] def State.globalRing (s : State) (rid : Nat) : Option Nat := if rid < 4096 then some rid else (s.ring rid).glob

/-- Global number of a group: its own on the PF, its binding on a VF (R98). -/
@[noinline] def State.globalGroup (s : State) (gid : Nat) : Option Nat := if gid < 1024 then some gid else (s.group gid).glob

/-- The VF group a global group is bound to, if any (R98). -/
@[noinline] def State.vfGroupOf (s : State) (g : Nat) : Option Nat :=
  (s.groups.find? (fun e => decide (1024 ≤ e.1) && e.2.glob == some g)).map (·.1)

/-- The VF ring a global ring is bound to, if any (R94). -/
@[noinline] def State.vfRingOf (s : State) (k : Nat) : Option Nat :=
  (s.rings.find? (fun e => decide (4096 ≤ e.1) && e.2.glob == some k)).map (·.1)

/-- The partition that owns a ring: RING_CFG's on the PF, the hosted one on a VF (R71, R95). -/
@[noinline] def State.ringPart (s : State) (rid : Nat) : Option Nat :=
  if rid < 4096 then some (s.ring rid).part else s.mainPart (rid / 4096)

/-- The group a ring's events go to, as a group number (R98, R123). -/
@[noinline] def State.ringGroup (s : State) (rid : Nat) : Nat := rid / 4096 * 1024 + (s.ring rid).group

/-- Entries a ring holds (R96). -/
def Ring.size (r : Ring) : Nat := 2 ^ r.sizeLog2

/-- Descriptors of a partition in flight (R119). -/
@[noinline] def State.inFlight (s : State) (p : Nat) : Nat := tcount s.adm.slots (fun _ x => x.part == p)

/-- The cards in a partition's ATC table: those with a tracked ATC and those with reservations only (R268, R270). -/
@[noinline] def State.atcCards (s : State) (p : Nat) : List Bytes :=
  let mine := s.atcResv.filter (fun e => match s.slot e.1 with
    | none => false
    | some y => y.part == p)
  (((s.part p).atc.map (·.card)) ++ mine.map (fun e => e.2.1)).dedup

/-- Records a partition holds, its ATC table's slots included (R212). -/
@[noinline] def State.recordsUsed (s : State) (p : Nat) : Nat :=
  tcount s.keys.recs (fun _ r => r.rcd.part == p) + (s.part p).atcCap / 8

/-- Granules a partition holds (R169, R212). -/
@[noinline] def State.granulesUsed (s : State) (p : Nat) : Nat :=
  ((s.keys.recs.filter (fun e => e.2.rcd.part == p)).map (fun e => e.2.rcd.runCount)).sum

/-- Lineage entries a partition holds (R185). -/
@[noinline] def State.lineageUsed (s : State) (p : Nat) : Nat :=
  tcount s.keys.lineage (fun _ l => match l.owner with
    | none => false
    | some sl => match s.rcd sl with
      | none => false
      | some r => r.rcd.part == p)

/-- Rings of a partition in any state other than DISABLED (R76). -/
@[noinline] def State.ringsHeld (s : State) (p : Nat) : Nat :=
  tcount s.rings (fun rid r => r.state != .disabled && s.ringPart rid == some p)

/-- Operating time in whole seconds (OD 0x1000.06). -/
@[noinline] def State.opSeconds (s : State) : Nat := s.opUs / 1000000

/-- Configuration space answers: the host interface is ready, PERST# deasserted (R48, R485). -/
@[noinline] def State.cfgReady (s : State) : Bool := s.power.mainOk && !s.link.perst && decide (1 ≤ s.power.stopPoint)

/-! ### Outstanding work -/

/-- A function has outstanding work: a fetched descriptor without a written completion, those of a chain only once its LAST entry is
published, or a ring in ENABLED whose producer index lies ahead of its fetch index (R86). -/
@[noinline] def State.outstanding (s : State) (fn : Nat) : Bool :=
  s.adm.slots.any (fun e => e.2.rid / 4096 == fn && (e.2.chain.isNone || e.2.chain != (s.ring e.2.rid).chainAt
    || (s.ring e.2.rid).prod != (s.ring e.2.rid).fetch)) ||
  s.rings.any (fun e => e.1 / 4096 == fn && e.2.state == .enabled && e.2.prod != e.2.fetch)

/-- One microsecond of a function's watchdog, up to the largest STALL: it counts with outstanding work, pauses while FETCH_OPEN is 0,
and is zero without (R87). -/
def State.watch (s : State) (fn : Nat) (f : Fn) : Fn :=
  if !s.outstanding fn then { f with stallUs := 0 }
  else if s.fetchOpen then { f with stallUs := min 6553599999 (f.stallUs + 1) } else f

end Sys2Proof.Machine
end

