-- ==== Sys2Proof/Machine/Recorder.lean ====
section
/-! DEFINITION. The event recorder: building a record, sequencing it, flushing, and what a full tier does (R587 to R600). -/

namespace Sys2Proof.Machine

/-- The 64 bytes of a record (R587). -/
def LogRec.bytes (r : LogRec) : Bytes :=
  leBytes 6 r.seq ++ leBytes 4 (r.timeUs / 1000000)
    ++ leBytes 3 (r.timeUs % 1000000 + 2 ^ 20 * r.severity + 2 ^ 23 * b2n r.cocoon)
    ++ leBytes 3 r.cycles ++ leBytes 2 r.source ++ leBytes 2 r.code ++ leBytes 1 r.part ++ leBytes 1 r.aux
    ++ leBytes 2 (r.rpt + 2 ^ 15 * b2n r.unsynced) ++ fit 24 r.data ++ leBytes 8 r.cluster ++ fit 8 r.chain

/-- Whether a full tier overwrites (R593). -/
def overwriteMode (s : State) : Bool :=
  s.life.latched == 0x44 && (s.service == .ready || s.service == .halted) && s.seam.quarantine == 0 && !s.pair.resync

/-- The place of the record a new one of severity `sev` replaces: the oldest of the lowest severity not above it, but none that `held` says
must stay (R594). -/
def victim (held : LogRec → Bool) (t : List LogRec) (sev : Nat) : Option Nat :=
  (List.range (sev + 1)).findSome? (fun k => t.findIdx? (fun r => r.severity == k && !held r))

/-- What a tier of capacity `cap` does with a record that arrives: where it goes, if anywhere, and whether it replaced
another (R593 to R595). -/
@[noinline] def tierPut (cap : Nat) (ovw : Bool) (held : LogRec → Bool) (t : List LogRec) (r : LogRec) : Option (List LogRec × Bool) :=
  if t.length < cap then some (t ++ [r], false)
  else if ovw then (victim held t r.severity).map (fun i => (t.eraseIdx i ++ [r], true))
  else none

/-- A record as its maker makes it, before it has a SEQUENCE (R587). -/
@[noinline] def mkRecord (s : State) (cocoon : Bool) (sev source code part aux : Nat) (data : Bytes) : LogRec where
  seq := 0
  timeUs := s.opUs
  severity := sev
  cocoon := cocoon
  cycles := s.power.cycles
  source := source
  code := code
  part := part
  aux := aux
  rpt := 0
  unsynced := s.seam.unsynced
  data := fit 24 data
  cluster := if cocoon then 0 else s.timeUs
  chain := zeros 8

/-- The record with the highest SEQUENCE the module still knows, for CHAIN (R587). -/
def chainOf (l : Recorder) : Bytes := if l.everSeq then slice (Sha.sha256 l.lastBytes) 0 8 else zeros 8

/-- Give a record its SEQUENCE and CHAIN, reserving 4,096 values more when the block is used up (R590). -/
@[noinline] def stamp (l : Recorder) (r : LogRec) : LogRec × Recorder :=
  let r' := { r with seq := l.next, chain := chainOf l }
  (r', { l with next := l.next + 1, reserved := if l.reserved ≤ l.next + 1 then l.next + 1 + 4096 else l.reserved,
                everSeq := true, lastBytes := r'.bytes })

/-- Records the NAND log holds (R589). -/
def nandCap : Nat := 1048576

/-- Room in the NAND log for one record more beside those that wait for it: where it is full, a record gives way in OVERWRITE mode, and
in STOP mode there is none (R593 to R595). -/
@[noinline] def nandRoom (ovw : Bool) (l : Recorder) (sev : Nat) : Option Recorder :=
  if l.nand.length + l.mainBuf.length < nandCap then some l
  else (if ovw then victim (fun _ => false) (l.nand.map (·.1)) sev else none).map (fun i =>
    { l with nand := l.nand.eraseIdx i, overwritten := l.overwritten + 1, change := l.change + 1 })

/-- Sequence a record into the main-die buffer, or count it as dropped, which takes no SEQUENCE (R589, R590, R594, R595). -/
@[noinline] def enterMain (ovw : Bool) (l : Recorder) (r : LogRec) : Recorder :=
  match tierPut 4096 ovw (fun _ => false) l.mainBuf r, nandRoom ovw l r.severity with
  | some (_, repl), some l0 =>
    let (r', l') := stamp l0 r
    match tierPut 4096 ovw (fun _ => false) l.mainBuf r' with
    | none => l'
    | some (t, _) =>
      { l' with mainBuf := t, overwritten := l'.overwritten + b2n repl, change := l'.change + b2n repl }
  | _, _ => { l with dropped := min 0xFFFFFFFF (l.dropped + 1) }

/-- A record arrives at the NAND log (R593 to R595). -/
@[noinline] def nandPut (ovw : Bool) (l : Recorder) (r : LogRec) : Recorder :=
  if l.nand.length < nandCap then { l with nand := l.nand ++ [(r, none)] }
  else match (if ovw then victim (fun _ => false) (l.nand.map (·.1)) r.severity else none) with
    | none => { l with dropped := min 0xFFFFFFFF (l.dropped + 1) }
    | some i => { l with nand := l.nand.eraseIdx i ++ [(r, none)], overwritten := l.overwritten + 1, change := l.change + 1 }

/-- The Cocoon frees the copies that the NAND log holds with their seal; those that wait for it stay (R322, R589, R592). -/
def Recorder.freed (l : Recorder) : Recorder :=
  { l with cocoonBuf := l.cocoonBuf.filter (fun c => c.seq == 0 || !(l.nand.any (fun e => e.1.seq == c.seq && e.2.isSome))) }

/-- A Cocoon record that the NAND log holds, and that only waits for its seal, is not replaced (R322, R589, R594). -/
def Recorder.confirmed (l : Recorder) (r : LogRec) : Bool := r.seq != 0 && l.nand.any (fun e => e.1.seq == r.seq)

/-- The main-die buffer goes to the NAND log (R589, R591). -/
@[noinline] def drainLog (ovw : Bool) (l : Recorder) : Recorder := (l.mainBuf.foldl (nandPut ovw) { l with mainBuf := [] }).freed

/-- Drops not yet reported: those of the main die, and those of the Cocoon (R595). -/
def Recorder.unreported (l : Recorder) : Nat × Nat := (l.dropped - l.cocoonDrop - l.reportedMain, l.cocoonDrop - l.reportedCoc)

/-- Report the drops counted since the last report (R595, R599). -/
def reportDrops (s : State) : State :=
  let u := s.log.unreported
  let ovw := overwriteMode s
  let put (l : Recorder) (code n : Nat) : Recorder := enterMain ovw l (mkRecord s false 5 0x0D00 code 0xFF 0 (leBytes 4 n))
  let l1 := if u.1 = 0 then s.log else put { s.log with reportedMain := s.log.reportedMain + u.1 } 0x0D02 u.1
  { s with log := if u.2 = 0 then l1 else put { l1 with reportedCoc := l1.reportedCoc + u.2 } 0x0D03 u.2 }

/-- Write the main-die buffer to the NAND log, drops reported ahead of what follows; `one` programs only the first copy, which leaves
the second owed (R591, R595). -/
def flushLog (s : State) (one : Bool) : State :=
  let s1 := reportDrops { s with log := drainLog (overwriteMode s) s.log }
  { s1 with log := { drainLog (overwriteMode s1) s1.log with copyOwed := one } }

/-- The NAND log can be written: after stop point 1, with the NAND key (R24, R590). -/
def State.logOpen (s : State) : Bool := s.power.mainOk && s.power.stopPoint != 0 && s.units.looper.nandKey.isSome

/-- The buffer is written at once where 64 records wait or one of them is of severity 5 or higher (R591). -/
@[noinline] def settleLog (s : State) : State :=
  if s.logOpen && !s.power.pfail && (decide (64 ≤ s.log.mainBuf.length) || s.log.mainBuf.any (fun r => decide (5 ≤ r.severity))) then
    flushLog s false
  else s

/-- A tier is full (R593). -/
def Recorder.full (l : Recorder) : Bool :=
  decide (4096 ≤ l.mainBuf.length) || decide (nandCap ≤ l.nand.length + l.mainBuf.length) || decide (128 ≤ l.cocoonBuf.length)

/-- At the first return of a full tier to OVERWRITE mode the drops are reported ahead of what follows (R595). -/
@[noinline] def noteReturn (s : State) : State := if overwriteMode s && !s.log.lastMode && s.log.full then reportDrops s else s

/-- A record the main die makes: held unsequenced before stop point 1, sequenced after it (R590). -/
@[noinline] def logMain (s : State) (sev source code part aux : Nat) (data : Bytes) : State :=
  let r := mkRecord s false sev source code part aux data
  let ovw := overwriteMode s
  if s.power.stopPoint = 0 then
    match tierPut 4096 ovw (fun _ => false) s.log.early r with
    | none => { s with log := { s.log with dropped := min 0xFFFFFFFF (s.log.dropped + 1) } }
    | some (t, repl) =>
      { s with log := { s.log with early := t, overwritten := s.log.overwritten + b2n repl, lastMode := ovw } }
  else
    let t := noteReturn s
    settleLog { t with log := { enterMain ovw t.log r with lastMode := ovw } }

/-- A record the Cocoon makes, with its REPEAT: into its own buffer first, and across the bridge while the main die runs
(R419, R589); a dropped one stays there alone. -/
@[noinline] def logRepeat (s : State) (rpt sev source code part aux : Nat) (data : Bytes) : State :=
  let r := { mkRecord s true sev source code part aux data with rpt := min 0x7FFF rpt }
  let l := s.log
  match tierPut 128 l.lastMode l.confirmed l.cocoonBuf r with
  | none => { s with log := { l with cocoonDrop := l.cocoonDrop + 1, dropped := min 0xFFFFFFFF (l.dropped + 1) } }
  | some (t, repl) =>
    let l1 := { l with overwritten := l.overwritten + b2n repl, change := l.change + b2n repl }
    if s.power.mainOk && s.power.stopPoint != 0 then
      let l2 := enterMain (overwriteMode s) l1 r
      settleLog (
        if l2.next = l1.next then { s with log := { l2 with cocoonBuf := t } }
        else { s with log := { l2 with cocoonBuf := t.dropLast ++ [{ r with seq := l2.next - 1, chain := chainOf l1 }] } })
    else { s with log := { l1 with cocoonBuf := t } }

/-- A record the Cocoon makes (R589). -/
@[noinline] def logCocoon (s : State) (sev source code part aux : Nat) (data : Bytes) : State :=
  logRepeat s 0 sev source code part aux data

end Sys2Proof.Machine
end

