-- ==== Sys2Proof/Machine/Ops.lean ====
section
/-! DEFINITION. The operations every family shares: raising an event, drawing randomness, publishing a change of service,
and the passing of time. -/

namespace Sys2Proof.Machine

/-! ### Events -/

/-- System sources that R395 reserves are never raised. -/
def reservedSource (n : Nat) : Bool := decide (1043 ≤ n ∧ n ≤ 1279) || decide (1536 ≤ n)

/-- Set a host pending bit and open or join its hold-off window (R396, R397). -/
@[noinline] def raiseHost (s : State) (n : Nat) : State :=
  if s.eic.hostPend.contains n then { s with eic := { s.eic with quiet := sdel n s.eic.quiet } }
  else
    let h := s.holdOff (n / 16)
    let e := { s.eic with hostPend := sins n s.eic.hostPend, quiet := sdel n s.eic.quiet }
    if h.isOpen then { s with eic := e }
    else if h.timer = 0 then { s with eic := { e with ready := sins n e.ready } }
    else { s with eic := { e with holdOff := tset e.holdOff (n / 16) { h with isOpen := true, remain := h.timer } } }

/-- Latch a listed source while the main die is off (R413, R414). -/
@[noinline] def latchWake (s : State) (n : Nat) : State :=
  if s.asleep ∧ wakeCapable n ∧ s.wakeAt n ≠ [] then
    { s with eic := { s.eic with latches := sins n s.eic.latches, firstLatch := s.eic.firstLatch.or (some n) } }
  else s

/-- In STANDBY a latch starts the exit, and in IDLE a raise ends the gating (R412, R414, R489). -/
def State.roused (s : State) : State :=
  if s.power.power = .standby ∧ s.eic.latches ≠ [] then { s with power := { s.power with waiting := some ⟨2, 0x0B, false, 0⟩ } }
  else if s.power.power = .idle ∧ s.eic.roused then { s with power := { s.power with power := .run }, eic := { s.eic with roused := false } }
  else s

/-- A raise in IDLE ungates the clocks that its path needs (R412). -/
def rouse (s : State) : State := if s.power.power = .idle then { s with eic := { s.eic with roused := true } } else s

/-- Set the core pending bit, which system sources have (R396). -/
def pendCore (s : State) (n : Nat) : State :=
  if 1024 ≤ n then { s with eic := { s.eic with corePend := sins n s.eic.corePend } } else s

/-- Raise a source: every pending bit it has is set (R396), and IDLE ends (R412). Sources from 1,440 on are never mapped to the host (R395).
While the main die is off it holds no pending bits, and the Cocoon latches the listed ones (R414). -/
@[noinline] def raise (s : State) (n : Nat) : State :=
  if reservedSource n then s
  else if s.asleep then latchWake s n
  else
    let t := pendCore (rouse s) n
    if n < 1440 then raiseHost t n else t

/-- Raise PAIR_ELIGIBILITY where the module's eligibility differs from before (R546). -/
@[noinline] def noteEligible (before after : State) : State :=
  if before.eligible = after.eligible then after else raise after 1034

/-- Raise SERVICE_STATE where the service state, ENTROPY_READY, COLLAR_HELD or FETCH_OPEN differs from before (R395), and
PAIR_ELIGIBILITY where eligibility does. -/
@[noinline] def noteService (before after0 : State) : State :=
  let after := noteEligible before after0
  if before.service = after.service ∧ before.entropy.ready = after.entropy.ready
    ∧ before.collarHeld = after.collarHeld ∧ before.fetchOpen = after.fetchOpen
  then after else raise after 1024

/-- Raise FUNCTION_STATE where a function's STATE differs from before (R395). -/
@[noinline] def noteFunctions (before after : State) : State :=
  if (List.range 256).all (fun n => decide (before.fnState n = after.fnState n)) then after else raise after 1025

/-! ### Randomness -/

/-- Draw `n` bytes from the stream of random bytes (R34). -/
@[noinline] def draw (s : State) (n : Nat) : Bytes × State :=
  ((List.range n).map (fun i => Config.freeByte (s.free + i)), { s with free := s.free + n })

/-- The serial-number stamp of a value the spec leaves free. -/
@[noinline] def freeNat (s : State) : Nat × State := (Config.freeNat s.free, { s with free := s.free + 1 })

/-- Whether the instance of partition 0 can serve a draw of the supervisor cores from its staging buffer (R375, R379, R381). -/
def State.coreReady (s : State) (n : Nat) : Bool := (s.part 0).drbg.ready && decide (n ≤ (s.part 0).drbg.staged.length)

/-- A draw of the supervisor cores from the staging buffer of partition 0's instance: SPDM, quorum challenges and custodian
ephemerals (R379, R381). -/
@[noinline] def coreDraw (s : State) (n : Nat) : Bytes × State :=
  ((s.part 0).drbg.staged.take n, s.modPart 0 (fun x => { x with drbg := { x.drbg with staged := x.drbg.staged.drop n } }))

/-! ### Posted writes -/

/-- A posted write of a function to host memory (R112). -/
@[noinline] def post (s : State) (fn addr : Nat) (b : Bytes) : State :=
  { s with bus := { s.bus with writes := s.bus.writes ++ [(fn, addr, b)] } }

/-- The value a register read returns to a function: its BAR0 offset, plus `bar * 2^24` for another BAR, 6 standing for
configuration space. -/
@[noinline] def readBack (s : State) (fn off v : Nat) : State :=
  { s with bus := { s.bus with reads := s.bus.reads ++ [(fn, off, v)] } }

/-- An access that the module turns away: its function, its offset as in `readBack`, and the completion status (R48, R54, R56). -/
@[noinline] def refuseAccess (s : State) (fn off : Nat) (c : Cpl) : State :=
  { s with bus := { s.bus with refused := s.bus.refused ++ [(fn, off, c)] } }

/-- A function's BARs answer: it exists and its Memory Space Enable is 1 (R56, R59). -/
def State.barOpen (s : State) (fn : Nat) : Bool := s.fnExists fn && (s.fn fn).memSpace && s.power.mainOk

/-- An access to a BAR of a function: one that does not exist does not answer (R60), and with Memory Space Enable 0 the access completes
with Unsupported Request and has no effect (R56). -/
def barAccess (s : State) (fn off : Nat) (f : State → State) : State :=
  if s.barOpen fn then f s
  else if s.fnExists fn && s.power.mainOk then refuseAccess s fn off .unsupported else s

/-- An access to configuration space: a function that does not exist does not answer (R60), and before the host interface is ready
the access completes with Configuration Request Retry Status (R48). -/
def configAccess (s : State) (fn off : Nat) (f : State → State) : State :=
  if !s.fnExists fn then s
  else if s.cfgReady then f s
  else if s.power.mainOk && !s.link.perst then refuseAccess s fn (6 * 2 ^ 24 + off) .retry else s

/-- A ring with published entries that are not fetched yet. -/
def State.fetchWork (s : State) (rid : Nat) : Bool :=
  let r := s.ring rid
  r.state == .enabled && r.prod != r.fetch && s.fetchOpen

/-- Whether no descriptor is in flight or fetchable (R487). -/
def State.workless (s : State) : Bool := s.adm.slots.isEmpty && s.rings.all (fun e => !s.fetchWork e.1)

/-! ### Time -/

/-- Bits of raw samples a diverted group adds in 1 µs (R364), up to the 1 MiB of its buffer (R391). -/
def tapRate (g : Nat) : Nat := if g < 8 then 100 else 200

/-- The entropy block samples: warming up, testing or ready (R364, R392). -/
def Entropy.samples (e : Entropy) : Bool := decide (1 ≤ e.st ∧ e.st ≤ 3)

/-- One microsecond of sampling: 1,600 samples, and those of a diverted group (R364, R391, R393). -/
def Entropy.tick (e : Entropy) : Entropy :=
  if e.samples then
    { e with rawBits := min (2 ^ 64 - 1) (e.rawBits + 1600)
             tapBits := if e.tap then min (2 ^ 23) (e.tapBits + tapRate e.tapGroup) else e.tapBits }
  else e

/-- One microsecond of a token bucket: DRBG_RATE × 1,000 bytes per second, so DRBG_RATE thousandths of a byte, up to
65,536 bytes (R382). -/
def Drbg.tick (d : Drbg) (rate : Nat) : Drbg :=
  if d.ready then { d with tokens := min 65536000 (d.tokens + rate) } else d

/-- What one microsecond adds to cluster time: while a slew is owed, every 1,000th gains or loses one (R534). -/
def slewStep (op : Nat) (slew : Int) : Nat × Int :=
  if op % 1000 ≠ 0 ∨ slew = 0 then (1, slew) else if 0 < slew then (2, slew - 1) else (0, slew + 1)

/-- One microsecond passes: operating time and cluster time advance, the functions' watchdogs count, open hold-off windows run down,
the entropy block samples and token buckets fill (R87, R364, R382, R397, R532, R587; assumption 4). -/
@[noinline] def tick (s0 : State) : State :=
  let s := s0.roused
  let w := slewStep s.opUs s.seam.slew
  { s with
    opUs := s.opUs + 1
    timeUs := s.timeUs + w.1
    seam := { s.seam with slew := w.2 }
    power := { s.power with idleUs := if s.workless then s.power.idleUs + 1 else 0 }
    entropy := s.entropy.tick
    fns := tmap s.fns s.watch
    parts := tmap s.parts (fun p x => { x with drbg := x.drbg.tick (s.quota p 0x0B) })
    eic := { s.eic with holdOff := tmap s.eic.holdOff (fun _ h => { h with remain := h.remain - 4 }) } }

end Sys2Proof.Machine
end

