-- ==== Sys2Proof/Machine/Slots.lean ====
section
/-! DEFINITION. A descriptor in flight, shared by every family: ending it, letting go of what it holds, and cutting work
short where a ring, a function, an alarm or the collar stops it (R81, R117, R118, R132 to R135, R557). -/

namespace Sys2Proof.Machine

/-- The slots of a ring in flight, with their numbers. -/
def State.ringSlots (s : State) (rid : Nat) : Tab Slot := s.adm.slots.filter (fun e => e.2.rid == rid)

/-- Index `a` lies below index `b` in a ring whose fetch index is `f` (R99). -/
def below (f a b : Nat) : Bool := decide (idxSub f b < idxSub f a)

/-- Whether a stage lies before the commit stage. -/
def Stage.uncommitted : Stage → Bool
  | .commitWait => false
  | .closed => false
  | .done => false
  | _ => true

/-! ### Read requests -/

/-- Descriptor reads outstanding, one per read request, and the buffer reads outstanding, of the functions that meet a test (R43,
R44). -/
def State.readsOut (s : State) (keep : Nat → Bool) : Nat :=
  ((s.adm.slots.filter (fun e => e.2.stage == .reading && keep (e.2.rid / 4096))).map (fun e => e.2.readId)).dedup.length
    + ((s.adm.slots.filter (fun e => keep (e.2.rid / 4096))).map (fun e => e.2.bufReads)).sum

/-- Read requests a function may still issue (R43, R44). -/
def State.readRoom (s : State) (fn : Nat) : Nat :=
  min ((if fn = 0 then 256 else 128) - s.readsOut (· == fn)) ((if (s.fn 0).tag10 then 768 else 256) - s.readsOut (fun _ => true))

/-- The largest read request of a function: its Max_Read_Request_Size, and at most 4,096 bytes (R44). -/
def State.readMax (s : State) (fn : Nat) : Nat := min 4096 (s.fn fn).mrrs

/-- The next `n` requests of at most `m` bytes for the pieces of host memory still owed, none across a 4 KiB boundary, and what is
owed after them. -/
def splitReads (m : Nat) : Nat → List (Nat × Nat) → List (Nat × Nat) × List (Nat × Nat)
  | 0, l => ([], l)
  | _, [] => ([], [])
  | n + 1, (a, len) :: r =>
    let k := min (min m len) (4096 - a % 4096)
    let o := splitReads m n (if len ≤ k then r else (a + k, len - k) :: r)
    ((a, k) :: o.1, o.2)

/-- Issue what the read limits allow of a descriptor's buffer reads (R43, R44). -/
def issueReads (s : State) (n : Nat) : State :=
  match s.slot n with
  | none => s
  | some x =>
    let fn := x.rid / 4096
    let o := splitReads (s.readMax fn) (s.readRoom fn) x.owed
    if o.1.isEmpty then s
    else
      let t := s.modSlot n (fun y => { y with owed := o.2, bufReads := y.bufReads + o.1.length })
      { t with bus := { t.bus with issued := t.bus.issued ++ o.1.map (fun e => (fn, e.1, e.2)) } }

/-- Issue what the read limits allow of every descriptor's buffer reads. -/
def issueAllReads (s : State) : State := (tkeys (tfilter s.adm.slots (fun _ x => !x.owed.isEmpty))).foldl issueReads s

/-- Give a descriptor its final status, with nothing to write but the header (R110). -/
@[noinline] def finish (s : State) (n : Nat) (st : Status) (detail : Nat) : State :=
  s.modSlot n (fun x =>
    { x with stage := .done, changes := [], unit := none, owed := [], bufReads := 0,
             res := some ⟨st, detail, 0, none, [], x.time24 / 24, 0⟩ })

/-- The key material a descriptor's operations work on. -/
def Slot.secret (x : Slot) : Bytes := (x.keys.map (·.rcd.material)).flatten

/-- What the step at the front of a queue works on; none with nothing in the queue. -/
def State.frontSecret (s : State) (q : List Nat) : Option Bytes := (q.head?.bind s.slot).map Slot.secret

/-- A hash unit's registers hold the key material of the step that runs and are zero without one (R319). -/
def startHash (s : State) (h : Nat) : State := s.modHash h (fun x => { x with held := s.frontSecret x.queue })

/-- A Plume unit's memory holds the key material of the operation that runs and is zero without one (R330, R360). -/
def startPlume (s : State) (p : Nat) : State := s.modPlume p (fun x => { x with mem := s.frontSecret x.queue })

/-- The bank words that hold some bytes, tagged. -/
def bankOf (b : Bytes) : Tab BankWord := (List.range (ceilDiv b.length 8)).map (fun i => (i, ⟨leAt b (8 * i) 8, true⟩))

/-- Outside a session, an engine's bank and window store hold the operation that runs, large-record granules decrypted straight
into them, and are zero without one (R180, R330). -/
def startEngine (s : State) (e : Nat) : State :=
  if (s.engine e).st = .session then s
  else match (s.engine e).queue.head?.bind s.slot with
    | none => s.modEngine e (fun g => { g with bank := [], window := none })
    | some x => if isRaw (opcode x.desc) then s
      else s.modEngine e (fun g => { g with bank := bankOf x.secret, window := some x.desc })

/-- The queue of a unit without a descriptor; the step that comes to its front starts. -/
@[noinline] def unqueue (s : State) (n : Nat) (u : UnitClass × Nat) : State :=
  match u with
  | (.skipper, l) => s.modLane l (fun x => { x with queue := x.queue.filter (· != n) })
  | (.hash, h) => startHash (s.modHash h (fun x => { x with queue := x.queue.filter (· != n) })) h
  | (.hawkmoth, e) => startEngine (s.modEngine e (fun x => { x with queue := x.queue.filter (· != n) })) e
  | (.plume, p) => startPlume (s.modPlume p (fun x => { x with queue := x.queue.filter (· != n) })) p

/-- Pages cleared, counted with saturation (R327). -/
def Lane.cleared (l : Lane) (n : Nat) : Lane := { l with clears := min (2 ^ 64 - 1) (l.clears + n) }

/-- Zero every page that meets a test and make it FREE (R308). -/
@[noinline] def freePages (s : State) (p : Page → Bool) : State :=
  { s with units := { s.units with lanes := tmap s.units.lanes (fun _ l =>
    { l.cleared (tcount l.pages (fun _ g => p g)) with pages := tfilter l.pages (fun _ g => !p g) }) } }

/-- The page a use names, while it still holds the load it was taken for. -/
def Lane.pageOf (l : Lane) (u : PageUse) : Option Page := (tget l.pages u.page).filter (fun g => g.stamp == u.stamp)

/-- One descriptor fewer uses a register page: it turns HELD when the last one ends (R305). -/
@[noinline] def unusePage (s : State) (u : PageUse) : State :=
  match (s.lane u.lane).pageOf u with
  | none => s
  | some g => s.modLane u.lane (fun l => { l with pages := tset l.pages u.page { g with users := g.users - 1 } })

/-- Zero the pages that a descriptor itself loaded (R178, R308). -/
@[noinline] def freeLoaded (s : State) (x : Slot) : State :=
  freePages s (fun g => x.pages.any (fun u => u.loaded && u.stamp == g.stamp))

/-- One descriptor fewer holds a reservation-table entry; the entry frees with the last one (R252). -/
@[noinline] def unreserve (s : State) (rec : Nat) : State :=
  match tget s.resv rec with
  | none => s
  | some r => if r.users ≤ 1 then { s with resv := terase s.resv rec }
    else { s with resv := tset s.resv rec { r with users := r.users - 1 } }

/-- Let go of everything a descriptor holds and free its admission-buffer slot (R37, R119). -/
@[noinline] def release (s : State) (n : Nat) : State :=
  match s.slot n with
  | none => s
  | some x =>
    let s1 := match x.unit with
      | none => s
      | some u => unqueue s n u
    let s2 := x.pages.foldl unusePage s1
    let s3 := match x.resvd with
      | none => s2
      | some r => unreserve s2 r
    { s3 with
      adm := { s3.adm with slots := terase s3.adm.slots n }
      units := { s3.units with engines := tmap s3.units.engines (fun _ e =>
        if e.reservedBy = some n then { e with reservedBy := none } else e) }
      atcResv := s3.atcResv.filter (fun e => e.1 != n)
      entropy := { s3.entropy with draws := s3.entropy.draws.filter (fun e => e.2.1 != n) } }

/-- A descriptor committed but unwritten: counted, its commit sequence number within the range the record gives (R85). -/
def Disable.unwrote (d : Disable) (seq : Nat) : Disable :=
  { d with unwritten := d.unwritten + 1
           firstSeq := if seq = 0 then d.firstSeq else if d.firstSeq = 0 then seq else min d.firstSeq seq
           lastSeq := max d.lastSeq seq }

/-- Count something in the running disable procedure of a partition (R85). -/
@[noinline] def countDisable (s : State) (p : Nat) (f : Disable → Disable) : State :=
  match (s.part p).disable with
  | none => s
  | some d => s.modPart p (fun x => { x with disable := some (f d) })

/-- Discard a descriptor: no completion, and its index stays without one (R81, R132). -/
@[noinline] def discard (s : State) (n : Nat) : State :=
  match s.slot n with
  | none => s
  | some x => release (countDisable s x.part (fun d => { d with discarded := d.discarded + 1 })) n

/-- Let go of the running entry of a discarded chain: it counts as aborted, and no completion is written (R85, R133). -/
@[noinline] def discardRunning (s : State) (n : Nat) : State :=
  match s.slot n with
  | none => s
  | some x => release (countDisable s x.part (fun d => { d with aborted := d.aborted + 1 })) n

/-- The slots of one chain of a ring, lowest index first (R116). -/
@[noinline] def chainSlots (s : State) (rid first : Nat) : Tab Slot :=
  ((s.ringSlots rid).filter (fun e => e.2.chain == some first)).mergeSort
    (fun a b => decide (idxSub a.2.index first ≤ idxSub b.2.index first))

/-- Zero an engine's bank, tags and window store (R330, R350). -/
def Engine.zeroed (e : Engine) : Engine := { e with bank := [], window := none }

/-- Close an engine's raw session: its bank, tags and window store are zero, and it serves high-level work again (R336). -/
@[noinline] def closeEngine (s : State) (e : Nat) : State :=
  s.modEngine e (fun x =>
    if x.st = .session then { x.zeroed with st := .idle, sess := 0, sessPart := 0, sessRid := 0, sessKey := 0, reservedBy := none }
    else x)

/-- The session a descriptor holds is still open on its engine: a session ID is never given twice (R334). -/
def State.holdsSession (s : State) (x : Slot) : Bool :=
  x.sess != 0 && (s.engine (x.sess % 256)).st == .session && (s.engine (x.sess % 256)).sess == x.sess

/-- An entry of a failed chain takes a status: at once, or, while its step runs, once the step has run to its end (R118, R134). -/
def endEntry (s : State) (n : Nat) (x : Slot) (st : Status) : State :=
  if x.unit.isSome ∧ x.stage = .queued then s.modSlot n (fun y => { y with ends := some (y.ends.getD st) }) else finish s n st 0

/-- A chain fails: every entry but `n`, and but those that still await their data, ends with CHAIN_ABORTED; nothing of them
commits (R118), and a session the chain opened is closed while it still holds its engine (R348). -/
@[noinline] def failChain (s : State) (n : Nat) : State :=
  match s.slot n with
  | none => s
  | some x => match x.chain with
    | none => s
    | some first => (chainSlots s x.rid first).foldl
        (fun t e =>
          let u := if opcode e.2.desc == 0x901 && t.holdsSession e.2 then closeEngine t (e.2.sess % 256) else t
          if e.1 = n ∨ e.2.stage = .reading then u else endEntry u e.1 e.2 .chainAborted) s

/-- End a descriptor with a failing status; a chain it belongs to fails with it (R118). -/
def fail (s : State) (n : Nat) (st : Status) (detail : Nat) : State := finish (failChain s n) n st detail

/-- The raw command of a session that runs on its engine, or has run and is not yet settled, but for RAW_SESSION_CLOSE. -/
def State.runningRaw (s : State) (e : Nat) : Option Nat :=
  ((s.adm.slots.filter (fun p => p.2.unit == some (.hawkmoth, e) && p.2.sess == (s.engine e).sess && p.2.res.isNone &&
    opcode p.2.desc != 0x902 && (p.2.stage == .ran || (s.engine e).queue.head? == some p.1))).head?).map (·.1)

/-- Abort the raw command that runs in a session: it ends once its engine has zeroed itself (R350). -/
def abortRaw (s : State) (n : Nat) : State :=
  match s.slot n with
  | none => s
  | some x =>
    if x.cut.isSome then s
    else (if x.ends.isSome then s else failChain s n).modSlot n (fun y => { y with cut := some (x.ends.getD .aborted) })

/-- Close an engine's raw session for a cause outside it: the command that runs in it is aborted (R336, R350; assumption 106). -/
@[noinline] def closeSession (s : State) (e : Nat) : State :=
  closeEngine (match s.runningRaw e with
    | none => s
    | some n => abortRaw s n) e

/-- Close the sessions that meet a test. -/
def closeSessions (s : State) (p : Engine → Bool) : State :=
  (tkeys (tfilter s.units.engines (fun _ e => e.st == .session && p e))).foldl closeSession s

/-- Change the entropy block. -/
@[noinline] def State.modEntropy (s : State) (f : Entropy → Entropy) : State := { s with entropy := f s.entropy }

/-- Uninstantiate an instance: requests queued at it end with a status, and other descriptors ask again (R383, R389). -/
@[noinline] def uninstantiate (s : State) (p : Nat) (st : Status) : State :=
  let s1 := (s.adm.slots.filter (fun e => e.2.part == p)).foldl (fun t e =>
    if e.2.res.isSome then t
    else if (opcode e.2.desc == 0xA01 || opcode e.2.desc == 0xA02) && (e.2.stage == .drawWait || e.2.random || e.2.draws != 0)
    then fail t e.1 st 0
    else if e.2.stage = .drawWait then t.modSlot e.1 (fun x => { x with stage := .bound, draws := 0 })
    else t) s
  let gone := tkeys (tfilter s.adm.slots (fun _ x => x.part == p && x.stage == .drawWait))
  let s2 := s1.modEntropy (fun e =>
    { e with draws := e.draws.filter (fun d => d.2.1 != 300000 + p && !gone.contains d.2.1) })
  s2.modPart p (fun x => { x with drbg := { drbg0 with reseeds := x.drbg.reseeds, hostBytes := x.drbg.hostBytes } })

/-- Why work is cut (R134, R557, R560). -/
inductive Cut where
  | disable
  | entropy
  | halt
  | lock
  | collar
  | handover
  deriving DecidableEq, Repr

/-- The status a fetched entry that has not started ends with; none where it is discarded (R134, R557). -/
def Cut.waiting : Cut → Option Status
  | .disable => none
  | .entropy => some .entropyFailed
  | .halt => some .aborted
  | .lock => some .serviceLocked
  | .collar => some .notActive
  | .handover => some .notActive

/-- The status a started step on a unit class is aborted with; none where it runs to its end (R134, R557). -/
def Cut.running (k : Cut) (u : UnitClass) : Option Status :=
  match k, u with
  | .lock, _ => some .serviceLocked
  | .disable, .hawkmoth => some .aborted
  | .disable, .plume => some .aborted
  | .collar, .hawkmoth => some .notActive
  | .collar, .plume => some .notActive
  | _, _ => none

/-- Whether a step on this class ends through the zeroing of its unit (R350). -/
def UnitClass.zeroes : UnitClass → Bool
  | .hawkmoth => true
  | .plume => true
  | _ => false

/-- Take the waiting commit-queue items of a descriptor back (R557, R433). -/
@[noinline] def withdraw (s : State) (n : Nat) : State :=
  { s with commit := { s.commit with queue := s.commit.queue.filter (fun i => !i.slots.contains n) } }

/-- Whether a descriptor has started: a raw command that still waits behind another of its session has not (R335, R349). -/
def State.begun (s : State) (n : Nat) (x : Slot) : Bool :=
  x.started && !(isRaw (opcode x.desc) && x.stage == .queued && (match x.unit with
    | some (.hawkmoth, e) => (s.engine e).queue.head? != some n
    | _ => false))

/-- Take a descriptor's step out of its unit's queue. -/
def dropStep (s : State) (n : Nat) (x : Slot) : State :=
  match x.unit with
  | none => s
  | some u => unqueue s n u

/-- Cut one descriptor that is not part of an uncommitted chain. A started descriptor that stands between two steps goes on: the
spec cuts started steps only (R81, R134; DESIGN CHOICE, assumption 94). -/
@[noinline] def cutOne (s : State) (k : Cut) (n : Nat) (x : Slot) : State :=
  match x.stage with
  | .done => s
  | .closed => s
  | .commitWait =>
    match k with
    | .lock => finish (withdraw s n) n .serviceLocked 0
    | .collar => finish (withdraw s n) n .notActive 0
    | _ => s
  | .reading =>
    match k.waiting with
    | none => discard s n
    | some st => s.modSlot n (fun y => { y with cut := some st })
  | _ =>
    if s.begun n x then
      match x.unit with
      | none => match k with
        | .lock => finish s n .serviceLocked 0
        | _ => s
      | some u => match k.running u.1 with
        | none => s
        | some st => if u.1.zeroes then s.modSlot n (fun y => { y with cut := some st })
          else finish (unqueue s n u) n st 0
    else match k.waiting with
      | none => discard s n
      | some st => finish (dropStep s n x) n st 0

/-- The entry of an uncommitted chain that carries the cause: the running or next entry; under a halt, which lets the
running step end, the next one that has not started (R133, R134, R557). -/
@[noinline] def chainPick (s : State) (k : Cut) (rid first : Nat) : Option Nat :=
  let all := chainSlots s rid first
  let named (st : Status) : Bool := st != .ok && st != .chainAborted
  let l := if all.any (fun e => e.2.cut.any named || e.2.ends.any named || e.2.res.any (fun r => named r.status)) then []
    else all.filter (fun e => e.2.res.isNone)
  let waits := (l.find? (fun e => !e.2.started)).map (·.1)
  match k with
  | .halt => waits.or (l.head?.map (·.1))
  | .entropy => waits.or (l.head?.map (·.1))
  | .handover => waits.or (l.head?.map (·.1))
  | _ => l.head?.map (·.1)

/-- Cut an entry of an uncommitted chain: under a disable the chain is discarded whole, its running entry aborted without
a completion; otherwise one entry carries the cause and the others CHAIN_ABORTED (R118, R133). -/
@[noinline] def cutChained (s : State) (k : Cut) (n : Nat) (x : Slot) (first : Nat) : State :=
  match k with
  | .disable => match x.unit with
    | none => discard s n
    | some u => if u.1.zeroes then s.modSlot n (fun y => { y with cut := some .aborted, noWrite := true })
      else discardRunning s n
  | _ =>
    let st := if chainPick s k x.rid first = some n then k.waiting.getD .aborted else .chainAborted
    if x.res.any (fun r => r.status != .ok) then s
    else match x.unit with
      | none => if x.stage = .reading then s.modSlot n (fun y => { y with cut := some st }) else finish s n st 0
      | some u => match k.running u.1 with
        | none => endEntry s n x st
        | some _ => if u.1.zeroes then s.modSlot n (fun y => { y with cut := some st }) else finish (unqueue s n u) n st 0

/-- Cut one descriptor in flight for a cause (R81, R133, R134, R557). -/
def cutSlot (s : State) (k : Cut) (n : Nat) : State :=
  match s.slot n with
  | none => s
  | some x => match x.chain with
    | none => cutOne s k n x
    | some first => if x.stage.uncommitted then cutChained s k n x first else cutOne s k n x

/-- Cut every descriptor of a ring, lowest index first. -/
def cutRing (s : State) (k : Cut) (rid : Nat) : State :=
  let f := (s.ring rid).fetch
  ((s.ringSlots rid).mergeSort (fun a b => decide (idxSub f b.2.index ≤ idxSub f a.2.index))).foldl
    (fun t e => cutSlot t k e.1) s

/-- Stop a ring toward a state it will settle in: a halt applies to every ring that is not DISABLED, and otherwise the first cause
decides; HALTED is left by DISABLE alone (R130, R132, R134). -/
@[noinline] def stopRing (s : State) (rid : Nat) (goal : RingState) : State :=
  s.modRing rid (fun r => match r.state with
    | .disabled => r
    | .halted => r
    | .stopping => if goal = .halted then { r with settle := goal } else r
    | _ => { r with state := .stopping, settle := goal, chainWait := false })

/-- A partition's chain reservation is released: the rings that stepped back for it may fetch again (R121). -/
@[noinline] def freeHold (s : State) (p : Nat) : State :=
  { s with
    adm := { s.adm with chainHold := terase s.adm.chainHold p }
    rings := tmap s.rings (fun rid r =>
      if s.ringPart rid = some p ∧ r.chainWait ∧ r.chainAt = none then { r with chainWait := false } else r) }

/-- Let a ring's chain reservation go, if it holds one or waits for it (R121). -/
@[noinline] def dropReservation (s : State) (rid : Nat) : State :=
  match s.adm.chainHold.find? (fun e => e.2 == rid) with
  | some e => freeHold s e.1
  | none => match s.ringPart rid with
    | none => s
    | some p => if (s.ring rid).chainWait && (s.ring rid).chainAt.isSome then freeHold s p else s

/-- Whether an entry, or the chain it belongs to, has started. -/
def State.unitStarted (s : State) (x : Slot) : Bool :=
  x.started || (x.chain.isSome && (s.ringSlots x.rid).any (fun e => e.2.chain == x.chain && (e.2.started || e.2.res.isSome)))

/-- Discard the fetched entries above an index that have not started, a chain whole (R132). -/
@[noinline] def discardAbove (s : State) (rid e : Nat) : State :=
  let f := (s.ring rid).fetch
  (s.ringSlots rid).foldl (fun t x =>
    if below f e x.2.index && !s.unitStarted x.2 && x.2.stage.uncommitted then discard t x.1 else t) s

/-- A chain whose LAST entry can no longer be fetched ends: it contains the entry in error and fails (R118, R132); where an invalid
doorbell, which is no entry, stopped the ring, it is discarded whole, as a chain above E is (DESIGN CHOICE, assumption 95). -/
def failOpenChains (s : State) (rid : Nat) : State :=
  let l := s.ringSlots rid
  let r := s.ring rid
  if r.state = .enabled ∨ l.any (fun e => e.2.stage == .reading) then s
  else l.foldl (fun t e =>
    if e.2.chain.isSome && e.2.res.isNone && !(l.any (fun x => x.2.chain == e.2.chain && x.2.chainEnd)) then
      (if r.errCode = Status.code .ringOverrun ∧ r.settle = .error then discard t e.1 else finish t e.1 .chainAborted 0)
    else t) s

/-- A ring error (R132): the first one latches its cause and stops the ring toward ERROR; a later one changes nothing. Of an open
chain, `failOpenChains` says how it ends. -/
def ringError (s : State) (rid : Nat) (code : Status) (lo hi : Nat) (entry : Option Nat) : State :=
  let r := s.ring rid
  if r.state = .enabled then
    let s1 := stopRing (dropReservation s rid) rid .error
    let s2 := s1.modRing rid (fun r => { r with errCode := code.code, latchLo := lo, latchHi := hi })
    let s3 := failOpenChains (match entry with
      | none => s2
      | some e => discardAbove s2 rid e) rid
    logMain s3 1 0x0200 0x0201 ((s.ringPart rid).getD 0xFF) 0
      (leBytes 2 ((s.globalRing rid).getD 0) ++ leBytes 2 code.code ++ leBytes 4 lo ++ leBytes 4 hi)
  else s

/-- A MALFORMED entry: it completes so and stops the ring; on a ring already stopping it is discarded (R132), and the chain that
contains it fails (R118; DESIGN CHOICE, assumption 95). -/
def malformed (s : State) (n rid index off : Nat) : State :=
  if (s.ring rid).state = .enabled then ringError (fail s n .malformed off) rid .malformed index 0 (some index)
  else discard (failChain s n) n

/-- REPLAY_INDEX: the lowest index below F without a written completion, or F (R135). -/
def Ring.replayIndex (r : Ring) : Nat :=
  r.unwritten.foldl (fun m i => if idxSub r.fetch m < idxSub r.fetch i then i else m) r.fetch

/-- The replay index of a ring whose last fetched entry has ended while the member does not hold the collar (R557). -/
def noteReplay (s : State) (rid : Nat) : State :=
  if s.paired ∧ !s.collarHeld ∧ (s.ring rid).state = .enabled ∧ (s.ringSlots rid).isEmpty
  then s.modRing rid (fun r => { r with replay := r.replayIndex }) else s

/-- Release the local groups of a function that nothing names, enables or has pending any more (R98). -/
def releaseGroups (s : State) (fn : Nat) : State :=
  if fn = 0 then s
  else { s with groups := tmap s.groups (fun gid g =>
    if decide (gid / 1024 = fn) && !g.enable &&
      !(s.rings.any (fun e => e.1 / 4096 == fn && e.2.state != .disabled && e.2.group == gid % 1024)) &&
      (match g.glob with
        | none => true
        | some n => !s.eic.hostPend.contains n)
    then { g with glob := none } else g) }

end Sys2Proof.Machine
end

