-- ==== Sys2Proof/Machine/KeyForm.lean ====
section
/-! DEFINITION. Keys that are formed rather than stored: KD, partition master keys, seals, record keys and the grant key,
and how the store protects a record and its granules (R145 to R148, R165 to R169, R199). -/

namespace Sys2Proof.Machine

/-- The MR value of a register (R143). -/
def State.mr (s : State) (k : Nat) : Bytes := s.meas.mr.getD k (zeros 48)

/-- Block Bi that Looper encrypts to form KD (R145). -/
def kdBlock (life i : Nat) : Bytes := [0x4E#8, 0x4C#8, 0x4D#8, 0x4B#8, 0x44#8, byteOf life] ++ zeros 9 ++ [byteOf i]

/-- KD: three Looper blocks under the DRS, 48 bytes (R145). -/
def kdOf (drs : Bytes) (life : Nat) : Bytes :=
  Aes.encrypt drs (kdBlock life 1) ++ Aes.encrypt drs (kdBlock life 2) ++ Aes.encrypt drs (kdBlock life 3)

/-- The PMK of a partition under a mask and given MR values (R146). -/
def pmkOf (kd : Bytes) (p : Nat) (nonce : Bytes) (mask : Nat) (mrs : List Bytes) (life : Nat) : Bytes :=
  kdfHmac kd (ascii "NLM-PMK")
    ([byteOf p] ++ nonce ++ [byteOf mask]
      ++ (((List.range 8).filter (fun k => bit mask k)).map (fun k => mrs.getD k (zeros 48))).flatten ++ [byteOf life]) 256

/-- The PMK of a partition under the registers in force, while hash unit 0 holds KD (R145, R146). -/
def State.pmk (s : State) (p : Nat) (nonce : Bytes) (mask : Nat) : Option Bytes :=
  s.keys.kd.map (fun kd => pmkOf kd p nonce mask s.meas.mr s.life.latched)

/-- The MR values after a start from the announced images (R155, R156). -/
def State.pendingMrs (s : State) (man : Option Bytes) : List Bytes :=
  (List.range 8).map (fun k =>
    if k = 0 then s.mr 0
    else if k ≤ 4 then match man with
      | some m => slice m (56 + 48 * (k - 1)) 48
      | none => s.mr k
    else Sha.sha384 (zeros 48 ++ s.odGet 0x3000 (0x09 + (k - 5))))

/-- The PMK of a partition under the pending registers (R155). -/
def State.pmkPending (s : State) (p : Nat) (nonce : Bytes) (mask : Nat) (man : Option Bytes) : Option Bytes :=
  s.keys.kd.map (fun kd => pmkOf kd p nonce mask (s.pendingMrs man) s.life.latched)

/-- A seal: the PSK wrapped under a PMK (R148). -/
def sealOf (pmk psk : Bytes) : Bytes := aesKw pmk psk

/-- The record keys of a partition (R148). -/
def recKeyOf (psk : Bytes) : Bytes := kdfHmac psk (ascii "NLM-REC") [] 512

/-- The grant key (R199). -/
def grantKeyOf (kd : Bytes) (life : Nat) : Bytes := kdfHmac kd (ascii "NLM-GRANT") [byteOf life] 256

/-! ### Records in the store -/

/-- Bytes of MATERIAL that are the key: a granule key, a symmetric key, or a public key held in a standard record (R165, R167). -/
def Rec.keyLen (r : Rec) : Nat := if r.large ∨ isSym r.alg = false then 32 else symLen r.alg

/-- A stored record, open, where its SIV verifies under a record key (R168). -/
def openRec (recKey : Bytes) (r : Rec) : Option Rec :=
  (sivDec recKey r.header (slice r.material 32 16) (r.material.take 32)).map (fun m => { r with material := m.take r.keyLen })

/-- A stored record, open, under its partition's record key as the key table has it (R148, R168). -/
def State.unwrapped (s : State) (r : Rec) : Option Rec := (s.part r.part).recKey.bind (fun k => openRec k r)

/-- A stored record with a changed header: opened and wrapped again, so that its SIV covers the change (R168). -/
def State.rewrap (s : State) (f : Rec → Rec) (r : Rec) : Rec :=
  match (s.part r.part).recKey with
  | none => f r
  | some k => match openRec k r with
    | none => f r
    | some o => wrapRec k (f o)

/-- The granule key of a new large record (R165, R169). -/
def granuleKey (slot gen : Nat) : Bytes := (List.range 32).map (Config.granuleByte slot gen)

/-- IV of one granule: SLOT, GENERATION, the granule's number in the run, and zeros (R169). -/
def granuleIv (slot gen n : Nat) : Bytes := beBytes 12 (slot * 2 ^ 68 + gen * 2 ^ 48 + n * 2 ^ 40)

/-- A large record's content as its granules hold it, ciphertext and tag of each (R169); the fill of the last one is left out. -/
def sealGranules (key : Bytes) (slot gen : Nat) (content : Bytes) : Bytes :=
  ((chunks 1008 content).zipIdx.map (fun e =>
    let (ct, tag) := gcmEnc key (granuleIv slot gen e.2) [] e.1
    ct ++ tag)).flatten

/-- The content of a run of granules, where every tag verifies. -/
def openGranules (key : Bytes) (slot gen : Nat) (b : Bytes) : Option Bytes :=
  ((chunks 1024 b).zipIdx.mapM (fun e =>
    gcmDec key (granuleIv slot gen e.2) [] (e.1.take (e.1.length - 16)) (e.1.drop (e.1.length - 16)))).map List.flatten

/-- An open record as an operation takes it: the content of a large one is decrypted from its granules (R169, R180). -/
def State.content (s : State) (slot : Nat) (r : Rec) : Option Rec :=
  if !r.large then some r
  else match tget s.keys.large r.runFirst with
    | none => none
    | some (_, b) => (openGranules r.material slot r.gen b).map (fun m => { r with material := m })

/-- Whether a partition's grants and writes are waived: TEST and VENDOR (R452). -/
def State.factory (s : State) : Bool := s.life.latched == 0x11 || s.life.latched == 0x22

end Sys2Proof.Machine
end

