-- ==== Sys2Proof/Machine/Commit.lean ====
section
/-! DEFINITION. The commit stage: what each committed change does at its commit point, the closing of cycles and journal
pages, and what becomes durable when (R35, R36, R183 to R191, R541 to R545). -/

namespace Sys2Proof.Machine

/-! ### What a change does at its commit point -/

/-- Drop the key-cache entries that meet a test (R183). -/
@[noinline] def dropCache (s : State) (p : Nat → CacheEntry → Bool) : State :=
  { s with keys := { s.keys with cache := tfilter s.keys.cache (fun k e => !p k e) } }

/-- Change a stored record and its cache entry in the same F-cycle (R168, R183). -/
@[noinline] def modRecord (s : State) (slot : Nat) (f : Rec → Rec) : State :=
  { s with keys :=
    { s.keys with
      recs := tmap s.keys.recs (fun k r => if k = slot then { r with rcd := s.rewrap f r.rcd } else r)
      cache := tmap s.keys.cache (fun k e => if k = slot then { e with rcd := f e.rcd } else e) } }

/-- The lineage index of a record that may be a parent (R184). -/
def Rec.linIdx (r : Rec) : Option Nat :=
  if r.tier ≤ 2 ∧ (r.anc.getD r.tier ⟨0, 0⟩).gen ≠ 0 then some (r.anc.getD r.tier ⟨0, 0⟩).idx else none

/-- Increment a lineage entry's generation, marking it as incremented by its own record's invalidation (R186). -/
@[noinline] def bumpLineage (s : State) (i : Nat) : State :=
  { s with keys := { s.keys with
    lineage := tset s.keys.lineage i { s.lin i with gen := (s.lin i).gen + 1, fresh := true } } }

/-- Free a lineage entry: incremented unless its record's invalidation has already done so; retired at the top (R189). -/
@[noinline] def freeLineage (s : State) (i : Nat) : State :=
  let l := s.lin i
  let g := if l.fresh then l.gen else l.gen + 1
  if l.owner.isNone then s
  else { s with keys := { s.keys with
    lineage := tset s.keys.lineage i ⟨g, none, 0, false⟩
    linRet := if 0xFFFFFF ≤ g then sins i s.keys.linRet else s.keys.linRet } }

/-- Free a record's slot, its granules, its cache entry and its pages (R163, R188, R308). -/
@[noinline] def freeRecord (s : State) (slot : Nat) : State :=
  match s.rcd slot with
  | none => s
  | some r =>
    let g := s.slotGen slot
    let s1 := { s with keys := { s.keys with
      recs := terase s.keys.recs slot
      slotGen := if g < 0xFFFFF then tset s.keys.slotGen slot (g + 1) else s.keys.slotGen
      retired := if g < 0xFFFFF then s.keys.retired else sins slot s.keys.retired
      large := if r.rcd.runCount = 0 then s.keys.large else terase s.keys.large r.rcd.runFirst } }
    freePages (dropCache s1 (fun k _ => k == slot)) (fun p => p.slot == slot)

/-- Close the sessions of a member whose entry was rewritten (R578). -/
@[noinline] def dropMemberSessions (s : State) (m : Nat) : State :=
  { s with od := { s.od with sessions := tfilter s.od.sessions (fun _ x => x.member != m) } }

/-- The ports that are enabled train, the others are DISABLED, and the pair link trains where a pair is configured (R514, R517, R562). -/
@[noinline] def trainPorts (s : State) : State :=
  (List.range 5).foldl (fun t k =>
    let on := if k = 4 then t.paired else bit (t.odNat 0x7000 4) k
    if t.power.stopPoint = 0 then t
    else if on then (if (t.port k).st = 0 then t.modPort k (fun p => { p with st := 1 }) else t)
    else if (t.port k).st = 0 then t
    else t.modPort k (fun p => { port0 with retrains := p.retrains })) s

/-- ROLE follows a written PAIR_ID: none without a pair, and a new member stands by; what waited for a partner's acknowledgement
goes to the journal (R538, R562). -/
@[noinline] def pairSet (s : State) : State :=
  if s.paired then
    if s.pair.role = 0 ∧ s.service = .ready then noteService s { s with pair := { s.pair with role := 1 } } else s
  else noteService s { s with
    pair := { s.pair with role := 0, collarTx := false, solo := false, switching := none }
    commit := { s.commit with pages := s.commit.pages ++ s.commit.cycles, cycles := [], soloRequest := false } }

/-- What a new value of an entry changes at once: a member's sessions, the ports, the pair (R514, R538, R578). -/
@[noinline] def odEffect (s : State) (idx sub : Nat) : State :=
  if 0x3500 ≤ idx ∧ idx < 0x3540 then dropMemberSessions s (idx - 0x3500)
  else if idx = 0x7000 ∧ sub = 4 then trainPorts s
  else if idx = 0x7100 ∧ sub = 1 then trainPorts (pairSet s)
  else s

/-- A committed object-dictionary value (R567). -/
@[noinline] def commitOd (s : State) (idx sub : Nat) (v : Bytes) : State :=
  let s1 := s.odSet idx sub v
  odEffect { s1 with od := { s1.od with
    change := tset s1.od.change (odKey idx sub) (tgetD s1.od.change (odKey idx sub) 0 + 1) } } idx sub

/-- Keep the last `n` of a list. -/
def lastN {α : Type} (n : Nat) (l : List α) : List α := l.drop (l.length - n)

/-- Set one of a partition's seals; an empty value discards it (R148, R157, R158). -/
@[noinline] def setSeal (x : Part) (which : Nat) (w : Bytes) : Part :=
  let v := if w.isEmpty then none else some w
  if which = 0 then { x with current := v }
  else if which = 1 then { x with pendingS := v }
  else if which = 2 then { x with previous := v }
  else { x with added := x.added ++ [w] }

/-- Commit a card's ATC: the tracked value becomes the greater of the old and the new (R267, R269). -/
@[noinline] def putAtc (l : List AtcEntry) (e : AtcEntry) : List AtcEntry :=
  if l.any (fun x => x.card == e.card) then
    l.map (fun x => if x.card = e.card then { x with tracked := max x.tracked e.tracked } else x)
  else l ++ [e]

/-- A new, empty ATC table replaces a partition's old one, and the reservations made in the old one with it (R270). -/
@[noinline] def newAtcTable (s : State) (p cap : Nat) : State :=
  let s1 := s.modPart p (fun x => { x with atc := [], atcCap := cap })
  { s1 with atcResv := s1.atcResv.filter (fun e => match s1.slot e.1 with
      | none => true
      | some y => y.part != p) }

/-- The clearing of the log at a CLEAR's commit point (R598). -/
@[noinline] def clearLog (s : State) (grantId : Nat) : State :=
  let seqs := s.log.nand.map (fun e => e.1.seq) ++ s.log.mainBuf.map (·.seq)
  let lo := seqs.foldl min s.log.next
  let hi := seqs.foldl max 0
  let s1 := logMain s 6 0x0D00 0x0D01 0xFF 0 (leBytes 6 lo ++ leBytes 6 hi ++ leBytes 4 grantId)
  { s1 with log :=
    { s1.log with nand := s1.log.nand.filter (fun e => decide (s.log.next ≤ e.1.seq)),
                  mainBuf := s1.log.mainBuf.filter (fun r => decide (s.log.next ≤ r.seq)),
                  change := s1.log.change + 1 } }

/-- A narrowed record: a window only shrinks and an export permission only falls (R171, R207). -/
@[noinline] def narrow (nb na ex : Nat) (r : Rec) : Rec :=
  { r with
    notBefore := max r.notBefore nb
    notAfter := if r.notAfter = 0 then na else if na = 0 then r.notAfter else min r.notAfter na
    expo := if ex = 0x4E then 0x4E else r.expo }

/-- The parent link of a record's lineage entry: its parent's entry, 0 for a record without one (R184). -/
def Rec.parentLink (r : Rec) : Nat := (((r.anc.take r.tier).reverse.find? (fun l => l.gen != 0)).map (·.idx)).getD 0

/-- A component load whose record reaches its commit point is DONE (R201). -/
def loadDone (l : Load) (h : Nat) : Load := if l.state = 1 ∧ l.handle = h then { l with state := 2 } else l

/-- One change at its commit point, under the commit sequence number it takes. -/
def applyChange (seq : Nat) (s : State) (c : Change) : State :=
  match c with
  | .record slot r =>
    let s1 := { s with keys := { s.keys with recs := tset s.keys.recs slot ⟨r, false, true, false⟩ } }
    match r.linIdx with
    | none => s1
    | some i => { s1 with keys := { s1.keys with
        lineage := tset s1.keys.lineage i ⟨(s1.lin i).gen, some slot, r.parentLink, false⟩ } }
  | .recordFree slot => freeRecord s slot
  | .large first count content => { s with keys := { s.keys with large := tset s.keys.large first (count, content) } }
  | .largeFree first => { s with keys := { s.keys with large := terase s.keys.large first } }
  | .revoke slot =>
    match s.rcd slot with
    | none => s
    | some r =>
      let s1 := modRecord s slot (fun r => { r with revoked := true })
      if r.rcd.revoked then s1
      else match r.rcd.linIdx with
        | none => s1
        | some i => bumpLineage s1 i
  | .lineageFree i _ => freeLineage s i
  | .restrict slot nb na ex => modRecord s slot (narrow nb na ex)
  | .counter slot v => modRecord s slot (fun r => { r with counter := max r.counter v })
  | .atc p e => s.modPart p (fun x => { x with atc := putAtc x.atc e })
  | .atcTable p cap => newAtcTable s p cap
  | .grant g => { s with quorum := { s.quorum with grants := s.quorum.grants.filter (fun x => x.id != g.id || x.bytes != g.bytes) ++ [g] } }
  | .grantUse id own => { s with quorum := { s.quorum with
      grants := lmod (fun g => g.id == id && g.own == own) (fun g => { g with left := g.left - 1 }) s.quorum.grants } }
  | .od idx sub v => commitOd s idx sub v
  | .partCreate p nonce psk =>
    s.modPart p (fun x => { x with key := .active, nonce := nonce, psk := some psk, recKey := some (recKeyOf psk) })
  | .partDestroy p =>
    let s1 := s.modPart p (fun x =>
      { x with key := .destroying, current := none, pendingS := none, previous := none, added := [],
               psk := none, pmk := none, recKey := none })
    let s2 := uninstantiate (closeSessions s1 (fun e => e.sessPart == p)) p .notActive
    freePages (dropCache s2 (fun _ e => e.part == p)) (fun g => g.part == p)
  | .sealSet p which w => s.modPart p (fun x => setSeal x which w)
  | .creation p e =>
    let t := s.modPart p (fun x => { x with creation := lastN 65536 (x.creation ++ [{ e with seq := if e.seq = 0 then seq else e.seq }]) })
    { t with quorum := { t.quorum with load := loadDone t.quorum.load e.handle } }
  | .log e => { s with commit := { s.commit with logs := lastN 262144 (s.commit.logs ++ [{ e with seq := seq }]) } }
  | .checkFail p => s.modPart p (fun x => { x with checkFails := min 0xFFFFFFFF (x.checkFails + 1) })
  | .migration st =>
    let s1 := { s with meas := { s.meas with migration := st } }
    if s.meas.migration = st then s1
    else raise (logMain s1 3 0x0300 0x0306 0xFF st (match s1.meas.manifest with
      | none => zeros 4
      | some m => slice m 4 4)) 1038
  | .manifest m => { s with meas := { s.meas with manifest := if m.isEmpty then none else some m } }
  | .logClear g => clearLog s g

/-- The bytes a change takes in a cycle: its 4-byte head and its content (R542; assumption 6). -/
def Change.size : Change → Nat
  | .record _ _ => 4 + 4 + 128
  | .large _ count _ => 4 + 5 + 1024 * count
  | .lineageFree _ _ => 4 + 6
  | .counter _ _ => 4 + 12
  | .atc _ _ => 4 + 16
  | .grant _ => 4 + 33
  | .od _ _ v => 4 + 3 + v.length
  | .partCreate _ _ _ => 4 + 64
  | .sealSet _ _ w => 4 + 1 + w.length
  | .log _ => 4 + 32
  | .manifest m => 4 + m.length
  | .creation _ _ => 4 + 32
  | .restrict _ _ _ _ => 4 + 4 + 128
  | .revoke _ => 4 + 4 + 128
  | _ => 4 + 8

/-- The bytes an item takes. -/
def Item.size (i : Item) : Nat := (i.changes.map Change.size).sum

/-- The items that fit into a cycle or page of `room` bytes, in commit-sequence order; always at least one (R36). -/
def fitItems : Nat → List Item → List Item
  | _, [] => []
  | room, i :: r => if i.size ≤ room then i :: fitItems (room - i.size) r else []

/-- The items a close takes: those that fit, or the first alone. -/
def takeItems (room : Nat) (l : List Item) : List Item :=
  match fitItems room l with
  | [] => l.take 1
  | f => f

/-- The commit point of one item: it takes its COMMIT_SEQ, and its changes take effect in order; a chain entry that changes nothing
reads COMMIT_SEQ 0 (R110, R114, R186, R541). -/
def commitOne (acc : State × List Item) (i : Item) : State × List Item :=
  let seq := acc.1.commit.seq + 1
  let s1 := { acc.1 with commit := { acc.1.commit with seq := seq } }
  let s2 := i.changes.foldl (applyChange seq) s1
  let s3 := i.slots.foldl (fun t n => t.modSlot n (fun x =>
    { x with stage := .closed, res := x.res.map (fun r => { r with seq := if x.changes.isEmpty then 0 else seq }) })) s2
  (s3, acc.2 ++ [{ i with seq := seq }])

/-- Bytes of a closed cycle or page. -/
def Closed.size (c : Closed) : Nat := (c.items.map Item.size).sum

/-- The journal staging at its fullest: 4 MiB (R506). -/
def stagingMax : Nat := 4194304

/-- Bytes of unprogrammed staging: closed pages, and cycles that SOLO would program (R506, R545; assumption 111). -/
def State.staged (s : State) : Nat := ((s.commit.pages ++ s.commit.cycles).map Closed.size).sum

/-- The items that a close of `room` bytes carries: those that fit, as far as the staging has room; the others wait at their commit stage
(R36, R506). -/
def State.closing (s : State) (room : Nat) : List Item := fitItems (stagingMax - s.staged) (takeItems room s.commit.queue)

/-- Close a cycle or page over the front of the commit queue. -/
def closeItems (s : State) (room : Nat) : State × List Item :=
  let l := s.closing room
  let s1 := { s with commit := { s.commit with queue := s.commit.queue.drop l.length } }
  l.foldl commitOne (s1, [])

/-- A reply body without data (R570). -/
def replyBody (idx sub op st : Nat) (reqId : Nat) (data : Bytes) : Bytes :=
  leBytes 2 idx ++ leBytes 1 sub ++ leBytes 1 (op + 0x80) ++ leBytes 2 st ++ zeros 2 ++ leBytes 4 reqId ++ data

/-- The envelope of a reply (R579): with a session, authenticated as its transport has it. -/
def envelope (s : State) (rq : Req) (body : Bytes) : Bytes :=
  let enc := rq.transport == 1 && rq.session != 0
  let head := leBytes 1 1 ++ leBytes 1 (1 + 2 * b2n enc) ++ leBytes 2 body.length ++ leBytes 4 rq.session ++ leBytes 8 rq.seq
  if rq.session = 0 then head ++ body
  else match tget s.od.sessions rq.session with
    | none => head ++ body
    | some x =>
      if rq.transport = 1 then
        let (ct, tag) := gcmEnc (slice x.key 0 32) (leBytes 4 rq.session ++ leBytes 8 rq.seq) head body
        head ++ ct ++ tag
      else head ++ body ++ slice (Sha.hmac256 (slice x.key 32 32) (head ++ body)) 0 16

/-- Send a reply by the way its request came: the mailbox's reply buffer, a datagram, or the Seam (R575, R576, R580 to R583). -/
@[noinline] def sendReply (s : State) (rq : Req) (idx sub op st : Nat) (data : Bytes) : State :=
  let body := replyBody idx sub op st rq.reqId (if st = 0 then data else [])
  let env := if rq.transport = 2 then body else envelope s rq body
  let s1 := { s with od := { s.od with sessions := tmap s.od.sessions (fun k x =>
    if k = rq.session then { x with busy := false, cached := env, lastUs := s.opUs } else x) } }
  let s2 := { s1 with bus := { s1.bus with replies := s1.bus.replies ++ [(rq, body)] } }
  if rq.transport = 0 then
    if s2.od.busy then
      if s2.od.dropReply then { s2 with od := { s2.od with busy := false, dropReply := false } }
      else raise { s2 with od :=
        { s2.od with busy := false, replyUp := true, replyLen := env.length,
                     replyBuf := bufWrite s2.od.replyBuf 0 env } } 1027
    else s2
  else s2

/-- A key store without what lives in the main die alone: cache, unwraps, recoveries, KD and the tasks that wait for it. -/
def Keys.stored (k : Keys) : Keys := { k with cache := [], unwrap := [], recover := [], kd := none, grantKey := none, kdJobs := [] }

/-- A partition without what lives in the main die alone: its clear keys, its DRBG instance and what its function does with it (R148). -/
def Part.stored (x : Part) : Part := { x with disable := none, psk := none, pmk := none, recKey := none, checkFails := 0, drbg := drbg0 }

/-- A partition's stored part under another's main-die part. -/
def Part.under (b x : Part) : Part :=
  { b with fn := x.fn, dis := x.dis, disable := x.disable, psk := x.psk, pmk := x.pmk, recKey := x.recKey, checkFails := x.checkFails, drbg := x.drbg }

/-- What of a state survives a main reset. -/
def persistOf (s : State) : Persist :=
  ⟨s.keys.stored, tmap s.parts (fun _ x => x.stored), s.od.store, s.od.change, s.quorum.grants, s.meas, s.commit.logs⟩

/-- The stored partitions of one table under the main-die part of another. -/
def joinParts (live base : Tab Part) : Tab Part :=
  (tkeys live ++ tkeys base).foldl (fun t p => tset t p ((tgetD base p (part0 p)).under (tgetD live p (part0 p)))) []

/-- A state with another persistent part; what lives in the main die alone stays. -/
def withPersist (s : State) (b : Persist) : State :=
  { s with keys := { b.keys with cache := s.keys.cache, useClock := s.keys.useClock, unwrap := s.keys.unwrap, recover := s.keys.recover
                                 sweepMs := s.keys.sweepMs, kd := s.keys.kd, grantKey := s.keys.grantKey, kdJobs := s.keys.kdJobs }
           parts := joinParts s.parts b.parts
           meas := { b.meas with mr := s.meas.mr, portOpen := s.meas.portOpen }
           od := { s.od with store := b.store, change := b.change },
           quorum := { s.quorum with grants := b.grants },
           commit := { s.commit with logs := b.logs } }

/-- Change the durable state and the live one alike. -/
def State.withBase (s : State) (f : Persist → Persist) : State :=
  let t := withPersist s (f (persistOf s))
  { t with commit := { t.commit with base := f s.commit.base } }

/-- Whether a change travels to the standby (R539, R542, R566). -/
def Change.replicated : Change → Bool
  | .od idx sub _ => (decide (0x2100 ≤ idx ∧ idx < 0x2200) && sub != 1) || decide (0x3100 ≤ idx ∧ idx < 0x3200)
      || (decide (0x7200 ≤ idx ∧ idx < 0x7300)) || decide (0x4000 ≤ idx ∧ idx < 0x4500)
  | .migration _ => false
  | .manifest _ => false
  | .logClear _ => false
  | .checkFail _ => false
  | _ => true

/-- The copy in NAND of a record that a change creates is good (R35, R193). -/
def inNand (s : State) (c : Change) : State :=
  match c with
  | .record slot _ => { s with keys := { s.keys with recs := tmap s.keys.recs (fun k r => if k = slot then { r with nand := true } else r) } }
  | _ => s

/-- The durable state once an item's changes are durable too (R35). -/
@[noinline] def growBase (s : State) (i : Item) : State :=
  let t := i.changes.foldl inNand (i.changes.foldl (applyChange i.seq) (withPersist s s.commit.base))
  { s with commit := { s.commit with base := persistOf t } }

/-- The replies and completions of an item that has become durable (R35, R567). -/
def durableItem (s00 : State) (i : Item) : State :=
  let s := growBase s00 i
  let s1 := i.slots.foldl (fun t n => t.modSlot n (fun x => if x.stage = .closed then { x with stage := .done } else x)) s
  let s2 := { s1 with commit := { s1.commit with durable := max s1.commit.durable i.seq } }
  let s3 := i.changes.foldl inNand s2
  match i.reply with
  | none => s3
  | some (rq, idx, sub, op, data) => sendReply s3 rq idx sub op 0 data

/-- What an accepted change will make of an entry, a key domain or the migration at its commit point. -/
def aheadOne (s : State) (c : Change) : State :=
  match c with
  | .od idx sub v => s.odSet idx sub v
  | .manifest m => { s with meas := { s.meas with manifest := if m.isEmpty then none else some m } }
  | .migration st => { s with meas := { s.meas with migration := st } }
  | .partCreate p nonce psk => s.modPart p (fun x => { x with key := .active, nonce := nonce, psk := some psk })
  | .partDestroy p => s.modPart p (fun x => { x with key := .destroying, psk := none })
  | _ => s

/-- The state as the accepted changes that still wait for their commit points will leave it, by which a change behind them is formed
(R156, R159, R567). -/
def State.ahead (s : State) : State := s.commit.queue.foldl (fun t i => i.changes.foldl aheadOne t) s

/-- A closed cycle as it travels (R541). -/
def Closed.msg (s : State) (c : Closed) : CycleMsg where
  pairId := s.odNat 0x7100 1
  handover := c.handover
  cycle := c.cycle
  firstSeq := match c.items with
    | [] => 0
    | i :: _ => i.seq
  count := c.items.length
  time := c.time
  epoch := s.pair.tokenEpoch
  changes := c.items.map (fun i => i.changes.filter Change.replicated)
  tagOk := true

/-- The active closes a cycle (R36, R541): it goes on the pair link, and in SOLO to the NAND journal (R545). -/
def closeCycle (s : State) (handover : Bool) : State :=
  let (s1, items) := closeItems s (625000 - 80)
  let c : Closed := ⟨s1.commit.cycle + 1, items, handover, false, s1.timeUs⟩
  let s2 := { s1 with commit := { s1.commit with cycle := c.cycle, applied := c.cycle } }
  let s3 := { s2 with bus := { s2.bus with cycles := s2.bus.cycles ++ [c.msg s2] } }
  if s3.pair.solo then { s3 with commit := { s3.commit with pages := s3.commit.pages ++ [c] } }
  else { s3 with commit := { s3.commit with cycles := s3.commit.cycles ++ [c] } }

/-- COMMIT_CYCLE_CLOSE; no change commits after PFAIL (R36, R117, R186, R507, R541). -/
def execCommitCycleClose (s : State) : Host.Outcome State Fault Refusal :=
  .next (if s.paired ∧ s.pair.role = 3 ∧ !s.power.pfail then closeCycle s false else s)

/-- Close a journal page over up to 16 KiB of changes; none while the staging has no room for the next (R36, R506). -/
def closePage (s : State) : State :=
  let (s1, items) := closeItems s 16384
  if items.isEmpty then s else { s1 with commit := { s1.commit with pages := s1.commit.pages ++ [⟨0, items, false, false, s1.timeUs⟩] } }

/-- JOURNAL_PAGE_CLOSE: except on the active member of a pair, the changes that have accumulated, up to 16 KiB (R36). -/
def execJournalPageClose (s : State) : Host.Outcome State Fault Refusal :=
  .next (
    if (s.paired ∧ s.pair.role = 3) ∨ s.commit.queue = [] ∨ s.power.pfail then s
    else closePage s)

/-- The oldest closed page is programmed (R35, R545). -/
def programPage (s : State) : State :=
  match s.commit.pages with
  | [] => s
  | c :: r =>
    let s1 := { s with commit := { s.commit with pages := r, journal := if c.cycle = 0 then s.commit.journal else s.commit.journal ++ [c] } }
    c.items.foldl durableItem s1

/-- JOURNAL_PAGE_PROGRAMMED: the oldest closed page is in NAND, and its changes are durable (R35, R82). -/
def execJournalPageProgrammed (s : State) : Host.Outcome State Fault Refusal :=
  .next (programPage s)

/-- A change as a vault gets it: one that alters a stored record brings the record as it is wrapped now (R168, R561). -/
def forVault (s : State) (c : Change) : Change :=
  let rec_ (slot : Nat) : Change := match s.rcd slot with
    | none => c
    | some r => .record slot r.rcd
  match c with
  | .revoke slot => rec_ slot
  | .restrict slot _ _ _ => rec_ slot
  | .counter slot _ => rec_ slot
  | c => c

/-- A cycle as it goes to a vault. -/
def Closed.vaultMsg (s : State) (c : Closed) : CycleMsg :=
  { c.msg s with changes := (c.msg s).changes.map (fun l => l.map (forVault s)) }

/-- The cycles of a partition go to each vault of it (R561). -/
def vaultSend (s : State) (c : Closed) : State :=
  let ps := (List.range 256).filter (fun p => s.odGet (0x7200 + p) 1 != List.replicate 4 0xFF#8)
  ps.foldl (fun t p =>
    let v := t.odGet (0x7200 + p) 1
    [leAt v 0 2, leAt v 2 2].foldl (fun u pos =>
      if pos = 0xFFFF then u else { u with bus := { u.bus with vaults := u.bus.vaults ++ [(pos, p, c.vaultMsg u)] } }) t) s

/-- COMMIT_CYCLE_ACK: the standby's acknowledgement of the oldest unacknowledged cycle; in SOLO it makes nothing durable
(R35, R543, R545, R560, R561). -/
def execCommitCycleAck (cycle : Nat) (s : State) : Host.Outcome State Fault Refusal :=
  .next (match s.commit.cycles with
    | [] => s
    | c :: r =>
      if c.cycle ≠ cycle ∨ s.pair.solo then s
      else
        let s1 := { s with commit := { s.commit with cycles := r, soloRequest := s.commit.soloRequest && !r.isEmpty } }
        let s2 := c.items.foldl durableItem s1
        let s3 := if s2.seam.quarantine = 0 then vaultSend s2 c else s2
        if c.handover then
          let s4 := { s3 with pair := { s3.pair with collarTx := false, role := 1, handover := true, switching := none } }
          noteService s (raise s4 1033)
        else s3)

end Sys2Proof.Machine
end

