-- ==== Sys2Proof/Machine/Alarm.lean ====
section
/-! DEFINITION. Raising an alarm: the Cocoon's part, the main die's part, and what each response class does (R418 to R440). -/

namespace Sys2Proof.Machine

/-- The order of the classes (R430); also their encoding in CLASS (R451). -/
def AlarmClass.code : AlarmClass → Nat
  | .record => 0
  | .alert => 1
  | .halt => 2
  | .lock => 3
  | .erase => 4

/-- The class of a CLASS value. -/
def classOf (v : Nat) : AlarmClass :=
  match v with
  | 0 => .record
  | 1 => .alert
  | 2 => .halt
  | 3 => .lock
  | _ => .erase

/-- The higher of two classes (R433). -/
def AlarmClass.max (a b : AlarmClass) : AlarmClass := if a.code < b.code then b else a

/-- Severity of an alarm's record (R419). -/
def AlarmClass.severity : AlarmClass → Nat
  | .record => 2
  | .alert => 4
  | .halt => 5
  | .lock => 6
  | .erase => 7

/-- The class a flag's CLASS entry holds (R437). -/
def State.flagClassNow (s : State) (f : Nat) : AlarmClass := classOf (s.odNat (0x4100 + f) 1)

/-! ### Parts of a response -/

/-- Every ring that is not DISABLED stops toward HALTED, its work cut for a cause (R130, R134). -/
def haltRings (s : State) (k : Cut) : State :=
  (tkeys (tfilter s.rings (fun _ r => r.state != .disabled))).foldl
    (fun t rid => cutRing (stopRing (dropReservation t rid) rid .halted) k rid) s

/-- The collar is let go, and the module is not eligible to hold it (R435). -/
def releaseCollar (s : State) : State :=
  if s.paired then
    let t := { s with pair := { s.pair with collarTx := false, role := 4, switching := none } }
    if s.pair.role = 3 then raise t 1033 else t
  else s

/-- The main-die clearing of a LOCK; a task that waits for KD gets no KD (R325, R431). -/
def lockClear (s : State) : State :=
  let s0 := s.keys.kdJobs.foldl (fun t j => match j.rq with
    | none => t
    | some (rq, idx, sub, op) => sendReply t rq idx sub op (Status.code .serviceLocked) []) s
  let s1 := closeSessions (freePages s0 (fun _ => true)) (fun _ => true)
  let s2 := tkeys s1.units.engines |>.foldl (fun t e => t.modEngine e (fun x => { x.zeroed with blind := [] })) s1
  { s2 with
    units := { s2.units with hashes := tmap s2.units.hashes (fun _ u => { u with held := none })
                             plumes := tmap s2.units.plumes (fun _ u => { u with mem := none }) }
    keys := { s2.keys with cache := [], unwrap := [], kd := none, kdJobs := [] }
    parts := tmap s2.parts (fun _ x => { x with psk := none, pmk := none, recKey := none })
    resv := []
    atcResv := [] }

/-- Take the actions of a class on the main die, and of every class between it and the one already taken; a LOCK lasts until its unlock
(R430, R433). -/
def mainActions (s : State) (cls : AlarmClass) (entropy : Bool) : State :=
  let s1 := if 2 ≤ cls.code then
      closeSessions (haltRings (releaseCollar { s with service := if s.service = .locked then .locked else .halted })
        (if 3 ≤ cls.code then .lock else if entropy then .entropy else .halt)) (fun _ => true)
    else s
  let s2 := if 3 ≤ cls.code then { lockClear s1 with service := .locked } else s1
  if 4 ≤ cls.code then { s2 with tamper := { s2.tamper with pathCut := true } } else s2

/-- Whether start-up is under way: it has neither ended, nor stopped, nor parked (R438, R452). -/
def State.booting (s : State) : Bool := s.service == .starting && !s.life.parked

/-- What a response does on a main die that start-up has stopped (R431, R434, R438). -/
def stoppedActions (s : State) (cls : AlarmClass) : State :=
  let s1 := if 3 ≤ cls.code then lockClear s else s
  if 4 ≤ cls.code then { s1 with tamper := { s1.tamper with pathCut := true } } else s1

/-- The main die takes a response: nothing where a class as high is already taken; during start-up the next stop point
stops it (R433, R438); while main power is absent only the Cocoon acts (R440). A debug session closes (R477). -/
def mainResponse (s : State) (cls : AlarmClass) (entropy : Bool) : State :=
  let had := (s.tamper.response.map (·.code)).getD 0
  if !s.power.mainOk || decide (cls.code ≤ had) || decide (cls.code < 2) then s
  else
    let s1 := { s with tamper := { s.tamper with response := some cls }
                       life := { s.life with dbgOpen := false, dbgLevel := 0, dbgScope := 0, dbgEnd := 0 } }
    if s.booting then s1
    else if s.service = .bootStopped then stoppedActions s1 cls
    else noteService s (mainActions s1 cls entropy)

/-- A start that keeps no memory-encryption key draws a new one (R24, R491, R503, R504). -/
def State.withMemKey (s : State) : State :=
  match s.power.memKey with
  | some _ => s
  | none =>
    let (k, t) := draw s 32
    { t with power := { t.power with memKey := some k } }

/-- Start-up reaches a stop point, and the memory-encryption key is drawn as it passes the second (R24): a response taken since it
began stops it there, the life-cycle state may end it there, and at stop point 3 a set lock latch does; from stop point 2 the debug
challenge is valid (R438, R439, R452, R455, R476). -/
def reachStop (s : State) (n : Nat) : State :=
  let s0 := { s with power := { s.power with stopPoint := n } }
  let s1 := if n = 2 then { s0.withMemKey with life := { s0.life with dbgValid := true } } else s0
  let l := s.life.latched
  match s.tamper.response with
  | some cls =>
    noteService s (stoppedActions { s1 with service := .bootStopped, tamper := { s1.tamper with bootStop := n } } cls)
  | none =>
    if n = 2 ∧ (l = 0x00 ∨ l = 0x66 ∨ l = 0xFF) then
      noteService s { s1 with service := if l = 0xFF then .locked else .starting, life := { s1.life with parked := true } }
    else if n = 3 then
      noteService s { s1 with service := if s.tamper.latch then .locked else .starting,
                              life := { s1.life with parked := l == 0x33 || l == 0x55 } }
    else s1

/-! ### The Cocoon's part -/

/-- The record of an occurrence: within 1 s of the source's last record it is only counted (R419). -/
def alarmRecord (s : State) (flag : Nat) (cls : AlarmClass) (reading : Nat) : State :=
  let t := s.tamper
  match tget t.recent flag with
  | some at_ =>
    if s.opUs < at_ + 1000000 then { s with tamper := { t with repeats := tmod t.repeats flag 0 (· + 1) } }
    else
      let s1 := logRepeat s (tgetD t.repeats flag 0) cls.severity (0x0800 + flag) 0x0801 0xFF cls.code (leBytes 4 reading)
      { s1 with tamper := { s1.tamper with recent := tset t.recent flag s.opUs, repeats := terase t.repeats flag } }
  | none =>
    let s1 := logRepeat s 0 cls.severity (0x0800 + flag) 0x0801 0xFF cls.code (leBytes 4 reading)
    { s1 with tamper := { s1.tamper with recent := tset t.recent flag s.opUs } }

/-- The DRS is zero; a Looper request under it returns nothing (R325, R430). -/
def zeroDrs (s : State) : State :=
  { s with tamper := { s.tamper with drs := none } }.modLooper (fun l =>
    let l1 := { l with queue := l.queue.filter (· != 0) }
    if l.queue.head? = some 0 then { l1 with block := 0, keyReg := none, out := [], drawn := false } else l1)

/-- What a flag's occurrence does in the Cocoon: flag, count, record, latch and lines (R418, R419, R427, R430). While the main die is
off, HALT and ALERT leave only their flags and records (R440). -/
def cocoonAlarm (s : State) (flag : Nat) (cls : AlarmClass) (reading : Nat) : State :=
  let s1 := raise (alarmRecord s flag cls reading) (1280 + flag)
  let t := s1.tamper
  let acts := decide (3 ≤ cls.code) || !s.asleep
  let s2 := { s1 with tamper :=
    { t with flags := sins flag t.flags
             counts := tset t.counts flag (min 0xFFFFFFFF (tgetD t.counts flag 0 + 1))
             machine := t.machine.max (if acts then AlarmClass.max cls .alert else .alert)
             alarmOut := t.alarmOut || (decide (1 ≤ cls.code) && acts)
             latch := t.latch || decide (3 ≤ cls.code)
             lockCause := if !t.latch && decide (3 ≤ cls.code) then flag else t.lockCause
             lockedOut := t.lockedOut || decide (3 ≤ cls.code) } }
  if 4 ≤ cls.code then zeroDrs s2 else s2

/-- An alarm detected on the main die: its actions there start at once, and the Cocoon is told (R432). -/
def mainAlarm (s : State) (flag : Nat) (cls : AlarmClass) (reading : Nat) : State :=
  mainResponse (cocoonAlarm s flag cls reading) cls (flag == 153)

/-- An alarm detected in the Cocoon: the main die takes it from the bridge word (R432). -/
def cocoonSource (s : State) (flag : Nat) (cls : AlarmClass) (reading : Nat) : State :=
  let s1 := cocoonAlarm s flag cls reading
  if s1.power.mainOk then { s1 with tamper := { s1.tamper with pendingMain := s1.tamper.pendingMain ++ [(flag, cls)] } } else s1

/-- A mismatch of repeat-and-compare or a shortage of units raises FAULT_COMPARE (R357, R358). -/
def faultCompare (s : State) (cls : AlarmClass) : State := mainAlarm s 154 cls 0

/-- Count a mismatch; its class is LOCK within 60 s of the mismatch two before it (R357). -/
def mismatch (s : State) : State :=
  let near := match s.units.mismatch2 with
    | none => false
    | some t => decide (s.opUs ≤ t + 60000000)
  let s1 := { s with units := { s.units with mismatch2 := s.units.mismatch1, mismatch1 := some s.opUs } }
  faultCompare s1 (if near then .lock else .alert)

end Sys2Proof.Machine
end

