-- ==== Sys2Proof/Machine/Fabric.lean ====
section
/-! DEFINITION. The Seam fabric under every cluster command: positions and routes, frames, credits and replay, the acting master, the
cluster configuration with its epoch and digest, quarantine, and the loss of the collar (R512 to R534, R553 to R557). -/

namespace Sys2Proof.Machine

/-! ### Positions and routes -/

/-- The module's position (R512). -/
def State.position (s : State) : Nat := s.odNat 0x7000 2 % 1024

/-- ROWS of the grid (R512, R563). -/
def State.rows (s : State) : Nat := s.odNat 0x7000 3 / 32 % 32 + 1

/-- COLS of the grid (R512, R563). -/
def State.cols (s : State) : Nat := s.odNat 0x7000 3 % 32 + 1

/-- The position `n` steps away in a port's direction (R513). -/
def State.stepAway (s : State) (port n : Nat) : Nat :=
  let r := s.position / 32
  let c := s.position % 32
  match port with
  | 0 => r * 32 + (c + s.cols * n - n) % s.cols
  | 1 => r * 32 + (c + n) % s.cols
  | 2 => (r + s.rows * n - n) % s.rows * 32 + c
  | _ => (r + n) % s.rows * 32 + c

/-- Whether a link is UP (R562). -/
def State.portUp (s : State) (k : Nat) : Bool := (s.port k).st == 3

/-- The port at the other end of the same ring (R513, R516). -/
def oppositePort (k : Nat) : Nat :=
  match k with
  | 0 => 1
  | 1 => 0
  | 2 => 3
  | _ => 2

/-- The RF bypass of a port's pair is closed: the module is without power or in STANDBY, a main reset has not reached the start of
training, or both ports of the pair are disabled in PORT_ENABLE (R438, R514). -/
def State.bypassClosed (s : State) (k : Nat) : Bool :=
  !s.power.mainOk || s.power.power == .standby || s.power.stopPoint == 0
    || (!bit (s.odNat 0x7000 4) k && !bit (s.odNat 0x7000 4) (oppositePort k))

/-- A port, or the one its frames are wrapped onto while its link is not UP (R516). -/
def State.livePort (s : State) (k : Nat) : Option Nat :=
  if s.portUp k then some k else if s.portUp (oppositePort k) then some (oppositePort k) else none

/-- The column-ring leg to a position: the direction with fewer hops (R518). -/
def State.columnLeg (s : State) (dest : Nat) : Option Nat :=
  let d := (dest / 32 + s.rows - s.position / 32) % s.rows
  if d = 0 then none else s.livePort (if d ≤ s.rows - d then 3 else 2)

/-- The row-ring leg to a position (R518). -/
def State.rowLeg (s : State) (dest : Nat) : Option Nat :=
  let d := (dest % 32 + s.cols - s.position % 32) % s.cols
  if d = 0 then none else s.livePort (if d ≤ s.cols - d then 1 else 0)

/-- The port a frame leaves through: the column ring first, or the row first where that route has no connected path (R518). -/
def State.routePort (s : State) (dest : Nat) : Option Nat := (s.columnLeg dest).or (s.rowLeg dest)

/-! ### Frames -/

/-- Cells of credit a frame takes (R522). -/
def Frame.cells (f : Frame) : Nat := ceilDiv (f.payload.length + 48) 256

/-- Receive buffer of a class, in cells (R521). -/
def classCells (cls : Nat) : Nat :=
  match cls with
  | 1 => 8
  | 2 => 16
  | _ => 256

/-- Bytes a replay buffer holds. -/
def replayBytes (l : List Frame) : Nat := (l.map (fun f => f.payload.length + 48)).sum

/-- Whether a port may send a frame now: LINK frames always, the others with credit and room in the 128 KiB replay buffer (R522). -/
def Port.sendable (p : Port) (f : Frame) : Bool :=
  f.cls == 0 || (decide (f.cells ≤ tgetD p.credits f.cls 0) && decide (replayBytes p.replay + f.payload.length + 48 ≤ 131072))

/-- The frame a port sends next: strict priority, then the order of arrival (R521). -/
def Port.nextFrame (p : Port) : Option Frame :=
  p.waiting.foldl (fun m f =>
    if p.sendable f then (match m with
      | none => some f
      | some g => if f.cls < g.cls then some f else m)
    else m) none

/-- A frame leaves a port under the next LINK_SEQ (R520, R522). -/
def transmit (s : State) (k : Nat) (f : Frame) : State :=
  let p := s.port k
  let g := { f with port := k, linkSeq := (p.linkSeq + 1) % 2 ^ 32, linkAck := p.linkAck }
  let q := { p with linkSeq := g.linkSeq, frames := p.frames + 1, waiting := p.waiting.erase f,
                    credits := if f.cls = 0 then p.credits else tset p.credits f.cls (tgetD p.credits f.cls 0 - f.cells),
                    replay := if f.cls = 0 then p.replay else p.replay ++ [g] }
  { s.modPort k (fun _ => q) with bus := { s.bus with frames := s.bus.frames ++ [g] } }

/-- Send what a port may send of what waits at it. -/
def pump (k : Nat) : Nat → State → State
  | 0, s => s
  | n + 1, s => match (if s.portUp k then (s.port k).nextFrame else none) with
    | none => s
    | some f => pump k n (transmit s k f)

/-- Send everything a port may send. -/
def pumpAll (s : State) (k : Nat) : State := pump k (s.port k).waiting.length s

/-- Hand a frame to a port. -/
def sendOn (s : State) (k : Nat) (f : Frame) : State := pumpAll (s.modPort k (fun p => { p with waiting := p.waiting ++ [f] })) k

/-- A new frame of this module (R520). -/
def newFrame (s : State) (dest cls stamp : Nat) (payload : Bytes) : Frame × State :=
  let seq := tgetD s.seam.sent (dest * 16 + cls) 0 + 1
  (⟨0, dest, s.position, cls, 64, 0, 0, seq, stamp, payload⟩,
    { s with seam := { s.seam with sent := tset s.seam.sent (dest * 16 + cls) seq } })

/-- Send a frame to a position; without a route it is dropped and counted (R518). MGMT, CONFIG and VAULT frames are kept for the
end-to-end resend (R522). -/
def sendFrame (s : State) (dest cls stamp : Nat) (payload : Bytes) : State :=
  match s.routePort dest with
  | none => { s with seam := { s.seam with unreachable := min 0xFFFF (s.seam.unreachable + 1) } }
  | some k =>
    let (f, t) := newFrame s dest cls stamp payload
    let t1 := if 3 ≤ cls then { t with seam := { t.seam with unacked := t.seam.unacked ++ [{ f with port := k }] } } else t
    sendOn t1 k f

/-- Send a payload to a position in frames of at most 4,096 bytes (R520). -/
def sendTo (s : State) (dest cls : Nat) (payload : Bytes) : State :=
  if dest = s.position then s
  else ((if payload.isEmpty then [[]] else chunks 4096 payload)).foldl (fun t b => sendFrame t dest cls t.timeUs b) s

/-- The grid ports that are UP. -/
def State.upPorts (s : State) : List Nat := (List.range 4).filter s.portUp

/-- A broadcast frame goes out on every port (R518). -/
def broadcast (s : State) (cls stamp : Nat) (payload : Bytes) : State :=
  ((if payload.isEmpty then [[]] else chunks 4096 payload)).foldl (fun t b =>
    let (f, u) := newFrame t 0x8000 cls stamp b
    u.upPorts.foldl (fun v k => sendOn v k f) u) s

/-- A frame to the neighbour on a port, on the pair link too. -/
def sendLink (s : State) (k cls : Nat) (payload : Bytes) : State :=
  let (f, t) := newFrame s (s.port k).neighbour cls s.timeUs payload
  sendOn t k f

/-- A link is lost: the port wraps, its frames are gone and left to the end-to-end resend (R516, R522). -/
def linkLost (s : State) (k : Nat) : State :=
  if s.portUp k then
    let t := s.modPort k (fun p => { port0 with st := 7, retrains := min 255 (p.retrains + 1) })
    if k = 4 then noteService s { t with pair := { t.pair with resync := false } } else t
  else s

/-! ### The configuration -/

/-- The entries of the cluster configuration, in ascending order (R524, R563). -/
def configEntries : List (Nat × Nat) :=
  ((List.range 12).map (fun c => (List.range 4).map (fun k => (0x3301 + c, k + 1)))).flatten
    ++ ((List.range 64).map (fun i => (List.range 4).map (fun k => (0x3500 + i, k + 1)))).flatten
    ++ [(0x7000, 3), (0x7000, 5), (0x7000, 0x0B), (0x7000, 0x0C)]

/-- Whether an entry belongs to the configuration. -/
def isConfig (idx sub : Nat) : Bool :=
  (decide (0x3301 ≤ idx ∧ idx ≤ 0x330C) && decide (1 ≤ sub ∧ sub ≤ 4)) || (decide (0x3500 ≤ idx ∧ idx < 0x3540) && decide (1 ≤ sub ∧ sub ≤ 4))
    || (idx == 0x7000 && (sub == 3 || sub == 5 || sub == 0x0B || sub == 0x0C))

/-- One entry as DIGEST and a CONFIG frame carry it (R525). -/
def configRecord (idx sub : Nat) (v : Bytes) : Bytes := beBytes 2 idx ++ beBytes 1 sub ++ beBytes 4 v.length ++ v

/-- EPOCH (R525). -/
def State.epoch (s : State) : Nat := s.odNat 0x7000 6

/-- DIGEST (R525). -/
def State.digest (s : State) : Bytes :=
  Sha.sha384 ((configEntries.map (fun e => configRecord e.1 e.2 (s.odGet e.1 e.2))).flatten)

/-- MASTERS (R526, R563). -/
def State.masters (s : State) : List Nat :=
  ((List.range 4).map (fun k => leAt (s.odGet 0x7000 5) (2 * k) 2)).filter (· != 0xFFFF)

/-- The acting master: the first entry of MASTERS that is JOINED and heard, this module counting itself; without one, itself (R526). -/
def State.actingMaster (s : State) : Nat :=
  if s.clustered then
    (s.masters.find? (fun p => if p = s.position then s.cstate == 1 else !s.seam.masterGone.contains p)).getD s.position
  else s.position

/-- Whether this module acts as master; one that belongs to no cluster is its own (R526, R532). -/
def State.isMaster (s : State) : Bool := s.actingMaster == s.position

/-- The drift bound: a follower's grows by 20 ppm from its last SYNC frame on (R534). -/
def State.driftBound (s : State) : Nat :=
  if s.clustered && !s.isMaster then s.seam.offset.natAbs + 20 * (s.opUs - s.seam.lastSync) / 1000000 else s.seam.bound

/-- Put an entry into the live and the durable state at once. -/
def adopt (s : State) (idx sub : Nat) (v : Bytes) : State :=
  odEffect (s.withBase (fun b => { b with
    store := tset b.store (odKey idx sub) v
    change := tset b.change (odKey idx sub) (tgetD b.change (odKey idx sub) 0 + 1) })) idx sub

/-- A configuration message: an entry or none, with the epoch and digest that hold with it (R526, R528). -/
def configMessage (entry : Option (Nat × Nat × Bytes)) (epoch : Nat) (digest : Bytes) : Bytes :=
  (match entry with
    | none => []
    | some (i, k, v) => configRecord i k v) ++ leBytes 8 epoch ++ digest

/-! ### The collar -/

/-- ROLE of a member of a pair that does not serve: STANDBY while it could, OUT while it could not (R562). -/
def State.idleRole (s : State) : Nat :=
  if !s.paired then 0 else if s.service = .ready ∧ s.seam.quarantine = 0 then 1 else 4

/-- The collar is lost for any cause but a response of class HALT or higher: admission stops, work in flight ends by R557, rings stay
ENABLED, and COLLAR_TX is released (R553, R555, R557). -/
def loseCollar (s : State) (role : Nat) : State :=
  let t := { s with pair := { s.pair with collarTx := false, role := role, switching := none } }
  if s.pair.role = 3 then
    let t1 := (tkeys s.rings).foldl (fun u rid => noteReplay (cutRing u .collar rid) rid) t
    raise (closeSessions t1 (fun _ => true)) 1033
  else t

/-- Let the collar go where it is held or claimed. -/
def dropCollar (s : State) : State :=
  if s.pair.role = 2 ∨ s.pair.role = 3 then
    let t := loseCollar s s.pair.role
    { t with pair := { t.pair with role := t.idleRole } }
  else { s with pair := { s.pair with role := s.idleRole } }

/-- Enter quarantine for a reason, or leave it with 0: COLLAR_TX is released, and CLUSTER_STATE raised (R529, R555, R599). -/
def quarantineAs (s : State) (q : Nat) : State :=
  if s.seam.quarantine = q then s
  else
    let s1 := raise (logMain { s with seam := { s.seam with quarantine := q } } 5 0x0B00 0x0B02 0xFF q (s.odGet 0x7000 6)) 1035
    noteService s (dropCollar s1)

/-- Quarantine with reason VERSION follows the compatible set (R531); the other reasons stand. -/
def checkVersion (s : State) : State :=
  if s.seam.quarantine = 0 ∧ !s.compatible then quarantineAs s 3
  else if s.seam.quarantine = 3 ∧ s.compatible then quarantineAs s 0 else s

/-- The next epoch over an entry, or over none: committed at once, and broadcast with its digest (R526, R528). -/
def stepEpoch (s : State) (entry : Option (Nat × Nat × Bytes)) : State :=
  let t := match entry with
    | none => s
    | some (i, k, v) => adopt s i k v
  let t1 := raise (adopt t 0x7000 6 (leBytes 8 (s.epoch + 1))) 1035
  broadcast (checkVersion t1) 4 t1.timeUs (configMessage entry t1.epoch t1.digest)

end Sys2Proof.Machine
end

