-- ==== Sys2Proof/Machine/Num.lean ====
section
/-! DEFINITION. Modular arithmetic on natural numbers, as the Hawkmoth engines compute it (R328). -/

namespace Sys2Proof.Machine

/-- Square and multiply over the low bits of the exponent, least significant first. -/
def powAux (m : Nat) : Nat → Nat → Nat → Nat → Nat
  | 0, _, _, r => r
  | n + 1, b, e, r => powAux m n (b * b % m) (e / 2) (if e % 2 = 1 then r * b % m else r)

/-- b ^ e mod m. -/
def powMod (b e m : Nat) : Nat := powAux m (Nat.log2 e + 1) (b % m) e (1 % m)

/-- Extended Euclid with a bound on its steps: the coefficient of the first number at the greatest common divisor. -/
def egcdAux : Nat → Int → Int → Int → Int → Int × Int
  | 0, a, _, x, _ => (a, x)
  | n + 1, a, b, x, y => if b = 0 then (a, x) else egcdAux n b (a % b) y (x - a / b * y)

/-- The inverse of a modulo m, where they have no common factor. -/
def invMod (a m : Nat) : Option Nat :=
  let (g, x) := egcdAux (3 * (Nat.log2 m + 2)) (a % m : Nat) m 1 0
  if g = 1 then some (x % m).toNat else none

/-- The inverse of a modulo m, or 0 where there is none. -/
def inv0 (a m : Nat) : Nat := (invMod a m).getD 0

/-- a - b modulo m, for a and b below m. -/
def subMod (a b m : Nat) : Nat := (a + m - b % m) % m

end Sys2Proof.Machine
end

