-- ==== Sys2Proof/Machine/Ec.lean ====
section
/-! DEFINITION. Elliptic curves of FIPS 186-5, RFC 7748 and RFC 8032: P-256, P-384, P-521, Ed25519 and X25519
(assumption 10). -/

namespace Sys2Proof.Machine.Ec

open Sys2Proof.Machine

/-- A short Weierstrass curve with a = -3: coordinate length, prime, b, base point and order. -/
structure Curve where
  len : Nat
  p   : Nat
  b   : Nat
  gx  : Nat
  gy  : Nat
  n   : Nat

/-- P-256. -/
def p256 : Curve where
  len := 32
  p := 2 ^ 256 - 2 ^ 224 + 2 ^ 192 + 2 ^ 96 - 1
  b := 0x5AC635D8AA3A93E7B3EBBD55769886BC651D06B0CC53B0F63BCE3C3E27D2604B
  gx := 0x6B17D1F2E12C4247F8BCE6E563A440F277037D812DEB33A0F4A13945D898C296
  gy := 0x4FE342E2FE1A7F9B8EE7EB4A7C0F9E162BCE33576B315ECECBB6406837BF51F5
  n := 0xFFFFFFFF00000000FFFFFFFFFFFFFFFFBCE6FAADA7179E84F3B9CAC2FC632551

/-- P-384. -/
def p384 : Curve where
  len := 48
  p := 2 ^ 384 - 2 ^ 128 - 2 ^ 96 + 2 ^ 32 - 1
  b := 0xB3312FA7E23EE7E4988E056BE3F82D19181D9C6EFE8141120314088F5013875AC656398D8A2ED19D2A85C8EDD3EC2AEF
  gx := 0xAA87CA22BE8B05378EB1C71EF320AD746E1D3B628BA79B9859F741E082542A385502F25DBF55296C3A545E3872760AB7
  gy := 0x3617DE4A96262C6F5D9E98BF9292DC29F8F41DBD289A147CE9DA3113B5F0B8C00A60B1CE1D7E819D7A431D7C90EA0E5F
  n := 0xFFFFFFFFFFFFFFFFFFFFFFFFFFFFFFFFFFFFFFFFFFFFFFFFC7634D81F4372DDF581A0DB248B0A77AECEC196ACCC52973

/-- P-521. -/
def p521 : Curve where
  len := 66
  p := 2 ^ 521 - 1
  b := 0x0051953EB9618E1C9A1F929A21A0B68540EEA2DA725B99B315F3B8B489918EF109E156193951EC7E937B1652C0BD3BB1BF073573DF883D2C34F1EF451FD46B503F00
  gx := 0x00C6858E06B70404E9CD9E3ECB662395B4429C648139053FB521F828AF606B4D3DBAA14B5E77EFE75928FE1DC127A2FFA8DE3348B3C1856A429BF97E7E31C2E5BD66
  gy := 0x011839296A789A3BC0045C8A5FB42C7D1BD998F54449579B446817AFBD17273E662C97EE72995EF42640C550B9013FAD0761353C7086A272C24088BE94769FD16650
  n := 0x01FFFFFFFFFFFFFFFFFFFFFFFFFFFFFFFFFFFFFFFFFFFFFFFFFFFFFFFFFFFFFFFFFA51868783BF2F966B7FCC0148F709A5D03BB5C9B8899C47AEBB6FB71E91386409

/-- A point: none is the point at infinity. -/
abbrev Point := Option (Nat × Nat)

/-- Whether a point with coordinates in range lies on the curve. -/
def onCurve (c : Curve) (x y : Nat) : Bool :=
  decide (x < c.p) && decide (y < c.p) && y * y % c.p == subMod ((x * x % c.p * x + c.b) % c.p) (3 * x % c.p) c.p

/-- Point addition. -/
def add (c : Curve) : Point → Point → Point
  | none, q => q
  | q, none => q
  | some (x1, y1), some (x2, y2) =>
    if x1 = x2 ∧ (y1 + y2) % c.p = 0 then none
    else
      let l := if x1 = x2 then (3 * x1 * x1 + c.p - 3) * inv0 (2 * y1) c.p % c.p
        else subMod y2 y1 c.p * inv0 (subMod x2 x1 c.p) c.p % c.p
      let x3 := subMod (subMod (l * l % c.p) x1 c.p) x2 c.p
      some (x3, subMod (l * subMod x1 x3 c.p % c.p) y1 c.p)

/-- Double and add over the low bits of the factor. -/
def mulAux (c : Curve) : Nat → Nat → Point → Point → Point
  | 0, _, _, r => r
  | n + 1, k, q, r => mulAux c n (k / 2) (add c q q) (if k % 2 = 1 then add c r q else r)

/-- Scalar multiplication. -/
def mul (c : Curve) (k : Nat) (q : Point) : Point := mulAux c (Nat.log2 k + 1) k q none

/-- The base point. -/
def base (c : Curve) : Point := some (c.gx, c.gy)

/-- The uncompressed encoding 04 ‖ X ‖ Y (R285). -/
def encode (c : Curve) : Point → Bytes
  | none => [0#8]
  | some (x, y) => [4#8] ++ beBytes c.len x ++ beBytes c.len y

/-- A point from its uncompressed encoding, if it lies on the curve. -/
def decode (c : Curve) (b : Bytes) : Option (Nat × Nat) :=
  let x := beAt b 1 c.len
  let y := beAt b (1 + c.len) c.len
  if b.length = 1 + 2 * c.len ∧ b.headD 0#8 = 4#8 ∧ onCurve c x y then some (x, y) else none

/-- The number a hash gives ECDSA: its leftmost bits, as many as the order has. -/
def hashInt (c : Curve) (h : Bytes) : Nat :=
  let nb := Nat.log2 c.n + 1
  if 8 * h.length ≤ nb then beNat h else beNat h / 2 ^ (8 * h.length - nb)

/-- ECDSA signature r ‖ s with nonce `k` (FIPS 186-5). -/
def sign (c : Curve) (d k : Nat) (h : Bytes) : Bytes :=
  let r := match mul c k (base c) with
    | none => 0
    | some (x, _) => x % c.n
  let s := inv0 k c.n * (hashInt c h + r * d) % c.n
  beBytes c.len r ++ beBytes c.len s

/-- ECDSA verification over a hash. -/
def verify (c : Curve) (q : Nat × Nat) (h sig : Bytes) : Bool :=
  let r := beAt sig 0 c.len
  let s := beAt sig c.len c.len
  if sig.length ≠ 2 * c.len ∨ r = 0 ∨ s = 0 ∨ c.n ≤ r ∨ c.n ≤ s then false
  else
    let w := inv0 s c.n
    match add c (mul c (hashInt c h * w % c.n) (base c)) (mul c (r * w % c.n) (some q)) with
    | none => false
    | some (x, _) => x % c.n == r

/-- Verification under an encoded public key. -/
def verifyEnc (c : Curve) (key h sig : Bytes) : Bool :=
  match decode c key with
  | none => false
  | some q => verify c q h sig

/-- The ECDH shared secret: the x coordinate (SP 800-56A). -/
def ecdh (c : Curve) (d : Nat) (q : Nat × Nat) : Bytes :=
  match mul c d (some q) with
  | none => zeros c.len
  | some (x, _) => beBytes c.len x

/-- A private scalar from random bytes: 1 to n - 1. -/
def scalar (c : Curve) (b : Bytes) : Nat := beNat b % (c.n - 1) + 1

/-! ### Curve25519 -/

/-- The prime 2^255 - 19. -/
def q25 : Nat := 2 ^ 255 - 19

/-- One ladder step of RFC 7748 over the bits of the scalar, most significant first. -/
def ladder (x1 k : Nat) : Nat → Nat → Nat → Nat → Nat → Nat
  | 0, x2, z2, _, _ => x2 * powMod z2 (q25 - 2) q25 % q25
  | t + 1, x2, z2, x3, z3 =>
    let sw := bit k t
    let (x2, x3) := if sw then (x3, x2) else (x2, x3)
    let (z2, z3) := if sw then (z3, z2) else (z2, z3)
    let a := (x2 + z2) % q25
    let b := subMod x2 z2 q25
    let aa := a * a % q25
    let bb := b * b % q25
    let e := subMod aa bb q25
    let da := subMod x3 z3 q25 * a % q25
    let cb := (x3 + z3) % q25 * b % q25
    let x3' := (da + cb) * (da + cb) % q25
    let z3' := x1 * (subMod da cb q25 * subMod da cb q25 % q25) % q25
    let x2' := aa * bb % q25
    let z2' := e * (aa + 121665 * e) % q25
    if sw then ladder x1 k t x3' z3' x2' z2' else ladder x1 k t x2' z2' x3' z3'

/-- X25519 of RFC 7748. -/
def x25519 (k u : Bytes) : Bytes :=
  let kn := leNat (fit 32 k) % 2 ^ 254 / 8 * 8 + 2 ^ 254
  let un := leNat (fit 32 u) % 2 ^ 255 % q25
  leBytes 32 (ladder un kn 255 1 0 un 1)

/-- The base point of X25519. -/
def u9 : Bytes := leBytes 32 9

/-- The order of the Ed25519 base point. -/
def ell : Nat := 2 ^ 252 + 27742317777372353535851937790883648493

/-- The Edwards constant d. -/
def edD : Nat := 0x52036CEE2B6FFE738CC740797779E89800700A4D4141D8AB75EB4DCA135978A3

/-- Edwards addition in extended coordinates (X, Y, Z, T) of RFC 8032. -/
def edAdd (a b : Nat × Nat × Nat × Nat) : Nat × Nat × Nat × Nat :=
  let (x1, y1, z1, t1) := a
  let (x2, y2, z2, t2) := b
  let aa := subMod y1 x1 q25 * subMod y2 x2 q25 % q25
  let bb := (y1 + x1) * (y2 + x2) % q25
  let cc := 2 * t1 * t2 % q25 * edD % q25
  let dd := 2 * z1 * z2 % q25
  let e := subMod bb aa q25
  let f := subMod dd cc q25
  let g := (dd + cc) % q25
  let h := (bb + aa) % q25
  (e * f % q25, g * h % q25, f * g % q25, e * h % q25)

/-- Edwards scalar multiplication over the low bits. -/
def edMulAux : Nat → Nat → Nat × Nat × Nat × Nat → Nat × Nat × Nat × Nat → Nat × Nat × Nat × Nat
  | 0, _, _, r => r
  | n + 1, k, q, r => edMulAux n (k / 2) (edAdd q q) (if k % 2 = 1 then edAdd r q else r)

/-- Edwards scalar multiplication. -/
def edMul (k : Nat) (q : Nat × Nat × Nat × Nat) : Nat × Nat × Nat × Nat :=
  edMulAux (Nat.log2 k + 1) k q (0, 1, 1, 0)

/-- The x coordinate that belongs to y with a given sign, if there is one. -/
def edX (y sgn : Nat) : Option Nat :=
  if q25 ≤ y then none
  else
    let u := subMod (y * y % q25) 1 q25
    let v := (edD * (y * y % q25) + 1) % q25
    let x2 := u * powMod v (q25 - 2) q25 % q25
    if x2 = 0 then (if sgn = 1 then none else some 0)
    else
      let x := powMod x2 ((q25 + 3) / 8) q25
      let x := if x * x % q25 = x2 then x else x * powMod 2 ((q25 - 1) / 4) q25 % q25
      if x * x % q25 ≠ x2 then none else if x % 2 = sgn then some x else some (q25 - x)

/-- A point from its 32-byte encoding. -/
def edDecode (b : Bytes) : Option (Nat × Nat × Nat × Nat) :=
  let n := leNat (fit 32 b)
  let y := n % 2 ^ 255
  (edX y (n / 2 ^ 255)).map (fun x => (x, y, 1, x * y % q25))

/-- The 32-byte encoding of a point. -/
def edEncode (p : Nat × Nat × Nat × Nat) : Bytes :=
  let (x, y, z, _) := p
  let zi := powMod z (q25 - 2) q25
  leBytes 32 (y * zi % q25 + 2 ^ 255 * (x * zi % q25 % 2))

/-- The base point of Ed25519. -/
def edB : Nat × Nat × Nat × Nat :=
  let y := 4 * powMod 5 (q25 - 2) q25 % q25
  let x := (edX y 0).getD 0
  (x, y, 1, x * y % q25)

/-- The secret scalar of a seed. -/
def edSecret (seed : Bytes) : Nat := leNat (slice (Sha.sha512 seed) 0 32) % 2 ^ 254 / 8 * 8 + 2 ^ 254

/-- The public key of a seed. -/
def edPub (seed : Bytes) : Bytes := edEncode (edMul (edSecret seed) edB)

/-- Ed25519 signature (RFC 8032). -/
def edSign (seed msg : Bytes) : Bytes :=
  let a := edPub seed
  let r := leNat (Sha.sha512 (slice (Sha.sha512 seed) 32 32 ++ msg)) % ell
  let rr := edEncode (edMul r edB)
  let k := leNat (Sha.sha512 (rr ++ a ++ msg)) % ell
  rr ++ leBytes 32 ((r + k * edSecret seed) % ell)

/-- Ed25519 verification. -/
def edVerify (pk msg sig : Bytes) : Bool :=
  let s := leNat (slice sig 32 32)
  if sig.length ≠ 64 ∨ ell ≤ s then false
  else match edDecode pk, edDecode (slice sig 0 32) with
    | some a, some r =>
      let k := leNat (Sha.sha512 (slice sig 0 32 ++ pk ++ msg)) % ell
      edEncode (edMul s edB) == edEncode (edAdd r (edMul k a))
    | _, _ => false

end Sys2Proof.Machine.Ec
end

