-- ==== Sys2Proof/Machine/Lattice.lean ====
section
/-! DEFINITION. ML-KEM of FIPS 203 and ML-DSA of FIPS 204, which the Plume units compute (R360; assumption 10).
A polynomial is its 256 coefficients modulo the prime. -/

namespace Sys2Proof.Machine.Lattice

open Sys2Proof.Machine

/-- The low `n` bits of a number, reversed. -/
def bitRev : Nat → Nat → Nat
  | 0, _ => 0
  | n + 1, v => v % 2 * 2 ^ n + bitRev n (v / 2)

/-- Pointwise operation on polynomials. -/
def zip (f : Nat → Nat → Nat) (a b : List Nat) : List Nat := List.zipWith f a b

/-- Sum modulo q. -/
def addP (q : Nat) (a b : List Nat) : List Nat := zip (fun x y => (x + y) % q) a b

/-- Difference modulo q. -/
def subP (q : Nat) (a b : List Nat) : List Nat := zip (fun x y => subMod x y q) a b

/-- The zero polynomial. -/
def zeroP : List Nat := List.replicate 256 0

/-- The number-theoretic transform as a tree of butterflies: node `k` of depth `d`, root `z`, `w` bits of reversal. -/
def ntt (q z w : Nat) : Nat → Nat → List Nat → List Nat
  | 0, _, l => l
  | d + 1, k, l =>
    let h := l.length / 2
    let a := l.take h
    let t := (l.drop h).map (fun x => x * powMod z (bitRev w k) q % q)
    ntt q z w d (2 * k) (addP q a t) ++ ntt q z w d (2 * k + 1) (subP q a t)

/-- The transform undone, before division by the number of leaves. -/
def invNtt (q z w : Nat) : Nat → Nat → List Nat → List Nat
  | 0, _, l => l
  | d + 1, k, l =>
    let h := l.length / 2
    let a := invNtt q z w d (2 * k) (l.take h)
    let b := invNtt q z w d (2 * k + 1) (l.drop h)
    let zi := inv0 (powMod z (bitRev w k) q) q
    addP q a b ++ (subP q a b).map (fun x => x * zi % q)

/-- Bits of a byte string, least significant first. -/
def bitsOf (b : Bytes) : List Nat := (b.map (fun x => (List.range 8).map (fun i => x.toNat / 2 ^ i % 2))).flatten

/-- Numbers of `w` bits from a list of bits. -/
def unpackAux (w : Nat) : Nat → List Nat → List Nat
  | 0, _ => []
  | n + 1, l => ((l.take w).foldr (fun b a => b + 2 * a) 0) :: unpackAux w n (l.drop w)

/-- 256 numbers of `w` bits from their packed bytes. -/
def unpack (w : Nat) (b : Bytes) : List Nat := unpackAux w 256 (bitsOf b)

/-- Bytes from bits, least significant first. -/
def bytesOf (l : List Nat) (n : Nat) : Bytes := (unpackAux 8 n l).map byteOf

/-- 256 numbers packed into `w` bits each. -/
def pack (w : Nat) (l : List Nat) : Bytes :=
  bytesOf ((l.map (fun x => (List.range w).map (fun i => x / 2 ^ i % 2))).flatten) (32 * w)

/-- Slices of equal length. -/
def sliced (b : Bytes) (o w n : Nat) : List Bytes := (List.range n).map (fun i => slice b (o + w * i) w)

/-! ### ML-KEM -/

/-- The parameters of one ML-KEM set. -/
structure KemSet where
  k    : Nat
  eta1 : Nat
  du   : Nat
  dv   : Nat

/-- ML-KEM-512, -768 and -1024 by level 1, 2, 3. -/
def kemSet (level : Nat) : KemSet :=
  if level = 1 then ⟨2, 3, 10, 4⟩ else if level = 2 then ⟨3, 2, 10, 4⟩ else ⟨4, 2, 11, 5⟩

/-- The ML-KEM prime. -/
def kq : Nat := 3329

/-- Transform. -/
def kNtt (l : List Nat) : List Nat := ntt kq 17 7 7 1 l

/-- Transform undone. -/
def kInv (l : List Nat) : List Nat := (invNtt kq 17 7 7 1 l).map (fun x => x * 3303 % kq)

/-- Products in the transformed domain, pair by pair. -/
def kMulAux : Nat → List Nat → List Nat → List Nat
  | i, a0 :: a1 :: a, b0 :: b1 :: b =>
    let g := powMod 17 (2 * bitRev 7 i + 1) kq
    (a0 * b0 + a1 * b1 % kq * g) % kq :: (a0 * b1 + a1 * b0) % kq :: kMulAux (i + 1) a b
  | _, _, _ => []

/-- Product in the transformed domain. -/
def kMul (a b : List Nat) : List Nat := kMulAux 0 a b

/-- Inner product in the transformed domain. -/
def kDot (a b : List (List Nat)) : List Nat := (List.zipWith kMul a b).foldl (addP kq) zeroP

/-- Rejection sampling of coefficients below `q` from a stream of three-byte groups. -/
def sampleNtt : Bytes → List Nat
  | b0 :: b1 :: b2 :: r =>
    let d1 := b0.toNat + 256 * (b1.toNat % 16)
    let d2 := b1.toNat / 16 + 16 * b2.toNat
    (if d1 < kq then [d1] else []) ++ (if d2 < kq then [d2] else []) ++ sampleNtt r
  | _ => []

/-- The matrix entry that seed and indices give. -/
def kEntry (rho : Bytes) (i j : Nat) : List Nat :=
  ((sampleNtt (Sha.shake128 1344 (rho ++ [byteOf j, byteOf i]))) ++ zeroP).take 256

/-- The centred binomial polynomial a byte string gives. -/
def cbd (eta : Nat) (b : Bytes) : List Nat :=
  (chunksN (2 * eta) (bitsOf b)).map (fun g => subMod ((g.take eta).sum) ((g.drop eta).sum) kq)
where
  /-- 256 groups of `w` bits. -/
  chunksN (w : Nat) (l : List Nat) : List (List Nat) := (List.range 256).map (fun i => (l.drop (w * i)).take w)

/-- A sampled secret or error polynomial. -/
def kNoise (eta : Nat) (s : Bytes) (n : Nat) : List Nat := cbd eta (Sha.shake256 (64 * eta) (s ++ [byteOf n]))

/-- Compression to `d` bits. -/
def compress (d : Nat) (l : List Nat) : List Nat := l.map (fun x => (2 * x * 2 ^ d + kq) / (2 * kq) % 2 ^ d)

/-- Decompression from `d` bits. -/
def decompress (d : Nat) (l : List Nat) : List Nat := l.map (fun y => (2 * y * kq + 2 ^ d) / 2 ^ (d + 1))

/-- ML-KEM key generation from d and z: encapsulation and decapsulation key (FIPS 203). -/
def kemKeyGen (level : Nat) (d z : Bytes) : Bytes × Bytes :=
  let c := kemSet level
  let g := Sha.sha3_512 (d ++ [byteOf c.k])
  let rho := slice g 0 32
  let sig := slice g 32 32
  let s := (List.range c.k).map (fun i => kNtt (kNoise c.eta1 sig i))
  let e := (List.range c.k).map (fun i => kNtt (kNoise c.eta1 sig (c.k + i)))
  let t := (List.range c.k).map (fun i =>
    addP kq (kDot ((List.range c.k).map (fun j => kEntry rho i j)) s) (e.getD i []))
  let ek := (t.map (pack 12)).flatten ++ rho
  (ek, (s.map (pack 12)).flatten ++ ek ++ Sha.sha3_256 ek ++ z)

/-- The public-key encryption inside ML-KEM. -/
def kemEncrypt (level : Nat) (ek m r : Bytes) : Bytes :=
  let c := kemSet level
  let t := (sliced ek 0 384 c.k).map (fun b => (unpack 12 b).map (· % kq))
  let rho := slice ek (384 * c.k) 32
  let y := (List.range c.k).map (fun i => kNtt (kNoise c.eta1 r i))
  let u := (List.range c.k).map (fun i =>
    addP kq (kInv (kDot ((List.range c.k).map (fun j => kEntry rho j i)) y)) (kNoise 2 r (c.k + i)))
  let mu := decompress 1 (unpack 1 m)
  let v := addP kq (addP kq (kInv (kDot t y)) (kNoise 2 r (2 * c.k))) mu
  (u.map (fun p => pack c.du (compress c.du p))).flatten ++ pack c.dv (compress c.dv v)

/-- ML-KEM encapsulation with message m: shared secret and ciphertext. -/
def kemEncaps (level : Nat) (ek m : Bytes) : Bytes × Bytes :=
  let g := Sha.sha3_512 (m ++ Sha.sha3_256 ek)
  (slice g 0 32, kemEncrypt level ek m (slice g 32 32))

/-- ML-KEM decapsulation with implicit rejection. -/
def kemDecaps (level : Nat) (dk ct : Bytes) : Bytes :=
  let c := kemSet level
  let s := (sliced dk 0 384 c.k).map (unpack 12)
  let ek := slice dk (384 * c.k) (384 * c.k + 32)
  let h := slice dk (768 * c.k + 32) 32
  let z := slice dk (768 * c.k + 64) 32
  let u := (sliced ct 0 (32 * c.du) c.k).map (fun b => decompress c.du (unpack c.du b))
  let v := decompress c.dv (unpack c.dv (slice ct (32 * c.du * c.k) (32 * c.dv)))
  let w := subP kq v (kInv (kDot s (u.map kNtt)))
  let m := pack 1 (compress 1 w)
  let g := Sha.sha3_512 (m ++ h)
  if kemEncrypt level ek m (slice g 32 32) = ct then slice g 0 32 else Sha.shake256 32 (z ++ ct)

/-! ### ML-DSA -/

/-- The parameters of one ML-DSA set. -/
structure DsaSet where
  tau    : Nat
  lambda : Nat
  g1     : Nat
  g2     : Nat
  k      : Nat
  l      : Nat
  eta    : Nat
  omega  : Nat

/-- The ML-DSA prime. -/
def dq : Nat := 8380417

/-- ML-DSA-44, -65 and -87 by level 1, 2, 3. -/
def dsaSet (level : Nat) : DsaSet :=
  if level = 1 then ⟨39, 128, 2 ^ 17, (dq - 1) / 88, 4, 4, 2, 80⟩
  else if level = 2 then ⟨49, 192, 2 ^ 19, (dq - 1) / 32, 6, 5, 4, 55⟩
  else ⟨60, 256, 2 ^ 19, (dq - 1) / 32, 8, 7, 2, 75⟩

/-- Transform. -/
def dNtt (l : List Nat) : List Nat := ntt dq 1753 8 8 1 l

/-- Transform undone. -/
def dInv (l : List Nat) : List Nat := (invNtt dq 1753 8 8 1 l).map (fun x => x * inv0 256 dq % dq)

/-- Product in the transformed domain. -/
def dMul (a b : List Nat) : List Nat := zip (fun x y => x * y % dq) a b

/-- Inner product in the transformed domain. -/
def dDot (a b : List (List Nat)) : List Nat := (List.zipWith dMul a b).foldl (addP dq) zeroP

/-- Rejection sampling of 23-bit coefficients. -/
def rejNtt : Bytes → List Nat
  | b0 :: b1 :: b2 :: r =>
    let z := b0.toNat + 256 * b1.toNat + 65536 * (b2.toNat % 128)
    (if z < dq then [z] else []) ++ rejNtt r
  | _ => []

/-- The matrix row that a seed gives. -/
def dRow (c : DsaSet) (rho : Bytes) (r : Nat) : List (List Nat) :=
  (List.range c.l).map (fun s => ((rejNtt (Sha.shake128 1008 (rho ++ [byteOf s, byteOf r]))) ++ zeroP).take 256)

/-- One coefficient from half a byte, if it gives one. -/
def halfByte (eta b : Nat) : List Nat :=
  if eta = 2 then (if b < 15 then [subMod 2 (b % 5) dq] else []) else (if b < 9 then [subMod 4 b dq] else [])

/-- A short secret polynomial. -/
def rejBounded (c : DsaSet) (seed : Bytes) : List Nat :=
  (((Sha.shake256 544 seed).map (fun x => halfByte c.eta (x.toNat % 16) ++ halfByte c.eta (x.toNat / 16))).flatten
    ++ zeroP).take 256

/-- The centred value of a coefficient. -/
def centred (x : Nat) : Int := if x ≤ dq / 2 then (x : Int) else (x : Int) - dq

/-- Absolute value of a coefficient. -/
def absC (x : Nat) : Nat := if x ≤ dq / 2 then x else dq - x

/-- The infinity norm reaches a bound. -/
def reaches (bound : Nat) (v : List (List Nat)) : Bool := v.any (fun p => p.any (fun x => decide (bound ≤ absC x)))

/-- A coefficient from an integer. -/
def ofInt (x : Int) : Nat := (x % (dq : Int)).toNat

/-- High and low part of a coefficient (Decompose). -/
def decompose (g2 x : Nat) : Nat × Int :=
  let m := 2 * g2
  let r0 : Int := if x % m ≤ g2 then (x % m : Nat) else ((x % m : Nat) : Int) - m
  if (x : Int) - r0 = dq - 1 then (0, r0 - 1) else ((((x : Int) - r0) / m).toNat, r0)

/-- High parts of a polynomial. -/
def high (g2 : Nat) (p : List Nat) : List Nat := p.map (fun x => (decompose g2 x).1)

/-- Packing of coefficients in [-a, b] as b minus the coefficient. -/
def packS (w b : Nat) (p : List Nat) : Bytes := pack w (p.map (fun x => subMod b x dq))

/-- The packing undone. -/
def unpackS (w b : Nat) (y : Bytes) : List Nat := (unpack w y).map (fun x => subMod b x dq)

/-- The swaps of SampleInBall, over the sign bits and the remaining stream. -/
def ballAux : Nat → Nat → List Nat → Bytes → List Nat → List Nat
  | 0, _, _, _, c => c
  | _, _, _, [], c => c
  | fuel + 1, i, signs, b :: r, c =>
    if 255 < i then c
    else if i < b.toNat then ballAux fuel i signs r c
    else
      let j := b.toNat
      let c' := (c.set i (c.getD j 0)).set j (if signs.headD 0 = 1 then dq - 1 else 1)
      ballAux fuel (i + 1) (signs.drop 1) r c'

/-- The challenge polynomial. -/
def inBall (tau : Nat) (seed : Bytes) : List Nat :=
  let s := Sha.shake256 1096 seed
  ballAux 1088 (256 - tau) (bitsOf (slice s 0 8)) (s.drop 8) zeroP

/-- Bits of a high part. -/
def w1Bits (c : DsaSet) : Nat := if c.g2 = (dq - 1) / 88 then 6 else 4

/-- Bits of a packed secret coefficient. -/
def etaBits (c : DsaSet) : Nat := if c.eta = 2 then 3 else 4

/-- Bits of a packed mask coefficient. -/
def zBits (c : DsaSet) : Nat := if c.g1 = 2 ^ 17 then 18 else 20

/-- ML-DSA key generation from a seed: public and private key encodings (FIPS 204). -/
def dsaKeyGen (level : Nat) (xi : Bytes) : Bytes × Bytes :=
  let c := dsaSet level
  let h := Sha.shake256 128 (xi ++ [byteOf c.k, byteOf c.l])
  let rho := slice h 0 32
  let rho' := slice h 32 64
  let kk := slice h 96 32
  let s1 := (List.range c.l).map (fun r => rejBounded c (rho' ++ leBytes 2 r))
  let s2 := (List.range c.k).map (fun r => rejBounded c (rho' ++ leBytes 2 (c.l + r)))
  let s1h := s1.map dNtt
  let t := (List.range c.k).map (fun i => addP dq (dInv (dDot (dRow c rho i) s1h)) (s2.getD i []))
  let t1 := t.map (fun p => p.map (fun x => (x + 2 ^ 12 - 1) / 2 ^ 13))
  let t0 := t.map (fun p => p.map (fun x => subMod x ((x + 2 ^ 12 - 1) / 2 ^ 13 * 2 ^ 13) dq))
  let pk := rho ++ (t1.map (pack 10)).flatten
  let sk := rho ++ kk ++ Sha.shake256 64 pk ++ (s1.map (packS (etaBits c) c.eta)).flatten
    ++ (s2.map (packS (etaBits c) c.eta)).flatten ++ (t0.map (packS 13 (2 ^ 12))).flatten
  (pk, sk)

/-- One attempt of the signing loop, then the next. -/
def signLoop (c : DsaSet) (a : List (List (List Nat))) (s1 s2 t0 : List (List Nat)) (mu rho : Bytes) :
    Nat → Nat → Bytes
  | 0, _ => []
  | fuel + 1, kappa =>
    let y := (List.range c.l).map (fun r => unpackS (zBits c) c.g1 (Sha.shake256 (32 * zBits c) (rho ++ leBytes 2 (kappa + r))))
    let yh := y.map dNtt
    let w := a.map (fun row => dInv (dDot row yh))
    let w1 := w.map (high c.g2)
    let ct := Sha.shake256 (c.lambda / 4) (mu ++ (w1.map (pack (w1Bits c))).flatten)
    let ch := dNtt (inBall c.tau ct)
    let z := List.zipWith (fun yy s => addP dq yy (dInv (dMul ch s))) y s1
    let r := List.zipWith (fun ww s => subP dq ww (dInv (dMul ch s))) w s2
    let beta := c.tau * c.eta
    let r0bad := r.any (fun p => p.any (fun x => decide (c.g2 - beta ≤ (decompose c.g2 x).2.natAbs)))
    let ct0 := t0.map (fun p => dInv (dMul ch p))
    let hint := List.zipWith (fun rr cc => zip (fun x y => b2n ((decompose c.g2 x).1 != (decompose c.g2 ((x + y) % dq)).1))
      rr cc) r ct0
    let ones := (hint.map List.sum).sum
    if reaches (c.g1 - beta) z || r0bad || reaches c.g2 ct0 || decide (c.omega < ones) then
      signLoop c a s1 s2 t0 mu rho fuel (kappa + c.l)
    else
      let pos := hint.map (fun p => (List.range 256).filter (fun i => p.getD i 0 == 1))
      let ends := (List.range c.k).map (fun i => ((pos.take (i + 1)).map List.length).sum)
      ct ++ (z.map (packS (zBits c) c.g1)).flatten
        ++ fit c.omega (pos.flatten.map byteOf) ++ ends.map byteOf

/-- ML-DSA signature over a message with context and 32 random bytes (FIPS 204, pure mode). -/
def dsaSign (level : Nat) (sk ctx m rnd : Bytes) : Bytes :=
  let c := dsaSet level
  let eb := 32 * etaBits c
  let rho := slice sk 0 32
  let s1 := (sliced sk 128 eb c.l).map (fun b => dNtt (unpackS (etaBits c) c.eta b))
  let s2 := (sliced sk (128 + eb * c.l) eb c.k).map (fun b => dNtt (unpackS (etaBits c) c.eta b))
  let t0 := (sliced sk (128 + eb * (c.l + c.k)) 416 c.k).map (fun b => dNtt (unpackS 13 (2 ^ 12) b))
  let mu := Sha.shake256 64 (slice sk 64 64 ++ [0#8, byteOf ctx.length] ++ ctx ++ m)
  let r := Sha.shake256 64 (slice sk 32 32 ++ rnd ++ mu)
  signLoop c ((List.range c.k).map (dRow c rho)) s1 s2 t0 mu r 814 0

/-- The positions of one hint polynomial, if they rise. -/
def hintOk : List Nat → Bool
  | a :: b :: r => decide (a < b) && hintOk (b :: r)
  | _ => true

/-- One coefficient after its hint (UseHint). -/
def useHint (g2 h x : Nat) : Nat :=
  let m := (dq - 1) / (2 * g2)
  let (r1, r0) := decompose g2 x
  if h = 1 then (if 0 < r0 then (r1 + 1) % m else (r1 + m - 1) % m) else r1

/-- ML-DSA verification. -/
def dsaVerify (level : Nat) (pk ctx m sig : Bytes) : Bool :=
  let c := dsaSet level
  let cl := c.lambda / 4
  let zb := 32 * zBits c
  let ct := slice sig 0 cl
  let z := (sliced sig cl zb c.l).map (unpackS (zBits c) c.g1)
  let hb := (slice sig (cl + zb * c.l) (c.omega + c.k)).map (·.toNat)
  let ends := hb.drop c.omega
  let starts := 0 :: ends
  let segs := (List.range c.k).map (fun i => ((hb.take (ends.getD i 0)).drop (starts.getD i 0)))
  let okEnds := (List.zipWith (fun a b => decide (a ≤ b)) starts ends).all id && decide (ends.getLastD 0 ≤ c.omega)
  let okPad := ((hb.take c.omega).drop (ends.getLastD 0)).all (· == 0)
  let t1 := (sliced pk 32 320 c.k).map (fun b => dNtt ((unpack 10 b).map (fun x => x * 2 ^ 13 % dq)))
  let mu := Sha.shake256 64 (Sha.shake256 64 pk ++ [0#8, byteOf ctx.length] ++ ctx ++ m)
  let ch := dNtt (inBall c.tau ct)
  let zh := z.map dNtt
  let w := (List.range c.k).map (fun i => dInv (subP dq (dDot (dRow c (slice pk 0 32) i) zh) (dMul ch (t1.getD i []))))
  let w1 := List.zipWith (fun p s => (List.range 256).map (fun i => useHint c.g2 (b2n (s.contains i)) (p.getD i 0))) w segs
  if sig.length ≠ cl + zb * c.l + c.omega + c.k then false
  else okEnds && okPad && segs.all hintOk && !reaches (c.g1 - c.tau * c.eta) z &&
    Sha.shake256 cl (mu ++ (w1.map (pack (w1Bits c))).flatten) == ct

/-- The public key of an ML-DSA private key: t is formed again from its rho, s1 and s2. -/
def dsaPublic (level : Nat) (sk : Bytes) : Bytes :=
  let c := dsaSet level
  let eb := 32 * etaBits c
  let rho := slice sk 0 32
  let s1 := (sliced sk 128 eb c.l).map (fun b => dNtt (unpackS (etaBits c) c.eta b))
  let s2 := (sliced sk (128 + eb * c.l) eb c.k).map (unpackS (etaBits c) c.eta)
  let t := (List.range c.k).map (fun i => addP dq (dInv (dDot (dRow c rho i) s1)) (s2.getD i []))
  rho ++ (t.map (fun p => pack 10 (p.map (fun x => (x + 2 ^ 12 - 1) / 2 ^ 13)))).flatten

/-- The modulus check of an ML-KEM encapsulation key (FIPS 203). -/
def kemCheck (level : Nat) (ek : Bytes) : Bool :=
  (sliced ek 0 384 (kemSet level).k).all (fun b => (unpack 12 b).all (fun x => decide (x < kq)))

end Sys2Proof.Machine.Lattice
end

