-- ==== Sys2Proof/Machine/Asym.lean ====
section
/-! DEFINITION. Asymmetric keys: RSA, public-key encodings, key check values, key pairs, signatures and shared secrets
(R169, R170, R285 to R294), as the standards of 00_scope.md define them (assumption 10). -/

namespace Sys2Proof.Machine

/-! ### Hash functions by HASH (R287) -/

/-- The hash a HASH value names. -/
def hashOf (h : Nat) (m : Bytes) : Bytes :=
  match h with
  | 1 => Sha.sha256 m
  | 2 => Sha.sha384 m
  | 3 => Sha.sha512 m
  | 4 => Sha.sha3_256 m
  | 5 => Sha.sha3_384 m
  | 6 => Sha.sha3_512 m
  | _ => m

/-! ### RSA -/

/-- Bytes of half a modulus. -/
@[noinline] def rsaHalf (a : Nat) : Nat := rsaBits a / 16

/-- Field `i` of the stored private key: p, q, dP, dQ, qInv (R169). -/
def rsaPart (a : Nat) (c : Bytes) (i : Nat) : Nat := beAt c (i * rsaHalf a) (rsaHalf a)

/-- n ‖ e of a key, private or public (R285). -/
def rsaPub (a : Nat) (pub : Bool) (c : Bytes) : Bytes := if pub then c else c.drop (5 * rsaHalf a)

/-- n of an encoded public key. -/
def rsaN (a : Nat) (pk : Bytes) : Nat := beAt pk 0 (rsaBits a / 8)

/-- e of an encoded public key. -/
def rsaE (a : Nat) (pk : Bytes) : Nat := beAt pk (rsaBits a / 8) 4

/-- The private operation by the Chinese remainder theorem. -/
def rsaDec (a : Nat) (c : Bytes) (m : Nat) : Nat :=
  let p := rsaPart a c 0
  let q := rsaPart a c 1
  let m1 := powMod m (rsaPart a c 2) p
  let m2 := powMod m (rsaPart a c 3) q
  m2 + rsaPart a c 4 * subMod m1 m2 p % p * q

/-- DigestInfo of RFC 8017 for a HASH. -/
def digestInfo (h : Nat) (dg : Bytes) : Bytes :=
  let last := match h with
    | 1 => 1
    | 2 => 2
    | 3 => 3
    | 4 => 8
    | 5 => 9
    | _ => 10
  [0x30#8, byteOf (17 + dg.length), 0x30#8, 0x0D#8, 0x06#8, 0x09#8, 0x60#8, 0x86#8, 0x48#8, 0x01#8, 0x65#8, 0x03#8,
   0x04#8, 0x02#8, byteOf last, 0x05#8, 0x00#8, 0x04#8, byteOf dg.length] ++ dg

/-- EMSA-PKCS1-v1_5 of `len` bytes; too short a modulus gives nothing. -/
def pkcs1 (len h : Nat) (dg : Bytes) : Bytes :=
  let t := digestInfo h dg
  [0#8, 1#8] ++ List.replicate (len - t.length - 3) 0xFF#8 ++ [0#8] ++ t

/-- MGF1 over a hash. -/
def mgf1 (h n : Nat) (seed : Bytes) : Bytes :=
  fit n (((List.range (ceilDiv n (hashLen h))).map (fun i => hashOf h (seed ++ beBytes 4 i))).flatten)

/-- EMSA-PSS of `len` bytes with one leading bit clear. -/
def pss (len h : Nat) (dg salt : Bytes) : Bytes :=
  let hh := hashOf h (zeros 8 ++ dg ++ salt)
  let dbLen := len - hh.length - 1
  let db := zeros (dbLen - salt.length - 1) ++ [1#8] ++ salt
  let m := xorBytes db (mgf1 h dbLen hh)
  beBytes dbLen (beNat m % 2 ^ (8 * dbLen - 1)) ++ hh ++ [0xBC#8]

/-- EMSA-PSS verification: the message is formed again from the salt it carries. -/
def pssOk (len h : Nat) (dg em : Bytes) : Bool :=
  let hl := hashLen h
  let dbLen := len - hl - 1
  let hh := slice em dbLen hl
  let db := beBytes dbLen (beNat (xorBytes (slice em 0 dbLen) (mgf1 h dbLen hh)) % 2 ^ (8 * dbLen - 1))
  pss len h dg (db.drop (dbLen - hl)) == em

/-- One round of the Miller-Rabin test. -/
def mrAux (n : Nat) : Nat → Nat → Bool
  | 0, _ => false
  | k + 1, x => x == n - 1 || mrAux n k (x * x % n)

/-- n - 1 as an odd part and the power of two beside it. -/
def oddPart : Nat → Nat → Nat × Nat
  | 0, d => (d, 0)
  | k + 1, d => if d % 2 = 0 then let (o, s) := oddPart k (d / 2); (o, s + 1) else (d, 0)

/-- Miller-Rabin to the bases of the first twelve primes. -/
def isPrime (n : Nat) : Bool :=
  let bases := [2, 3, 5, 7, 11, 13, 17, 19, 23, 29, 31, 37]
  if n < 2 then false
  else if bases.contains n then true
  else if bases.any (fun b => n % b == 0) then false
  else
    let (d, k) := oddPart (Nat.log2 n + 1) (n - 1)
    bases.all (fun b => let x := powMod b d n
      x == 1 || mrAux n k x)

/-- The first prime from an odd number on whose predecessor has no factor in common with e. -/
def primeFrom (e lo : Nat) : Nat → Nat → Nat
  | 0, c => c
  | k + 1, c => if isPrime c && Nat.gcd e (c - 1) == 1 then c
      else primeFrom e lo k (if c + 2 < 2 * (lo / 3 * 2) then c + 2 else lo + 1)

/-- A prime of `b` bits, its two leading bits set, by a search from random bytes. -/
def primeOf (e b : Nat) (rnd : Bytes) : Nat :=
  let lo := 3 * 2 ^ (b - 2)
  primeFrom e lo (64 * b) (lo + beNat rnd % 2 ^ (b - 2) / 2 * 2 + 1)

/-- The public exponent of a generated key: odd, at least 3, of at most 32 bits. -/
def rsaGenE : Nat := 2 * (Config.rsaExponent % (2 ^ 31 - 1)) + 3

/-- A private key as stored, from its primes and public exponent (R169). -/
def rsaStore (a p q e : Nat) : Bytes :=
  let h := rsaHalf a
  let d (m : Nat) : Nat := inv0 e (m - 1)
  beBytes h p ++ beBytes h q ++ beBytes h (d p) ++ beBytes h (d q) ++ beBytes h (inv0 q p) ++ beBytes (2 * h) (p * q) ++ beBytes 4 e

/-- A generated RSA key. -/
def rsaGen (a : Nat) (rnd : Bytes) : Bytes :=
  let h := rsaHalf a
  rsaStore a (primeOf rsaGenE (8 * h) (slice rnd 0 h)) (primeOf rsaGenE (8 * h) (slice rnd h h)) rsaGenE

/-! ### Keys -/

/-- The curve of an algorithm. -/
def curveOf (a : Nat) : Ec.Curve := if a = 0x501 then Ec.p256 else if a = 0x502 then Ec.p384 else Ec.p521

/-- The set of an ML-DSA or ML-KEM algorithm. -/
@[noinline] def levelOf (a : Nat) : Nat := a % 256

/-- The public key of a stored asymmetric key (R285). -/
def publicOf (a : Nat) (pub : Bool) (c : Bytes) : Bytes :=
  if pub then c
  else if isRsa a then rsaPub a false c
  else if isEcc a then [4#8] ++ c.drop (privLen a / 3)
  else if a = 0x504 ∨ a = 0x505 then c.drop 32
  else if isMldsa a then Lattice.dsaPublic (levelOf a) c
  else slice c ((privLen a - 96) / 2) (pubLen a)

/-- The key check value (R170). -/
def kcvOf (a : Nat) (pub : Bool) (c : Bytes) : Bytes :=
  if isAes a then slice (cmac ⟨true, c⟩ (zeros 16)) 0 5
  else if isTdes a then slice (Des.encrypt c (zeros 8)) 0 3 ++ zeros 2
  else if isHmac a then slice (Sha.sha256 c) 0 5
  else slice (Sha.sha256 (publicOf a pub c)) 0 5

/-- Random bytes a key pair takes. -/
@[noinline] def pairRandom (a : Nat) : Nat :=
  if isRsa a then 2 * rsaHalf a else if isEcc a then privLen a / 3 + 8 else if isMlkem a then 64 else 32

/-- A generated key pair as stored. -/
def genPair (a : Nat) (rnd : Bytes) : Bytes :=
  if isRsa a then rsaGen a rnd
  else if isEcc a then
    let k := curveOf a
    let d := Ec.scalar k rnd
    beBytes k.len d ++ (Ec.encode k (Ec.mul k d (Ec.base k))).drop 1
  else if a = 0x504 then rnd ++ Ec.edPub rnd
  else if a = 0x505 then rnd ++ Ec.x25519 rnd Ec.u9
  else if isMldsa a then (Lattice.dsaKeyGen (levelOf a) rnd).2
  else (Lattice.kemKeyGen (levelOf a) (slice rnd 0 32) (slice rnd 32 32)).2

/-- The validation of an imported public key (R286). -/
def checkPublic (a : Nat) (pk : Bytes) : Status :=
  if pk.length ≠ pubLen a then .inputRange
  else if isRsa a then
    let e := rsaE a pk
    if e % 2 = 0 ∨ e < 3 ∨ rsaN a pk ≤ e then .inputRange else .ok
  else if isEcc a then (if (Ec.decode (curveOf a) pk).isSome then .ok else .notOnCurve)
  else if a = 0x504 then (if (Ec.edDecode pk).isSome then .ok else .notOnCurve)
  else if isMlkem a then (if Lattice.kemCheck (levelOf a) pk then .ok else .inputRange)
  else .ok

/-! ### Signatures (R287, R288, R290) -/

/-- A signature with a private key over a digest (RSA, ECDSA) or a context and message (Ed25519, ML-DSA). -/
def signWith (a h pad : Nat) (c rnd ctx m : Bytes) : Bytes :=
  if isRsa a then
    let len := rsaBits a / 8
    let em := if pad = 1 then pss len h m rnd else pkcs1 len h m
    beBytes len (rsaDec a c (beNat em))
  else if isEcc a then
    let k := curveOf a
    Ec.sign k (beAt c 0 k.len) (Ec.scalar k (slice rnd 0 (k.len + 8))) m
  else if a = 0x504 then Ec.edSign (slice c 0 32) m
  else Lattice.dsaSign (levelOf a) c ctx m rnd

/-- A verification under an encoded public key. -/
def verifyWith (a h pad : Nat) (pk ctx m sig : Bytes) : Bool :=
  if isRsa a then
    let len := rsaBits a / 8
    let n := rsaN a pk
    if n ≤ beNat sig then false
    else
      let em := beBytes len (powMod (beNat sig) (rsaE a pk) n)
      if pad = 1 then pssOk len h m em else em == pkcs1 len h m
  else if isEcc a then Ec.verifyEnc (curveOf a) pk m sig
  else if a = 0x504 then Ec.edVerify pk m sig
  else Lattice.dsaVerify (levelOf a) pk ctx m sig

/-! ### Shared secrets (R292) -/

/-- The secret of a key agreement, and the failure of one. -/
def agree (a : Nat) (c peer : Bytes) : Status × Bytes :=
  if isEcc a then
    let k := curveOf a
    if peer.length ≠ pubLen a then (.inputRange, [])
    else match Ec.decode k peer with
      | none => (.notOnCurve, [])
      | some q => (.ok, Ec.ecdh k (beAt c 0 k.len) q)
  else
    let z := Ec.x25519 (slice c 0 32) peer
    if allZero z then (.inputRange, []) else (.ok, z)

/-! ### The identity key pair (R63, R466) -/

/-- The secret bytes of half `k` of the identity key pair. -/
def identitySecret (k n : Nat) : Bytes := (List.range n).map (Config.identityByte k)

/-- The private scalar of the P-384 half. -/
def identityScalar : Nat := Ec.scalar Ec.p384 (identitySecret 0 56)

/-- The public key of the P-384 half. -/
def identityEc : Bytes := Ec.encode Ec.p384 (Ec.mul Ec.p384 identityScalar (Ec.base Ec.p384))

/-- The public and private keys of the ML-DSA-87 half. -/
def identityMl : Bytes × Bytes := Lattice.dsaKeyGen 3 (identitySecret 1 32)

end Sys2Proof.Machine
end

