-- ==== Sys2Proof/Machine/Tr31.lean ====
section
/-! DEFINITION. The transport forms of keys: ASC X9 TR-31 key blocks of versions B and D and the PKCS #8 structure inside them
(R208), as those standards define them (assumption 10). -/

namespace Sys2Proof.Machine

/-! ### Characters -/

/-- The character of a hexadecimal digit. -/
def hexChar (n : Nat) : Byte := byteOf (if n < 10 then 48 + n else 55 + n)

/-- Bytes as upper-case hexadecimal characters. -/
def toHex (b : Bytes) : Bytes := (nibbles b).map hexChar

/-- The value of a hexadecimal character. -/
def hexVal (c : Byte) : Option Nat :=
  let n := c.toNat
  if 48 ≤ n ∧ n ≤ 57 then some (n - 48) else if 65 ≤ n ∧ n ≤ 70 then some (n - 55)
  else if 97 ≤ n ∧ n ≤ 102 then some (n - 87) else none

/-- Bytes from hexadecimal characters, an even number of them. -/
def fromHex : Bytes → Option Bytes
  | [] => some []
  | [_] => none
  | a :: b :: r => match hexVal a, hexVal b, fromHex r with
    | some x, some y, some t => some (byteOf (16 * x + y) :: t)
    | _, _, _ => none

/-- The value of decimal characters. -/
def fromDec (b : Bytes) : Option Nat :=
  if b.all (fun c => decide (48 ≤ c.toNat ∧ c.toNat ≤ 57)) then some (digitsNat (b.map (fun c => c.toNat - 48))) else none

/-- A number as `n` decimal characters. -/
def toDec (n v : Nat) : Bytes := (decDigits n v).map (fun d => byteOf (48 + d))

/-! ### DER -/

/-- The length octets of DER. -/
def derLen (n : Nat) : Bytes :=
  if n < 128 then [byteOf n] else if n < 256 then [0x81#8, byteOf n] else 0x82#8 :: beBytes 2 n

/-- A tagged value. -/
def der (tag : Nat) (c : Bytes) : Bytes := byteOf tag :: derLen c.length ++ c

/-- A non-negative INTEGER. -/
def derInt (v : Nat) : Bytes := der 2 (beBytes (if v = 0 then 1 else Nat.log2 v / 8 + 1 + b2n (Nat.log2 v % 8 == 7)) v)

/-- Read one tagged value: its content and what follows. -/
def derGet (tag : Nat) (b : Bytes) : Option (Bytes × Bytes) :=
  if b.length < 2 ∨ byteAt b 0 ≠ tag then none
  else
    let l := byteAt b 1
    let (h, n) := if l < 128 then (2, l) else if l = 0x81 then (3, byteAt b 2) else if l = 0x82 then (4, beAt b 2 2) else (0, 0)
    if h = 0 ∨ b.length < h + n then none else some (slice b h n, b.drop (h + n))

/-- Read a run of INTEGERs, as many as there are. -/
def derInts : Nat → Bytes → List Nat
  | 0, _ => []
  | k + 1, b => match derGet 2 b with
    | none => []
    | some (v, r) => beNat v :: derInts k r

/-- The object identifier of an algorithm, and its curve parameter. -/
def oidOf (a : Nat) : Bytes :=
  let nist (n : Nat) : Bytes := der 6 [0x60#8, 0x86#8, 0x48#8, 0x01#8, 0x65#8, 0x03#8, 0x04#8, byteOf (n / 256), byteOf n]
  if isRsa a then der 6 [0x2A#8, 0x86#8, 0x48#8, 0x86#8, 0xF7#8, 0x0D#8, 0x01#8, 0x01#8, 0x01#8] ++ der 5 []
  else if isEcc a then
    der 6 [0x2A#8, 0x86#8, 0x48#8, 0xCE#8, 0x3D#8, 0x02#8, 0x01#8] ++
      (if a = 0x501 then der 6 [0x2A#8, 0x86#8, 0x48#8, 0xCE#8, 0x3D#8, 0x03#8, 0x01#8, 0x07#8]
       else der 6 [0x2B#8, 0x81#8, 0x04#8, 0x00#8, byteOf (if a = 0x502 then 0x22 else 0x23)])
  else if a = 0x504 then der 6 [0x2B#8, 0x65#8, 0x70#8]
  else if a = 0x505 then der 6 [0x2B#8, 0x65#8, 0x6E#8]
  else if isMldsa a then nist (0x0310 + levelOf a)
  else nist (0x0400 + levelOf a)

/-- The private key inside PKCS #8 (RFC 5958). -/
def pkcs8Key (a : Nat) (c : Bytes) : Bytes :=
  if isRsa a then
    let pk := rsaPub a false c
    let p := rsaPart a c 0
    let q := rsaPart a c 1
    let d := inv0 (rsaE a pk) (Nat.lcm (p - 1) (q - 1))
    der 0x30 (derInt 0 ++ derInt (rsaN a pk) ++ derInt (rsaE a pk) ++ derInt d ++ derInt p ++ derInt q ++
      derInt (rsaPart a c 2) ++ derInt (rsaPart a c 3) ++ derInt (rsaPart a c 4))
  else if isEcc a then
    let n := privLen a / 3
    der 0x30 (derInt 1 ++ der 4 (c.take n) ++ der 0xA1 (der 3 (0#8 :: publicOf a false c)))
  else if a = 0x504 ∨ a = 0x505 then der 4 (slice c 0 32)
  else der 4 c

/-- A PKCS #8 structure. -/
def pkcs8 (a : Nat) (c : Bytes) : Bytes := der 0x30 (derInt 0 ++ der 0x30 (oidOf a) ++ der 4 (pkcs8Key a c))

/-- The algorithms a PKCS #8 structure may name, but for RSA. -/
def fixedAlgs : List Nat := [0x501, 0x502, 0x503, 0x504, 0x505, 0x601, 0x602, 0x603, 0x701, 0x702, 0x703]

/-- The stored form of an RSA key from its nine integers. -/
def rsaFrom (l : List Nat) : Option (Nat × Bytes) :=
  let n := l.getD 1 0
  let p := l.getD 4 0
  let q := l.getD 5 0
  let b := Nat.log2 n + 1
  let a := 0x400 + (b / 64 - 1)
  if l.length = 9 ∧ b % 64 = 0 ∧ isRsa a ∧ p * q = n ∧ p < 2 ^ (b / 2) ∧ q < 2 ^ (b / 2) ∧ l.getD 2 0 < 2 ^ 32
  then some (a, rsaStore a p q (l.getD 2 0)) else none

/-- The stored form of any other key. -/
def keyFrom (a : Nat) (k : Bytes) : Option Bytes :=
  if isEcc a then
    let c := curveOf a
    match derGet 0x30 k with
    | none => none
    | some (s, _) => match derGet 2 s with
      | none => none
      | some (_, r) => match derGet 4 r with
        | none => none
        | some (d, _) =>
          if d.length = c.len ∧ 1 ≤ beNat d ∧ beNat d < c.n
          then some (d ++ (Ec.encode c (Ec.mul c (beNat d) (Ec.base c))).drop 1) else none
  else match derGet 4 k with
    | none => none
    | some (s, _) =>
      if a = 0x504 ∧ s.length = 32 then some (s ++ Ec.edPub s)
      else if a = 0x505 ∧ s.length = 32 then some (s ++ Ec.x25519 s Ec.u9)
      else if (isMldsa a || isMlkem a) && s.length == privLen a then some s else none

/-- The algorithm and the stored form of the key a PKCS #8 structure holds. -/
def fromPkcs8 (b : Bytes) : Option (Nat × Bytes) :=
  match derGet 0x30 b with
  | none => none
  | some (s, _) => match derGet 2 s with
    | none => none
    | some (_, r) => match derGet 0x30 r with
      | none => none
      | some (oid, t) => match derGet 4 t with
        | none => none
        | some (k, _) =>
          if oid = oidOf 0x41F then match derGet 0x30 k with
            | none => none
            | some (ints, _) => rsaFrom (derInts 9 ints)
          else match fixedAlgs.find? (fun a => oidOf a == oid) with
            | none => none
            | some a => (keyFrom a k).map (fun c => (a, c))

/-! ### Key blocks -/

/-- Version B under TDES, version D under AES. -/
def tr31Block (d : Bool) : Nat := if d then 16 else 8

/-- Length of a block's MAC. -/
def tr31Mac (d : Bool) : Nat := if d then 16 else 8

/-- One of the two keys the KBPK gives: 0 for encryption, 1 for the MAC. -/
def tr31Derive (kbpk : Cipher) (use : Nat) : Bytes :=
  let n := kbpk.key.length
  let alg := if kbpk.aes then (if n = 16 then 2 else if n = 24 then 3 else 4) else (if n = 16 then 0 else 1)
  ((List.range (ceilDiv n kbpk.block)).map (fun i =>
    cmac kbpk ([byteOf (i + 1)] ++ beBytes 2 use ++ [0#8] ++ beBytes 2 alg ++ beBytes 2 (8 * n)))).flatten.take n

/-- The algorithm letter of a header. -/
def algLetter (a : Nat) : Byte :=
  if isAes a then 0x41#8 else if isTdes a then 0x54#8 else if isHmac a then 0x48#8 else if isRsa a then 0x52#8
  else if isEcc a then 0x45#8 else Config.tr31Letter a

/-- The algorithm code of an unwrapped symmetric key. -/
def algFrom (letter : Byte) (key : Bytes) : Option Nat :=
  let n := key.length
  if letter = 0x41#8 then (if n = 16 then some 0x210 else if n = 24 then some 0x218 else if n = 32 then some 0x220 else none)
  else if letter = 0x54#8 then (if n = 16 then some 0x110 else if n = 24 then some 0x118 else none)
  else if letter = 0x48#8 then (if 16 ≤ n ∧ n ≤ 255 then some (0x300 + n) else none)
  else none

/-- The KC block's content: which check value, and the value. -/
def kcData (a : Nat) (kcv : Bytes) : Bytes :=
  if isTdes a then ascii "00" ++ toHex (slice kcv 0 3) else ascii "01" ++ toHex (slice kcv 0 5)

/-- An optional block. -/
def optBlock (id : String) (data : Bytes) : Bytes := ascii id ++ toHex [byteOf (data.length + 4)] ++ data

/-- The PB block that fills the optional blocks up, if one is needed. -/
def padBlock (blk len : Nat) : Bytes :=
  let r := (blk - len % blk) % blk
  if r = 0 then [] else optBlock "PB" (List.replicate ((if r < 4 then r + blk else r) - 4) 0x30#8)

/-- The greatest length of a key of the same kind, which the padding hides up to. -/
def maxKeyLen (a len : Nat) : Nat := if isTdes a then 24 else if isAes a then 32 else if isHmac a then 255 else len

/-- The bytes a key field takes: length, key and padding. -/
def fieldLen (d : Bool) (a len : Nat) : Nat :=
  let n := tr31Block d
  ceilDiv (2 + maxKeyLen a len) n * n

/-- The key bytes a block carries. -/
def tr31Key (r : Rec) : Bytes := if isSym r.alg then r.material else pkcs8 r.alg r.material

/-- Encrypt a block. -/
def tr31Wrap (kbpk : Cipher) (head field : Bytes) : Bytes :=
  let m := cmac { kbpk with key := tr31Derive kbpk 1 } (head ++ field)
  head ++ toHex (cbcEnc { kbpk with key := tr31Derive kbpk 0 } m field) ++ toHex m

/-- The header of an exported key, its optional blocks included. -/
def tr31Header (d : Bool) (r : Rec) : Bytes :=
  let kc := optBlock "KC" (kcData r.alg r.kcv)
  let pb := padBlock (tr31Block d) kc.length
  let opts := kc ++ pb
  let total := 16 + opts.length + 2 * (fieldLen d r.alg (tr31Key r).length + tr31Mac d)
  [if d then 0x44#8 else 0x42#8] ++ toDec 4 total ++ beBytes 2 r.usage ++ [algLetter r.alg] ++ [byteOf r.mode] ++
    beBytes 2 r.version ++ [byteOf r.expo] ++ toDec 2 (1 + b2n (!pb.isEmpty)) ++ ascii "00" ++ opts

/-- Random bytes an exported block takes as padding. -/
def tr31Fill (d : Bool) (r : Rec) : Nat :=
  let k := tr31Key r
  fieldLen d r.alg k.length - 2 - k.length

/-- A key block (R208). -/
def tr31Export (kbpk : Cipher) (r : Rec) (fill : Bytes) : Bytes :=
  let k := tr31Key r
  tr31Wrap kbpk (tr31Header kbpk.aes r) (beBytes 2 (8 * k.length) ++ k ++ fill)

/-- One optional block read: its identifier, its content, and what follows. -/
def takeOpt (b : Bytes) : Option (Bytes × Bytes × Bytes) :=
  match fromHex (slice b 2 2) with
  | none => none
  | some l =>
    let n := byteAt l 0
    if n < 4 ∨ b.length < n then none else some (slice b 0 2, slice b 4 (n - 4), b.drop n)

/-- The optional blocks of a header, and what follows them. -/
def takeOpts : Nat → Bytes → Option (List (Bytes × Bytes) × Bytes)
  | 0, b => some ([], b)
  | k + 1, b => match takeOpt b with
    | none => none
    | some (id, v, r) => (takeOpts k r).map (fun (l, t) => ((id, v) :: l, t))

/-- The optional blocks the module accepts (R208). -/
def optIds : List Bytes := ["KC", "KP", "PB", "TS", "IK", "HM"].map ascii

/-- A key block taken apart. -/
structure Tr31 where
  aes    : Bool
  head   : Bytes
  usage  : Nat
  letter : Byte
  mode   : Nat
  vers   : Nat
  expo   : Nat
  opts   : List (Bytes × Bytes)
  enc    : Bytes
  mac    : Bytes
  deriving DecidableEq, Repr

/-- Read a key block; none where its header is malformed or names what the module does not accept (R208). -/
def tr31Read (b : Bytes) : Option Tr31 :=
  let d := byteAt b 0 == 0x44
  let n := tr31Block d
  match fromDec (slice b 1 4), fromDec (slice b 12 2) with
  | some len, some cnt =>
    if b.length < 16 ∨ (byteAt b 0 ≠ 0x42 ∧ byteAt b 0 ≠ 0x44) ∨ len ≠ b.length ∨ slice b 14 2 ≠ ascii "00" then none
    else match takeOpts cnt (b.drop 16) with
      | none => none
      | some (opts, rest) =>
        let head := b.take (b.length - rest.length)
        let body := fromHex rest
        match body with
        | none => none
        | some y =>
          let k := y.length - tr31Mac d
          if !opts.all (fun o => optIds.contains o.1) || (head.length - 16) % n != 0 || y.length < n + tr31Mac d || k % n != 0
          then none
          else some ⟨d, head, beAt b 5 2, b.getD 7 0#8, byteAt b 8, beAt b 9 2, byteAt b 11, opts, y.take k, y.drop k⟩
  | _, _ => none

/-- The key field of a block, if its MAC verifies. -/
def tr31Open (kbpk : Cipher) (t : Tr31) : Option Bytes :=
  let field := cbcDec { kbpk with key := tr31Derive kbpk 0 } t.mac t.enc
  if cmac { kbpk with key := tr31Derive kbpk 1 } (t.head ++ field) = t.mac then some field else none

/-- The algorithm and the stored form of the key a field carries. -/
def tr31Content (t : Tr31) (field : Bytes) : Option (Nat × Bytes) :=
  let bitsLen := beAt field 0 2
  let n := bitsLen / 8
  if bitsLen % 8 ≠ 0 ∨ field.length < 2 + n then none
  else
    let k := slice field 2 n
    if t.letter = 0x41#8 ∨ t.letter = 0x54#8 ∨ t.letter = 0x48#8 then (algFrom t.letter k).map (fun a => (a, k))
    else if !t.aes then none
    else match fromPkcs8 k with
      | none => none
      | some (a, c) => if algLetter a = t.letter then some (a, c) else none

/-- Every KC block agrees with the key's check value. -/
def tr31KcOk (t : Tr31) (a : Nat) (kcv : Bytes) : Bool :=
  t.opts.all (fun o => o.1 != ascii "KC" || o.2 == kcData a kcv)

end Sys2Proof.Machine
end

