-- ==== Sys2Proof/Machine/Work.lean ====
section
/-! DEFINITION. How much work an operation is: its F-cycles and P-cycles, and the blocks its units process (R170, R229, R245, R256,
R298, R301, R302, R318, R344, R355, R362). -/

namespace Sys2Proof.Machine

/-- Work of one descriptor. `haes` and `hdes` are the operations among `aes` and `des` that run in hardened mode; `freeNs` bounds a
time the spec leaves open, in ns; `freeP` bounds P-cycles it leaves open. -/
structure Work where
  f      : Nat := 0
  p      : Nat := 0
  aes    : Nat := 0
  des    : Nat := 0
  haes   : Nat := 0
  hdes   : Nat := 0
  hash   : Nat := 0
  freeNs : Nat := 0
  freeP  : Nat := 0
  deriving DecidableEq, Repr

/-- The record bound at a position. -/
def Slot.key (x : Slot) (pos : Nat) : Option Rec := (x.keys.find? (fun k => k.pos == pos)).map (·.rcd)

/-- The algorithm of the key bound at a position, 0 where none is. -/
def Slot.alg (x : Slot) (pos : Nat) : Nat := ((x.key pos).map (·.alg)).getD 0

/-- Latency of one block operation (R301). -/
@[noinline] def aLat (a : Nat) : Nat :=
  if a = 0x210 then 11 else if a = 0x218 then 13 else if a = 0x220 then 15 else 49

/-- The leg of a PIN block format (R229). -/
@[noinline] def legF (f a : Nat) : Nat :=
  if f = 4 then (if a = 0x210 then 23 else if a = 0x218 then 27 else 31) else 50

/-- Work of a leg. -/
@[noinline] def legW (f a : Nat) : Work := if f = 4 then { f := legF f a, aes := 2 } else { f := legF f a, des := 1 }

/-- Work added up. -/
@[noinline] def Work.add (a b : Work) : Work :=
  ⟨a.f + b.f, a.p + b.p, a.aes + b.aes, a.des + b.des, a.haes + b.haes, a.hdes + b.hdes, a.hash + b.hash, a.freeNs + b.freeNs,
   a.freeP + b.freeP⟩

/-- Work whose operations run in hardened mode or not (R310). -/
@[noinline] def Work.hard (w : Work) (b : Bool) : Work := if b then { w with haes := w.aes, hdes := w.des } else w

/-- Blocks of a message after ISO 9797-1 padding (R237). -/
@[noinline] def isoBlocks (pad len : Nat) : Nat :=
  if pad = 1 then max 1 (ceilDiv len 8) else if pad = 2 then len / 8 + 1 else max 1 (ceilDiv len 8) + 1

/-- Work of a MAC over `len` bytes under a key of algorithm `a` (R256). -/
@[noinline] def macWork (m : MacSpec) (a len : Nat) : Work :=
  let n := isoBlocks m.padding len
  if m.alg = 1 then { f := 8 + 49 * n, des := n }
  else if m.alg = 3 then { f := 42 + 17 * n, des := n + 2 }
  else if m.alg = 5 then
    let k := max 1 (ceilDiv len (if isAes a then 16 else 8))
    if isAes a then { f := 8 + aLat a * (k + 1), aes := k + 1 } else { f := 8 + 49 * (k + 1), des := k + 1 }
  else if m.alg = 6 then
    let k := ceilDiv (len + 9) 64
    { f := 8 + 65 * (k + 2), hash := k + 2 }
  else
    let k := ceilDiv (len + 17) 128
    { f := 8 + 81 * (k + 2), hash := k + 2 }

/-- Bytes a MAC opcode covers. -/
@[noinline] def macBytes (d : Bytes) : Nat := if (macSpec (dP0 d)).source then dSrcLen d else (macSpec (dP0 d)).inlen

/-- Work of deriving a DUKPT working key from a base key, or from an initial key (R245). -/
@[noinline] def dkWorkOf (a h : Nat) (fromInitial : Bool) : Work :=
  let k := if fromInitial then h + 1 else h + 2
  if a = 0x210 then { f := 12 * k, aes := k }
  else if a = 0x218 then { f := 15 * k, aes := 2 * k }
  else if a = 0x220 then { f := 17 * k, aes := 2 * k }
  else if fromInitial then { f := 1 + 19 * h, des := 2 * h } else { f := 51 + 19 * h, des := 2 * h + 2 }

/-- The transaction counter of a KSN at bytes 80 to 91 (R244). -/
@[noinline] def ksnCounter (d : Bytes) : Nat := if dkTdes d then beAt d 80 10 % 2 ^ 21 else beAt d 88 4

/-- A working key's algorithm code (R243). -/
@[noinline] def dkWorkAlg (d : Bytes) : Nat :=
  match dkWork d with
  | 0 => 0x110
  | 1 => 0x118
  | 2 => 0x210
  | 3 => 0x218
  | _ => 0x220

/-- Work of one EMV derivation step (R298). -/
@[noinline] def emvStep (a : Nat) : Work :=
  if a = 0x210 then { f := 12, aes := 1 } else if a = 0x218 then { f := 14, aes := 2 } else if a = 0x220 then { f := 16, aes := 2 }
  else { f := 50, des := 2 }

/-- Work of deriving the EMV session key, the fixed phases included. -/
@[noinline] def emvDerive (a : Nat) (sessionMode : Bool) : Work :=
  let w := Work.add { f := 16 } (emvStep a)
  if sessionMode then w else w.add (emvStep a)

/-- Work of deriving the EMV session key for a script opcode, whose rows have no shorter SESSION_MODE 1 form (R298). -/
@[noinline] def emvScript (a : Nat) (sessionMode : Bool) : Work := { emvDerive a sessionMode with f := (emvDerive a false).f }

/-- Work of the EMV MAC over `len` bytes: algorithm 3 or CMAC, less the 8 fixed F-cycles (R298). -/
@[noinline] def emvMacWork (a len : Nat) : Work :=
  let w := if isAes a then macWork ⟨5, 0, 8, 0, false⟩ a len else macWork ⟨3, 2, 8, 0, false⟩ a len
  { w with f := w.f - 8 }

/-- Work of the ARPC (R298). -/
@[noinline] def arpcWork (a method pad : Nat) : Work :=
  if method = 0 then {} else if method = 1 then (if isAes a then { f := aLat a, aes := 1 } else { f := 49, des := 1 })
  else emvMacWork a (12 + pad)

/-- Hash blocks of a message under a HASH value, and the F-cycles of each (R318). -/
@[noinline] def hashWork (h len : Nat) : Work :=
  let w (c m : Nat) : Work := { f := 8 + c * m, hash := m }
  match h with
  | 1 => w 65 (ceilDiv (len + 9) 64)
  | 2 => w 81 (ceilDiv (len + 17) 128)
  | 3 => w 81 (ceilDiv (len + 17) 128)
  | 4 => w 25 (len / 136 + 1)
  | 5 => w 25 (len / 104 + 1)
  | 6 => w 25 (len / 72 + 1)
  | _ => {}

/-- Blocks of a CMAC over `len` bytes, the one that gives its subkeys included (R256). -/
@[noinline] def cmacBlocks (aes : Bool) (len : Nat) : Nat := max 1 (ceilDiv len (if aes then 16 else 8)) + 1

/-- Block operations under a key of algorithm `a`. -/
@[noinline] def blockOps (a n : Nat) : Work := if isAes a then { aes := n } else { des := n }

/-- Work of a key check value: a CMAC of one block, one encryption, or SHA-256 of `len` bytes (R170). -/
@[noinline] def kcvWork (a len : Nat) : Work :=
  if isAes a then { aes := 2 } else if isTdes a then { des := 1 } else { hash := ceilDiv (len + 9) 64 }

/-- Hash blocks of the KDF of R146 over a label of `label` and a context of `ctx` bytes, for `len` bytes of output (R146, R318). -/
@[noinline] def kdfBlocks (label ctx len : Nat) : Nat := ceilDiv len 48 * (ceilDiv (4 + label + 1 + ctx + 4 + 17) 128 + 2)

/-- F-cycles of `n` blocks: a chained mode waits for each, and the others put one in per F-cycle (R301, R302). -/
@[noinline] def modeTime (chained : Bool) (a n : Nat) : Nat := if chained then n * aLat a else if n = 0 then 0 else n - 1 + aLat a

/-! ### Hawkmoth and Plume times -/

/-- Chunks of an operand of `n` words (R328). -/
@[noinline] def chunksOf (n : Nat) : Nat := ceilDiv n 4

/-- One multiplication within an exponentiation (R344). -/
@[noinline] def mulTime (n : Nat) : Nat := 2 * chunksOf n ^ 2 + 8

/-- A fixed-window exponentiation (R344). -/
@[noinline] def windowTime (n ne : Nat) : Nat := chunksOf n + 3 + (64 * ne + ceilDiv (64 * ne) 5 + 34) * mulTime n + 20

/-- A binary exponentiation by a public exponent (R344). -/
@[noinline] def binaryTime (n e : Nat) : Nat := chunksOf n + 3 + (Nat.log2 e + 1 + popcount 64 e) * mulTime n + 20

/-- An RSA private operation of modulus k bits (R355); elsewhere than at the sizes listed, four half exponentiations and
at most 1 % more. -/
@[noinline] def rsaPrivate (k : Nat) : Work :=
  let t := 4 * windowTime (ceilDiv k 128) (ceilDiv k 128 + 1)
  if k = 2048 then { p := 216000 } else if k = 3072 then { p := 628000 } else if k = 4096 then { p := 1403000 }
  else if k = 8192 then { p := 10465000 } else if k = 16384 then { p := 81800000 }
  else { p := t, freeP := t / 100 }

/-- A modular inversion of n words (R344). -/
@[noinline] def invTime (n : Nat) : Nat := chunksOf n + 3 + (128 * n + 64) * chunksOf n + 20

/-- An RSA public operation (R352). -/
@[noinline] def rsaPublic (k e : Nat) : Nat := if e < 2 ^ 64 then binaryTime (k / 64) e else windowTime (k / 64) 1

/-- A private signature or agreement (R355, R362). -/
@[noinline] def privateTime (a : Nat) : Work :=
  if isRsa a then rsaPrivate (rsaBits a)
  else if a = 0x501 then { p := 37200 } else if a = 0x502 then { p := 101200 } else if a = 0x503 then { p := 252000 }
  else if a = 0x504 then { p := 32400 } else if a = 0x505 then { p := 31200 }
  else if a = 0x601 then { p := 2 * 5200, freeP := 2 ^ 62 } else if a = 0x602 then { p := 2 * 7000, freeP := 2 ^ 62 }
  else if a = 0x603 then { p := 2 * 9600, freeP := 2 ^ 62 }
  else if a = 0x701 then { p := 12800 } else if a = 0x702 then { p := 17600 } else if a = 0x703 then { p := 23200 } else {}

/-- P-cycles of one rejection iteration of ML-DSA signing (R362), 1 elsewhere. -/
@[noinline] def iterTime (a : Nat) : Nat :=
  if a = 0x601 then 2 * 4400 else if a = 0x602 then 2 * 6000 else if a = 0x603 then 2 * 8100 else 1

/-- A public verification or encapsulation (R355, R362). -/
@[noinline] def publicTime (a e : Nat) : Work :=
  if isRsa a then { p := rsaPublic (rsaBits a) e }
  else if a = 0x501 then { p := 21600 } else if a = 0x502 then { p := 59400 } else if a = 0x503 then { p := 148000 }
  else if a = 0x504 then { p := 20400 }
  else if a = 0x601 then { p := 10200 } else if a = 0x602 then { p := 14000 } else if a = 0x603 then { p := 22000 }
  else if a = 0x701 then { p := 5600 } else if a = 0x702 then { p := 7800 } else if a = 0x703 then { p := 10400 } else {}

/-- A key-pair generation (R355, R362); the prime search of RSA and the pairs of P-384 and P-521 have no stated time. -/
@[noinline] def pairTime (a : Nat) : Work :=
  if a = 0x501 ∨ a = 0x504 ∨ a = 0x505 then { p := 31200 }
  else if a = 0x601 then { p := 24000 } else if a = 0x602 then { p := 36000 } else if a = 0x603 then { p := 52000 }
  else if a = 0x701 then { p := 9600 } else if a = 0x702 then { p := 13800 } else if a = 0x703 then { p := 18800 }
  else { freeP := 2 ^ 62 }

end Sys2Proof.Machine
end

