-- ==== Sys2Proof/Machine/OpWork.lean ====
section
/-! DEFINITION. The work of each opcode, the units its steps run on, and the randomness it needs before it starts (R26, R34, R170, R205
to R210, R225, R235, R281, R282, R298, R310, R311, R318, R353, R359, R380). -/

namespace Sys2Proof.Machine

/-! ### The work of each opcode -/

/-- FF1: operations per round and the latency (R281). -/
@[noinline] def ff1Work (d : Bytes) (a : Nat) : Work :=
  let (len, lead, trail, chk) := ff1Shape d
  let n := len - lead - trail - chk
  let v := n - n / 2
  let t := ff1Tweak d + (if ff1Counter d then 8 else 0)
  let b := ceilDiv (Nat.log2 (10 ^ v - 1) + 1) 8
  let r := 1 + ceilDiv (t + b + 1) 16
  { f := 16 + 10 * (r * aLat a + 6), aes := 10 * r }

/-- Whether a descriptor checks and commits an ATC (R264, R276). -/
def atcMode (d : Bytes) : Bool :=
  (opcode d == 0x501 && bit (dP0 d) 2) || (opcode d == 0x510 && bit (dP0 d) 10)

/-- Bulk work: the blocks of the payload at the pace of its mode, with the H and J0 blocks of GCM; what host and DRAM transfers add is
left open (R282, R302, R303). -/
@[noinline] def bulkWork (d : Bytes) (a : Nat) : Work :=
  let mode := bits (dP0 d) 3 0
  let n := ceilDiv (dSrcLen d - dP1 d) (if isAes a then 16 else 8)
  { blockOps a (n + if mode = 3 then 2 else 0) with
    f := modeTime (mode == 1 && opcode d == 0x701) a n + b2n (mode == 3), freeNs := 2 ^ 62 }

/-- Whether the operations under the key at a position, and under keys derived from it, run in hardened mode (R310, R311). -/
def Slot.hardAt (x : Slot) (pos : Nat) : Bool := dHarden x.desc || ((x.key pos).map (·.hardened)).getD false

/-- Whether the key a descriptor creates has HARDENED (R204, R208). -/
def Slot.newHard (x : Slot) : Bool :=
  let d := x.desc
  if opcode d = 0x104 then dHarden d || (if bit (dP0 d) 3 then x.hardDef else bit (dP0 d) 2)
  else
    let h := (readTemplate (dOps d)).hardened
    dHarden d || (if h = 0xFF then x.hardDef else h == 1)

/-- Work of the check value of a new key: it runs under that key (R170, R310). -/
def Slot.kcv (x : Slot) (a len : Nat) : Work := (kcvWork a len).hard x.newHard

/-- Work of forming the two block keys of a key block, its MAC and its cipher over a head and a field (R208, R311). -/
@[noinline] def tr31Work (a head field : Nat) : Work :=
  let aes := isAes a
  let blk := if aes then 16 else 8
  blockOps a (2 * (cmacBlocks aes 8 * ceilDiv (symLen a) blk) + cmacBlocks aes (head + field) + field / blk)

/-- Work of reading a key block, as far as its checks let it go (R208). -/
def importWork (x : Slot) : Work :=
  match tr31Read (x.src.getD []) with
  | none => {}
  | some b =>
    if b.aes ≠ isAes (x.alg 1) then {}
    else
      let w := (tr31Work (x.alg 1) b.head.length b.enc.length).hard (x.hardAt 1)
      match (tr31Open ⟨b.aes, ((x.key 1).map (·.material)).getD []⟩ b).bind (tr31Content b) with
      | none => w
      | some (a, m) => w.add (x.kcv a (if isSym a then m.length else pubLen a))

/-- Work of writing a key block (R208). -/
def exportWork (x : Slot) : Work :=
  match x.key 2 with
  | none => {}
  | some r =>
    let aes := isAes (x.alg 1)
    (tr31Work (x.alg 1) (tr31Header aes r).length (fieldLen aes r.alg (tr31Key r).length)).hard (x.hardAt 1)

/-- Block operations of a key wrap of `n` bytes: the single-block form for at most 8 (R209). -/
def wrapBlocks (n : Nat) : Nat := if n ≤ 8 then 1 else 6 * ceilDiv n 8

/-- Work of a KDF from a shared secret, and of the check value of the key it gives (R294). -/
def secretWork (x : Slot) (label ctx : Nat) : Work :=
  let a := (readTemplate (dOps x.desc)).alg
  Work.add (if bit (dP0 x.desc) 0 then {} else { hash := kdfBlocks label ctx (symLen a) }) (x.kcv a (symLen a))

/-- Work of the opcodes that create or carry keys; the spec states no time for those that run on lanes and hash units (R205 to R210,
R249, R292 to R294). -/
def keyWork (x : Slot) : Work :=
  let d := x.desc
  let a := (readTemplate (dOps d)).alg
  let a1 := x.alg 1
  let open_ (w : Work) : Work := { w with freeNs := 2000 }
  match opcode d with
  | 0x101 => open_ (x.kcv a (symLen a))
  | 0x102 => (pairTime a).add { hash := (kcvWork 0 (pubLen a)).hash }
  | 0x103 => open_ (Work.add (Work.hard { aes := ceilDiv (symLen a) 16 * cmacBlocks true 48 } (x.hardAt 1)) (x.kcv a (symLen a)))
  | 0x104 => open_ (importWork x)
  | 0x105 => open_ (Work.add (Work.hard { aes := wrapBlocks (dSrcLen d - 8) } (x.hardAt 1)) (x.kcv a (symLen a)))
  | 0x106 => open_ (exportWork x)
  | 0x107 => open_ (Work.hard { aes := wrapBlocks (((x.key 2).map (fun r => r.material.length)).getD 0) } (x.hardAt 1))
  | 0x10C => open_ { hash := (kcvWork 0 (dSrcLen d)).hash }
  | 0x405 => Work.add (Work.hard { dkWorkOf a1 0 true with f := 0, freeNs := 2 ^ 62 } (x.hardAt 1)) (x.kcv a1 (symLen a1))
  | 0x803 => (privateTime a1).add (secretWork x 9 (pubLen a1 + (if a1 = 0x505 then 32 else dSrcLen d)))
  | 0x804 => ((publicTime a1 3).add { hash := ceilDiv (ctLen a1 + 17) 128 }).add (secretWork x 7 48)
  | 0x805 => ((privateTime a1).add { hash := ceilDiv (ctLen a1 + 17) 128 }).add (secretWork x 7 48)
  | _ => {}

/-- Work of a descriptor whose keys are bound; `src` is its source data (R229, R256, R281, R298, R310). -/
def workOf (x : Slot) : Work :=
  let d := x.desc
  let p0 := dP0 d
  let fin := bits p0 3 0
  let fout := bits p0 7 4
  let a1 := x.alg 1
  let a2 := x.alg 2
  let h1 := x.hardAt 1
  let h2 := x.hardAt 2
  let m := macSpec p0
  let h := popcount 32 (ksnCounter d)
  let fixed : Work := { f := 16 }
  let src := x.src.getD []
  match opcode d with
  | 0x201 => (fixed.add ((legW fin a1).hard h1)).add ((legW fout a2).hard h2)
  | 0x202 => (Work.hard { f := 69, des := 1 } h2).add ((legW fin a1).hard h1)
  | 0x203 => (Work.hard { f := 69, des := 1 } h2).add ((legW fin a1).hard h1)
  | 0x204 =>
    let l := (legW fin a1).hard h1
    if dKey d 2 = 0 then { l with f := 14 + l.f }
    else { l.add (Work.hard { des := 1 } h2) with f := 14 + max l.f 53 }
  | 0x205 =>
    let l := (legW fin a1).hard h1
    let k := if bit p0 16 || bits p0 11 8 != 0 then 1 else 2
    ((Work.hard { f := 73, des := k } h2).add l).add (if bit p0 16 then {} else { l with f := 0 })
  | 0x301 => (macWork m a1 (macBytes d)).hard h1
  | 0x302 => (macWork m a1 (macBytes d)).hard h1
  | 0x303 =>
    let w := ((macWork m a1 (macBytes d)).hard h1).add ((macWork (macSpec (dP1 d)) a2 (macBytes d)).hard h2)
    { w with f := w.f - 8 }
  | 0x311 => Work.hard { f := 81, des := 4 } h1
  | 0x312 => Work.hard { f := 81, des := 4 } h1
  | 0x401 => ((fixed.add ((dkWorkOf a1 h false).hard h1)).add ((legW fin (dkWorkAlg d)).hard h1)).add ((legW fout a2).hard h2)
  | 0x402 => ((dkWorkOf a1 h false).add (macWork m (dkWorkAlg d) (macBytes d))).hard h1
  | 0x403 => ((dkWorkOf a1 h false).add (macWork m (dkWorkAlg d) (macBytes d))).hard h1
  | 0x404 =>
    let n := dSrcLen d / (if dkWorkAes d then 16 else 8)
    ((dkWorkOf a1 h false).add { blockOps (dkWorkAlg d) n with f := modeTime (!bit p0 0) (dkWorkAlg d) n, freeNs := 2 ^ 62 }).hard h1
  | 0x406 =>
    ((fixed.add ((dkWorkOf a1 (popcount 32 x.ctr) true).hard h1)).add ((legW fin a2).hard h2)).add
      ((legW fout (dkWorkAlg d)).hard h1)
  | 0x407 => ((dkWorkOf a1 (popcount 32 x.ctr) true).add (macWork m (dkWorkAlg d) (macBytes d))).hard h1
  | 0x501 =>
    let len := if bit p0 7 then dSrcLen d else bits p0 15 8
    ((((emvDerive a1 (bit p0 3)).add (emvMacWork a1 len)).add (arpcWork a1 (bits p0 1 0) (bits p0 6 4))).hard h1).add
      { hash := b2n (atcMode d) }
  | 0x502 => ((emvScript a1 (bit p0 3)).add (emvMacWork a1 (if bit p0 7 then dSrcLen d else bits p0 15 8))).hard h1
  | 0x503 =>
    let n := dSrcLen d / (if isAes a1 then 16 else 8) + 1
    ((emvScript a1 (bit p0 3)).add { blockOps a1 n with f := n * aLat a1 }).hard h1
  | 0x504 =>
    let n := if isAes a1 then 1 else 2
    (((emvScript a1 (bit p0 4)).add { blockOps a1 n with f := n * aLat a1 }).hard h1).add
      ((legW fin a2).hard h2)
  | 0x510 =>
    let arq := Work.add { hash := b2n (atcMode d) } <| (((emvDerive a1 (bit p0 11)).add (emvMacWork a1 (leAt src 54 2))).add (arpcWork a1 (bits p0 9 8) 0)).hard h1
    ((arq.add ((legW fin a2).hard h2)).add ((legW fout a2).hard h2)).add
      ((macWork (macSpec (dP1 d)) (x.alg 3) (leAt src 56 2 + (if bits p0 9 8 = 1 then 8 else 4))).hard (x.hardAt 3))
  | 0x601 => (ff1Work d a1).hard h1
  | 0x602 => (ff1Work d a1).hard h1
  | 0x701 => (bulkWork d a1).hard h1
  | 0x702 => (bulkWork d a1).hard h1
  | 0x801 =>
    let w := privateTime a1
    if sPre d then w else w.add (hashWork (sHash d) (if dSrc d = 0 then sInl d else dSrcLen d))
  | 0x802 =>
    let e := match x.key 1 with
      | none => 3
      | some r => beNat (r.material.drop (r.material.length - 4))
    let w := publicTime a1 e
    if sPre d then w else w.add (hashWork (sHash d) (dSrcLen d - sigLen a1))
  | 0xA01 => { freeNs := 2 ^ 62 }
  | 0xA02 => { freeNs := 2 ^ 62 }
  | 0x000 => {}
  | 0x108 => { freeNs := 2000 }
  | 0x109 => { freeNs := 2000 }
  | 0x10A => { freeNs := 2000 }
  | 0x10B => { freeNs := 2000 }
  | 0x10D => { freeNs := 2000 }
  | _ => keyWork x

/-- The unit classes a descriptor's steps run on, in order (R26, R34, R318, R330): key check values run on the unit of their algorithm,
and an ATC lookup takes SHA-256 first. -/
def stepsOf (x : Slot) : List UnitClass :=
  let d := x.desc
  let a1 := x.alg 1
  let mac (m : MacSpec) : List UnitClass := if 6 ≤ m.alg then [.hash] else [.skipper]
  let tpl := leAt d 32 2
  let pk (a : Nat) : List UnitClass := if isMldsa a || isMlkem a then [.plume] else [.hawkmoth]
  let kcv (a : Nat) : List UnitClass := if isTdes a || isAes a then [.skipper] else [.hash]
  let letter := byteAt (x.src.getD []) 7
  let kdf : List UnitClass := if bit (dP0 d) 0 then [] else [.hash]
  let lookup : List UnitClass := if atcMode d then [.hash] else []
  match opcode d with
  | 0x101 => kcv tpl
  | 0x102 => pk tpl ++ [.hash]
  | 0x103 => if isHmac tpl then [.skipper, .hash] else [.skipper]
  | 0x104 => if letter = 0x41 ∨ letter = 0x54 then [.skipper] else [.skipper, .hash]
  | 0x105 => if isHmac tpl then [.skipper, .hash] else [.skipper]
  | 0x106 => [.skipper]
  | 0x107 => [.skipper]
  | 0x10C => [.hash]
  | 0x301 => mac (macSpec (dP0 d))
  | 0x302 => mac (macSpec (dP0 d))
  | 0x303 => (mac (macSpec (dP0 d)) ++ mac (macSpec (dP1 d))).dedup
  | 0x501 => lookup ++ [.skipper]
  | 0x510 => lookup ++ (if 6 ≤ (macSpec (dP1 d)).alg then [.skipper, .hash] else [.skipper])
  | 0x801 => (if sPre d || sHash d == 0 then [] else [.hash]) ++ pk a1
  | 0x802 => (if sPre d || sHash d == 0 then [] else [.hash]) ++ pk a1
  | 0x803 => pk a1 ++ (kdf ++ kcv tpl).dedup
  | 0x804 => [.plume] ++ (UnitClass.hash :: kcv tpl).dedup
  | 0x805 => [.plume] ++ (UnitClass.hash :: kcv tpl).dedup
  | op =>
    if decide (0x201 ≤ op ∧ op ≤ 0x702) then [.skipper]
    else if isRaw op && op != 0x901 && op != 0x90B then [.hawkmoth] else []

/-! ### Randomness a descriptor needs before it starts (R34, R225, R235, R282, R353, R380) -/

/-- Bytes taken from the partition's staging buffer. -/
def stagedNeed (x : Slot) : Nat :=
  let d := x.desc
  let fill (f : Nat) : Nat := if f = 1 then 8 else if f = 3 then 32 else if f = 4 then 8 else 0
  let p0 := dP0 d
  match opcode d with
  | 0x201 => fill (bits p0 7 4)
  | 0x106 => (x.key 2).elim 0 (tr31Fill (isAes (x.alg 1)))
  | 0x204 => 16 + fill (bits p0 3 0)
  | 0x401 => fill (bits p0 7 4)
  | 0x406 => fill (bits p0 7 4)
  | 0x510 => fill (bits p0 7 4)
  | 0x701 => if bit p0 4 then (if bits p0 3 0 = 3 then 12 else 16) else 0
  | 0x801 =>
    let a := x.alg 1
    if isEcc a then 2 * (sigLen a / 2 + 8)
    else if isMldsa a then 32
    else if isRsa a && bits p0 6 5 == 1 then hashLen (sHash d) else 0
  | _ => 0

/-- Whether the descriptor takes key material by a generate request of its own (R380). -/
def keyNeed (d : Bytes) : Bool := opcode d == 0x101 || opcode d == 0x102 || opcode d == 0x804

/-- The bytes of key material it takes so (R205, R293). -/
def keyBytes (d : Bytes) : Nat :=
  match opcode d with
  | 0x101 => symLen (readTemplate (dOps d)).alg
  | 0x102 => pairRandom (readTemplate (dOps d)).alg
  | 0x804 => 32
  | _ => 0

/-- `n` of the bytes a descriptor has reserved, from the `i`-th on: fill, PIN digits, IVs and nonces first, key material after them (R34,
R379, R380). -/
def Slot.drawn (x : Slot) (i n : Nat) : Bytes := slice x.rnd i n

/-- Whether a step on an engine draws countermeasure randomness (R359): private work and secret-bearing raw commands. -/
def privateOp (d : Bytes) : Bool :=
  let op := opcode d
  op == 0x102 || op == 0x801 || op == 0x803 || op == 0x805 || (op == 0x90A && dKey d 1 != 0)

/-- Bits an operation draws of its engine generator, for both of its passes; `pair` says that it makes a blinding pair (R359). -/
def engineBits (x : Slot) (pair : Bool) : Nat :=
  let a := if opcode x.desc = 0x102 then leAt x.desc 32 2 else x.alg 1
  if !privateOp x.desc then 0
  else if opcode x.desc = 0x90A ∧ rawPriv x.desc = false then 128
  else if isRsa a then 256 + (if pair then rsaBits a else 0)
  else if isMldsa a || isMlkem a then 2 * 1024
  else 2 * 2 * (if a = 0x502 then 384 else if a = 0x503 then 521 else 256)

/-- Countermeasure blocks a descriptor's hardened operations take, one for each (R314, R316). -/
def laneBlocks (x : Slot) : Nat := (workOf x).haes + (workOf x).hdes

end Sys2Proof.Machine
end

