-- ==== Sys2Proof/Machine/Bind.lean ====
section
/-! DEFINITION. Binding a descriptor's keys: the checks of R177 to R179, the key cache (R180 to R182), and the reservations
of counters and ATCs that are taken at a bind point (R252 to R255, R267, R268, R280). -/

namespace Sys2Proof.Machine

/-! ### The checks of a key -/

/-- Check 4 of R177: not revoked, and every ancestry entry agrees with the lineage table (R184). -/
def State.lives (s : State) (r : Rec) : Bool :=
  !r.revoked && r.anc.all (fun l => (l.gen == 0 && l.idx == 0) || (s.lin l.idx).gen == l.gen)

/-- Whether a stored record can be read (R40, R193). -/
def KeyRec.readable (r : KeyRec) : Bool := (r.nand || r.dram) && !r.damaged

/-- The validity window at the present cluster time (R179). -/
def State.inWindow (s : State) (r : Rec) : Bool :=
  (r.notBefore == 0 && r.notAfter == 0) ||
    (!s.seam.unsynced && decide (r.notBefore ≤ s.timeUs) && (r.notAfter == 0 || decide (s.timeUs < r.notAfter)))

/-- Checks 1 to 3 of R177: the stored record a handle names, if it names one of the partition. -/
def State.named (s : State) (p h : Nat) : Option KeyRec :=
  if hCheck h = handleCheck h ∧ hPart h = p ∧ hSlot h ≠ 0 then
    match s.rcd (hSlot h) with
    | none => none
    | some r => if r.rcd.part = p ∧ r.rcd.gen = hGen h then some r else none
  else none

/-- Checks 1 to 6 of R177 for the key at a position, with the key as it was unwrapped; KEY_DESTROY skips check 4 and takes a damaged
record (R193, R205), and every opcode refuses a key of mode Y (R173). -/
def checkKey (s : State) (p : Nat) (d : Bytes) (pos : Nat) (spec : Rec → Bool) (key : Option Rec) : Status × Option Rec :=
  let destroy := opcode d == 0x109
  match s.named p (dKey d pos) with
  | none => (.keyNotFound, none)
  | some r =>
    if (!r.readable || key.isNone) && !(destroy && r.damaged) then (.keyNotFound, none)
    else if !s.lives r.rcd && !destroy then (.keyRevoked, none)
    else if !spec r.rcd || r.rcd.mode == 0x59 then (.keyUsage, none)
    else if !s.inWindow r.rcd then (.keyExpired, none)
    else (.ok, some (key.getD { r.rcd with material := [] }))

/-! ### Unreadable records (R40, R193) -/

/-- The handle a stored record has. -/
def State.handleOf (s : State) (slot : Nat) : Nat :=
  match s.rcd slot with
  | none => 0
  | some r => mkHandle r.rcd.part slot r.rcd.gen

/-- Change a stored record in the durable store and in the live one. -/
def modStored (s : State) (slot : Nat) (f : KeyRec → KeyRec) : State :=
  s.withBase (fun b => { b with keys := { b.keys with recs := tmap b.keys.recs (fun k r => if k = slot then f r else r) } })

/-- The event of a record that cannot be read (R40, R168, R599). -/
def recordLost (s : State) (slot : Nat) : State :=
  logMain s 5 0x0300 0x0301 (((s.rcd slot).map (·.rcd.part)).getD 0xFF) 0 (leBytes 8 (s.handleOf slot))

/-- Who may hold a copy of a partition's records: the pair partner, as 1,024, and then the vaults (R193, R561). -/
def State.copyHolders (s : State) (p : Nat) : List Nat :=
  (if s.paired && s.portUp 4 then [1024] else []) ++
    [leAt (s.odGet (0x7200 + p) 1) 0 2, leAt (s.odGet (0x7200 + p) 1) 2 2].filter (· < 1024)

/-- A record that no member can supply is marked damaged and counted (R193, R395). -/
def markDamaged (s : State) (slot : Nat) : State :=
  let t := modStored s slot (fun r => { r with damaged := true })
  raise (recordLost { t with keys := { t.keys with damagedCnt := t.keys.damagedCnt + 1, recover := terase t.keys.recover slot } } slot) 1037

/-- Ask the `n`-th holder of a record's partition for a copy, by its handle in a VAULT frame; with none left the record is damaged
(R193, R521). -/
def askRecord (s : State) (slot n : Nat) : State :=
  match s.rcd slot with
  | none => s
  | some r => match (s.copyHolders r.rcd.part)[n]? with
    | none => markDamaged s slot
    | some h =>
      let t := { s with keys := { s.keys with recover := tset s.keys.recover slot n } }
      if h = 1024 then sendLink t 4 5 (leBytes 8 (s.handleOf slot)) else sendTo t h 5 (leBytes 8 (s.handleOf slot))

/-- A record is found unreadable: neither copy is good, the event is recorded, and a copy is asked for (R40, R168, R193). -/
def loseRecord (s : State) (slot : Nat) : State :=
  askRecord (recordLost (modStored s slot (fun r => { r with nand := false, dram := false })) slot) slot 0

/-! ### The key cache -/

/-- Use an entry: it becomes the most recently used. -/
def touchCache (s : State) (slot : Nat) : State :=
  let c := s.keys.useClock + 1
  { s with keys := { s.keys with
    useClock := c, cache := tmap s.keys.cache (fun k e => if k = slot then { e with use := c } else e) } }

/-- The entries of a record's set. -/
def State.cacheSet (s : State) (p slot : Nat) : Tab CacheEntry :=
  tfilter s.keys.cache (fun k e => Config.cacheIndex e.part k % 16384 == Config.cacheIndex p slot % 16384)

/-- Entries a partition holds. -/
def State.cacheUsed (s : State) (p : Nat) : Nat := tcount s.keys.cache (fun _ e => e.part == p)

/-- The least recently used of some entries. -/
def lruEntry (t : Tab CacheEntry) : Option Nat :=
  (t.foldl (fun m e => match m with
    | none => some e
    | some b => if e.2.use < b.2.use then some e else some b) none).map (·.1)

/-- The entry a full set evicts for a missing record of partition `p`, if one qualifies (R181). -/
def State.evict (s : State) (p slot : Nat) : Option Nat :=
  let t := s.cacheSet p slot
  let gone := tfilter t (fun k e => match s.rcd k with
    | none => true
    | some r => !s.lives r.rcd || r.rcd.gen != e.rcd.gen)
  let above := tfilter t (fun _ e => decide (s.quota e.part 7 * 4 < s.cacheUsed e.part))
  let own := tfilter t (fun _ e => e.part == p)
  ((gone.head?.map (·.1)).or (lruEntry above)).or (lruEntry own)

/-- Put an entry into the cache as the most recently used. -/
def putCache (s : State) (slot : Nat) (r : Rec) : State :=
  let c := s.keys.useClock + 1
  { s with keys := { s.keys with useClock := c, cache := tset s.keys.cache slot ⟨r.part, c, r⟩ } }

/-- Insert an unwrapped record, evicting where the set is full (R181). -/
def insertCache (s : State) (slot : Nat) (r : Rec) : State :=
  if (s.cacheSet r.part slot).length < 16 then putCache s slot r
  else match s.evict r.part slot with
    | none => s
    | some k => putCache { s with keys := { s.keys with cache := terase s.keys.cache k } } slot r

/-! ### Counter reservations -/

/-- TAG of a COUNTER (R250). -/
def counterTag (c : Nat) : Nat := c / 2 ^ 32

/-- LAST of a COUNTER (R250). -/
def counterLast (c : Nat) : Nat := c % 2 ^ 32

/-- The ID bytes of an origination or of an initial-key derivation at an offset (R249, R251). -/
def dkId (d : Bytes) (o : Nat) : Bytes := if dkTdes d then slice d o 10 else slice d o 8

/-- TAG of an ID (R250). -/
def idTag (id : Bytes) : Nat := beAt (Sha.sha256 id) 0 4 % 2 ^ 31 + 2 ^ 31

/-- The counter bits of an ID are zero (R249). -/
def idClean (d id : Bytes) : Bool := !dkTdes d || beNat id % 2 ^ 21 == 0

/-- The smallest value from `v` on with at most `k` one bits: the lowest one bit is added while there are more (R252). -/
def fewBits (k : Nat) : Nat → Nat → Nat
  | 0, v => v
  | fuel + 1, v => if popcount 33 v ≤ k then v else fewBits k fuel (v + 2 ^ (((List.range 33).find? (bit v)).getD 0))

/-- The next permitted transaction counter above a value; none where none is left (R252, R255). -/
def nextCounter (tdes : Bool) (last : Nat) : Option Nat :=
  let v := fewBits (if tdes then 10 else 16) 34 (last + 1)
  if v < (if tdes then 2 ^ 21 else 2 ^ 32) then some v else none

/-- What a reservation came to: the table is full, an outcome is already settled, or a value is reserved. -/
inductive Reserve where
  | wait
  | early (st : Status) (reason : Nat)
  | got (s : State) (v : Nat)

/-- Take the next value of a record's counter from the reservation table (R252, R280). -/
def reserveCounter (s : State) (slot tag last : Nat) (next : Nat → Option Nat) : Reserve :=
  let e := (tget s.resv slot).getD ⟨slot, tag, last, 0⟩
  if (tget s.resv slot).isNone && decide (4096 ≤ s.resv.length) then .wait
  else match next e.last with
    | none => .early .counterExhausted 0
    | some v => .got { s with resv := tset s.resv slot { e with last := v, users := e.users + 1 } } v

/-- The reservation of an origination (R251, R252). -/
def reserveOrigin (s : State) (d : Bytes) (slot : Nat) (r : Rec) : Reserve :=
  let id := dkId d 80
  let bound := match tget s.resv slot with
    | none => counterTag r.counter
    | some e => e.tag
  if !idClean d id || (bound != 0 && bound != idTag id) then .early .inputRange 0
  else match reserveCounter s slot (idTag id) (counterLast r.counter) (nextCounter (dkTdes d)) with
    | .got t v => .got { t with resv := tmod t.resv slot ⟨slot, 0, v, 1⟩ (fun e => { e with tag := idTag id }) } v
    | o => o

/-! ### ATC reservations -/

/-- The card a descriptor names: PAN field, PSN byte and ATC, from the inline operands or from the bundle (R264, R275). -/
def cardOf (x : Slot) : Bytes × Bytes × Nat :=
  if opcode x.desc = 0x510 then
    let b := x.src.getD []
    (slice b 8 10, slice b 18 1, beAt b 20 2)
  else (slice x.desc 40 10, slice x.desc 50 1, beAt x.desc 52 2)

/-- The card ID (R267). -/
def cardId (slot : Nat) (pan psn : Bytes) : Bytes := slice (Sha.sha256 (beBytes 4 slot ++ pan ++ psn)) 0 12

/-- The greatest of some numbers. -/
def maxOf (l : List Nat) : Nat := l.foldl max 0

/-- The cards of one bucket of a partition's ATC table (R267). -/
def State.bucket (s : State) (p : Nat) (id : Bytes) : List Bytes :=
  let n := (s.part p).atcCap / 8
  (s.atcCards p).filter (fun c => beNat c % n == beNat id % n)

/-- The checks of R268 for a card, and the reservation of its ATC. -/
def reserveAtc (s : State) (n p slot : Nat) (x : Slot) : Reserve :=
  let (pan, psn, atc) := cardOf x
  let id := cardId slot pan psn
  let tracked := ((s.part p).atc.filter (fun e => e.card == id)).map (·.tracked)
  let held := (s.atcResv.filter (fun e => e.2.1 == id)).map (fun e => e.2.2)
  let take := { s with atcResv := s.atcResv ++ [(n, id, atc)] }
  let win := s.policyEntry p 0x13
  if (s.part p).atcCap = 0 then .early .quota 0
  else if tracked = [] ∧ held = [] then
    if (s.bucket p id).length < 8 then .got take 0 else .early .quota 0
  else
    let top := maxOf (tracked ++ held)
    if top = 0xFFFF then .early .counterExhausted 0
    else if atc ≤ top then .early .verifyFail 2
    else if win ≠ 0 ∧ top + win < atc then .early .verifyFail 3
    else .got take 0

/-- The reservation a descriptor takes at the bind point of KEY1; none where its opcode takes none. -/
def reserveAt (s : State) (n : Nat) (x : Slot) (slot : Nat) (r : Rec) : Option Reserve :=
  let op := opcode x.desc
  if op = 0x406 ∨ op = 0x407 then some (reserveOrigin s x.desc slot r)
  else if op = 0x601 ∧ ff1Counter x.desc then
    some (reserveCounter s slot 0 r.counter (fun v => if v < 0xFFFFFFFFFFFFFFFF then some (v + 1) else none))
  else if atcMode x.desc then some (reserveAtc s n x.part slot x)
  else none

/-! ### Lanes and register pages (R304 to R308) -/

/-- The symmetric keys a descriptor has bound: those that stand in register pages. -/
def Slot.symKeys (x : Slot) : List Bound := x.keys.filter (fun k => isSym k.rcd.alg && !isHmac k.rcd.alg)

/-- Keys of a descriptor that stand in pages of a lane. -/
def keysOnLane (l : Lane) (d : Bytes) : Nat :=
  (((keyPositions d).map (dKey d)).dedup.filter (fun h => h != 0 && l.pages.any (fun p => p.2.handle == h))).length

/-- The lanes the slice may choose: none in service holds more of the keys, and none that holds as many has a shorter queue
(R304). -/
def State.bestLanes (s : State) (d : Bytes) : List Nat :=
  let up := (List.range 8).filter (fun l => !(s.lane l).inReset)
  up.filter (fun l => up.all (fun k => decide (keysOnLane (s.lane k) d < keysOnLane (s.lane l) d) ||
    (keysOnLane (s.lane k) d == keysOnLane (s.lane l) d && decide ((s.lane l).queue.length ≤ (s.lane k).queue.length))))

/-- Choose a descriptor's lane; among lanes that are equal the spec names none (R304; assumption 107). -/
def chooseLane (s : State) (n : Nat) (x : Slot) : State :=
  match s.bestLanes x.desc with
  | [] => s
  | [l] => s.modSlot n (fun y => { y with lane := some l })
  | c =>
    let (v, t) := freeNat s
    t.modSlot n (fun y => { y with lane := some (c.getD (v % c.length) 0) })

/-- The least recently used HELD page that meets a test. -/
def lruPage (t : Tab Page) (ok : Page → Bool) : Option Nat :=
  ((t.filter (fun e => e.2.users == 0 && ok e.2)).foldl (fun m e => match m with
    | none => some e
    | some b => if e.2.use < b.2.use then some e else some b) none).map (·.1)

/-- A partition holds 16 ACTIVE pages of a lane (R307). -/
def Lane.full (l : Lane) (p : Nat) : Bool := decide (16 ≤ tcount l.pages (fun _ g => g.part == p && g.users != 0))

/-- The page a key takes, and whether it is zeroed for a new owner (R306); none where it must wait (R307). -/
def pageFor (l : Lane) (p h : Nat) : Option (Nat × Bool) :=
  match l.pages.find? (fun e => e.2.handle == h && e.2.part == p) with
  | some e => if e.2.users = 0 && l.full p then none else some (e.1, false)
  | none =>
    if l.full p then none
    else match (List.range 32).find? (fun k => (tget l.pages k).isNone) with
      | some k => some (k, false)
      | none => match lruPage l.pages (fun g => g.part == p) with
        | some k => some (k, false)
        | none => (lruPage l.pages (fun _ => true)).map (fun k => (k, true))

/-- Take a page for one key of a descriptor on a lane: a page that holds its handle is shared, and another is loaded (R305, R306).
-/
def takePage (s : State) (n lane p : Nat) (k : Bound) : Option State :=
  let l := s.lane lane
  (pageFor l p k.handle).map (fun o =>
    let c := s.keys.useClock + 1
    let old := (tget l.pages o.1).filter (fun g => g.handle == k.handle && g.part == p)
    let page : Page := match old with
      | some g => { g with users := g.users + 1, use := c }
      | none => ⟨k.handle, k.slot, p, k.rcd.material, 1, c, c⟩
    let s1 := s.modLane lane (fun l => { l.cleared (b2n o.2) with pages := tset l.pages o.1 page })
    let use : PageUse := ⟨lane, o.1, page.stamp, k.handle, old.isNone⟩
    State.modSlot { s1 with keys := { s1.keys with useClock := c } } n (fun x => { x with pages := x.pages ++ [use] }))

/-- The keys of a descriptor without a page on a lane, each handle once. -/
def State.unpaged (s : State) (x : Slot) (lane : Nat) : List Bound :=
  (x.symKeys.filter (fun k => !x.pages.any (fun u => u.lane == lane && u.handle == k.handle && ((s.lane lane).pageOf u).isSome))).foldl
    (fun m k => if m.any (fun b => b.handle == k.handle) then m else m ++ [k]) []

/-- Take a page for every key of a list, or none. -/
def takePages (s : State) (n lane p : Nat) : List Bound → Option State
  | [] => some s
  | k :: r => (takePage s n lane p k).bind (fun t => takePages t n lane p r)

/-- Load what a symmetric key just bound needs: the first one chooses the lane, and each takes a page there if there is one (R304,
R306). -/
def loadPage (s : State) (n : Nat) : State :=
  match s.slot n with
  | none => s
  | some x =>
    if x.symKeys.isEmpty || !(stepsOf x).contains .skipper then s
    else
      let t := if x.lane.isNone then chooseLane s n x else s
      match (t.slot n).bind (·.lane) with
      | none => t
      | some l => (takePages t n l x.part (t.unpaged x l)).getD t

/-! ### The binding -/

/-- The first key, in order, that fails the repeated check of R178. -/
def State.rechecked (s : State) (x : Slot) : Option Nat :=
  ((x.keys.dropLast).find? (fun k => match s.rcd k.slot with
    | none => true
    | some r => (!s.lives r.rcd || r.rcd.gen != k.rcd.gen) && opcode x.desc != 0x109)).map (·.pos)

/-- The decimalisation table a descriptor names, as it stands at its bind point (R227, R230). -/
def State.decTable (s : State) (p : Nat) (d : Bytes) : Bytes :=
  s.odGet (0x3100 + p) (0x0D + bits (dP0 d) 7 4 % 4)

/-- The byte at fault where a bulk payload in CBC is not whole blocks of the bound key's cipher, or where an 8-byte IV leaves
bytes 40 to 47 in use: a MALFORMED descriptor that shows only with its key (R214, R283; assumption 110). -/
def wholeBlocks (x : Slot) : Option Nat :=
  let d := x.desc
  if (opcode d = 0x701 ∨ opcode d = 0x702) ∧ bits (dP0 d) 3 0 = 1 then
    if x.keys.any (fun k => isTdes k.rcd.alg) then need (allZero (slice d 40 8)) 40
    else need ((dSrcLen d - dP1 d) % 16 == 0) 112
  else none

/-- All keys are bound: the policies in force are taken, the steps are known, and Skipper work without a symmetric key gets its
lane. Where the repeated check fails, the pages the descriptor loaded are cleared (R178, R227, R300, R304, R308). -/
def bound (s : State) (n : Nat) (x : Slot) : State :=
  match s.rechecked x with
  | some pos => fail (freeLoaded s x) n .keyRevoked pos
  | none => match wholeBlocks x with
  | some off => malformed (freeLoaded s x) n x.rid x.index off
  | none =>
    let t := s.modSlot n (fun y => { y with
      stage := .bound, steps := stepsOf y, policy := s.policyEntry x.part 0x0C, dec := s.decTable x.part x.desc,
      hardDef := s.policyEntry x.part 6 == 1 })
    if x.lane.isNone && (stepsOf x).contains .skipper then chooseLane t n x else t

/-- The open key of a slot: from the cache, or from the unwrap that has just ended, with its granules decrypted (R169, R180,
R181). -/
def State.openKey (s : State) (slot : Nat) (seen : Option (Nat × Option Rec)) : Option Rec :=
  (match tget s.keys.cache slot with
    | some e => some e.rcd
    | none => match seen with
      | some (k, o) => if k = slot then o else none
      | none => none).bind (s.content slot)

/-- A key passed its checks: take the reservation due at KEY1, then record the binding; none where it must wait. -/
def bindOne (s : State) (n : Nat) (x : Slot) (pos : Nat) (r : Rec) : Option State :=
  let slot := hSlot (dKey x.desc pos)
  let add (t : State) (f : Slot → Slot) : State :=
    t.modSlot n (fun y => f { y with keys := y.keys ++ [⟨pos, dKey x.desc pos, slot, r⟩] })
  match (if pos = 1 then reserveAt s n x slot r else none) with
  | none => some (add s (fun y => y))
  | some .wait => none
  | some (.early st reason) => some (add s (fun y => { y with early := some (st, reason) }))
  | some (.got t v) =>
    let op := opcode x.desc
    let counted := op == 0x406 || op == 0x407 || op == 0x601
    some (add t (fun y => { y with ctr := v, resvd := if counted then some slot else none }))

/-- Bind the keys that remain, in order, while the partition's key domain is ACTIVE; `seen` is the record whose unwrap has just
ended, with what it gave (R149, R177, R178, R182). -/
def bindKeys (s : State) (n : Nat) (seen : Option (Nat × Option Rec)) : Nat → State
  | 0 => s
  | fuel + 1 =>
    match s.slot n with
    | none => s
    | some x =>
      match (keyPositions x.desc).find? (fun p => !x.keys.any (fun k => k.pos == p)) with
      | none => bound s n x
      | some pos =>
        let h := dKey x.desc pos
        if (s.part x.part).key ≠ .active then fail s n .notActive 0
        else if h = 0 ∧ parentPos x.desc pos then fail s n .keyUsage pos
        else if (s.named x.part h).isSome && (tget s.keys.cache (hSlot h)).isNone && seen.map (·.1) != some (hSlot h) then
          let t := s.modSlot n (fun y => { y with stage := .missWait })
          { t with keys := { t.keys with unwrap := sins (hSlot h) t.keys.unwrap } }
        else
          match keySpec x.desc pos with
          | none => s
          | some spec => match checkKey s x.part x.desc pos spec (s.openKey (hSlot h) seen) with
            | (_, some r) => match bindOne (touchCache s (hSlot h)) n x pos r with
              | none => s.modSlot n (fun y => { y with stage := .resvWait })
              | some t => bindKeys (loadPage t n) n seen fuel
            | (st, none) => fail s n st pos

/-- FENCE: every lower-index entry of the ring has ended; within a chain, whose completions follow its commit, only the entries
outside the chain are waited for (R115, R117; assumption 13). -/
def State.fenced (s : State) (x : Slot) : Bool :=
  dFence x.desc && (s.ringSlots x.rid).any (fun e =>
    below (s.ring x.rid).fetch e.2.index x.index && (x.chain.isNone || e.2.chain != x.chain))

/-- The chain of an entry may run it: its LAST entry is fetched and every earlier entry has ended (R117). -/
def State.chainReady (s : State) (x : Slot) : Bool :=
  match x.chain with
  | none => true
  | some first =>
    let l := chainSlots s x.rid first
    l.any (fun e => e.2.chainEnd) &&
      l.all (fun e => decide (idxSub x.index first ≤ idxSub e.2.index first) || e.2.res.isSome)

/-- KEY_BIND: a slice decodes a descriptor and binds its keys (R32, R109, R115, R117, R149, R177, R332, R529). -/
def execKeyBind (slot : Nat) (s : State) : Host.Outcome State Fault Refusal :=
  .next (match s.slot slot with
    | none => s
    | some x =>
      let op := opcode x.desc
      if x.stage ≠ .fetched ∨ s.fenced x ∨ s.chainReady x = false ∨ x.cut.isSome then s
      else if bindsAfterSrc x.desc && !buffersReady x.desc x.sgSrc x.sgDst x.src then s
      else if !opcodes.contains op || (isRaw op && s.quota x.part 0x0F == 0) then fail s slot .badOpcode 0
      else if op ≠ 0 ∧ s.seam.quarantine ≠ 0 then fail s slot .notActive 0
      else if namesKey x.desc && (s.part x.part).key != .active then fail s slot .notActive 0
      else bindKeys s slot none 4)

/-- The record whose unwrap a waiting descriptor needs. -/
def Slot.missing (x : Slot) : Option Nat :=
  ((keyPositions x.desc).find? (fun p => !x.keys.any (fun k => k.pos == p))).map (fun p => hSlot (dKey x.desc p))

/-- What the unwrap of a record gives: nothing where no copy is good or its SIV does not verify (R168, R182). -/
def State.unwrapOf (s : State) (k : Nat) : Option Rec := (s.rcd k).bind (fun r => if r.readable then s.unwrapped r.rcd else none)

/-- Whether a record was thought readable and its SIV does not verify under the partition's record key (R168). -/
def State.sivFails (s : State) (k : Nat) : Bool :=
  (s.rcd k).any (fun r => r.readable && (s.part r.rcd.part).recKey.isSome && (s.unwrapped r.rcd).isNone)

/-- Insert what an unwrap gave, where checks 1 to 4 pass (R182). -/
def insertUnwrapped (s : State) (k : Nat) : State :=
  match s.unwrapOf k with
  | none => if s.sivFails k then loseRecord s k else s
  | some r => if s.lives r then insertCache s k r else s

/-- The descriptors that wait for a record's unwrap. -/
def State.missWaiters (s : State) (k : Nat) : List Nat :=
  tkeys (tfilter s.adm.slots (fun _ y => y.stage == .missWait && y.missing == some k))

/-- KEY_CACHE_MISS_DONE: the unwrap of a missed record ends; every descriptor that waits for it goes on (R182, R187). -/
def execKeyCacheMissDone (slot : Nat) (s : State) : Host.Outcome State Fault Refusal :=
  .next (match s.slot slot with
    | none => s
    | some x =>
      if x.stage ≠ .missWait then s
      else match x.missing with
        | none => s
        | some k =>
          let s1 := { s with keys := { s.keys with unwrap := s.keys.unwrap.filter (· != k) } }
          let s2 := insertUnwrapped s1 k
          (s2.missWaiters k).foldl (fun t n => bindKeys t n (some (k, s1.unwrapOf k)) 4) s2)

/-- RESERVATION_ENTRY_FREE: an entry of the reservation table is free, and the waiting descriptor takes it (R252). -/
def execReservationEntryFree (slot : Nat) (s : State) : Host.Outcome State Fault Refusal :=
  .next (match s.slot slot with
    | none => s
    | some x =>
      if x.stage = .resvWait ∧ s.resv.length < 4096 then
        bindKeys s slot (x.missing.map (fun k => (k, s.unwrapOf k))) 4
      else s)

end Sys2Proof.Machine
end

