-- ==== Sys2Proof/Machine/Drbg.lean ====
section
/-! DEFINITION. The CTR_DRBG of a partition's instance: AES-256 with the derivation function of NIST SP 800-90A (R376, R377, R379,
R380; assumption 3). -/

namespace Sys2Proof.Machine

/-- The CBC-MAC of whole blocks from a zero start, as the derivation function has it. -/
def dfMac (k data : Bytes) : Bytes := (chunks 16 data).foldl (fun a b => Aes.encrypt k (xorBytes a b)) (zeros 16)

/-- The derivation function over a block cipher: 48 bytes from any input. -/
def dfSeed (input : Bytes) : Bytes :=
  let s := beBytes 4 input.length ++ beBytes 4 48 ++ input ++ [0x80#8]
  let p := s ++ zeros ((16 - s.length % 16) % 16)
  let mac (i : Nat) : Bytes := dfMac ((List.range 32).map byteOf) (beBytes 4 i ++ zeros 12 ++ p)
  let k := mac 0 ++ mac 1
  let a := Aes.encrypt k (mac 2)
  let b := Aes.encrypt k a
  a ++ b ++ Aes.encrypt k b

/-- Block `i` of the counter stream of an instance, the first being block 1. -/
def Drbg.block (d : Drbg) (i : Nat) : Bytes := Aes.encrypt d.key (beBytes 16 ((beNat d.v + i) % 2 ^ 128))

/-- The update of key and counter from the `i`-th block on, with 48 bytes of data. -/
def Drbg.update (d : Drbg) (i : Nat) (data : Bytes) : Drbg :=
  let t := xorBytes (d.block (i + 1) ++ d.block (i + 2) ++ d.block (i + 3)) data
  { d with key := slice t 0 32, v := slice t 32 16 }

/-- Seed an instance that holds none: entropy input and nonce, then the personalisation string (R376). -/
def Drbg.instantiated (d : Drbg) (seed pers : Bytes) : Drbg :=
  Drbg.update { d with key := zeros 32, v := zeros 16 } 0 (dfSeed (seed ++ pers))

/-- Reseed an instance, with the request's additional input (R377). -/
def Drbg.reseeded (d : Drbg) (seed add : Bytes) : Drbg := d.update 0 (dfSeed (seed ++ add))

/-- A generate request of `n` bytes: its output, and the instance after it (R376, R377). -/
def Drbg.generate (d : Drbg) (n : Nat) (add : Bytes) : Bytes × Drbg :=
  let a := if add.isEmpty then zeros 48 else dfSeed add
  let e := if add.isEmpty then d else d.update 0 a
  let m := (n + 15) / 16
  let out := ((List.range m).flatMap (fun i => e.block (i + 1))).take n
  let f := e.update m a
  (out, { f with counter := f.counter + 1 })

/-- Whether an instance serves a generate request now (R377). -/
def Drbg.serves (d : Drbg) : Bool := d.ready && decide (d.counter < 2 ^ 20)

end Sys2Proof.Machine
end

