-- ==== Sys2Proof/Machine/Harden.lean ====
section
/-! DEFINITION. Countermeasure generators and hardened operations: the generator's key, its buffer and its output, and the dummy rounds,
rotations and decoys of one operation (R312 to R317, R373). -/

namespace Sys2Proof.Machine

/-! ### Generators -/

/-- Blocks of 256 bits a lane's buffer holds (R315). -/
def laneBuf : Nat := 4096

/-- Blocks of 128 bits an engine generator's buffer holds (R373). -/
def engineBuf : Nat := 1024

/-- The generator fills its buffer, up to 2^20 blocks under one key (R315, R373). -/
def Gen.filled (g : Gen) (cap : Nat) : Gen :=
  match g.key with
  | none => g
  | some _ =>
    let k := min (cap - g.buf) (2 ^ 20 - g.blocks)
    { g with blocks := g.blocks + k, buf := g.buf + k }

/-- A generator with a new key: what its buffer held under the old one is gone (R315, R373; assumption 105). -/
def Gen.rekeyed (g : Gen) (cap now : Nat) (key : Bytes) : Gen :=
  Gen.filled { g with key := some key, keyedUs := now, blocks := 0, buf := 0, stalled := false, asked := false,
                      rekeys := min 0xFFFFFFFF (g.rekeys + if g.key.isSome then 1 else 0) } cap

/-- A new key is due: 2^16 blocks are out, or 1 ms has passed (R315, R373). -/
def Gen.due (g : Gen) (now : Nat) : Bool := g.key.isSome && !g.asked && (decide (2 ^ 16 ≤ g.blocks) || decide (g.keyedUs + 1000 ≤ now))

/-- A generator that has put out 2^20 blocks under one key has stopped (R315, R373). -/
def Gen.stall (g : Gen) : Gen :=
  if g.key.isSome && !g.stalled && decide (2 ^ 20 ≤ g.blocks) then { g with stalled := true, stalls := min 0xFFFFFFFF (g.stalls + 1) } else g

/-- The generator's key and its unreserved blocks are zero (R317, R387). -/
def Gen.zeroed (g : Gen) : Gen := { g with key := none, keyedUs := 0, blocks := 0, buf := 0, asked := false }

/-- A generator can reserve `n` blocks: its buffer holds them, or is full where they are more than it holds (R316). -/
def Gen.holds (g : Gen) (cap n : Nat) : Bool := n == 0 || (g.key.isSome && decide (min n cap ≤ g.buf))

/-- Reserve `n` blocks; what they exceed the buffer by follows under the same key (R316; assumption 105). -/
def Gen.reserve (g : Gen) (cap n : Nat) : Option Blocks × Gen :=
  match g.key with
  | none => (none, g)
  | some k =>
    if n = 0 then (none, g)
    else (some ⟨k, g.blocks - g.buf⟩, Gen.filled { g with buf := g.buf - min n cap, blocks := g.blocks + (n - cap) } cap)

/-- Block `i` of 128 bits of a generator: AES-256 in CTR mode from 0 (R315, R373; assumption 105). -/
def ctrBlock (key : Bytes) (i : Nat) : Bytes := Aes.encrypt key (beBytes 16 i)

/-- G0 (k = 0) or G1 (k = 1) of the `i`-th block reserved in a lane (R314). -/
def Blocks.g (b : Blocks) (i k : Nat) : Bytes := ctrBlock b.key (2 * (b.ctr + i) + k)

/-! ### One hardened operation -/

/-- What a hardened operation inserts: the real stage before which each dummy round runs, the rotation of each S-box round, the decoy state,
and the round key of each dummy (R312 to R314). -/
structure Dummies where
  before : List Nat
  rot    : List Nat
  decoy  : Bytes
  keys   : List Bytes
  deriving DecidableEq, Repr

/-- The number of dummy rounds v gives (R314). -/
def dummyCount (aes : Bool) (v : Nat) : Nat := if aes then 5 * v / 256 else 9 * v / 256

/-- G1 rotated left by a number of bits. -/
def rotl128 (g : Bytes) (n : Nat) : Bytes :=
  let v := leNat g
  leBytes 16 (v * 2 ^ n % 2 ^ 128 + v / 2 ^ (128 - n))

/-- The plan of a hardened operation of `stages` real stages from G0 and G1 (R312 to R314). -/
def dummyPlan (aes : Bool) (stages : Nat) (g0 g1 : Bytes) : Dummies :=
  let d := dummyCount aes (byteAt g0 0)
  { before := (List.range d).map (fun j => byteAt g0 (1 + j) % stages)
    rot := if aes then (List.range 18).map (fun k => bits (leNat g0) (43 + 4 * k) (40 + 4 * k)) else []
    decoy := g1
    keys := (List.range d).map (fun j => rotl128 g1 (8 * (j + 1))) }

/-- Dummy rounds of a descriptor's hardened AES operations, then of its DES operations, from its reserved blocks (R312 to R314). -/
def Blocks.rounds (b : Blocks) (aes des : Nat) : Nat :=
  ((List.range aes).map (fun i => dummyCount true (byteAt (b.g i 0) 0))).sum +
    ((List.range des).map (fun i => dummyCount false (byteAt (b.g (aes + i) 0) 0))).sum

end Sys2Proof.Machine
end

