-- ==== Sys2Proof/Machine/Units.lean ====
section
/-! DEFINITION. Steps on Skipper lanes, hash units, Hawkmoth engines and Plume units: dispatch, pages, randomness, the end of a
step, mismatches, self-tests and aborts (R34, R38, R304 to R320, R330, R335, R349, R350, R356 to R359). -/

namespace Sys2Proof.Machine

/-! ### Randomness -/

/-- A draw on the seed pool is asked for by its class and consumer (R374). -/
def askDraw (s : State) (cls who : Nat) : State :=
  { s with entropy := { s.entropy with draws := s.entropy.draws ++ [(cls, who, s.opUs)] } }

/-- What stands between a descriptor and its randomness. -/
inductive Supply where
  | ready
  | later
  | reseed (cls : Nat)
  deriving DecidableEq, Repr

/-- The engine generator that serves an engine or a Plume unit (R373). -/
def genOf (u : UnitClass × Nat) : Nat :=
  match u with
  | (.plume, p) => 8 + p / 8
  | (_, e) => e / 6

/-- The partition's randomness for a descriptor's first step (R34, R225, R379, R380). -/
def State.supply (s : State) (x : Slot) : Supply :=
  let g := (s.part x.part).drbg
  if stagedNeed x = 0 ∧ keyNeed x.desc = false then .ready
  else if !g.ready || (keyNeed x.desc && decide (2 ^ 20 ≤ g.counter)) then .later
  else if keyNeed x.desc && decide (g.lastUs + 1000 < s.opUs) && x.draws != 2 then
    (if x.draws = 0 then .reseed 2 else .later)
  else if g.staged.length < stagedNeed x then .later
  else .ready

/-! ### Where a step may run -/

/-- Engines in service and not reserved (R330). -/
def Engine.open_ (e : Engine) : Bool := (e.st == .idle || e.st == .busy) && e.reservedBy.isNone

/-- The engine of the session a raw descriptor names, if it is open and its own (R333, R335). -/
def State.rawEngine (s : State) (x : Slot) : Option Nat :=
  let d := x.desc
  let id := if dP1 d = 0xFFFFFFFF then
      match x.chain with
      | none => 0
      | some first => (((chainSlots s x.rid first).filter (fun e => e.2.sess != 0 && opcode e.2.desc == 0x901 &&
          below (s.ring x.rid).fetch e.2.index x.index)).getLast?.map (fun e => e.2.sess)).getD 0
    else dP1 d
  let e := id % 256
  let g := s.engine e
  if 48 ≤ e ∨ g.st ≠ .session ∨ g.sess ≠ id ∨ id = 0 then none
  else if opcode d = 0x90B then (if g.sessPart = x.part then some e else none)
  else if g.sessRid = x.rid then some e else none

/-- A raw command's session has no earlier command of the ring that is not yet dispatched (R335). -/
def State.rawInOrder (s : State) (x : Slot) : Bool :=
  (s.ringSlots x.rid).all (fun e => !(below (s.ring x.rid).fetch e.2.index x.index) || !isRaw (opcode e.2.desc) ||
    opcode e.2.desc == 0x90B || dP1 e.2.desc != dP1 x.desc || e.2.started || e.2.res.isSome)

/-- Bulk-buffer bytes that started GCM decryptions hold (R284). -/
def State.bulkHeld (s : State) : Nat :=
  ((tvals s.adm.slots).map (fun x =>
    if opcode x.desc = 0x702 ∧ bits (dP0 x.desc) 3 0 = 3 ∧ x.started ∧ x.stage.uncommitted then dSrcLen x.desc - dP1 x.desc else 0)).sum

/-- Room for a descriptor's payload in the bulk-buffer region (R284). -/
def State.bulkRoom (s : State) (x : Slot) : Bool :=
  opcode x.desc != 0x702 || bits (dP0 x.desc) 3 0 != 3 || decide (s.bulkHeld + (dSrcLen x.desc - dP1 x.desc) ≤ 6 * 2 ^ 30)

/-- Whether a unit may take the step (R38, R304, R320, R328, R330). -/
def State.unitFree (s : State) (x : Slot) (u : UnitClass × Nat) : Bool :=
  match u with
  | (.skipper, l) => decide (l < 8) && !(s.lane l).inReset && decide ((s.lane l).queue.length < 64) &&
      (match x.lane with
        | none => (s.bestLanes x.desc).contains l
        | some k => k == l || ((s.lane k).inReset && (s.bestLanes x.desc).contains l))
  | (.hash, h) => decide (h < 16) && !(s.hash h).inReset && decide ((s.hash h).queue.length < 32) &&
      !(h == 0 && (s.keys.kd.isSome || !s.keys.kdJobs.isEmpty))
  | (.hawkmoth, e) =>
    if isRaw (opcode x.desc) then s.rawEngine x == some e && decide ((s.engine e).queue.length < 16) && s.rawInOrder x
    else decide (e < 48) && (s.engine e).open_ && decide ((s.engine e).queue.length < 16) &&
      (List.range 48).all (fun k => !(s.engine k).open_ || decide ((s.engine e).queue.length ≤ (s.engine k).queue.length))
  | (.plume, p) => decide (p < 16) && (s.plume p).st != .offline && (s.plume p).st != .inReset &&
      decide ((s.plume p).queue.length < 16) &&
      (List.range 16).all (fun k => (s.plume k).st == .offline || (s.plume k).st == .inReset ||
        decide ((s.plume p).queue.length ≤ (s.plume k).queue.length))

/-- Put a step into a unit's queue; it starts if it comes to the front. -/
def enqueue (s : State) (n : Nat) (u : UnitClass × Nat) : State :=
  match u with
  | (.skipper, l) => s.modLane l (fun x => { x with queue := x.queue ++ [n] })
  | (.hash, h) => startHash (s.modHash h (fun x => { x with queue := x.queue ++ [n] })) h
  | (.hawkmoth, e) => startEngine (s.modEngine e (fun x => { x with queue := x.queue ++ [n], lastUs := s.opUs })) e
  | (.plume, p) => startPlume (s.modPlume p (fun x => { x with queue := x.queue ++ [n] })) p

/-- The unit whose generator an engine operation draws from, where its first step is dispatched to `u`: that unit, or, where a
hash step goes ahead, the one in service with the fewest commands then (R359, R373; assumption 105). -/
def State.drawUnit (s : State) (x : Slot) (u : UnitClass × Nat) : UnitClass × Nat :=
  let least (l : List Nat) (q : Nat → Nat) : Nat := (l.foldl (fun m e => match m with
    | none => some e
    | some b => if q e < q b then some e else some b) none).getD 0
  match u.1, x.steps.find? UnitClass.zeroes with
  | .hawkmoth, _ => u
  | .plume, _ => u
  | _, some .plume => (.plume, least ((List.range 16).filter (fun p => (s.plume p).st == .idle)) (fun p => (s.plume p).queue.length))
  | _, _ => (.hawkmoth, least ((List.range 48).filter (fun e => (s.engine e).open_)) (fun e => (s.engine e).queue.length))

/-- Whether an operation is an RSA private-key computation. -/
def rsaPrivOp (x : Slot) : Bool :=
  isRsa (x.alg 1) && (opcode x.desc == 0x801 || (opcode x.desc == 0x90A && rawPriv x.desc))

/-- Whether an RSA private operation makes a blinding pair: the engine holds none for its key (R351). -/
def State.newPair (s : State) (x : Slot) (u : UnitClass × Nat) : Bool :=
  rsaPrivOp x && u.1 == .hawkmoth && (tget (s.engine u.2).blind (dKey x.desc 1)).isNone

/-- Blocks of 128 bits a descriptor takes of an engine generator (R359). -/
def State.engineBlocks (s : State) (x : Slot) (u : UnitClass × Nat) : Nat := ceilDiv (engineBits x (s.newPair x (s.drawUnit x u))) 128

/-- The lane whose buffer a descriptor's hardened operations draw from: the one its Skipper work runs on. -/
def Slot.drawLane (x : Slot) (u : UnitClass × Nat) : Nat := if u.1 = .skipper then u.2 else x.lane.getD 0

/-- The generators hold every block the descriptor takes before its first step (R316, R359). -/
def State.blocksHeld (s : State) (x : Slot) (u : UnitClass × Nat) : Bool :=
  (s.lane (x.drawLane u)).gen.holds laneBuf (laneBlocks x) &&
    (tgetD s.entropy.gens (genOf (s.drawUnit x u)) gen0).holds engineBuf (s.engineBlocks x u)

/-- The state in which a descriptor's randomness is reserved: its fill, its key material, and its countermeasure blocks (R34,
R316, R359). -/
def reserveRandom (s : State) (n : Nat) (x : Slot) (u : UnitClass × Nat) : State :=
  if x.started then s
  else
    let d := (s.part x.part).drbg
    let (m, g) := if keyNeed x.desc then d.generate (keyBytes x.desc) [] else ([], d)
    let s1 := s.modPart x.part (fun p => { p with drbg := { g with staged := d.staged.drop (stagedNeed x) } })
    let (a, q) := (s1.lane (x.drawLane u)).gen.reserve laneBuf (laneBlocks x)
    let s2 := if a.isSome then s1.modLane (x.drawLane u) (fun l => { l with gen := q }) else s1
    let k := genOf (s.drawUnit x u)
    let (b, h) := (tgetD s2.entropy.gens k gen0).reserve engineBuf (s.engineBlocks x u)
    let s3 := if b.isSome then { s2 with entropy := { s2.entropy with gens := tset s2.entropy.gens k h } } else s2
    s3.modSlot n (fun y => { y with random := true, rnd := d.staged.take (stagedNeed x) ++ m, started := true, blocks := a, engBlocks := b })

/-- The descriptor's ring or partition is being disabled (R81). -/
def State.disabling (s : State) (x : Slot) : Bool :=
  (s.part x.part).dis == .disabling || ((s.ring x.rid).state == .stopping && (s.ring x.rid).settle == .disabled)

/-- Steps waiting in a lane's queue take their pages, in queue order, each all of them or none (R307). -/
def admitLane (s : State) (lane : Nat) : State :=
  (s.lane lane).queue.foldl (fun t n => match t.slot n with
    | none => t
    | some x => (takePages t n lane x.part (t.unpaged x lane)).getD t) s

/-- A step enters its unit's queue; a raw command takes the session its engine then holds (R304, R307, R335). -/
def dispatchTo (s : State) (n : Nat) (x : Slot) (u : UnitClass × Nat) (rest : List UnitClass) : State :=
  let t := (reserveRandom s n x u).modSlot n (fun y => { y with
    stage := .queued, steps := rest, unit := some u
    lane := if u.1 = .skipper then some u.2 else y.lane
    sess := if isRaw (opcode x.desc) then (s.engine u.2).sess else y.sess
    pages := y.pages.filter (fun p => ((s.lane p.lane).pageOf p).isSome) })
  let v := enqueue t n u
  if u.1 = .skipper then admitLane v u.2 else v

/-- STEP_DISPATCH: a waiting step goes to a unit once its queue, its randomness and its buffers allow it (R34, R38, R284, R304,
R307, R316); none starts after PFAIL (R505), and no Hawkmoth or Plume step of a descriptor that a disable has stopped (R81). A raw
command whose session is not open has no step to run (R335). -/
def execStepDispatch (slot unit : Nat) (s : State) : Host.Outcome State Fault Refusal :=
  .next (match s.slot slot with
    | none => s
    | some x =>
      if x.stage ≠ .bound ∨ x.cut.isSome ∨ s.power.pfail then s
      else match (if x.started then x.steps else stepsOf x) with
        | [] => s
        | u :: rest =>
          if x.started && u.zeroes && s.disabling x then fail s slot .aborted 0
          else if isRaw (opcode x.desc) && (s.rawEngine x).isNone then
            if s.rawInOrder x then s.modSlot slot (fun y => { y with stage := .ran, started := true, steps := [] }) else s
          else if !buffersReady x.desc x.sgSrc x.sgDst x.src || !s.unitFree x (u, unit) || !s.bulkRoom x
              || (!x.started && !(s.blocksHeld x (u, unit) && s.entropy.ready)) then s
          else match (if x.started then Supply.ready else s.supply x) with
            | .later => s
            | .reseed cls => askDraw (s.modSlot slot (fun y => { y with stage := .drawWait, draws := 1 })) cls slot
            | .ready => dispatchTo s slot x (u, unit) rest)

/-! ### The end of a step -/

/-- Time the spec leaves open, up to a bound. -/
def freeUpTo (s : State) (n : Nat) : Nat × State :=
  if n = 0 then (0, s) else let (v, t) := freeNat s
    (v % (n + 1), t)

/-- The time of the whole descriptor, added when its last step ends, in 1/24 ns: F-cycles of 15, P-cycles of 20 (R13). -/
def totalTime (s : State) (n : Nat) (x : Slot) : State :=
  let w := workOf x
  let (a, s1) := freeUpTo s w.freeNs
  let (b, s2) := freeUpTo s1 w.freeP
  s2.modSlot n (fun y => { y with time24 := y.time24 + 15 * w.f + 20 * (w.p + b * iterTime (x.alg 1)) + 24 * a })

/-- A step of a descriptor has ended: the next one waits, or its result is due. -/
def stepEnd (s : State) (n : Nat) (x : Slot) : State :=
  let s1 := s.modSlot n (fun y => { y with unit := none, stage := if y.steps = [] then .ran else .bound })
  if x.steps = [] then totalTime s1 n x else s1

/-- A cut step ends with the status its cause gives; one that was running adds the time up to its stop (R134, R349). -/
def endCut (s : State) (n : Nat) (x : Slot) (st : Status) (running : Bool) : State :=
  let (v, s0) := if running then freeNat s else (0, s)
  let s1 := s0.modSlot n (fun y => { y with unit := none, time24 := y.time24 + 24 * v })
  if x.chain.isSome then finish s1 n st 0 else fail s1 n st 0

/-- A descriptor's step in a lane ends: the blocks it processed and its dummy rounds are counted (R301, R310 to R314, R327). -/
def laneDone (s : State) (lane n : Nat) (x : Slot) : State :=
  let w := workOf x
  let d := match x.blocks with
    | none => 0
    | some b => b.rounds w.haes w.hdes
  let t := s.modLane lane (fun l => { l with
    blocks := min (2 ^ 64 - 1) (l.blocks + w.aes + w.des), dummies := min (2 ^ 64 - 1) (l.dummies + d) })
  stepEnd (t.modSlot n (fun y => { y with time24 := y.time24 + 15 * d })) n x

/-- SKIPPER_STEP_DONE: a descriptor's step ends in its lane, whichever of those that hold their pages, for several proceed in
parallel; one that waits for a page takes it where it can (R302, R307, R309 to R314, R327). -/
def execSkipperStepDone (slot : Nat) (s : State) : Host.Outcome State Fault Refusal :=
  .next (match s.slot slot with
    | none => s
    | some x => match x.unit with
      | some (.skipper, lane) =>
        if !(s.lane lane).queue.contains slot then s
        else
          let s1 := unqueue s slot (.skipper, lane)
          match x.cut.or x.ends with
          | some st => endCut s1 slot x st true
          | none =>
            if x.symKeys.all (fun k => x.pages.any (fun u => u.lane == lane && u.handle == k.handle)) then laneDone s1 lane slot x
            else admitLane s lane
      | _ => s)

/-- HASH_STEP_DONE: the step at the front of a hash unit ends, and the unit zeroes itself before the next (R318, R319, R327). -/
def execHashStepDone (unit : Nat) (s : State) : Host.Outcome State Fault Refusal :=
  .next (match (s.hash unit).queue with
    | [] => s
    | n :: _ =>
      let s1 := unqueue s n (.hash, unit)
      match s.slot n with
      | none => s1
      | some x => match x.cut.or x.ends with
        | some st => endCut s1 n x st true
        | none =>
          let b := if x.steps.contains .hash then 0 else (workOf x).hash
          stepEnd (s1.modHash unit (fun h => { h with blocks := min (2 ^ 64 - 1) (h.blocks + b) })) n x)

/-- Whether an operation runs two passes that are compared (R291, R356). -/
def compared (x : Slot) : Bool := privateOp x.desc

/-- A blinding pair made from a random r (R351). -/
def freshPair (r : Rec) (rnd : Nat) : Nat × Nat :=
  let n := rsaN r.alg (rsaPub r.alg false r.material)
  (powMod (rnd % n) (rsaE r.alg (rsaPub r.alg false r.material)) n, inv0 (rnd % n) n)

/-- The random r of a blinding pair: the blocks reserved after the 256 bits of the exponents (R359). -/
def Slot.pairRandom (x : Slot) : Nat :=
  match x.engBlocks with
  | none => 0
  | some b => beNat (((List.range (rsaBits (x.alg 1) / 128)).map (fun i => ctrBlock b.key (b.ctr + 2 + i))).flatten)

/-- An RSA private operation uses the key's blinding pair, made where there is none, and squares it for the next use; the 64 most
recently used keys keep theirs (R351). -/
def useBlind (e : Engine) (x : Slot) (now : Nat) : Engine :=
  match x.key 1 with
  | none => e
  | some r =>
    let n := rsaN r.alg (rsaPub r.alg false r.material)
    let p := match tget e.blind (dKey x.desc 1) with
      | some b => (b.re, b.ri)
      | none => freshPair r x.pairRandom
    let t := tset e.blind (dKey x.desc 1) ⟨now, p.1 * p.1 % n, p.2 * p.2 % n⟩
    let old := (t.foldl (fun m k => match m with
      | none => some k
      | some b => if k.2.use < b.2.use then some k else some b) none).map (·.1)
    { e with blind := if t.length ≤ 64 then t else match old with
      | none => t
      | some k => terase t k }

/-- The time of creating a blinding pair where the engine holds none for the key (R351). -/
def blindTime (s : State) (e : Nat) (x : Slot) : Nat := if s.newPair x (.hawkmoth, e) then invTime (rsaBits (x.alg 1) / 64) else 0

/-- The P-cycles of a raw command (R344, R346); a PRIVATE exponentiation takes the RSA private time. -/
def rawTime (s : State) (e : Nat) (x : Slot) : Work :=
  let d := x.desc
  let n := rawWords d
  let c := chunksOf n
  let q := c + 3
  let g := s.engine e
  let word (o : Nat) : BankWord := tgetD g.bank o ⟨0, false⟩
  let reads := if opcode d = 0x909 ∨ opcode d = 0x90A then [rawA d, rawN d] else [rawA d, rawB d, rawN d]
  let tagged := reads.any (fun o => (List.range n).any (fun i => (word (o + i)).tag)) ||
    (List.range (rawNe d)).any (fun i => (word (rawE d + i)).tag)
  let ex := (word (rawE d)).v
  match opcode d with
  | 0x906 => { p := 2 * q + 2 * c + 10 }
  | 0x907 => { p := 2 * q + 2 * c + 10 }
  | 0x908 => { p := 2 * q + 2 * c ^ 2 + 12 }
  | 0x909 => { p := q + (128 * n + 64) * c + 20 }
  | 0x90A =>
    if rawPriv d then rsaPrivate (64 * n)
    else if tagged then { p := 2 * windowTime n (rawNe d) + c + 4 }
    else if rawNe d = 1 then
      { p := q + ((if ex = 0 then 0 else Nat.log2 ex + 1) + popcount 64 ex) * mulTime n + 20 }
    else { p := windowTime n (rawNe d) }
  | 0x902 => { p := 1024 }
  | _ => { p := c + 8 }

/-- An operation whose two passes differ: the result is suppressed, the unit is zeroed and tested, and FAULT_COMPARE is raised
(R356 to R358). -/
def passesDiffer (s : State) (n : Nat) (u : UnitClass × Nat) : State :=
  match u with
  | (.hawkmoth, e) =>
    let t := mismatch (closeEngine (s.modEngine e (fun g => { g.zeroed with mismatches := min 0xFFFFFFFF (g.mismatches + 1) })) e)
    fail (t.modEngine e (fun g => { g with st := .inReset })) n .faultDetected 0
  | (.plume, p) =>
    let t := mismatch (s.modPlume p (fun g => { g with mem := none, mismatches := min 0xFFFFFFFF (g.mismatches + 1) }))
    fail (t.modPlume p (fun g => { g with st := .inReset })) n .faultDetected 0
  | _ => s

/-- The operation of an engine ends with both passes alike: a raw command's result is due, with its tables in the window store;
another step leaves the engine zero (R330, R339, R351). -/
def engineDone (s : State) (engine n : Nat) (x : Slot) (extra : Nat) : State :=
  if isRaw (opcode x.desc) then
    let w := rawTime s engine x
    let (b, t) := freeUpTo s w.freeP
    let u := if opcode x.desc = 0x90A then t.modEngine engine (fun e => { e with window := some x.desc }) else t
    u.modSlot n (fun y => { y with stage := .ran, time24 := 20 * (w.p + b + extra) })
  else stepEnd (s.modSlot n (fun y => { y with time24 := y.time24 + 20 * extra })) n x

/-- HAWKMOTH_OP_DONE: the operation at the front of an engine ends; where its two passes differ it is suppressed, the engine is
zeroed and tested, and FAULT_COMPARE is raised (R330, R351, R356 to R358). A raw command whose session has been closed does
nothing (R335). -/
def execHawkmothOpDone (engine : Nat) (agree : Bool) (s : State) : Host.Outcome State Fault Refusal :=
  .next (match (s.engine engine).queue with
    | [] => s
    | n :: _ =>
      match s.slot n with
      | none => unqueue s n (.hawkmoth, engine)
      | some x =>
        if (s.engine engine).st = .inReset ∨ x.cut.isSome ∨ (tvals s.adm.slots).any (fun y => y.stage == .ran && y.unit == some (.hawkmoth, engine)) then s
        else
          let s0 := (unqueue s n (.hawkmoth, engine)).modEngine engine (fun e =>
            { e with commands := min (2 ^ 64 - 1) (e.commands + 1), lastUs := s.opUs })
          match x.ends with
          | some st => endCut s0 n x st true
          | none =>
            if isRaw (opcode x.desc) && !s.holdsSession x then fail (unqueue s n (.hawkmoth, engine)) n .inputRange 0
            else
              let s1 := if rsaPrivOp x then s0.modEngine engine (fun e => useBlind e x s.opUs) else s0
              if compared x && !agree then passesDiffer s1 n (.hawkmoth, engine)
              else engineDone s1 engine n x (blindTime s engine x))

/-- PLUME_OP_DONE: the operation at the front of a Plume unit ends (R356 to R358, R361). -/
def execPlumeOpDone (unit : Nat) (agree : Bool) (s : State) : Host.Outcome State Fault Refusal :=
  .next (match (s.plume unit).queue with
    | [] => s
    | n :: _ =>
      match s.slot n with
      | none => unqueue s n (.plume, unit)
      | some x =>
        if (s.plume unit).st = .inReset ∨ x.cut.isSome then s
        else
          let s1 := (unqueue s n (.plume, unit)).modPlume unit (fun p => { p with ops := min (2 ^ 64 - 1) (p.ops + 1) })
          match x.ends with
          | some st => endCut s1 n x st true
          | none => if compared x && !agree then passesDiffer s1 n (.plume, unit) else stepEnd s1 n x)

/-- Engines in service (R358). -/
def State.enginesLeft (s : State) : Nat := ((List.range 48).filter (fun e => (s.engine e).st != .offline)).length

/-- Plume units in service (R358). -/
def State.plumesLeft (s : State) : Nat := ((List.range 16).filter (fun u => (s.plume u).st != .offline)).length

/-- The operations that wait for a unit gone OFFLINE are dispatched anew (R330, R358; assumption 107). -/
def redispatch (s : State) (u : UnitClass × Nat) (q : List Nat) : State :=
  q.foldl (fun t n => (unqueue t n u).modSlot n (fun x => { x with stage := .bound, unit := none, steps := u.1 :: x.steps })) s

/-- A unit's self-test has failed: it is OFFLINE until a main reset, the event is recorded, and too few units left are a fault
(R358, R395, R599). -/
def goOffline (s : State) (u : UnitClass × Nat) : State :=
  match u with
  | (.hawkmoth, e) =>
    let t := redispatch (s.modEngine e (fun g => { g.zeroed with st := .offline })) u (s.engine e).queue
    let v := raise (logMain t 5 (0x0500 + e) 0x0501 0xFF 0 []) 1039
    if v.enginesLeft < 8 then faultCompare v .lock else v
  | (.plume, p) =>
    let t := redispatch (s.modPlume p (fun g => { g with st := .offline, mem := none })) u (s.plume p).queue
    let v := raise (logMain t 5 (0x0500 + p) 0x0501 0xFF 1 []) 1039
    if v.plumesLeft < 2 then faultCompare v .lock else v
  | _ => s

/-- A unit's self-test has passed: it is back in service, and what waits in its queue starts (R358). -/
def goIdle (s : State) (u : UnitClass × Nat) : State :=
  match u with
  | (.hawkmoth, e) => startEngine (s.modEngine e (fun g => { g with st := .idle })) e
  | (.plume, p) => startPlume (s.modPlume p (fun g => { g with st := .idle })) p
  | _ => s

/-- ENGINE_SELF_TEST_DONE: the self-test after a mismatch ends (R358, R395). -/
def execEngineSelfTestDone (cls : UnitClass) (unit : Nat) (pass : Bool) (s : State) : Host.Outcome State Fault Refusal :=
  .next (
    if (cls = .hawkmoth ∧ (s.engine unit).st = .inReset) ∨ (cls = .plume ∧ (s.plume unit).st = .inReset) then
      (if pass then goIdle s (cls, unit) else goOffline s (cls, unit))
    else s)

/-- The aborted operations of a unit: its own and those that wait for it. -/
def State.cutOn (s : State) (u : UnitClass × Nat) : List (Nat × Slot × Status) :=
  s.adm.slots.filterMap (fun e => match e.2.cut with
    | none => none
    | some st => if e.2.unit = some u then some (e.1, e.2, st) else none)

/-- The operation that runs on an engine or a Plume unit. -/
def State.running (s : State) (u : UnitClass × Nat) : Option Nat :=
  match u with
  | (.hawkmoth, e) => (s.engine e).queue.head?
  | (.plume, p) => (s.plume p).queue.head?
  | _ => none

/-- ENGINE_ABORT_DONE: an aborted engine or unit has zeroed itself, and its aborted operations end (R349, R350). -/
def execEngineAbortDone (cls : UnitClass) (unit : Nat) (s : State) : Host.Outcome State Fault Refusal :=
  .next (
    if cls.zeroes = false then s
    else
      let l := s.cutOn (cls, unit)
      if l.isEmpty then s
      else
        let s1 := if cls = .hawkmoth then closeEngine (s.modEngine unit Engine.zeroed) unit
          else s.modPlume unit (fun p => { p with mem := none })
        l.foldl (fun t e => endCut (unqueue t e.1 (cls, unit)) e.1 e.2.1 e.2.2 (s.running (cls, unit) == some e.1)) s1)

end Sys2Proof.Machine
end

