-- ==== Sys2Proof/Machine/Result.lean ====
section
/-! DEFINITION. What an opcode yields when its steps have ended, and how that becomes a completion or a committed change
(R20 to R22, R35, R36, R110, R117, R118, R191, R219, R556). -/

namespace Sys2Proof.Machine

/-- The outcome of an opcode. -/
structure Out where
  status  : Status := .ok
  detail  : Nat := 0
  len     : Nat := 0
  inline_ : Option Bytes := none
  dst     : Bytes := []
  changes : List Change := []
  handle  : Nat := 0
  deriving DecidableEq, Repr

/-- An outcome that writes and commits nothing (R21). -/
def Out.fail (st : Status) : Out := { status := st }

/-- KEY_USAGE for the key at a position (R110). -/
def Out.usage (pos : Nat) : Out := { status := .keyUsage, detail := pos }

/-- The outcome of a verification. -/
def Out.verdict (ok : Bool) : Out := if ok then {} else .fail .verifyFail

/-- An inline result of the first `n` bytes from byte 32. -/
def Out.inl (b : Bytes) : Out := { len := b.length, inline_ := some b }

/-- A result written to DST, with bytes 32 to 95 zero. -/
def Out.toDst (b : Bytes) : Out := { len := b.length, inline_ := some [], dst := b }

/-- The descriptor in a slot, if the result of this opcode is due: its steps have ended, or it has none and its buffers
are read. -/
def State.due (s : State) (n op : Nat) : Option Slot :=
  match s.slot n with
  | none => none
  | some x =>
    if opcode x.desc == op && x.res.isNone && x.cut.isNone &&
        (x.stage == .ran ||
          (x.stage == .bound && x.steps.isEmpty && buffersReady x.desc x.sgSrc x.sgDst x.src))
    then some x else none

/-- The commit-log entry of a descriptor (R556). -/
def commitEntry (s : State) (x : Slot) (st : Status) (handle : Nat) : CommitLog :=
  ⟨0, x.rid % 4096, x.index, dTag x.desc, x.part, s.odNat 0x7100 2, st, handle⟩

/-- The creation-log entry of a descriptor that created a key (R191). -/
def creationEntry (x : Slot) (handle : Nat) : List Change :=
  if handle = 0 then [] else [.creation x.part ⟨0, x.rid % 4096, x.index, dTag x.desc, handle⟩]

/-- The commit-queue item of descriptors and their changes: with the creation entries and one log entry each (R191, R556). -/
def commitItem (s : State) (l : Tab Slot) : Item where
  slots := tkeys l
  changes := (l.map (fun e => e.2.changes ++ creationEntry e.2 e.2.handle)).flatten ++
    l.map (fun e => .log (commitEntry s e.2 ((e.2.res.map (·.status)).getD .ok) e.2.handle))
  seq := 0
  reply := none

/-- Hand a commit-queue item over: its descriptors wait for its commit point. -/
def queueItem (s : State) (i : Item) : State :=
  i.slots.foldl (fun t n => t.modSlot n (fun x => { x with stage := .commitWait }))
    { s with commit := { s.commit with queue := s.commit.queue ++ [i] } }

/-- Entries the commit queue holds (R36). -/
def commitRoom (s : State) : Bool := decide (s.commit.queue.length < 4096)

/-- Store an outcome in its descriptor. -/
def setResult (s : State) (n : Nat) (o : Out) : State :=
  s.modSlot n (fun x =>
    { x with stage := .ran, unit := none, steps := [], changes := o.changes, handle := o.handle,
             res := some ⟨o.status, o.detail, if o.status = .ok ∨ o.inline_.isSome then o.len else 0, o.inline_, o.dst, x.time24 / 24, 0⟩ })

/-- Descriptors whose outcomes are known go on: what they changed waits for a commit point, and without a change their
completions may be written (R35, R117). -/
def conclude (s : State) (l : Tab Slot) : State :=
  if l.all (fun e => e.2.changes.isEmpty) then l.foldl (fun t e => t.modSlot e.1 (fun x => { x with stage := .done })) s
  else queueItem s (commitItem s l)

/-- The slots of a list as they stand now. -/
def State.slotsNow (s : State) (l : List Nat) : Tab Slot := l.filterMap (fun n => (s.slot n).map (fun x => (n, x)))

/-- The outcome of a descriptor that stands alone. -/
def settleAlone (s0 s : State) (n : Nat) (o : Out) : State :=
  if !o.changes.isEmpty && !commitRoom s0 then s0
  else let t := setResult s n o
    conclude t (t.slotsNow [n])

/-- The outcome of a chain entry: a failure ends the chain, and the last success lets all its changes commit together
(R117, R118). -/
def settleChained (s0 s : State) (n first : Nat) (x : Slot) (o : Out) : State :=
  if o.status ≠ .ok then settleAlone s0 (failChain s n) n o
  else if !x.chainEnd then setResult s n o
  else if !commitRoom s0 then s0
  else let t := setResult s n o
    conclude t (t.slotsNow (tkeys (chainSlots t x.rid first)))

/-- Settle a descriptor's outcome (R110, R117, R118). `s0` is the state to stay in while the commit queue is full (R36). -/
def settle (s0 s : State) (n : Nat) (x : Slot) (o : Out) : State :=
  match x.chain with
  | none => settleAlone s0 s n o
  | some first => settleChained s0 s n first x o

/-- The state in which an opcode's result is worked out: the time of work that had no step is counted (R111). -/
def workDone (s : State) (n : Nat) (x : Slot) : State := if x.stage = .bound then totalTime s n x else s

/-- The meaning of an opcode that only computes: when it is due, its outcome is settled. -/
def runOp (op : Nat) (n : Nat) (f : State → Slot → Out) (s : State) : Host.Outcome State Fault Refusal :=
  .next (match s.due n op with
    | none => s
    | some x => settle s (workDone s n x) n x (f s x))

/-- The meaning of an opcode whose outcome draws randomness or changes the state beside its descriptor. -/
def runOpS (op : Nat) (n : Nat) (f : State → Slot → Out × State) (s : State) : Host.Outcome State Fault Refusal :=
  .next (match s.due n op with
    | none => s
    | some x =>
      let (o, t) := f (workDone s n x) x
      settle s t n x o)

/-- NOP (R108). -/
def execNop (slot : Nat) (s : State) : Host.Outcome State Fault Refusal := runOp 0x000 slot (fun _ _ => {}) s

end Sys2Proof.Machine
end

