-- ==== Sys2Proof/Machine/Create.lean ====
section
/-! DEFINITION. Forming a new key record: the template's rules, the place the module chooses for it, its quotas and its
changes (R163 to R176, R184, R185, R204, R210). -/

namespace Sys2Proof.Machine

/-! ### Templates -/

/-- An algorithm code of R167. -/
def algKnown (a : Nat) : Bool := isSym a || isAsym a

/-- The usage permits the algorithm and the tier (R172). -/
def usageOk (u a tier : Nat) : Bool :=
  match usageRow u with
  | none => false
  | some (ok, lo, hi) => ok a && decide (lo ≤ tier ∧ tier ≤ hi)

/-- The content checks of a template that do not look at its tier (R204). -/
def templateFields (t : Template) : Bool :=
  algKnown t.alg && modeLetters.contains t.mode && (t.expo == 0x4E || t.expo == 0x45 || t.expo == 0x53) &&
    (t.hardened == 0 || t.hardened == 1 || t.hardened == 0xFF)

/-- The content checks of a template (R204). -/
def templateOk (t : Template) : Bool :=
  decide (1 ≤ t.tier ∧ t.tier ≤ 3) && usageOk t.usage t.alg t.tier && templateFields t

/-- HARDENED of a new key: the template's, or the partition's default (R176). -/
def hardenedFor (s : State) (p : Nat) (t : Template) : Bool :=
  if t.hardened = 0xFF then s.policyEntry p 6 == 1 else t.hardened == 1

/-! ### Where the module puts a new record (R164) -/

/-- The changes that are settled and have not reached their commit point. -/
def State.unapplied (s : State) : List Change :=
  (s.commit.queue.map (·.changes)).flatten ++
    ((s.adm.slots.filter (fun e => e.2.stage == .ran)).map (fun e => e.2.changes)).flatten

/-- Record slots that unapplied creations take. -/
def State.slotsTaken (s : State) : List Nat :=
  s.unapplied.filterMap (fun c => match c with
    | .record n _ => some n
    | _ => none)

/-- The records of a partition that unapplied creations add. -/
def State.recordsComing (s : State) (p : Nat) : List Rec :=
  s.unapplied.filterMap (fun c => match c with
    | .record n r => if r.part = p ∧ (s.rcd n).isNone then some r else none
    | _ => none)

/-- The first number from `k` on that is free, tried `fuel` times. -/
def firstFree (taken : Nat → Bool) : Nat → Nat → Option Nat
  | 0, _ => none
  | fuel + 1, k => if taken k then firstFree taken fuel (k + 1) else some k

/-- Slots that ATC tables hold; the module takes them from the top (R267). -/
def State.atcSlots (s : State) : Nat := ((tvals s.parts).map (fun x => x.atcCap / 8)).sum

/-- Record slots and granules that the vault copies of other pairs hold (R561); the module takes them from the top (DESIGN CHOICE,
assumption 33). -/
def State.vaultUse (s : State) : Nat × Nat :=
  ((s.pair.vaults.map (fun e => e.2.recs.length)).sum, (s.pair.vaults.map (fun e => (e.2.large.map (fun l => l.2.1)).sum)).sum)

/-- The slot of a new record: one that no record, ATC table, vault copy or unapplied creation holds and that is not retired (R162, R163). -/
def State.newSlot (s : State) : Option Nat :=
  let used := tkeys s.keys.recs ++ s.slotsTaken ++ s.keys.retired
  (firstFree (fun k => used.contains k) (used.length + 1) 1).filter (fun k => decide (k < 2 ^ 28 - s.atcSlots - s.vaultUse.1))

/-- The lineage entry of a new record of tiers 0 to 2 (R184, R189). -/
def State.newLineage (s : State) : Option Nat :=
  let held := tkeys (tfilter s.keys.lineage (fun _ l => l.owner.isSome))
  let coming := s.unapplied.filterMap (fun c => match c with
    | .record _ r => r.linIdx
    | _ => none)
  let used := held ++ coming ++ s.keys.linRet
  (firstFree (fun k => used.contains k) (used.length + 1) 0).filter (fun k => decide (k < 2 ^ 20))

/-- The granule runs in use, by first granule and count. -/
def State.runsUsed (s : State) : List (Nat × Nat) :=
  s.keys.large.map (fun e => (e.1, e.2.1)) ++
    s.unapplied.filterMap (fun c => match c with
      | .large f n _ => some (f, n)
      | _ => none)

/-- The first granule of a free run of `n` granules among the 8,388,608 there are (R169). -/
def State.newRun (s : State) (n : Nat) : Option Nat :=
  let used := s.runsUsed
  ((0 :: used.map (fun r => r.1 + r.2)).filter (fun f => decide (f + n ≤ 8388608 - s.vaultUse.2) &&
    used.all (fun r => !overlaps f n r.1 r.2))).min?

/-- Lineage entries of a partition, the unapplied ones included. -/
def State.lineageHeld (s : State) (p : Nat) : Nat :=
  s.lineageUsed p + ((s.recordsComing p).filter (fun r => r.linIdx.isSome)).length

/-- Granules of a partition, the unapplied ones included. -/
def State.granulesHeld (s : State) (p : Nat) : Nat := s.granulesUsed p + ((s.recordsComing p).map (·.runCount)).sum

/-- Records of a partition, the unapplied ones included. -/
def State.recordsHeld (s : State) (p : Nat) : Nat := s.recordsUsed p + (s.recordsComing p).length

/-! ### A new record -/

/-- What a creating opcode has formed. -/
structure NewKey where
  tpl      : Template
  pub      : Bool
  origin   : Nat
  material : Bytes
  parent   : Nat
  anc      : List Lin
  counter  : Nat
  deriving DecidableEq, Repr

/-- ANCESTRY of a new record of a tier with its own lineage entry (R184). -/
def ancestryOf (anc : List Lin) (tier : Nat) (own : Lin) : List Lin :=
  (List.range 3).map (fun u => if u < tier then anc.getD u ⟨0, 0⟩ else if u = tier then own else ⟨0, 0⟩)

/-- What a creation came to: its changes, its handle and its KCV. -/
structure Created where
  changes : List Change
  handle  : Nat
  kcv     : Bytes
  deriving DecidableEq, Repr

/-- A record as the store takes it, wrapped under its partition's record key (R168). -/
def State.keep (s : State) (r : Rec) : Rec := wrapRec ((s.part r.part).recKey.getD (zeros 64)) r

/-- Form a new record of a partition; none where a quota or the store has no room (R185, R210). -/
def newRecord (s : State) (p : Nat) (k : NewKey) : Option Created :=
  let t := k.tpl
  let large := isLarge t.alg k.pub
  let runCount := if large then granules k.material.length else 0
  let lin := if t.tier ≤ 2 then s.newLineage else some 0
  let run := if large then s.newRun runCount else some 0
  if s.quota p 5 ≤ s.recordsHeld p ∨ s.quota p 6 < s.granulesHeld p + runCount ∨
      (t.tier ≤ 2 ∧ s.policyEntry p 0x0A ≤ s.lineageHeld p) then none
  else match s.newSlot, lin, run with
    | some slot, some li, some first =>
      let r : Rec :=
        { tier := t.tier, large := large, hardened := hardenedFor s p t, part := p, alg := t.alg, usage := t.usage,
          mode := t.mode, expo := t.expo, version := t.version, pub := k.pub, origin := k.origin, revoked := false,
          gen := s.slotGen slot, parent := k.parent, anc := ancestryOf k.anc t.tier ⟨li, (s.lin li).gen⟩,
          kcv := kcvOf t.alg k.pub k.material, runCount := runCount, runFirst := first, notBefore := t.notBefore,
          notAfter := t.notAfter, counter := k.counter, material := if large then granuleKey slot (s.slotGen slot) else k.material }
      some ⟨(if large then [.large first runCount (sealGranules r.material slot r.gen k.material)] else []) ++ [.record slot (s.keep r)],
        mkHandle p slot r.gen, r.kcv⟩
    | _, _, _ => none

/-- A new record in the creating descriptor's partition, under the key bound at a position, with its COUNTER (R250). -/
def createWith (s : State) (x : Slot) (pos : Nat) (t : Template) (pub : Bool) (origin : Nat) (m : Bytes) (counter : Nat) : Option Created :=
  match x.keys.find? (fun k => k.pos == pos) with
  | none => none
  | some k => newRecord s x.part ⟨t, pub, origin, m, k.handle, k.rcd.anc, counter⟩

/-- A new record with COUNTER 0. -/
def createUnder (s : State) (x : Slot) (pos : Nat) (t : Template) (pub : Bool) (origin : Nat) (m : Bytes) : Option Created :=
  createWith s x pos t pub origin m 0

/-- The 16 result bytes of a creating opcode (R204). -/
def createdInline (c : Created) : Bytes := leBytes 8 c.handle ++ fit 5 c.kcv ++ zeros 3

/-- The outcome of a creation. -/
def createdOut (c : Option Created) : Out :=
  match c with
  | none => .fail .quota
  | some c => { len := 16, inline_ := some (createdInline c), changes := c.changes, handle := c.handle }

/-- A TDES key formed from random or derived bytes has odd parity (R205). -/
def formed (a : Nat) (m : Bytes) : Bytes := if isTdes a then oddParity m else m

/-- The stored record a bound key still names. -/
def State.stillHeld (s : State) (k : Bound) : Bool :=
  match s.rcd k.slot with
  | none => false
  | some r => r.rcd.gen == k.rcd.gen

end Sys2Proof.Machine
end

