-- ==== Sys2Proof/Machine/KeyOps.lean ====
section
/-! DEFINITION. The key-management opcodes 0x101 to 0x10D (R204 to R210, R285, R286). -/

namespace Sys2Proof.Machine

/-- The template of a creating opcode (R204). -/
def Slot.tpl (x : Slot) : Template := readTemplate (dOps x.desc)

/-- The key bound at a position, or an empty record where the opcode takes none. -/
def Slot.keyD (x : Slot) (pos : Nat) : Rec :=
  (x.key pos).getD
    { tier := 3, large := false, hardened := false, part := x.part, alg := 0, usage := 0, mode := 0, expo := 0, version := 0,
      pub := false, origin := 0, revoked := false, gen := 0, parent := 0, anc := [], kcv := [], runCount := 0, runFirst := 0,
      notBefore := 0, notAfter := 0, counter := 0, material := [] }

/-- The cipher of the key bound at a position. -/
def Slot.cipher (x : Slot) (pos : Nat) : Cipher := ⟨isAes (x.alg pos), (x.keyD pos).material⟩

/-- KEY_GENERATE (R204, R205). -/
def keyGenerateOut (s : State) (x : Slot) : Out × State :=
  let t := x.tpl
  if !templateOk t || !isSym t.alg then (.fail .inputRange, s)
  else
    let (m, s1) := (x.drawn 0 (symLen t.alg), s)
    (createdOut (createUnder s x 1 t false 0 (formed t.alg m)), s1)

/-- KEY_GENERATE. -/
def execKeyGenerate (slot : Nat) (s : State) : Host.Outcome State Fault Refusal := runOpS 0x101 slot keyGenerateOut s

/-- KEY_GENERATE_PAIR: the public key goes to DST (R205, R285). -/
def keyGeneratePairOut (s : State) (x : Slot) : Out × State :=
  let t := x.tpl
  if !templateOk t || !isAsym t.alg || decide (dDstLen x.desc < pubLen t.alg) then (.fail .inputRange, s)
  else
    let (rnd, s1) := (x.drawn 0 (pairRandom t.alg), s)
    let m := genPair t.alg rnd
    let o := createdOut (createUnder s x 1 t false 0 m)
    if o.status = .ok then ({ o with len := pubLen t.alg, dst := publicOf t.alg false m }, s1) else (o, s1)

/-- KEY_GENERATE_PAIR. -/
def execKeyGeneratePair (slot : Nat) (s : State) : Host.Outcome State Fault Refusal := runOpS 0x102 slot keyGeneratePairOut s

/-- KEY_DERIVE: the KDF with CMAC-AES under the parent (R205). -/
def keyDeriveOut (s : State) (x : Slot) : Out :=
  let t := x.tpl
  if !templateOk t || !isSym t.alg then .fail .inputRange
  else
    let m := kdfCmac (x.keyD 1).material (ascii "NLM-DRV") (slice x.desc 64 32) (8 * symLen t.alg)
    createdOut (createUnder s x 1 t false 1 (formed t.alg m))

/-- KEY_DERIVE. -/
def execKeyDerive (slot : Nat) (s : State) : Host.Outcome State Fault Refusal := runOp 0x103 slot keyDeriveOut s

/-- The template a key block's header and PARAM0 give. -/
def tr31Template (d : Bytes) (b : Tr31) (a : Nat) : Template :=
  ⟨a, b.usage, b.mode, b.expo, b.vers, bits (dP0 d) 1 0, if bit (dP0 d) 3 then 0xFF else b2n (bit (dP0 d) 2), 0, 0⟩

/-- COUNTER of an imported key: an IK block binds a B1 key to its ID (R250); none where the block cannot be read. -/
def tr31Counter (b : Tr31) (u : Nat) : Option Nat :=
  match b.opts.find? (fun o => o.1 == ascii "IK") with
  | none => some 0
  | some o => (fromHex o.2).map (fun id => if u = chars "B1" then idTag id * 2 ^ 32 else 0)

/-- KEY_IMPORT_TR31 (R208, R250). -/
def keyImportTr31Out (s : State) (x : Slot) : Out :=
  match tr31Read (x.src.getD []) with
  | none => .fail .inputRange
  | some b =>
    let kbpk := x.cipher 1
    if b.aes ≠ kbpk.aes then .usage 1
    else match tr31Open kbpk b with
      | none => .fail .verifyFail
      | some field => match tr31Content b field with
        | none => .fail .inputRange
        | some (a, m) =>
          let t := tr31Template x.desc b a
          if !templateOk t then .fail .inputRange
          else if !tr31KcOk b a (kcvOf a false m) then .fail .verifyFail
          else match tr31Counter b b.usage with
            | none => .fail .inputRange
            | some c => createdOut (createWith s x 2 t false 2 m c)

/-- KEY_IMPORT_TR31. -/
def execKeyImportTr31 (slot : Nat) (s : State) : Host.Outcome State Fault Refusal := runOp 0x104 slot keyImportTr31Out s

/-- Whether a key of a length travels in the form of RFC 3394 (R209). -/
def wrapPlain (n : Nat) : Bool := n % 8 == 0 && decide (16 ≤ n)

/-- The key a wrapped key holds: the form its length takes, and none where the integrity check fails (R209). -/
def keyUnwrap (kek w : Bytes) : Option Bytes :=
  match aesKwUnwrap kek w with
  | some m => some m
  | none => (aesKwpUnwrap kek w).filter (fun m => !wrapPlain m.length)

/-- KEY_IMPORT_WRAP (R209). -/
def keyImportWrapOut (s : State) (x : Slot) : Out :=
  let t := x.tpl
  if !templateOk t || !isSym t.alg then .fail .inputRange
  else
    match keyUnwrap (x.keyD 1).material (x.src.getD []) with
    | none => .fail .verifyFail
    | some m => if m.length ≠ symLen t.alg then .fail .inputRange else createdOut (createUnder s x 2 t false 3 m)

/-- KEY_IMPORT_WRAP. -/
def execKeyImportWrap (slot : Nat) (s : State) : Host.Outcome State Fault Refusal := runOp 0x105 slot keyImportWrapOut s

/-- An output written to DST alone, refused where DST_LEN is too small for it (R210). -/
def exportOut (d b : Bytes) : Out :=
  if dDstLen d < b.length then .fail .inputRange else { len := b.length, dst := b }

/-- KEY_EXPORT_TR31 (R208). -/
def keyExportTr31Out (s : State) (x : Slot) : Out × State :=
  let r := x.keyD 2
  let kbpk := x.cipher 1
  let (fill, s1) := (x.drawn 0 (tr31Fill kbpk.aes r), s)
  (exportOut x.desc (tr31Export kbpk r fill), s1)

/-- KEY_EXPORT_TR31. -/
def execKeyExportTr31 (slot : Nat) (s : State) : Host.Outcome State Fault Refusal := runOpS 0x106 slot keyExportTr31Out s

/-- KEY_EXPORT_WRAP (R209). -/
def keyExportWrapOut (_ : State) (x : Slot) : Out :=
  let kek := (x.keyD 1).material
  let m := (x.keyD 2).material
  exportOut x.desc (if wrapPlain m.length then aesKw kek m else aesKwp kek m)

/-- KEY_EXPORT_WRAP. -/
def execKeyExportWrap (slot : Nat) (s : State) : Host.Outcome State Fault Refusal := runOp 0x107 slot keyExportWrapOut s

/-- The key bound at a position, if the store still holds it. -/
def State.heldKey (s : State) (x : Slot) (pos : Nat) : Option Bound :=
  (x.keys.find? (fun k => k.pos == pos)).filter (fun k => s.stillHeld k)

/-- KEY_INVALIDATE (R186, R205). -/
def keyInvalidateOut (s : State) (x : Slot) : Out :=
  match s.heldKey x 1 with
  | none => {}
  | some k => { changes := [.revoke k.slot] }

/-- KEY_INVALIDATE. -/
def execKeyInvalidate (slot : Nat) (s : State) : Host.Outcome State Fault Refusal := runOp 0x108 slot keyInvalidateOut s

/-- The changes that free a record: its invalidation if not yet done, its lineage entry, and the record (R189, R205). -/
def destroyChanges (slot : Nat) (r : Rec) : List Change :=
  (if r.revoked then [] else [.revoke slot]) ++
    (match r.linIdx with
      | none => []
      | some i => [.lineageFree i (!r.revoked)]) ++ [.recordFree slot]

/-- KEY_DESTROY (R189, R205). -/
def keyDestroyOut (s : State) (x : Slot) : Out :=
  match s.heldKey x 1 with
  | none => {}
  | some k => { changes := destroyChanges k.slot (((s.rcd k.slot).map (·.rcd)).getD k.rcd) }

/-- KEY_DESTROY. -/
def execKeyDestroy (slot : Nat) (s : State) : Host.Outcome State Fault Refusal := runOp 0x109 slot keyDestroyOut s

/-- KEY_QUERY (R206). -/
def keyQueryOut (_ : State) (x : Slot) : Out :=
  let h := (x.keyD 1).header
  if dDst x.desc = 0 then .inl (slice h 0 24 ++ slice h 42 30) else .toDst (slice h 0 72)

/-- KEY_QUERY. -/
def execKeyQuery (slot : Nat) (s : State) : Host.Outcome State Fault Refusal := runOp 0x10A slot keyQueryOut s

/-- A bound of KEY_RESTRICT: all ones leaves the present one (R207). -/
def boundOr (v old : Nat) : Nat := if v = 2 ^ 64 - 1 then old else v

/-- KEY_RESTRICT (R207). -/
def keyRestrictOut (s : State) (x : Slot) : Out :=
  let d := x.desc
  let r := x.keyD 1
  let nb := boundOr (leAt d 32 8) r.notBefore
  let na := boundOr (leAt d 40 8) r.notAfter
  let ex := byteAt d 48
  if nb < r.notBefore ∨ (r.notAfter ≠ 0 ∧ (na = 0 ∨ r.notAfter < na)) ∨ (ex ≠ 0 ∧ ex ≠ 0x4E) then .fail .inputRange
  else if nb = r.notBefore ∧ na = r.notAfter ∧ (ex = 0 ∨ r.expo = 0x4E) then {}
  else match s.heldKey x 1 with
    | none => {}
    | some k => { changes := [.restrict k.slot nb na (if ex = 0x4E then 0x4E else r.expo)] }

/-- KEY_RESTRICT. -/
def execKeyRestrict (slot : Nat) (s : State) : Host.Outcome State Fault Refusal := runOp 0x10B slot keyRestrictOut s

/-- KEY_IMPORT_PUBLIC (R205, R286). -/
def keyImportPublicOut (s : State) (x : Slot) : Out :=
  let t := x.tpl
  let pk := x.src.getD []
  let use := (t.usage == chars "S0" && t.mode == 0x56) || (t.usage == chars "91" && t.mode == 0x45)
  if !templateOk t || !isAsym t.alg || !use then .fail .inputRange
  else match checkPublic t.alg pk with
    | .ok => createdOut (createUnder s x 1 t true 5 pk)
    | st => .fail st

/-- KEY_IMPORT_PUBLIC. -/
def execKeyImportPublic (slot : Nat) (s : State) : Host.Outcome State Fault Refusal := runOp 0x10C slot keyImportPublicOut s

/-- KEY_EXPORT_PUBLIC (R174, R285). -/
def keyExportPublicOut (_ : State) (x : Slot) : Out :=
  let r := x.keyD 1
  exportOut x.desc (publicOf r.alg r.pub r.material)

/-- KEY_EXPORT_PUBLIC. -/
def execKeyExportPublic (slot : Nat) (s : State) : Host.Outcome State Fault Refusal := runOp 0x10D slot keyExportPublicOut s

end Sys2Proof.Machine
end

