-- ==== Sys2Proof/Machine/BulkSign.lean ====
section
/-! DEFINITION. Bulk encryption, signatures, key agreement and encapsulation: opcodes 0x701, 0x702 and 0x801 to 0x805 (R282 to
R294). -/

namespace Sys2Proof.Machine

/-! ### Bulk (R282 to R284) -/

/-- Bytes of the IV a mode and key take. -/
def ivLen (mode : Nat) (c : Cipher) : Nat := if mode = 3 then 12 else c.block

/-- BULK_ENCRYPT (R282, R283). -/
def bulkEncryptOut (s : State) (x : Slot) : Out × State :=
  let d := x.desc
  let mode := bits (dP0 d) 3 0
  let c := x.cipher 1
  let src := x.src.getD []
  let aad := src.take (dP1 d)
  let pt := src.drop (dP1 d)
  let (rnd, t) := if bit (dP0 d) 4 then (x.drawn 0 (if mode = 3 then 12 else 16), s) else (slice d 32 16, s)
  let iv := slice rnd 0 (ivLen mode c)
  let (ct, tag) := if mode = 1 then (cbcEnc c iv pt, []) else if mode = 2 then (ctr c iv pt, []) else gcmEnc c.key iv aad pt
  ({ Out.toDst ct with inline_ := some (fit 16 iv ++ tag.take (bits (dP0 d) 12 8)) }, t)

/-- BULK_ENCRYPT. -/
def execBulkEncrypt (slot : Nat) (s : State) : Host.Outcome State Fault Refusal := runOpS 0x701 slot bulkEncryptOut s

/-- BULK_DECRYPT (R282 to R284). -/
def bulkDecryptOut (_ : State) (x : Slot) : Out :=
  let d := x.desc
  let mode := bits (dP0 d) 3 0
  let c := x.cipher 1
  let src := x.src.getD []
  let ct := src.drop (dP1 d)
  let iv := slice d 32 (ivLen mode c)
  if mode = 1 then .toDst (cbcDec c iv ct)
  else if mode = 2 then .toDst (ctr c iv ct)
  else match gcmDec c.key iv (src.take (dP1 d)) ct (slice d 48 (bits (dP0 d) 12 8)) with
    | none => .fail .verifyFail
    | some p => .toDst p

/-- BULK_DECRYPT. -/
def execBulkDecrypt (slot : Nat) (s : State) : Host.Outcome State Fault Refusal := runOp 0x702 slot bulkDecryptOut s

/-! ### Signatures (R287 to R290) -/

/-- The context and the message, or the digest, that a scheme takes from the message area. -/
def signInput (x : Slot) (area : Bytes) : Bytes × Bytes :=
  let d := x.desc
  let h := sHash d
  if sPre d then ([], slice d 32 (hashLen h))
  else if h = 0 then (area.take (sCtx d), area.drop (sCtx d))
  else ([], hashOf h area)

/-- Random bytes a signature takes. -/
def signRandom (x : Slot) : Nat :=
  let a := x.alg 1
  if isEcc a then 2 * (sigLen a / 2 + 8) else if isMldsa a then 32
  else if isRsa a && bits (dP0 x.desc) 6 5 == 1 then hashLen (sHash x.desc) else 0

/-- An ECDSA signature whose r or s is zero (R353). -/
def zeroSig (a : Nat) (sig : Bytes) : Bool := isEcc a && (allZero (slice sig 0 (sigLen a / 2)) || allZero (sig.drop (sigLen a / 2)))

/-- SIGN (R287 to R289); an ECDSA signature with a zero r or s is made again with the spare nonce, and is ABORTED after that
(R353). -/
def signOut (s : State) (x : Slot) : Out × State :=
  let d := x.desc
  let a := x.alg 1
  let area := if dSrc d = 0 then slice d 32 (sInl d) else x.src.getD []
  let (ctx, m) := signInput x area
  let (rnd, t) := (x.drawn 0 (signRandom x), s)
  let n := sigLen a
  let inl := dDst d == 0 && decide (n ≤ 64)
  if !inl && decide (dDstLen d < n) then (.fail .inputRange, t)
  else
    let once (r : Bytes) : Bytes := signWith a (sHash d) (bits (dP0 d) 6 5) (x.keyD 1).material r ctx m
    let first := once rnd
    let sig := if zeroSig a first then once (rnd.drop (sigLen a / 2 + 8)) else first
    (if zeroSig a sig then .fail .aborted else if inl then .inl sig else .toDst sig, t)

/-- SIGN. -/
def execSign (slot : Nat) (s : State) : Host.Outcome State Fault Refusal := runOpS 0x801 slot signOut s

/-- VERIFY (R287, R290). -/
def verifyOut (_ : State) (x : Slot) : Out :=
  let d := x.desc
  let r := x.keyD 1
  let src := x.src.getD []
  let n := sigLen r.alg
  let area := src.drop n
  if src.length < n ∨ (sPre d = false ∧ area.length < sCtx d) then .fail .inputRange
  else
    let (ctx, m) := signInput x area
    .verdict (verifyWith r.alg (sHash d) (bits (dP0 d) 6 5) (publicOf r.alg r.pub r.material) ctx m (src.take n))

/-- VERIFY. -/
def execVerify (slot : Nat) (s : State) : Host.Outcome State Fault Refusal := runOp 0x802 slot verifyOut s

/-! ### Key agreement and encapsulation (R292 to R294) -/

/-- A new record from a shared secret, under KEY2 (R294). -/
def fromSecret (s : State) (x : Slot) (label : String) (ctx z : Bytes) : Out :=
  let t := x.tpl
  if bit (dP0 x.desc) 0 then
    if symLen t.alg ≠ z.length then .fail .inputRange else createdOut (createUnder s x 2 t false 1 z)
  else createdOut (createUnder s x 2 t false 1 (formed t.alg (kdfHmac z (ascii label) ctx (8 * symLen t.alg))))

/-- A template that a secret-derived record may have. -/
def secretTpl (x : Slot) : Bool := templateOk x.tpl && isSym x.tpl.alg

/-- KEY_AGREE (R292). -/
def keyAgreeOut (s : State) (x : Slot) : Out :=
  let r := x.keyD 1
  let peer := if r.alg = 0x505 then slice x.desc 64 32 else x.src.getD []
  match agree r.alg r.material peer with
  | (.ok, z) => if secretTpl x then fromSecret s x "NLM-AGREE" (publicOf r.alg false r.material ++ peer) z else .fail .inputRange
  | (st, _) => .fail st

/-- KEY_AGREE. -/
def execKeyAgree (slot : Nat) (s : State) : Host.Outcome State Fault Refusal := runOp 0x803 slot keyAgreeOut s

/-- KEM_ENCAPSULATE (R293). -/
def kemEncapsulateOut (s : State) (x : Slot) : Out × State :=
  let r := x.keyD 1
  let (m, t) := (x.drawn 0 32, s)
  let (k, ct) := Lattice.kemEncaps (levelOf r.alg) (publicOf r.alg r.pub r.material) m
  if !secretTpl x || decide (dDstLen x.desc < ct.length) then (.fail .inputRange, t)
  else
    let o := fromSecret t x "NLM-KEM" (Sha.sha384 ct) k
    (if o.status = .ok then { o with len := ct.length, dst := ct } else o, t)

/-- KEM_ENCAPSULATE. -/
def execKemEncapsulate (slot : Nat) (s : State) : Host.Outcome State Fault Refusal := runOpS 0x804 slot kemEncapsulateOut s

/-- KEM_DECAPSULATE (R293). -/
def kemDecapsulateOut (s : State) (x : Slot) : Out :=
  let r := x.keyD 1
  let ct := x.src.getD []
  if ct.length ≠ ctLen r.alg ∨ secretTpl x = false then .fail .inputRange
  else fromSecret s x "NLM-KEM" (Sha.sha384 ct) (Lattice.kemDecaps (levelOf r.alg) r.material ct)

/-- KEM_DECAPSULATE. -/
def execKemDecapsulate (slot : Nat) (s : State) : Host.Outcome State Fault Refusal := runOp 0x805 slot kemDecapsulateOut s

end Sys2Proof.Machine
end

