-- ==== Sys2Proof/Machine/Od.lean ====
section
/-! DEFINITION. How an object-dictionary request is taken, who may make it, what a grant must hold, and how a write is
accepted or refused (R194 to R200, R567 to R576, R583). -/

namespace Sys2Proof.Machine

/-! ### Taking a request -/

/-- The session a request names. -/
def State.session (s : State) (rq : Req) : Option Session := if rq.session = 0 then none else tget s.od.sessions rq.session

/-- Put an envelope into the reply buffer of the mailbox (R581). -/
def mailboxReply (s : State) (env : Bytes) : State :=
  if s.od.busy then
    if s.od.dropReply then { s with od := { s.od with busy := false, dropReply := false } }
    else raise { s with od :=
      { s.od with busy := false, replyUp := true, replyLen := env.length,
                  replyBuf := bufWrite s.od.replyBuf 0 env } } 1027
  else s

/-- Answer a retransmission with the cached reply (R576). -/
def resend (s : State) (rq : Req) (x : Session) : State :=
  let s1 := { s with bus := { s.bus with replies := s.bus.replies ++ [(rq, slice x.cached 16 (x.cached.length - 16))] } }
  if rq.transport = 0 then mailboxReply s1 x.cached else s1

/-- Answer a request that is not its session's outstanding one. -/
def answer (s : State) (rq : Req) (body : Bytes) : State :=
  let s1 := { s with bus := { s.bus with replies := s.bus.replies ++ [(rq, body)] } }
  if rq.transport = 0 then mailboxReply s1 (envelope s1 rq body) else s1

/-- Refuse a request with a status (R573). -/
def refuse (s : State) (rq : Req) (idx sub op : Nat) (st : Status) : State := sendReply s rq idx sub op st.code []

/-- Take a request: a retransmission is answered from the cache, an older one discarded, and one that comes while its session
has another outstanding is refused (R575, R576). `SEQ` is kept as one more than the last value, 0 for none. -/
def takeReq (s : State) (rq : Req) (idx sub op : Nat) : State × Bool :=
  let s0 := { s with od := { s.od with inbox := s.od.inbox.filter (fun e => e.1 != rq) } }
  match s0.session rq with
  | none => (s0, true)
  | some x =>
    if rq.seq + 1 < x.seq then (s0, false)
    else if rq.seq + 1 = x.seq then (if x.busy then s0 else resend s0 rq x, false)
    else if x.busy then
      (answer s0 rq (replyBody idx sub op (Status.code .notActive) rq.reqId []), false)
    else
      let keep := x.stageIdx == some (idx, sub)
      let y := { x with seq := rq.seq + 1, busy := true, lastUs := s0.opUs,
                        stageIdx := if keep then x.stageIdx else none,
                        stageData := if keep then x.stageData else [] }
      ({ s0 with od := { s0.od with sessions := tset s0.od.sessions rq.session y } }, true)

/-! ### Who may ask -/

/-- Roles (R194): Security Officer 1, Key Custodian 2, Partition Administrator 4, Auditor 8. -/
def State.roles (s : State) (m : Nat) : Nat := s.odNat (0x3500 + m) 1

/-- The member of an authenticated session on the transport that carries the request. -/
def State.caller (s : State) (rq : Req) : Option Nat :=
  match s.session rq with
  | none => none
  | some x => if x.keyed ∧ x.transport = rq.transport then some x.member else none

/-- Entries read without a session (R563, R569). -/
def openRead (idx sub : Nat) : Bool :=
  idx / 0x1000 == 1 || (idx == 0x8000 && decide (1 ≤ sub ∧ sub ≤ 4)) || (idx == 0x8030 && (sub == 1 || sub == 2 || sub == 4))
    || (idx == 0x8020 && sub == 1) || (idx == 0x8010 && sub == 1) || (idx == 0x7102 && (sub == 1 || sub == 3))

/-- Entries written without a session (R563, R569). -/
def State.openWrite (s : State) (idx sub : Nat) : Bool :=
  (idx == 0x8030 && sub == 3) || (idx == 0x8020 && sub == 2) || (idx == 0x8010 && sub == 2 && s.life.latched == 0x33)
    || (idx == 0x3400 && (sub == 1 || sub == 2 || sub == 4)) || (idx == 0x7102 && (sub == 2 || sub == 4))

/-- Whether a request comes from an authenticated session of any role. -/
def State.anyRole (s : State) (rq : Req) : Bool :=
  match s.caller rq with
  | none => false
  | some m => s.roles m != 0

/-- Whether a request may read an entry (R568, R569, R583). -/
def State.mayRead (s : State) (rq : Req) (idx sub : Nat) : Bool :=
  s.factory || rq.transport == 2 || openRead idx sub || s.anyRole rq

/-- Whether the caller holds one of the roles of a mask; `pa0` also admits a Partition Administrator of partition 0. -/
def State.holds (s : State) (rq : Req) (mask : Nat) (pa0 : Bool) : Bool :=
  s.factory || (match s.caller rq with
    | none => false
    | some m => s.roles m &&& mask != 0 || (pa0 && bit (s.roles m) 2 && s.odNat (0x3500 + m) 2 == 0))

/-- Whether a request may carry a write authorised by a grant (R568, R583). -/
def State.mayGrant (s : State) (rq : Req) : Bool := s.factory || rq.transport == 2 || s.anyRole rq

/-! ### Grants -/

/-- Uses of a grant that accepted writes will consume at their commit points (R572). -/
def State.usesPending (s : State) (id : Nat) (own : Bool) : Nat :=
  ((s.commit.queue.map (·.changes)).flatten.filter (· == .grantUse id own)).length
    + ((s.keys.kdJobs.map (·.uses)).flatten.filter (· == .grantUse id own)).length

/-- The MAC of a grant's first 16 bytes and PARAMS_DIGEST under the grant key (R199). -/
def grantMac (key head digest : Bytes) : Bytes := cmac ⟨true, key⟩ (head ++ digest)

/-- The record of a grant that passes R200 for a class, a partition and a value: of this module's own grants the MAC is checked, a
replicated one of the partner needs only be equal byte for byte (R540). -/
def State.grantFor (s : State) (cls part : Nat) (v grant : Bytes) (clock : Bool) : Option Grant :=
  match s.keys.grantKey with
  | none => none
  | some k => s.quorum.grants.find? (fun g =>
      g.bytes == grant && decide (grant.length = 32) && g.cls == cls && g.part == part
        && (!g.own || slice grant 16 16 == grantMac k (slice grant 0 16) g.digest)
        && (if clock && s.seam.unsynced then g.own && decide (s.opUs < g.issuedUs + 1000000 * s.odNat (0x3300 + cls) 3)
            else !s.seam.unsynced && decide (s.timeUs < g.expiry))
        && decide (s.usesPending g.id g.own < g.left)
        && (allZero g.digest || g.digest == Sha.sha256 v))

/-! ### Accepting and refusing -/

/-- OP of a write as its reply echoes it. -/
def writeOp (domain : Bool) (grant : Bytes) : Nat := (if domain then 0x22 else 0x20) + (if grant.isEmpty then 0 else 1)

/-- An accepted volatile write: it takes effect and is answered at once (R567). -/
def acceptNow (s : State) (rq : Req) (idx sub op : Nat) (data : Bytes) : State := sendReply s rq idx sub op 0 data

/-- An accepted persistent write: its changes wait for a commit point, and the reply for their durability (R567). -/
def acceptCommit (s : State) (rq : Req) (idx sub op : Nat) (data : Bytes) (l : List Change) : State :=
  { s with commit := { s.commit with queue := s.commit.queue ++ [⟨[], l, 0, some (rq, idx, sub, op, data)⟩] } }

/-- An accepted write whose effect is volatile: its reply waits only for the grant's use it consumes (R567, R572). -/
def acceptUse (s : State) (rq : Req) (idx sub op : Nat) (data : Bytes) (use : List Change) : State :=
  if use.isEmpty then acceptNow s rq idx sub op data else acceptCommit s rq idx sub op data use

/-- The status of a value written to a BOOL (R565). -/
def boolCheck (v : Nat) : Option Status := if 256 ≤ v then some .malformed else if 1 < v then some .inputRange else none

/-- A change of committed state that no request waits for. -/
def commitQuietly (s : State) (l : List Change) : State :=
  { s with commit := { s.commit with queue := s.commit.queue ++ [⟨[], l, 0, none⟩] } }

/-- Serve a write: take it, refuse it in BOOT_STOPPED unless it is served there, check who asks, then do it (R438, R568, R573). -/
def serveWrite (s : State) (rq : Req) (idx sub op : Nat) (stopped : Bool) (may : State → Bool) (f : State → State) : State :=
  let (s1, go) := takeReq s rq idx sub op
  if !go then s1
  else if s1.service == .bootStopped && !stopped then refuse s1 rq idx sub op .notActive
  else if !may s1 then refuse s1 rq idx sub op .keyUsage
  else f s1

/-- OP of a plain write: a DOMAIN entry is written in segments (R570, R571). -/
def plainOp (idx sub : Nat) : Nat := if (odEntry idx sub).any (fun e => e.size == 0) then 0x22 else 0x20

/-- Serve a write to an entry a role may write: a status refuses it, no status does it (R574). -/
def roleWrite (s : State) (rq : Req) (idx sub mask : Nat) (pa0 : Bool) (check : State → Option Status) (f : State → State) : State :=
  let op := plainOp idx sub
  serveWrite s rq idx sub op false (fun t => t.holds rq mask pa0) (fun t => match check t with
    | some st => refuse t rq idx sub op st
    | none => f t)

/-- Serve a write that needs no session (R569). -/
def openServe (s : State) (rq : Req) (idx sub : Nat) (check : State → Option Status) (f : State → State) : State :=
  let op := plainOp idx sub
  serveWrite s rq idx sub op false (fun t => t.factory || t.openWrite idx sub || t.anyRole rq) (fun t => match check t with
    | some st => refuse t rq idx sub op st
    | none => f t)

/-- Serve a write to an RWQ entry: its grant must pass R200, unless the life-cycle state waives it (R452, R568); what it
does learns which use it consumes. -/
def grantWrite (s : State) (rq : Req) (idx sub cls part : Nat) (domain : Bool) (v grant : Bytes) (check : State → Option Status)
    (f : State → List Change → State) : State :=
  let op := writeOp domain grant
  serveWrite s rq idx sub op false (fun t => t.mayGrant rq) (fun t =>
    let go (use : List Change) := match check t with
      | some st => refuse t rq idx sub op st
      | none => f t use
    if t.factory then go []
    else match t.grantFor cls part v grant (idx == 0x7001) with
      | none => refuse t rq idx sub op .keyUsage
      | some g => go [.grantUse g.id g.own])

/-- An RWQ entry whose accepted value is simply committed. -/
def grantOd (s : State) (rq : Req) (idx sub cls part : Nat) (v grant : Bytes) (check : State → Option Status) : State :=
  grantWrite s rq idx sub cls part false v grant check (fun t use =>
    acceptCommit t rq idx sub (writeOp false grant) [] (.od idx sub v :: use))

/-- A configuration write goes to the acting master: this module commits it and broadcasts, or forwards it, and the reply waits for
the broadcast (R526). -/
def configPut (s : State) (rq : Req) (idx sub op : Nat) (v : Bytes) (use : List Change) : State :=
  if s.isMaster then acceptUse (stepEpoch s (some (idx, sub, v))) rq idx sub op [] use
  else
    let t := sendTo (if use.isEmpty then s else commitQuietly s use) s.actingMaster 4 (configMessage (some (idx, sub, v)) 0 [])
    { t with od := { t.od with cfgWait := t.od.cfgWait ++ [(rq, idx, sub, op, v)] } }

/-- A granted write to a configuration entry: refused with NOT_ACTIVE in quarantine (R526, R529). -/
def grantConfig (s : State) (rq : Req) (idx sub cls : Nat) (v grant : Bytes) (check : State → Option Status) : State :=
  grantWrite s rq idx sub cls 0 false v grant
    (fun t => if t.seam.quarantine ≠ 0 then some .notActive else check t)
    (fun t use => configPut t rq idx sub (writeOp false grant) v use)

/-- The status of a value against an entry's size and range (R565, R573). -/
def valueCheck (e : Entry) (v : Bytes) : Option Status :=
  if v.length ≠ e.size then some .malformed
  else if (e.hi ≠ 0) && !e.str && !(decide (e.lo ≤ leNat v ∧ leNat v ≤ e.hi)) then some .inputRange
  else none

/-- The status of a number against the entry it is written to. -/
def numCheck (idx sub v : Nat) : Option Status :=
  match odEntry idx sub with
  | none => some .keyUsage
  | some e => if 2 ^ (8 * e.size) ≤ v then some .malformed
    else if e.hi ≠ 0 ∧ (v < e.lo ∨ e.hi < v) then some .inputRange else none

/-- The bytes of a number as an entry carries it. -/
def numBytes (idx sub v : Nat) : Bytes :=
  match odEntry idx sub with
  | none => []
  | some e => leBytes e.size v

end Sys2Proof.Machine
end

