-- ==== Sys2Proof/Machine/Events.lean ====
section
/-! DEFINITION. Events: hold-off windows, maps, MSI-X commits, masks and holds, the supervisor cores, and idle and wake
(R394 to R417, R486, R487). -/

namespace Sys2Proof.Machine

/-! ### Sources, maps and vectors -/

/-- The function a source is mapped by, and its number there: a bound group belongs to the VF, everything else to the PF
(R98, R416). -/
def State.sourceOwner (s : State) (n : Nat) : Nat × Nat :=
  if n < 1024 then match s.vfGroupOf n with
    | some gid => (gid / 1024, gid % 1024)
    | none => (0, n)
  else (0, n)

/-- The key of a map entry: function and number there. -/
def mapKey (fn local_ : Nat) : Nat := fn * 2048 + local_

/-- The map entry of a source (R416). -/
def State.mapOf (s : State) (n : Nat) : MapEntry :=
  let o := s.sourceOwner n
  tgetD s.eic.map (mapKey o.1 o.2) map0

/-- A source that is ready, enabled and mapped to vector `v` of function `fn` (R398, R403). -/
def State.readyOn (s : State) (fn v n : Nat) : Bool :=
  s.eic.ready.contains n && s.eic.hostPend.contains n && (s.sourceOwner n).1 == fn && (s.mapOf n).enable && (s.mapOf n).vector == v

/-- PBA bits without a ready, enabled source that is still pending read 0 (R403). -/
def settlePba (s : State) (fn : Nat) : State :=
  s.modFn fn (fun f => { f with pba := f.pba.filter (fun v => s.eic.ready.any (fun n => s.readyOn fn v n)) })

/-- MSI-X table entries of a function (R42). -/
def vectorCount (fn : Nat) : Nat := if fn = 0 then 256 else 64

/-- The MSI-X table entry of a vector (R400). -/
def Fn.entry (f : Fn) (v : Nat) : MsixEntry := tgetD f.msix v msix0

/-! ### Hold-off -/

/-- Close a hold-off window: every pending source of the group is ready (R397). -/
@[noinline] def closeWindow (s : State) (h : Nat) : State :=
  if (s.holdOff h).isOpen then
    { s with eic := { s.eic with
      ready := (s.eic.hostPend.filter (fun n => n / 16 == h)).foldl (fun l n => sins n l) s.eic.ready,
      holdOff := tset s.eic.holdOff h { s.holdOff h with isOpen := false, remain := 0 } } }
  else s

/-- HOLDOFF_WINDOW_CLOSE (R397). -/
def execHoldoffWindowClose (group : Nat) (s : State) : Host.Outcome State Fault Refusal := .next (closeWindow s group)

/-! ### Arbitration and commit -/

/-- Whether a source is considered for a message (R80, R83, R398, R399, R404, R434): one left pending by a disabled partition's rings is
not, until it is raised again (R405). -/
def State.considered (s : State) (n : Nat) : Bool :=
  let fn := (s.sourceOwner n).1
  let f := s.fn fn
  let m := s.mapOf n
  s.eic.ready.contains n && s.eic.hostPend.contains n && !s.eic.quiet.contains n && m.enable && s.fnExists fn && decide (m.vector < s.vectors fn)
    && decide (m.vector < vectorCount fn) && f.msixEnable && f.busMaster && !f.hold && !s.eic.globalHold && !s.tamper.pathCut
    && !f.d3hot && (fn == 0 || (s.fnState fn != .disabled && s.fnState fn != .unmapped))

/-- Whether the vector of a source is masked (R399). -/
def State.masked (s : State) (n : Nat) : Bool :=
  let f := s.fn (s.sourceOwner n).1
  f.funcMask || (f.entry (s.mapOf n).vector).mask

/-- Sources the arbiter still has to decide: a withheld one waits for its unmask (R399, R403). -/
def State.undecided (s : State) (n : Nat) : Bool :=
  s.considered n && !(s.masked n && (s.fn (s.sourceOwner n).1).pba.contains (s.mapOf n).vector)

/-- The source the arbiter takes: highest PRIORITY, then lowest number (R398). -/
def State.arbiter (s : State) : Option Nat :=
  (s.eic.ready.filter s.undecided).foldl (fun m n => match m with
    | none => some n
    | some b => if (s.mapOf b).priority < (s.mapOf n).priority then some n else some b) none

/-- The commit of a message: it is sent, every ready pending source of the vector clears, and so does its PBA bit (R399, R400); a group
binding that waited for a pending bit alone is released (R98). -/
def commitMessage (s : State) (n : Nat) : State :=
  let fn := (s.sourceOwner n).1
  let v := (s.mapOf n).vector
  let e := (s.fn fn).entry v
  let sent := s.eic.ready.filter (s.readyOn fn v)
  let s1 := { s with
    bus := { s.bus with messages := s.bus.messages ++ [(fn, e.addr, e.data)] }
    eic := { s.eic with hostPend := s.eic.hostPend.filter (fun k => !sent.contains k),
                        ready := s.eic.ready.filter (fun k => !sent.contains k) } }
  releaseGroups (s1.modFn fn (fun f => { f with pba := sdel v f.pba })) fn

/-- Decide one source: commit its message or withhold it (R399). -/
def decideSource (s : State) (n : Nat) : State :=
  if s.masked n then s.modFn (s.sourceOwner n).1 (fun f => { f with pba := sins (s.mapOf n).vector f.pba })
  else commitMessage s n

/-- MSIX_COMMIT: the arbiter's choice is committed or withheld (R398, R399). -/
def execMsixCommit (source : Nat) (s : State) : Host.Outcome State Fault Refusal :=
  .next (if s.arbiter = some source then decideSource s source else s)

/-! ### Masks, holds and maps -/

/-- BAR0 offset of a vector's Vector Control (R53). -/
def vectorControlAt (fn v : Nat) : Nat := (if fn = 0 then 0x18000 else 0x2000) + 16 * v + 12

/-- VECTOR_CONTROL_WRITE (R401, R403). -/
def execVectorControlWrite (fn vector : Nat) (mask : Bool) (s : State) : Host.Outcome State Fault Refusal :=
  .next (
    if vector < vectorCount fn then
      barAccess s fn (vectorControlAt fn vector) (fun t =>
        t.modFn fn (fun f => { f with msix := tset f.msix vector { f.entry vector with mask := mask } }))
    else s)

/-- FUNCTION_MASK_WRITE (R401). -/
def execFunctionMaskWrite (fn : Nat) (mask : Bool) (s : State) : Host.Outcome State Fault Refusal :=
  .next (configAccess s fn 0xB2 (fun t => t.modFn fn (fun f => { f with funcMask := mask })))

/-- VECTOR_CONTROL_READ: committed messages leave at their commit point, so the read completes at once (R402). -/
def execVectorControlRead (fn vector : Nat) (s : State) : Host.Outcome State Fault Refusal :=
  .next (
    if vector < vectorCount fn then
      barAccess s fn (vectorControlAt fn vector) (fun t =>
        readBack t fn (vectorControlAt fn vector) (b2n ((t.fn fn).entry vector).mask))
    else s)

/-- MSI-X Message Control: table size, Function Mask and MSI-X Enable (R42, R402). -/
def State.messageControl (s : State) (fn : Nat) : Nat :=
  vectorCount fn - 1 + 2 ^ 14 * b2n (s.fn fn).funcMask + 2 ^ 15 * b2n (s.fn fn).msixEnable

/-- MESSAGE_CONTROL_READ (R402). -/
def execMessageControlRead (fn : Nat) (s : State) : Host.Outcome State Fault Refusal :=
  .next (configAccess s fn 0xB2 (fun t => readBack t fn (6 * 2 ^ 24 + 0xB2) (t.messageControl fn)))

/-- The source a pending bit of a function names (R416). -/
def State.pendSource (s : State) (fn n : Nat) : Option Nat :=
  if fn = 0 then (if 1440 ≤ n ∨ reservedSource n then none else some n)
  else if n < 64 then (s.group (fn * 1024 + n)).glob else none

/-- Clear host pending bits of a function (R396, R403); a group binding that waited for one of them alone is released (R98). -/
def clearPending (s : State) (fn : Nat) (l : List Nat) : State :=
  let e := { s.eic with hostPend := s.eic.hostPend.filter (fun k => !l.contains k),
                        ready := s.eic.ready.filter (fun k => !l.contains k) }
  releaseGroups (settlePba { s with eic := e } fn) fn

/-- EIC_SRC_PEND_W1C (R396, R403, R416). -/
def execEicSrcPendW1c (fn word v : Nat) (s : State) : Host.Outcome State Fault Refusal :=
  .next (
    if word < (if fn = 0 then 48 else 2) then
      barAccess s fn ((if fn = 0 then 0x1300 else 0x500) + 4 * word) (fun t =>
        clearPending t fn (((List.range 32).filter (bit v)).filterMap (fun b => t.pendSource fn (32 * word + b))))
    else s)

/-- BAR0 offset of a function's EIC_CTL (R53, R416). -/
def eicCtlAt (fn : Nat) : Nat := if fn = 0 then 0x1000 else 0x400

/-- EIC_HOLD_WRITE (R404). -/
def execEicHoldWrite (fn : Nat) (hold : Bool) (s : State) : Host.Outcome State Fault Refusal :=
  .next (barAccess s fn (eicCtlAt fn) (fun t => t.modFn fn (fun f => { f with hold := hold })))

/-- EIC_GLOBAL_HOLD_WRITE (R404). -/
def execEicGlobalHoldWrite (hold : Bool) (s : State) : Host.Outcome State Fault Refusal :=
  .next (barAccess s 0 (eicCtlAt 0) (fun t => { t with eic := { t.eic with globalHold := hold } }))

/-- One half of an EIC_MAP write (R416). -/
def mapHalf (fn h : Nat) : MapEntry := ⟨bit h 15, bits h 11 8, bits h (if fn = 0 then 7 else 5) 0⟩

/-- Whether a half of a function's EIC_MAP is writable: on the PF not reserved, not internal, not bound to a VF (R416). -/
def State.mapOpen (s : State) (fn n : Nat) : Bool :=
  if fn = 0 then decide (n < 1440) && !reservedSource n && (n ≥ 1024 || (s.vfGroupOf n).isNone) else decide (n < 64)

/-- A write of an EIC_MAP word: refused whole where it enables a vector at or above VECTORS (R80, R416). -/
def writeMap (s : State) (fn k v : Nat) : State :=
  let halves := ([(2 * k, mapHalf fn (v % 65536)), (2 * k + 1, mapHalf fn (v / 65536))]).filter (fun e => s.mapOpen fn e.1)
  if halves.any (fun e => e.2.enable && decide (s.vectors fn ≤ e.2.vector)) then s.modFn fn (fun f => { f with mapRefused := true })
  else settlePba (halves.foldl (fun t e => { t with eic := { t.eic with map := tset t.eic.map (mapKey fn e.1) e.2 } }) s) fn

/-- EIC_MAP_WRITE (R80, R416). -/
def execEicMapWrite (fn k v : Nat) (s : State) : Host.Outcome State Fault Refusal :=
  .next (
    if k < (if fn = 0 then 768 else 32) then
      barAccess s fn ((if fn = 0 then 0x1400 else 0x600) + 4 * k) (fun t => writeMap t fn k v)
    else s)

/-- Return a function's pending bits, PBA, map entries and HOLD to reset values; on the PF the hold-off timers and GLOBAL_HOLD
too (R406). -/
def resetEic (s : State) (fn : Nat) : State :=
  let own := s.eic.hostPend.filter (fun n => (s.sourceOwner n).1 == fn)
  let e := { s.eic with
    hostPend := s.eic.hostPend.filter (fun n => !own.contains n),
    ready := s.eic.ready.filter (fun n => !own.contains n),
    map := tfilter s.eic.map (fun k _ => k / 2048 != fn),
    holdOff := if fn = 0 then [] else s.eic.holdOff,
    globalHold := if fn = 0 then false else s.eic.globalHold }
  ({ s with eic := e }).modFn fn (fun f => { f with pba := [], hold := false, mapRefused := false })

/-! ### Resets asked for -/

/-- Ask for a main reset (R490, R495): ignored during the power-fail flush; before stop point 1 a warm trigger is ignored and
recorded; a cold trigger or an abrupt one takes over a waiting reset. -/
def askReset (s : State) (p : PendingReset) : State :=
  if s.power.pfail then s
  else if s.power.stopPoint = 0 ∧ p.kind = 2 ∧ s.service = .starting ∧ s.power.source ≠ 0x0B ∧ s.power.power ≠ .standby then
    logMain s 3 0x0A00 0x0A01 0xFF 0 (leBytes 4 (2 ^ 29 + p.source * 2 ^ 16) ++ leBytes 6 s.power.lastSeq)
  else match s.power.waiting with
    | none => { s with power := { s.power with waiting := some p } }
    | some w =>
      let kind := if p.kind = 4 ∧ w.kind = 4 then 4 else if (p.kind = 4 ∨ w.kind = 4) ∧ p.orderly ∧ w.orderly then 4
        else if p.kind = 2 ∧ w.kind = 2 then 2 else 1
      let q : PendingReset := { kind := kind, source := if p.kind < w.kind ∨ (w.orderly ∧ !p.orderly) then p.source else w.source,
                                orderly := p.orderly && w.orderly, core := if p.source = 8 then p.core else w.core }
      { s with power := { s.power with waiting := some q } }

/-! ### Supervisor cores -/

/-- The core a source is handled by: the watchdog's internal source of core `c` is numbered 1,440 + `c`. -/
def sourceCore (n : Nat) : Nat := if 1440 ≤ n ∧ n < 1444 then n - 1440 else Config.coreOf n % 4

/-- The core priority of a source; the watchdog's is 15 (R407, R411). -/
def sourcePriority (n : Nat) : Nat := if 1440 ≤ n ∧ n < 1444 then 15 else Config.corePriority n % 16

/-- Whether a source exceeds a core's running priority (R408). -/
def Core.below (c : Core) (n : Nat) : Bool :=
  match c.claimed with
  | [] => true
  | e :: _ => decide (e.1 < sourcePriority n)

/-- The target of a core: its highest pending source above RP, the lower number first (R408, R409). -/
def State.target (s : State) (c : Nat) : Option Nat :=
  (s.eic.corePend.filter (fun n => sourceCore n == c && (s.core c).below n)).foldl (fun m n => match m with
    | none => some n
    | some b => if sourcePriority b < sourcePriority n then some n else some b) none

/-- CORE_HANDLER_ENTRY: the core preempts its work for a target, at most 16 deep (R408). -/
def execCoreHandlerEntry (core : Nat) (s : State) : Host.Outcome State Fault Refusal :=
  .next (
    if core < 4 ∧ (s.target core).isSome ∧ (s.core core).entered = (s.core core).claimed.length ∧ (s.core core).entered < 16 then
      s.modCore core (fun c => { c with entered := c.entered + 1 })
    else s)

/-- CORE_CLAIM_READ (R408, R409). -/
def execCoreClaimRead (core : Nat) (s : State) : Host.Outcome State Fault Refusal :=
  .next (
    if 4 ≤ core then s
    else match s.target core with
      | none => s.modCore core (fun c => { c with claim := 0xFFFF })
      | some n =>
        let e := { s.eic with corePend := sdel n s.eic.corePend }
        ({ s with eic := e }).modCore core (fun c => { c with claim := n, claimed := (sourcePriority n, n) :: c.claimed }))

/-- CORE_COMPLETION_WRITE: writing the claimed source pops RP (R408). -/
def execCoreCompletionWrite (core source : Nat) (s : State) : Host.Outcome State Fault Refusal :=
  .next (match (s.core core).claimed with
    | [] => s
    | e :: r => if core < 4 ∧ e.2 = source then s.modCore core (fun c => { c with claimed := r }) else s)

/-- CORE_HANDLER_RETURN: with a target above the restored RP the core enters its handler at once (R408, R410). -/
def execCoreHandlerReturn (core : Nat) (s : State) : Host.Outcome State Fault Refusal :=
  .next (
    if core < 4 ∧ (s.core core).claimed.length < (s.core core).entered ∧ s.target core = none then
      s.modCore core (fun c => { c with entered := c.entered - 1 })
    else s)

/-- CORE_WATCHDOG_RESTART (R411). -/
def execCoreWatchdogRestart (core : Nat) (s : State) : Host.Outcome State Fault Refusal :=
  .next (if core < 4 then s.modCore core (fun c => { c with wdog := 0 }) else s)

/-- CORE_WATCHDOG_STAGE1: an internal source of priority 15 is raised on the core (R411). -/
def execCoreWatchdogStage1 (core : Nat) (s : State) : Host.Outcome State Fault Refusal :=
  .next (
    if core < 4 ∧ (s.core core).wdog = 0 then raise (s.modCore core (fun c => { c with wdog := 1 })) (1440 + core) else s)

/-- CORE_WATCHDOG_STAGE2: the Cocoon records the core, and a warm main reset starts (R411, R490). -/
def execCoreWatchdogStage2 (core : Nat) (s : State) : Host.Outcome State Fault Refusal :=
  .next (
    if core < 4 ∧ (s.core core).wdog = 1 then
      let s1 := logCocoon s 5 0x0A00 0x0A03 0xFF core []
      let s2 := { s1 with eic := { s1.eic with wdogResets := min 0xFFFFFFFF (s1.eic.wdogResets + 1) } }
      askReset (s2.modCore core (fun c => { c with wdog := 2 })) ⟨2, 0x08, false, core⟩
    else s)

/-! ### Idle and wake -/

/-- IDLE_ENTRY: IDLE_DELAY_US has passed without work (R486, R487). -/
def execIdleEntry (s : State) : Host.Outcome State Fault Refusal :=
  .next (
    if (s.power.power = .run ∨ s.power.power = .idle) ∧ s.power.mainOk ∧ s.workless ∧ s.odNat 0xA000 3 ≤ s.power.idleUs then
      { s with power := { s.power with power := .idle }, eic := { s.eic with roused := false } }
    else s)

/-- IDLE_EXIT: a raise ungates the clocks (R412, R486). -/
def execIdleExit (source : Nat) (s : State) : Host.Outcome State Fault Refusal :=
  .next (
    if s.power.power = .idle then (raise s source).roused else s)

/-- WAKE_LATCH (R414). -/
def execWakeLatch (source : Nat) (s : State) : Host.Outcome State Fault Refusal := .next (latchWake s source).roused

/-- WAKE_TIMER: the timer expires in STANDBY or OFF and raises WAKE_TIMER once (R415). -/
def execWakeTimer (s : State) : Host.Outcome State Fault Refusal :=
  .next (
    if s.eic.wakeArmed ∧ s.odNat 0xA021 1 ≠ 0 ∧ (s.power.power = .standby ∨ s.power.power = .off) then
      (latchWake { s with eic := { s.eic with wakeArmed := false } } 1041).roused
    else s)

/-- WAKE_LIST_WRITE (R413, R417). -/
def wakeListWrite (rq : Req) (entry source : Nat) (s : State) : State :=
  roleWrite s rq 0xA020 entry 1 false
    (fun _ => if entry < 1 ∨ 64 < entry then some .keyUsage
      else if 65536 ≤ source then some .malformed
      else if source = 0xFFFF ∨ wakeCapable source then none else some .inputRange)
    (fun t => acceptCommit t rq 0xA020 entry 0x20 [] [.od 0xA020 entry (leBytes 2 source)])

/-- WAKE_LIST_WRITE (R413, R417). -/
def execWakeListWrite (rq : Req) (entry source : Nat) (s : State) : Host.Outcome State Fault Refusal :=
  .next (wakeListWrite rq entry source s)

/-- WAKE_TIMER_S_WRITE: a write rearms the timer (R415, R417). -/
def wakeTimerSWrite (rq : Req) (v : Nat) (s : State) : State :=
  roleWrite s rq 0xA021 1 1 false (fun _ => numCheck 0xA021 1 v)
    (fun t => acceptCommit { t with eic := { t.eic with wakeArmed := true } } rq 0xA021 1 0x20 [] [.od 0xA021 1 (leBytes 4 v)])

/-- WAKE_TIMER_S_WRITE (R415, R417). -/
def execWakeTimerSWrite (rq : Req) (v : Nat) (s : State) : Host.Outcome State Fault Refusal := .next (wakeTimerSWrite rq v s)

end Sys2Proof.Machine
end

