-- ==== Sys2Proof/Machine/Rings.lean ====
section
/-! DEFINITION. Doorbells, admission, descriptor arrival, ring commands, digest rings and completions (03_work_rings). -/

namespace Sys2Proof.Machine

/-- The digest-ring and ring events of a group (R123). -/
def groupEvent (s : State) (gid : Nat) : State :=
  match s.globalGroup gid with
  | none => s
  | some g => raise s g

/-! ### Doorbells -/

/-- One stray doorbell more for a function (R55). -/
def strayDoorbell (s : State) (fn : Nat) : State := s.modFn fn (fun f => { f with stray := min 0xFFFF (f.stray + 1) })

/-- The three differences of R101 lie within the ring's size. -/
def doorbellOk (r : Ring) (p t : Nat) : Bool :=
  decide (idxSub p t ≤ r.size ∧ idxSub p r.fetch ≤ r.size ∧ idxSub r.fetch t ≤ r.size)

/-- A doorbell that reaches a ring (R101, R102, R130). -/
def ringDoorbell (s : State) (rid p t : Nat) : State :=
  let r := s.ring rid
  match r.state with
  | .disabled => s
  | .enabled =>
    if doorbellOk r p t then s.modRing rid (fun r => { r with prod := p, retire := t })
    else ringError s rid .ringOverrun p t none
  | _ => s.modRing rid (fun r => { r with prod := p, retire := t })

/-- Doorbell pages of a function (R52). -/
def doorbellPages (fn : Nat) : Nat := if fn = 0 then 4096 else 256

/-- What a doorbell to an open page does: it is stray where the page's ring belongs to no partition the function hosts (R55, R72, R95). -/
def pageDoorbell (s : State) (fn page p t : Nat) : State :=
  let rid := fn * 4096 + page
  match s.ringPart rid with
  | none => strayDoorbell s fn
  | some q =>
    if (s.part q).fn ≠ fn ∨ (fn = 0 ∧ (s.vfRingOf page).isSome) then strayDoorbell s fn
    else ringDoorbell s rid (p % 2 ^ 32) (t % 2 ^ 32)

/-- The watchdog's count is zero while a function has no outstanding work, whatever the reason (R87). -/
def restWatch (s : State) (fn : Nat) : State :=
  if s.outstanding fn then s else s.modFn fn (fun f => { f with stallUs := 0 })

/-! ### Admission -/

/-- Slots of a partition that count against its chain reservation (R121). -/
def State.chainCovered (s : State) (p : Nat) : Nat :=
  match tget s.adm.chainHold p with
  | none => 0
  | some rid => tcount s.adm.slots (fun _ x => x.rid == rid && x.chain.isSome && x.chain == (s.ring rid).chainAt)

/-- Free credits of a partition: the reservation counts as 64, its chain's entries not again (R119, R121). -/
def State.freeCredits (s : State) (p : Nat) : Nat :=
  s.quota p 4 - (s.inFlight p - s.chainCovered p + (if (tget s.adm.chainHold p).isSome then 64 else 0))

/-- Credits a ring may use: the partition's free ones, and what is left of the reservation it holds (R121). -/
def State.ringCredits (s : State) (rid p : Nat) : Nat :=
  if tget s.adm.chainHold p = some rid then s.freeCredits p + (64 - s.chainCovered p) else s.freeCredits p

/-- A ring of the partition waits to take the chain reservation (R121). -/
def State.takePending (s : State) (p : Nat) : Bool :=
  (tget s.adm.chainHold p).isNone &&
    s.rings.any (fun e => e.2.chainWait && e.2.chainAt.isSome && s.ringPart e.1 == some p)

/-- Entries the next read of a ring covers (R44, R119). -/
def State.readSize (s : State) (rid : Nat) : Nat :=
  match s.ringPart rid with
  | none => 0
  | some p =>
    let r := s.ring rid
    [32, s.readMax (rid / 4096) / 128, r.size - r.fetch % r.size, idxSub r.prod r.fetch, s.ringCredits rid p,
      65536 - s.adm.slots.length].foldl min 32

/-- Whether a ring may be fetched from now (R30, R43, R44, R46, R67, R119, R121, R130). -/
def State.fetchable (s : State) (rid : Nat) : Bool :=
  let r := s.ring rid
  let fn := rid / 4096
  let f := s.fn fn
  match s.ringPart rid with
  | none => false
  | some p =>
    r.state == .enabled && s.fetchOpen && s.fnExists fn && f.busMaster && !f.d3hot && f.state == .enabled
      && (s.part p).dis == .enabled && !r.chainWait && !s.takePending p
      && (s.quota p 0x0E == 0 || s.ideSecure fn) && !s.life.resetPend && s.life.trans.isNone && !s.life.shut && s.power.waiting.isNone && !s.power.pfail && s.pair.switching.isNone
      && decide (0 < s.readRoom fn) && decide (0 < s.readSize rid)

/-- The rings of a partition that may be fetched from, rising. -/
def State.fetchRings (s : State) (p : Nat) : List Nat :=
  (s.rings.filter (fun e => s.ringPart e.1 == some p && s.fetchable e.1)).map (·.1)

/-- The first of a rising list after `k`, going round. -/
def nextAfter (k : Nat) (l : List Nat) : Option Nat := (l.find? (fun x => decide (k < x))).or l.head?

/-- The ring a partition serves next: round robin (R122). -/
def State.partRing (s : State) (p : Nat) : Option Nat :=
  match tget s.adm.lastRing p with
  | none => (s.fetchRings p).head?
  | some k => nextAfter k (s.fetchRings p)

/-- The partitions with a ring that may be fetched from, rising. -/
def State.fetchParts (s : State) : List Nat := (List.range 256).filter (fun p => !(s.fetchRings p).isEmpty)

/-- Deficit round robin (R122): the partition and ring served next, and the deficit it has to spend. -/
def State.nextFetch (s : State) : Option (Nat × Nat × Nat) :=
  let again := if s.adm.inTurn then
      match s.partRing s.adm.cur with
      | none => none
      | some rid => if s.readSize rid ≤ tgetD s.adm.deficit s.adm.cur 0
          then some (s.adm.cur, rid, tgetD s.adm.deficit s.adm.cur 0) else none
    else none
  again.or (match nextAfter s.adm.cur s.fetchParts with
    | none => none
    | some p => (s.partRing p).map (fun rid => (p, rid, tgetD s.adm.deficit p 0 + 32 * s.quota p 8)))

/-- A partition has pending work and free credits: a ring in ENABLED with published entries it may still read (R122). -/
def State.pendingWork (s : State) (p : Nat) : Bool :=
  s.rings.any (fun e => s.ringPart e.1 == some p && e.2.state == .enabled && e.2.prod != e.2.fetch && decide (0 < s.ringCredits e.1 p))

/-- A partition without pending work or without free credits keeps no deficit (R122). -/
def dropDeficit (s : State) : State :=
  let d := tfilter s.adm.deficit (fun p _ => s.pendingWork p)
  { s with adm := { s.adm with deficit := d, inTurn := s.adm.inTurn && (tget d s.adm.cur).isSome } }

/-- DOORBELL: an 8-byte write of P and T to a doorbell page (R55, R56, R72, R95, R100 to R102). -/
def execDoorbell (fn page p t : Nat) (s : State) : Host.Outcome State Fault Refusal :=
  .next (
    if doorbellPages fn ≤ page then s
    else barAccess s fn (2 * 2 ^ 24 + 4096 * page) (fun u =>
      let v := { u with power := { u.power with idleUs := 0, power := if u.power.power = .idle then .run else u.power.power } }
      dropDeficit (restWatch (pageDoorbell (dropDeficit (restWatch v fn)) fn page p t) fn)))

/-- A new admission-buffer slot, its descriptor data awaited. -/
def newSlot (rid part index readId : Nat) : Slot where
  rid := rid
  part := part
  index := index
  desc := []
  stage := .reading
  chain := none
  chainEnd := false
  keys := []
  steps := []
  unit := none
  started := false
  random := false
  rnd := []
  draws := 0
  src := none
  sgSrc := none
  sgDst := none
  resvd := none
  ctr := 0
  early := none
  policy := 0
  dec := []
  lane := none
  pages := []
  hardDef := false
  blocks := none
  engBlocks := none
  sess := 0
  cut := none
  ends := none
  noWrite := false
  readId := readId
  owed := []
  bufReads := 0
  barred := false
  changes := []
  handle := 0
  time24 := 0
  res := none

/-- Allocate the lowest free admission-buffer slot to the next index of a ring. -/
def takeSlot (s : State) (rid part readId : Nat) : State :=
  let r := s.ring rid
  match tlowestFree s.adm.slots 0 (s.adm.slots.length + 1) with
  | none => s
  | some k =>
    let s1 := s.modRing rid (fun r => { r with fetch := idxAdd r.fetch 1, unwritten := r.unwritten ++ [r.fetch] })
    { s1 with adm := { s1.adm with slots := tset s1.adm.slots k (newSlot rid part r.fetch readId) } }

/-- DESCRIPTOR_READ_ISSUE: the ring whose turn it is has a read issued for its next entries (R30, R119, R122). -/
def execDescriptorReadIssue (rid : Nat) (s0 : State) : Host.Outcome State Fault Refusal :=
  let s := dropDeficit s0
  .next (match s.nextFetch with
    | none => s
    | some (p, k, deficit) =>
      if k ≠ rid then s
      else
        let n := s.readSize rid
        let r := s.ring rid
        let s1 := (List.range n).foldl (fun t _ => takeSlot t rid p s.adm.nextRead) s
        let a := { s1.adm with cur := p, inTurn := true, nextRead := s.adm.nextRead + 1,
                               lastRing := tset s1.adm.lastRing p rid,
                               deficit := tset s1.adm.deficit p (deficit - n) }
        let s2 := { s1 with adm := a, bus := { s1.bus with
          issued := s1.bus.issued ++ [(rid / 4096, r.base + 128 * (r.fetch % r.size), 128 * n)] } }
        dropDeficit (s2.modFn (rid / 4096) (fun f => { f with stallUs := 0 })))

/-- Entries of a ring's present chain that are in flight: they count against its reservation (R121; assumption 12). -/
def State.chainFetched (s : State) (rid : Nat) : Nat :=
  tcount s.adm.slots (fun _ x => x.rid == rid && x.chain.isSome && x.chain == (s.ring rid).chainAt)

/-- CHAIN_RESERVATION_TAKE: 64 credits are free, and the ring that waits takes the reservation (R121). -/
def execChainReservationTake (rid : Nat) (s : State) : Host.Outcome State Fault Refusal :=
  let r := s.ring rid
  .next (match s.ringPart rid with
    | none => s
    | some p =>
      if r.chainWait && r.chainAt.isSome && (tget s.adm.chainHold p).isNone && decide (s.inFlight p - s.chainFetched rid + 64 ≤ s.quota p 4) then
        let s1 := { s with adm := { s.adm with chainHold := tset s.adm.chainHold p rid } }
        s1.modRing rid (fun r => { r with chainWait := false })
      else s)

/-! ### Arrival -/

/-- The oldest awaited entry of a ring. -/
def State.awaited (s : State) (rid : Nat) : Option (Nat × Slot) :=
  let f := (s.ring rid).fetch
  ((s.ringSlots rid).filter (fun e => e.2.stage == .reading)).foldl (fun m e => match m with
    | none => some e
    | some b => if below f e.2.index b.2.index then some e else some b) none

/-- A chain-flag violation of R116 in the ring's present chain. -/
def chainBad (r : Ring) (d : Bytes) : Bool :=
  match r.chainAt with
  | none => dLast d && !dFirst d
  | some _ => dFirst d || decide (64 ≤ r.chainLen)

/-- An earlier entry of the ring's present chain is a RAW_SESSION_OPEN (R333). -/
def State.chainOpens (s : State) (rid : Nat) : Bool :=
  (s.ringSlots rid).any (fun e => e.2.chain.isSome && e.2.chain == (s.ring rid).chainAt && opcode e.2.desc == 0x901)

/-- The first offending byte of an arriving descriptor (R109). -/
def arrivalCheck (s : State) (rid index : Nat) (d : Bytes) : Option Nat :=
  let r := s.ring rid
  firstOf [ctlCheck d index r.size, need (!chainBad r d) 3,
    opCheck d (r.chainAt.isSome || (dFirst d && !dLast d)) (s.chainOpens rid)]

/-- The ring's present chain after an arrival of which nothing is kept: what still arrives of that chain fails with it (R118, R132). -/
def spoilChain (s : State) (rid index : Nat) (d : Bytes) : State :=
  s.modRing rid (fun r => match r.chainAt with
    | some _ => if dLast d then { r with chainAt := none, chainLen := 0, chainBad := false } else { r with chainBad := true }
    | none => if dFirst d && !dLast d then { r with chainAt := some index, chainLen := 1, chainBad := true } else r)

/-- An entry that was cut while its data was awaited: of a chain one entry carries the cause, the others CHAIN_ABORTED (R118, R133). -/
def cutArrival (s : State) (n rid index : Nat) (d : Bytes) (st : Status) : State :=
  spoilChain (finish s n (if (s.ring rid).chainAt.isSome then .chainAborted else st) 0) rid index d

/-- Return the rest of a read from an opening entry on, and step F back to it (R121). -/
def stepBack (s : State) (rid index : Nat) : State :=
  let f := (s.ring rid).fetch
  let gone := (s.ringSlots rid).filter (fun e => !below f e.2.index index)
  let s1 := gone.foldl (fun t e => release t e.1) s
  s1.modRing rid (fun r => { r with fetch := index, chainWait := true, chainAt := none, chainLen := 0,
                                    unwritten := r.unwritten.filter (fun i => below f i index) })

/-- An entry that passed its checks: it joins its chain, or stands alone (R116, R121). -/
def arrive (s : State) (n rid p index : Nat) (d : Bytes) : State :=
  let r := s.ring rid
  match r.chainAt with
  | some first =>
    let s0 := s.modSlot n (fun x => { x with desc := d, stage := .fetched, chain := some first, chainEnd := dLast d })
    let s1 := if r.chainBad then finish s0 n .chainAborted 0 else s0
    if dLast d then
      let s2 := s1.modRing rid (fun r => { r with chainAt := none, chainLen := 0, chainWait := false, chainBad := false })
      if tget s.adm.chainHold p = some rid ∨ r.chainWait then freeHold s2 p else s2
    else s1.modRing rid (fun r => { r with chainLen := r.chainLen + 1 })
  | none =>
    if dFirst d && !dLast d then
      if r.state == .enabled && ((tget s.adm.chainHold p).isSome || s.takePending p) then stepBack s rid index
      else
        let s1 := s.modSlot n (fun x => { x with desc := d, stage := .fetched, chain := some index, chainEnd := false })
        s1.modRing rid (fun r => { r with chainAt := some index, chainLen := 1, chainWait := r.state == .enabled, chainBad := false })
    else s.modSlot n (fun x => { x with desc := d, stage := .fetched })

/-- What a descriptor still has to read from host memory, in order: its source scatter list, its destination scatter list, its source
data. A list is read as the 4,096 bytes that 256 entries take: where it ends is not known before (R107; assumption 5). -/
def pieces (x : Slot) : List (Nat × Nat) :=
  let d := x.desc
  if dSrcSg d && x.sgSrc.isNone then [(dSrc d, 4096)]
  else if dDstSg d && x.sgDst.isNone then [(dDst d, 4096)]
  else if readsSrc d && x.src.isNone && dSrcLen d != 0 then
    (match x.sgSrc with
      | none => [(dSrc d, dSrcLen d)]
      | some l => ((sgCut (sgEntries l) 256).getD []).map (fun e => (e.1, e.2.1)))
  else []

/-- The next piece of a descriptor's buffers is to be read; requests go out as the read limits allow (R43, R44). -/
def askReads (s : State) (n : Nat) : State :=
  issueReads (s.modSlot n (fun x => if x.stage.uncommitted ∧ x.stage ≠ .reading then { x with owed := pieces x, bufReads := 0 } else x)) n

/-- DESCRIPTOR_ARRIVAL: data of the ring's oldest awaited entry is stored and checked, and its buffers are read (R104 to R109, R116,
R119, R121). -/
def execDescriptorArrival (rid : Nat) (data : Bytes) (s : State) : Host.Outcome State Fault Refusal :=
  let d := fit 128 data
  .next (match s.awaited rid with
    | none => s
    | some (n, x) =>
      let s1 := s.modSlot n (fun y => { y with desc := d })
      match x.cut with
      | some st => cutArrival s1 n rid x.index d st
      | none =>
        match arrivalCheck s rid x.index d with
        | some off =>
          let t := malformed (s1.modSlot n (fun y => { y with chain := (s.ring rid).chainAt })) n rid x.index off
          if (s.ring rid).state = .enabled then t else failOpenChains (spoilChain t rid x.index d) rid
        | none => issueAllReads (askReads (failOpenChains (arrive s n rid x.part x.index d) rid) n))

/-- The effect of a failed read of a slot's descriptor or buffer (R90, R132). -/
def readFailed (s : State) (n addr : Nat) (timeout : Bool) : State :=
  match s.slot n with
  | none => s
  | some x =>
    let fn := x.rid / 4096
    let f := s.fn fn
    let s1 := s.modFn fn (fun g =>
      { g with readFault := g.readFault || !timeout, readTimeout := g.readTimeout || timeout,
               errAddr := if f.readFault || f.readTimeout then g.errAddr else addr })
    let s2 := logMain s1 3 (0x0100 + fn) 0x0103 x.part (b2n timeout) (leBytes 8 addr)
    if x.stage = .reading then
      let t := ringError s2 x.rid .malformed x.index 0 (some x.index)
      failOpenChains (discard (t.modRing x.rid (fun r => { r with chainBad := r.chainBad || r.chainAt.isSome })) n) x.rid
    else malformed s2 n x.rid x.index (if x.sgSrc.isNone && dSrcSg x.desc || !dDstSg x.desc || x.sgDst.isSome then 96 else 104)

/-- READ_FAULT: a read completes with UR, CA or a poisoned TLP (R90). -/
def execReadFault (slot addr : Nat) (s : State) : Host.Outcome State Fault Refusal := .next (readFailed s slot addr false)

/-- READ_TIMEOUT: a read times out (R90). -/
def execReadTimeout (slot addr : Nat) (s : State) : Host.Outcome State Fault Refusal := .next (readFailed s slot addr true)

/-- The data of a descriptor's next piece, once all its requests are answered: the source scatter list, the destination scatter list,
then the source data; a list that breaks R107 is MALFORMED at the field that names it (R107, R109). -/
def takePiece (s : State) (slot : Nat) (x : Slot) (data : Bytes) : State :=
  if dSrcSg x.desc && x.sgSrc.isNone then
    if sgOk data (dSrcLen x.desc) true then askReads (s.modSlot slot (fun y => { y with sgSrc := some data })) slot
    else malformed s slot x.rid x.index 96
  else if dDstSg x.desc && x.sgDst.isNone then
    if sgOk data (dDstLen x.desc) false then askReads (s.modSlot slot (fun y => { y with sgDst := some data })) slot
    else malformed s slot x.rid x.index 104
  else if x.src.isNone then
    askReads (s.modSlot slot (fun y => { y with src := some (fit (dSrcLen x.desc) data) })) slot
  else s

/-- The requests of a piece that go out one by one as earlier ones of it are answered. -/
def owedReads (s : State) (x : Slot) : State :=
  let fn := x.rid / 4096
  let total := (x.owed.map (·.2)).sum
  { s with bus := { s.bus with issued := s.bus.issued ++ (splitReads (s.readMax fn) total x.owed).1.map (fun e => (fn, e.1, e.2)) } }

/-- BUFFER_READ_COMPLETION: the requests of a descriptor's next piece are answered, the rest of them issued as the first complete; where
none of them could be issued before, they are issued as the read limits allow (R43, R44, R119; assumption 5). -/
def execBufferReadCompletion (slot : Nat) (data : Bytes) (s : State) : Host.Outcome State Fault Refusal :=
  .next (match s.slot slot with
    | none => s
    | some x =>
      if x.stage = .reading ∨ x.stage.uncommitted = false then s
      else if x.bufReads = 0 ∧ !x.owed.isEmpty then issueAllReads s
      else issueAllReads (takePiece ((owedReads s x).modSlot slot (fun y => { y with owed := [], bufReads := 0 })) slot x data))

/-! ### Ring commands -/

/-- The lowest-numbered free global ring (R94). -/
def State.freeGlobalRing (s : State) : Option Nat :=
  (List.range 4096).find? (fun k => (s.ring k).state == .disabled && (s.vfRingOf k).isNone)

/-- The lowest-numbered free global group: bound to no VF group, its digest ring disabled, its pending bit clear, and named by no PF ring
that is not DISABLED, as R98 says of a group that may be released (DESIGN CHOICE, assumption 96). -/
def State.freeGlobalGroup (s : State) : Option Nat :=
  (List.range 1024).find? (fun g => (s.vfGroupOf g).isNone && !(s.group g).enable && !s.eic.hostPend.contains g &&
    !(s.rings.any (fun e => decide (e.1 < 4096) && e.2.state != .disabled && e.2.group == g)))

/-- Bind a group where it is not bound yet: none where it cannot be (R98). -/
def bindGroup (s : State) (gid : Nat) : Option State :=
  if gid < 1024 then (if (s.vfGroupOf gid).isSome then none else some s)
  else match (s.group gid).glob with
    | some _ => some s
    | none => s.freeGlobalGroup.map (fun g => s.modGroup gid (fun x => { x with glob := some g }))

/-- The refusal of an ENABLE command, by the first row of R97 that applies. -/
def enableRefused (s : State) (rid : Nat) : Option Status :=
  let r := s.ring rid
  let fn := rid / 4096
  if r.sizeLog2 < 6 ∨ 16 < r.sizeLog2 ∨ r.badCfg ∨ r.badBase then some .malformed
  else match s.ringPart rid with
    | none => some .notActive
    | some p =>
      if (s.part p).fn ≠ fn ∨ s.quota p 2 = 0 then some .notActive
      else if s.quota p 3 < s.ringsHeld p + 1 then some .quota
      else if (if fn = 0 then (s.vfRingOf rid).isSome else s.freeGlobalRing.isNone) then some .quota
      else if (bindGroup s (s.ringGroup rid)).isNone then some .quota
      else if s.fnState fn ≠ .enabled then some .notActive
      else none

/-- The indices an accepted ENABLE or RESUME starts from (R131). -/
def Ring.restart (r : Ring) (st : RingState) : Ring :=
  { r with state := st, fetch := r.replay, prod := r.replay, retire := r.replay, errCode := 0, unwritten := [],
           chainAt := none, chainLen := 0, chainWait := false, chainBad := false }

/-- BAR0 offset of a ring's RING_CTL (R53, R137). -/
def ringCtlAt (rid : Nat) : Nat := (if rid < 4096 then 0x20000 else 0x4000) + 32 * (rid % 4096) + 0x0C

/-- A RING_CTL command that a ring accepts: it is a BAR0 access of the ring's function (R53, R56), and the PF's block of a ring bound to a
VF takes no write (R95). -/
def ringCommand (s : State) (rid : Nat) (f : State → State) : State :=
  barAccess s (rid / 4096) (ringCtlAt rid) (fun t => if rid < 4096 ∧ (t.vfRingOf rid).isSome then t else f t)

/-- An ENABLE in DISABLED: refused, or accepted into ENABLED, or into HALTED while the service is halted or locked (R97, R130, R131). -/
def enableRing (s : State) (rid : Nat) : State :=
  match enableRefused s rid with
  | some st => s.modRing rid (fun r => { r with errCode := st.code })
  | none =>
    let s1 := (bindGroup s (s.ringGroup rid)).getD s
    let g := if rid < 4096 then none else s.freeGlobalRing
    if s.service = .halted ∨ s.service = .locked then
      groupEvent (s1.modRing rid (fun r => { r.restart .halted with glob := g })) (s.ringGroup rid)
    else s1.modRing rid (fun r => { r.restart .enabled with glob := g })

/-- RING_ENABLE (R94, R97, R98, R130, R131): the PF's ENABLE of a ring bound to a VF is refused with QUOTA (R97). -/
def execRingEnable (rid : Nat) (s : State) : Host.Outcome State Fault Refusal :=
  .next (barAccess s (rid / 4096) (ringCtlAt rid) (fun t => if (t.ring rid).state = .disabled then enableRing t rid else t))

/-- Stop a ring for a DISABLE: it ends DISABLED, or HALTED where it was stopping toward HALTED (R131). -/
def disableRing (s : State) (rid : Nat) : State :=
  let s1 := closeSessions (cutRing (dropReservation s rid) .disable rid) (fun e => e.sessRid == rid)
  s1.modRing rid (fun r => match r.state with
    | .disabled => r
    | .stopping => if r.settle = .halted then r else { r with settle := .disabled }
    | _ => { r with state := .stopping, settle := .disabled, chainAt := none, chainLen := 0, chainWait := false, chainBad := false })

/-- RING_DISABLE (R131, R134). -/
def execRingDisable (rid : Nat) (s : State) : Host.Outcome State Fault Refusal :=
  .next (ringCommand s rid (fun t => disableRing t rid))

/-- RING_RESUME (R131). -/
def execRingResume (rid : Nat) (s : State) : Host.Outcome State Fault Refusal :=
  .next (ringCommand s rid (fun t => if (t.ring rid).state = .error then t.modRing rid (fun r => r.restart .enabled) else t))

/-- A ring publishes REPLAY_INDEX and settles (R135). -/
def settleRing (s : State) (rid : Nat) : State :=
  if (s.ring rid).state = .stopping then
    let s1 := s.modRing rid (fun r =>
      { r with replay := r.replayIndex, state := r.settle, glob := if r.settle = .disabled then none else r.glob })
    releaseGroups (groupEvent s1 (s.ringGroup rid)) (rid / 4096)
  else s

/-- RING_SETTLE: the last fetched entry has ended (R94, R98, R123, R130, R135). -/
def execRingSettle (rid : Nat) (s : State) : Host.Outcome State Fault Refusal :=
  .next (if (s.ringSlots rid).isEmpty then settleRing s rid else s)

/-! ### Digest rings -/

/-- BAR0 offset of a group's GRP_ block (R53, R138). -/
def groupAt (gid : Nat) : Nat := (if gid < 1024 then 0x10000 else 0x1000) + 16 * (gid % 1024)

/-- A global group that the PF's GRP_ block shows as 0, because it is bound to a VF group (R138). -/
def State.groupHidden (s : State) (gid : Nat) : Bool := decide (gid < 1024) && (s.vfGroupOf gid).isSome

/-- A write that sets ENABLE of a digest ring (R98, R125, R138). -/
def enableDigest (s : State) (gid base sizeLog2 : Nat) : State :=
  if (s.group gid).enable ∨ s.groupHidden gid then s
  else
    let s1 := s.modGroup gid (fun g => { g with base := base / 65536 * 65536 % 2 ^ 64, sizeLog2 := sizeLog2 % 32 })
    if sizeLog2 < 6 ∨ 16 < sizeLog2 then s1
    else match bindGroup s1 gid with
      | none => s1
      | some s2 => s2.modGroup gid (fun g => { g with enable := true, prod := 0, cons := 0, overflow := false })

/-- GRP_DIG_ENABLE (R98, R125, R138). -/
def execGrpDigEnable (gid base sizeLog2 : Nat) (s : State) : Host.Outcome State Fault Refusal :=
  .next (barAccess s (gid / 1024) (groupAt gid) (fun t => enableDigest t gid base sizeLog2))

/-- GRP_DIG_DISABLE (R98, R129). -/
def execGrpDigDisable (gid : Nat) (s : State) : Host.Outcome State Fault Refusal :=
  .next (barAccess s (gid / 1024) (groupAt gid) (fun t =>
    if t.groupHidden gid then t
    else releaseGroups (t.modGroup gid (fun g => { g with enable := false })) (gid / 1024)))

/-- GRP_DIG_BASE as it reads (R138). -/
def Group.baseWord (g : Group) : Nat := g.base + g.sizeLog2 * 64 + b2n g.overflow * 2 + b2n g.enable

/-- GRP_DIG_BASE_READ: it completes after every earlier digest, which this model has already written (R129). -/
def execGrpDigBaseRead (gid : Nat) (s : State) : Host.Outcome State Fault Refusal :=
  .next (barAccess s (gid / 1024) (groupAt gid) (fun t =>
    readBack t (gid / 1024) (groupAt gid) (if t.groupHidden gid then 0 else (t.group gid).baseWord)))

/-- GRP_DIG_CONS_WRITE (R127). -/
def execGrpDigConsWrite (gid c : Nat) (s : State) : Host.Outcome State Fault Refusal :=
  .next (barAccess s (gid / 1024) (groupAt gid + 12) (fun t =>
    if t.groupHidden gid ∨ 2 ^ (t.group gid).sizeLog2 < idxSub (t.group gid).prod (c % 2 ^ 32) then t
    else t.modGroup gid (fun g =>
      { g with cons := c % 2 ^ 32, overflow := g.overflow && decide (2 ^ g.sizeLog2 ≤ idxSub g.prod (c % 2 ^ 32)) })))

/-! ### Completions -/

/-- Whether a completion may be written for its function: Bus Master Enable is 1, no lost IDE stream forbids it, and the completion path
stands (R60, R68, R81, R434). A function in D3hot writes none either (R92; DESIGN CHOICE, assumption 93). -/
def mayWrite (s : State) (x : Slot) : Bool :=
  let fn := x.rid / 4096
  s.fnExists fn && (s.fn fn).busMaster && !(s.fn fn).d3hot && !s.tamper.pathCut && !x.barred

/-- The 64 bytes a completion writes at byte 32: its result, or zeros for an opcode that always rewrites them (R215, R260,
R332). -/
def inlineOf (d : Bytes) (r : Result) : Option Bytes :=
  match r.inline_ with
  | some b => some b
  | none => if opcode d < 0x201 ∨ r.status = .malformed ∨ r.status = .badOpcode then none else some []

/-- The posted writes of a completion's result and header, in the order of R112. -/
def writeResult (s : State) (x : Slot) (r : Result) : State :=
  let ring := s.ring x.rid
  let fn := x.rid / 4096
  let at_ := ring.base + 128 * (x.index % ring.size)
  let dst := if r.dst.isEmpty then []
    else match x.sgDst with
      | some l => sgSpread (sgEntries l) r.dst
      | none => [(dDst x.desc, r.dst)]
  let s1 := dst.foldl (fun t e => post t fn e.1 e.2) s
  let s2 := match inlineOf x.desc r with
    | none => s1
    | some b => post s1 fn (at_ + 32) (fit 64 b)
  post s2 fn at_ (header r.status (lapOf x.index ring.size) r.detail r.len r.timeNs r.seq)

/-- The digest of a completion, or the overflow of a full digest ring (R124, R126). -/
def writeDigest (s : State) (x : Slot) (r : Result) : State :=
  let gid := s.ringGroup x.rid
  let g := s.group gid
  if !g.enable then s
  else if idxSub g.prod g.cons = 2 ^ g.sizeLog2 then
    if g.overflow then s else groupEvent (s.modGroup gid (fun g => { g with overflow := true })) gid
  else
    let d := digest r.status (lapOf x.index (s.ring x.rid).size) (lapOf g.prod (2 ^ g.sizeLog2)) (dTag x.desc)
      (x.rid % 4096) x.index (r.seq % 2 ^ 32)
    post (s.modGroup gid (fun g => { g with prod := idxAdd g.prod 1 })) (x.rid / 4096)
      (g.base + 16 * (g.prod % 2 ^ g.sizeLog2)) d

/-- Count an ended descriptor in its partition's disable procedure (R85). -/
def countEnd (s : State) (x : Slot) (r : Result) (written : Bool) : State :=
  countDisable s x.part (fun d =>
    if r.status = .aborted then { d with aborted := d.aborted + 1 }
    else if written then { d with written := d.written + 1 }
    else d.unwrote r.seq)

/-- COMPLETION_WRITE: result, header, digest, event; or the completion is dropped (R81, R110, R112, R123 to R126). -/
def execCompletionWrite (slot : Nat) (s0 : State) : Host.Outcome State Fault Refusal :=
  let s := dropDeficit s0
  .next (match s.slot slot with
    | none => s
    | some x => match x.res with
      | none => s
      | some r =>
        if x.stage ≠ .done then s
        else if x.noWrite then noteReplay (discardRunning s slot) x.rid
        else if mayWrite s x then
          let s1 := writeDigest (writeResult s x r) x r
          let s2 := if dNotify x.desc || (s.ring x.rid).eventAll then groupEvent s1 (s.ringGroup x.rid) else s1
          let s3 := s2.modRing x.rid (fun g => { g with unwritten := g.unwritten.filter (· != x.index) })
          let s4 := s3.modFn (x.rid / 4096) (fun f => { f with stallUs := 0 })
          let s5 := { s4 with tele := { s4.tele with completions := min (2 ^ 64 - 1) (s4.tele.completions + 1) } }
          noteReplay (release (countEnd s5 x r true) slot) x.rid
        else noteReplay (release (countEnd (s.modFn (x.rid / 4096) (fun f => { f with dropped := true })) x r false) slot) x.rid)

end Sys2Proof.Machine
end

