-- ==== Sys2Proof/Machine/Disable.lean ====
section
/-! DEFINITION. The disable procedure of a partition or a function, its acknowledgement, Function Level Reset, and what follows:
remapping, the setting of VF Enable, WEDGED (R58 to R60, R72, R73, R81 to R92, R405). -/

namespace Sys2Proof.Machine

/-- AUX of a disable record (R599). -/
def Trigger.code : Trigger → Nat
  | .enable => 0
  | .vfEnable => 1
  | .busMaster => 2
  | .d3hot => 3
  | .flr => 4
  | .remap => 5
  | .ideLoss => 6
  | .wedged => 7

/-- Rings of a partition, in any state. -/
def State.ringsOf (s : State) (p : Nat) : List Nat := tkeys (s.rings.filter (fun e => s.ringPart e.1 == some p))

/-- Global groups that the rings of a partition name (R405). -/
def State.groupsOf (s : State) (p : Nat) : List Nat := (s.ringsOf p).filterMap (fun rid => s.globalGroup (s.ringGroup rid))

/-- Close early the windows of the groups that hold a source of the affected rings (R405). -/
def closeWindows (s : State) (p : Nat) : State := (s.groupsOf p).foldl (fun t g => closeWindow t (g / 16)) s

/-- The disable procedure of one partition on its function (R81, R83, R336); one already running goes on. -/
@[noinline] def disablePart (s : State) (p : Nat) (t : Trigger) (remap : Option Nat) : State :=
  let x := s.part p
  match x.dis, x.disable with
  | .disabling, some d => s.modPart p (fun y => { y with disable := some { d with remap := remap.or d.remap } })
  | _, _ =>
    let s1 := s.modPart p (fun y => { y with dis := .disabling, disable := some ⟨y.fn, t, 0, 0, 0, 0, 0, 0, remap, none⟩ })
    let s2 := (s.ringsOf p).foldl disableRing s1
    closeWindows (closeSessions s2 (fun e => e.sessPart == p)) p

/-- Return a function's BAR0 registers, MSI-X table and rings to reset values, WEDGED kept; on the PF the mailbox too (R89, R91,
R406, R582). -/
@[noinline] def resetFunction (s : State) (n : Nat) : State :=
  let s1 := resetEic s n
  let s2 := { s1 with
    rings := tfilter s1.rings (fun rid _ => rid / 4096 != n)
    groups := tfilter s1.groups (fun gid _ => gid / 1024 != n)
    fns := tset s1.fns n { fn0 with state := if (s1.fn n).state = .wedged then .wedged else .enabled } }
  if n = 0 then { s2 with
    link := { s2.link with sriovReject := false }
    od := { s2.od with reqLen := 0, replyLen := 0, replyUp := false, rejected := false, dropReply := s2.od.busy } }
  else s2

/-- Partitions of a function that ENABLE = 1 returns to service (R74, R91). -/
def enableParts (s : State) (n : Nat) : State :=
  if (s.fn n).state = .wedged then s
  else (s.hosted n).foldl (fun t p =>
    if (t.part p).dis = .disabled ∧ t.quota p 2 = 1 ∧ (t.part p).disable.isNone then t.modPart p (fun x => { x with dis := .enabled }) else t) s

/-- Whether the disable procedure still runs for a partition of a function. -/
def State.stillDisabling (s : State) (n : Nat) : Bool := (s.hosted n).any (fun p => (s.part p).dis == .disabling)

/-- A function whose partitions have all been acknowledged is DISABLED, and a pending Function Level Reset takes effect (R83, R91). -/
def functionSettled (s : State) (n : Nat) : State :=
  if s.stillDisabling n then s
  else
    let s1 := if (s.fn n).state = .disabling then s.modFn n (fun f => { f with state := .disabled }) else s
    if (s1.fn n).inFlr then enableParts (resetFunction s1 n) n else s1

/-- The disable procedure of a function: of every partition it hosts (R81, R88). -/
@[noinline] def disableFn (s : State) (n : Nat) (t : Trigger) : State :=
  let s1 := s.modFn n (fun f => { f with state := if f.state = .wedged ∨ t = .wedged then .wedged else .disabling })
  functionSettled ((s.hosted n).foldl (fun u p => disablePart u p t none) s1) n

/-- Every function that exists. -/
def State.functions (s : State) : List Nat := (List.range 256).filter s.fnExists

/-- The disable procedure of every function (R50, R488, R493). -/
def disableAll (s : State) (t : Trigger) : State := s.functions.foldl (fun u n => disableFn u n t) s

/-- Ask for an orderly reset: fetch stops and the disable procedure runs for every function (R493). -/
def orderlyReset (s : State) (kind source : Nat) : State :=
  let t := askReset s ⟨kind, source, true, 0⟩
  if t.power.waiting.isNone then t else noteFunctions s (disableAll t .flr)

/-- A Function Level Reset: the disable procedure, then the reset values; of the PF it clears VF Enable first (R60, R91). -/
@[noinline] def functionLevelReset (s : State) (n : Nat) (t : Trigger) : State :=
  let s1 := if n = 0 ∧ s.link.vfEnable then
      let vfs := (List.range s.link.numVfs).map (· + 1)
      vfs.foldl (fun u k => disableFn u k .vfEnable) { s with link := { s.link with vfEnable := false, vfPending := none } }
    else if n = 0 then { s with link := { s.link with vfPending := none } } else s
  disableFn (s1.modFn n (fun f => { f with inFlr := true, d3hot := false })) n t

/-- Set VF Enable: every VF comes up with reset registers, and its partition with ENABLE = 1 is in service (R60, R89). -/
def enableVfs (s : State) (numVfs : Nat) : State :=
  let s1 := { s with link := { s.link with vfEnable := true, numVfs := numVfs, vfPending := none } }
  ((List.range numVfs).map (· + 1)).foldl (fun t n => enableParts (resetFunction t n) n) s1

/-- Whether an acknowledgement of an earlier clearing of VF Enable is outstanding (R60). -/
def State.vfsBusy (s : State) : Bool := (List.range 255).any (fun k => s.stillDisabling (k + 1))

/-- A VF Enable that waited for the last acknowledgement takes effect (R60). -/
def vfsSettled (s : State) : State :=
  match s.link.vfPending with
  | none => s
  | some k => if s.vfsBusy then s else enableVfs s k

/-! ### The acknowledgement -/

/-- Slots of a partition in flight. -/
def State.slotsOf (s : State) (p : Nat) : Tab Slot := s.adm.slots.filter (fun e => e.2.part == p)

/-- Whether only changes that are not yet durable are left of a partition's work (R83). -/
def State.drained (s : State) (p : Nat) : Bool := (s.slotsOf p).all (fun e => e.2.stage == .commitWait || e.2.stage == .closed)

/-- The commit sequence number a descriptor's changes take: the one they have, or the one their place in the commit queue gives them,
since nothing before them in the queue is withdrawn after a disable (R85; DESIGN CHOICE, assumption 97). -/
def State.seqOf (s : State) (n : Nat) (x : Slot) : Nat :=
  if x.changes.isEmpty then 0
  else if x.stage = .commitWait then s.commit.seq + 1 + (s.commit.queue.takeWhile (fun i => !i.slots.contains n)).length
  else (x.res.map (·.seq)).getD 0

/-- A descriptor whose change is committed but whose completion will not be written: it is counted so (R83, R85). -/
def leaveUnwritten (s : State) (e : Nat × Slot) : State :=
  countDisable (s.modSlot e.1 (fun x => { x with noWrite := true })) e.2.part (fun d => d.unwrote (s.seqOf e.1 e.2))

/-- The record of a disable (R85, R599). -/
def disableRecord (s : State) (p : Nat) (d : Disable) : State :=
  logMain s 3 (0x0100 + d.fn) 0x0101 p d.trigger.code
    (leBytes 3 d.written ++ leBytes 3 d.unwritten ++ leBytes 3 d.aborted ++ leBytes 3 d.discarded ++ leBytes 6 d.firstSeq ++ leBytes 6 d.lastSeq)

/-- After the acknowledgement no message is committed for the partition's rings: sources of groups that only they name stay pending for
polling (R83, R405). -/
def quietGroups (s : State) (p : Nat) : State :=
  let shared := (s.rings.filter (fun e => s.ringPart e.1 != some p && e.2.state != .disabled)).filterMap (fun e => s.globalGroup (s.ringGroup e.1))
  { s with eic := { s.eic with quiet :=
    ((s.groupsOf p).filter (fun g => s.eic.hostPend.contains g && !shared.contains g)).foldl (fun l g => sins g l) s.eic.quiet } }

/-- The acknowledgement itself: every ring settles, pages and window sources of the partition are done, STATE becomes DISABLED and
the record is written (R83, R85, R135, R308). A remap waits for the next epoch boundary (R73). -/
def acknowledge (s : State) (p : Nat) (d : Disable) : State :=
  let s1 := (s.slotsOf p).foldl leaveUnwritten s
  let s2 := quietGroups (closeWindows ((s1.ringsOf p).foldl settleRing s1) p) p
  let s3 := freePages (disableRecord s2 p ((s2.part p).disable.getD d)) (fun g => g.part == p)
  let back := d.trigger == .enable && d.remap.isNone && s3.quota p 2 == 1 && (s3.fn d.fn).state == .enabled
  let s4 := s3.modPart p (fun x =>
    { x with dis := if back then .enabled else .disabled, disable := if d.remap.isSome then some d else none })
  raise (vfsSettled (functionSettled s4 d.fn)) 1025

/-- DISABLE_ACK (R83, R405): once nothing but undurable changes is left in flight and the last message is decided. -/
def execDisableAck (part : Nat) (s : State) : Host.Outcome State Fault Refusal :=
  .next (match (s.part part).disable with
    | none => s
    | some d =>
      if (s.part part).dis = .disabling ∧ s.drained part ∧ !((s.groupsOf part).any s.undecided) then
        noteFunctions s (acknowledge s part d)
      else s)

/-- DISABLE_BUFFER_TIMEOUT: 1 ms after the trigger, a started Skipper or hash step that still transfers buffer data stops at its
next block boundary (R81); the trigger is a function's or a ring's DISABLE (R131, R134). -/
def execDisableBufferTimeout (slot : Nat) (s : State) : Host.Outcome State Fault Refusal :=
  .next (match s.slot slot with
    | none => s
    | some x => match x.unit with
      | none => s
      | some u =>
        let stops := (s.part x.part).dis = .disabling ∨ ((s.ring x.rid).state = .stopping ∧ (s.ring x.rid).settle = .disabled)
        if stops ∧ !u.1.zeroes ∧ (dSrc x.desc ≠ 0 ∨ dDst x.desc ≠ 0) then
          fail (unqueue s slot u) slot .aborted 0
        else s)

/-! ### Triggers -/

/-- A write that sets VF Enable: ignored with more than 7 VFs in a hierarchy without ARI (R58), and waiting for every acknowledgement of an
earlier clearing (R60). -/
def setVfEnable (s : State) (numVfs : Nat) : State :=
  if s.link.vfEnable ∨ 255 < numVfs then s
  else if 7 < numVfs ∧ !s.link.ari then { s with link := { s.link with sriovReject := true } }
  else noteFunctions s (vfsSettled { s with link := { s.link with vfPending := some numVfs } })

/-- VF_ENABLE_SET (R57 to R60). -/
def execVfEnableSet (numVfs : Nat) (s : State) : Host.Outcome State Fault Refusal :=
  .next (configAccess s 0 0x240 (fun t => setVfEnable t numVfs))

/-- A write that clears VF Enable: the VFs cease to exist, and the disable procedure runs for each (R60, R81). -/
def clearVfEnable (s : State) : State :=
  if s.link.vfEnable then
    let s1 := { s with link := { s.link with vfEnable := false } }
    noteFunctions s (((List.range s.link.numVfs).map (· + 1)).foldl (fun t n => disableFn t n .vfEnable) s1)
  else { s with link := { s.link with vfPending := none } }

/-- VF_ENABLE_CLEAR (R60, R81). -/
def execVfEnableClear (s : State) : Host.Outcome State Fault Refusal := .next (configAccess s 0 0x240 clearVfEnable)

/-- BUS_MASTER_ENABLE_CLEAR (R81). -/
def execBusMasterEnableClear (fn : Nat) (s : State) : Host.Outcome State Fault Refusal :=
  .next (configAccess s fn 0x004 (fun t =>
    if (t.fn fn).busMaster then noteFunctions t (disableFn (t.modFn fn (fun f => { f with busMaster := false })) fn .busMaster)
    else t))

/-- D3HOT_ENTRY (R92). -/
def execD3hotEntry (fn : Nat) (s : State) : Host.Outcome State Fault Refusal :=
  .next (configAccess s fn 0x044 (fun t =>
    if (t.fn fn).d3hot then t else noteFunctions t (disableFn (t.modFn fn (fun f => { f with d3hot := true })) fn .d3hot)))

/-- D0_RETURN: the function is reset as by a Function Level Reset (R91, R92). -/
def execD0Return (fn : Nat) (s : State) : Host.Outcome State Fault Refusal :=
  .next (configAccess s fn 0x044 (fun t =>
    if (t.fn fn).d3hot then noteFunctions t (functionLevelReset t fn .d3hot) else t))

/-- FUNCTION_LEVEL_RESET (R91). -/
def execFunctionLevelReset (fn : Nat) (s : State) : Host.Outcome State Fault Refusal :=
  .next (configAccess s fn 0x058 (fun t => noteFunctions t (functionLevelReset t fn .flr)))

/-- FUNCTION_WEDGED: with outstanding work, the watchdog's count has reached WATCHDOG (R87, R88). -/
def execFunctionWedged (fn : Nat) (s : State) : Host.Outcome State Fault Refusal :=
  .next (match s.mainPart fn with
    | none => s
    | some p =>
      if s.fnExists fn && s.outstanding fn && s.quota p 0x0D != 0 && decide (100000 * s.quota p 0x0D ≤ (s.fn fn).stallUs) && (s.fn fn).state != .wedged then
        let s1 := logMain s 5 (0x0100 + fn) 0x0102 p 0 (leBytes 4 ((s.fn fn).stallUs / 100000))
        raise (noteFunctions s (disableFn s1 fn .wedged)) 1026
      else s)

end Sys2Proof.Machine
end

