-- ==== Sys2Proof/Machine/Entropy.lean ====
section
/-! DEFINITION. The entropy block, the seed pool and its draws, the countermeasure generators, the DRBG instances, and the two
opcodes that ask them for bytes (R295 to R297, R364 to R392). -/

namespace Sys2Proof.Machine

/-! ### Noise, tests and conditioning -/

/-- A run of identical samples at which a group fails its repetition count test (R366). -/
def rctCutoff (g : Nat) : Nat := if g < 8 then 129 else if g < 10 then 81 else 73

/-- A count of the window's first value at which a group fails its adaptive proportion test (R366). -/
def aptCutoff (g : Nat) : Nat := if g < 8 then 852 else if g < 10 then 730 else 693

/-- A group's tests before its first sample. -/
def test0 : GroupTest := ⟨none, 0, false, 0, 0, 0⟩

/-- One sample under both tests (R366). -/
def GroupTest.sample (t : GroupTest) (b : Bool) : GroupTest where
  last := some b
  run := if t.last = some b then t.run + 1 else 1
  first := if t.pos = 0 then b else t.first
  count := if t.pos = 0 then 1 else t.count + b2n (b == t.first)
  pos := (t.pos + 1) % 1024
  closed := t.closed + b2n (t.pos == 1023)

/-- The RNG_FAIL cause of a group's last sample: 1 RCT, 2 APT, 0 none (R366, R392). -/
def GroupTest.cause (t : GroupTest) (g : Nat) : Nat :=
  if rctCutoff g ≤ t.run then 1 else if aptCutoff g ≤ t.count then 2 else 0

/-- The groups whose samples reach the conditioner in two E-cycles, in order: all in the first, the fast ones alone in the second; a
diverted group's do not. Each comes with whether its sample is the first of its E-cycle (R364, R369, R391). -/
def Entropy.frame (e : Entropy) : List (Nat × Bool) :=
  let on (l : List Nat) : List Nat := l.filter (fun g => !(e.tap && g == e.tapGroup))
  let mark (l : List Nat) : List (Nat × Bool) := l.map (fun g => (g, l.head? == some g))
  mark (on (List.range 12)) ++ mark (on [8, 9, 10, 11])

/-- The tests as samples come in: the place in the frame, the E-cycles so far, and the first of them that has a failure, with the groups
that fail in it and their causes (R366, R386). -/
structure Sampling where
  phase : Nat
  tests : Tab GroupTest
  cycle : Nat
  at_   : Option Nat
  fails : List (Nat × Nat)
  deriving DecidableEq, Repr

/-- One bit on its way into the conditioner: the sample of its group (R364, R366, R369). -/
def Sampling.step (frame : List (Nat × Bool)) (n : Sampling) (b : Bool) : Sampling :=
  let i := n.phase % frame.length
  let (g, starts) := frame.getD i (0, true)
  let c := n.cycle + b2n starts
  let t := (tgetD n.tests g test0).sample b
  let f := t.cause g
  let m := { n with phase := i + 1, tests := tset n.tests g t, cycle := c }
  if f ≠ 0 ∧ (n.at_ = none ∨ n.at_ = some c) then { m with at_ := some c, fails := n.fails ++ [(g, f)] } else m

/-- The tests over a block of samples (R366). -/
def Entropy.sampled (e : Entropy) (raw : Bytes) : Sampling :=
  raw.foldl (fun n x => (List.range 8).foldl (fun m i => m.step e.frame (bit x.toNat i)) n) ⟨e.phase, e.tests, 0, none, []⟩

/-- The windows that must have closed before a block is released: the open one of every group that its samples came from (R367). -/
def Entropy.windows (e : Entropy) : List Nat :=
  (List.range 12).map (fun g => (tgetD e.tests g test0).closed + b2n ((tgetD e.tests g test0).pos != 0))

/-- Whether they have; a diverted group no longer delays a block (R367, R391). -/
def Entropy.released (e : Entropy) (w : List Nat) : Bool :=
  (List.range 12).all (fun g => (e.tap && g == e.tapGroup) || decide (w.getD g 0 ≤ (tgetD e.tests g test0).closed))

/-- Release every block whose windows have closed (R367). -/
def Entropy.release (e : Entropy) : Entropy :=
  let out := e.formed.takeWhile (fun b => e.released b.2)
  { e with formed := e.formed.drop out.length, held := e.held ++ out.map (·.1), blocksOut := min (2 ^ 64 - 1) (e.blocksOut + out.length) }

/-- The conditioner shifts in one bit: multiplication by x modulo x^256 + x^10 + x^5 + x^2 + 1, plus the bit (R369). -/
def lfsrStep (r : Nat) (b : Bool) : Nat :=
  let v := 2 * r + b2n b
  if 2 ^ 256 ≤ v then (v - 2 ^ 256) ^^^ 0x425 else v

/-- The register after a run of bits, the lowest bit of each byte first. -/
def lfsrRun (r : Nat) (raw : Bytes) : Nat :=
  raw.foldl (fun a x => (List.range 8).foldl (fun v i => lfsrStep v (bit x.toNat i)) a) r

/-- ENTROPY_BLOCK_RELEASE: the block has power and leaves OFF for warm-up (R365, R384). -/
def execEntropyBlockRelease (s : State) : Host.Outcome State Fault Refusal :=
  .next (
    if (s.power.mainOk || s.power.aux) && s.entropy.st == 0 then
      s.modEntropy (fun e => { e with powered := true, st := 1, passed := 0, lfsr := 0, phase := 0, tests := [], formed := [], seqNo := 0, held := [] })
    else s)

/-- WARMUP_END: the startup tests begin (R368). -/
def execWarmupEnd (s : State) : Host.Outcome State Fault Refusal :=
  .next (if s.entropy.st = 1 then s.modEntropy (fun e => { e with st := 2 }) else s)

/-- Looper has its supply: not backup power alone (R322). -/
def State.looperPowered (s : State) : Bool := s.power.mainOk || s.power.aux || s.power.power == .standby

/-- Looper starts blocks: supplied, and only after the entropy sources have passed (R322, R323). -/
def State.looperRuns (s : State) : Bool :=
  s.looperPowered && s.entropy.passed == 0xFFF && (s.entropy.st == 2 || s.entropy.st == 3)

/-- The key a request loads: the DRS for KD, the record key for a seal, and the FIS for the others (R321). -/
def State.looperKey (s : State) (code : Nat) : Option Bytes :=
  if code = 0 then s.tamper.drs else if code < 16 then some fis else s.units.looper.recordKey

/-- Looper's next block takes its draw, a conditioned block ahead of the bridge, with its request's key in the key register (R321, R323,
R372). -/
def looperDraw (s : State) : State :=
  match s.entropy.held with
  | [] => s
  | _ :: r =>
    if s.units.looper.queue.isEmpty || s.units.looper.drawn || !s.looperRuns then s
    else (s.modEntropy (fun e => { e with held := r })).modLooper (fun l =>
      { l with drawn := true, keyReg := l.queue.head?.bind s.looperKey })

/-- ENTROPY_BLOCK_ARRIVAL: the oldest released block crosses the bridge into the seed pool, which holds 64 (R371). -/
def execEntropyBlockArrival (s : State) : Host.Outcome State Fault Refusal :=
  .next (
    if !s.power.mainOk then s
    else match s.entropy.held with
      | [] => s
      | b :: r => s.modEntropy (fun e =>
          { e with held := r, seqNo := e.seqNo + 1,
                   pool := (if e.pool.length < 64 then e.pool else e.pool.drop 1) ++ [b] }))

/-! ### Draws on the seed pool -/

/-- Blocks a draw of a class takes (R374). -/
def drawBlocks (cls : Nat) : Nat := if cls = 1 ∨ cls = 3 then 1 else 2

/-- The draw served next: the lowest class, then the oldest (R374). -/
def nextDraw (l : List (Nat × Nat × Nat)) : Option (Nat × Nat × Nat) :=
  l.foldl (fun m e => match m with
    | none => some e
    | some b => if e.1 < b.1 then some e else some b) none

/-- An instance after a reseed; its first one instantiates it with an empty token bucket (R376, R377, R382). -/
def Drbg.seeded (d : Drbg) (now : Nat) (seed pers add : Bytes) : Drbg :=
  if d.ready then { d.reseeded seed add with counter := 0, lastUs := now, reseeds := min (2 ^ 64 - 1) (d.reseeds + 1) }
  else { d.instantiated seed pers with ready := true, counter := 0, lastUs := now, staged := [], tokens := 0, waiting := [] }

/-- Instantiate or reseed the instance of a partition from two blocks; the personalisation string is the partition, the boot counter and
the serial number (R376, R377). -/
@[noinline] def seedPart (s : State) (p : Nat) (seed add : Bytes) : State :=
  s.modPart p (fun x => { x with drbg := x.drbg.seeded s.opUs seed (leBytes 1 p ++ beBytes 4 s.power.boots ++ serial) add })

/-- The additional input of RANDOM_BYTES and DRBG_RESEED (R295, R296). -/
def addInput (d : Bytes) : Bytes := slice d 32 (bits (dP0 d) 8 3)

/-- What a served draw gives its consumer: 100000 + a lane, 200000 + an engine generator, 300000 + a partition, or the slot
of the descriptor that asked, whose additional input its reseed takes (R296, R315, R373, R377, R380; assumption 3). -/
def giveDraw (s : State) (who : Nat) (key : Bytes) : State :=
  if 300000 ≤ who then seedPart s (who - 300000) key []
  else if 200000 ≤ who then
    s.modEntropy (fun e =>
      { e with gens := tset e.gens (who - 200000) ((tgetD e.gens (who - 200000) gen0).rekeyed engineBuf s.opUs key) })
  else if 100000 ≤ who then s.modLane (who - 100000) (fun l => { l with gen := l.gen.rekeyed laneBuf s.opUs key })
  else match s.slot who with
    | none => s
    | some x => (seedPart s x.part key (if 0xA01 ≤ opcode x.desc then addInput x.desc else [])).modSlot who (fun y => { y with draws := 2, stage := .bound })

/-- Serve one pending draw, if the pool holds its blocks (R374, R375). -/
def serveDraw (s : State) (d : Nat × Nat × Nat) : State :=
  let n := drawBlocks d.1
  if s.entropy.pool.length < n ∨ !s.entropy.ready then s
  else
    let s1 := s.modEntropy (fun e =>
      { e with draws := e.draws.erase d, pool := e.pool.drop n,
               drawCount := tset e.drawCount d.1 (min (2 ^ 64 - 1) (tgetD e.drawCount d.1 0 + 1))
               waitMax := tset e.waitMax d.1 (max (tgetD e.waitMax d.1 0) (min 0xFFFFFFFF (s.opUs - d.2.2))) })
    giveDraw s1 d.2.1 (s.entropy.pool.take n).flatten

/-- SEED_POOL_DRAW_SERVED (R374). -/
def execSeedPoolDrawServed (s : State) : Host.Outcome State Fault Refusal :=
  .next (match nextDraw s.entropy.draws with
    | none => s
    | some d => serveDraw s d)

/-- Ask for a draw for a generator or a partition that has not asked yet. -/
def askOnce (s : State) (cls who : Nat) : State :=
  if s.entropy.draws.any (fun e => e.2.1 == who) then s else askDraw s cls who

/-- ENTROPY_READY: the tests have passed and the pool holds two blocks. The generators ask for their keys, and every partition
for its instance, partition 0 first (R315, R373, R384, R385); this is stop point 2 (R438). -/
def execEntropyReady (s : State) : Host.Outcome State Fault Refusal :=
  .next (
    if s.entropy.st = 2 ∧ s.entropy.passed = 0xFFF ∧ 2 ≤ s.entropy.pool.length then
      let s1 := s.modEntropy (fun e => { e with st := 3, ready := true })
      let s2 := (List.range 10).foldl (fun t g => askOnce t 1 (200000 + g)) s1
      let s3 := (List.range 8).foldl (fun t l => askOnce t 3 (100000 + l)) s2
      let s4 := noteService s ((List.range 256).foldl (fun t p => askOnce t 4 (300000 + p)) s3)
      if s4.power.stopPoint = 1 ∧ s4.booting then reachStop s4 2 else s4
    else s)

/-! ### Generators -/

/-- LANE_GENERATOR_REKEY: 2^16 blocks are out or 1 ms has passed (R315). -/
def execLaneGeneratorRekey (lane : Nat) (s : State) : Host.Outcome State Fault Refusal :=
  .next (
    if s.entropy.ready && decide (lane < 8) && (s.lane lane).gen.due s.opUs then
      askOnce (s.modLane lane (fun l => { l with gen := { l.gen with asked := true } })) 3 (100000 + lane)
    else s)

/-- LANE_GENERATOR_STALL (R315). -/
def execLaneGeneratorStall (lane : Nat) (s : State) : Host.Outcome State Fault Refusal :=
  .next (if lane < 8 then s.modLane lane (fun l => { l with gen := l.gen.stall }) else s)

/-- ENGINE_GENERATOR_REKEY: 2^16 blocks are out or 1 ms has passed (R373). -/
def execEngineGeneratorRekey (gen : Nat) (s : State) : Host.Outcome State Fault Refusal :=
  let g := tgetD s.entropy.gens gen gen0
  .next (
    if s.entropy.ready && decide (gen < 10) && g.due s.opUs then
      askOnce (s.modEntropy (fun e => { e with gens := tset e.gens gen { g with asked := true } })) 1 (200000 + gen)
    else s)

/-- ENGINE_GENERATOR_STALL (R373). -/
def execEngineGeneratorStall (gen : Nat) (s : State) : Host.Outcome State Fault Refusal :=
  .next (
    if gen < 10 then s.modEntropy (fun e => { e with gens := tset e.gens gen (tgetD e.gens gen gen0).stall }) else s)

/-! ### DRBG instances -/

/-- DRBG_INSTANTIATE: the draw of an instance that is not ready is the next one served (R376, R383, R385). -/
def execDrbgInstantiate (part : Nat) (s : State) : Host.Outcome State Fault Refusal :=
  .next (match nextDraw s.entropy.draws with
    | none => s
    | some d => if d.2.1 = 300000 + part ∧ !(s.part part).drbg.ready then serveDraw s d else s)

/-- Ask for the reseed of an instance (R377). -/
def reseedPart (s : State) (p : Nat) : State :=
  if (s.part p).drbg.ready && s.entropy.ready then
    askOnce s 4 (300000 + p)
  else s

/-- DRBG_RESEED_INTERVAL: 1 s has passed since the last reseed; the instance goes on generating (R377). -/
def execDrbgReseedInterval (part : Nat) (s : State) : Host.Outcome State Fault Refusal :=
  .next (if (s.part part).drbg.lastUs + 1000000 ≤ s.opUs then reseedPart s part else s)

/-- DRBG_RESEED_COUNT: the reseed counter stands at 2^20; generate requests wait for the reseed (R377). -/
def execDrbgReseedCount (part : Nat) (s : State) : Host.Outcome State Fault Refusal :=
  .next (if 2 ^ 20 ≤ (s.part part).drbg.counter then reseedPart s part else s)

/-- DRBG_STAGING_REFILL: a generate request of 512 bytes fills the staging buffer of 2 KiB (R379). -/
def execDrbgStagingRefill (part : Nat) (s : State) : Host.Outcome State Fault Refusal :=
  let d := (s.part part).drbg
  .next (
    if d.serves && decide (d.staged.length + 512 ≤ 2048) then
      let (b, g) := d.generate 512 []
      s.modPart part (fun x => { x with drbg := { g with staged := d.staged ++ b } })
    else s)

/-- Take the tokens of a request, if the bucket holds them (R382). -/
def takeTokens (s : State) (n : Nat) (x : Slot) : Option State :=
  let d := (s.part x.part).drbg
  if 1000 * dP1 x.desc ≤ d.tokens then
    some ((s.modPart x.part (fun p => { p with drbg :=
      { p.drbg with tokens := p.drbg.tokens - 1000 * dP1 x.desc, waiting := p.drbg.waiting.filter (· != n) } })).modSlot n
        (fun y => { y with random := true, stage := .bound }))
  else none

/-- The requests that wait for tokens at the instance of a partition, the oldest first: those cut off since have left (R378, R382). -/
def State.tokenWaiters (s : State) (p : Nat) : List Nat :=
  (s.part p).drbg.waiting.filter (fun n =>
    (s.slot n).any (fun x => x.part == p && opcode x.desc == 0xA01 && x.stage == .drawWait && !x.random))

/-- DRBG_TOKEN_GRANT: the bucket holds the tokens of the request that has waited longest (R378, R382). -/
def execDrbgTokenGrant (slot : Nat) (s : State) : Host.Outcome State Fault Refusal :=
  .next (match s.slot slot with
    | none => s
    | some x =>
      if (s.tokenWaiters x.part).head? = some slot then (takeTokens s slot x).getD s else s)

/-! ### The opcodes -/

/-- Ask the prediction-resistance reseed of a request (R377, R378). -/
def askReseed (s : State) (n : Nat) : State :=
  askDraw (s.modSlot n (fun y => { y with stage := .drawWait, draws := 1 })) 4 n

/-- The bytes of a served RANDOM_BYTES request; the reseed of one with PREDICTION_RESISTANCE has taken its additional input already (R295,
R376, R382). -/
def randomOut (s : State) (x : Slot) : Out × State :=
  let n := dP1 x.desc
  let (b, g) := (s.part x.part).drbg.generate n (if bit (dP0 x.desc) 0 then [] else addInput x.desc)
  let u := s.modPart x.part (fun p => { p with drbg := { g with hostBytes := min (2 ^ 64 - 1) (g.hostBytes + n) } })
  (if dDst x.desc = 0 then .inl b else .toDst b, u)

/-- RANDOM_BYTES: it takes its tokens, then its reseed with PREDICTION_RESISTANCE, then generates; NOT_ACTIVE while the instance
is uninstantiated (R295, R297, R378, R382, R383). -/
def execRandomBytes (slot : Nat) (s : State) : Host.Outcome State Fault Refusal :=
  .next (match s.due slot 0xA01 with
    | none => s
    | some x =>
      let g := (s.part x.part).drbg
      if !g.ready then settle s (workDone s slot x) slot x (.fail .notActive)
      else if !x.random && !((s.tokenWaiters x.part).isEmpty && decide (1000 * dP1 x.desc ≤ g.tokens)) then
        (s.modPart x.part (fun p => { p with drbg := { p.drbg with waiting := s.tokenWaiters x.part ++ [slot] } })).modSlot slot
          (fun y => { y with stage := .drawWait })
      else
        let s1 := if x.random then s else (takeTokens s slot x).getD s
        if bit (dP0 x.desc) 0 && x.draws == 0 then askReseed s1 slot
        else if !g.serves then s1
        else
          let (o, t) := randomOut (workDone s1 slot x) x
          settle s1 t slot x o)

/-- DRBG_RESEED (R296, R297, R377, R383). -/
def execDrbgReseed (slot : Nat) (s : State) : Host.Outcome State Fault Refusal :=
  .next (match s.due slot 0xA02 with
    | none => s
    | some x =>
      if !(s.part x.part).drbg.ready then settle s (workDone s slot x) slot x (.fail .notActive)
      else if x.draws = 0 then askReseed s slot
      else settle s (workDone s slot x) slot x {})

/-! ### Failure -/

/-- RNG_FAIL (R392). -/
def rngFail (e : Entropy) : Nat := e.cause * 2 ^ 28 + e.groups

/-- Every generator's key and unreserved blocks are zeroed; what descriptors have reserved stays with them (R317, R387). -/
def zeroGens (s : State) : State :=
  let s1 := s.modEntropy (fun e => { e with gens := tmap e.gens (fun _ g => g.zeroed) })
  { s1 with units := { s1.units with lanes := tmap s1.units.lanes (fun _ l => { l with gen := l.gen.zeroed }) } }

/-- Looper's requests whose current block holds no draw are refused: all but a first one that holds it (R389). -/
def looperCut (s : State) : State :=
  s.modLooper (fun l => if l.drawn then { l with queue := l.queue.take 1 } else { l with queue := [], block := 0, keyReg := none, out := [] })

/-- The entropy block fails: blocks, pool, instances and generator keys are zero, and ENTROPY_FAIL is raised (R386 to R389). -/
def entropyFail (s : State) (cause groups : Nat) : State :=
  let s1 := s.modEntropy (fun e =>
    { e with st := 4, ready := false, cause := cause, groups := groups % 4096,
             passed := bits (e.passed) 11 0 - (e.passed &&& (groups % 4096)), formed := [], held := [], pool := [] })
  let s2 := noteService s (mainAlarm (looperCut s1) 153 (s1.flagClassNow 153) (rngFail s1.entropy))
  let s3 := (tkeys s2.parts).foldl (fun t p => uninstantiate t p .entropyFailed) s2
  zeroGens (s3.modEntropy (fun e => { e with draws := [] }))

/-- CONDITIONER_BLOCK_OUT: 1,024 more bits are shifted in and one more block is formed; every block whose windows have closed is
released, and Looper takes one where a request waits for its draw. A sample that reaches a cutoff fails the entropy block instead.
The conditioner accepts samples only after every startup test has passed, so its first block shows that they have (R364, R366 to
R369, R372, R386; assumption 113). -/
def execConditionerBlockOut (rawBits : Bytes) (s : State) : Host.Outcome State Fault Refusal :=
  .next (
    if s.entropy.st = 2 ∨ s.entropy.st = 3 then
      let raw := fit 128 rawBits
      let n := s.entropy.sampled raw
      let t := s.modEntropy (fun e =>
        let f := { e with lfsr := lfsrRun e.lfsr raw, passed := 0xFFF, phase := n.phase, tests := n.tests }
        { f with formed := f.formed ++ [(leBytes 32 f.lfsr, f.windows)] })
      if n.fails.isEmpty then looperDraw (t.modEntropy Entropy.release)
      else entropyFail t (if n.fails.any (fun f => f.2 == 1) then 1 else 2) ((n.fails.map (fun f => 2 ^ f.1)).foldl (· ||| ·) 0)
    else s)

/-- ENTROPY_HEALTH_FAIL: an RCT or APT failure of some groups, or of the known-answer test; causes 3 to 5 are those of the
startup tests (R366, R368, R386, R392). -/
def execEntropyHealthFail (cause groups : Nat) (s : State) : Host.Outcome State Fault Refusal :=
  .next (
    if (3 ≤ cause ∧ cause ≤ 5 ∧ s.entropy.st = 2) ∨ (1 ≤ cause ∧ cause ≤ 2 ∧ (s.entropy.st = 2 ∨ s.entropy.st = 3)) then
      entropyFail s cause (if cause = 5 then 0 else groups)
    else s)

/-- ENTROPY_TRANSPORT_FAULT (R371, R386). -/
def execEntropyTransportFault (s : State) : Host.Outcome State Fault Refusal :=
  .next (if s.entropy.st = 2 ∨ s.entropy.st = 3 then entropyFail s 6 0 else s)

/-- ENTROPY_BLOCK_TIMEOUT: no block for 100 µs while the block is in service (R386). -/
def execEntropyBlockTimeout (s : State) : Host.Outcome State Fault Refusal :=
  .next (if s.entropy.st = 3 then entropyFail s 7 0 else s)

end Sys2Proof.Machine
end

