-- ==== Sys2Proof/Machine/Space.lean ====
section
/-! DEFINITION. What the host reads: configuration space with its capabilities and base address registers, and every word of BAR0,
of the doorbell pages and of the mailbox BAR (R10, R15, R41 to R44, R48, R52 to R57, R92, R93, R95, R137 to R139, R416, R581). A read
without a row of its own changes nothing (R16), so that these words are functions of the state. -/

namespace Sys2Proof.Machine

/-- Bits [31:0] or [63:32] of a 64-bit value. -/
def halfOf (v : Nat) (hi : Bool) : Nat := if hi then v / 2 ^ 32 % 2 ^ 32 else v % 2 ^ 32

/-! ### Configuration space -/

/-- The stepping as the Revision ID and HIF_ID.STEPPING hold it: B1 (R10). -/
def stepping : Nat := 0xB1

/-- The device identifier of a function: the PF's Device ID, and the VF Device ID of the SR-IOV capability (R41, R93). -/
def deviceId (fn : Nat) : Nat := if fn = 0 then 0x9648 else 0x9649

/-- The capabilities of a function at their offsets: PCI capability IDs below 0x100, extended ones from there on (R42; the IDs are
PRESUMED, PCI Express Base 5.0, assumption 98). -/
def capabilities (fn : Nat) : List (Nat × Nat) :=
  [(0x040, 0x01), (0x050, 0x10), (0x0B0, 0x11), (0x100, 0x0001), (0x148, 0x000E)] ++
    if fn = 0 then [(0x158, 0x0019), (0x178, 0x0025), (0x188, 0x0026), (0x1B8, 0x0027), (0x1F8, 0x002A), (0x238, 0x0010),
      (0x278, 0x002E), (0x2A0, 0x0030)]
    else []

/-- The header of the capability at an offset, linked to the next of its kind (R42). -/
def capHeader (fn off : Nat) : Nat :=
  let l := capabilities fn
  let next := ((l.filter (fun e => decide (off < e.1) && (e.1 < 0x100) == (off < 0x100))).map (·.1)).head?.getD 0
  match l.find? (fun e => e.1 == off) with
  | none => 0
  | some e => if off < 0x100 then e.2 + 256 * next else e.2 + 2 ^ 16 + 2 ^ 20 * next

/-- The size of a base address register of a function, 0 where it has none (R52). -/
def barSize (fn bar : Nat) : Nat :=
  match bar with
  | 0 => if fn = 0 then 0x40000 else 0x10000
  | 2 => if fn = 0 then 0x1000000 else 0x100000
  | 4 => if fn = 0 then 0x10000 else 0
  | _ => 0

/-- Word `k` of six base address registers as it reads: a 64-bit memory BAR, BAR2 prefetchable (R52). -/
def barWord (fn : Nat) (t : Tab Nat) (k : Nat) : Nat :=
  let n := barSize fn (k / 2 * 2)
  let v := tgetD t k 0
  if n = 0 then 0 else if k % 2 = 1 then v else v / n * n + 4 + (if k = 2 then 8 else 0)

/-- Word of the SR-IOV capability at an offset from it (R57 to R59): TotalVFs and InitialVFs 255, First VF Offset 1, VF Stride 1, pages of
4 KiB, the VF Device ID and the VFs' base address registers; VF Migration is not supported. -/
def State.sriovWord (s : State) (o : Nat) : Nat :=
  match o with
  | 0x08 => b2n s.link.vfEnable + 16 * b2n s.link.ari
  | 0x0C => 255 + 2 ^ 16 * 255
  | 0x10 => s.link.numVfs
  | 0x14 => 1 + 2 ^ 16
  | 0x18 => 2 ^ 16 * 0x9649
  | 0x1C => 1
  | 0x20 => 1
  | _ => if 0x24 ≤ o ∧ o < 0x3C then barWord 1 s.link.vfBars ((o - 0x24) / 4) else 0

/-- The power-management state of PMCSR; No_Soft_Reset reads 0 (R42, R92). -/
def Fn.pmcsr (f : Fn) : Nat := if f.d3hot then 3 else 0

/-- The 32-bit word of configuration space at an offset (R41 to R44, R52, R57, R65, R69, R92; the places of fields that the spec names and
does not place are PRESUMED, assumptions 15 and 98). -/
def State.configWord (s : State) (fn off : Nat) : Nat :=
  let f := s.fn fn
  match off with
  | 0x00 => if fn = 0 then 0x1F9C + 2 ^ 16 * 0x9648 else 0xFFFFFFFF
  | 0x04 => 2 * b2n f.memSpace + 4 * b2n f.busMaster + 2 ^ 20
  | 0x08 => stepping + 2 ^ 8 * 0x108000
  | 0x0C => 0
  | 0x2C => 0x1F9C + 2 ^ 16 * deviceId fn
  | 0x30 => 0
  | 0x34 => 0x40
  | 0x44 => f.pmcsr
  | 0x54 => 2 + 2 ^ 15 + 2 ^ 28
  | 0x58 => 32 * (Nat.log2 f.mps - 7) + 2 ^ 12 * (Nat.log2 f.mrrs - 7)
  | 0x60 => 2 ^ 16 * (s.link.speed + 16 * s.link.width)
  | 0x74 => 2 ^ 16 + 2 ^ 17
  | 0x78 => 2 ^ 12 * b2n f.tag10
  | 0xB0 => capHeader fn 0xB0 + 2 ^ 16 * s.messageControl fn
  | 0xB4 => if fn = 0 then 0x18000 else 0x2000
  | 0xB8 => if fn = 0 then 0x19000 else 0x2800
  | 0x104 => if fn = 0 then 2 ^ 28 * b2n s.link.aerIde else 0
  | _ =>
    if 0x10 ≤ off ∧ off < 0x28 then (if fn = 0 then barWord 0 f.bars ((off - 0x10) / 4) else 0)
    else if fn = 0 ∧ 0x23C ≤ off ∧ off < 0x278 then s.sriovWord (off - 0x238)
    else if fn = 0 ∧ 0x2B0 ≤ off ∧ off < 0x6B0 then tgetD (tgetD s.link.ide ((off - 0x2B0) / 64) ide0).rids ((off - 0x2B0) % 64 / 4) 0
    else if fn = 0 ∧ 0x6B0 ≤ off ∧ off < 0xEB0 then
      tgetD (tgetD s.link.ide ((off - 0x6B0) / 128) ide0).addrs ((off - 0x6B0) % 128 / 4) 0
    else capHeader fn off

/-- A configuration read: absent functions do not answer (none), and before the host interface is ready it is to be retried (R48, R60). -/
def State.configRead (s : State) (fn off : Nat) : Option (Except Cpl Nat) :=
  if !s.fnExists fn || !s.power.mainOk || s.link.perst then none
  else some (if s.cfgReady then .ok (s.configWord fn off) else .error .retry)

/-! ### HIF_ registers -/

/-- HIF_ID (R93). -/
def hifId (fn : Nat) : Nat := deviceId fn * 2 ^ 16 + stepping * 2 ^ 8 + fn

/-- HIF_FN_STATE of a function, and its entry of HIF_FN_TABLE (R60, R93). -/
def State.fnStateWord (s : State) (n : Nat) : Nat :=
  (match s.mainPart n with
    | none => 0
    | some p => 2 ^ 24 + p * 2 ^ 16) + b2n (s.ideSecure n) * 2 ^ 7 + (s.fnState n).code

/-- HIF_FN_ERR (R93). -/
def hifFnErr (f : Fn) : Nat :=
  f.stray * 2 ^ 16 + b2n f.ideLost * 8 + b2n f.dropped * 4 + b2n f.readTimeout * 2 + b2n f.readFault

/-- HIF_WDOG: the hosting partition's WATCHDOG and the time counted, in 100 ms units (R87, R93). -/
def State.hifWdog (s : State) (n : Nat) : Nat :=
  ((s.mainPart n).map (fun p => s.quota p 0x0D)).getD 0 * 2 ^ 16 + min 0xFFFF ((s.fn n).stallUs / 100000)

/-- HIF_LINK (R46, R93). -/
def State.hifLink (s : State) : Nat :=
  s.link.retrains * 2 ^ 16 + b2n s.belowGen3 * 2 ^ 10 + b2n s.link.reversed * 2 ^ 9 + s.link.width * 2 ^ 4 + s.link.speed

/-- A word of the HIF_ registers; HIF_CTL reads 0 on a VF, and what only the PF has reads 0 there (R93). -/
def State.hifWord (s : State) (n off : Nat) : Nat :=
  match off with
  | 0x000 => hifId n
  | 0x004 => s.hifStatus n
  | 0x008 => if n = 0 then b2n s.link.warmOnLinkdown * 8 + b2n s.link.coldOnPerst * 4 else 0
  | 0x00C => s.fnStateWord n
  | 0x010 => hifFnErr (s.fn n)
  | 0x018 => halfOf (s.fn n).errAddr false
  | 0x01C => halfOf (s.fn n).errAddr true
  | 0x020 => s.hifWdog n
  | 0x024 => if n = 0 then s.hifLink else 0
  | 0x028 => s.link.epoch
  | _ => 0

/-! ### EIC_ registers -/

/-- EIC_HOLDOFF of a hold-off group: the time left in 250 ns steps, rounded up, and the timer (R416). -/
def State.holdOffWord (s : State) (h : Nat) : Nat :=
  (if (s.holdOff h).isOpen then (s.holdOff h).remain else 0) * 2 ^ 16 + (s.holdOff h).timer

/-- A half of an EIC_MAP word: the entry of a source or local group; 0 where the PF has none to show (R416). -/
def State.mapHalfWord (s : State) (fn n : Nat) : Nat :=
  let m := tgetD s.eic.map (mapKey fn n) map0
  if s.mapOpen fn n then b2n m.enable * 2 ^ 15 + m.priority * 2 ^ 8 + m.vector else 0

/-- A word of the EIC_ registers, at its offset from the block's start in the PF's layout or the VF's (R416). -/
def State.eicWord (s : State) (fn off : Nat) : Nat :=
  let pend (w : Nat) : Nat := ((List.range 32).map (fun b =>
    match s.pendSource fn (32 * w + b) with
    | none => 0
    | some n => if s.eic.hostPend.contains n then 2 ^ b else 0)).sum
  if off = eicCtlAt fn then
    b2n (s.fn fn).mapRefused * 8 + (if fn = 0 then b2n s.eic.globalHold * 4 else 0) + b2n (s.fn fn).hold * 2
  else if fn = 0 then
    if 0x1100 ≤ off ∧ off < 0x1280 then s.holdOffWord ((off - 0x1100) / 4)
    else if 0x1300 ≤ off ∧ off < 0x13C0 then pend ((off - 0x1300) / 4)
    else if 0x1400 ≤ off ∧ off < 0x2000 then
      s.mapHalfWord 0 ((off - 0x1400) / 2 + 1) * 2 ^ 16 + s.mapHalfWord 0 ((off - 0x1400) / 2)
    else 0
  else if 0x500 ≤ off ∧ off < 0x508 then pend ((off - 0x500) / 4)
  else if 0x600 ≤ off ∧ off < 0x680 then
    s.mapHalfWord fn ((off - 0x600) / 2 + 1) * 2 ^ 16 + s.mapHalfWord fn ((off - 0x600) / 2)
  else if 0x700 ≤ off ∧ off < 0x800 then
    match (s.group (fn * 1024 + (off - 0x700) / 4)).glob with
    | none => 0
    | some g => s.holdOffWord (g / 16)
  else 0

/-! ### GRP_ blocks, MSI-X and RING_ blocks -/

/-- A word of a GRP_ block; on the PF a group bound to a VF reads 0 (R138). -/
def State.groupWord (s : State) (gid off : Nat) : Nat :=
  let g := s.group gid
  if s.groupHidden gid then 0
  else match off with
    | 0x0 => halfOf g.baseWord false
    | 0x4 => halfOf g.baseWord true
    | 0x8 => g.prod
    | 0xC => g.cons
    | _ => 0

/-- A word of the MSI-X table (R53, R400). -/
def State.msixWord (s : State) (fn v word : Nat) : Nat :=
  let e := (s.fn fn).entry v
  match word with
  | 0 => halfOf e.addr false
  | 1 => halfOf e.addr true
  | 2 => e.data
  | _ => b2n e.mask

/-- A word of the MSI-X pending-bit array (R53, R403). -/
def State.pbaWord (s : State) (fn w : Nat) : Nat :=
  ((List.range 32).map (fun b => if (s.fn fn).pba.contains (32 * w + b) then 2 ^ b else 0)).sum

/-- The code of a ring state (R130). -/
def RingState.code : RingState → Nat
  | .disabled => 0
  | .enabled => 1
  | .stopping => 2
  | .error => 3
  | .halted => 4

/-- The ring block a function's RING_ block shows: on the PF, of a bound global ring, the VF's (R95). -/
def State.shownRing (s : State) (rid : Nat) : Nat := if rid < 4096 then (s.vfRingOf rid).getD rid else rid

/-- RING_CFG as it reads: on a VF the hosted partition and the local group; the PF shows the owning partition and the global group
(R137). -/
def State.ringCfg (s : State) (rid : Nat) : Nat :=
  let k := s.shownRing rid
  let r := s.ring k
  let grp := if rid < 4096 ∧ 4096 ≤ k then (s.globalGroup (s.ringGroup k)).getD 0 else r.group
  ((s.ringPart k).getD 0) * 2 ^ 24 + grp * 2 ^ 14 + b2n r.eventAll * 2 ^ 13 + r.sizeLog2

/-- A word of a RING_ block (R95, R137). -/
def State.ringWord (s : State) (rid off : Nat) : Nat :=
  let r := s.ring (s.shownRing rid)
  match off with
  | 0x00 => halfOf r.base false
  | 0x04 => halfOf r.base true
  | 0x08 => s.ringCfg rid
  | 0x0C => r.errCode * 2 ^ 16 + r.state.code * 2 ^ 8
  | 0x10 => r.fetch
  | 0x14 => r.replay
  | 0x18 => r.latchLo
  | 0x1C => r.latchHi
  | _ => 0

/-! ### The base address registers' contents -/

/-- The word of BAR0 at an offset; reserved offsets read 0 (R53). -/
def State.bar0Word (s : State) (fn off : Nat) : Nat :=
  let pf := fn == 0
  let at_ (lo n : Nat) : Bool := decide (lo ≤ off ∧ off < lo + n)
  if off < 0x400 then s.hifWord fn off
  else if pf && at_ 0x400 0x400 then s.fnStateWord ((off - 0x400) / 4)
  else if at_ (if pf then 0x1000 else 0x400) (if pf then 0x1000 else 0xC00) then s.eicWord fn off
  else if at_ (if pf then 0x10000 else 0x1000) (if pf then 0x4000 else 0x400) then
    let o := off - (if pf then 0x10000 else 0x1000)
    s.groupWord (fn * 1024 + o / 16) (o % 16)
  else if at_ (if pf then 0x18000 else 0x2000) (if pf then 0x1000 else 0x400) then
    let o := off - (if pf then 0x18000 else 0x2000)
    s.msixWord fn (o / 16) (o % 16 / 4)
  else if at_ (if pf then 0x19000 else 0x2800) (if pf then 0x20 else 8) then
    s.pbaWord fn ((off - (if pf then 0x19000 else 0x2800)) / 4)
  else if at_ (if pf then 0x20000 else 0x4000) (if pf then 0x20000 else 0x2000) then
    let o := off - (if pf then 0x20000 else 0x4000)
    s.ringWord (fn * 4096 + o / 32) (o % 32)
  else 0

/-- What doorbell page `k` of a function reads at an offset: P and T at 0, nothing elsewhere; the PF's page `k` shows global ring `k`
whatever function it is bound to (R95, R139). -/
def State.doorbellRead (s : State) (fn k off : Nat) : Nat :=
  let r := s.ring (s.shownRing (fn * 4096 + k))
  if off = 0 then r.prod + r.retire * 2 ^ 32 else 0

/-- The word of the mailbox BAR at an offset (R581). -/
def State.mailboxWord (s : State) (off : Nat) : Nat :=
  let word (t : Tab Byte) (o : Nat) : Nat := leNat ((List.range 4).map (fun i => tgetD t (o + i) 0#8))
  if off = 0 then s.od.reqLen * 2 ^ 16
  else if off = 4 then s.od.replyLen * 2 ^ 16 + b2n s.od.replyUp * 4 + b2n s.od.busy * 2 + b2n s.od.rejected
  else if 0x1000 ≤ off ∧ off < 0x5000 then word s.od.reqBuf (off - 0x1000)
  else if 0x8000 ≤ off ∧ off < 0xC000 then word s.od.replyBuf (off - 0x8000)
  else 0

/-- A read of a BAR: of a function that does not exist nothing answers (none); with Memory Space Enable 0, or of another size or
alignment than BAR0 and the mailbox take, it completes with Unsupported Request (R54, R56, R60, R581). -/
def State.barRead (s : State) (fn bar off size : Nat) : Option (Except Cpl Nat) :=
  if !s.fnExists fn || !s.power.mainOk then none
  else if !s.barOpen fn || (bar != 2 && (!(size == 4 || size == 8) || off % size != 0)) then some (.error .unsupported)
  else
    let w (o : Nat) : Nat := if bar = 0 then s.bar0Word fn o else if bar = 4 ∧ fn = 0 then s.mailboxWord o else 0
    some (.ok (if bar = 2 then s.doorbellRead fn (off / 4096) (off % 4096) else if size = 8 then w off + w (off + 4) * 2 ^ 32 else w off))

end Sys2Proof.Machine
end

