-- ==== Sys2Proof/Machine/HostLink.lean ====
section
/-! DEFINITION. The host link, register writes without a row of their own, link encryption and attestation over DOE, and the
scheduling epoch with its quota writes and remaps (R16, R41 to R80, R93, R137, R138, R416, R581). -/

namespace Sys2Proof.Machine

/-! ### PERST#, Hot Reset and the link -/

/-- Change the host link. -/
@[noinline] def State.modLink (s : State) (f : Link → Link) : State := { s with link := f s.link }

/-- PERST_ASSERT: the host interface is held in reset; once PERST# has been deasserted in this start it triggers a main reset
(R49, R485). -/
def execPerstAssert (s : State) : Host.Outcome State Fault Refusal :=
  .next (
    let s1 := s.modLink (fun l => { l with perst := true, up := false })
    if s.power.mainOk && s.link.perstSeenHigh && !s.link.perst then
      askReset s1 ⟨if s.link.coldOnPerst then 1 else 2, 0x02, false, 0⟩
    else s1)

/-- PERST_DEASSERT: in STANDBY it raises HOST_WAKE (R48, R485, R489). -/
def execPerstDeassert (s : State) : Host.Outcome State Fault Refusal :=
  .next (
    let s1 := s.modLink (fun l => { l with perst := false, perstSeenHigh := true })
    if s.link.perst ∧ s.power.power = .standby then (latchWake s1 1042).roused else s1)

/-- A Hot Reset, or a long link-down: a warm main reset, or the disable procedure and a Function Level Reset of every function
(R50). -/
def linkReset (s : State) (source : Nat) : State :=
  if s.link.warmOnLinkdown then askReset s ⟨2, source, false, 0⟩
  else noteFunctions s (s.functions.reverse.foldl (fun t n => functionLevelReset t n .flr) s)

/-- HOT_RESET (R50). -/
def execHotReset (s : State) : Host.Outcome State Fault Refusal := .next (if s.power.mainOk then linkReset s 0x06 else s)

/-- HOST_LINK_DOWN: the link goes down and retrains (R50, R93). -/
def execHostLinkDown (s : State) : Host.Outcome State Fault Refusal := .next (s.modLink (fun l => { l with up := false }))

/-- LINK_DOWN_TIMEOUT: the link has been down for more than 10 ms (R50). -/
def execLinkDownTimeout (s : State) : Host.Outcome State Fault Refusal :=
  .next (if s.power.mainOk && !s.link.up && s.link.trainedOnce then linkReset s 0x07 else s)

/-- LINK_TRAINED: the link settles; a link that could form only x2 settles at x1 (R45, R46, R93). -/
def execLinkTrained (speed width : Nat) (reversed : Bool) (s : State) : Host.Outcome State Fault Refusal :=
  .next (
    if s.link.perst || !s.power.mainOk || !decide (1 ≤ speed ∧ speed ≤ 5) || !([1, 2, 4, 8, 16].contains width) then s
    else
      let w := if width = 2 then 1 else width
      let s1 := s.modLink (fun l => { l with
        up := true, speed := speed, width := w, reversed := reversed, trainedOnce := true,
        retrains := if l.trainedOnce then min 0xFFFF (l.retrains + 1) else l.retrains })
      let s2 := if s.link.speed ≠ speed ∨ s.link.width ≠ w then raise s1 1028 else s1
      noteService s s2)

/-- The effect of a reset command of HIF_CTL (R93): it acts only under its key. -/
def hifReset (s : State) (kind key : Nat) : State :=
  barAccess s 0 0x008 (fun t => if key = 0x5AC3 then orderlyReset t kind 0x03 else t)

/-- RESET_COLD (R93, R490, R493). -/
def execResetCold (key : Nat) (s : State) : Host.Outcome State Fault Refusal := .next (hifReset s 1 key)

/-- RESET_WARM (R93, R490, R493). -/
def execResetWarm (key : Nat) (s : State) : Host.Outcome State Fault Refusal := .next (hifReset s 2 key)

/-- HIF_FN_ERR_READ: STRAY_DOORBELLS clears on the read (R16, R93). -/
def execHifFnErrRead (fn : Nat) (s : State) : Host.Outcome State Fault Refusal :=
  .next (barAccess s fn 0x010 (fun t =>
    (readBack t fn 0x010 (hifFnErr (t.fn fn))).modFn fn (fun f => { f with stray := 0 })))

/-! ### Register writes -/

/-- Replace the low or the high half of a 64-bit value. -/
def half64 (old : Nat) (hi : Bool) (v : Nat) : Nat := if hi then old % 2 ^ 32 + v * 2 ^ 32 else old / 2 ^ 32 * 2 ^ 32 + v

/-- A write of HIF_CTL: the link bits are stored, and under RESET_KEY the reset bits act, RESET_COLD before RESET_WARM (R93). -/
def writeHifCtl (s : State) (v : Nat) : State :=
  let s1 := s.modLink (fun l => { l with coldOnPerst := bit v 2, warmOnLinkdown := bit v 3 })
  if bits v 31 16 ≠ 0x5AC3 then s1
  else if bit v 0 then orderlyReset s1 1 0x03
  else if bit v 1 then orderlyReset s1 2 0x03 else s1

/-- Write a HIF_ register (R93). -/
def writeHif (s : State) (fn off v : Nat) : State :=
  match off with
  | 0x004 => if fn = 0 ∧ bit v 11 then s.modLink (fun l => { l with sriovReject := false }) else s
  | 0x008 => if fn = 0 then writeHifCtl s v else s
  | 0x010 => s.modFn fn (fun f =>
      let g := { f with ideLost := f.ideLost && !bit v 3, dropped := f.dropped && !bit v 2,
                        readTimeout := f.readTimeout && !bit v 1, readFault := f.readFault && !bit v 0 }
      { g with errAddr := if g.readTimeout || g.readFault then g.errAddr else 0 })
  | _ => s

/-- Write a word of a RING_ block (R131, R137); the PF's block of a ring bound to a VF takes no write (R95). -/
def writeRing (s : State) (rid off v : Nat) : State :=
  let r := s.ring rid
  if rid < 4096 ∧ (s.vfRingOf rid).isSome then s else
  let off_ := r.state == .disabled
  match off with
  | 0x00 => if off_ then s.modRing rid (fun r => { r with base := half64 r.base false (v / 4096 * 4096), badBase := v % 4096 != 0 }) else s
  | 0x04 => if off_ then s.modRing rid (fun r => { r with base := half64 r.base true v }) else s
  | 0x08 =>
    if off_ then s.modRing rid (fun r => { r with
      part := if rid < 4096 then bits v 31 24 else r.part
      group := if rid < 4096 then bits v 23 14 else bits v 19 14
      eventAll := bit v 13, sizeLog2 := bits v 4 0
      badCfg := bits v 12 5 != 0 || (decide (4096 ≤ rid) && bits v 23 20 != 0) })
    else s
  | 0x14 => if off_ || r.state == .error then s.modRing rid (fun r => { r with replay := v }) else s
  | _ => s

/-- Write a word of a GRP_ block that changes no ENABLE: the base is writable while ENABLE is 0 (R138). -/
def writeGroup (s : State) (gid off v : Nat) : State :=
  if (s.group gid).enable ∨ s.groupHidden gid then s
  else match off with
    | 0x0 => s.modGroup gid (fun g => { g with base := half64 g.base false (v / 65536 * 65536), sizeLog2 := bits v 10 6 })
    | 0x4 => s.modGroup gid (fun g => { g with base := half64 g.base true v })
    | _ => s

/-- Write a word of the EIC_ registers that has no row of its own (R416). -/
def writeEic (s : State) (fn off v : Nat) : State :=
  if off = eicCtlAt fn then
    (if bit v 3 then s.modFn fn (fun f => { f with mapRefused := false }) else s)
  else if fn = 0 ∧ 0x1100 ≤ off ∧ off < 0x1280 then
    let h := (off - 0x1100) / 4
    { s with eic := { s.eic with holdOff := tset s.eic.holdOff h { s.holdOff h with timer := bits v 9 0 } } }
  else s

/-- Write a word of the MSI-X table's address or data (R400). -/
def writeMsix (s : State) (fn v word x : Nat) : State :=
  s.modFn fn (fun f =>
    let e := f.entry v
    let g := match word with
      | 0 => { e with addr := half64 e.addr false (x / 4 * 4) }
      | 1 => { e with addr := half64 e.addr true x }
      | 2 => { e with data := x }
      | _ => e
    { f with msix := tset f.msix v g })

/-- Write one word of BAR0 (R53). -/
def writeBar0 (s : State) (fn off v : Nat) : State :=
  let pf := fn == 0
  let at_ (lo n : Nat) : Bool := decide (lo ≤ off ∧ off < lo + n)
  if off < 0x400 then writeHif s fn off v
  else if at_ (if pf then 0x1000 else 0x400) (if pf then 0x1000 else 0xC00) then writeEic s fn off v
  else if at_ (if pf then 0x10000 else 0x1000) (if pf then 0x4000 else 0x400) then
    let o := off - (if pf then 0x10000 else 0x1000)
    writeGroup s (fn * 1024 + o / 16) (o % 16) v
  else if at_ (if pf then 0x18000 else 0x2000) (if pf then 0x1000 else 0x400) then
    let o := off - (if pf then 0x18000 else 0x2000)
    writeMsix s fn (o / 16) (o % 16 / 4) v
  else if at_ (if pf then 0x20000 else 0x4000) (if pf then 0x20000 else 0x2000) then
    let o := off - (if pf then 0x20000 else 0x4000)
    writeRing s (fn * 4096 + o / 32) (o % 32) v
  else s

/-- Write one word of the mailbox BAR: REQ_LEN, the W1C bits of HIF_MB_STATUS, and the request buffer (R581). -/
def writeMailbox (s : State) (off v : Nat) : State :=
  if off = 0 then { s with od := { s.od with reqLen := bits v 31 16 } }
  else if off = 4 then { s with od := { s.od with replyUp := s.od.replyUp && !bit v 2, rejected := s.od.rejected && !bit v 0 } }
  else if 0x1000 ≤ off ∧ off < 0x5000 then
    { s with od := { s.od with reqBuf := bufWrite s.od.reqBuf (off - 0x1000) (leBytes 4 v) } }
  else s

/-- Setting Bus Master Enable brings a function that a clearing disabled back (R81; assumption 34). -/
def setBusMaster (s : State) (fn : Nat) : State :=
  let s1 := s.modFn fn (fun f => { f with busMaster := true, state := if f.state = .disabled then .enabled else f.state })
  enableParts s1 fn

/-- Write a base address register: the bits below its size are not stored (R52). -/
def setBar (fn : Nat) (t : Tab Nat) (k v : Nat) : Tab Nat :=
  let n := barSize fn (k / 2 * 2)
  cset 0 t k (if n = 0 then 0 else if k % 2 = 1 then v else v / n * n)

/-- A write of the Command register: setting Bus Master Enable brings the function back, clearing it disables it (R56, R81). -/
def writeCommand (s : State) (fn v : Nat) : State :=
  let s1 := s.modFn fn (fun f => { f with memSpace := bit v 1 })
  if bit v 2 && !(s.fn fn).busMaster then setBusMaster s1 fn
  else if !bit v 2 && (s.fn fn).busMaster then
    noteFunctions s (disableFn (s1.modFn fn (fun f => { f with busMaster := false })) fn .busMaster)
  else s1

/-- A write of PMCSR: entry to D3hot, or the return to D0 (R92). -/
def writePower (s : State) (fn v : Nat) : State :=
  let d3 := (s.fn fn).d3hot
  if bits v 1 0 = 3 ∧ !d3 then noteFunctions s (disableFn (s.modFn fn (fun f => { f with d3hot := true })) fn .d3hot)
  else if bits v 1 0 = 0 ∧ d3 then noteFunctions s (functionLevelReset s fn .d3hot) else s

/-- A write of the PF's SR-IOV control, IDE registers and VF base address registers (R52, R57 to R60, R65). -/
def writePfConfig (s : State) (off v : Nat) : State :=
  if off = 0x240 then
    let s1 := s.modLink (fun l => { l with ari := bit v 4 })
    if bit v 0 then setVfEnable s1 s1.link.numVfs else clearVfEnable s1
  else if off = 0x248 then (if s.link.vfEnable then s else s.modLink (fun l => { l with numVfs := min 255 (v % 65536) }))
  else if 0x25C ≤ off ∧ off < 0x274 then s.modLink (fun l => { l with vfBars := setBar 1 l.vfBars ((off - 0x25C) / 4) v })
  else if 0x2B0 ≤ off ∧ off < 0x6B0 then
    let put (x : IdeStream) : IdeStream := { x with rids := tset x.rids ((off - 0x2B0) % 64 / 4) v }
    s.modLink (fun l => { l with ide := tmod l.ide ((off - 0x2B0) / 64) ide0 put })
  else if 0x6B0 ≤ off ∧ off < 0xEB0 then
    let put (x : IdeStream) : IdeStream := { x with addrs := tset x.addrs ((off - 0x6B0) % 128 / 4) v }
    s.modLink (fun l => { l with ide := tmod l.ide ((off - 0x6B0) / 128) ide0 put })
  else s

/-- Write a word of configuration space (R42 to R44, R52, R57 to R60, R65, R91, R92, R398): Command, base address registers, PMCSR, Device
Control and Device Control 2, MSI-X Message Control, and on the PF SR-IOV and IDE. -/
def writeConfig (s : State) (fn off v : Nat) : State :=
  match off with
  | 0x004 => writeCommand s fn v
  | 0x044 => writePower s fn v
  | 0x058 =>
    let s1 := s.modFn fn (fun f => { f with mrrs := min 4096 (128 * 2 ^ bits v 14 12), mps := min 512 (128 * 2 ^ bits v 7 5) })
    if bit v 15 then noteFunctions s (functionLevelReset s1 fn .flr) else s1
  | 0x0B2 => s.modFn fn (fun f => { f with msixEnable := bit v 15, funcMask := bit v 14 })
  | 0x078 => s.modFn fn (fun f => { f with tag10 := bit v 12 })
  | _ =>
    if fn ≠ 0 then s
    else if 0x10 ≤ off ∧ off < 0x28 then s.modFn 0 (fun f => { f with bars := setBar 0 f.bars ((off - 0x10) / 4) v })
    else writePfConfig s off v

/-- A write of a BAR's words, the low one first: BAR0 and the mailbox take aligned accesses of 4 and 8 bytes, and turn others away with
Unsupported Request (R54, R581); BAR2 takes doorbells alone (R100). -/
def writeBar (s : State) (fn bar offset size value : Nat) : State :=
  if bar = 2 then s
  else if !(size == 4 || size == 8) || offset % size != 0 then refuseAccess s fn (bar * 2 ^ 24 + offset) .unsupported
  else
    let w (t : State) (o v : Nat) : State :=
      if bar = 0 then writeBar0 t fn o v else if bar = 4 ∧ fn = 0 then writeMailbox t o v else t
    let s1 := w s offset (value % 2 ^ 32)
    if size = 8 then w s1 (offset + 4) (value / 2 ^ 32 % 2 ^ 32) else s1

/-- REGISTER_WRITE: a write of configuration space (`bar` 6) or of a BAR (R16, R48, R54, R56). Configuration space takes its own field
sizes. -/
def execRegisterWrite (fn bar offset size value : Nat) (s : State) : Host.Outcome State Fault Refusal :=
  .next (
    if bar = 6 then configAccess s fn offset (fun t => writeConfig t fn offset value)
    else barAccess s fn (bar * 2 ^ 24 + offset) (fun t => writeBar t fn bar offset size value))

/-! ### Link encryption -/

/-- Send a DOE data object (R61). -/
def sendDoe (s : State) (b : Bytes) : State := { s with bus := { s.bus with doe := s.bus.doe ++ [b] } }

/-- The functions of a stream that host a partition with IDE_REQUIRED (R68). -/
def State.ideFns (s : State) (i : IdeStream) : List Nat :=
  s.functions.filter (fun n => i.covers n && (s.hosted n).any (fun p => s.quota p 0x0E == 1))

/-- A stream leaves the Secure state: its keys are cleared, the functions it protects are disabled, and none of their completions in
flight is written any more (R66, R68, R395). -/
def leaveSecure (s : State) (stream : Nat) : State :=
  let i := tgetD s.link.ide stream ide0
  if !i.secure then s
  else
    let fns := s.ideFns i
    let s1 := s.modLink (fun l => { l with ide := tset l.ide stream { i with secure := false, keys := [], active := [] } })
    let s2 := raise (logMain s1 4 0x0100 0x0104 0xFF stream []) 1029
    let s3 := { s2 with adm := { s2.adm with slots := tmap s2.adm.slots (fun _ x =>
      { x with barred := x.barred || fns.contains (x.rid / 4096) }) } }
    noteFunctions s (fns.foldl (fun t n => disableFn (t.modFn n (fun f => { f with ideLost := true })) n .ideLoss) s3)

/-- IDE_CHECK_FAILED (R69). -/
def execIdeCheckFailed (stream : Nat) (s : State) : Host.Outcome State Fault Refusal :=
  .next (if stream < 16 then leaveSecure (s.modLink (fun l => { l with aerIde := true })) stream else s)

/-- An IDE_KM answer inside the secured session: AES-256-GCM under the responder's data key, its sequence number in the IV (R62, R65;
assumption 99). -/
def sendKm (s : State) (body : Bytes) : State :=
  let head := leBytes 4 (s.link.spdmSession.getD 0) ++ leBytes 2 (body.length + 16)
  let iv := xorBytes (slice s.link.spdmKey 32 12) (leBytes 12 s.link.spdmSeq)
  let (ct, tag) := gcmEnc (slice s.link.spdmKey 0 32) iv head body
  sendDoe (s.modLink (fun l => { l with spdmSeq := l.spdmSeq + 1 })) (head ++ ct ++ tag)

/-- Whether IDE_KM requests are served: a secured session is open, and the stream, key set and direction exist. -/
def State.kmOpen (s : State) (stream keySet rx : Nat) : Bool :=
  s.link.spdmSession.isSome && decide (stream < 16 ∧ keySet < 2 ∧ rx < 2)

/-- KEY_PROG (R65): protocol ID, object ID 3 with its status, stream and key set. -/
def execKeyProg (stream keySet rx : Nat) (key : Bytes) (s : State) : Host.Outcome State Fault Refusal :=
  .next (
    if s.kmOpen stream keySet rx then
      let s1 := s.modLink (fun l => { l with ide := tmod l.ide stream ide0 (fun i => { i with keys := tset i.keys (2 * keySet + rx) (fit 32 key) }) })
      sendKm s1 [0#8, 3#8, 0#8, 0#8, byteOf stream, 0#8, byteOf (keySet + 2 * rx), 0#8]
    else s)

/-- K_SET_GO: the key set is in use in one direction; with both directions in use the stream is Secure (R65, R395). -/
def execKSetGo (stream keySet rx : Nat) (s : State) : Host.Outcome State Fault Refusal :=
  .next (
    if s.kmOpen stream keySet rx && (tget (tgetD s.link.ide stream ide0).keys (2 * keySet + rx)).isSome then
      let i := tgetD s.link.ide stream ide0
      let a := tset i.active rx keySet
      let sec := i.secure || ((tget a 0).isSome && (tget a 1).isSome)
      let s1 := s.modLink (fun l => { l with ide := tset l.ide stream { i with active := a, secure := sec } })
      let s2 := sendKm s1 [0#8, 5#8, 0#8, 0#8, byteOf stream, 0#8, byteOf (keySet + 2 * rx), 0#8]
      if sec ∧ !i.secure then raise s2 1029 else s2
    else s)

/-- K_SET_STOP: the key set is no longer in use, and a stream without it leaves the Secure state (R65, R66, R68). -/
def execKSetStop (stream keySet rx : Nat) (s : State) : Host.Outcome State Fault Refusal :=
  .next (
    if s.kmOpen stream keySet rx && tget (tgetD s.link.ide stream ide0).active rx == some keySet then
      let s1 := leaveSecure s stream
      let s2 := s1.modLink (fun l => { l with ide := tmod l.ide stream ide0 (fun i => { i with active := terase i.active rx }) })
      sendKm s2 [0#8, 5#8, 0#8, 0#8, byteOf stream, 0#8, byteOf (keySet + 2 * rx), 0#8]
    else s)

/-! ### DOE and SPDM -/

/-- DOE_DISCOVERY: the three data object types, in order (R61). -/
def execDoeDiscovery (index : Nat) (s : State) : Host.Outcome State Fault Refusal :=
  .next (sendDoe s (if index < 3 then leBytes 2 1 ++ [byteOf index, byteOf (if index = 2 then 0 else index + 1)] else zeros 4))

/-- The Casuf-issued chain of the P-384 half, or of the ML-DSA-87 half: the shipped one until another is installed (R63, R470). -/
def State.certChain (s : State) (k : Nat) : Bytes :=
  let c := if k = 0 then s.life.certEc else s.life.certMl
  if !s.life.certsSet then [] else if c.isEmpty then Config.shippedChain k else c

/-- The SPDM versions the responder implements: 1.1 and 1.2 (R62). -/
def spdmVersions : List Nat := [0x11, 0x12]

/-- The capability flags of the responder: CERT, CHAL, MEAS with signature, ENCRYPT, MAC and KEY_EX (R62; the bits are DSP0274's). -/
def spdmCapabilities : Nat := 2 ^ 1 + 2 ^ 2 + 2 * 2 ^ 3 + 2 ^ 6 + 2 ^ 7 + 2 ^ 9

/-- The only algorithms the responder negotiates, in DSP0274's bits: ECDSA P-384, SHA-384 for both hashes, secp384r1, AES-256-GCM, and the
SPDM key schedule (R62). -/
def spdmAlgorithms : List Nat := [2 ^ 7, 2 ^ 1, 2 ^ 2, 2 ^ 4, 2 ^ 1, 2 ^ 0]

/-- What version, capability and algorithm negotiation agreed on, as the transcript holds it (R62; assumption 99). -/
def spdmVca (ver : Nat) : Bytes := [byteOf ver] ++ leBytes 4 spdmCapabilities ++ (spdmAlgorithms.map (leBytes 4)).flatten

/-- An SPDM error response: InvalidRequest, or VersionMismatch to a version the responder does not implement (R62). -/
def spdmError (ver : Nat) : Bytes :=
  if spdmVersions.contains ver then [byteOf ver, 0x7F#8, 0x01#8, 0#8] else [0x10#8, 0x7F#8, 0x41#8, 0#8]

/-- Serve an SPDM request of a version the responder implements; a request that cannot be served is answered with an error. -/
def serveSpdm (s : State) (ver : Nat) (ok : Bool) (f : State → State) : State :=
  if spdmVersions.contains ver && ok then f s else sendDoe s (spdmError ver)

/-- Bytes of the slot-0 chain that fit one 4 KiB data object beside its headers (R61). -/
def certRoom : Nat := 4096 - 16

/-- SPDM_GET_CERTIFICATE: a portion of the slot-0 chain, within one data object; slots 1 to 7 are empty, and a lost identity is answered
with an error (R61, R63, R467). -/
def execSpdmGetCertificate (head : SpdmHead) (offset length : Nat) (s : State) : Host.Outcome State Fault Refusal :=
  .next (
    let c := s.certChain 0
    serveSpdm s head.ver (head.param == 0 && !c.isEmpty && s.life.unsealed && decide (offset ≤ c.length)) (fun t =>
      let p := (c.drop offset).take (min length certRoom)
      sendDoe t ([byteOf head.ver, 0x02#8, byteOf head.param, 0#8] ++ leBytes 2 p.length ++ leBytes 2 (c.length - offset - p.length) ++ p)))

/-- The hash an SPDM signature covers: SHA-384 of the transcript, which SPDM 1.2 prefixes with its version and context strings (R62,
R63). -/
def spdmToSign (ver : Nat) (context : String) (transcript : Bytes) : Bytes :=
  if ver = 0x12 then
    let c := ascii context
    Sha.sha384 ((List.replicate 4 (ascii "dmtf-spdm-v1.2.*")).flatten ++ zeros (36 - c.length) ++ c ++ Sha.sha384 transcript)
  else Sha.sha384 transcript

/-- Random bytes a signature under the P-384 identity key takes. -/
def signDraw : Nat := 56

/-- A signature of a hash under the P-384 identity key, its nonce drawn from the instance of partition 0 (R63, R381). -/
def identitySign (s : State) (h : Bytes) : Bytes × State :=
  let (k, t) := coreDraw s signDraw
  (Ec.sign Ec.p384 identityScalar (Ec.scalar Ec.p384 k) h, t)

/-- One DMTF measurement block (R64). -/
def measBlock (index ty : Nat) (v : Bytes) : Bytes :=
  [byteOf index, 1#8] ++ leBytes 2 (v.length + 3) ++ [byteOf ty] ++ leBytes 2 v.length ++ v

/-- The block of a measurement index: MR0 to MR7, then the life-cycle state raw (R64). -/
def State.measurement (s : State) (i : Nat) : Bytes :=
  if i = 9 then measBlock 9 0x83 [byteOf s.life.latched] else measBlock i 0x01 (s.mr (i - 1))

/-- SPDM_CHALLENGE (R63): chain hash, nonce, measurement summary, and the signature over both messages; it waits while the instance of
partition 0 cannot serve its draws (R375, R381; assumption 100). -/
def execSpdmChallenge (head : SpdmHead) (nonce : Bytes) (s : State) : Host.Outcome State Fault Refusal :=
  .next (serveSpdm s head.ver (head.param == 0 && nonce.length == 32 && s.life.unsealed && !(s.certChain 0).isEmpty) (fun t =>
    if !t.coreReady (32 + signDraw) then t
    else
      let (n, s1) := coreDraw t 32
      let all := ((List.range 9).map (fun i => t.measurement (i + 1))).flatten
      let body := [byteOf head.ver, 0x03#8, byteOf head.param, 1#8] ++ Sha.sha384 (t.certChain 0) ++ n ++ Sha.sha384 all ++ leBytes 2 0
      let asked := [byteOf head.ver, 0x83#8, byteOf head.param, 0xFF#8] ++ nonce
      let (sig, s2) := identitySign s1 (spdmToSign head.ver "responder-challenge_auth signing" (spdmVca head.ver ++ asked ++ body))
      sendDoe s2 (body ++ sig)))

/-- SPDM_GET_MEASUREMENTS: the number of indices, one block, or all of them; signed on request (R64); it waits as a challenge does. -/
def execSpdmGetMeasurements (head : SpdmHead) (signed : Bool) (nonce : Bytes) (s : State) : Host.Outcome State Fault Refusal :=
  .next (serveSpdm s head.ver ((decide (head.param ≤ 9) || head.param == 0xFF) && (!signed || (s.life.unsealed && nonce.length == 32))) (fun t =>
    if !t.coreReady (32 + (if signed then signDraw else 0)) then t
    else
      let index := head.param
      let blocks := if index = 0 then [] else if index = 0xFF then (List.range 9).map (fun i => t.measurement (i + 1)) else [t.measurement index]
      let rec_ := blocks.flatten
      let (n, s1) := coreDraw t 32
      let body := [byteOf head.ver, 0x60#8, byteOf (if index = 0 then 9 else 0), 0#8, byteOf blocks.length] ++ leBytes 3 rec_.length ++ rec_
        ++ n ++ leBytes 2 0
      let asked := [byteOf head.ver, 0xE0#8, byteOf (b2n signed), byteOf index] ++ nonce
      let (sig, s2) := if signed then identitySign s1 (spdmToSign head.ver "responder-measurements signing" (spdmVca head.ver ++ asked ++ body))
        else ([], s1)
      sendDoe s2 (body ++ sig)))

/-! #### The SPDM key schedule (R62; DSP0274, assumption 99) -/

/-- HKDF-Expand with SHA-384, of at most 96 bytes. -/
def hkdfExpand (key info : Bytes) (n : Nat) : Bytes :=
  let t1 := Sha.hmac384 key (info ++ [1#8])
  fit n (t1 ++ Sha.hmac384 key (t1 ++ info ++ [2#8]))

/-- The info of one expansion: its length, the version string, a label and a transcript hash. -/
def binConcat (ver n : Nat) (label : String) (context : Bytes) : Bytes :=
  leBytes 2 n ++ ascii (if ver = 0x12 then "spdm1.2 " else "spdm1.1 ") ++ ascii label ++ context

/-- The responder's finished key of a session, from the DHE secret and the transcript hash TH1. -/
def spdmFinished (ver : Nat) (dhe th : Bytes) : Bytes :=
  let hs := hkdfExpand (Sha.hmac384 (zeros 48) dhe) (binConcat ver 48 "rsp hs data" th) 48
  hkdfExpand hs (binConcat ver 48 "finished" []) 48

/-- The responder's data key and IV of a session, from the DHE secret and the transcript hash TH2. -/
def spdmDataKey (ver : Nat) (dhe th : Bytes) : Bytes :=
  let salt := hkdfExpand (Sha.hmac384 (zeros 48) dhe) (binConcat ver 48 "derived" []) 48
  let ms := hkdfExpand (Sha.hmac384 salt (zeros 48)) (binConcat ver 48 "rsp app data" th) 48
  hkdfExpand ms (binConcat ver 32 "key" []) 32 ++ hkdfExpand ms (binConcat ver 12 "iv" []) 12

/-- SPDM_KEY_EXCHANGE opens a secured session over secp384r1 (R62): the responder's point, its signature and its verify data, and the
session's key; it waits as a challenge does (R375, R381). -/
def execSpdmKeyExchange (head : SpdmHead) (point : Bytes) (s : State) : Host.Outcome State Fault Refusal :=
  let ver := head.ver
  .next (match Ec.decode Ec.p384 (0x04#8 :: point) with
    | none => sendDoe s (spdmError ver)
    | some q => serveSpdm s ver (s.life.unsealed && Ec.onCurve Ec.p384 q.1 q.2) (fun t =>
      if !t.coreReady (90 + signDraw) then t
      else
        let (r, s1) := coreDraw t 56
        let d := Ec.scalar Ec.p384 r
        let (sid, s2) := coreDraw s1 2
        let (n, s3) := coreDraw s2 32
        let own := (Ec.encode Ec.p384 (Ec.mul Ec.p384 d (Ec.base Ec.p384))).drop 1
        let body := [byteOf ver, 0x64#8, 0#8, 0#8] ++ sid ++ [0#8, 0#8] ++ n ++ own ++ leBytes 2 0
        let asked := [byteOf ver, 0xE4#8, 0xFF#8, 0#8] ++ leBytes 2 head.param ++ point
        let th := spdmVca ver ++ Sha.sha384 (t.certChain 0) ++ asked ++ body
        let (sig, s4) := identitySign s3 (spdmToSign ver "responder-key_exchange_rsp signing" th)
        let dhe := Ec.ecdh Ec.p384 d q
        let th1 := Sha.sha384 (th ++ sig)
        let done := Sha.hmac384 (spdmFinished ver dhe th1) th1
        let s5 := s4.modLink (fun l => { l with
          spdmSession := some (head.param % 65536 + leNat sid * 65536), spdmKey := spdmDataKey ver dhe (Sha.sha384 (th ++ sig ++ done)),
          spdmSeq := 0 })
        sendDoe s5 (body ++ sig ++ done)))

/-! ### Quotas and the scheduling epoch -/

/-- What a holding quota counts (R76, R185, R363). -/
def State.quotaUse (s : State) (p sub : Nat) : Nat :=
  match sub with
  | 0x03 => s.ringsHeld p
  | 0x04 => s.inFlight p
  | 0x05 => s.recordsUsed p
  | 0x06 => s.granulesUsed p
  | 0x0C => ((tfilter s.eic.map (fun k m => m.enable && some p == s.mainPart (k / 2048))).map (fun e => e.2.vector)).dedup.length
  | 0x0F => tcount s.units.engines (fun _ e => e.st == .session && e.sessPart == p)
  | 0x10A => s.lineageUsed p
  | _ => 0

/-- The limit of a sum over all partitions, if the quota has one (R78, R185, R363). -/
def quotaLimit (sub : Nat) : Option Nat :=
  match sub with
  | 0x03 => some 4096
  | 0x04 => some 65536
  | 0x05 => some (2 ^ 28)
  | 0x06 => some 8388608
  | 0x07 => some 65536
  | 0x0F => some 32
  | 0x10A => some (2 ^ 20)
  | _ => none

/-- The index and sub-index of a quota: 0x10A is LINEAGE_QUOTA of OD 0x3100 + p (R185). -/
def quotaAt (p sub : Nat) : Nat × Nat := if sub = 0x10A then (0x3100 + p, 0x0A) else (0x2100 + p, sub)

/-- The value of a quota. -/
def State.quotaNow (s : State) (p sub : Nat) : Nat := s.odNat (quotaAt p sub).1 (quotaAt p sub).2

/-- The function a partition is on its way to: that of a remap under way, or its own (R73). -/
def State.fnGoal (s : State) (p : Nat) : Nat := ((s.part p).disable.bind (·.remap)).getD (s.part p).fn

/-- The refusal of a quota write at its evaluating boundary: below the partition's use, below 64 credits, more rings than a VF has, or
beyond the sum over all partitions (R74, R76, R78, R120). -/
def State.quotaRefused (s : State) (p sub v : Nat) : Bool :=
  decide (v < s.quotaUse p sub) || (sub == 4 && decide (v < 64)) || (sub == 3 && s.fnGoal p != 0 && decide (256 < v)) ||
    (match quotaLimit sub with
      | none => false
      | some m => decide (m < (((List.range 256).map (fun q => s.quotaNow q sub)).sum - s.quotaNow p sub) + v))

/-- Evaluate one quota write: from the boundary the value is in force; it becomes durable, and is answered, as any replicated
entry (R75 to R79, R382, R566). -/
def evalQuota (s : State) (w : Req × Nat × Nat × Nat) : State :=
  let (rq, p, sub, v) := w
  let (i, k) := quotaAt p sub
  if s.quotaRefused p sub v then refuse s rq i k 0x20 .quota
  else
    let b := numBytes i k v
    let s1 := s.odSet i k b
    let s2 := if sub = 0x0B then s1.modPart p (fun x => { x with drbg := { x.drbg with tokens := 0 } }) else s1
    acceptCommit s2 rq i k 0x20 [] [.od i k b]

/-- Clear the assignments of a function that a partition leaves or joins: on a VF all of them, on the PF those of its own groups
alone (R73, R406). -/
def clearAssignments (s : State) (p n : Nat) : State :=
  if n = 0 then
    let own := (s.groupsOf p).filter (fun g => !(s.rings.any (fun e =>
      decide (e.1 < 4096) && e.2.part != p && e.2.group == g)))
    let s1 := { s with eic := { s.eic with map := tfilter s.eic.map (fun k _ => !(decide (k < 1024) && own.contains k)) } }
    clearPending s1 0 own
  else
    let s1 := resetEic s n
    { s1 with groups := tfilter s1.groups (fun gid _ => gid / 1024 != n) }

/-- Map a partition to its new function (R73). -/
def remapPart (s : State) (p n : Nat) : State :=
  let old := (s.part p).fn
  let mine := s.ringsOf p
  let s0 := clearAssignments s p old
  let s1 := if n = 0 then s0 else clearAssignments s0 p n
  let s2 := { s1 with rings := tfilter s1.rings (fun rid _ => !mine.contains rid) }
  let s3 := s2.modPart p (fun x => { x with fn := n, disable := none })
  if s3.quota p 2 = 1 ∧ (s3.fn n).state ≠ .wedged then s3.modPart p (fun x => { x with dis := .enabled }) else s3

/-- Acknowledged remaps take effect at the epoch boundary (R73). -/
def applyRemaps (s : State) : State :=
  (tkeys s.parts).foldl (fun t p => match (t.part p).disable with
    | none => t
    | some d => if (t.part p).dis = .disabled then (match d.remap with
        | none => t
        | some n => remapPart t p n) else t) s

/-- SCHEDULING_EPOCH: HIF_EPOCH counts, quota writes are evaluated in arrival order, and remaps take effect (R73, R75, R79, R93). -/
def execSchedulingEpoch (s : State) : Host.Outcome State Fault Refusal :=
  .next (
    let s1 := (s.modLink (fun l => { l with epoch := (l.epoch + 1) % 2 ^ 32 }))
    let s2 := s1.od.quotas.foldl evalQuota { s1 with od := { s1.od with quotas := [] } }
    noteFunctions s (applyRemaps s2))

/-- The quotas a session writes. -/
def isQuota (sub : Nat) : Bool := decide (3 ≤ sub ∧ sub ≤ 0x0D) || sub == 0x0F || sub == 0x10A

/-- QUOTA_WRITE: it waits for the next epoch boundary (R74, R75). -/
def quotaWrite (rq : Req) (part sub v : Nat) (s : State) : State :=
  let (i, k) := quotaAt part sub
  roleWrite s rq i k 1 true
    (fun t => if 256 ≤ part ∨ !isQuota sub then some .keyUsage
      else match numCheck i k v with
        | some st => some st
        | none => if sub = 3 ∧ (t.part part).fn ≠ 0 ∧ 256 < v then some .inputRange else none)
    (fun t => { t with od := { t.od with quotas := t.od.quotas ++ [(rq, part, sub, v)] } })

/-- QUOTA_WRITE (R74, R75). -/
def execQuotaWrite (rq : Req) (part sub v : Nat) (s : State) : Host.Outcome State Fault Refusal := .next (quotaWrite rq part sub v s)

/-- A VF that another partition is mapped to, is being remapped to, or has not left yet, by its stored or its waiting FUNCTION value (R71,
R73). -/
def State.vfTaken (s : State) (part fn : Nat) : Bool :=
  (List.range 256).any (fun p => p != part && (s.quota p 1 == fn || (s.part p).fn == fn || s.fnGoal p == fn)) ||
    s.commit.queue.any (fun i => i.changes.any (fun c => match c with
      | .od idx 1 v => decide (0x2100 ≤ idx ∧ idx < 0x2200) && idx != 0x2100 + part && v == leBytes 1 fn
      | _ => false))

/-- PARTITION_FUNCTION_WRITE: the partition is disabled on its old function and then remapped; partition 0 stays on the PF, a VF hosts one
partition at most, and a partition that holds more than 256 rings does not fit a VF (R70, R71, R73, R74; the statuses are assumption 36). -/
def partitionFunctionWrite (rq : Req) (part fn : Nat) (grant : Bytes) (s : State) : State :=
  grantWrite s rq (0x2100 + part) 1 4 part false (leBytes 1 fn) grant
    (fun t => if 256 ≤ part then some .keyUsage
      else if 256 ≤ fn then some .malformed
      else if part = 0 ∨ (fn ≠ 0 ∧ t.vfTaken part fn) then some .inputRange
      else if fn ≠ 0 ∧ 256 < t.quota part 3 then some .quota else none)
    (fun t use => noteFunctions t (disablePart
      (acceptCommit t rq (0x2100 + part) 1 (writeOp false grant) [] (.od (0x2100 + part) 1 (leBytes 1 fn) :: use)) part .remap (some fn)))

/-- PARTITION_FUNCTION_WRITE (R73). -/
def execPartitionFunctionWrite (rq : Req) (part fn : Nat) (grant : Bytes) (s : State) : Host.Outcome State Fault Refusal :=
  .next (partitionFunctionWrite rq part fn grant s)

/-- PARTITION_ENABLE_WRITE: 0 disables the partition, 1 returns it to service (R74, R81). -/
def partitionEnableWrite (rq : Req) (part v : Nat) (grant : Bytes) (s : State) : State :=
  grantWrite s rq (0x2100 + part) 2 4 part false (leBytes 1 v) grant
    (fun _ => if 256 ≤ part then some .keyUsage else numCheck (0x2100 + part) 2 v)
    (fun t use =>
      let t1 := acceptCommit (t.odSet (0x2100 + part) 2 (leBytes 1 v)) rq (0x2100 + part) 2 (writeOp false grant) []
        (.od (0x2100 + part) 2 (leBytes 1 v) :: use)
      noteFunctions t (if v = 0 then (if (t.part part).dis = .enabled then disablePart t1 part .enable none else t1)
        else if (t.part part).dis = .disabled ∧ (t.part part).disable.isNone ∧ (t.fn (t.part part).fn).state = .enabled then
          t1.modPart part (fun x => { x with dis := .enabled })
        else t1))

/-- PARTITION_ENABLE_WRITE (R74, R81). -/
def execPartitionEnableWrite (rq : Req) (part v : Nat) (grant : Bytes) (s : State) : Host.Outcome State Fault Refusal :=
  .next (partitionEnableWrite rq part v grant s)

end Sys2Proof.Machine
end

