-- ==== Sys2Proof/Machine/Domains.lean ====
section
/-! DEFINITION. Key domains: creation and destruction of partitions, binding masks, announcements and migration, the policy entries
of a partition, and the background work on the key store (R39, R40, R143 to R159, R188, R193, R226, R230, R258, R267, R270, R300). -/

namespace Sys2Proof.Machine

/-! ### Creation and destruction -/

/-- Whether a waiting change or task already creates or destroys a partition. -/
def State.domainPending (s : State) (p : Nat) : Bool :=
  s.keys.kdJobs.any (fun j => j.task == .create p) || s.commit.queue.any (fun i => i.changes.any (fun c => match c with
    | .partCreate q _ _ => q == p
    | .partDestroy q => q == p
    | _ => false))

/-- Whether an announcement is pending: made, accepted, or waiting for KD (R152). -/
def State.announcing (s : State) : Bool :=
  s.ahead.meas.migration == 1 || s.keys.kdJobs.any (fun j => match j.task with
    | .manifest _ => true
    | .announce _ _ => true
    | _ => false)

/-- A write whose effect needs KD waits for it: the key-bind microcode asks Looper (R145, R321). -/
def askKd (s : State) (rq : Req) (idx sub op : Nat) (uses : List Change) (task : KdTask) : State :=
  { s with keys := { s.keys with kdJobs := s.keys.kdJobs ++ [⟨some (rq, idx, sub, op), uses, task⟩] } }

/-- The partitions that are ACTIVE and whose storage key is in the key table. -/
def State.activeParts (s : State) : List (Nat × Bytes) :=
  (List.range 256).filterMap (fun p =>
    if (s.part p).key = .active then (s.part p).psk.map (fun k => (p, k)) else none)

/-- The binding mask of a partition (R147). -/
def State.mask (s : State) (p : Nat) : Nat := s.policyEntry p 2

/-- The PENDING seal of a storage key under the pending values (R155). -/
def State.pendingSeal (s : State) (man : Option Bytes) (p : Nat) (nonce psk : Bytes) : List Change :=
  match s.pmkPending p nonce (s.mask p) man with
  | none => []
  | some k => [.sealSet p 1 (sealOf k psk)]

/-- Draw secrets from a partition's instance, instantiated or reseeded first (R34, R380, R383). -/
def drawSecret (s : State) (p n : Nat) : Bytes × State :=
  let stale := !(s.part p).drbg.ready || decide ((s.part p).drbg.lastUs + 1000 < s.opUs)
  let s1 := if stale then seedPart (s.modEntropy (fun e => { e with pool := e.pool.drop 2 })) p (s.entropy.pool.take 2).flatten [] else s
  let (b, d) := (s1.part p).drbg.generate n []
  (b, s1.modPart p (fun x => { x with drbg := d }))

/-- The changes that make a partition ACTIVE, with a PENDING seal where an announcement stands by then (R150, R159). -/
def createChanges (s : State) (p : Nat) (nonce psk : Bytes) : List Change :=
  let a := s.ahead
  match a.pmk p nonce (a.mask p) with
  | none => []
  | some k => [.partCreate p nonce psk, .sealSet p 0 (sealOf k psk)] ++
      (if a.meas.migration = 1 then a.pendingSeal a.meas.manifest p nonce psk else [])

/-- PARTITION_CREATE: it waits for KD, which needs a DRS, and then for its randomness (R145, R150, R375, R383). -/
def partitionCreate (rq : Req) (part : Nat) (grant : Bytes) (s : State) : State :=
  grantWrite s rq (0x3100 + part) 3 1 part false [1#8] grant
    (fun t => if 256 ≤ part then some .keyUsage
      else if (t.part part).key ≠ .empty ∨ t.domainPending part ∨ t.tamper.drs.isNone then some .notActive
      else none)
    (fun t use => askKd t rq (0x3100 + part) 3 (writeOp false grant) use (.create part))

/-- PARTITION_CREATE (R150). -/
def execPartitionCreate (rq : Req) (part : Nat) (grant : Bytes) (s : State) : Host.Outcome State Fault Refusal :=
  .next (partitionCreate rq part grant s)

/-- PARTITION_DESTROY (R151): partition 0 cannot be destroyed, and an EMPTY or DESTROYING one has nothing to destroy. -/
def partitionDestroy (rq : Req) (part : Nat) (grant : Bytes) (s : State) : State :=
  grantWrite s rq (0x3100 + part) 4 1 part false [1#8] grant
    (fun t => if part = 0 ∨ 256 ≤ part then some .keyUsage
      else if ((t.part part).key ≠ .active ∧ (t.part part).key ≠ .sealFailed) ∨ t.domainPending part then some .notActive else none)
    (fun t use => acceptCommit t rq (0x3100 + part) 4 (writeOp false grant) [] (.partDestroy part :: use))

/-- PARTITION_DESTROY (R151). -/
def execPartitionDestroy (rq : Req) (part : Nat) (grant : Bytes) (s : State) : Host.Outcome State Fault Refusal :=
  .next (partitionDestroy rq part grant s)

/-- BINDING_MASK_WRITE (R147, R152): a partition that is not ACTIVE is refused as one with an announcement pending is (assumption 101). -/
def bindingMaskWrite (rq : Req) (part mask : Nat) (grant : Bytes) (s : State) : State :=
  grantWrite s rq (0x3100 + part) 2 2 part false (leBytes 1 mask) grant
    (fun t => if part = 0 ∨ 256 ≤ part then some .keyUsage
      else if 256 ≤ mask then some .malformed
      else if !bit mask 0 || !bit mask 2 then some .inputRange
      else if (t.part part).key ≠ .active ∨ t.announcing ∨ t.domainPending part then some .notActive else none)
    (fun t use => askKd t rq (0x3100 + part) 2 (writeOp false grant) use (.mask part mask))

/-- BINDING_MASK_WRITE (R152). -/
def execBindingMaskWrite (rq : Req) (part mask : Nat) (grant : Bytes) (s : State) : Host.Outcome State Fault Refusal :=
  .next (bindingMaskWrite rq part mask grant s)

/-! ### Announcements and migration -/

/-- Length of a manifest (R153). -/
def manifestLen : Nat := 5743

/-- The public keys of a Casuf authority (R154). -/
def casufEc (k : Nat) : Bytes := (List.range 97).map (Config.casufEcByte k)

/-- The public keys of a Casuf authority (R154). -/
def casufMl (k : Nat) : Bytes := (List.range 2592).map (Config.casufMlByte k)

/-- Whether both signatures at the end of a signed object verify under an authority's keys (R154, R470, R477). -/
def casufSigned (k : Nat) (b : Bytes) : Bool :=
  let n := b.length - (96 + 4627)
  let m := slice b 0 n
  Ec.verifyEnc Ec.p384 (casufEc k) (Sha.sha384 m) (slice b n 96)
    && verifyWith 0x603 0 0 (casufMl k) [] m (slice b (n + 96) 4627)

/-- The status of a manifest (R153, R154). -/
def manifestCheck (m : Bytes) : Option Status :=
  if m.length ≠ manifestLen ∨ leAt m 0 4 ≠ 1 ∨ 16 < leAt m 248 4 then some .inputRange
  else if !casufSigned 0 m || slice m 8 48 != (List.range 48).map Config.stagedByte || decide (leAt m 4 4 < Config.runningSequence) then
    some .verifyFail
  else none

/-- The PENDING seals of every ACTIVE partition (R155, R156). -/
def State.pendingSeals (s : State) (man : Option Bytes) : List Change :=
  (s.activeParts.map (fun e => s.pendingSeal man e.1 (s.part e.1).nonce e.2)).flatten

/-- A manifest newer than the adopted one is offered as a configuration change (R530). -/
def offerManifest (s : State) (m : Bytes) : State :=
  if s.clustered && s.seam.quarantine == 0 && decide (leAt (s.odGet 0x7000 0x0B) 4 4 < leAt m 4 4) then
    if s.isMaster then stepEpoch s (some (0x7000, 0x0B, m))
    else sendTo s s.actingMaster 4 (configMessage (some (0x7000, 0x0B, m)) 0 [])
  else s

/-- MANIFEST_WRITE (R153 to R155, R530). -/
def manifestWrite (rq : Req) (m grant : Bytes) (s : State) : State :=
  grantWrite s rq 0x3001 1 2 0 true m grant (fun _ => manifestCheck m)
    (fun t use => askKd t rq 0x3001 1 (writeOp true grant) use (.manifest m))

/-- MANIFEST_WRITE (R155). -/
def execManifestWrite (rq : Req) (m grant : Bytes) (s : State) : Host.Outcome State Fault Refusal := .next (manifestWrite rq m grant s)

/-- ANNOUNCED_MR_WRITE: a customer announcement of MR5, MR6 or MR7 (R144, R156). -/
def announcedMrWrite (rq : Req) (k : Nat) (v grant : Bytes) (s : State) : State :=
  grantWrite s rq 0x3000 (k + 4) 2 0 false v grant
    (fun _ => if k < 5 ∨ 7 < k then some .keyUsage else if v.length ≠ 48 then some .malformed else none)
    (fun t use => askKd t rq 0x3000 (k + 4) (writeOp false grant) use (.announce k v))

/-- ANNOUNCED_MR_WRITE (R156). -/
def execAnnouncedMrWrite (rq : Req) (k : Nat) (v grant : Bytes) (s : State) : Host.Outcome State Fault Refusal :=
  .next (announcedMrWrite rq k v grant s)

/-! ### What waits for KD -/

/-- This member's own seal of a replicated partition joins its set as CURRENT (R539). -/
def ownSeal (s : State) (p : Nat) : State :=
  match (s.part p).psk, s.pmk p (s.part p).nonce (s.mask p) with
  | some psk, some k =>
    (s.withBase (fun b => { b with parts := tmod b.parts p (part0 p) (fun x => { x with current := some (sealOf k psk) }) })).modPart p
      (fun x => { x with pmk := some k })
  | _, _ => s

/-- A vault's seal of the storage key of a partition it copies, while its MR2 lies in the compatible set (R531, R561). -/
def vaultSeal (s : State) (key p : Nat) (nonce psk : Bytes) : State :=
  let wrap := if s.compatible then (s.pmk p nonce (s.mask p)).map (fun k => sealOf k psk) else none
  { s with pair := { s.pair with vaults := tset s.pair.vaults key { tgetD s.pair.vaults key vault0 with nonce := nonce, wrap := wrap } } }

/-- Refuse the request a task answers: by the time KD came, its conditions no longer held. -/
def refuseJob (s : State) (j : KdJob) : State :=
  match j.rq with
  | none => s
  | some (rq, idx, sub, op) => refuse s rq idx sub op .notActive

/-- A task's changes are accepted, with the grant use its write consumes (R567, R572). -/
def acceptJob (s : State) (j : KdJob) (l : List Change) : State :=
  match j.rq with
  | none => commitQuietly s l
  | some (rq, idx, sub, op) => acceptCommit s rq idx sub op [] (l ++ j.uses)

/-- A task under KD (R145, R150, R152, R155, R156, R539, R561). -/
def runTask (s : State) (j : KdJob) : State :=
  match j.task with
  | .create p =>
    if (s.ahead.part p).key ≠ .empty then refuseJob s j
    else
      let (nonce, s1) := drawSecret s p 32
      let (psk, s2) := drawSecret s1 p 32
      acceptJob s2 j (createChanges s2 p nonce psk)
  | .mask p mask =>
    let x := s.ahead.part p
    if x.key ≠ .active ∨ s.ahead.meas.migration = 1 then refuseJob s j
    else
      let re := match s.pmk p x.nonce mask, x.psk with
        | some k, some psk => [Change.sealSet p 0 (sealOf k psk)]
        | _, _ => []
      acceptJob s j (.od (0x3100 + p) 2 (leBytes 1 mask) :: re)
  | .manifest m => offerManifest (acceptJob s j (.manifest m :: s.ahead.pendingSeals (some m) ++ [.migration 1])) m
  | .announce k v =>
    let a := s.ahead.odSet 0x3000 (k + 4) v
    acceptJob s j (.od 0x3000 (k + 4) v :: a.pendingSeals a.meas.manifest ++ [.migration 1])
  | .own p => ownSeal s p
  | .vault key p nonce psk => vaultSeal s key p nonce psk

/-- Whether a task can run: a creation draws two secrets, and waits for the entropy they need (R150, R375, R383). -/
def State.taskReady (s : State) (j : KdJob) : Bool :=
  match j.task with
  | .create _ => s.entropy.ready && decide (2 ≤ s.entropy.pool.length)
  | _ => true

/-- The task that KD was formed for runs, and KD is cleared (R145, R320). -/
def serveKd (s : State) : State :=
  match s.keys.kd, s.keys.kdJobs with
  | some _, j :: r =>
    if !s.taskReady j then s
    else
      let t := runTask { s with keys := { s.keys with kdJobs := r } } j
      { t with keys := { t.keys with kd := none } }
  | _, _ => s

/-! ### The end of a migration -/

/-- The change that discards one kind of seal in every partition. -/
def State.dropSeals (s : State) (which : Nat) : List Change := (tkeys s.parts).map (fun p => .sealSet p which [])

/-- FINALISE (R158); in another state it is refused with NOT_ACTIVE (assumption 102). -/
def finaliseWrite (rq : Req) (grant : Bytes) (s : State) : State :=
  grantWrite s rq 0x3001 3 2 0 false [1#8] grant
    (fun t => if t.ahead.meas.migration = 2 ∨ t.ahead.meas.migration = 3 then none else some .notActive)
    (fun t use => acceptCommit t rq 0x3001 3 (writeOp false grant) [] (t.dropSeals 2 ++ (.migration 0 :: use)))

/-- FINALISE (R158). -/
def execFinalise (rq : Req) (grant : Bytes) (s : State) : Host.Outcome State Fault Refusal := .next (finaliseWrite rq grant s)

/-- CANCEL (R158); in another state it is refused with NOT_ACTIVE (assumption 102). -/
def cancelWrite (rq : Req) (grant : Bytes) (s : State) : State :=
  grantWrite s rq 0x3001 4 2 0 false [1#8] grant
    (fun t => if t.ahead.meas.migration = 1 then none else some .notActive)
    (fun t use => acceptCommit t rq 0x3001 4 (writeOp false grant) []
      (t.dropSeals 1 ++ [.manifest [], .od 0x3000 9 (zeros 48), .od 0x3000 10 (zeros 48), .od 0x3000 11 (zeros 48), .migration 0] ++ use))

/-- CANCEL (R158). -/
def execCancel (rq : Req) (grant : Bytes) (s : State) : Host.Outcome State Fault Refusal := .next (cancelWrite rq grant s)

/-! ### Policy entries of a partition -/

/-- PIN_POLICY_WRITE (R226, R227): both lengths lie in 4 to 12, MIN_LEN is not above MAX_LEN, and reserved bits are zero. -/
def pinPolicyWrite (rq : Req) (part v : Nat) (grant : Bytes) (s : State) : State :=
  grantOd s rq (0x3100 + part) 0x0C 12 part (leBytes 2 v) grant
    (fun _ =>
      let hi := bits v 15 12
      let lo := bits v 11 8
      if 256 ≤ part then some .keyUsage
      else if 65536 ≤ v then some .malformed
      else if lo < 4 ∨ 12 < lo ∨ hi < 4 ∨ 12 < hi ∨ hi < lo ∨ bits v 7 3 ≠ 0 then some .inputRange else none)

/-- PIN_POLICY_WRITE (R226). -/
def execPinPolicyWrite (rq : Req) (part v : Nat) (grant : Bytes) (s : State) : Host.Outcome State Fault Refusal :=
  .next (pinPolicyWrite rq part v grant s)

/-- DEC_TABLE_WRITE (R227, R230): sixteen decimal digits with every digit present. -/
def decTableWrite (rq : Req) (part table : Nat) (v grant : Bytes) (s : State) : State :=
  grantOd s rq (0x3100 + part) (0x0D + table) 12 part v grant
    (fun _ =>
      let l := nibbles v
      if 256 ≤ part ∨ 4 ≤ table then some .keyUsage
      else if v.length ≠ 8 then some .malformed
      else if l.all (· ≤ 9) && (List.range 10).all (fun k => l.contains k) then none else some .inputRange)

/-- DEC_TABLE_WRITE (R230). -/
def execDecTableWrite (rq : Req) (part table : Nat) (v grant : Bytes) (s : State) : Host.Outcome State Fault Refusal :=
  .next (decTableWrite rq part table v grant s)

/-- ATC_CAPACITY_WRITE (R267, R270). -/
def atcCapacityWrite (rq : Req) (part v : Nat) (grant : Bytes) (s : State) : State :=
  grantWrite s rq (0x3100 + part) 0x12 12 part false (leBytes 4 v) grant
    (fun t => if 256 ≤ part then some .keyUsage
      else if 2 ^ 32 ≤ v then some .malformed
      else if v % 8 ≠ 0 ∨ 2 ^ 26 < v then some .inputRange
      else if v ≠ (t.part part).atcCap ∧ t.quota part 5 < t.recordsUsed part - (t.part part).atcCap / 8 + v / 8 then some .quota
      else none)
    (fun t use => acceptCommit t rq (0x3100 + part) 0x12 (writeOp false grant) []
      ((if v = (t.part part).atcCap then [] else [.atcTable part v, .od (0x3100 + part) 0x12 (leBytes 4 v)]) ++ use))

/-- ATC_CAPACITY_WRITE (R270). -/
def execAtcCapacityWrite (rq : Req) (part v : Nat) (grant : Bytes) (s : State) : Host.Outcome State Fault Refusal :=
  .next (atcCapacityWrite rq part v grant s)

/-- ATC_WINDOW_WRITE (R300). -/
def atcWindowWrite (rq : Req) (part v : Nat) (grant : Bytes) (s : State) : State :=
  grantOd s rq (0x3100 + part) 0x13 12 part (leBytes 2 v) grant
    (fun _ => if 256 ≤ part then some .keyUsage else if 65536 ≤ v then some .malformed else none)

/-- ATC_WINDOW_WRITE (R300). -/
def execAtcWindowWrite (rq : Req) (part v : Nat) (grant : Bytes) (s : State) : Host.Outcome State Fault Refusal :=
  .next (atcWindowWrite rq part v grant s)

/-! ### Background work -/

/-- Whether a record is an orphan (R188). -/
def State.orphan (s : State) (slot : Nat) : Bool :=
  match s.rcd slot with
  | none => false
  | some r => !s.lives r.rcd || (s.part r.rcd.part).key == .destroying

/-- Records a waiting change already frees. -/
def State.freeing (s : State) (slot : Nat) : Bool := s.unapplied.any (fun c => c == .recordFree slot)

/-- ORPHAN_SWEEP_FREE: one committed change frees the orphan, its granules and its lineage entry (R188, R189). -/
def execOrphanSweepFree (record : Nat) (s : State) : Host.Outcome State Fault Refusal :=
  .next (match s.rcd record with
    | none => s
    | some r =>
      if s.power.mainOk && s.orphan record && !s.freeing record && commitRoom s then
        commitQuietly s ((match r.rcd.linIdx with
          | none => []
          | some i => [.lineageFree i (!r.rcd.revoked)]) ++ [.recordFree record])
      else s)

/-- Whether a DESTROYING partition has no record left, and none coming (R151). -/
def State.swept (s : State) (p : Nat) : Bool :=
  (s.part p).key == .destroying && !(s.keys.recs.any (fun e => e.2.rcd.part == p)) && (s.recordsComing p).isEmpty

/-- ORPHAN_SWEEP_PASS_END: a full pass has ended; a DESTROYING partition without records is EMPTY, for good (R151, R188, R212). -/
def execOrphanSweepPassEnd (ms : Nat) (s : State) : Host.Outcome State Fault Refusal :=
  .next (
    if !s.power.mainOk then s
    else
      let s1 := { s with keys := { s.keys with sweepMs := min 0xFFFFFFFF ms } }
      s1.withBase (fun b => { b with parts := tmap b.parts (fun p x => if s.swept p then { x with key := .empty } else x) }))

/-- An uncorrectable error in critical state raises the locking alarm CRITICAL_ECC, flag 155 (R3, R40, R418). -/
def criticalEcc (s : State) : State := mainAlarm s 155 (s.flagClassNow 155) 0

/-- A DRAM record with an uncorrectable error: it is reloaded from NAND, whose own copy may prove bad, and the event is recorded; without
a good copy the record is unreadable (R40, R193). -/
def reloadRecord (s : State) (slot : Nat) : State :=
  let (v, t) := freeNat s
  if (s.rcd slot).any (fun r => r.nand && !r.damaged) && v % 2 == 0 then
    recordLost (modStored t slot (fun r => { r with dram := true })) slot
  else loseRecord t slot

/-- DRAM_PATROL_SCRUB: a correctable error in a record is corrected; an uncorrectable one makes the module reload it (R39, R40). -/
def execDramPatrolScrub (record : Nat) (correctable : Bool) (s : State) : Host.Outcome State Fault Refusal :=
  .next (
    if !s.power.mainOk then s
    else if correctable then { s with tele := { s.tele with dramCorr := min (2 ^ 64 - 1) (s.tele.dramCorr + 1) } }
    else if (s.rcd record).any (·.dram) then reloadRecord s record else s)

/-- KEY_CACHE_SCRUB: a correctable error is corrected; else a key-cache entry is dropped, and an error in critical state, the lineage
table or the commit queue among it, raises CRITICAL_ECC (R39, R40). -/
def execKeyCacheScrub (critical : Bool) (key : Nat) (correctable : Bool) (s : State) : Host.Outcome State Fault Refusal :=
  .next (
    if !s.power.mainOk then s
    else if correctable then { s with tele := { s.tele with sramCorr := min (2 ^ 64 - 1) (s.tele.sramCorr + 1) } }
    else if critical then criticalEcc s
    else dropCache s (fun k _ => k == key))

/-- SENSOR_CALIBRATION: a sensor is calibrated against its duplicate reference (R39). -/
def execSensorCalibration (sensor : Nat) (s : State) : Host.Outcome State Fault Refusal :=
  .next (if s.power.mainOk then { s with tele := { s.tele with calibrated := sins sensor s.tele.calibrated } } else s)

/-- RECORD_RECOVERY_REPLY: a copy that unwraps under the partition's record key with the same GENERATION is accepted; after any
other answer of the holder asked the next is asked, and after the last the record is marked damaged and counted (R193, R395). -/
def execRecordRecoveryReply (record src : Nat) (copy : Option Rec) (s : State) : Host.Outcome State Fault Refusal :=
  .next (match s.rcd record, tget s.keys.recover record with
    | some r, some n =>
      let good := match copy with
        | none => none
        | some c => if c.gen = r.rcd.gen ∧ c.part = r.rcd.part ∧ (s.unwrapped c).isSome then some c else none
      match good with
      | some c =>
        let t := modStored s record (fun _ => ⟨c, true, true, false⟩)
        { t with keys := { t.keys with recover := terase t.keys.recover record } }
      | none => if (s.copyHolders r.rcd.part)[n]? = some src then askRecord s record (n + 1) else s
    | _, _ => s)

end Sys2Proof.Machine
end

