-- ==== Sys2Proof/Machine/Pin.lean ====
section
/-! DEFINITION. PIN blocks, PAN fields, PIN reference values, and the PIN opcodes 0x201 to 0x205 (R220 to R236). -/

namespace Sys2Proof.Machine

/-! ### PAN fields (R220, R222) -/

/-- A PAN field as it reads. -/
inductive Pan where
  | absent
  | bad
  | ok (digits : List Nat)
  deriving DecidableEq, Repr

/-- Digits of a left-aligned field whose unused nibbles are 0xF; none where a nibble breaks that. -/
def bcdDigits (b : Bytes) : Option (List Nat) :=
  let n := nibbles b
  let d := n.takeWhile (fun x => decide (x ≤ 9))
  if (n.drop d.length).all (· == 15) then some d else none

/-- Read a PAN field (R220). -/
def readPan (b : Bytes) : Pan :=
  if allZero b then .absent
  else match bcdDigits b with
    | none => .bad
    | some d => if 12 ≤ d.length ∧ d.length ≤ 19 then .ok d else .bad

/-- The digits of a PAN that is present and valid. -/
def Pan.digits : Pan → Option (List Nat)
  | .ok d => some d
  | _ => none

/-- A PAN field that breaks R220, or is missing where it is needed, fails. -/
def Pan.fits (p : Pan) (needed : Bool) : Bool :=
  match p with
  | .ok _ => true
  | .absent => !needed
  | .bad => false

/-- The rightmost `n` digits but for the check digit, with leading zeros. -/
def panRight (n : Nat) (d : List Nat) : List Nat :=
  let l := d.dropLast
  List.replicate (n - l.length) 0 ++ l.drop (l.length - n)

/-- The PAN field that a format combines with the PIN field (R222). -/
def panField (f : Nat) (d : List Nat) : Bytes :=
  if f = 1 then zeros 8
  else if f = 4 then packNibbles (padNibbles 32 0 ((d.length - 12) :: d))
  else packNibbles ([0, 0, 0, 0] ++ panRight 12 d)

/-! ### PIN blocks (R221, R224, R225) -/

/-- Whether a format takes a PAN. -/
def needsPan (f : Nat) : Bool := f != 1

/-- Decrypt a PIN block into its PIN field. -/
def pinDecrypt (c : Cipher) (f : Nat) (blk : Bytes) (d : List Nat) : Bytes :=
  if f = 4 then c.dec (xorBytes (c.dec (slice blk 0 16)) (panField f d)) else xorBytes (c.dec (slice blk 0 8)) (panField f d)

/-- Encrypt a PIN field. -/
def pinEncrypt (c : Cipher) (f : Nat) (fld : Bytes) (d : List Nat) : Bytes :=
  if f = 4 then c.enc (xorBytes (c.enc fld) (panField f d)) else c.enc (xorBytes fld (panField f d))

/-- Shortest and longest PIN of a policy (R226). -/
def pinMin (pol : Nat) : Nat := bits pol 11 8

/-- Longest PIN of a policy (R226). -/
def pinMax (pol : Nat) : Nat := bits pol 15 12

/-- A PIN length that the module and the policy accept. -/
def pinLenOk (pol n : Nat) : Bool := decide (4 ≤ n ∧ n ≤ 12 ∧ pinMin pol ≤ n ∧ n ≤ pinMax pol)

/-- A fill nibble of a format. -/
def fillOk (f x : Nat) : Bool := if f = 0 then x == 15 else if f = 3 then decide (10 ≤ x) else if f = 4 then x == 10 else true

/-- The PIN of a field that passes every check of R224. -/
def pinOf (pol f : Nat) (fld : Bytes) : Option (List Nat) :=
  let l := nibbles fld
  let n := l.getD 1 0
  let pin := (l.drop 2).take n
  if l.headD 16 = f ∧ pinLenOk pol n ∧ pin.all (fun x => decide (x ≤ 9)) ∧ ((l.take 16).drop (n + 2)).all (fillOk f)
  then some pin else none

/-- The PIN field of a format with new fill from random bytes (R221, R225). -/
def pinBuild (f : Nat) (pin : List Nat) (rnd : Bytes) : Bytes :=
  let head := [f, pin.length] ++ pin
  let k := 16 - head.length
  if f = 4 then packNibbles (padNibbles 16 10 head) ++ fit 8 rnd
  else packNibbles (head ++ (List.range k).map (fun i =>
    if f = 0 then 15 else if f = 1 then (nibbles rnd).getD i 0 else 10 + beAt rnd (2 * i) 2 % 6))

/-- Random bytes the fill of a format takes (R225). -/
def fillLen (f : Nat) : Nat := if f = 1 then 8 else if f = 3 then 32 else if f = 4 then 8 else 0

/-- An outbound block. -/
def pinOut (c : Cipher) (f : Nat) (pin d : List Nat) (rnd : Bytes) : Bytes := pinEncrypt c f (pinBuild f pin rnd) d

/-- What opening an inbound block came to: the PIN, if it passes, and whether a failure is counted (R224). -/
structure PinIn where
  pin     : Option (List Nat)
  counted : Bool
  deriving DecidableEq, Repr

/-- Open an inbound block with its PAN. -/
def openPin (c : Cipher) (pol f : Nat) (blk : Bytes) (pan : Pan) : PinIn :=
  let go (d : List Nat) : PinIn :=
    let p := pinOf pol f (pinDecrypt c f blk d)
    ⟨p, p.isNone⟩
  if needsPan f then match pan with
    | .ok d => go d
    | _ => ⟨none, false⟩
  else go []

/-- Count failures of R224 in PIN_CHECK_FAILS. -/
def countPin (s : State) (p : Nat) (l : List PinIn) : State :=
  let n := (l.filter (·.counted)).length
  if n = 0 then s else s.modPart p (fun x => { x with checkFails := min 0xFFFFFFFF (x.checkFails + n) })

/-- A translation that PIN_POLICY bars (R226). -/
def barred (pol fin fout : Nat) : Bool := (bit pol 1 && fin == 4 && fout != 4) || (bit pol 0 && fin != 1 && fout == 1)

/-- Re-encrypt an inbound PIN: the shared part of every translation (R226, R228). -/
def translate (s : State) (x : Slot) (fin fout : Nat) (cin cout : Cipher) (blk : Bytes) (pin_ pout : Pan) :
    Option Bytes × State :=
  let i := openPin cin x.policy fin blk pin_
  let s1 := countPin s x.part [i]
  let (rnd, s2) := (x.drawn 0 (fillLen fout), s1)
  match i.pin with
  | none => (none, s2)
  | some pin =>
    if !pin_.fits (needsPan fin || needsPan fout) || !pout.fits (needsPan fin || needsPan fout) || barred x.policy fin fout then (none, s2)
    else (some (pinOut cout fout pin (pout.digits.getD []) rnd), s2)

/-- The outbound PAN of R228. -/
def panOut (d : Bytes) : Pan := if bit (dP0 d) 8 then readPan (slice d 48 10) else readPan (slice d 58 10)

/-- The result of a translation. -/
def blockOut (o : Option Bytes) : Out :=
  match o with
  | none => .fail .inputRange
  | some b => .inl b

/-- PIN_TRANSLATE (R228). -/
def pinTranslateOut (s : State) (x : Slot) : Out × State :=
  let d := x.desc
  let (o, t) := translate s x (bits (dP0 d) 3 0) (bits (dP0 d) 7 4) (x.cipher 1) (x.cipher 2) (slice d 32 16)
    (readPan (slice d 48 10)) (panOut d)
  (blockOut o, t)

/-- PIN_TRANSLATE. -/
def execPinTranslate (slot : Nat) (s : State) : Host.Outcome State Fault Refusal := runOpS 0x201 slot pinTranslateOut s

/-! ### Reference values (R230 to R233) -/

/-- Digits of an 8-byte value: the decimal nibbles first, then the others less ten (R232). -/
def extract (n : Nat) (b : Bytes) : List Nat :=
  let l := nibbles b
  (l.filter (fun x => decide (x ≤ 9)) ++ (l.filter (fun x => decide (10 ≤ x))).map (· - 10)).take n

/-- The natural PIN of the offset method: L digits of VALIDATION under the key, through the table (R231). -/
def naturalPin (c : Cipher) (validation table : Bytes) (l : Nat) : List Nat :=
  ((nibbles (c.enc validation)).map (fun x => (nibbles table).getD x 0)).take l

/-- The verification value (R233). -/
def pinValue (c : Cipher) (d : List Nat) (pvki : Nat) (pin : List Nat) : List Nat :=
  extract 4 (c.enc (packNibbles (panRight 11 d ++ [pvki] ++ pin.take 4)))

/-- Digit by digit, modulo 10, without carry. -/
def addDigits (a b : List Nat) : List Nat := List.zipWith (fun x y => (x + y) % 10) a b

/-- The first L digits of a 6-byte reference, whose other nibbles are 0xF; none where that fails. -/
def refDigits (b : Bytes) (l : Nat) : Option (List Nat) :=
  let n := nibbles b
  if (n.take l).all (fun x => decide (x ≤ 9)) ∧ (n.drop l).all (· == 15) then some (n.take l) else none

/-- Four decimal digits of two bytes. -/
def valueDigits (b : Bytes) : Option (List Nat) := refDigits b 4

/-- A reference as REF lays it out: digits padded with 0xF to six bytes (R234). -/
def refBytes (l : List Nat) : Bytes := packNibbles (padNibbles 12 15 l)

/-- An undefined decimalisation table (R230). -/
def tableUndefined (t : Bytes) : Bool := t == List.replicate 8 0xFF#8

/-- PIN_VERIFY_OFFSET (R231). -/
def pinVerifyOffsetOut (s : State) (x : Slot) : Out × State :=
  let d := x.desc
  let f := bits (dP0 d) 3 0
  let l := bits (dP0 d) 11 8
  let pan := readPan (slice d 48 10)
  let i := openPin (x.cipher 1) x.policy f (slice d 32 16) pan
  let t := countPin s x.part [i]
  match i.pin, refDigits (slice d 66 6) l with
  | some pin, some off =>
    if !pan.fits (needsPan f) || tableUndefined x.dec then (.fail .inputRange, t)
    else
      let want := addDigits (naturalPin (x.cipher 2) (slice d 58 8) x.dec l) off
      (.verdict (decide (l ≤ pin.length) && pin.take l == want), t)
  | _, _ => (.fail .inputRange, t)

/-- PIN_VERIFY_OFFSET. -/
def execPinVerifyOffset (slot : Nat) (s : State) : Host.Outcome State Fault Refusal := runOpS 0x202 slot pinVerifyOffsetOut s

/-- PIN_VERIFY_VALUE (R233). -/
def pinVerifyValueOut (s : State) (x : Slot) : Out × State :=
  let d := x.desc
  let f := bits (dP0 d) 3 0
  let pan := readPan (slice d 48 10)
  let i := openPin (x.cipher 1) x.policy f (slice d 32 16) pan
  let t := countPin s x.part [i]
  match i.pin, valueDigits (slice d 58 2), pan.digits with
  | some pin, some v, some pd => (.verdict (pinValue (x.cipher 2) pd (bits (dP0 d) 7 4) pin == v), t)
  | _, _, _ => (.fail .inputRange, t)

/-- PIN_VERIFY_VALUE. -/
def execPinVerifyValue (slot : Nat) (s : State) : Host.Outcome State Fault Refusal := runOpS 0x203 slot pinVerifyValueOut s

/-- The reference value of a PIN under KEY2: an offset of L digits for a V1 key, a value for a V2 key (R234). -/
def refOf (x : Slot) (l : Nat) (validation : Bytes) (pd pin : List Nat) : List Nat :=
  if usedFor (x.keyD 2) "V1" then
    List.zipWith (fun a b => (a + 10 - b) % 10) pin (naturalPin (x.cipher 2) validation x.dec l)
  else pinValue (x.cipher 2) pd (bits (dP0 x.desc) 7 4) pin

/-- PIN_GENERATE (R234, R235). -/
def pinGenerateOut (s : State) (x : Slot) : Out × State :=
  let d := x.desc
  let f := bits (dP0 d) 3 0
  let n := bits (dP0 d) 11 8
  let with2 := dKey d 2 != 0
  let v1 := usedFor (x.keyD 2) "V1"
  let pan := readPan (slice d 48 10)
  let r := x.drawn 0 16
  let (rnd, s2) := (x.drawn 16 (fillLen f), s)
  let pin := decDigits n (beNat r % 10 ^ n)
  let pd := pan.digits.getD []
  if !pinLenOk x.policy n || !pan.fits (needsPan f || (with2 && !v1)) || (with2 && v1 && tableUndefined x.dec) then
    (.fail .inputRange, s2)
  else
    let blk := pinOut (x.cipher 1) f pin pd rnd
    if with2 then (.inl (fit 16 blk ++ refBytes (refOf x (bits (dP0 d) 15 12) (slice d 58 8) pd pin)), s2)
    else (.inl blk, s2)

/-- PIN_GENERATE. -/
def execPinGenerate (slot : Nat) (s : State) : Host.Outcome State Fault Refusal := runOpS 0x204 slot pinGenerateOut s

/-- PIN_CHANGE (R236). The spec states no offset digit for a position beyond the new PIN's length: it is a free digit. -/
def pinChangeOut (s : State) (x : Slot) : Out × State :=
  let d := x.desc
  let f := bits (dP0 d) 3 0
  let l := bits (dP0 d) 11 8
  let noOld := bit (dP0 d) 16
  let v1 := usedFor (x.keyD 2) "V1"
  let pan := readPan (slice d 64 10)
  let validation := slice d 74 8
  let old := if noOld then ⟨some [], false⟩ else openPin (x.cipher 1) x.policy f (slice d 32 16) pan
  let new := openPin (x.cipher 1) x.policy f (slice d 48 16) pan
  let (extra, s1) := draw s 8
  let t := countPin s1 x.part [old, new]
  let ref := if noOld then some [] else if v1 then refDigits (slice d 82 6) l else valueDigits (slice d 82 2)
  let pd := pan.digits.getD []
  match old.pin, new.pin, ref with
  | some po, some pn, some r =>
    if !pan.fits (needsPan f || !v1) || (v1 && tableUndefined x.dec) || (noOld && !bit x.policy 2) then (.fail .inputRange, t)
    else
      let want := if v1 then addDigits (naturalPin (x.cipher 2) validation x.dec l) r else r
      let got := if v1 then po.take l else pinValue (x.cipher 2) pd (bits (dP0 d) 7 4) po
      if noOld || (got == want && decide ((if v1 then l else 4) ≤ po.length)) then
        (.inl (refBytes (refOf x l validation pd (pn ++ (extra.map (fun b => b.toNat % 10)).take (l - pn.length)))), t)
      else (.fail .verifyFail, t)
  | _, _, _ => (.fail .inputRange, t)

/-- PIN_CHANGE. -/
def execPinChange (slot : Nat) (s : State) : Host.Outcome State Fault Refusal := runOpS 0x205 slot pinChangeOut s

end Sys2Proof.Machine
end

