-- ==== Sys2Proof/Machine/Mac.lean ====
section
/-! DEFINITION. The MAC opcodes 0x301 to 0x303 and the card verification opcodes 0x311 and 0x312 (R237 to R241). -/

namespace Sys2Proof.Machine

/-- The MAC a specification names, its leftmost MAC_LEN bytes (R237). -/
def macOf (m : MacSpec) (c : Cipher) (data : Bytes) : Bytes :=
  (match m.alg with
    | 1 => macAlg1 c.key m.padding data
    | 3 => macAlg3 c.key m.padding data
    | 5 => cmac c data
    | 6 => Sha.hmac256 c.key data
    | 7 => Sha.hmac384 c.key data
    | _ => Sha.hmac512 c.key data).take m.macLen

/-- The data a MAC opcode covers: inline from byte 48, or at SRC (R238). -/
def macData (x : Slot) : Bytes :=
  let m := macSpec (dP0 x.desc)
  if m.source then x.src.getD [] else slice x.desc 48 m.inlen

/-- MAC_GENERATE (R238). -/
def macGenerateOut (_ : State) (x : Slot) : Out := .inl (macOf (macSpec (dP0 x.desc)) (x.cipher 1) (macData x))

/-- MAC_GENERATE. -/
def execMacGenerate (slot : Nat) (s : State) : Host.Outcome State Fault Refusal := runOp 0x301 slot macGenerateOut s

/-- Whether the MAC a descriptor carries at byte 32 matches under a cipher (R238). -/
def macMatches (x : Slot) (c : Cipher) : Bool :=
  let m := macSpec (dP0 x.desc)
  macOf m c (macData x) == slice x.desc 32 m.macLen

/-- MAC_VERIFY (R238). -/
def macVerifyOut (_ : State) (x : Slot) : Out := .verdict (macMatches x (x.cipher 1))

/-- MAC_VERIFY. -/
def execMacVerify (slot : Nat) (s : State) : Host.Outcome State Fault Refusal := runOp 0x302 slot macVerifyOut s

/-- MAC_TRANSLATE (R239). -/
def macTranslateOut (_ : State) (x : Slot) : Out :=
  if macMatches x (x.cipher 1) then .inl (macOf (macSpec (dP1 x.desc)) (x.cipher 2) (macData x)) else .fail .verifyFail

/-- MAC_TRANSLATE. -/
def execMacTranslate (slot : Nat) (s : State) : Host.Outcome State Fault Refusal := runOp 0x303 slot macTranslateOut s

/-! ### Card verification values -/

/-- The digits a card verification value covers; none where one breaks R220 or R240. -/
def cvvDigits (d : Bytes) : Option (List Nat) :=
  let date := nibbles (slice d 58 2)
  let serv := nibbles (slice d 60 2)
  match (readPan (slice d 48 10)).digits with
  | none => none
  | some pd =>
    if date.all (fun x => decide (x ≤ 9)) ∧ (serv.take 3).all (fun x => decide (x ≤ 9)) ∧ serv.getD 3 0 = 15
    then some (pd ++ date ++ serv.take 3) else none

/-- The value of D digits (R241). -/
def cvvOf (key : Bytes) (l : List Nat) (n : Nat) : List Nat :=
  let b := packNibbles (padNibbles 32 0 l)
  let ka := slice key 0 8
  let c := xorBytes (Des.enc1 ka (slice b 0 8)) (slice b 8 8)
  extract n (Des.enc1 ka (Des.dec1 (slice key 8 8) (Des.enc1 ka c)))

/-- The two bytes that carry a value: as many of its digits as they hold, padded with 0xF (R240). -/
def cvvBytes (l : List Nat) : Bytes := packNibbles (padNibbles 4 15 (l.take 4))

/-- CVV_GENERATE (R241). -/
def cvvGenerateOut (_ : State) (x : Slot) : Out :=
  match cvvDigits x.desc with
  | none => .fail .inputRange
  | some l => .inl (cvvBytes (cvvOf (x.keyD 1).material l (bits (dP0 x.desc) 3 0)))

/-- CVV_GENERATE. -/
def execCvvGenerate (slot : Nat) (s : State) : Host.Outcome State Fault Refusal := runOp 0x311 slot cvvGenerateOut s

/-- CVV_VERIFY (R240, R241): a CVV that is not D digits padded with 0xF breaks its layout's content rule (R214). -/
def cvvVerifyOut (_ : State) (x : Slot) : Out :=
  let d := x.desc
  let n := bits (dP0 d) 3 0
  let v := nibbles (slice d 32 2)
  match cvvDigits d with
  | none => .fail .inputRange
  | some l =>
    if (v.take n).all (fun x => decide (x ≤ 9)) ∧ (v.drop n).all (· == 15) then
      .verdict (cvvBytes (cvvOf (x.keyD 1).material l n) == slice d 32 2)
    else .fail .inputRange

/-- CVV_VERIFY. -/
def execCvvVerify (slot : Nat) (s : State) : Host.Outcome State Fault Refusal := runOp 0x312 slot cvvVerifyOut s

end Sys2Proof.Machine
end

