-- ==== Sys2Proof/Machine/Dukpt.lean ====
section
/-! DEFINITION. DUKPT key derivation by ANSI X9.24 and the opcodes 0x401 to 0x407 (R242 to R255; assumption 10). -/

namespace Sys2Proof.Machine

/-! ### TDES DUKPT -/

/-- A key with a mask XORed into both halves. -/
def dkMask (mask : Bytes) (key : Bytes) : Bytes := xorBytes key (mask ++ mask)

/-- The mask of the second half of every TDES DUKPT step. -/
def dkC0 : Bytes := [0xC0#8, 0xC0#8, 0xC0#8, 0xC0#8, 0#8, 0#8, 0#8, 0#8]

/-- A number with its counter bits zero. -/
def dkClean (n : Nat) : Nat := n / 2 ^ 21 * 2 ^ 21

/-- The initial key of a terminal from a base key and a 10-byte KSN. -/
def dkInitialTdes (bdk ksn : Bytes) : Bytes :=
  let id := slice (beBytes 10 (dkClean (beNat ksn))) 0 8
  Des.encrypt bdk id ++ Des.encrypt (dkMask dkC0 bdk) id

/-- One half of a non-reversible key generation. -/
def dkHalf (key r8 : Bytes) : Bytes :=
  let l := slice key 0 8
  let r := slice key 8 8
  xorBytes (Des.enc1 l (xorBytes r8 r)) r

/-- The key register after one counter bit. -/
def dkStepTdes (key r8 : Bytes) : Bytes := dkHalf (dkMask dkC0 key) r8 ++ dkHalf key r8

/-- The current key of a transaction: one step for each one bit of the counter, from the top. -/
def dkCurrentTdes (init ksn : Bytes) (ctr : Nat) : Bytes :=
  let base := dkClean (beNat (slice ksn 2 8))
  ((List.range 21).foldl (fun (acc : Bytes × Nat) i =>
    if bit ctr (20 - i) then
      let c := acc.2 + 2 ^ (20 - i)
      (dkStepTdes acc.1 (beBytes 8 (base + c)), c)
    else acc) (init, 0)).1

/-- The working key a SELECTOR names (R243). -/
def dkVariant (sel : Nat) (key : Bytes) : Bytes :=
  let at_ (i : Nat) : Bytes := (zeros 8).set i 0xFF#8
  let data (k : Bytes) : Bytes := Des.encrypt k (slice k 0 8) ++ Des.encrypt k (slice k 8 8)
  match sel with
  | 0 => dkMask (at_ 7) key
  | 1 => dkMask (at_ 6) key
  | 2 => dkMask (at_ 4) key
  | 4 => data (dkMask (at_ 5) key)
  | _ => data (dkMask (at_ 3) key)

/-! ### AES DUKPT -/

/-- The key type an algorithm has in derivation data. -/
def dkType (a : Nat) : Nat := if a = 0x110 then 0 else if a = 0x118 then 1 else if a = 0x210 then 2 else if a = 0x218 then 3 else 4

/-- A derived key of an algorithm (X9.24-3): `tail` is the last 8 bytes of the derivation data. -/
def dkDeriveAes (key : Bytes) (use a : Nat) (tail : Bytes) : Bytes :=
  let n := symLen a
  fit n (((List.range (ceilDiv n 16)).map (fun i =>
    Aes.encrypt key ([0x01#8, byteOf (i + 1)] ++ beBytes 2 use ++ beBytes 2 (dkType a) ++ beBytes 2 (8 * n) ++ tail))).flatten)

/-- The initial key of a terminal from a base key of algorithm `a` and an 8-byte ID. -/
def dkInitialAes (bdk : Bytes) (a : Nat) (id : Bytes) : Bytes := dkDeriveAes bdk 0x8001 a (slice id 0 8)

/-- The intermediate key of a transaction. -/
def dkCurrentAes (init : Bytes) (a : Nat) (id : Bytes) (ctr : Nat) : Bytes :=
  ((List.range 32).foldl (fun (acc : Bytes × Nat) i =>
    if bit ctr (31 - i) then
      let c := acc.2 + 2 ^ (31 - i)
      (dkDeriveAes acc.1 0x8000 a (slice id 4 4 ++ beBytes 4 c), c)
    else acc) (init, 0)).1

/-- The key usage a SELECTOR names (R243). -/
def dkUse (sel : Nat) : Nat :=
  match sel with
  | 0 => 0x1000
  | 1 => 0x2000
  | 2 => 0x2001
  | 3 => 0x2002
  | 4 => 0x3000
  | 5 => 0x3001
  | _ => 0x3002

/-! ### Working keys -/

/-- The initial key of an ID from a base key. -/
def dkInitial (tdes : Bool) (r : Rec) (id : Bytes) : Bytes :=
  if tdes then dkInitialTdes r.material id else dkInitialAes r.material r.alg id

/-- The working key of a descriptor, from an initial key of algorithm `a`, the ID and the counter. -/
def dkWorking (d : Bytes) (a : Nat) (init id : Bytes) (ctr : Nat) : Cipher :=
  if dkTdes d then ⟨false, dkVariant (dkSel d) (dkCurrentTdes init id ctr)⟩
  else ⟨dkWorkAes d, dkDeriveAes (dkCurrentAes init a id ctr) (dkUse (dkSel d)) (dkWorkAlg d) (slice id 4 4 ++ beBytes 4 ctr)⟩

/-- A counter the module accepts (R242, R244). -/
def dkCounterOk (d : Bytes) : Bool :=
  let c := ksnCounter d
  c != 0 && decide (popcount 32 c ≤ (if dkTdes d then 10 else 16))

/-- The working key of a KSN under a base key. -/
def Slot.dkCipher (x : Slot) : Cipher :=
  let d := x.desc
  let r := x.keyD 1
  let id := slice d 80 (if dkTdes d then 10 else 8)
  dkWorking d r.alg (dkInitial (dkTdes d) r id) id (ksnCounter d)

/-- The working key of an origination's reserved counter (R251). -/
def Slot.originCipher (x : Slot) : Cipher :=
  let r := x.keyD 1
  dkWorking x.desc r.alg r.material (dkId x.desc 80) x.ctr

/-! ### Meanings -/

/-- DUKPT_PIN_TRANSLATE (R246). -/
def dukptPinTranslateOut (s : State) (x : Slot) : Out × State :=
  let d := x.desc
  let (o, t) := translate s x (bits (dP0 d) 3 0) (bits (dP0 d) 7 4) x.dkCipher (x.cipher 2) (slice d 32 16)
    (readPan (slice d 48 10)) (panOut d)
  (if dkCounterOk d then blockOut o else .fail .inputRange, t)

/-- DUKPT_PIN_TRANSLATE. -/
def execDukptPinTranslate (slot : Nat) (s : State) : Host.Outcome State Fault Refusal := runOpS 0x401 slot dukptPinTranslateOut s

/-- DUKPT_MAC_GENERATE (R247). -/
def dukptMacGenerateOut (_ : State) (x : Slot) : Out :=
  if dkCounterOk x.desc then .inl (macOf (macSpec (dP0 x.desc)) x.dkCipher (macData x)) else .fail .inputRange

/-- DUKPT_MAC_GENERATE. -/
def execDukptMacGenerate (slot : Nat) (s : State) : Host.Outcome State Fault Refusal := runOp 0x402 slot dukptMacGenerateOut s

/-- DUKPT_MAC_VERIFY (R247). -/
def dukptMacVerifyOut (_ : State) (x : Slot) : Out :=
  if dkCounterOk x.desc then .verdict (macMatches x x.dkCipher) else .fail .inputRange

/-- DUKPT_MAC_VERIFY. -/
def execDukptMacVerify (slot : Nat) (s : State) : Host.Outcome State Fault Refusal := runOp 0x403 slot dukptMacVerifyOut s

/-- DUKPT_DATA (R248). -/
def dukptDataOut (_ : State) (x : Slot) : Out :=
  let d := x.desc
  let c := x.dkCipher
  let iv := slice d 32 c.block
  if dkCounterOk d then
    .toDst (if bit (dP0 d) 0 then cbcDec c iv (x.src.getD []) else cbcEnc c iv (x.src.getD []))
  else .fail .inputRange

/-- DUKPT_DATA. -/
def execDukptData (slot : Nat) (s : State) : Host.Outcome State Fault Refusal := runOp 0x404 slot dukptDataOut s

/-- DUKPT_INITIAL_KEY (R249, R250). -/
def dukptInitialKeyOut (s : State) (x : Slot) : Out :=
  let d := x.desc
  let t := x.tpl
  let r := x.keyD 1
  let id := dkId d 64
  if !templateOk t || t.usage != chars "B1" || t.alg != r.alg || decide (t.tier ≤ r.tier) || !idClean d id then .fail .inputRange
  else createdOut (createWith s x 1 t false 1 (dkInitial (dkTdes d) r id) (idTag id * 2 ^ 32))

/-- DUKPT_INITIAL_KEY. -/
def execDukptInitialKey (slot : Nat) (s : State) : Host.Outcome State Fault Refusal := runOp 0x405 slot dukptInitialKeyOut s

/-- The KSN of an origination: 10 bytes and two zeros, or 12 bytes (R251). -/
def originKsn (d : Bytes) (ctr : Nat) : Bytes :=
  if dkTdes d then fit 12 (beBytes 10 (beNat (dkId d 80) + ctr)) else dkId d 80 ++ beBytes 4 ctr

/-- The outcome of an origination that gave a block or a MAC: the counter is committed with it (R251, R253). -/
def originOut (s : State) (x : Slot) (o : Option Bytes) : Out :=
  match x.early, o with
  | some (st, _), _ => .fail st
  | none, none => .fail .inputRange
  | none, some b =>
    { len := 28, inline_ := some (fit 16 b ++ originKsn x.desc x.ctr)
      changes := match s.heldKey x 1 with
        | none => []
        | some k => [.counter k.slot (idTag (dkId x.desc 80) * 2 ^ 32 + x.ctr)] }

/-- DUKPT_ORIGINATE_PIN (R251 to R255). -/
def dukptOriginatePinOut (s : State) (x : Slot) : Out × State :=
  let d := x.desc
  let (o, t) := translate s x (bits (dP0 d) 3 0) (bits (dP0 d) 7 4) (x.cipher 2) x.originCipher (slice d 32 16)
    (readPan (slice d 48 10)) (panOut d)
  (originOut s x o, t)

/-- DUKPT_ORIGINATE_PIN. -/
def execDukptOriginatePin (slot : Nat) (s : State) : Host.Outcome State Fault Refusal := runOpS 0x406 slot dukptOriginatePinOut s

/-- DUKPT_ORIGINATE_MAC (R251 to R255). -/
def dukptOriginateMacOut (s : State) (x : Slot) : Out :=
  originOut s x (some (macOf (macSpec (dP0 x.desc)) x.originCipher (macData x)))

/-- DUKPT_ORIGINATE_MAC. -/
def execDukptOriginateMac (slot : Nat) (s : State) : Host.Outcome State Fault Refusal := runOp 0x407 slot dukptOriginateMacOut s

end Sys2Proof.Machine
end

