-- ==== Sys2Proof/Machine/Emv.lean ====
section
/-! DEFINITION. EMV keys and cryptograms, issuer scripts and AUTHORISE_BUNDLE: opcodes 0x501 to 0x504 and 0x510 (R261 to
R277). -/

namespace Sys2Proof.Machine

/-! ### Keys (R262, R263) -/

/-- X: the rightmost 16 digits of PAN and PSN as 8 BCD bytes (R262). -/
def emvX (pan : List Nat) (psn : Bytes) : Bytes :=
  let l := pan ++ nibbles psn
  packNibbles (List.replicate (16 - l.length) 0 ++ l.drop (l.length - 16))

/-- Two blocks under a key, as a key of the same kind: TDES with odd parity, AES of the same length (R262, R263). -/
def emvPair (c : Cipher) (a b : Bytes) : Cipher :=
  if c.aes then { c with key := fit c.key.length (c.enc a ++ c.enc b) } else { c with key := oddParity (c.enc a ++ c.enc b) }

/-- The ICC master key (R262). -/
def emvMaster (c : Cipher) (pan : List Nat) (psn : Bytes) : Cipher :=
  let x := emvX pan psn
  if c.aes then emvPair c (x ++ zeros 8) (x ++ List.replicate 8 0xFF#8)
  else emvPair c x (xorBytes x (List.replicate 8 0xFF#8))

/-- The session key (R263). -/
def emvSession (mk : Cipher) (mode1 : Bool) (atc : Bytes) : Cipher :=
  let blk (b : Byte) : Bytes := fit mk.block (atc ++ [b])
  if mode1 then mk else emvPair mk (blk 0xF0#8) (blk 0x0F#8)

/-- The card key of a descriptor. -/
def emvKeyOf (c : Cipher) (mode1 : Bool) (pan : List Nat) (psn atc : Bytes) : Cipher :=
  emvSession (emvMaster c pan psn) mode1 atc

/-- A cryptogram or script MAC under a session key (R265, R271). -/
def emvMac (c : Cipher) (data : Bytes) : Bytes := if c.aes then (cmac c data).take 8 else macAlg3 c.key 2 data

/-- The ARPC by a method (R266). -/
def emvArpc (c : Cipher) (method : Nat) (arqc arc csu pad : Bytes) : Bytes :=
  let x := xorBytes arqc (fit 8 arc)
  if method = 1 then (if c.aes then (c.enc (x ++ zeros 8)).take 8 else c.enc x)
  else if method = 2 then (emvMac c (arqc ++ csu ++ pad)).take 4 else []

/-- PSN is two decimal digits. -/
def psnOk (b : Bytes) : Bool := (nibbles b).all (fun x => decide (x ≤ 9))

/-! ### ATC outcomes (R265, R268, R269, R277) -/

/-- A failure with the reason code of R260. -/
def reasonOut (r : Nat) : Out := { status := .verifyFail, len := 1, inline_ := some [byteOf r] }

/-- The commit of a descriptor's ATC, unless its table has been replaced (R269, R270). -/
def atcChange (s : State) (n : Nat) (x : Slot) : List Change :=
  let (pan, psn, atc) := cardOf x
  match x.keys.find? (fun k => k.pos == 1) with
  | none => []
  | some k =>
    if atcMode x.desc && s.atcResv.any (fun e => e.1 == n) && !s.unapplied.any (fun c => match c with
        | .atcTable p _ => p == x.part
        | _ => false)
    then [.atc x.part ⟨cardId k.slot pan psn, atc⟩] else []

/-- The first outcome that applies, in the order of R265 and R277. -/
def atcOrder (x : Slot) (contentOk matched : Bool) (ok : Out) : Out :=
  match x.early with
  | some (.quota, _) => .fail .quota
  | some (.counterExhausted, _) => .fail .counterExhausted
  | some (_, r) => if contentOk then reasonOut r else .fail .inputRange
  | none => if !contentOk then .fail .inputRange else if matched then ok else reasonOut 1

/-! ### EMV_ARQC_VERIFY -/

/-- The data of an EMV opcode: inline from byte 64, or at SRC (R264). -/
def emvDataOf (x : Slot) : Bytes :=
  if bit (dP0 x.desc) 7 then x.src.getD [] else slice x.desc 64 (bits (dP0 x.desc) 15 8)

/-- EMV_ARQC_VERIFY (R264 to R269). -/
def emvArqcOut (n : Nat) (s : State) (x : Slot) : Out :=
  let d := x.desc
  let p0 := dP0 d
  let pan := (readPan (slice d 40 10)).digits
  let sk := emvKeyOf (x.cipher 1) (bit p0 3) (pan.getD []) (slice d 50 1) (slice d 52 2)
  let arqc := slice d 32 8
  let arpc := emvArpc sk (bits p0 1 0) arqc (slice d 54 2) (slice d 56 4) (slice d 60 (bits p0 6 4))
  atcOrder x (pan.isSome && psnOk (slice d 50 1)) (emvMac sk (emvDataOf x) == arqc)
    { Out.inl arpc with changes := atcChange s n x }

/-- EMV_ARQC_VERIFY. -/
def execEmvArqcVerify (slot : Nat) (s : State) : Host.Outcome State Fault Refusal := runOp 0x501 slot (emvArqcOut slot) s

/-! ### Issuer scripts -/

/-- EMV_SCRIPT_MAC (R271). -/
def emvScriptMacOut (_ : State) (x : Slot) : Out :=
  let d := x.desc
  let pan := (readPan (slice d 40 10)).digits
  let sk := emvKeyOf (x.cipher 1) (bit (dP0 d) 3) (pan.getD []) (slice d 50 1) (slice d 52 2)
  if pan.isSome && psnOk (slice d 50 1) then .inl ((emvMac sk (emvDataOf x)).take (bits (dP0 d) 27 24)) else .fail .inputRange

/-- EMV_SCRIPT_MAC. -/
def execEmvScriptMac (slot : Nat) (s : State) : Host.Outcome State Fault Refusal := runOp 0x502 slot emvScriptMacOut s

/-- Padding method 2 up to a cipher's block. -/
def pad2 (c : Cipher) (m : Bytes) : Bytes :=
  let y := m ++ [0x80#8]
  y ++ zeros ((c.block - y.length % c.block) % c.block)

/-- CBC with a zero IV and padding method 2 (R272). -/
def emvEncrypt (c : Cipher) (m : Bytes) : Bytes := cbcEnc c (zeros c.block) (pad2 c m)

/-- EMV_SCRIPT_ENCRYPT (R272). -/
def emvScriptEncryptOut (_ : State) (x : Slot) : Out :=
  let d := x.desc
  let pan := (readPan (slice d 40 10)).digits
  let sk := emvKeyOf (x.cipher 1) (bit (dP0 d) 3) (pan.getD []) (slice d 50 1) (slice d 52 2)
  let y := emvEncrypt sk (x.src.getD [])
  if pan.isSome && psnOk (slice d 50 1) && decide (y.length ≤ dDstLen d) then .toDst y else .fail .inputRange

/-- EMV_SCRIPT_ENCRYPT. -/
def execEmvScriptEncrypt (slot : Nat) (s : State) : Host.Outcome State Fault Refusal := runOp 0x503 slot emvScriptEncryptOut s

/-- The format 2 block of a PIN (R273). -/
def format2 (pin : List Nat) : Bytes := packNibbles (padNibbles 16 15 ([2, pin.length] ++ pin))

/-- EMV_SCRIPT_PIN (R273). -/
def emvScriptPinOut (s : State) (x : Slot) : Out × State :=
  let d := x.desc
  let f := bits (dP0 d) 3 0
  let ppan := readPan (slice d 48 10)
  let pan := (readPan (slice d 58 10)).digits
  let i := openPin (x.cipher 2) x.policy f (slice d 32 16) ppan
  let t := countPin s x.part [i]
  let sk := emvKeyOf (x.cipher 1) (bit (dP0 d) 4) (pan.getD []) (slice d 68 1) (slice d 70 2)
  match i.pin with
  | none => (.fail .inputRange, t)
  | some pin =>
    if ppan.fits (needsPan f) && pan.isSome && psnOk (slice d 68 1) then (.inl (emvEncrypt sk (format2 pin)), t)
    else (.fail .inputRange, t)

/-- EMV_SCRIPT_PIN. -/
def execEmvScriptPin (slot : Nat) (s : State) : Host.Outcome State Fault Refusal := runOpS 0x504 slot emvScriptPinOut s

/-! ### AUTHORISE_BUNDLE -/

/-- The checks of R275 on bytes 0 to 63 of the bundle. -/
def bundleOk (x : Slot) (b : Bytes) : Bool :=
  let d := x.desc
  let method := bits (dP0 d) 9 8
  let ac := leAt b 54 2
  let rsp := leAt b 56 2
  allZero (slice b 19 1) && allZero (slice b 58 6) && decide (1 ≤ ac ∧ ac ≤ 256 ∧ rsp ≤ 1024) &&
    64 + ac + rsp == b.length && (method != 2 || allZero (slice b 22 2)) && (method != 1 || allZero (slice b 24 4)) &&
    (bits (dP0 d) 3 0 == 4 || allZero (slice b 36 8)) && psnOk (slice b 18 1)

/-- AUTHORISE_BUNDLE (R274 to R277). -/
def bundleOut (n : Nat) (s : State) (x : Slot) : Out × State :=
  let d := x.desc
  let p0 := dP0 d
  let b := x.src.getD []
  let method := bits p0 9 8
  let pan := readPan (slice b 8 10)
  let pout := readPan (slice b 44 10)
  let sk := emvKeyOf (x.cipher 1) (bit p0 11) (pan.digits.getD []) (slice b 18 1) (slice b 20 2)
  let arqc := slice b 0 8
  let ac := leAt b 54 2
  let arpc := emvArpc sk method arqc (slice b 22 2) (slice b 24 4) []
  let (blk, t) := translate s x (bits p0 3 0) (bits p0 7 4) (x.cipher 2) (x.cipher 2) (slice b 28 16) pan pout
  let mac := macOf (macSpec (dP1 d)) (x.cipher 3) (b.drop (64 + ac) ++ arpc)
  (atcOrder x (bundleOk x b && pan.digits.isSome && pout.digits.isSome && blk.isSome) (emvMac sk (slice b 64 ac) == arqc)
    { Out.inl (fit 16 (blk.getD []) ++ fit 8 arpc ++ fit 16 mac) with changes := atcChange s n x }, t)

/-- AUTHORISE_BUNDLE. -/
def execAuthoriseBundle (slot : Nat) (s : State) : Host.Outcome State Fault Refusal := runOpS 0x510 slot (bundleOut slot) s

end Sys2Proof.Machine
end

