-- ==== Sys2Proof/Machine/Fpe.lean ====
section
/-! DEFINITION. FF1 tokenisation: opcodes 0x601 and 0x602 (R278 to R281), with FF1 as NIST SP 800-38G defines it (assumption 10). -/

namespace Sys2Proof.Machine

/-- The pseudorandom value of one round. -/
def ff1Y (c : Cipher) (tweak : Bytes) (n i num : Nat) : Nat :=
  let u := n / 2
  let v := n - u
  let b := ceilDiv (Nat.log2 (10 ^ v - 1) + 1) 8
  let d := 4 * ceilDiv b 4 + 4
  let t := tweak.length
  let p := [1#8, 2#8, 1#8] ++ beBytes 3 10 ++ [10#8, byteOf u] ++ beBytes 4 n ++ beBytes 4 t
  let q := tweak ++ zeros ((16 - (t + b + 1) % 16) % 16) ++ [byteOf i] ++ beBytes b num
  let r := cbcMac c (p ++ q)
  let more := (List.range (ceilDiv d 16 - 1)).map (fun j => c.enc (xorBytes r (beBytes 16 (j + 1))))
  beNat ((r ++ more.flatten).take d)

/-- The length of the half a round changes. -/
def ff1M (n i : Nat) : Nat := if i % 2 = 0 then n / 2 else n - n / 2

/-- FF1 encryption of decimal digits. -/
def ff1Enc (c : Cipher) (tweak : Bytes) (l : List Nat) : List Nat :=
  let n := l.length
  let u := n / 2
  let (a, b) := (List.range 10).foldl (fun (ab : Nat × Nat) i =>
    (ab.2, (ab.1 + ff1Y c tweak n i ab.2) % 10 ^ ff1M n i)) (digitsNat (l.take u), digitsNat (l.drop u))
  decDigits u a ++ decDigits (n - u) b

/-- FF1 decryption of decimal digits. -/
def ff1Dec (c : Cipher) (tweak : Bytes) (l : List Nat) : List Nat :=
  let n := l.length
  let u := n / 2
  let (a, b) := (List.range 10).foldl (fun (ab : Nat × Nat) k =>
    let i := 9 - k
    let m := 10 ^ ff1M n i
    ((ab.2 + (m - ff1Y c tweak n i ab.1 % m)) % m, ab.1)) (digitsNat (l.take u), digitsNat (l.drop u))
  decDigits u a ++ decDigits (n - u) b

/-- The sum of Luhn's rule over a body, from its rightmost digit. -/
def luhnSum : Bool → List Nat → Nat
  | _, [] => 0
  | true, d :: r => (if 2 * d ≤ 9 then 2 * d else 2 * d - 9) + luhnSum false r
  | false, d :: r => d + luhnSum true r

/-- The Luhn check digit of a body. -/
def luhnDigit (l : List Nat) : Nat := (10 - luhnSum true l.reverse % 10) % 10

/-- The check digit a token carries under LUHN 1 or 2 (R279). -/
def tokenDigit (luhn : Nat) (l : List Nat) : Nat := if luhn = 2 then (luhnDigit l + 1) % 10 else luhnDigit l

/-- The tweak: TWEAK, and in counter mode the counter's 8 bytes (R278, R280). -/
def ff1TweakOf (d : Bytes) (ctr : Nat) : Bytes :=
  slice d 48 (ff1Tweak d) ++ (if ff1Counter d then beBytes 8 ctr else [])

/-- The digits of INPUT; none where their count differs from LENGTH (R278). -/
def ff1Input (d : Bytes) : Option (List Nat) :=
  (bcdDigits16 (slice d 32 16)).filter (fun l => l.length == bits (dP0 d) 5 0)
where
  /-- Digits of a left-aligned field whose unused nibbles are 0xF. -/
  bcdDigits16 (b : Bytes) : Option (List Nat) :=
    let n := nibbles b
    let g := n.takeWhile (fun x => decide (x ≤ 9))
    if (n.drop g.length).all (· == 15) then some g else none

/-- The digits in the layout of INPUT. -/
def ff1Output (l : List Nat) : Bytes := packNibbles (padNibbles 32 15 l)

/-- Apply a transformation to the digits between those kept in clear. -/
def ff1Middle (d : Bytes) (f : List Nat → List Nat) (body : List Nat) : List Nat :=
  let (_, lead, trail, _) := ff1Shape d
  let k := body.length - trail
  body.take lead ++ f ((body.take k).drop lead) ++ body.drop k

/-- FF1_TOKENISE (R278 to R280). -/
def ff1TokeniseOut (s : State) (x : Slot) : Out :=
  let d := x.desc
  let luhn := bits (dP0 d) 15 14
  let ctr := ff1Counter d
  match x.early, ff1Input d with
  | some (st, _), _ => .fail st
  | none, none => .fail .inputRange
  | none, some l =>
    let body := ff1Middle d (ff1Enc (x.cipher 1) (ff1TweakOf d x.ctr)) (if luhn = 0 then l else l.dropLast)
    let tok := if luhn = 0 then body else body ++ [tokenDigit luhn body]
    { Out.inl (ff1Output tok ++ (if ctr then leBytes 8 x.ctr else [])) with
      changes := match s.heldKey x 1 with
        | none => []
        | some k => if ctr then [.counter k.slot x.ctr] else [] }

/-- FF1_TOKENISE. -/
def execFf1Tokenise (slot : Nat) (s : State) : Host.Outcome State Fault Refusal := runOp 0x601 slot ff1TokeniseOut s

/-- FF1_DETOKENISE (R278 to R280). -/
def ff1DetokeniseOut (_ : State) (x : Slot) : Out :=
  let d := x.desc
  let luhn := bits (dP0 d) 15 14
  match ff1Input d with
  | none => .fail .inputRange
  | some l =>
    let body := if luhn = 0 then l else l.dropLast
    if luhn ≠ 0 ∧ l.getLastD 10 ≠ tokenDigit luhn body then .fail .inputRange
    else
      let out := ff1Middle d (ff1Dec (x.cipher 1) (ff1TweakOf d (leAt d 64 8))) body
      .inl (ff1Output (if luhn = 0 then out else out ++ [luhnDigit out]))

/-- FF1_DETOKENISE. -/
def execFf1Detokenise (slot : Nat) (s : State) : Host.Outcome State Fault Refusal := runOp 0x602 slot ff1DetokeniseOut s

end Sys2Proof.Machine
end

