-- ==== Sys2Proof/Machine/Looper.lean ====
section
/-! DEFINITION. Looper: its requests, its blocks, and what each request's output does (R24, R145, R321 to R325, R467, R592). -/

namespace Sys2Proof.Machine

/-- Blocks a request takes (R321). -/
def looperNeed (code : Nat) : Nat :=
  if code = 0 then 3 else if code ≤ 2 then max 1 Config.identityBlocks else if code ≤ 4 then 2 else 4

/-- Queue a request, in arrival order (R322). -/
def askLooper (s : State) (code : Nat) : State := looperDraw (s.modLooper (fun l => { l with queue := l.queue ++ [code] }))

/-- Whether the key-bind microcode asks for KD now: a task waits for it, none is held or being formed, and hash unit 0 has run its steps
to their end (R145, R320). -/
def State.kdDue (s : State) : Bool :=
  !s.keys.kdJobs.isEmpty && s.keys.kd.isNone && !s.units.looper.queue.contains 0 && (s.hash 0).queue.isEmpty

/-- Life-cycle states at whose start a DRS is generated where none is held (R141, R452). -/
def drsState (l : Nat) : Bool := [0x11, 0x22, 0x33, 0x44, 0x55].contains l

/-- Generate the DRS where the Cocoon holds none; it takes two conditioned blocks (R140, R141, R372). -/
def State.withDrs (s : State) : State :=
  match s.tamper.drs with
  | some _ => s
  | none =>
    let (d, t) := draw s 32
    { t with tamper := { t.tamper with drs := some d }, entropy := { t.entropy with held := t.entropy.held.drop 2 } }

/-- LOOPER_KD_FORMATION: at start-up once stop point 2 is passed, and later for each task that waits for KD, while a DRS is held
(R141, R145, R320, R321). -/
def execLooperKdFormation (s : State) : Host.Outcome State Fault Refusal :=
  .next (
    if !s.power.mainOk || !drsState s.life.latched then s
    else if s.booting && s.power.stopPoint == 2 then (if s.units.looper.queue.contains 0 then s else askLooper s.withDrs 0)
    else if s.kdDue && s.tamper.drs.isSome then askLooper s 0
    else s)

/-- LOOPER_IDENTITY_SEAL: in VENDOR, of the generated pair (R321, R466). -/
def execLooperIdentitySeal (s : State) : Host.Outcome State Fault Refusal :=
  .next (if s.power.mainOk ∧ s.life.latched = 0x22 ∧ s.life.identity ∧ !s.life.sealed then askLooper s 1 else s)

/-- LOOPER_IDENTITY_UNSEAL: at each start, before stop point 1 (R321, R467). -/
def execLooperIdentityUnseal (s : State) : Host.Outcome State Fault Refusal :=
  .next (if s.power.mainOk ∧ s.power.stopPoint = 0 ∧ s.life.identity ∧ !s.life.unsealed then askLooper s 2 else s)

/-- LOOPER_RECORD_KEY_FORMATION: at each start (R321). -/
def execLooperRecordKeyFormation (s : State) : Host.Outcome State Fault Refusal :=
  .next (if s.power.mainOk ∧ s.units.looper.recordKey.isNone then askLooper s 3 else s)

/-- LOOPER_NAND_KEY_FORMATION: at each main start, before the first NAND access (R24, R321). -/
def execLooperNandKeyFormation (s : State) : Host.Outcome State Fault Refusal :=
  .next (if s.power.mainOk ∧ s.units.looper.nandKey.isNone then askLooper s 4 else s)

/-- LOOPER_RECORD_SEAL: a Cocoon record that a flush has written gets its seal (R321, R592). -/
def execLooperRecordSeal (seq : Nat) (s : State) : Host.Outcome State Fault Refusal :=
  .next (
    if s.units.looper.recordKey.isSome ∧ s.log.nand.any (fun e => e.1.seq == seq && e.1.cocoon && e.2.isNone) then askLooper s (16 + seq) else s)

/-- LOOPER_REFUSED: any other request code is refused and recorded (R321, R327, R599). -/
def execLooperRefused (code : Nat) (s : State) : Host.Outcome State Fault Refusal :=
  .next (
    logMain (s.modLooper (fun l => { l with refused := min 0xFFFFFFFF (l.refused + 1) })) 4 0x0400 0x0401 0xFF (code % 256) [])

/-- Block `i` of what a request gives, after the output so far: KD's Bi under the DRS, the formed keys, whose formation from the FIS
the spec leaves open, and the CBC-MAC chain of a record under the record key (R145, R321; assumption 44). -/
def State.looperStep (s : State) (code i : Nat) (out : Bytes) : Bytes :=
  let key := s.units.looper.keyReg.getD []
  match code with
  | 0 => out ++ Aes.encrypt key (kdBlock s.life.latched (i + 1))
  | 1 => out
  | 2 => out
  | 3 => out ++ (List.range 16).map (fun j => Config.recordKeyByte (16 * i + j))
  | 4 => out ++ (List.range 16).map (fun j => Config.nandKeyByte (16 * i + j))
  | n => match s.log.nand.find? (fun e => e.1.seq + 16 == n && e.1.cocoon) with
    | none => out
    | some e => Aes.encrypt key (xorBytes (fit 16 out) (slice e.1.bytes (16 * i) 16))

/-- KD is formed and stands in hash unit 0. During start-up the grant key follows, and stop point 3 is reached; later the task it was
formed for runs (R145, R199, R438, R503). -/
def kdFormed (s : State) (kd : Option Bytes) : State :=
  let t := { s with keys := { s.keys with kd := kd } }
  if s.booting ∧ s.power.stopPoint = 2 then
    reachStop { t with keys := { t.keys with grantKey := kd.map (fun k => grantKeyOf k s.life.latched) } } 3
  else if s.keys.kdJobs.isEmpty then s
  else serveKd t

/-- The output of a request; without a DRS there is no KD (R24, R145, R321, R467, R592). -/
def looperOut (s : State) (code : Nat) (out : Option Bytes) : State :=
  match code with
  | 0 => kdFormed s out
  | 1 => { s with life := { s.life with sealed := true } }
  | 2 =>
    if s.life.sealed then { s with life := { s.life with unsealed := true } } else logMain s 6 0x0900 0x0904 0xFF 0 []
  | 3 => s.modLooper (fun l => { l with recordKey := out })
  | 4 => s.modLooper (fun l => { l with nandKey := out })
  | n => { s with log := Recorder.freed { s.log with nand := s.log.nand.map (fun e =>
      if e.1.seq + 16 = n ∧ e.1.cocoon ∧ e.2.isNone then (e.1, out) else e) } }

/-- LOOPER_BLOCK_DONE: the running request's block, which holds its draw, ends; after its last one the output follows, and the next
request runs. Each further block takes its own draw; with the entropy block failed there is none, and the requests are refused
(R322 to R324, R372, R389). -/
def execLooperBlockDone (s : State) : Host.Outcome State Fault Refusal :=
  .next (match s.units.looper.queue with
    | [] => s
    | c :: r =>
      if !s.units.looper.drawn then looperDraw s
      else if !s.looperPowered then s
      else
        let n := s.units.looper.block + 1
        let o := s.looperStep c s.units.looper.block s.units.looper.out
        let s1 := s.modLooper (fun l => { l with blocks := min (2 ^ 64 - 1) (l.blocks + 1), drawn := false })
        let s2 := if n < looperNeed c then s1.modLooper (fun l => { l with block := n, out := o })
          else looperOut (s1.modLooper (fun l => { l with queue := r, block := 0, keyReg := none, out := [] })) c
            (s.units.looper.keyReg.map (fun _ => o))
        if s.entropy.st = 4 then looperCut s2 else looperDraw s2)

end Sys2Proof.Machine
end

