-- ==== Sys2Proof/Machine/Tamper.lean ====
section
/-! DEFINITION. Alarm sources, the Sleeve, unlock, and the tamper configuration (R418 to R451, R472 to R474). -/

namespace Sys2Proof.Machine

/-- Change the tamper machinery. -/
def State.modTamper (s : State) (f : Tamper → Tamper) : State := { s with tamper := f s.tamper }

/-- Main or auxiliary power is present; STANDBY keeps the 12 V supply (R423, R488). -/
def State.powered (s : State) : Bool := s.power.mainOk || s.power.aux || s.power.power == .standby

/-- The main-die rail monitors are armed: from main power-good to PFAIL, or to the start of a controlled entry into STANDBY (R425). -/
def State.armed (s : State) : Bool := s.power.mainOk && !s.power.pfail && s.power.standbyReq.isNone

/-! ### Alarm sources -/

/-- A source of the Cocoon alarms under the class its entry holds (R437). -/
def cocoonFlag (s : State) (flag reading : Nat) : State := cocoonSource s flag (s.flagClassNow flag) reading

/-- A source of the main die alarms under the class its entry holds (R432, R437). -/
def mainFlag (s : State) (flag reading : Nat) : State := mainAlarm s flag (s.flagClassNow flag) reading

/-- One sample interval of the sequence of x^31 + x^28 + 1: the bit driven, and the register after it (R420). -/
def prbsNext (r : Nat) : Bool × Nat :=
  let b := bit r 30 != bit r 27
  (b, (2 * r + b2n b) % 2 ^ 31)

/-- Two samples of a channel in PRBS mode: whether both sensed bits, in the reading's bits 0 and 1, differ from the channel's own sequence,
and the state with that sequence two bits on (R420, R423; assumption 112). -/
def prbsSample (s : State) (flag reading : Nat) : Bool × State :=
  match tget s.tamper.prbs flag with
  | none => (true, s)
  | some r =>
    let (a, r1) := prbsNext r
    let (b, r2) := prbsNext r1
    (bit reading 0 != a && bit reading 1 != b, s.modTamper (fun t => { t with prbs := tset t.prbs flag r2 }))

/-- MANTLE_CHANNEL_ALARM: two consecutive samples of a Mantle channel fail (R418, R420, R423). -/
def execMantleChannelAlarm (channel reading : Nat) (s : State) : Host.Outcome State Fault Refusal :=
  .next (
    let (failed, t) := prbsSample s channel reading
    if 48 ≤ channel then s else if failed then cocoonFlag t channel reading else t)

/-- Mode of an enclosure loop: 0 DISABLED, 1 STATIC, 2 PRBS (R451). -/
def State.loopMode (s : State) (n : Nat) : Nat := s.odNat (0x4200 + n) 1

/-- Mode of a case switch: 0 DISABLED, 1 NC, 2 NO (R451). -/
def State.switchMode (s : State) (n : Nat) : Nat := s.odNat (0x4300 + n) 1

/-- A STATIC loop passes while its resistance lies in its window (R421). -/
def State.loopPasses (s : State) (n ohms : Nat) : Bool := decide (s.odNat (0x4200 + n) 2 ≤ ohms ∧ ohms ≤ s.odNat (0x4200 + n) 3)

/-- ENCLOSURE_LOOP_ALARM: two consecutive samples of an armed loop fail; in STATIC mode the reading lies outside the window, in PRBS mode
the sensed bits differ from the expected ones (R420, R421, R423, R451). -/
def execEnclosureLoopAlarm (loop reading : Nat) (s : State) : Host.Outcome State Fault Refusal :=
  .next (
    let m := s.loopMode loop
    let (failed, t) := if m = 1 then (!s.loopPasses loop reading, s) else prbsSample s (48 + loop) reading
    if 64 ≤ loop ∨ m = 0 then s
    else if !failed then
      if m = 1 then t.modTamper (fun x => { x with loops := tmod x.loops loop input0 (fun i => { i with measured := reading }) }) else t
    else
      let i := tgetD t.tamper.loops loop input0
      let j := { i with measured := if m = 1 then reading else 0, mismatches := min 0xFFFFFFFF (i.mismatches + 2) }
      cocoonFlag (t.modTamper (fun x => { x with loops := tset x.loops loop j })) (48 + loop) reading)

/-- CASE_SWITCH_ALARM: a closed contact fails in NO mode, an open one in NC mode (R422, R423, R451). -/
def execCaseSwitchAlarm (switch reading : Nat) (s : State) : Host.Outcome State Fault Refusal :=
  .next (
    let m := s.switchMode switch
    if 16 ≤ switch ∨ m = 0 then s
    else
      let i := tgetD s.tamper.switches switch input0
      cocoonFlag (s.modTamper (fun t => { t with switches := tset t.switches switch { i with closed := m == 2 } })) (112 + switch) reading)

/-- LIGHT_ALARM: sites 0 to 7 stand on the main die, 8 to 11 on the Cocoon (R418, R423, R432). -/
def execLightAlarm (site reading : Nat) (s : State) : Host.Outcome State Fault Refusal :=
  .next (
    if site < 8 then (if s.power.mainOk then mainFlag s (128 + site) reading else s)
    else if site < 12 then cocoonFlag s (128 + site) reading else s)

/-- RAIL_ALARM: flag 140, 141 or 142; the main-die rails count while they are armed, glitches on them alone (R425, R432). -/
def execRailAlarm (flag reading : Nat) (s : State) : Host.Outcome State Fault Refusal :=
  .next (
    if flag < 140 ∨ 142 < flag then s
    else if s.armed then mainFlag s flag reading
    else if flag = 142 then s else cocoonFlag s flag reading)

/-- TEMP_ALARM: flag 143 or 144 (R425). -/
def execTempAlarm (flag reading : Nat) (s : State) : Host.Outcome State Fault Refusal :=
  .next (if flag = 143 ∨ flag = 144 then cocoonFlag s flag reading else s)

/-- A clock monitor: on the main die while it runs, otherwise in the Cocoon (R425, R432). -/
def clockFlag (s : State) (flag reading : Nat) : State :=
  if s.power.mainOk then mainFlag s flag reading else if s.powered || flag == 147 then cocoonFlag s flag reading else s

/-- CLOCK_FREQ: flag 145 (R425). -/
def execClockFreq (flag reading : Nat) (s : State) : Host.Outcome State Fault Refusal :=
  .next (if flag = 145 then clockFlag s flag reading else s)

/-- CLOCK_GLITCH: flag 146 (R425). -/
def execClockGlitch (flag reading : Nat) (s : State) : Host.Outcome State Fault Refusal :=
  .next (if flag = 146 then clockFlag s flag reading else s)

/-- XTAL_STOP: flag 147; the crystal check runs on the Sleeve too (R425). -/
def execXtalStop (s : State) : Host.Outcome State Fault Refusal := .next (clockFlag s 147 0)

/-- FSM_CODEWORD_INVALID: machine 0 life cycle, 1 tamper response, 2 key bind, 3 Cocoon power. The tamper-response machine is forced to
LOCKED; the others refuse every transition while their flag is set (R426). -/
def execFsmCodewordInvalid (fsm reading : Nat) (s : State) : Host.Outcome State Fault Refusal :=
  .next (
    if 4 ≤ fsm then s
    else if fsm = 2 then (if s.power.mainOk then mainFlag s 151 reading else s)
    else if fsm = 1 then
      (cocoonFlag s 150 reading).modTamper (fun t => { t with machine := (s.flagClassNow 150).max .lock })
    else cocoonFlag s (149 + fsm) reading)

/-- BRIDGE_FAULT: a bad word, or no heartbeat from the main die, between main power-good and PFAIL (R428). -/
def execBridgeFault (reading : Nat) (s : State) : Host.Outcome State Fault Refusal :=
  .next (if s.power.mainOk && !s.power.pfail then cocoonFlag s 158 reading else s)

/-- MAIN_DIE_RESPONSE: the main die takes the oldest response the bridge brings (R432, R433). -/
def execMainDieResponse (s : State) : Host.Outcome State Fault Refusal :=
  .next (match s.tamper.pendingMain with
    | [] => s
    | (_, cls) :: r => mainResponse (s.modTamper (fun t => { t with pendingMain := r })) cls false)

/-! ### The Sleeve -/

/-- Change the life-cycle and Sleeve state. -/
def State.modLife (s : State) (f : LifeCycle → LifeCycle) : State := { s with life := f s.life }

/-- The class of a Sleeve removal (R429). -/
def State.removalClass (s : State) : AlarmClass := if s.powered && !s.tamper.release then s.flagClassNow 148 else .record

/-- Raise SLEEVE_STATE; where a Sleeve that failed authentication counts as absent, it wakes nothing (R395, R473). -/
def raiseSleeve (s : State) (failed : Bool) : State := if failed && s.asleep then s else raise s 1031

/-- SLEEVE_REMOVAL (R418, R429, R473, R509). -/
def execSleeveRemoval (s : State) : Host.Outcome State Fault Refusal :=
  .next (
    if s.life.sleeve then
      raiseSleeve (cocoonSource (s.modLife (fun l => { l with sleeve := false, sleeveAuth := 0, sleeveDue := false })) 148 s.removalClass 0)
        (s.life.sleeveAuth == 2)
    else s)

/-- SLEEVE_DAYS_LEFT: the days to 7 years of age, or to 1,800 mAh at the mean daily draw of the last 30 days where that is less (R474). -/
def State.sleeveDays (s : State) : Nat :=
  let age := (s.life.sleeveEnd - s.timeUs) / 86400000000
  let sum := (s.life.draws.map (·.2)).sum
  min 65535 (if sum = 0 then age else min age ((18000 - s.life.drawn) * 30 / sum))

/-- Compute SLEEVE_DAYS_LEFT anew; SLEEVE_LIFE is raised as it reaches 90 days, and is armed again for a new cell (R395, R474, R509). -/
def countDays (s : State) (newCell : Bool) : State :=
  let t := s.modLife (fun l => { l with daysLeft := s.sleeveDays })
  if t.life.daysLeft ≤ 90 ∧ (newCell ∨ 90 < s.life.daysLeft) then raise t 1032 else t

/-- Authenticate the Sleeve: its certificate, and its signature over challenge, Sleeve serial and module serial. A success closes
the release window; a failure is recorded (R429, R472, R473, R509, R599). -/
def authSleeve (s : State) (cert sig : Bytes) (drawn : Nat) : State :=
  let (chal, t) := draw s 32
  let ser := Config.certSerial cert
  let end_ := (Config.sleeveKey cert).bind (fun e =>
    if Ec.verifyEnc Ec.p256 e.1 (Sha.sha256 (chal ++ ser ++ serial)) sig then some e.2 else none)
  let same := s.life.sleeveAuth == 1 && s.life.sleeveSer == ser
  match end_ with
  | some e =>
    let u := t.modLife (fun l => { l with sleeve := true, sleeveDue := false, sleeveAuth := 1, sleeveSer := ser, sleeveEnd := e, drawn := drawn % 2 ^ 32,
                                          draws := if same then l.draws else [] })
    let v := u.modTamper (fun x => { x with release := false })
    countDays (if s.life.sleeveAuth = 1 then v else raise v 1031) (!same)
  | none =>
    raiseSleeve (logCocoon (t.modLife (fun l => { l with sleeve := true, sleeveDue := false, sleeveAuth := 2 })) 4 0x0800 0x0805 0xFF 0 (fit 12 ser)) true

/-- SLEEVE_INSERTION: an inserted Sleeve, and at each main start the one present, is authenticated while main or auxiliary power is
there; one that came without power waits for it (R429, R472, R509). -/
def execSleeveInsertion (cert sigR sigS : Bytes) (drawn : Nat) (s : State) : Host.Outcome State Fault Refusal :=
  .next (
    if s.life.sleeve && !(s.life.sleeveDue && s.powered) then s
    else if s.powered then authSleeve s cert (sigR ++ sigS) drawn
    else raise (s.modLife (fun l => { l with sleeve := true, sleeveAuth := 0, sleeveDue := true })) 1031)

/-- SLEEVE_RELEASE_WRITE: a Security Officer opens the release window (R429, R451). -/
def sleeveReleaseWrite (rq : Req) (v : Nat) (s : State) : State :=
  roleWrite s rq 0x4400 1 1 false (fun _ => boolCheck v)
    (fun t => acceptNow (t.modTamper (fun x => { x with release := x.release || v == 1 })) rq 0x4400 1 0x20 [])

/-- SLEEVE_RELEASE_WRITE (R429). -/
def execSleeveReleaseWrite (rq : Req) (v : Nat) (s : State) : Host.Outcome State Fault Refusal := .next (sleeveReleaseWrite rq v s)

/-- SLEEVE_RELEASE_TIMEOUT: 1,200 s after it opened, the window closes (R429). -/
def execSleeveReleaseTimeout (s : State) : Host.Outcome State Fault Refusal :=
  .next (s.modTamper (fun t => { t with release := false }))

/-- SLEEVE_LIFE_ACCOUNTING: the charge drawn is added to the Sleeve's counter, which only rises, and the days left follow for one that is
authenticated (R472, R474). -/
def execSleeveLifeAccounting (mAh tenths : Nat) (s : State) : Host.Outcome State Fault Refusal :=
  let added := 10 * mAh + tenths
  .next (
    if s.life.sleeve && s.powered then
      let t := s.modLife (fun l => { l with
        drawn := min (2 ^ 32 - 1) (l.drawn + added)
        draws := (s.opUs, added) :: l.draws.filter (fun e => decide (s.opUs < e.1 + 2592000000000)) })
      if s.life.sleeveAuth = 1 then countDays t false else t
    else s)

/-! ### Unlock -/

/-- TMP_FLAG[0-4], 20 bytes (R450). -/
def Tamper.flagBytes (t : Tamper) : Bytes := leBytes 20 ((t.flags.map (fun f => 2 ^ f)).sum)

/-- Occurrences of every flag set (R444). -/
def Tamper.occurrences (t : Tamper) : Nat := (t.flags.map (fun f => tgetD t.counts f 0)).sum

/-- The state byte of OTP words 0 to 5, 0xFF where they form no codeword (R454, R455). -/
def lifeOf (otp : Tab Nat) : Nat :=
  let pats := [0xA5A5A5A5, 0x3C3C3C3C, 0x96969696, 0x0FF00FF0, 0xC3C3C3C3, 0x69696969]
  let w (k : Nat) : Nat := tgetD otp k 0
  match (List.range 7).find? (fun j => (List.range 8).all (fun k => w k == if k < j then pats.getD k 0 else 0)) with
  | some j => 0x11 * j
  | none => 0xFF

/-- Whether an unlock is refused with INPUT_RANGE: an input still fails, LC_INVALID stands, or no authenticated Sleeve is there
(R443). -/
def State.unlockBarred (s : State) (passes : Bool) : Bool :=
  (!passes && !s.tamper.flags.isEmpty) || (s.tamper.flags.contains 156 && lifeOf s.life.otp == 0xFF)
    || (s.tamper.flags.contains 148 && s.life.sleeveAuth != 1)

/-- The Cocoon's part of an unlock: the record, then every flag, the latch, the machine and the lines (R427, R444, R451). -/
def applyUnlock (s : State) : State :=
  let s1 := logCocoon s 6 0x0800 0x0802 0xFF 0 (s.tamper.flagBytes ++ leBytes 4 s.tamper.occurrences)
  s1.modTamper (fun t => { t with
    flags := [], counts := [], latch := false, lockCause := 0xFF, machine := .record, alarmOut := false, lockedOut := false,
    unlocks := min 0xFFFFFFFF (t.unlocks + 1), unlockAt := s.service == .locked })

/-- UNLOCK (R438, R443, R444). -/
def unlockWrite (rq : Req) (v : Nat) (passes : Bool) (grant : Bytes) (s : State) : State :=
  grantWrite s rq 0x4000 5 7 0 false (leBytes 1 v) grant
    (fun t => match boolCheck v with
      | some st => some st
      | none => if v = 1 ∧ t.unlockBarred passes then some .inputRange else none)
    (fun t use => acceptUse (if v = 1 then applyUnlock t else t) rq 0x4000 5 (writeOp false grant) [] use)

/-- UNLOCK (R443, R444). -/
def execUnlock (rq : Req) (v : Nat) (passes : Bool) (grant : Bytes) (s : State) : Host.Outcome State Fault Refusal :=
  .next (unlockWrite rq v passes grant s)

/-- UNLOCK_RESET: 100 ms after the unlock of a LOCKED module, an orderly warm main reset (R444, R490). -/
def execUnlockReset (s : State) : Host.Outcome State Fault Refusal :=
  .next (if s.tamper.unlockAt then orderlyReset (s.modTamper (fun t => { t with unlockAt := false })) 2 0x0A else s)

/-! ### Configuration -/

/-- Whether a flag may take a class (R437). -/
def classPermitted (flag v : Nat) : Bool :=
  if flag < 48 then v == 4 else if flag < 128 then decide (1 ≤ v ∧ v ≤ 4) else if flag < 140 then v == 4
  else if flag < 148 then v == 3 || v == 4 else if flag = 148 then decide (1 ≤ v ∧ v ≤ 4)
  else if flag ≤ 152 ∨ flag = 158 then v == 3 || v == 4 else v == flagClass flag

/-- The record of a change of the tamper configuration (R599). -/
def tamperConfig (s : State) (idx sub v : Nat) : State := logMain s 3 0x0800 0x0806 0xFF sub (leBytes 2 idx ++ leBytes 4 v)

/-- A granted write of a tamper setting (R451). -/
def tamperSet (rq : Req) (idx sub v : Nat) (grant : Bytes) (check : State → Option Status) (s : State) : State :=
  grantWrite s rq idx sub 5 0 false (numBytes idx sub v) grant
    (fun t => match numCheck idx sub v with
      | some st => some st
      | none => check t)
    (fun t use => acceptCommit (tamperConfig t idx sub v) rq idx sub (writeOp false grant) [] (.od idx sub (numBytes idx sub v) :: use))

/-- TAMPER_CLASS_WRITE (R437). -/
def tamperClassWrite (rq : Req) (flag v : Nat) (grant : Bytes) (s : State) : State :=
  tamperSet rq (0x4100 + min flag 0xFF) 1 v grant (fun _ => if classPermitted flag v then none else some .inputRange) s

/-- TAMPER_CLASS_WRITE (R437). -/
def execTamperClassWrite (rq : Req) (flag v : Nat) (grant : Bytes) (s : State) : Host.Outcome State Fault Refusal :=
  .next (tamperClassWrite rq flag v grant s)

/-- LOOP_MODE_WRITE: a mode is refused where the input fails its next sample (R424). -/
def loopModeWrite (rq : Req) (isSwitch : Bool) (n v : Nat) (passes : Bool) (grant : Bytes) (s : State) : State :=
  tamperSet rq (if isSwitch then 0x4300 + min n 0xFF else 0x4200 + min n 0xFF) 1 v grant
    (fun _ => if v ≠ 0 ∧ !passes then some .inputRange else none) s

/-- LOOP_MODE_WRITE (R424). -/
def execLoopModeWrite (rq : Req) (isSwitch : Bool) (n v : Nat) (passes : Bool) (grant : Bytes) (s : State) : Host.Outcome State Fault Refusal :=
  .next (loopModeWrite rq isSwitch n v passes grant s)

/-- A window is allowed (R421). -/
def windowOk (lo hi : Nat) : Bool := decide (100 ≤ lo ∧ hi ≤ 100000 ∧ 11 * lo ≤ 10 * hi)

/-- LOOP_WINDOW_WRITE: the resulting window is checked, and an armed loop must pass its next sample (R421, R424). -/
def loopWindowWrite (rq : Req) (n sub v : Nat) (passes : Bool) (grant : Bytes) (s : State) : State :=
  tamperSet rq (0x4200 + min n 0xFF) (if sub = 2 ∨ sub = 3 then sub else 0xFF) v grant
    (fun t =>
      let lo := if sub = 2 then v else t.odNat (0x4200 + n) 2
      let hi := if sub = 3 then v else t.odNat (0x4200 + n) 3
      if windowOk lo hi && (t.loopMode n == 0 || passes) then none else some .inputRange) s

/-- LOOP_WINDOW_WRITE (R421, R424). -/
def execLoopWindowWrite (rq : Req) (n sub v : Nat) (passes : Bool) (grant : Bytes) (s : State) : Host.Outcome State Fault Refusal :=
  .next (loopWindowWrite rq n sub v passes grant s)

/-! ### Loss of the Cocoon's energy -/

/-- What the battery-backed SRAM holds is gone: the DRS, the flags, the latch, the unflushed records, the wake latches and counts (R442). -/
def loseSram (s : State) : State :=
  { s with
    tamper := { tamper0 with sram := false }
    log := { s.log with cocoonBuf := [] }
    eic := { s.eic with latches := [], firstLatch := none, wakeArmed := false, wdogResets := 0 }
    seam := { s.seam with timeSet := false }
    power := { s.power with pfails := 0 } }

/-- HOLDUP_EXHAUSTED: no Sleeve, no main and no auxiliary power (R442, R482). -/
def execHoldupExhausted (s : State) : Host.Outcome State Fault Refusal :=
  .next (if s.powered || s.life.sleeve then s else loseSram s)

end Sys2Proof.Machine
end

