-- ==== Sys2Proof/Machine/LifeCycle.lean ====
section
/-! DEFINITION. Life cycle, commissioning, identity, debug authorisation, and the entropy tap (R391, R452 to R479). -/

namespace Sys2Proof.Machine

/-! ### OTP and the transition journal -/

/-- The patterns P0 to P5 (R454). -/
def otpPats : List Nat := [0xA5A5A5A5, 0x3C3C3C3C, 0x96969696, 0x0FF00FF0, 0xC3C3C3C3, 0x69696969]

/-- Pattern words a state's codeword holds (R454). -/
def lifeRank (l : Nat) : Nat := l / 0x11

/-- An OTP word. -/
def State.otp (s : State) (k : Nat) : Nat := tgetD s.life.otp k 0

/-- Program a word: bits are only ever set (R458). -/
def burn (t : Tab Nat) (k v : Nat) : Tab Nat := tset t k (tgetD t k 0 ||| v)

/-- Program the pattern words of a target in ascending order (R457, R458). -/
def burnTo (t : Tab Nat) (target : Nat) : Tab Nat :=
  (List.range (lifeRank target)).foldl (fun u k => burn u k (otpPats.getD k 0)) t

/-- A journal slot's condition: 0 free, 1 complete, 2 open, 3 void (R460). -/
def State.slotCond (s : State) (k : Nat) : Nat :=
  let i := s.otp (8 + 2 * k)
  let d := s.otp (9 + 2 * k)
  if i = 0 then (if d = 0 then 0 else 3)
  else if otpPats.contains i then (if d = 0xFFFFFFFF then 1 else 2) else 3

/-- The first free journal slot (R457, R460). -/
def State.freeSlot (s : State) : Option Nat := (List.range 16).find? (fun k => s.slotCond k == 0)

/-- The target an INTENT word names (R460). -/
def intentTarget (i : Nat) : Nat := 0x11 * (otpPats.idxOf i + 1)

/-- States whose entry zeroes the DRS (R452, R457). -/
def drsZeroed (target : Nat) : Bool := target == 0x33 || target == 0x55 || target == 0x66

/-! ### Transitions -/

/-- Transitions a grant authorises (R456). -/
def State.grantedTransition (s : State) (target : Nat) : Bool :=
  (s.life.latched == 0x33 && target == 0x44 && !(s.odGet 0x8010 2).isEmpty) || (s.life.latched == 0x44 && (target == 0x55 || target == 0x66))

/-- Transitions a Casuf certificate authorises (R456). -/
def State.certifiedTransition (s : State) (target : Nat) : Bool :=
  match s.life.latched with
  | 0x00 => target == 0x11
  | 0x11 => target == 0x22 || target == 0x66
  | 0x22 => (target == 0x33 && s.life.certsSet) || target == 0x66
  | 0x33 => target == 0x66
  | 0x55 => target == 0x66
  | 0xFF => target == 0x66
  | _ => false

/-- A transition is refused for now (R426, R456). -/
def State.transitionShut (s : State) : Bool :=
  s.service == .bootStopped || s.life.trans.isSome || s.life.resetPend || s.freeSlot.isNone || s.tamper.flags.contains 149

/-- The status of a transition request (R456). -/
def State.transitionCheck (s : State) (ok : Bool) : Option Status :=
  if !ok then some .inputRange else if s.transitionShut then some .notActive else none

/-- Close the debug session (R477). -/
def closeDebug (s : State) : State := s.modLife (fun l => { l with dbgOpen := false, dbgLevel := 0, dbgScope := 0, dbgEnd := 0 })

/-- The bits of a word that a value needs and that are not set yet, from bit 0 upward (R458). -/
def State.bitsToBurn (s : State) (k v : Nat) : List (Nat × Nat) :=
  (List.range 32).filterMap (fun b => if bit v b && !bit (s.otp k) b then some (k, b) else none)

/-- Steps 2 to 5 of a transition in a slot, as the Cocoon carries them out (R457, R458). -/
def State.transitionWork (s : State) (target k : Nat) : List (Nat × Nat) :=
  s.bitsToBurn (8 + 2 * k) (otpPats.getD (lifeRank target - 1) 0)
    ++ (if drsZeroed target then [(64, target)] else [])
    ++ ((List.range (lifeRank target)).map (fun j => s.bitsToBurn j (otpPats.getD j 0))).flatten
    ++ s.bitsToBurn (9 + 2 * k) 0xFFFFFFFF ++ [(65, k)]

/-- Step 6: the slot is DONE and recorded, the reset is pending, and the request is answered where its main die still runs (R457, R599). -/
def slotDone (s : State) (k : Nat) : State :=
  let s1 := logCocoon s 6 0x0900 0x0901 0xFF (0x11 * (otpPats.idxOf (s.otp (8 + 2 * k)) + 1)) (leBytes 1 k)
  match s.life.trans with
  | none => s1
  | some t => acceptUse (s1.modLife (fun l => { l with trans := none, resetPend := true })) t.rq t.idx t.sub t.op [] t.uses

/-- One item of the Cocoon's work: a bit, or one of the marks (R457 to R459). -/
def progItem (s : State) (i : Nat × Nat) : State :=
  if i.1 = 64 then zeroDrs s
  else if i.1 = 65 then slotDone s i.2
  else s.modLife (fun l => { l with otp := burn l.otp i.1 (2 ^ i.2) })

/-- Carry out the marks at the front of the work; the bits stay for their time. -/
def progMarks (s : State) (w : List (Nat × Nat)) : State :=
  match w with
  | [] => s.modLife (fun l => { l with prog := [] })
  | i :: r => if 64 ≤ i.1 then progMarks (progItem s i) r else s.modLife (fun l => { l with prog := i :: r })

/-- One microsecond of OTP programming: 20 for each bit, while main or auxiliary power is present (R458). -/
def progTick (s : State) : State :=
  match s.life.prog with
  | [] => s
  | i :: r =>
    if !s.powered then s
    else if s.life.progUs + 1 < 20 then s.modLife (fun l => { l with progUs := l.progUs + 1 })
    else progMarks ((progItem s i).modLife (fun l => { l with progUs := 0 })) r

/-- OTP programming runs to its end before the main die leaves reset (R495). -/
def finishOtp (s : State) : State := s.life.prog.foldl progItem (s.modLife (fun l => { l with prog := [], progUs := 0 }))

/-- The Cocoon begins to program an accepted transition (R457). -/
def programTransition (s : State) (t : Transition) : State :=
  match s.freeSlot with
  | none => refuse (s.modLife (fun l => { l with trans := none })) t.rq t.idx t.sub t.op .notActive
  | some k => progMarks (s.modLife (fun l => { l with progUs := 0 })) (s.transitionWork t.target k)

/-- Whether a disable procedure still runs anywhere. -/
def State.anyDisabling (s : State) : Bool := s.parts.any (fun e => e.2.dis == .disabling)

/-- A transition whose disable procedure has ended goes on, and OTP is programmed (R457, R458). -/
def continueTransition (s : State) : State :=
  match s.life.trans with
  | none => progTick s
  | some t => if !s.life.prog.isEmpty then progTick s else if s.anyDisabling then s else programTransition s t

/-- Begin an accepted transition: in SERVICE, TEST and VENDOR every function is disabled and the collar released first (R457, R477). -/
def beginTransition (s : State) (t : Transition) : State :=
  let s1 := closeDebug (s.modLife (fun l => { l with trans := some t }))
  let s2 := if s.life.latched = 0x44 ∨ s.factory then noteService s (noteFunctions s (disableAll (releaseCollar s1) .flr)) else s1
  if s2.anyDisabling then s2 else programTransition s2 t

/-- TARGET_WRITE (R456, R457). -/
def targetWrite (rq : Req) (target : Nat) (grant : Bytes) (s : State) : State :=
  grantWrite s rq 0x8001 1 6 0 false (leBytes 1 target) grant
    (fun t => if 256 ≤ target then some .malformed else t.transitionCheck (t.grantedTransition target))
    (fun t use => beginTransition t ⟨target, rq, 0x8001, 1, writeOp false grant, use⟩)

/-- TARGET_WRITE (R457). -/
def execTargetWrite (rq : Req) (target : Nat) (grant : Bytes) (s : State) : Host.Outcome State Fault Refusal :=
  .next (targetWrite rq target grant s)

/-- LC_TRANSITION_RESET: 100 ms after the reply a cold main reset starts, but not after a transition to STOCK (R457, R490). -/
def execLcTransitionReset (s : State) : Host.Outcome State Fault Refusal :=
  .next (if s.life.resetPend ∧ s.power.mainOk ∧ lifeOf s.life.otp ≠ 0x33 then askReset s ⟨1, 0x09, false, 0⟩ else s)

/-! ### Casuf certificates and debug sessions -/

/-- Draw DEBUG_CHALLENGE anew (R476). -/
def newDebugChallenge (s : State) : State :=
  let (c, t) := draw s 32
  t.modLife (fun l => { l with dbgChal := c })

/-- Length of an authorisation certificate (R477). -/
def authCertLen : Nat := 56 + 96 + 4627

/-- The bit of a state in STATES (R477). -/
def stateBit (l : Nat) : Nat := if l = 0xFF then 7 else lifeRank l

/-- A certificate's signatures, serial, challenge and states hold (R477). -/
def State.authCertOk (s : State) (c : Bytes) : Bool :=
  leAt c 0 4 == 2 && slice c 4 12 == serial && s.life.dbgValid && slice c 16 32 == s.life.dbgChal
    && bit (byteAt c 48) (stateBit s.life.latched) && allZero (slice c 53 3) && casufSigned 1 c

/-- The debug scopes a state permits by certificate (R475). -/
def scopePermitted (l scope : Nat) : Bool :=
  scope != 0 && decide (scope < 4) && (l == 0x11 || l == 0x22 || l == 0x55 || (l == 0x00 && !bit scope 0))

/-- Open a certified debug session (R475, R477, R479, R599). -/
def openDebug (s : State) (scope dur : Nat) : State :=
  let s1 := if bit scope 0 then (lockClear s).modLife (fun l => { l with shut := true }) else s
  let level := if bit scope 0 then 2 else 3
  logMain (s1.modLife (fun l => { l with dbgOpen := true, dbgLevel := level, dbgScope := scope, dbgEnd := s.opUs + 1000000 * dur }))
    5 0x0900 0x0905 0xFF level (leBytes 2 dur)

/-- AUTH_CERT_WRITE: the certificate opens a debug session or requests a transition; the challenge is drawn anew after it
(R456, R476, R477). -/
def authCertWrite (rq : Req) (c : Bytes) (s : State) : State :=
  openServe s rq 0x8020 2 (fun _ => if c.length ≠ authCertLen then some .malformed else none)
    (fun t =>
      let target := byteAt c 52
      let scope := byteAt c 49
      let dur := leAt c 50 2
      let t1 := newDebugChallenge t
      if !t.authCertOk c then refuse t1 rq 0x8020 2 0x22 .verifyFail
      else if target = 0xFF then
        if scopePermitted t.life.latched scope && decide (1 ≤ dur ∧ dur ≤ 3600) then acceptNow (openDebug t1 scope dur) rq 0x8020 2 0x22 []
        else refuse t1 rq 0x8020 2 0x22 .verifyFail
      else match t1.transitionCheck (t1.certifiedTransition target) with
        | some st => refuse t1 rq 0x8020 2 0x22 st
        | none => beginTransition t1 ⟨target, rq, 0x8020, 2, 0x22, []⟩)

/-- AUTH_CERT_WRITE (R477). -/
def execAuthCertWrite (rq : Req) (cert : Bytes) (s : State) : Host.Outcome State Fault Refusal := .next (authCertWrite rq cert s)

/-- DEBUG_SESSION_EXPIRY (R477, R478). -/
def execDebugSessionExpiry (s : State) : Host.Outcome State Fault Refusal :=
  .next (if s.life.dbgEnd ≤ s.opUs then closeDebug s else s)

/-- DEBUG_CLOSE (R477). -/
def debugCloseWrite (rq : Req) (v : Nat) (s : State) : State :=
  roleWrite s rq 0x8020 4 1 false (fun _ => boolCheck v)
    (fun t => acceptNow (if v = 1 then closeDebug t else t) rq 0x8020 4 0x20 [])

/-- DEBUG_CLOSE (R477). -/
def execDebugClose (rq : Req) (v : Nat) (s : State) : Host.Outcome State Fault Refusal := .next (debugCloseWrite rq v s)

/-- OBSERVE_OPEN: in SERVICE, an observation session for the WINDOW of the class (R478). -/
def observeOpenWrite (rq : Req) (v : Nat) (grant : Bytes) (s : State) : State :=
  grantWrite s rq 0x8020 5 9 0 false (leBytes 1 v) grant
    (fun t => match boolCheck v with
      | some st => some st
      | none => if t.life.latched = 0x44 then none else some .notActive)
    (fun t use =>
      let dur := t.odNat 0x3309 3
      let t1 := if v = 1 then
          logMain (t.modLife (fun l => { l with dbgOpen := true, dbgLevel := 1, dbgScope := 0, dbgEnd := t.opUs + 1000000 * dur }))
            5 0x0900 0x0905 0xFF 1 (leBytes 2 dur)
        else t
      acceptUse t1 rq 0x8020 5 (writeOp false grant) [] use)

/-- OBSERVE_OPEN (R478). -/
def execObserveOpen (rq : Req) (v : Nat) (grant : Bytes) (s : State) : Host.Outcome State Fault Refusal :=
  .next (observeOpenWrite rq v grant s)

/-- DEBUG_CHALLENGE_REFRESH: 600 s after it was drawn (R476). -/
def execDebugChallengeRefresh (s : State) : Host.Outcome State Fault Refusal :=
  .next (if s.life.dbgValid then newDebugChallenge s else s)

/-! ### Commissioning -/

/-- A length-prefixed field at an offset: its content and the offset behind it (R463, R470). -/
def lenField (b : Bytes) (o : Nat) : Bytes × Nat := (slice b (o + 2) (leAt b o 2), o + 2 + leAt b o 2)

/-- Draw COMMISSION_CHALLENGE anew (R464). -/
def newCommChallenge (s : State) : State :=
  let (c, t) := draw s 32
  t.modLife (fun l => { l with commChal := c })

/-- Members of a token (R463). -/
def tokenCount (b : Bytes) : Nat := byteAt b 64

/-- Member record `i` of a token: role mask, partition, credential, name (R463). -/
def tokenMember (b : Bytes) (i : Nat) : Bytes := slice b (68 + 80 * i) 80

/-- The end of a token's signed part (R463). -/
def tokenEnd (b : Bytes) : Nat := (lenField b (lenField b (68 + 80 * tokenCount b)).2).2

/-- Members of a token that hold a role. -/
def tokenHolders (b : Bytes) (r : Nat) : Nat := ((List.range (tokenCount b)).filter (fun i => bit (byteAt (tokenMember b i) 0) r)).length

/-- The layout and member conditions of a token (R463, R464). -/
def tokenForm (b : Bytes) : Bool :=
  leAt b 0 4 == 1 && decide (2 ≤ tokenCount b ∧ tokenCount b ≤ 64) && allZero (slice b 65 3)
    && b.length == tokenEnd b + 96 + 4627
    && (List.range (tokenCount b)).all (fun i => decide (byteAt (tokenMember b i) 0 < 16))
    && decide (2 ≤ tokenHolders b 0) && decide (2 ≤ tokenHolders b 1) && decide (1 ≤ tokenHolders b 3)

/-- The certificates and signatures of a token, its serial and its challenge (R464). -/
def State.tokenSigned (s : State) (b : Bytes) : Bool :=
  let o := 68 + 80 * tokenCount b
  let m := slice b 0 (tokenEnd b)
  slice b 4 12 == serial && slice b 16 32 == s.life.commChal
    && (match Config.chainKey 3 false [(lenField b o).1], Config.chainKey 3 true [(lenField b (lenField b o).2).1] with
      | some ec, some ml => Ec.verifyEnc Ec.p384 ec (Sha.sha384 m) (slice b (tokenEnd b) 96)
          && verifyWith 0x603 0 0 ml [] m (slice b (tokenEnd b + 96) 4627)
      | _, _ => false)

/-- The changes of an accepted token: members in token order, every policy at its default, the token and the customer
(R464, R480). -/
def tokenChanges (b : Bytes) : List Change :=
  ((List.range (tokenCount b)).map (fun i =>
    let m := tokenMember b i
    [Change.od (0x3500 + i) 1 (slice m 0 1), .od (0x3500 + i) 2 (slice m 1 1), .od (0x3500 + i) 3 (slice m 2 65),
     .od (0x3500 + i) 4 (fit 32 (slice m 67 13))])).flatten
  ++ ((List.range 12).map (fun k => (List.range 4).map (fun j => Change.od (0x3301 + k) (j + 1) (odDefault (0x3301 + k) (j + 1))))).flatten
  ++ [.od 0x8010 3 (slice b 48 16), .od 0x8010 2 [1#8]]

/-- COMMISSION_TOKEN_WRITE: written once, in STOCK; a refused token leaves the entry unwritten and draws a new challenge
(R463, R464, R568, R599). -/
def commissionTokenWrite (rq : Req) (b : Bytes) (s : State) : State :=
  openServe s rq 0x8010 2 (fun t => if t.life.latched ≠ 0x33 ∨ !(t.ahead.odGet 0x8010 2).isEmpty then some .keyUsage else none)
    (fun t =>
      if !tokenForm b then refuse (newCommChallenge t) rq 0x8010 2 0x22 .inputRange
      else if !t.tokenSigned b then refuse (newCommChallenge t) rq 0x8010 2 0x22 .verifyFail
      else acceptCommit (logMain t 6 0x0900 0x0906 0xFF (tokenCount b) (slice b 48 16)) rq 0x8010 2 0x22 [] (tokenChanges b))

/-- COMMISSION_TOKEN_WRITE (R464). -/
def execCommissionTokenWrite (rq : Req) (token : Bytes) (s : State) : Host.Outcome State Fault Refusal :=
  .next (commissionTokenWrite rq token s)

/-! ### Identity -/

/-- IDENTITY_GENERATE: once, in VENDOR; Looper then seals the pair (R321, R466). Before ENTROPY_READY the request waits (R375;
DESIGN CHOICE, assumption 100). -/
def identityGenerateWrite (rq : Req) (s : State) : State :=
  roleWrite s rq 0x8030 5 1 false
    (fun t => if t.life.latched ≠ 0x22 ∨ t.life.identity then some .notActive else none)
    (fun t => if !t.entropy.ready then s
      else acceptNow (askLooper (t.modLife (fun l => { l with identity := true, unsealed := true })) 1) rq 0x8030 5 0x20 [])

/-- IDENTITY_GENERATE (R466). -/
def execIdentityGenerate (rq : Req) (s : State) : Host.Outcome State Fault Refusal := .next (identityGenerateWrite rq s)

/-- The certificates of a chain at an offset, and the offset behind it (R470). -/
def readChain (b : Bytes) (o : Nat) : List Bytes × Nat :=
  (List.range (leAt b o 2)).foldl (fun a _ => (a.1 ++ [(lenField b a.2).1], (lenField b a.2).2)) ([], o + 2)

/-- A chain verifies to the product root, its leaf certifies the module's own key and carries its serial (R469, R470). -/
def chainOk (ml : Bool) (c : List Bytes) : Bool :=
  Config.chainKey 2 ml c == some (if ml then identityMl.1 else identityEc)
    && (c.head?.map Config.certSerial) == some serial

/-- CERT_INSTALL (R470). -/
def certInstallWrite (rq : Req) (b : Bytes) (s : State) : State :=
  let ec := readChain b 0
  let ml := readChain b ec.2
  roleWrite s rq 0x8030 6 1 false
    (fun t => if t.life.certsSet then some .keyUsage
      else if t.life.latched ≠ 0x22 ∨ !t.life.identity then some .notActive
      else if ec.1.isEmpty || ml.1.isEmpty || b.length != ml.2 then some .inputRange
      else if chainOk false ec.1 && chainOk true ml.1 then none else some .verifyFail)
    (fun t => acceptNow (t.modLife (fun l => { l with certsSet := true, certEc := slice b 0 ec.2, certMl := b.drop ec.2 })) rq 0x8030 6 0x22 [])

/-- CERT_INSTALL (R470). -/
def execCertInstall (rq : Req) (chains : Bytes) (s : State) : Host.Outcome State Fault Refusal := .next (certInstallWrite rq chains s)

/-- Random bytes of the supervisor cores that must not wait: from the instance of partition 0 where it can serve, else the free bytes of a
nonce formed without it (R381, R438, R471; DESIGN CHOICE, assumption 100). -/
def coreDrawNow (s : State) (n : Nat) : Bytes × State := if s.coreReady n then coreDraw s n else draw s n

/-- ATTESTATION for a nonce, signed under both halves of the identity key pair (R471). -/
def attestation (s : State) (nonce : Bytes) : Bytes × State :=
  let body := nonce ++ serial ++ leBytes 1 s.life.latched ++ s.meas.mr.flatten ++ leBytes 4 s.power.boots ++ s.tamper.flagBytes
    ++ leBytes 4 s.tamper.unlocks ++ leBytes 4 s.opSeconds
  let (r, t) := coreDrawNow s 88
  (body ++ Ec.sign Ec.p384 identityScalar (Ec.scalar Ec.p384 (slice r 0 56)) (Sha.sha384 body)
    ++ Lattice.dsaSign 3 identityMl.2 [] body (slice r 56 32), t)

/-- ATTEST_NONCE_WRITE: served in BOOT_STOPPED too (R438, R471, R569). -/
def attestNonceWrite (rq : Req) (nonce : Bytes) (s : State) : State :=
  serveWrite s rq 0x8030 3 0x20 true (fun _ => true) (fun t =>
    if nonce.length ≠ 32 then refuse t rq 0x8030 3 0x20 .malformed
    else
      let (a, u) := attestation t nonce
      acceptNow (u.modLife (fun l => { l with attest := a })) rq 0x8030 3 0x20 [])

/-- ATTEST_NONCE_WRITE (R471). -/
def execAttestNonceWrite (rq : Req) (nonce : Bytes) (s : State) : Host.Outcome State Fault Refusal := .next (attestNonceWrite rq nonce s)

/-! ### The entropy tap -/

/-- TAP_CTL_WRITE: in TEST, VENDOR and RETURN one group's samples go to the tap buffer (R391, R392). -/
def tapCtlWrite (rq : Req) (v : Nat) (grant : Bytes) (s : State) : State :=
  grantWrite s rq 0x5002 1 9 0 false (leBytes 4 v) grant
    (fun t => if !(t.factory || t.life.latched == 0x55) then some .keyUsage
      else if 2 ^ 32 ≤ v then some .malformed
      else if 11 < bits v 4 1 then some .inputRange else none)
    (fun t use =>
      let on := bit v 0
      let t1 := t.modEntropy (fun e => { e with tap := on, tapGroup := bits v 4 1, tapFree := if on then t.free else e.tapFree,
                                                 tapBits := if on then 0 else e.tapBits })
      acceptUse (if on then { t1 with free := t1.free + 2 ^ 20 } else t1) rq 0x5002 1 (writeOp false grant) [] use)

/-- TAP_CTL_WRITE (R391). -/
def execTapCtlWrite (rq : Req) (v : Nat) (grant : Bytes) (s : State) : Host.Outcome State Fault Refusal :=
  .next (tapCtlWrite rq v grant s)

end Sys2Proof.Machine
end

