-- ==== Sys2Proof/Machine/LogStore.lean ====
section
/-! DEFINITION. The NAND log: the timed flush, sequencing what was held, seal checks and clearing (R590 to R598). -/

namespace Sys2Proof.Machine

/-- LOG_FLUSH: the buffer is written 10 ms after the oldest waiting record was sequenced (R591). -/
def execLogFlush (s : State) : Host.Outcome State Fault Refusal := .next (if s.logOpen && !s.power.pfail then flushLog s false else s)

/-- Sequence the Cocoon's pending records, in its order, then the main die's held ones; a record that only waits for its seal has its
SEQUENCE (R322, R441, R590). -/
def sequenceHeld (s : State) : State :=
  let ovw := overwriteMode s
  let one (l : Recorder) (r : LogRec) : Recorder :=
    if r.seq ≠ 0 then { l with cocoonBuf := l.cocoonBuf ++ [r] } else
    let m := enterMain ovw l r
    let r' := if m.next = l.next then r else { r with seq := m.next - 1, chain := chainOf l }
    { m with cocoonBuf := m.cocoonBuf ++ [r'] }
  let l1 := s.log.cocoonBuf.foldl one { s.log with cocoonBuf := [] }
  settleLog { s with log := s.log.early.foldl (enterMain ovw) { l1 with early := [] } }

/-- SEAL_RESULT for a SEQUENCE (R592). -/
def State.sealState (s : State) (key : Bytes) (seq : Nat) : Nat :=
  match s.log.nand.find? (fun e => e.1.seq == seq) with
  | none => if s.log.mainBuf.any (fun r => r.seq == seq) then 3 else 0
  | some (_, none) => 3
  | some (r, some m) => if cbcMac ⟨true, key⟩ r.bytes == m then 1 else 2

/-- SEAL_CHECK: it needs the record key, which Looper forms at each start (R321, R592). -/
def sealCheckWrite (rq : Req) (seq : Nat) (s : State) : State :=
  roleWrite s rq 0x6003 1 1 false
    (fun t => if 2 ^ 64 ≤ seq then some .malformed else if t.units.looper.recordKey.isNone then some .notActive else none)
    (fun t => acceptNow { t with log := { t.log with sealResult := t.sealState (t.units.looper.recordKey.getD []) seq } } rq 0x6003 1 0x20 [])

/-- SEAL_CHECK (R592). -/
def execSealCheck (rq : Req) (seq : Nat) (s : State) : Host.Outcome State Fault Refusal := .next (sealCheckWrite rq seq s)

/-- The GRANT_ID a use names; 0 where grants are waived. -/
def useId (use : List Change) : Nat :=
  match use with
  | [.grantUse id _] => id
  | _ => 0

/-- LOG_CLEAR (R598). -/
def logClearWrite (rq : Req) (v : Nat) (grant : Bytes) (s : State) : State :=
  grantWrite s rq 0x6002 1 8 0 false (leBytes 1 v) grant (fun _ => boolCheck v)
    (fun t use => acceptCommit t rq 0x6002 1 (writeOp false grant) [] ((if v = 1 then [.logClear (useId use)] else []) ++ use))

/-- LOG_CLEAR (R598). -/
def execLogClear (rq : Req) (v : Nat) (grant : Bytes) (s : State) : Host.Outcome State Fault Refusal := .next (logClearWrite rq v grant s)

end Sys2Proof.Machine
end

