-- ==== Sys2Proof/Machine/Quorum.lean ====
section
/-! DEFINITION. Members, policies, grant requests, key components from custodian cards, and tier-0 destruction (R194 to R203, R212). -/

namespace Sys2Proof.Machine

/-! ### Members and policies -/

/-- ROLES, M, WINDOW and MAX_USES of a class (R196). -/
def State.classRoles (s : State) (c : Nat) : Nat := s.odNat (0x3300 + c) 1

/-- Approvals a class requires. -/
def State.classM (s : State) (c : Nat) : Nat := s.odNat (0x3300 + c) 2

/-- Registered members holding one of a mask's roles (R197). -/
def State.holders (s : State) (mask : Nat) : Nat := ((List.range 64).filter (fun m => s.roles m &&& mask != 0)).length

/-- Every class can still be satisfied (R197). -/
def State.satisfiable (s : State) : Bool :=
  (List.range 12).all (fun k => decide (s.classM (k + 1) ≤ s.holders (s.classRoles (k + 1))))

/-- POLICY_WRITE (R196, R197). -/
def policyWrite (rq : Req) (cls sub v : Nat) (grant : Bytes) (s : State) : State :=
  let i := 0x3300 + cls
  grantConfig s rq i sub 5 (numBytes i sub v) grant
    (fun t => match (if 1 ≤ cls ∧ cls ≤ 12 ∧ 1 ≤ sub ∧ sub ≤ 4 then numCheck i sub v else some .keyUsage) with
      | some st => some st
      | none =>
        let u := t.odSet i sub (numBytes i sub v)
        if u.classM cls = 0 ∨ u.holders (u.classRoles cls) < u.classM cls then some .inputRange else none)

/-- POLICY_WRITE (R197). -/
def execPolicyWrite (rq : Req) (cls sub v : Nat) (grant : Bytes) (s : State) : Host.Outcome State Fault Refusal :=
  .next (policyWrite rq cls sub v grant s)

/-- MEMBER_WRITE (R195, R197). -/
def memberWrite (rq : Req) (member sub : Nat) (v grant : Bytes) (s : State) : State :=
  let i := 0x3500 + member
  grantConfig s rq i sub 5 v grant
    (fun t => if 64 ≤ member ∨ sub = 0 ∨ 4 < sub then some .keyUsage
      else match odEntry i sub with
        | none => some .keyUsage
        | some e => if v.length ≠ e.size then some .malformed
          else if sub = 1 ∧ 16 ≤ leNat v then some .inputRange
          else if (t.odSet i sub v).satisfiable then none else some .inputRange)

/-- MEMBER_WRITE (R197). -/
def execMemberWrite (rq : Req) (member sub : Nat) (v grant : Bytes) (s : State) : Host.Outcome State Fault Refusal :=
  .next (memberWrite rq member sub v grant s)

/-! ### Grant requests -/

/-- Change the quorum state. -/
def State.modQuorum (s : State) (f : Quorum → Quorum) : State := { s with quorum := f s.quorum }

/-- A request that has not reached M within WINDOW seconds of opening lapses (R198). -/
def State.lapsed (s : State) (q : GrantReq) : Bool := decide (q.openedUs + 1000000 * s.odNat (0x3300 + q.cls) 3 ≤ s.opUs)

/-- The open requests. -/
def State.openRequests (s : State) : List GrantReq := s.quorum.requests.filter (fun q => !s.lapsed q)

/-- QUORUM_OPEN: the reply carries the request ID and the challenge, which partition 0's instance gives (R198, R381; assumption 100); at
most 16 requests are open (R569). -/
def quorumOpen (rq : Req) (cls part uses : Nat) (digest : Bytes) (s : State) : State :=
  openServe s rq 0x3400 1
    (fun t => if digest.length ≠ 32 ∨ 256 ≤ part then some .malformed
      else if cls = 0 ∨ 12 < cls ∨ uses = 0 ∨ t.odNat (0x3300 + cls) 4 < uses then some .inputRange
      else if t.keys.grantKey.isNone then some .notActive
      else if 16 ≤ t.openRequests.length then some .quota else none)
    (fun t =>
      if !t.coreReady 32 then s else
      let (ch, t1) := coreDraw t 32
      let id := t1.quorum.nextReq
      let t2 := t1.modQuorum (fun q => { q with requests := q.requests ++ [⟨id, cls, part, uses, digest, ch, [], t1.opUs⟩], nextReq := (id + 1) % 2 ^ 32 })
      acceptNow t2 rq 0x3400 1 0x20 (leBytes 4 id ++ ch))

/-- QUORUM_OPEN (R198). -/
def execQuorumOpen (rq : Req) (cls part uses : Nat) (digest : Bytes) (s : State) : Host.Outcome State Fault Refusal :=
  .next (quorumOpen rq cls part uses digest s)

/-- What an approver signs (R198); the widths and the byte order of its fields are the model's (assumption 103). -/
def approveDigest (q : GrantReq) : Bytes :=
  Sha.sha256 (ascii "NLM-APPROVE" ++ serial ++ leBytes 4 q.id ++ leBytes 1 q.cls ++ leBytes 1 q.part ++ leBytes 1 q.uses ++ q.digest ++ q.challenge)

/-- Whether a member may approve for a class and partition: by a role of the class, a Partition Administrator only for the partition of
its registry entry (R194, R196). -/
def State.mayApprove (s : State) (m cls part : Nat) : Bool :=
  let r := s.roles m &&& s.classRoles cls
  r &&& 11 != 0 || (bit r 2 && s.odNat (0x3500 + m) 2 == part)

/-- A request has its approvals: M of them, and for LOG_CLEAR at least one Security Officer and one Auditor (R196). -/
def State.approved (s : State) (q : GrantReq) : Bool :=
  decide (s.classM q.cls ≤ q.approvers.length) &&
    (q.cls != 8 || (q.approvers.any (fun m => bit (s.roles m) 0) && q.approvers.any (fun m => bit (s.roles m) 3)))

/-- The grant of an approved request (R199). -/
def State.issue (s : State) (key : Bytes) (q : GrantReq) : Grant :=
  let expiry := s.timeUs + 1000000 * s.odNat (0x3300 + q.cls) 3
  let head := leBytes 2 q.cls ++ leBytes 1 q.part ++ leBytes 1 q.uses ++ leBytes 4 s.quorum.nextId ++ leBytes 8 expiry
  { bytes := head ++ grantMac key head q.digest, cls := q.cls, part := q.part, uses := q.uses, left := q.uses,
    id := s.quorum.nextId, expiry := expiry, digest := q.digest, issuedUs := s.opUs, own := true }

/-- The mask of some members. -/
def memberMask (l : List Nat) : Nat := (l.dedup.map (fun m => 2 ^ m)).sum

/-- Count one approval of a member, and issue the grant with the one that brings the count to M (R195, R198, R200). -/
def approve (s : State) (rq : Req) (sub : Nat) (q : GrantReq) (m : Nat) : State :=
  let q1 := { q with approvers := if q.approvers.contains m then q.approvers else q.approvers ++ [m] }
  match s.keys.grantKey with
  | none => refuse s rq 0x3400 sub 0x20 .notActive
  | some k =>
    if s.approved q1 then
      let g := s.issue k q1
      let s1 := s.modQuorum (fun u => { u with requests := u.requests.filter (·.id != q.id), nextId := (u.nextId + 1) % 2 ^ 32 })
      let s2 := logMain s1 3 0x0300 0x0305 q.part q.cls (leBytes 4 g.id ++ leBytes 8 (memberMask q1.approvers))
      acceptCommit s2 rq 0x3400 sub 0x20 g.bytes [.grant g]
    else
      acceptNow (s.modQuorum (fun u => { u with requests := lmod (fun x => x.id == q.id) (fun _ => q1) u.requests })) rq 0x3400 sub 0x20 []

/-- An approval by a member's signature (R198). -/
def approveBy (s : State) (rq : Req) (sub id : Nat) (m : Option Nat) (sig : Bytes) : State :=
  openServe s rq 0x3400 sub (fun _ => if sig.length ≠ 64 then some .malformed else none)
    (fun t => match t.openRequests.find? (·.id == id), m with
      | none, _ => refuse t rq 0x3400 sub 0x20 .inputRange
      | some _, none => refuse t rq 0x3400 sub 0x20 .verifyFail
      | some q, some m =>
        if !t.mayApprove m q.cls q.part then refuse t rq 0x3400 sub 0x20 .keyUsage
        else if Ec.verifyEnc Ec.p256 (t.odGet (0x3500 + m) 3) (approveDigest q) sig then approve t rq sub q m
        else refuse t rq 0x3400 sub 0x20 .verifyFail)

/-- QUORUM_APPROVE (R198). -/
def execQuorumApprove (rq : Req) (id member : Nat) (signature : Bytes) (s : State) : Host.Outcome State Fault Refusal :=
  .next (approveBy s rq 2 id (if member < 64 then some member else none) signature)

/-- The registered member a card's public key belongs to. -/
def State.memberOf (s : State) (credential : Bytes) : Option Nat :=
  (List.range 64).find? (fun m => s.roles m != 0 && s.odGet (0x3500 + m) 3 == credential)

/-- Whether a card stands on a custodian port. -/
def State.cardIn (s : State) (port : Nat) : Bool := decide (port < 4) && tgetD s.quorum.cards port false

/-- Bytes AGREE draws for the module's ephemeral point (R202, R381). -/
def ephemeralDraw : Nat := 40

/-- The module's ephemeral scalar and point for a card (R202, R381). -/
def cardEphemeral (s : State) : (Nat × Bytes) × State :=
  let (b, t) := coreDraw s ephemeralDraw
  let d := Ec.scalar Ec.p256 b
  ((d, Ec.encode Ec.p256 (Ec.mul Ec.p256 d (Ec.base Ec.p256))), t)

/-- What the module sends to a card up to AGREE: SELECT, GET KEY, and AGREE with its point and the challenge (R202). -/
def cardOpening (point challenge : Bytes) : List Bytes :=
  [[0x00#8, 0xA4#8, 0x04#8, 0x00#8, 0x06#8, 0xF0#8, 0x4E#8, 0x4C#8, 0x4D#8, 0x43#8, 0x31#8], [0x80#8, 0x20#8, 0x00#8, 0x00#8],
   [0x80#8, 0x22#8, 0x00#8, 0x00#8, 0x61#8] ++ point ++ challenge]

/-- Send commands to the card on a port (R202). -/
def toCard (s : State) (port : Nat) (l : List Bytes) : State := { s with bus := { s.bus with cards := s.bus.cards ++ l.map (fun b => (port, b)) } }

/-- Whether a card's answer to AGREE holds: its point lies on P-256, and its member key signs both points and the challenge (R202). -/
def agreed (credential mp cp challenge signature : Bytes) : Bool :=
  (Ec.decode Ec.p256 cp).isSome && decide (signature.length = 64)
    && Ec.verifyEnc Ec.p256 credential (Sha.sha256 (mp ++ cp ++ challenge)) signature

/-- The session key of a card exchange (R202). -/
def cardKey (d : Nat) (cp : Bytes) : Bytes :=
  match Ec.decode Ec.p256 cp with
  | none => []
  | some q => kdfHmac (Ec.ecdh Ec.p256 d q) (ascii "NLM-CUST") [] 256

/-- CARD_APPROVE: the card on a custodian port signs for its member as in AGREE, over the request's challenge (R198, R202, R212;
assumption 42). -/
def cardApprove (rq : Req) (id port : Nat) (credential : Bytes) (agree : CardAgree) (s : State) : State :=
  openServe s rq 0x3400 4 (fun _ => none)
    (fun t => match t.openRequests.find? (·.id == id), (if t.cardIn port then t.memberOf credential else none) with
      | none, _ => refuse t rq 0x3400 4 0x20 .inputRange
      | some _, none => refuse t rq 0x3400 4 0x20 .verifyFail
      | some q, some m =>
        if !t.mayApprove m q.cls q.part then refuse t rq 0x3400 4 0x20 .keyUsage
        else if !t.coreReady ephemeralDraw then s
        else
          let ((_, mp), t1) := cardEphemeral t
          let t2 := toCard t1 port (cardOpening mp q.challenge)
          if agreed credential mp agree.point q.challenge agree.signature then approve t2 rq 4 q m else refuse t2 rq 0x3400 4 0x20 .verifyFail)

/-- CARD_APPROVE (R198). -/
def execCardApprove (rq : Req) (id port : Nat) (credential : Bytes) (agree : CardAgree) (s : State) : Host.Outcome State Fault Refusal :=
  .next (cardApprove rq id port credential agree s)

/-- QUORUM_REQUEST_LAPSE (R198). -/
def execQuorumRequestLapse (id : Nat) (s : State) : Host.Outcome State Fault Refusal :=
  .next (s.modQuorum (fun q => { q with requests := q.requests.filter (fun x => x.id != id || !s.lapsed x) }))

/-- CUSTODIAN_CARD: a card is inserted or removed (R395); without its card a running load fails at its next exchange
(R203). The first activation releases land groups 2 and 3 (R501). -/
def execCustodianCard (port : Nat) (inserted : Bool) (s : State) : Host.Outcome State Fault Refusal :=
  .next (
    if port < 4 then 
      let s1 := raise (s.modQuorum (fun q => { q with cards := tset q.cards port inserted })) 1040
      if inserted ∧ s.power.stopPoint ≠ 0 then { s1 with power := { s1.power with released := s1.power.released ||| 12 } } else s1
    else s)

/-! ### Key components -/

/-- The record of a load (R203, R599). -/
def componentRecord (s : State) (aux member port : Nat) (kcv : Bytes) : State :=
  logMain s 3 0x0300 0x0304 s.quorum.load.part aux (leBytes 1 member ++ leBytes 1 port ++ fit 5 kcv)

/-- Abandon the load: components zeroed, state ABANDONED (R203). -/
def abandonLoad (s : State) : State :=
  let s1 := componentRecord s 2 0xFF 0xFF []
  s1.modQuorum (fun q => { q with load := { load0 with state := 3, part := q.load.part } })

/-- A template for a component load: the content checks of a creating opcode, with tier 0, 1 or 2 (R201, R204). -/
def loadTemplateOk (t : Template) : Bool :=
  decide (t.tier ≤ 2) && usageOk t.usage t.alg t.tier && templateFields t

/-- The parent of a loaded key of tier 1 or 2: of the same partition, of a lower tier, mode X or N (R175, R201). -/
def State.loadParentOk (s : State) (p parent tier : Nat) : Bool :=
  if tier = 0 then parent == 0
  else match s.named p parent with
    | none => false
    | some r => r.readable && s.lives r.rcd && decide (r.rcd.tier < tier) && (r.rcd.mode == 0x58 || r.rcd.mode == 0x4E)

/-- The partition a grant is for; 0 without one. -/
def grantPart (grant : Bytes) : Nat := byteAt grant 2

/-- COMPONENT_START (R201; assumption 43); a partition whose key domain is not ACTIVE has no record key to hold the record (R148,
R149, R168). -/
def componentStart (rq : Req) (template : Bytes) (parent count : Nat) (grant : Bytes) (s : State) : State :=
  let p := grantPart grant
  let t := readTemplate template
  grantWrite s rq 0x3600 1 3 p false (template ++ leBytes 8 parent ++ leBytes 1 count) grant
    (fun u => if template.length ≠ 32 ∨ 2 ^ 64 ≤ parent ∨ 256 ≤ count then some .malformed
      else if u.quorum.load.state = 1 ∨ (u.part p).key ≠ .active then some .notActive
      else if count < 2 ∨ 3 < count ∨ !loadTemplateOk t || !u.loadParentOk p parent t.tier then some .inputRange else none)
    (fun u use => acceptCommit (u.modQuorum (fun q => { q with
      load := { load0 with state := 1, template := template, parent := parent, part := p, count := count, lastUs := u.opUs } }))
      rq 0x3600 1 (writeOp false grant) [] use)

/-- COMPONENT_START (R201). -/
def execComponentStart (rq : Req) (template : Bytes) (parent count : Nat) (grant : Bytes) (s : State) : Host.Outcome State Fault Refusal :=
  .next (componentStart rq template parent count grant s)

/-- The components combined by XOR (R201). -/
def xorAll (n : Nat) (l : List Bytes) : Bytes := l.foldl xorBytes (zeros n)

/-- The last component is there: the key is formed, checked and committed (R201, R203); its parity bits stay as they are (R205). The load
stays LOADING until the record's commit point. -/
def finishLoad (s : State) (rq : Req) (member port : Nat) (kcv : Bytes) : State :=
  let l := s.quorum.load
  let t := readTemplate l.template
  let m := xorAll (symLen t.alg) l.parts
  let anc := match s.named l.part l.parent with
    | none => []
    | some r => r.rcd.anc
  if (s.part l.part).key ≠ .active then refuse (abandonLoad s) rq 0x3600 2 0x20 .notActive
  else if allZero m || !s.loadParentOk l.part l.parent t.tier then refuse (abandonLoad s) rq 0x3600 2 0x20 .inputRange
  else match newRecord s l.part ⟨t, false, 4, m, l.parent, anc, 0⟩ with
    | none => refuse (abandonLoad s) rq 0x3600 2 0x20 .quota
    | some c =>
      let s1 := componentRecord s 1 member port c.kcv
      let s2 := s1.modQuorum (fun q => { q with load :=
        { load0 with state := 1, part := l.part, count := l.count, lastUs := s.opUs, handle := c.handle, kcv := c.kcv } })
      acceptCommit s2 rq 0x3600 2 0x20 kcv (c.changes ++ [.creation l.part ⟨0, 0, 0, 0, c.handle⟩])

/-- A component is taken from a card: checked, recorded, and the last one ends the load (R201, R203). -/
def takeComponent (s : State) (rq : Req) (m port : Nat) (component : Bytes) : State :=
  let l := s.quorum.load
  let alg := (readTemplate l.template).alg
  if component.length ≠ symLen alg then refuse (abandonLoad s) rq 0x3600 2 0x20 .inputRange
  else
    let kcv := kcvOf alg false component
    let t1 := componentRecord s 0 m port kcv
    let t2 := t1.modQuorum (fun q => { q with load :=
      { l with parts := l.parts ++ [component], members := l.members ++ [m], lastUs := s.opUs } })
    if l.parts.length + 1 = l.count then finishLoad t2 rq m port (fit 5 kcv) else acceptNow t2 rq 0x3600 2 0x20 (fit 5 kcv)

/-- The component a card's answer to GET COMPONENT holds: IV, ciphertext and tag under the session key (R202). -/
def openComponent (key answer : Bytes) : Option Bytes :=
  gcmDec key (slice answer 0 12) [] (slice answer 12 (answer.length - 28)) (slice answer (answer.length - 16) 16)

/-- Whether more than 300 s have passed since a load's last step (R203). -/
def State.loadLate (s : State) : Bool := decide (s.quorum.load.lastUs + 300000000 < s.opUs)

/-- COMPONENT_LOAD: the card is accepted by its member, the exchange runs, and the component is taken (R201 to R203, R381;
assumption 104). -/
def componentLoad (rq : Req) (port : Nat) (credential point signature answer : Bytes) (s : State) : State :=
  roleWrite s rq 0x3600 2 1 false
    (fun t => if 4 ≤ port then some .inputRange else if t.quorum.load.state ≠ 1 ∨ t.quorum.load.handle ≠ 0 then some .notActive else none)
    (fun t =>
      if t.loadLate then refuse (abandonLoad t) rq 0x3600 2 0x20 .notActive
      else match (if t.cardIn port then t.memberOf credential else none) with
        | none => refuse t rq 0x3600 2 0x20 .verifyFail
        | some m =>
          if !bit (t.roles m) 1 || t.quorum.load.members.contains m then refuse t rq 0x3600 2 0x20 .verifyFail
          else if !t.coreReady (ephemeralDraw + 32) then s
          else
            let ((d, mp), t1) := cardEphemeral t
            let (ch, t2) := coreDraw t1 32
            let t3 := toCard t2 port (cardOpening mp ch)
            if !agreed credential mp point ch signature then refuse (abandonLoad t3) rq 0x3600 2 0x20 .verifyFail
            else
              let t4 := toCard t3 port [[0x80#8, 0x24#8, 0x00#8, 0x00#8]]
              match openComponent (cardKey d point) answer with
              | none => refuse (abandonLoad t4) rq 0x3600 2 0x20 .verifyFail
              | some c => takeComponent t4 rq m port c)

/-- COMPONENT_LOAD (R202). -/
def execComponentLoad (rq : Req) (port : Nat) (credential point signature answer : Bytes) (s : State) : Host.Outcome State Fault Refusal :=
  .next (componentLoad rq port credential point signature answer s)

/-- COMPONENT_LOAD_TIMEOUT: more than 300 s have passed between two steps (R203). -/
def execComponentLoadTimeout (s : State) : Host.Outcome State Fault Refusal :=
  .next (if s.quorum.load.state = 1 ∧ s.quorum.load.handle = 0 ∧ s.loadLate then abandonLoad s else s)

/-- TIER0_DESTROY (R177, R212). -/
def tier0Destroy (rq : Req) (handle : Nat) (grant : Bytes) (s : State) : State :=
  let p := grantPart grant
  grantWrite s rq 0x3600 5 3 p false (leBytes 8 handle) grant
    (fun t => if 2 ^ 64 ≤ handle then some .malformed
      else match t.named p handle with
        | none => some .inputRange
        | some r => if r.readable ∧ r.rcd.tier = 0 then none else some .inputRange)
    (fun t use => acceptCommit t rq 0x3600 5 (writeOp false grant) []
      ((match t.named p handle with
        | none => []
        | some r => destroyChanges (hSlot handle) r.rcd) ++ use))

/-- TIER0_DESTROY (R212). -/
def execTier0Destroy (rq : Req) (handle : Nat) (grant : Bytes) (s : State) : Host.Outcome State Fault Refusal :=
  .next (tier0Destroy rq handle grant s)

end Sys2Proof.Machine
end

