-- ==== Sys2Proof/Machine/Reset.lean ====
section
/-! DEFINITION. Reset, power and start-up: what each reset clears, the stop points, power failure, STANDBY and block resets
(R140 to R159, R438 to R442, R481 to R511). -/

namespace Sys2Proof.Machine

/-! ### What a main reset clears -/

/-- The last cycle whose changes are durable (R494, R544). -/
def Commit.durableCycle (c : Commit) : Nat := c.cycle - c.cycles.length - (c.pages.filter (fun p => p.cycle != 0)).length

/-- The commit stage after a main reset: what was not durable is gone (R494). -/
def Commit.afterReset (c : Commit) : Commit :=
  { commit0 with seq := c.durable, durable := c.durable, cycle := c.durableCycle, applied := c.durableCycle,
                 logs := c.base.logs, journal := c.journal, base := c.base }

/-- The key store after a main reset: the durable records with the state of their NAND copies, tables and key registers zero; a warm one
keeps the DRAM copies (R192, R193, R491). -/
def keysAfterReset (k : Keys) (b : Keys) (warm : Bool) : Keys :=
  let kept (slot : Nat) (r : KeyRec) : KeyRec :=
    let held := match tget k.recs slot with
      | none => r.nand
      | some q => q.dram && q.rcd.gen == r.rcd.gen
    { r with dram := warm && held && !r.damaged }
  { b.stored with recs := tmap b.recs kept, useClock := 0, sweepMs := k.sweepMs, damagedCnt := k.damagedCnt }

/-- A partition after a main reset: its durable domain, on the function and with the ENABLE its entries give (R73, R74, R491). -/
def partAfterReset (b : Persist) (p : Nat) : Part :=
  let x := tgetD b.parts p (part0 p)
  let get (sub : Nat) : Nat := leNat ((tget b.store (odKey (0x2100 + p) sub)).getD (odDefault (0x2100 + p) sub))
  { part0 p with
    fn := get 1, dis := if get 2 = 1 then .enabled else .disabled,
    key := x.key, nonce := x.nonce, current := x.current, pendingS := x.pendingS, previous := x.previous, added := x.added,
    creation := x.creation, atc := x.atc, atcCap := x.atcCap }

/-- The partition table after a main reset. -/
def partsAfterReset (b : Persist) : Tab Part :=
  (List.range 256).foldl (fun t p =>
    let x := partAfterReset b p
    if x = part0 p then t else tset t p x) []

/-- Unit counters count since the last cold main reset (R327, R363). -/
def unitsAfterReset (u : Units) (warm : Bool) : Units :=
  let keepGen (g : Gen) : Gen := { gen0 with rekeys := g.rekeys, stalls := g.stalls }
  let base := { units0 with looper := { looper0 with blocks := u.looper.blocks, refused := u.looper.refused },
                            mismatch1 := u.mismatch1, mismatch2 := u.mismatch2 }
  if warm then
    { base with
      lanes := tmap u.lanes (fun _ l =>
        { lane0 with gen := keepGen l.gen, blocks := l.blocks, dummies := l.dummies, clears := (l.cleared l.pages.length).clears })
      hashes := tmap u.hashes (fun _ h => { hash0 with blocks := h.blocks })
      engines := tmap u.engines (fun _ e => { engine0 with commands := e.commands, mismatches := e.mismatches })
      plumes := tmap u.plumes (fun _ p => { plume0 with ops := p.ops, mismatches := p.mismatches }) }
  else base

/-- The log after a main reset: unflushed main-die records are lost, the Cocoon's that NAND does not hold wait to be sequenced again, those
it holds wait for their seals, and the sequence goes on after the reserved block (R322, R590, R591). -/
def logAfterReset (l : Recorder) : Recorder :=
  { l with mainBuf := [], early := [], sealResult := 0, next := l.reserved,
           cocoonBuf := l.cocoonBuf.map (fun r =>
             if l.nand.any (fun e => e.1.seq == r.seq) then r else { r with seq := 0, chain := zeros 8 }),
           everSeq := !l.nand.isEmpty,
           lastBytes := match l.nand.getLast? with
             | none => []
             | some e => e.1.bytes }

/-- The host link after a main reset: it trains again, and HIF_CTL is loaded from its entries at a cold one (R491, R511). -/
def linkAfterReset (s : State) (b : Persist) (warm : Bool) : Link :=
  let get (sub : Nat) : Bool := leNat ((tget b.store (odKey 0xA010 sub)).getD (odDefault 0xA010 sub)) != 0
  { link0 with
    perst := s.link.perst, perstSeenHigh := !s.link.perst,
    retrains := if warm then s.link.retrains else 0, trainedOnce := warm && s.link.trainedOnce, epoch := if warm then s.link.epoch else 0,
    coldOnPerst := if warm then s.link.coldOnPerst else get 1, warmOnLinkdown := if warm then s.link.warmOnLinkdown else get 2 }

/-- The tamper machinery after a main reset: flags, latch and DRS are kept; HALTED ends, and a start that finds the latch is LOCKED
(R427, R438, R439, R450, R491). -/
def Tamper.afterReset (t : Tamper) : Tamper :=
  { t with machine := if t.latch then .lock else if t.machine = .halt then .alert else t.machine, response := none, pendingMain := [], bootStop := 0,
           unlockAt := false, pathCut := false, loops := tmap t.loops (fun _ i => { i with mismatches := 0 }) }

/-- Seam, pair and arbiter after a main reset: links and sessions are gone; epochs, takeover and vault copies are kept (R491, R549,
R552, R555, R562). -/
def seamAfterReset (s : State) (warm : Bool) : Seam :=
  { seam0 with
    ports := if warm then tmap s.seam.ports (fun _ p => { port0 with retrains := p.retrains }) else [],
    unreachable := if warm then s.seam.unreachable else 0,
    sent := s.seam.sent, seen := s.seam.seen, offset := s.seam.offset, lastSync := s.seam.lastSync, timeSet := s.seam.timeSet }

/-- The pair machinery after a main reset. -/
def pairAfterReset (p : Pair) : Pair :=
  { pair0 with
    collarRx := p.collarRx, rxFree := p.rxFree, soloGap := p.soloGap, tokenEpoch := p.tokenEpoch, takeover := p.takeover, foreign := p.foreign,
    refs := p.refs, vaults := p.vaults }

/-- Quorum after a main reset: grants last, requests lapse, a load is abandoned (R191, R198, R203). -/
def quorumAfterReset (q : Quorum) (b : Persist) : Quorum :=
  { quorum0 with grants := b.grants, nextReq := q.nextReq, nextId := q.nextId, cards := q.cards,
                 load := if q.load.state = 1 then { load0 with state := 3, part := q.load.part } else q.load }

/-- The state a main reset leaves before the start (R491): everything else is at its reset value. -/
def clearMain (s : State) (warm : Bool) : State :=
  let b := s.commit.base
  { State.reset with
    opUs := s.opUs
    timeUs := s.timeUs
    free := s.free
    link := linkAfterReset s b warm
    commit := s.commit.afterReset
    keys := keysAfterReset s.keys b.keys warm
    parts := partsAfterReset b
    meas := { meas0 with manifest := b.meas.manifest, migration := b.meas.migration }
    quorum := quorumAfterReset s.quorum b
    units := unitsAfterReset s.units warm
    eic := { eic0 with latches := s.eic.latches, firstLatch := s.eic.firstLatch, wakeArmed := s.eic.wakeArmed, wdogResets := s.eic.wdogResets }
    tamper := s.tamper.afterReset
    life := { s.life with resetPend := false, trans := none, shut := false, parked := false, unsealed := false, attest := [],
                          dbgOpen := false, dbgLevel := 0, dbgScope := 0, dbgEnd := 0, dbgValid := false }
    power := { s.power with stopPoint := 0, pfail := false, released := 0, waiting := none, standbyReq := none, power := .run,
                            memKey := if warm then s.power.memKey else none }
    seam := seamAfterReset s warm
    pair := pairAfterReset s.pair
    od := { od0 with store := b.store, change := b.change, nextSess := s.od.nextSess }
    log := logAfterReset s.log
    tele := if warm then s.tele else tele0
    bus := s.bus
    pending := s.pending }

/-! ### Starting -/

/-- Whether an entry lies in an area that R453 keeps: 0x1000 or 0x8000. -/
def keptArea (k : Nat) : Bool := k / 0x100000 == 1 || k / 0x100000 == 8

/-- The erasures at the first start in STOCK, RETURN and SCRAP (R453). -/
def eraseFor (b : Persist) : Persist :=
  { b with keys := keys0, parts := [], store := tfilter b.store (fun k _ => keptArea k), change := tfilter b.change (fun k _ => keptArea k),
           grants := [], meas := { b.meas with manifest := none, migration := 0 }, logs := [] }

/-- The boot ROM completes every open journal slot (R461). -/
def completeSlot (s : State) (k : Nat) : State :=
  let target := intentTarget (s.otp (8 + 2 * k))
  let s1 := if drsZeroed target then zeroDrs s else s
  s1.modLife (fun l => { l with otp := burn (burnTo l.otp target) (9 + 2 * k) 0xFFFFFFFF })

/-- Record the void slots not recorded before (R460, R599). -/
def recordVoids (s : State) : State :=
  let v := (List.range 16).filter (fun k => s.slotCond k == 3 && !s.life.voids.contains k)
  v.foldl (fun t k => logMain (t.modLife (fun l => { l with voids := sins k l.voids })) 5 0x0900 0x0903 0xFF k []) s

/-- The Cocoon decodes and latches the state; a first start in STOCK, RETURN or SCRAP erases; INVALID raises LC_INVALID
(R453, R455). -/
def latchLife (s : State) : State :=
  let l := lifeOf s.life.otp
  let s1 := s.modLife (fun x => { x with latched := l })
  let s2 := if l ≠ s.life.latched ∧ drsZeroed l then s1.withBase eraseFor else s1
  if l = 0xFF then cocoonAlarm s2 156 .lock 0 else s2

/-- RST_CAUSE (R510). -/
def State.rstCause (s : State) : Nat :=
  s.power.kind * 2 ^ 28 + s.power.source * 2 ^ 16 + b2n s.power.orderly * 2 ^ 15 + b2n s.power.flushed * 2 ^ 14 + s.power.core * 2 ^ 12

/-- Hand the wake latches to the main die: WAKE_CAUSE, WAKE_SET and the pending bits (R414). -/
def handWake (s : State) : State :=
  let l := s.eic.latches
  let set := (l.map s.wakeAt).flatten.foldl (fun a i => sins i a) []
  l.foldl raise { s with eic := { s.eic with
    wakeCause := s.eic.firstLatch.getD 0xFFFF, wakeSet := set, latches := [], firstLatch := none } }

/-- Draw both challenges anew (R464, R476). -/
def newChallenges (s : State) : State :=
  let (c, t) := draw s 32
  let (d, u) := draw t 32
  u.modLife (fun l => { l with commChal := c, dbgChal := d })

/-- Draw a new non-zero 31-bit seed for every Mantle channel and enclosure loop (R420). -/
def newSeeds (s : State) : State :=
  (List.range 112).foldl (fun t k =>
    let (n, u) := freeNat t
    u.modTamper (fun x => { x with prbs := tset x.prbs k (1 + n % (2 ^ 31 - 1)) })) s

/-- The main die leaves reset: the start is counted, and RST_CAUSE takes its fields; a start that completed a transition counts as two, the
second a cold reset (R460, R491, R510). -/
def leaveReset (s : State) (again : Bool) (kind source : Nat) (orderly : Bool) (core : Nat) : State :=
  { s with
    service := .starting
    power := { s.power with mainOk := true, boots := s.power.boots + (if again then 2 else 1), kind := if again then 1 else kind,
                            source := if again then 0x09 else source, orderly := orderly && !again, core := if source = 8 then core else 0,
                            wasCold := again || kind != 2, lastSeq := s.commit.durable } }

/-- A start: the boot ROM's part, the latched state, RST_CAUSE and the record of the reset (R376, R455, R461, R491, R503, R510). -/
def startMain (s0 : State) (kind source : Nat) (orderly : Bool) (core : Nat) : State :=
  let s := finishOtp s0
  let open_ := (List.range 16).filter (fun k => s.slotCond k == 2)
  let s3 := recordVoids (latchLife (leaveReset (open_.foldl completeSlot s) (!open_.isEmpty) kind source orderly core))
  let s4 := logMain s3 3 0x0A00 0x0A01 0xFF 0 (leBytes 4 s3.rstCause ++ leBytes 6 s3.power.lastSeq)
  let s5 := open_.foldl (fun t k => logMain t 6 0x0900 0x0902 0xFF (intentTarget (s.otp (8 + 2 * k))) (leBytes 1 k)) s4
  let s6 := if s.quorum.load.state = 3 ∧ s.quorum.load.count ≠ 0 then componentRecord s5 2 0xFF 0xFF [] else s5
  newSeeds (newChallenges (handWake (s6.modLife (fun l => { l with sleeveDue := l.sleeve }))))

/-- The newest record of the NAND log (R491). -/
def newestRecord (l : Recorder) : Option LogRec :=
  l.nand.foldl (fun m e => match m with
    | none => some e.1
    | some r => if r.seq < e.1.seq then some e.1 else some r) none

/-- Operating time and power cycles as the newest NAND record holds them (R491); a record holds no boot counter (assumption 51). -/
def restoreCounts (s : State) : State :=
  let r := newestRecord s.log
  { s with
    opUs := match r with
      | none => 0
      | some r => r.timeUs
    power := { s.power with cycles := match r with
      | none => 0
      | some r => r.cycles } }

/-- What a Cocoon that lost its SRAM restores: the counts of the newest NAND record, and the sequence 4,096 above it; the time is not known
(R491, R532, R590). -/
def restoreCocoon (s : State) : State :=
  let (t, s1) := freeNat s
  let n := (match newestRecord s1.log with
    | none => 0
    | some r => r.seq) + 4096
  { restoreCounts s1 with
    timeUs := t % 2 ^ 64
    log := { s1.log with next := n, reserved := n }
    tamper := { s1.tamper with sram := true, recent := [] } }

/-- A loss of the battery-backed SRAM beyond STOCK is treated as BACKUP_LOST: its record first, flag 157, and the Cocoon's part of an
ERASE (R442). -/
def backupLost (s : State) : State :=
  let l := lifeOf s.life.otp
  if l = 0x44 ∨ l = 0x55 ∨ l = 0x66 then cocoonAlarm (logCocoon s 7 0x0800 0x0804 0xFF 0 []) 157 .erase 0 else s

/-- MAIN_POWER_GOOD: the power-cycle count rises and a cold main reset starts (R442, R483, R490). -/
def execMainPowerGood (sramOk : Bool) (s : State) : Host.Outcome State Fault Refusal :=
  .next (
    if s.power.power ≠ .off then s
    else
      let lost := !sramOk || !s.tamper.sram
      let s1 := if lost then backupLost (restoreCocoon (loseSram s)) else s
      let s2 := { s1 with power := { s1.power with cycles := (s1.power.cycles + 1) % 2 ^ 24 } }
      startMain (clearMain s2 false) (if lost then 4 else 1) (if lost then 0x0D else 0x01) false 0)

/-! ### Main resets -/

/-- Whether a warm main reset is performed as cold (R492). -/
def State.warmAsCold (s : State) : Bool := (s.power.wasCold && decide (s.power.stopPoint < 4)) || !s.power.dramValid

/-- A main reset takes effect: cold, warm, or warm performed as cold (R491, R492). -/
def mainReset (s : State) (p : PendingReset) (orderly : Bool) : State :=
  if p.kind = 2 ∧ !s.warmAsCold then startMain (clearMain s true) 2 p.source orderly p.core
  else
    let t := clearMain s false
    startMain { t with power := { t.power with dramValid := false } } (if p.kind = 2 then 3 else 1) p.source orderly p.core

/-- COLD_MAIN_RESET: an abrupt cold reset that was asked for takes effect (R490, R491, R494). -/
def execColdMainReset (s : State) : Host.Outcome State Fault Refusal :=
  .next (match s.power.waiting with
    | none => s
    | some p => if p.kind = 1 ∧ !p.orderly ∧ s.power.mainOk ∧ !s.power.pfail then mainReset s p false else s)

/-- WARM_MAIN_RESET: an abrupt warm reset, or the exit from STANDBY (R489 to R492, R494). -/
def execWarmMainReset (s : State) : Host.Outcome State Fault Refusal :=
  .next (match s.power.waiting with
    | none => s
    | some p =>
      if p.kind = 2 ∧ !p.orderly ∧ (s.power.mainOk ∨ s.power.power = .standby) ∧ !s.power.pfail then mainReset s p false else s)

/-- Every change that has reached its commit stage is durable. -/
def State.allDurable (s : State) : Bool := s.commit.queue.isEmpty && s.commit.cycles.isEmpty && s.commit.pages.isEmpty

/-- RST_STATUS.QUIESCED: every function has acknowledged and every change is durable (R493). -/
def State.quiesced (s : State) : Bool :=
  s.power.waiting.any (fun p => p.orderly) && !s.anyDisabling && s.allDurable

/-- The Cocoon's part of a Cocoon reset: its records are in NAND, then COCOON_RESET; the DRS, flags and latch are zeroed, and the SRAM is
a valid empty image (R491, R497). -/
def cocoonPart (s : State) : State :=
  let s1 := logMain (flushLog s false) 6 0x0800 0x0803 0xFF 0 s.tamper.flagBytes
  let s2 := restoreCounts (flushLog s1 false)
  { s2 with tamper := tamper0
            eic := { s2.eic with wdogResets := 0, latches := [], firstLatch := none }
            log := { s2.log with cocoonBuf := [] }
            seam := { s2.seam with timeSet := false }
            power := { s2.power with pfails := 0 } }.modLooper (fun l => { l with blocks := 0, refused := 0 })

/-- ORDERLY_RESET_EFFECT: RESET_DELAY_MS after quiescing, the reset takes effect; the log has been flushed (R493, R497, R591). -/
def execOrderlyResetEffect (s : State) : Host.Outcome State Fault Refusal :=
  .next (match s.power.waiting with
    | none => s
    | some p =>
      if !s.quiesced || s.power.pfail then s
      else
        let s1 := if s.logOpen then flushLog s false else s
        if p.kind = 4 then startMain (clearMain (cocoonPart s1) false) 4 p.source true 0 else mainReset s1 p true)

/-! ### Stop points -/

/-- Extend a measurement register (R143). -/
def extendMr (mr d : Bytes) : Bytes := Sha.sha384 (mr ++ d)

/-- A request to extend a register: taken while the port is open, else refused and recorded (R143, R144). -/
def extendRequest (s : State) (k : Nat) (d : Bytes) : State :=
  if s.meas.portOpen then { s with meas := { s.meas with mr := s.meas.mr.set k (extendMr (s.mr k) d) } }
  else logMain s 4 0x0300 0x0303 0xFF k []

/-- The requests of start-up, in its order: registers and the digests that extend them (R143). -/
def State.startExtends (s : State) : List (Nat × Bytes) :=
  let img (k : Nat) : Bytes := (List.range 48).map (Config.imageByte k)
  [(0, img 0), (0, img 1), (1, img 2), (2, img 3), (3, img 4), (4, img 5), (5, s.odGet 0x3000 9), (6, s.odGet 0x3000 10), (7, s.odGet 0x3000 11)]

/-- Start-up extends every register (R143). -/
def extendAll (s : State) : State := s.startExtends.foldl (fun t e => extendRequest t e.1 e.2) s

/-- Time is synchronised at a start where it has been set, unless the drift bound since the last SYNC exceeds 50 ms (R532, R534). -/
def startTime (s : State) : State :=
  let b := s.seam.offset.natAbs + 20 * (s.opUs - s.seam.lastSync) / 1000000
  if s.seam.timeSet ∧ (!s.clustered ∨ b ≤ 50000) then
    raise { s with seam := { s.seam with unsynced := false, bound := if s.clustered then b else 0 } } 1036
  else s

/-- What stop point 1 begins: the registers are extended, held records sequenced, the lands released, the ports train. -/
@[noinline] def beginFirmware (s : State) : State :=
  let t := extendAll s
  let s1 := { t with power := { t.power with released := 0x33 } }
  let s2 := trainPorts (startTime (reachStop (sequenceHeld s1) 1))
  { s2 with log := { s2.log with copyOwed := false } }

/-- With ENTROPY_READY a start goes on to stop point 2. -/
@[noinline] def reachWithEntropy (s : State) : State := if s.booting ∧ s.entropy.ready then reachStop s 2 else s

/-- STOP_POINT_1: the firmware runs, every register is extended, held records are sequenced, and the lands are released (R143, R438,
R501, R503, R514, R590). With ENTROPY_READY this is stop point 2 as well. -/
def execStopPoint1 (s : State) : Host.Outcome State Fault Refusal :=
  .next (
    if !s.power.mainOk || !s.booting || s.power.stopPoint != 0 || s.units.looper.nandKey.isNone || s.units.looper.queue.contains 2 then s
    else reachWithEntropy (beginFirmware s))

/-- The seal that opens a partition: 0 CURRENT, 1 PENDING, 2 PREVIOUS, with the storage key (R157). -/
def State.opener (s : State) (kd : Bytes) (p : Nat) : Option (Nat × Bytes × Bytes) :=
  let x := s.part p
  let pmk := pmkOf kd p x.nonce (s.mask p) s.meas.mr s.life.latched
  [(0, x.current), (1, x.pendingS), (2, x.previous)].findSome? (fun e => match e.2 with
    | none => none
    | some w => (aesKwUnwrap pmk w).map (fun psk => (e.1, psk, pmk)))

/-- The seals of a partition after the one that opened it (R157). -/
def Part.opened (x : Part) (which : Nat) : Part :=
  match which with
  | 0 => { x with key := .active }
  | 1 => { x with key := .active, current := x.pendingS, pendingS := none, previous := x.current }
  | _ => { x with key := .active, current := x.previous, previous := none }

/-- Change a partition in the durable state and in the live one. -/
def State.modBoth (s : State) (p : Nat) (f : Part → Part) : State :=
  s.withBase (fun b => { b with parts := tmod b.parts p (part0 p) f })

/-- Open one partition at start-up, or mark it SEAL_FAILED (R148, R157, R395, R531, R599). -/
def openPart (s : State) (kd : Bytes) (p : Nat) : State :=
  let x := s.part p
  if x.key ≠ .active ∧ x.key ≠ .sealFailed then s
  else match (if s.compatible then s.opener kd p else none) with
    | some (w, psk, pmk) =>
      (s.modBoth p (fun y => y.opened w)).modPart p (fun y => { y with psk := some psk, pmk := some pmk, recKey := some (recKeyOf psk) })
    | none => raise (logMain (s.modBoth p (fun y => { y with key := .sealFailed })) 5 0x0300 0x0302 p 0 []) 1037

/-- MIGRATION_STATE after the partitions have been opened (R159, R599). -/
def settleMigration (s : State) (pend prev : Bool) : State :=
  let m := if pend then 2 else if prev then 3 else s.meas.migration
  if m = s.meas.migration then s
  else raise (logMain (s.withBase (fun b => { b with meas := { b.meas with migration := m } })) 3 0x0300 0x0306 0xFF m
    (match s.meas.manifest with
      | none => zeros 4
      | some b => slice b 4 4)) 1038

/-- Changes that are committed and durable at once: the journal is NAND's own at start-up. -/
def commitDurable (s : State) (l : List Change) : State :=
  let (s1, items) := commitOne (s, []) ⟨[], l, 0, none⟩
  items.foldl durableItem s1

/-- At the first start in SERVICE, partition 0 is created without a grant (R150, R465). -/
def createPart0 (s : State) : State :=
  if s.life.latched = 0x44 ∧ (s.part 0).key = .empty ∧ s.keys.kd.isSome then
    let (nonce, s1) := drawSecret s 0 32
    let (psk, s2) := drawSecret s1 0 32
    commitDurable s2 (createChanges s2 0 nonce psk)
  else s

/-- KEY_STORE_LOADED: the extend port closes, the store is in DRAM, and every partition is opened by its first seal that unwraps; KD is
cleared (R144, R145, R157, R159, R192, R438, R531). -/
def execKeyStoreLoaded (s : State) : Host.Outcome State Fault Refusal :=
  .next (match s.keys.kd with
    | none => s
    | some kd =>
      if !s.booting || s.power.stopPoint != 3 then s
      else
        let s1 := { s with
          meas := { s.meas with portOpen := false }
          power := { s.power with dramValid := true }
          keys := { s.keys with recs := tmap s.keys.recs (fun _ r => { r with dram := r.nand }) } }
        let s2 := quarantineAs s1 (if s1.compatible then s1.seam.quarantine else 3)
        let s3 := createPart0 s2
        let used := (List.range 256).filterMap (fun p => if (s3.part p).psk.isSome ∨ !s3.compatible then none else (s3.opener kd p).map (·.1))
        let s4 := (List.range 256).foldl (fun t p => if (t.part p).psk.isSome then t else openPart t kd p) s3
        let s5 := settleMigration s4 (used.contains 1) (used.contains 2)
        reachStop { s5 with keys := { s5.keys with kd := none } } 4)

/-- SERVICE_READY: stop point 5; a member of a pair stands by (R438, R503, R562). -/
def execServiceReady (s : State) : Host.Outcome State Fault Refusal :=
  .next (
    if !s.booting || s.power.stopPoint != 4 || !s.entropy.ready then s
    else
      let t := reachStop s 5
      if t.booting then
        let u := { t with service := .ready }
        noteService s { u with pair := { u.pair with role := u.idleRole } }
      else t)

/-! ### Power failure -/

/-- Started Hawkmoth and Plume operations are aborted, to complete with ABORTED (R505). -/
def abortEngines (s : State) : State :=
  s.adm.slots.foldl (fun t e => match e.2.unit with
    | none => t
    | some u => if u.1.zeroes ∧ e.2.cut.isNone then t.modSlot e.1 (fun x => { x with cut := some .aborted }) else t) s

/-- PFAIL: admission stops, operations are aborted, and the open cycle or page is closed; a pending reset is cancelled (R484, R495,
R505, R508). -/
def execPfail (s : State) : Host.Outcome State Fault Refusal :=
  .next (
    if s.power.pfail ∨ (!s.power.mainOk ∧ s.power.power ≠ .standby) then s
    else
      let n := min 0xFFFFFFFF (s.power.pfails + 1)
      let s1 := { s with power := { s.power with pfail := true, flushed := false, pfails := n, waiting := none, standbyReq := none } }
      if s.power.power = .standby then s1
      else
        let s2 := abortEngines (raise s1 1030)
        if s2.power.stopPoint < 4 then s2
        else if s2.paired then (if s2.pair.role = 3 then closeCycle s2 false else s2)
        else if s2.commit.queue = [] then s2 else closePage s2)

/-- Program every closed page (R505). -/
def programAll (s : State) : State := s.commit.pages.foldl (fun t _ => programPage t) s

/-- The main die loses its power: OFF (R484, R486). The wake timer counts from here (R415). -/
def powerOff (s : State) : State :=
  let t := clearMain s false
  { t with service := .starting
           life := { t.life with prog := if t.power.aux then t.life.prog else [] }
           power := { t.power with mainOk := false, power := .off, dramValid := false }
           eic := { t.eic with wakeArmed := true } }

/-- PFAIL_FLUSH_END: the log's first copy and the journal tail are programmed, unless an ERASE stopped the flush; main power-good
deasserts (R436, R484, R505, R591, R599). -/
def execPfailFlushEnd (us : Nat) (s : State) : Host.Outcome State Fault Refusal :=
  .next (
    if !s.power.pfail then s
    else if s.power.power = .standby ∨ s.tamper.response = some .erase then powerOff s
    else
      let s1 := programAll (if s.logOpen then flushLog s true else s)
      let s2 := logCocoon { s1 with power := { s1.power with flushed := true, flushUs := us % 2 ^ 32 } } 4 0x0A00 0x0A02 0xFF 0 (leBytes 4 us)
      powerOff s2)

/-- AUXILIARY_POWER_RETURN: with main power absent the entropy block restarts from warm-up; one that has failed stays stopped until the next
main reset (R365, R390, R482). -/
def execAuxiliaryPowerReturn (s : State) : Host.Outcome State Fault Refusal :=
  .next (
    if s.power.aux then s
    else
      let s1 := { s with power := { s.power with aux := true } }
      if s.power.power ≠ .off then s1
      else { s1 with entropy := if s.entropy.st = 4 then { s.entropy with powered := true } else { entropy0 with powered := true, st := 1 } })

/-- AUXILIARY_POWER_LOSS: with main power absent the Cocoon moves to the Sleeve, the entropy block is not powered, and OTP programming stops
where it is (R365, R458, R482). -/
def execAuxiliaryPowerLoss (s : State) : Host.Outcome State Fault Refusal :=
  .next (
    let s1 := { s with power := { s.power with aux := false } }
    if s.power.power ≠ .off then s1
    else { s1 with entropy := if s.entropy.st = 4 then { s.entropy with powered := false } else entropy0,
                   life := { s1.life with prog := [] } })

/-! ### STANDBY -/

/-- POWER_REQUEST: a Security Officer asks for STANDBY (R488). -/
def powerRequest (rq : Req) (v : Nat) (s : State) : State :=
  roleWrite s rq 0xA000 2 1 false
    (fun t => if 256 ≤ v then some .malformed
      else if v ≠ 2 then some .inputRange
      else if t.service = .starting ∨ t.life.trans.isSome ∨ t.life.resetPend ∨ t.power.standbyReq.isSome ∨ t.power.waiting.isSome
          ∨ t.tamper.flags.contains 152 then some .notActive
      else none)
    (fun t =>
      let t1 := releaseCollar { t with power := { t.power with standbyReq := some rq } }
      noteService t (noteFunctions t (disableAll t1 .flr)))

/-- POWER_REQUEST (R488). -/
def execPowerRequest (rq : Req) (v : Nat) (s : State) : Host.Outcome State Fault Refusal := .next (powerRequest rq v s)

/-- A STANDBY request whose preparation has ended: the event buffer is flushed, the reply is sent, and the main die is off; DRAM is in
self-refresh (R488). -/
def continueStandby (s : State) : State :=
  match s.power.standbyReq with
  | none => s
  | some rq =>
    if s.anyDisabling || !s.allDurable || s.power.pfail then s
    else
      let s1 := acceptNow (if s.logOpen then flushLog s false else s) rq 0xA000 2 0x20 []
      let t := clearMain s1 true
      { t with service := .starting
               power := { t.power with mainOk := false, power := .standby }
               eic := { t.eic with wakeArmed := true } }

/-! ### Reset requests -/

/-- The kind and serial of a RESET_REQUEST (R511). -/
def resetCheck (kind : Nat) (ser : Bytes) : Option Status :=
  if ser.length ≠ 12 then some .malformed else if (kind ≠ 1 ∧ kind ≠ 2) ∨ ser ≠ serial then some .inputRange else none

/-- RESET_REQUEST: served in BOOT_STOPPED too; the reply comes before the preamble (R438, R490, R493, R511). -/
def resetRequest (rq : Req) (kind : Nat) (ser : Bytes) (s : State) : State :=
  serveWrite s rq 0xA001 1 0x20 true (fun t => t.holds rq 1 false) (fun t => match resetCheck kind ser with
    | some st => refuse t rq 0xA001 1 0x20 st
    | none => orderlyReset (acceptNow t rq 0xA001 1 0x20 []) kind 0x04)

/-- RESET_REQUEST (R493). -/
def execResetRequest (rq : Req) (kind : Nat) (serial : Bytes) (s : State) : Host.Outcome State Fault Refusal :=
  .next (resetRequest rq kind serial s)

/-- SEAM_RESET_COMMAND: a grant of class CLUSTER_CONFIG over exactly this value, and a grant key; KIND must be 1 (R496, R537). -/
def seamReset (rq : Req) (v grant : Bytes) (s : State) : State :=
  serveWrite s rq 0xA001 1 0x21 true (fun t => rq.transport == 2 || t.anyRole rq || t.factory) (fun t =>
    if t.keys.grantKey.isNone then refuse t rq 0xA001 1 0x21 .notActive
    else match t.grantFor 10 0 v grant false with
      | none => refuse t rq 0xA001 1 0x21 .keyUsage
      | some g =>
        if g.digest ≠ Sha.sha256 v then refuse t rq 0xA001 1 0x21 .keyUsage
        else if v.length ≠ 16 ∨ byteAt v 0 ≠ 1 ∨ !allZero (slice v 1 3) ∨ slice v 4 12 ≠ serial then refuse t rq 0xA001 1 0x21 .inputRange
        else orderlyReset (commitQuietly (acceptNow t rq 0xA001 1 0x21 []) [.grantUse g.id g.own]) 1 0x05)

/-- SEAM_RESET_COMMAND (R496). -/
def execSeamResetCommand (rq : Req) (value grant : Bytes) (s : State) : Host.Outcome State Fault Refusal :=
  .next (seamReset rq value grant s)

/-- COCOON_RESET (R443, R497). -/
def cocoonResetWrite (rq : Req) (v : Nat) (passes : Bool) (grant : Bytes) (s : State) : State :=
  grantWrite s rq 0xA001 3 11 0 false (leBytes 1 v) grant
    (fun t => match boolCheck v with
      | some st => some st
      | none => if v = 1 ∧ t.unlockBarred passes then some .inputRange else none)
    (fun t use =>
      let t1 := acceptUse t rq 0xA001 3 (writeOp false grant) [] use
      if v = 1 then orderlyReset t1 4 0x0C else t1)

/-- COCOON_RESET (R497). -/
def execCocoonReset (rq : Req) (v : Nat) (passes : Bool) (grant : Bytes) (s : State) : Host.Outcome State Fault Refusal :=
  .next (cocoonResetWrite rq v passes grant s)

/-! ### Block reset -/

/-- Units of a class (R510). -/
def blockCount (cls : Nat) : Nat :=
  match cls with
  | 1 => 8
  | 2 => 16
  | 3 => 48
  | 4 => 16
  | _ => 0

/-- Whether a unit is idle for a block reset (R498). -/
def State.unitIdle (s : State) (cls u : Nat) : Bool :=
  match cls with
  | 1 => !(s.lane u).inReset && (s.lane u).queue.isEmpty && (s.lane u).pages.all (fun p => p.2.users == 0)
  | 2 => !(s.hash u).inReset && (s.hash u).queue.isEmpty && !(u == 0 && (s.keys.kd.isSome || !s.keys.kdJobs.isEmpty))
  | 3 => (s.engine u).st == .idle && (s.engine u).queue.isEmpty && (s.engine u).reservedBy.isNone
  | _ => (s.plume u).st == .idle && (s.plume u).queue.isEmpty

/-- An idle unit enters reset with all its state zero; a lane asks for a new generator key (R374, R499). -/
def enterBlock (s : State) (cls u : Nat) : State :=
  match cls with
  | 1 => askOnce (s.modLane u (fun l => { l.cleared l.pages.length with
      pages := [], inReset := true, gen := { gen0 with rekeys := l.gen.rekeys, stalls := l.gen.stalls } }))
      3 (100000 + u)
  | 2 => s.modHash u (fun h => { h with inReset := true, held := none })
  | 3 => s.modEngine u (fun e => { e.zeroed with st := .inReset, blind := [] })
  | _ => s.modPlume u (fun p => { p with st := .inReset, mem := none })

/-- Set RST_BLOCK. -/
def setBlock (s : State) (res cls u : Nat) (rq : Option Req) : State :=
  { s with units := { s.units with blockRes := res, blockCls := cls, blockUnit := u, blockReq := rq } }

/-- The record of a block reset (R499, R599). -/
def blockRecord (s : State) (u res : Nat) : State := logMain s 2 (0x0500 + u) 0x0502 0xFF res []

/-- BLOCK_RESET: a Security Officer, or the Partition Administrator of partition 0 (R498, R499, R510). -/
def blockReset (rq : Req) (cls u : Nat) (s : State) : State :=
  roleWrite s rq 0xA002 1 1 true (fun t => if t.units.blockReq.isSome then some .notActive else none) (fun t =>
    if blockCount cls ≤ u then refuse (setBlock t 5 (cls % 8) (u % 64) none) rq 0xA002 1 0x20 .inputRange
    else if t.unitIdle cls u then setBlock (enterBlock t cls u) 1 cls u (some rq)
    else refuse (blockRecord (setBlock t 3 cls u none) u 3) rq 0xA002 1 0x20 .notActive)

/-- BLOCK_RESET (R499). -/
def execBlockReset (rq : Req) (cls unit : Nat) (s : State) : Host.Outcome State Fault Refusal := .next (blockReset rq cls unit s)

/-- A unit leaves its block reset: IDLE on a pass, else OFFLINE; a lane or hash unit that fails stays withdrawn (R358, R395, R499). -/
def leaveBlock (s : State) (cls u : Nat) (pass : Bool) : State :=
  match cls with
  | 1 => s.modLane u (fun l => { l with inReset := !pass })
  | 2 => s.modHash u (fun h => { h with inReset := !pass })
  | 3 => if pass then goIdle s (.hawkmoth, u) else goOffline s (.hawkmoth, u)
  | _ => if pass then goIdle s (.plume, u) else goOffline s (.plume, u)

/-- BLOCK_RESET_DONE: the unit's self-test ends, and the request is answered (R499). -/
def execBlockResetDone (pass : Bool) (s : State) : Host.Outcome State Fault Refusal :=
  .next (match s.units.blockReq with
    | none => s
    | some rq =>
      let c := s.units.blockCls
      let u := s.units.blockUnit
      let r := if pass then 2 else 4
      let t := blockRecord (leaveBlock (setBlock s r c u none) c u pass) u r
      if pass then acceptNow t rq 0xA002 1 0x20 [] else refuse t rq 0xA002 1 0x20 .notActive)

end Sys2Proof.Machine
end

