-- ==== Sys2Proof/Machine/Seam.lean ====
section
/-! DEFINITION. The Seam cluster: links and frames, cluster time, the acting master, and the configuration every member holds (R512 to
R536). -/

namespace Sys2Proof.Machine

/-- Change the Seam state. -/
@[noinline] def State.modSeam (s : State) (f : Seam → Seam) : State := { s with seam := f s.seam }

/-! ### Links -/

/-- Whether the peer of the pair link is the other member of this pair (R538). -/
def State.isPartner (s : State) (pair member : Nat) (peerSerial peerPartner : Bytes) : Bool :=
  s.paired && s.odNat 0x7100 1 == pair && decide (member ≤ 1) && member != s.odNat 0x7100 2
    && fit 12 peerSerial == fit 12 (s.odGet 0x7100 3) && fit 12 peerPartner == serial

/-- How many steps away a peer stands in a port's direction: 1, 2 or 3 (R517). -/
def State.peerSteps (s : State) (port pos : Nat) : Option Nat := [1, 2, 3].find? (fun n => s.stepAway port n == pos)

/-- A link key: the KDF over both shared secrets of the hybrid exchange, which are free values here, under the two serials, this
module's first (R519; DESIGN CHOICE, assumption 66). -/
def linkKey (s : State) (peer : Bytes) : Bytes × State :=
  let (z, t) := draw s 80
  (kdfHmac z (ascii "NLM-SEAM") (serial ++ fit 12 peer) 256, t)

/-- A link comes UP: unwrapped, keyed, with the receiver's whole buffers as credit (R516, R519 to R522). -/
def linkUp (s : State) (port pos steps : Nat) (peer : Bytes) : State :=
  let (k, t) := linkKey s peer
  t.modPort port (fun p => { port0 with
    st := 3, peer := fit 12 peer, neighbour := pos, bypassed := steps - 1, retrains := p.retrains, wrapped := false, key := some k,
    credits := [(1, 8), (2, 16), (3, 256), (4, 256), (5, 256)] })

/-- Quarantine with reason EPOCH, to pull from a neighbour (R527). -/
def startPull (s : State) (port : Nat) : State := quarantineAs (s.modSeam (fun m => { m with pulling := some port })) 1

/-- SEAM_LINK_UP: a port behind a closed bypass trains nothing, otherwise what the peer showed decides the port's state;
neighbours then tell each other their epochs, and a module with EPOCH 0 pulls (R514, R517, R519, R527, R538). -/
def execSeamLinkUp (port peerPosition peerPair peerMember : Nat) (peerCluster peerSerial peerPartner : Bytes) (chainsOk inService : Bool)
    (s : State) : Host.Outcome State Fault Refusal :=
  let st := (s.port port).st
  .next (
    if 5 ≤ port ∨ st = 0 ∨ st = 3 ∨ (port ≠ 4 ∧ s.bypassClosed port) then s
    else if !chainsOk || !inService then s.modPort port (fun p => { p with st := 6 })
    else if port = 4 then
      if s.isPartner peerPair peerMember peerSerial peerPartner then linkUp s 4 peerPosition 1 peerSerial else s.modPort 4 (fun p => { p with st := 4 })
    else if peerCluster ≠ s.odGet 0x7000 1 then s.modPort port (fun p => { p with st := 5 })
    else match s.peerSteps port peerPosition with
      | none => s.modPort port (fun p => { p with st := 4 })
      | some n =>
        let t := linkUp s port peerPosition n peerSerial
        if t.clustered then
          let u := sendLink t port 4 (configMessage none t.epoch t.digest)
          if u.epoch = 0 then startPull u port else u
        else t)

/-- SEAM_LINK_DOWN (R522). -/
def execSeamLinkDown (port : Nat) (s : State) : Host.Outcome State Fault Refusal := .next (linkLost s port)

/-- SEAM_FRAME_REFUSED: everything from the refused LINK_SEQ is sent again; eight resends that fail in a row take the link down
(R522). -/
def execSeamFrameRefused (port linkSeq : Nat) (s : State) : Host.Outcome State Fault Refusal :=
  .next (
    if !s.portUp port then s
    else if 8 ≤ (s.port port).fails then linkLost s port
    else
      let again := (s.port port).replay.filter (fun f => decide (linkSeq ≤ f.linkSeq))
      { s.modPort port (fun p => { p with fails := p.fails + 1 }) with bus := { s.bus with frames := s.bus.frames ++ again } })

/-- Count a frame as received in order on a link (R520). -/
def received (s : State) (port : Nat) : State := s.modPort port (fun p => { p with linkAck := (p.linkAck + 1) % 2 ^ 32, frames := p.frames + 1 })

/-- STAMP of a relayed TIME frame: its residence time and the link's measured delay are added (R533). -/
def relayStamp (s : State) (inPort cls stamp : Nat) : Nat × State :=
  if cls = 1 then
    let (r, t) := freeNat s
    ((stamp + (s.port inPort).delay + r) % 2 ^ 64, t)
  else (stamp, s)

/-- SEAM_FRAME_RELAY: a frame for another position goes on by its route, the first copy of a broadcast on every other port;
reserved classes, and frames whose HOPS reach 0, are dropped (R518, R520, R521, R523). Configuration broadcasts are forwarded as
R526 has it. -/
def execSeamFrameRelay (inPort dest src cls hops flowSeq stamp : Nat) (payload : Bytes) (s : State) : Host.Outcome State Fault Refusal :=
  .next (
    if 4 ≤ inPort || !s.portUp inPort then s
    else if 6 ≤ cls then received s inPort
    else if hops ≤ 1 then (received s inPort).modSeam (fun m => { m with unreachable := min 0xFFFF (m.unreachable + 1) })
    else
      let (st, s1) := relayStamp (received s inPort) inPort cls stamp
      let f : Frame := ⟨0, dest, src, cls, hops - 1, 0, 0, flowSeq, st, payload⟩
      if 0x8000 ≤ dest then
        if cls = 4 ∨ src = s.position ∨ flowSeq ≤ tgetD s.seam.seen (src * 16 + cls) 0 then s1
        else
          let s2 := s1.modSeam (fun m => { m with seen := tset m.seen (src * 16 + cls) flowSeq })
          (s2.upPorts.filter (· != inPort)).foldl (fun t k => sendOn t k f) s2
      else if dest = s.position then s1
      else match s1.routePort dest with
        | none => s1.modSeam (fun m => { m with unreachable := min 0xFFFF (m.unreachable + 1) })
        | some k => sendOn s1 k f)

/-- KEEP_ALIVE_SEND (R521). -/
def execKeepAliveSend (port : Nat) (s : State) : Host.Outcome State Fault Refusal :=
  .next (if s.portUp port then sendLink s port 0 [] else s)

/-- SEAM_RESEND_TIMEOUT: the MGMT, CONFIG and VAULT frames sent through a port and not acknowledged end to end go out again
(R522). -/
def execSeamResendTimeout (port : Nat) (s : State) : Host.Outcome State Fault Refusal :=
  .next ((s.seam.unacked.filter (fun f => f.port == port)).foldl (fun t f => match t.routePort f.dest with
    | none => t
    | some k => sendOn t k f) s)

/-- SEAM_LINK_REKEY (R519). -/
def execSeamLinkRekey (port : Nat) (s : State) : Host.Outcome State Fault Refusal :=
  .next (
    if s.portUp port then
      let (k, t) := linkKey s (s.port port).peer
      t.modPort port (fun p => { p with key := some k, frames := 0 })
    else s)

/-- SEAM_LINK_FRAME_RECEIVE: what the peer acknowledges leaves the replay buffer, its credit returns, and a wrap notice is taken;
a frame for the neighbour itself is then acknowledged end to end (R516, R521, R522). -/
def execSeamLinkFrameReceive (port linkAck : Nat) (credits : List Nat) (wrap : Bool) (s : State) : Host.Outcome State Fault Refusal :=
  .next (
    if !s.portUp port then s
    else
      let p := s.port port
      let gone := p.replay.filter (fun f => decide (f.linkSeq ≤ linkAck))
      let done (f : Frame) : Bool := gone.any (fun g => g.cls == f.cls && g.flowSeq == f.flowSeq && g.dest == f.dest && g.src == f.src)
      let more (k : Nat) : Nat := min (classCells k) (tgetD p.credits k 0 + credits.getD (k - 1) 0)
      let s1 := (received s port).modPort port (fun q => { q with
        replay := q.replay.filter (fun f => decide (linkAck < f.linkSeq))
        fails := if gone.isEmpty then q.fails else 0
        credits := [(1, more 1), (2, more 2), (3, more 3), (4, more 4), (5, more 5)] })
      let s2 := s1.modSeam (fun m => { m with unacked := m.unacked.filter (fun f => !(f.dest == p.neighbour && done f)) })
      pumpAll (if wrap then received s2 port else s2) port)

/-- LINK_DELAY_MEASURE (R533). -/
def execLinkDelayMeasure (port delay : Nat) (s : State) : Host.Outcome State Fault Refusal :=
  .next (if s.portUp port then s.modPort port (fun p => { p with delay := delay }) else s)

/-! ### Cluster time -/

/-- The 64-bit two's complement of a number of microseconds. -/
def int64 (x : Int) : Bytes := leBytes 8 (x % (2 : Int) ^ 64).toNat

/-- TIME_UNSYNCED is set or cleared (R534, R599). -/
def setUnsynced (s : State) (v : Bool) : State :=
  if s.seam.unsynced = v then s
  else raise (logMain (s.modSeam (fun m => { m with unsynced := v })) 4 0x0B00 0x0B04 0xFF (b2n v) (int64 s.seam.offset)) 1036

/-- SYNC_BROADCAST: the acting master of a cluster sends its time (R533). -/
def execSyncBroadcast (s : State) : Host.Outcome State Fault Refusal :=
  .next (if s.clustered ∧ s.isMaster ∧ s.power.stopPoint ≠ 0 then broadcast s 1 s.timeUs [byteOf (b2n s.seam.unsynced)] else s)

/-- The offset of a SYNC frame: within 50 ms time is slewed toward the master, beyond it time is stepped (R534). -/
def applySync (s : State) (masterTime : Nat) (masterUnsynced : Bool) : State :=
  let off : Int := (masterTime : Int) - (s.timeUs : Int)
  let n := off.natAbs
  let band := n ≤ 1000 ∧ masterUnsynced = false
  let s1 := s.modSeam (fun m => { m with
    offset := off, bound := n, lastSync := s.opUs,
    slew := if n ≤ 50000 then off else 0,
    inBand := if band then some (m.inBand.getD s.opUs) else none })
  if 50000 < n then setUnsynced { s1 with timeUs := masterTime } true
  else if masterUnsynced then setUnsynced s1 true else s1

/-- SYNC_RECEIVE: a position whose SYNC arrives is heard again; the acting master's moves the time (R526, R533, R534). -/
def execSyncReceive (src masterTime : Nat) (masterUnsynced : Bool) (s : State) : Host.Outcome State Fault Refusal :=
  .next (
    if !s.clustered || src == s.position || s.power.stopPoint == 0 then s
    else
      let s1 := s.modSeam (fun m => { m with masterGone := sdel src m.masterGone })
      if s1.actingMaster = src then applySync s1 (masterTime % 2 ^ 64) masterUnsynced else s1)

/-- TIME_SYNC_CLEAR: the offset has stayed within 1 ms for 10 s (R534). -/
def execTimeSyncClear (s : State) : Host.Outcome State Fault Refusal :=
  .next (match s.seam.inBand with
    | none => s
    | some t =>
      if s.seam.unsynced ∧ t + 10000000 ≤ s.opUs then setUnsynced (s.modSeam (fun m => { m with timeSet := true })) false else s)

/-- DRIFT_BOUND_EXCEEDED: without SYNC the bound grows by 20 ppm, and above 50 ms TIME_UNSYNCED is set (R534). -/
def execDriftBoundExceeded (s : State) : Host.Outcome State Fault Refusal :=
  .next (
    if !s.clustered || s.isMaster || s.power.stopPoint == 0 then s
    else
      let b := s.seam.offset.natAbs + 20 * (s.opUs - s.seam.lastSync) / 1000000
      let s1 := s.modSeam (fun m => { m with bound := b })
      if 50000 < b then setUnsynced (s1.modSeam (fun m => { m with inBand := none })) true else s1)

/-- The master sets its time; one not set before is synchronised at that moment (R535). -/
def setMasterTime (s : State) (v : Nat) : State :=
  setUnsynced { s.modSeam (fun m => { m with timeSet := true, offset := 0, slew := 0, bound := 0, inBand := none }) with timeUs := v % 2 ^ 64 } false

/-- CLUSTER_TIME_WRITE (R535). -/
def clusterTimeWrite (rq : Req) (v : Nat) (grant : Bytes) (s : State) : State :=
  grantWrite s rq 0x7001 1 10 0 false (leBytes 8 v) grant
    (fun _ => if 2 ^ 64 ≤ v then some .malformed else none)
    (fun t use =>
      let t1 := acceptUse t rq 0x7001 1 (writeOp false grant) [] use
      if t1.isMaster then setMasterTime t1 v
      else sendTo t1 t1.actingMaster 4 (configMessage (some (0x7001, 1, leBytes 8 v)) 0 []))

/-- CLUSTER_TIME_WRITE (R535). -/
def execClusterTimeWrite (rq : Req) (v : Nat) (grant : Bytes) (s : State) : Host.Outcome State Fault Refusal :=
  .next (clusterTimeWrite rq v grant s)

/-- MASTER_ELECTION: the acting master has not been heard for 10 ms, and the next entry takes its place; a master whose time was
never set is TIME_UNSYNCED (R526, R532). -/
def execMasterElection (s : State) : Host.Outcome State Fault Refusal :=
  .next (
    if !s.clustered || s.isMaster || s.power.stopPoint == 0 then s
    else
      let s1 := s.modSeam (fun m => { m with masterGone := sins s.actingMaster m.masterGone, inBand := none })
      if s1.isMaster && !s1.seam.timeSet then setUnsynced s1 true else s1.modSeam (fun m => { m with slew := if s1.isMaster then 0 else m.slew }))

/-! ### Configuration -/

/-- GRID or MASTERS by a grant of class CLUSTER_CONFIG; the policies and the members have rows of their own (R524, R526, R563). -/
def clusterEntryWrite (rq : Req) (idx sub : Nat) (v grant : Bytes) (s : State) : State :=
  grantConfig s rq idx sub 10 v grant
    (fun _ => if idx ≠ 0x7000 ∨ (sub ≠ 3 ∧ sub ≠ 5) then some .keyUsage
      else if v.length ≠ (if sub = 3 then 2 else 8) then some .malformed
      else if sub = 3 ∧ 1024 ≤ leNat v then some .inputRange else none)

/-- A configuration write (R526). -/
def configEntryWrite (rq : Req) (idx sub : Nat) (v grant : Bytes) (s : State) : State :=
  if 0x3301 ≤ idx ∧ idx ≤ 0x330C ∧ v.length = (if sub = 3 then 2 else 1) then policyWrite rq (idx - 0x3300) sub (leNat v) grant s
  else if 0x3500 ≤ idx ∧ idx < 0x3540 then memberWrite rq (idx - 0x3500) sub v grant s
  else clusterEntryWrite rq idx sub v grant s

/-- CONFIG_WRITE (R526). -/
def execConfigWrite (rq : Req) (idx sub : Nat) (v grant : Bytes) (s : State) : Host.Outcome State Fault Refusal :=
  .next (configEntryWrite rq idx sub v grant s)

/-- The winner of a digest conflict leaves quarantine with EPOCH + 1 and no other change (R528). -/
def settleConflict (s : State) : State := stepEpoch (quarantineAs (s.modSeam (fun m => { m with conflict := false })) 0) none

/-- A manifest whose signatures verify, or any other entry (R530). -/
def entryTrusted (e : Nat × Nat × Bytes) : Bool := e.1 != 0x7000 || e.2.1 != 0x0B || casufSigned 0 e.2.2

/-- A write that another module forwards to the one that decides it (R526, R528, R535). -/
def forwardedWrite (s : State) (e : Nat × Nat × Bytes) : State :=
  if e.1 = 0x7000 ∧ e.2.1 = 0x0A then (if s.seam.quarantine = 2 ∧ e.2.2 = s.digest then settleConflict s else s)
  else if !s.isMaster then s
  else if e.1 = 0x7001 ∧ e.2.1 = 1 then setMasterTime s (leNat e.2.2)
  else if isConfig e.1 e.2.1 && s.seam.quarantine == 0 && entryTrusted e then stepEpoch s (some e) else s

/-- Answer the writers that wait for a broadcast change (R526). -/
def answerWriters (s : State) (e : Option (Nat × Nat × Bytes)) : State :=
  match e with
  | none => s
  | some (i, k, v) =>
    match s.od.cfgWait.find? (fun w => w.2.1 == i && w.2.2.1 == k && w.2.2.2.2 == v) with
    | none => s
    | some w => acceptNow { s with od := { s.od with cfgWait := s.od.cfgWait.erase w } } w.1 i k w.2.2.2.1 []

/-- The change that follows this module's epoch is applied; with the broadcast digest it is forwarded, without it the module
pulls (R526, R527). -/
def applyNext (s : State) (port : Nat) (c : CfgChange) : State :=
  let t := match c.entry with
    | none => s
    | some (i, k, v) => if isConfig i k then adopt s i k v else s
  let t1 := raise (adopt t 0x7000 6 (leBytes 8 c.epoch)) 1035
  if t1.digest = c.digest then
    let t2 := (t1.upPorts.filter (· != port)).foldl (fun u k => sendLink u k 4 (configMessage c.entry c.epoch c.digest)) t1
    checkVersion (answerWriters t2 c.entry)
  else startPull t1 port

/-- CONFIG_CHANGE_RECEIVE (R526 to R528, R530): epoch 0 stands for a forwarded write. -/
def execConfigChangeReceive (port : Nat) (c : CfgChange) (s : State) : Host.Outcome State Fault Refusal :=
  .next (
    if 4 ≤ port || !s.portUp port || !s.clustered then s
    else if c.epoch = 0 then (match c.entry with
      | none => s
      | some e => forwardedWrite s e)
    else if s.epoch < c.epoch then
      if c.epoch = s.epoch + 1 && s.seam.pulling.isNone && !s.seam.conflict then
        (if (match c.entry with
          | none => true
          | some e => entryTrusted e) then applyNext s port c else s)
      else startPull s port
    else if c.epoch < s.epoch then sendLink s port 4 (configMessage none s.epoch s.digest)
    else if c.digest = s.digest ∨ s.seam.pulling.isSome then s
    else quarantineAs (s.modSeam (fun m => { m with conflict := true })) 2)

/-- CONFIG_PULL (R527). -/
def execConfigPull (port : Nat) (s : State) : Host.Outcome State Fault Refusal :=
  .next (
    if s.seam.quarantine = 1 ∧ port < 4 ∧ s.portUp port then
      sendLink (s.modSeam (fun m => { m with pulling := some port })) port 4 (leBytes 8 s.epoch)
    else s)

/-- The entries of a pulled configuration in place of this module's own, with its epoch (R527). -/
def takeConfig (s : State) (epoch : Nat) (entries : List (Nat × Nat × Bytes)) : State :=
  let t := s.withBase (fun b =>
    let old := tset (tfilter b.store (fun k _ => !isConfig (k / 256) (k % 256))) (odKey 0x7000 6) (leBytes 8 epoch)
    let new := (entries.filter (fun e => isConfig e.1 e.2.1)).foldl (fun m e => tset m (odKey e.1 e.2.1) e.2.2) old
    { b with store := new })
  (List.range 64).foldl (fun u m =>
    if (List.range 4).all (fun k => s.odGet (0x3500 + m) (k + 1) == t.odGet (0x3500 + m) (k + 1)) then u else dropMemberSessions u m) t

/-- The entries that a pull after a digest conflict discards (R528, R599). -/
def discardedRecords (s t : State) : State :=
  configEntries.foldl (fun u e =>
    if s.odGet e.1 e.2 = t.odGet e.1 e.2 then u
    else logMain u 5 0x0B00 0x0B03 0xFF e.2 (leBytes 2 e.1 ++ leBytes 8 s.epoch)) t

/-- CONFIG_PULL_DONE: the module holds the neighbour's epoch and digest, and leaves quarantine; nothing is taken from a lower epoch
(R527, R528, R531). -/
def execConfigPullDone (epoch : Nat) (digest : Bytes) (entries : List (Nat × Nat × Bytes)) (s : State) : Host.Outcome State Fault Refusal :=
  .next (
    if s.seam.pulling.isNone ∨ epoch < s.epoch then s
    else
      let t := takeConfig s epoch entries
      if t.digest ≠ digest then s
      else
        let t1 := if s.seam.conflict then discardedRecords s t else t
        let t2 := raise (t1.modSeam (fun m => { m with pulling := none, conflict := false })) 1035
        checkVersion (quarantineAs t2 0))

/-- DECISION_WRITE: the module that holds the winning digest commits the next epoch; otherwise its neighbours learn of the decision
(R528). -/
def decisionWrite (rq : Req) (v grant : Bytes) (s : State) : State :=
  grantWrite s rq 0x7000 0x0A 10 0 false v grant
    (fun t => if v.length ≠ 48 then some .malformed else if t.seam.quarantine ≠ 2 then some .notActive else none)
    (fun t use =>
      let t1 := acceptUse t rq 0x7000 0x0A (writeOp false grant) [] use
      if v = t1.digest then settleConflict t1
      else t1.upPorts.foldl (fun u k => sendLink u k 4 (configMessage (some (0x7000, 0x0A, v)) 0 [])) t1)

/-- DECISION_WRITE (R528). -/
def execDecisionWrite (rq : Req) (v grant : Bytes) (s : State) : Host.Outcome State Fault Refusal :=
  .next (decisionWrite rq v grant s)

end Sys2Proof.Machine
end

