-- ==== Sys2Proof/Machine/Pair.lean ====
section
/-! DEFINITION. Pairs: heartbeats, the arbiter's tokens, the collar, commit cycles on the standby, SOLO, resynchronisation, switchover and
vaults (R538 to R561). -/

namespace Sys2Proof.Machine

/-- Change the pair state. -/
@[noinline] def State.modPair (s : State) (f : Pair → Pair) : State := { s with pair := f s.pair }

/-- MEMBER (R538). -/
def State.member (s : State) : Nat := s.odNat 0x7100 2

/-- PAIR_ID (R538). -/
def State.pairId (s : State) : Nat := s.odNat 0x7100 1

/-! ### Heartbeats -/

/-- CYCLE of a heartbeat: the last one closed as active, or applied as standby (R550). -/
def State.lastCycle (s : State) : Nat := if s.pair.role = 3 then s.commit.cycle else s.commit.applied

/-- FLAGS of a heartbeat (R550). -/
def State.hbFlags (s : State) : Nat :=
  b2n s.eligible + 2 * b2n s.pair.collarTx + 4 * b2n s.pair.collarRx + 8 * b2n s.pair.race + 16 * b2n s.commit.soloRequest
    + 32 * b2n (!s.portUp 4) + 64 * b2n (s.seam.quarantine != 0) + 128 * b2n s.pair.handover

/-- A heartbeat record (R550). -/
def heartbeatRecord (s : State) (key : Bytes) (seq : Nat) : Bytes :=
  let head := leBytes 4 s.pairId ++ leBytes 1 s.member ++ leBytes 1 s.pair.role ++ leBytes 1 s.hbFlags ++ zeros 1
    ++ leBytes 8 s.pair.tokenEpoch ++ leBytes 8 s.lastCycle ++ leBytes 8 s.commit.durable ++ leBytes 8 seq ++ leBytes 8 s.timeUs
  head ++ slice (Sha.hmac256 key head) 0 16

/-- HEARTBEAT_SEND: to the referee in an ARB frame or for the host agent to read, and to the partner over the pair link (R549, R550). -/
def execHeartbeatSend (s : State) : Host.Outcome State Fault Refusal :=
  .next (match s.pair.arbKey with
    | none => s
    | some k =>
      if !s.paired then s
      else
        let seq := s.pair.hbSeq + 1
        let b := heartbeatRecord s k seq
        let s1 := s.modPair (fun p => { p with hbSeq := seq, hbLast := b })
        let s2 := if s.odNat 0x7100 4 = 0xFFFF then s1 else sendTo s1 (s.odNat 0x7100 4 % 1024) 2 b
        if s2.portUp 4 then sendLink s2 4 2 b else s2)

/-! ### The referee (R552) -/

/-- The member a referee watches under a number. -/
def Referee.watch (r : Referee) (m : Nat) : Watched := if m = 0 then r.a else r.b

/-- Whether a member may be named ACTIVE: heard, ELIGIBLE, and its CYCLE not below the highest either has reported (R552). -/
def Referee.may (r : Referee) (m : Nat) : Bool :=
  let w := r.watch m
  match w.hb with
  | none => false
  | some h => w.alive && bit h.flags 0 && decide (max r.a.highest r.b.highest ≤ h.cycle)

/-- Whether ACTIVE may move away from the member that has it (R552). -/
def Referee.free (r : Referee) : Bool :=
  if r.active ≤ 1 then
    match (r.watch r.active).hb with
    | none => true
    | some h => !(r.watch r.active).alive || (h.role != 2 && h.role != 3)
  else true

/-- The ACTIVE a referee chooses. -/
def Referee.choose (r : Referee) : Nat :=
  if !r.free then r.active
  else if r.active ≤ 1 && r.may r.active then r.active
  else if r.may 0 then 0 else if r.may 1 then 1 else 0xFF

/-- SOLO: set at the active's request, cleared when the standby reports ELIGIBLE (R552). -/
def Referee.nextSolo (r : Referee) (active : Nat) : Bool :=
  let asks := match (r.watch active).hb with
    | none => false
    | some h => bit h.flags 4
  let other := match (r.watch (1 - active)).hb with
    | none => false
    | some h => (r.watch (1 - active)).alive && bit h.flags 0
  if 1 < active then r.solo else if asks then true else if other then false else r.solo

/-- Decide the token: a new epoch with every change of ACTIVE or SOLO, and after a report of RACE (R551, R552). -/
def Referee.next (r : Referee) (race : Bool) : Referee :=
  let a := r.choose
  let solo := r.nextSolo a
  { r with active := a, solo := solo, seq := r.seq + 1,
           epoch := if a ≠ r.active ∨ solo ≠ r.solo ∨ race then r.epoch + 1 else r.epoch }

/-- Send a pair its token record (R551): its MAC is under the session key of each member's own session, free here. -/
def sendToken (s : State) (pair : Nat) (r : Referee) : State :=
  let (mac, t) := draw s 16
  let b := leBytes 4 pair ++ leBytes 8 r.epoch ++ leBytes 1 r.active ++ leBytes 1 (b2n r.solo) ++ zeros 2 ++ leBytes 8 r.seq
    ++ leBytes 8 s.timeUs ++ mac
  { t with bus := { t.bus with records := t.bus.records ++ [(pair, b)] } }

/-- A referee's state of a pair. -/
def State.referee (s : State) (pair : Nat) : Referee := tgetD s.pair.refs pair referee0

/-- A referee decides anew and tells the pair. -/
def decideToken (s : State) (pair : Nat) (r : Referee) (race : Bool) : State :=
  let n := r.next race
  sendToken (s.modPair (fun p => { p with refs := tset p.refs pair n })) pair n

/-- A valid heartbeat of a member of another pair (R549, R552). -/
def refereeHears (s : State) (h : Heartbeat) : State :=
  let r := s.referee h.pairId
  let w := r.watch h.member
  let fresh := match w.hb with
    | none => true
    | some o => decide (o.seq < h.seq)
  if !fresh then s
  else
    let w1 : Watched := ⟨true, some h, max w.highest h.cycle⟩
    let r1 := if h.member = 0 then { r with a := w1 } else { r with b := w1 }
    decideToken s h.pairId r1 (bit h.flags 3 && decide (r.epoch ≤ h.tokenEpoch))

/-- HEARTBEAT_RECEIVE: as a referee, or from the partner (R549 to R552). -/
def execHeartbeatReceive (h : Heartbeat) (s : State) : Host.Outcome State Fault Refusal :=
  .next (
    if !h.macOk || decide (1 < h.member) || h.pairId == 0 || s.power.stopPoint == 0 then s
    else if h.pairId ≠ s.pairId then refereeHears s h
    else if h.member = s.member then s
    else s.modPair (fun p => { p with
      partner := some h, foreign := p.foreign || h.role == 3,
      resync := p.resync && !(p.role == 3 && bit h.flags 0) }))

/-- ARBITER_HEARTBEAT_TIMEOUT: no heartbeat from a member for 5 ms (R552). -/
def execArbiterHeartbeatTimeout (pair member : Nat) (s : State) : Host.Outcome State Fault Refusal :=
  .next (match tget s.pair.refs pair with
    | none => s
    | some r =>
      if 1 < member then s
      else if member = 0 then decideToken s pair { r with a := { r.a with alive := false } } false
      else decideToken s pair { r with b := { r.b with alive := false } } false)

/-! ### Arbiter session and token -/

/-- Draw a new ARB_CHALLENGE (R549). -/
def newArbChallenge (s : State) : State :=
  let (c, t) := draw s 32
  t.modPair (fun p => { p with arbChal := c })

/-- What the arbiter signs (R549). -/
def arbMessage (s : State) : Bytes := s.pair.arbChal ++ serial ++ leBytes 4 s.pairId

/-- An arbiter's answer: a host agent's signature verifies under ARBITER_KEY, a referee's as the event reports (R549). -/
def State.arbSigned (s : State) (signature : Bytes) (refereeOk : Bool) : Bool :=
  if s.odNat 0x7100 4 = 0xFFFF then Ec.verifyEnc Ec.p256 (s.odGet 0x7100 5) (Sha.sha256 (arbMessage s)) (slice signature 0 64) else refereeOk

/-- ARB_OPEN: the session opens; its ECDH secret is free (R549). -/
def openArbiter (s : State) (point signature : Bytes) (refereeOk : Bool) : State :=
  if s.paired && (Ec.decode Ec.p256 point).isSome && s.arbSigned signature refereeOk then
    let (z, t) := draw s 32
    newArbChallenge (t.modPair (fun p => { p with arbKey := some (kdfHmac z (ascii "NLM-ARB") [] 256) }))
  else s

/-- ARB_OPEN (R549). -/
def execArbOpen (point signature : Bytes) (refereeOk : Bool) (s : State) : Host.Outcome State Fault Refusal :=
  .next (if s.power.stopPoint = 0 then s else openArbiter s point signature refereeOk)

/-- The token is held, or no longer; PAIR_ROLE is raised with each change (R395, R551, R555). -/
def holdToken (s : State) (v : Bool) : State :=
  if s.pair.tokenHeld = v then s
  else
    let t := raise (s.modPair (fun p => { p with tokenHeld := v })) 1033
    if v then t else if t.pair.role = 2 ∨ t.pair.role = 3 then noteService s (dropCollar t) else t

/-- ARB_SESSION_TIMEOUT: 5 ms without a valid record; the session reopens (R549). -/
def execArbSessionTimeout (s : State) : Host.Outcome State Fault Refusal :=
  .next (
    if s.pair.arbKey.isNone then s
    else holdToken (newArbChallenge (s.modPair (fun p => { p with arbKey := none }))) false)

/-- The active enters SOLO: every unacknowledged cycle goes to the NAND journal, in order (R545). -/
def enterSolo (s : State) : State :=
  { s.modPair (fun p => { p with solo := true }) with
    commit := { s.commit with pages := s.commit.pages ++ s.commit.cycles, cycles := [], soloRequest := false } }

/-- SOLO as a valid token record has it, for the member it names and for the other (R545, R546). -/
def tokenSolo (s : State) (t : Token) : State :=
  if t.active = s.member then
    if t.solo && !s.pair.solo then enterSolo s else s.modPair (fun p => { p with solo := t.solo, soloGap := false })
  else s.modPair (fun p => { p with solo := t.solo, soloGap := t.solo && (p.soloGap || !p.solo) })

/-- A valid token record (R549, R551, R554). -/
def acceptToken (s : State) (t : Token) : State :=
  let s1 := tokenSolo s t
  let s2 := s1.modPair (fun p => { p with
    tokenSeq := t.seq, tokenEpoch := max p.tokenEpoch t.epoch, tokenActive := t.active, race := p.race && decide (t.epoch ≤ p.raceEpoch) })
  noteEligible s (holdToken s2 (t.active == s.member))

/-- TOKEN_RECORD_RECEIVE: valid when its MAC verifies, its PAIR_ID matches and its SEQUENCE is higher (R549, R551). -/
def tokenRecord (s : State) (t : Token) : State :=
  if s.paired && s.pair.arbKey.isSome && t.macOk && t.pairId == s.pairId && decide (s.pair.tokenSeq < t.seq) && decide (1 ≤ s.power.stopPoint)
  then acceptToken s t else s

/-- The 48 bytes of a token record, its MAC checked under the session key (R549, R551). -/
def tokenOf (key v : Bytes) : Token :=
  ⟨leAt v 0 4, leAt v 4 8, byteAt v 12, bit (byteAt v 13) 0, leAt v 16 8, leAt v 24 8,
    slice (Sha.hmac256 key (slice v 0 32)) 0 16 == slice v 32 16⟩

/-- TOKEN_RECORD_RECEIVE (R549, R551). -/
def execTokenRecordReceive (record : Bytes) (s : State) : Host.Outcome State Fault Refusal :=
  .next (match s.pair.arbKey with
    | none => s
    | some k => if record.length = 48 then tokenRecord s (tokenOf k record) else s)

/-- TOKEN_LOSS: no valid token record for 5 ms (R551, R555). -/
def execTokenLoss (s : State) : Host.Outcome State Fault Refusal := .next (holdToken s false)

/-! ### The collar -/

/-- COLLAR_RX has been deasserted for 10 µs (R553). -/
def State.collarClear (s : State) : Bool := !s.pair.collarRx && decide (s.pair.rxFree + 10 ≤ s.opUs)

/-- COLLAR_CLAIM (R553, R554). -/
def execCollarClaim (s : State) : Host.Outcome State Fault Refusal :=
  .next (
    if s.pair.role = 1 ∧ s.pair.tokenHeld ∧ s.eligible ∧ s.collarClear ∧ !s.pair.race ∧ s.power.waiting.isNone ∧ !s.power.pfail then
      s.modPair (fun p => { p with collarTx := true, role := 2, handover := false })
    else s)

/-- What a member does that opens admission after another has held the collar: it continues from the history, its reservation tables
are empty, and TAKEOVER is recorded (R544, R558). -/
def takeOver (s : State) : State :=
  let c := s.commit
  let s1 := { s with resv := [], atcResv := []
                     commit := { c with cycle := c.applied, cycles := [], pages := c.pages.filter (fun p => p.cycle == 0) } }
  let l := [s.pair.tokenEpoch, c.applied, c.seq + 1]
  logMain (s1.modPair (fun p => { p with takeover := l, foreign := false })) 5 0x0B00 0x0B01 0xFF 0
    (leBytes 8 s.pair.tokenEpoch ++ leBytes 8 c.applied ++ leBytes 6 (c.seq + 1))

/-- CLAIM_WINDOW_END: admission opens (R553, R555, R558). -/
def execClaimWindowEnd (s : State) : Host.Outcome State Fault Refusal :=
  .next (
    if s.pair.role = 2 ∧ s.collarClear then
      let s1 := if s.pair.foreign then takeOver s else s
      noteService s (raise (s1.modPair (fun p => { p with role := 3 })) 1033)
    else s)

/-- COLLAR_RX_ASSERT: a member that claims or holds the collar withdraws with RACE (R554). -/
def execCollarRxAssert (s : State) : Host.Outcome State Fault Refusal :=
  .next (
    if s.pair.collarRx then s
    else
      let s1 := s.modPair (fun p => { p with collarRx := true })
      if s.pair.role = 2 ∨ s.pair.role = 3 then
        let s2 := s1.modPair (fun p => { p with race := true, raceEpoch := p.tokenEpoch })
        noteService s (logMain (dropCollar s2) 5 0x0B00 0x0B05 0xFF 0 (leBytes 8 s.pair.tokenEpoch))
      else s1)

/-- COLLAR_RX_DEASSERT (R553). -/
def execCollarRxDeassert (s : State) : Host.Outcome State Fault Refusal :=
  .next (if s.pair.collarRx then s.modPair (fun p => { p with collarRx := false, rxFree := s.opUs }) else s)

/-! ### Commit cycles on the standby -/

/-- A replicated change on the standby: the other member's seal joins the set, and a grant issued by one member is foreign to the other
(R200, R539, R540, R542). -/
def applyForeign (seq : Nat) (s : State) (c : Change) : State :=
  match c with
  | .sealSet p which w => if w.isEmpty ∨ which = 3 then s else s.modPart p (fun x => { x with added := x.added.filter (· != w) ++ [w] })
  | .grant g => applyChange seq s (.grant { g with own := !g.own })
  | .grantUse id own => applyChange seq s (.grantUse id !own)
  | c => applyChange seq s c

/-- The replicated partitions that this member must seal anew under its own PMK: created, or bound by another mask (R145, R539). -/
def resealed (l : List (List Change)) : List Nat :=
  (l.flatten.filterMap (fun c => match c with
    | .partCreate p _ _ => some p
    | .od idx sub _ => if 0x3100 ≤ idx ∧ idx < 0x3200 ∧ sub = 2 then some (idx - 0x3100) else none
    | _ => none)).dedup

/-- Tasks that answer no request wait for KD (R145). -/
def queueTasks (s : State) (l : List KdTask) : State :=
  { s with keys := { s.keys with kdJobs := s.keys.kdJobs ++ l.map (fun t => ⟨none, [], t⟩) } }

/-- Apply the commits of a cycle, each under its COMMIT_SEQ. -/
def applyCommits (seq : Nat) (s : State) : List (List Change) → State
  | [] => s
  | l :: r => applyCommits (seq + 1) ((l.filter Change.replicated).foldl (applyForeign seq) s) r

/-- Apply replicated commits to the live and the durable state alike. -/
def applyBoth (s : State) (seq : Nat) (l : List (List Change)) : State :=
  let b := persistOf (applyCommits seq (withPersist s s.commit.base) l)
  let t := applyCommits seq s l
  queueTasks { t with commit := { t.commit with base := b } } ((resealed l).map KdTask.own)

/-- Progress of a resynchronisation in 1/1,000 (R563). -/
def State.resyncProgress (s : State) (cycle : Nat) : Nat :=
  match s.pair.partner with
  | none => 0
  | some h => if h.cycle = 0 then 0 else min 1000 (1000 * cycle / h.cycle)

/-- An accepted cycle is applied as one step and acknowledged; a live one ends a resynchronisation (R543, R547). -/
def applyCycle (s : State) (c : CycleMsg) : State :=
  let t := applyBoth s c.firstSeq c.changes
  let last := c.firstSeq + c.changes.length - 1
  let seq := if c.changes.isEmpty then t.commit.seq else max t.commit.seq last
  let live := match s.pair.partner with
    | none => true
    | some h => decide (h.cycle ≤ c.cycle)
  let t1 := { t with
    commit := { t.commit with cycle := c.cycle, applied := c.cycle, seq := seq, durable := max t.commit.durable seq }
    bus := { t.bus with acks := t.bus.acks ++ [(c.cycle, true)] } }
  let t2 := t1.modPair (fun p => { p with
    gap := p.gap && !live, soloGap := p.soloGap && !live, resync := p.resync && !live, foreign := true,
    resyncPm := if p.resync then s.resyncProgress c.cycle else p.resyncPm })
  noteService s t2

/-- COMMIT_CYCLE_RECEIVE: accepted only with its tag, as the next cycle, under the epoch seen, and with no withdrawn cycle of its own left;
otherwise REFUSED, and the standby is NOT_ELIGIBLE (R531, R543, R544, R548). -/
def execCommitCycleReceive (c : CycleMsg) (s : State) : Host.Outcome State Fault Refusal :=
  .next (
    if !s.paired || !s.portUp 4 || s.pair.role == 3 || s.service == .starting || s.seam.quarantine != 0 then s
    else if c.tagOk && s.commit.cycles.isEmpty && c.pairId == s.pairId && c.cycle == s.commit.applied + 1 && c.epoch == s.pair.tokenEpoch then applyCycle s c
    else noteService s { s.modPair (fun p => { p with gap := true }) with bus := { s.bus with acks := s.bus.acks ++ [(c.cycle, false)] } })

/-- Let a descriptor go without a completion: its index stays unwritten (R557). -/
def dropUnwritten (s : State) (n : Nat) : State :=
  match s.slot n with
  | none => s
  | some x => noteReplay (release s n) x.rid

/-- CYCLE_ACK_TIMEOUT: the oldest cycle has gone 200 µs without an acknowledgement. The active asks for SOLO; a member that has lost the
collar writes no completion for it (R545, R557). -/
def execCycleAckTimeout (s : State) : Host.Outcome State Fault Refusal :=
  .next (match s.commit.cycles.find? (fun c => !c.late) with
    | none => s
    | some c =>
      let s1 := { s with commit := { s.commit with
        cycles := lmod (fun x => x.cycle == c.cycle) (fun x => { x with late := true }) s.commit.cycles } }
      if s.pair.role = 3 then { s1 with commit := { s1.commit with soloRequest := !s.pair.solo } }
      else (c.items.map (·.slots)).flatten.foldl dropUnwritten s1)

/-! ### Resynchronisation -/

/-- The changes that carry a whole partition, its creation log with it (R212, R539, R547). -/
def State.copyOf (s : State) (p : Nat) : List Change :=
  let x := s.part p
  (match x.psk with
    | none => if x.key = .destroying then [.partDestroy p] else []
    | some k => [.partCreate p x.nonce k])
  ++ ((x.current.toList ++ x.added).map (fun w => .sealSet p 0 w))
  ++ ((s.od.store.filter (fun e => e.1 / 256 == 0x2100 + p || e.1 / 256 == 0x3100 + p || e.1 / 256 == 0x7200 + p)).map
      (fun e => .od (e.1 / 256) (e.1 % 256) e.2))
  ++ (((s.keys.recs.filter (fun e => e.2.rcd.part == p)).map (fun e =>
      (if e.2.rcd.runCount = 0 then [] else [.large e.2.rcd.runFirst e.2.rcd.runCount ((tget s.keys.large e.2.rcd.runFirst).getD (0, [])).2])
        ++ [Change.record e.1 e.2.rcd])).flatten)
  ++ [.atcTable p x.atcCap] ++ x.atc.map (fun e => .atc p e) ++ x.creation.map (fun e => .creation p e)

/-- Entries of the tamper configuration (R451, R539). -/
def tamperEntry (k : Nat) : Bool := decide (0x4000 ≤ k / 256 ∧ k / 256 < 0x4500)

/-- The active's answer: the cycles above the partner's last from the journal, or a full copy where they are no longer held (R547). -/
def serveResync (s : State) : State :=
  let after := match s.pair.partner with
    | none => 0
    | some h => h.cycle
  let l := (s.commit.journal ++ s.commit.cycles).filter (fun c => decide (after < c.cycle))
  let whole := match l with
    | [] => decide (after = s.commit.cycle)
    | c :: _ => c.cycle == after + 1
  let ps := (List.range 256).filter (fun p => (s.part p).key == .active || (s.part p).key == .destroying)
  let copy : CycleMsg := ⟨s.pairId, false, s.commit.cycle, s.commit.seq, 1, s.timeUs, s.pair.tokenEpoch,
    [(ps.map s.copyOf).flatten ++ (s.od.store.filter (fun e => tamperEntry e.1)).map (fun e => .od (e.1 / 256) (e.1 % 256) e.2)
      ++ s.quorum.grants.map Change.grant], true⟩
  { s.modPair (fun p => { p with resync := true }) with
    bus := { s.bus with cycles := s.bus.cycles ++ (if whole then l.map (Closed.msg s) else [copy]) } }

/-- A returning member discards every cycle of its own that is not in the history (R544, R548). -/
def discardOwn (s : State) : State :=
  let gone := s.commit.cycles
  if gone.isEmpty then s
  else
    let t := dropCache (withPersist s s.commit.base) (fun _ _ => true)
    let t1 := { t with commit := { t.commit with
      cycles := [], cycle := s.commit.durableCycle, applied := s.commit.durableCycle, seq := s.commit.durable } }
    (gone.flatMap (fun c => c.items.flatMap (·.slots))).foldl dropUnwritten t1

/-- RESYNC_REQUEST: a NOT_ELIGIBLE standby asks for the cycles above its last; on the active it is the arrival of that request
(R547, R548). -/
def execResyncRequest (s : State) : Host.Outcome State Fault Refusal :=
  .next (
    if !s.paired || !s.portUp 4 || s.seam.quarantine != 0 then s
    else if s.pair.role = 3 then serveResync s
    else if s.eligible then s
    else
      let t := discardOwn s
      sendLink (t.modPair (fun p => { p with resync := true, resyncPm := 0 })) 4 5 (leBytes 8 t.commit.applied))

/-- Whether an entry is replicated with one of some partitions, or always (R539, R566). -/
def copiedEntry (parts : List Nat) (k : Nat) : Bool :=
  let idx := k / 256
  (decide (0x2100 ≤ idx ∧ idx < 0x2200) && parts.contains (idx - 0x2100) && k % 256 != 1)
    || (decide (0x3100 ≤ idx ∧ idx < 0x3200) && parts.contains (idx - 0x3100))
    || (decide (0x7200 ≤ idx ∧ idx < 0x7300) && parts.contains (idx - 0x7200)) || tamperEntry k

/-- Empty the replicated partitions of a full copy: their records, their stored part and their entries; grants come with the copy. -/
def emptyParts (b : Persist) (parts : List Nat) : Persist :=
  { b with keys := { b.keys with recs := tfilter b.keys.recs (fun _ r => !parts.contains r.rcd.part) }
           parts := tmap b.parts (fun p x => if parts.contains p then (part0 p).under x else x)
           store := tfilter b.store (fun k _ => !copiedEntry parts k)
           grants := [] }

/-- RESYNC_COPY_RECEIVE: a full copy of the replicated partitions takes the place of what this standby held (R547). -/
def execResyncCopyReceive (cycle : Nat) (parts : List Nat) (changes : List Change) (s : State) : Host.Outcome State Fault Refusal :=
  .next (
    if !s.paired || !s.portUp 4 || s.pair.role == 3 || !s.pair.resync || s.seam.quarantine != 0 then s
    else
      let t := applyBoth (s.withBase (fun b => emptyParts b parts)) s.commit.seq [changes]
      let t1 := { t with commit := { t.commit with cycle := cycle, applied := cycle } }
      noteService s (t1.modPair (fun p => { p with foreign := true, resyncPm := s.resyncProgress cycle })))

/-! ### Switchover -/

/-- Whether the standby has reported ELIGIBLE. -/
def State.partnerEligible (s : State) : Bool := s.portUp 4 && s.pair.partner.any (fun h => bit h.flags 0)

/-- SWITCHOVER (R560). -/
def switchoverWrite (rq : Req) (v : Nat) (grant : Bytes) (s : State) : State :=
  grantWrite s rq 0x7100 6 10 0 false (leBytes 1 v) grant
    (fun t => match boolCheck v with
      | some st => some st
      | none => if v = 1 ∧ (t.pair.role ≠ 3 ∨ !t.partnerEligible ∨ t.pair.switching.isSome) then some .notActive else none)
    (fun t use =>
      if v = 0 then acceptUse t rq 0x7100 6 (writeOp false grant) [] use
      else
        let t1 := t.modPair (fun p => { p with switching := some rq })
        acceptUse ((tkeys t.rings).foldl (fun u rid => cutRing u .handover rid) t1) rq 0x7100 6 (writeOp false grant) [] use)

/-- SWITCHOVER (R560). -/
def execSwitchover (rq : Req) (v : Nat) (grant : Bytes) (s : State) : Host.Outcome State Fault Refusal :=
  .next (switchoverWrite rq v grant s)

/-- A switchover whose started descriptors have all ended closes its HANDOVER cycle (R560). -/
def continueSwitchover (s : State) : State :=
  if s.pair.switching.isNone || s.pair.role != 3 || s.power.pfail || s.commit.cycles.any (·.handover)
    || s.adm.slots.any (fun e => e.2.stage.uncommitted) then s
  else if (s.closing (625000 - 80)).length = s.commit.queue.length then closeCycle s true else closeCycle s false

/-- What happens by itself as a microsecond passes: time runs, and a STANDBY entry, a life-cycle transition, a switchover or a creation
that waited for work to end or for randomness goes on (R150, R457, R488, R560; assumption 4). -/
def idleStep (s : State) : State := serveKd (continueSwitchover (continueTransition (continueStandby (tick s))))

/-! ### Vaults -/

/-- A change of a partition in its vault copy, with the granule runs its records name; the seal of its storage key follows when KD is there
(R561). -/
def vaultApply (part : Nat) (runs : List Nat) (v : Vault) (c : Change) : Vault :=
  match c with
  | .record slot r => if r.part = part then { v with recs := tset v.recs slot r } else v
  | .recordFree slot => { v with recs := terase v.recs slot }
  | .large first n b => if runs.contains first then { v with large := tset v.large first (n, b) } else v
  | .largeFree first => { v with large := terase v.large first }
  | .revoke slot => { v with recs := tmap v.recs (fun k r => if k = slot then { r with revoked := true } else r) }
  | .restrict slot nb na ex => { v with recs := tmap v.recs (fun k r => if k = slot then narrow nb na ex r else r) }
  | .counter slot n => { v with recs := tmap v.recs (fun k r => if k = slot then { r with counter := max r.counter n } else r) }
  | .atc p e => if p = part then { v with atc := putAtc v.atc e } else v
  | .atcTable p _ => if p = part then { v with atc := [] } else v
  | .od idx sub b => if idx = 0x2100 + part ∨ idx = 0x3100 + part ∨ idx = 0x7200 + part then { v with store := tset v.store (odKey idx sub) b } else v
  | .partCreate p nonce _ => if p = part then { v with nonce := nonce, wrap := none } else v
  | .partDestroy p => if p = part then { vault0 with cycle := v.cycle } else v
  | _ => v

/-- The granule runs that the records of a partition in a cycle name. -/
def runsOf (part : Nat) (l : List Change) : List Nat :=
  l.filterMap (fun c => match c with
    | .record _ r => if r.part = part ∧ r.runCount ≠ 0 then some r.runFirst else none
    | _ => none)

/-- VAULT_STREAM_RECEIVE: the vault applies a cycle of another pair's partition, in cycle order (R529, R531, R561). -/
def execVaultStreamReceive (src part : Nat) (c : CycleMsg) (s : State) : Host.Outcome State Fault Refusal :=
  let key := src % 1024 * 256 + part
  let v := tgetD s.pair.vaults key vault0
  .next (
    if !c.tagOk || s.seam.quarantine != 0 || decide (256 ≤ part) || decide (c.cycle ≤ v.cycle) || !s.clustered || s.power.stopPoint == 0 then s
    else
      let v1 := c.changes.flatten.foldl (vaultApply part (runsOf part c.changes.flatten)) v
      let t := s.modPair (fun p => { p with vaults := tset p.vaults key { v1 with cycle := c.cycle } })
      let seals := c.changes.flatten.filterMap (fun e => match e with
        | .partCreate p nonce psk => if p = part then some (KdTask.vault key p nonce psk) else none
        | _ => none)
      sendTo (queueTasks t seals) (src % 1024) 5 (leBytes 1 part ++ leBytes 8 c.cycle))

end Sys2Proof.Machine
end

