-- ==== Sys2Proof/Machine/Telemetry.lean ====
section
/-! DEFINITION. Telemetry: what the entries of the units and of the module would read now, and what their last refresh left in them (R39,
R327, R363, R586). -/

namespace Sys2Proof.Machine

/-- A unit's STATE (R327, R363). -/
def UnitState.code : UnitState → Nat
  | .idle => 0
  | .busy => 1
  | .inReset => 2
  | .session => 3
  | .offline => 4

/-- State of an engine or a Plume unit as its entry shows it: BUSY while it has work (R327, R363). -/
def UnitState.shown (st : UnitState) (busy : Bool) : Nat :=
  match st with
  | .idle => b2n busy
  | st => st.code

/-- The entries of the units: index, and the width in bytes of each sub-index (R327, R363, R586). -/
def unitEntries : List (Nat × List Nat) :=
  [(0x9000, [2, 2, 2, 4, 8, 8, 2, 8])] ++ (List.range 8).map (fun l => (0x9100 + l, [1, 8, 8, 1, 8, 2, 4, 4]))
    ++ (List.range 16).map (fun u => (0x9110 + u, [1, 8, 2])) ++ [(0x9120, [8, 4])]
    ++ (List.range 48).map (fun e => (0x9140 + e, [1, 8, 2, 4, 1])) ++ (List.range 16).map (fun u => (0x9170 + u, [1, 8, 2, 4]))
    ++ [(0x9180, [1, 4])]

/-- What the sub-indices of an entry would read now; a share of busy cycles in the last second is timing, so free (R327, R363, R586;
assumption 3). -/
def State.measured (s : State) (idx : Nat) : List Nat :=
  let share := Config.freeNat (s.free + (idx - 0x9100)) % 1001
  if idx = 0x9000 then
    let t := s.tele
    [t.dieTemp, t.cocoonTemp, t.inputMv, t.inputMw, t.dramCorr, t.sramCorr, t.wear, t.completions]
  else if idx < 0x9108 then
    let l := s.lane (idx - 0x9100)
    [if l.inReset then 2 else b2n (!l.queue.isEmpty), l.blocks, l.dummies, l.pages.length, l.clears, share, l.gen.rekeys, l.gen.stalls]
  else if idx < 0x9120 then
    let h := s.hash (idx - 0x9110)
    [if h.inReset then 2 else if idx = 0x9110 ∧ s.keys.kd.isSome then 3 else b2n (!h.queue.isEmpty), h.blocks, share]
  else if idx = 0x9120 then [s.units.looper.blocks, s.units.looper.refused]
  else if idx < 0x9170 then
    let e := s.engine (idx - 0x9140)
    [e.st.shown (!e.queue.isEmpty), e.commands, share, e.mismatches, if e.st = .session then e.sessPart else 0]
  else if idx < 0x9180 then
    let u := s.plume (idx - 0x9170)
    [u.st.shown (!u.queue.isEmpty), u.ops, share, u.mismatches]
  else [tcount s.units.engines (fun _ e => e.st == .session), s.units.mismatch1.getD 0 / 1000000]

/-- Refresh every entry; a value beyond its width saturates (R39, R327). -/
def refreshTelemetry (s : State) : State :=
  let read (e : Nat × List Nat) : Tab Nat :=
    (e.2.zipIdx.zip (s.measured e.1)).map (fun w => (odKey e.1 (w.1.2 + 1), min (2 ^ (8 * w.1.1) - 1) w.2))
  { s with free := s.free + 0x80, tele := { s.tele with shown := ((unitEntries.map read).flatten).filter (fun e => e.2 != 0) } }

/-- What a telemetry entry reads as: its value at the last refresh, 0 before the first (R327). -/
def State.telemetry (s : State) (idx sub : Nat) : Option Bytes :=
  (unitEntries.find? (fun e => e.1 == idx)).bind (fun e => match sub with
    | 0 => none
    | k + 1 => (e.2[k]?).map (fun w => leBytes w (tgetD s.tele.shown (odKey idx sub) 0)))

/-- TELEMETRY_REFRESH: the measured entries take their new values, and every telemetry entry is refreshed (R39, R327, R363, R586). -/
def execTelemetryRefresh (dieTemp cocoonTemp inputMv inputMw nandWear : Nat) (s : State) : Host.Outcome State Fault Refusal :=
  .next (
    if s.power.mainOk then refreshTelemetry { s with tele :=
      { s.tele with dieTemp := dieTemp % 65536, cocoonTemp := cocoonTemp % 65536, inputMv := inputMv % 65536, inputMw := inputMw % 2 ^ 32,
                    wear := nandWear % 65536 } }
    else s)

end Sys2Proof.Machine
end

