-- ==== Sys2Proof/Machine/OdValue.lean ====
section
/-! DEFINITION. What every readable entry of the object dictionary shows: the register mirrors, counters and lists that the state holds
(R74, R212, R258, R300, R327, R363, R393, R417, R450, R451, R479, R480, R510, R511, R562, R563, R585, R586, R600). -/

namespace Sys2Proof.Machine

/-! ### Register words -/

/-- RNG_STATUS (R392). -/
def State.rngStatus (s : State) : Nat :=
  s.entropy.pool.length * 2 ^ 24 + s.entropy.passed * 2 ^ 8 + b2n s.entropy.ready * 8 + s.entropy.st

/-- RESPONSE of TMP_STATUS (R427, R450): ERASING is ERASED once the DRS is zero and the module is locked. -/
def State.tmpResponse (s : State) : Nat :=
  match s.tamper.machine with
  | .record => 0
  | .alert => 1
  | .halt => 2
  | .lock => 3
  | .erase => if s.tamper.drs.isNone && (s.service == .locked || s.service == .bootStopped || !s.power.mainOk) then 5 else 4

/-- The codeword of a response state (R427). -/
def tmpCodeword (r : Nat) : Nat := [0x0F0F, 0x33CC, 0x5A5A, 0x6699, 0x9669, 0xA5A5].getD r 0

/-- TMP_STATUS (R450). -/
def State.tmpStatus (s : State) : Nat :=
  s.tamper.lockCause * 2 ^ 24 + s.tamper.bootStop * 2 ^ 16 + b2n s.tamper.release * 2 ^ 11 + b2n s.tamper.drs.isSome * 2 ^ 10
    + b2n s.tamper.lockedOut * 2 ^ 9 + b2n s.tamper.alarmOut * 2 ^ 8 + s.tmpResponse

/-- SLOTS_USED: journal slots complete or void (R479). -/
def State.slotsUsed (s : State) : Nat := ((List.range 16).filter (fun k => s.slotCond k == 1 || s.slotCond k == 3)).length

/-- LC_STATUS (R479). -/
def State.lcStatus (s : State) : Nat :=
  s.life.latched * 2 ^ 24 + lifeOf s.life.otp * 2 ^ 16 + s.slotsUsed * 2 ^ 11 + b2n s.life.resetPend * 2 ^ 7
    + b2n (!(s.odGet 0x8010 2).isEmpty) * 2 ^ 6 + b2n (s.life.trans.isSome && !s.life.resetPend) * 2 ^ 5 + b2n ((List.range 16).any (fun k => s.slotCond k == 3)) * 2 ^ 4
    + b2n s.life.parked * 2 ^ 3

/-- LC_DEBUG (R479). -/
def State.lcDebug (s : State) : Nat :=
  (if s.life.dbgOpen then (s.life.dbgEnd - s.opUs) / 1000000 else 0) * 2 ^ 16 + s.life.dbgScope * 2 ^ 8 + s.life.dbgLevel * 4
    + b2n s.life.dbgValid * 2 + b2n s.life.dbgOpen

/-- DEBUG_CHALLENGE (R476). -/
def State.dbgRecord (s : State) : Bytes :=
  if s.life.dbgValid then s.life.dbgChal ++ serial ++ leBytes 1 s.life.latched ++ s.mr 0 else zeros 93

/-- POWER of RST_STATUS (R510). -/
def State.powerCode (s : State) : Nat := if s.power.power = .idle ∧ !s.eic.roused then 1 else 0

/-- RST_STATUS (R510). -/
def State.rstStatus (s : State) : Nat :=
  s.power.stopPoint * 2 ^ 16 + b2n s.quiesced * 2 ^ 9 + b2n s.power.pfail * 2 ^ 8 + s.powerCode

/-- RST_BLOCK (R510). -/
def State.rstBlock (s : State) : Nat := s.units.blockRes * 2 ^ 28 + s.units.blockUnit * 2 ^ 8 + s.units.blockCls

/-- RST_PIN (R510). -/
def State.rstPin (s : State) : Nat := s.power.released * 2 ^ 24 + s.power.fuse

/-- SEAM_PORT (R562). -/
def State.portWord (s : State) (k : Nat) : Nat :=
  let p := s.port k
  p.neighbour * 2 ^ 22 + p.bypassed * 2 ^ 20 + p.retrains * 2 ^ 8 + b2n p.wrapped * 2 ^ 4 + p.st

/-- SEAM_STATUS (R562). -/
def State.seamStatus (s : State) : Nat :=
  s.seam.unreachable * 2 ^ 16 + b2n (s.clustered && s.isMaster) * 2 ^ 11 + b2n s.seam.unsynced * 2 ^ 10 + s.seam.quarantine * 2 ^ 4 + s.cstate

/-- PAIR_STATUS (R562). -/
def State.pairStatus (s : State) : Nat :=
  b2n s.pair.resync * 2 ^ 12 + b2n s.pair.solo * 2 ^ 11 + b2n s.pair.race * 2 ^ 10 + b2n s.pair.collarRx * 2 ^ 9
    + b2n s.pair.collarTx * 2 ^ 8 + b2n (s.portUp 4) * 2 ^ 5 + b2n s.eligible * 2 ^ 4 + s.member % 2 * 2 ^ 3 + s.pair.role

/-! ### Values by area -/

/-- A counter that saturates at its width. -/
def sat (n v : Nat) : Bytes := leBytes n (min (2 ^ (8 * n) - 1) v)

/-- A STRING as it is read: it ends at the first zero byte (R565). -/
def strOf (b : Bytes) : Bytes := b.takeWhile (· != 0#8)

/-- KeyState's encoding (R149). -/
def KeyState.code : KeyState → Nat
  | .empty => 0
  | .active => 1
  | .sealFailed => 2
  | .destroying => 3

/-- Area 0x1000 (R585). -/
def State.value1 (s : State) (idx sub : Nat) : Option Bytes :=
  if idx = 0x1000 then
    [leBytes 2 0x1F9C, strOf serial, [0xB1#8], ascii "NLM-9648", leBytes 4 Config.runningSequence, leBytes 4 s.opSeconds,
     leBytes 4 s.power.cycles, leBytes 4 s.power.boots][sub - 1]?
  else if idx = 0x1010 ∧ sub = 2 then some ((List.range 6).map Config.macByte)
  else if idx = 0x1010 ∧ sub = 6 then some (leBytes 1 (b2n s.od.mgmtUp))
  else if idx = 0x1020 ∧ sub = 1 then some (leBytes 1 s.od.sessions.length)
  else if idx = 0x1020 ∧ sub = 3 then some (sat 4 s.od.failures)
  else none

/-- The partition entries and the key store (R74, R212, R258, R300). -/
def State.value3 (s : State) (idx sub : Nat) : Option Bytes :=
  if 0x2100 ≤ idx ∧ idx < 0x2200 ∧ sub = 0x10 then some (leBytes 1 (s.part (idx - 0x2100)).dis.code)
  else if idx = 0x3000 ∧ sub ≤ 8 then some (s.mr (sub - 1))
  else if idx = 0x3001 ∧ sub = 2 then some (leBytes 1 s.meas.migration)
  else if idx = 0x3001 ∧ sub = 5 then some (leBytes 2 (tcount s.parts (fun _ x => x.key == .sealFailed)))
  else if idx = 0x3002 then
    [sat 4 (2 ^ 28 - 1 - s.keys.recs.length - s.keys.retired.length - ((s.parts.map (fun e => e.2.atcCap / 8)).sum)),
     sat 4 (8388608 - ((s.keys.recs.map (fun e => e.2.rcd.runCount)).sum)),
     sat 4 (2 ^ 20 - tcount s.keys.lineage (fun _ l => l.owner.isSome) - s.keys.linRet.length),
     sat 4 (((tkeys s.keys.recs).filter s.orphan).length), sat 4 s.keys.sweepMs, sat 4 s.keys.damagedCnt,
     sat 4 s.keys.retired.length][sub - 1]?
  else if 0x3100 ≤ idx ∧ idx < 0x3200 then
    let p := idx - 0x3100
    let x := s.part p
    match sub with
    | 1 => some (leBytes 1 x.key.code)
    | 5 => some x.nonce
    | 7 => some (sat 4 (s.recordsUsed p))
    | 8 => some (sat 4 (s.granulesUsed p))
    | 9 => some (sat 4 (tcount s.keys.cache (fun _ c => c.part == p)))
    | 0x11 => some (sat 4 x.checkFails)
    | 0x14 => some (sat 4 (s.atcCards p).length)
    | _ => none
  else if idx = 0x3600 ∧ sub = 3 then some (leBytes 1 s.quorum.load.state)
  else if idx = 0x3600 ∧ sub = 4 then some (if s.quorum.load.state = 2 then leBytes 8 s.quorum.load.handle ++ fit 5 s.quorum.load.kcv else zeros 13)
  else none

/-- Tamper and entropy (R393, R451). -/
def State.value4 (s : State) (idx sub : Nat) : Option Bytes :=
  if idx = 0x4000 then
    match sub with
    | 1 => some (leBytes 4 s.tmpStatus)
    | 2 => some (leBytes 2 (tmpCodeword s.tmpResponse))
    | 3 => some s.tamper.flagBytes
    | 4 => some (sat 4 s.tamper.unlocks)
    | _ => none
  else if 0x4100 ≤ idx ∧ idx < 0x419F ∧ sub = 2 then some (sat 4 (tgetD s.tamper.counts (idx - 0x4100) 0))
  else if 0x4200 ≤ idx ∧ idx < 0x4240 ∧ 4 ≤ sub then
    let i := tgetD s.tamper.loops (idx - 0x4200) input0
    some (sat 4 (if sub = 4 then (if s.loopMode (idx - 0x4200) = 1 then i.measured else 0) else i.mismatches))
  else if 0x4300 ≤ idx ∧ idx < 0x4310 ∧ sub = 2 then some (leBytes 1 (b2n (tgetD s.tamper.switches (idx - 0x4300) input0).closed))
  else if idx = 0x5000 then
    [leBytes 1 s.entropy.st, leBytes 4 s.rngStatus, leBytes 4 (rngFail s.entropy), sat 8 s.entropy.rawBits, sat 8 s.entropy.blocksOut][sub - 1]?
  else if idx = 0x5001 then ([129, 81, 73, 852, 730, 693].map (leBytes 2))[sub - 1]?
  else if idx = 0x5002 ∧ sub = 1 then some (leBytes 4 (2 * s.entropy.tapGroup + b2n s.entropy.tap))
  else if 0x5011 ≤ idx ∧ idx ≤ 0x5014 then
    [sat 8 (tgetD s.entropy.drawCount (idx - 0x5010) 0), sat 4 (tgetD s.entropy.waitMax (idx - 0x5010) 0)][sub - 1]?
  else if 0x5100 ≤ idx ∧ idx < 0x5200 then
    let p := idx - 0x5100
    let d := (s.part p).drbg
    let w := tcount s.adm.slots (fun _ x => x.part == p && (opcode x.desc == 0xA01 || opcode x.desc == 0xA02) && x.stage == .drawWait)
    [leBytes 1 (b2n d.ready), sat 8 d.reseeds, sat 8 d.hostBytes, sat 4 w, sat 4 (if d.ready then (s.opUs - d.lastUs) / 1000 else 0)][sub - 1]?
  else none

/-- The lowest SEQUENCE present, or the next one in an empty log (R600). -/
def State.oldestSeq (s : State) : Nat := (s.log.nand.map (fun e => e.1.seq) ++ s.log.mainBuf.map (·.seq)).foldl min s.log.next

/-- Recorder, cluster and pair (R563, R600). -/
def State.value7 (s : State) (idx sub : Nat) : Option Bytes :=
  if idx = 0x6000 then
    [leBytes 8 s.log.next, leBytes 8 s.oldestSeq, sat 4 s.log.nand.length, leBytes 1 (if overwriteMode s then 0 else 1),
     sat 4 s.log.dropped, sat 8 s.log.overwritten, sat 4 s.log.unreadable, sat 1 s.log.cocoonBuf.length][sub - 1]?
  else if idx = 0x6003 ∧ sub = 2 then some (leBytes 1 s.log.sealResult)
  else if idx = 0x7000 then
    match sub with
    | 7 => some s.digest
    | 8 => some (leBytes 1 s.cstate)
    | 9 => some (leBytes 1 s.seam.quarantine)
    | 0x0D => some (leBytes 2 s.actingMaster)
    | _ => none
  else if idx = 0x7001 then [leBytes 8 s.timeUs, leBytes 1 (b2n s.seam.unsynced), int64 s.seam.offset, leBytes 8 s.driftBound][sub - 1]?
  else if idx = 0x7010 then (if sub = 5 then some (leBytes 4 s.seamStatus) else some (leBytes 4 (s.portWord (sub - 1))))
  else if idx = 0x7100 ∧ sub = 3 then some (strOf (s.odGet 0x7100 3))
  else if idx = 0x7101 then
    [leBytes 4 s.pairStatus, leBytes 8 s.pair.tokenEpoch, leBytes 8 s.lastCycle, leBytes 2 s.pair.resyncPm][sub - 1]?
  else if idx = 0x7102 then (if sub = 1 then some s.pair.hbLast else if sub = 3 then some s.pair.arbChal else none)
  else if idx = 0x7110 ∧ sub = 2 then
    some (leBytes 8 (s.pair.takeover.getD 0 0) ++ leBytes 8 (s.pair.takeover.getD 1 0) ++ leBytes 6 (s.pair.takeover.getD 2 0))
  else if 0x7200 ≤ idx ∧ idx < 0x7300 ∧ sub = 2 then some (leBytes 4 (Config.freeNat s.free))
  else none

/-- Life cycle (R480). -/
def State.value8 (s : State) (idx sub : Nat) : Option Bytes :=
  if idx = 0x8000 then [leBytes 1 s.life.latched, leBytes 1 (lifeOf s.life.otp), leBytes 4 s.lcStatus, leBytes 1 s.slotsUsed][sub - 1]?
  else if idx = 0x8010 ∧ sub = 1 then some s.life.commChal
  else if idx = 0x8020 ∧ sub = 1 then some s.dbgRecord
  else if idx = 0x8020 ∧ sub = 3 then some (leBytes 4 s.lcDebug)
  else if idx = 0x8040 then [leBytes 1 s.life.sleeveAuth, strOf s.life.sleeveSer, leBytes 4 s.life.drawn, leBytes 2 s.life.daysLeft][sub - 1]?
  else none

/-- Power, reset, pins and wake (R417, R511). -/
def State.valueA (s : State) (idx sub : Nat) : Option Bytes :=
  if idx = 0xA000 ∧ sub = 1 then some (leBytes 1 s.powerCode)
  else if idx = 0xA000 ∧ sub = 4 then some (leBytes 4 s.rstStatus)
  else if idx = 0xA001 ∧ sub = 4 then some (leBytes 4 s.rstCause)
  else if idx = 0xA001 ∧ sub = 5 then some (leBytes 8 s.power.lastSeq)
  else if idx = 0xA002 then some (leBytes 4 s.rstBlock)
  else if idx = 0xA011 then some (leBytes 4 s.rstPin)
  else if idx = 0xA020 ∧ sub = 0x41 then some (leBytes 2 s.eic.wakeCause)
  else if idx = 0xA020 ∧ sub = 0x42 then some (leBytes 8 ((s.eic.wakeSet.map (fun i => 2 ^ i)).sum))
  else if idx = 0xA030 then some (sat 4 s.eic.wdogResets)
  else if idx = 0xA040 then [sat 4 s.power.pfails, sat 4 s.power.flushUs][sub - 1]?
  else none

/-- What a READ of an entry returns: a value the state computes, or the stored one (R564, R570). -/
def State.odValue (s : State) (idx sub : Nat) : Bytes :=
  let v := if sub = 0 then some (odDefault idx 0)
    else match idx / 0x1000 with
      | 1 => s.value1 idx sub
      | 2 => s.value3 idx sub
      | 3 => s.value3 idx sub
      | 4 => s.value4 idx sub
      | 5 => s.value4 idx sub
      | 6 => s.value7 idx sub
      | 7 => s.value7 idx sub
      | 8 => s.value8 idx sub
      | 9 => s.telemetry idx sub
      | 0xA => s.valueA idx sub
      | _ => none
  let stored := s.odGet idx sub
  v.getD (if 0x3500 ≤ idx ∧ idx < 0x3540 ∧ sub = 4 then strOf stored
    else if 0x2100 ≤ idx ∧ idx < 0x2200 ∧ sub = 0x0C then stored.take 1 else stored)

/-! ### DOMAIN entries -/

/-- DIRECTORY (R585). -/
def directory : Bytes :=
  (odIndices.map (fun i => leBytes 2 i ++ leBytes 1 (odIndex i).length ++ leBytes 1 (i / 0x1000))).flatten

/-- A creation-log entry (R191). -/
def Creation.bytes (e : Creation) : Bytes :=
  leBytes 6 e.seq ++ leBytes 2 e.ring ++ leBytes 4 e.index ++ leBytes 2 e.tag ++ zeros 10 ++ leBytes 8 e.handle

/-- A commit-log entry (R556). -/
def CommitLog.bytes (e : CommitLog) : Bytes :=
  leBytes 6 e.seq ++ leBytes 2 e.ring ++ leBytes 4 e.index ++ leBytes 2 e.tag ++ leBytes 1 e.part ++ leBytes 1 e.member
    ++ leBytes 2 e.status.code ++ zeros 6 ++ leBytes 8 e.handle

/-- The records of LOG from a SEQUENCE on, ascending: of the NAND log and the main-die buffer (R596). -/
def State.logFrom (s : State) (seq : Nat) : List LogRec :=
  ((s.log.nand.map (·.1) ++ s.log.mainBuf).filter (fun r => decide (seq ≤ r.seq))).mergeSort (fun a b => decide (a.seq ≤ b.seq))

/-- The diverted samples, one bit each, oldest first (R391, R393). -/
def State.tapData (s : State) : Bytes := (List.range (s.entropy.tapBits / 8)).map (fun i => Config.freeByte (s.entropy.tapFree + i))

/-- The whole value of a DOMAIN entry without a start point of its own (R571). -/
def State.domain (s : State) (idx sub : Nat) : Bytes :=
  if idx = 0x1001 then directory
  else if 0x3100 ≤ idx ∧ idx < 0x3200 then ((s.part (idx - 0x3100)).creation.map Creation.bytes).flatten
  else if idx = 0x3001 then s.meas.manifest.getD []
  else if idx = 0x5002 then s.tapData
  else if idx = 0x8030 ∧ sub = 1 then s.certChain 0
  else if idx = 0x8030 ∧ sub = 2 then s.certChain 1
  else if idx = 0x8030 ∧ sub = 4 then s.life.attest
  else s.odGet idx sub

/-- TOTAL, CHANGE and the bytes of a segment: LOG takes OFFSET as a SEQUENCE and COMMIT_LOG as a COMMIT_SEQ, both in whole
records (R571, R596). -/
def State.segment (s : State) (idx sub offset maxLen : Nat) : Bytes :=
  if idx = 0x6001 then
    let l := s.logFrom offset
    leBytes 4 (64 * l.length) ++ leBytes 4 s.log.change ++ ((l.take (maxLen / 64)).map LogRec.bytes).flatten
  else if idx = 0x7110 then
    let l := s.commit.logs.filter (fun e => decide (offset ≤ e.seq))
    leBytes 4 (32 * l.length) ++ leBytes 4 s.commit.seq ++ ((l.take (maxLen / 32)).map CommitLog.bytes).flatten
  else
    let d := s.domain idx sub
    leBytes 4 d.length ++ leBytes 4 (tgetD s.od.change (odKey idx sub) 0) ++ (d.drop offset).take maxLen

end Sys2Proof.Machine
end

