-- ==== Sys2Proof/Machine/OdServe.lean ====
section
/-! DEFINITION. The object dictionary's requests: reads, writes, segments, sessions, and the mailbox, management port and Seam that carry
them (R564 to R583). -/

namespace Sys2Proof.Machine

/-- Change the object dictionary's own state. -/
@[noinline] def State.modOd (s : State) (f : Od → Od) : State := { s with od := f s.od }

/-! ### Reads -/

/-- The access error of a read, if there is one (R564, R568, R573). -/
def readError (s : State) (rq : Req) (idx sub : Nat) (domain : Bool) : Bool :=
  match odEntry idx sub with
  | none => true
  | some e => e.acc == .wo || (e.size == 0) != domain || !s.mayRead rq idx sub

/-- OD_READ (R568, R570, R574); a value that is free is another one at each read. -/
def odReadServe (rq : Req) (idx sub : Nat) (s : State) : State :=
  let (t, go) := takeReq s rq idx sub 1
  if !go then t
  else if readError t rq idx sub false then refuse t rq idx sub 1 .keyUsage
  else sendReply { t with free := t.free + 1 } rq idx sub 1 0 (t.odValue idx sub)

/-- OD_READ (R570). -/
def execOdRead (rq : Req) (idx sub : Nat) (s : State) : Host.Outcome State Fault Refusal := .next (odReadServe rq idx sub s)

/-- The largest segment of a transport (R571). -/
def segmentMax (transport : Nat) : Nat := if transport = 0 then 15000 else if transport = 1 then 1200 else 4000

/-- OD_READ_SEGMENT (R571). -/
def odReadSegmentServe (rq : Req) (idx sub offset maxLen : Nat) (s : State) : State :=
  let (t, go) := takeReq s rq idx sub 2
  if !go then t
  else if readError t rq idx sub true then refuse t rq idx sub 2 .keyUsage
  else sendReply t rq idx sub 2 0 (t.segment idx sub offset (min maxLen (segmentMax rq.transport)))

/-- OD_READ_SEGMENT (R571). -/
def execOdReadSegment (rq : Req) (idx sub offset maxLen : Nat) (s : State) : Host.Outcome State Fault Refusal :=
  .next (odReadSegmentServe rq idx sub offset maxLen s)

/-! ### Writes with a row of their own -/

/-- The number a body writes: one that no width holds where its length is not the entry's (R565, R573). -/
def bodyNat (idx sub : Nat) (v : Bytes) : Nat :=
  match odEntry idx sub with
  | none => 0
  | some e => if v.length = e.size then leNat v else 2 ^ (8 * e.size)

/-- A BOOL whose 1 is a command: 0 is accepted without effect (R565). -/
def boolCommand (rq : Req) (idx sub cls part : Nat) (v grant : Bytes) (f : State → State) (s : State) : State :=
  if v = [1#8] then f s
  else grantWrite s rq idx sub cls part false v grant (fun _ => boolCheck (bodyNat idx sub v))
    (fun t use => acceptUse t rq idx sub (writeOp false grant) [] use)

/-- TOKEN through the object dictionary (R549, R551, R563). -/
def tokenWrite (rq : Req) (v : Bytes) (s : State) : State :=
  openServe s rq 0x7102 2 (fun _ => if v.length ≠ 48 then some .malformed else none) (fun t =>
    match t.pair.arbKey with
    | none => refuse t rq 0x7102 2 0x20 .verifyFail
    | some k =>
      let tok := tokenOf k v
      if tok.macOk then acceptNow (tokenRecord t tok) rq 0x7102 2 0x20 [] else refuse t rq 0x7102 2 0x20 .verifyFail)

/-- ARB_OPEN through the object dictionary: a host agent's answer (R549, R563). -/
def arbOpenWrite (rq : Req) (v : Bytes) (s : State) : State :=
  openServe s rq 0x7102 4 (fun _ => if v.length ≠ 161 then some .malformed else none) (fun t =>
    if t.paired && (Ec.decode Ec.p256 (slice v 0 65)).isSome && t.arbSigned (slice v 65 96) false then
      acceptNow (openArbiter t (slice v 0 65) (slice v 65 96) false) rq 0x7102 4 0x20 []
    else refuse t rq 0x7102 4 0x20 .verifyFail)

/-- Partition entries with rows of their own (R74, R212, R258, R300). -/
def ownPartition (rq : Req) (idx sub : Nat) (v grant : Bytes) : Option (State → State) :=
  let n := bodyNat idx sub v
  if idx < 0x2200 then
    let p := idx - 0x2100
    if sub = 1 then some (partitionFunctionWrite rq p n grant)
    else if sub = 2 then some (partitionEnableWrite rq p n grant)
    else if isQuota sub && grant.isEmpty then some (quotaWrite rq p sub n) else none
  else
    let p := idx - 0x3100
    match sub with
    | 2 => some (bindingMaskWrite rq p n grant)
    | 3 => some (boolCommand rq idx 3 1 p v grant (partitionCreate rq p grant))
    | 4 => some (boolCommand rq idx 4 1 p v grant (partitionDestroy rq p grant))
    | 0x0A => if grant.isEmpty then some (quotaWrite rq p 0x10A n) else none
    | 0x0C => some (pinPolicyWrite rq p n grant)
    | 0x0D => some (decTableWrite rq p 0 v grant)
    | 0x0E => some (decTableWrite rq p 1 v grant)
    | 0x0F => some (decTableWrite rq p 2 v grant)
    | 0x10 => some (decTableWrite rq p 3 v grant)
    | 0x12 => some (atcCapacityWrite rq p n grant)
    | 0x13 => some (atcWindowWrite rq p n grant)
    | _ => none

/-- Module entries of areas 0x3000 to 0x6000 with rows of their own. -/
def ownModule (rq : Req) (idx sub : Nat) (v grant : Bytes) : Option (State → State) :=
  let n := bodyNat idx sub v
  if idx = 0x3000 then some (announcedMrWrite rq (sub - 4) v grant)
  else if idx = 0x3001 then
    if sub = 1 then some (manifestWrite rq v grant)
    else if sub = 3 then some (boolCommand rq idx 3 2 0 v grant (finaliseWrite rq grant))
    else some (boolCommand rq idx 4 2 0 v grant (cancelWrite rq grant))
  else if 0x3301 ≤ idx ∧ idx ≤ 0x330C then some (policyWrite rq (idx - 0x3300) sub n grant)
  else if idx = 0x3400 ∧ grant.isEmpty then
    if sub = 1 then some (quorumOpen rq (leAt v 0 2) (byteAt v 2) (byteAt v 3) (if v.length = 36 then slice v 4 32 else []))
    else if sub = 2 then
      let member := byteAt v 4
      some (fun s => approveBy s rq 2 (leAt v 0 4) (if member < 64 then some member else none) (if v.length = 69 then slice v 5 64 else []))
    else none
  else if 0x3500 ≤ idx ∧ idx < 0x3540 then some (memberWrite rq (idx - 0x3500) sub v grant)
  else if idx = 0x3600 ∧ sub = 1 then
    some (componentStart rq (if v.length = 41 then slice v 0 32 else []) (leAt v 32 8) (byteAt v 40) grant)
  else if idx = 0x3600 ∧ sub = 5 then some (tier0Destroy rq n grant)
  else if 0x4100 ≤ idx ∧ idx < 0x419F then some (tamperClassWrite rq (idx - 0x4100) n grant)
  else if idx = 0x4400 ∧ grant.isEmpty then some (sleeveReleaseWrite rq n)
  else if idx = 0x5002 then some (tapCtlWrite rq n grant)
  else if idx = 0x6002 then some (logClearWrite rq n grant)
  else if idx = 0x6003 ∧ grant.isEmpty then some (sealCheckWrite rq n)
  else none

/-- Module entries of areas 0x7000 to 0xA000 with rows of their own. -/
def ownSystem (rq : Req) (idx sub : Nat) (v grant : Bytes) : Option (State → State) :=
  let n := bodyNat idx sub v
  let plain := grant.isEmpty
  if idx = 0x7000 then (if sub = 0x0A then some (decisionWrite rq v grant) else some (clusterEntryWrite rq idx sub v grant))
  else if idx = 0x7001 then some (clusterTimeWrite rq n grant)
  else if idx = 0x7100 then some (switchoverWrite rq n grant)
  else if idx = 0x7102 ∧ plain then some (if sub = 2 then tokenWrite rq v else arbOpenWrite rq v)
  else if idx = 0x8001 then some (targetWrite rq n grant)
  else if idx = 0x8010 ∧ plain then some (commissionTokenWrite rq v)
  else if idx = 0x8020 then
    if sub = 2 ∧ plain then some (authCertWrite rq v)
    else if sub = 4 ∧ plain then some (debugCloseWrite rq n)
    else if sub = 5 then some (observeOpenWrite rq n grant) else none
  else if idx = 0x8030 ∧ plain then
    if sub = 3 then some (attestNonceWrite rq v)
    else if sub = 5 then some (identityGenerateWrite rq) else some (certInstallWrite rq v)
  else if idx = 0xA000 ∧ plain then some (powerRequest rq n)
  else if idx = 0xA001 ∧ sub = 1 then
    if plain then some (resetRequest rq (if v.length = 16 ∧ allZero (slice v 1 3) then byteAt v 0 else 0) (if v.length = 16 then slice v 4 12 else []))
    else some (seamReset rq v grant)
  else if idx = 0xA002 ∧ plain then some (blockReset rq (n % 8) (bits n 13 8))
  else if idx = 0xA020 ∧ plain then some (wakeListWrite rq sub n)
  else if idx = 0xA021 ∧ plain then some (wakeTimerSWrite rq n)
  else none

/-- The effect of a write to an entry with a row of its own, where the body says all of it; a card's answer or the sample an unlock or a
loop needs comes with that row. -/
def ownWrite (rq : Req) (idx sub : Nat) (v grant : Bytes) : Option (State → State) :=
  if (0x2100 ≤ idx ∧ idx < 0x2200) ∨ (0x3100 ≤ idx ∧ idx < 0x3200) then ownPartition rq idx sub v grant
  else if idx < 0x7000 then ownModule rq idx sub v grant
  else ownSystem rq idx sub v grant

/-- Whether an entry has a row of its own. -/
def isOwn (idx sub : Nat) : Bool := (odEntry idx sub).any (·.own)

/-- Whether a write waits for its own row: what it needs beyond its body comes with that row. -/
def waitsForRow (idx sub : Nat) : Bool :=
  (idx == 0x3400 && sub == 4) || (idx == 0x3600 && sub == 2) || (idx == 0x4000 && sub == 5) || decide (0x4200 ≤ idx ∧ idx < 0x4310)
    || (idx == 0xA001 && sub == 3)

/-! ### Writes -/

/-- The partition a granted write to an entry concerns; 0 for module actions (R199). -/
def entryPart (idx : Nat) : Nat :=
  if 0x2100 ≤ idx ∧ idx < 0x2200 then idx - 0x2100 else if 0x3100 ≤ idx ∧ idx < 0x3200 then idx - 0x3100 else 0

/-- The status of a value beyond its type: a position has 10 bits, and four ports are enabled (R512, R563). -/
def extraCheck (idx sub n : Nat) : Option Status :=
  if idx = 0x7000 ∧ ((sub = 2 ∧ 1024 ≤ n) ∨ (sub = 4 ∧ 16 ≤ n)) then some .inputRange else none

/-- The changes of a plain value; the module at which a cluster is formed gives FORMATION_MR2 (R530). -/
def entryChanges (s : State) (idx sub : Nat) (v : Bytes) : List Change :=
  .od idx sub v ::
    (if idx = 0x7000 ∧ sub = 1 ∧ !allZero v ∧ allZero (s.odGet 0x7000 0x0C) then [.od 0x7000 0x0C (s.mr 2)] else [])

/-- An access error of a write (R568, R573). -/
def denyWrite (s : State) (rq : Req) (idx sub op : Nat) : State :=
  serveWrite s rq idx sub op false (fun _ => false) id

/-- OD_WRITE of an entry without a row of its own (R565 to R568, R573): a role writes an RW entry; a grant is needed for an RWQ entry. -/
def genericWrite (rq : Req) (idx sub : Nat) (v : Bytes) (s : State) : State :=
  match odEntry idx sub with
  | none => denyWrite s rq idx sub 0x20
  | some e =>
    let check := match valueCheck e v with
      | some st => some st
      | none => extraCheck idx sub (leNat v)
    match e.acc with
    | .rw => if e.size = 0 then denyWrite s rq idx sub 0x20
      else serveWrite s rq idx sub 0x20 false (fun t => t.holds rq 1 e.pa) (fun t => match check with
        | some st => refuse t rq idx sub 0x20 st
        | none => acceptCommit t rq idx sub 0x20 [] [.od idx sub v])
    | .rwq => if e.size = 0 then denyWrite s rq idx sub 0x20
      else serveWrite s rq idx sub 0x20 false (fun t => t.factory) (fun t => match check with
        | some st => refuse t rq idx sub 0x20 st
        | none => acceptCommit t rq idx sub 0x20 [] (entryChanges t idx sub v))
    | _ => denyWrite s rq idx sub 0x20

/-- A plain write. -/
def plainWrite (rq : Req) (idx sub : Nat) (v : Bytes) (s : State) : State :=
  if isOwn idx sub then (match ownWrite rq idx sub v [] with
    | some f => if (odEntry idx sub).any (fun e => e.size == 0) then denyWrite s rq idx sub 0x20 else f s
    | none => if waitsForRow idx sub then s else denyWrite s rq idx sub 0x20)
  else genericWrite rq idx sub v s

/-- OD_WRITE (R568, R570). -/
def execOdWrite (rq : Req) (idx sub : Nat) (v : Bytes) (s : State) : Host.Outcome State Fault Refusal := .next (plainWrite rq idx sub v s)

/-- OD_WRITE_GRANT of an RWQ entry without a row of its own (R568, R572). -/
def genericGrant (rq : Req) (idx sub : Nat) (v grant : Bytes) (s : State) : State :=
  match odEntry idx sub with
  | none => denyWrite s rq idx sub 0x21
  | some e =>
    if e.acc = .rwq ∧ e.size ≠ 0 then
      grantWrite s rq idx sub e.cls (entryPart idx) false v grant
        (fun _ => match valueCheck e v with
          | some st => some st
          | none => extraCheck idx sub (leNat v))
        (fun t use => acceptCommit t rq idx sub 0x21 [] (entryChanges t idx sub v ++ use))
    else denyWrite s rq idx sub 0x21

/-- A write with a grant. -/
def grantedWrite (rq : Req) (idx sub : Nat) (v grant : Bytes) (s : State) : State :=
  if isOwn idx sub then (match ownWrite rq idx sub v grant with
    | some f => if (odEntry idx sub).any (fun e => e.size == 0) then denyWrite s rq idx sub 0x21 else f s
    | none => if waitsForRow idx sub then s else denyWrite s rq idx sub 0x21)
  else genericGrant rq idx sub v grant s

/-- OD_WRITE_GRANT (R568, R570). -/
def execOdWriteGrant (rq : Req) (idx sub : Nat) (v grant : Bytes) (s : State) : Host.Outcome State Fault Refusal :=
  .next (grantedWrite rq idx sub v grant s)

/-! ### Segmented writes -/

/-- Drop what a session has staged (R571). -/
def dropStage (s : State) (n : Nat) : State :=
  s.modOd (fun o => { o with sessions := tmap o.sessions (fun k x => if k = n then { x with stageIdx := none, stageData := [] } else x) })

/-- Whether a DOMAIN entry may be written by segments. -/
def writableDomain (idx sub : Nat) : Bool := (odEntry idx sub).any (fun e => e.size == 0 && e.own)

/-- The whole value of a DOMAIN is there: the entry's own write takes it (R571). -/
def finishSegments (rq : Req) (idx sub : Nat) (v grant : Bytes) (s : State) : State :=
  let op := writeOp true grant
  match (if writableDomain idx sub then ownWrite rq idx sub v grant else none) with
  | none => denyWrite s rq idx sub op
  | some f => f s

/-- A segment in its session: in ascending order under one TOTAL, staged until the one that ends at TOTAL (R571). -/
def sessionSegment (rq : Req) (idx sub offset total : Nat) (data grant : Bytes) (x : Session) (s : State) : State :=
  let op := writeOp true grant
  let held := x.stageIdx == some (idx, sub)
  let at_ := if held then x.stageData.length else 0
  let last := offset + data.length = total
  let bad := offset ≠ at_ ∨ (held ∧ total ≠ x.stageTot) ∨ total < offset + data.length ∨ 2 ^ 24 < total
    ∨ segmentMax rq.transport < data.length ∨ (!last ∧ !grant.isEmpty)
  if bad then serveWrite s rq idx sub op false (fun _ => true) (fun t => refuse (dropStage t rq.session) rq idx sub op .malformed)
  else if last then finishSegments rq idx sub ((if held then x.stageData else []) ++ data) grant (dropStage s rq.session)
  else serveWrite s rq idx sub op false (fun t => writableDomain idx sub && (t.anyRole rq || t.factory || t.openWrite idx sub)) (fun t =>
    let stage (y : Session) : Session := { y with stageIdx := some (idx, sub), stageTot := total, stageUs := t.opUs,
                                                  stageData := (if held then y.stageData else []) ++ data }
    acceptNow (t.modOd (fun o => { o with sessions := tmap o.sessions (fun k y => if k = rq.session then stage y else y) })) rq idx sub op [])

/-- OD_WRITE_SEGMENT: without a session only a whole value can be written (R571). -/
def segmentWrite (rq : Req) (idx sub offset total : Nat) (data grant : Bytes) (s : State) : State :=
  let op := writeOp true grant
  match s.session rq with
  | none =>
    if offset = 0 ∧ data.length = total ∧ data.length ≤ segmentMax rq.transport then finishSegments rq idx sub data grant s
    else serveWrite s rq idx sub op false (fun _ => true) (fun t => refuse t rq idx sub op .malformed)
  | some x =>
    if rq.seq + 1 ≤ x.seq ∨ x.busy then (takeReq s rq idx sub op).1 else sessionSegment rq idx sub offset total data grant x s

/-- OD_WRITE_SEGMENT (R571). -/
def execOdWriteSegment (rq : Req) (idx sub offset total : Nat) (data : Bytes) (s : State) : Host.Outcome State Fault Refusal :=
  .next (segmentWrite rq idx sub offset total data [] s)

/-- OD_WRITE_SEGMENT_GRANT (R571). -/
def execOdWriteSegmentGrant (rq : Req) (idx sub offset total : Nat) (data grant : Bytes) (s : State) : Host.Outcome State Fault Refusal :=
  .next (segmentWrite rq idx sub offset total data grant s)

/-- SEGMENT_STAGING_TIMEOUT: 300 s without a segment (R571). -/
def execSegmentStagingTimeout (session : Nat) (s : State) : Host.Outcome State Fault Refusal :=
  .next (match tget s.od.sessions session with
    | none => s
    | some x => if x.stageUs + 300000000 ≤ s.opUs then dropStage s session else s)

/-! ### Sessions -/

/-- SESSION_OPEN: session ID, module point and challenge, drawn from partition 0's instance (R381, R577, R578; assumption 100). -/
def sessionOpen (rq : Req) (member : Nat) (point : Bytes) (s : State) : State :=
  serveWrite s rq 0 0 0x40 false (fun t => rq.transport != 2 && decide (member < 64) && t.roles member != 0) (fun t =>
    match Ec.decode Ec.p256 point with
    | none => refuse t rq 0 0 0x40 (if point.length = 65 then .inputRange else .malformed)
    | some q =>
      if 32 ≤ t.od.sessions.length then refuse t rq 0 0 0x40 .quota
      else if t.opUs < tgetD t.od.barred member 0 then refuse t rq 0 0 0x40 .notActive
      else if !t.coreReady 72 then s
      else
        let (db, t1) := coreDraw t 40
        let (ch, t2) := coreDraw t1 32
        let d := Ec.scalar Ec.p256 db
        let mp := Ec.encode Ec.p256 (Ec.mul Ec.p256 d (Ec.base Ec.p256))
        let key := kdfHmac (Ec.ecdh Ec.p256 d q) (ascii "NLM-OAP") (point ++ mp) 512
        let x : Session := ⟨member, rq.transport, false, 0, [], false, t2.opUs, point, mp, ch, key, none, 0, [], 0⟩
        let id := t2.od.nextSess
        let t3 := t2.modOd (fun o => { o with sessions := tset o.sessions id x, nextSess := if id + 1 < 2 ^ 32 then id + 1 else 1 })
        acceptNow t3 rq 0 0 0x40 (leBytes 4 id ++ mp ++ ch))

/-- SESSION_OPEN (R577). -/
def execSessionOpen (rq : Req) (member : Nat) (point : Bytes) (s : State) : Host.Outcome State Fault Refusal :=
  .next (sessionOpen rq member point s)

/-- What SESSION_AUTH's signature covers (R577). -/
def authDigest (id : Nat) (x : Session) : Bytes :=
  Sha.sha256 (ascii "NLM-SESSION" ++ serial ++ leBytes 4 id ++ x.clientPt ++ x.modulePt ++ x.challenge)

/-- A failed SESSION_AUTH: counted and recorded; the fifth for a member within 60 s bars it for 60 s (R578, R599). -/
def authFailed (s : State) (member transport : Nat) : State :=
  let l := ((tgetD s.od.fails member []).filter (fun t => decide (s.opUs < t + 60000000))) ++ [s.opUs]
  let t := s.modOd (fun o => { o with
    failures := min 0xFFFFFFFF (o.failures + 1)
    fails := tset o.fails member (if 5 ≤ l.length then [] else l)
    barred := if 5 ≤ l.length then tset o.barred member (s.opUs + 60000000) else o.barred })
  logMain t 4 0x0C00 0x0C01 0xFF member (leBytes 1 transport)

/-- SESSION_AUTH (R577). -/
def sessionAuth (rq : Req) (signature : Bytes) (s : State) : State :=
  serveWrite s rq 0 0 0x41 false (fun t => (t.session rq).any (fun x => x.transport == rq.transport && !x.keyed)) (fun t =>
    match t.session rq with
    | none => refuse t rq 0 0 0x41 .keyUsage
    | some x =>
      if signature.length ≠ 64 then refuse t rq 0 0 0x41 .malformed
      else if Ec.verifyEnc Ec.p256 (t.odGet (0x3500 + x.member) 3) (authDigest rq.session x) signature then
        let t1 := t.modOd (fun o => { o with sessions := tset o.sessions rq.session { x with keyed := true } })
        acceptNow (logMain t1 1 0x0C00 0x0C02 0xFF x.member (leBytes 4 rq.session)) rq 0 0 0x41 []
      else refuse (authFailed t x.member rq.transport) rq 0 0 0x41 .verifyFail)

/-- SESSION_AUTH (R577). -/
def execSessionAuth (rq : Req) (signature : Bytes) (s : State) : Host.Outcome State Fault Refusal := .next (sessionAuth rq signature s)

/-- End a session. -/
def endSession (s : State) (n : Nat) : State := s.modOd (fun o => { o with sessions := terase o.sessions n })

/-- SESSION_CLOSE (R578). -/
def sessionClose (rq : Req) (s : State) : State :=
  serveWrite s rq 0 0 0x42 false (fun t => (t.session rq).any (fun x => x.transport == rq.transport)) (fun t =>
    endSession (acceptNow t rq 0 0 0x42 []) rq.session)

/-- SESSION_CLOSE (R578). -/
def execSessionClose (rq : Req) (s : State) : Host.Outcome State Fault Refusal := .next (sessionClose rq s)

/-- SESSION_IDLE_TIMEOUT: SESSION_IDLE_S without a request (R578). -/
def execSessionIdleTimeout (session : Nat) (s : State) : Host.Outcome State Fault Refusal :=
  .next (match tget s.od.sessions session with
    | none => s
    | some x => if !x.busy && decide (x.lastUs + 1000000 * s.odNat 0x1020 2 ≤ s.opUs) then endSession s session else s)

/-! ### Bodies and envelopes -/

/-- REQUEST_ID: the last four bytes of a body (R570). -/
def bodyId (b : Bytes) : Nat := leNat (slice b (b.length - 4) 4)

/-- Serve a request body (R570, R573): an OP not in the table is BAD_OPCODE, a wrong length MALFORMED. -/
def serveBody (rq : Req) (b : Bytes) (s : State) : State :=
  let idx := leAt b 0 2
  let sub := byteAt b 2
  let op := byteAt b 3
  let n := b.length
  let bad := serveWrite s rq idx sub op true (fun _ => true) (fun t => refuse t rq idx sub op .malformed)
  let sess (len : Nat) (f : State → State) : State := if n ≠ len ∨ idx ≠ 0 ∨ sub ≠ 0 then bad else f s
  match op with
  | 0x01 => if n = 8 then odReadServe rq idx sub s else bad
  | 0x02 => if n = 16 then odReadSegmentServe rq idx sub (leAt b 4 4) (leAt b 8 4) s else bad
  | 0x20 => if 8 ≤ n then plainWrite rq idx sub (slice b 4 (n - 8)) s else bad
  | 0x21 => if 40 ≤ n then grantedWrite rq idx sub (slice b 4 (n - 40)) (slice b (n - 36) 32) s else bad
  | 0x22 => if 20 ≤ n ∧ leAt b 12 4 = n - 20 then segmentWrite rq idx sub (leAt b 4 4) (leAt b 8 4) (slice b 16 (n - 20)) [] s else bad
  | 0x23 => if 52 ≤ n ∧ leAt b 12 4 = n - 52 then
      segmentWrite rq idx sub (leAt b 4 4) (leAt b 8 4) (slice b 16 (n - 52)) (slice b (n - 36) 32) s else bad
  | 0x40 => sess 74 (sessionOpen rq (byteAt b 4) (slice b 5 65))
  | 0x41 => sess 72 (sessionAuth rq (slice b 4 64))
  | 0x42 => sess 8 (sessionClose rq)
  | _ => serveWrite s rq idx sub op true (fun _ => true) (fun t => refuse t rq idx sub op .badOpcode)

/-- What an envelope holds, or the status that refuses it (R579): its request and body. -/
def openEnvelope (s : State) (transport peer : Nat) (env : Bytes) : Except Status (Req × Bytes) :=
  let len := leAt env 2 2
  let id := leAt env 4 4
  let seq := leAt env 8 8
  let enc := transport == 1 && id != 0
  let tail := if id = 0 then 0 else 16
  if byteAt env 0 ≠ 1 ∨ byteAt env 1 ≠ 2 * b2n enc ∨ env.length ≠ 16 + len + tail ∨ len < 8 then .error .malformed
  else if id = 0 then .ok (⟨transport, 0, seq, bodyId (slice env 16 len), peer⟩, slice env 16 len)
  else match tget s.od.sessions id with
    | none => .error .keyUsage
    | some x =>
      if x.transport ≠ transport then .error .keyUsage
      else
        let b := if enc then gcmDec (slice x.key 0 32) (slice env 4 12) (slice env 0 16) (slice env 16 len) (slice env (16 + len) 16)
          else if slice (Sha.hmac256 (slice x.key 32 32) (slice env 0 (16 + len))) 0 16 = slice env (16 + len) 16 then some (slice env 16 len)
          else none
        match b with
        | none => .error .malformed
        | some b => .ok (⟨transport, id, seq, bodyId b, peer⟩, b)

/-- A request that has been taken waits at the dispatcher for its turn (R575). -/
def holdRequest (s : State) (rq : Req) (b : Bytes) : State := s.modOd (fun o => { o with inbox := o.inbox ++ [(rq, b)] })

/-- MAILBOX_GO: the envelope is copied and taken; while BUSY or REPLY_READY it is ignored with REJECTED set (R581, R582). -/
def execMailboxGo (reqLen : Nat) (s : State) : Host.Outcome State Fault Refusal :=
  .next (
    if !s.barOpen 0 then s
    else if s.od.busy || s.od.replyUp then s.modOd (fun o => { o with rejected := true })
    else
      let n := min reqLen 16384
      let env := (List.range n).map (fun i => tgetD s.od.reqBuf i 0#8)
      let t := s.modOd (fun o => { o with busy := true, reqLen := reqLen % 65536 })
      match (if reqLen < 16 ∨ 16384 < reqLen then .error .malformed else openEnvelope t 0 0 env) with
      | .ok (rq, b) => holdRequest t rq b
      | .error st => answer t ⟨0, 0, leAt env 8 8, 0, 0⟩ (replyBody 0 0 0 st.code 0 []))

/-- A request for another position: verified under its session here, and only its body relayed (R536, R583). -/
def relayRequest (s : State) (rq : Req) (dest : Nat) (b : Bytes) : State :=
  let idx := leAt b 0 2
  let (t, go) := takeReq s rq idx (byteAt b 2) (byteAt b 3)
  if !go then t else sendTo (t.modOd (fun o => { o with relays := o.relays ++ [(dest, rq, bodyId b)] })) dest 3 b

/-- The link-local IPv6 address: the EUI-64 form of MAC_ADDRESS (PRESUMED, RFC 4291; R580, assumption 62). -/
def linkLocal : Bytes :=
  let m := (List.range 6).map Config.macByte
  [0xFE#8, 0x80#8] ++ zeros 6 ++ [m.getD 0 0#8 ^^^ 2#8] ++ slice m 1 2 ++ [0xFF#8, 0xFE#8] ++ slice m 3 3

/-- Whether a datagram is addressed to the management port: one of its two addresses, and its UDP port (R580, R585). -/
def State.mgmtAddressed (s : State) (addr : Bytes) (port : Nat) : Bool :=
  port == s.odNat 0x1010 5 && (addr == linkLocal || (addr == s.odGet 0x1010 3 && !allZero addr))

/-- MGMT_DATAGRAM: one envelope, for this module or for another position (R536, R580, R583). -/
def execMgmtDatagram (peer : Nat) (dst : MgmtPath) (data : Bytes) (s : State) : Host.Outcome State Fault Refusal :=
  .next (
    if s.odNat 0x1010 1 = 0 ∨ !s.od.mgmtUp ∨ s.power.stopPoint = 0 ∨ !s.mgmtAddressed dst.addr dst.port then s
    else match openEnvelope s 1 peer data with
      | .error st => answer s ⟨1, 0, leAt data 8 8, 0, peer⟩ (replyBody 0 0 0 st.code 0 [])
      | .ok (rq, b) => if dst.position = s.position then holdRequest s rq b else relayRequest s rq dst.position b)

/-- MGMT_LINK_CHANGE (R585). -/
def execMgmtLinkChange (up : Bool) (s : State) : Host.Outcome State Fault Refusal := .next (s.modOd (fun o => { o with mgmtUp := up }))

/-- The reply to a relayed request returns inside its session (R536, R583). -/
def relayedReply (s : State) (src : Nat) (b : Bytes) : State :=
  let id := leAt b 8 4
  match s.od.relays.find? (fun r => r.1 == src && r.2.2 == id) with
  | none => s
  | some r =>
    let t := (s.modOd (fun o => { o with relays := o.relays.erase r })).modSeam (fun m => { m with
      unacked := m.unacked.filter (fun f => !(f.cls == 3 && f.dest == src)) })
    sendReply t r.2.1 (leAt b 0 2) (byteAt b 2) (byteAt b 3 - 0x80) (leAt b 4 2) (b.drop 12)

/-- MGMT_FRAME_RECEIVE: a reply to a relayed request, or a bare body that this module serves and answers over the Seam (R536, R537,
R583); a write that waits for its own row stands at the dispatcher. -/
def execMgmtFrameReceive (src : Nat) (body : Bytes) (s : State) : Host.Outcome State Fault Refusal :=
  .next (
    if s.power.stopPoint = 0 then s
    else if 0x80 ≤ byteAt body 3 then relayedReply s (src % 1024) body
    else
      let rq : Req := ⟨2, 0, 0, bodyId body, src % 1024⟩
      if waitsForRow (leAt body 0 2) (byteAt body 2) ∧ 0x20 ≤ byteAt body 3 then holdRequest s rq body
      else
        let t := serveBody rq body s
        let new := t.bus.replies.drop s.bus.replies.length
        new.foldl (fun u e => if e.1 = rq then sendTo u (src % 1024) 3 e.2 else u) t)

end Sys2Proof.Machine
end

