-- ==== Sys2Proof/Machine/Raw.lean ====
section
/-! DEFINITION. Raw arithmetic on Hawkmoth engines: sessions, the operand bank with its secret tags, and the opcodes 0x901 to
0x90B (R332 to R350). -/

namespace Sys2Proof.Machine

/-! ### The bank (R328, R339, R343) -/

/-- A word of the bank. -/
def Engine.word (e : Engine) (o : Nat) : BankWord := tgetD e.bank o ⟨0, false⟩

/-- The integer that `n` words spell, least significant first. -/
def Engine.value (e : Engine) (o n : Nat) : Nat :=
  (List.range n).foldr (fun i v => (e.word (o + i)).v + 2 ^ 64 * v) 0

/-- Whether a range holds a tagged word. -/
def Engine.tagged (e : Engine) (o n : Nat) : Bool := (List.range n).any (fun i => (e.word (o + i)).tag)

/-- Write an integer over `n` words, all tagged or all untagged. -/
def Engine.put (e : Engine) (o n v : Nat) (tag : Bool) : Engine :=
  { e with bank := (List.range n).foldl (fun b i => cset ⟨0, false⟩ b (o + i) ⟨v / 2 ^ (64 * i) % 2 ^ 64, tag⟩) e.bank }

/-! ### Sessions (R334 to R336) -/

/-- Sessions that are open or about to open, for those of a partition or all. -/
def State.sessions (s : State) (keep : Nat → Bool) : Nat :=
  tcount s.units.engines (fun _ e => e.st == .session && keep e.sessPart) +
    tcount s.adm.slots (fun n y => keep y.part && s.units.engines.any (fun e => e.2.reservedBy == some n))

/-- The engine a session reserves: in service, unreserved, with the fewest queued commands (R334). -/
def State.openEngine (s : State) : Option Nat :=
  (List.range 48).foldl (fun m e =>
    if !(s.engine e).open_ then m
    else match m with
      | none => some e
      | some b => if (s.engine e).queue.length < (s.engine b).queue.length then some e else some b) none

/-- RAW_SESSION_OPEN: the quota, and the reservation of an engine (R334). -/
def execRawSessionOpen (slot : Nat) (s : State) : Host.Outcome State Fault Refusal :=
  .next (match s.due slot 0x901 with
    | none => s
    | some x =>
      if s.quota x.part 0x0F ≤ s.sessions (fun p => p == x.part) ∨ 32 ≤ s.sessions (fun _ => true) then
        settle s s slot x (.fail .quota)
      else match s.openEngine with
        | none => s
        | some e =>
          (s.modEngine e (fun g => { g with reservedBy := some slot })).modSlot slot
            (fun y => { y with stage := .queued, unit := some (.hawkmoth, e), started := true }))

/-- The session opens: the engine has zeroed itself, counts its generation, and the ID is returned (R333, R334). -/
def grantSession (s : State) (engine n : Nat) (x : Slot) : State :=
  let gen := ((s.engine engine).openGen + 1) % 2 ^ 16
  let id := gen * 2 ^ 16 + engine
  let s1 := s.modEngine engine (fun g =>
    { g.zeroed with st := .session, reservedBy := none, openGen := gen, sess := id, sessPart := x.part, sessRid := x.rid, sessKey := 0,
                    lastUs := s.opUs })
  let s2 := s1.modSlot n (fun y => { y with sess := id, time24 := 20 * 1024 })
  settle s s2 n x (.inl (leBytes 4 id))

/-- Give an engine's reservation up. -/
def dropReserve (s : State) (engine : Nat) : State := s.modEngine engine (fun g => { g with reservedBy := none })

/-- RAW_SESSION_GRANTED: the reserved engine has finished its work and zeroed itself; it returns the session ID. One that tests itself is
waited for, and one gone OFFLINE is given up for another (R334, R358). -/
def execRawSessionGranted (engine : Nat) (s : State) : Host.Outcome State Fault Refusal :=
  .next (match (s.engine engine).reservedBy with
    | none => s
    | some n => match s.slot n with
      | none => dropReserve s engine
      | some x =>
        if x.stage ≠ .queued then dropReserve s engine
        else if (s.engine engine).st = .offline then
          (dropReserve s engine).modSlot n (fun y => { y with stage := .bound, unit := none, started := false })
        else if (s.engine engine).queue ≠ [] ∨ (s.engine engine).st = .inReset then s
        else match x.cut with
          | some st => endCut (dropReserve s engine) n x st false
          | none => grantSession s engine n x)

/-- RAW_SESSION_IDLE_TIMEOUT: 10 s without a command for the session (R336). -/
def execRawSessionIdleTimeout (engine : Nat) (s : State) : Host.Outcome State Fault Refusal :=
  .next (
    if (s.engine engine).lastUs + 10000000 ≤ s.opUs ∧ (s.engine engine).queue = [] ∧
        !(tvals s.adm.slots).any (fun y => isRaw (opcode y.desc) && y.res.isNone && s.rawEngine y == some engine)
    then closeSession s engine else s)

/-! ### The commands of a session -/

/-- The engine a raw command ran on, while its session is open there (R335). -/
def State.rawUnit (s : State) (x : Slot) : Option Nat :=
  match x.unit with
  | some (.hawkmoth, e) => if s.holdsSession x then some e else none
  | _ => none

/-- Settle a raw command: `f` gives its outcome and the engine after it; one whose session is not open does nothing (R335). -/
def runRaw (op n : Nat) (f : State → Slot → Engine → Out × Engine) (s : State) : Host.Outcome State Fault Refusal :=
  .next (match s.due n op with
    | none => s
    | some x => match s.rawUnit x with
      | none => settle s s n x (.fail .inputRange)
      | some e =>
        let (o, g) := f s x (s.engine e)
        settle s (s.modEngine e (fun _ => g)) n x o)

/-- RAW_SESSION_CLOSE (R336). -/
def execRawSessionClose (slot : Nat) (s : State) : Host.Outcome State Fault Refusal :=
  .next (match s.due slot 0x902 with
    | none => s
    | some x => match s.rawUnit x with
      | none => settle s s slot x (.fail .inputRange)
      | some e => settle s (closeEngine s e) slot x {})

/-- The integer RAW_LOAD takes, in either byte order (R337). -/
def rawLoadValue (x : Slot) : Nat :=
  let d := x.desc
  let b := if dSrc d = 0 then slice d 64 (8 * rawWords d) else x.src.getD []
  if rawBig d then beNat b else leNat b

/-- RAW_LOAD. -/
def rawLoadOut (_ : State) (x : Slot) (g : Engine) : Out × Engine :=
  ({}, g.put (rawR x.desc) (rawWords x.desc) (rawLoadValue x) false)

/-- RAW_LOAD. -/
def execRawLoad (slot : Nat) (s : State) : Host.Outcome State Fault Refusal := runRaw 0x903 slot rawLoadOut s

/-- What a command with KEY1 fails with before it starts: the partition's RAW_KEYS, or another session key (R340, R341). -/
def rawKeyFault (s : State) (x : Slot) (g : Engine) (needsKeys : Bool) : Option Out :=
  let h := dKey x.desc 1
  if needsKeys && s.policyEntry x.part 0x15 != 1 then some (.usage 1)
  else if h ≠ 0 ∧ g.sessKey ≠ 0 ∧ g.sessKey ≠ h then some (.usage 1)
  else none

/-- The words a component takes, its value, and whether it is tagged (R340). -/
def rawComponent (r : Rec) (c : Nat) : Nat × Nat × Bool :=
  let k := rsaBits r.alg
  let pk := rsaPub r.alg false r.material
  if c = 0 then (k / 64, rsaN r.alg pk, false)
  else if c = 1 then (1, rsaE r.alg pk, false)
  else (ceilDiv k 128, rsaPart r.alg r.material (c - 2), true)

/-- RAW_LOAD_KEY (R340, R341). -/
def rawLoadKeyOut (s : State) (x : Slot) (g : Engine) : Out × Engine :=
  let d := x.desc
  if dKey d 1 = 0 then (.fail .inputRange, g)
  else match rawKeyFault s x g true with
    | some o => (o, g)
    | none =>
      let (n, v, tag) := rawComponent (x.keyD 1) (rawComp d)
      let g1 := { g with sessKey := dKey d 1 }
      if rawWords d ≠ n then (.fail .inputRange, g1) else ({}, g1.put (rawR d) n v tag)

/-- RAW_LOAD_KEY. -/
def execRawLoadKey (slot : Nat) (s : State) : Host.Outcome State Fault Refusal := runRaw 0x904 slot rawLoadKeyOut s

/-- RAW_READ (R343). -/
def rawReadOut (_ : State) (x : Slot) (g : Engine) : Out × Engine :=
  let d := x.desc
  let n := rawWords d
  let v := g.value (rawA d) n
  let b := if rawBig d then beBytes (8 * n) v else leBytes (8 * n) v
  if g.tagged (rawA d) n then (.fail .inputRange, g) else (if dDst d = 0 then .inl b else .toDst b, g)

/-- RAW_READ. -/
def execRawRead (slot : Nat) (s : State) : Host.Outcome State Fault Refusal := runRaw 0x905 slot rawReadOut s

/-! ### Modular arithmetic (R342 to R347) -/

/-- The operands of a modular command with their tags. -/
structure RawIn where
  a  : Nat
  b  : Nat
  n  : Nat
  e  : Nat
  ta : Bool
  tb : Bool
  tn : Bool
  te : Bool
  deriving DecidableEq, Repr

/-- Read the operands a command has. -/
def rawIn (d : Bytes) (g : Engine) (hasB hasE : Bool) : RawIn :=
  let n := rawWords d
  ⟨g.value (rawA d) n, if hasB then g.value (rawB d) n else 0, g.value (rawN d) n, if hasE then g.value (rawE d) (rawNe d) else 0,
   g.tagged (rawA d) n, hasB && g.tagged (rawB d) n, g.tagged (rawN d) n, hasE && g.tagged (rawE d) (rawNe d)⟩

/-- Whether any word read is tagged (R342). -/
def RawIn.secret (i : RawIn) : Bool := i.ta || i.tb || i.tn || i.te

/-- The range checks, made on untagged words alone (R345, R347). -/
def RawIn.rangeOk (i : RawIn) : Bool :=
  i.tn || (decide (i.n % 2 = 1 ∧ 3 ≤ i.n) && (i.ta || decide (i.a < i.n)) && (i.tb || decide (i.b < i.n)))

/-- A tagged modulus that is even or below 3 gives zero (R347). -/
def RawIn.badModulus (i : RawIn) : Bool := decide (i.n % 2 = 0 ∨ i.n < 3)

/-- One modular command: `checks` counts the range checks of R344, `f` computes the result where there is one. -/
def rawArith (op n checks : Nat) (hasB hasE : Bool) (f : RawIn → Option Nat) (s : State) : Host.Outcome State Fault Refusal :=
  .next (match s.due n op with
    | none => s
    | some x => match s.rawUnit x with
      | none => settle s s n x (.fail .inputRange)
      | some e =>
        let d := x.desc
        let g := s.engine e
        let i := rawIn d g hasB hasE
        match rawKeyFault s x g false with
        | some o => settle s s n x o
        | none =>
          if i.secret != (dKey d 1 != 0) then settle s s n x (.fail .inputRange)
          else if !i.rangeOk then
            let t := if i.secret then s
              else s.modSlot n (fun y => { y with time24 := 20 * checks * (chunksOf (rawWords d) + 3) })
            settle s t n x (.fail .inputRange)
          else match (if i.badModulus then some 0 else f i) with
            | some v => settle s (s.modEngine e (fun g => g.put (rawR d) (rawWords d) v i.secret)) n x {}
            | none =>
              if i.secret then settle s (s.modEngine e (fun g => g.put (rawR d) (rawWords d) 0 true)) n x {}
              else settle s s n x (.fail .inputRange))

/-- RAW_MODADD. -/
def execRawModadd (slot : Nat) (s : State) : Host.Outcome State Fault Refusal :=
  rawArith 0x906 slot 2 true false (fun i => some ((i.a + i.b) % i.n)) s

/-- RAW_MODSUB. -/
def execRawModsub (slot : Nat) (s : State) : Host.Outcome State Fault Refusal :=
  rawArith 0x907 slot 2 true false (fun i => some ((i.a % i.n + (i.n - i.b % i.n)) % i.n)) s

/-- RAW_MODMUL. -/
def execRawModmul (slot : Nat) (s : State) : Host.Outcome State Fault Refusal :=
  rawArith 0x908 slot 2 true false (fun i => some (i.a * i.b % i.n)) s

/-- RAW_MODINV (R346, R347). -/
def execRawModinv (slot : Nat) (s : State) : Host.Outcome State Fault Refusal :=
  rawArith 0x909 slot 1 false false (fun i => invMod i.a i.n) s

/-- The private exponentiation of RAW_MODEXP (R343). -/
def rawPrivateOut (s : State) (x : Slot) (g : Engine) : Out × Engine :=
  let d := x.desc
  let r := x.keyD 1
  if dKey d 1 = 0 then (.fail .inputRange, g)
  else match rawKeyFault s x g true with
    | some o => (o, g)
    | none =>
      let g1 := { g with sessKey := dKey d 1 }
      if rawWords d ≠ rsaBits r.alg / 64 ∨ g.tagged (rawA d) (rawWords d) then (.fail .inputRange, g1)
      else ({}, g1.put (rawR d) (rawWords d) (rsaDec r.alg r.material (g.value (rawA d) (rawWords d))) false)

/-- RAW_MODEXP (R343 to R347). -/
def execRawModexp (slot : Nat) (s : State) : Host.Outcome State Fault Refusal :=
  match s.due slot 0x90A with
  | none => .next s
  | some x => if rawPriv x.desc then runRaw 0x90A slot rawPrivateOut s
    else rawArith 0x90A slot 1 false true (fun i => some (powMod i.a i.e i.n)) s

/-! ### Abort (R349) -/

/-- The commands of a session that run or wait. -/
def State.sessionWork (s : State) (e : Nat) : Tab Slot :=
  s.adm.slots.filter (fun p => let y := p.2
    isRaw (opcode y.desc) && opcode y.desc != 0x901 && opcode y.desc != 0x90B && y.res.isNone && y.stage != .reading &&
      y.cut.isNone && s.rawEngine y == some e)

/-- Abort one command of a session: on the engine it ends when the engine has zeroed itself, elsewhere at once. -/
def abortOne (s : State) (n : Nat) (x : Slot) : State :=
  match x.unit with
  | some _ => (failChain s n).modSlot n (fun y => { y with cut := some .aborted })
  | none => if (s.slot n).any (fun y => y.res.isNone) then fail s n .aborted 0 else s

/-- RAW_ABORT: it acts at its own dispatch, closes the session and counts what it aborts (R335, R336, R349). -/
def execRawAbort (slot : Nat) (s : State) : Host.Outcome State Fault Refusal :=
  .next (match s.due slot 0x90B with
    | none => s
    | some x => match s.rawEngine x with
      | none => settle s s slot x (.fail .inputRange)
      | some e =>
        let l := s.sessionWork e
        let s1 := l.foldl (fun t p => abortOne t p.1 p.2) s
        settle s (closeEngine s1 e) slot x (.inl (leBytes 2 l.length)))

end Sys2Proof.Machine
end

