-- ==== Sys2Proof/Machine/Dispatch.lean ====
section
/-! DEFINITION. One arm per command: its meaning, by name. -/

namespace Sys2Proof.Machine

/-- What a command does to everything but the queue. -/
def exec (i : Instr) (s : State) : Host.Outcome State Fault Refusal :=
  match i with
  | .doorbell fn page p t => Sys2Proof.Machine.execDoorbell fn page p t s
  | .descriptorReadIssue rid => Sys2Proof.Machine.execDescriptorReadIssue rid s
  | .descriptorArrival rid data => Sys2Proof.Machine.execDescriptorArrival rid data s
  | .readFault slot addr => Sys2Proof.Machine.execReadFault slot addr s
  | .readTimeout slot addr => Sys2Proof.Machine.execReadTimeout slot addr s
  | .chainReservationTake rid => Sys2Proof.Machine.execChainReservationTake rid s
  | .keyBind slot => Sys2Proof.Machine.execKeyBind slot s
  | .keyCacheMissDone slot => Sys2Proof.Machine.execKeyCacheMissDone slot s
  | .reservationEntryFree slot => Sys2Proof.Machine.execReservationEntryFree slot s
  | .stepDispatch slot unit => Sys2Proof.Machine.execStepDispatch slot unit s
  | .seedPoolDrawServed => Sys2Proof.Machine.execSeedPoolDrawServed s
  | .skipperStepDone slot => Sys2Proof.Machine.execSkipperStepDone slot s
  | .hashStepDone unit => Sys2Proof.Machine.execHashStepDone unit s
  | .hawkmothOpDone engine agree => Sys2Proof.Machine.execHawkmothOpDone engine agree s
  | .plumeOpDone unit agree => Sys2Proof.Machine.execPlumeOpDone unit agree s
  | .engineSelfTestDone cls unit pass => Sys2Proof.Machine.execEngineSelfTestDone cls unit pass s
  | .engineAbortDone cls unit => Sys2Proof.Machine.execEngineAbortDone cls unit s
  | .commitCycleClose => Sys2Proof.Machine.execCommitCycleClose s
  | .journalPageClose => Sys2Proof.Machine.execJournalPageClose s
  | .journalPageProgrammed => Sys2Proof.Machine.execJournalPageProgrammed s
  | .commitCycleAck cycle => Sys2Proof.Machine.execCommitCycleAck cycle s
  | .commitCycleReceive c => Sys2Proof.Machine.execCommitCycleReceive c s
  | .cycleAckTimeout => Sys2Proof.Machine.execCycleAckTimeout s
  | .completionWrite slot => Sys2Proof.Machine.execCompletionWrite slot s
  | .nop slot => Sys2Proof.Machine.execNop slot s
  | .keyGenerate slot => Sys2Proof.Machine.execKeyGenerate slot s
  | .keyGeneratePair slot => Sys2Proof.Machine.execKeyGeneratePair slot s
  | .keyDerive slot => Sys2Proof.Machine.execKeyDerive slot s
  | .keyImportTr31 slot => Sys2Proof.Machine.execKeyImportTr31 slot s
  | .keyImportWrap slot => Sys2Proof.Machine.execKeyImportWrap slot s
  | .keyExportTr31 slot => Sys2Proof.Machine.execKeyExportTr31 slot s
  | .keyExportWrap slot => Sys2Proof.Machine.execKeyExportWrap slot s
  | .keyInvalidate slot => Sys2Proof.Machine.execKeyInvalidate slot s
  | .keyDestroy slot => Sys2Proof.Machine.execKeyDestroy slot s
  | .keyQuery slot => Sys2Proof.Machine.execKeyQuery slot s
  | .keyRestrict slot => Sys2Proof.Machine.execKeyRestrict slot s
  | .keyImportPublic slot => Sys2Proof.Machine.execKeyImportPublic slot s
  | .keyExportPublic slot => Sys2Proof.Machine.execKeyExportPublic slot s
  | .pinTranslate slot => Sys2Proof.Machine.execPinTranslate slot s
  | .pinVerifyOffset slot => Sys2Proof.Machine.execPinVerifyOffset slot s
  | .pinVerifyValue slot => Sys2Proof.Machine.execPinVerifyValue slot s
  | .pinGenerate slot => Sys2Proof.Machine.execPinGenerate slot s
  | .pinChange slot => Sys2Proof.Machine.execPinChange slot s
  | .macGenerate slot => Sys2Proof.Machine.execMacGenerate slot s
  | .macVerify slot => Sys2Proof.Machine.execMacVerify slot s
  | .macTranslate slot => Sys2Proof.Machine.execMacTranslate slot s
  | .cvvGenerate slot => Sys2Proof.Machine.execCvvGenerate slot s
  | .cvvVerify slot => Sys2Proof.Machine.execCvvVerify slot s
  | .dukptPinTranslate slot => Sys2Proof.Machine.execDukptPinTranslate slot s
  | .dukptMacGenerate slot => Sys2Proof.Machine.execDukptMacGenerate slot s
  | .dukptMacVerify slot => Sys2Proof.Machine.execDukptMacVerify slot s
  | .dukptData slot => Sys2Proof.Machine.execDukptData slot s
  | .dukptInitialKey slot => Sys2Proof.Machine.execDukptInitialKey slot s
  | .dukptOriginatePin slot => Sys2Proof.Machine.execDukptOriginatePin slot s
  | .dukptOriginateMac slot => Sys2Proof.Machine.execDukptOriginateMac slot s
  | .emvArqcVerify slot => Sys2Proof.Machine.execEmvArqcVerify slot s
  | .emvScriptMac slot => Sys2Proof.Machine.execEmvScriptMac slot s
  | .emvScriptEncrypt slot => Sys2Proof.Machine.execEmvScriptEncrypt slot s
  | .emvScriptPin slot => Sys2Proof.Machine.execEmvScriptPin slot s
  | .authoriseBundle slot => Sys2Proof.Machine.execAuthoriseBundle slot s
  | .ff1Tokenise slot => Sys2Proof.Machine.execFf1Tokenise slot s
  | .ff1Detokenise slot => Sys2Proof.Machine.execFf1Detokenise slot s
  | .bulkEncrypt slot => Sys2Proof.Machine.execBulkEncrypt slot s
  | .bulkDecrypt slot => Sys2Proof.Machine.execBulkDecrypt slot s
  | .sign slot => Sys2Proof.Machine.execSign slot s
  | .verify slot => Sys2Proof.Machine.execVerify slot s
  | .keyAgree slot => Sys2Proof.Machine.execKeyAgree slot s
  | .kemEncapsulate slot => Sys2Proof.Machine.execKemEncapsulate slot s
  | .kemDecapsulate slot => Sys2Proof.Machine.execKemDecapsulate slot s
  | .randomBytes slot => Sys2Proof.Machine.execRandomBytes slot s
  | .drbgReseed slot => Sys2Proof.Machine.execDrbgReseed slot s
  | .rawSessionOpen slot => Sys2Proof.Machine.execRawSessionOpen slot s
  | .rawSessionGranted engine => Sys2Proof.Machine.execRawSessionGranted engine s
  | .rawSessionClose slot => Sys2Proof.Machine.execRawSessionClose slot s
  | .rawLoad slot => Sys2Proof.Machine.execRawLoad slot s
  | .rawLoadKey slot => Sys2Proof.Machine.execRawLoadKey slot s
  | .rawRead slot => Sys2Proof.Machine.execRawRead slot s
  | .rawModadd slot => Sys2Proof.Machine.execRawModadd slot s
  | .rawModsub slot => Sys2Proof.Machine.execRawModsub slot s
  | .rawModmul slot => Sys2Proof.Machine.execRawModmul slot s
  | .rawModinv slot => Sys2Proof.Machine.execRawModinv slot s
  | .rawModexp slot => Sys2Proof.Machine.execRawModexp slot s
  | .rawAbort slot => Sys2Proof.Machine.execRawAbort slot s
  | .rawSessionIdleTimeout engine => Sys2Proof.Machine.execRawSessionIdleTimeout engine s
  | .orphanSweepFree record => Sys2Proof.Machine.execOrphanSweepFree record s
  | .dramPatrolScrub record correctable => Sys2Proof.Machine.execDramPatrolScrub record correctable s
  | .keyCacheScrub critical key correctable => Sys2Proof.Machine.execKeyCacheScrub critical key correctable s
  | .sensorCalibration sensor => Sys2Proof.Machine.execSensorCalibration sensor s
  | .telemetryRefresh dieTemp cocoonTemp inputMv inputMw nandWear => Sys2Proof.Machine.execTelemetryRefresh dieTemp cocoonTemp inputMv inputMw nandWear s
  | .recordRecoveryReply record src copy => Sys2Proof.Machine.execRecordRecoveryReply record src copy s
  | .perstAssert => Sys2Proof.Machine.execPerstAssert s
  | .perstDeassert => Sys2Proof.Machine.execPerstDeassert s
  | .hotReset => Sys2Proof.Machine.execHotReset s
  | .linkDownTimeout => Sys2Proof.Machine.execLinkDownTimeout s
  | .linkTrained speed width reversed => Sys2Proof.Machine.execLinkTrained speed width reversed s
  | .vfEnableSet numVfs => Sys2Proof.Machine.execVfEnableSet numVfs s
  | .vfEnableClear => Sys2Proof.Machine.execVfEnableClear s
  | .busMasterEnableClear fn => Sys2Proof.Machine.execBusMasterEnableClear fn s
  | .d3hotEntry fn => Sys2Proof.Machine.execD3hotEntry fn s
  | .d0Return fn => Sys2Proof.Machine.execD0Return fn s
  | .functionLevelReset fn => Sys2Proof.Machine.execFunctionLevelReset fn s
  | .disableBufferTimeout slot => Sys2Proof.Machine.execDisableBufferTimeout slot s
  | .disableAck part => Sys2Proof.Machine.execDisableAck part s
  | .functionWedged fn => Sys2Proof.Machine.execFunctionWedged fn s
  | .resetCold key => Sys2Proof.Machine.execResetCold key s
  | .resetWarm key => Sys2Proof.Machine.execResetWarm key s
  | .hifFnErrRead fn => Sys2Proof.Machine.execHifFnErrRead fn s
  | .registerWrite fn bar offset size value => Sys2Proof.Machine.execRegisterWrite fn bar offset size value s
  | .ideCheckFailed stream => Sys2Proof.Machine.execIdeCheckFailed stream s
  | .doeDiscovery index => Sys2Proof.Machine.execDoeDiscovery index s
  | .spdmGetCertificate head offset length => Sys2Proof.Machine.execSpdmGetCertificate head offset length s
  | .spdmChallenge head nonce => Sys2Proof.Machine.execSpdmChallenge head nonce s
  | .spdmGetMeasurements head signed nonce => Sys2Proof.Machine.execSpdmGetMeasurements head signed nonce s
  | .spdmKeyExchange head point => Sys2Proof.Machine.execSpdmKeyExchange head point s
  | .keyProg stream keySet rx key => Sys2Proof.Machine.execKeyProg stream keySet rx key s
  | .kSetGo stream keySet rx => Sys2Proof.Machine.execKSetGo stream keySet rx s
  | .kSetStop stream keySet rx => Sys2Proof.Machine.execKSetStop stream keySet rx s
  | .schedulingEpoch => Sys2Proof.Machine.execSchedulingEpoch s
  | .quotaWrite rq part sub v => Sys2Proof.Machine.execQuotaWrite rq part sub v s
  | .partitionFunctionWrite rq part fn grant => Sys2Proof.Machine.execPartitionFunctionWrite rq part fn grant s
  | .partitionEnableWrite rq part v grant => Sys2Proof.Machine.execPartitionEnableWrite rq part v grant s
  | .ringEnable rid => Sys2Proof.Machine.execRingEnable rid s
  | .ringDisable rid => Sys2Proof.Machine.execRingDisable rid s
  | .ringResume rid => Sys2Proof.Machine.execRingResume rid s
  | .ringSettle rid => Sys2Proof.Machine.execRingSettle rid s
  | .grpDigEnable gid base sizeLog2 => Sys2Proof.Machine.execGrpDigEnable gid base sizeLog2 s
  | .grpDigDisable gid => Sys2Proof.Machine.execGrpDigDisable gid s
  | .grpDigBaseRead gid => Sys2Proof.Machine.execGrpDigBaseRead gid s
  | .grpDigConsWrite gid c => Sys2Proof.Machine.execGrpDigConsWrite gid c s
  | .partitionCreate rq part grant => Sys2Proof.Machine.execPartitionCreate rq part grant s
  | .partitionDestroy rq part grant => Sys2Proof.Machine.execPartitionDestroy rq part grant s
  | .bindingMaskWrite rq part mask grant => Sys2Proof.Machine.execBindingMaskWrite rq part mask grant s
  | .manifestWrite rq m grant => Sys2Proof.Machine.execManifestWrite rq m grant s
  | .announcedMrWrite rq k v grant => Sys2Proof.Machine.execAnnouncedMrWrite rq k v grant s
  | .finalise rq grant => Sys2Proof.Machine.execFinalise rq grant s
  | .cancel rq grant => Sys2Proof.Machine.execCancel rq grant s
  | .quorumOpen rq cls part uses digest => Sys2Proof.Machine.execQuorumOpen rq cls part uses digest s
  | .quorumApprove rq id member signature => Sys2Proof.Machine.execQuorumApprove rq id member signature s
  | .cardApprove rq id port credential agree => Sys2Proof.Machine.execCardApprove rq id port credential agree s
  | .quorumRequestLapse id => Sys2Proof.Machine.execQuorumRequestLapse id s
  | .policyWrite rq cls sub v grant => Sys2Proof.Machine.execPolicyWrite rq cls sub v grant s
  | .memberWrite rq member sub v grant => Sys2Proof.Machine.execMemberWrite rq member sub v grant s
  | .componentStart rq template parent count grant => Sys2Proof.Machine.execComponentStart rq template parent count grant s
  | .componentLoad rq port credential point signature answer => Sys2Proof.Machine.execComponentLoad rq port credential point signature answer s
  | .componentLoadTimeout => Sys2Proof.Machine.execComponentLoadTimeout s
  | .tier0Destroy rq handle grant => Sys2Proof.Machine.execTier0Destroy rq handle grant s
  | .pinPolicyWrite rq part v grant => Sys2Proof.Machine.execPinPolicyWrite rq part v grant s
  | .decTableWrite rq part table v grant => Sys2Proof.Machine.execDecTableWrite rq part table v grant s
  | .atcCapacityWrite rq part v grant => Sys2Proof.Machine.execAtcCapacityWrite rq part v grant s
  | .atcWindowWrite rq part v grant => Sys2Proof.Machine.execAtcWindowWrite rq part v grant s
  | .looperKdFormation => Sys2Proof.Machine.execLooperKdFormation s
  | .looperIdentitySeal => Sys2Proof.Machine.execLooperIdentitySeal s
  | .looperIdentityUnseal => Sys2Proof.Machine.execLooperIdentityUnseal s
  | .looperRecordKeyFormation => Sys2Proof.Machine.execLooperRecordKeyFormation s
  | .looperNandKeyFormation => Sys2Proof.Machine.execLooperNandKeyFormation s
  | .looperRecordSeal seq => Sys2Proof.Machine.execLooperRecordSeal seq s
  | .looperRefused code => Sys2Proof.Machine.execLooperRefused code s
  | .looperBlockDone => Sys2Proof.Machine.execLooperBlockDone s
  | .entropyBlockRelease => Sys2Proof.Machine.execEntropyBlockRelease s
  | .warmupEnd => Sys2Proof.Machine.execWarmupEnd s
  | .entropyReady => Sys2Proof.Machine.execEntropyReady s
  | .conditionerBlockOut rawBits => Sys2Proof.Machine.execConditionerBlockOut rawBits s
  | .entropyBlockArrival => Sys2Proof.Machine.execEntropyBlockArrival s
  | .entropyHealthFail cause groups => Sys2Proof.Machine.execEntropyHealthFail cause groups s
  | .entropyTransportFault => Sys2Proof.Machine.execEntropyTransportFault s
  | .entropyBlockTimeout => Sys2Proof.Machine.execEntropyBlockTimeout s
  | .laneGeneratorRekey lane => Sys2Proof.Machine.execLaneGeneratorRekey lane s
  | .laneGeneratorStall lane => Sys2Proof.Machine.execLaneGeneratorStall lane s
  | .engineGeneratorRekey gen => Sys2Proof.Machine.execEngineGeneratorRekey gen s
  | .engineGeneratorStall gen => Sys2Proof.Machine.execEngineGeneratorStall gen s
  | .drbgInstantiate part => Sys2Proof.Machine.execDrbgInstantiate part s
  | .drbgReseedInterval part => Sys2Proof.Machine.execDrbgReseedInterval part s
  | .drbgReseedCount part => Sys2Proof.Machine.execDrbgReseedCount part s
  | .drbgStagingRefill part => Sys2Proof.Machine.execDrbgStagingRefill part s
  | .drbgTokenGrant slot => Sys2Proof.Machine.execDrbgTokenGrant slot s
  | .tapCtlWrite rq v grant => Sys2Proof.Machine.execTapCtlWrite rq v grant s
  | .holdoffWindowClose group => Sys2Proof.Machine.execHoldoffWindowClose group s
  | .msixCommit source => Sys2Proof.Machine.execMsixCommit source s
  | .vectorControlWrite fn vector mask => Sys2Proof.Machine.execVectorControlWrite fn vector mask s
  | .functionMaskWrite fn mask => Sys2Proof.Machine.execFunctionMaskWrite fn mask s
  | .vectorControlRead fn vector => Sys2Proof.Machine.execVectorControlRead fn vector s
  | .messageControlRead fn => Sys2Proof.Machine.execMessageControlRead fn s
  | .eicSrcPendW1c fn word v => Sys2Proof.Machine.execEicSrcPendW1c fn word v s
  | .eicHoldWrite fn hold => Sys2Proof.Machine.execEicHoldWrite fn hold s
  | .eicGlobalHoldWrite hold => Sys2Proof.Machine.execEicGlobalHoldWrite hold s
  | .eicMapWrite fn k v => Sys2Proof.Machine.execEicMapWrite fn k v s
  | .coreHandlerEntry core => Sys2Proof.Machine.execCoreHandlerEntry core s
  | .coreClaimRead core => Sys2Proof.Machine.execCoreClaimRead core s
  | .coreCompletionWrite core source => Sys2Proof.Machine.execCoreCompletionWrite core source s
  | .coreHandlerReturn core => Sys2Proof.Machine.execCoreHandlerReturn core s
  | .coreWatchdogRestart core => Sys2Proof.Machine.execCoreWatchdogRestart core s
  | .coreWatchdogStage1 core => Sys2Proof.Machine.execCoreWatchdogStage1 core s
  | .coreWatchdogStage2 core => Sys2Proof.Machine.execCoreWatchdogStage2 core s
  | .wakeLatch source => Sys2Proof.Machine.execWakeLatch source s
  | .wakeTimer => Sys2Proof.Machine.execWakeTimer s
  | .wakeListWrite rq entry source => Sys2Proof.Machine.execWakeListWrite rq entry source s
  | .wakeTimerSWrite rq v => Sys2Proof.Machine.execWakeTimerSWrite rq v s
  | .idleEntry => Sys2Proof.Machine.execIdleEntry s
  | .idleExit source => Sys2Proof.Machine.execIdleExit source s
  | .mantleChannelAlarm channel reading => Sys2Proof.Machine.execMantleChannelAlarm channel reading s
  | .enclosureLoopAlarm loop reading => Sys2Proof.Machine.execEnclosureLoopAlarm loop reading s
  | .caseSwitchAlarm switch reading => Sys2Proof.Machine.execCaseSwitchAlarm switch reading s
  | .lightAlarm site reading => Sys2Proof.Machine.execLightAlarm site reading s
  | .railAlarm flag reading => Sys2Proof.Machine.execRailAlarm flag reading s
  | .tempAlarm flag reading => Sys2Proof.Machine.execTempAlarm flag reading s
  | .clockFreq flag reading => Sys2Proof.Machine.execClockFreq flag reading s
  | .clockGlitch flag reading => Sys2Proof.Machine.execClockGlitch flag reading s
  | .xtalStop => Sys2Proof.Machine.execXtalStop s
  | .fsmCodewordInvalid fsm reading => Sys2Proof.Machine.execFsmCodewordInvalid fsm reading s
  | .bridgeFault reading => Sys2Proof.Machine.execBridgeFault reading s
  | .mainDieResponse => Sys2Proof.Machine.execMainDieResponse s
  | .sleeveRemoval => Sys2Proof.Machine.execSleeveRemoval s
  | .sleeveInsertion cert sigR sigS drawn => Sys2Proof.Machine.execSleeveInsertion cert sigR sigS drawn s
  | .sleeveReleaseWrite rq v => Sys2Proof.Machine.execSleeveReleaseWrite rq v s
  | .sleeveReleaseTimeout => Sys2Proof.Machine.execSleeveReleaseTimeout s
  | .sleeveLifeAccounting mAh tenths => Sys2Proof.Machine.execSleeveLifeAccounting mAh tenths s
  | .unlock rq v passes grant => Sys2Proof.Machine.execUnlock rq v passes grant s
  | .unlockReset => Sys2Proof.Machine.execUnlockReset s
  | .tamperClassWrite rq flag v grant => Sys2Proof.Machine.execTamperClassWrite rq flag v grant s
  | .loopModeWrite rq isSwitch n v passes grant => Sys2Proof.Machine.execLoopModeWrite rq isSwitch n v passes grant s
  | .loopWindowWrite rq n sub v passes grant => Sys2Proof.Machine.execLoopWindowWrite rq n sub v passes grant s
  | .holdupExhausted => Sys2Proof.Machine.execHoldupExhausted s
  | .targetWrite rq target grant => Sys2Proof.Machine.execTargetWrite rq target grant s
  | .authCertWrite rq cert => Sys2Proof.Machine.execAuthCertWrite rq cert s
  | .lcTransitionReset => Sys2Proof.Machine.execLcTransitionReset s
  | .commissionTokenWrite rq token => Sys2Proof.Machine.execCommissionTokenWrite rq token s
  | .identityGenerate rq => Sys2Proof.Machine.execIdentityGenerate rq s
  | .certInstall rq chains => Sys2Proof.Machine.execCertInstall rq chains s
  | .attestNonceWrite rq nonce => Sys2Proof.Machine.execAttestNonceWrite rq nonce s
  | .debugSessionExpiry => Sys2Proof.Machine.execDebugSessionExpiry s
  | .debugClose rq v => Sys2Proof.Machine.execDebugClose rq v s
  | .observeOpen rq v grant => Sys2Proof.Machine.execObserveOpen rq v grant s
  | .debugChallengeRefresh => Sys2Proof.Machine.execDebugChallengeRefresh s
  | .mainPowerGood sramOk => Sys2Proof.Machine.execMainPowerGood sramOk s
  | .coldMainReset => Sys2Proof.Machine.execColdMainReset s
  | .warmMainReset => Sys2Proof.Machine.execWarmMainReset s
  | .stopPoint1 => Sys2Proof.Machine.execStopPoint1 s
  | .keyStoreLoaded => Sys2Proof.Machine.execKeyStoreLoaded s
  | .serviceReady => Sys2Proof.Machine.execServiceReady s
  | .pfail => Sys2Proof.Machine.execPfail s
  | .pfailFlushEnd us => Sys2Proof.Machine.execPfailFlushEnd us s
  | .powerRequest rq v => Sys2Proof.Machine.execPowerRequest rq v s
  | .resetRequest rq kind serial => Sys2Proof.Machine.execResetRequest rq kind serial s
  | .seamResetCommand rq value grant => Sys2Proof.Machine.execSeamResetCommand rq value grant s
  | .orderlyResetEffect => Sys2Proof.Machine.execOrderlyResetEffect s
  | .cocoonReset rq v passes grant => Sys2Proof.Machine.execCocoonReset rq v passes grant s
  | .blockReset rq cls unit => Sys2Proof.Machine.execBlockReset rq cls unit s
  | .blockResetDone pass => Sys2Proof.Machine.execBlockResetDone pass s
  | .seamLinkUp port peerPosition peerPair peerMember peerCluster peerSerial peerPartner chainsOk inService => Sys2Proof.Machine.execSeamLinkUp port peerPosition peerPair peerMember peerCluster peerSerial peerPartner chainsOk inService s
  | .seamLinkDown port => Sys2Proof.Machine.execSeamLinkDown port s
  | .seamFrameRefused port linkSeq => Sys2Proof.Machine.execSeamFrameRefused port linkSeq s
  | .seamFrameRelay inPort dest src cls hops flowSeq stamp payload => Sys2Proof.Machine.execSeamFrameRelay inPort dest src cls hops flowSeq stamp payload s
  | .keepAliveSend port => Sys2Proof.Machine.execKeepAliveSend port s
  | .seamResendTimeout port => Sys2Proof.Machine.execSeamResendTimeout port s
  | .seamLinkRekey port => Sys2Proof.Machine.execSeamLinkRekey port s
  | .linkDelayMeasure port delay => Sys2Proof.Machine.execLinkDelayMeasure port delay s
  | .syncBroadcast => Sys2Proof.Machine.execSyncBroadcast s
  | .syncReceive src masterTime masterUnsynced => Sys2Proof.Machine.execSyncReceive src masterTime masterUnsynced s
  | .timeSyncClear => Sys2Proof.Machine.execTimeSyncClear s
  | .driftBoundExceeded => Sys2Proof.Machine.execDriftBoundExceeded s
  | .clusterTimeWrite rq v grant => Sys2Proof.Machine.execClusterTimeWrite rq v grant s
  | .masterElection => Sys2Proof.Machine.execMasterElection s
  | .configWrite rq idx sub v grant => Sys2Proof.Machine.execConfigWrite rq idx sub v grant s
  | .configChangeReceive port c => Sys2Proof.Machine.execConfigChangeReceive port c s
  | .configPull port => Sys2Proof.Machine.execConfigPull port s
  | .configPullDone epoch digest entries => Sys2Proof.Machine.execConfigPullDone epoch digest entries s
  | .decisionWrite rq v grant => Sys2Proof.Machine.execDecisionWrite rq v grant s
  | .mgmtFrameReceive src body => Sys2Proof.Machine.execMgmtFrameReceive src body s
  | .heartbeatSend => Sys2Proof.Machine.execHeartbeatSend s
  | .heartbeatReceive h => Sys2Proof.Machine.execHeartbeatReceive h s
  | .tokenRecordReceive record => Sys2Proof.Machine.execTokenRecordReceive record s
  | .tokenLoss => Sys2Proof.Machine.execTokenLoss s
  | .arbOpen point signature refereeOk => Sys2Proof.Machine.execArbOpen point signature refereeOk s
  | .arbSessionTimeout => Sys2Proof.Machine.execArbSessionTimeout s
  | .resyncRequest => Sys2Proof.Machine.execResyncRequest s
  | .collarClaim => Sys2Proof.Machine.execCollarClaim s
  | .claimWindowEnd => Sys2Proof.Machine.execClaimWindowEnd s
  | .collarRxAssert => Sys2Proof.Machine.execCollarRxAssert s
  | .switchover rq v grant => Sys2Proof.Machine.execSwitchover rq v grant s
  | .vaultStreamReceive src part c => Sys2Proof.Machine.execVaultStreamReceive src part c s
  | .odRead rq idx sub => Sys2Proof.Machine.execOdRead rq idx sub s
  | .odReadSegment rq idx sub offset maxLen => Sys2Proof.Machine.execOdReadSegment rq idx sub offset maxLen s
  | .odWrite rq idx sub v => Sys2Proof.Machine.execOdWrite rq idx sub v s
  | .odWriteGrant rq idx sub v grant => Sys2Proof.Machine.execOdWriteGrant rq idx sub v grant s
  | .odWriteSegment rq idx sub offset total data => Sys2Proof.Machine.execOdWriteSegment rq idx sub offset total data s
  | .odWriteSegmentGrant rq idx sub offset total data grant => Sys2Proof.Machine.execOdWriteSegmentGrant rq idx sub offset total data grant s
  | .segmentStagingTimeout session => Sys2Proof.Machine.execSegmentStagingTimeout session s
  | .sessionOpen rq member point => Sys2Proof.Machine.execSessionOpen rq member point s
  | .sessionAuth rq signature => Sys2Proof.Machine.execSessionAuth rq signature s
  | .sessionClose rq => Sys2Proof.Machine.execSessionClose rq s
  | .sessionIdleTimeout session => Sys2Proof.Machine.execSessionIdleTimeout session s
  | .mailboxGo reqLen => Sys2Proof.Machine.execMailboxGo reqLen s
  | .mgmtDatagram peer dst data => Sys2Proof.Machine.execMgmtDatagram peer dst data s
  | .logFlush => Sys2Proof.Machine.execLogFlush s
  | .sealCheck rq seq => Sys2Proof.Machine.execSealCheck rq seq s
  | .logClear rq v grant => Sys2Proof.Machine.execLogClear rq v grant s
  | .auxiliaryPowerReturn => Sys2Proof.Machine.execAuxiliaryPowerReturn s
  | .auxiliaryPowerLoss => Sys2Proof.Machine.execAuxiliaryPowerLoss s
  | .hostLinkDown => Sys2Proof.Machine.execHostLinkDown s
  | .custodianCard port inserted => Sys2Proof.Machine.execCustodianCard port inserted s
  | .mgmtLinkChange up => Sys2Proof.Machine.execMgmtLinkChange up s
  | .collarRxDeassert => Sys2Proof.Machine.execCollarRxDeassert s
  | .orphanSweepPassEnd ms => Sys2Proof.Machine.execOrphanSweepPassEnd ms s
  | .bufferReadCompletion slot data => Sys2Proof.Machine.execBufferReadCompletion slot data s
  | .seamLinkFrameReceive port linkAck credits wrap => Sys2Proof.Machine.execSeamLinkFrameReceive port linkAck credits wrap s
  | .arbiterHeartbeatTimeout pair member => Sys2Proof.Machine.execArbiterHeartbeatTimeout pair member s
  | .resyncCopyReceive cycle parts changes => Sys2Proof.Machine.execResyncCopyReceive cycle parts changes s

end Sys2Proof.Machine
end

