-- ==== Sys2Proof/Safety.lean ====
section
/-! DEFINITION. What counts as a safe run of the module: what no step may take back, and what holds in every state a run passes
through. -/

namespace Sys2Proof.Machine

/-- The mailbox buffers hold their canonical form: addresses rising, and no byte listed that reads as an unlisted one. -/
def BuffersWf (s : State) : Prop := cwf 0#8 s.od.reqBuf = true ∧ cwf 0#8 s.od.replyBuf = true

/-- The tables hold their canonical form: the buffers, and the admission buffer and the key records, live and durable, with their keys
rising. -/
def TablesWf (s : State) : Prop :=
  BuffersWf s ∧ tsorted s.adm.slots = true ∧ tsorted s.keys.recs = true ∧ tsorted s.commit.base.keys.recs = true

/-- Every OTP bit that is programmed in one state is programmed in another (R458: programming sets bits and clears none). -/
def OtpKept (s t : State) : Prop := ∀ k b, (s.otp k).testBit b = true → (t.otp k).testBit b = true

/-- What one command or one microsecond never takes back: no programmed OTP bit is cleared (R458), no random byte is served twice
(R34), the commands that wait keep their order, and the tables keep their canonical form. -/
structure Onward (s t : State) : Prop where
  queue  : t.pending = s.pending
  fresh  : s.free ≤ t.free
  otp    : OtpKept s t
  tables : TablesWf s → TablesWf t

/-- The OTP words every shipped module has programmed: the three patterns and their journal entries (R454, R460). -/
def ShippedOtp (s : State) : Prop := ∀ k b, (tgetD otp0 k 0).testBit b = true → (s.otp k).testBit b = true

/-- What holds in every state of a run. -/
def Inv (s : State) : Prop := ShippedOtp s ∧ TablesWf s

end Sys2Proof.Machine
end

