-- ==== Sys2Proof/WellFormed.lean ====
section
/-! DEFINITION. What a command can be on this module's interfaces: every number within the width its field, register or
unit count gives it. A value the module itself answers with a status stays well-formed: refusing it is the command's meaning. -/

namespace Sys2Proof

open Machine

/-- A function: the PF is 0, VFs follow (R42). -/
def nFn (n : Nat) : Bool := decide (n < 256)

/-- A partition (R70). -/
def nPart (n : Nat) : Bool := decide (n < 256)

/-- A ring: 4,096 on the PF, 256 on a VF (R94). -/
def nRing (rid : Nat) : Bool := decide (rid < 4096 ∨ (rid < 256 * 4096 ∧ rid % 4096 < 256))

/-- A completion group: 1,024 on the PF, 64 on a VF (R98). -/
def nGroup (gid : Nat) : Bool := decide (gid < 1024 ∨ (gid < 256 * 1024 ∧ gid % 1024 < 64))

/-- A descriptor in flight: one of the 65,536 slots of the admission buffer (R37). -/
def nSlot (n : Nat) : Bool := decide (n < 65536)

/-- A slot of the key store (R163). -/
def nRecord (n : Nat) : Bool := decide (n < 2 ^ 28)

/-- A Seam position, its row in bits 9 to 5 (R512). -/
def nPos (n : Nat) : Bool := decide (n < 1024)

/-- The bytes attached to a quorum write: a grant, or none where no grant is asked (R199, R452). -/
def okGrant (g : Bytes) : Bool := decide (g.length = 32 ∨ g.length = 0)

/-- A request: its transport, session, sequence number, ID and Seam position or datagram source (R570, R575). -/
def okReq (rq : Req) : Bool :=
  decide (rq.transport < 3) && decide (rq.session < 2 ^ 32) && decide (rq.seq < 2 ^ 64) && decide (rq.reqId < 2 ^ 32) && decide (rq.peer < 2 ^ 48)

/-- The head of an SPDM request (R62). -/
def okSpdm (h : SpdmHead) : Bool := decide (h.ver < 256) && decide (h.param < 2 ^ 16)

/-- Where a datagram goes: a position, a 16-byte address and a UDP port (R580, R585). -/
def okPath (d : MgmtPath) : Bool := nPos d.position && d.addr.length == 16 && decide (d.port < 2 ^ 16)

/-- A commit cycle on the wire (R541). -/
def okCycle (c : CycleMsg) : Bool :=
  decide (c.pairId < 2 ^ 32) && decide (c.cycle < 2 ^ 64) && decide (c.firstSeq < 2 ^ 48) && decide (c.count < 2 ^ 32)
    && decide (c.time < 2 ^ 64) && decide (c.epoch < 2 ^ 64)

/-- A configuration change on the wire (R526). -/
def okCfg (c : CfgChange) : Bool :=
  decide (c.epoch < 2 ^ 64) && decide (c.digest.length = 48) && c.entry.all (fun e => decide (e.1 < 2 ^ 16) && decide (e.2.1 < 2 ^ 8))

/-- A heartbeat record (R550). -/
def okHeartbeat (h : Heartbeat) : Bool :=
  decide (h.pairId < 2 ^ 32) && decide (h.member < 2) && decide (h.role < 256) && decide (h.flags < 2 ^ 8)
    && decide (h.tokenEpoch < 2 ^ 64) && decide (h.cycle < 2 ^ 64) && decide (h.durableSeq < 2 ^ 64) && decide (h.seq < 2 ^ 64)
    && decide (h.time < 2 ^ 64)

/-- The command can be given on the interface its row belongs to. -/
def Instr.wf : Instr → Bool
  | .doorbell fn page p t => nFn fn && decide (page < 4096) && decide (p < 2 ^ 32) && decide (t < 2 ^ 32)
  | .descriptorReadIssue rid => nRing rid
  | .descriptorArrival rid _ => nRing rid
  | .readFault slot addr => nSlot slot && decide (addr < 2 ^ 64)
  | .readTimeout slot addr => nSlot slot && decide (addr < 2 ^ 64)
  | .chainReservationTake rid => nRing rid
  | .keyBind slot => nSlot slot
  | .keyCacheMissDone slot => nSlot slot
  | .reservationEntryFree slot => nSlot slot
  | .stepDispatch slot unit => nSlot slot && decide (unit < 48)
  | .seedPoolDrawServed => true
  | .skipperStepDone slot => nSlot slot
  | .hashStepDone unit => decide (unit < 16)
  | .hawkmothOpDone engine _ => decide (engine < 48)
  | .plumeOpDone unit _ => decide (unit < 16)
  | .engineSelfTestDone _ unit _ => decide (unit < 48)
  | .engineAbortDone _ unit => decide (unit < 48)
  | .commitCycleClose => true
  | .journalPageClose => true
  | .journalPageProgrammed => true
  | .commitCycleAck cycle => decide (cycle < 2 ^ 64)
  | .commitCycleReceive c => okCycle c
  | .cycleAckTimeout => true
  | .completionWrite slot => nSlot slot
  | .nop slot => nSlot slot
  | .keyGenerate slot => nSlot slot
  | .keyGeneratePair slot => nSlot slot
  | .keyDerive slot => nSlot slot
  | .keyImportTr31 slot => nSlot slot
  | .keyImportWrap slot => nSlot slot
  | .keyExportTr31 slot => nSlot slot
  | .keyExportWrap slot => nSlot slot
  | .keyInvalidate slot => nSlot slot
  | .keyDestroy slot => nSlot slot
  | .keyQuery slot => nSlot slot
  | .keyRestrict slot => nSlot slot
  | .keyImportPublic slot => nSlot slot
  | .keyExportPublic slot => nSlot slot
  | .pinTranslate slot => nSlot slot
  | .pinVerifyOffset slot => nSlot slot
  | .pinVerifyValue slot => nSlot slot
  | .pinGenerate slot => nSlot slot
  | .pinChange slot => nSlot slot
  | .macGenerate slot => nSlot slot
  | .macVerify slot => nSlot slot
  | .macTranslate slot => nSlot slot
  | .cvvGenerate slot => nSlot slot
  | .cvvVerify slot => nSlot slot
  | .dukptPinTranslate slot => nSlot slot
  | .dukptMacGenerate slot => nSlot slot
  | .dukptMacVerify slot => nSlot slot
  | .dukptData slot => nSlot slot
  | .dukptInitialKey slot => nSlot slot
  | .dukptOriginatePin slot => nSlot slot
  | .dukptOriginateMac slot => nSlot slot
  | .emvArqcVerify slot => nSlot slot
  | .emvScriptMac slot => nSlot slot
  | .emvScriptEncrypt slot => nSlot slot
  | .emvScriptPin slot => nSlot slot
  | .authoriseBundle slot => nSlot slot
  | .ff1Tokenise slot => nSlot slot
  | .ff1Detokenise slot => nSlot slot
  | .bulkEncrypt slot => nSlot slot
  | .bulkDecrypt slot => nSlot slot
  | .sign slot => nSlot slot
  | .verify slot => nSlot slot
  | .keyAgree slot => nSlot slot
  | .kemEncapsulate slot => nSlot slot
  | .kemDecapsulate slot => nSlot slot
  | .randomBytes slot => nSlot slot
  | .drbgReseed slot => nSlot slot
  | .rawSessionOpen slot => nSlot slot
  | .rawSessionGranted engine => decide (engine < 48)
  | .rawSessionClose slot => nSlot slot
  | .rawLoad slot => nSlot slot
  | .rawLoadKey slot => nSlot slot
  | .rawRead slot => nSlot slot
  | .rawModadd slot => nSlot slot
  | .rawModsub slot => nSlot slot
  | .rawModmul slot => nSlot slot
  | .rawModinv slot => nSlot slot
  | .rawModexp slot => nSlot slot
  | .rawAbort slot => nSlot slot
  | .rawSessionIdleTimeout engine => decide (engine < 48)
  | .orphanSweepFree record => nRecord record
  | .dramPatrolScrub record _ => nRecord record
  | .keyCacheScrub _ key _ => nRecord key
  | .sensorCalibration sensor => decide (sensor < 16)
  | .telemetryRefresh dieTemp cocoonTemp inputMv inputMw nandWear => decide (dieTemp < 2 ^ 16) && decide (cocoonTemp < 2 ^ 16) && decide (inputMv < 2 ^ 16) && decide (inputMw < 2 ^ 32) && decide (nandWear < 2 ^ 16)
  | .recordRecoveryReply record src _ => nRecord record && decide (src < 1025)
  | .perstAssert => true
  | .perstDeassert => true
  | .hotReset => true
  | .linkDownTimeout => true
  | .linkTrained speed width _ => decide (speed < 8) && decide (width < 64)
  | .vfEnableSet numVfs => decide (numVfs < 2 ^ 16)
  | .vfEnableClear => true
  | .busMasterEnableClear fn => nFn fn
  | .d3hotEntry fn => nFn fn
  | .d0Return fn => nFn fn
  | .functionLevelReset fn => nFn fn
  | .disableBufferTimeout slot => nSlot slot
  | .disableAck part => nPart part
  | .functionWedged fn => nFn fn
  | .resetCold key => decide (key < 2 ^ 16)
  | .resetWarm key => decide (key < 2 ^ 16)
  | .hifFnErrRead fn => nFn fn
  | .registerWrite fn bar offset size value => nFn fn && decide (bar ≤ 6) && decide (offset < 2 ^ 32) && (size == 4 || size == 8) && decide (value < 2 ^ 64)
  | .ideCheckFailed stream => decide (stream < 16)
  | .doeDiscovery index => decide (index < 256)
  | .spdmGetCertificate head offset length => okSpdm head && decide (offset < 2 ^ 32) && decide (length < 2 ^ 16)
  | .spdmChallenge head _ => okSpdm head
  | .spdmGetMeasurements head _ _ => okSpdm head
  | .spdmKeyExchange head _ => okSpdm head
  | .keyProg stream keySet rx _ => decide (stream < 16) && decide (keySet < 2) && decide (rx < 2)
  | .kSetGo stream keySet rx => decide (stream < 16) && decide (keySet < 2) && decide (rx < 2)
  | .kSetStop stream keySet rx => decide (stream < 16) && decide (keySet < 2) && decide (rx < 2)
  | .schedulingEpoch => true
  | .quotaWrite rq part sub v => okReq rq && nPart part && decide (sub < 2 ^ 9) && decide (v < 2 ^ 64)
  | .partitionFunctionWrite rq part fn grant => okReq rq && nPart part && nFn fn && okGrant grant
  | .partitionEnableWrite rq part v grant => okReq rq && nPart part && decide (v < 2 ^ 64) && okGrant grant
  | .ringEnable rid => nRing rid
  | .ringDisable rid => nRing rid
  | .ringResume rid => nRing rid
  | .ringSettle rid => nRing rid
  | .grpDigEnable gid base sizeLog2 => nGroup gid && decide (base < 2 ^ 64) && decide (sizeLog2 < 32)
  | .grpDigDisable gid => nGroup gid
  | .grpDigBaseRead gid => nGroup gid
  | .grpDigConsWrite gid c => nGroup gid && decide (c < 2 ^ 32)
  | .partitionCreate rq part grant => okReq rq && nPart part && okGrant grant
  | .partitionDestroy rq part grant => okReq rq && nPart part && okGrant grant
  | .bindingMaskWrite rq part mask grant => okReq rq && nPart part && decide (mask < 256) && okGrant grant
  | .manifestWrite rq _ grant => okReq rq && okGrant grant
  | .announcedMrWrite rq k _ grant => okReq rq && decide (k < 256) && okGrant grant
  | .finalise rq grant => okReq rq && okGrant grant
  | .cancel rq grant => okReq rq && okGrant grant
  | .quorumOpen rq cls part uses _ => okReq rq && decide (cls < 256) && nPart part && decide (uses < 256)
  | .quorumApprove rq id member _ => okReq rq && decide (id < 2 ^ 32) && decide (member < 256)
  | .cardApprove rq id port _ _ => okReq rq && decide (id < 2 ^ 32) && decide (port < 4)
  | .quorumRequestLapse id => decide (id < 2 ^ 32)
  | .policyWrite rq cls sub v grant => okReq rq && decide (cls < 256) && decide (sub < 2 ^ 8) && decide (v < 2 ^ 64) && okGrant grant
  | .memberWrite rq member sub _ grant => okReq rq && decide (member < 256) && decide (sub < 2 ^ 8) && okGrant grant
  | .componentStart rq _ parent count grant => okReq rq && decide (parent < 2 ^ 64) && decide (count < 256) && okGrant grant
  | .componentLoad rq port _ _ _ _ => okReq rq && decide (port < 4)
  | .componentLoadTimeout => true
  | .tier0Destroy rq handle grant => okReq rq && decide (handle < 2 ^ 64) && okGrant grant
  | .pinPolicyWrite rq part v grant => okReq rq && nPart part && decide (v < 2 ^ 64) && okGrant grant
  | .decTableWrite rq part table _ grant => okReq rq && nPart part && decide (table < 4) && okGrant grant
  | .atcCapacityWrite rq part v grant => okReq rq && nPart part && decide (v < 2 ^ 64) && okGrant grant
  | .atcWindowWrite rq part v grant => okReq rq && nPart part && decide (v < 2 ^ 64) && okGrant grant
  | .looperKdFormation => true
  | .looperIdentitySeal => true
  | .looperIdentityUnseal => true
  | .looperRecordKeyFormation => true
  | .looperNandKeyFormation => true
  | .looperRecordSeal seq => decide (seq < 2 ^ 64)
  | .looperRefused code => decide (code < 2 ^ 16)
  | .looperBlockDone => true
  | .entropyBlockRelease => true
  | .warmupEnd => true
  | .entropyReady => true
  | .conditionerBlockOut rawBits => decide (rawBits.length = 128)
  | .entropyBlockArrival => true
  | .entropyHealthFail cause groups => decide (cause < 256) && decide (groups < 4096)
  | .entropyTransportFault => true
  | .entropyBlockTimeout => true
  | .laneGeneratorRekey lane => decide (lane < 8)
  | .laneGeneratorStall lane => decide (lane < 8)
  | .engineGeneratorRekey gen => decide (gen < 10)
  | .engineGeneratorStall gen => decide (gen < 10)
  | .drbgInstantiate part => nPart part
  | .drbgReseedInterval part => nPart part
  | .drbgReseedCount part => nPart part
  | .drbgStagingRefill part => nPart part
  | .drbgTokenGrant slot => nSlot slot
  | .tapCtlWrite rq v grant => okReq rq && decide (v < 2 ^ 64) && okGrant grant
  | .holdoffWindowClose group => decide (group < 96)
  | .msixCommit source => decide (source < 2 ^ 11)
  | .vectorControlWrite fn vector _ => nFn fn && decide (vector < 2 ^ 11)
  | .functionMaskWrite fn _ => nFn fn
  | .vectorControlRead fn vector => nFn fn && decide (vector < 2 ^ 11)
  | .messageControlRead fn => nFn fn
  | .eicSrcPendW1c fn word v => nFn fn && decide (word < 48) && decide (v < 2 ^ 64)
  | .eicHoldWrite fn _ => nFn fn
  | .eicGlobalHoldWrite _ => true
  | .eicMapWrite fn k v => nFn fn && decide (k < 768) && decide (v < 2 ^ 64)
  | .coreHandlerEntry core => decide (core < 4)
  | .coreClaimRead core => decide (core < 4)
  | .coreCompletionWrite core source => decide (core < 4) && decide (source < 2 ^ 11)
  | .coreHandlerReturn core => decide (core < 4)
  | .coreWatchdogRestart core => decide (core < 4)
  | .coreWatchdogStage1 core => decide (core < 4)
  | .coreWatchdogStage2 core => decide (core < 4)
  | .wakeLatch source => decide (source < 2 ^ 11)
  | .wakeTimer => true
  | .wakeListWrite rq entry source => okReq rq && decide (entry < 256) && decide (source < 2 ^ 16)
  | .wakeTimerSWrite rq v => okReq rq && decide (v < 2 ^ 64)
  | .idleEntry => true
  | .idleExit source => decide (source < 2 ^ 11)
  | .mantleChannelAlarm channel reading => decide (channel < 48) && decide (reading < 2 ^ 32)
  | .enclosureLoopAlarm loop reading => decide (loop < 64) && decide (reading < 2 ^ 32)
  | .caseSwitchAlarm switch reading => decide (switch < 16) && decide (reading < 2 ^ 32)
  | .lightAlarm site reading => decide (site < 12) && decide (reading < 2 ^ 32)
  | .railAlarm flag reading => decide (flag < 256) && decide (reading < 2 ^ 32)
  | .tempAlarm flag reading => decide (flag < 256) && decide (reading < 2 ^ 32)
  | .clockFreq flag reading => decide (flag < 256) && decide (reading < 2 ^ 32)
  | .clockGlitch flag reading => decide (flag < 256) && decide (reading < 2 ^ 32)
  | .xtalStop => true
  | .fsmCodewordInvalid fsm reading => decide (fsm < 4) && decide (reading < 2 ^ 32)
  | .bridgeFault reading => decide (reading < 2 ^ 32)
  | .mainDieResponse => true
  | .sleeveRemoval => true
  | .sleeveInsertion _ _ _ drawn => decide (drawn < 2 ^ 32)
  | .sleeveReleaseWrite rq v => okReq rq && decide (v < 2 ^ 64)
  | .sleeveReleaseTimeout => true
  | .sleeveLifeAccounting mAh tenths => decide (mAh < 2 ^ 28) && decide (tenths < 10)
  | .unlock rq v _ grant => okReq rq && decide (v < 2 ^ 64) && okGrant grant
  | .unlockReset => true
  | .tamperClassWrite rq flag v grant => okReq rq && decide (flag < 256) && decide (v < 2 ^ 64) && okGrant grant
  | .loopModeWrite rq _ n v _ grant => okReq rq && decide (n < 64) && decide (v < 2 ^ 64) && okGrant grant
  | .loopWindowWrite rq n sub v _ grant => okReq rq && decide (n < 64) && decide (sub < 2 ^ 8) && decide (v < 2 ^ 64) && okGrant grant
  | .holdupExhausted => true
  | .targetWrite rq target grant => okReq rq && decide (target < 256) && okGrant grant
  | .authCertWrite rq _ => okReq rq
  | .lcTransitionReset => true
  | .commissionTokenWrite rq _ => okReq rq
  | .identityGenerate rq => okReq rq
  | .certInstall rq _ => okReq rq
  | .attestNonceWrite rq _ => okReq rq
  | .debugSessionExpiry => true
  | .debugClose rq v => okReq rq && decide (v < 2 ^ 64)
  | .observeOpen rq v grant => okReq rq && decide (v < 2 ^ 64) && okGrant grant
  | .debugChallengeRefresh => true
  | .mainPowerGood _ => true
  | .coldMainReset => true
  | .warmMainReset => true
  | .stopPoint1 => true
  | .keyStoreLoaded => true
  | .serviceReady => true
  | .pfail => true
  | .pfailFlushEnd us => decide (us < 2 ^ 32)
  | .powerRequest rq v => okReq rq && decide (v < 2 ^ 64)
  | .resetRequest rq kind _ => okReq rq && decide (kind < 256)
  | .seamResetCommand rq _ grant => okReq rq && okGrant grant
  | .orderlyResetEffect => true
  | .cocoonReset rq v _ grant => okReq rq && decide (v < 2 ^ 64) && okGrant grant
  | .blockReset rq cls unit => okReq rq && decide (cls < 8) && decide (unit < 64)
  | .blockResetDone _ => true
  | .seamLinkUp port peerPosition peerPair peerMember _ peerSerial _ _ _ => decide (port ≤ 4) && nPos peerPosition && decide (peerPair < 2 ^ 16) && decide (peerMember < 256) && decide (peerSerial.length = 12)
  | .seamLinkDown port => decide (port ≤ 4)
  | .seamFrameRefused port linkSeq => decide (port ≤ 4) && decide (linkSeq < 2 ^ 64)
  | .seamFrameRelay inPort dest src cls hops flowSeq stamp _ => decide (inPort ≤ 4) && decide (dest < 2 ^ 16) && nPos src && decide (cls < 256) && decide (hops < 256) && decide (flowSeq < 2 ^ 64) && decide (stamp < 2 ^ 64)
  | .keepAliveSend port => decide (port ≤ 4)
  | .seamResendTimeout port => decide (port ≤ 4)
  | .seamLinkRekey port => decide (port ≤ 4)
  | .linkDelayMeasure port delay => decide (port ≤ 4) && decide (delay < 2 ^ 32)
  | .syncBroadcast => true
  | .syncReceive src masterTime _ => nPos src && decide (masterTime < 2 ^ 64)
  | .timeSyncClear => true
  | .driftBoundExceeded => true
  | .clusterTimeWrite rq v grant => okReq rq && decide (v < 2 ^ 64) && okGrant grant
  | .masterElection => true
  | .configWrite rq idx sub _ grant => okReq rq && decide (idx < 2 ^ 16) && decide (sub < 2 ^ 8) && okGrant grant
  | .configChangeReceive port c => decide (port < 4) && okCfg c
  | .configPull port => decide (port < 4)
  | .configPullDone epoch _ _ => decide (epoch < 2 ^ 64)
  | .decisionWrite rq _ grant => okReq rq && okGrant grant
  | .mgmtFrameReceive src _ => nPos src
  | .heartbeatSend => true
  | .heartbeatReceive h => okHeartbeat h
  | .tokenRecordReceive record => record.length == 48
  | .tokenLoss => true
  | .arbOpen _ _ _ => true
  | .arbSessionTimeout => true
  | .resyncRequest => true
  | .collarClaim => true
  | .claimWindowEnd => true
  | .collarRxAssert => true
  | .switchover rq v grant => okReq rq && decide (v < 2 ^ 64) && okGrant grant
  | .vaultStreamReceive src part c => nPos src && nPart part && okCycle c
  | .odRead rq idx sub => okReq rq && decide (idx < 2 ^ 16) && decide (sub < 2 ^ 8)
  | .odReadSegment rq idx sub offset maxLen => okReq rq && decide (idx < 2 ^ 16) && decide (sub < 2 ^ 8) && decide (offset < 2 ^ 32) && decide (maxLen < 2 ^ 32)
  | .odWrite rq idx sub _ => okReq rq && decide (idx < 2 ^ 16) && decide (sub < 2 ^ 8)
  | .odWriteGrant rq idx sub _ grant => okReq rq && decide (idx < 2 ^ 16) && decide (sub < 2 ^ 8) && okGrant grant
  | .odWriteSegment rq idx sub offset total _ => okReq rq && decide (idx < 2 ^ 16) && decide (sub < 2 ^ 8) && decide (offset < 2 ^ 32) && decide (total < 2 ^ 32)
  | .odWriteSegmentGrant rq idx sub offset total _ grant => okReq rq && decide (idx < 2 ^ 16) && decide (sub < 2 ^ 8) && decide (offset < 2 ^ 32) && decide (total < 2 ^ 32) && okGrant grant
  | .segmentStagingTimeout session => decide (session < 2 ^ 32)
  | .sessionOpen rq member _ => okReq rq && decide (member < 256)
  | .sessionAuth rq _ => okReq rq
  | .sessionClose rq => okReq rq
  | .sessionIdleTimeout session => decide (session < 2 ^ 32)
  | .mailboxGo reqLen => decide (reqLen < 2 ^ 32)
  | .mgmtDatagram peer dst _ => decide (peer < 2 ^ 48) && okPath dst
  | .logFlush => true
  | .sealCheck rq seq => okReq rq && decide (seq < 2 ^ 64)
  | .logClear rq v grant => okReq rq && decide (v < 2 ^ 64) && okGrant grant
  | .auxiliaryPowerReturn => true
  | .auxiliaryPowerLoss => true
  | .hostLinkDown => true
  | .custodianCard port _ => decide (port < 4)
  | .mgmtLinkChange _ => true
  | .collarRxDeassert => true
  | .orphanSweepPassEnd ms => decide (ms < 2 ^ 32)
  | .bufferReadCompletion slot _ => nSlot slot
  | .seamLinkFrameReceive port linkAck credits _ => decide (port ≤ 4) && decide (linkAck < 2 ^ 64) && credits.all (fun x => decide (x < 2 ^ 16))
  | .arbiterHeartbeatTimeout pair member => decide (pair < 2 ^ 16) && decide (member < 256)
  | .resyncCopyReceive cycle parts _ => decide (cycle < 2 ^ 64) && parts.all nPart

end Sys2Proof
end

