-- ==== Sys2Proof/Certificates/Slice0/Obligations.lean ====
section
/-! DEFINITION. What is claimed of the model, for the provers: one definition per statement, each citing the rules of spec/ it
formalises or rests on. -/

open Sys2Proof Sys2Proof.Machine

/-- A request is taken, `t` the state after that, by a module that is not BOOT_STOPPED (R438, R575, R576). -/
def Taken (s : State) (rq : Req) (idx sub op : Nat) (t : State) : Prop := takeReq s rq idx sub op = (t, true) ∧ t.service ≠ .bootStopped

/-- A request carries the authority of a grant for a class, a partition and a value, or the life-cycle state waives grants; `use` is the
use it consumes (R200, R452, R568). -/
def Granted (t : State) (rq : Req) (clock : Bool) (cls part : Nat) (v grant : Bytes) (use : List Change) : Prop :=
  t.mayGrant rq = true ∧ ((t.factory = true ∧ use = []) ∨
    (t.factory = false ∧ ∃ g, t.grantFor cls part v grant clock = some g ∧ use = [.grantUse g.id g.own]))

/-- The commit queue has room where an outcome waits for a commit point (R36). -/
def HasRoom (o : Out) (x : Slot) (s : State) : Prop :=
  (o.changes = [] ∧ (x.chain = none ∨ x.chainEnd = false ∨ o.status ≠ .ok)) ∨ commitRoom s = true

/-- A settled descriptor carries the outcome its opcode yielded (R110). -/
def Carries (o : Out) (y : Slot) : Prop :=
  ∃ r, y.res = some r ∧ r.status = o.status ∧ r.detail = o.detail ∧ r.inline_ = o.inline_ ∧ r.dst = o.dst ∧
    (o.status = .ok → r.len = o.len)

/-- A due descriptor's outcome is settled (R35, R110, R117, R118): alone, or failing in its chain, it may complete, or waits for the
commit point of what it changed; a chain's last entry lets the chain complete or commit as one; an earlier one keeps its changes. No
descriptor outside its chain is touched. -/
def Settles (o : Out) (n : Nat) (x : Slot) (s t : State) : Prop :=
  (∃ y, t.slot n = some y ∧ Carries o y ∧
    (x.chain = none ∨ o.status ≠ .ok → y.stage = (if o.changes = [] then .done else .commitWait)) ∧
    (x.chain.isSome = true → o.status = .ok → x.chainEnd = false → y.stage = .ran ∧ y.changes = o.changes) ∧
    (x.chain.isSome = true → o.status = .ok → x.chainEnd = true →
      y.stage = .done ∨ (y.stage = .commitWait ∧ ∃ i ∈ t.commit.queue, n ∈ i.slots))) ∧
  (∀ m z, m ≠ n → s.slot m = some z → (x.chain = none ∨ z.rid ≠ x.rid ∨ z.chain ≠ x.chain) → t.slot m = some z)

/-! ### The path of a descriptor -/

/-- DOORBELL (R55, R101, R102, R130): a ring of a partition the function hosts takes P and T where it is ENABLED and the three
differences lie within its size, and where it is stopping or stopped; it keeps its indices where it is DISABLED, and stops toward
ERROR with RING_OVERRUN and both values latched where a difference does not fit; a page of no hosted ring counts one stray doorbell.
The module leaves IDLE (R486). -/
def Obligations.DoorbellTakesIndices : Prop :=
  ∀ (fn page p t : Nat) (s : State), s.barOpen fn = true → page < (if fn = 0 then 4096 else 256) →
    (∀ q, s.ringPart (fn * 4096 + page) = some q → (s.part q).fn = fn → (fn = 0 → s.vfRingOf page = none) →
      ((s.ring (fn * 4096 + page)).state = .disabled →
        ∃ u, exec (.doorbell fn page p t) s = .next u ∧ u.rings = s.rings ∧ u.keys = s.keys ∧ u.commit = s.commit ∧ u.bus = s.bus) ∧
      ((s.ring (fn * 4096 + page)).state ≠ .disabled →
        ((s.ring (fn * 4096 + page)).state = .enabled →
          doorbellOk (s.ring (fn * 4096 + page)) (p % 2 ^ 32) (t % 2 ^ 32) = true) →
        ∃ u, exec (.doorbell fn page p t) s = .next u ∧
          u.ring (fn * 4096 + page) = { s.ring (fn * 4096 + page) with prod := p % 2 ^ 32, retire := t % 2 ^ 32 } ∧
          (∀ r, r ≠ fn * 4096 + page → u.ring r = s.ring r) ∧ (s.power.power = .idle → u.power.power = .run) ∧
          u.adm.slots = s.adm.slots ∧ u.keys = s.keys ∧ u.parts = s.parts ∧ u.commit = s.commit ∧ u.bus = s.bus) ∧
      ((s.ring (fn * 4096 + page)).state = .enabled →
        doorbellOk (s.ring (fn * 4096 + page)) (p % 2 ^ 32) (t % 2 ^ 32) = false →
        ∃ u, exec (.doorbell fn page p t) s = .next u ∧
          u.ring (fn * 4096 + page) =
            { s.ring (fn * 4096 + page) with
              state := .stopping, settle := .error, errCode := Status.ringOverrun.code,
              latchLo := p % 2 ^ 32, latchHi := t % 2 ^ 32, chainWait := false } ∧
          (∀ r, r ≠ fn * 4096 + page → (u.ring r).prod = (s.ring r).prod ∧ (u.ring r).state = (s.ring r).state) ∧
          u.keys = s.keys ∧ u.commit = s.commit ∧ u.bus = s.bus)) ∧
    ((∀ q, s.ringPart (fn * 4096 + page) = some q → (s.part q).fn ≠ fn) →
      ∃ u, exec (.doorbell fn page p t) s = .next u ∧ (u.fn fn).stray = min 0xFFFF ((s.fn fn).stray + 1) ∧
        (∀ n, n ≠ fn → u.fn n = s.fn n) ∧ u.rings = s.rings ∧ u.keys = s.keys ∧ u.commit = s.commit ∧ u.bus = s.bus)

/-- DESCRIPTOR_ARRIVAL (R104 to R109, R116, R132) on an ENABLED ring: an entry that passes the checks is held as it arrived, alone,
as the next entry of its ring's open chain, or as the first of a chain whose partition's reservation is free; one outside a chain
that breaks a check completes with MALFORMED and the offset of its first offending byte, and the ring stops toward ERROR with its
index latched. READ_FAULT and READ_TIMEOUT (R90): the function's flag is set, the address is latched unless an earlier fault holds
the latch, and an ENABLED ring stops toward ERROR with MALFORMED; no key, no committed state and no host memory changes. Where the
spec leaves a point open, it stands on the model's choice of assumption 13. -/
def Obligations.ArrivalChecksDescriptor : Prop :=
  (∀ (rid n : Nat) (x : Slot) (data : Bytes) (s : State), s.awaited rid = some (n, x) → x.cut = none →
    s.slot n = some x → x.chain = none → tsorted s.adm.slots = true → (s.ring rid).state = .enabled →
    (arrivalCheck s rid x.index (fit 128 data) = none →
      ((s.ring rid).chainAt = none → (dFirst (fit 128 data) && !dLast (fit 128 data)) = false →
        ∃ u y, exec (.descriptorArrival rid data) s = .next u ∧ u.slot n = some y ∧ y.desc = fit 128 data ∧ y.stage = .fetched ∧
          y.chain = none ∧ y.rid = x.rid ∧ y.index = x.index ∧ y.part = x.part ∧ y.res = x.res ∧ u.rings = s.rings ∧ u.keys = s.keys ∧
          u.parts = s.parts ∧ u.commit = s.commit ∧ u.fns = s.fns ∧ u.units = s.units ∧ u.bus.writes = s.bus.writes) ∧
      (∀ first, (s.ring rid).chainAt = some first → (s.ring rid).chainBad = false →
        ∃ u y, exec (.descriptorArrival rid data) s = .next u ∧ u.slot n = some y ∧ y.desc = fit 128 data ∧ y.stage = .fetched ∧
          y.chain = some first ∧ y.chainEnd = dLast (fit 128 data) ∧
          (u.ring rid).chainAt = (if dLast (fit 128 data) = true then none else some first) ∧
          (u.ring rid).state = .enabled ∧ u.keys = s.keys ∧ u.parts = s.parts ∧ u.commit = s.commit ∧ u.bus.writes = s.bus.writes) ∧
      ((s.ring rid).chainAt = none → dFirst (fit 128 data) = true → dLast (fit 128 data) = false → tget s.adm.chainHold x.part = none →
        s.takePending x.part = false →
        ∃ u y, exec (.descriptorArrival rid data) s = .next u ∧ u.slot n = some y ∧ y.desc = fit 128 data ∧ y.stage = .fetched ∧
          y.chain = some x.index ∧ y.chainEnd = false ∧ (u.ring rid).chainAt = some x.index ∧ (u.ring rid).chainLen = 1 ∧
          (u.ring rid).chainWait = true ∧ u.keys = s.keys ∧ u.parts = s.parts ∧ u.commit = s.commit ∧ u.bus.writes = s.bus.writes)) ∧
    (∀ off, (s.ring rid).chainAt = none → arrivalCheck s rid x.index (fit 128 data) = some off →
      ∃ u, exec (.descriptorArrival rid data) s = .next u ∧
        (u.ring rid).state = .stopping ∧ (u.ring rid).settle = .error ∧
        (u.ring rid).errCode = Status.malformed.code ∧ (u.ring rid).latchLo = x.index ∧
        (∃ y, u.slot n = some y ∧ y.stage = .done ∧ y.res = some ⟨.malformed, off, 0, none, [], x.time24 / 24, 0⟩) ∧
        u.keys = s.keys ∧ u.commit = s.commit ∧ u.bus = s.bus ∧ u.fns = s.fns)) ∧
  (∀ (n addr : Nat) (x : Slot) (s : State), s.slot n = some x → (s.ring x.rid).state = .enabled →
    (∃ u, exec (.readFault n addr) s = .next u ∧
      (u.fn (x.rid / 4096)).readFault = true ∧
      (u.fn (x.rid / 4096)).readTimeout = (s.fn (x.rid / 4096)).readTimeout ∧
      (u.fn (x.rid / 4096)).errAddr = (if (s.fn (x.rid / 4096)).readFault || (s.fn (x.rid / 4096)).readTimeout
        then (s.fn (x.rid / 4096)).errAddr else addr) ∧
      (u.ring x.rid).state = .stopping ∧ (u.ring x.rid).settle = .error ∧ (u.ring x.rid).errCode = Status.malformed.code ∧
      u.keys = s.keys ∧ u.commit = s.commit ∧ u.bus = s.bus) ∧
    (∃ u, exec (.readTimeout n addr) s = .next u ∧
      (u.fn (x.rid / 4096)).readTimeout = true ∧
      (u.fn (x.rid / 4096)).readFault = (s.fn (x.rid / 4096)).readFault ∧
      (u.fn (x.rid / 4096)).errAddr = (if (s.fn (x.rid / 4096)).readFault || (s.fn (x.rid / 4096)).readTimeout
        then (s.fn (x.rid / 4096)).errAddr else addr) ∧
      (u.ring x.rid).state = .stopping ∧ (u.ring x.rid).settle = .error ∧ (u.ring x.rid).errCode = Status.malformed.code ∧
      u.keys = s.keys ∧ u.commit = s.commit ∧ u.bus = s.bus))

/-- What a descriptor waits for (R43, R107, R119, R121, R252, R332): its ring's chain reservation is taken when 64 credits are free;
each piece of its buffers is stored when its requests are answered, a scatter list where it keeps R107, then the source data; a free
reservation-table entry lets it bind its keys. DESCRIPTOR_READ_ISSUE (R30, R119, R122): the ring whose turn it is has one read
issued for its next entries, at its base address and its fetch index; its fetch index advances by their number, every other ring
keeps its own, and nothing is written to the host. Where the spec leaves a point open, it stands on the model's choice of assumption
12. -/
def Obligations.FetchAndWaits : Prop :=
  ((∀ (rid p : Nat) (s : State), s.ringPart rid = some p → (s.ring rid).chainWait = true → (s.ring rid).chainAt.isSome = true →
    tget s.adm.chainHold p = none → s.inFlight p - s.chainFetched rid + 64 ≤ s.quota p 4 →
    ∃ u, exec (.chainReservationTake rid) s = .next u ∧ tget u.adm.chainHold p = some rid ∧
      (u.ring rid) = { s.ring rid with chainWait := false } ∧ u.adm.slots = s.adm.slots ∧
      (∀ r, r ≠ rid → u.ring r = s.ring r) ∧ u.keys = s.keys ∧ u.bus = s.bus) ∧
  (∀ (n : Nat) (x : Slot) (data : Bytes) (s : State), s.slot n = some x → x.stage ≠ .reading → x.stage.uncommitted = true →
    (x.bufReads = 0 → x.owed = []) →
    ((dSrcSg x.desc && x.sgSrc.isNone) = true → sgOk data (dSrcLen x.desc) true = true →
      ∃ u y, exec (.bufferReadCompletion n data) s = .next u ∧ u.slot n = some y ∧ y.sgSrc = some data ∧ y.sgDst = x.sgDst ∧ y.src = x.src ∧
        y.stage = x.stage ∧ u.rings = s.rings ∧ u.keys = s.keys ∧ u.commit = s.commit ∧ u.bus.writes = s.bus.writes) ∧
    ((dSrcSg x.desc && x.sgSrc.isNone) = false → (dDstSg x.desc && x.sgDst.isNone) = true → sgOk data (dDstLen x.desc) false = true →
      ∃ u y, exec (.bufferReadCompletion n data) s = .next u ∧ u.slot n = some y ∧ y.sgDst = some data ∧ y.sgSrc = x.sgSrc ∧ y.src = x.src ∧
        y.stage = x.stage ∧ u.rings = s.rings ∧ u.keys = s.keys ∧ u.commit = s.commit ∧ u.bus.writes = s.bus.writes) ∧
    ((dSrcSg x.desc && x.sgSrc.isNone) = false → (dDstSg x.desc && x.sgDst.isNone) = false → x.src = none →
      ∃ u y, exec (.bufferReadCompletion n data) s = .next u ∧ u.slot n = some y ∧ y.src = some (fit (dSrcLen x.desc) data) ∧
        y.sgSrc = x.sgSrc ∧ y.sgDst = x.sgDst ∧ y.stage = x.stage ∧ u.rings = s.rings ∧ u.keys = s.keys ∧ u.commit = s.commit ∧
        u.bus.writes = s.bus.writes)) ∧
  (∀ (n : Nat) (x : Slot) (s : State), s.slot n = some x → x.stage = .resvWait → s.resv.length < 4096 →
    exec (.reservationEntryFree n) s = .next (bindKeys s n (x.missing.map (fun k => (k, s.unwrapOf k))) 4))) ∧
  (∀ (rid p d : Nat) (s : State), (dropDeficit s).nextFetch = some (p, rid, d) →
    ∃ u, exec (.descriptorReadIssue rid) s = .next u ∧
      (u.ring rid).fetch = (List.range (s.readSize rid)).foldl (fun i _ => idxAdd i 1) (s.ring rid).fetch ∧
      u.bus = { s.bus with issued := s.bus.issued ++
        [(rid / 4096, (s.ring rid).base + 128 * ((s.ring rid).fetch % (s.ring rid).size), 128 * s.readSize rid)] } ∧
      u.adm.nextRead = s.adm.nextRead + 1 ∧ (u.fn (rid / 4096)).stallUs = 0 ∧
      u.adm.slots.length = s.adm.slots.length + s.readSize rid ∧
      (∀ r, r ≠ rid → u.ring r = s.ring r) ∧
      u.keys = s.keys ∧ u.parts = s.parts ∧ u.commit = s.commit ∧ u.units = s.units ∧ u.eic = s.eic ∧ u.log = s.log)

/-- KEY_BIND (R32, R109, R149, R178): a descriptor that names no key is bound with the steps of its opcode and the policies in
force; one that names keys of an ACTIVE key domain binds them in order; one whose opcode is not in the table ends with BAD_OPCODE,
and one that names a key of a partition whose key domain is not ACTIVE ends with NOT_ACTIVE. KEY_CACHE_MISS_DONE (R168, R181, R182):
the unwrap has ended; a record that unwraps and whose partition and ancestors still serve enters the cache where its set has room,
one that cannot be read enters none, and every descriptor that waits for it binds its keys with what the unwrap gave. Where the spec
leaves a point open, it stands on the model's choices of assumptions 19, 107 and 110. -/
def Obligations.KeyBindDecides : Prop :=
  (∀ (n : Nat) (x : Slot) (s : State), s.slot n = some x → x.stage = .fetched → s.fenced x = false → s.chainReady x = true →
    x.cut = none → (bindsAfterSrc x.desc = true → buffersReady x.desc x.sgSrc x.sgDst x.src = true) →
    (opcodes.contains (opcode x.desc) = true → (isRaw (opcode x.desc) = true → s.quota x.part 0x0F ≠ 0) →
      (opcode x.desc = 0 ∨ s.seam.quarantine = 0) → (namesKey x.desc = true → (s.part x.part).key = .active) →
      (keyPositions x.desc ≠ [] → exec (.keyBind n) s = .next (bindKeys s n none 4)) ∧
      (keyPositions x.desc = [] → wholeBlocks x = none → x.keys = [] →
        ∃ u y, exec (.keyBind n) s = .next u ∧ u.slot n = some y ∧ y.stage = .bound ∧ y.steps = stepsOf x ∧ y.policy = s.policyEntry x.part 0x0C ∧
          y.dec = s.decTable x.part x.desc ∧ y.hardDef = (s.policyEntry x.part 6 == 1) ∧ y.desc = x.desc ∧ y.keys = [] ∧
          (∀ m, m ≠ n → u.slot m = s.slot m) ∧ u.keys = s.keys ∧ u.parts = s.parts ∧ u.commit = s.commit ∧ u.bus = s.bus)) ∧
    (opcodes.contains (opcode x.desc) = false →
      exec (.keyBind n) s = .next (fail s n .badOpcode 0)) ∧
    (opcodes.contains (opcode x.desc) = true → isRaw (opcode x.desc) = false → s.seam.quarantine = 0 →
      namesKey x.desc = true → (s.part x.part).key ≠ .active →
      exec (.keyBind n) s = .next (fail s n .notActive 0))) ∧
  (∀ (n k : Nat) (x : Slot) (s : State), s.slot n = some x → x.stage = .missWait → x.missing = some k →
    (∀ r, s.unwrapOf k = some r → s.lives r = true → (s.cacheSet r.part k).length < 16 →
      ∃ t e, exec (.keyCacheMissDone n) s = .next t ∧ tget t.keys.cache k = some e ∧ e.rcd = r ∧ e.part = r.part ∧
        t.keys.recs = s.keys.recs ∧ t.commit = s.commit ∧ t.bus = s.bus) ∧
    ((∀ r, s.rcd k = some r → r.readable = false) →
      exec (.keyCacheMissDone n) s =
        .next ((s.missWaiters k).foldl (fun t m => bindKeys t m (some (k, none)) 4)
          { s with keys := { s.keys with unwrap := s.keys.unwrap.filter (· != k) } })))

/-- STEP_DISPATCH (R34, R38, R304, R316, R330): a step whose unit may take it, and whose buffers and randomness are there, stands in
that unit's queue behind what is there; nothing is dispatched after PFAIL (R505). The end of a step on a Skipper lane, a hash unit,
a Hawkmoth engine or a Plume unit (R302, R318, R330, R361): its descriptor leaves the queue, in a lane whichever holds its pages and
elsewhere the one at the front, and waits for its next step or for its result; a raw command of an open session has run and its
result is due (R335); nothing commits or reaches the host. Where the spec leaves a point open, it stands on the model's choices of
assumptions 12 and 24. -/
def Obligations.DispatchAndStepEnd : Prop :=
  (∀ (n unit : Nat) (u : UnitClass) (rest : List UnitClass) (x : Slot) (s : State), s.slot n = some x → x.stage = .bound →
    x.cut = none → (if x.started = true then x.steps else stepsOf x) = u :: rest →
    (s.power.pfail = true → exec (.stepDispatch n unit) s = .next s) ∧
    (s.power.pfail = false → (x.started && u.zeroes && s.disabling x) = false → (isRaw (opcode x.desc) = true → (s.rawEngine x).isSome = true) →
      buffersReady x.desc x.sgSrc x.sgDst x.src = true → s.unitFree x (u, unit) = true → s.bulkRoom x = true →
      (x.started = true ∨ (s.blocksHeld x (u, unit) = true ∧ s.entropy.ready = true ∧ s.supply x = .ready)) →
      ∃ t y, exec (.stepDispatch n unit) s = .next t ∧ t.slot n = some y ∧ y.stage = .queued ∧ y.steps = rest ∧ y.unit = some (u, unit) ∧
        y.started = true ∧ y.desc = x.desc ∧ y.keys = x.keys ∧ y.rid = x.rid ∧ y.index = x.index ∧
        (u = .skipper → (t.lane unit).queue = (s.lane unit).queue ++ [n]) ∧
        (u = .hash → (t.hash unit).queue = (s.hash unit).queue ++ [n]) ∧
        (u = .hawkmoth → (t.engine unit).queue = (s.engine unit).queue ++ [n]) ∧
        (u = .plume → (t.plume unit).queue = (s.plume unit).queue ++ [n]) ∧
        (u ≠ .skipper → ∀ m, m ≠ n → t.slot m = s.slot m) ∧ t.keys.recs = s.keys.recs ∧ t.commit = s.commit ∧ t.bus = s.bus)) ∧
  (∀ (unit n : Nat) (q : List Nat) (x : Slot) (s : State), s.slot n = some x → x.cut = none → x.ends = none →
    (x.unit = some (.skipper, unit) → (s.lane unit).queue.contains n = true →
      (∀ k ∈ x.symKeys, ∃ p ∈ x.pages, p.lane = unit ∧ p.handle = k.handle) →
      ∃ t y, exec (.skipperStepDone n) s = .next t ∧ (t.lane unit).queue = (s.lane unit).queue.filter (· != n) ∧
      t.slot n = some y ∧ y.unit = none ∧ y.stage = (if x.steps = [] then .ran else .bound) ∧
      t.keys = s.keys ∧ t.commit = s.commit ∧ t.bus = s.bus ∧ t.rings = s.rings) ∧
    ((s.hash unit).queue = n :: q → ∃ t y, exec (.hashStepDone unit) s = .next t ∧ (t.hash unit).queue = q.filter (· != n) ∧
      t.slot n = some y ∧ y.unit = none ∧ y.stage = (if x.steps = [] then .ran else .bound) ∧
      t.keys = s.keys ∧ t.commit = s.commit ∧ t.bus = s.bus ∧ t.rings = s.rings) ∧
    (∀ agree, (s.engine unit).queue = n :: q → (s.engine unit).st ≠ .inReset → (compared x = true → agree = true) →
      (∀ e ∈ s.adm.slots, e.2.stage = .ran → e.2.unit ≠ some (.hawkmoth, unit)) →
      (isRaw (opcode x.desc) = false → ∃ t y, exec (.hawkmothOpDone unit agree) s = .next t ∧ (t.engine unit).queue = q.filter (· != n) ∧
        t.slot n = some y ∧ y.unit = none ∧ y.stage = (if x.steps = [] then .ran else .bound) ∧
        (t.engine unit).st = (s.engine unit).st ∧ (t.engine unit).commands = min (2 ^ 64 - 1) ((s.engine unit).commands + 1) ∧
        t.keys = s.keys ∧ t.commit = s.commit ∧ t.bus = s.bus ∧ t.rings = s.rings) ∧
      (isRaw (opcode x.desc) = true → s.holdsSession x = true → ∃ t y, exec (.hawkmothOpDone unit agree) s = .next t ∧
        (t.engine unit).queue = q.filter (· != n) ∧ t.slot n = some y ∧ y.unit = x.unit ∧ y.stage = .ran ∧ y.res = x.res ∧
        (t.engine unit).st = (s.engine unit).st ∧ t.keys = s.keys ∧ t.commit = s.commit ∧ t.bus = s.bus ∧ t.rings = s.rings)) ∧
    (∀ agree, (s.plume unit).queue = n :: q → (s.plume unit).st ≠ .inReset → (compared x = true → agree = true) →
      ∃ t y, exec (.plumeOpDone unit agree) s = .next t ∧ (t.plume unit).queue = q.filter (· != n) ∧
      t.slot n = some y ∧ y.unit = none ∧ y.stage = (if x.steps = [] then .ran else .bound) ∧
      (t.plume unit).st = (s.plume unit).st ∧ (t.plume unit).ops = min (2 ^ 64 - 1) ((s.plume unit).ops + 1) ∧
      t.keys = s.keys ∧ t.commit = s.commit ∧ t.bus = s.bus ∧ t.rings = s.rings))

/-- R356: where the two passes of a compared operation differ, the descriptor outside a chain ends with FAULT_DETECTED and no
result, the engine or unit is zeroed and taken out of service for its self-test, and no key and no committed state changes. The
alarm's class, here as it stands with no other mismatch within 60 s, is below HALT. Where the spec leaves a point open, it stands on
the model's choice of assumption 61. -/
def Obligations.MismatchSuppressesResult : Prop :=
  ∀ (unit n : Nat) (q : List Nat) (x : Slot) (s : State), s.slot n = some x → x.cut = none → x.ends = none → x.chain = none →
    compared x = true → s.units.mismatch2 = none →
    ((s.engine unit).queue = n :: q → (s.engine unit).st ≠ .inReset → (isRaw (opcode x.desc) = true → s.holdsSession x = true) →
      (∀ e ∈ s.adm.slots, e.2.stage = .ran → e.2.unit ≠ some (.hawkmoth, unit)) →
      ∃ t y r, exec (.hawkmothOpDone unit false) s = .next t ∧ t.slot n = some y ∧ y.stage = .done ∧ y.res = some r ∧
        r.status = .faultDetected ∧ r.inline_ = none ∧ r.dst = [] ∧ y.changes = [] ∧
        (t.engine unit).st = .inReset ∧ (t.engine unit).bank = [] ∧ (t.engine unit).window = none ∧ t.keys = s.keys ∧ t.commit = s.commit) ∧
    ((s.plume unit).queue = n :: q → (s.plume unit).st ≠ .inReset →
      ∃ t y r, exec (.plumeOpDone unit false) s = .next t ∧ t.slot n = some y ∧ y.stage = .done ∧ y.res = some r ∧
        r.status = .faultDetected ∧ r.inline_ = none ∧ r.dst = [] ∧ y.changes = [] ∧
        (t.plume unit).st = .inReset ∧ (t.plume unit).mem = none ∧ t.keys = s.keys ∧ t.commit = s.commit)

/-- After a mismatch or an abort (R349, R350, R358): a self-test that passes brings the engine or unit back into service, and one
that fails takes it OFFLINE, its waiting operations to be dispatched anew; when an engine or unit whose operations were aborted has
zeroed itself, each of them ends with the status its cause gave and leaves the queue. Block resets (R498, R499, R510): an idle lane,
hash unit, engine or Plume unit enters reset with its state zero and RST_BLOCK names it; a unit that is not idle, or that does not
exist, is refused; when its self-test ends the unit serves again or is OFFLINE, and the request is answered. Where the spec leaves a
point open, it stands on the model's choices of assumptions 57 and 107. -/
def Obligations.UnitsReturnAfterZeroing : Prop :=
  ((∀ (unit : Nat) (s : State), (s.engine unit).st = .inReset →
    (∃ t, exec (.engineSelfTestDone .hawkmoth unit true) s = .next t ∧ (t.engine unit).st = .idle ∧
      (t.engine unit).queue = (s.engine unit).queue ∧ (∀ k, k ≠ unit → t.engine k = s.engine k) ∧ t.adm = s.adm ∧ t.keys = s.keys) ∧
    (8 < s.enginesLeft → unit < 48 → s.asleep = false → ∃ t, exec (.engineSelfTestDone .hawkmoth unit false) s = .next t ∧ (t.engine unit).st = .offline ∧
      1039 ∈ t.eic.corePend ∧ (∀ n ∈ (s.engine unit).queue, n ∉ (t.engine unit).queue) ∧ t.keys = s.keys ∧ t.commit = s.commit)) ∧
  (∀ (unit : Nat) (s : State), (s.plume unit).st = .inReset →
    (∃ t, exec (.engineSelfTestDone .plume unit true) s = .next t ∧ (t.plume unit).st = .idle ∧
      (t.plume unit).queue = (s.plume unit).queue ∧ (∀ k, k ≠ unit → t.plume k = s.plume k) ∧ t.adm = s.adm ∧ t.keys = s.keys) ∧
    (2 < s.plumesLeft → unit < 16 → s.asleep = false → ∃ t, exec (.engineSelfTestDone .plume unit false) s = .next t ∧ (t.plume unit).st = .offline ∧
      1039 ∈ t.eic.corePend ∧ (∀ n ∈ (s.plume unit).queue, n ∉ (t.plume unit).queue) ∧ t.keys = s.keys ∧ t.commit = s.commit)) ∧
  (∀ (cls : UnitClass) (unit : Nat) (s : State), cls.zeroes = true → tsorted s.adm.slots = true →
    ∃ t, exec (.engineAbortDone cls unit) s = .next t ∧
      (∀ n x st, s.slot n = some x → x.cut = some st → x.unit = some (cls, unit) →
        ∃ y r, t.slot n = some y ∧ y.stage = .done ∧ y.unit = none ∧ y.res = some r ∧ r.status = st ∧ r.inline_ = none ∧ r.dst = [] ∧
          (cls = .hawkmoth → n ∉ (t.engine unit).queue) ∧ (cls = .plume → n ∉ (t.plume unit).queue)) ∧
      t.keys = s.keys ∧ t.commit = s.commit ∧ t.bus = s.bus)) ∧
  ((∀ (rq : Req) (cls k : Nat) (s t : State), Taken s rq 0xA002 1 0x20 t → t.holds rq 1 true = true → t.units.blockReq = none →
    (k < blockCount cls → t.unitIdle cls k = true → ∃ u, exec (.blockReset rq cls k) s = .next u ∧
      (cls = 1 → (u.lane k).inReset = true ∧ (u.lane k).pages = [] ∧ (u.lane k).gen.key = none) ∧
      (cls = 2 → (u.hash k).inReset = true ∧ (u.hash k).held = none) ∧
      (cls = 3 → (u.engine k).st = .inReset ∧ (u.engine k).bank = [] ∧ ∀ j, j ≠ k → u.engine j = t.engine j) ∧
      (cls = 4 → (u.plume k).st = .inReset ∧ (u.plume k).mem = none) ∧
      u.units.blockReq = some rq ∧ u.units.blockRes = 1 ∧ u.units.blockCls = cls ∧ u.units.blockUnit = k ∧
      u.keys = t.keys ∧ u.adm = t.adm) ∧
    (k < blockCount cls → t.unitIdle cls k = false → ∃ u, exec (.blockReset rq cls k) s = .next u ∧ u.units.blockRes = 3 ∧
      u.units.blockReq = none ∧ u.units.engines = t.units.engines ∧ u.units.lanes = t.units.lanes ∧ u.keys = t.keys ∧ u.adm = t.adm) ∧
    (blockCount cls ≤ k → ∃ u, exec (.blockReset rq cls k) s = .next u ∧ u.units.blockRes = 5 ∧ u.units.blockReq = none ∧
      u.units.engines = t.units.engines ∧ u.units.lanes = t.units.lanes ∧ u.keys = t.keys ∧ u.adm = t.adm)) ∧
  (∀ (rq : Req) (s : State), s.units.blockReq = some rq →
    (∃ u, exec (.blockResetDone true) s = .next u ∧ u.units.blockRes = 2 ∧ u.units.blockReq = none ∧
      (s.units.blockCls = 1 → (u.lane s.units.blockUnit).inReset = false) ∧ (s.units.blockCls = 2 → (u.hash s.units.blockUnit).inReset = false) ∧
      (s.units.blockCls = 3 → (s.engine s.units.blockUnit).queue = [] → (u.engine s.units.blockUnit).st = .idle) ∧
      u.bus.replies = s.bus.replies ++ [(rq, replyBody 0xA002 1 0x20 0 rq.reqId [])] ∧ u.keys = s.keys) ∧
    (∃ u, exec (.blockResetDone false) s = .next u ∧ u.units.blockRes = 4 ∧ u.units.blockReq = none ∧
      (s.units.blockCls = 1 → (u.lane s.units.blockUnit).inReset = true) ∧ (s.units.blockCls = 2 → (u.hash s.units.blockUnit).inReset = true) ∧
      (s.units.blockCls = 3 → (u.engine s.units.blockUnit).st = .offline) ∧ u.keys.recs = s.keys.recs)))

/-- The commit stage (R36, R541, R543): the active member of a pair closes a numbered cycle over the front of its queue, an empty
one too, and sends it; a module that is not active closes a journal page over the changes that have accumulated. Each item that a
close takes has the next commit sequence number and its changes have taken effect; no change commits after PFAIL (R507). Where the
spec leaves a point open, it stands on the model's choices of assumptions 6 and 111. -/
def Obligations.CommitCloses : Prop :=
  (∀ s : State, s.paired = true → s.pair.role = 3 → s.power.pfail = false →
    ∃ t c m, exec .commitCycleClose s = .next t ∧ t.commit.cycle = s.commit.cycle + 1 ∧ t.commit.applied = s.commit.cycle + 1 ∧
      t.commit.queue = s.commit.queue.drop (s.closing (625000 - 80)).length ∧ c.cycle = s.commit.cycle + 1 ∧ c.handover = false ∧
      c.items = (s.closing (625000 - 80)).zipIdx.map (fun e => { e.1 with seq := s.commit.seq + 1 + e.2 }) ∧
      t.commit.seq = s.commit.seq + (s.closing (625000 - 80)).length ∧
      (t.pair.solo = false → t.commit.cycles = s.commit.cycles ++ [c] ∧ t.commit.pages = s.commit.pages) ∧
      (t.pair.solo = true → t.commit.pages = s.commit.pages ++ [c] ∧ t.commit.cycles = s.commit.cycles) ∧
      t.bus.cycles = s.bus.cycles ++ [m] ∧ m.cycle = c.cycle ∧ m.count = c.items.length ∧
      m.changes = c.items.map (fun i => i.changes.filter Change.replicated) ∧
      (s.closing (625000 - 80) = [] → t.keys = s.keys ∧ t.parts = s.parts ∧ t.od = s.od ∧ t.adm = s.adm)) ∧
  (∀ s : State, (s.paired = true → s.pair.role ≠ 3) → s.power.pfail = false → s.closing 16384 ≠ [] →
    ∃ t c, exec .journalPageClose s = .next t ∧ t.commit.queue = s.commit.queue.drop (s.closing 16384).length ∧
      c.items = (s.closing 16384).zipIdx.map (fun e => { e.1 with seq := s.commit.seq + 1 + e.2 }) ∧ c.cycle = 0 ∧
      t.commit.pages = s.commit.pages ++ [c] ∧ t.commit.seq = s.commit.seq + (s.closing 16384).length ∧
      t.commit.cycles = s.commit.cycles ∧ t.bus.cycles = s.bus.cycles ∧ t.commit.base = s.commit.base) ∧
  (∀ (s : State) (i : Item) (slot v : Nat), (s.paired = true → s.pair.role ≠ 3) → s.power.pfail = false → s.commit.queue = [i] →
    s.staged = 0 → i.slots = [] → i.changes = [.counter slot v] →
    ∃ t, exec .journalPageClose s = .next t ∧ t.commit.queue = [] ∧ t.commit.seq = s.commit.seq + 1 ∧
      t.keys.recs = tmap s.keys.recs (fun k r => if k = slot
        then { r with rcd := { r.rcd with counter := max r.rcd.counter v } } else r) ∧
      t.keys.lineage = s.keys.lineage ∧ t.parts = s.parts ∧ t.od = s.od ∧ t.bus = s.bus ∧ t.adm = s.adm) ∧
  (∀ s : State, s.power.pfail = true →
    exec .commitCycleClose s = .next s ∧ exec .journalPageClose s = .next s)

/-- A closed page or cycle becomes durable (R35, R545, R567): the oldest page when it is programmed, the oldest cycle when the
standby acknowledges it, but not in SOLO. Its items' descriptors may then complete; an object-dictionary write is answered. -/
def Obligations.DurabilityFollowsOrder : Prop :=
  (∀ (s : State) (c : Closed) (r : List Closed), s.commit.pages = c :: r →
    ∃ t, exec .journalPageProgrammed s = .next t ∧ t.commit.pages = r ∧
      t.commit.journal = (if c.cycle = 0 then s.commit.journal else s.commit.journal ++ [c]) ∧
      t.commit.cycles = s.commit.cycles ∧ t.commit.queue = s.commit.queue ∧ t.commit.seq = s.commit.seq ∧
      (∀ i ∈ c.items, i.seq ≤ t.commit.durable) ∧ s.commit.durable ≤ t.commit.durable ∧
      (∀ i ∈ c.items, ∀ n ∈ i.slots, ∀ x, s.slot n = some x → x.stage = .closed → t.slot n = some { x with stage := .done }) ∧
      (∀ n x, s.slot n = some x → (∀ i ∈ c.items, n ∉ i.slots) → t.slot n = some x) ∧
      (∀ i ∈ c.items, ∀ rq idx sub op data, i.reply = some (rq, idx, sub, op, data) →
        (rq, replyBody idx sub op 0 rq.reqId data) ∈ t.bus.replies) ∧
      ((∀ i ∈ c.items, i.reply = none) → t.bus = s.bus ∧ t.od = s.od) ∧ t.parts = s.parts ∧ t.rings = s.rings) ∧
  (∀ (s : State) (c : Closed) (r : List Closed), s.commit.cycles = c :: r →
    (s.pair.solo = false → ∃ t, exec (.commitCycleAck c.cycle) s = .next t ∧ t.commit.cycles = r ∧
      t.commit.pages = s.commit.pages ∧ t.commit.queue = s.commit.queue ∧ (∀ i ∈ c.items, i.seq ≤ t.commit.durable) ∧
      (∀ i ∈ c.items, ∀ n ∈ i.slots, ∀ x, s.slot n = some x → x.stage = .closed → t.slot n = some { x with stage := .done }) ∧
      (∀ i ∈ c.items, ∀ rq idx sub op data, i.reply = some (rq, idx, sub, op, data) →
        (rq, replyBody idx sub op 0 rq.reqId data) ∈ t.bus.replies) ∧
      (c.handover = false → t.pair = s.pair) ∧ (c.handover = true → t.pair.role = 1 ∧ t.pair.collarTx = false) ∧ t.parts = s.parts) ∧
    (s.pair.solo = true → exec (.commitCycleAck c.cycle) s = .next s) ∧
    (∀ k, k ≠ c.cycle → exec (.commitCycleAck k) s = .next s))

/-- COMPLETION_WRITE (R110, R112, R124): a completion due outside a disabled function is written, its header last and at the entry's
own place in the ring, behind it the digest where the ring's group has a digest ring; the slot is free afterwards, and no key or
committed state changes. Where the function may not write, nothing reaches the host and COMPLETION_DROPPED is set (R81). Where the
spec leaves a point open, it stands on the model's choice of assumption 93. -/
def Obligations.CompletionWritesHeaderLast : Prop :=
  ∀ (n : Nat) (x : Slot) (r : Result) (s : State), s.slot n = some x → x.res = some r → x.stage = .done → x.noWrite = false →
    (mayWrite s x = true →
      ∃ t l d, exec (.completionWrite n) s = .next t ∧
        t.bus.writes = s.bus.writes ++ l ++ [(x.rid / 4096, (s.ring x.rid).base + 128 * (x.index % (s.ring x.rid).size),
          header r.status (lapOf x.index (s.ring x.rid).size) r.detail r.len r.timeNs r.seq)] ++ d ∧
        ((s.group (s.ringGroup x.rid)).enable = false → d = []) ∧ d.length ≤ 1 ∧
        t.slot n = none ∧ t.tele.completions = min (2 ^ 64 - 1) (s.tele.completions + 1) ∧
        t.keys = s.keys ∧ t.commit = s.commit ∧ t.bus.messages = s.bus.messages) ∧
    (mayWrite s x = false →
      ∃ t, exec (.completionWrite n) s = .next t ∧ t.slot n = none ∧ t.bus = s.bus ∧
        (t.fn (x.rid / 4096)).dropped = true ∧ t.keys = s.keys ∧ t.commit = s.commit)

/-! ### Descriptor opcodes -/

/-- The key, MAC and card-verification opcodes that only compute, with their numbers and what they yield. -/
def computingKeys (n : Nat) : List (Instr × Nat × (State → Slot → Out)) :=
  [(.nop n, 0x000, fun _ _ => {}), (.keyDerive n, 0x103, keyDeriveOut), (.keyImportTr31 n, 0x104, keyImportTr31Out),
   (.keyImportWrap n, 0x105, keyImportWrapOut), (.keyExportWrap n, 0x107, keyExportWrapOut),
   (.keyInvalidate n, 0x108, keyInvalidateOut), (.keyDestroy n, 0x109, keyDestroyOut), (.keyQuery n, 0x10A, keyQueryOut),
   (.keyRestrict n, 0x10B, keyRestrictOut), (.keyImportPublic n, 0x10C, keyImportPublicOut),
   (.keyExportPublic n, 0x10D, keyExportPublicOut), (.macGenerate n, 0x301, macGenerateOut), (.macVerify n, 0x302, macVerifyOut),
   (.macTranslate n, 0x303, macTranslateOut), (.cvvGenerate n, 0x311, cvvGenerateOut), (.cvvVerify n, 0x312, cvvVerifyOut)]

/-- The other opcodes that only compute. -/
def computingMore (n : Nat) : List (Instr × Nat × (State → Slot → Out)) :=
  [(.dukptMacGenerate n, 0x402, dukptMacGenerateOut), (.dukptMacVerify n, 0x403, dukptMacVerifyOut), (.dukptData n, 0x404, dukptDataOut),
   (.dukptInitialKey n, 0x405, dukptInitialKeyOut), (.dukptOriginateMac n, 0x407, dukptOriginateMacOut),
   (.emvArqcVerify n, 0x501, emvArqcOut n), (.emvScriptMac n, 0x502, emvScriptMacOut), (.emvScriptEncrypt n, 0x503, emvScriptEncryptOut),
   (.ff1Tokenise n, 0x601, ff1TokeniseOut), (.ff1Detokenise n, 0x602, ff1DetokeniseOut), (.bulkDecrypt n, 0x702, bulkDecryptOut),
   (.verify n, 0x802, verifyOut), (.keyAgree n, 0x803, keyAgreeOut), (.kemDecapsulate n, 0x805, kemDecapsulateOut)]

/-- The opcodes that only compute. -/
def computing (n : Nat) : List (Instr × Nat × (State → Slot → Out)) := computingKeys n ++ computingMore n

/-- The opcodes that also draw random bytes. -/
def drawing (n : Nat) : List (Instr × Nat × (State → Slot → Out × State)) :=
  [(.keyGenerate n, 0x101, keyGenerateOut), (.keyGeneratePair n, 0x102, keyGeneratePairOut), (.keyExportTr31 n, 0x106, keyExportTr31Out),
   (.pinTranslate n, 0x201, pinTranslateOut), (.pinVerifyOffset n, 0x202, pinVerifyOffsetOut), (.pinVerifyValue n, 0x203, pinVerifyValueOut),
   (.pinGenerate n, 0x204, pinGenerateOut), (.pinChange n, 0x205, pinChangeOut), (.dukptPinTranslate n, 0x401, dukptPinTranslateOut),
   (.dukptOriginatePin n, 0x406, dukptOriginatePinOut), (.emvScriptPin n, 0x504, emvScriptPinOut), (.authoriseBundle n, 0x510, bundleOut n),
   (.bulkEncrypt n, 0x701, bulkEncryptOut), (.sign n, 0x801, signOut), (.kemEncapsulate n, 0x804, kemEncapsulateOut)]

/-- An opcode that has nothing to commit is settled at once (R35, R110, R117, R118): its descriptor carries what the opcode yielded,
and alone it may complete; no descriptor outside its chain, no key and no partition changes, and nothing the host sees does. Where
the spec leaves a point open, it stands on the model's choices of assumptions 10 and 24. -/
def Obligations.ComputingOpcodesAnswer : Prop :=
  ∀ (n : Nat) (x : Slot) (s : State), tsorted s.adm.slots = true → ∀ e ∈ computing n, s.due n e.2.1 = some x →
    (e.2.2 s x).changes = [] → HasRoom (e.2.2 s x) x s →
    ∃ t, exec e.1 s = .next t ∧ Settles (e.2.2 s x) n x s t ∧ t.keys = s.keys ∧ t.parts = s.parts ∧ t.rings = s.rings ∧
      t.entropy = s.entropy ∧ t.eic = s.eic ∧ t.bus = s.bus ∧ t.log = s.log ∧
      (x.chain = none → t.units = s.units ∧ t.commit = s.commit)

/-- An opcode that changes keys or counters waits for its commit point (R35, R36, R117, R191, R556): outside a chain its changes
stand at the end of the commit queue, in order and before its log entry, within a chain they wait for its last entry, and no key has
changed yet; while the queue is full nothing happens. Where the spec leaves a point open, it stands on the model's choices of
assumptions 6, 10, 28 and 116. -/
def Obligations.ChangingOpcodesQueue : Prop :=
  ∀ (n : Nat) (x : Slot) (s : State), tsorted s.adm.slots = true → ∀ e ∈ computing n, s.due n e.2.1 = some x →
    (e.2.2 s x).changes ≠ [] →
    (commitRoom s = false → (x.chain = none ∨ x.chainEnd = true ∨ (e.2.2 s x).status ≠ .ok) → exec e.1 s = .next s) ∧
    (commitRoom s = true → ∃ t, exec e.1 s = .next t ∧ Settles (e.2.2 s x) n x s t ∧ t.keys = s.keys ∧ t.parts = s.parts ∧
      t.eic = s.eic ∧ t.bus = s.bus ∧
      (x.chain = none → t.units = s.units ∧ ∃ i, t.commit = { s.commit with queue := s.commit.queue ++ [i] } ∧ i.slots = [n] ∧
        i.reply = none ∧ (e.2.2 s x).changes <+: i.changes ∧
        (∃ l, i.changes.getLast? = some (.log l) ∧ l.status = (e.2.2 s x).status ∧ l.index = x.index))) ∧
    (commitRoom s = false → x.chain.isSome = true → x.chainEnd = false → (e.2.2 s x).status = .ok →
      ∃ t, exec e.1 s = .next t ∧ Settles (e.2.2 s x) n x s t ∧ t.keys = s.keys ∧ t.commit = s.commit)

/-- An opcode whose work has used random bytes is settled as one that has not (R34, R35, R110, R117): it may count failed PIN checks
(R224), and changes nothing else beside its chain and the commit queue. Where the spec leaves a point open, it stands on the model's
choice of assumption 3. -/
def Obligations.DrawingOpcodesAnswer : Prop :=
  ∀ (n : Nat) (x : Slot) (s : State), tsorted s.adm.slots = true → ∀ e ∈ drawing n, s.due n e.2.1 = some x →
    HasRoom (e.2.2 (workDone s n x) x).1 x s →
    ∃ t, exec e.1 s = .next t ∧ Settles (e.2.2 (workDone s n x) x).1 n x s t ∧ s.free ≤ t.free ∧ t.keys = s.keys ∧
      (∀ p, { t.part p with checkFails := 0 } = { s.part p with checkFails := 0 }) ∧
      t.entropy = s.entropy ∧ t.eic = s.eic ∧ t.bus = s.bus ∧ t.log = s.log ∧
      (x.chain = none → t.units = s.units ∧ ((e.2.2 (workDone s n x) x).1.changes = [] → t.commit = s.commit))

/-- MAC_VERIFY accepts exactly the MAC that MAC_GENERATE yields for the same data under the same key (R238). -/
def Obligations.MacVerifyMatchesGenerate : Prop :=
  ∀ (s t : State) (x : Slot), (macVerifyOut s x).status = .ok ↔
    (macGenerateOut t x).inline_ = some (slice x.desc 32 (macSpec (dP0 x.desc)).macLen)

/-- The operand bank of an engine (R328, R339, R343): an integer written over words reads back modulo their width with its tag,
every word outside them reads as before, and the bank keeps its canonical form. -/
def Obligations.BankHoldsIntegers : Prop :=
  ∀ (g : Engine) (o n v : Nat) (tag : Bool),
    (g.put o n v tag).value o n = v % 2 ^ (64 * n) ∧
    (g.put o n v tag).tagged o n = (tag && decide (n ≠ 0)) ∧
    (∀ k, (k < o ∨ o + n ≤ k) → (g.put o n v tag).word k = g.word k) ∧
    (cwf ⟨0, false⟩ g.bank = true → cwf ⟨0, false⟩ (g.put o n v tag).bank = true)

/-- A raw session (R334, R336): a request beyond the partition's quota ends with QUOTA; one within it reserves an engine; when that
engine's queue is empty it opens, zeroed, and returns its ID; closing it, by command or after 10 s without one, zeroes the bank and
frees the engine. RAW_ABORT (R349): it closes the session, zeroes the bank and returns the number of commands it aborts: one on an
engine ends once that is zero, one outside a chain that waits elsewhere ends with ABORTED; where its session is not open it ends
with INPUT_RANGE and closes nothing (R335). Where the spec leaves a point open, it stands on the model's choices of assumptions 23
and 106. -/
def Obligations.RawSessionLife : Prop :=
  ((∀ (n : Nat) (x : Slot) (s : State), tsorted s.adm.slots = true → s.due n 0x901 = some x →
    (s.quota x.part 0x0F ≤ s.sessions (fun p => p == x.part) ∨ 32 ≤ s.sessions (fun _ => true) →
      ∃ t, exec (.rawSessionOpen n) s = .next t ∧ Settles (.fail .quota) n x s t ∧ (x.chain = none → t.units = s.units)) ∧
    (∀ e, s.sessions (fun p => p == x.part) < s.quota x.part 0x0F → s.sessions (fun _ => true) < 32 → s.openEngine = some e →
      ∃ t, exec (.rawSessionOpen n) s = .next t ∧ (t.engine e).reservedBy = some n ∧
        t.slot n = some { x with stage := .queued, unit := some (.hawkmoth, e), started := true } ∧
        (∀ k, k ≠ e → t.engine k = s.engine k) ∧ (∀ m, m ≠ n → t.slot m = s.slot m) ∧ t.keys = s.keys ∧ t.commit = s.commit)) ∧
  (∀ (e n : Nat) (x : Slot) (s : State), tsorted s.adm.slots = true → (s.engine e).reservedBy = some n → (s.engine e).queue = [] →
    (s.engine e).st ≠ .inReset → (s.engine e).st ≠ .offline → s.slot n = some x → x.stage = .queued → x.cut = none → HasRoom {} x s →
    ∃ t, exec (.rawSessionGranted e) s = .next t ∧ (t.engine e).st = .session ∧ (t.engine e).bank = [] ∧ (t.engine e).window = none ∧
      (t.engine e).sess = ((s.engine e).openGen + 1) % 2 ^ 16 * 2 ^ 16 + e ∧ (t.engine e).sessPart = x.part ∧ (t.engine e).sessRid = x.rid ∧
      Settles (.inl (leBytes 4 (t.engine e).sess)) n x s t ∧ t.keys = s.keys) ∧
  (∀ (n e : Nat) (x : Slot) (s : State), tsorted s.adm.slots = true → s.due n 0x902 = some x → s.rawUnit x = some e →
    (s.engine e).st = .session → HasRoom {} x s →
    ∃ t, exec (.rawSessionClose n) s = .next t ∧ (t.engine e).st = .idle ∧ (t.engine e).bank = [] ∧ (t.engine e).window = none ∧
      (t.engine e).sess = 0 ∧ (∀ k, k ≠ e → t.engine k = s.engine k) ∧ Settles {} n x s t ∧ t.keys = s.keys) ∧
  (∀ (e : Nat) (s : State), (s.engine e).st = .session → (s.engine e).lastUs + 10000000 ≤ s.opUs → (s.engine e).queue = [] →
    s.runningRaw e = none →
    (∀ y ∈ s.adm.slots, isRaw (opcode y.2.desc) = true → y.2.res.isNone = true → s.rawEngine y.2 ≠ some e) →
    ∃ t, exec (.rawSessionIdleTimeout e) s = .next t ∧ (t.engine e).st = .idle ∧ (t.engine e).bank = [] ∧
      (t.engine e).window = none ∧ (t.engine e).sess = 0 ∧
      (∀ k, k ≠ e → t.engine k = s.engine k) ∧ t.adm = s.adm ∧ t.keys = s.keys)) ∧
  (∀ (n : Nat) (x : Slot) (s : State), tsorted s.adm.slots = true → s.due n 0x90B = some x → HasRoom {} x s →
    (∀ e, s.rawEngine x = some e →
      ∃ t, exec (.rawAbort n) s = .next t ∧ (t.engine e).st = .idle ∧ (t.engine e).bank = [] ∧ (t.engine e).sess = 0 ∧
        (∃ y, t.slot n = some y ∧ Carries (.inl (leBytes 2 (s.sessionWork e).length)) y) ∧
        (∀ p ∈ s.sessionWork e, p.2.unit.isSome = true → ∃ y, t.slot p.1 = some y ∧ y.cut = some .aborted) ∧
        (∀ p ∈ s.sessionWork e, p.2.unit = none → p.2.chain = none →
          ∃ y r, t.slot p.1 = some y ∧ y.stage = .done ∧ y.res = some r ∧ r.status = .aborted) ∧
        (∀ m z, s.slot m = some z → m ≠ n → m ∉ (s.sessionWork e).map (·.1) → z.chain = none → t.slot m = some z) ∧ t.keys = s.keys) ∧
    (s.rawEngine x = none →
      ∃ t, exec (.rawAbort n) s = .next t ∧ (x.chain = none → t.units = s.units) ∧ Settles (.fail .inputRange) n x s t ∧ t.keys = s.keys))

/-- The data commands of a session (R337 to R343): RAW_LOAD writes an untagged integer, RAW_LOAD_KEY a key component under its tag
and makes the key the session's, RAW_READ returns words of which none is tagged, inline or to DST, and refuses tagged ones with
INPUT_RANGE. The modular commands of a session (R342, R344 to R347): with a key named exactly where a word read is tagged, and
untagged operands below an odd untagged modulus of at least 3, sum, difference, product, inverse and power modulo n stand in the
result words, tagged where an operand was, and zero under a tagged modulus that is even or below 3; an untagged operand without an
inverse ends with INPUT_RANGE. Where the spec leaves a point open, it stands on the model's choice of assumption 23. -/
def Obligations.RawCommands : Prop :=
  (∀ (n e : Nat) (x : Slot) (s : State), tsorted s.adm.slots = true → s.rawUnit x = some e → HasRoom {} x s →
    (s.due n 0x903 = some x →
      ∃ t, exec (.rawLoad n) s = .next t ∧ t.engine e = (s.engine e).put (rawR x.desc) (rawWords x.desc) (rawLoadValue x) false ∧
        Settles {} n x s t ∧ t.keys = s.keys ∧ t.bus = s.bus) ∧
    (s.due n 0x904 = some x → dKey x.desc 1 ≠ 0 → s.policyEntry x.part 0x15 = 1 →
      ((s.engine e).sessKey = 0 ∨ (s.engine e).sessKey = dKey x.desc 1) →
      rawWords x.desc = (rawComponent (x.keyD 1) (rawComp x.desc)).1 →
      ∃ t, exec (.rawLoadKey n) s = .next t ∧ (t.engine e).sessKey = dKey x.desc 1 ∧
        (t.engine e).bank = ((s.engine e).put (rawR x.desc) (rawWords x.desc) (rawComponent (x.keyD 1) (rawComp x.desc)).2.1
          (rawComponent (x.keyD 1) (rawComp x.desc)).2.2).bank ∧
        Settles {} n x s t ∧ t.keys = s.keys ∧ t.bus = s.bus) ∧
    (s.due n 0x905 = some x → (s.engine e).tagged (rawA x.desc) (rawWords x.desc) = true →
      ∃ t, exec (.rawRead n) s = .next t ∧ (x.chain = none → t.engine e = s.engine e) ∧
        Settles (.fail .inputRange) n x s t ∧ t.keys = s.keys ∧ t.bus = s.bus) ∧
    (∀ b, s.due n 0x905 = some x → (s.engine e).tagged (rawA x.desc) (rawWords x.desc) = false →
      b = (if rawBig x.desc = true then beBytes (8 * rawWords x.desc) ((s.engine e).value (rawA x.desc) (rawWords x.desc))
        else leBytes (8 * rawWords x.desc) ((s.engine e).value (rawA x.desc) (rawWords x.desc))) →
      ∃ t, exec (.rawRead n) s = .next t ∧ t.engine e = s.engine e ∧
        Settles (if dDst x.desc = 0 then .inl b else .toDst b) n x s t ∧ t.keys = s.keys ∧ t.bus = s.bus)) ∧
  (∀ (n e : Nat) (x : Slot) (s : State), tsorted s.adm.slots = true → s.rawUnit x = some e → HasRoom {} x s →
    rawKeyFault s x (s.engine e) false = none →
    (∀ i, i = rawIn x.desc (s.engine e) true false → i.secret = (dKey x.desc 1 != 0) → i.rangeOk = true →
      (s.due n 0x906 = some x → ∃ t, exec (.rawModadd n) s = .next t ∧
        t.engine e = (s.engine e).put (rawR x.desc) (rawWords x.desc) (if i.badModulus = true then 0 else (i.a + i.b) % i.n) i.secret ∧
        Settles {} n x s t ∧ t.keys = s.keys) ∧
      (s.due n 0x907 = some x → ∃ t, exec (.rawModsub n) s = .next t ∧
        t.engine e = (s.engine e).put (rawR x.desc) (rawWords x.desc)
          (if i.badModulus = true then 0 else (i.a % i.n + (i.n - i.b % i.n)) % i.n) i.secret ∧
        Settles {} n x s t ∧ t.keys = s.keys) ∧
      (s.due n 0x908 = some x → ∃ t, exec (.rawModmul n) s = .next t ∧
        t.engine e = (s.engine e).put (rawR x.desc) (rawWords x.desc) (if i.badModulus = true then 0 else i.a * i.b % i.n) i.secret ∧
        Settles {} n x s t ∧ t.keys = s.keys)) ∧
    (∀ i, i = rawIn x.desc (s.engine e) false false → i.secret = (dKey x.desc 1 != 0) → i.rangeOk = true → s.due n 0x909 = some x →
      (∀ v, i.badModulus = false → invMod i.a i.n = some v → ∃ t, exec (.rawModinv n) s = .next t ∧
        t.engine e = (s.engine e).put (rawR x.desc) (rawWords x.desc) v i.secret ∧ Settles {} n x s t ∧ t.keys = s.keys) ∧
      ((i.badModulus = true ∨ invMod i.a i.n = none) → i.secret = true → ∃ t, exec (.rawModinv n) s = .next t ∧
        t.engine e = (s.engine e).put (rawR x.desc) (rawWords x.desc) 0 true ∧ Settles {} n x s t ∧ t.keys = s.keys) ∧
      (invMod i.a i.n = none → i.secret = false → ∃ t, exec (.rawModinv n) s = .next t ∧
        Settles (.fail .inputRange) n x s t ∧ t.keys = s.keys)) ∧
    (∀ i, i = rawIn x.desc (s.engine e) false true → i.secret = (dKey x.desc 1 != 0) → i.rangeOk = true → s.due n 0x90A = some x →
      rawPriv x.desc = false → ∃ t, exec (.rawModexp n) s = .next t ∧
        t.engine e = (s.engine e).put (rawR x.desc) (rawWords x.desc) (if i.badModulus = true then 0 else powMod i.a i.e i.n) i.secret ∧
        Settles {} n x s t ∧ t.keys = s.keys) ∧
    (s.due n 0x90A = some x → rawPriv x.desc = true → dKey x.desc 1 ≠ 0 → s.policyEntry x.part 0x15 = 1 →
      rawWords x.desc = rsaBits (x.keyD 1).alg / 64 → (s.engine e).tagged (rawA x.desc) (rawWords x.desc) = false →
      ∃ t, exec (.rawModexp n) s = .next t ∧ (t.engine e).sessKey = dKey x.desc 1 ∧
        (t.engine e).bank = ((s.engine e).put (rawR x.desc) (rawWords x.desc)
          (rsaDec (x.keyD 1).alg (x.keyD 1).material ((s.engine e).value (rawA x.desc) (rawWords x.desc))) false).bank ∧
        Settles {} n x s t ∧ t.keys = s.keys))

/-! ### Rings and digest rings -/

/-- RING_ENABLE, RING_RESUME and RING_SETTLE (R56, R94, R95, R97, R98, R130, R131, R135): an ENABLE that nothing refuses starts a
ring at REPLAY_INDEX, a VF's bound to the lowest free global ring, and HALTED while the service is halted or locked; a refused one
leaves it DISABLED with the refusal's code; RESUME starts a ring in ERROR again; a stopping ring whose last entry has ended
publishes REPLAY_INDEX and reaches the state it was stopping toward. RING_DISABLE (R56, R95, R131, R134): an ENABLED ring, and one
in ERROR or HALTED, stops toward DISABLED, and so does one that stops toward another state, but for a ring stopping toward HALTED,
which keeps that goal; no key and no committed state of it is lost, and nothing is written to the host. Where the spec leaves a
point open, it stands on the model's choices of assumptions 16, 95 and 96. -/
def Obligations.RingStateMachine : Prop :=
  (∀ (rid : Nat) (s : State),
    (s.barOpen (rid / 4096) = true → (s.ring rid).state = .disabled → enableRefused s rid = none →
      ∃ t, exec (.ringEnable rid) s = .next t ∧
        t.ring rid = { s.ring rid with
          state := if s.service = .halted ∨ s.service = .locked then .halted else .enabled, fetch := (s.ring rid).replay,
          prod := (s.ring rid).replay, retire := (s.ring rid).replay, errCode := 0, unwritten := [], chainAt := none, chainLen := 0,
          chainWait := false, chainBad := false, glob := if rid < 4096 then none else s.freeGlobalRing } ∧
        (∀ r, r ≠ rid → t.ring r = s.ring r) ∧ t.keys = s.keys ∧ t.parts = s.parts ∧ t.bus = s.bus ∧ t.adm = s.adm) ∧
    (∀ st, s.barOpen (rid / 4096) = true → (s.ring rid).state = .disabled → enableRefused s rid = some st →
      exec (.ringEnable rid) s = .next (s.modRing rid (fun r => { r with errCode := st.code }))) ∧
    (s.barOpen (rid / 4096) = true → (rid < 4096 → s.vfRingOf rid = none) → (s.ring rid).state = .error →
      exec (.ringResume rid) s = .next (s.modRing rid (fun r => { r with
        state := .enabled, fetch := r.replay, prod := r.replay, retire := r.replay, errCode := 0, unwritten := [],
        chainAt := none, chainLen := 0, chainWait := false, chainBad := false }))) ∧
    ((s.ring rid).state = .stopping → s.ringSlots rid = [] →
      ∃ t, exec (.ringSettle rid) s = .next t ∧ (t.ring rid).state = (s.ring rid).settle ∧
        (t.ring rid).replay = (s.ring rid).replayIndex ∧ (∀ r, r ≠ rid → t.ring r = s.ring r) ∧
        t.keys = s.keys ∧ t.adm = s.adm ∧ t.bus = s.bus)) ∧
  (∀ (rid : Nat) (s : State), s.barOpen (rid / 4096) = true → (rid < 4096 → s.vfRingOf rid = none) →
    ((s.ring rid).state ≠ .disabled → ¬((s.ring rid).state = .stopping ∧ (s.ring rid).settle = .halted) →
      ∃ t, exec (.ringDisable rid) s = .next t ∧ (t.ring rid).state = .stopping ∧ (t.ring rid).settle = .disabled ∧
        t.keys = s.keys ∧ t.commit.base = s.commit.base ∧ t.bus = s.bus ∧ t.od = s.od) ∧
    ((s.ring rid).state = .stopping → (s.ring rid).settle = .halted → ∃ t, exec (.ringDisable rid) s = .next t ∧
      (t.ring rid).state = .stopping ∧ (t.ring rid).settle = .halted ∧ t.keys = s.keys ∧ t.bus = s.bus))

/-- The digest ring of a group (R56, R98, R125, R127, R129, R138): enabled with its base and size and empty indices, once a VF's
group is bound; a consumer index within its size is taken and may end an overflow, another is ignored; disabling keeps its indices;
reading its base shows all four fields. The PF's block of a group bound to a VF takes none of them and reads 0. -/
def Obligations.DigestRingCommands : Prop :=
  ∀ (gid : Nat) (s : State), s.barOpen (gid / 1024) = true →
    (s.groupHidden gid = false →
      (∀ base size, (s.group gid).enable = false → 6 ≤ size → size ≤ 16 →
        (1024 ≤ gid → (s.group gid).glob.isSome = true ∨ s.freeGlobalGroup.isSome = true) →
        ∃ t, exec (.grpDigEnable gid base size) s = .next t ∧
          t.group gid = { s.group gid with
            base := base / 65536 * 65536 % 2 ^ 64, sizeLog2 := size, enable := true, prod := 0, cons := 0, overflow := false,
            glob := if gid < 1024 then (s.group gid).glob else (s.group gid).glob.or s.freeGlobalGroup } ∧
          (∀ g, g ≠ gid → t.group g = s.group g) ∧ t.rings = s.rings ∧ t.keys = s.keys ∧ t.bus = s.bus) ∧
      (∀ c, idxSub (s.group gid).prod (c % 2 ^ 32) ≤ 2 ^ (s.group gid).sizeLog2 →
        exec (.grpDigConsWrite gid c) s = .next (s.modGroup gid (fun g => { g with
          cons := c % 2 ^ 32, overflow := g.overflow && decide (2 ^ g.sizeLog2 ≤ idxSub g.prod (c % 2 ^ 32)) }))) ∧
      (∀ c, 2 ^ (s.group gid).sizeLog2 < idxSub (s.group gid).prod (c % 2 ^ 32) → exec (.grpDigConsWrite gid c) s = .next s) ∧
      (∃ t, exec (.grpDigDisable gid) s = .next t ∧ (t.group gid).enable = false ∧ (t.group gid).prod = (s.group gid).prod ∧
        (t.group gid).cons = (s.group gid).cons ∧ (t.group gid).base = (s.group gid).base ∧
        (∀ g, g / 1024 ≠ gid / 1024 → t.group g = s.group g) ∧
        (gid < 1024 → t = s.modGroup gid (fun g => { g with enable := false })) ∧ t.rings = s.rings ∧ t.keys = s.keys ∧ t.bus = s.bus) ∧
      (exec (.grpDigBaseRead gid) s = .next (readBack s (gid / 1024) (groupAt gid)
        ((s.group gid).base + (s.group gid).sizeLog2 * 64 + b2n (s.group gid).overflow * 2 + b2n (s.group gid).enable)))) ∧
    (s.groupHidden gid = true →
      (∀ base size, exec (.grpDigEnable gid base size) s = .next s) ∧ (∀ c, exec (.grpDigConsWrite gid c) s = .next s) ∧
      exec (.grpDigDisable gid) s = .next s ∧ exec (.grpDigBaseRead gid) s = .next (readBack s (gid / 1024) (groupAt gid) 0))

/-! ### The host link and functions -/

/-- The host link (R45, R46, R48 to R50, R93, R485, R489): PERST# holds the interface in reset, and once it has been high asks for
the reset its entry names; link-down and training set the link's state; a link that could form only x2 settles at x1; a Hot Reset or
a long link-down asks for a warm reset, or resets every function, whose partitions are then disabled. VF Enable (R57 to R60): more
than seven VFs without ARI are rejected; otherwise, with no acknowledgement outstanding, the VFs exist at once, and with one
outstanding the write waits; clearing it takes them away and disables their partitions. Keys and durable state stand. Where the spec
leaves a point open, it stands on the model's choice of assumption 34. -/
def Obligations.HostLinkEvents : Prop :=
  ((∀ s : State,
    ((s.power.mainOk && s.link.perstSeenHigh && !s.link.perst) = false →
      exec .perstAssert s = .next { s with link := { s.link with perst := true, up := false } }) ∧
    ((s.power.mainOk && s.link.perstSeenHigh && !s.link.perst) = true →
      exec .perstAssert s = .next (askReset { s with link := { s.link with perst := true, up := false } }
        ⟨if s.link.coldOnPerst then 1 else 2, 0x02, false, 0⟩))) ∧
  (∀ s : State,
    (s.link.perst = false ∨ s.power.power ≠ .standby →
      exec .perstDeassert s = .next { s with link := { s.link with perst := false, perstSeenHigh := true } }) ∧
    (s.link.perst = true → s.power.power = .standby → ∃ t, exec .perstDeassert s = .next t ∧
      t.link = { s.link with perst := false, perstSeenHigh := true } ∧
      (s.wakeAt 1042 ≠ [] → 1042 ∈ t.eic.latches ∧ t.power.waiting = some ⟨2, 0x0B, false, 0⟩) ∧ t.keys = s.keys ∧ t.bus = s.bus)) ∧
  (∀ s : State, exec .hostLinkDown s = .next { s with link := { s.link with up := false } }) ∧
  (∀ (s : State) (speed width : Nat) (rev : Bool), s.link.perst = false → s.power.mainOk = true → 1 ≤ speed → speed ≤ 5 →
    width ∈ [1, 2, 4, 8, 16] →
    ∃ t, exec (.linkTrained speed width rev) s = .next t ∧ t.link.up = true ∧ t.link.speed = speed ∧
      t.link.width = (if width = 2 then 1 else width) ∧ t.link.reversed = rev ∧
      t.link.retrains = (if s.link.trainedOnce then min 0xFFFF (s.link.retrains + 1) else s.link.retrains) ∧
      t.fns = s.fns ∧ t.rings = s.rings ∧ t.keys = s.keys ∧ t.bus = s.bus ∧ t.power = s.power) ∧
  (∀ s : State, s.power.mainOk = true → s.link.warmOnLinkdown = true →
    exec .hotReset s = .next (askReset s ⟨2, 0x06, false, 0⟩) ∧
    (s.link.up = false → s.link.trainedOnce = true → exec .linkDownTimeout s = .next (askReset s ⟨2, 0x07, false, 0⟩))) ∧
  (∀ s : State, s.power.mainOk = true → s.link.warmOnLinkdown = false → ∀ c, (c = .hotReset ∨
      (c = .linkDownTimeout ∧ s.link.up = false ∧ s.link.trainedOnce = true)) →
    ∃ t, exec c s = .next t ∧
      (∀ n p, s.fnExists n = true → p ∈ s.hosted n → (s.part p).dis = .enabled → (t.part p).dis = .disabling) ∧
      t.link.vfEnable = false ∧ t.keys = s.keys ∧ t.commit.base = s.commit.base ∧ t.bus = s.bus ∧ t.power = s.power) ∧
  (∀ (s : State) (p : PendingReset), s.power.pfail = false → s.power.stopPoint ≠ 0 → s.power.waiting = none →
    askReset s p = { s with power := { s.power with waiting := some p } })) ∧
  (∀ (k : Nat) (s : State), s.cfgReady = true →
    (s.link.vfEnable = false → 7 < k → k ≤ 255 → s.link.ari = false →
      exec (.vfEnableSet k) s = .next { s with link := { s.link with sriovReject := true } }) ∧
    (s.link.vfEnable = false → k ≤ 255 → (k ≤ 7 ∨ s.link.ari = true) → s.vfsBusy = false → ∃ t, exec (.vfEnableSet k) s = .next t ∧
      t.link.vfEnable = true ∧ t.link.numVfs = k ∧ t.link.vfPending = none ∧ (∀ n, 1 ≤ n → n ≤ k → t.fnExists n = true) ∧
      t.keys = s.keys ∧ t.od = s.od ∧ t.commit = s.commit ∧ t.bus = s.bus) ∧
    (s.link.vfEnable = false → k ≤ 255 → (k ≤ 7 ∨ s.link.ari = true) → s.vfsBusy = true → ∃ t, exec (.vfEnableSet k) s = .next t ∧
      t.link.vfEnable = false ∧ t.link.vfPending = some k ∧ t.parts = s.parts ∧ t.keys = s.keys ∧ t.bus = s.bus) ∧
    (s.link.vfEnable = true → exec (.vfEnableSet k) s = .next s) ∧
    (s.link.vfEnable = true → ∃ t, exec .vfEnableClear s = .next t ∧ t.link.vfEnable = false ∧ (∀ n, n ≠ 0 → t.fnExists n = false) ∧
      (∀ n p, 1 ≤ n → n ≤ s.link.numVfs → p ∈ s.hosted n → (s.part p).dis = .enabled → (t.part p).dis = .disabling) ∧
      t.keys = s.keys ∧ t.od = s.od ∧ t.commit.base = s.commit.base ∧ t.bus = s.bus) ∧
    (s.link.vfEnable = false → exec .vfEnableClear s = .next { s with link := { s.link with vfPending := none } }))

/-- A function's disable procedure starts (R81, R87, R88, R91, R92): whatever the trigger, every partition it hosts is DISABLING
under that trigger and the function shows it; a function that hosts none is DISABLED, or reset, at once; a wedged function is
WEDGED. Keys, durable state and host memory stand. The end of a disable procedure (R73, R74, R81, R83, R85, R91): with nothing but
undurable changes of the partition in flight and every message of its rings decided, DISABLE_ACK ends it and keeps its keys: the
partition is DISABLED, waits for its remap, or returns to service where ENABLE = 1 was written meanwhile; with the last partition of
a function under a Function Level Reset that function is reset; 1 ms after the trigger a Skipper or hash step that still moves
buffer data is ABORTED. Where the spec leaves a point open, it stands on the model's choices of assumptions 14, 35, 94 and 97. -/
def Obligations.DisableProcedure : Prop :=
  (∀ (fn : Nat) (s : State), s.fnExists fn = true → (s.fn fn).state ≠ .wedged →
    (s.cfgReady = true → (s.fn fn).busMaster = true → (s.fn fn).inFlr = false → ∃ t, exec (.busMasterEnableClear fn) s = .next t ∧
      (∀ p ∈ s.hosted fn, (s.part p).disable = none → (t.part p).dis = .disabling ∧
        ∃ d, (t.part p).disable = some d ∧ d.trigger = .busMaster ∧ d.fn = fn) ∧
      (t.fn fn).state = (if s.hosted fn = [] then .disabled else .disabling) ∧ (t.fn fn).busMaster = false ∧
      t.keys = s.keys ∧ t.od = s.od ∧ t.commit.base = s.commit.base ∧ t.bus = s.bus) ∧
    (s.cfgReady = true → (s.fn fn).d3hot = false → (s.fn fn).inFlr = false → ∃ t, exec (.d3hotEntry fn) s = .next t ∧
      (∀ p ∈ s.hosted fn, (s.part p).disable = none → (t.part p).dis = .disabling ∧
        ∃ d, (t.part p).disable = some d ∧ d.trigger = .d3hot ∧ d.fn = fn) ∧
      (t.fn fn).state = (if s.hosted fn = [] then .disabled else .disabling) ∧ (t.fn fn).d3hot = true ∧
      t.keys = s.keys ∧ t.od = s.od ∧ t.commit.base = s.commit.base ∧ t.bus = s.bus) ∧
    (∀ c g, s.cfgReady = true → ((c = .functionLevelReset fn ∧ g = .flr) ∨ (c = .d0Return fn ∧ g = .d3hot ∧ (s.fn fn).d3hot = true)) →
      ∃ t, exec c s = .next t ∧
        (∀ p ∈ s.hosted fn, (s.part p).disable = none → (t.part p).dis = .disabling ∧
          ∃ d, (t.part p).disable = some d ∧ d.trigger = g ∧ d.fn = fn) ∧
        (s.hosted fn ≠ [] → (t.fn fn).inFlr = true ∧ (t.fn fn).d3hot = false ∧ (t.fn fn).state = .disabling) ∧
        (s.hosted fn = [] → t.fn fn = { fn0 with state := .enabled } ∧ ∀ r, r / 4096 = fn → tget t.rings r = none) ∧
        (fn = 0 → t.link.vfEnable = false ∧ t.link.vfPending = none) ∧ (fn ≠ 0 → t.od = s.od) ∧
        t.keys = s.keys ∧ t.commit.base = s.commit.base ∧ t.bus = s.bus) ∧
    (∀ p, s.mainPart fn = some p → p ∈ s.hosted fn → s.outstanding fn = true → s.quota p 0x0D ≠ 0 →
      100000 * s.quota p 0x0D ≤ (s.fn fn).stallUs →
      ∃ t, exec (.functionWedged fn) s = .next t ∧ (∀ q ∈ s.hosted fn, (s.part q).disable = none → (t.part q).dis = .disabling ∧
          ∃ d, (t.part q).disable = some d ∧ d.trigger = .wedged) ∧
        (t.fn fn).state = .wedged ∧ (s.asleep = false → 1026 ∈ t.eic.corePend) ∧
        t.keys = s.keys ∧ t.od = s.od ∧ t.commit.base = s.commit.base ∧ t.bus = s.bus)) ∧
  ((∀ (p : Nat) (d : Disable) (s : State), (s.part p).disable = some d → (s.part p).dis = .disabling → s.drained p = true →
    (∀ g ∈ s.groupsOf p, s.undecided g = false) → s.link.vfPending = none →
    ((s.fn d.fn).inFlr = false → ∃ t, exec (.disableAck p) s = .next t ∧
      (t.part p).dis = (if d.trigger = .enable ∧ d.remap = none ∧ s.quota p 2 = 1 ∧ (s.fn d.fn).state = .enabled then .enabled
        else .disabled) ∧
      ((t.part p).disable.isSome = true ↔ d.remap.isSome = true) ∧ (s.asleep = false → 1025 ∈ t.eic.corePend) ∧
      (∀ q, q ≠ p → (t.part q).dis = (s.part q).dis ∧ (t.part q).disable = (s.part q).disable) ∧
      (∀ n x, s.slot n = some x → x.part = p → ∃ y, t.slot n = some y ∧ y.noWrite = true ∧ y.changes = x.changes) ∧
      t.keys = s.keys ∧ t.od = s.od ∧ t.commit = s.commit ∧ t.bus = s.bus) ∧
    ((s.fn d.fn).inFlr = true → (s.part p).fn = d.fn → d.remap = none → s.quota p 2 = 1 → (s.fn d.fn).state ≠ .wedged →
      p < 256 → (∀ q ∈ s.hosted d.fn, q ≠ p → (s.part q).dis ≠ .disabling) →
      ∃ t, exec (.disableAck p) s = .next t ∧ t.fn d.fn = { fn0 with state := .enabled } ∧ (t.part p).dis = .enabled ∧
        (t.part p).disable = none ∧ t.keys = s.keys ∧ t.commit = s.commit ∧ t.bus = s.bus)) ∧
  (∀ (n : Nat) (u : UnitClass × Nat) (x : Slot) (s : State), tsorted s.adm.slots = true → s.slot n = some x → x.unit = some u →
    u.1.zeroes = false →
    ((s.part x.part).dis = .disabling ∨ ((s.ring x.rid).state = .stopping ∧ (s.ring x.rid).settle = .disabled)) →
    (dSrc x.desc ≠ 0 ∨ dDst x.desc ≠ 0) →
    ∃ t y, exec (.disableBufferTimeout n) s = .next t ∧ t.slot n = some y ∧ y.stage = .done ∧ y.unit = none ∧ Carries (.fail .aborted) y ∧
      (u.1 = .skipper → n ∉ (t.lane u.2).queue) ∧ (u.1 = .hash → n ∉ (t.hash u.2).queue) ∧
      (∀ m z, m ≠ n → s.slot m = some z → (x.chain = none ∨ z.rid ≠ x.rid ∨ z.chain ≠ x.chain) → t.slot m = some z) ∧
      t.keys = s.keys ∧ t.commit = s.commit ∧ t.bus = s.bus))

/-- Register accesses (R16, R48, R52, R54, R56, R93, R137, R398, R581): reading HIF_FN_ERR returns it and clears STRAY_DOORBELLS
alone; an aligned 4-byte write of the mailbox BAR changes the four bytes of the request buffer it names and no other; RING_CFG of a
disabled ring of the PF is stored; MSI-X control and the base address registers follow configuration space; an access that is not
aligned to its size, or to a BAR that Memory Space Enable closes, completes with Unsupported Request and does nothing, and one to
configuration space before the interface is ready with Configuration Request Retry Status. Where the spec leaves a point open, it
stands on the model's choices of assumptions 15, 34 and 98. -/
def Obligations.RegisterAccesses : Prop :=
  (∀ (fn : Nat) (s : State), s.barOpen fn = true → ∃ t, exec (.hifFnErrRead fn) s = .next t ∧
    t.bus.reads = s.bus.reads ++ [(fn, 0x010, (s.fn fn).stray * 2 ^ 16 + b2n (s.fn fn).ideLost * 8 + b2n (s.fn fn).dropped * 4 +
      b2n (s.fn fn).readTimeout * 2 + b2n (s.fn fn).readFault)] ∧
    t.fn fn = { s.fn fn with stray := 0 } ∧ (∀ n, n ≠ fn → t.fn n = s.fn n) ∧ t.rings = s.rings ∧ t.keys = s.keys) ∧
  (∀ (off v : Nat) (s : State), s.barOpen 0 = true → 0x1000 ≤ off → off < 0x5000 → off % 4 = 0 → v < 2 ^ 32 →
    ∃ t, exec (.registerWrite 0 4 off 4 v) s = .next t ∧
      (∀ i, i < 4 → tgetD t.od.reqBuf (off - 0x1000 + i) 0#8 = BitVec.ofNat 8 (v / 256 ^ i)) ∧
      (∀ a, (a < off - 0x1000 ∨ off - 0x1000 + 4 ≤ a) → tgetD t.od.reqBuf a 0#8 = tgetD s.od.reqBuf a 0#8) ∧
      t = { s with od := { s.od with reqBuf := t.od.reqBuf } }) ∧
  (∀ (rid v : Nat) (s : State), s.barOpen 0 = true → rid < 4096 → s.vfRingOf rid = none → (s.ring rid).state = .disabled → v < 2 ^ 32 →
    exec (.registerWrite 0 0 (0x20000 + 32 * rid + 8) 4 v) s = .next (s.modRing rid (fun r => { r with
      part := bits v 31 24, group := bits v 23 14, eventAll := bit v 13, sizeLog2 := bits v 4 0, badCfg := bits v 12 5 != 0 || false }))) ∧
  (∀ (fn v : Nat) (s : State), s.fnExists fn = true → s.cfgReady = true →
    exec (.registerWrite fn 6 0x0B2 4 v) s = .next (s.modFn fn (fun f => { f with msixEnable := bit v 15, funcMask := bit v 14 })) ∧
    exec (.registerWrite 0 6 0x10 4 v) s = .next (s.modFn 0 (fun f => { f with bars := setBar 0 f.bars 0 v }))) ∧
  (∀ (fn bar off size v : Nat) (s : State), bar < 6 → bar ≠ 2 → size = 4 ∨ size = 8 → off % size ≠ 0 → s.barOpen fn = true →
    exec (.registerWrite fn bar off size v) s = .next (refuseAccess s fn (bar * 2 ^ 24 + off) .unsupported)) ∧
  (∀ (fn bar off size v : Nat) (s : State), s.fnExists fn = true → s.power.mainOk = true →
    (bar < 6 → (s.fn fn).memSpace = false →
      exec (.registerWrite fn bar off size v) s = .next (refuseAccess s fn (bar * 2 ^ 24 + off) .unsupported)) ∧
    (s.link.perst = false → s.power.stopPoint = 0 →
      exec (.registerWrite fn 6 off size v) s = .next (refuseAccess s fn (6 * 2 ^ 24 + off) .retry)))

/-- Link encryption (R65, R66, R68, R69): KEY_PROG installs one key of one direction, K_SET_GO puts an installed key set in use and
makes the stream Secure once both directions are, and K_SET_STOP or a failed check takes a Secure stream out of the Secure state,
with its keys cleared; the functions it protects are disabled and show IDE_LOST, and their completions in flight are never written.
The DOE mailbox (R61 to R64): every request is answered with one data object; discovery names the three object types in order; a
request on a certificate slot other than 0, or of a version the responder does not implement, is answered with an error; challenges
and measurements, signed or not, take their nonce from partition 0's instance; a key exchange with a valid point opens a secured
session. Where the spec leaves a point open, it stands on the model's choices of assumptions 37, 98, 99 and 100. -/
def Obligations.LinkEncryption : Prop :=
  (∀ (stream ks rx : Nat) (s : State),
    (∀ key, s.kmOpen stream ks rx = true → ∃ t, exec (.keyProg stream ks rx key) s = .next t ∧
      tget (tgetD t.link.ide stream ide0).keys (2 * ks + rx) = some (fit 32 key) ∧
      (tgetD t.link.ide stream ide0).secure = (tgetD s.link.ide stream ide0).secure ∧
      (∀ k, k ≠ stream → tgetD t.link.ide k ide0 = tgetD s.link.ide k ide0) ∧
      t.bus.doe.length = s.bus.doe.length + 1 ∧ t.fns = s.fns ∧ t.parts = s.parts ∧ t.keys = s.keys ∧ t.eic = s.eic) ∧
    (s.kmOpen stream ks rx = true → (tget (tgetD s.link.ide stream ide0).keys (2 * ks + rx)).isSome = true →
      ∃ t, exec (.kSetGo stream ks rx) s = .next t ∧ tget (tgetD t.link.ide stream ide0).active rx = some ks ∧
        ((tgetD t.link.ide stream ide0).secure = true ↔ (tgetD s.link.ide stream ide0).secure = true ∨
          ((tget (tgetD t.link.ide stream ide0).active 0).isSome = true ∧ (tget (tgetD t.link.ide stream ide0).active 1).isSome = true)) ∧
        t.fns = s.fns ∧ t.parts = s.parts ∧ t.keys = s.keys) ∧
    (s.kmOpen stream ks rx = true → tget (tgetD s.link.ide stream ide0).active rx = some ks →
      ∃ t, exec (.kSetStop stream ks rx) s = .next t ∧ (tgetD t.link.ide stream ide0).secure = false ∧
        tget (tgetD t.link.ide stream ide0).active rx = none ∧
        ((tgetD s.link.ide stream ide0).secure = true → (tgetD t.link.ide stream ide0).keys = [] ∧
          ∀ n ∈ s.ideFns (tgetD s.link.ide stream ide0), (t.fn n).ideLost = true) ∧
        (s.ideFns (tgetD s.link.ide stream ide0) = [] → t.fns = s.fns ∧ t.parts = s.parts) ∧ t.keys = s.keys) ∧
    (stream < 16 → (tgetD s.link.ide stream ide0).secure = true →
      ∃ t, exec (.ideCheckFailed stream) s = .next t ∧ t.link.aerIde = true ∧ (tgetD t.link.ide stream ide0).secure = false ∧
        (tgetD t.link.ide stream ide0).keys = [] ∧ (s.asleep = false → 1029 ∈ t.eic.corePend) ∧
        (∀ n ∈ s.ideFns (tgetD s.link.ide stream ide0), (t.fn n).ideLost = true ∧
          ∀ m x, t.slot m = some x → x.rid / 4096 = n → x.barred = true) ∧
        (s.ideFns (tgetD s.link.ide stream ide0) = [] → t.fns = s.fns ∧ t.parts = s.parts) ∧ t.keys = s.keys)) ∧
  ((∀ (i : Nat) (s : State), exec (.doeDiscovery i) s =
    .next { s with bus := { s.bus with doe := s.bus.doe ++
      [if i < 3 then leBytes 2 1 ++ [byteOf i, byteOf (if i = 2 then 0 else i + 1)] else zeros 4] } }) ∧
  (∀ (ver off len : Nat) (s : State), ver ∈ [0x11, 0x12] → s.life.unsealed = true → s.certChain 0 ≠ [] → off ≤ (s.certChain 0).length →
    exec (.spdmGetCertificate ⟨ver, 0⟩ off len) s = .next (sendDoe s ([byteOf ver, 0x02#8, byteOf 0, 0#8] ++
      leBytes 2 (((s.certChain 0).drop off).take (min len 4080)).length ++
      leBytes 2 ((s.certChain 0).length - off - (((s.certChain 0).drop off).take (min len 4080)).length) ++
      ((s.certChain 0).drop off).take (min len 4080)))) ∧
  (∀ (ver k off len : Nat) (s : State), k ≠ 0 ∨ ver ∉ [0x11, 0x12] →
    exec (.spdmGetCertificate ⟨ver, k⟩ off len) s = .next (sendDoe s (spdmError ver))) ∧
  (∀ (ver : Nat) (nonce : Bytes) (s : State), ver ∈ [0x11, 0x12] → nonce.length = 32 → s.life.unsealed = true → s.certChain 0 ≠ [] →
    s.coreReady 88 = true →
    ∃ t m, exec (.spdmChallenge ⟨ver, 0⟩ nonce) s = .next t ∧ t.bus = { s.bus with doe := s.bus.doe ++
      [[byteOf ver, 0x03#8, byteOf 0, 1#8] ++ Sha.sha384 (s.certChain 0) ++ (s.part 0).drbg.staged.take 32 ++ m] } ∧
      (t.part 0).drbg.staged = (s.part 0).drbg.staged.drop 88 ∧ (∀ p, p ≠ 0 → t.part p = s.part p) ∧ t.keys = s.keys ∧
      t.link = s.link ∧ t.life = s.life) ∧
  (∀ (ver i : Nat) (signed : Bool) (nonce : Bytes) (s : State), ver ∈ [0x11, 0x12] → i ≤ 9 ∨ i = 0xFF →
    (signed = true → s.life.unsealed = true ∧ nonce.length = 32) → s.coreReady (if signed = true then 88 else 32) = true →
    ∃ t m b, exec (.spdmGetMeasurements ⟨ver, i⟩ signed nonce) s = .next t ∧
      b = (if i = 0 then [] else if i = 0xFF then (List.range 9).map (fun k => s.measurement (k + 1)) else [s.measurement i]) ∧
      t.bus = { s.bus with doe := s.bus.doe ++
        [[byteOf ver, 0x60#8, byteOf (if i = 0 then 9 else 0), 0#8, byteOf b.length] ++ leBytes 3 b.flatten.length ++ b.flatten ++
          (s.part 0).drbg.staged.take 32 ++ leBytes 2 0 ++ m] } ∧
      (signed = false → m = []) ∧ (∀ p, p ≠ 0 → t.part p = s.part p) ∧ t.keys = s.keys ∧ t.link = s.link ∧ t.life = s.life) ∧
  (∀ (ver req : Nat) (point : Bytes) (q : Nat × Nat) (s : State), ver ∈ [0x11, 0x12] → Ec.decode Ec.p384 (0x04#8 :: point) = some q →
    s.life.unsealed = true → Ec.onCurve Ec.p384 q.1 q.2 = true → s.coreReady 146 = true →
    ∃ t, exec (.spdmKeyExchange ⟨ver, req⟩ point) s = .next t ∧ t.link.spdmSession.isSome = true ∧ t.link.spdmSeq = 0 ∧
      t.bus.doe.length = s.bus.doe.length + 1 ∧ t.link.ide = s.link.ide ∧ t.keys = s.keys ∧ t.life = s.life))

/-! ### Events, cores and wake -/

/-- A message is sent or withheld (R398 to R400, R403): the source the arbiter takes, where its vector is not masked, sends the
vector's address and data once, every ready and enabled pending source of that vector is no longer pending and its PBA bit is clear;
where it is masked the vector's PBA bit is set, the source stays ready and pending and nothing is sent. A source of a function
without MSI-X Enable or Bus Master Enable, or one a hold covers, is not considered: it stays as it is, and so does one the arbiter
does not take. -/
def Obligations.MessageCommit : Prop :=
  ∀ (n : Nat) (s : State),
    (s.arbiter = some n → s.masked n = false → ∃ t, exec (.msixCommit n) s = .next t ∧
      t.bus = { s.bus with messages := s.bus.messages ++
        [((s.sourceOwner n).1, ((s.fn (s.sourceOwner n).1).entry (s.mapOf n).vector).addr,
          ((s.fn (s.sourceOwner n).1).entry (s.mapOf n).vector).data)] } ∧
      n ∉ t.eic.hostPend ∧ n ∉ t.eic.ready ∧
      (∀ k ∈ s.eic.ready, (s.sourceOwner k).1 = (s.sourceOwner n).1 → (s.mapOf k).enable = true → (s.mapOf k).vector = (s.mapOf n).vector →
        k ∉ t.eic.hostPend) ∧
      (∀ k, (s.sourceOwner k).1 ≠ (s.sourceOwner n).1 → (k ∈ t.eic.hostPend ↔ k ∈ s.eic.hostPend)) ∧
      (s.mapOf n).vector ∉ (t.fn (s.sourceOwner n).1).pba ∧ t.eic.corePend = s.eic.corePend ∧ t.rings = s.rings ∧ t.keys = s.keys) ∧
    (s.arbiter = some n → s.masked n = true → ∃ t, exec (.msixCommit n) s = .next t ∧ t.bus = s.bus ∧ t.eic = s.eic ∧
      (s.mapOf n).vector ∈ (t.fn (s.sourceOwner n).1).pba ∧ t.rings = s.rings ∧ t.keys = s.keys) ∧
    ((s.fn (s.sourceOwner n).1).msixEnable = false ∨ (s.fn (s.sourceOwner n).1).busMaster = false ∨
      (s.fn (s.sourceOwner n).1).hold = true ∨ s.eic.globalHold = true → exec (.msixCommit n) s = .next s) ∧
    (s.arbiter ≠ some n → exec (.msixCommit n) s = .next s)

/-- Masks, holds, maps and windows (R80, R396, R397, R401, R402, R404, R416): each write changes what it names; reading a mask or
the Message Control returns it and changes nothing; writing 1 clears the pending bits a function has; a map write is stored, or
refused whole where it enables a vector at or above VECTORS; a window that closes makes its group's pending sources ready. Where the
spec leaves a point open, it stands on the model's choice of assumption 32. -/
def Obligations.EventRegisters : Prop :=
  (∀ (fn v : Nat) (m : Bool) (s : State), s.barOpen fn = true → v < vectorCount fn →
    exec (.vectorControlWrite fn v m) s =
      .next (s.modFn fn (fun f => { f with msix := tset f.msix v { f.entry v with mask := m } })) ∧
    exec (.vectorControlRead fn v) s = .next (readBack s fn (vectorControlAt fn v) (b2n ((s.fn fn).entry v).mask))) ∧
  (∀ (fn : Nat) (m : Bool) (s : State), s.fnExists fn = true → s.cfgReady = true →
    exec (.functionMaskWrite fn m) s = .next (s.modFn fn (fun f => { f with funcMask := m })) ∧
    exec (.messageControlRead fn) s = .next (readBack s fn (6 * 2 ^ 24 + 0xB2) (s.messageControl fn))) ∧
  (∀ (fn : Nat) (h : Bool) (s : State), s.barOpen fn = true →
    exec (.eicHoldWrite fn h) s = .next (s.modFn fn (fun f => { f with hold := h }))) ∧
  (∀ (h : Bool) (s : State), s.barOpen 0 = true →
    exec (.eicGlobalHoldWrite h) s = .next { s with eic := { s.eic with globalHold := h } }) ∧
  (∀ (fn word v : Nat) (s : State), s.barOpen fn = true → word < (if fn = 0 then 48 else 2) →
    ∃ t, exec (.eicSrcPendW1c fn word v) s = .next t ∧
      (∀ b k, b < 32 → bit v b = true → s.pendSource fn (32 * word + b) = some k → k ∉ t.eic.hostPend) ∧
      (∀ k, (∀ b, b < 32 → bit v b = true → s.pendSource fn (32 * word + b) ≠ some k) → (k ∈ t.eic.hostPend ↔ k ∈ s.eic.hostPend)) ∧
      t.eic.corePend = s.eic.corePend ∧ t.eic.map = s.eic.map ∧ t.bus = s.bus ∧ t.keys = s.keys) ∧
  (∀ (fn k v : Nat) (l : List (Nat × Nat)) (s : State), s.barOpen fn = true → k < (if fn = 0 then 768 else 32) →
    l = [(2 * k, v % 65536), (2 * k + 1, v / 65536)] →
    ((∀ p ∈ l, s.mapOpen fn p.1 = true → (mapHalf fn p.2).enable = true → (mapHalf fn p.2).vector < s.vectors fn) →
      ∃ t, exec (.eicMapWrite fn k v) s = .next t ∧
        (∀ p ∈ l, s.mapOpen fn p.1 = true → tget t.eic.map (mapKey fn p.1) = some (mapHalf fn p.2)) ∧
        t.eic.hostPend = s.eic.hostPend ∧ t.bus = s.bus ∧ t.keys = s.keys) ∧
    (∀ p ∈ l, s.mapOpen fn p.1 = true → (mapHalf fn p.2).enable = true → s.vectors fn ≤ (mapHalf fn p.2).vector →
      exec (.eicMapWrite fn k v) s = .next (s.modFn fn (fun f => { f with mapRefused := true })))) ∧
  (∀ (h : Nat) (s : State), (s.holdOff h).isOpen = true → ∃ t, exec (.holdoffWindowClose h) s = .next t ∧
    t.holdOff h = { s.holdOff h with isOpen := false, remain := 0 } ∧
    (∀ n, n ∈ t.eic.ready ↔ n ∈ s.eic.ready ∨ (n ∈ s.eic.hostPend ∧ n / 16 = h)) ∧
    t.eic.hostPend = s.eic.hostPend ∧ t.bus = s.bus ∧ t.fns = s.fns ∧ t.keys = s.keys)

/-- A supervisor core (R408 to R411): it enters its handler for a target, claims it, completes it and returns; the watchdog is
restarted, raises its internal source at stage 1, and at stage 2 asks for a warm main reset that names the core. Where the spec
leaves a point open, it stands on the model's choice of assumption 32. -/
def Obligations.CoreHandlers : Prop :=
  ∀ (c : Nat) (s : State), c < 4 →
    ((s.target c).isSome = true → (s.core c).entered = (s.core c).claimed.length → (s.core c).entered < 16 →
      exec (.coreHandlerEntry c) s = .next (s.modCore c (fun k => { k with entered := k.entered + 1 }))) ∧
    (∀ n, s.target c = some n → ∃ t, exec (.coreClaimRead c) s = .next t ∧
      t.core c = { s.core c with claim := n, claimed := (sourcePriority n, n) :: (s.core c).claimed } ∧
      n ∉ t.eic.corePend ∧ t.eic.hostPend = s.eic.hostPend ∧ (∀ k, k ≠ c → t.core k = s.core k) ∧ t.bus = s.bus ∧ t.keys = s.keys) ∧
    (s.target c = none → exec (.coreClaimRead c) s = .next (s.modCore c (fun k => { k with claim := 0xFFFF }))) ∧
    (∀ pr n r, (s.core c).claimed = (pr, n) :: r →
      exec (.coreCompletionWrite c n) s = .next (s.modCore c (fun k => { k with claimed := r }))) ∧
    ((s.core c).claimed.length < (s.core c).entered → s.target c = none →
      exec (.coreHandlerReturn c) s = .next (s.modCore c (fun k => { k with entered := k.entered - 1 }))) ∧
    (exec (.coreWatchdogRestart c) s = .next (s.modCore c (fun k => { k with wdog := 0 }))) ∧
    ((s.core c).wdog = 0 → ∃ t, exec (.coreWatchdogStage1 c) s = .next t ∧ (t.core c).wdog = 1 ∧
      (s.asleep = false → 1440 + c ∈ t.eic.corePend) ∧ t.eic.hostPend = s.eic.hostPend ∧ t.power = s.power ∧ t.keys = s.keys) ∧
    ((s.core c).wdog = 1 → ∃ t, exec (.coreWatchdogStage2 c) s = .next t ∧ (t.core c).wdog = 2 ∧
      (s.power.pfail = false → s.power.stopPoint ≠ 0 → s.power.waiting = none → t.power.waiting = some ⟨2, 0x08, false, c⟩) ∧
      t.keys = s.keys ∧ t.bus = s.bus)

/-- Idle and wake (R395, R413 to R415, R417, R486, R487, R489): IDLE is entered from RUN without work and left with the raise of its
cause; a listed wake-capable source is latched while the main die is off and ends STANDBY; the armed wake timer fires once; a
Security Officer's write of the list or of the timer waits for its commit point. Where the spec leaves a point open, it stands on
the model's choices of assumptions 32, 53 and 118. -/
def Obligations.IdleAndWake : Prop :=
  (∀ s : State, (s.power.power = .run ∨ s.power.power = .idle) → s.power.mainOk = true → s.workless = true →
    s.odNat 0xA000 3 ≤ s.power.idleUs →
    exec .idleEntry s = .next { s with power := { s.power with power := .idle }, eic := { s.eic with roused := false } }) ∧
  (∀ (n : Nat) (s : State), s.power.power = .idle → reservedSource n = false →
    ∃ t, exec (.idleExit n) s = .next t ∧ t.power = { s.power with power := .run } ∧
    (n < 1440 → n ∈ t.eic.hostPend) ∧ (1024 ≤ n → n ∈ t.eic.corePend) ∧
    t.fns = s.fns ∧ t.rings = s.rings ∧ t.keys = s.keys ∧ t.bus = s.bus) ∧
  (∀ (n : Nat) (s : State), wakeCapable n = true → s.wakeAt n ≠ [] →
    (s.power.power = .standby → ∃ t, exec (.wakeLatch n) s = .next t ∧ n ∈ t.eic.latches ∧
      t.eic.firstLatch = s.eic.firstLatch.or (some n) ∧ t.power.waiting = some ⟨2, 0x0B, false, 0⟩ ∧ t.keys = s.keys ∧ t.fns = s.fns) ∧
    (s.power.power = .off → ∃ t, exec (.wakeLatch n) s = .next t ∧ n ∈ t.eic.latches ∧
      t.eic.firstLatch = s.eic.firstLatch.or (some n) ∧ t.power = s.power ∧ t.keys = s.keys ∧ t.fns = s.fns) ∧
    (s.power.power = .run → exec (.wakeLatch n) s = .next s)) ∧
  (∀ s : State, s.power.power = .off ∨ s.power.power = .standby →
    (s.eic.wakeArmed = true → s.odNat 0xA021 1 ≠ 0 → s.wakeAt 1041 ≠ [] → ∃ t, exec .wakeTimer s = .next t ∧
      t.eic.wakeArmed = false ∧ 1041 ∈ t.eic.latches ∧ (s.power.power = .off → t.power = s.power) ∧
      (s.power.power = .standby → t.power.waiting = some ⟨2, 0x0B, false, 0⟩) ∧ t.keys = s.keys) ∧
    (s.eic.wakeArmed = false → exec .wakeTimer s = .next s)) ∧
  (∀ (rq : Req) (entry source : Nat) (s t : State), Taken s rq 0xA020 entry 0x20 t → t.holds rq 1 false = true →
    1 ≤ entry → entry ≤ 64 → source < 65536 → (source = 0xFFFF ∨ wakeCapable source = true) →
    exec (.wakeListWrite rq entry source) s = .next (acceptCommit t rq 0xA020 entry 0x20 [] [Change.od 0xA020 entry (leBytes 2 source)])) ∧
  (∀ (rq : Req) (v : Nat) (s t : State), Taken s rq 0xA021 1 0x20 t → t.holds rq 1 false = true → v < 2 ^ 32 →
    exec (.wakeTimerSWrite rq v) s = .next (acceptCommit { t with eic := { t.eic with wakeArmed := true } } rq 0xA021 1 0x20 []
      [Change.od 0xA021 1 (leBytes 4 v)]))

/-! ### The key store and key domains -/

/-- Upkeep in the background while the main die is powered (R39, R40, R151, R188, R193, R586): the sweep frees an orphan by one
committed change, and empties a DESTROYING partition without records; a patrol read corrects, or reloads a record from NAND, or
finds it unreadable; a cache error drops its entries, and one in critical state raises CRITICAL_ECC; a copy that unwraps with the
same generation restores a record, another lets the next holder be asked, and none from the last damages it; sensors and telemetry
take their values. Where the spec leaves a point open, it stands on the model's choices of assumptions 8, 40 and 117. -/
def Obligations.UpkeepRuns : Prop :=
  (∀ (k : Nat) (r : KeyRec) (s : State), s.power.mainOk = true → s.rcd k = some r → s.orphan k = true → s.freeing k = false →
    commitRoom s = true →
    exec (.orphanSweepFree k) s = .next (commitQuietly s
      ((match r.rcd.linIdx with
        | none => []
        | some i => [.lineageFree i (!r.rcd.revoked)]) ++ [Change.recordFree k]))) ∧
  (∀ (ms p : Nat) (s : State), s.power.mainOk = true → ∃ t, exec (.orphanSweepPassEnd ms) s = .next t ∧
    t.keys.sweepMs = min 0xFFFFFFFF ms ∧ t.keys.recs = s.keys.recs ∧
    (t.part p).key = (if (s.part p).key = .destroying ∧ (∀ e ∈ s.keys.recs, e.2.rcd.part ≠ p) ∧ s.recordsComing p = []
      then .empty else (s.part p).key) ∧ t.fns = s.fns ∧ t.commit.queue = s.commit.queue) ∧
  (∀ (k : Nat) (r : KeyRec) (s : State), s.power.mainOk = true → s.rcd k = some r →
    exec (.dramPatrolScrub k true) s = .next { s with tele := { s.tele with dramCorr := min (2 ^ 64 - 1) (s.tele.dramCorr + 1) } } ∧
    (r.dram = true → ∃ t q, exec (.dramPatrolScrub k false) s = .next t ∧ t.rcd k = some q ∧ q.rcd = r.rcd ∧
      (q.dram = true ∨ (q.dram = false ∧ q.nand = false)) ∧ (r.nand = false ∨ r.damaged = true → q.dram = false) ∧
      (∀ j, j ≠ k → t.rcd j = s.rcd j) ∧ t.commit.queue = s.commit.queue)) ∧
  (∀ (k : Nat) (l : Bool) (s : State), s.power.mainOk = true →
    exec (.keyCacheScrub l k true) s = .next { s with tele := { s.tele with sramCorr := min (2 ^ 64 - 1) (s.tele.sramCorr + 1) } } ∧
    (∃ t, exec (.keyCacheScrub false k false) s = .next t ∧ tget t.keys.cache k = none ∧
      (∀ j, j ≠ k → tget t.keys.cache j = tget s.keys.cache j) ∧ t.keys.recs = s.keys.recs ∧ t.tamper = s.tamper ∧ t.bus = s.bus) ∧
    (∃ t, exec (.keyCacheScrub true k false) s = .next t ∧ 155 ∈ t.tamper.flags ∧ t.keys.recs = s.keys.recs)) ∧
  (∀ (k n src : Nat) (r : KeyRec) (s : State), s.rcd k = some r → tget s.keys.recover k = some n →
    (∀ c, c.gen = r.rcd.gen → c.part = r.rcd.part → (s.unwrapped c).isSome = true →
      ∃ t, exec (.recordRecoveryReply k src (some c)) s = .next t ∧ t.rcd k = some ⟨c, true, true, false⟩ ∧ tget t.keys.recover k = none ∧
        (∀ j, j ≠ k → t.rcd j = s.rcd j) ∧ t.bus = s.bus) ∧
    (∀ c, (∀ d, c = some d → d.gen ≠ r.rcd.gen ∨ d.part ≠ r.rcd.part ∨ s.unwrapped d = none) →
      ((s.copyHolders r.rcd.part)[n]? ≠ some src → exec (.recordRecoveryReply k src c) s = .next s) ∧
      (∀ h, (s.copyHolders r.rcd.part)[n]? = some src → (s.copyHolders r.rcd.part)[n + 1]? = some h → ∃ t, exec (.recordRecoveryReply k src c) s = .next t ∧
        tget t.keys.recover k = some (n + 1) ∧ t.keys.recs = s.keys.recs ∧ t.parts = s.parts) ∧
      ((s.copyHolders r.rcd.part)[n]? = some src → (s.copyHolders r.rcd.part)[n + 1]? = none → ∃ t q, exec (.recordRecoveryReply k src c) s = .next t ∧ t.rcd k = some q ∧
        q = { r with damaged := true } ∧ tget t.keys.recover k = none ∧ t.keys.damagedCnt = s.keys.damagedCnt + 1 ∧
        (s.asleep = false → 1037 ∈ t.eic.corePend) ∧ (∀ j, j ≠ k → t.rcd j = s.rcd j)))) ∧
  (∀ (k a b c d w : Nat) (s : State), s.power.mainOk = true →
    (∃ t, exec (.sensorCalibration k) s = .next t ∧ (∀ j, j ∈ t.tele.calibrated ↔ j = k ∨ j ∈ s.tele.calibrated) ∧
      t = { s with tele := { s.tele with calibrated := t.tele.calibrated } }) ∧
    (∃ t, exec (.telemetryRefresh a b c d w) s = .next t ∧ t.telemetry 0x9000 1 = some (leBytes 2 (a % 65536)) ∧
      t.telemetry 0x9000 2 = some (leBytes 2 (b % 65536)) ∧ t.telemetry 0x9000 3 = some (leBytes 2 (c % 65536)) ∧
      t.telemetry 0x9000 4 = some (leBytes 4 (d % 2 ^ 32)) ∧ t.telemetry 0x9000 7 = some (leBytes 2 (w % 65536)) ∧
      t.telemetry 0x9000 8 = some (leBytes 8 (min (2 ^ 64 - 1) s.tele.completions)) ∧
      t.keys = s.keys ∧ t.units = s.units ∧ t.parts = s.parts ∧ t.bus = s.bus))

/-- Quotas, remaps and ENABLE (R73 to R75, R81): a quota write waits for the epoch boundary; a partition moved to another function,
or disabled, enters the disable procedure and its value is committed; enabling a settled one brings it back at once. The scheduling
epoch (R73, R75, R79, R93): HIF_EPOCH counts, every waiting quota write is evaluated in its order, and a partition whose disable has
been acknowledged comes to its new function; a quota write at the boundary is in force from it, is refused with QUOTA where the
partition uses more, and its value is committed. Where the spec leaves a point open, it stands on the model's choice of assumption
36. -/
def Obligations.PartitionServiceCommands : Prop :=
  (∀ (rq : Req) (p v : Nat) (grant : Bytes) (use : List Change) (s t : State), p < 256 →
    (∀ sub, isQuota sub = true → Taken s rq (quotaAt p sub).1 (quotaAt p sub).2 (plainOp (quotaAt p sub).1 (quotaAt p sub).2) t →
      t.holds rq 1 true = true → numCheck (quotaAt p sub).1 (quotaAt p sub).2 v = none →
      (sub = 3 → (t.part p).fn = 0 ∨ v ≤ 256) →
      exec (.quotaWrite rq p sub v) s = .next { t with od := { t.od with quotas := t.od.quotas ++ [(rq, p, sub, v)] } }) ∧
    (Taken s rq (0x2100 + p) 1 (writeOp false grant) t → Granted t rq false 4 p (leBytes 1 v) grant use → p ≠ 0 → v < 256 →
      (v ≠ 0 → t.vfTaken p v = false ∧ t.quota p 3 ≤ 256) →
      ∃ u d, exec (.partitionFunctionWrite rq p v grant) s = .next u ∧ (u.part p).dis = .disabling ∧ (u.part p).disable = some d ∧
        ((t.part p).dis = .enabled → d.trigger = .remap) ∧ d.remap = some v ∧
        u.commit.queue = (acceptCommit t rq (0x2100 + p) 1 (writeOp false grant) []
          (Change.od (0x2100 + p) 1 (leBytes 1 v) :: use)).commit.queue ∧ u.keys = t.keys ∧ u.od = t.od ∧ u.bus = t.bus) ∧
    (Taken s rq (0x2100 + p) 2 (writeOp false grant) t → Granted t rq false 4 p (leBytes 1 0) grant use → (t.part p).dis = .enabled →
      ∃ u d, exec (.partitionEnableWrite rq p 0 grant) s = .next u ∧ (u.part p).dis = .disabling ∧ (u.part p).disable = some d ∧
        d.trigger = .enable ∧ d.remap = none ∧ u.quota p 2 = 0 ∧ u.keys = t.keys ∧ u.bus = t.bus) ∧
    (Taken s rq (0x2100 + p) 2 (writeOp false grant) t → Granted t rq false 4 p (leBytes 1 1) grant use → (t.part p).dis = .disabled →
      (t.part p).disable = none → (t.fn (t.part p).fn).state = .enabled →
      ∃ u, exec (.partitionEnableWrite rq p 1 grant) s = .next u ∧ u.part p = { t.part p with dis := .enabled } ∧
        u.quota p 2 = 1 ∧ u.commit.queue = t.commit.queue ++ [⟨[], Change.od (0x2100 + p) 2 (leBytes 1 1) :: use, 0,
          some (rq, 0x2100 + p, 2, writeOp false grant, [])⟩] ∧ (∀ q, q ≠ p → u.part q = t.part q) ∧ u.keys = t.keys ∧ u.rings = t.rings ∧ u.bus = t.bus)) ∧
  ((∀ s : State, ∃ t, exec .schedulingEpoch s = .next t ∧ t.link.epoch = (s.link.epoch + 1) % 2 ^ 32 ∧ t.od.quotas = [] ∧
    t.keys = s.keys ∧ t.adm = s.adm ∧
    (s.od.quotas = [] → (∀ e ∈ s.parts, (s.part e.1).disable = none) →
      t = { s with link := { s.link with epoch := (s.link.epoch + 1) % 2 ^ 32 } }) ∧
    (∀ p d n, (s.part p).disable = some d → (s.part p).dis = .disabled → d.remap = some n →
      (t.part p).fn = n ∧ (t.part p).disable = none) ∧
    (∀ p, (s.part p).disable = none → (t.part p).fn = (s.part p).fn ∧ (t.part p).dis = (s.part p).dis)) ∧
  (∀ (s : State) (rq : Req) (p v : Nat), s.od.quotas = [(rq, p, 4, v)] → (∀ e ∈ s.parts, (s.part e.1).disable = none) →
    p < 256 → v < 2 ^ 32 →
    (s.quotaRefused p 4 v = false → ∃ t, exec .schedulingEpoch s = .next t ∧ t.od.quotas = [] ∧
      t.odGet (0x2100 + p) 4 = numBytes (0x2100 + p) 4 v ∧
      t.commit.queue = s.commit.queue ++ [⟨[], [Change.od (0x2100 + p) 4 (numBytes (0x2100 + p) 4 v)], 0,
        some (rq, 0x2100 + p, 4, 0x20, [])⟩] ∧
      t.keys = s.keys ∧ t.parts = s.parts ∧ t.rings = s.rings) ∧
    (s.quotaRefused p 4 v = true → ∃ t, exec .schedulingEpoch s = .next t ∧ t.od.quotas = [] ∧
      t.commit = s.commit ∧ t.odGet (0x2100 + p) 4 = s.odGet (0x2100 + p) 4 ∧ t.keys = s.keys ∧ t.parts = s.parts)))

/-- Key domains (R145, R147, R150 to R152, R155, R156, R158, R320): creating an EMPTY partition, a new binding mask, an announcement
and a manifest that verifies wait for KD, and queue their changes once Looper has formed it; destroying a partition, FINALISE and
CANCEL queue theirs at once; no key domain changes before the commit point. Granted writes of a partition's policy (R200, R226,
R227, R230, R267, R270, R300, R572): a grant for class 12 and the partition commits a PIN policy whose lengths lie in 4 to 12, a
decimalisation table that holds every digit, an ATC capacity or window, and spends a use. Where the spec leaves a point open, it
stands on the model's choices of assumptions 38, 39, 41, 101, 102 and 108. -/
def Obligations.PartitionKeyCommands : Prop :=
  ((∀ (rq : Req) (p : Nat) (grant : Bytes) (use : List Change) (s t : State),
    (Taken s rq (0x3100 + p) 3 (writeOp false grant) t → Granted t rq false 1 p [1#8] grant use → p < 256 → (t.part p).key = .empty →
      t.domainPending p = false → t.tamper.drs.isSome = true →
      exec (.partitionCreate rq p grant) s = .next { t with keys := { t.keys with kdJobs := t.keys.kdJobs ++
        [⟨some (rq, 0x3100 + p, 3, writeOp false grant), use, .create p⟩] } }) ∧
    (Taken s rq (0x3100 + p) 4 (writeOp false grant) t → Granted t rq false 1 p [1#8] grant use → 1 ≤ p → p < 256 →
      ((t.part p).key = .active ∨ (t.part p).key = .sealFailed) → t.domainPending p = false →
      exec (.partitionDestroy rq p grant) s = .next (acceptCommit t rq (0x3100 + p) 4 (writeOp false grant) [] (Change.partDestroy p :: use))) ∧
    (∀ m, Taken s rq (0x3100 + p) 2 (writeOp false grant) t → Granted t rq false 2 p (leBytes 1 m) grant use → 1 ≤ p → p < 256 →
      m < 256 → bit m 0 = true → bit m 2 = true → (t.part p).key = .active → t.announcing = false → t.domainPending p = false →
      exec (.bindingMaskWrite rq p m grant) s = .next { t with keys := { t.keys with kdJobs := t.keys.kdJobs ++
        [⟨some (rq, 0x3100 + p, 2, writeOp false grant), use, .mask p m⟩] } }) ∧
    (∀ m, Taken s rq 0x3001 1 (writeOp true grant) t → Granted t rq false 2 0 m grant use →
      exec (.manifestWrite rq m grant) s = .next (match manifestCheck m with
        | some st => refuse t rq 0x3001 1 (writeOp true grant) st
        | none => { t with keys := { t.keys with kdJobs := t.keys.kdJobs ++
            [⟨some (rq, 0x3001, 1, writeOp true grant), use, .manifest m⟩] } })) ∧
    (∀ k v, Taken s rq 0x3000 (k + 4) (writeOp false grant) t → Granted t rq false 2 0 v grant use → 5 ≤ k → k ≤ 7 → v.length = 48 →
      exec (.announcedMrWrite rq k v grant) s = .next { t with keys := { t.keys with kdJobs := t.keys.kdJobs ++
        [⟨some (rq, 0x3000, k + 4, writeOp false grant), use, .announce k v⟩] } }) ∧
    (Taken s rq 0x3001 3 (writeOp false grant) t → Granted t rq false 2 0 [1#8] grant use →
      (t.ahead.meas.migration = 2 ∨ t.ahead.meas.migration = 3) →
      exec (.finalise rq grant) s = .next (acceptCommit t rq 0x3001 3 (writeOp false grant) [] (t.dropSeals 2 ++ (Change.migration 0 :: use)))) ∧
    (Taken s rq 0x3001 4 (writeOp false grant) t → Granted t rq false 2 0 [1#8] grant use → t.ahead.meas.migration = 1 →
      exec (.cancel rq grant) s = .next (acceptCommit t rq 0x3001 4 (writeOp false grant) []
        (t.dropSeals 1 ++ [Change.manifest [], Change.od 0x3000 9 (zeros 48), Change.od 0x3000 10 (zeros 48), Change.od 0x3000 11 (zeros 48), Change.migration 0] ++ use)))) ∧
  (∀ (s : State) (rq : Req) (idx sub op : Nat) (uses : List Change) (task : KdTask) (r : List KdJob) (q : List Nat),
    s.units.looper.queue = 0 :: q → s.units.looper.drawn = true → s.units.looper.keyReg.isSome = true → s.units.looper.block = 2 →
    s.looperPowered = true → s.booting = false → s.keys.kdJobs = ⟨some (rq, idx, sub, op), uses, task⟩ :: r → s.clustered = false →
    (∀ p, task = .create p → (s.ahead.part p).key = .empty ∧ s.entropy.ready = true ∧ 2 ≤ s.entropy.pool.length) →
    (∀ p m, task = .mask p m → (s.ahead.part p).key = .active ∧ s.ahead.meas.migration ≠ 1) → (∀ p, task ≠ .own p) →
    (∀ k p n v, task ≠ .vault k p n v) →
    ∃ u l, exec .looperBlockDone s = .next u ∧ u.keys.kd = none ∧ u.keys.kdJobs = r ∧ u.units.looper.queue = q ∧
      u.commit.queue = s.commit.queue ++ [⟨[], l ++ uses, 0, some (rq, idx, sub, op, [])⟩] ∧
      (∀ p m, task = .mask p m → l.head? = some (.od (0x3100 + p) 2 (leBytes 1 m))) ∧
      (∀ m, task = .manifest m → l.head? = some (.manifest m) ∧ l.getLast? = some (.migration 1)) ∧
      (∀ k v, task = .announce k v → l.head? = some (.od 0x3000 (k + 4) v) ∧ l.getLast? = some (.migration 1)) ∧
      u.keys.recs = s.keys.recs ∧ u.adm = s.adm ∧ u.rings = s.rings)) ∧
  (∀ (rq : Req) (p v : Nat) (b grant : Bytes) (use : List Change) (s t : State), p < 256 →
    (∀ lo hi k, v = 4096 * hi + 256 * lo + k → 4 ≤ lo → lo ≤ hi → hi ≤ 12 → k < 8 →
      Taken s rq (0x3100 + p) 0x0C (writeOp false grant) t → Granted t rq false 12 p (leBytes 2 v) grant use →
      exec (.pinPolicyWrite rq p v grant) s = .next (acceptCommit t rq (0x3100 + p) 0x0C (writeOp false grant) []
        (Change.od (0x3100 + p) 0x0C (leBytes 2 v) :: use))) ∧
    (∀ k, k < 4 → b.length = 8 → (∀ d ∈ nibbles b, d ≤ 9) → (∀ d, d ≤ 9 → d ∈ nibbles b) →
      Taken s rq (0x3100 + p) (0x0D + k) (writeOp false grant) t → Granted t rq false 12 p b grant use →
      exec (.decTableWrite rq p k b grant) s = .next (acceptCommit t rq (0x3100 + p) (0x0D + k) (writeOp false grant) []
        (Change.od (0x3100 + p) (0x0D + k) b :: use))) ∧
    (v ≤ 2 ^ 26 → v % 8 = 0 → (v ≠ (t.part p).atcCap → t.recordsUsed p - (t.part p).atcCap / 8 + v / 8 ≤ t.quota p 5) →
      Taken s rq (0x3100 + p) 0x12 (writeOp false grant) t → Granted t rq false 12 p (leBytes 4 v) grant use →
      exec (.atcCapacityWrite rq p v grant) s = .next (acceptCommit t rq (0x3100 + p) 0x12 (writeOp false grant) []
        ((if v = (t.part p).atcCap then [] else [Change.atcTable p v, Change.od (0x3100 + p) 0x12 (leBytes 4 v)]) ++ use))) ∧
    (v < 65536 → Taken s rq (0x3100 + p) 0x13 (writeOp false grant) t → Granted t rq false 12 p (leBytes 2 v) grant use →
      exec (.atcWindowWrite rq p v grant) s = .next (acceptCommit t rq (0x3100 + p) 0x13 (writeOp false grant) []
        (Change.od (0x3100 + p) 0x13 (leBytes 2 v) :: use))))

/-! ### Quorum and ceremonies -/

/-- Grant requests (R195 to R199, R381): opening one takes its challenge from partition 0's instance and its reply carries both; the
approval that brings the count to M removes the request and queues the grant, signed by a member, or by its card over the points of
an exchange and the request's challenge; an approval short of M is counted; a request lapses after WINDOW. Where the spec leaves a
point open, it stands on the model's choices of assumptions 42, 81, 100 and 103. -/
def Obligations.GrantRequests : Prop :=
  (∀ (rq : Req) (cls part uses : Nat) (digest : Bytes) (s t : State), Taken s rq 0x3400 1 0x20 t → digest.length = 32 → part < 256 →
    1 ≤ cls → cls ≤ 12 → 1 ≤ uses → uses ≤ t.odNat (0x3300 + cls) 4 → t.keys.grantKey.isSome = true → t.openRequests.length < 16 →
    t.coreReady 32 = true →
    ∃ u, exec (.quorumOpen rq cls part uses digest) s = .next u ∧
      u.quorum.requests = t.quorum.requests ++
        [⟨t.quorum.nextReq, cls, part, uses, digest, (t.part 0).drbg.staged.take 32, [], t.opUs⟩] ∧
      u.quorum.grants = t.quorum.grants ∧ (u.part 0).drbg.staged = (t.part 0).drbg.staged.drop 32 ∧
      u.bus.replies = t.bus.replies ++
        [(rq, replyBody 0x3400 1 0x20 0 rq.reqId (leBytes 4 t.quorum.nextReq ++ (t.part 0).drbg.staged.take 32))] ∧
      u.keys = t.keys ∧ u.commit = t.commit) ∧
  (∀ (rq : Req) (id m port sub : Nat) (sig cred point : Bytes) (ok : Bool) (q : GrantReq) (k : Bytes) (c : Instr) (s t : State), m < 64 →
    Taken s rq 0x3400 sub 0x20 t → t.openRequests.find? (·.id == id) = some q → t.mayApprove m q.cls q.part = true →
    (sub = 2 ∧ c = .quorumApprove rq id m sig ∧ sig.length = 64 ∧
        ok = Ec.verifyEnc Ec.p256 (t.odGet (0x3500 + m) 3) (approveDigest q) sig ∨
      sub = 4 ∧ c = .cardApprove rq id port cred ⟨point, sig⟩ ∧ t.cardIn port = true ∧ t.memberOf cred = some m ∧ t.coreReady 40 = true ∧
        ok = agreed cred (Ec.encode Ec.p256 (Ec.mul Ec.p256 (Ec.scalar Ec.p256 ((t.part 0).drbg.staged.take 40)) (Ec.base Ec.p256))) point
          q.challenge sig) →
    t.keys.grantKey = some k → m ∉ q.approvers →
    ∃ u, exec c s = .next u ∧ u.keys = t.keys ∧
    (ok = false → u.quorum.requests = t.quorum.requests ∧ u.commit = t.commit ∧
      u.bus.replies = t.bus.replies ++ [(rq, replyBody 0x3400 sub 0x20 (Status.code .verifyFail) rq.reqId [])]) ∧
    (ok = true →
     (t.approved { q with approvers := q.approvers ++ [m] } = true → ∃ g,
      g.cls = q.cls ∧ g.part = q.part ∧ g.uses = q.uses ∧ g.left = q.uses ∧ g.digest = q.digest ∧ g.id = t.quorum.nextId ∧
      u.commit.queue = t.commit.queue ++ [⟨[], [Change.grant g], 0, some (rq, 0x3400, sub, 0x20, g.bytes)⟩] ∧
      u.quorum.requests = t.quorum.requests.filter (fun x => x.id != q.id) ∧ u.bus.replies = t.bus.replies) ∧
     (t.approved { q with approvers := q.approvers ++ [m] } = false →
      u.quorum.requests = lmod (fun x => x.id == q.id) (fun _ => { q with approvers := q.approvers ++ [m] }) t.quorum.requests ∧
      u.commit = t.commit ∧ u.bus.replies = t.bus.replies ++ [(rq, replyBody 0x3400 sub 0x20 0 rq.reqId [])]))) ∧
  (∀ (id : Nat) (s : State), ∃ u, exec (.quorumRequestLapse id) s = .next u ∧
    (∀ q, q ∈ u.quorum.requests ↔ q ∈ s.quorum.requests ∧ (q.id ≠ id ∨ s.lapsed q = false)) ∧ u.quorum.grants = s.quorum.grants ∧
    u.keys = s.keys ∧ u.bus = s.bus)

/-- Key components (R177, R201 to R203, R212, R381, R395): COMPONENT_START opens a load of two or three components; a card of a
custodian that has given none, whose exchange holds, adds one and is answered with its check value; the last queues the combined
key's record and keeps its handle for the record's commit point; a failed exchange, a combined key of zeros and 300 s without a step
abandon the load with every component zeroed; a card's coming and going is seen; a granted TIER0_DESTROY queues the record's
destruction. Where the spec leaves a point open, it stands on the model's choices of assumptions 43, 58, 100, 104 and 115. -/
def Obligations.KeyCeremonies : Prop :=
  (∀ (rq : Req) (tpl grant : Bytes) (parent count : Nat) (use : List Change) (s t : State),
    Taken s rq 0x3600 1 (writeOp false grant) t →
    Granted t rq false 3 (grantPart grant) (tpl ++ leBytes 8 parent ++ leBytes 1 count) grant use → tpl.length = 32 → parent < 2 ^ 64 →
    2 ≤ count → count ≤ 3 → t.quorum.load.state ≠ 1 → (t.part (grantPart grant)).key = .active → loadTemplateOk (readTemplate tpl) = true →
    t.loadParentOk (grantPart grant) parent (readTemplate tpl).tier = true →
    exec (.componentStart rq tpl parent count grant) s = .next (acceptCommit { t with quorum := { t.quorum with
      load := { load0 with state := 1, template := tpl, parent := parent, part := grantPart grant, count := count, lastUs := t.opUs } } }
      rq 0x3600 1 (writeOp false grant) [] use)) ∧
  (∀ (rq : Req) (port m d : Nat) (cred point sig answer ch : Bytes) (s t : State), Taken s rq 0x3600 2 0x20 t → t.holds rq 1 false = true →
    port < 4 → t.quorum.load.state = 1 → t.quorum.load.handle = 0 → t.opUs ≤ t.quorum.load.lastUs + 300000000 → t.cardIn port = true →
    t.memberOf cred = some m → bit (t.roles m) 1 = true → m ∉ t.quorum.load.members → t.coreReady 72 = true →
    d = Ec.scalar Ec.p256 ((t.part 0).drbg.staged.take 40) → ch = ((t.part 0).drbg.staged.drop 40).take 32 →
    (∀ comp, agreed cred (Ec.encode Ec.p256 (Ec.mul Ec.p256 d (Ec.base Ec.p256))) point ch sig = true →
      openComponent (cardKey d point) answer = some comp → comp.length = symLen (readTemplate t.quorum.load.template).alg →
      (t.quorum.load.parts.length + 1 ≠ t.quorum.load.count →
        ∃ u, exec (.componentLoad rq port cred point sig answer) s = .next u ∧
          u.quorum.load = { t.quorum.load with parts := t.quorum.load.parts ++ [comp], members := t.quorum.load.members ++ [m], lastUs := t.opUs } ∧
          u.bus.replies = t.bus.replies ++ [(rq, replyBody 0x3600 2 0x20 0 rq.reqId
            (fit 5 (kcvOf (readTemplate t.quorum.load.template).alg false comp)))] ∧
          u.keys = t.keys ∧ u.commit = t.commit) ∧
      (∀ key c, t.quorum.load.parts.length + 1 = t.quorum.load.count →
        key = xorAll (symLen (readTemplate t.quorum.load.template).alg) (t.quorum.load.parts ++ [comp]) → allZero key = false →
        (t.part t.quorum.load.part).key = .active →
        t.loadParentOk t.quorum.load.part t.quorum.load.parent (readTemplate t.quorum.load.template).tier = true →
        newRecord t t.quorum.load.part ⟨readTemplate t.quorum.load.template, false, 4, key, t.quorum.load.parent,
          (match t.named t.quorum.load.part t.quorum.load.parent with
            | none => []
            | some r => r.rcd.anc), 0⟩ = some c →
        ∃ u, exec (.componentLoad rq port cred point sig answer) s = .next u ∧ u.quorum.load.state = 1 ∧ u.quorum.load.parts = [] ∧
          u.quorum.load.handle = c.handle ∧ u.quorum.load.kcv = c.kcv ∧ u.keys = t.keys ∧
          ∃ k, u.commit.queue = t.commit.queue ++ [⟨[], c.changes ++ [.creation t.quorum.load.part ⟨0, 0, 0, 0, c.handle⟩], 0,
            some (rq, 0x3600, 2, 0x20, k)⟩]) ∧
      (t.quorum.load.parts.length + 1 = t.quorum.load.count →
        allZero (xorAll (symLen (readTemplate t.quorum.load.template).alg) (t.quorum.load.parts ++ [comp])) = true →
        ∃ u, exec (.componentLoad rq port cred point sig answer) s = .next u ∧ u.quorum.load.state = 3 ∧ u.quorum.load.parts = [] ∧
          u.keys = t.keys ∧ u.commit = t.commit)) ∧
    (agreed cred (Ec.encode Ec.p256 (Ec.mul Ec.p256 d (Ec.base Ec.p256))) point ch sig = false ∨ openComponent (cardKey d point) answer = none →
      ∃ u, exec (.componentLoad rq port cred point sig answer) s = .next u ∧ u.quorum.load.state = 3 ∧
        u.quorum.load.parts = [] ∧ u.keys = t.keys ∧ u.commit = t.commit)) ∧
  (∀ s : State, s.quorum.load.state = 1 → s.quorum.load.handle = 0 →
    (s.quorum.load.lastUs + 300000000 < s.opUs → ∃ u, exec .componentLoadTimeout s = .next u ∧ u.quorum.load.state = 3 ∧
      u.quorum.load.parts = [] ∧ u.keys = s.keys ∧ u.bus = s.bus) ∧
    (s.opUs ≤ s.quorum.load.lastUs + 300000000 → exec .componentLoadTimeout s = .next s)) ∧
  (∀ (port : Nat) (b : Bool) (s : State), port < 4 → ∃ u, exec (.custodianCard port b) s = .next u ∧ tget u.quorum.cards port = some b ∧
    (∀ p, p ≠ port → tget u.quorum.cards p = tget s.quorum.cards p) ∧ (s.asleep = false → 1040 ∈ u.eic.corePend) ∧
    u.quorum.load = s.quorum.load ∧ u.keys = s.keys ∧ u.bus = s.bus) ∧
  (∀ (rq : Req) (h : Nat) (grant : Bytes) (use : List Change) (r : KeyRec) (s t : State), Taken s rq 0x3600 5 (writeOp false grant) t →
    Granted t rq false 3 (grantPart grant) (leBytes 8 h) grant use → h < 2 ^ 64 → t.named (grantPart grant) h = some r →
    r.readable = true → r.rcd.tier = 0 →
    exec (.tier0Destroy rq h grant) s =
      .next (acceptCommit t rq 0x3600 5 (writeOp false grant) [] (destroyChanges (hSlot h) r.rcd ++ use)))

/-! ### Looper, entropy and random bytes -/

/-- Looper (R24, R141, R145, R320 to R324, R466, R467, R592): each request it knows is queued where its time has come; any other is
refused and counted; the DRS takes two conditioned blocks and each Looper block one before it starts (R372), its key in the key
register; a block counts, and after a request's last one its output stands where it belongs, the key register is zero and the next
request runs. Where the spec leaves a point open, it stands on the model's choice of assumption 44. -/
def Obligations.LooperRequests : Prop :=
  ∀ s : State,
    (∀ b h, s.entropy.held = b :: h → s.units.looper.queue ≠ [] → s.units.looper.drawn = false → s.looperRuns = true →
      looperDraw s = { s with
        entropy := { s.entropy with held := h }
        units := { s.units with looper := { s.units.looper with
          drawn := true, keyReg := s.units.looper.queue.head?.bind s.looperKey } } }) ∧
    (s.entropy.held = [] ∨ s.units.looper.queue = [] ∨ s.units.looper.drawn = true ∨ s.looperRuns = false → looperDraw s = s) ∧
    (s.power.mainOk = true → drsState s.life.latched = true → (s.booting = false ∨ s.power.stopPoint ≠ 2) → s.kdDue = true →
      s.tamper.drs.isSome = true →
      exec .looperKdFormation s = .next (looperDraw (s.modLooper (fun l => { l with queue := l.queue ++ [0] })))) ∧
    (s.power.mainOk = true → drsState s.life.latched = true → s.booting = true → s.power.stopPoint = 2 →
      0 ∉ s.units.looper.queue → ∃ t, exec .looperKdFormation s = .next t ∧
        t.units.looper.queue = s.units.looper.queue ++ [0] ∧ (s.tamper.drs.isSome = true → t.tamper.drs = s.tamper.drs ∧ t.free = s.free) ∧
        (s.tamper.drs = none → (∃ d, t.tamper.drs = some d ∧ d.length = 32) ∧ t.free = s.free + 32 ∧
          t.entropy.held.length ≤ s.entropy.held.length - 2) ∧ t.keys = s.keys ∧ t.parts = s.parts) ∧
    (s.power.mainOk = true → s.life.latched = 0x22 → s.life.identity = true → s.life.sealed = false →
      exec .looperIdentitySeal s = .next (looperDraw (s.modLooper (fun l => { l with queue := l.queue ++ [1] })))) ∧
    (s.power.mainOk = true → s.power.stopPoint = 0 → s.life.identity = true → s.life.unsealed = false →
      exec .looperIdentityUnseal s = .next (looperDraw (s.modLooper (fun l => { l with queue := l.queue ++ [2] })))) ∧
    (s.power.mainOk = true → s.units.looper.recordKey = none →
      exec .looperRecordKeyFormation s = .next (looperDraw (s.modLooper (fun l => { l with queue := l.queue ++ [3] })))) ∧
    (s.power.mainOk = true → s.units.looper.nandKey = none →
      exec .looperNandKeyFormation s = .next (looperDraw (s.modLooper (fun l => { l with queue := l.queue ++ [4] })))) ∧
    (∀ seq r, s.units.looper.recordKey.isSome = true → (r, none) ∈ s.log.nand → r.seq = seq → r.cocoon = true →
      exec (.looperRecordSeal seq) s = .next (looperDraw (s.modLooper (fun l => { l with queue := l.queue ++ [16 + seq] })))) ∧
    (∀ code, ∃ t, exec (.looperRefused code) s = .next t ∧ t.units.looper.refused = min 0xFFFFFFFF (s.units.looper.refused + 1) ∧
      t.units.looper.queue = s.units.looper.queue ∧ t.keys = s.keys ∧ t.life = s.life ∧ t.tamper = s.tamper) ∧
    (∀ c r, s.units.looper.queue = c :: r → s.units.looper.drawn = false → exec .looperBlockDone s = .next (looperDraw s)) ∧
    (∀ c r, s.units.looper.queue = c :: r → s.units.looper.drawn = true → s.looperPowered = true →
      (s.units.looper.block + 1 < looperNeed c → s.entropy.st ≠ 4 → ∃ t, exec .looperBlockDone s = .next t ∧ t.units.looper.queue = c :: r ∧
        t.units.looper.block = s.units.looper.block + 1 ∧
        t.units.looper.blocks = min (2 ^ 64 - 1) (s.units.looper.blocks + 1) ∧ t.keys = s.keys ∧ t.life = s.life ∧ t.log = s.log) ∧
      (∀ k, looperNeed c ≤ s.units.looper.block + 1 → s.units.looper.keyReg = some k → ∃ t, exec .looperBlockDone s = .next t ∧
        (s.entropy.st ≠ 4 → t.units.looper.queue = r) ∧ t.units.looper.block = 0 ∧
        (c = 0 → s.booting = true → s.power.stopPoint = 2 → s.tamper.response = none → t.power.stopPoint = 3 ∧
          t.keys.kd = some (s.looperStep 0 s.units.looper.block s.units.looper.out)) ∧
        (c = 1 → t.life.sealed = true) ∧ (c = 2 → s.life.sealed = true → t.life.unsealed = true) ∧
        (c = 3 → t.units.looper.recordKey = some (s.looperStep 3 s.units.looper.block s.units.looper.out)) ∧
        (c = 4 → t.units.looper.nandKey = some (s.looperStep 4 s.units.looper.block s.units.looper.out)) ∧
        (∀ seq, c = 16 + seq → ∀ e ∈ t.log.nand, e.1.seq = seq → e.1.cocoon = true → e.2.isSome = true) ∧
        (c ≠ 0 → t.keys = s.keys)))

/-- The entropy block (R365 to R371, R384 to R389): released, it warms up, tests itself, and releases conditioned blocks, once their
test windows have closed, that cross into the seed pool of 64; with two blocks there it is ready, and every generator and partition
asks for its seed; a sample that reaches a cutoff, a health failure, a transport fault or 100 µs without a block leaves no block, no
draw and no instantiated generator, and raises ENTROPY_FAIL. Where the spec leaves a point open, it stands on the model's choices of
assumptions 31 and 113. -/
def Obligations.EntropyBlockLife : Prop :=
  (∀ s : State, (s.power.mainOk = true ∨ s.power.aux = true) → s.entropy.st = 0 →
    exec .entropyBlockRelease s = .next { s with entropy := { s.entropy with
      powered := true, st := 1, passed := 0, lfsr := 0, phase := 0, tests := [], formed := [], seqNo := 0, held := [] } }) ∧
  (∀ s : State, s.entropy.st = 1 → exec .warmupEnd s = .next { s with entropy := { s.entropy with st := 2 } }) ∧
  (∀ (raw : Bytes) (s : State), s.entropy.st = 2 ∨ s.entropy.st = 3 →
    ((s.entropy.sampled (fit 128 raw)).fails = [] → ∃ t l, exec (.conditionerBlockOut raw) s = .next t ∧
      t.entropy.passed = 0xFFF ∧ t.entropy.pool = s.entropy.pool ∧ t.entropy.lfsr = lfsrRun s.entropy.lfsr (fit 128 raw) ∧
      s.entropy.formed.map (·.1) ++ [leBytes 32 (lfsrRun s.entropy.lfsr (fit 128 raw))] = l ++ t.entropy.formed.map (·.1) ∧
      (s.units.looper.queue = [] ∨ s.units.looper.drawn = true →
        t.entropy.held = s.entropy.held ++ l ∧ t = { s with entropy := t.entropy }) ∧
      (∀ b r, s.looperPowered = true → s.units.looper.queue ≠ [] → s.units.looper.drawn = false → s.entropy.held ++ l = b :: r →
        t.entropy.held = r ∧ t.units.looper.drawn = true) ∧ t.keys = s.keys ∧ t.parts = s.parts) ∧
    ((s.entropy.sampled (fit 128 raw)).fails ≠ [] → ∃ t, exec (.conditionerBlockOut raw) s = .next t ∧ t.entropy.st = 4 ∧
      t.entropy.ready = false ∧ (t.entropy.cause = 1 ∨ t.entropy.cause = 2) ∧ t.entropy.pool = [] ∧ 153 ∈ t.tamper.flags)) ∧
  (∀ (b : Bytes) (r : List Bytes) (s : State), s.power.mainOk = true → s.entropy.held = b :: r →
    ∃ t, exec .entropyBlockArrival s = .next t ∧ t.entropy.held = r ∧ t.entropy.seqNo = s.entropy.seqNo + 1 ∧
      t.entropy.pool = (if s.entropy.pool.length < 64 then s.entropy.pool else s.entropy.pool.drop 1) ++ [b] ∧
      (s.entropy.pool.length ≤ 64 → t.entropy.pool.length ≤ 64) ∧ t = { s with entropy := t.entropy }) ∧
  (∀ s : State, s.entropy.st = 2 → s.entropy.passed = 0xFFF → 2 ≤ s.entropy.pool.length →
    ∃ t, exec .entropyReady s = .next t ∧ t.entropy.st = 3 ∧ t.entropy.ready = true ∧ t.entropy.pool = s.entropy.pool ∧
      (∀ g, g < 10 → ∃ d ∈ t.entropy.draws, d.2.1 = 200000 + g) ∧ (∀ l, l < 8 → ∃ d ∈ t.entropy.draws, d.2.1 = 100000 + l) ∧
      (∀ p, p < 256 → ∃ d ∈ t.entropy.draws, d.2.1 = 300000 + p) ∧
      (s.power.stopPoint = 1 → s.booting = true → t.power.stopPoint = 2) ∧
      (s.power.stopPoint ≠ 1 → t.power = s.power ∧ t.parts = s.parts ∧ t.keys = s.keys)) ∧
  (∀ (c : Instr) (cause groups : Nat) (s : State),
    (c = .entropyHealthFail cause groups ∧ (1 ≤ cause ∧ cause ≤ 2 ∧ (s.entropy.st = 2 ∨ s.entropy.st = 3) ∨
        3 ≤ cause ∧ cause ≤ 5 ∧ s.entropy.st = 2) ∨
      c = .entropyTransportFault ∧ cause = 6 ∧ groups = 0 ∧ (s.entropy.st = 2 ∨ s.entropy.st = 3) ∨
      c = .entropyBlockTimeout ∧ cause = 7 ∧ groups = 0 ∧ s.entropy.st = 3) →
    ∃ t, exec c s = .next t ∧ t.entropy.st = 4 ∧ t.entropy.ready = false ∧ t.entropy.cause = cause ∧
      t.entropy.groups = (if cause = 5 then 0 else groups % 4096) ∧
      t.entropy.pool = [] ∧ t.entropy.held = [] ∧ t.entropy.draws = [] ∧ 153 ∈ t.tamper.flags ∧
      (∀ p, (t.part p).drbg.ready = false) ∧ (∀ l, (t.lane l).gen.key = none) ∧ t.keys.recs = s.keys.recs)

/-- Draws and the countermeasure generators (R315, R372 to R375): the lowest class and the oldest draw takes its blocks from the
pool; a partition's draw seeds its instance, a lane's and an engine generator's keys it anew, and a descriptor's lets it go on; a
keyed generator due for its rekey asks for it once, and stops when it reaches its limit. Where the spec leaves a point open, it
stands on the model's choices of assumptions 31 and 105. -/
def Obligations.DrawsServed : Prop :=
  (∀ (cls who since : Nat) (s : State), nextDraw s.entropy.draws = some (cls, who, since) → s.entropy.ready = true →
    drawBlocks cls ≤ s.entropy.pool.length →
    ∃ t, exec .seedPoolDrawServed s = .next t ∧ t.entropy.pool = s.entropy.pool.drop (drawBlocks cls) ∧
      t.entropy.draws = s.entropy.draws.erase (cls, who, since) ∧ t.keys = s.keys ∧
      (∀ p, who = 300000 + p → (t.part p).drbg = (s.part p).drbg.seeded s.opUs (s.entropy.pool.take (drawBlocks cls)).flatten
          (leBytes 1 p ++ beBytes 4 s.power.boots ++ serial) [] ∧
        (∀ q, q ≠ p → t.part q = s.part q) ∧ t.adm = s.adm ∧ t.units = s.units ∧
        ((s.part p).drbg.ready = false → exec (.drbgInstantiate p) s = .next t ∧ (t.part p).drbg.ready = true ∧
          (t.part p).drbg.tokens = 0)) ∧
      (∀ g, who = 200000 + g → g < 10 →
        (tgetD t.entropy.gens g gen0).keyedUs = s.opUs ∧ (tgetD t.entropy.gens g gen0).stalled = false ∧
        (tgetD t.entropy.gens g gen0).key = some (s.entropy.pool.take (drawBlocks cls)).flatten ∧ t.parts = s.parts ∧ t.adm = s.adm) ∧
      (∀ l, who = 100000 + l → l < 8 →
        (t.lane l).gen.keyedUs = s.opUs ∧ (t.lane l).gen.stalled = false ∧
        (t.lane l).gen.key = some (s.entropy.pool.take (drawBlocks cls)).flatten ∧ t.parts = s.parts ∧ t.adm = s.adm) ∧
      (∀ x, who < 100000 → s.slot who = some x → t.slot who = some { x with draws := 2, stage := .bound })) ∧
  (∀ s : State, nextDraw s.entropy.draws = none → exec .seedPoolDrawServed s = .next s) ∧
  (∀ (l : Nat) (s : State), l < 8 →
    (s.entropy.ready = true → (s.lane l).gen.due s.opUs = true → (∀ d ∈ s.entropy.draws, d.2.1 ≠ 100000 + l) →
      ∃ t, exec (.laneGeneratorRekey l) s = .next t ∧ (t.lane l).gen = { (s.lane l).gen with asked := true } ∧
        t.entropy.draws = s.entropy.draws ++ [(3, 100000 + l, s.opUs)] ∧ t.keys = s.keys ∧ t.adm = s.adm) ∧
    ((s.lane l).gen.key.isSome = true → (s.lane l).gen.stalled = false → 2 ^ 20 ≤ (s.lane l).gen.blocks →
      exec (.laneGeneratorStall l) s = .next (s.modLane l (fun x => { x with
        gen := { x.gen with stalled := true, stalls := min 0xFFFFFFFF (x.gen.stalls + 1) } })))) ∧
  (∀ (g : Nat) (s : State), g < 10 →
    (s.entropy.ready = true → (tgetD s.entropy.gens g gen0).due s.opUs = true → (∀ d ∈ s.entropy.draws, d.2.1 ≠ 200000 + g) →
      ∃ t, exec (.engineGeneratorRekey g) s = .next t ∧
        tgetD t.entropy.gens g gen0 = { tgetD s.entropy.gens g gen0 with asked := true } ∧
        t.entropy.draws = s.entropy.draws ++ [(1, 200000 + g, s.opUs)] ∧ t.keys = s.keys ∧ t.adm = s.adm) ∧
    ((tgetD s.entropy.gens g gen0).key.isSome = true → (tgetD s.entropy.gens g gen0).stalled = false →
      2 ^ 20 ≤ (tgetD s.entropy.gens g gen0).blocks →
      ∃ t, exec (.engineGeneratorStall g) s = .next t ∧ (tgetD t.entropy.gens g gen0).stalled = true ∧
        (tgetD t.entropy.gens g gen0).stalls = min 0xFFFFFFFF ((tgetD s.entropy.gens g gen0).stalls + 1) ∧
        t = { s with entropy := { s.entropy with gens := t.entropy.gens } }))

/-- The random generators of the partitions (R295 to R297, R377 to R379, R382, R383): RANDOM_BYTES returns the bytes its instance
generates, inline or to DST, and counts them; it waits while its tokens are not there, asks for a reseed with PREDICTION_RESISTANCE,
and ends with NOT_ACTIVE while the instance is uninstantiated; DRBG_RESEED waits for its draw and then completes; an instance due
for a reseed asks for one; the staging buffer fills in 512 bytes. Where the spec leaves a point open, it stands on the model's
choice of assumption 31. -/
def Obligations.PartitionRandomness : Prop :=
  (∀ (n : Nat) (x : Slot) (s : State), tsorted s.adm.slots = true → s.due n 0xA01 = some x → HasRoom {} x s →
    ((s.part x.part).drbg.ready = false →
      ∃ t, exec (.randomBytes n) s = .next t ∧ Settles (.fail .notActive) n x s t ∧ t.parts = s.parts ∧ t.keys = s.keys) ∧
    (∀ b, (s.part x.part).drbg.serves = true → (bit (dP0 x.desc) 0 = false ∨ x.draws ≠ 0) →
      (x.random = true ∨ (s.tokenWaiters x.part = [] ∧ 1000 * dP1 x.desc ≤ (s.part x.part).drbg.tokens)) →
      b = ((s.part x.part).drbg.generate (dP1 x.desc) (if bit (dP0 x.desc) 0 = true then [] else addInput x.desc)).1 →
      ∃ t, exec (.randomBytes n) s = .next t ∧ Settles (if dDst x.desc = 0 then .inl b else .toDst b) n x s t ∧
        (t.part x.part).drbg.counter = (s.part x.part).drbg.counter + 1 ∧
        (t.part x.part).drbg.hostBytes = min (2 ^ 64 - 1) ((s.part x.part).drbg.hostBytes + dP1 x.desc) ∧
        (t.part x.part).drbg.staged = (s.part x.part).drbg.staged ∧
        (t.part x.part).drbg.tokens = (s.part x.part).drbg.tokens - (if x.random = true then 0 else 1000 * dP1 x.desc) ∧
        (∀ q, q ≠ x.part → t.part q = s.part q) ∧ t.keys = s.keys ∧ t.bus = s.bus) ∧
    ((s.part x.part).drbg.ready = true → x.random = true → bit (dP0 x.desc) 0 = true → x.draws = 0 →
      ∃ t, exec (.randomBytes n) s = .next t ∧ t.slot n = some { x with stage := .drawWait, draws := 1 } ∧
        t.entropy.draws = s.entropy.draws ++ [(4, n, s.opUs)] ∧ t.parts = s.parts ∧ t.keys = s.keys) ∧
    ((s.part x.part).drbg.ready = true → x.random = false →
      (s.tokenWaiters x.part ≠ [] ∨ (s.part x.part).drbg.tokens < 1000 * dP1 x.desc) →
      ∃ t, exec (.randomBytes n) s = .next t ∧ t.slot n = some { x with stage := .drawWait } ∧
        (t.part x.part).drbg.waiting = s.tokenWaiters x.part ++ [n] ∧ t.free = s.free ∧ t.keys = s.keys)) ∧
  (∀ (n : Nat) (x : Slot) (s : State), tsorted s.adm.slots = true → s.due n 0xA02 = some x → HasRoom {} x s →
    ((s.part x.part).drbg.ready = true → x.draws = 0 → ∃ t, exec (.drbgReseed n) s = .next t ∧
      t.slot n = some { x with stage := .drawWait, draws := 1 } ∧
      t.entropy.draws = s.entropy.draws ++ [(4, n, s.opUs)] ∧ t.parts = s.parts ∧ t.keys = s.keys) ∧
    ((s.part x.part).drbg.ready = true → x.draws ≠ 0 → ∃ t, exec (.drbgReseed n) s = .next t ∧ Settles {} n x s t ∧
      t.parts = s.parts ∧ t.keys = s.keys ∧ t.bus = s.bus) ∧
    ((s.part x.part).drbg.ready = false → ∃ t, exec (.drbgReseed n) s = .next t ∧ Settles (.fail .notActive) n x s t ∧
      t.parts = s.parts ∧ t.keys = s.keys)) ∧
  (∀ (c : Instr) (p : Nat) (s : State),
    (c = .drbgReseedInterval p ∧ (s.part p).drbg.lastUs + 1000000 ≤ s.opUs ∨ c = .drbgReseedCount p ∧ 2 ^ 20 ≤ (s.part p).drbg.counter) →
    (s.part p).drbg.ready = true → s.entropy.ready = true → (∀ d ∈ s.entropy.draws, d.2.1 ≠ 300000 + p) →
    ∃ t, exec c s = .next t ∧ t.entropy.draws = s.entropy.draws ++ [(4, 300000 + p, s.opUs)] ∧ t.parts = s.parts ∧ t.keys = s.keys ∧
      t.adm = s.adm) ∧
  (∀ (p : Nat) (s : State), (s.part p).drbg.serves = true → (s.part p).drbg.staged.length + 512 ≤ 2048 →
    ∃ t, exec (.drbgStagingRefill p) s = .next t ∧
      (t.part p).drbg.staged = (s.part p).drbg.staged ++ ((s.part p).drbg.generate 512 []).1 ∧
      (t.part p).drbg.counter = (s.part p).drbg.counter + 1 ∧ (t.part p).drbg.tokens = (s.part p).drbg.tokens ∧
      (∀ q, q ≠ p → t.part q = s.part q) ∧ t = { s with parts := t.parts }) ∧
  (∀ (n : Nat) (x : Slot) (s : State), s.slot n = some x → (s.tokenWaiters x.part).head? = some n →
    1000 * dP1 x.desc ≤ (s.part x.part).drbg.tokens →
    ∃ t, exec (.drbgTokenGrant n) s = .next t ∧ t.slot n = some { x with random := true, stage := .bound } ∧
      (t.part x.part).drbg.tokens = (s.part x.part).drbg.tokens - 1000 * dP1 x.desc ∧ n ∉ (t.part x.part).drbg.waiting ∧
      t.keys = s.keys ∧ t.bus = s.bus)

/-! ### Alarms and tamper -/

/-- What a flag's occurrence under a class leaves in the Cocoon (R418, R427, R430). -/
def Alarmed (s t : State) (f : Nat) (c : AlarmClass) : Prop :=
  f ∈ t.tamper.flags ∧ (∀ g, g ∈ s.tamper.flags → g ∈ t.tamper.flags) ∧
    tgetD t.tamper.counts f 0 = min 0xFFFFFFFF (tgetD s.tamper.counts f 0 + 1) ∧
    t.tamper.latch = (s.tamper.latch || decide (3 ≤ c.code)) ∧ 
    t.tamper.alarmOut = (s.tamper.alarmOut || (decide (1 ≤ c.code) && (decide (3 ≤ c.code) || !s.asleep))) ∧
    t.tamper.drs = (if 4 ≤ c.code then none else s.tamper.drs)

/-- Which flag a sensed occurrence raises, where its monitor counts it; a PRBS channel fails where both sensed bits differ from the
sequence it drives (R418, R420 to R426, R428, R432). -/
def senses (c : Instr) (s : State) (f : Nat) : Prop :=
  (∃ r, c = .mantleChannelAlarm f r ∧ f < 48 ∧ (prbsSample s f r).1 = true) ∨
  (∃ n r, c = .enclosureLoopAlarm n r ∧ n < 64 ∧ f = 48 + n ∧
    ((s.loopMode n = 2 ∧ (prbsSample s (48 + n) r).1 = true) ∨ (s.loopMode n = 1 ∧ s.loopPasses n r = false))) ∨
  (∃ n r, c = .caseSwitchAlarm n r ∧ n < 16 ∧ f = 112 + n ∧ s.switchMode n ≠ 0) ∨
  (∃ n r, c = .lightAlarm n r ∧ n < 12 ∧ f = 128 + n ∧ (n < 8 → s.power.mainOk = true)) ∨
  (∃ r, c = .railAlarm f r ∧ 140 ≤ f ∧ f ≤ 142 ∧ (f = 142 → s.armed = true)) ∨
  (∃ r, c = .tempAlarm f r ∧ (f = 143 ∨ f = 144)) ∨
  (∃ r, c = .clockFreq f r ∧ f = 145 ∧ s.powered = true) ∨
  (∃ r, c = .clockGlitch f r ∧ f = 146 ∧ s.powered = true) ∨
  (c = .xtalStop ∧ f = 147) ∨
  (∃ n r, c = .fsmCodewordInvalid n r ∧ n < 4 ∧ f = 149 + n ∧ (n = 2 → s.power.mainOk = true)) ∨
  (∃ r, c = .bridgeFault r ∧ f = 158 ∧ s.power.mainOk = true ∧ s.power.pfail = false)

/-- An alarm source (R418 to R420, R427, R430, R437): the flag and its count, and under the class its entry holds the alarm line,
the lock latch and the zeroing of the DRS; no stored key record changes. A PRBS channel whose sensed bits agree with its sequence
raises nothing, and that sequence goes on. Where the spec leaves a point open, it stands on the model's choices of assumptions 48
and 112. -/
def Obligations.AlarmsLatch : Prop :=
  (∀ (c : Instr) (f : Nat) (s : State), senses c s f →
    ∃ t, exec c s = .next t ∧ Alarmed s t f (s.flagClassNow f) ∧ t.keys.recs = s.keys.recs ∧ t.keys.lineage = s.keys.lineage ∧
      t.life.otp = s.life.otp ∧ t.od.store = s.od.store ∧ t.power = s.power ∧ t.free = s.free) ∧
  (∀ (f r : Nat) (s : State), f < 48 → (prbsSample s f r).1 = false →
    exec (.mantleChannelAlarm f r) s = .next { s with tamper := { s.tamper with prbs := (prbsSample s f r).2.tamper.prbs } })

/-- The main die's response to what the bridge brings (R130, R430 to R434, R438): on a module past its start, HALT stops every
ENABLED ring toward HALTED; LOCK also clears the key registers and the opened storage keys, and answers the tasks that waited for KD
with SERVICE_LOCKED; neither destroys a stored record or a seal. While start-up runs the response is only taken, and one no higher
than the one already taken changes nothing. Where the spec leaves a point open, it stands on the model's choice of assumption 119.
-/
def Obligations.MainDieResponds : Prop :=
  ∀ (f : Nat) (cls : AlarmClass) (r : List (Nat × AlarmClass)) (s : State), s.tamper.pendingMain = (f, cls) :: r →
    (s.power.mainOk = true →
      ((cls = .halt ∨ cls = .lock) ∧ s.tamper.response = none) ∨ (cls = .lock ∧ s.tamper.response = some .halt) →
      ∃ t, exec .mainDieResponse s = .next t ∧ t.tamper.pendingMain = r ∧ t.tamper.response = some cls ∧ t.life.dbgOpen = false ∧
        t.keys.recs = s.keys.recs ∧ (∀ p, (t.part p).key = (s.part p).key ∧ (t.part p).current = (s.part p).current) ∧
        t.commit.base = s.commit.base ∧
        (s.booting = true → t.service = s.service ∧ t.rings = s.rings ∧ t.keys = s.keys ∧ t.parts = s.parts) ∧
        (s.booting = false → s.service ≠ .bootStopped →
          (∀ k, (s.ring k).state = .enabled → (t.ring k).state = .stopping ∧ (t.ring k).settle = .halted) ∧
          (cls = .halt → s.service ≠ .locked → t.service = .halted) ∧
          (cls = .lock → t.service = .locked ∧ t.keys.cache = [] ∧ t.keys.kd = none ∧ t.keys.kdJobs = [] ∧
            (∀ p, (t.part p).psk = none ∧ (t.part p).recKey = none) ∧
            (∀ j ∈ s.keys.kdJobs, ∀ rq idx sub op, j.rq = some (rq, idx, sub, op) →
              (rq, replyBody idx sub op Status.serviceLocked.code rq.reqId []) ∈ t.bus.replies)))) ∧
    (s.power.mainOk = false ∨ cls.code < 2 ∨ (∃ a, s.tamper.response = some a ∧ cls.code ≤ a.code) →
      exec .mainDieResponse s = .next { s with tamper := { s.tamper with pendingMain := r } })

/-- The Sleeve and backup power (R429, R442, R472 to R474, R509): removal raises flag 148 under its class; with power an inserted
Sleeve is authenticated under a challenge drawn for it, by the key its certificate certifies, which closes the release window, and
one that fails is recorded; without power it waits for power. The window opens for a Security Officer and closes after its time; the
charge drawn is added to the counter and the days left follow; with no supply left the Cocoon's SRAM is gone. Unlock and the tamper
settings (R421, R424, R427, R437, R443, R444, R451, R490): a granted unlock that nothing bars clears every flag and the lock latch
and is counted, keeping the DRS and every key; a LOCKED module resets after it; a class its flag permits, a mode whose input passes
and a window that passes are committed. Where the spec leaves a point open, it stands on the model's choices of assumptions 49, 50
and 51. -/
def Obligations.SleeveAndUnlock : Prop :=
  ((∀ s : State, (s.life.sleeve = true → ∃ t, exec .sleeveRemoval s = .next t ∧ t.life.sleeve = false ∧ t.life.sleeveAuth = 0 ∧
      Alarmed s t 148 s.removalClass ∧ (s.asleep = false → 1031 ∈ t.eic.corePend) ∧ t.keys = s.keys ∧ t.parts = s.parts) ∧
    (s.life.sleeve = false → exec .sleeveRemoval s = .next s)) ∧
  (∀ (cert sigR sigS : Bytes) (drawn : Nat) (s : State), s.life.sleeve = false ∨ (s.life.sleeveDue = true ∧ s.powered = true) →
    (s.powered = true → (∀ e, Config.sleeveKey cert = some e →
        Ec.verifyEnc Ec.p256 e.1 (Sha.sha256 ((draw s 32).1 ++ Config.certSerial cert ++ serial)) (sigR ++ sigS) = true →
        ∃ t, exec (.sleeveInsertion cert sigR sigS drawn) s = .next t ∧ t.life.sleeve = true ∧ t.life.sleeveDue = false ∧ t.life.sleeveAuth = 1 ∧
          t.life.sleeveSer = Config.certSerial cert ∧ t.life.sleeveEnd = e.2 ∧ t.life.drawn = drawn % 2 ^ 32 ∧
          t.tamper = { s.tamper with release := false } ∧ t.free = s.free + 32 ∧ t.keys = s.keys ∧ t.parts = s.parts)) ∧
    (s.powered = true → (∀ e, Config.sleeveKey cert = some e →
        Ec.verifyEnc Ec.p256 e.1 (Sha.sha256 ((draw s 32).1 ++ Config.certSerial cert ++ serial)) (sigR ++ sigS) = false) →
      ∃ t, exec (.sleeveInsertion cert sigR sigS drawn) s = .next t ∧ t.life = { s.life with sleeve := true, sleeveDue := false, sleeveAuth := 2 } ∧
        t.tamper = s.tamper ∧ t.free = s.free + 32 ∧ t.keys = s.keys ∧ t.parts = s.parts) ∧
    (s.powered = false →
      ∃ t, exec (.sleeveInsertion cert sigR sigS drawn) s = .next t ∧ t.life = { s.life with sleeve := true, sleeveAuth := 0, sleeveDue := true } ∧
        t.tamper = s.tamper ∧ t.free = s.free ∧ t.keys = s.keys ∧ t.parts = s.parts)) ∧
  (∀ (rq : Req) (v : Nat) (s t : State), v ≤ 1 → Taken s rq 0x4400 1 0x20 t → t.holds rq 1 false = true →
    exec (.sleeveReleaseWrite rq v) s =
      .next (acceptNow { t with tamper := { t.tamper with release := t.tamper.release || v == 1 } } rq 0x4400 1 0x20 [])) ∧
  (∀ s : State, exec .sleeveReleaseTimeout s = .next { s with tamper := { s.tamper with release := false } }) ∧
  (∀ (mAh tenths : Nat) (s : State),
    (s.life.sleeve = true → s.powered = true → ∃ t, exec (.sleeveLifeAccounting mAh tenths) s = .next t ∧
      t.life.drawn = min (2 ^ 32 - 1) (s.life.drawn + (10 * mAh + tenths)) ∧ (s.opUs, 10 * mAh + tenths) ∈ t.life.draws ∧
      (s.life.sleeveAuth = 1 → t.life.daysLeft = t.sleeveDays) ∧ (s.life.sleeveAuth ≠ 1 → t.life.daysLeft = s.life.daysLeft) ∧
      (s.asleep = false → s.life.sleeveAuth = 1 → t.life.daysLeft ≤ 90 → 90 < s.life.daysLeft → 1032 ∈ t.eic.corePend) ∧
      t.keys = s.keys ∧ t.tamper = s.tamper) ∧
    (s.life.sleeve = false ∨ s.powered = false → exec (.sleeveLifeAccounting mAh tenths) s = .next s)) ∧
  (∀ s : State, (s.powered = false → s.life.sleeve = false → ∃ t, exec .holdupExhausted s = .next t ∧ t.tamper.drs = none ∧
      t.tamper.flags = [] ∧ t.tamper.latch = false ∧ t.log.cocoonBuf = [] ∧ t.seam.timeSet = false ∧ t.keys = s.keys ∧ t.life = s.life ∧
      t.log.nand = s.log.nand) ∧
    (s.powered = true ∨ s.life.sleeve = true → exec .holdupExhausted s = .next s))) ∧
  ((∀ (rq : Req) (ok : Bool) (grant : Bytes) (use : List Change) (s t : State),
    (Taken s rq 0x4000 5 (writeOp false grant) t → Granted t rq false 7 0 (leBytes 1 1) grant use → t.unlockBarred ok = false →
      ∃ u, exec (.unlock rq 1 ok grant) s = .next u ∧ u.tamper.flags = [] ∧ u.tamper.latch = false ∧ u.tamper.alarmOut = false ∧
        u.tamper.unlocks = min 0xFFFFFFFF (t.tamper.unlocks + 1) ∧ u.tamper.unlockAt = (t.service == .locked) ∧
        u.tamper.drs = t.tamper.drs ∧ u.keys = t.keys ∧ u.parts = t.parts ∧ u.service = t.service) ∧
    (Taken s rq 0x4000 5 (writeOp false grant) t → Granted t rq false 7 0 (leBytes 1 0) grant use →
      exec (.unlock rq 0 ok grant) s = .next (acceptUse t rq 0x4000 5 (writeOp false grant) [] use))) ∧
  (∀ s : State, s.tamper.unlockAt = true → s.power.pfail = false → (s.power.stopPoint ≠ 0 ∨ s.service ≠ .starting) →
    ∃ t, exec .unlockReset s = .next t ∧ t.power.waiting.isSome = true ∧ (s.power.waiting = none → t.power.waiting = some ⟨2, 0x0A, true, 0⟩) ∧
      t.tamper = { s.tamper with unlockAt := false } ∧ t.keys = s.keys ∧ t.service = s.service ∧ t.bus = s.bus) ∧
  (∀ (rq : Req) (f v : Nat) (grant : Bytes) (use : List Change) (s t : State), f ≤ 158 → classPermitted f v = true →
    Taken s rq (0x4100 + f) 1 (writeOp false grant) t → Granted t rq false 5 0 (leBytes 1 v) grant use →
    exec (.tamperClassWrite rq f v grant) s = .next (acceptCommit (tamperConfig t (0x4100 + f) 1 v) rq (0x4100 + f) 1 (writeOp false grant) []
      (Change.od (0x4100 + f) 1 (leBytes 1 v) :: use))) ∧
  (∀ (rq : Req) (switch passes : Bool) (n v i : Nat) (grant : Bytes) (use : List Change) (s t : State),
    n < (if switch = true then 16 else 64) → v ≤ 2 → i = (if switch = true then 0x4300 else 0x4200) + n → (v = 0 ∨ passes = true) →
    Taken s rq i 1 (writeOp false grant) t → Granted t rq false 5 0 (leBytes 1 v) grant use →
    exec (.loopModeWrite rq switch n v passes grant) s = .next (acceptCommit (tamperConfig t i 1 v) rq i 1
      (writeOp false grant) [] (Change.od i 1 (leBytes 1 v) :: use))) ∧
  (∀ (rq : Req) (n sub v : Nat) (passes : Bool) (grant : Bytes) (use : List Change) (s t : State), n < 64 →
    ((sub = 2 ∧ windowOk v (t.odNat (0x4200 + n) 3) = true) ∨ (sub = 3 ∧ windowOk (t.odNat (0x4200 + n) 2) v = true)) →
    (t.loopMode n = 0 ∨ passes = true) →
    Taken s rq (0x4200 + n) sub (writeOp false grant) t → Granted t rq false 5 0 (leBytes 4 v) grant use →
    exec (.loopWindowWrite rq n sub v passes grant) s = .next (acceptCommit (tamperConfig t (0x4200 + n) sub v) rq (0x4200 + n) sub
      (writeOp false grant) [] (Change.od (0x4200 + n) sub (leBytes 4 v) :: use))))

/-! ### Life cycle, identity and debug -/

/-- Life-cycle moves (R391, R456 to R460, R463, R464, R490): an accepted transition is held with what it consumes, its debug session
closed; in STOCK the Cocoon begins at once on the slot's INTENT word, the target's pattern words and the DONE word in that order,
and a microsecond of it only ever sets OTP bits; once done it owes a cold reset, but not on the way into STOCK. A commissioning
token of valid form, signed as R464 says, commits its members; the entropy tap opens under its grant. Where the spec leaves a point
open, it stands on the model's choices of assumptions 47 and 35. -/
def Obligations.LifeCycleMoves : Prop :=
  (∀ (rq : Req) (target : Nat) (grant : Bytes) (use : List Change) (s t : State), Taken s rq 0x8001 1 (writeOp false grant) t →
    Granted t rq false 6 0 (leBytes 1 target) grant use → t.grantedTransition target = true → target < 256 → t.transitionShut = false →
    ∃ u, exec (.targetWrite rq target grant) s = .next u ∧
      (∀ x, u.life.trans = some x → x = ⟨target, rq, 0x8001, 1, writeOp false grant, use⟩) ∧ u.life.trans.isSome = true ∧
      u.life.dbgOpen = false ∧ u.life.otp = t.life.otp ∧ u.life.latched = t.life.latched ∧ u.tamper = t.tamper ∧ u.keys = t.keys ∧
      (∀ k, t.life.latched = 0x33 → t.anyDisabling = false → t.freeSlot = some k →
        u.life.prog = t.transitionWork target k ∧ u.parts = t.parts)) ∧
  (∀ (s : State) (k b : Nat), (s.otp k).testBit b = true → ((progTick s).otp k).testBit b = true) ∧
  (∀ s : State, s.life.resetPend = true → s.power.mainOk = true → s.power.pfail = false →
    (lifeOf s.life.otp ≠ 0x33 → ∃ t w, exec .lcTransitionReset s = .next t ∧ t = { s with power := { s.power with waiting := some w } } ∧
      w.kind = 1 ∧ w.orderly = false ∧ (s.power.waiting = none → w.source = 0x09)) ∧
    (lifeOf s.life.otp = 0x33 → exec .lcTransitionReset s = .next s)) ∧
  (∀ (rq : Req) (b : Bytes) (s t : State), Taken s rq 0x8010 2 0x22 t → t.life.latched = 0x33 → (t.ahead.odGet 0x8010 2).isEmpty = true →
    (t.factory = true ∨ t.openWrite 0x8010 2 = true ∨ t.anyRole rq = true) →
    ∃ u, exec (.commissionTokenWrite rq b) s = .next u ∧ u.keys = t.keys ∧ u.parts = t.parts ∧
      (tokenForm b = true → t.tokenSigned b = true → u.commit.queue = t.commit.queue ++
        [⟨[], tokenChanges b, 0, some (rq, 0x8010, 2, 0x22, [])⟩] ∧ u.life = t.life) ∧
      (tokenForm b = false ∨ t.tokenSigned b = false → u.commit = t.commit ∧ u.free = t.free + 32 ∧
        u.life = { t.life with commChal := (draw t 32).1 })) ∧
  (∀ (rq : Req) (v : Nat) (grant : Bytes) (use : List Change) (s t : State), Taken s rq 0x5002 1 (writeOp false grant) t →
    Granted t rq false 9 0 (leBytes 4 v) grant use → (t.factory = true ∨ t.life.latched = 0x55) → v < 2 ^ 32 → bits v 4 1 ≤ 11 →
    ∃ u, exec (.tapCtlWrite rq v grant) s = .next u ∧ u.entropy.tap = bit v 0 ∧ u.entropy.tapGroup = bits v 4 1 ∧
      (bit v 0 = true → u.entropy.tapBits = 0) ∧ u.entropy.pool = t.entropy.pool ∧ u.entropy.ready = t.entropy.ready ∧
      u.keys = t.keys ∧ u.parts = t.parts)

/-- Identity, attestation and debug sessions (R466, R469 to R471, R475 to R478): the pair is generated once, in VENDOR, and waits
for ENTROPY_READY; chains that verify are installed for good; an attestation signs nonce, serial, state, measurements, counters and
flags under both halves of the identity; a certificate that verifies opens a session of its scope for its time, or begins a
transition it may ask for, one that does not does neither, and either way the challenge is drawn anew; a session ends when closed or
expired. Where the spec leaves a point open, it stands on the model's choices of assumptions 46, 56, 100 and 114. -/
def Obligations.IdentityAndDebug : Prop :=
  (∀ (rq : Req) (s t : State), Taken s rq 0x8030 5 0x20 t → t.holds rq 1 false = true → t.life.latched = 0x22 → t.life.identity = false →
    (t.entropy.ready = true → ∃ u, exec (.identityGenerate rq) s = .next u ∧ u.life = { t.life with identity := true, unsealed := true } ∧
      1 ∈ u.units.looper.queue ∧ u.bus.replies = t.bus.replies ++ [(rq, replyBody 0x8030 5 0x20 0 rq.reqId [])] ∧ u.keys = t.keys) ∧
    (t.entropy.ready = false → exec (.identityGenerate rq) s = .next s)) ∧
  (∀ (rq : Req) (b : Bytes) (s t : State), Taken s rq 0x8030 6 0x22 t → t.holds rq 1 false = true → t.life.certsSet = false →
    ∃ u, exec (.certInstall rq b) s = .next u ∧ u.keys = t.keys ∧ u.life.otp = t.life.otp ∧
      (t.life.latched = 0x22 → t.life.identity = true → (readChain b 0).1 ≠ [] → (readChain b (readChain b 0).2).1 ≠ [] →
        b.length = (readChain b (readChain b 0).2).2 → chainOk false (readChain b 0).1 = true →
        chainOk true (readChain b (readChain b 0).2).1 = true →
        u.life = { t.life with certsSet := true, certEc := slice b 0 (readChain b 0).2, certMl := b.drop (readChain b 0).2 }) ∧
      (t.life.latched ≠ 0x22 ∨ t.life.identity = false ∨ chainOk false (readChain b 0).1 = false → u.life = t.life)) ∧
  (∀ (rq : Req) (nonce body : Bytes) (s t : State), takeReq s rq 0x8030 3 0x20 = (t, true) → nonce.length = 32 →
    body = nonce ++ serial ++ leBytes 1 t.life.latched ++ t.meas.mr.flatten ++ leBytes 4 t.power.boots ++ t.tamper.flagBytes
      ++ leBytes 4 t.tamper.unlocks ++ leBytes 4 t.opSeconds →
    ∃ u, exec (.attestNonceWrite rq nonce) s = .next u ∧
      u.life = { t.life with attest := (body ++ Ec.sign Ec.p384 identityScalar (Ec.scalar Ec.p384 (slice (coreDrawNow t 88).1 0 56)) (Sha.sha384 body)
          ++ Lattice.dsaSign 3 identityMl.2 [] body (slice (coreDrawNow t 88).1 56 32)) } ∧ u.keys = t.keys ∧
      u.bus.replies = t.bus.replies ++ [(rq, replyBody 0x8030 3 0x20 0 rq.reqId [])]) ∧
  (∀ (rq : Req) (c : Bytes) (s t : State), Taken s rq 0x8020 2 0x22 t → c.length = authCertLen →
    (t.factory = true ∨ t.openWrite 0x8020 2 = true ∨ t.anyRole rq = true) →
    ∃ u, exec (.authCertWrite rq c) s = .next u ∧ u.free = t.free + 32 ∧ u.life.dbgValid = t.life.dbgValid ∧
      u.life.dbgChal = (draw t 32).1 ∧ u.keys.recs = t.keys.recs ∧ u.life.otp = t.life.otp ∧
      (t.authCertOk c = true → byteAt c 52 = 0xFF → scopePermitted t.life.latched (byteAt c 49) = true → 1 ≤ leAt c 50 2 → leAt c 50 2 ≤ 3600 →
        u.life = { t.life with
          dbgChal := u.life.dbgChal, dbgOpen := true, dbgLevel := if bit (byteAt c 49) 0 = true then 2 else 3,
          dbgScope := byteAt c 49, dbgEnd := t.opUs + 1000000 * leAt c 50 2, shut := t.life.shut || bit (byteAt c 49) 0 } ∧
        (bit (byteAt c 49) 0 = true → u.keys.cache = [] ∧ u.keys.kd = none) ∧ (bit (byteAt c 49) 0 = false → u.keys = t.keys)) ∧
      (t.authCertOk c = true → byteAt c 52 ≠ 0xFF → t.certifiedTransition (byteAt c 52) = true → t.transitionShut = false →
        u.life.trans = some ⟨byteAt c 52, rq, 0x8020, 2, 0x22, []⟩ ∧ u.life.dbgOpen = false ∧ u.keys = t.keys) ∧
      (t.authCertOk c = false → u.life = { t.life with dbgChal := u.life.dbgChal } ∧ u.keys = t.keys)) ∧
  (∀ s : State, (s.life.dbgEnd ≤ s.opUs → exec .debugSessionExpiry s = .next { s with life := { s.life with
      dbgOpen := false, dbgLevel := 0, dbgScope := 0, dbgEnd := 0 } }) ∧
    (s.opUs < s.life.dbgEnd → exec .debugSessionExpiry s = .next s)) ∧
  (∀ (rq : Req) (s t : State), Taken s rq 0x8020 4 0x20 t → t.holds rq 1 false = true →
    exec (.debugClose rq 1) s = .next (acceptNow { t with life := { t.life with
      dbgOpen := false, dbgLevel := 0, dbgScope := 0, dbgEnd := 0 } } rq 0x8020 4 0x20 []) ∧
    exec (.debugClose rq 0) s = .next (acceptNow t rq 0x8020 4 0x20 [])) ∧
  (∀ (rq : Req) (v : Nat) (grant : Bytes) (use : List Change) (s t : State), v ≤ 1 → Taken s rq 0x8020 5 (writeOp false grant) t →
    Granted t rq false 9 0 (leBytes 1 v) grant use → t.life.latched = 0x44 → ∃ u, exec (.observeOpen rq v grant) s = .next u ∧
      (v = 1 → u.life = { t.life with dbgOpen := true, dbgLevel := 1, dbgScope := 0, dbgEnd := t.opUs + 1000000 * t.odNat 0x3309 3 }) ∧
      (v = 0 → u.life = t.life) ∧ u.keys = t.keys ∧ u.parts = t.parts) ∧
  (∀ s : State, s.life.dbgValid = true →
    exec .debugChallengeRefresh s = .next { s with free := s.free + 32, life := { s.life with dbgChal := (draw s 32).1 } })

/-! ### Resets, start-up and power -/

/-- A start from reset: the rings, the descriptors, the key cache, KD and the waiting reset are gone, the boot is counted, the stream of
random bytes only goes on, and the queue of commands is kept. Kind and source are those of the reset, unless the boot ROM completed a
life-cycle transition, which makes a second, cold start (R460, R461, R491, R510). -/
def Restarted (s t : State) (kind source : Nat) : Prop :=
  t.power.mainOk = true ∧ t.power.power = .run ∧ t.power.stopPoint = 0 ∧ t.power.waiting = none ∧ t.service = .starting ∧ t.rings = [] ∧
    t.adm.slots = [] ∧ t.keys.cache = [] ∧ t.keys.kd = none ∧ t.resv = [] ∧ t.commit.cycles = [] ∧ t.commit.pages = [] ∧
    s.free ≤ t.free ∧ t.pending = s.pending ∧
    ((∀ k, k < 16 → (finishOtp s).slotCond k ≠ 2) →
      t.power.kind = kind ∧ t.power.source = source ∧ t.power.boots = s.power.boots + 1) ∧
    ((∃ k, k < 16 ∧ (finishOtp s).slotCond k = 2) →
      t.power.kind = 1 ∧ t.power.source = 0x09 ∧ t.power.boots = s.power.boots + 2)

/-- Main resets (R442, R483, R490 to R494, R510): each restarts the module and keeps the operating time; a warm one keeps telemetry
and the memory key, a cold one neither, and a warm one that cannot be warm is performed as cold; main power-good on a Cocoon that
lost its SRAM beyond STOCK raises BACKUP_LOST. Where the spec leaves a point open, it stands on the model's choices of assumptions
52 and 35. -/
def Obligations.MainResets : Prop :=
  ∀ s : State,
    (s.power.power = .off → (∀ ok, ok = true → s.tamper.sram = true →
        ∃ t, exec (.mainPowerGood ok) s = .next t ∧ Restarted s t 1 0x01 ∧ t.power.cycles = (s.power.cycles + 1) % 2 ^ 24 ∧ t.opUs = s.opUs) ∧
      (∀ ok, ok = false ∨ s.tamper.sram = false →
        ∃ t, exec (.mainPowerGood ok) s = .next t ∧ Restarted s t 4 0x0D ∧ t.tamper.drs = none ∧ t.tamper.sram = true ∧ t.seam.timeSet = false ∧
          (lifeOf s.life.otp = 0x44 ∨ lifeOf s.life.otp = 0x55 ∨ lifeOf s.life.otp = 0x66 → 157 ∈ t.tamper.flags ∧ t.tamper.latch = true))) ∧
    (s.power.power ≠ .off → ∀ ok, exec (.mainPowerGood ok) s = .next s) ∧
    (∀ src core, s.power.waiting = some ⟨1, src, false, core⟩ → s.power.mainOk = true → s.power.pfail = false →
      ∃ t, exec .coldMainReset s = .next t ∧ Restarted s t 1 src ∧ t.power.orderly = false ∧ t.power.dramValid = false ∧
        t.power.memKey = none ∧ t.opUs = s.opUs) ∧
    (∀ src core, s.power.waiting = some ⟨2, src, false, core⟩ → s.power.mainOk = true ∨ s.power.power = .standby → s.power.pfail = false →
      (s.warmAsCold = false → ∃ t, exec .warmMainReset s = .next t ∧ Restarted s t 2 src ∧ t.power.orderly = false ∧ t.tele = s.tele ∧
        t.power.dramValid = true ∧ t.power.memKey = s.power.memKey ∧ t.opUs = s.opUs) ∧
      (s.warmAsCold = true → ∃ t, exec .warmMainReset s = .next t ∧ Restarted s t 3 src ∧ t.power.orderly = false ∧
        t.power.dramValid = false ∧ t.power.memKey = none ∧ t.opUs = s.opUs)) ∧
    (∀ kind src core, s.power.waiting = some ⟨kind, src, true, core⟩ → s.quiesced = true → s.power.pfail = false →
      (kind = 1 → ∃ t, exec .orderlyResetEffect s = .next t ∧ Restarted s t 1 src ∧ t.power.memKey = none ∧ t.opUs = s.opUs) ∧
      (kind = 2 → s.warmAsCold = false → ∃ t, exec .orderlyResetEffect s = .next t ∧ Restarted s t 2 src ∧ t.tele = s.tele ∧
        t.power.memKey = s.power.memKey ∧ t.opUs = s.opUs) ∧
      (kind = 4 → ∃ t, exec .orderlyResetEffect s = .next t ∧ Restarted s t 4 src ∧ t.tamper.drs = none ∧
        (∀ f, f ∈ t.tamper.flags → f = 156) ∧ t.log.cocoonBuf.length ≤ 17))

/-- Start-up (R24, R143 to R145, R148, R157, R438, R501, R503, R504): stop point 1 extends the measurement registers in their order
and releases the lands, and with ENTROPY_READY goes on to stop point 2, which draws the memory key; with the key store loaded KD is
cleared, the extend port is closed and no ACTIVE partition lacks its storage key; stop point 5 is READY. Where the spec leaves a
point open, it stands on the model's choices of assumptions 54 and 55. -/
def Obligations.StartUpReachesReady : Prop :=
  ∀ s : State, s.booting = true → s.tamper.response = none →
    (s.power.mainOk = true → s.power.stopPoint = 0 → s.units.looper.nandKey.isSome = true → 2 ∉ s.units.looper.queue → s.meas.portOpen = true →
      ∃ t, exec .stopPoint1 s = .next t ∧
        t.meas.mr = s.startExtends.foldl (fun m e => m.set e.1 (extendMr (m.getD e.1 (zeros 48)) e.2)) s.meas.mr ∧
        t.power.released = 0x33 ∧ t.log.early = [] ∧ t.keys = s.keys ∧ t.parts = s.parts ∧ t.rings = s.rings ∧
        (s.entropy.ready = false → t.power.stopPoint = 1 ∧ t.service = .starting) ∧
        (s.entropy.ready = true → t.power.stopPoint = 2 ∧ t.power.memKey.isSome = true ∧ t.life.dbgValid = true)) ∧
    (∀ kd, s.power.stopPoint = 3 → s.keys.kd = some kd →
      ∃ t, exec .keyStoreLoaded s = .next t ∧ t.power.stopPoint = 4 ∧ t.keys.kd = none ∧ t.meas.portOpen = false ∧ t.power.dramValid = true ∧
        (∀ p, p < 256 → (t.part p).key = .active → (t.part p).psk.isSome = true) ∧ t.life.otp = s.life.otp) ∧
    (s.power.stopPoint = 4 → s.entropy.ready = true →
      ∃ t, exec .serviceReady s = .next t ∧ t.service = .ready ∧ t.power.stopPoint = 5 ∧
        t.pair.role = (if s.paired = true then (if s.seam.quarantine = 0 then 1 else 4) else 0) ∧ t.keys = s.keys ∧ t.parts = s.parts ∧
        t.rings = s.rings)

/-- What an orderly reset that is asked for leaves: it waits for its preamble, and where none waited it is the one asked for; no key, no
committed change and no reply is lost (R490, R493). -/
def Asked (s t : State) (kind source : Nat) : Prop :=
  t.power.waiting.isSome = true ∧ (s.power.waiting = none → t.power.waiting = some ⟨kind, source, true, 0⟩) ∧ t.keys = s.keys ∧
    t.tamper = s.tamper ∧ t.service = s.service ∧ t.commit.base = s.commit.base

/-- Power and reset commands (R93, R365, R443, R482, R484, R488, R490, R493, R495, R496, R497, R505, R511): a reset asked for by the
host, a Security Officer, a grant or over the Seam waits for its preamble; PFAIL stops admission, cancels a reset and closes the
open cycle, and its flush ends in OFF; auxiliary power restarts an entropy block that has not failed; STANDBY waits for its
preparation. Where the spec leaves a point open, it stands on the model's choice of assumption 58. -/
def Obligations.PowerCommands : Prop :=
  (∀ s : State, s.barOpen 0 = true → s.power.pfail = false →
    (∃ t, exec (.resetCold 0x5AC3) s = .next t ∧ Asked s t 1 0x03 ∧ t.bus = s.bus) ∧
    (s.power.stopPoint ≠ 0 ∨ s.service ≠ .starting → ∃ t, exec (.resetWarm 0x5AC3) s = .next t ∧ Asked s t 2 0x03 ∧ t.bus = s.bus) ∧
    (∀ k, k ≠ 0x5AC3 → exec (.resetCold k) s = .next s ∧ exec (.resetWarm k) s = .next s)) ∧
  (∀ (rq : Req) (kind : Nat) (s t : State), takeReq s rq 0xA001 1 0x20 = (t, true) → t.holds rq 1 false = true →
    t.power.pfail = false → (kind = 1 ∨ (kind = 2 ∧ (t.power.stopPoint ≠ 0 ∨ t.service ≠ .starting))) →
    ∃ u, exec (.resetRequest rq kind serial) s = .next u ∧ Asked t u kind 0x04 ∧
      u.bus.replies = t.bus.replies ++ [(rq, replyBody 0xA001 1 0x20 0 rq.reqId [])]) ∧
  (∀ (rq : Req) (v grant : Bytes) (s t : State), takeReq s rq 0xA001 1 0x21 = (t, true) →
    (rq.transport = 2 ∨ t.anyRole rq = true ∨ t.factory = true) → t.power.pfail = false →
    ∃ u, exec (.seamResetCommand rq v grant) s = .next u ∧ u.keys = t.keys ∧
      (∀ g, t.keys.grantKey.isSome = true → t.grantFor 10 0 v grant false = some g → g.digest = Sha.sha256 v → v = [1#8, 0#8, 0#8, 0#8] ++ serial →
        Asked t u 1 0x05 ∧ (∃ i ∈ u.commit.queue, i.changes = [Change.grantUse g.id g.own])) ∧
      (t.grantFor 10 0 v grant false = none → u.power = t.power)) ∧
  (∀ (rq : Req) (ok : Bool) (grant : Bytes) (use : List Change) (s t : State),
    (Taken s rq 0xA001 3 (writeOp false grant) t → Granted t rq false 11 0 (leBytes 1 1) grant use → t.unlockBarred ok = false →
      t.power.pfail = false → ∃ u, exec (.cocoonReset rq 1 ok grant) s = .next u ∧ Asked t u 4 0x0C) ∧
    (Taken s rq 0xA001 3 (writeOp false grant) t → Granted t rq false 11 0 (leBytes 1 0) grant use →
      exec (.cocoonReset rq 0 ok grant) s = .next (acceptUse t rq 0xA001 3 (writeOp false grant) [] use))) ∧
  (∀ s : State, s.power.pfail = false → s.power.mainOk = true ∨ s.power.power = .standby →
    ∃ t, exec .pfail s = .next t ∧ t.power = { s.power with
        pfail := true, flushed := false, pfails := min 0xFFFFFFFF (s.power.pfails + 1), waiting := none, standbyReq := none } ∧
      (s.power.power ≠ .standby → s.power.stopPoint < 4 ∨ (s.paired = true ∧ s.pair.role ≠ 3) ∨ (s.paired = false ∧ s.commit.queue = []) →
        (∀ n x e, s.slot n = some x → x.unit = some (.hawkmoth, e) → x.cut = none → ∃ y, t.slot n = some y ∧ y.cut = some .aborted) ∧
        t.keys = s.keys ∧ t.parts = s.parts ∧ t.commit = s.commit ∧ t.bus = s.bus) ∧
      (s.power.power ≠ .standby → 4 ≤ s.power.stopPoint → s.paired = true → s.pair.role = 3 → t.commit.cycle = s.commit.cycle + 1) ∧
      (s.power.power = .standby → t.keys = s.keys ∧ t.parts = s.parts ∧ t.commit = s.commit ∧ t.adm = s.adm ∧ t.bus = s.bus)) ∧
  (∀ (us : Nat) (s : State), s.power.pfail = true →
    ∃ t, exec (.pfailFlushEnd us) s = .next t ∧ t.power.power = .off ∧ t.power.mainOk = false ∧ t.power.pfail = false ∧ t.rings = [] ∧
      t.adm.slots = [] ∧ t.keys.cache = [] ∧ t.eic.wakeArmed = true ∧ t.life.otp = s.life.otp ∧ t.pending = s.pending ∧
      (s.power.power ≠ .standby → s.tamper.response ≠ some .erase → t.power.flushed = true ∧ t.power.flushUs = us % 2 ^ 32) ∧
      (s.power.power = .standby ∨ s.tamper.response = some .erase → t.power.flushed = s.power.flushed)) ∧
  (∀ s : State,
    (s.power.aux = false → s.power.power = .off → s.entropy.st ≠ 4 → exec .auxiliaryPowerReturn s = .next { s with
      power := { s.power with aux := true }, entropy := { entropy0 with powered := true, st := 1 } }) ∧
    (s.power.aux = false → s.power.power = .off → s.entropy.st = 4 → exec .auxiliaryPowerReturn s = .next { s with
      power := { s.power with aux := true }, entropy := { s.entropy with powered := true } }) ∧
    (s.power.aux = false → s.power.power ≠ .off → exec .auxiliaryPowerReturn s = .next { s with power := { s.power with aux := true } }) ∧
    (s.power.power = .off → s.entropy.st ≠ 4 → exec .auxiliaryPowerLoss s = .next { s with
      power := { s.power with aux := false }, entropy := entropy0, life := { s.life with prog := [] } }) ∧
    (s.power.power = .off → s.entropy.st = 4 → exec .auxiliaryPowerLoss s = .next { s with
      power := { s.power with aux := false }, entropy := { s.entropy with powered := false }, life := { s.life with prog := [] } }) ∧
    (s.power.power ≠ .off → exec .auxiliaryPowerLoss s = .next { s with power := { s.power with aux := false } })) ∧
  (∀ (rq : Req) (s t : State), Taken s rq 0xA000 2 0x20 t → t.holds rq 1 false = true → t.service ≠ .starting → t.life.trans = none →
    t.life.resetPend = false → t.power.standbyReq = none → t.power.waiting = none → 152 ∉ t.tamper.flags →
    ∃ u, exec (.powerRequest rq 2) s = .next u ∧ u.power = { t.power with standbyReq := some rq } ∧ u.keys = t.keys ∧
      u.commit.base = t.commit.base ∧ u.bus = t.bus)

/-! ### The Seam cluster -/

/-- A frame of this module waits at a port, or has left through it under the next LINK_SEQ (R520 to R522). -/
def Queued (t : State) (k : Nat) (f : Frame) : Prop :=
  f ∈ (t.port k).waiting ∨ ∃ g ∈ t.bus.frames, g.port = k ∧ { g with port := f.port, linkSeq := f.linkSeq, linkAck := f.linkAck } = f

/-- Seam links and frames (R514, R516 to R523, R533, R538): a link whose peer belongs is UP with its neighbour, a new key and full
credit; one that does not is refused; a lost link wraps; refused frames are sent again; a frame for another position goes on by its
route with one hop fewer, one without hops is dropped and counted; acknowledged frames leave the replay buffer; a keep-alive is a
LINK frame; what is not acknowledged end to end is sent again. Where the spec leaves a point open, it stands on the model's choices
of assumptions 62, 66, 67 and 68. -/
def Obligations.SeamLinks : Prop :=
  (∀ (port pos pair member : Nat) (cluster ser partner : Bytes) (s : State), port ≤ 4 → (s.port port).st ≠ 0 → (s.port port).st ≠ 3 →
    (port = 4 ∨ s.bypassClosed port = false) →
    (∀ n, (port < 4 → cluster = s.odGet 0x7000 1 ∧ s.peerSteps port pos = some n) →
      (port = 4 → s.isPartner pair member ser partner = true ∧ n = 1) →
      ∃ t, exec (.seamLinkUp port pos pair member cluster ser partner true true) s = .next t ∧
        (t.port port).st = 3 ∧ (t.port port).neighbour = pos ∧ (t.port port).bypassed = n - 1 ∧ (t.port port).wrapped = false ∧
        (t.port port).peer = fit 12 ser ∧
        (t.port port).key = some (kdfHmac (draw s 80).1 (ascii "NLM-SEAM") (serial ++ fit 12 ser) 256) ∧
        (s.clustered = false → (t.port port).credits = [(1, 8), (2, 16), (3, 256), (4, 256), (5, 256)]) ∧
        (∀ p, p ≠ port → t.port p = s.port p) ∧ t.free = s.free + 80 ∧ t.keys = s.keys ∧ t.od = s.od) ∧
    (∀ a b, (a && b) = false →
      exec (.seamLinkUp port pos pair member cluster ser partner a b) s = .next (s.modPort port (fun p => { p with st := 6 }))) ∧
    (port < 4 → cluster ≠ s.odGet 0x7000 1 → exec (.seamLinkUp port pos pair member cluster ser partner true true) s =
      .next (s.modPort port (fun p => { p with st := 5 }))) ∧
    ((port < 4 ∧ cluster = s.odGet 0x7000 1 ∧ s.peerSteps port pos = none) ∨ (port = 4 ∧ s.isPartner pair member ser partner = false) →
      exec (.seamLinkUp port pos pair member cluster ser partner true true) s = .next (s.modPort port (fun p => { p with st := 4 })))) ∧
  (∀ (port : Nat) (s : State), s.portUp port = true →
    (∃ t, exec (.seamLinkDown port) s = .next t ∧ t.port port = { port0 with st := 7, retrains := min 255 ((s.port port).retrains + 1) } ∧
      (∀ p, p ≠ port → t.port p = s.port p) ∧ t.keys = s.keys ∧ t.commit = s.commit ∧ t.bus = s.bus) ∧
    (∀ q, (s.port port).fails < 8 → ∃ t, exec (.seamFrameRefused port q) s = .next t ∧
      t.bus.frames = s.bus.frames ++ (s.port port).replay.filter (fun f => decide (q ≤ f.linkSeq)) ∧
      t.port port = { s.port port with fails := (s.port port).fails + 1 } ∧ t.keys = s.keys) ∧
    (∀ q, 8 ≤ (s.port port).fails → ∃ t, exec (.seamFrameRefused port q) s = .next t ∧ (t.port port).st = 7 ∧ t.bus = s.bus) ∧
    (∀ (dest src cls seq stamp : Nat) (b : Bytes), port < 4 → cls < 6 →
      exec (.seamFrameRelay port dest src cls 1 seq stamp b) s =
        .next { received s port with seam := { (received s port).seam with unreachable := min 0xFFFF (s.seam.unreachable + 1) } }) ∧
    (∀ (dest src cls hops seq stamp k : Nat) (b : Bytes), port < 4 → cls < 6 → 2 ≤ hops → dest < 0x8000 → dest ≠ s.position →
      s.routePort dest = some k → ∃ t st, exec (.seamFrameRelay port dest src cls hops seq stamp b) s = .next t ∧
        Queued t k ⟨0, dest, src, cls, hops - 1, 0, 0, seq, st, b⟩ ∧ (cls ≠ 1 → st = stamp) ∧ t.od = s.od ∧ t.keys = s.keys ∧ t.adm = s.adm) ∧
    (∃ t f, exec (.keepAliveSend port) s = .next t ∧ f.cls = 0 ∧ f.dest = (s.port port).neighbour ∧ f.payload = [] ∧ Queued t port f ∧
      t.keys = s.keys ∧ t.od = s.od) ∧
    (∃ t, exec (.seamLinkRekey port) s = .next t ∧
      t.port port = { s.port port with
        key := some (kdfHmac (draw s 80).1 (ascii "NLM-SEAM") (serial ++ fit 12 (s.port port).peer) 256), frames := 0 } ∧
      t.free = s.free + 80 ∧ t.keys = s.keys) ∧
    (∀ ack credits wrap, ∃ t, exec (.seamLinkFrameReceive port ack credits wrap) s = .next t ∧
      (∀ f, f ∈ (s.port port).replay → ack < f.linkSeq → f ∈ (t.port port).replay) ∧
      ((s.port port).waiting = [] → (t.port port).replay = (s.port port).replay.filter (fun f => decide (ack < f.linkSeq)) ∧ t.bus = s.bus) ∧
      (t.port port).linkAck = ((s.port port).linkAck + 1 + (if wrap = true then 1 else 0)) % 2 ^ 32 ∧ t.keys = s.keys) ∧
    (∀ d, exec (.linkDelayMeasure port d) s = .next (s.modPort port (fun p => { p with delay := d })))) ∧
  (∀ (port : Nat) (s : State), ∃ t, exec (.seamResendTimeout port) s = .next t ∧
    (∀ f k, f ∈ s.seam.unacked → f.port = port → s.routePort f.dest = some k → Queued t k f) ∧
    t.seam.unacked = s.seam.unacked ∧ t.keys = s.keys ∧ t.od = s.od)

/-- Cluster time and the acting master (R526, R532 to R535): the master broadcasts its time; an offset up to 50 ms is slewed and a
larger one stepped; time unheard drifts, and beyond 50 ms is unsynchronised until it has stayed in band for 10 s; a granted write
sets the master's time, and goes to the master from any other; an unheard master is passed over. Where the spec leaves a point open,
it stands on the model's choice of assumption 70. -/
def Obligations.ClusterTime : Prop :=
  (∀ s : State, s.clustered = true → s.isMaster = true → s.power.stopPoint ≠ 0 →
    ∃ t f, exec .syncBroadcast s = .next t ∧ f.cls = 1 ∧ f.dest = 0x8000 ∧ f.stamp = s.timeUs ∧
      f.payload = [byteOf (b2n s.seam.unsynced)] ∧ (∀ k, k ∈ s.upPorts → Queued t k f) ∧ t.timeUs = s.timeUs ∧ t.keys = s.keys) ∧
  (∀ (src v : Nat) (un : Bool) (s : State), s.clustered = true → src ≠ s.position → s.power.stopPoint ≠ 0 → v < 2 ^ 64 →
    ({ s with seam := { s.seam with masterGone := sdel src s.seam.masterGone } } : State).actingMaster = src →
    (((v : Int) - (s.timeUs : Int)).natAbs ≤ 50000 → ∃ t, exec (.syncReceive src v un) s = .next t ∧ t.timeUs = s.timeUs ∧
      t.seam.slew = (v : Int) - (s.timeUs : Int) ∧ t.seam.offset = (v : Int) - (s.timeUs : Int) ∧ t.seam.lastSync = s.opUs ∧
      t.seam.unsynced = (s.seam.unsynced || un) ∧ t.keys = s.keys ∧ t.od = s.od) ∧
    (50000 < ((v : Int) - (s.timeUs : Int)).natAbs → ∃ t, exec (.syncReceive src v un) s = .next t ∧ t.timeUs = v ∧ t.seam.slew = 0 ∧
      t.seam.unsynced = true ∧ t.keys = s.keys ∧ t.od = s.od)) ∧
  (∀ (t0 : Nat) (s : State), s.seam.inBand = some t0 → s.seam.unsynced = true →
    (t0 + 10000000 ≤ s.opUs → ∃ t, exec .timeSyncClear s = .next t ∧ t.seam.unsynced = false ∧ t.seam.timeSet = true ∧
      (s.asleep = false → 1036 ∈ t.eic.corePend) ∧ t.timeUs = s.timeUs ∧ t.keys = s.keys) ∧
    (s.opUs < t0 + 10000000 → exec .timeSyncClear s = .next s)) ∧
  (∀ (b : Nat) (s : State), s.clustered = true → s.isMaster = false → s.power.stopPoint ≠ 0 →
    b = s.seam.offset.natAbs + 20 * (s.opUs - s.seam.lastSync) / 1000000 →
    (b ≤ 50000 → exec .driftBoundExceeded s = .next { s with seam := { s.seam with bound := b } }) ∧
    (50000 < b → ∃ t, exec .driftBoundExceeded s = .next t ∧ t.seam.bound = b ∧ t.seam.unsynced = true ∧ t.seam.inBand = none ∧
      t.timeUs = s.timeUs) ∧
    (∃ t, exec .masterElection s = .next t ∧ s.actingMaster ∈ t.seam.masterGone ∧ t.timeUs = s.timeUs ∧ t.od = s.od ∧ t.keys = s.keys)) ∧
  (∀ (rq : Req) (v : Nat) (grant : Bytes) (use : List Change) (s t : State), Taken s rq 0x7001 1 (writeOp false grant) t →
    Granted t rq true 10 0 (leBytes 8 v) grant use → v < 2 ^ 64 → ∃ u, exec (.clusterTimeWrite rq v grant) s = .next u ∧
      (t.isMaster = true → u.timeUs = v ∧ u.seam.timeSet = true ∧ u.seam.unsynced = false ∧ u.seam.slew = 0) ∧
      (t.isMaster = false → u.timeUs = t.timeUs ∧ u.seam.unsynced = t.seam.unsynced) ∧ u.opUs = t.opUs ∧ u.keys = t.keys)

/-- The configuration (R195 to R197, R524 to R530): the acting master commits a granted policy, member or MASTERS write under the
next epoch, and any other module keeps its writer waiting for the broadcast; a change that follows this module's epoch is applied,
one further ahead starts a pull in quarantine, one that differs under the same epoch is a conflict; a pull that matches its digest
takes over what it brought; the decision for this module's own digest ends its conflict. Where the spec leaves a point open, it
stands on the model's choices of assumptions 63, 64 and 65. -/
def Obligations.ClusterConfiguration : Prop :=
  (∀ (rq : Req) (cls sub v : Nat) (grant : Bytes) (use : List Change) (s t : State), Taken s rq (0x3300 + cls) sub (writeOp false grant) t →
    Granted t rq false 5 0 (numBytes (0x3300 + cls) sub v) grant use → t.seam.quarantine = 0 → 1 ≤ cls → cls ≤ 12 →
    1 ≤ sub → sub ≤ 4 → numCheck (0x3300 + cls) sub v = none →
    (t.odSet (0x3300 + cls) sub (numBytes (0x3300 + cls) sub v)).classM cls ≠ 0 →
    (t.odSet (0x3300 + cls) sub (numBytes (0x3300 + cls) sub v)).classM cls ≤
      (t.odSet (0x3300 + cls) sub (numBytes (0x3300 + cls) sub v)).holders
        ((t.odSet (0x3300 + cls) sub (numBytes (0x3300 + cls) sub v)).classRoles cls) →
    ∃ u, exec (.policyWrite rq cls sub v grant) s = .next u ∧ u.keys = t.keys ∧ u.tamper = t.tamper ∧
      (t.isMaster = true → u.odGet (0x3300 + cls) sub = numBytes (0x3300 + cls) sub v ∧ u.epoch = (t.epoch + 1) % 2 ^ 64) ∧
      (t.isMaster = false → u.od.store = t.od.store ∧
        (rq, 0x3300 + cls, sub, writeOp false grant, numBytes (0x3300 + cls) sub v) ∈ u.od.cfgWait)) ∧
  (∀ (rq : Req) (m sub : Nat) (e : Entry) (v grant : Bytes) (use : List Change) (s t : State), Taken s rq (0x3500 + m) sub (writeOp false grant) t →
    Granted t rq false 5 0 v grant use → t.seam.quarantine = 0 → m < 64 → 1 ≤ sub → sub ≤ 4 → odEntry (0x3500 + m) sub = some e →
    v.length = e.size → (sub = 1 → leNat v < 16) → (t.odSet (0x3500 + m) sub v).satisfiable = true →
    ∃ u, exec (.memberWrite rq m sub v grant) s = .next u ∧ u.keys = t.keys ∧ u.tamper = t.tamper ∧
      (t.isMaster = true → u.odGet (0x3500 + m) sub = v ∧ u.epoch = (t.epoch + 1) % 2 ^ 64) ∧
      (t.isMaster = false → u.od.store = t.od.store ∧ (rq, 0x3500 + m, sub, writeOp false grant, v) ∈ u.od.cfgWait)) ∧
  (∀ (rq : Req) (v grant : Bytes) (use : List Change) (s t : State), Taken s rq 0x7000 5 (writeOp false grant) t →
    Granted t rq false 10 0 v grant use → t.seam.quarantine = 0 → v.length = 8 →
    ∃ u, exec (.configWrite rq 0x7000 5 v grant) s = .next u ∧ u.keys = t.keys ∧ u.tamper = t.tamper ∧
      (t.isMaster = true → u.odGet 0x7000 5 = v ∧ u.epoch = (t.epoch + 1) % 2 ^ 64) ∧
      (t.isMaster = false → u.od.store = t.od.store ∧ (rq, 0x7000, 5, writeOp false grant, v) ∈ u.od.cfgWait)) ∧
  (∀ (port i k : Nat) (v : Bytes) (c : CfgChange) (s : State), port < 4 → s.portUp port = true → s.clustered = true →
    (c.entry = some (i, k, v) → isConfig i k = true → entryTrusted (i, k, v) = true → c.epoch = s.epoch + 1 → c.epoch < 2 ^ 64 →
      s.seam.pulling = none → s.seam.conflict = false → ∃ t, exec (.configChangeReceive port c) s = .next t ∧ t.odGet i k = v ∧
        t.epoch = c.epoch ∧ t.keys.recs = s.keys.recs ∧ t.life = s.life) ∧
    (c.entry = none → c.epoch = s.epoch + 1 → c.epoch < 2 ^ 64 → s.seam.pulling = none → s.seam.conflict = false →
      ∃ t, exec (.configChangeReceive port c) s = .next t ∧ t.epoch = c.epoch ∧ t.keys.recs = s.keys.recs ∧ t.life = s.life) ∧
    (s.epoch + 1 < c.epoch → ∃ t, exec (.configChangeReceive port c) s = .next t ∧ t.seam.pulling = some port ∧ t.seam.quarantine = 1 ∧
      t.epoch = s.epoch ∧ t.keys.recs = s.keys.recs) ∧
    (c.epoch = s.epoch → c.epoch ≠ 0 → c.digest ≠ s.digest → s.seam.pulling = none → ∃ t, exec (.configChangeReceive port c) s = .next t ∧
      t.seam.conflict = true ∧ t.seam.quarantine = 2 ∧ t.od = s.od ∧ t.keys.recs = s.keys.recs) ∧
    (s.seam.quarantine = 1 → ∃ t, exec (.configPull port) s = .next t ∧ t.seam.pulling = some port ∧ t.od = s.od ∧ t.keys = s.keys)) ∧
  (∀ (e : Nat) (d : Bytes) (l : List (Nat × Nat × Bytes)) (s : State),
    (s.seam.pulling = none → exec (.configPullDone e d l) s = .next s) ∧
    (e < s.epoch → exec (.configPullDone e d l) s = .next s) ∧
    (s.seam.pulling.isSome = true → s.epoch ≤ e → e < 2 ^ 64 → (takeConfig s e l).digest = d → ∃ t, exec (.configPullDone e d l) s = .next t ∧
      t.epoch = e ∧ t.seam.pulling = none ∧ t.seam.conflict = false ∧ (t.seam.quarantine = 0 ∨ t.seam.quarantine = 3) ∧
      t.keys.recs = s.keys.recs ∧ t.life = s.life)) ∧
  (∀ (rq : Req) (v grant : Bytes) (use : List Change) (s t : State), Taken s rq 0x7000 0x0A (writeOp false grant) t →
    Granted t rq false 10 0 v grant use → v.length = 48 → t.seam.quarantine = 2 →
    ∃ u, exec (.decisionWrite rq v grant) s = .next u ∧ u.keys.recs = t.keys.recs ∧
      (v = t.digest → u.epoch = (t.epoch + 1) % 2 ^ 64 ∧ u.seam.conflict = false ∧ u.seam.quarantine ≠ 2) ∧
      (v ≠ t.digest → u.epoch = t.epoch ∧ u.seam.quarantine = 2 ∧ u.od.store = t.od.store))

/-! ### Pairs -/

/-- Heartbeats, the referee and the token (R549 to R552, R555): a member numbers and keeps the heartbeat it sends, and keeps its
partner's; a referee counts one of another pair and answers with its token; a token record whose MAC verifies and that names this
member gives it the token, one that names the other takes it away and with it the collar, as the loss of the token or of the session
does; one that does not verify changes nothing. Where the spec leaves a point open, it stands on the model's choices of assumptions
61 and 72. -/
def Obligations.HeartbeatsAndToken : Prop :=
  (∀ (k : Bytes) (s : State), s.pair.arbKey = some k → s.paired = true → ∃ t,
    exec .heartbeatSend s = .next t ∧
      t.pair = { s.pair with hbSeq := s.pair.hbSeq + 1, hbLast := heartbeatRecord s k (s.pair.hbSeq + 1) } ∧
      t.keys = s.keys ∧ t.commit = s.commit ∧ t.rings = s.rings) ∧
  (∀ (h : Heartbeat) (s : State), h.macOk = true → h.member ≤ 1 → h.pairId ≠ 0 → s.power.stopPoint ≠ 0 →
    (h.pairId = s.pairId → h.member ≠ s.member → ∃ t, exec (.heartbeatReceive h) s = .next t ∧ t.pair.partner = some h ∧
      t.pair.role = s.pair.role ∧ t.pair.tokenHeld = s.pair.tokenHeld ∧ t.keys = s.keys ∧ t.bus = s.bus) ∧
    (h.pairId ≠ s.pairId → (∀ o, ((s.referee h.pairId).watch h.member).hb = some o → o.seq < h.seq) → ∃ t,
      exec (.heartbeatReceive h) s = .next t ∧
      ((t.referee h.pairId).watch h.member).hb = some h ∧ ((t.referee h.pairId).watch h.member).alive = true ∧
      (∃ b, t.bus.records = s.bus.records ++ [(h.pairId, b)]) ∧ t.pair.role = s.pair.role ∧ t.keys = s.keys)) ∧
  (∀ (h : Heartbeat) (s : State), h.macOk = false → exec (.heartbeatReceive h) s = .next s) ∧
  (∀ (pair : Nat) (r : Referee) (m : Nat) (s : State), tget s.pair.refs pair = some r → m ≤ 1 → ∃ t,
    exec (.arbiterHeartbeatTimeout pair m) s = .next t ∧ ((t.referee pair).watch m).alive = false ∧
    ((t.referee pair).watch (1 - m)) = r.watch (1 - m) ∧ (∃ b, t.bus.records = s.bus.records ++ [(pair, b)]) ∧ t.keys = s.keys) ∧
  (∀ (record key : Bytes) (k : Token) (s : State), s.pair.arbKey = some key → record.length = 48 → k = tokenOf key record →
    s.paired = true → k.macOk = true → k.pairId = s.pairId → s.pair.tokenSeq < k.seq → 1 ≤ s.power.stopPoint →
    (k.active = s.member → ∃ t, exec (.tokenRecordReceive record) s = .next t ∧ t.pair.tokenHeld = true ∧ t.pair.tokenSeq = k.seq ∧
      t.pair.tokenEpoch = max s.pair.tokenEpoch k.epoch ∧ t.pair.role = s.pair.role ∧ t.keys = s.keys ∧ t.rings = s.rings) ∧
    (k.active ≠ s.member → s.pair.tokenHeld = true → ∃ t, exec (.tokenRecordReceive record) s = .next t ∧ t.pair.tokenHeld = false ∧
      t.pair.tokenSeq = k.seq ∧ t.pair.role ≠ 2 ∧ t.pair.role ≠ 3 ∧ t.keys.recs = s.keys.recs ∧ t.commit.base = s.commit.base)) ∧
  (∀ (record key : Bytes) (s : State), s.pair.arbKey = some key →
    record.length ≠ 48 ∨ (tokenOf key record).macOk = false ∨ (tokenOf key record).seq ≤ s.pair.tokenSeq →
    exec (.tokenRecordReceive record) s = .next s) ∧
  (∀ s : State,
    (s.pair.tokenHeld = true → ∃ t, exec .tokenLoss s = .next t ∧ t.pair.tokenHeld = false ∧ t.pair.role ≠ 2 ∧ t.pair.role ≠ 3 ∧
      (s.asleep = false → 1033 ∈ t.eic.corePend) ∧ t.keys.recs = s.keys.recs ∧ t.commit.base = s.commit.base) ∧
    (s.pair.tokenHeld = false → exec .tokenLoss s = .next s) ∧
    (s.pair.arbKey.isSome = true → ∃ t, exec .arbSessionTimeout s = .next t ∧ t.pair.arbKey = none ∧ t.pair.tokenHeld = false ∧
      (s.pair.tokenHeld = true → t.pair.role ≠ 2 ∧ t.pair.role ≠ 3) ∧ s.free + 32 ≤ t.free ∧ t.keys.recs = s.keys.recs)) ∧
  (∀ (point sig : Bytes) (ok : Bool) (s : State), s.power.stopPoint ≠ 0 → s.paired = true → (Ec.decode Ec.p256 point).isSome = true →
    (s.arbSigned sig ok = true → ∃ t, exec (.arbOpen point sig ok) s = .next t ∧
      t.pair.arbKey = some (kdfHmac (draw s 32).1 (ascii "NLM-ARB") [] 256) ∧ t.free = s.free + 64 ∧ t.pair.role = s.pair.role ∧
      t.keys = s.keys ∧ t.bus = s.bus) ∧
    (s.arbSigned sig ok = false → exec (.arbOpen point sig ok) s = .next s))

/-- The collar (R553 to R558, R560): only a standby with the token that is eligible claims it, with no other member's line asserted;
admission opens when the claim window ends, and after another member's time it continues from the history; a line asserted against a
holder ends in RACE with every ring left as it stands; a granted switchover begins with the partner eligible. Where the spec leaves
a point open, it stands on the model's choices of assumptions 61 and 74. -/
def Obligations.CollarMoves : Prop :=
  (∀ s : State,
    (s.pair.role = 1 → s.pair.tokenHeld = true → s.eligible = true → s.collarClear = true → s.pair.race = false → s.power.waiting = none →
      s.power.pfail = false → exec .collarClaim s = .next { s with pair := { s.pair with collarTx := true, role := 2, handover := false } }) ∧
    (s.pair.role ≠ 1 ∨ s.pair.tokenHeld = false ∨ s.eligible = false ∨ s.collarClear = false → exec .collarClaim s = .next s)) ∧
  (∀ s : State, s.pair.role = 2 → s.collarClear = true →
    (s.pair.foreign = false → ∃ t, exec .claimWindowEnd s = .next t ∧ t.pair = { s.pair with role := 3 } ∧
      (s.asleep = false → 1033 ∈ t.eic.corePend) ∧ t.commit = s.commit ∧ t.rings = s.rings ∧ t.keys = s.keys) ∧
    (s.pair.foreign = true → ∃ t, exec .claimWindowEnd s = .next t ∧ t.pair.role = 3 ∧ t.pair.foreign = false ∧
      t.pair.takeover = [s.pair.tokenEpoch, s.commit.applied, s.commit.seq + 1] ∧ t.commit.cycle = s.commit.applied ∧
      t.commit.cycles = [] ∧ t.resv = [] ∧ t.atcResv = [] ∧ t.rings = s.rings ∧ t.keys = s.keys)) ∧
  (∀ s : State, s.pair.collarRx = false →
    (s.pair.role = 2 ∨ s.pair.role = 3 → ∃ t, exec .collarRxAssert s = .next t ∧ t.pair.collarRx = true ∧ t.pair.race = true ∧
      t.pair.collarTx = false ∧ t.pair.role ≠ 2 ∧ t.pair.role ≠ 3 ∧ (∀ k, (t.ring k).state = (s.ring k).state) ∧ t.keys.recs = s.keys.recs ∧
      t.commit.base = s.commit.base) ∧
    (s.pair.role ≠ 2 → s.pair.role ≠ 3 → exec .collarRxAssert s = .next { s with pair := { s.pair with collarRx := true } })) ∧
  (∀ s : State, s.pair.collarRx = true →
    exec .collarRxDeassert s = .next { s with pair := { s.pair with collarRx := false, rxFree := s.opUs } }) ∧
  (∀ (rq : Req) (grant : Bytes) (use : List Change) (s t : State),
    (Taken s rq 0x7100 6 (writeOp false grant) t → Granted t rq false 10 0 (leBytes 1 1) grant use → t.pair.role = 3 →
      t.partnerEligible = true → t.pair.switching = none → ∃ u, exec (.switchover rq 1 grant) s = .next u ∧
        u.pair = { t.pair with switching := some rq } ∧ u.rings = t.rings ∧ u.keys = t.keys ∧ u.commit.base = t.commit.base) ∧
    (Taken s rq 0x7100 6 (writeOp false grant) t → Granted t rq false 10 0 (leBytes 1 0) grant use →
      exec (.switchover rq 0 grant) s = .next (acceptUse t rq 0x7100 6 (writeOp false grant) [] use)))

/-- Commit cycles on the standby (R543 to R548, R557, R561): the next cycle under the epoch seen is applied and acknowledged, any
other is refused and leaves a gap; the active's late cycle asks for SOLO; a standby that is not eligible asks for what it misses,
and takes a full copy; a vault follows its partition's cycles in order. Where the spec leaves a point open, it stands on the model's
choices of assumptions 61, 75 and 76. -/
def Obligations.StandbyCycles : Prop :=
  (∀ (c : CycleMsg) (s : State), s.paired = true → s.portUp 4 = true → s.pair.role ≠ 3 → s.service ≠ .starting → s.seam.quarantine = 0 →
    (c.tagOk = true → s.commit.cycles = [] → c.pairId = s.pairId → c.cycle = s.commit.applied + 1 → c.epoch = s.pair.tokenEpoch →
      ∃ t, exec (.commitCycleReceive c) s = .next t ∧ t.commit.applied = c.cycle ∧ t.commit.cycle = c.cycle ∧
        t.bus.acks = s.bus.acks ++ [(c.cycle, true)] ∧ t.rings = s.rings ∧ t.tamper = s.tamper ∧
        (c.changes = [] → t.pair.foreign = true ∧ t.keys = s.keys ∧ t.parts = s.parts)) ∧
    (c.cycle ≠ s.commit.applied + 1 → ∃ t, exec (.commitCycleReceive c) s = .next t ∧ t.pair.gap = true ∧ t.commit = s.commit ∧
      t.bus.acks = s.bus.acks ++ [(c.cycle, false)] ∧ t.keys = s.keys ∧ t.parts = s.parts)) ∧
  (∀ (c : Closed) (s : State), s.commit.cycles.find? (fun x => !x.late) = some c → s.pair.role = 3 →
    exec .cycleAckTimeout s = .next { s with commit := { s.commit with
      cycles := lmod (fun x => x.cycle == c.cycle) (fun x => { x with late := true }) s.commit.cycles, soloRequest := !s.pair.solo } }) ∧
  (∀ (c : Closed) (s : State), s.commit.cycles.find? (fun x => !x.late) = some c → s.pair.role ≠ 3 → tsorted s.adm.slots = true →
    ∃ t, exec .cycleAckTimeout s = .next t ∧ (∀ i ∈ c.items, ∀ n ∈ i.slots, t.slot n = none) ∧ t.keys = s.keys ∧ t.bus = s.bus) ∧
  (∀ s : State, s.commit.cycles.find? (fun x => !x.late) = none → exec .cycleAckTimeout s = .next s) ∧
  (∀ s : State, s.paired = true → s.portUp 4 = true → s.seam.quarantine = 0 →
    (s.pair.role ≠ 3 → s.eligible = false → ∃ t f, exec .resyncRequest s = .next t ∧ t.pair.resync = true ∧ f.cls = 5 ∧ Queued t 4 f ∧
      t.commit.cycles = [] ∧
      (s.commit.cycles = [] → f.payload = leBytes 8 s.commit.applied ∧ t.keys = s.keys ∧ t.parts = s.parts ∧ t.commit = s.commit)) ∧
    (s.pair.role = 3 → ∃ t l, exec .resyncRequest s = .next t ∧ t.pair.resync = true ∧ t.bus.cycles = s.bus.cycles ++ l ∧
      t.keys = s.keys ∧ t.parts = s.parts ∧ t.commit = s.commit)) ∧
  (∀ (n : Nat) (ps : List Nat) (l : List Change) (s : State), s.paired = true → s.portUp 4 = true → s.pair.role ≠ 3 → s.pair.resync = true →
    s.seam.quarantine = 0 → ∃ t, exec (.resyncCopyReceive n ps l) s = .next t ∧ t.commit.applied = n ∧ t.commit.cycle = n ∧
      t.rings = s.rings ∧ t.tamper = s.tamper ∧ t.pair.foreign = true ∧
      (l = [] → tsorted s.keys.recs = true → ∀ k r, t.rcd k = some r → r.rcd.part ∉ ps ∧ s.rcd k = some r)) ∧
  (∀ (src p : Nat) (c : CycleMsg) (s : State), c.tagOk = true → s.seam.quarantine = 0 → p < 256 → s.clustered = true → s.power.stopPoint ≠ 0 →
    (tgetD s.pair.vaults (src % 1024 * 256 + p) vault0).cycle < c.cycle →
    ∃ t v, exec (.vaultStreamReceive src p c) s = .next t ∧ tget t.pair.vaults (src % 1024 * 256 + p) = some v ∧ v.cycle = c.cycle ∧
      (c.changes = [] → v = { tgetD s.pair.vaults (src % 1024 * 256 + p) vault0 with cycle := c.cycle }) ∧
      t.pair.role = s.pair.role ∧ t.keys.recs = s.keys.recs ∧ t.parts = s.parts ∧ t.commit = s.commit)

/-! ### The object dictionary and its transports -/

/-- An accepted request is answered by the way it came (R567, R575, R576, R580 to R583): the reply carries status 0, the request's
ID and its data; through the mailbox it fills the reply buffer and raises MB_REPLY; no key, ring, partition or committed state
changes. Where the spec leaves a point open, it stands on the model's choice of assumption 82. -/
def Obligations.RepliesReachTheirSender : Prop :=
  ∀ (rq : Req) (idx sub op : Nat) (data : Bytes) (s : State),
    (acceptNow s rq idx sub op data).bus.replies = s.bus.replies ++ [(rq, replyBody idx sub op 0 rq.reqId data)] ∧
    (∀ x, tget s.od.sessions rq.session = some x →
      ∃ y, tget (acceptNow s rq idx sub op data).od.sessions rq.session = some y ∧ y.busy = false ∧ y.lastUs = s.opUs ∧ y.seq = x.seq) ∧
    (rq.transport = 0 → rq.session = 0 → s.od.busy = true → s.od.dropReply = false → s.asleep = false →
      (acceptNow s rq idx sub op data).od.replyUp = true ∧ (acceptNow s rq idx sub op data).od.busy = false ∧
      1027 ∈ (acceptNow s rq idx sub op data).eic.hostPend ∧
      (∀ i, i < (acceptNow s rq idx sub op data).od.replyLen →
        tgetD (acceptNow s rq idx sub op data).od.replyBuf i 0#8 =
          (leBytes 1 1 ++ leBytes 1 1 ++ leBytes 2 (replyBody idx sub op 0 rq.reqId data).length ++ leBytes 4 0 ++ leBytes 8 rq.seq ++
            replyBody idx sub op 0 rq.reqId data).getD i 0#8)) ∧
    (acceptNow s rq idx sub op data).keys = s.keys ∧ (acceptNow s rq idx sub op data).rings = s.rings ∧
    (acceptNow s rq idx sub op data).parts = s.parts ∧ (acceptNow s rq idx sub op data).commit = s.commit ∧
    (acceptNow s rq idx sub op data).od.store = s.od.store

/-- Object-dictionary requests (R564 to R574): a readable entry is answered with its value, and one the sender may not read with
KEY_USAGE; a role's write, or a granted one, of a value within its size and range is queued for its commit point; a segment waits in
its session until the whole value is there, which the entry's own command then takes; staged segments lapse after 300 s. Where the
spec leaves a point open, it stands on the model's choices of assumptions 78 and 82. -/
def Obligations.DictionaryRequests : Prop :=
  (∀ (rq : Req) (idx sub : Nat) (e : Entry) (s t : State), takeReq s rq idx sub 1 = (t, true) → odEntry idx sub = some e → e.size ≠ 0 →
    (e.acc ≠ .wo → t.mayRead rq idx sub = true →
      exec (.odRead rq idx sub) s = .next (sendReply { t with free := t.free + 1 } rq idx sub 1 0 (t.odValue idx sub))) ∧
    (t.mayRead rq idx sub = false → exec (.odRead rq idx sub) s = .next (refuse t rq idx sub 1 .keyUsage))) ∧
  (∀ (rq : Req) (idx sub off n : Nat) (e : Entry) (s t : State), takeReq s rq idx sub 2 = (t, true) → odEntry idx sub = some e → e.size = 0 →
    e.acc ≠ .wo → t.mayRead rq idx sub = true →
    exec (.odReadSegment rq idx sub off n) s =
      .next (sendReply t rq idx sub 2 0 (t.segment idx sub off (min n (segmentMax rq.transport))))) ∧
  (∀ (rq : Req) (idx sub : Nat) (e : Entry) (v : Bytes) (s t : State), Taken s rq idx sub 0x20 t → odEntry idx sub = some e →
    e.own = false → e.acc = .rw → e.size ≠ 0 → t.holds rq 1 e.pa = true → valueCheck e v = none → extraCheck idx sub (leNat v) = none →
    exec (.odWrite rq idx sub v) s = .next (acceptCommit t rq idx sub 0x20 [] [Change.od idx sub v])) ∧
  (∀ (rq : Req) (idx sub : Nat) (v : Bytes) (s t : State), Taken s rq idx sub 0x20 t → odEntry idx sub = none →
    exec (.odWrite rq idx sub v) s = .next (refuse t rq idx sub 0x20 .keyUsage)) ∧
  (∀ (rq : Req) (idx sub : Nat) (e : Entry) (v grant : Bytes) (use : List Change) (s t : State), grant.length = 32 →
    Taken s rq idx sub 0x21 t → odEntry idx sub = some e → e.own = false → e.acc = .rwq → e.size ≠ 0 →
    Granted t rq (idx == 0x7001) e.cls (entryPart idx) v grant use → valueCheck e v = none → extraCheck idx sub (leNat v) = none →
    exec (.odWriteGrant rq idx sub v grant) s = .next (acceptCommit t rq idx sub 0x21 [] (entryChanges t idx sub v ++ use))) ∧
  (∀ (rq : Req) (idx sub off total : Nat) (b held : Bytes) (x : Session) (s t : State), Taken s rq idx sub 0x22 t → s.session rq = some x →
    x.seq ≤ rq.seq → x.busy = false → held = (if x.stageIdx = some (idx, sub) then x.stageData else []) → off = held.length →
    (x.stageIdx = some (idx, sub) → total = x.stageTot) → off + b.length < total → total ≤ 2 ^ 24 → b.length ≤ segmentMax rq.transport →
    writableDomain idx sub = true → (t.anyRole rq = true ∨ t.factory = true ∨ t.openWrite idx sub = true) →
    ∃ u y, exec (.odWriteSegment rq idx sub off total b) s = .next u ∧ tget u.od.sessions rq.session = some y ∧
      y.stageIdx = some (idx, sub) ∧ y.stageTot = total ∧ y.stageData = held ++ b ∧ y.stageUs = t.opUs ∧ y.busy = false ∧
      u.od.store = t.od.store ∧ u.keys = t.keys ∧ u.commit = t.commit) ∧
  (∀ (rq : Req) (m grant : Bytes) (s : State), s.session rq = none → m.length ≤ segmentMax rq.transport → ∃ u,
    (exec (.odWriteSegmentGrant rq 0x3001 1 0 m.length m grant) s = .next u ∧ exec (.manifestWrite rq m grant) s = .next u)) ∧
  (∀ (n : Nat) (x : Session) (s : State), tget s.od.sessions n = some x →
    (x.stageUs + 300000000 ≤ s.opUs → ∃ t y, exec (.segmentStagingTimeout n) s = .next t ∧ tget t.od.sessions n = some y ∧
      y = { x with stageIdx := none, stageData := [] } ∧ t.keys = s.keys ∧ t.bus = s.bus) ∧
    (s.opUs < x.stageUs + 300000000 → exec (.segmentStagingTimeout n) s = .next s))

/-- Sessions (R381, R577, R578): SESSION_OPEN with a point of the curve adds a session that is not authenticated yet, its randomness
drawn from partition 0's instance, for which it waits; SESSION_AUTH makes it so exactly when the signature verifies, and counts a
failure otherwise; SESSION_CLOSE and SESSION_IDLE_S without a request end it. Where the spec leaves a point open, it stands on the
model's choices of assumptions 61, 79 and 100. -/
def Obligations.SessionLife : Prop :=
  (∀ (rq : Req) (m : Nat) (point : Bytes) (s t : State), Taken s rq 0 0 0x40 t → rq.transport ≠ 2 → m < 64 → t.roles m ≠ 0 →
    (Ec.decode Ec.p256 point).isSome = true → t.od.sessions.length < 32 → tgetD t.od.barred m 0 ≤ t.opUs → rq.session ≠ t.od.nextSess →
    (t.coreReady 72 = true → ∃ u y, exec (.sessionOpen rq m point) s = .next u ∧ tget u.od.sessions t.od.nextSess = some y ∧ y.member = m ∧
      y.transport = rq.transport ∧ y.keyed = false ∧ y.clientPt = point ∧ y.challenge = slice (t.part 0).drbg.staged 40 32 ∧
      (u.part 0).drbg.staged = (t.part 0).drbg.staged.drop 72 ∧ (∀ p, p ≠ 0 → u.part p = t.part p) ∧ u.free = t.free ∧ u.keys = t.keys ∧
      u.commit = t.commit) ∧
    (t.coreReady 72 = false → exec (.sessionOpen rq m point) s = .next s)) ∧
  (∀ (rq : Req) (sig : Bytes) (x : Session) (s t : State), Taken s rq 0 0 0x41 t → t.session rq = some x → x.transport = rq.transport →
    x.keyed = false → sig.length = 64 → ∃ u y, exec (.sessionAuth rq sig) s = .next u ∧ tget u.od.sessions rq.session = some y ∧
      y.keyed = Ec.verifyEnc Ec.p256 (t.odGet (0x3500 + x.member) 3) (authDigest rq.session x) sig ∧ y.member = x.member ∧
      (y.keyed = true → u.od.failures = t.od.failures) ∧ (y.keyed = false → u.od.failures = min 0xFFFFFFFF (t.od.failures + 1)) ∧
      u.keys = t.keys ∧ u.parts = t.parts ∧ u.commit = t.commit) ∧
  (∀ (rq : Req) (x : Session) (s t : State), Taken s rq 0 0 0x42 t → t.session rq = some x → x.transport = rq.transport →
    ∃ u, exec (.sessionClose rq) s = .next u ∧ tget u.od.sessions rq.session = none ∧
      (∀ k, k ≠ rq.session → tget u.od.sessions k = tget t.od.sessions k) ∧ u.keys = t.keys ∧ u.commit = t.commit) ∧
  (∀ (n : Nat) (x : Session) (s : State), tget s.od.sessions n = some x → x.busy = false →
    (x.lastUs + 1000000 * s.odNat 0x1020 2 ≤ s.opUs →
      exec (.sessionIdleTimeout n) s = .next { s with od := { s.od with sessions := terase s.od.sessions n } }) ∧
    (s.opUs < x.lastUs + 1000000 * s.odNat 0x1020 2 → exec (.sessionIdleTimeout n) s = .next s))

/-- The ways in (R580 to R583, R585): the mailbox takes one valid envelope and is BUSY, and rejects another; a datagram for this
module waits at its dispatcher while the management port is up, one for another position is relayed; a relayed reply returns to its
sender; a body over the Seam is served and answered. The log (R589 to R592, R595, R598): a flush appends the buffered records to the
NAND log in order; a seal check names the state of one record's seal; a granted LOG_CLEAR is queued for its commit point. Where the
spec leaves a point open, it stands on the model's choices of assumptions 80 and 82. -/
def Obligations.WaysInAndLog : Prop :=
  ((∀ (n : Nat) (s : State), s.barOpen 0 = true →
    (s.od.busy = true ∨ s.od.replyUp = true → exec (.mailboxGo n) s = .next { s with od := { s.od with rejected := true } }) ∧
    (∀ rq b, s.od.busy = false → s.od.replyUp = false → 16 ≤ n → n ≤ 16384 →
      openEnvelope s 0 0 ((List.range n).map (fun i => tgetD s.od.reqBuf i 0#8)) = .ok (rq, b) →
      exec (.mailboxGo n) s = .next { s with od := { s.od with busy := true, reqLen := n, inbox := s.od.inbox ++ [(rq, b)] } })) ∧
  (∀ (peer dest port : Nat) (addr d b : Bytes) (rq : Req) (s : State), s.odNat 0x1010 1 ≠ 0 → s.od.mgmtUp = true → s.power.stopPoint ≠ 0 →
    (s.mgmtAddressed addr port = false → exec (.mgmtDatagram peer ⟨dest, addr, port⟩ d) s = .next s) ∧
    (s.mgmtAddressed addr port = true → openEnvelope s 1 peer d = .ok (rq, b) → dest = s.position →
      exec (.mgmtDatagram peer ⟨dest, addr, port⟩ d) s = .next { s with od := { s.od with inbox := s.od.inbox ++ [(rq, b)] } }) ∧
    (∀ t, s.mgmtAddressed addr port = true → openEnvelope s 1 peer d = .ok (rq, b) → dest ≠ s.position →
      takeReq s rq (leAt b 0 2) (byteAt b 2) (byteAt b 3) = (t, true) →
      ∃ u, exec (.mgmtDatagram peer ⟨dest, addr, port⟩ d) s = .next u ∧ u.od.relays = t.od.relays ++ [(dest, rq, bodyId b)] ∧ u.keys = s.keys ∧
        u.bus.replies = s.bus.replies)) ∧
  (∀ (v : Bool) (s : State), exec (.mgmtLinkChange v) s = .next { s with od := { s.od with mgmtUp := v } }) ∧
  (∀ (src : Nat) (b : Bytes) (s : State), s.power.stopPoint ≠ 0 → 0x80 ≤ byteAt b 3 → src < 1024 →
    (∀ r, s.od.relays.find? (fun r => r.1 == src && r.2.2 == leAt b 8 4) = some r →
      ∃ t d, exec (.mgmtFrameReceive src b) s = .next t ∧ t.od.relays = s.od.relays.erase r ∧ t.bus.replies = s.bus.replies ++ [(r.2.1, d)] ∧
        t.keys = s.keys ∧ t.commit = s.commit) ∧
    (s.od.relays.find? (fun r => r.1 == src && r.2.2 == leAt b 8 4) = none → exec (.mgmtFrameReceive src b) s = .next s)) ∧
  (∀ (src : Nat) (b : Bytes) (s : State), s.power.stopPoint ≠ 0 → src < 1024 → waitsForRow (leAt b 0 2) (byteAt b 2) = true →
    0x20 ≤ byteAt b 3 → byteAt b 3 < 0x80 →
    exec (.mgmtFrameReceive src b) s = .next { s with od := { s.od with inbox := s.od.inbox ++ [(⟨2, 0, 0, bodyId b, src⟩, b)] } }) ∧
  (∀ (src : Nat) (b : Bytes) (s : State), s.power.stopPoint ≠ 0 → src < 1024 → b.length = 8 → byteAt b 3 = 1 →
    ∃ t d, exec (.mgmtFrameReceive src b) s = .next t ∧ t.bus.replies = s.bus.replies ++ [(⟨2, 0, 0, bodyId b, src⟩, d)] ∧
      t.keys = s.keys ∧ t.parts = s.parts ∧ t.commit = s.commit)) ∧
  ((∀ s : State, (s.logOpen = true → s.power.pfail = false → ∃ t, exec .logFlush s = .next t ∧ t.log.mainBuf = [] ∧ t.keys = s.keys ∧
      t.bus = s.bus ∧ (s.log.unreported = (0, 0) → s.log.nand.length + s.log.mainBuf.length ≤ nandCap →
        t.log.nand = s.log.nand ++ s.log.mainBuf.map (fun r => (r, none)) ∧ t.log.dropped = s.log.dropped ∧ t.log.next = s.log.next)) ∧
    (s.logOpen = false ∨ s.power.pfail = true → exec .logFlush s = .next s)) ∧
  (∀ (rq : Req) (seq : Nat) (k : Bytes) (s t : State), Taken s rq 0x6003 1 0x20 t → t.holds rq 1 false = true → seq < 2 ^ 64 →
    t.units.looper.recordKey = some k →
    exec (.sealCheck rq seq) s = .next (acceptNow { t with log := { t.log with sealResult := t.sealState k seq } } rq 0x6003 1 0x20 [])) ∧
  (∀ (rq : Req) (v : Nat) (grant : Bytes) (use : List Change) (s t : State), v ≤ 1 → Taken s rq 0x6002 1 (writeOp false grant) t →
    Granted t rq false 8 0 (leBytes 1 v) grant use →
    exec (.logClear rq v grant) s = .next (acceptCommit t rq 0x6002 1 (writeOp false grant) []
      ((if v = 1 then [Change.logClear (useId use)] else []) ++ use))))

/-! ### The whole module -/

/-- A step runs the command at the front of the queue on the state with the queue's rest. Every command is answered with a next
state: the model has no fault and no refusal. Where the spec leaves a point open, it stands on the model's choice of assumption 8.
-/
def Obligations.StepRunsFront : Prop :=
  (∀ (c : Instr) (r : List Instr) (s : State), s.pending = c :: r → step s = exec c { s with pending := r }) ∧
  (∀ (c : Instr) (s : State), ∃ t, exec c s = .next t)

/-- With no command waiting one microsecond passes (the model's choice, assumption 4): outside a STANDBY entry, a transition, OTP
programming, a switchover and a task that waits for KD only the clock, the watchdogs, the windows, the samples and the token buckets
move. -/
def Obligations.IdleStepPassesTime : Prop :=
  ∀ s : State, s.pending = [] → ∃ t, step s = .next t ∧ t.opUs = s.opUs + 1 ∧ t.pending = [] ∧
    (s.power.standbyReq = none → s.life.trans = none → s.life.prog = [] → s.pair.switching = none → s.keys.kd = none ∨ s.keys.kdJobs = [] →
      s.timeUs ≤ t.timeUs ∧ t.keys = s.keys ∧ t.adm = s.adm ∧ t.rings = s.rings ∧
      t.commit = s.commit ∧ t.od = s.od ∧ t.tamper = s.tamper ∧ t.life = s.life ∧ t.bus = s.bus ∧ t.free = s.free ∧
      (∀ p, (s.part p).drbg.tokens ≤ 65536000 → (s.part p).drbg.tokens ≤ (t.part p).drbg.tokens) ∧
      (∀ n, s.outstanding n = false → (t.fn n).stallUs = 0))

/-- What reset leaves (R74, R131, R150, R384, R407, R438, R481): every ring DISABLED, no descriptor, key record, committed change or
waiting command, the entropy block off, nothing pending, and every partition's quotas at their defaults. Where the spec leaves a
point open, it stands on the model's choice of assumption 2. -/
def Obligations.ResetValues : Prop :=
  (∀ k, (State.reset.ring k).state = .disabled) ∧ State.reset.adm.slots = [] ∧ State.reset.keys.recs = [] ∧
    State.reset.commit.queue = [] ∧ State.reset.pending = [] ∧ State.reset.entropy.ready = false ∧ State.reset.entropy.pool = [] ∧
    State.reset.eic.hostPend = [] ∧ State.reset.eic.corePend = [] ∧ State.reset.power.stopPoint = 0 ∧ State.reset.service = .starting ∧
    State.reset.link.up = false ∧ State.reset.link.vfEnable = false ∧ (∀ n, n ≠ 0 → State.reset.fnExists n = false) ∧
    (∀ p sub, State.reset.quota p sub = leNat (odDefault (0x2100 + p) sub))

/-- The invariant of every run holds at reset.
-/
def Obligations.ResetMeetsInv : Prop := Inv State.reset

/-- The invariant of every run is kept: whatever command a step runs, the OTP words that shipping programmed stay programmed (R454,
R458) and the tables in canonical form stay so.
-/
def Obligations.StepKeepsInv : Prop :=
  ∀ s t : State, Inv s → step s = .next t → Inv t

/-- What no step takes back, from any state: no programmed OTP bit is cleared (R458), no random byte is used twice (R34), and the
commands that wait keep their order behind the one that ran. Where the spec leaves a point open, it stands on the model's choice of
assumption 3. -/
def Obligations.StepTakesNothingBack : Prop :=
  ∀ s t : State, step s = .next t → OtpKept s t ∧ s.free ≤ t.free ∧ t.pending = s.pending.tail
end

