-- ==== Sys2Proof/Laws/Tab.lean ====
section
/-! SUPPORT. What the table operations do: one lemma per look-up after a change, and the canonical form that every change keeps. -/

namespace Sys2Proof.Machine

variable {α : Type}

/-! ### Reading after a change -/

theorem tget_tset (t : Tab α) (k j : Nat) (v : α) : tget (tset t k v) j = if j = k then some v else tget t j := by
  induction t with
  | nil => simp [tset, tget, eq_comm]
  | cons e r ih =>
    obtain ⟨a, x⟩ := e
    simp only [tset]
    split
    · simp [tget, eq_comm]
    · split
      · rename_i h
        subst h
        simp only [tget]
        by_cases h : j = a
        · simp [h]
        · simp [h, Ne.symm h]
      · simp only [tget, ih]; split <;> split <;> simp_all

@[simp] theorem tget_tset_self (t : Tab α) (k : Nat) (v : α) : tget (tset t k v) k = some v := by simp [tget_tset]

theorem tget_tset_ne (t : Tab α) {k j : Nat} (v : α) (h : j ≠ k) : tget (tset t k v) j = tget t j := by simp [tget_tset, h]

@[simp] theorem tgetD_tset_self (t : Tab α) (k : Nat) (v d : α) : tgetD (tset t k v) k d = v := by simp [tgetD]

theorem tgetD_tset (t : Tab α) (k j : Nat) (v d : α) : tgetD (tset t k v) j d = if j = k then v else tgetD t j d := by
  simp only [tgetD, tget_tset]; split <;> rfl

theorem tgetD_tset_ne (t : Tab α) {k j : Nat} (v d : α) (h : j ≠ k) : tgetD (tset t k v) j d = tgetD t j d := by
  simp [tgetD_tset, h]

theorem tget_tfilter_key (t : Tab α) (p : Nat → Bool) (j : Nat) :
    tget (t.filter (fun e => p e.1)) j = if p j then tget t j else none := by
  induction t with
  | nil => simp [tget]
  | cons e r ih =>
    obtain ⟨a, x⟩ := e
    by_cases hp : p a = true <;> by_cases hj : a = j <;> simp_all [List.filter_cons, tget]

theorem tget_terase (t : Tab α) (k j : Nat) : tget (terase t k) j = if j = k then none else tget t j := by
  rw [terase, tget_tfilter_key t (fun a => a != k)]
  by_cases h : j = k <;> simp [h]

theorem tget_tmap (t : Tab α) (f : Nat → α → α) (j : Nat) : tget (tmap t f) j = (tget t j).map (f j) := by
  induction t with
  | nil => rfl
  | cons e r ih =>
    obtain ⟨a, x⟩ := e
    simp only [tmap, List.map_cons, tget] at ih ⊢
    split
    · simp_all
    · exact ih

/-! ### The canonical form -/

theorem tsorted_iff (t : Tab α) : tsorted t = true ↔ (tkeys t).Pairwise (· < ·) := by
  induction t with
  | nil => simp [tsorted, tkeys]
  | cons e r ih =>
    obtain ⟨a, x⟩ := e
    cases r with
    | nil => simp [tsorted, tkeys]
    | cons f r =>
      obtain ⟨b, y⟩ := f
      simp only [tsorted, Bool.and_eq_true, decide_eq_true_eq, ih, tkeys, List.map_cons, List.pairwise_cons]
      constructor
      · rintro ⟨h, h1, h2⟩
        refine ⟨?_, h1, h2⟩
        intro c hc
        rcases List.mem_cons.1 hc with rfl | hc
        · exact h
        · exact h.trans (h1 c hc)
      · rintro ⟨h, h1⟩
        exact ⟨h b (by simp), h1⟩

theorem mem_tkeys_tset (t : Tab α) (k c : Nat) (v : α) : c ∈ tkeys (tset t k v) ↔ c = k ∨ c ∈ tkeys t := by
  induction t with
  | nil => simp [tset, tkeys]
  | cons e r ih =>
    obtain ⟨a, x⟩ := e
    simp only [tset]
    split
    · simp [tkeys]
    · split
      · subst a; simp [tkeys]
      · simp only [tkeys, List.map_cons, List.mem_cons] at ih ⊢
        rw [ih]; tauto

/-- Writing a key keeps a table in its canonical form. -/
theorem tsorted_tset (t : Tab α) (k : Nat) (v : α) (h : tsorted t = true) : tsorted (tset t k v) = true := by
  rw [tsorted_iff] at h ⊢
  induction t with
  | nil => simp [tset, tkeys]
  | cons e r ih =>
    obtain ⟨a, x⟩ := e
    simp only [tkeys, List.map_cons, List.pairwise_cons] at h
    simp only [tset]
    split
    · rename_i hk
      simp only [tkeys, List.map_cons, List.pairwise_cons, List.mem_cons]
      refine ⟨?_, h⟩
      rintro c (rfl | hc)
      · exact hk
      · exact hk.trans (h.1 c hc)
    · split
      · subst a; simpa only [tkeys, List.map_cons, List.pairwise_cons] using h
      · rename_i h1 h2
        simp only [tkeys, List.map_cons, List.pairwise_cons]
        refine ⟨?_, ih h.2⟩
        intro c hc
        rcases (mem_tkeys_tset r k c v).1 hc with rfl | hc
        · omega
        · exact h.1 c hc

/-- Leaving entries out keeps a table in its canonical form. -/
theorem tsorted_filter (t : Tab α) (p : Nat × α → Bool) (h : tsorted t = true) : tsorted (t.filter p) = true := by
  rw [tsorted_iff] at h ⊢
  exact h.sublist (List.Sublist.map _ (List.filter_sublist))

theorem tsorted_terase (t : Tab α) (k : Nat) (h : tsorted t = true) : tsorted (terase t k) = true := tsorted_filter t _ h

theorem tsorted_tmap (t : Tab α) (f : Nat → α → α) (h : tsorted t = true) : tsorted (tmap t f) = true := by
  rw [tsorted_iff] at h ⊢
  simpa [tkeys, tmap, Function.comp_def] using h

/-- A cell of a memory reads as it was written, and every other cell as before. -/
theorem tgetD_cset [DecidableEq α] (d : α) (t : Tab α) (k j : Nat) (v : α) :
    tgetD (cset d t k v) j d = if j = k then v else tgetD t j d := by
  unfold cset
  split
  · subst v; simp only [tgetD, tget_terase]; split <;> rfl
  · exact tgetD_tset t k j v d

theorem mem_tset {t : Tab α} {k : Nat} {v : α} {e : Nat × α} (h : e ∈ tset t k v) : e = (k, v) ∨ e ∈ t := by
  induction t with
  | nil => simpa [tset] using h
  | cons f r ih =>
    obtain ⟨a, x⟩ := f
    simp only [tset] at h
    split at h
    · simpa using h
    · split at h
      · rcases List.mem_cons.1 h with h | h
        · exact Or.inl h
        · exact Or.inr (List.mem_cons_of_mem _ h)
      · rcases List.mem_cons.1 h with h | h
        · exact Or.inr (h ▸ List.mem_cons_self)
        · rcases ih h with h | h
          · exact Or.inl h
          · exact Or.inr (List.mem_cons_of_mem _ h)

/-- Writing a cell keeps a memory in its canonical form. -/
theorem cwf_cset [DecidableEq α] (d : α) (t : Tab α) (k : Nat) (v : α) (h : cwf d t = true) : cwf d (cset d t k v) = true := by
  simp only [cwf, Bool.and_eq_true, List.all_eq_true, decide_eq_true_eq] at h ⊢
  unfold cset
  split
  · exact ⟨tsorted_terase t k h.1, fun e he => h.2 e (List.mem_filter.1 he).1⟩
  · rename_i hv
    refine ⟨tsorted_tset t k v h.1, fun e he => ?_⟩
    rcases mem_tset he with rfl | he
    · exact hv
    · exact h.2 e he

/-- Writing bytes keeps an addressed buffer in its canonical form. -/
theorem cwf_bufWrite (t : Tab Byte) (a : Nat) (b : Bytes) (h : cwf 0#8 t = true) : cwf 0#8 (bufWrite t a b) = true := by
  unfold bufWrite
  generalize List.range b.length = l
  induction l generalizing t with
  | nil => exact h
  | cons i l ih => exact ih _ (cwf_cset _ _ _ _ h)

theorem tgetD_foldl_cset (l : List Nat) (t : Tab Byte) (a j : Nat) (b : Bytes) :
    tgetD (l.foldl (fun u i => cset 0#8 u (a + i) (b.getD i 0#8)) t) j 0#8 =
      if a ≤ j ∧ j - a ∈ l then b.getD (j - a) 0#8 else tgetD t j 0#8 := by
  induction l generalizing t with
  | nil => simp
  | cons i l ih =>
    rw [List.foldl_cons, ih, tgetD_cset]
    by_cases hi : j = a + i
    · subst hi; simp
    · have : ¬ (a ≤ j ∧ j - a = i) := by omega
      by_cases hl : a ≤ j ∧ j - a ∈ l
      · simp [hl]
      · have h2 : ¬ (a ≤ j ∧ j - a ∈ i :: l) := by
          rintro ⟨h3, h4⟩
          rcases List.mem_cons.1 h4 with h4 | h4
          · exact this ⟨h3, h4⟩
          · exact hl ⟨h3, h4⟩
        rw [if_neg hl, if_neg h2, if_neg hi]

/-- Bytes written to an addressed buffer read back, and every other byte reads as before. -/
theorem tgetD_bufWrite (t : Tab Byte) (a j : Nat) (b : Bytes) :
    tgetD (bufWrite t a b) j 0#8 = if a ≤ j ∧ j < a + b.length then b.getD (j - a) 0#8 else tgetD t j 0#8 := by
  rw [bufWrite, tgetD_foldl_cset]
  by_cases h : a ≤ j ∧ j < a + b.length
  · rw [if_pos h, if_pos ⟨h.1, by rw [List.mem_range]; omega⟩]
  · rw [if_neg h, if_neg]
    rintro ⟨h1, h2⟩
    rw [List.mem_range] at h2
    exact h ⟨h1, by omega⟩

/-! ### Free places -/

theorem mem_tkeys_of_tget {t : Tab α} {k : Nat} (h : (tget t k).isSome = true) : k ∈ tkeys t := by
  induction t with
  | nil => simp [tget] at h
  | cons e r ih =>
    obtain ⟨a, x⟩ := e
    simp only [tget] at h
    split at h
    · simp_all [tkeys]
    · simp only [tkeys, List.map_cons, List.mem_cons]; exact Or.inr (ih h)

theorem tlowestFree_none {t : Tab α} {fuel a : Nat} (h : tlowestFree t a fuel = none) :
    ∀ i, i < fuel → a + i ∈ tkeys t := by
  induction fuel generalizing a with
  | zero => intro i hi; omega
  | succ n ih =>
    simp only [tlowestFree] at h
    split at h
    · cases h
    · rename_i hs
      intro i hi
      have h0 : a ∈ tkeys t := mem_tkeys_of_tget (by cases hg : tget t a <;> simp_all)
      rcases Nat.eq_zero_or_pos i with rfl | hp
      · exact h0
      · have := ih h (i - 1) (by omega)
        rwa [show a + 1 + (i - 1) = a + i by omega] at this

/-- Among one more places than a table lists there is a free one. -/
theorem tlowestFree_length (t : Tab α) (a : Nat) : (tlowestFree t a (t.length + 1)).isSome = true := by
  by_contra hc
  have hn : tlowestFree t a (t.length + 1) = none := by simpa using hc
  have h := tlowestFree_none hn
  have hsub : (List.range (t.length + 1)).map (a + ·) ⊆ tkeys t := by
    intro c hc
    obtain ⟨i, hi, rfl⟩ := List.mem_map.1 hc
    exact h i (List.mem_range.1 hi)
  have hnd : ((List.range (t.length + 1)).map (a + ·)).Nodup :=
    List.Nodup.map (fun x y hxy => by simpa using hxy) List.nodup_range
  have := (List.subperm_of_subset hnd hsub).length_le
  simp [tkeys] at this

theorem tlowestFree_spec {t : Tab α} {fuel a k : Nat} (h : tlowestFree t a fuel = some k) : tget t k = none := by
  induction fuel generalizing a with
  | zero => simp [tlowestFree] at h
  | succ n ih =>
    simp only [tlowestFree] at h
    split at h
    · rename_i hs; cases h; simpa using hs
    · exact ih h

end Sys2Proof.Machine
end

