-- ==== Sys2Proof/Laws/State.lean ====
section
/-! SUPPORT. What each update of the state leaves and what it changes: one lemma per field per update, and one look-up per
update of a table. -/

namespace Sys2Proof.Machine

variable (s : State)

/-! ### modFn -/

@[simp] theorem State.modFn_opUs (n : Nat) (f : Fn → Fn) : (s.modFn n f).opUs = s.opUs := rfl
@[simp] theorem State.modFn_timeUs (n : Nat) (f : Fn → Fn) : (s.modFn n f).timeUs = s.timeUs := rfl
@[simp] theorem State.modFn_free (n : Nat) (f : Fn → Fn) : (s.modFn n f).free = s.free := rfl
@[simp] theorem State.modFn_service (n : Nat) (f : Fn → Fn) : (s.modFn n f).service = s.service := rfl
@[simp] theorem State.modFn_link (n : Nat) (f : Fn → Fn) : (s.modFn n f).link = s.link := rfl
@[simp] theorem State.modFn_rings (n : Nat) (f : Fn → Fn) : (s.modFn n f).rings = s.rings := rfl
@[simp] theorem State.modFn_groups (n : Nat) (f : Fn → Fn) : (s.modFn n f).groups = s.groups := rfl
@[simp] theorem State.modFn_adm (n : Nat) (f : Fn → Fn) : (s.modFn n f).adm = s.adm := rfl
@[simp] theorem State.modFn_commit (n : Nat) (f : Fn → Fn) : (s.modFn n f).commit = s.commit := rfl
@[simp] theorem State.modFn_keys (n : Nat) (f : Fn → Fn) : (s.modFn n f).keys = s.keys := rfl
@[simp] theorem State.modFn_parts (n : Nat) (f : Fn → Fn) : (s.modFn n f).parts = s.parts := rfl
@[simp] theorem State.modFn_meas (n : Nat) (f : Fn → Fn) : (s.modFn n f).meas = s.meas := rfl
@[simp] theorem State.modFn_quorum (n : Nat) (f : Fn → Fn) : (s.modFn n f).quorum = s.quorum := rfl
@[simp] theorem State.modFn_resv (n : Nat) (f : Fn → Fn) : (s.modFn n f).resv = s.resv := rfl
@[simp] theorem State.modFn_atcResv (n : Nat) (f : Fn → Fn) : (s.modFn n f).atcResv = s.atcResv := rfl
@[simp] theorem State.modFn_units (n : Nat) (f : Fn → Fn) : (s.modFn n f).units = s.units := rfl
@[simp] theorem State.modFn_entropy (n : Nat) (f : Fn → Fn) : (s.modFn n f).entropy = s.entropy := rfl
@[simp] theorem State.modFn_eic (n : Nat) (f : Fn → Fn) : (s.modFn n f).eic = s.eic := rfl
@[simp] theorem State.modFn_tamper (n : Nat) (f : Fn → Fn) : (s.modFn n f).tamper = s.tamper := rfl
@[simp] theorem State.modFn_life (n : Nat) (f : Fn → Fn) : (s.modFn n f).life = s.life := rfl
@[simp] theorem State.modFn_power (n : Nat) (f : Fn → Fn) : (s.modFn n f).power = s.power := rfl
@[simp] theorem State.modFn_seam (n : Nat) (f : Fn → Fn) : (s.modFn n f).seam = s.seam := rfl
@[simp] theorem State.modFn_pair (n : Nat) (f : Fn → Fn) : (s.modFn n f).pair = s.pair := rfl
@[simp] theorem State.modFn_od (n : Nat) (f : Fn → Fn) : (s.modFn n f).od = s.od := rfl
@[simp] theorem State.modFn_log (n : Nat) (f : Fn → Fn) : (s.modFn n f).log = s.log := rfl
@[simp] theorem State.modFn_tele (n : Nat) (f : Fn → Fn) : (s.modFn n f).tele = s.tele := rfl
@[simp] theorem State.modFn_bus (n : Nat) (f : Fn → Fn) : (s.modFn n f).bus = s.bus := rfl
@[simp] theorem State.modFn_pending (n : Nat) (f : Fn → Fn) : (s.modFn n f).pending = s.pending := rfl

/-! ### modRing -/

@[simp] theorem State.modRing_opUs (n : Nat) (f : Ring → Ring) : (s.modRing n f).opUs = s.opUs := rfl
@[simp] theorem State.modRing_timeUs (n : Nat) (f : Ring → Ring) : (s.modRing n f).timeUs = s.timeUs := rfl
@[simp] theorem State.modRing_free (n : Nat) (f : Ring → Ring) : (s.modRing n f).free = s.free := rfl
@[simp] theorem State.modRing_service (n : Nat) (f : Ring → Ring) : (s.modRing n f).service = s.service := rfl
@[simp] theorem State.modRing_fns (n : Nat) (f : Ring → Ring) : (s.modRing n f).fns = s.fns := rfl
@[simp] theorem State.modRing_link (n : Nat) (f : Ring → Ring) : (s.modRing n f).link = s.link := rfl
@[simp] theorem State.modRing_groups (n : Nat) (f : Ring → Ring) : (s.modRing n f).groups = s.groups := rfl
@[simp] theorem State.modRing_adm (n : Nat) (f : Ring → Ring) : (s.modRing n f).adm = s.adm := rfl
@[simp] theorem State.modRing_commit (n : Nat) (f : Ring → Ring) : (s.modRing n f).commit = s.commit := rfl
@[simp] theorem State.modRing_keys (n : Nat) (f : Ring → Ring) : (s.modRing n f).keys = s.keys := rfl
@[simp] theorem State.modRing_parts (n : Nat) (f : Ring → Ring) : (s.modRing n f).parts = s.parts := rfl
@[simp] theorem State.modRing_meas (n : Nat) (f : Ring → Ring) : (s.modRing n f).meas = s.meas := rfl
@[simp] theorem State.modRing_quorum (n : Nat) (f : Ring → Ring) : (s.modRing n f).quorum = s.quorum := rfl
@[simp] theorem State.modRing_resv (n : Nat) (f : Ring → Ring) : (s.modRing n f).resv = s.resv := rfl
@[simp] theorem State.modRing_atcResv (n : Nat) (f : Ring → Ring) : (s.modRing n f).atcResv = s.atcResv := rfl
@[simp] theorem State.modRing_units (n : Nat) (f : Ring → Ring) : (s.modRing n f).units = s.units := rfl
@[simp] theorem State.modRing_entropy (n : Nat) (f : Ring → Ring) : (s.modRing n f).entropy = s.entropy := rfl
@[simp] theorem State.modRing_eic (n : Nat) (f : Ring → Ring) : (s.modRing n f).eic = s.eic := rfl
@[simp] theorem State.modRing_tamper (n : Nat) (f : Ring → Ring) : (s.modRing n f).tamper = s.tamper := rfl
@[simp] theorem State.modRing_life (n : Nat) (f : Ring → Ring) : (s.modRing n f).life = s.life := rfl
@[simp] theorem State.modRing_power (n : Nat) (f : Ring → Ring) : (s.modRing n f).power = s.power := rfl
@[simp] theorem State.modRing_seam (n : Nat) (f : Ring → Ring) : (s.modRing n f).seam = s.seam := rfl
@[simp] theorem State.modRing_pair (n : Nat) (f : Ring → Ring) : (s.modRing n f).pair = s.pair := rfl
@[simp] theorem State.modRing_od (n : Nat) (f : Ring → Ring) : (s.modRing n f).od = s.od := rfl
@[simp] theorem State.modRing_log (n : Nat) (f : Ring → Ring) : (s.modRing n f).log = s.log := rfl
@[simp] theorem State.modRing_tele (n : Nat) (f : Ring → Ring) : (s.modRing n f).tele = s.tele := rfl
@[simp] theorem State.modRing_bus (n : Nat) (f : Ring → Ring) : (s.modRing n f).bus = s.bus := rfl
@[simp] theorem State.modRing_pending (n : Nat) (f : Ring → Ring) : (s.modRing n f).pending = s.pending := rfl

/-! ### modGroup -/

@[simp] theorem State.modGroup_opUs (n : Nat) (f : Group → Group) : (s.modGroup n f).opUs = s.opUs := rfl
@[simp] theorem State.modGroup_timeUs (n : Nat) (f : Group → Group) : (s.modGroup n f).timeUs = s.timeUs := rfl
@[simp] theorem State.modGroup_free (n : Nat) (f : Group → Group) : (s.modGroup n f).free = s.free := rfl
@[simp] theorem State.modGroup_service (n : Nat) (f : Group → Group) : (s.modGroup n f).service = s.service := rfl
@[simp] theorem State.modGroup_fns (n : Nat) (f : Group → Group) : (s.modGroup n f).fns = s.fns := rfl
@[simp] theorem State.modGroup_link (n : Nat) (f : Group → Group) : (s.modGroup n f).link = s.link := rfl
@[simp] theorem State.modGroup_rings (n : Nat) (f : Group → Group) : (s.modGroup n f).rings = s.rings := rfl
@[simp] theorem State.modGroup_adm (n : Nat) (f : Group → Group) : (s.modGroup n f).adm = s.adm := rfl
@[simp] theorem State.modGroup_commit (n : Nat) (f : Group → Group) : (s.modGroup n f).commit = s.commit := rfl
@[simp] theorem State.modGroup_keys (n : Nat) (f : Group → Group) : (s.modGroup n f).keys = s.keys := rfl
@[simp] theorem State.modGroup_parts (n : Nat) (f : Group → Group) : (s.modGroup n f).parts = s.parts := rfl
@[simp] theorem State.modGroup_meas (n : Nat) (f : Group → Group) : (s.modGroup n f).meas = s.meas := rfl
@[simp] theorem State.modGroup_quorum (n : Nat) (f : Group → Group) : (s.modGroup n f).quorum = s.quorum := rfl
@[simp] theorem State.modGroup_resv (n : Nat) (f : Group → Group) : (s.modGroup n f).resv = s.resv := rfl
@[simp] theorem State.modGroup_atcResv (n : Nat) (f : Group → Group) : (s.modGroup n f).atcResv = s.atcResv := rfl
@[simp] theorem State.modGroup_units (n : Nat) (f : Group → Group) : (s.modGroup n f).units = s.units := rfl
@[simp] theorem State.modGroup_entropy (n : Nat) (f : Group → Group) : (s.modGroup n f).entropy = s.entropy := rfl
@[simp] theorem State.modGroup_eic (n : Nat) (f : Group → Group) : (s.modGroup n f).eic = s.eic := rfl
@[simp] theorem State.modGroup_tamper (n : Nat) (f : Group → Group) : (s.modGroup n f).tamper = s.tamper := rfl
@[simp] theorem State.modGroup_life (n : Nat) (f : Group → Group) : (s.modGroup n f).life = s.life := rfl
@[simp] theorem State.modGroup_power (n : Nat) (f : Group → Group) : (s.modGroup n f).power = s.power := rfl
@[simp] theorem State.modGroup_seam (n : Nat) (f : Group → Group) : (s.modGroup n f).seam = s.seam := rfl
@[simp] theorem State.modGroup_pair (n : Nat) (f : Group → Group) : (s.modGroup n f).pair = s.pair := rfl
@[simp] theorem State.modGroup_od (n : Nat) (f : Group → Group) : (s.modGroup n f).od = s.od := rfl
@[simp] theorem State.modGroup_log (n : Nat) (f : Group → Group) : (s.modGroup n f).log = s.log := rfl
@[simp] theorem State.modGroup_tele (n : Nat) (f : Group → Group) : (s.modGroup n f).tele = s.tele := rfl
@[simp] theorem State.modGroup_bus (n : Nat) (f : Group → Group) : (s.modGroup n f).bus = s.bus := rfl
@[simp] theorem State.modGroup_pending (n : Nat) (f : Group → Group) : (s.modGroup n f).pending = s.pending := rfl

/-! ### modPart -/

@[simp] theorem State.modPart_opUs (n : Nat) (f : Part → Part) : (s.modPart n f).opUs = s.opUs := rfl
@[simp] theorem State.modPart_timeUs (n : Nat) (f : Part → Part) : (s.modPart n f).timeUs = s.timeUs := rfl
@[simp] theorem State.modPart_free (n : Nat) (f : Part → Part) : (s.modPart n f).free = s.free := rfl
@[simp] theorem State.modPart_service (n : Nat) (f : Part → Part) : (s.modPart n f).service = s.service := rfl
@[simp] theorem State.modPart_fns (n : Nat) (f : Part → Part) : (s.modPart n f).fns = s.fns := rfl
@[simp] theorem State.modPart_link (n : Nat) (f : Part → Part) : (s.modPart n f).link = s.link := rfl
@[simp] theorem State.modPart_rings (n : Nat) (f : Part → Part) : (s.modPart n f).rings = s.rings := rfl
@[simp] theorem State.modPart_groups (n : Nat) (f : Part → Part) : (s.modPart n f).groups = s.groups := rfl
@[simp] theorem State.modPart_adm (n : Nat) (f : Part → Part) : (s.modPart n f).adm = s.adm := rfl
@[simp] theorem State.modPart_commit (n : Nat) (f : Part → Part) : (s.modPart n f).commit = s.commit := rfl
@[simp] theorem State.modPart_keys (n : Nat) (f : Part → Part) : (s.modPart n f).keys = s.keys := rfl
@[simp] theorem State.modPart_meas (n : Nat) (f : Part → Part) : (s.modPart n f).meas = s.meas := rfl
@[simp] theorem State.modPart_quorum (n : Nat) (f : Part → Part) : (s.modPart n f).quorum = s.quorum := rfl
@[simp] theorem State.modPart_resv (n : Nat) (f : Part → Part) : (s.modPart n f).resv = s.resv := rfl
@[simp] theorem State.modPart_atcResv (n : Nat) (f : Part → Part) : (s.modPart n f).atcResv = s.atcResv := rfl
@[simp] theorem State.modPart_units (n : Nat) (f : Part → Part) : (s.modPart n f).units = s.units := rfl
@[simp] theorem State.modPart_entropy (n : Nat) (f : Part → Part) : (s.modPart n f).entropy = s.entropy := rfl
@[simp] theorem State.modPart_eic (n : Nat) (f : Part → Part) : (s.modPart n f).eic = s.eic := rfl
@[simp] theorem State.modPart_tamper (n : Nat) (f : Part → Part) : (s.modPart n f).tamper = s.tamper := rfl
@[simp] theorem State.modPart_life (n : Nat) (f : Part → Part) : (s.modPart n f).life = s.life := rfl
@[simp] theorem State.modPart_power (n : Nat) (f : Part → Part) : (s.modPart n f).power = s.power := rfl
@[simp] theorem State.modPart_seam (n : Nat) (f : Part → Part) : (s.modPart n f).seam = s.seam := rfl
@[simp] theorem State.modPart_pair (n : Nat) (f : Part → Part) : (s.modPart n f).pair = s.pair := rfl
@[simp] theorem State.modPart_od (n : Nat) (f : Part → Part) : (s.modPart n f).od = s.od := rfl
@[simp] theorem State.modPart_log (n : Nat) (f : Part → Part) : (s.modPart n f).log = s.log := rfl
@[simp] theorem State.modPart_tele (n : Nat) (f : Part → Part) : (s.modPart n f).tele = s.tele := rfl
@[simp] theorem State.modPart_bus (n : Nat) (f : Part → Part) : (s.modPart n f).bus = s.bus := rfl
@[simp] theorem State.modPart_pending (n : Nat) (f : Part → Part) : (s.modPart n f).pending = s.pending := rfl

/-! ### modSlot -/

@[simp] theorem State.modSlot_opUs (n : Nat) (f : Slot → Slot) : (s.modSlot n f).opUs = s.opUs := by unfold State.modSlot; split <;> rfl
@[simp] theorem State.modSlot_timeUs (n : Nat) (f : Slot → Slot) : (s.modSlot n f).timeUs = s.timeUs := by unfold State.modSlot; split <;> rfl
@[simp] theorem State.modSlot_free (n : Nat) (f : Slot → Slot) : (s.modSlot n f).free = s.free := by unfold State.modSlot; split <;> rfl
@[simp] theorem State.modSlot_service (n : Nat) (f : Slot → Slot) : (s.modSlot n f).service = s.service := by unfold State.modSlot; split <;> rfl
@[simp] theorem State.modSlot_fns (n : Nat) (f : Slot → Slot) : (s.modSlot n f).fns = s.fns := by unfold State.modSlot; split <;> rfl
@[simp] theorem State.modSlot_link (n : Nat) (f : Slot → Slot) : (s.modSlot n f).link = s.link := by unfold State.modSlot; split <;> rfl
@[simp] theorem State.modSlot_rings (n : Nat) (f : Slot → Slot) : (s.modSlot n f).rings = s.rings := by unfold State.modSlot; split <;> rfl
@[simp] theorem State.modSlot_groups (n : Nat) (f : Slot → Slot) : (s.modSlot n f).groups = s.groups := by unfold State.modSlot; split <;> rfl
@[simp] theorem State.modSlot_commit (n : Nat) (f : Slot → Slot) : (s.modSlot n f).commit = s.commit := by unfold State.modSlot; split <;> rfl
@[simp] theorem State.modSlot_keys (n : Nat) (f : Slot → Slot) : (s.modSlot n f).keys = s.keys := by unfold State.modSlot; split <;> rfl
@[simp] theorem State.modSlot_parts (n : Nat) (f : Slot → Slot) : (s.modSlot n f).parts = s.parts := by unfold State.modSlot; split <;> rfl
@[simp] theorem State.modSlot_meas (n : Nat) (f : Slot → Slot) : (s.modSlot n f).meas = s.meas := by unfold State.modSlot; split <;> rfl
@[simp] theorem State.modSlot_quorum (n : Nat) (f : Slot → Slot) : (s.modSlot n f).quorum = s.quorum := by unfold State.modSlot; split <;> rfl
@[simp] theorem State.modSlot_resv (n : Nat) (f : Slot → Slot) : (s.modSlot n f).resv = s.resv := by unfold State.modSlot; split <;> rfl
@[simp] theorem State.modSlot_atcResv (n : Nat) (f : Slot → Slot) : (s.modSlot n f).atcResv = s.atcResv := by unfold State.modSlot; split <;> rfl
@[simp] theorem State.modSlot_units (n : Nat) (f : Slot → Slot) : (s.modSlot n f).units = s.units := by unfold State.modSlot; split <;> rfl
@[simp] theorem State.modSlot_entropy (n : Nat) (f : Slot → Slot) : (s.modSlot n f).entropy = s.entropy := by unfold State.modSlot; split <;> rfl
@[simp] theorem State.modSlot_eic (n : Nat) (f : Slot → Slot) : (s.modSlot n f).eic = s.eic := by unfold State.modSlot; split <;> rfl
@[simp] theorem State.modSlot_tamper (n : Nat) (f : Slot → Slot) : (s.modSlot n f).tamper = s.tamper := by unfold State.modSlot; split <;> rfl
@[simp] theorem State.modSlot_life (n : Nat) (f : Slot → Slot) : (s.modSlot n f).life = s.life := by unfold State.modSlot; split <;> rfl
@[simp] theorem State.modSlot_power (n : Nat) (f : Slot → Slot) : (s.modSlot n f).power = s.power := by unfold State.modSlot; split <;> rfl
@[simp] theorem State.modSlot_seam (n : Nat) (f : Slot → Slot) : (s.modSlot n f).seam = s.seam := by unfold State.modSlot; split <;> rfl
@[simp] theorem State.modSlot_pair (n : Nat) (f : Slot → Slot) : (s.modSlot n f).pair = s.pair := by unfold State.modSlot; split <;> rfl
@[simp] theorem State.modSlot_od (n : Nat) (f : Slot → Slot) : (s.modSlot n f).od = s.od := by unfold State.modSlot; split <;> rfl
@[simp] theorem State.modSlot_log (n : Nat) (f : Slot → Slot) : (s.modSlot n f).log = s.log := by unfold State.modSlot; split <;> rfl
@[simp] theorem State.modSlot_tele (n : Nat) (f : Slot → Slot) : (s.modSlot n f).tele = s.tele := by unfold State.modSlot; split <;> rfl
@[simp] theorem State.modSlot_bus (n : Nat) (f : Slot → Slot) : (s.modSlot n f).bus = s.bus := by unfold State.modSlot; split <;> rfl
@[simp] theorem State.modSlot_pending (n : Nat) (f : Slot → Slot) : (s.modSlot n f).pending = s.pending := by unfold State.modSlot; split <;> rfl
@[simp] theorem State.modSlot_adm_chainHold (n : Nat) (f : Slot → Slot) : (s.modSlot n f).adm.chainHold = s.adm.chainHold := by unfold State.modSlot; split <;> rfl
@[simp] theorem State.modSlot_adm_cur (n : Nat) (f : Slot → Slot) : (s.modSlot n f).adm.cur = s.adm.cur := by unfold State.modSlot; split <;> rfl
@[simp] theorem State.modSlot_adm_inTurn (n : Nat) (f : Slot → Slot) : (s.modSlot n f).adm.inTurn = s.adm.inTurn := by unfold State.modSlot; split <;> rfl
@[simp] theorem State.modSlot_adm_deficit (n : Nat) (f : Slot → Slot) : (s.modSlot n f).adm.deficit = s.adm.deficit := by unfold State.modSlot; split <;> rfl
@[simp] theorem State.modSlot_adm_lastRing (n : Nat) (f : Slot → Slot) : (s.modSlot n f).adm.lastRing = s.adm.lastRing := by unfold State.modSlot; split <;> rfl
@[simp] theorem State.modSlot_adm_nextRead (n : Nat) (f : Slot → Slot) : (s.modSlot n f).adm.nextRead = s.adm.nextRead := by unfold State.modSlot; split <;> rfl

/-! ### modLane -/

@[simp] theorem State.modLane_opUs (n : Nat) (f : Lane → Lane) : (s.modLane n f).opUs = s.opUs := rfl
@[simp] theorem State.modLane_timeUs (n : Nat) (f : Lane → Lane) : (s.modLane n f).timeUs = s.timeUs := rfl
@[simp] theorem State.modLane_free (n : Nat) (f : Lane → Lane) : (s.modLane n f).free = s.free := rfl
@[simp] theorem State.modLane_service (n : Nat) (f : Lane → Lane) : (s.modLane n f).service = s.service := rfl
@[simp] theorem State.modLane_fns (n : Nat) (f : Lane → Lane) : (s.modLane n f).fns = s.fns := rfl
@[simp] theorem State.modLane_link (n : Nat) (f : Lane → Lane) : (s.modLane n f).link = s.link := rfl
@[simp] theorem State.modLane_rings (n : Nat) (f : Lane → Lane) : (s.modLane n f).rings = s.rings := rfl
@[simp] theorem State.modLane_groups (n : Nat) (f : Lane → Lane) : (s.modLane n f).groups = s.groups := rfl
@[simp] theorem State.modLane_adm (n : Nat) (f : Lane → Lane) : (s.modLane n f).adm = s.adm := rfl
@[simp] theorem State.modLane_commit (n : Nat) (f : Lane → Lane) : (s.modLane n f).commit = s.commit := rfl
@[simp] theorem State.modLane_keys (n : Nat) (f : Lane → Lane) : (s.modLane n f).keys = s.keys := rfl
@[simp] theorem State.modLane_parts (n : Nat) (f : Lane → Lane) : (s.modLane n f).parts = s.parts := rfl
@[simp] theorem State.modLane_meas (n : Nat) (f : Lane → Lane) : (s.modLane n f).meas = s.meas := rfl
@[simp] theorem State.modLane_quorum (n : Nat) (f : Lane → Lane) : (s.modLane n f).quorum = s.quorum := rfl
@[simp] theorem State.modLane_resv (n : Nat) (f : Lane → Lane) : (s.modLane n f).resv = s.resv := rfl
@[simp] theorem State.modLane_atcResv (n : Nat) (f : Lane → Lane) : (s.modLane n f).atcResv = s.atcResv := rfl
@[simp] theorem State.modLane_entropy (n : Nat) (f : Lane → Lane) : (s.modLane n f).entropy = s.entropy := rfl
@[simp] theorem State.modLane_eic (n : Nat) (f : Lane → Lane) : (s.modLane n f).eic = s.eic := rfl
@[simp] theorem State.modLane_tamper (n : Nat) (f : Lane → Lane) : (s.modLane n f).tamper = s.tamper := rfl
@[simp] theorem State.modLane_life (n : Nat) (f : Lane → Lane) : (s.modLane n f).life = s.life := rfl
@[simp] theorem State.modLane_power (n : Nat) (f : Lane → Lane) : (s.modLane n f).power = s.power := rfl
@[simp] theorem State.modLane_seam (n : Nat) (f : Lane → Lane) : (s.modLane n f).seam = s.seam := rfl
@[simp] theorem State.modLane_pair (n : Nat) (f : Lane → Lane) : (s.modLane n f).pair = s.pair := rfl
@[simp] theorem State.modLane_od (n : Nat) (f : Lane → Lane) : (s.modLane n f).od = s.od := rfl
@[simp] theorem State.modLane_log (n : Nat) (f : Lane → Lane) : (s.modLane n f).log = s.log := rfl
@[simp] theorem State.modLane_tele (n : Nat) (f : Lane → Lane) : (s.modLane n f).tele = s.tele := rfl
@[simp] theorem State.modLane_bus (n : Nat) (f : Lane → Lane) : (s.modLane n f).bus = s.bus := rfl
@[simp] theorem State.modLane_pending (n : Nat) (f : Lane → Lane) : (s.modLane n f).pending = s.pending := rfl
@[simp] theorem State.modLane_units_hashes (n : Nat) (f : Lane → Lane) : (s.modLane n f).units.hashes = s.units.hashes := rfl
@[simp] theorem State.modLane_units_looper (n : Nat) (f : Lane → Lane) : (s.modLane n f).units.looper = s.units.looper := rfl
@[simp] theorem State.modLane_units_engines (n : Nat) (f : Lane → Lane) : (s.modLane n f).units.engines = s.units.engines := rfl
@[simp] theorem State.modLane_units_plumes (n : Nat) (f : Lane → Lane) : (s.modLane n f).units.plumes = s.units.plumes := rfl
@[simp] theorem State.modLane_units_mismatch1 (n : Nat) (f : Lane → Lane) : (s.modLane n f).units.mismatch1 = s.units.mismatch1 := rfl
@[simp] theorem State.modLane_units_mismatch2 (n : Nat) (f : Lane → Lane) : (s.modLane n f).units.mismatch2 = s.units.mismatch2 := rfl
@[simp] theorem State.modLane_units_blockRes (n : Nat) (f : Lane → Lane) : (s.modLane n f).units.blockRes = s.units.blockRes := rfl
@[simp] theorem State.modLane_units_blockCls (n : Nat) (f : Lane → Lane) : (s.modLane n f).units.blockCls = s.units.blockCls := rfl
@[simp] theorem State.modLane_units_blockUnit (n : Nat) (f : Lane → Lane) : (s.modLane n f).units.blockUnit = s.units.blockUnit := rfl
@[simp] theorem State.modLane_units_blockReq (n : Nat) (f : Lane → Lane) : (s.modLane n f).units.blockReq = s.units.blockReq := rfl

/-! ### modHash -/

@[simp] theorem State.modHash_opUs (n : Nat) (f : HashUnit → HashUnit) : (s.modHash n f).opUs = s.opUs := rfl
@[simp] theorem State.modHash_timeUs (n : Nat) (f : HashUnit → HashUnit) : (s.modHash n f).timeUs = s.timeUs := rfl
@[simp] theorem State.modHash_free (n : Nat) (f : HashUnit → HashUnit) : (s.modHash n f).free = s.free := rfl
@[simp] theorem State.modHash_service (n : Nat) (f : HashUnit → HashUnit) : (s.modHash n f).service = s.service := rfl
@[simp] theorem State.modHash_fns (n : Nat) (f : HashUnit → HashUnit) : (s.modHash n f).fns = s.fns := rfl
@[simp] theorem State.modHash_link (n : Nat) (f : HashUnit → HashUnit) : (s.modHash n f).link = s.link := rfl
@[simp] theorem State.modHash_rings (n : Nat) (f : HashUnit → HashUnit) : (s.modHash n f).rings = s.rings := rfl
@[simp] theorem State.modHash_groups (n : Nat) (f : HashUnit → HashUnit) : (s.modHash n f).groups = s.groups := rfl
@[simp] theorem State.modHash_adm (n : Nat) (f : HashUnit → HashUnit) : (s.modHash n f).adm = s.adm := rfl
@[simp] theorem State.modHash_commit (n : Nat) (f : HashUnit → HashUnit) : (s.modHash n f).commit = s.commit := rfl
@[simp] theorem State.modHash_keys (n : Nat) (f : HashUnit → HashUnit) : (s.modHash n f).keys = s.keys := rfl
@[simp] theorem State.modHash_parts (n : Nat) (f : HashUnit → HashUnit) : (s.modHash n f).parts = s.parts := rfl
@[simp] theorem State.modHash_meas (n : Nat) (f : HashUnit → HashUnit) : (s.modHash n f).meas = s.meas := rfl
@[simp] theorem State.modHash_quorum (n : Nat) (f : HashUnit → HashUnit) : (s.modHash n f).quorum = s.quorum := rfl
@[simp] theorem State.modHash_resv (n : Nat) (f : HashUnit → HashUnit) : (s.modHash n f).resv = s.resv := rfl
@[simp] theorem State.modHash_atcResv (n : Nat) (f : HashUnit → HashUnit) : (s.modHash n f).atcResv = s.atcResv := rfl
@[simp] theorem State.modHash_entropy (n : Nat) (f : HashUnit → HashUnit) : (s.modHash n f).entropy = s.entropy := rfl
@[simp] theorem State.modHash_eic (n : Nat) (f : HashUnit → HashUnit) : (s.modHash n f).eic = s.eic := rfl
@[simp] theorem State.modHash_tamper (n : Nat) (f : HashUnit → HashUnit) : (s.modHash n f).tamper = s.tamper := rfl
@[simp] theorem State.modHash_life (n : Nat) (f : HashUnit → HashUnit) : (s.modHash n f).life = s.life := rfl
@[simp] theorem State.modHash_power (n : Nat) (f : HashUnit → HashUnit) : (s.modHash n f).power = s.power := rfl
@[simp] theorem State.modHash_seam (n : Nat) (f : HashUnit → HashUnit) : (s.modHash n f).seam = s.seam := rfl
@[simp] theorem State.modHash_pair (n : Nat) (f : HashUnit → HashUnit) : (s.modHash n f).pair = s.pair := rfl
@[simp] theorem State.modHash_od (n : Nat) (f : HashUnit → HashUnit) : (s.modHash n f).od = s.od := rfl
@[simp] theorem State.modHash_log (n : Nat) (f : HashUnit → HashUnit) : (s.modHash n f).log = s.log := rfl
@[simp] theorem State.modHash_tele (n : Nat) (f : HashUnit → HashUnit) : (s.modHash n f).tele = s.tele := rfl
@[simp] theorem State.modHash_bus (n : Nat) (f : HashUnit → HashUnit) : (s.modHash n f).bus = s.bus := rfl
@[simp] theorem State.modHash_pending (n : Nat) (f : HashUnit → HashUnit) : (s.modHash n f).pending = s.pending := rfl
@[simp] theorem State.modHash_units_lanes (n : Nat) (f : HashUnit → HashUnit) : (s.modHash n f).units.lanes = s.units.lanes := rfl
@[simp] theorem State.modHash_units_looper (n : Nat) (f : HashUnit → HashUnit) : (s.modHash n f).units.looper = s.units.looper := rfl
@[simp] theorem State.modHash_units_engines (n : Nat) (f : HashUnit → HashUnit) : (s.modHash n f).units.engines = s.units.engines := rfl
@[simp] theorem State.modHash_units_plumes (n : Nat) (f : HashUnit → HashUnit) : (s.modHash n f).units.plumes = s.units.plumes := rfl
@[simp] theorem State.modHash_units_mismatch1 (n : Nat) (f : HashUnit → HashUnit) : (s.modHash n f).units.mismatch1 = s.units.mismatch1 := rfl
@[simp] theorem State.modHash_units_mismatch2 (n : Nat) (f : HashUnit → HashUnit) : (s.modHash n f).units.mismatch2 = s.units.mismatch2 := rfl
@[simp] theorem State.modHash_units_blockRes (n : Nat) (f : HashUnit → HashUnit) : (s.modHash n f).units.blockRes = s.units.blockRes := rfl
@[simp] theorem State.modHash_units_blockCls (n : Nat) (f : HashUnit → HashUnit) : (s.modHash n f).units.blockCls = s.units.blockCls := rfl
@[simp] theorem State.modHash_units_blockUnit (n : Nat) (f : HashUnit → HashUnit) : (s.modHash n f).units.blockUnit = s.units.blockUnit := rfl
@[simp] theorem State.modHash_units_blockReq (n : Nat) (f : HashUnit → HashUnit) : (s.modHash n f).units.blockReq = s.units.blockReq := rfl

/-! ### modEngine -/

@[simp] theorem State.modEngine_opUs (n : Nat) (f : Engine → Engine) : (s.modEngine n f).opUs = s.opUs := rfl
@[simp] theorem State.modEngine_timeUs (n : Nat) (f : Engine → Engine) : (s.modEngine n f).timeUs = s.timeUs := rfl
@[simp] theorem State.modEngine_free (n : Nat) (f : Engine → Engine) : (s.modEngine n f).free = s.free := rfl
@[simp] theorem State.modEngine_service (n : Nat) (f : Engine → Engine) : (s.modEngine n f).service = s.service := rfl
@[simp] theorem State.modEngine_fns (n : Nat) (f : Engine → Engine) : (s.modEngine n f).fns = s.fns := rfl
@[simp] theorem State.modEngine_link (n : Nat) (f : Engine → Engine) : (s.modEngine n f).link = s.link := rfl
@[simp] theorem State.modEngine_rings (n : Nat) (f : Engine → Engine) : (s.modEngine n f).rings = s.rings := rfl
@[simp] theorem State.modEngine_groups (n : Nat) (f : Engine → Engine) : (s.modEngine n f).groups = s.groups := rfl
@[simp] theorem State.modEngine_adm (n : Nat) (f : Engine → Engine) : (s.modEngine n f).adm = s.adm := rfl
@[simp] theorem State.modEngine_commit (n : Nat) (f : Engine → Engine) : (s.modEngine n f).commit = s.commit := rfl
@[simp] theorem State.modEngine_keys (n : Nat) (f : Engine → Engine) : (s.modEngine n f).keys = s.keys := rfl
@[simp] theorem State.modEngine_parts (n : Nat) (f : Engine → Engine) : (s.modEngine n f).parts = s.parts := rfl
@[simp] theorem State.modEngine_meas (n : Nat) (f : Engine → Engine) : (s.modEngine n f).meas = s.meas := rfl
@[simp] theorem State.modEngine_quorum (n : Nat) (f : Engine → Engine) : (s.modEngine n f).quorum = s.quorum := rfl
@[simp] theorem State.modEngine_resv (n : Nat) (f : Engine → Engine) : (s.modEngine n f).resv = s.resv := rfl
@[simp] theorem State.modEngine_atcResv (n : Nat) (f : Engine → Engine) : (s.modEngine n f).atcResv = s.atcResv := rfl
@[simp] theorem State.modEngine_entropy (n : Nat) (f : Engine → Engine) : (s.modEngine n f).entropy = s.entropy := rfl
@[simp] theorem State.modEngine_eic (n : Nat) (f : Engine → Engine) : (s.modEngine n f).eic = s.eic := rfl
@[simp] theorem State.modEngine_tamper (n : Nat) (f : Engine → Engine) : (s.modEngine n f).tamper = s.tamper := rfl
@[simp] theorem State.modEngine_life (n : Nat) (f : Engine → Engine) : (s.modEngine n f).life = s.life := rfl
@[simp] theorem State.modEngine_power (n : Nat) (f : Engine → Engine) : (s.modEngine n f).power = s.power := rfl
@[simp] theorem State.modEngine_seam (n : Nat) (f : Engine → Engine) : (s.modEngine n f).seam = s.seam := rfl
@[simp] theorem State.modEngine_pair (n : Nat) (f : Engine → Engine) : (s.modEngine n f).pair = s.pair := rfl
@[simp] theorem State.modEngine_od (n : Nat) (f : Engine → Engine) : (s.modEngine n f).od = s.od := rfl
@[simp] theorem State.modEngine_log (n : Nat) (f : Engine → Engine) : (s.modEngine n f).log = s.log := rfl
@[simp] theorem State.modEngine_tele (n : Nat) (f : Engine → Engine) : (s.modEngine n f).tele = s.tele := rfl
@[simp] theorem State.modEngine_bus (n : Nat) (f : Engine → Engine) : (s.modEngine n f).bus = s.bus := rfl
@[simp] theorem State.modEngine_pending (n : Nat) (f : Engine → Engine) : (s.modEngine n f).pending = s.pending := rfl
@[simp] theorem State.modEngine_units_lanes (n : Nat) (f : Engine → Engine) : (s.modEngine n f).units.lanes = s.units.lanes := rfl
@[simp] theorem State.modEngine_units_hashes (n : Nat) (f : Engine → Engine) : (s.modEngine n f).units.hashes = s.units.hashes := rfl
@[simp] theorem State.modEngine_units_looper (n : Nat) (f : Engine → Engine) : (s.modEngine n f).units.looper = s.units.looper := rfl
@[simp] theorem State.modEngine_units_plumes (n : Nat) (f : Engine → Engine) : (s.modEngine n f).units.plumes = s.units.plumes := rfl
@[simp] theorem State.modEngine_units_mismatch1 (n : Nat) (f : Engine → Engine) : (s.modEngine n f).units.mismatch1 = s.units.mismatch1 := rfl
@[simp] theorem State.modEngine_units_mismatch2 (n : Nat) (f : Engine → Engine) : (s.modEngine n f).units.mismatch2 = s.units.mismatch2 := rfl
@[simp] theorem State.modEngine_units_blockRes (n : Nat) (f : Engine → Engine) : (s.modEngine n f).units.blockRes = s.units.blockRes := rfl
@[simp] theorem State.modEngine_units_blockCls (n : Nat) (f : Engine → Engine) : (s.modEngine n f).units.blockCls = s.units.blockCls := rfl
@[simp] theorem State.modEngine_units_blockUnit (n : Nat) (f : Engine → Engine) : (s.modEngine n f).units.blockUnit = s.units.blockUnit := rfl
@[simp] theorem State.modEngine_units_blockReq (n : Nat) (f : Engine → Engine) : (s.modEngine n f).units.blockReq = s.units.blockReq := rfl

/-! ### modPlume -/

@[simp] theorem State.modPlume_opUs (n : Nat) (f : Plume → Plume) : (s.modPlume n f).opUs = s.opUs := rfl
@[simp] theorem State.modPlume_timeUs (n : Nat) (f : Plume → Plume) : (s.modPlume n f).timeUs = s.timeUs := rfl
@[simp] theorem State.modPlume_free (n : Nat) (f : Plume → Plume) : (s.modPlume n f).free = s.free := rfl
@[simp] theorem State.modPlume_service (n : Nat) (f : Plume → Plume) : (s.modPlume n f).service = s.service := rfl
@[simp] theorem State.modPlume_fns (n : Nat) (f : Plume → Plume) : (s.modPlume n f).fns = s.fns := rfl
@[simp] theorem State.modPlume_link (n : Nat) (f : Plume → Plume) : (s.modPlume n f).link = s.link := rfl
@[simp] theorem State.modPlume_rings (n : Nat) (f : Plume → Plume) : (s.modPlume n f).rings = s.rings := rfl
@[simp] theorem State.modPlume_groups (n : Nat) (f : Plume → Plume) : (s.modPlume n f).groups = s.groups := rfl
@[simp] theorem State.modPlume_adm (n : Nat) (f : Plume → Plume) : (s.modPlume n f).adm = s.adm := rfl
@[simp] theorem State.modPlume_commit (n : Nat) (f : Plume → Plume) : (s.modPlume n f).commit = s.commit := rfl
@[simp] theorem State.modPlume_keys (n : Nat) (f : Plume → Plume) : (s.modPlume n f).keys = s.keys := rfl
@[simp] theorem State.modPlume_parts (n : Nat) (f : Plume → Plume) : (s.modPlume n f).parts = s.parts := rfl
@[simp] theorem State.modPlume_meas (n : Nat) (f : Plume → Plume) : (s.modPlume n f).meas = s.meas := rfl
@[simp] theorem State.modPlume_quorum (n : Nat) (f : Plume → Plume) : (s.modPlume n f).quorum = s.quorum := rfl
@[simp] theorem State.modPlume_resv (n : Nat) (f : Plume → Plume) : (s.modPlume n f).resv = s.resv := rfl
@[simp] theorem State.modPlume_atcResv (n : Nat) (f : Plume → Plume) : (s.modPlume n f).atcResv = s.atcResv := rfl
@[simp] theorem State.modPlume_entropy (n : Nat) (f : Plume → Plume) : (s.modPlume n f).entropy = s.entropy := rfl
@[simp] theorem State.modPlume_eic (n : Nat) (f : Plume → Plume) : (s.modPlume n f).eic = s.eic := rfl
@[simp] theorem State.modPlume_tamper (n : Nat) (f : Plume → Plume) : (s.modPlume n f).tamper = s.tamper := rfl
@[simp] theorem State.modPlume_life (n : Nat) (f : Plume → Plume) : (s.modPlume n f).life = s.life := rfl
@[simp] theorem State.modPlume_power (n : Nat) (f : Plume → Plume) : (s.modPlume n f).power = s.power := rfl
@[simp] theorem State.modPlume_seam (n : Nat) (f : Plume → Plume) : (s.modPlume n f).seam = s.seam := rfl
@[simp] theorem State.modPlume_pair (n : Nat) (f : Plume → Plume) : (s.modPlume n f).pair = s.pair := rfl
@[simp] theorem State.modPlume_od (n : Nat) (f : Plume → Plume) : (s.modPlume n f).od = s.od := rfl
@[simp] theorem State.modPlume_log (n : Nat) (f : Plume → Plume) : (s.modPlume n f).log = s.log := rfl
@[simp] theorem State.modPlume_tele (n : Nat) (f : Plume → Plume) : (s.modPlume n f).tele = s.tele := rfl
@[simp] theorem State.modPlume_bus (n : Nat) (f : Plume → Plume) : (s.modPlume n f).bus = s.bus := rfl
@[simp] theorem State.modPlume_pending (n : Nat) (f : Plume → Plume) : (s.modPlume n f).pending = s.pending := rfl
@[simp] theorem State.modPlume_units_lanes (n : Nat) (f : Plume → Plume) : (s.modPlume n f).units.lanes = s.units.lanes := rfl
@[simp] theorem State.modPlume_units_hashes (n : Nat) (f : Plume → Plume) : (s.modPlume n f).units.hashes = s.units.hashes := rfl
@[simp] theorem State.modPlume_units_looper (n : Nat) (f : Plume → Plume) : (s.modPlume n f).units.looper = s.units.looper := rfl
@[simp] theorem State.modPlume_units_engines (n : Nat) (f : Plume → Plume) : (s.modPlume n f).units.engines = s.units.engines := rfl
@[simp] theorem State.modPlume_units_mismatch1 (n : Nat) (f : Plume → Plume) : (s.modPlume n f).units.mismatch1 = s.units.mismatch1 := rfl
@[simp] theorem State.modPlume_units_mismatch2 (n : Nat) (f : Plume → Plume) : (s.modPlume n f).units.mismatch2 = s.units.mismatch2 := rfl
@[simp] theorem State.modPlume_units_blockRes (n : Nat) (f : Plume → Plume) : (s.modPlume n f).units.blockRes = s.units.blockRes := rfl
@[simp] theorem State.modPlume_units_blockCls (n : Nat) (f : Plume → Plume) : (s.modPlume n f).units.blockCls = s.units.blockCls := rfl
@[simp] theorem State.modPlume_units_blockUnit (n : Nat) (f : Plume → Plume) : (s.modPlume n f).units.blockUnit = s.units.blockUnit := rfl
@[simp] theorem State.modPlume_units_blockReq (n : Nat) (f : Plume → Plume) : (s.modPlume n f).units.blockReq = s.units.blockReq := rfl

/-! ### modLooper -/

@[simp] theorem State.modLooper_opUs (f : Looper → Looper) : (s.modLooper f).opUs = s.opUs := rfl
@[simp] theorem State.modLooper_timeUs (f : Looper → Looper) : (s.modLooper f).timeUs = s.timeUs := rfl
@[simp] theorem State.modLooper_free (f : Looper → Looper) : (s.modLooper f).free = s.free := rfl
@[simp] theorem State.modLooper_service (f : Looper → Looper) : (s.modLooper f).service = s.service := rfl
@[simp] theorem State.modLooper_fns (f : Looper → Looper) : (s.modLooper f).fns = s.fns := rfl
@[simp] theorem State.modLooper_link (f : Looper → Looper) : (s.modLooper f).link = s.link := rfl
@[simp] theorem State.modLooper_rings (f : Looper → Looper) : (s.modLooper f).rings = s.rings := rfl
@[simp] theorem State.modLooper_groups (f : Looper → Looper) : (s.modLooper f).groups = s.groups := rfl
@[simp] theorem State.modLooper_adm (f : Looper → Looper) : (s.modLooper f).adm = s.adm := rfl
@[simp] theorem State.modLooper_commit (f : Looper → Looper) : (s.modLooper f).commit = s.commit := rfl
@[simp] theorem State.modLooper_keys (f : Looper → Looper) : (s.modLooper f).keys = s.keys := rfl
@[simp] theorem State.modLooper_parts (f : Looper → Looper) : (s.modLooper f).parts = s.parts := rfl
@[simp] theorem State.modLooper_meas (f : Looper → Looper) : (s.modLooper f).meas = s.meas := rfl
@[simp] theorem State.modLooper_quorum (f : Looper → Looper) : (s.modLooper f).quorum = s.quorum := rfl
@[simp] theorem State.modLooper_resv (f : Looper → Looper) : (s.modLooper f).resv = s.resv := rfl
@[simp] theorem State.modLooper_atcResv (f : Looper → Looper) : (s.modLooper f).atcResv = s.atcResv := rfl
@[simp] theorem State.modLooper_entropy (f : Looper → Looper) : (s.modLooper f).entropy = s.entropy := rfl
@[simp] theorem State.modLooper_eic (f : Looper → Looper) : (s.modLooper f).eic = s.eic := rfl
@[simp] theorem State.modLooper_tamper (f : Looper → Looper) : (s.modLooper f).tamper = s.tamper := rfl
@[simp] theorem State.modLooper_life (f : Looper → Looper) : (s.modLooper f).life = s.life := rfl
@[simp] theorem State.modLooper_power (f : Looper → Looper) : (s.modLooper f).power = s.power := rfl
@[simp] theorem State.modLooper_seam (f : Looper → Looper) : (s.modLooper f).seam = s.seam := rfl
@[simp] theorem State.modLooper_pair (f : Looper → Looper) : (s.modLooper f).pair = s.pair := rfl
@[simp] theorem State.modLooper_od (f : Looper → Looper) : (s.modLooper f).od = s.od := rfl
@[simp] theorem State.modLooper_log (f : Looper → Looper) : (s.modLooper f).log = s.log := rfl
@[simp] theorem State.modLooper_tele (f : Looper → Looper) : (s.modLooper f).tele = s.tele := rfl
@[simp] theorem State.modLooper_bus (f : Looper → Looper) : (s.modLooper f).bus = s.bus := rfl
@[simp] theorem State.modLooper_pending (f : Looper → Looper) : (s.modLooper f).pending = s.pending := rfl
@[simp] theorem State.modLooper_units_lanes (f : Looper → Looper) : (s.modLooper f).units.lanes = s.units.lanes := rfl
@[simp] theorem State.modLooper_units_hashes (f : Looper → Looper) : (s.modLooper f).units.hashes = s.units.hashes := rfl
@[simp] theorem State.modLooper_units_engines (f : Looper → Looper) : (s.modLooper f).units.engines = s.units.engines := rfl
@[simp] theorem State.modLooper_units_plumes (f : Looper → Looper) : (s.modLooper f).units.plumes = s.units.plumes := rfl
@[simp] theorem State.modLooper_units_mismatch1 (f : Looper → Looper) : (s.modLooper f).units.mismatch1 = s.units.mismatch1 := rfl
@[simp] theorem State.modLooper_units_mismatch2 (f : Looper → Looper) : (s.modLooper f).units.mismatch2 = s.units.mismatch2 := rfl
@[simp] theorem State.modLooper_units_blockRes (f : Looper → Looper) : (s.modLooper f).units.blockRes = s.units.blockRes := rfl
@[simp] theorem State.modLooper_units_blockCls (f : Looper → Looper) : (s.modLooper f).units.blockCls = s.units.blockCls := rfl
@[simp] theorem State.modLooper_units_blockUnit (f : Looper → Looper) : (s.modLooper f).units.blockUnit = s.units.blockUnit := rfl
@[simp] theorem State.modLooper_units_blockReq (f : Looper → Looper) : (s.modLooper f).units.blockReq = s.units.blockReq := rfl

/-! ### modCore -/

@[simp] theorem State.modCore_opUs (n : Nat) (f : Core → Core) : (s.modCore n f).opUs = s.opUs := rfl
@[simp] theorem State.modCore_timeUs (n : Nat) (f : Core → Core) : (s.modCore n f).timeUs = s.timeUs := rfl
@[simp] theorem State.modCore_free (n : Nat) (f : Core → Core) : (s.modCore n f).free = s.free := rfl
@[simp] theorem State.modCore_service (n : Nat) (f : Core → Core) : (s.modCore n f).service = s.service := rfl
@[simp] theorem State.modCore_fns (n : Nat) (f : Core → Core) : (s.modCore n f).fns = s.fns := rfl
@[simp] theorem State.modCore_link (n : Nat) (f : Core → Core) : (s.modCore n f).link = s.link := rfl
@[simp] theorem State.modCore_rings (n : Nat) (f : Core → Core) : (s.modCore n f).rings = s.rings := rfl
@[simp] theorem State.modCore_groups (n : Nat) (f : Core → Core) : (s.modCore n f).groups = s.groups := rfl
@[simp] theorem State.modCore_adm (n : Nat) (f : Core → Core) : (s.modCore n f).adm = s.adm := rfl
@[simp] theorem State.modCore_commit (n : Nat) (f : Core → Core) : (s.modCore n f).commit = s.commit := rfl
@[simp] theorem State.modCore_keys (n : Nat) (f : Core → Core) : (s.modCore n f).keys = s.keys := rfl
@[simp] theorem State.modCore_parts (n : Nat) (f : Core → Core) : (s.modCore n f).parts = s.parts := rfl
@[simp] theorem State.modCore_meas (n : Nat) (f : Core → Core) : (s.modCore n f).meas = s.meas := rfl
@[simp] theorem State.modCore_quorum (n : Nat) (f : Core → Core) : (s.modCore n f).quorum = s.quorum := rfl
@[simp] theorem State.modCore_resv (n : Nat) (f : Core → Core) : (s.modCore n f).resv = s.resv := rfl
@[simp] theorem State.modCore_atcResv (n : Nat) (f : Core → Core) : (s.modCore n f).atcResv = s.atcResv := rfl
@[simp] theorem State.modCore_units (n : Nat) (f : Core → Core) : (s.modCore n f).units = s.units := rfl
@[simp] theorem State.modCore_entropy (n : Nat) (f : Core → Core) : (s.modCore n f).entropy = s.entropy := rfl
@[simp] theorem State.modCore_tamper (n : Nat) (f : Core → Core) : (s.modCore n f).tamper = s.tamper := rfl
@[simp] theorem State.modCore_life (n : Nat) (f : Core → Core) : (s.modCore n f).life = s.life := rfl
@[simp] theorem State.modCore_power (n : Nat) (f : Core → Core) : (s.modCore n f).power = s.power := rfl
@[simp] theorem State.modCore_seam (n : Nat) (f : Core → Core) : (s.modCore n f).seam = s.seam := rfl
@[simp] theorem State.modCore_pair (n : Nat) (f : Core → Core) : (s.modCore n f).pair = s.pair := rfl
@[simp] theorem State.modCore_od (n : Nat) (f : Core → Core) : (s.modCore n f).od = s.od := rfl
@[simp] theorem State.modCore_log (n : Nat) (f : Core → Core) : (s.modCore n f).log = s.log := rfl
@[simp] theorem State.modCore_tele (n : Nat) (f : Core → Core) : (s.modCore n f).tele = s.tele := rfl
@[simp] theorem State.modCore_bus (n : Nat) (f : Core → Core) : (s.modCore n f).bus = s.bus := rfl
@[simp] theorem State.modCore_pending (n : Nat) (f : Core → Core) : (s.modCore n f).pending = s.pending := rfl
@[simp] theorem State.modCore_eic_hostPend (n : Nat) (f : Core → Core) : (s.modCore n f).eic.hostPend = s.eic.hostPend := rfl
@[simp] theorem State.modCore_eic_corePend (n : Nat) (f : Core → Core) : (s.modCore n f).eic.corePend = s.eic.corePend := rfl
@[simp] theorem State.modCore_eic_ready (n : Nat) (f : Core → Core) : (s.modCore n f).eic.ready = s.eic.ready := rfl
@[simp] theorem State.modCore_eic_quiet (n : Nat) (f : Core → Core) : (s.modCore n f).eic.quiet = s.eic.quiet := rfl
@[simp] theorem State.modCore_eic_holdOff (n : Nat) (f : Core → Core) : (s.modCore n f).eic.holdOff = s.eic.holdOff := rfl
@[simp] theorem State.modCore_eic_globalHold (n : Nat) (f : Core → Core) : (s.modCore n f).eic.globalHold = s.eic.globalHold := rfl
@[simp] theorem State.modCore_eic_map (n : Nat) (f : Core → Core) : (s.modCore n f).eic.map = s.eic.map := rfl
@[simp] theorem State.modCore_eic_latches (n : Nat) (f : Core → Core) : (s.modCore n f).eic.latches = s.eic.latches := rfl
@[simp] theorem State.modCore_eic_firstLatch (n : Nat) (f : Core → Core) : (s.modCore n f).eic.firstLatch = s.eic.firstLatch := rfl
@[simp] theorem State.modCore_eic_wakeCause (n : Nat) (f : Core → Core) : (s.modCore n f).eic.wakeCause = s.eic.wakeCause := rfl
@[simp] theorem State.modCore_eic_wakeSet (n : Nat) (f : Core → Core) : (s.modCore n f).eic.wakeSet = s.eic.wakeSet := rfl
@[simp] theorem State.modCore_eic_wakeArmed (n : Nat) (f : Core → Core) : (s.modCore n f).eic.wakeArmed = s.eic.wakeArmed := rfl
@[simp] theorem State.modCore_eic_wdogResets (n : Nat) (f : Core → Core) : (s.modCore n f).eic.wdogResets = s.eic.wdogResets := rfl

/-! ### modPort -/

@[simp] theorem State.modPort_opUs (n : Nat) (f : Port → Port) : (s.modPort n f).opUs = s.opUs := rfl
@[simp] theorem State.modPort_timeUs (n : Nat) (f : Port → Port) : (s.modPort n f).timeUs = s.timeUs := rfl
@[simp] theorem State.modPort_free (n : Nat) (f : Port → Port) : (s.modPort n f).free = s.free := rfl
@[simp] theorem State.modPort_service (n : Nat) (f : Port → Port) : (s.modPort n f).service = s.service := rfl
@[simp] theorem State.modPort_fns (n : Nat) (f : Port → Port) : (s.modPort n f).fns = s.fns := rfl
@[simp] theorem State.modPort_link (n : Nat) (f : Port → Port) : (s.modPort n f).link = s.link := rfl
@[simp] theorem State.modPort_rings (n : Nat) (f : Port → Port) : (s.modPort n f).rings = s.rings := rfl
@[simp] theorem State.modPort_groups (n : Nat) (f : Port → Port) : (s.modPort n f).groups = s.groups := rfl
@[simp] theorem State.modPort_adm (n : Nat) (f : Port → Port) : (s.modPort n f).adm = s.adm := rfl
@[simp] theorem State.modPort_commit (n : Nat) (f : Port → Port) : (s.modPort n f).commit = s.commit := rfl
@[simp] theorem State.modPort_keys (n : Nat) (f : Port → Port) : (s.modPort n f).keys = s.keys := rfl
@[simp] theorem State.modPort_parts (n : Nat) (f : Port → Port) : (s.modPort n f).parts = s.parts := rfl
@[simp] theorem State.modPort_meas (n : Nat) (f : Port → Port) : (s.modPort n f).meas = s.meas := rfl
@[simp] theorem State.modPort_quorum (n : Nat) (f : Port → Port) : (s.modPort n f).quorum = s.quorum := rfl
@[simp] theorem State.modPort_resv (n : Nat) (f : Port → Port) : (s.modPort n f).resv = s.resv := rfl
@[simp] theorem State.modPort_atcResv (n : Nat) (f : Port → Port) : (s.modPort n f).atcResv = s.atcResv := rfl
@[simp] theorem State.modPort_units (n : Nat) (f : Port → Port) : (s.modPort n f).units = s.units := rfl
@[simp] theorem State.modPort_entropy (n : Nat) (f : Port → Port) : (s.modPort n f).entropy = s.entropy := rfl
@[simp] theorem State.modPort_eic (n : Nat) (f : Port → Port) : (s.modPort n f).eic = s.eic := rfl
@[simp] theorem State.modPort_tamper (n : Nat) (f : Port → Port) : (s.modPort n f).tamper = s.tamper := rfl
@[simp] theorem State.modPort_life (n : Nat) (f : Port → Port) : (s.modPort n f).life = s.life := rfl
@[simp] theorem State.modPort_power (n : Nat) (f : Port → Port) : (s.modPort n f).power = s.power := rfl
@[simp] theorem State.modPort_pair (n : Nat) (f : Port → Port) : (s.modPort n f).pair = s.pair := rfl
@[simp] theorem State.modPort_od (n : Nat) (f : Port → Port) : (s.modPort n f).od = s.od := rfl
@[simp] theorem State.modPort_log (n : Nat) (f : Port → Port) : (s.modPort n f).log = s.log := rfl
@[simp] theorem State.modPort_tele (n : Nat) (f : Port → Port) : (s.modPort n f).tele = s.tele := rfl
@[simp] theorem State.modPort_bus (n : Nat) (f : Port → Port) : (s.modPort n f).bus = s.bus := rfl
@[simp] theorem State.modPort_pending (n : Nat) (f : Port → Port) : (s.modPort n f).pending = s.pending := rfl
@[simp] theorem State.modPort_seam_unreachable (n : Nat) (f : Port → Port) : (s.modPort n f).seam.unreachable = s.seam.unreachable := rfl
@[simp] theorem State.modPort_seam_quarantine (n : Nat) (f : Port → Port) : (s.modPort n f).seam.quarantine = s.seam.quarantine := rfl
@[simp] theorem State.modPort_seam_seen (n : Nat) (f : Port → Port) : (s.modPort n f).seam.seen = s.seam.seen := rfl
@[simp] theorem State.modPort_seam_sent (n : Nat) (f : Port → Port) : (s.modPort n f).seam.sent = s.seam.sent := rfl
@[simp] theorem State.modPort_seam_unacked (n : Nat) (f : Port → Port) : (s.modPort n f).seam.unacked = s.seam.unacked := rfl
@[simp] theorem State.modPort_seam_unsynced (n : Nat) (f : Port → Port) : (s.modPort n f).seam.unsynced = s.seam.unsynced := rfl
@[simp] theorem State.modPort_seam_offset (n : Nat) (f : Port → Port) : (s.modPort n f).seam.offset = s.seam.offset := rfl
@[simp] theorem State.modPort_seam_slew (n : Nat) (f : Port → Port) : (s.modPort n f).seam.slew = s.seam.slew := rfl
@[simp] theorem State.modPort_seam_bound (n : Nat) (f : Port → Port) : (s.modPort n f).seam.bound = s.seam.bound := rfl
@[simp] theorem State.modPort_seam_lastSync (n : Nat) (f : Port → Port) : (s.modPort n f).seam.lastSync = s.seam.lastSync := rfl
@[simp] theorem State.modPort_seam_inBand (n : Nat) (f : Port → Port) : (s.modPort n f).seam.inBand = s.seam.inBand := rfl
@[simp] theorem State.modPort_seam_timeSet (n : Nat) (f : Port → Port) : (s.modPort n f).seam.timeSet = s.seam.timeSet := rfl
@[simp] theorem State.modPort_seam_masterGone (n : Nat) (f : Port → Port) : (s.modPort n f).seam.masterGone = s.seam.masterGone := rfl
@[simp] theorem State.modPort_seam_pulling (n : Nat) (f : Port → Port) : (s.modPort n f).seam.pulling = s.seam.pulling := rfl
@[simp] theorem State.modPort_seam_conflict (n : Nat) (f : Port → Port) : (s.modPort n f).seam.conflict = s.seam.conflict := rfl

/-! ### odSet -/

@[simp] theorem State.odSet_opUs (i j : Nat) (v : Bytes) : (s.odSet i j v).opUs = s.opUs := rfl
@[simp] theorem State.odSet_timeUs (i j : Nat) (v : Bytes) : (s.odSet i j v).timeUs = s.timeUs := rfl
@[simp] theorem State.odSet_free (i j : Nat) (v : Bytes) : (s.odSet i j v).free = s.free := rfl
@[simp] theorem State.odSet_service (i j : Nat) (v : Bytes) : (s.odSet i j v).service = s.service := rfl
@[simp] theorem State.odSet_fns (i j : Nat) (v : Bytes) : (s.odSet i j v).fns = s.fns := rfl
@[simp] theorem State.odSet_link (i j : Nat) (v : Bytes) : (s.odSet i j v).link = s.link := rfl
@[simp] theorem State.odSet_rings (i j : Nat) (v : Bytes) : (s.odSet i j v).rings = s.rings := rfl
@[simp] theorem State.odSet_groups (i j : Nat) (v : Bytes) : (s.odSet i j v).groups = s.groups := rfl
@[simp] theorem State.odSet_adm (i j : Nat) (v : Bytes) : (s.odSet i j v).adm = s.adm := rfl
@[simp] theorem State.odSet_commit (i j : Nat) (v : Bytes) : (s.odSet i j v).commit = s.commit := rfl
@[simp] theorem State.odSet_keys (i j : Nat) (v : Bytes) : (s.odSet i j v).keys = s.keys := rfl
@[simp] theorem State.odSet_parts (i j : Nat) (v : Bytes) : (s.odSet i j v).parts = s.parts := rfl
@[simp] theorem State.odSet_meas (i j : Nat) (v : Bytes) : (s.odSet i j v).meas = s.meas := rfl
@[simp] theorem State.odSet_quorum (i j : Nat) (v : Bytes) : (s.odSet i j v).quorum = s.quorum := rfl
@[simp] theorem State.odSet_resv (i j : Nat) (v : Bytes) : (s.odSet i j v).resv = s.resv := rfl
@[simp] theorem State.odSet_atcResv (i j : Nat) (v : Bytes) : (s.odSet i j v).atcResv = s.atcResv := rfl
@[simp] theorem State.odSet_units (i j : Nat) (v : Bytes) : (s.odSet i j v).units = s.units := rfl
@[simp] theorem State.odSet_entropy (i j : Nat) (v : Bytes) : (s.odSet i j v).entropy = s.entropy := rfl
@[simp] theorem State.odSet_eic (i j : Nat) (v : Bytes) : (s.odSet i j v).eic = s.eic := rfl
@[simp] theorem State.odSet_tamper (i j : Nat) (v : Bytes) : (s.odSet i j v).tamper = s.tamper := rfl
@[simp] theorem State.odSet_life (i j : Nat) (v : Bytes) : (s.odSet i j v).life = s.life := rfl
@[simp] theorem State.odSet_power (i j : Nat) (v : Bytes) : (s.odSet i j v).power = s.power := rfl
@[simp] theorem State.odSet_seam (i j : Nat) (v : Bytes) : (s.odSet i j v).seam = s.seam := rfl
@[simp] theorem State.odSet_pair (i j : Nat) (v : Bytes) : (s.odSet i j v).pair = s.pair := rfl
@[simp] theorem State.odSet_log (i j : Nat) (v : Bytes) : (s.odSet i j v).log = s.log := rfl
@[simp] theorem State.odSet_tele (i j : Nat) (v : Bytes) : (s.odSet i j v).tele = s.tele := rfl
@[simp] theorem State.odSet_bus (i j : Nat) (v : Bytes) : (s.odSet i j v).bus = s.bus := rfl
@[simp] theorem State.odSet_pending (i j : Nat) (v : Bytes) : (s.odSet i j v).pending = s.pending := rfl
@[simp] theorem State.odSet_od_change (i j : Nat) (v : Bytes) : (s.odSet i j v).od.change = s.od.change := rfl
@[simp] theorem State.odSet_od_sessions (i j : Nat) (v : Bytes) : (s.odSet i j v).od.sessions = s.od.sessions := rfl
@[simp] theorem State.odSet_od_nextSess (i j : Nat) (v : Bytes) : (s.odSet i j v).od.nextSess = s.od.nextSess := rfl
@[simp] theorem State.odSet_od_failures (i j : Nat) (v : Bytes) : (s.odSet i j v).od.failures = s.od.failures := rfl
@[simp] theorem State.odSet_od_fails (i j : Nat) (v : Bytes) : (s.odSet i j v).od.fails = s.od.fails := rfl
@[simp] theorem State.odSet_od_barred (i j : Nat) (v : Bytes) : (s.odSet i j v).od.barred = s.od.barred := rfl
@[simp] theorem State.odSet_od_reqLen (i j : Nat) (v : Bytes) : (s.odSet i j v).od.reqLen = s.od.reqLen := rfl
@[simp] theorem State.odSet_od_replyLen (i j : Nat) (v : Bytes) : (s.odSet i j v).od.replyLen = s.od.replyLen := rfl
@[simp] theorem State.odSet_od_replyUp (i j : Nat) (v : Bytes) : (s.odSet i j v).od.replyUp = s.od.replyUp := rfl
@[simp] theorem State.odSet_od_busy (i j : Nat) (v : Bytes) : (s.odSet i j v).od.busy = s.od.busy := rfl
@[simp] theorem State.odSet_od_rejected (i j : Nat) (v : Bytes) : (s.odSet i j v).od.rejected = s.od.rejected := rfl
@[simp] theorem State.odSet_od_reqBuf (i j : Nat) (v : Bytes) : (s.odSet i j v).od.reqBuf = s.od.reqBuf := rfl
@[simp] theorem State.odSet_od_replyBuf (i j : Nat) (v : Bytes) : (s.odSet i j v).od.replyBuf = s.od.replyBuf := rfl
@[simp] theorem State.odSet_od_dropReply (i j : Nat) (v : Bytes) : (s.odSet i j v).od.dropReply = s.od.dropReply := rfl
@[simp] theorem State.odSet_od_inbox (i j : Nat) (v : Bytes) : (s.odSet i j v).od.inbox = s.od.inbox := rfl
@[simp] theorem State.odSet_od_mgmtUp (i j : Nat) (v : Bytes) : (s.odSet i j v).od.mgmtUp = s.od.mgmtUp := rfl
@[simp] theorem State.odSet_od_quotas (i j : Nat) (v : Bytes) : (s.odSet i j v).od.quotas = s.od.quotas := rfl
@[simp] theorem State.odSet_od_cfgWait (i j : Nat) (v : Bytes) : (s.odSet i j v).od.cfgWait = s.od.cfgWait := rfl
@[simp] theorem State.odSet_od_relays (i j : Nat) (v : Bytes) : (s.odSet i j v).od.relays = s.od.relays := rfl

/-! ### modEntropy -/

@[simp] theorem State.modEntropy_opUs (f : Entropy → Entropy) : (s.modEntropy f).opUs = s.opUs := rfl
@[simp] theorem State.modEntropy_timeUs (f : Entropy → Entropy) : (s.modEntropy f).timeUs = s.timeUs := rfl
@[simp] theorem State.modEntropy_free (f : Entropy → Entropy) : (s.modEntropy f).free = s.free := rfl
@[simp] theorem State.modEntropy_service (f : Entropy → Entropy) : (s.modEntropy f).service = s.service := rfl
@[simp] theorem State.modEntropy_fns (f : Entropy → Entropy) : (s.modEntropy f).fns = s.fns := rfl
@[simp] theorem State.modEntropy_link (f : Entropy → Entropy) : (s.modEntropy f).link = s.link := rfl
@[simp] theorem State.modEntropy_rings (f : Entropy → Entropy) : (s.modEntropy f).rings = s.rings := rfl
@[simp] theorem State.modEntropy_groups (f : Entropy → Entropy) : (s.modEntropy f).groups = s.groups := rfl
@[simp] theorem State.modEntropy_adm (f : Entropy → Entropy) : (s.modEntropy f).adm = s.adm := rfl
@[simp] theorem State.modEntropy_commit (f : Entropy → Entropy) : (s.modEntropy f).commit = s.commit := rfl
@[simp] theorem State.modEntropy_keys (f : Entropy → Entropy) : (s.modEntropy f).keys = s.keys := rfl
@[simp] theorem State.modEntropy_parts (f : Entropy → Entropy) : (s.modEntropy f).parts = s.parts := rfl
@[simp] theorem State.modEntropy_meas (f : Entropy → Entropy) : (s.modEntropy f).meas = s.meas := rfl
@[simp] theorem State.modEntropy_quorum (f : Entropy → Entropy) : (s.modEntropy f).quorum = s.quorum := rfl
@[simp] theorem State.modEntropy_resv (f : Entropy → Entropy) : (s.modEntropy f).resv = s.resv := rfl
@[simp] theorem State.modEntropy_atcResv (f : Entropy → Entropy) : (s.modEntropy f).atcResv = s.atcResv := rfl
@[simp] theorem State.modEntropy_units (f : Entropy → Entropy) : (s.modEntropy f).units = s.units := rfl
@[simp] theorem State.modEntropy_eic (f : Entropy → Entropy) : (s.modEntropy f).eic = s.eic := rfl
@[simp] theorem State.modEntropy_tamper (f : Entropy → Entropy) : (s.modEntropy f).tamper = s.tamper := rfl
@[simp] theorem State.modEntropy_life (f : Entropy → Entropy) : (s.modEntropy f).life = s.life := rfl
@[simp] theorem State.modEntropy_power (f : Entropy → Entropy) : (s.modEntropy f).power = s.power := rfl
@[simp] theorem State.modEntropy_seam (f : Entropy → Entropy) : (s.modEntropy f).seam = s.seam := rfl
@[simp] theorem State.modEntropy_pair (f : Entropy → Entropy) : (s.modEntropy f).pair = s.pair := rfl
@[simp] theorem State.modEntropy_od (f : Entropy → Entropy) : (s.modEntropy f).od = s.od := rfl
@[simp] theorem State.modEntropy_log (f : Entropy → Entropy) : (s.modEntropy f).log = s.log := rfl
@[simp] theorem State.modEntropy_tele (f : Entropy → Entropy) : (s.modEntropy f).tele = s.tele := rfl
@[simp] theorem State.modEntropy_bus (f : Entropy → Entropy) : (s.modEntropy f).bus = s.bus := rfl
@[simp] theorem State.modEntropy_pending (f : Entropy → Entropy) : (s.modEntropy f).pending = s.pending := rfl

/-! ### modLink -/

@[simp] theorem State.modLink_opUs (f : Link → Link) : (s.modLink f).opUs = s.opUs := rfl
@[simp] theorem State.modLink_timeUs (f : Link → Link) : (s.modLink f).timeUs = s.timeUs := rfl
@[simp] theorem State.modLink_free (f : Link → Link) : (s.modLink f).free = s.free := rfl
@[simp] theorem State.modLink_service (f : Link → Link) : (s.modLink f).service = s.service := rfl
@[simp] theorem State.modLink_fns (f : Link → Link) : (s.modLink f).fns = s.fns := rfl
@[simp] theorem State.modLink_rings (f : Link → Link) : (s.modLink f).rings = s.rings := rfl
@[simp] theorem State.modLink_groups (f : Link → Link) : (s.modLink f).groups = s.groups := rfl
@[simp] theorem State.modLink_adm (f : Link → Link) : (s.modLink f).adm = s.adm := rfl
@[simp] theorem State.modLink_commit (f : Link → Link) : (s.modLink f).commit = s.commit := rfl
@[simp] theorem State.modLink_keys (f : Link → Link) : (s.modLink f).keys = s.keys := rfl
@[simp] theorem State.modLink_parts (f : Link → Link) : (s.modLink f).parts = s.parts := rfl
@[simp] theorem State.modLink_meas (f : Link → Link) : (s.modLink f).meas = s.meas := rfl
@[simp] theorem State.modLink_quorum (f : Link → Link) : (s.modLink f).quorum = s.quorum := rfl
@[simp] theorem State.modLink_resv (f : Link → Link) : (s.modLink f).resv = s.resv := rfl
@[simp] theorem State.modLink_atcResv (f : Link → Link) : (s.modLink f).atcResv = s.atcResv := rfl
@[simp] theorem State.modLink_units (f : Link → Link) : (s.modLink f).units = s.units := rfl
@[simp] theorem State.modLink_entropy (f : Link → Link) : (s.modLink f).entropy = s.entropy := rfl
@[simp] theorem State.modLink_eic (f : Link → Link) : (s.modLink f).eic = s.eic := rfl
@[simp] theorem State.modLink_tamper (f : Link → Link) : (s.modLink f).tamper = s.tamper := rfl
@[simp] theorem State.modLink_life (f : Link → Link) : (s.modLink f).life = s.life := rfl
@[simp] theorem State.modLink_power (f : Link → Link) : (s.modLink f).power = s.power := rfl
@[simp] theorem State.modLink_seam (f : Link → Link) : (s.modLink f).seam = s.seam := rfl
@[simp] theorem State.modLink_pair (f : Link → Link) : (s.modLink f).pair = s.pair := rfl
@[simp] theorem State.modLink_od (f : Link → Link) : (s.modLink f).od = s.od := rfl
@[simp] theorem State.modLink_log (f : Link → Link) : (s.modLink f).log = s.log := rfl
@[simp] theorem State.modLink_tele (f : Link → Link) : (s.modLink f).tele = s.tele := rfl
@[simp] theorem State.modLink_bus (f : Link → Link) : (s.modLink f).bus = s.bus := rfl
@[simp] theorem State.modLink_pending (f : Link → Link) : (s.modLink f).pending = s.pending := rfl

/-! ### modOd -/

@[simp] theorem State.modOd_opUs (f : Od → Od) : (s.modOd f).opUs = s.opUs := rfl
@[simp] theorem State.modOd_timeUs (f : Od → Od) : (s.modOd f).timeUs = s.timeUs := rfl
@[simp] theorem State.modOd_free (f : Od → Od) : (s.modOd f).free = s.free := rfl
@[simp] theorem State.modOd_service (f : Od → Od) : (s.modOd f).service = s.service := rfl
@[simp] theorem State.modOd_fns (f : Od → Od) : (s.modOd f).fns = s.fns := rfl
@[simp] theorem State.modOd_link (f : Od → Od) : (s.modOd f).link = s.link := rfl
@[simp] theorem State.modOd_rings (f : Od → Od) : (s.modOd f).rings = s.rings := rfl
@[simp] theorem State.modOd_groups (f : Od → Od) : (s.modOd f).groups = s.groups := rfl
@[simp] theorem State.modOd_adm (f : Od → Od) : (s.modOd f).adm = s.adm := rfl
@[simp] theorem State.modOd_commit (f : Od → Od) : (s.modOd f).commit = s.commit := rfl
@[simp] theorem State.modOd_keys (f : Od → Od) : (s.modOd f).keys = s.keys := rfl
@[simp] theorem State.modOd_parts (f : Od → Od) : (s.modOd f).parts = s.parts := rfl
@[simp] theorem State.modOd_meas (f : Od → Od) : (s.modOd f).meas = s.meas := rfl
@[simp] theorem State.modOd_quorum (f : Od → Od) : (s.modOd f).quorum = s.quorum := rfl
@[simp] theorem State.modOd_resv (f : Od → Od) : (s.modOd f).resv = s.resv := rfl
@[simp] theorem State.modOd_atcResv (f : Od → Od) : (s.modOd f).atcResv = s.atcResv := rfl
@[simp] theorem State.modOd_units (f : Od → Od) : (s.modOd f).units = s.units := rfl
@[simp] theorem State.modOd_entropy (f : Od → Od) : (s.modOd f).entropy = s.entropy := rfl
@[simp] theorem State.modOd_eic (f : Od → Od) : (s.modOd f).eic = s.eic := rfl
@[simp] theorem State.modOd_tamper (f : Od → Od) : (s.modOd f).tamper = s.tamper := rfl
@[simp] theorem State.modOd_life (f : Od → Od) : (s.modOd f).life = s.life := rfl
@[simp] theorem State.modOd_power (f : Od → Od) : (s.modOd f).power = s.power := rfl
@[simp] theorem State.modOd_seam (f : Od → Od) : (s.modOd f).seam = s.seam := rfl
@[simp] theorem State.modOd_pair (f : Od → Od) : (s.modOd f).pair = s.pair := rfl
@[simp] theorem State.modOd_log (f : Od → Od) : (s.modOd f).log = s.log := rfl
@[simp] theorem State.modOd_tele (f : Od → Od) : (s.modOd f).tele = s.tele := rfl
@[simp] theorem State.modOd_bus (f : Od → Od) : (s.modOd f).bus = s.bus := rfl
@[simp] theorem State.modOd_pending (f : Od → Od) : (s.modOd f).pending = s.pending := rfl

/-! ### modPair -/

@[simp] theorem State.modPair_opUs (f : Pair → Pair) : (s.modPair f).opUs = s.opUs := rfl
@[simp] theorem State.modPair_timeUs (f : Pair → Pair) : (s.modPair f).timeUs = s.timeUs := rfl
@[simp] theorem State.modPair_free (f : Pair → Pair) : (s.modPair f).free = s.free := rfl
@[simp] theorem State.modPair_service (f : Pair → Pair) : (s.modPair f).service = s.service := rfl
@[simp] theorem State.modPair_fns (f : Pair → Pair) : (s.modPair f).fns = s.fns := rfl
@[simp] theorem State.modPair_link (f : Pair → Pair) : (s.modPair f).link = s.link := rfl
@[simp] theorem State.modPair_rings (f : Pair → Pair) : (s.modPair f).rings = s.rings := rfl
@[simp] theorem State.modPair_groups (f : Pair → Pair) : (s.modPair f).groups = s.groups := rfl
@[simp] theorem State.modPair_adm (f : Pair → Pair) : (s.modPair f).adm = s.adm := rfl
@[simp] theorem State.modPair_commit (f : Pair → Pair) : (s.modPair f).commit = s.commit := rfl
@[simp] theorem State.modPair_keys (f : Pair → Pair) : (s.modPair f).keys = s.keys := rfl
@[simp] theorem State.modPair_parts (f : Pair → Pair) : (s.modPair f).parts = s.parts := rfl
@[simp] theorem State.modPair_meas (f : Pair → Pair) : (s.modPair f).meas = s.meas := rfl
@[simp] theorem State.modPair_quorum (f : Pair → Pair) : (s.modPair f).quorum = s.quorum := rfl
@[simp] theorem State.modPair_resv (f : Pair → Pair) : (s.modPair f).resv = s.resv := rfl
@[simp] theorem State.modPair_atcResv (f : Pair → Pair) : (s.modPair f).atcResv = s.atcResv := rfl
@[simp] theorem State.modPair_units (f : Pair → Pair) : (s.modPair f).units = s.units := rfl
@[simp] theorem State.modPair_entropy (f : Pair → Pair) : (s.modPair f).entropy = s.entropy := rfl
@[simp] theorem State.modPair_eic (f : Pair → Pair) : (s.modPair f).eic = s.eic := rfl
@[simp] theorem State.modPair_tamper (f : Pair → Pair) : (s.modPair f).tamper = s.tamper := rfl
@[simp] theorem State.modPair_life (f : Pair → Pair) : (s.modPair f).life = s.life := rfl
@[simp] theorem State.modPair_power (f : Pair → Pair) : (s.modPair f).power = s.power := rfl
@[simp] theorem State.modPair_seam (f : Pair → Pair) : (s.modPair f).seam = s.seam := rfl
@[simp] theorem State.modPair_od (f : Pair → Pair) : (s.modPair f).od = s.od := rfl
@[simp] theorem State.modPair_log (f : Pair → Pair) : (s.modPair f).log = s.log := rfl
@[simp] theorem State.modPair_tele (f : Pair → Pair) : (s.modPair f).tele = s.tele := rfl
@[simp] theorem State.modPair_bus (f : Pair → Pair) : (s.modPair f).bus = s.bus := rfl
@[simp] theorem State.modPair_pending (f : Pair → Pair) : (s.modPair f).pending = s.pending := rfl

/-! ### modQuorum -/

@[simp] theorem State.modQuorum_opUs (f : Quorum → Quorum) : (s.modQuorum f).opUs = s.opUs := rfl
@[simp] theorem State.modQuorum_timeUs (f : Quorum → Quorum) : (s.modQuorum f).timeUs = s.timeUs := rfl
@[simp] theorem State.modQuorum_free (f : Quorum → Quorum) : (s.modQuorum f).free = s.free := rfl
@[simp] theorem State.modQuorum_service (f : Quorum → Quorum) : (s.modQuorum f).service = s.service := rfl
@[simp] theorem State.modQuorum_fns (f : Quorum → Quorum) : (s.modQuorum f).fns = s.fns := rfl
@[simp] theorem State.modQuorum_link (f : Quorum → Quorum) : (s.modQuorum f).link = s.link := rfl
@[simp] theorem State.modQuorum_rings (f : Quorum → Quorum) : (s.modQuorum f).rings = s.rings := rfl
@[simp] theorem State.modQuorum_groups (f : Quorum → Quorum) : (s.modQuorum f).groups = s.groups := rfl
@[simp] theorem State.modQuorum_adm (f : Quorum → Quorum) : (s.modQuorum f).adm = s.adm := rfl
@[simp] theorem State.modQuorum_commit (f : Quorum → Quorum) : (s.modQuorum f).commit = s.commit := rfl
@[simp] theorem State.modQuorum_keys (f : Quorum → Quorum) : (s.modQuorum f).keys = s.keys := rfl
@[simp] theorem State.modQuorum_parts (f : Quorum → Quorum) : (s.modQuorum f).parts = s.parts := rfl
@[simp] theorem State.modQuorum_meas (f : Quorum → Quorum) : (s.modQuorum f).meas = s.meas := rfl
@[simp] theorem State.modQuorum_resv (f : Quorum → Quorum) : (s.modQuorum f).resv = s.resv := rfl
@[simp] theorem State.modQuorum_atcResv (f : Quorum → Quorum) : (s.modQuorum f).atcResv = s.atcResv := rfl
@[simp] theorem State.modQuorum_units (f : Quorum → Quorum) : (s.modQuorum f).units = s.units := rfl
@[simp] theorem State.modQuorum_entropy (f : Quorum → Quorum) : (s.modQuorum f).entropy = s.entropy := rfl
@[simp] theorem State.modQuorum_eic (f : Quorum → Quorum) : (s.modQuorum f).eic = s.eic := rfl
@[simp] theorem State.modQuorum_tamper (f : Quorum → Quorum) : (s.modQuorum f).tamper = s.tamper := rfl
@[simp] theorem State.modQuorum_life (f : Quorum → Quorum) : (s.modQuorum f).life = s.life := rfl
@[simp] theorem State.modQuorum_power (f : Quorum → Quorum) : (s.modQuorum f).power = s.power := rfl
@[simp] theorem State.modQuorum_seam (f : Quorum → Quorum) : (s.modQuorum f).seam = s.seam := rfl
@[simp] theorem State.modQuorum_pair (f : Quorum → Quorum) : (s.modQuorum f).pair = s.pair := rfl
@[simp] theorem State.modQuorum_od (f : Quorum → Quorum) : (s.modQuorum f).od = s.od := rfl
@[simp] theorem State.modQuorum_log (f : Quorum → Quorum) : (s.modQuorum f).log = s.log := rfl
@[simp] theorem State.modQuorum_tele (f : Quorum → Quorum) : (s.modQuorum f).tele = s.tele := rfl
@[simp] theorem State.modQuorum_bus (f : Quorum → Quorum) : (s.modQuorum f).bus = s.bus := rfl
@[simp] theorem State.modQuorum_pending (f : Quorum → Quorum) : (s.modQuorum f).pending = s.pending := rfl

/-! ### modSeam -/

@[simp] theorem State.modSeam_opUs (f : Seam → Seam) : (s.modSeam f).opUs = s.opUs := rfl
@[simp] theorem State.modSeam_timeUs (f : Seam → Seam) : (s.modSeam f).timeUs = s.timeUs := rfl
@[simp] theorem State.modSeam_free (f : Seam → Seam) : (s.modSeam f).free = s.free := rfl
@[simp] theorem State.modSeam_service (f : Seam → Seam) : (s.modSeam f).service = s.service := rfl
@[simp] theorem State.modSeam_fns (f : Seam → Seam) : (s.modSeam f).fns = s.fns := rfl
@[simp] theorem State.modSeam_link (f : Seam → Seam) : (s.modSeam f).link = s.link := rfl
@[simp] theorem State.modSeam_rings (f : Seam → Seam) : (s.modSeam f).rings = s.rings := rfl
@[simp] theorem State.modSeam_groups (f : Seam → Seam) : (s.modSeam f).groups = s.groups := rfl
@[simp] theorem State.modSeam_adm (f : Seam → Seam) : (s.modSeam f).adm = s.adm := rfl
@[simp] theorem State.modSeam_commit (f : Seam → Seam) : (s.modSeam f).commit = s.commit := rfl
@[simp] theorem State.modSeam_keys (f : Seam → Seam) : (s.modSeam f).keys = s.keys := rfl
@[simp] theorem State.modSeam_parts (f : Seam → Seam) : (s.modSeam f).parts = s.parts := rfl
@[simp] theorem State.modSeam_meas (f : Seam → Seam) : (s.modSeam f).meas = s.meas := rfl
@[simp] theorem State.modSeam_quorum (f : Seam → Seam) : (s.modSeam f).quorum = s.quorum := rfl
@[simp] theorem State.modSeam_resv (f : Seam → Seam) : (s.modSeam f).resv = s.resv := rfl
@[simp] theorem State.modSeam_atcResv (f : Seam → Seam) : (s.modSeam f).atcResv = s.atcResv := rfl
@[simp] theorem State.modSeam_units (f : Seam → Seam) : (s.modSeam f).units = s.units := rfl
@[simp] theorem State.modSeam_entropy (f : Seam → Seam) : (s.modSeam f).entropy = s.entropy := rfl
@[simp] theorem State.modSeam_eic (f : Seam → Seam) : (s.modSeam f).eic = s.eic := rfl
@[simp] theorem State.modSeam_tamper (f : Seam → Seam) : (s.modSeam f).tamper = s.tamper := rfl
@[simp] theorem State.modSeam_life (f : Seam → Seam) : (s.modSeam f).life = s.life := rfl
@[simp] theorem State.modSeam_power (f : Seam → Seam) : (s.modSeam f).power = s.power := rfl
@[simp] theorem State.modSeam_pair (f : Seam → Seam) : (s.modSeam f).pair = s.pair := rfl
@[simp] theorem State.modSeam_od (f : Seam → Seam) : (s.modSeam f).od = s.od := rfl
@[simp] theorem State.modSeam_log (f : Seam → Seam) : (s.modSeam f).log = s.log := rfl
@[simp] theorem State.modSeam_tele (f : Seam → Seam) : (s.modSeam f).tele = s.tele := rfl
@[simp] theorem State.modSeam_bus (f : Seam → Seam) : (s.modSeam f).bus = s.bus := rfl
@[simp] theorem State.modSeam_pending (f : Seam → Seam) : (s.modSeam f).pending = s.pending := rfl

/-! ### modTamper -/

@[simp] theorem State.modTamper_opUs (f : Tamper → Tamper) : (s.modTamper f).opUs = s.opUs := rfl
@[simp] theorem State.modTamper_timeUs (f : Tamper → Tamper) : (s.modTamper f).timeUs = s.timeUs := rfl
@[simp] theorem State.modTamper_free (f : Tamper → Tamper) : (s.modTamper f).free = s.free := rfl
@[simp] theorem State.modTamper_service (f : Tamper → Tamper) : (s.modTamper f).service = s.service := rfl
@[simp] theorem State.modTamper_fns (f : Tamper → Tamper) : (s.modTamper f).fns = s.fns := rfl
@[simp] theorem State.modTamper_link (f : Tamper → Tamper) : (s.modTamper f).link = s.link := rfl
@[simp] theorem State.modTamper_rings (f : Tamper → Tamper) : (s.modTamper f).rings = s.rings := rfl
@[simp] theorem State.modTamper_groups (f : Tamper → Tamper) : (s.modTamper f).groups = s.groups := rfl
@[simp] theorem State.modTamper_adm (f : Tamper → Tamper) : (s.modTamper f).adm = s.adm := rfl
@[simp] theorem State.modTamper_commit (f : Tamper → Tamper) : (s.modTamper f).commit = s.commit := rfl
@[simp] theorem State.modTamper_keys (f : Tamper → Tamper) : (s.modTamper f).keys = s.keys := rfl
@[simp] theorem State.modTamper_parts (f : Tamper → Tamper) : (s.modTamper f).parts = s.parts := rfl
@[simp] theorem State.modTamper_meas (f : Tamper → Tamper) : (s.modTamper f).meas = s.meas := rfl
@[simp] theorem State.modTamper_quorum (f : Tamper → Tamper) : (s.modTamper f).quorum = s.quorum := rfl
@[simp] theorem State.modTamper_resv (f : Tamper → Tamper) : (s.modTamper f).resv = s.resv := rfl
@[simp] theorem State.modTamper_atcResv (f : Tamper → Tamper) : (s.modTamper f).atcResv = s.atcResv := rfl
@[simp] theorem State.modTamper_units (f : Tamper → Tamper) : (s.modTamper f).units = s.units := rfl
@[simp] theorem State.modTamper_entropy (f : Tamper → Tamper) : (s.modTamper f).entropy = s.entropy := rfl
@[simp] theorem State.modTamper_eic (f : Tamper → Tamper) : (s.modTamper f).eic = s.eic := rfl
@[simp] theorem State.modTamper_life (f : Tamper → Tamper) : (s.modTamper f).life = s.life := rfl
@[simp] theorem State.modTamper_power (f : Tamper → Tamper) : (s.modTamper f).power = s.power := rfl
@[simp] theorem State.modTamper_seam (f : Tamper → Tamper) : (s.modTamper f).seam = s.seam := rfl
@[simp] theorem State.modTamper_pair (f : Tamper → Tamper) : (s.modTamper f).pair = s.pair := rfl
@[simp] theorem State.modTamper_od (f : Tamper → Tamper) : (s.modTamper f).od = s.od := rfl
@[simp] theorem State.modTamper_log (f : Tamper → Tamper) : (s.modTamper f).log = s.log := rfl
@[simp] theorem State.modTamper_tele (f : Tamper → Tamper) : (s.modTamper f).tele = s.tele := rfl
@[simp] theorem State.modTamper_bus (f : Tamper → Tamper) : (s.modTamper f).bus = s.bus := rfl
@[simp] theorem State.modTamper_pending (f : Tamper → Tamper) : (s.modTamper f).pending = s.pending := rfl

/-! ### modLife -/

@[simp] theorem State.modLife_opUs (f : LifeCycle → LifeCycle) : (s.modLife f).opUs = s.opUs := rfl
@[simp] theorem State.modLife_timeUs (f : LifeCycle → LifeCycle) : (s.modLife f).timeUs = s.timeUs := rfl
@[simp] theorem State.modLife_free (f : LifeCycle → LifeCycle) : (s.modLife f).free = s.free := rfl
@[simp] theorem State.modLife_service (f : LifeCycle → LifeCycle) : (s.modLife f).service = s.service := rfl
@[simp] theorem State.modLife_fns (f : LifeCycle → LifeCycle) : (s.modLife f).fns = s.fns := rfl
@[simp] theorem State.modLife_link (f : LifeCycle → LifeCycle) : (s.modLife f).link = s.link := rfl
@[simp] theorem State.modLife_rings (f : LifeCycle → LifeCycle) : (s.modLife f).rings = s.rings := rfl
@[simp] theorem State.modLife_groups (f : LifeCycle → LifeCycle) : (s.modLife f).groups = s.groups := rfl
@[simp] theorem State.modLife_adm (f : LifeCycle → LifeCycle) : (s.modLife f).adm = s.adm := rfl
@[simp] theorem State.modLife_commit (f : LifeCycle → LifeCycle) : (s.modLife f).commit = s.commit := rfl
@[simp] theorem State.modLife_keys (f : LifeCycle → LifeCycle) : (s.modLife f).keys = s.keys := rfl
@[simp] theorem State.modLife_parts (f : LifeCycle → LifeCycle) : (s.modLife f).parts = s.parts := rfl
@[simp] theorem State.modLife_meas (f : LifeCycle → LifeCycle) : (s.modLife f).meas = s.meas := rfl
@[simp] theorem State.modLife_quorum (f : LifeCycle → LifeCycle) : (s.modLife f).quorum = s.quorum := rfl
@[simp] theorem State.modLife_resv (f : LifeCycle → LifeCycle) : (s.modLife f).resv = s.resv := rfl
@[simp] theorem State.modLife_atcResv (f : LifeCycle → LifeCycle) : (s.modLife f).atcResv = s.atcResv := rfl
@[simp] theorem State.modLife_units (f : LifeCycle → LifeCycle) : (s.modLife f).units = s.units := rfl
@[simp] theorem State.modLife_entropy (f : LifeCycle → LifeCycle) : (s.modLife f).entropy = s.entropy := rfl
@[simp] theorem State.modLife_eic (f : LifeCycle → LifeCycle) : (s.modLife f).eic = s.eic := rfl
@[simp] theorem State.modLife_tamper (f : LifeCycle → LifeCycle) : (s.modLife f).tamper = s.tamper := rfl
@[simp] theorem State.modLife_power (f : LifeCycle → LifeCycle) : (s.modLife f).power = s.power := rfl
@[simp] theorem State.modLife_seam (f : LifeCycle → LifeCycle) : (s.modLife f).seam = s.seam := rfl
@[simp] theorem State.modLife_pair (f : LifeCycle → LifeCycle) : (s.modLife f).pair = s.pair := rfl
@[simp] theorem State.modLife_od (f : LifeCycle → LifeCycle) : (s.modLife f).od = s.od := rfl
@[simp] theorem State.modLife_log (f : LifeCycle → LifeCycle) : (s.modLife f).log = s.log := rfl
@[simp] theorem State.modLife_tele (f : LifeCycle → LifeCycle) : (s.modLife f).tele = s.tele := rfl
@[simp] theorem State.modLife_bus (f : LifeCycle → LifeCycle) : (s.modLife f).bus = s.bus := rfl
@[simp] theorem State.modLife_pending (f : LifeCycle → LifeCycle) : (s.modLife f).pending = s.pending := rfl

/-! ### Look-ups after an update -/

@[simp] theorem State.modFn_fn_self (n : Nat) (f : Fn → Fn) : (s.modFn n f).fn n = f (s.fn n) := by
  simp [State.modFn, State.fn]
theorem State.modFn_fn (n m : Nat) (f : Fn → Fn) : (s.modFn n f).fn m = if m = n then f (s.fn n) else s.fn m := by
  simp only [State.modFn, State.fn, tgetD_tset]
@[simp] theorem State.modRing_ring_self (n : Nat) (f : Ring → Ring) : (s.modRing n f).ring n = f (s.ring n) := by
  simp [State.modRing, State.ring]
theorem State.modRing_ring (n m : Nat) (f : Ring → Ring) : (s.modRing n f).ring m = if m = n then f (s.ring n) else s.ring m := by
  simp only [State.modRing, State.ring, tgetD_tset]
@[simp] theorem State.modGroup_group_self (n : Nat) (f : Group → Group) : (s.modGroup n f).group n = f (s.group n) := by
  simp [State.modGroup, State.group]
theorem State.modGroup_group (n m : Nat) (f : Group → Group) : (s.modGroup n f).group m = if m = n then f (s.group n) else s.group m := by
  simp only [State.modGroup, State.group, tgetD_tset]
@[simp] theorem State.modPart_part_self (n : Nat) (f : Part → Part) : (s.modPart n f).part n = f (s.part n) := by
  simp [State.modPart, State.part]
theorem State.modPart_part (n m : Nat) (f : Part → Part) : (s.modPart n f).part m = if m = n then f (s.part n) else s.part m := by
  simp only [State.modPart, State.part, tgetD_tset]
@[simp] theorem State.modLane_lane_self (n : Nat) (f : Lane → Lane) : (s.modLane n f).lane n = f (s.lane n) := by
  simp [State.modLane, State.lane]
theorem State.modLane_lane (n m : Nat) (f : Lane → Lane) : (s.modLane n f).lane m = if m = n then f (s.lane n) else s.lane m := by
  simp only [State.modLane, State.lane, tgetD_tset]
@[simp] theorem State.modHash_hash_self (n : Nat) (f : HashUnit → HashUnit) : (s.modHash n f).hash n = f (s.hash n) := by
  simp [State.modHash, State.hash]
theorem State.modHash_hash (n m : Nat) (f : HashUnit → HashUnit) : (s.modHash n f).hash m = if m = n then f (s.hash n) else s.hash m := by
  simp only [State.modHash, State.hash, tgetD_tset]
@[simp] theorem State.modEngine_engine_self (n : Nat) (f : Engine → Engine) : (s.modEngine n f).engine n = f (s.engine n) := by
  simp [State.modEngine, State.engine]
theorem State.modEngine_engine (n m : Nat) (f : Engine → Engine) : (s.modEngine n f).engine m = if m = n then f (s.engine n) else s.engine m := by
  simp only [State.modEngine, State.engine, tgetD_tset]
@[simp] theorem State.modPlume_plume_self (n : Nat) (f : Plume → Plume) : (s.modPlume n f).plume n = f (s.plume n) := by
  simp [State.modPlume, State.plume]
theorem State.modPlume_plume (n m : Nat) (f : Plume → Plume) : (s.modPlume n f).plume m = if m = n then f (s.plume n) else s.plume m := by
  simp only [State.modPlume, State.plume, tgetD_tset]
@[simp] theorem State.modCore_core_self (n : Nat) (f : Core → Core) : (s.modCore n f).core n = f (s.core n) := by
  simp [State.modCore, State.core]
theorem State.modCore_core (n m : Nat) (f : Core → Core) : (s.modCore n f).core m = if m = n then f (s.core n) else s.core m := by
  simp only [State.modCore, State.core, tgetD_tset]
@[simp] theorem State.modPort_port_self (n : Nat) (f : Port → Port) : (s.modPort n f).port n = f (s.port n) := by
  simp [State.modPort, State.port]
theorem State.modPort_port (n m : Nat) (f : Port → Port) : (s.modPort n f).port m = if m = n then f (s.port n) else s.port m := by
  simp only [State.modPort, State.port, tgetD_tset]
theorem State.modSlot_slot (n m : Nat) (f : Slot → Slot) :
    (s.modSlot n f).slot m = if m = n then (s.slot n).map f else s.slot m := by
  unfold State.modSlot
  split
  · rename_i h; split <;> simp_all
  · rename_i x h
    simp only [State.slot, tget_tset] at h ⊢
    split <;> simp [h]

@[simp] theorem State.modSlot_slot_self (n : Nat) (f : Slot → Slot) : (s.modSlot n f).slot n = (s.slot n).map f := by
  simp [State.modSlot_slot]

/-- A value stored in the object dictionary reads back, and every other entry reads as before (R566). -/
theorem State.odSet_odGet (i j k l : Nat) (v : Bytes) :
    (s.odSet i j v).odGet k l = if odKey k l = odKey i j then v else s.odGet k l := by
  simp only [State.odSet, State.odGet, tget_tset]
  split <;> rfl

end Sys2Proof.Machine
end

