-- ==== Sys2Proof/Laws/Ops.lean ====
section
/-! SUPPORT. What the shared operations can do: each lemma says once which parts of the state an operation may change. -/

namespace Sys2Proof.Machine

/-! ### Folds -/

/-- A relation that is reflexive and transitive holds over a fold whose every step has it. -/
theorem foldl_rel {α : Type} {P : State → State → Prop} (hr : ∀ s, P s s) (ht : ∀ a b c, P a b → P b c → P a c)
    (g : State → α → State) (hg : ∀ t a, P t (g t a)) (l : List α) (s : State) : P s (l.foldl g s) := by
  induction l generalizing s with
  | nil => exact hr s
  | cons a l ih => exact ht _ _ _ (hg s a) (ih _)

/-- What no step of a fold changes, the fold does not change. -/
theorem foldl_keep {α β : Type} (p : State → β) (g : State → α → State) (hg : ∀ t a, p (g t a) = p t) (l : List α) (s : State) :
    p (l.foldl g s) = p s :=
  foldl_rel (P := fun a b => p b = p a) (fun _ => rfl) (fun _ _ _ h1 h2 => h2.trans h1) g hg l s

/-! ### Events and records -/

theorem raiseHost_only (s : State) (n : Nat) : ∃ e, raiseHost s n = { s with eic := e } := by
  unfold raiseHost
  split
  · exact ⟨_, rfl⟩
  · dsimp only
    split
    · exact ⟨_, rfl⟩
    · split <;> exact ⟨_, rfl⟩

theorem latchWake_only (s : State) (n : Nat) : ∃ e, latchWake s n = { s with eic := e } := by
  unfold latchWake
  split <;> exact ⟨_, rfl⟩

theorem rouse_only (s : State) : ∃ e, rouse s = { s with eic := e } := by
  unfold rouse
  split <;> exact ⟨_, rfl⟩

theorem pendCore_only (s : State) (n : Nat) : ∃ e, pendCore s n = { s with eic := e } := by
  unfold pendCore
  split <;> exact ⟨_, rfl⟩

/-- Raising an event changes only the event controller (R396, R414). -/
theorem raise_only (s : State) (n : Nat) : ∃ e, raise s n = { s with eic := e } := by
  unfold raise
  split
  · exact ⟨_, rfl⟩
  · split
    · exact latchWake_only s n
    · obtain ⟨e, h⟩ := pendCore_only (rouse s) n
      obtain ⟨e0, h0⟩ := rouse_only s
      rw [h0] at h
      dsimp only
      rw [h0, h]
      split
      · exact raiseHost_only _ n
      · exact ⟨_, rfl⟩

theorem noteEligible_only (s t : State) : ∃ e, noteEligible s t = { t with eic := e } := by
  unfold noteEligible
  split
  · exact ⟨_, rfl⟩
  · exact raise_only t _

/-- Announcing a change of service changes only the event controller (R395). -/
theorem noteService_only (s t : State) : ∃ e, noteService s t = { t with eic := e } := by
  unfold noteService
  dsimp only
  obtain ⟨e, h⟩ := noteEligible_only s t
  split
  · exact ⟨e, h⟩
  · obtain ⟨e', h'⟩ := raise_only (noteEligible s t) 1024
    exact ⟨e', by rw [h', h]⟩

theorem noteFunctions_only (s t : State) : ∃ e, noteFunctions s t = { t with eic := e } := by
  unfold noteFunctions
  split
  · exact ⟨_, rfl⟩
  · exact raise_only t _

theorem groupEvent_only (s : State) (g : Nat) : ∃ e, groupEvent s g = { s with eic := e } := by
  unfold groupEvent
  split
  · exact ⟨_, rfl⟩
  · exact raise_only s _

/-- Reporting drops changes only the log (R595). -/
theorem reportDrops_only (s : State) : ∃ l, reportDrops s = { s with log := l } := ⟨_, rfl⟩

/-- Flushing changes only the log (R591). -/
theorem flushLog_only (s : State) (one : Bool) : ∃ l, flushLog s one = { s with log := l } := ⟨_, rfl⟩

/-- The flush that a record brings on changes only the log (R591). -/
theorem settleLog_only (s : State) : ∃ l, settleLog s = { s with log := l } := by
  unfold settleLog
  split
  · exact flushLog_only s false
  · exact ⟨_, rfl⟩

theorem noteReturn_only (s : State) : ∃ l, noteReturn s = { s with log := l } := by
  unfold noteReturn
  split
  · exact reportDrops_only s
  · exact ⟨_, rfl⟩

/-- Making a record changes only the log (R589, R590). -/
theorem logMain_only (s : State) (a b c d e : Nat) (x : Bytes) : ∃ l, logMain s a b c d e x = { s with log := l } := by
  unfold logMain
  dsimp only
  split
  · split <;> exact ⟨_, rfl⟩
  · obtain ⟨l, h⟩ := noteReturn_only s
    rw [h]
    exact settleLog_only { s with log := _ }

theorem logRepeat_only (s : State) (r a b c d e : Nat) (x : Bytes) : ∃ l, logRepeat s r a b c d e x = { s with log := l } := by
  unfold logRepeat
  dsimp only
  split
  · exact ⟨_, rfl⟩
  · split
    · split
      · exact settleLog_only { s with log := _ }
      · exact settleLog_only { s with log := _ }
    · exact ⟨_, rfl⟩

theorem logCocoon_only (s : State) (a b c d e : Nat) (x : Bytes) : ∃ l, logCocoon s a b c d e x = { s with log := l } :=
  logRepeat_only s 0 a b c d e x

/-! ### Ending a descriptor -/

/-- Two states that differ at most in the descriptors in flight and what they hold: slots, rings, units, reservations, entropy,
partitions, the log and the event controller. -/
def WorkOnly (s t : State) : Prop :=
  ∃ a r u v c e p l i, t = { s with adm := a, rings := r, units := u, resv := v, atcResv := c, entropy := e, parts := p, log := l, eic := i }

theorem WorkOnly.refl (s : State) : WorkOnly s s := ⟨_, _, _, _, _, _, _, _, _, rfl⟩

theorem WorkOnly.trans {a b c : State} (h : WorkOnly a b) (h' : WorkOnly b c) : WorkOnly a c := by
  obtain ⟨_, _, _, _, _, _, _, _, _, rfl⟩ := h
  obtain ⟨_, _, _, _, _, _, _, _, _, rfl⟩ := h'
  exact ⟨_, _, _, _, _, _, _, _, _, rfl⟩

theorem WorkOnly.fold {α : Type} {g : State → α → State} (hg : ∀ t a, WorkOnly t (g t a)) (l : List α) (s : State) :
    WorkOnly s (l.foldl g s) := foldl_rel WorkOnly.refl (fun _ _ _ => WorkOnly.trans) g hg l s

theorem WorkOnly.modSlot (s : State) (n : Nat) (f : Slot → Slot) : WorkOnly s (s.modSlot n f) := by
  unfold State.modSlot; split <;> exact ⟨_, _, _, _, _, _, _, _, _, rfl⟩
theorem WorkOnly.modRing (s : State) (n : Nat) (f : Ring → Ring) : WorkOnly s (s.modRing n f) := ⟨_, _, _, _, _, _, _, _, _, rfl⟩
theorem WorkOnly.modPart (s : State) (n : Nat) (f : Part → Part) : WorkOnly s (s.modPart n f) := ⟨_, _, _, _, _, _, _, _, _, rfl⟩
theorem WorkOnly.modLane (s : State) (n : Nat) (f : Lane → Lane) : WorkOnly s (s.modLane n f) := ⟨_, _, _, _, _, _, _, _, _, rfl⟩
theorem WorkOnly.modHash (s : State) (n : Nat) (f : HashUnit → HashUnit) : WorkOnly s (s.modHash n f) := ⟨_, _, _, _, _, _, _, _, _, rfl⟩
theorem WorkOnly.modEngine (s : State) (n : Nat) (f : Engine → Engine) : WorkOnly s (s.modEngine n f) := ⟨_, _, _, _, _, _, _, _, _, rfl⟩
theorem WorkOnly.modPlume (s : State) (n : Nat) (f : Plume → Plume) : WorkOnly s (s.modPlume n f) := ⟨_, _, _, _, _, _, _, _, _, rfl⟩
theorem WorkOnly.modEntropy (s : State) (f : Entropy → Entropy) : WorkOnly s (s.modEntropy f) := ⟨_, _, _, _, _, _, _, _, _, rfl⟩

theorem WorkOnly.log (s : State) (a b c d e : Nat) (x : Bytes) : WorkOnly s (logMain s a b c d e x) := by
  obtain ⟨l, h⟩ := logMain_only s a b c d e x
  rw [h]; exact ⟨_, _, _, _, _, _, _, _, _, rfl⟩

theorem WorkOnly.raise (s : State) (n : Nat) : WorkOnly s (raise s n) := by
  obtain ⟨e, h⟩ := raise_only s n
  rw [h]; exact ⟨_, _, _, _, _, _, _, _, _, rfl⟩

/-- A descriptor's final status touches nothing but its slot (R110). -/
theorem WorkOnly.finish (s : State) (n : Nat) (st : Status) (d : Nat) : WorkOnly s (finish s n st d) := WorkOnly.modSlot s n _

theorem WorkOnly.startEngine (s : State) (e : Nat) : WorkOnly s (startEngine s e) := by
  unfold Machine.startEngine
  split
  · exact WorkOnly.refl s
  · split
    · exact WorkOnly.modEngine s _ _
    · split
      · exact WorkOnly.refl s
      · exact WorkOnly.modEngine s _ _

theorem WorkOnly.unqueue (s : State) (n : Nat) (u : UnitClass × Nat) : WorkOnly s (unqueue s n u) := by
  unfold Machine.unqueue
  split
  · exact WorkOnly.modLane s _ _
  · exact (WorkOnly.modHash s _ _).trans (WorkOnly.modHash _ _ _)
  · exact (WorkOnly.modEngine s _ _).trans (WorkOnly.startEngine _ _)
  · exact (WorkOnly.modPlume s _ _).trans (WorkOnly.modPlume _ _ _)

theorem WorkOnly.unusePage (s : State) (u : PageUse) : WorkOnly s (unusePage s u) := by
  unfold Machine.unusePage
  split
  · exact WorkOnly.refl s
  · exact WorkOnly.modLane s _ _

theorem WorkOnly.unreserve (s : State) (n : Nat) : WorkOnly s (unreserve s n) := by
  unfold Machine.unreserve
  split
  · exact WorkOnly.refl s
  · split <;> exact ⟨_, _, _, _, _, _, _, _, _, rfl⟩

theorem WorkOnly.release (s : State) (n : Nat) : WorkOnly s (release s n) := by
  unfold Machine.release
  split
  · exact WorkOnly.refl s
  · extract_lets s1 s2 s3
    have h1 : WorkOnly s s1 := by
      simp only [s1]
      split
      · exact WorkOnly.refl s
      · exact WorkOnly.unqueue s n _
    have h2 : WorkOnly s s2 := h1.trans (WorkOnly.fold WorkOnly.unusePage _ _)
    have h3 : WorkOnly s s3 := by
      simp only [s3]
      split
      · exact h2
      · exact h2.trans (WorkOnly.unreserve s2 _)
    exact h3.trans ⟨_, _, _, _, _, _, _, _, _, rfl⟩

theorem WorkOnly.countDisable (s : State) (p : Nat) (f : Disable → Disable) : WorkOnly s (countDisable s p f) := by
  unfold Machine.countDisable
  split
  · exact WorkOnly.refl s
  · exact WorkOnly.modPart s _ _

/-- Discarding a descriptor touches no key, no committed state and nothing the host sees (R81). -/
theorem WorkOnly.discard (s : State) (n : Nat) : WorkOnly s (discard s n) := by
  unfold Machine.discard
  split
  · exact WorkOnly.refl s
  · exact (WorkOnly.countDisable s _ _).trans (WorkOnly.release _ _)

theorem WorkOnly.closeEngine (s : State) (e : Nat) : WorkOnly s (closeEngine s e) := WorkOnly.modEngine s _ _

theorem WorkOnly.endEntry (s : State) (n : Nat) (x : Slot) (st : Status) : WorkOnly s (endEntry s n x st) := by
  unfold Machine.endEntry
  split
  · exact WorkOnly.modSlot s _ _
  · exact WorkOnly.finish s _ _ _

theorem WorkOnly.failChain (s : State) (n : Nat) : WorkOnly s (failChain s n) := by
  unfold Machine.failChain
  split
  · exact WorkOnly.refl s
  · split
    · exact WorkOnly.refl s
    · refine WorkOnly.fold (fun t e => ?_) _ _
      dsimp only
      have h : WorkOnly t (if opcode e.2.desc == 0x901 && t.holdsSession e.2 then Machine.closeEngine t (e.2.sess % 256) else t) := by
        split
        · exact WorkOnly.closeEngine t _
        · exact WorkOnly.refl t
      split
      · exact h
      · exact h.trans (WorkOnly.endEntry _ _ _ _)

theorem WorkOnly.abortRaw (s : State) (n : Nat) : WorkOnly s (abortRaw s n) := by
  unfold Machine.abortRaw
  split
  · exact WorkOnly.refl s
  · split
    · exact WorkOnly.refl s
    · refine WorkOnly.trans ?_ (WorkOnly.modSlot _ _ _)
      split
      · exact WorkOnly.refl s
      · exact WorkOnly.failChain s n

theorem WorkOnly.closeSession (s : State) (e : Nat) : WorkOnly s (closeSession s e) := by
  unfold Machine.closeSession
  refine WorkOnly.trans ?_ (WorkOnly.closeEngine _ _)
  split
  · exact WorkOnly.refl s
  · exact WorkOnly.abortRaw s _

theorem WorkOnly.closeSessions (s : State) (p : Engine → Bool) : WorkOnly s (closeSessions s p) :=
  WorkOnly.fold WorkOnly.closeSession _ _

/-- A failing descriptor fails its chain and nothing else (R118). -/
theorem WorkOnly.fail (s : State) (n : Nat) (st : Status) (d : Nat) : WorkOnly s (fail s n st d) :=
  (WorkOnly.failChain s n).trans (WorkOnly.finish _ _ _ _)

theorem WorkOnly.stopRing (s : State) (rid : Nat) (g : RingState) : WorkOnly s (stopRing s rid g) := WorkOnly.modRing s _ _

theorem WorkOnly.freeHold (s : State) (p : Nat) : WorkOnly s (freeHold s p) := ⟨_, _, _, _, _, _, _, _, _, rfl⟩

theorem WorkOnly.dropReservation (s : State) (rid : Nat) : WorkOnly s (dropReservation s rid) := by
  unfold Machine.dropReservation
  split
  · exact WorkOnly.freeHold s _
  · split
    · exact WorkOnly.refl s
    · split
      · exact WorkOnly.freeHold s _
      · exact WorkOnly.refl s

theorem WorkOnly.discardAbove (s : State) (rid e : Nat) : WorkOnly s (discardAbove s rid e) := by
  refine WorkOnly.fold (fun t x => ?_) _ _
  split
  · exact WorkOnly.discard t _
  · exact WorkOnly.refl t

theorem WorkOnly.failOpenChains (s : State) (rid : Nat) : WorkOnly s (failOpenChains s rid) := by
  unfold Machine.failOpenChains
  dsimp only
  split
  · exact WorkOnly.refl s
  · refine WorkOnly.fold (fun t x => ?_) _ _
    split
    · split
      · exact WorkOnly.discard t _
      · exact WorkOnly.finish t _ _ _
    · exact WorkOnly.refl t

/-- A ring error stops its ring and ends descriptors; keys, committed state and host memory stand (R132). -/
theorem WorkOnly.ringError (s : State) (rid : Nat) (code : Status) (lo hi : Nat) (e : Option Nat) :
    WorkOnly s (ringError s rid code lo hi e) := by
  unfold Machine.ringError
  dsimp only
  split
  · refine WorkOnly.trans ?_ (WorkOnly.log _ _ _ _ _ _ _)
    refine WorkOnly.trans ?_ (WorkOnly.failOpenChains _ _)
    have h : WorkOnly s ((Machine.stopRing (Machine.dropReservation s rid) rid .error).modRing rid
        (fun r => { r with errCode := code.code, latchLo := lo, latchHi := hi })) :=
      ((WorkOnly.dropReservation s _).trans (WorkOnly.stopRing _ _ _)).trans (WorkOnly.modRing _ _ _)
    split
    · exact h
    · exact h.trans (WorkOnly.discardAbove _ _ _)
  · exact WorkOnly.refl s

theorem WorkOnly.malformed (s : State) (n rid i off : Nat) : WorkOnly s (malformed s n rid i off) := by
  unfold Machine.malformed
  split
  · exact (WorkOnly.fail _ _ _ _).trans (WorkOnly.ringError _ _ _ _ _ _)
  · exact (WorkOnly.failChain s n).trans (WorkOnly.discard _ n)

end Sys2Proof.Machine
end

