-- ==== Sys2Proof/Laws/Frames.lean ====
section
/-! SUPPORT. The fields the shared operations leave alone, one lemma per field per operation, so that no proof unfolds them. -/

namespace Sys2Proof.Machine

variable (s : State)

/-! ### raise -/

@[simp] theorem raise_opUs (n : Nat) : (raise s n).opUs = s.opUs := by obtain ⟨e, h⟩ := raise_only s n; rw [h]
@[simp] theorem raise_timeUs (n : Nat) : (raise s n).timeUs = s.timeUs := by obtain ⟨e, h⟩ := raise_only s n; rw [h]
@[simp] theorem raise_free (n : Nat) : (raise s n).free = s.free := by obtain ⟨e, h⟩ := raise_only s n; rw [h]
@[simp] theorem raise_service (n : Nat) : (raise s n).service = s.service := by obtain ⟨e, h⟩ := raise_only s n; rw [h]
@[simp] theorem raise_fns (n : Nat) : (raise s n).fns = s.fns := by obtain ⟨e, h⟩ := raise_only s n; rw [h]
@[simp] theorem raise_link (n : Nat) : (raise s n).link = s.link := by obtain ⟨e, h⟩ := raise_only s n; rw [h]
@[simp] theorem raise_rings (n : Nat) : (raise s n).rings = s.rings := by obtain ⟨e, h⟩ := raise_only s n; rw [h]
@[simp] theorem raise_groups (n : Nat) : (raise s n).groups = s.groups := by obtain ⟨e, h⟩ := raise_only s n; rw [h]
@[simp] theorem raise_adm (n : Nat) : (raise s n).adm = s.adm := by obtain ⟨e, h⟩ := raise_only s n; rw [h]
@[simp] theorem raise_commit (n : Nat) : (raise s n).commit = s.commit := by obtain ⟨e, h⟩ := raise_only s n; rw [h]
@[simp] theorem raise_keys (n : Nat) : (raise s n).keys = s.keys := by obtain ⟨e, h⟩ := raise_only s n; rw [h]
@[simp] theorem raise_parts (n : Nat) : (raise s n).parts = s.parts := by obtain ⟨e, h⟩ := raise_only s n; rw [h]
@[simp] theorem raise_meas (n : Nat) : (raise s n).meas = s.meas := by obtain ⟨e, h⟩ := raise_only s n; rw [h]
@[simp] theorem raise_quorum (n : Nat) : (raise s n).quorum = s.quorum := by obtain ⟨e, h⟩ := raise_only s n; rw [h]
@[simp] theorem raise_resv (n : Nat) : (raise s n).resv = s.resv := by obtain ⟨e, h⟩ := raise_only s n; rw [h]
@[simp] theorem raise_atcResv (n : Nat) : (raise s n).atcResv = s.atcResv := by obtain ⟨e, h⟩ := raise_only s n; rw [h]
@[simp] theorem raise_units (n : Nat) : (raise s n).units = s.units := by obtain ⟨e, h⟩ := raise_only s n; rw [h]
@[simp] theorem raise_entropy (n : Nat) : (raise s n).entropy = s.entropy := by obtain ⟨e, h⟩ := raise_only s n; rw [h]
@[simp] theorem raise_tamper (n : Nat) : (raise s n).tamper = s.tamper := by obtain ⟨e, h⟩ := raise_only s n; rw [h]
@[simp] theorem raise_life (n : Nat) : (raise s n).life = s.life := by obtain ⟨e, h⟩ := raise_only s n; rw [h]
@[simp] theorem raise_power (n : Nat) : (raise s n).power = s.power := by obtain ⟨e, h⟩ := raise_only s n; rw [h]
@[simp] theorem raise_seam (n : Nat) : (raise s n).seam = s.seam := by obtain ⟨e, h⟩ := raise_only s n; rw [h]
@[simp] theorem raise_pair (n : Nat) : (raise s n).pair = s.pair := by obtain ⟨e, h⟩ := raise_only s n; rw [h]
@[simp] theorem raise_od (n : Nat) : (raise s n).od = s.od := by obtain ⟨e, h⟩ := raise_only s n; rw [h]
@[simp] theorem raise_log (n : Nat) : (raise s n).log = s.log := by obtain ⟨e, h⟩ := raise_only s n; rw [h]
@[simp] theorem raise_tele (n : Nat) : (raise s n).tele = s.tele := by obtain ⟨e, h⟩ := raise_only s n; rw [h]
@[simp] theorem raise_bus (n : Nat) : (raise s n).bus = s.bus := by obtain ⟨e, h⟩ := raise_only s n; rw [h]
@[simp] theorem raise_pending (n : Nat) : (raise s n).pending = s.pending := by obtain ⟨e, h⟩ := raise_only s n; rw [h]

/-! ### groupEvent -/

@[simp] theorem groupEvent_opUs (n : Nat) : (groupEvent s n).opUs = s.opUs := by obtain ⟨e, h⟩ := groupEvent_only s n; rw [h]
@[simp] theorem groupEvent_timeUs (n : Nat) : (groupEvent s n).timeUs = s.timeUs := by obtain ⟨e, h⟩ := groupEvent_only s n; rw [h]
@[simp] theorem groupEvent_free (n : Nat) : (groupEvent s n).free = s.free := by obtain ⟨e, h⟩ := groupEvent_only s n; rw [h]
@[simp] theorem groupEvent_service (n : Nat) : (groupEvent s n).service = s.service := by obtain ⟨e, h⟩ := groupEvent_only s n; rw [h]
@[simp] theorem groupEvent_fns (n : Nat) : (groupEvent s n).fns = s.fns := by obtain ⟨e, h⟩ := groupEvent_only s n; rw [h]
@[simp] theorem groupEvent_link (n : Nat) : (groupEvent s n).link = s.link := by obtain ⟨e, h⟩ := groupEvent_only s n; rw [h]
@[simp] theorem groupEvent_rings (n : Nat) : (groupEvent s n).rings = s.rings := by obtain ⟨e, h⟩ := groupEvent_only s n; rw [h]
@[simp] theorem groupEvent_groups (n : Nat) : (groupEvent s n).groups = s.groups := by obtain ⟨e, h⟩ := groupEvent_only s n; rw [h]
@[simp] theorem groupEvent_adm (n : Nat) : (groupEvent s n).adm = s.adm := by obtain ⟨e, h⟩ := groupEvent_only s n; rw [h]
@[simp] theorem groupEvent_commit (n : Nat) : (groupEvent s n).commit = s.commit := by obtain ⟨e, h⟩ := groupEvent_only s n; rw [h]
@[simp] theorem groupEvent_keys (n : Nat) : (groupEvent s n).keys = s.keys := by obtain ⟨e, h⟩ := groupEvent_only s n; rw [h]
@[simp] theorem groupEvent_parts (n : Nat) : (groupEvent s n).parts = s.parts := by obtain ⟨e, h⟩ := groupEvent_only s n; rw [h]
@[simp] theorem groupEvent_meas (n : Nat) : (groupEvent s n).meas = s.meas := by obtain ⟨e, h⟩ := groupEvent_only s n; rw [h]
@[simp] theorem groupEvent_quorum (n : Nat) : (groupEvent s n).quorum = s.quorum := by obtain ⟨e, h⟩ := groupEvent_only s n; rw [h]
@[simp] theorem groupEvent_resv (n : Nat) : (groupEvent s n).resv = s.resv := by obtain ⟨e, h⟩ := groupEvent_only s n; rw [h]
@[simp] theorem groupEvent_atcResv (n : Nat) : (groupEvent s n).atcResv = s.atcResv := by obtain ⟨e, h⟩ := groupEvent_only s n; rw [h]
@[simp] theorem groupEvent_units (n : Nat) : (groupEvent s n).units = s.units := by obtain ⟨e, h⟩ := groupEvent_only s n; rw [h]
@[simp] theorem groupEvent_entropy (n : Nat) : (groupEvent s n).entropy = s.entropy := by obtain ⟨e, h⟩ := groupEvent_only s n; rw [h]
@[simp] theorem groupEvent_tamper (n : Nat) : (groupEvent s n).tamper = s.tamper := by obtain ⟨e, h⟩ := groupEvent_only s n; rw [h]
@[simp] theorem groupEvent_life (n : Nat) : (groupEvent s n).life = s.life := by obtain ⟨e, h⟩ := groupEvent_only s n; rw [h]
@[simp] theorem groupEvent_power (n : Nat) : (groupEvent s n).power = s.power := by obtain ⟨e, h⟩ := groupEvent_only s n; rw [h]
@[simp] theorem groupEvent_seam (n : Nat) : (groupEvent s n).seam = s.seam := by obtain ⟨e, h⟩ := groupEvent_only s n; rw [h]
@[simp] theorem groupEvent_pair (n : Nat) : (groupEvent s n).pair = s.pair := by obtain ⟨e, h⟩ := groupEvent_only s n; rw [h]
@[simp] theorem groupEvent_od (n : Nat) : (groupEvent s n).od = s.od := by obtain ⟨e, h⟩ := groupEvent_only s n; rw [h]
@[simp] theorem groupEvent_log (n : Nat) : (groupEvent s n).log = s.log := by obtain ⟨e, h⟩ := groupEvent_only s n; rw [h]
@[simp] theorem groupEvent_tele (n : Nat) : (groupEvent s n).tele = s.tele := by obtain ⟨e, h⟩ := groupEvent_only s n; rw [h]
@[simp] theorem groupEvent_bus (n : Nat) : (groupEvent s n).bus = s.bus := by obtain ⟨e, h⟩ := groupEvent_only s n; rw [h]
@[simp] theorem groupEvent_pending (n : Nat) : (groupEvent s n).pending = s.pending := by obtain ⟨e, h⟩ := groupEvent_only s n; rw [h]

/-! ### noteEligible -/

@[simp] theorem noteEligible_opUs (t : State) : (noteEligible t s).opUs = s.opUs := by obtain ⟨e, h⟩ := noteEligible_only t s; rw [h]
@[simp] theorem noteEligible_timeUs (t : State) : (noteEligible t s).timeUs = s.timeUs := by obtain ⟨e, h⟩ := noteEligible_only t s; rw [h]
@[simp] theorem noteEligible_free (t : State) : (noteEligible t s).free = s.free := by obtain ⟨e, h⟩ := noteEligible_only t s; rw [h]
@[simp] theorem noteEligible_service (t : State) : (noteEligible t s).service = s.service := by obtain ⟨e, h⟩ := noteEligible_only t s; rw [h]
@[simp] theorem noteEligible_fns (t : State) : (noteEligible t s).fns = s.fns := by obtain ⟨e, h⟩ := noteEligible_only t s; rw [h]
@[simp] theorem noteEligible_link (t : State) : (noteEligible t s).link = s.link := by obtain ⟨e, h⟩ := noteEligible_only t s; rw [h]
@[simp] theorem noteEligible_rings (t : State) : (noteEligible t s).rings = s.rings := by obtain ⟨e, h⟩ := noteEligible_only t s; rw [h]
@[simp] theorem noteEligible_groups (t : State) : (noteEligible t s).groups = s.groups := by obtain ⟨e, h⟩ := noteEligible_only t s; rw [h]
@[simp] theorem noteEligible_adm (t : State) : (noteEligible t s).adm = s.adm := by obtain ⟨e, h⟩ := noteEligible_only t s; rw [h]
@[simp] theorem noteEligible_commit (t : State) : (noteEligible t s).commit = s.commit := by obtain ⟨e, h⟩ := noteEligible_only t s; rw [h]
@[simp] theorem noteEligible_keys (t : State) : (noteEligible t s).keys = s.keys := by obtain ⟨e, h⟩ := noteEligible_only t s; rw [h]
@[simp] theorem noteEligible_parts (t : State) : (noteEligible t s).parts = s.parts := by obtain ⟨e, h⟩ := noteEligible_only t s; rw [h]
@[simp] theorem noteEligible_meas (t : State) : (noteEligible t s).meas = s.meas := by obtain ⟨e, h⟩ := noteEligible_only t s; rw [h]
@[simp] theorem noteEligible_quorum (t : State) : (noteEligible t s).quorum = s.quorum := by obtain ⟨e, h⟩ := noteEligible_only t s; rw [h]
@[simp] theorem noteEligible_resv (t : State) : (noteEligible t s).resv = s.resv := by obtain ⟨e, h⟩ := noteEligible_only t s; rw [h]
@[simp] theorem noteEligible_atcResv (t : State) : (noteEligible t s).atcResv = s.atcResv := by obtain ⟨e, h⟩ := noteEligible_only t s; rw [h]
@[simp] theorem noteEligible_units (t : State) : (noteEligible t s).units = s.units := by obtain ⟨e, h⟩ := noteEligible_only t s; rw [h]
@[simp] theorem noteEligible_entropy (t : State) : (noteEligible t s).entropy = s.entropy := by obtain ⟨e, h⟩ := noteEligible_only t s; rw [h]
@[simp] theorem noteEligible_tamper (t : State) : (noteEligible t s).tamper = s.tamper := by obtain ⟨e, h⟩ := noteEligible_only t s; rw [h]
@[simp] theorem noteEligible_life (t : State) : (noteEligible t s).life = s.life := by obtain ⟨e, h⟩ := noteEligible_only t s; rw [h]
@[simp] theorem noteEligible_power (t : State) : (noteEligible t s).power = s.power := by obtain ⟨e, h⟩ := noteEligible_only t s; rw [h]
@[simp] theorem noteEligible_seam (t : State) : (noteEligible t s).seam = s.seam := by obtain ⟨e, h⟩ := noteEligible_only t s; rw [h]
@[simp] theorem noteEligible_pair (t : State) : (noteEligible t s).pair = s.pair := by obtain ⟨e, h⟩ := noteEligible_only t s; rw [h]
@[simp] theorem noteEligible_od (t : State) : (noteEligible t s).od = s.od := by obtain ⟨e, h⟩ := noteEligible_only t s; rw [h]
@[simp] theorem noteEligible_log (t : State) : (noteEligible t s).log = s.log := by obtain ⟨e, h⟩ := noteEligible_only t s; rw [h]
@[simp] theorem noteEligible_tele (t : State) : (noteEligible t s).tele = s.tele := by obtain ⟨e, h⟩ := noteEligible_only t s; rw [h]
@[simp] theorem noteEligible_bus (t : State) : (noteEligible t s).bus = s.bus := by obtain ⟨e, h⟩ := noteEligible_only t s; rw [h]
@[simp] theorem noteEligible_pending (t : State) : (noteEligible t s).pending = s.pending := by obtain ⟨e, h⟩ := noteEligible_only t s; rw [h]

/-! ### noteService -/

@[simp] theorem noteService_opUs (t : State) : (noteService t s).opUs = s.opUs := by obtain ⟨e, h⟩ := noteService_only t s; rw [h]
@[simp] theorem noteService_timeUs (t : State) : (noteService t s).timeUs = s.timeUs := by obtain ⟨e, h⟩ := noteService_only t s; rw [h]
@[simp] theorem noteService_free (t : State) : (noteService t s).free = s.free := by obtain ⟨e, h⟩ := noteService_only t s; rw [h]
@[simp] theorem noteService_service (t : State) : (noteService t s).service = s.service := by obtain ⟨e, h⟩ := noteService_only t s; rw [h]
@[simp] theorem noteService_fns (t : State) : (noteService t s).fns = s.fns := by obtain ⟨e, h⟩ := noteService_only t s; rw [h]
@[simp] theorem noteService_link (t : State) : (noteService t s).link = s.link := by obtain ⟨e, h⟩ := noteService_only t s; rw [h]
@[simp] theorem noteService_rings (t : State) : (noteService t s).rings = s.rings := by obtain ⟨e, h⟩ := noteService_only t s; rw [h]
@[simp] theorem noteService_groups (t : State) : (noteService t s).groups = s.groups := by obtain ⟨e, h⟩ := noteService_only t s; rw [h]
@[simp] theorem noteService_adm (t : State) : (noteService t s).adm = s.adm := by obtain ⟨e, h⟩ := noteService_only t s; rw [h]
@[simp] theorem noteService_commit (t : State) : (noteService t s).commit = s.commit := by obtain ⟨e, h⟩ := noteService_only t s; rw [h]
@[simp] theorem noteService_keys (t : State) : (noteService t s).keys = s.keys := by obtain ⟨e, h⟩ := noteService_only t s; rw [h]
@[simp] theorem noteService_parts (t : State) : (noteService t s).parts = s.parts := by obtain ⟨e, h⟩ := noteService_only t s; rw [h]
@[simp] theorem noteService_meas (t : State) : (noteService t s).meas = s.meas := by obtain ⟨e, h⟩ := noteService_only t s; rw [h]
@[simp] theorem noteService_quorum (t : State) : (noteService t s).quorum = s.quorum := by obtain ⟨e, h⟩ := noteService_only t s; rw [h]
@[simp] theorem noteService_resv (t : State) : (noteService t s).resv = s.resv := by obtain ⟨e, h⟩ := noteService_only t s; rw [h]
@[simp] theorem noteService_atcResv (t : State) : (noteService t s).atcResv = s.atcResv := by obtain ⟨e, h⟩ := noteService_only t s; rw [h]
@[simp] theorem noteService_units (t : State) : (noteService t s).units = s.units := by obtain ⟨e, h⟩ := noteService_only t s; rw [h]
@[simp] theorem noteService_entropy (t : State) : (noteService t s).entropy = s.entropy := by obtain ⟨e, h⟩ := noteService_only t s; rw [h]
@[simp] theorem noteService_tamper (t : State) : (noteService t s).tamper = s.tamper := by obtain ⟨e, h⟩ := noteService_only t s; rw [h]
@[simp] theorem noteService_life (t : State) : (noteService t s).life = s.life := by obtain ⟨e, h⟩ := noteService_only t s; rw [h]
@[simp] theorem noteService_power (t : State) : (noteService t s).power = s.power := by obtain ⟨e, h⟩ := noteService_only t s; rw [h]
@[simp] theorem noteService_seam (t : State) : (noteService t s).seam = s.seam := by obtain ⟨e, h⟩ := noteService_only t s; rw [h]
@[simp] theorem noteService_pair (t : State) : (noteService t s).pair = s.pair := by obtain ⟨e, h⟩ := noteService_only t s; rw [h]
@[simp] theorem noteService_od (t : State) : (noteService t s).od = s.od := by obtain ⟨e, h⟩ := noteService_only t s; rw [h]
@[simp] theorem noteService_log (t : State) : (noteService t s).log = s.log := by obtain ⟨e, h⟩ := noteService_only t s; rw [h]
@[simp] theorem noteService_tele (t : State) : (noteService t s).tele = s.tele := by obtain ⟨e, h⟩ := noteService_only t s; rw [h]
@[simp] theorem noteService_bus (t : State) : (noteService t s).bus = s.bus := by obtain ⟨e, h⟩ := noteService_only t s; rw [h]
@[simp] theorem noteService_pending (t : State) : (noteService t s).pending = s.pending := by obtain ⟨e, h⟩ := noteService_only t s; rw [h]

/-! ### noteFunctions -/

@[simp] theorem noteFunctions_opUs (t : State) : (noteFunctions t s).opUs = s.opUs := by obtain ⟨e, h⟩ := noteFunctions_only t s; rw [h]
@[simp] theorem noteFunctions_timeUs (t : State) : (noteFunctions t s).timeUs = s.timeUs := by obtain ⟨e, h⟩ := noteFunctions_only t s; rw [h]
@[simp] theorem noteFunctions_free (t : State) : (noteFunctions t s).free = s.free := by obtain ⟨e, h⟩ := noteFunctions_only t s; rw [h]
@[simp] theorem noteFunctions_service (t : State) : (noteFunctions t s).service = s.service := by obtain ⟨e, h⟩ := noteFunctions_only t s; rw [h]
@[simp] theorem noteFunctions_fns (t : State) : (noteFunctions t s).fns = s.fns := by obtain ⟨e, h⟩ := noteFunctions_only t s; rw [h]
@[simp] theorem noteFunctions_link (t : State) : (noteFunctions t s).link = s.link := by obtain ⟨e, h⟩ := noteFunctions_only t s; rw [h]
@[simp] theorem noteFunctions_rings (t : State) : (noteFunctions t s).rings = s.rings := by obtain ⟨e, h⟩ := noteFunctions_only t s; rw [h]
@[simp] theorem noteFunctions_groups (t : State) : (noteFunctions t s).groups = s.groups := by obtain ⟨e, h⟩ := noteFunctions_only t s; rw [h]
@[simp] theorem noteFunctions_adm (t : State) : (noteFunctions t s).adm = s.adm := by obtain ⟨e, h⟩ := noteFunctions_only t s; rw [h]
@[simp] theorem noteFunctions_commit (t : State) : (noteFunctions t s).commit = s.commit := by obtain ⟨e, h⟩ := noteFunctions_only t s; rw [h]
@[simp] theorem noteFunctions_keys (t : State) : (noteFunctions t s).keys = s.keys := by obtain ⟨e, h⟩ := noteFunctions_only t s; rw [h]
@[simp] theorem noteFunctions_parts (t : State) : (noteFunctions t s).parts = s.parts := by obtain ⟨e, h⟩ := noteFunctions_only t s; rw [h]
@[simp] theorem noteFunctions_meas (t : State) : (noteFunctions t s).meas = s.meas := by obtain ⟨e, h⟩ := noteFunctions_only t s; rw [h]
@[simp] theorem noteFunctions_quorum (t : State) : (noteFunctions t s).quorum = s.quorum := by obtain ⟨e, h⟩ := noteFunctions_only t s; rw [h]
@[simp] theorem noteFunctions_resv (t : State) : (noteFunctions t s).resv = s.resv := by obtain ⟨e, h⟩ := noteFunctions_only t s; rw [h]
@[simp] theorem noteFunctions_atcResv (t : State) : (noteFunctions t s).atcResv = s.atcResv := by obtain ⟨e, h⟩ := noteFunctions_only t s; rw [h]
@[simp] theorem noteFunctions_units (t : State) : (noteFunctions t s).units = s.units := by obtain ⟨e, h⟩ := noteFunctions_only t s; rw [h]
@[simp] theorem noteFunctions_entropy (t : State) : (noteFunctions t s).entropy = s.entropy := by obtain ⟨e, h⟩ := noteFunctions_only t s; rw [h]
@[simp] theorem noteFunctions_tamper (t : State) : (noteFunctions t s).tamper = s.tamper := by obtain ⟨e, h⟩ := noteFunctions_only t s; rw [h]
@[simp] theorem noteFunctions_life (t : State) : (noteFunctions t s).life = s.life := by obtain ⟨e, h⟩ := noteFunctions_only t s; rw [h]
@[simp] theorem noteFunctions_power (t : State) : (noteFunctions t s).power = s.power := by obtain ⟨e, h⟩ := noteFunctions_only t s; rw [h]
@[simp] theorem noteFunctions_seam (t : State) : (noteFunctions t s).seam = s.seam := by obtain ⟨e, h⟩ := noteFunctions_only t s; rw [h]
@[simp] theorem noteFunctions_pair (t : State) : (noteFunctions t s).pair = s.pair := by obtain ⟨e, h⟩ := noteFunctions_only t s; rw [h]
@[simp] theorem noteFunctions_od (t : State) : (noteFunctions t s).od = s.od := by obtain ⟨e, h⟩ := noteFunctions_only t s; rw [h]
@[simp] theorem noteFunctions_log (t : State) : (noteFunctions t s).log = s.log := by obtain ⟨e, h⟩ := noteFunctions_only t s; rw [h]
@[simp] theorem noteFunctions_tele (t : State) : (noteFunctions t s).tele = s.tele := by obtain ⟨e, h⟩ := noteFunctions_only t s; rw [h]
@[simp] theorem noteFunctions_bus (t : State) : (noteFunctions t s).bus = s.bus := by obtain ⟨e, h⟩ := noteFunctions_only t s; rw [h]
@[simp] theorem noteFunctions_pending (t : State) : (noteFunctions t s).pending = s.pending := by obtain ⟨e, h⟩ := noteFunctions_only t s; rw [h]

/-! ### logMain -/

@[simp] theorem logMain_opUs (a b c d e : Nat) (x : Bytes) : (logMain s a b c d e x).opUs = s.opUs := by obtain ⟨e, h⟩ := logMain_only s a b c d e x; rw [h]
@[simp] theorem logMain_timeUs (a b c d e : Nat) (x : Bytes) : (logMain s a b c d e x).timeUs = s.timeUs := by obtain ⟨e, h⟩ := logMain_only s a b c d e x; rw [h]
@[simp] theorem logMain_free (a b c d e : Nat) (x : Bytes) : (logMain s a b c d e x).free = s.free := by obtain ⟨e, h⟩ := logMain_only s a b c d e x; rw [h]
@[simp] theorem logMain_service (a b c d e : Nat) (x : Bytes) : (logMain s a b c d e x).service = s.service := by obtain ⟨e, h⟩ := logMain_only s a b c d e x; rw [h]
@[simp] theorem logMain_fns (a b c d e : Nat) (x : Bytes) : (logMain s a b c d e x).fns = s.fns := by obtain ⟨e, h⟩ := logMain_only s a b c d e x; rw [h]
@[simp] theorem logMain_link (a b c d e : Nat) (x : Bytes) : (logMain s a b c d e x).link = s.link := by obtain ⟨e, h⟩ := logMain_only s a b c d e x; rw [h]
@[simp] theorem logMain_rings (a b c d e : Nat) (x : Bytes) : (logMain s a b c d e x).rings = s.rings := by obtain ⟨e, h⟩ := logMain_only s a b c d e x; rw [h]
@[simp] theorem logMain_groups (a b c d e : Nat) (x : Bytes) : (logMain s a b c d e x).groups = s.groups := by obtain ⟨e, h⟩ := logMain_only s a b c d e x; rw [h]
@[simp] theorem logMain_adm (a b c d e : Nat) (x : Bytes) : (logMain s a b c d e x).adm = s.adm := by obtain ⟨e, h⟩ := logMain_only s a b c d e x; rw [h]
@[simp] theorem logMain_commit (a b c d e : Nat) (x : Bytes) : (logMain s a b c d e x).commit = s.commit := by obtain ⟨e, h⟩ := logMain_only s a b c d e x; rw [h]
@[simp] theorem logMain_keys (a b c d e : Nat) (x : Bytes) : (logMain s a b c d e x).keys = s.keys := by obtain ⟨e, h⟩ := logMain_only s a b c d e x; rw [h]
@[simp] theorem logMain_parts (a b c d e : Nat) (x : Bytes) : (logMain s a b c d e x).parts = s.parts := by obtain ⟨e, h⟩ := logMain_only s a b c d e x; rw [h]
@[simp] theorem logMain_meas (a b c d e : Nat) (x : Bytes) : (logMain s a b c d e x).meas = s.meas := by obtain ⟨e, h⟩ := logMain_only s a b c d e x; rw [h]
@[simp] theorem logMain_quorum (a b c d e : Nat) (x : Bytes) : (logMain s a b c d e x).quorum = s.quorum := by obtain ⟨e, h⟩ := logMain_only s a b c d e x; rw [h]
@[simp] theorem logMain_resv (a b c d e : Nat) (x : Bytes) : (logMain s a b c d e x).resv = s.resv := by obtain ⟨e, h⟩ := logMain_only s a b c d e x; rw [h]
@[simp] theorem logMain_atcResv (a b c d e : Nat) (x : Bytes) : (logMain s a b c d e x).atcResv = s.atcResv := by obtain ⟨e, h⟩ := logMain_only s a b c d e x; rw [h]
@[simp] theorem logMain_units (a b c d e : Nat) (x : Bytes) : (logMain s a b c d e x).units = s.units := by obtain ⟨e, h⟩ := logMain_only s a b c d e x; rw [h]
@[simp] theorem logMain_entropy (a b c d e : Nat) (x : Bytes) : (logMain s a b c d e x).entropy = s.entropy := by obtain ⟨e, h⟩ := logMain_only s a b c d e x; rw [h]
@[simp] theorem logMain_eic (a b c d e : Nat) (x : Bytes) : (logMain s a b c d e x).eic = s.eic := by obtain ⟨e, h⟩ := logMain_only s a b c d e x; rw [h]
@[simp] theorem logMain_tamper (a b c d e : Nat) (x : Bytes) : (logMain s a b c d e x).tamper = s.tamper := by obtain ⟨e, h⟩ := logMain_only s a b c d e x; rw [h]
@[simp] theorem logMain_life (a b c d e : Nat) (x : Bytes) : (logMain s a b c d e x).life = s.life := by obtain ⟨e, h⟩ := logMain_only s a b c d e x; rw [h]
@[simp] theorem logMain_power (a b c d e : Nat) (x : Bytes) : (logMain s a b c d e x).power = s.power := by obtain ⟨e, h⟩ := logMain_only s a b c d e x; rw [h]
@[simp] theorem logMain_seam (a b c d e : Nat) (x : Bytes) : (logMain s a b c d e x).seam = s.seam := by obtain ⟨e, h⟩ := logMain_only s a b c d e x; rw [h]
@[simp] theorem logMain_pair (a b c d e : Nat) (x : Bytes) : (logMain s a b c d e x).pair = s.pair := by obtain ⟨e, h⟩ := logMain_only s a b c d e x; rw [h]
@[simp] theorem logMain_od (a b c d e : Nat) (x : Bytes) : (logMain s a b c d e x).od = s.od := by obtain ⟨e, h⟩ := logMain_only s a b c d e x; rw [h]
@[simp] theorem logMain_tele (a b c d e : Nat) (x : Bytes) : (logMain s a b c d e x).tele = s.tele := by obtain ⟨e, h⟩ := logMain_only s a b c d e x; rw [h]
@[simp] theorem logMain_bus (a b c d e : Nat) (x : Bytes) : (logMain s a b c d e x).bus = s.bus := by obtain ⟨e, h⟩ := logMain_only s a b c d e x; rw [h]
@[simp] theorem logMain_pending (a b c d e : Nat) (x : Bytes) : (logMain s a b c d e x).pending = s.pending := by obtain ⟨e, h⟩ := logMain_only s a b c d e x; rw [h]

/-! ### logRepeat -/

@[simp] theorem logRepeat_opUs (r a b c d e : Nat) (x : Bytes) : (logRepeat s r a b c d e x).opUs = s.opUs := by obtain ⟨e, h⟩ := logRepeat_only s r a b c d e x; rw [h]
@[simp] theorem logRepeat_timeUs (r a b c d e : Nat) (x : Bytes) : (logRepeat s r a b c d e x).timeUs = s.timeUs := by obtain ⟨e, h⟩ := logRepeat_only s r a b c d e x; rw [h]
@[simp] theorem logRepeat_free (r a b c d e : Nat) (x : Bytes) : (logRepeat s r a b c d e x).free = s.free := by obtain ⟨e, h⟩ := logRepeat_only s r a b c d e x; rw [h]
@[simp] theorem logRepeat_service (r a b c d e : Nat) (x : Bytes) : (logRepeat s r a b c d e x).service = s.service := by obtain ⟨e, h⟩ := logRepeat_only s r a b c d e x; rw [h]
@[simp] theorem logRepeat_fns (r a b c d e : Nat) (x : Bytes) : (logRepeat s r a b c d e x).fns = s.fns := by obtain ⟨e, h⟩ := logRepeat_only s r a b c d e x; rw [h]
@[simp] theorem logRepeat_link (r a b c d e : Nat) (x : Bytes) : (logRepeat s r a b c d e x).link = s.link := by obtain ⟨e, h⟩ := logRepeat_only s r a b c d e x; rw [h]
@[simp] theorem logRepeat_rings (r a b c d e : Nat) (x : Bytes) : (logRepeat s r a b c d e x).rings = s.rings := by obtain ⟨e, h⟩ := logRepeat_only s r a b c d e x; rw [h]
@[simp] theorem logRepeat_groups (r a b c d e : Nat) (x : Bytes) : (logRepeat s r a b c d e x).groups = s.groups := by obtain ⟨e, h⟩ := logRepeat_only s r a b c d e x; rw [h]
@[simp] theorem logRepeat_adm (r a b c d e : Nat) (x : Bytes) : (logRepeat s r a b c d e x).adm = s.adm := by obtain ⟨e, h⟩ := logRepeat_only s r a b c d e x; rw [h]
@[simp] theorem logRepeat_commit (r a b c d e : Nat) (x : Bytes) : (logRepeat s r a b c d e x).commit = s.commit := by obtain ⟨e, h⟩ := logRepeat_only s r a b c d e x; rw [h]
@[simp] theorem logRepeat_keys (r a b c d e : Nat) (x : Bytes) : (logRepeat s r a b c d e x).keys = s.keys := by obtain ⟨e, h⟩ := logRepeat_only s r a b c d e x; rw [h]
@[simp] theorem logRepeat_parts (r a b c d e : Nat) (x : Bytes) : (logRepeat s r a b c d e x).parts = s.parts := by obtain ⟨e, h⟩ := logRepeat_only s r a b c d e x; rw [h]
@[simp] theorem logRepeat_meas (r a b c d e : Nat) (x : Bytes) : (logRepeat s r a b c d e x).meas = s.meas := by obtain ⟨e, h⟩ := logRepeat_only s r a b c d e x; rw [h]
@[simp] theorem logRepeat_quorum (r a b c d e : Nat) (x : Bytes) : (logRepeat s r a b c d e x).quorum = s.quorum := by obtain ⟨e, h⟩ := logRepeat_only s r a b c d e x; rw [h]
@[simp] theorem logRepeat_resv (r a b c d e : Nat) (x : Bytes) : (logRepeat s r a b c d e x).resv = s.resv := by obtain ⟨e, h⟩ := logRepeat_only s r a b c d e x; rw [h]
@[simp] theorem logRepeat_atcResv (r a b c d e : Nat) (x : Bytes) : (logRepeat s r a b c d e x).atcResv = s.atcResv := by obtain ⟨e, h⟩ := logRepeat_only s r a b c d e x; rw [h]
@[simp] theorem logRepeat_units (r a b c d e : Nat) (x : Bytes) : (logRepeat s r a b c d e x).units = s.units := by obtain ⟨e, h⟩ := logRepeat_only s r a b c d e x; rw [h]
@[simp] theorem logRepeat_entropy (r a b c d e : Nat) (x : Bytes) : (logRepeat s r a b c d e x).entropy = s.entropy := by obtain ⟨e, h⟩ := logRepeat_only s r a b c d e x; rw [h]
@[simp] theorem logRepeat_eic (r a b c d e : Nat) (x : Bytes) : (logRepeat s r a b c d e x).eic = s.eic := by obtain ⟨e, h⟩ := logRepeat_only s r a b c d e x; rw [h]
@[simp] theorem logRepeat_tamper (r a b c d e : Nat) (x : Bytes) : (logRepeat s r a b c d e x).tamper = s.tamper := by obtain ⟨e, h⟩ := logRepeat_only s r a b c d e x; rw [h]
@[simp] theorem logRepeat_life (r a b c d e : Nat) (x : Bytes) : (logRepeat s r a b c d e x).life = s.life := by obtain ⟨e, h⟩ := logRepeat_only s r a b c d e x; rw [h]
@[simp] theorem logRepeat_power (r a b c d e : Nat) (x : Bytes) : (logRepeat s r a b c d e x).power = s.power := by obtain ⟨e, h⟩ := logRepeat_only s r a b c d e x; rw [h]
@[simp] theorem logRepeat_seam (r a b c d e : Nat) (x : Bytes) : (logRepeat s r a b c d e x).seam = s.seam := by obtain ⟨e, h⟩ := logRepeat_only s r a b c d e x; rw [h]
@[simp] theorem logRepeat_pair (r a b c d e : Nat) (x : Bytes) : (logRepeat s r a b c d e x).pair = s.pair := by obtain ⟨e, h⟩ := logRepeat_only s r a b c d e x; rw [h]
@[simp] theorem logRepeat_od (r a b c d e : Nat) (x : Bytes) : (logRepeat s r a b c d e x).od = s.od := by obtain ⟨e, h⟩ := logRepeat_only s r a b c d e x; rw [h]
@[simp] theorem logRepeat_tele (r a b c d e : Nat) (x : Bytes) : (logRepeat s r a b c d e x).tele = s.tele := by obtain ⟨e, h⟩ := logRepeat_only s r a b c d e x; rw [h]
@[simp] theorem logRepeat_bus (r a b c d e : Nat) (x : Bytes) : (logRepeat s r a b c d e x).bus = s.bus := by obtain ⟨e, h⟩ := logRepeat_only s r a b c d e x; rw [h]
@[simp] theorem logRepeat_pending (r a b c d e : Nat) (x : Bytes) : (logRepeat s r a b c d e x).pending = s.pending := by obtain ⟨e, h⟩ := logRepeat_only s r a b c d e x; rw [h]

/-! ### logCocoon -/

@[simp] theorem logCocoon_opUs (a b c d e : Nat) (x : Bytes) : (logCocoon s a b c d e x).opUs = s.opUs := by obtain ⟨e, h⟩ := logCocoon_only s a b c d e x; rw [h]
@[simp] theorem logCocoon_timeUs (a b c d e : Nat) (x : Bytes) : (logCocoon s a b c d e x).timeUs = s.timeUs := by obtain ⟨e, h⟩ := logCocoon_only s a b c d e x; rw [h]
@[simp] theorem logCocoon_free (a b c d e : Nat) (x : Bytes) : (logCocoon s a b c d e x).free = s.free := by obtain ⟨e, h⟩ := logCocoon_only s a b c d e x; rw [h]
@[simp] theorem logCocoon_service (a b c d e : Nat) (x : Bytes) : (logCocoon s a b c d e x).service = s.service := by obtain ⟨e, h⟩ := logCocoon_only s a b c d e x; rw [h]
@[simp] theorem logCocoon_fns (a b c d e : Nat) (x : Bytes) : (logCocoon s a b c d e x).fns = s.fns := by obtain ⟨e, h⟩ := logCocoon_only s a b c d e x; rw [h]
@[simp] theorem logCocoon_link (a b c d e : Nat) (x : Bytes) : (logCocoon s a b c d e x).link = s.link := by obtain ⟨e, h⟩ := logCocoon_only s a b c d e x; rw [h]
@[simp] theorem logCocoon_rings (a b c d e : Nat) (x : Bytes) : (logCocoon s a b c d e x).rings = s.rings := by obtain ⟨e, h⟩ := logCocoon_only s a b c d e x; rw [h]
@[simp] theorem logCocoon_groups (a b c d e : Nat) (x : Bytes) : (logCocoon s a b c d e x).groups = s.groups := by obtain ⟨e, h⟩ := logCocoon_only s a b c d e x; rw [h]
@[simp] theorem logCocoon_adm (a b c d e : Nat) (x : Bytes) : (logCocoon s a b c d e x).adm = s.adm := by obtain ⟨e, h⟩ := logCocoon_only s a b c d e x; rw [h]
@[simp] theorem logCocoon_commit (a b c d e : Nat) (x : Bytes) : (logCocoon s a b c d e x).commit = s.commit := by obtain ⟨e, h⟩ := logCocoon_only s a b c d e x; rw [h]
@[simp] theorem logCocoon_keys (a b c d e : Nat) (x : Bytes) : (logCocoon s a b c d e x).keys = s.keys := by obtain ⟨e, h⟩ := logCocoon_only s a b c d e x; rw [h]
@[simp] theorem logCocoon_parts (a b c d e : Nat) (x : Bytes) : (logCocoon s a b c d e x).parts = s.parts := by obtain ⟨e, h⟩ := logCocoon_only s a b c d e x; rw [h]
@[simp] theorem logCocoon_meas (a b c d e : Nat) (x : Bytes) : (logCocoon s a b c d e x).meas = s.meas := by obtain ⟨e, h⟩ := logCocoon_only s a b c d e x; rw [h]
@[simp] theorem logCocoon_quorum (a b c d e : Nat) (x : Bytes) : (logCocoon s a b c d e x).quorum = s.quorum := by obtain ⟨e, h⟩ := logCocoon_only s a b c d e x; rw [h]
@[simp] theorem logCocoon_resv (a b c d e : Nat) (x : Bytes) : (logCocoon s a b c d e x).resv = s.resv := by obtain ⟨e, h⟩ := logCocoon_only s a b c d e x; rw [h]
@[simp] theorem logCocoon_atcResv (a b c d e : Nat) (x : Bytes) : (logCocoon s a b c d e x).atcResv = s.atcResv := by obtain ⟨e, h⟩ := logCocoon_only s a b c d e x; rw [h]
@[simp] theorem logCocoon_units (a b c d e : Nat) (x : Bytes) : (logCocoon s a b c d e x).units = s.units := by obtain ⟨e, h⟩ := logCocoon_only s a b c d e x; rw [h]
@[simp] theorem logCocoon_entropy (a b c d e : Nat) (x : Bytes) : (logCocoon s a b c d e x).entropy = s.entropy := by obtain ⟨e, h⟩ := logCocoon_only s a b c d e x; rw [h]
@[simp] theorem logCocoon_eic (a b c d e : Nat) (x : Bytes) : (logCocoon s a b c d e x).eic = s.eic := by obtain ⟨e, h⟩ := logCocoon_only s a b c d e x; rw [h]
@[simp] theorem logCocoon_tamper (a b c d e : Nat) (x : Bytes) : (logCocoon s a b c d e x).tamper = s.tamper := by obtain ⟨e, h⟩ := logCocoon_only s a b c d e x; rw [h]
@[simp] theorem logCocoon_life (a b c d e : Nat) (x : Bytes) : (logCocoon s a b c d e x).life = s.life := by obtain ⟨e, h⟩ := logCocoon_only s a b c d e x; rw [h]
@[simp] theorem logCocoon_power (a b c d e : Nat) (x : Bytes) : (logCocoon s a b c d e x).power = s.power := by obtain ⟨e, h⟩ := logCocoon_only s a b c d e x; rw [h]
@[simp] theorem logCocoon_seam (a b c d e : Nat) (x : Bytes) : (logCocoon s a b c d e x).seam = s.seam := by obtain ⟨e, h⟩ := logCocoon_only s a b c d e x; rw [h]
@[simp] theorem logCocoon_pair (a b c d e : Nat) (x : Bytes) : (logCocoon s a b c d e x).pair = s.pair := by obtain ⟨e, h⟩ := logCocoon_only s a b c d e x; rw [h]
@[simp] theorem logCocoon_od (a b c d e : Nat) (x : Bytes) : (logCocoon s a b c d e x).od = s.od := by obtain ⟨e, h⟩ := logCocoon_only s a b c d e x; rw [h]
@[simp] theorem logCocoon_tele (a b c d e : Nat) (x : Bytes) : (logCocoon s a b c d e x).tele = s.tele := by obtain ⟨e, h⟩ := logCocoon_only s a b c d e x; rw [h]
@[simp] theorem logCocoon_bus (a b c d e : Nat) (x : Bytes) : (logCocoon s a b c d e x).bus = s.bus := by obtain ⟨e, h⟩ := logCocoon_only s a b c d e x; rw [h]
@[simp] theorem logCocoon_pending (a b c d e : Nat) (x : Bytes) : (logCocoon s a b c d e x).pending = s.pending := by obtain ⟨e, h⟩ := logCocoon_only s a b c d e x; rw [h]

/-! ### A fold, and a descriptor that ends -/

theorem WorkOnly.opUs {s t : State} (h : WorkOnly s t) : t.opUs = s.opUs := by obtain ⟨_, _, _, _, _, _, _, _, _, rfl⟩ := h; rfl
theorem WorkOnly.timeUs {s t : State} (h : WorkOnly s t) : t.timeUs = s.timeUs := by obtain ⟨_, _, _, _, _, _, _, _, _, rfl⟩ := h; rfl
theorem WorkOnly.free {s t : State} (h : WorkOnly s t) : t.free = s.free := by obtain ⟨_, _, _, _, _, _, _, _, _, rfl⟩ := h; rfl
theorem WorkOnly.service {s t : State} (h : WorkOnly s t) : t.service = s.service := by obtain ⟨_, _, _, _, _, _, _, _, _, rfl⟩ := h; rfl
theorem WorkOnly.fns {s t : State} (h : WorkOnly s t) : t.fns = s.fns := by obtain ⟨_, _, _, _, _, _, _, _, _, rfl⟩ := h; rfl
theorem WorkOnly.link {s t : State} (h : WorkOnly s t) : t.link = s.link := by obtain ⟨_, _, _, _, _, _, _, _, _, rfl⟩ := h; rfl
theorem WorkOnly.groups {s t : State} (h : WorkOnly s t) : t.groups = s.groups := by obtain ⟨_, _, _, _, _, _, _, _, _, rfl⟩ := h; rfl
theorem WorkOnly.commit {s t : State} (h : WorkOnly s t) : t.commit = s.commit := by obtain ⟨_, _, _, _, _, _, _, _, _, rfl⟩ := h; rfl
theorem WorkOnly.keys {s t : State} (h : WorkOnly s t) : t.keys = s.keys := by obtain ⟨_, _, _, _, _, _, _, _, _, rfl⟩ := h; rfl
theorem WorkOnly.meas {s t : State} (h : WorkOnly s t) : t.meas = s.meas := by obtain ⟨_, _, _, _, _, _, _, _, _, rfl⟩ := h; rfl
theorem WorkOnly.quorum {s t : State} (h : WorkOnly s t) : t.quorum = s.quorum := by obtain ⟨_, _, _, _, _, _, _, _, _, rfl⟩ := h; rfl
theorem WorkOnly.tamper {s t : State} (h : WorkOnly s t) : t.tamper = s.tamper := by obtain ⟨_, _, _, _, _, _, _, _, _, rfl⟩ := h; rfl
theorem WorkOnly.life {s t : State} (h : WorkOnly s t) : t.life = s.life := by obtain ⟨_, _, _, _, _, _, _, _, _, rfl⟩ := h; rfl
theorem WorkOnly.power {s t : State} (h : WorkOnly s t) : t.power = s.power := by obtain ⟨_, _, _, _, _, _, _, _, _, rfl⟩ := h; rfl
theorem WorkOnly.seam {s t : State} (h : WorkOnly s t) : t.seam = s.seam := by obtain ⟨_, _, _, _, _, _, _, _, _, rfl⟩ := h; rfl
theorem WorkOnly.pair {s t : State} (h : WorkOnly s t) : t.pair = s.pair := by obtain ⟨_, _, _, _, _, _, _, _, _, rfl⟩ := h; rfl
theorem WorkOnly.od {s t : State} (h : WorkOnly s t) : t.od = s.od := by obtain ⟨_, _, _, _, _, _, _, _, _, rfl⟩ := h; rfl
theorem WorkOnly.tele {s t : State} (h : WorkOnly s t) : t.tele = s.tele := by obtain ⟨_, _, _, _, _, _, _, _, _, rfl⟩ := h; rfl
theorem WorkOnly.bus {s t : State} (h : WorkOnly s t) : t.bus = s.bus := by obtain ⟨_, _, _, _, _, _, _, _, _, rfl⟩ := h; rfl
theorem WorkOnly.pending {s t : State} (h : WorkOnly s t) : t.pending = s.pending := by obtain ⟨_, _, _, _, _, _, _, _, _, rfl⟩ := h; rfl

@[simp] theorem fail_opUs (n : Nat) (st : Status) (d : Nat) : (fail s n st d).opUs = s.opUs := (WorkOnly.fail s n st d).opUs
@[simp] theorem fail_timeUs (n : Nat) (st : Status) (d : Nat) : (fail s n st d).timeUs = s.timeUs := (WorkOnly.fail s n st d).timeUs
@[simp] theorem fail_free (n : Nat) (st : Status) (d : Nat) : (fail s n st d).free = s.free := (WorkOnly.fail s n st d).free
@[simp] theorem fail_service (n : Nat) (st : Status) (d : Nat) : (fail s n st d).service = s.service := (WorkOnly.fail s n st d).service
@[simp] theorem fail_fns (n : Nat) (st : Status) (d : Nat) : (fail s n st d).fns = s.fns := (WorkOnly.fail s n st d).fns
@[simp] theorem fail_link (n : Nat) (st : Status) (d : Nat) : (fail s n st d).link = s.link := (WorkOnly.fail s n st d).link
@[simp] theorem fail_groups (n : Nat) (st : Status) (d : Nat) : (fail s n st d).groups = s.groups := (WorkOnly.fail s n st d).groups
@[simp] theorem fail_commit (n : Nat) (st : Status) (d : Nat) : (fail s n st d).commit = s.commit := (WorkOnly.fail s n st d).commit
@[simp] theorem fail_keys (n : Nat) (st : Status) (d : Nat) : (fail s n st d).keys = s.keys := (WorkOnly.fail s n st d).keys
@[simp] theorem fail_meas (n : Nat) (st : Status) (d : Nat) : (fail s n st d).meas = s.meas := (WorkOnly.fail s n st d).meas
@[simp] theorem fail_quorum (n : Nat) (st : Status) (d : Nat) : (fail s n st d).quorum = s.quorum := (WorkOnly.fail s n st d).quorum
@[simp] theorem fail_tamper (n : Nat) (st : Status) (d : Nat) : (fail s n st d).tamper = s.tamper := (WorkOnly.fail s n st d).tamper
@[simp] theorem fail_life (n : Nat) (st : Status) (d : Nat) : (fail s n st d).life = s.life := (WorkOnly.fail s n st d).life
@[simp] theorem fail_power (n : Nat) (st : Status) (d : Nat) : (fail s n st d).power = s.power := (WorkOnly.fail s n st d).power
@[simp] theorem fail_seam (n : Nat) (st : Status) (d : Nat) : (fail s n st d).seam = s.seam := (WorkOnly.fail s n st d).seam
@[simp] theorem fail_pair (n : Nat) (st : Status) (d : Nat) : (fail s n st d).pair = s.pair := (WorkOnly.fail s n st d).pair
@[simp] theorem fail_od (n : Nat) (st : Status) (d : Nat) : (fail s n st d).od = s.od := (WorkOnly.fail s n st d).od
@[simp] theorem fail_tele (n : Nat) (st : Status) (d : Nat) : (fail s n st d).tele = s.tele := (WorkOnly.fail s n st d).tele
@[simp] theorem fail_bus (n : Nat) (st : Status) (d : Nat) : (fail s n st d).bus = s.bus := (WorkOnly.fail s n st d).bus
@[simp] theorem fail_pending (n : Nat) (st : Status) (d : Nat) : (fail s n st d).pending = s.pending := (WorkOnly.fail s n st d).pending

@[simp] theorem discard_opUs (n : Nat) : (discard s n).opUs = s.opUs := (WorkOnly.discard s n).opUs
@[simp] theorem discard_timeUs (n : Nat) : (discard s n).timeUs = s.timeUs := (WorkOnly.discard s n).timeUs
@[simp] theorem discard_free (n : Nat) : (discard s n).free = s.free := (WorkOnly.discard s n).free
@[simp] theorem discard_service (n : Nat) : (discard s n).service = s.service := (WorkOnly.discard s n).service
@[simp] theorem discard_fns (n : Nat) : (discard s n).fns = s.fns := (WorkOnly.discard s n).fns
@[simp] theorem discard_link (n : Nat) : (discard s n).link = s.link := (WorkOnly.discard s n).link
@[simp] theorem discard_groups (n : Nat) : (discard s n).groups = s.groups := (WorkOnly.discard s n).groups
@[simp] theorem discard_commit (n : Nat) : (discard s n).commit = s.commit := (WorkOnly.discard s n).commit
@[simp] theorem discard_keys (n : Nat) : (discard s n).keys = s.keys := (WorkOnly.discard s n).keys
@[simp] theorem discard_meas (n : Nat) : (discard s n).meas = s.meas := (WorkOnly.discard s n).meas
@[simp] theorem discard_quorum (n : Nat) : (discard s n).quorum = s.quorum := (WorkOnly.discard s n).quorum
@[simp] theorem discard_tamper (n : Nat) : (discard s n).tamper = s.tamper := (WorkOnly.discard s n).tamper
@[simp] theorem discard_life (n : Nat) : (discard s n).life = s.life := (WorkOnly.discard s n).life
@[simp] theorem discard_power (n : Nat) : (discard s n).power = s.power := (WorkOnly.discard s n).power
@[simp] theorem discard_seam (n : Nat) : (discard s n).seam = s.seam := (WorkOnly.discard s n).seam
@[simp] theorem discard_pair (n : Nat) : (discard s n).pair = s.pair := (WorkOnly.discard s n).pair
@[simp] theorem discard_od (n : Nat) : (discard s n).od = s.od := (WorkOnly.discard s n).od
@[simp] theorem discard_tele (n : Nat) : (discard s n).tele = s.tele := (WorkOnly.discard s n).tele
@[simp] theorem discard_bus (n : Nat) : (discard s n).bus = s.bus := (WorkOnly.discard s n).bus
@[simp] theorem discard_pending (n : Nat) : (discard s n).pending = s.pending := (WorkOnly.discard s n).pending

@[simp] theorem release_opUs (n : Nat) : (release s n).opUs = s.opUs := (WorkOnly.release s n).opUs
@[simp] theorem release_timeUs (n : Nat) : (release s n).timeUs = s.timeUs := (WorkOnly.release s n).timeUs
@[simp] theorem release_free (n : Nat) : (release s n).free = s.free := (WorkOnly.release s n).free
@[simp] theorem release_service (n : Nat) : (release s n).service = s.service := (WorkOnly.release s n).service
@[simp] theorem release_fns (n : Nat) : (release s n).fns = s.fns := (WorkOnly.release s n).fns
@[simp] theorem release_link (n : Nat) : (release s n).link = s.link := (WorkOnly.release s n).link
@[simp] theorem release_groups (n : Nat) : (release s n).groups = s.groups := (WorkOnly.release s n).groups
@[simp] theorem release_commit (n : Nat) : (release s n).commit = s.commit := (WorkOnly.release s n).commit
@[simp] theorem release_keys (n : Nat) : (release s n).keys = s.keys := (WorkOnly.release s n).keys
@[simp] theorem release_meas (n : Nat) : (release s n).meas = s.meas := (WorkOnly.release s n).meas
@[simp] theorem release_quorum (n : Nat) : (release s n).quorum = s.quorum := (WorkOnly.release s n).quorum
@[simp] theorem release_tamper (n : Nat) : (release s n).tamper = s.tamper := (WorkOnly.release s n).tamper
@[simp] theorem release_life (n : Nat) : (release s n).life = s.life := (WorkOnly.release s n).life
@[simp] theorem release_power (n : Nat) : (release s n).power = s.power := (WorkOnly.release s n).power
@[simp] theorem release_seam (n : Nat) : (release s n).seam = s.seam := (WorkOnly.release s n).seam
@[simp] theorem release_pair (n : Nat) : (release s n).pair = s.pair := (WorkOnly.release s n).pair
@[simp] theorem release_od (n : Nat) : (release s n).od = s.od := (WorkOnly.release s n).od
@[simp] theorem release_tele (n : Nat) : (release s n).tele = s.tele := (WorkOnly.release s n).tele
@[simp] theorem release_bus (n : Nat) : (release s n).bus = s.bus := (WorkOnly.release s n).bus
@[simp] theorem release_pending (n : Nat) : (release s n).pending = s.pending := (WorkOnly.release s n).pending

@[simp] theorem ringError_opUs (n : Nat) (st : Status) (a b : Nat) (e : Option Nat) : (ringError s n st a b e).opUs = s.opUs := (WorkOnly.ringError s n st a b e).opUs
@[simp] theorem ringError_timeUs (n : Nat) (st : Status) (a b : Nat) (e : Option Nat) : (ringError s n st a b e).timeUs = s.timeUs := (WorkOnly.ringError s n st a b e).timeUs
@[simp] theorem ringError_free (n : Nat) (st : Status) (a b : Nat) (e : Option Nat) : (ringError s n st a b e).free = s.free := (WorkOnly.ringError s n st a b e).free
@[simp] theorem ringError_service (n : Nat) (st : Status) (a b : Nat) (e : Option Nat) : (ringError s n st a b e).service = s.service := (WorkOnly.ringError s n st a b e).service
@[simp] theorem ringError_fns (n : Nat) (st : Status) (a b : Nat) (e : Option Nat) : (ringError s n st a b e).fns = s.fns := (WorkOnly.ringError s n st a b e).fns
@[simp] theorem ringError_link (n : Nat) (st : Status) (a b : Nat) (e : Option Nat) : (ringError s n st a b e).link = s.link := (WorkOnly.ringError s n st a b e).link
@[simp] theorem ringError_groups (n : Nat) (st : Status) (a b : Nat) (e : Option Nat) : (ringError s n st a b e).groups = s.groups := (WorkOnly.ringError s n st a b e).groups
@[simp] theorem ringError_commit (n : Nat) (st : Status) (a b : Nat) (e : Option Nat) : (ringError s n st a b e).commit = s.commit := (WorkOnly.ringError s n st a b e).commit
@[simp] theorem ringError_keys (n : Nat) (st : Status) (a b : Nat) (e : Option Nat) : (ringError s n st a b e).keys = s.keys := (WorkOnly.ringError s n st a b e).keys
@[simp] theorem ringError_meas (n : Nat) (st : Status) (a b : Nat) (e : Option Nat) : (ringError s n st a b e).meas = s.meas := (WorkOnly.ringError s n st a b e).meas
@[simp] theorem ringError_quorum (n : Nat) (st : Status) (a b : Nat) (e : Option Nat) : (ringError s n st a b e).quorum = s.quorum := (WorkOnly.ringError s n st a b e).quorum
@[simp] theorem ringError_tamper (n : Nat) (st : Status) (a b : Nat) (e : Option Nat) : (ringError s n st a b e).tamper = s.tamper := (WorkOnly.ringError s n st a b e).tamper
@[simp] theorem ringError_life (n : Nat) (st : Status) (a b : Nat) (e : Option Nat) : (ringError s n st a b e).life = s.life := (WorkOnly.ringError s n st a b e).life
@[simp] theorem ringError_power (n : Nat) (st : Status) (a b : Nat) (e : Option Nat) : (ringError s n st a b e).power = s.power := (WorkOnly.ringError s n st a b e).power
@[simp] theorem ringError_seam (n : Nat) (st : Status) (a b : Nat) (e : Option Nat) : (ringError s n st a b e).seam = s.seam := (WorkOnly.ringError s n st a b e).seam
@[simp] theorem ringError_pair (n : Nat) (st : Status) (a b : Nat) (e : Option Nat) : (ringError s n st a b e).pair = s.pair := (WorkOnly.ringError s n st a b e).pair
@[simp] theorem ringError_od (n : Nat) (st : Status) (a b : Nat) (e : Option Nat) : (ringError s n st a b e).od = s.od := (WorkOnly.ringError s n st a b e).od
@[simp] theorem ringError_tele (n : Nat) (st : Status) (a b : Nat) (e : Option Nat) : (ringError s n st a b e).tele = s.tele := (WorkOnly.ringError s n st a b e).tele
@[simp] theorem ringError_bus (n : Nat) (st : Status) (a b : Nat) (e : Option Nat) : (ringError s n st a b e).bus = s.bus := (WorkOnly.ringError s n st a b e).bus
@[simp] theorem ringError_pending (n : Nat) (st : Status) (a b : Nat) (e : Option Nat) : (ringError s n st a b e).pending = s.pending := (WorkOnly.ringError s n st a b e).pending

@[simp] theorem malformed_opUs (n r i o : Nat) : (malformed s n r i o).opUs = s.opUs := (WorkOnly.malformed s n r i o).opUs
@[simp] theorem malformed_timeUs (n r i o : Nat) : (malformed s n r i o).timeUs = s.timeUs := (WorkOnly.malformed s n r i o).timeUs
@[simp] theorem malformed_free (n r i o : Nat) : (malformed s n r i o).free = s.free := (WorkOnly.malformed s n r i o).free
@[simp] theorem malformed_service (n r i o : Nat) : (malformed s n r i o).service = s.service := (WorkOnly.malformed s n r i o).service
@[simp] theorem malformed_fns (n r i o : Nat) : (malformed s n r i o).fns = s.fns := (WorkOnly.malformed s n r i o).fns
@[simp] theorem malformed_link (n r i o : Nat) : (malformed s n r i o).link = s.link := (WorkOnly.malformed s n r i o).link
@[simp] theorem malformed_groups (n r i o : Nat) : (malformed s n r i o).groups = s.groups := (WorkOnly.malformed s n r i o).groups
@[simp] theorem malformed_commit (n r i o : Nat) : (malformed s n r i o).commit = s.commit := (WorkOnly.malformed s n r i o).commit
@[simp] theorem malformed_keys (n r i o : Nat) : (malformed s n r i o).keys = s.keys := (WorkOnly.malformed s n r i o).keys
@[simp] theorem malformed_meas (n r i o : Nat) : (malformed s n r i o).meas = s.meas := (WorkOnly.malformed s n r i o).meas
@[simp] theorem malformed_quorum (n r i o : Nat) : (malformed s n r i o).quorum = s.quorum := (WorkOnly.malformed s n r i o).quorum
@[simp] theorem malformed_tamper (n r i o : Nat) : (malformed s n r i o).tamper = s.tamper := (WorkOnly.malformed s n r i o).tamper
@[simp] theorem malformed_life (n r i o : Nat) : (malformed s n r i o).life = s.life := (WorkOnly.malformed s n r i o).life
@[simp] theorem malformed_power (n r i o : Nat) : (malformed s n r i o).power = s.power := (WorkOnly.malformed s n r i o).power
@[simp] theorem malformed_seam (n r i o : Nat) : (malformed s n r i o).seam = s.seam := (WorkOnly.malformed s n r i o).seam
@[simp] theorem malformed_pair (n r i o : Nat) : (malformed s n r i o).pair = s.pair := (WorkOnly.malformed s n r i o).pair
@[simp] theorem malformed_od (n r i o : Nat) : (malformed s n r i o).od = s.od := (WorkOnly.malformed s n r i o).od
@[simp] theorem malformed_tele (n r i o : Nat) : (malformed s n r i o).tele = s.tele := (WorkOnly.malformed s n r i o).tele
@[simp] theorem malformed_bus (n r i o : Nat) : (malformed s n r i o).bus = s.bus := (WorkOnly.malformed s n r i o).bus
@[simp] theorem malformed_pending (n r i o : Nat) : (malformed s n r i o).pending = s.pending := (WorkOnly.malformed s n r i o).pending

@[simp] theorem failOpenChains_opUs (n : Nat) : (failOpenChains s n).opUs = s.opUs := (WorkOnly.failOpenChains s n).opUs
@[simp] theorem failOpenChains_timeUs (n : Nat) : (failOpenChains s n).timeUs = s.timeUs := (WorkOnly.failOpenChains s n).timeUs
@[simp] theorem failOpenChains_free (n : Nat) : (failOpenChains s n).free = s.free := (WorkOnly.failOpenChains s n).free
@[simp] theorem failOpenChains_service (n : Nat) : (failOpenChains s n).service = s.service := (WorkOnly.failOpenChains s n).service
@[simp] theorem failOpenChains_fns (n : Nat) : (failOpenChains s n).fns = s.fns := (WorkOnly.failOpenChains s n).fns
@[simp] theorem failOpenChains_link (n : Nat) : (failOpenChains s n).link = s.link := (WorkOnly.failOpenChains s n).link
@[simp] theorem failOpenChains_groups (n : Nat) : (failOpenChains s n).groups = s.groups := (WorkOnly.failOpenChains s n).groups
@[simp] theorem failOpenChains_commit (n : Nat) : (failOpenChains s n).commit = s.commit := (WorkOnly.failOpenChains s n).commit
@[simp] theorem failOpenChains_keys (n : Nat) : (failOpenChains s n).keys = s.keys := (WorkOnly.failOpenChains s n).keys
@[simp] theorem failOpenChains_meas (n : Nat) : (failOpenChains s n).meas = s.meas := (WorkOnly.failOpenChains s n).meas
@[simp] theorem failOpenChains_quorum (n : Nat) : (failOpenChains s n).quorum = s.quorum := (WorkOnly.failOpenChains s n).quorum
@[simp] theorem failOpenChains_tamper (n : Nat) : (failOpenChains s n).tamper = s.tamper := (WorkOnly.failOpenChains s n).tamper
@[simp] theorem failOpenChains_life (n : Nat) : (failOpenChains s n).life = s.life := (WorkOnly.failOpenChains s n).life
@[simp] theorem failOpenChains_power (n : Nat) : (failOpenChains s n).power = s.power := (WorkOnly.failOpenChains s n).power
@[simp] theorem failOpenChains_seam (n : Nat) : (failOpenChains s n).seam = s.seam := (WorkOnly.failOpenChains s n).seam
@[simp] theorem failOpenChains_pair (n : Nat) : (failOpenChains s n).pair = s.pair := (WorkOnly.failOpenChains s n).pair
@[simp] theorem failOpenChains_od (n : Nat) : (failOpenChains s n).od = s.od := (WorkOnly.failOpenChains s n).od
@[simp] theorem failOpenChains_tele (n : Nat) : (failOpenChains s n).tele = s.tele := (WorkOnly.failOpenChains s n).tele
@[simp] theorem failOpenChains_bus (n : Nat) : (failOpenChains s n).bus = s.bus := (WorkOnly.failOpenChains s n).bus
@[simp] theorem failOpenChains_pending (n : Nat) : (failOpenChains s n).pending = s.pending := (WorkOnly.failOpenChains s n).pending

@[simp] theorem discardAbove_opUs (n e : Nat) : (discardAbove s n e).opUs = s.opUs := (WorkOnly.discardAbove s n e).opUs
@[simp] theorem discardAbove_timeUs (n e : Nat) : (discardAbove s n e).timeUs = s.timeUs := (WorkOnly.discardAbove s n e).timeUs
@[simp] theorem discardAbove_free (n e : Nat) : (discardAbove s n e).free = s.free := (WorkOnly.discardAbove s n e).free
@[simp] theorem discardAbove_service (n e : Nat) : (discardAbove s n e).service = s.service := (WorkOnly.discardAbove s n e).service
@[simp] theorem discardAbove_fns (n e : Nat) : (discardAbove s n e).fns = s.fns := (WorkOnly.discardAbove s n e).fns
@[simp] theorem discardAbove_link (n e : Nat) : (discardAbove s n e).link = s.link := (WorkOnly.discardAbove s n e).link
@[simp] theorem discardAbove_groups (n e : Nat) : (discardAbove s n e).groups = s.groups := (WorkOnly.discardAbove s n e).groups
@[simp] theorem discardAbove_commit (n e : Nat) : (discardAbove s n e).commit = s.commit := (WorkOnly.discardAbove s n e).commit
@[simp] theorem discardAbove_keys (n e : Nat) : (discardAbove s n e).keys = s.keys := (WorkOnly.discardAbove s n e).keys
@[simp] theorem discardAbove_meas (n e : Nat) : (discardAbove s n e).meas = s.meas := (WorkOnly.discardAbove s n e).meas
@[simp] theorem discardAbove_quorum (n e : Nat) : (discardAbove s n e).quorum = s.quorum := (WorkOnly.discardAbove s n e).quorum
@[simp] theorem discardAbove_tamper (n e : Nat) : (discardAbove s n e).tamper = s.tamper := (WorkOnly.discardAbove s n e).tamper
@[simp] theorem discardAbove_life (n e : Nat) : (discardAbove s n e).life = s.life := (WorkOnly.discardAbove s n e).life
@[simp] theorem discardAbove_power (n e : Nat) : (discardAbove s n e).power = s.power := (WorkOnly.discardAbove s n e).power
@[simp] theorem discardAbove_seam (n e : Nat) : (discardAbove s n e).seam = s.seam := (WorkOnly.discardAbove s n e).seam
@[simp] theorem discardAbove_pair (n e : Nat) : (discardAbove s n e).pair = s.pair := (WorkOnly.discardAbove s n e).pair
@[simp] theorem discardAbove_od (n e : Nat) : (discardAbove s n e).od = s.od := (WorkOnly.discardAbove s n e).od
@[simp] theorem discardAbove_tele (n e : Nat) : (discardAbove s n e).tele = s.tele := (WorkOnly.discardAbove s n e).tele
@[simp] theorem discardAbove_bus (n e : Nat) : (discardAbove s n e).bus = s.bus := (WorkOnly.discardAbove s n e).bus
@[simp] theorem discardAbove_pending (n e : Nat) : (discardAbove s n e).pending = s.pending := (WorkOnly.discardAbove s n e).pending

@[simp] theorem closeSession_opUs (e : Nat) : (closeSession s e).opUs = s.opUs := (WorkOnly.closeSession s e).opUs
@[simp] theorem closeSession_timeUs (e : Nat) : (closeSession s e).timeUs = s.timeUs := (WorkOnly.closeSession s e).timeUs
@[simp] theorem closeSession_free (e : Nat) : (closeSession s e).free = s.free := (WorkOnly.closeSession s e).free
@[simp] theorem closeSession_service (e : Nat) : (closeSession s e).service = s.service := (WorkOnly.closeSession s e).service
@[simp] theorem closeSession_fns (e : Nat) : (closeSession s e).fns = s.fns := (WorkOnly.closeSession s e).fns
@[simp] theorem closeSession_link (e : Nat) : (closeSession s e).link = s.link := (WorkOnly.closeSession s e).link
@[simp] theorem closeSession_groups (e : Nat) : (closeSession s e).groups = s.groups := (WorkOnly.closeSession s e).groups
@[simp] theorem closeSession_commit (e : Nat) : (closeSession s e).commit = s.commit := (WorkOnly.closeSession s e).commit
@[simp] theorem closeSession_keys (e : Nat) : (closeSession s e).keys = s.keys := (WorkOnly.closeSession s e).keys
@[simp] theorem closeSession_meas (e : Nat) : (closeSession s e).meas = s.meas := (WorkOnly.closeSession s e).meas
@[simp] theorem closeSession_quorum (e : Nat) : (closeSession s e).quorum = s.quorum := (WorkOnly.closeSession s e).quorum
@[simp] theorem closeSession_tamper (e : Nat) : (closeSession s e).tamper = s.tamper := (WorkOnly.closeSession s e).tamper
@[simp] theorem closeSession_life (e : Nat) : (closeSession s e).life = s.life := (WorkOnly.closeSession s e).life
@[simp] theorem closeSession_power (e : Nat) : (closeSession s e).power = s.power := (WorkOnly.closeSession s e).power
@[simp] theorem closeSession_seam (e : Nat) : (closeSession s e).seam = s.seam := (WorkOnly.closeSession s e).seam
@[simp] theorem closeSession_pair (e : Nat) : (closeSession s e).pair = s.pair := (WorkOnly.closeSession s e).pair
@[simp] theorem closeSession_od (e : Nat) : (closeSession s e).od = s.od := (WorkOnly.closeSession s e).od
@[simp] theorem closeSession_tele (e : Nat) : (closeSession s e).tele = s.tele := (WorkOnly.closeSession s e).tele
@[simp] theorem closeSession_bus (e : Nat) : (closeSession s e).bus = s.bus := (WorkOnly.closeSession s e).bus
@[simp] theorem closeSession_pending (e : Nat) : (closeSession s e).pending = s.pending := (WorkOnly.closeSession s e).pending

@[simp] theorem closeSessions_opUs (p : Engine → Bool) : (closeSessions s p).opUs = s.opUs := (WorkOnly.closeSessions s p).opUs
@[simp] theorem closeSessions_timeUs (p : Engine → Bool) : (closeSessions s p).timeUs = s.timeUs := (WorkOnly.closeSessions s p).timeUs
@[simp] theorem closeSessions_free (p : Engine → Bool) : (closeSessions s p).free = s.free := (WorkOnly.closeSessions s p).free
@[simp] theorem closeSessions_service (p : Engine → Bool) : (closeSessions s p).service = s.service := (WorkOnly.closeSessions s p).service
@[simp] theorem closeSessions_fns (p : Engine → Bool) : (closeSessions s p).fns = s.fns := (WorkOnly.closeSessions s p).fns
@[simp] theorem closeSessions_link (p : Engine → Bool) : (closeSessions s p).link = s.link := (WorkOnly.closeSessions s p).link
@[simp] theorem closeSessions_groups (p : Engine → Bool) : (closeSessions s p).groups = s.groups := (WorkOnly.closeSessions s p).groups
@[simp] theorem closeSessions_commit (p : Engine → Bool) : (closeSessions s p).commit = s.commit := (WorkOnly.closeSessions s p).commit
@[simp] theorem closeSessions_keys (p : Engine → Bool) : (closeSessions s p).keys = s.keys := (WorkOnly.closeSessions s p).keys
@[simp] theorem closeSessions_meas (p : Engine → Bool) : (closeSessions s p).meas = s.meas := (WorkOnly.closeSessions s p).meas
@[simp] theorem closeSessions_quorum (p : Engine → Bool) : (closeSessions s p).quorum = s.quorum := (WorkOnly.closeSessions s p).quorum
@[simp] theorem closeSessions_tamper (p : Engine → Bool) : (closeSessions s p).tamper = s.tamper := (WorkOnly.closeSessions s p).tamper
@[simp] theorem closeSessions_life (p : Engine → Bool) : (closeSessions s p).life = s.life := (WorkOnly.closeSessions s p).life
@[simp] theorem closeSessions_power (p : Engine → Bool) : (closeSessions s p).power = s.power := (WorkOnly.closeSessions s p).power
@[simp] theorem closeSessions_seam (p : Engine → Bool) : (closeSessions s p).seam = s.seam := (WorkOnly.closeSessions s p).seam
@[simp] theorem closeSessions_pair (p : Engine → Bool) : (closeSessions s p).pair = s.pair := (WorkOnly.closeSessions s p).pair
@[simp] theorem closeSessions_od (p : Engine → Bool) : (closeSessions s p).od = s.od := (WorkOnly.closeSessions s p).od
@[simp] theorem closeSessions_tele (p : Engine → Bool) : (closeSessions s p).tele = s.tele := (WorkOnly.closeSessions s p).tele
@[simp] theorem closeSessions_bus (p : Engine → Bool) : (closeSessions s p).bus = s.bus := (WorkOnly.closeSessions s p).bus
@[simp] theorem closeSessions_pending (p : Engine → Bool) : (closeSessions s p).pending = s.pending := (WorkOnly.closeSessions s p).pending

@[simp] theorem dropReservation_opUs (n : Nat) : (dropReservation s n).opUs = s.opUs := (WorkOnly.dropReservation s n).opUs
@[simp] theorem dropReservation_timeUs (n : Nat) : (dropReservation s n).timeUs = s.timeUs := (WorkOnly.dropReservation s n).timeUs
@[simp] theorem dropReservation_free (n : Nat) : (dropReservation s n).free = s.free := (WorkOnly.dropReservation s n).free
@[simp] theorem dropReservation_service (n : Nat) : (dropReservation s n).service = s.service := (WorkOnly.dropReservation s n).service
@[simp] theorem dropReservation_fns (n : Nat) : (dropReservation s n).fns = s.fns := (WorkOnly.dropReservation s n).fns
@[simp] theorem dropReservation_link (n : Nat) : (dropReservation s n).link = s.link := (WorkOnly.dropReservation s n).link
@[simp] theorem dropReservation_groups (n : Nat) : (dropReservation s n).groups = s.groups := (WorkOnly.dropReservation s n).groups
@[simp] theorem dropReservation_commit (n : Nat) : (dropReservation s n).commit = s.commit := (WorkOnly.dropReservation s n).commit
@[simp] theorem dropReservation_keys (n : Nat) : (dropReservation s n).keys = s.keys := (WorkOnly.dropReservation s n).keys
@[simp] theorem dropReservation_meas (n : Nat) : (dropReservation s n).meas = s.meas := (WorkOnly.dropReservation s n).meas
@[simp] theorem dropReservation_quorum (n : Nat) : (dropReservation s n).quorum = s.quorum := (WorkOnly.dropReservation s n).quorum
@[simp] theorem dropReservation_tamper (n : Nat) : (dropReservation s n).tamper = s.tamper := (WorkOnly.dropReservation s n).tamper
@[simp] theorem dropReservation_life (n : Nat) : (dropReservation s n).life = s.life := (WorkOnly.dropReservation s n).life
@[simp] theorem dropReservation_power (n : Nat) : (dropReservation s n).power = s.power := (WorkOnly.dropReservation s n).power
@[simp] theorem dropReservation_seam (n : Nat) : (dropReservation s n).seam = s.seam := (WorkOnly.dropReservation s n).seam
@[simp] theorem dropReservation_pair (n : Nat) : (dropReservation s n).pair = s.pair := (WorkOnly.dropReservation s n).pair
@[simp] theorem dropReservation_od (n : Nat) : (dropReservation s n).od = s.od := (WorkOnly.dropReservation s n).od
@[simp] theorem dropReservation_tele (n : Nat) : (dropReservation s n).tele = s.tele := (WorkOnly.dropReservation s n).tele
@[simp] theorem dropReservation_bus (n : Nat) : (dropReservation s n).bus = s.bus := (WorkOnly.dropReservation s n).bus
@[simp] theorem dropReservation_pending (n : Nat) : (dropReservation s n).pending = s.pending := (WorkOnly.dropReservation s n).pending

@[simp] theorem countDisable_opUs (p : Nat) (f : Disable → Disable) : (countDisable s p f).opUs = s.opUs := (WorkOnly.countDisable s p f).opUs
@[simp] theorem countDisable_timeUs (p : Nat) (f : Disable → Disable) : (countDisable s p f).timeUs = s.timeUs := (WorkOnly.countDisable s p f).timeUs
@[simp] theorem countDisable_free (p : Nat) (f : Disable → Disable) : (countDisable s p f).free = s.free := (WorkOnly.countDisable s p f).free
@[simp] theorem countDisable_service (p : Nat) (f : Disable → Disable) : (countDisable s p f).service = s.service := (WorkOnly.countDisable s p f).service
@[simp] theorem countDisable_fns (p : Nat) (f : Disable → Disable) : (countDisable s p f).fns = s.fns := (WorkOnly.countDisable s p f).fns
@[simp] theorem countDisable_link (p : Nat) (f : Disable → Disable) : (countDisable s p f).link = s.link := (WorkOnly.countDisable s p f).link
@[simp] theorem countDisable_groups (p : Nat) (f : Disable → Disable) : (countDisable s p f).groups = s.groups := (WorkOnly.countDisable s p f).groups
@[simp] theorem countDisable_commit (p : Nat) (f : Disable → Disable) : (countDisable s p f).commit = s.commit := (WorkOnly.countDisable s p f).commit
@[simp] theorem countDisable_keys (p : Nat) (f : Disable → Disable) : (countDisable s p f).keys = s.keys := (WorkOnly.countDisable s p f).keys
@[simp] theorem countDisable_meas (p : Nat) (f : Disable → Disable) : (countDisable s p f).meas = s.meas := (WorkOnly.countDisable s p f).meas
@[simp] theorem countDisable_quorum (p : Nat) (f : Disable → Disable) : (countDisable s p f).quorum = s.quorum := (WorkOnly.countDisable s p f).quorum
@[simp] theorem countDisable_tamper (p : Nat) (f : Disable → Disable) : (countDisable s p f).tamper = s.tamper := (WorkOnly.countDisable s p f).tamper
@[simp] theorem countDisable_life (p : Nat) (f : Disable → Disable) : (countDisable s p f).life = s.life := (WorkOnly.countDisable s p f).life
@[simp] theorem countDisable_power (p : Nat) (f : Disable → Disable) : (countDisable s p f).power = s.power := (WorkOnly.countDisable s p f).power
@[simp] theorem countDisable_seam (p : Nat) (f : Disable → Disable) : (countDisable s p f).seam = s.seam := (WorkOnly.countDisable s p f).seam
@[simp] theorem countDisable_pair (p : Nat) (f : Disable → Disable) : (countDisable s p f).pair = s.pair := (WorkOnly.countDisable s p f).pair
@[simp] theorem countDisable_od (p : Nat) (f : Disable → Disable) : (countDisable s p f).od = s.od := (WorkOnly.countDisable s p f).od
@[simp] theorem countDisable_tele (p : Nat) (f : Disable → Disable) : (countDisable s p f).tele = s.tele := (WorkOnly.countDisable s p f).tele
@[simp] theorem countDisable_bus (p : Nat) (f : Disable → Disable) : (countDisable s p f).bus = s.bus := (WorkOnly.countDisable s p f).bus
@[simp] theorem countDisable_pending (p : Nat) (f : Disable → Disable) : (countDisable s p f).pending = s.pending := (WorkOnly.countDisable s p f).pending

@[simp] theorem finish_opUs (n : Nat) (st : Status) (d : Nat) : (finish s n st d).opUs = s.opUs := State.modSlot_opUs s n _
@[simp] theorem finish_timeUs (n : Nat) (st : Status) (d : Nat) : (finish s n st d).timeUs = s.timeUs := State.modSlot_timeUs s n _
@[simp] theorem finish_free (n : Nat) (st : Status) (d : Nat) : (finish s n st d).free = s.free := State.modSlot_free s n _
@[simp] theorem finish_service (n : Nat) (st : Status) (d : Nat) : (finish s n st d).service = s.service := State.modSlot_service s n _
@[simp] theorem finish_fns (n : Nat) (st : Status) (d : Nat) : (finish s n st d).fns = s.fns := State.modSlot_fns s n _
@[simp] theorem finish_link (n : Nat) (st : Status) (d : Nat) : (finish s n st d).link = s.link := State.modSlot_link s n _
@[simp] theorem finish_rings (n : Nat) (st : Status) (d : Nat) : (finish s n st d).rings = s.rings := State.modSlot_rings s n _
@[simp] theorem finish_groups (n : Nat) (st : Status) (d : Nat) : (finish s n st d).groups = s.groups := State.modSlot_groups s n _
@[simp] theorem finish_commit (n : Nat) (st : Status) (d : Nat) : (finish s n st d).commit = s.commit := State.modSlot_commit s n _
@[simp] theorem finish_keys (n : Nat) (st : Status) (d : Nat) : (finish s n st d).keys = s.keys := State.modSlot_keys s n _
@[simp] theorem finish_parts (n : Nat) (st : Status) (d : Nat) : (finish s n st d).parts = s.parts := State.modSlot_parts s n _
@[simp] theorem finish_meas (n : Nat) (st : Status) (d : Nat) : (finish s n st d).meas = s.meas := State.modSlot_meas s n _
@[simp] theorem finish_quorum (n : Nat) (st : Status) (d : Nat) : (finish s n st d).quorum = s.quorum := State.modSlot_quorum s n _
@[simp] theorem finish_resv (n : Nat) (st : Status) (d : Nat) : (finish s n st d).resv = s.resv := State.modSlot_resv s n _
@[simp] theorem finish_atcResv (n : Nat) (st : Status) (d : Nat) : (finish s n st d).atcResv = s.atcResv := State.modSlot_atcResv s n _
@[simp] theorem finish_units (n : Nat) (st : Status) (d : Nat) : (finish s n st d).units = s.units := State.modSlot_units s n _
@[simp] theorem finish_entropy (n : Nat) (st : Status) (d : Nat) : (finish s n st d).entropy = s.entropy := State.modSlot_entropy s n _
@[simp] theorem finish_eic (n : Nat) (st : Status) (d : Nat) : (finish s n st d).eic = s.eic := State.modSlot_eic s n _
@[simp] theorem finish_tamper (n : Nat) (st : Status) (d : Nat) : (finish s n st d).tamper = s.tamper := State.modSlot_tamper s n _
@[simp] theorem finish_life (n : Nat) (st : Status) (d : Nat) : (finish s n st d).life = s.life := State.modSlot_life s n _
@[simp] theorem finish_power (n : Nat) (st : Status) (d : Nat) : (finish s n st d).power = s.power := State.modSlot_power s n _
@[simp] theorem finish_seam (n : Nat) (st : Status) (d : Nat) : (finish s n st d).seam = s.seam := State.modSlot_seam s n _
@[simp] theorem finish_pair (n : Nat) (st : Status) (d : Nat) : (finish s n st d).pair = s.pair := State.modSlot_pair s n _
@[simp] theorem finish_od (n : Nat) (st : Status) (d : Nat) : (finish s n st d).od = s.od := State.modSlot_od s n _
@[simp] theorem finish_log (n : Nat) (st : Status) (d : Nat) : (finish s n st d).log = s.log := State.modSlot_log s n _
@[simp] theorem finish_tele (n : Nat) (st : Status) (d : Nat) : (finish s n st d).tele = s.tele := State.modSlot_tele s n _
@[simp] theorem finish_bus (n : Nat) (st : Status) (d : Nat) : (finish s n st d).bus = s.bus := State.modSlot_bus s n _
@[simp] theorem finish_pending (n : Nat) (st : Status) (d : Nat) : (finish s n st d).pending = s.pending := State.modSlot_pending s n _

end Sys2Proof.Machine
end

