-- ==== Sys2Proof/Laws/Od.lean ====
section
/-! SUPPORT. What serving an object-dictionary request comes to once it is taken and its sender may make it. -/

namespace Sys2Proof.Machine

/-- A write that is taken, served in this service state and made by one who may make it does what it is for. -/
theorem serveWrite_taken {s t : State} {rq : Req} {idx sub op : Nat} {stopped : Bool} {may : State → Bool} {f : State → State}
    (ht : takeReq s rq idx sub op = (t, true)) (hb : t.service ≠ .bootStopped) (hm : may t = true) :
    serveWrite s rq idx sub op stopped may f = f t := by
  simp [serveWrite, ht, hb, hm]

/-- A write under a role, once its check passes. -/
theorem roleWrite_taken {s t : State} {rq : Req} {idx sub mask : Nat} {pa0 : Bool} {check : State → Option Status} {f : State → State}
    (ht : takeReq s rq idx sub (plainOp idx sub) = (t, true)) (hb : t.service ≠ .bootStopped) (hm : t.holds rq mask pa0 = true)
    (hc : check t = none) : roleWrite s rq idx sub mask pa0 check f = f t := by
  rw [roleWrite, serveWrite_taken ht hb hm]; simp [hc]

/-- A write that needs no session, once its check passes. -/
theorem openServe_taken {s t : State} {rq : Req} {idx sub : Nat} {check : State → Option Status} {f : State → State}
    (ht : takeReq s rq idx sub (plainOp idx sub) = (t, true)) (hb : t.service ≠ .bootStopped)
    (hm : t.factory = true ∨ t.openWrite idx sub = true ∨ t.anyRole rq = true) (hc : check t = none) :
    openServe s rq idx sub check f = f t := by
  rw [openServe, serveWrite_taken ht hb (by rcases hm with h | h | h <;> simp [h])]; simp [hc]

/-- A granted write where the life-cycle state waives grants, once its check passes. -/
theorem grantWrite_waived {s t : State} {rq : Req} {idx sub cls part : Nat} {domain : Bool} {v grant : Bytes}
    {check : State → Option Status} {f : State → List Change → State}
    (ht : takeReq s rq idx sub (writeOp domain grant) = (t, true)) (hb : t.service ≠ .bootStopped) (hm : t.mayGrant rq = true)
    (hf : t.factory = true) (hc : check t = none) : grantWrite s rq idx sub cls part domain v grant check f = f t [] := by
  rw [grantWrite, serveWrite_taken ht hb hm]; simp [hf, hc]

/-- A granted write under a grant that passes R200, once its check passes. -/
theorem grantWrite_granted {s t : State} {rq : Req} {idx sub cls part : Nat} {domain : Bool} {v grant : Bytes} {g : Grant}
    {check : State → Option Status} {f : State → List Change → State}
    (ht : takeReq s rq idx sub (writeOp domain grant) = (t, true)) (hb : t.service ≠ .bootStopped) (hm : t.mayGrant rq = true)
    (hf : t.factory = false) (hg : t.grantFor cls part v grant (idx == 0x7001) = some g) (hc : check t = none) :
    grantWrite s rq idx sub cls part domain v grant check f = f t [.grantUse g.id g.own] := by
  rw [grantWrite, serveWrite_taken ht hb hm]; simp [hf, hg, hc]

end Sys2Proof.Machine
end

