-- ==== Sys2Proof/Laws/Onward.lean ====
section
/-! SUPPORT. `Onward` as a relation: it is reflexive and transitive, holds over folds, and an update of the state that leaves what it
speaks of alone keeps it. -/

namespace Sys2Proof.Machine

theorem Onward.refl (s : State) : Onward s s := ⟨rfl, Nat.le_refl _, fun _ _ h => h, id⟩

theorem Onward.trans {a b c : State} (h : Onward a b) (h' : Onward b c) : Onward a c :=
  ⟨h'.queue.trans h.queue, Nat.le_trans h.fresh h'.fresh, fun k n x => h'.otp k n (h.otp k n x), fun x => h'.tables (h.tables x)⟩

/-- A fold whose every step goes onward does. -/
theorem Onward.fold {α : Type} {s e : State} {g : State → α → State} {l : List α} (h : Onward s e) (hg : ∀ t a, Onward t (g t a)) :
    Onward s (l.foldl g e) :=
  h.trans (foldl_rel (P := Onward) Onward.refl (fun _ _ _ => Onward.trans) g hg l e)

/-- An update that leaves the queue, the OTP words, the buffers and the sorted tables alone. -/
theorem Onward.upd {s e : State} {op tm fr : Nat} {sv : Service} {fns : Tab Fn} {lk : Link} {rg : Tab Ring} {gr : Tab Group}
    {ad : Admission} {cm : Commit} {ks : Keys} {pt : Tab Part} {ms : Meas} {qm : Quorum} {rv : Tab Resv} {av : List (Nat × Bytes × Nat)}
    {un : Units} {en : Entropy} {ei : Eic} {ta : Tamper} {lf : LifeCycle} {pw : PowerState} {sm : Seam} {pr : Pair} {o : Od}
    {lg : Recorder} {te : Telemetry} {bu : Bus} (h : Onward s e) (hf : e.free ≤ fr) (hl : lf.otp = e.life.otp)
    (hr : o.reqBuf = e.od.reqBuf) (hp : o.replyBuf = e.od.replyBuf) (ha : ad.slots = e.adm.slots) (hk : ks.recs = e.keys.recs)
    (hc : cm.base = e.commit.base) :
    Onward s ⟨op, tm, fr, sv, fns, lk, rg, gr, ad, cm, ks, pt, ms, qm, rv, av, un, en, ei, ta, lf, pw, sm, pr, o, lg, te, bu, e.pending⟩ :=
  h.trans ⟨rfl, hf, fun k n x => by simpa [State.otp, hl] using x, fun x => by simpa [TablesWf, BuffersWf, hr, hp, ha, hk, hc] using x⟩

/-- Such an update can be left out. -/
theorem Onward.upd_eq {s e : State} {op tm fr : Nat} {sv : Service} {fns : Tab Fn} {lk : Link} {rg : Tab Ring} {gr : Tab Group}
    {ad : Admission} {cm : Commit} {ks : Keys} {pt : Tab Part} {ms : Meas} {qm : Quorum} {rv : Tab Resv} {av : List (Nat × Bytes × Nat)}
    {un : Units} {en : Entropy} {ei : Eic} {ta : Tamper} {lf : LifeCycle} {pw : PowerState} {sm : Seam} {pr : Pair} {o : Od}
    {lg : Recorder} {te : Telemetry} {bu : Bus} (hf : fr = e.free) (hl : lf.otp = e.life.otp)
    (hr : o.reqBuf = e.od.reqBuf) (hp : o.replyBuf = e.od.replyBuf) (ha : ad.slots = e.adm.slots) (hk : ks.recs = e.keys.recs)
    (hc : cm.base = e.commit.base) :
    Onward s ⟨op, tm, fr, sv, fns, lk, rg, gr, ad, cm, ks, pt, ms, qm, rv, av, un, en, ei, ta, lf, pw, sm, pr, o, lg, te, bu, e.pending⟩ =
      Onward s e := by
  subst hf
  refine propext ⟨fun h => h.trans ?_, fun h => h.trans ?_⟩
  · exact ⟨rfl, Nat.le_refl _, fun k n x => by simpa [State.otp, hl] using x, fun x => by simpa [TablesWf, BuffersWf, hr, hp, ha, hk, hc] using x⟩
  · exact Onward.upd (Onward.refl _) (Nat.le_refl _) hl hr hp ha hk hc

/-- The same with new slots. -/
theorem Onward.updSlots {s e : State} {op tm fr : Nat} {sv : Service} {fns : Tab Fn} {lk : Link} {rg : Tab Ring} {gr : Tab Group}
    {ad : Admission} {cm : Commit} {ks : Keys} {pt : Tab Part} {ms : Meas} {qm : Quorum} {rv : Tab Resv} {av : List (Nat × Bytes × Nat)}
    {un : Units} {en : Entropy} {ei : Eic} {ta : Tamper} {lf : LifeCycle} {pw : PowerState} {sm : Seam} {pr : Pair} {o : Od}
    {lg : Recorder} {te : Telemetry} {bu : Bus} (h : Onward s e) (hf : e.free ≤ fr) (hl : lf.otp = e.life.otp)
    (hr : cwf 0#8 e.od.reqBuf = true → cwf 0#8 o.reqBuf = true) (hp : cwf 0#8 e.od.replyBuf = true → cwf 0#8 o.replyBuf = true)
    (ha : tsorted e.adm.slots = true → tsorted ad.slots = true) (hk : tsorted e.keys.recs = true → tsorted ks.recs = true)
    (hc : tsorted e.commit.base.keys.recs = true → tsorted cm.base.keys.recs = true) :
    Onward s ⟨op, tm, fr, sv, fns, lk, rg, gr, ad, cm, ks, pt, ms, qm, rv, av, un, en, ei, ta, lf, pw, sm, pr, o, lg, te, bu, e.pending⟩ :=
  h.trans ⟨rfl, hf, fun k n x => by simpa [State.otp, hl] using x, fun ⟨⟨x1, x2⟩, x3, x4, x5⟩ => ⟨⟨hr x1, hp x2⟩, ha x3, hk x4, hc x5⟩⟩

/-- One record written, and nothing else the relation speaks of. -/
theorem Onward.recsSet {s e : State} {op tm fr : Nat} {sv : Service} {fns : Tab Fn} {lk : Link} {rg : Tab Ring} {gr : Tab Group}
    {ad : Admission} {cm : Commit} {pt : Tab Part} {ms : Meas} {qm : Quorum} {rv : Tab Resv} {av : List (Nat × Bytes × Nat)}
    {un : Units} {en : Entropy} {ei : Eic} {ta : Tamper} {lf : LifeCycle} {pw : PowerState} {sm : Seam} {pr : Pair} {o : Od}
    {lg : Recorder} {te : Telemetry} {bu : Bus}
    {k : Nat} {v : KeyRec} {k2 : Tab Nat} {k3 : List Nat} {k4 : Tab (Nat × Bytes)} {k5 : Tab Lineage} {k6 : List Nat}
    {k7 : Tab CacheEntry} {k8 : Nat} {k9 : List Nat} {k10 : Tab Nat} {k11 k12 : Nat} {k13 k14 : Option Bytes} {k15 : List KdJob}
    (h : Onward s e)
    (hf : fr = e.free) (hl : lf.otp = e.life.otp) (hr : o.reqBuf = e.od.reqBuf) (hp : o.replyBuf = e.od.replyBuf)
    (ha : ad.slots = e.adm.slots) (hc : cm.base = e.commit.base) :
    Onward s ⟨op, tm, fr, sv, fns, lk, rg, gr, ad, cm, ⟨tset e.keys.recs k v, k2, k3, k4, k5, k6, k7, k8, k9, k10, k11, k12, k13, k14, k15⟩, pt,
      ms, qm, rv, av, un, en, ei, ta, lf, pw, sm, pr, o, lg, te, bu, e.pending⟩ :=
  Onward.updSlots h (Nat.le_of_eq hf.symm) hl (fun x => hr ▸ x) (fun x => hp ▸ x) (fun x => ha ▸ x) (fun x => tsorted_tset _ _ _ x)
    (fun x => hc ▸ x)

/-- Every record changed in place, and nothing else the relation speaks of. -/
theorem Onward.recsMap {s e : State} {op tm fr : Nat} {sv : Service} {fns : Tab Fn} {lk : Link} {rg : Tab Ring} {gr : Tab Group}
    {ad : Admission} {cm : Commit} {pt : Tab Part} {ms : Meas} {qm : Quorum} {rv : Tab Resv} {av : List (Nat × Bytes × Nat)}
    {un : Units} {en : Entropy} {ei : Eic} {ta : Tamper} {lf : LifeCycle} {pw : PowerState} {sm : Seam} {pr : Pair} {o : Od}
    {lg : Recorder} {te : Telemetry} {bu : Bus}
    {f : Nat → KeyRec → KeyRec} {k2 : Tab Nat} {k3 : List Nat} {k4 : Tab (Nat × Bytes)} {k5 : Tab Lineage} {k6 : List Nat}
    {k7 : Tab CacheEntry} {k8 : Nat} {k9 : List Nat} {k10 : Tab Nat} {k11 k12 : Nat} {k13 k14 : Option Bytes} {k15 : List KdJob}
    (h : Onward s e)
    (hf : fr = e.free) (hl : lf.otp = e.life.otp) (hr : o.reqBuf = e.od.reqBuf) (hp : o.replyBuf = e.od.replyBuf)
    (ha : ad.slots = e.adm.slots) (hc : cm.base = e.commit.base) :
    Onward s ⟨op, tm, fr, sv, fns, lk, rg, gr, ad, cm, ⟨tmap e.keys.recs f, k2, k3, k4, k5, k6, k7, k8, k9, k10, k11, k12, k13, k14, k15⟩, pt,
      ms, qm, rv, av, un, en, ei, ta, lf, pw, sm, pr, o, lg, te, bu, e.pending⟩ :=
  Onward.updSlots h (Nat.le_of_eq hf.symm) hl (fun x => hr ▸ x) (fun x => hp ▸ x) (fun x => ha ▸ x) (fun x => tsorted_tmap _ _ x)
    (fun x => hc ▸ x)

/-- Every descriptor changed in place, and nothing else the relation speaks of. -/
theorem Onward.slotsMap {s e : State} {op tm fr : Nat} {sv : Service} {fns : Tab Fn} {lk : Link} {rg : Tab Ring} {gr : Tab Group}
    {cm : Commit} {ks : Keys} {pt : Tab Part} {ms : Meas} {qm : Quorum} {rv : Tab Resv} {av : List (Nat × Bytes × Nat)}
    {un : Units} {en : Entropy} {ei : Eic} {ta : Tamper} {lf : LifeCycle} {pw : PowerState} {sm : Seam} {pr : Pair} {o : Od}
    {lg : Recorder} {te : Telemetry} {bu : Bus} {f : Nat → Slot → Slot} {a2 : Tab Nat} {a3 : Nat} {a4 : Bool} {a5 a6 : Tab Nat} {a7 : Nat}
    (h : Onward s e) (hf : fr = e.free) (hl : lf.otp = e.life.otp) (hr : o.reqBuf = e.od.reqBuf) (hp : o.replyBuf = e.od.replyBuf)
    (hk : ks.recs = e.keys.recs) (hc : cm.base = e.commit.base) :
    Onward s ⟨op, tm, fr, sv, fns, lk, rg, gr, ⟨tmap e.adm.slots f, a2, a3, a4, a5, a6, a7⟩, cm, ks, pt, ms, qm, rv, av, un, en, ei, ta, lf,
      pw, sm, pr, o, lg, te, bu, e.pending⟩ :=
  Onward.updSlots h (Nat.le_of_eq hf.symm) hl (fun x => hr ▸ x) (fun x => hp ▸ x) (fun x => tsorted_tmap _ _ x) (fun x => hk ▸ x)
    (fun x => hc ▸ x)

end Sys2Proof.Machine
end

