-- ==== Sys2Proof/Laws/OnwardShared.lean ====
section
/-! SUPPORT. No operation of a group takes back what `Onward` keeps: the flags, the recorder, the shared operations, the slots, the commit, the alarms, the fabric, the bindings and the units. -/

set_option linter.unreachableTactic false
set_option linter.unusedTactic false

namespace Sys2Proof.Machine

/-! ## Flags -/

theorem State.modFn_onward (s : State) (n : Nat) (f : Fn → Fn) : Onward s (State.modFn s n f) := by
  unfold State.modFn
  repeat' first
    | (with_reducible exact Onward.refl _)
    | (simp only [Onward.upd_eq])

theorem State.modFn_fwd {r_ : State} {s : State} {n : Nat} {f : Fn → Fn} (h_ : Onward r_ s) : Onward r_ (State.modFn s n f) := h_.trans (State.modFn_onward ..)

theorem State.modRing_onward (s : State) (rid : Nat) (f : Ring → Ring) : Onward s (State.modRing s rid f) := by
  unfold State.modRing
  repeat' first
    | (with_reducible exact Onward.refl _)
    | (simp only [Onward.upd_eq])

theorem State.modRing_fwd {r_ : State} {s : State} {rid : Nat} {f : Ring → Ring} (h_ : Onward r_ s) : Onward r_ (State.modRing s rid f) := h_.trans (State.modRing_onward ..)

theorem State.modGroup_onward (s : State) (gid : Nat) (f : Group → Group) : Onward s (State.modGroup s gid f) := by
  unfold State.modGroup
  repeat' first
    | (with_reducible exact Onward.refl _)
    | (simp only [Onward.upd_eq])

theorem State.modGroup_fwd {r_ : State} {s : State} {gid : Nat} {f : Group → Group} (h_ : Onward r_ s) : Onward r_ (State.modGroup s gid f) := h_.trans (State.modGroup_onward ..)

theorem State.modPart_onward (s : State) (p : Nat) (f : Part → Part) : Onward s (State.modPart s p f) := by
  unfold State.modPart
  repeat' first
    | (with_reducible exact Onward.refl _)
    | (simp only [Onward.upd_eq])

theorem State.modPart_fwd {r_ : State} {s : State} {p : Nat} {f : Part → Part} (h_ : Onward r_ s) : Onward r_ (State.modPart s p f) := h_.trans (State.modPart_onward ..)

theorem State.modSlot_onward (s : State) (n : Nat) (f : Slot → Slot) : Onward s (State.modSlot s n f) := by
  unfold State.modSlot
  split
  · exact Onward.refl _
  · exact Onward.updSlots (Onward.refl _) (Nat.le_refl _) rfl id id (tsorted_tset _ _ _) id id

theorem State.modSlot_fwd {r_ : State} {s : State} {n : Nat} {f : Slot → Slot} (h_ : Onward r_ s) : Onward r_ (State.modSlot s n f) := h_.trans (State.modSlot_onward ..)

theorem State.modLane_onward (s : State) (l : Nat) (f : Lane → Lane) : Onward s (State.modLane s l f) := by
  unfold State.modLane
  repeat' first
    | (with_reducible exact Onward.refl _)
    | (simp only [Onward.upd_eq])

theorem State.modLane_fwd {r_ : State} {s : State} {l : Nat} {f : Lane → Lane} (h_ : Onward r_ s) : Onward r_ (State.modLane s l f) := h_.trans (State.modLane_onward ..)

theorem State.modHash_onward (s : State) (u : Nat) (f : HashUnit → HashUnit) : Onward s (State.modHash s u f) := by
  unfold State.modHash
  repeat' first
    | (with_reducible exact Onward.refl _)
    | (simp only [Onward.upd_eq])

theorem State.modHash_fwd {r_ : State} {s : State} {u : Nat} {f : HashUnit → HashUnit} (h_ : Onward r_ s) : Onward r_ (State.modHash s u f) := h_.trans (State.modHash_onward ..)

theorem State.modEngine_onward (s : State) (e : Nat) (f : Engine → Engine) : Onward s (State.modEngine s e f) := by
  unfold State.modEngine
  repeat' first
    | (with_reducible exact Onward.refl _)
    | (simp only [Onward.upd_eq])

theorem State.modEngine_fwd {r_ : State} {s : State} {e : Nat} {f : Engine → Engine} (h_ : Onward r_ s) : Onward r_ (State.modEngine s e f) := h_.trans (State.modEngine_onward ..)

theorem State.modPlume_onward (s : State) (u : Nat) (f : Plume → Plume) : Onward s (State.modPlume s u f) := by
  unfold State.modPlume
  repeat' first
    | (with_reducible exact Onward.refl _)
    | (simp only [Onward.upd_eq])

theorem State.modPlume_fwd {r_ : State} {s : State} {u : Nat} {f : Plume → Plume} (h_ : Onward r_ s) : Onward r_ (State.modPlume s u f) := h_.trans (State.modPlume_onward ..)

theorem State.modLooper_onward (s : State) (f : Looper → Looper) : Onward s (State.modLooper s f) := by
  unfold State.modLooper
  repeat' first
    | (with_reducible exact Onward.refl _)
    | (simp only [Onward.upd_eq])

theorem State.modLooper_fwd {r_ : State} {s : State} {f : Looper → Looper} (h_ : Onward r_ s) : Onward r_ (State.modLooper s f) := h_.trans (State.modLooper_onward ..)

theorem State.modCore_onward (s : State) (c : Nat) (f : Core → Core) : Onward s (State.modCore s c f) := by
  unfold State.modCore
  repeat' first
    | (with_reducible exact Onward.refl _)
    | (simp only [Onward.upd_eq])

theorem State.modCore_fwd {r_ : State} {s : State} {c : Nat} {f : Core → Core} (h_ : Onward r_ s) : Onward r_ (State.modCore s c f) := h_.trans (State.modCore_onward ..)

theorem State.modPort_onward (s : State) (k : Nat) (f : Port → Port) : Onward s (State.modPort s k f) := by
  unfold State.modPort
  repeat' first
    | (with_reducible exact Onward.refl _)
    | (simp only [Onward.upd_eq])

theorem State.modPort_fwd {r_ : State} {s : State} {k : Nat} {f : Port → Port} (h_ : Onward r_ s) : Onward r_ (State.modPort s k f) := h_.trans (State.modPort_onward ..)

theorem State.odSet_onward (s : State) (idx sub : Nat) (v : Bytes) : Onward s (State.odSet s idx sub v) := by
  unfold State.odSet
  repeat' first
    | (with_reducible exact Onward.refl _)
    | (simp only [Onward.upd_eq])

theorem State.odSet_fwd {r_ : State} {s : State} {idx sub : Nat} {v : Bytes} (h_ : Onward r_ s) : Onward r_ (State.odSet s idx sub v) := h_.trans (State.odSet_onward ..)

/-! ## Recorder -/

theorem reportDrops_onward (s : State) : Onward s (reportDrops s) := by
  unfold reportDrops
  repeat' first
    | (with_reducible exact Onward.refl _)
    | (simp only [Onward.upd_eq])

theorem reportDrops_fwd {r_ : State} {s : State} (h_ : Onward r_ s) : Onward r_ (reportDrops s) := h_.trans (reportDrops_onward ..)

theorem flushLog_onward (s : State) (one : Bool) : Onward s (flushLog s one) := by
  unfold flushLog
  repeat' first
    | (with_reducible exact Onward.refl _)
    | (with_reducible apply reportDrops_fwd)
    | (simp only [Onward.upd_eq])

theorem flushLog_fwd {r_ : State} {s : State} {one : Bool} (h_ : Onward r_ s) : Onward r_ (flushLog s one) := h_.trans (flushLog_onward ..)

theorem settleLog_onward (s : State) : Onward s (settleLog s) := by
  unfold settleLog
  repeat' first
    | (with_reducible exact Onward.refl _)
    | (with_reducible apply flushLog_fwd)
    | split

theorem settleLog_fwd {r_ : State} {s : State} (h_ : Onward r_ s) : Onward r_ (settleLog s) := h_.trans (settleLog_onward ..)

theorem noteReturn_onward (s : State) : Onward s (noteReturn s) := by
  unfold noteReturn
  repeat' first
    | (with_reducible exact Onward.refl _)
    | (with_reducible apply reportDrops_fwd)
    | split

theorem noteReturn_fwd {r_ : State} {s : State} (h_ : Onward r_ s) : Onward r_ (noteReturn s) := h_.trans (noteReturn_onward ..)

theorem logMain_onward (s : State) (sev source code part aux : Nat) (data : Bytes) : Onward s (logMain s sev source code part aux data) := by
  obtain ⟨l, h⟩ := logMain_only s sev source code part aux data
  rw [h]
  exact Onward.upd (Onward.refl s) (Nat.le_refl _) rfl rfl rfl rfl rfl rfl

theorem logMain_fwd {r_ : State} {s : State} {sev source code part aux : Nat} {data : Bytes} (h_ : Onward r_ s) : Onward r_ (logMain s sev source code part aux data) := h_.trans (logMain_onward ..)

theorem logRepeat_onward (s : State) (rpt sev source code part aux : Nat) (data : Bytes) :
    Onward s (logRepeat s rpt sev source code part aux data) := by
  obtain ⟨l, h⟩ := logRepeat_only s rpt sev source code part aux data
  rw [h]
  exact Onward.upd (Onward.refl s) (Nat.le_refl _) rfl rfl rfl rfl rfl rfl

theorem logRepeat_fwd {r_ : State} {s : State} {rpt sev source code part aux : Nat} {data : Bytes} (h_ : Onward r_ s) : Onward r_ (logRepeat s rpt sev source code part aux data) := h_.trans (logRepeat_onward ..)

theorem logCocoon_onward (s : State) (sev source code part aux : Nat) (data : Bytes) : Onward s (logCocoon s sev source code part aux data) := by
  unfold logCocoon
  repeat' first
    | (with_reducible exact Onward.refl _)
    | (with_reducible apply logRepeat_fwd)

theorem logCocoon_fwd {r_ : State} {s : State} {sev source code part aux : Nat} {data : Bytes} (h_ : Onward r_ s) : Onward r_ (logCocoon s sev source code part aux data) := h_.trans (logCocoon_onward ..)

/-! ## Ops -/

theorem raiseHost_onward (s : State) (n : Nat) : Onward s (raiseHost s n) := by
  unfold raiseHost
  repeat' first
    | (with_reducible exact Onward.refl _)
    | (simp only [Onward.upd_eq])
    | split

theorem raiseHost_fwd {r_ : State} {s : State} {n : Nat} (h_ : Onward r_ s) : Onward r_ (raiseHost s n) := h_.trans (raiseHost_onward ..)

theorem latchWake_onward (s : State) (n : Nat) : Onward s (latchWake s n) := by
  unfold latchWake
  repeat' first
    | (with_reducible exact Onward.refl _)
    | (simp only [Onward.upd_eq])
    | split

theorem latchWake_fwd {r_ : State} {s : State} {n : Nat} (h_ : Onward r_ s) : Onward r_ (latchWake s n) := h_.trans (latchWake_onward ..)

theorem State.roused_onward (s : State) : Onward s (State.roused s) := by
  unfold State.roused
  repeat' first
    | (with_reducible exact Onward.refl _)
    | (simp only [Onward.upd_eq])
    | split

theorem State.roused_fwd {r_ : State} {s : State} (h_ : Onward r_ s) : Onward r_ (State.roused s) := h_.trans (State.roused_onward ..)

theorem rouse_onward (s : State) : Onward s (rouse s) := by
  unfold rouse
  repeat' first
    | (with_reducible exact Onward.refl _)
    | (simp only [Onward.upd_eq])
    | split

theorem rouse_fwd {r_ : State} {s : State} (h_ : Onward r_ s) : Onward r_ (rouse s) := h_.trans (rouse_onward ..)

theorem pendCore_onward (s : State) (n : Nat) : Onward s (pendCore s n) := by
  unfold pendCore
  repeat' first
    | (with_reducible exact Onward.refl _)
    | (simp only [Onward.upd_eq])
    | split

theorem pendCore_fwd {r_ : State} {s : State} {n : Nat} (h_ : Onward r_ s) : Onward r_ (pendCore s n) := h_.trans (pendCore_onward ..)

theorem raise_onward (s : State) (n : Nat) : Onward s (raise s n) := by
  unfold raise
  repeat' first
    | (with_reducible exact Onward.refl _)
    | (with_reducible apply pendCore_fwd)
    | (with_reducible apply rouse_fwd)
    | (with_reducible apply latchWake_fwd)
    | (with_reducible apply raiseHost_fwd)
    | split

theorem raise_fwd {r_ : State} {s : State} {n : Nat} (h_ : Onward r_ s) : Onward r_ (raise s n) := h_.trans (raise_onward ..)

theorem noteEligible_onward (before after : State) : Onward after (noteEligible before after) := by
  unfold noteEligible
  repeat' first
    | (with_reducible exact Onward.refl _)
    | (with_reducible apply raise_fwd)
    | split

theorem noteEligible_fwd {r_ : State} {before after : State} (h_ : Onward r_ after) : Onward r_ (noteEligible before after) := h_.trans (noteEligible_onward ..)

theorem noteService_onward (before after0 : State) : Onward after0 (noteService before after0) := by
  unfold noteService
  repeat' first
    | (with_reducible exact Onward.refl _)
    | (with_reducible apply noteEligible_fwd)
    | (with_reducible apply raise_fwd)
    | (simp only [Onward.upd_eq])
    | split

theorem noteService_fwd {r_ : State} {before after0 : State} (h_ : Onward r_ after0) : Onward r_ (noteService before after0) := h_.trans (noteService_onward ..)

theorem noteFunctions_onward (before after : State) : Onward after (noteFunctions before after) := by
  unfold noteFunctions
  repeat' first
    | (with_reducible exact Onward.refl _)
    | (with_reducible apply raise_fwd)
    | split

theorem noteFunctions_fwd {r_ : State} {before after : State} (h_ : Onward r_ after) : Onward r_ (noteFunctions before after) := h_.trans (noteFunctions_onward ..)

theorem draw_onward (s : State) (n : Nat) : Onward s (draw s n).2 :=
  Onward.upd (Onward.refl s) (Nat.le_add_right _ _) rfl rfl rfl rfl rfl rfl
theorem draw_pair {s : State} {n : Nat} {u : Bytes} {v : State} (h : draw s n = (u, v)) : Onward s v := by
  have := draw_onward s n
  rwa [h] at this

theorem freeNat_onward (s : State) : Onward s (freeNat s).2 :=
  Onward.upd (Onward.refl s) (Nat.le_succ _) rfl rfl rfl rfl rfl rfl
theorem freeNat_pair {s : State} {u : Nat} {v : State} (h : freeNat s = (u, v)) : Onward s v := by
  have := freeNat_onward s
  rwa [h] at this

theorem coreDraw_onward (s : State) (n : Nat) : Onward s (coreDraw s n).2 := by
  unfold coreDraw
  repeat' first
    | (with_reducible exact Onward.refl _)
    | (with_reducible apply State.modPart_fwd)
theorem coreDraw_pair {s : State} {n : Nat} {u : Bytes} {v : State} (h_ : coreDraw s n = (u, v)) : Onward s v := by
  have := coreDraw_onward s n
  rwa [h_] at this

theorem post_onward (s : State) (fn addr : Nat) (b : Bytes) : Onward s (post s fn addr b) := by
  unfold post
  repeat' first
    | (with_reducible exact Onward.refl _)
    | (simp only [Onward.upd_eq])

theorem post_fwd {r_ : State} {s : State} {fn addr : Nat} {b : Bytes} (h_ : Onward r_ s) : Onward r_ (post s fn addr b) := h_.trans (post_onward ..)

theorem readBack_onward (s : State) (fn off v : Nat) : Onward s (readBack s fn off v) := by
  unfold readBack
  repeat' first
    | (with_reducible exact Onward.refl _)
    | (simp only [Onward.upd_eq])

theorem readBack_fwd {r_ : State} {s : State} {fn off v : Nat} (h_ : Onward r_ s) : Onward r_ (readBack s fn off v) := h_.trans (readBack_onward ..)

theorem refuseAccess_onward (s : State) (fn off : Nat) (c : Cpl) : Onward s (refuseAccess s fn off c) := by
  unfold refuseAccess
  repeat' first
    | (with_reducible exact Onward.refl _)
    | (simp only [Onward.upd_eq])

theorem refuseAccess_fwd {r_ : State} {s : State} {fn off : Nat} {c : Cpl} (h_ : Onward r_ s) : Onward r_ (refuseAccess s fn off c) := h_.trans (refuseAccess_onward ..)

theorem barAccess_onward (s : State) (fn off : Nat) (f : State → State) (hf : Onward s (f s)) : Onward s (barAccess s fn off f) := by
  unfold barAccess
  split
  · exact hf
  · split
    · exact refuseAccess_onward ..
    · exact Onward.refl _

theorem configAccess_onward (s : State) (fn off : Nat) (f : State → State) (hf : Onward s (f s)) : Onward s (configAccess s fn off f) := by
  unfold configAccess
  split
  · exact Onward.refl _
  · split
    · exact hf
    · split
      · exact refuseAccess_onward ..
      · exact Onward.refl _

theorem tick_onward (s0 : State) : Onward s0 (tick s0) := by
  unfold tick
  repeat' first
    | (with_reducible exact Onward.refl _)
    | (with_reducible apply State.roused_fwd)
    | (simp only [Onward.upd_eq])

theorem tick_fwd {r_ : State} {s0 : State} (h_ : Onward r_ s0) : Onward r_ (tick s0) := h_.trans (tick_onward ..)

/-! ## Slots -/

theorem issueReads_onward (s : State) (n : Nat) : Onward s (issueReads s n) := by
  unfold issueReads
  repeat' first
    | (with_reducible exact Onward.refl _)
    | (with_reducible apply State.modSlot_fwd)
    | (simp only [Onward.upd_eq])
    | split

theorem issueReads_fwd {r_ : State} {s : State} {n : Nat} (h_ : Onward r_ s) : Onward r_ (issueReads s n) := h_.trans (issueReads_onward ..)

theorem issueAllReads_onward (s : State) : Onward s (issueAllReads s) := by
  unfold issueAllReads
  repeat' first
    | (with_reducible exact Onward.refl _)
    | (with_reducible apply issueReads_fwd)
    | (with_reducible refine Onward.fold ?_ (fun t a => ?_))

theorem issueAllReads_fwd {r_ : State} {s : State} (h_ : Onward r_ s) : Onward r_ (issueAllReads s) := h_.trans (issueAllReads_onward ..)

theorem finish_onward (s : State) (n : Nat) (st : Status) (detail : Nat) : Onward s (finish s n st detail) := by
  unfold finish
  repeat' first
    | (with_reducible exact Onward.refl _)
    | (with_reducible apply State.modSlot_fwd)

theorem finish_fwd {r_ : State} {s : State} {n : Nat} {st : Status} {detail : Nat} (h_ : Onward r_ s) : Onward r_ (finish s n st detail) := h_.trans (finish_onward ..)

theorem startHash_onward (s : State) (h : Nat) : Onward s (startHash s h) := by
  unfold startHash
  repeat' first
    | (with_reducible exact Onward.refl _)
    | (with_reducible apply State.modHash_fwd)

theorem startHash_fwd {r_ : State} {s : State} {h : Nat} (h_ : Onward r_ s) : Onward r_ (startHash s h) := h_.trans (startHash_onward ..)

theorem startPlume_onward (s : State) (p : Nat) : Onward s (startPlume s p) := by
  unfold startPlume
  repeat' first
    | (with_reducible exact Onward.refl _)
    | (with_reducible apply State.modPlume_fwd)

theorem startPlume_fwd {r_ : State} {s : State} {p : Nat} (h_ : Onward r_ s) : Onward r_ (startPlume s p) := h_.trans (startPlume_onward ..)

theorem startEngine_onward (s : State) (e : Nat) : Onward s (startEngine s e) := by
  unfold startEngine
  repeat' first
    | (with_reducible exact Onward.refl _)
    | (with_reducible apply State.modEngine_fwd)
    | split

theorem startEngine_fwd {r_ : State} {s : State} {e : Nat} (h_ : Onward r_ s) : Onward r_ (startEngine s e) := h_.trans (startEngine_onward ..)

theorem unqueue_onward (s : State) (n : Nat) (u : UnitClass × Nat) : Onward s (unqueue s n u) := by
  unfold unqueue
  repeat' first
    | (with_reducible exact Onward.refl _)
    | (with_reducible apply startEngine_fwd)
    | (with_reducible apply startPlume_fwd)
    | (with_reducible apply startHash_fwd)
    | (with_reducible apply State.modPlume_fwd)
    | (with_reducible apply State.modEngine_fwd)
    | (with_reducible apply State.modHash_fwd)
    | (with_reducible apply State.modLane_fwd)
    | split

theorem unqueue_fwd {r_ : State} {s : State} {n : Nat} {u : UnitClass × Nat} (h_ : Onward r_ s) : Onward r_ (unqueue s n u) := h_.trans (unqueue_onward ..)

theorem freePages_onward (s : State) (p : Page → Bool) : Onward s (freePages s p) := by
  unfold freePages
  repeat' first
    | (with_reducible exact Onward.refl _)
    | (simp only [Onward.upd_eq])

theorem freePages_fwd {r_ : State} {s : State} {p : Page → Bool} (h_ : Onward r_ s) : Onward r_ (freePages s p) := h_.trans (freePages_onward ..)

theorem unusePage_onward (s : State) (u : PageUse) : Onward s (unusePage s u) := by
  unfold unusePage
  repeat' first
    | (with_reducible exact Onward.refl _)
    | (with_reducible apply State.modLane_fwd)
    | split

theorem unusePage_fwd {r_ : State} {s : State} {u : PageUse} (h_ : Onward r_ s) : Onward r_ (unusePage s u) := h_.trans (unusePage_onward ..)

theorem freeLoaded_onward (s : State) (x : Slot) : Onward s (freeLoaded s x) := by
  unfold freeLoaded
  repeat' first
    | (with_reducible exact Onward.refl _)
    | (with_reducible apply freePages_fwd)

theorem freeLoaded_fwd {r_ : State} {s : State} {x : Slot} (h_ : Onward r_ s) : Onward r_ (freeLoaded s x) := h_.trans (freeLoaded_onward ..)

theorem unreserve_onward (s : State) (rec : Nat) : Onward s (unreserve s rec) := by
  unfold unreserve
  repeat' first
    | (with_reducible exact Onward.refl _)
    | (simp only [Onward.upd_eq])
    | split

theorem unreserve_fwd {r_ : State} {s : State} {rec : Nat} (h_ : Onward r_ s) : Onward r_ (unreserve s rec) := h_.trans (unreserve_onward ..)

theorem release_onward (s : State) (n : Nat) : Onward s (release s n) := by
  unfold release
  split
  · exact Onward.refl _
  · dsimp only
    refine Onward.updSlots ?_ (Nat.le_refl _) rfl id id (tsorted_terase _ _) id id
    split
    · refine Onward.fold ?_ (fun t a => unusePage_onward t a)
      split
      · exact Onward.refl _
      · exact unqueue_onward ..
    · refine Onward.trans ?_ (unreserve_onward ..)
      refine Onward.fold ?_ (fun t a => unusePage_onward t a)
      split
      · exact Onward.refl _
      · exact unqueue_onward ..

theorem release_fwd {r_ : State} {s : State} {n : Nat} (h_ : Onward r_ s) : Onward r_ (release s n) := h_.trans (release_onward ..)

theorem countDisable_onward (s : State) (p : Nat) (f : Disable → Disable) : Onward s (countDisable s p f) := by
  unfold countDisable
  repeat' first
    | (with_reducible exact Onward.refl _)
    | (with_reducible apply State.modPart_fwd)
    | split

theorem countDisable_fwd {r_ : State} {s : State} {p : Nat} {f : Disable → Disable} (h_ : Onward r_ s) : Onward r_ (countDisable s p f) := h_.trans (countDisable_onward ..)

theorem discard_onward (s : State) (n : Nat) : Onward s (discard s n) := by
  unfold discard
  repeat' first
    | (with_reducible exact Onward.refl _)
    | (with_reducible apply countDisable_fwd)
    | (with_reducible apply release_fwd)
    | split

theorem discard_fwd {r_ : State} {s : State} {n : Nat} (h_ : Onward r_ s) : Onward r_ (discard s n) := h_.trans (discard_onward ..)

theorem discardRunning_onward (s : State) (n : Nat) : Onward s (discardRunning s n) := by
  unfold discardRunning
  repeat' first
    | (with_reducible exact Onward.refl _)
    | (with_reducible apply countDisable_fwd)
    | (with_reducible apply release_fwd)
    | split

theorem discardRunning_fwd {r_ : State} {s : State} {n : Nat} (h_ : Onward r_ s) : Onward r_ (discardRunning s n) := h_.trans (discardRunning_onward ..)

theorem closeEngine_onward (s : State) (e : Nat) : Onward s (closeEngine s e) := by
  unfold closeEngine
  repeat' first
    | (with_reducible exact Onward.refl _)
    | (with_reducible apply State.modEngine_fwd)

theorem closeEngine_fwd {r_ : State} {s : State} {e : Nat} (h_ : Onward r_ s) : Onward r_ (closeEngine s e) := h_.trans (closeEngine_onward ..)

theorem endEntry_onward (s : State) (n : Nat) (x : Slot) (st : Status) : Onward s (endEntry s n x st) := by
  unfold endEntry
  repeat' first
    | (with_reducible exact Onward.refl _)
    | (with_reducible apply finish_fwd)
    | (with_reducible apply State.modSlot_fwd)
    | split

theorem endEntry_fwd {r_ : State} {s : State} {n : Nat} {x : Slot} {st : Status} (h_ : Onward r_ s) : Onward r_ (endEntry s n x st) := h_.trans (endEntry_onward ..)

theorem failChain_onward (s : State) (n : Nat) : Onward s (failChain s n) := by
  unfold failChain
  repeat' first
    | (with_reducible exact Onward.refl _)
    | (with_reducible apply endEntry_fwd)
    | (with_reducible apply closeEngine_fwd)
    | (with_reducible refine Onward.fold ?_ (fun t a => ?_))
    | split

theorem failChain_fwd {r_ : State} {s : State} {n : Nat} (h_ : Onward r_ s) : Onward r_ (failChain s n) := h_.trans (failChain_onward ..)

theorem fail_onward (s : State) (n : Nat) (st : Status) (detail : Nat) : Onward s (fail s n st detail) := by
  unfold fail
  repeat' first
    | (with_reducible exact Onward.refl _)
    | (with_reducible apply failChain_fwd)
    | (with_reducible apply finish_fwd)

theorem fail_fwd {r_ : State} {s : State} {n : Nat} {st : Status} {detail : Nat} (h_ : Onward r_ s) : Onward r_ (fail s n st detail) := h_.trans (fail_onward ..)

theorem abortRaw_onward (s : State) (n : Nat) : Onward s (abortRaw s n) := by
  unfold abortRaw
  repeat' first
    | (with_reducible exact Onward.refl _)
    | (with_reducible apply failChain_fwd)
    | (with_reducible apply State.modSlot_fwd)
    | split

theorem abortRaw_fwd {r_ : State} {s : State} {n : Nat} (h_ : Onward r_ s) : Onward r_ (abortRaw s n) := h_.trans (abortRaw_onward ..)

theorem closeSession_onward (s : State) (e : Nat) : Onward s (closeSession s e) := by
  unfold closeSession
  repeat' first
    | (with_reducible exact Onward.refl _)
    | (with_reducible apply abortRaw_fwd)
    | (with_reducible apply closeEngine_fwd)
    | split

theorem closeSession_fwd {r_ : State} {s : State} {e : Nat} (h_ : Onward r_ s) : Onward r_ (closeSession s e) := h_.trans (closeSession_onward ..)

theorem closeSessions_onward (s : State) (p : Engine → Bool) : Onward s (closeSessions s p) := by
  unfold closeSessions
  repeat' first
    | (with_reducible exact Onward.refl _)
    | (with_reducible apply closeSession_fwd)
    | (with_reducible refine Onward.fold ?_ (fun t a => ?_))

theorem closeSessions_fwd {r_ : State} {s : State} {p : Engine → Bool} (h_ : Onward r_ s) : Onward r_ (closeSessions s p) := h_.trans (closeSessions_onward ..)

theorem State.modEntropy_onward (s : State) (f : Entropy → Entropy) : Onward s (State.modEntropy s f) := by
  unfold State.modEntropy
  repeat' first
    | (with_reducible exact Onward.refl _)
    | (simp only [Onward.upd_eq])

theorem State.modEntropy_fwd {r_ : State} {s : State} {f : Entropy → Entropy} (h_ : Onward r_ s) : Onward r_ (State.modEntropy s f) := h_.trans (State.modEntropy_onward ..)

theorem uninstantiate_onward (s : State) (p : Nat) (st : Status) : Onward s (uninstantiate s p st) := by
  unfold uninstantiate
  repeat' first
    | (with_reducible exact Onward.refl _)
    | (with_reducible apply State.modEntropy_fwd)
    | (with_reducible apply fail_fwd)
    | (with_reducible apply State.modSlot_fwd)
    | (with_reducible apply State.modPart_fwd)
    | (with_reducible refine Onward.fold ?_ (fun t a => ?_))
    | split

theorem uninstantiate_fwd {r_ : State} {s : State} {p : Nat} {st : Status} (h_ : Onward r_ s) : Onward r_ (uninstantiate s p st) := h_.trans (uninstantiate_onward ..)

theorem withdraw_onward (s : State) (n : Nat) : Onward s (withdraw s n) := by
  unfold withdraw
  repeat' first
    | (with_reducible exact Onward.refl _)
    | (simp only [Onward.upd_eq])

theorem withdraw_fwd {r_ : State} {s : State} {n : Nat} (h_ : Onward r_ s) : Onward r_ (withdraw s n) := h_.trans (withdraw_onward ..)

theorem dropStep_onward (s : State) (n : Nat) (x : Slot) : Onward s (dropStep s n x) := by
  unfold dropStep
  repeat' first
    | (with_reducible exact Onward.refl _)
    | (with_reducible apply unqueue_fwd)
    | split

theorem dropStep_fwd {r_ : State} {s : State} {n : Nat} {x : Slot} (h_ : Onward r_ s) : Onward r_ (dropStep s n x) := h_.trans (dropStep_onward ..)

theorem cutOne_onward (s : State) (k : Cut) (n : Nat) (x : Slot) : Onward s (cutOne s k n x) := by
  unfold cutOne
  repeat' first
    | (with_reducible exact Onward.refl _)
    | (with_reducible apply dropStep_fwd)
    | (with_reducible apply withdraw_fwd)
    | (with_reducible apply discard_fwd)
    | (with_reducible apply unqueue_fwd)
    | (with_reducible apply finish_fwd)
    | (with_reducible apply State.modSlot_fwd)
    | split

theorem cutOne_fwd {r_ : State} {s : State} {k : Cut} {n : Nat} {x : Slot} (h_ : Onward r_ s) : Onward r_ (cutOne s k n x) := h_.trans (cutOne_onward ..)

theorem cutChained_onward (s : State) (k : Cut) (n : Nat) (x : Slot) (first : Nat) : Onward s (cutChained s k n x first) := by
  unfold cutChained
  repeat' first
    | (with_reducible exact Onward.refl _)
    | (with_reducible apply endEntry_fwd)
    | (with_reducible apply discardRunning_fwd)
    | (with_reducible apply discard_fwd)
    | (with_reducible apply unqueue_fwd)
    | (with_reducible apply finish_fwd)
    | (with_reducible apply State.modSlot_fwd)
    | split

theorem cutChained_fwd {r_ : State} {s : State} {k : Cut} {n : Nat} {x : Slot} {first : Nat} (h_ : Onward r_ s) : Onward r_ (cutChained s k n x first) := h_.trans (cutChained_onward ..)

theorem cutSlot_onward (s : State) (k : Cut) (n : Nat) : Onward s (cutSlot s k n) := by
  unfold cutSlot
  repeat' first
    | (with_reducible exact Onward.refl _)
    | (with_reducible apply cutChained_fwd)
    | (with_reducible apply cutOne_fwd)
    | split

theorem cutSlot_fwd {r_ : State} {s : State} {k : Cut} {n : Nat} (h_ : Onward r_ s) : Onward r_ (cutSlot s k n) := h_.trans (cutSlot_onward ..)

theorem cutRing_onward (s : State) (k : Cut) (rid : Nat) : Onward s (cutRing s k rid) := by
  unfold cutRing
  repeat' first
    | (with_reducible exact Onward.refl _)
    | (with_reducible apply cutSlot_fwd)
    | (with_reducible refine Onward.fold ?_ (fun t a => ?_))

theorem cutRing_fwd {r_ : State} {s : State} {k : Cut} {rid : Nat} (h_ : Onward r_ s) : Onward r_ (cutRing s k rid) := h_.trans (cutRing_onward ..)

theorem stopRing_onward (s : State) (rid : Nat) (goal : RingState) : Onward s (stopRing s rid goal) := by
  unfold stopRing
  repeat' first
    | (with_reducible exact Onward.refl _)
    | (with_reducible apply State.modRing_fwd)

theorem stopRing_fwd {r_ : State} {s : State} {rid : Nat} {goal : RingState} (h_ : Onward r_ s) : Onward r_ (stopRing s rid goal) := h_.trans (stopRing_onward ..)

theorem freeHold_onward (s : State) (p : Nat) : Onward s (freeHold s p) := by
  unfold freeHold
  repeat' first
    | (with_reducible exact Onward.refl _)
    | (simp only [Onward.upd_eq])

theorem freeHold_fwd {r_ : State} {s : State} {p : Nat} (h_ : Onward r_ s) : Onward r_ (freeHold s p) := h_.trans (freeHold_onward ..)

theorem dropReservation_onward (s : State) (rid : Nat) : Onward s (dropReservation s rid) := by
  unfold dropReservation
  repeat' first
    | (with_reducible exact Onward.refl _)
    | (with_reducible apply freeHold_fwd)
    | split

theorem dropReservation_fwd {r_ : State} {s : State} {rid : Nat} (h_ : Onward r_ s) : Onward r_ (dropReservation s rid) := h_.trans (dropReservation_onward ..)

theorem discardAbove_onward (s : State) (rid e : Nat) : Onward s (discardAbove s rid e) := by
  unfold discardAbove
  repeat' first
    | (with_reducible exact Onward.refl _)
    | (with_reducible apply discard_fwd)
    | (with_reducible refine Onward.fold ?_ (fun t a => ?_))
    | split

theorem discardAbove_fwd {r_ : State} {s : State} {rid e : Nat} (h_ : Onward r_ s) : Onward r_ (discardAbove s rid e) := h_.trans (discardAbove_onward ..)

theorem failOpenChains_onward (s : State) (rid : Nat) : Onward s (failOpenChains s rid) := by
  unfold failOpenChains
  repeat' first
    | (with_reducible exact Onward.refl _)
    | (with_reducible apply discard_fwd)
    | (with_reducible apply finish_fwd)
    | (with_reducible refine Onward.fold ?_ (fun t a => ?_))
    | (simp only [Onward.upd_eq])
    | split

theorem failOpenChains_fwd {r_ : State} {s : State} {rid : Nat} (h_ : Onward r_ s) : Onward r_ (failOpenChains s rid) := h_.trans (failOpenChains_onward ..)

theorem ringError_onward (s : State) (rid : Nat) (code : Status) (lo hi : Nat) (entry : Option Nat) : Onward s (ringError s rid code lo hi entry) := by
  unfold ringError
  repeat' first
    | (with_reducible exact Onward.refl _)
    | (with_reducible apply failOpenChains_fwd)
    | (with_reducible apply discardAbove_fwd)
    | (with_reducible apply dropReservation_fwd)
    | (with_reducible apply stopRing_fwd)
    | (with_reducible apply logMain_fwd)
    | (with_reducible apply State.modRing_fwd)
    | (simp only [Onward.upd_eq])
    | split

theorem ringError_fwd {r_ : State} {s : State} {rid : Nat} {code : Status} {lo hi : Nat} {entry : Option Nat} (h_ : Onward r_ s) : Onward r_ (ringError s rid code lo hi entry) := h_.trans (ringError_onward ..)

theorem malformed_onward (s : State) (n rid index off : Nat) : Onward s (malformed s n rid index off) := by
  unfold malformed
  repeat' first
    | (with_reducible exact Onward.refl _)
    | (with_reducible apply ringError_fwd)
    | (with_reducible apply fail_fwd)
    | (with_reducible apply failChain_fwd)
    | (with_reducible apply discard_fwd)
    | split

theorem malformed_fwd {r_ : State} {s : State} {n rid index off : Nat} (h_ : Onward r_ s) : Onward r_ (malformed s n rid index off) := h_.trans (malformed_onward ..)

theorem noteReplay_onward (s : State) (rid : Nat) : Onward s (noteReplay s rid) := by
  unfold noteReplay
  repeat' first
    | (with_reducible exact Onward.refl _)
    | (with_reducible apply State.modRing_fwd)
    | split

theorem noteReplay_fwd {r_ : State} {s : State} {rid : Nat} (h_ : Onward r_ s) : Onward r_ (noteReplay s rid) := h_.trans (noteReplay_onward ..)

theorem releaseGroups_onward (s : State) (fn : Nat) : Onward s (releaseGroups s fn) := by
  unfold releaseGroups
  repeat' first
    | (with_reducible exact Onward.refl _)
    | (simp only [Onward.upd_eq])
    | split

theorem releaseGroups_fwd {r_ : State} {s : State} {fn : Nat} (h_ : Onward r_ s) : Onward r_ (releaseGroups s fn) := h_.trans (releaseGroups_onward ..)

/-! ## Commit -/

theorem dropCache_onward (s : State) (p : Nat → CacheEntry → Bool) : Onward s (dropCache s p) := by
  unfold dropCache
  repeat' first
    | (with_reducible exact Onward.refl _)
    | (simp only [Onward.upd_eq])

theorem dropCache_fwd {r_ : State} {s : State} {p : Nat → CacheEntry → Bool} (h_ : Onward r_ s) : Onward r_ (dropCache s p) := h_.trans (dropCache_onward ..)

theorem modRecord_onward (s : State) (slot : Nat) (f : Rec → Rec) : Onward s (modRecord s slot f) := by
  unfold modRecord
  refine Onward.updSlots (Onward.refl _) (Nat.le_refl _) rfl id id id (fun h => ?_) id
  dsimp only
  exact tsorted_tmap _ _ h

theorem modRecord_fwd {r_ : State} {s : State} {slot : Nat} {f : Rec → Rec} (h_ : Onward r_ s) : Onward r_ (modRecord s slot f) := h_.trans (modRecord_onward ..)

theorem bumpLineage_onward (s : State) (i : Nat) : Onward s (bumpLineage s i) := by
  unfold bumpLineage
  repeat' first
    | (with_reducible exact Onward.refl _)
    | (simp only [Onward.upd_eq])

theorem bumpLineage_fwd {r_ : State} {s : State} {i : Nat} (h_ : Onward r_ s) : Onward r_ (bumpLineage s i) := h_.trans (bumpLineage_onward ..)

theorem freeLineage_onward (s : State) (i : Nat) : Onward s (freeLineage s i) := by
  unfold freeLineage
  repeat' first
    | (with_reducible exact Onward.refl _)
    | (simp only [Onward.upd_eq])
    | split

theorem freeLineage_fwd {r_ : State} {s : State} {i : Nat} (h_ : Onward r_ s) : Onward r_ (freeLineage s i) := h_.trans (freeLineage_onward ..)

theorem freeRecord_onward (s : State) (slot : Nat) : Onward s (freeRecord s slot) := by
  unfold freeRecord
  split
  · exact Onward.refl _
  · dsimp only
    refine Onward.trans ?_ (freePages_onward ..)
    refine Onward.trans ?_ (dropCache_onward ..)
    exact Onward.updSlots (Onward.refl _) (Nat.le_refl _) rfl id id id (fun h => tsorted_terase _ _ h) id

theorem freeRecord_fwd {r_ : State} {s : State} {slot : Nat} (h_ : Onward r_ s) : Onward r_ (freeRecord s slot) := h_.trans (freeRecord_onward ..)

theorem dropMemberSessions_onward (s : State) (m : Nat) : Onward s (dropMemberSessions s m) := by
  unfold dropMemberSessions
  repeat' first
    | (with_reducible exact Onward.refl _)
    | (simp only [Onward.upd_eq])

theorem dropMemberSessions_fwd {r_ : State} {s : State} {m : Nat} (h_ : Onward r_ s) : Onward r_ (dropMemberSessions s m) := h_.trans (dropMemberSessions_onward ..)

theorem trainPorts_onward (s : State) : Onward s (trainPorts s) := by
  unfold trainPorts
  refine Onward.fold (Onward.refl _) (fun t a => ?_)
  dsimp only
  repeat' first
    | (with_reducible exact Onward.refl _)
    | (with_reducible refine Onward.trans ?_ (State.modPort_onward ..))
    | split

theorem trainPorts_fwd {r_ : State} {s : State} (h_ : Onward r_ s) : Onward r_ (trainPorts s) := h_.trans (trainPorts_onward ..)

theorem pairSet_onward (s : State) : Onward s (pairSet s) := by
  unfold pairSet
  repeat' first
    | (with_reducible refine Onward.trans ?_ (noteService_onward ..))
    | (with_reducible exact Onward.refl _)
    | (simp only [Onward.upd_eq])
    | split

theorem pairSet_fwd {r_ : State} {s : State} (h_ : Onward r_ s) : Onward r_ (pairSet s) := h_.trans (pairSet_onward ..)

theorem odEffect_onward (s : State) (idx sub : Nat) : Onward s (odEffect s idx sub) := by
  unfold odEffect
  split
  · exact dropMemberSessions_onward ..
  · split
    · exact trainPorts_onward ..
    · split
      · exact (pairSet_onward _).trans (trainPorts_onward _)
      · exact Onward.refl _

theorem odEffect_fwd {r_ : State} {s : State} {idx sub : Nat} (h_ : Onward r_ s) : Onward r_ (odEffect s idx sub) := h_.trans (odEffect_onward ..)

theorem commitOd_onward (s : State) (idx sub : Nat) (v : Bytes) : Onward s (commitOd s idx sub v) := by
  unfold commitOd
  repeat' first
    | (with_reducible exact Onward.refl _)
    | (with_reducible apply odEffect_fwd)
    | (with_reducible apply State.odSet_fwd)
    | (simp only [Onward.upd_eq])

theorem commitOd_fwd {r_ : State} {s : State} {idx sub : Nat} {v : Bytes} (h_ : Onward r_ s) : Onward r_ (commitOd s idx sub v) := h_.trans (commitOd_onward ..)

theorem newAtcTable_onward (s : State) (p cap : Nat) : Onward s (newAtcTable s p cap) := by
  unfold newAtcTable
  repeat' first
    | (with_reducible exact Onward.refl _)
    | (with_reducible apply State.modPart_fwd)
    | (simp only [Onward.upd_eq])

theorem newAtcTable_fwd {r_ : State} {s : State} {p cap : Nat} (h_ : Onward r_ s) : Onward r_ (newAtcTable s p cap) := h_.trans (newAtcTable_onward ..)

theorem clearLog_onward (s : State) (grantId : Nat) : Onward s (clearLog s grantId) := by
  unfold clearLog
  repeat' first
    | (with_reducible exact Onward.refl _)
    | (with_reducible apply logMain_fwd)
    | (simp only [Onward.upd_eq])

theorem clearLog_fwd {r_ : State} {s : State} {grantId : Nat} (h_ : Onward r_ s) : Onward r_ (clearLog s grantId) := h_.trans (clearLog_onward ..)

theorem applyChange_onward (seq : Nat) (s : State) (c : Change) : Onward s (applyChange seq s c) := by
  cases c <;> unfold applyChange <;> dsimp only
  case record slot r =>
    have h : Onward s { s with keys := { s.keys with recs := tset s.keys.recs slot ⟨r, false, true, false⟩ } } :=
      Onward.updSlots (Onward.refl _) (Nat.le_refl _) rfl id id id (fun h => tsorted_tset _ _ _ h) id
    split
    · exact h
    · exact Onward.updSlots (Onward.refl _) (Nat.le_refl _) rfl id id id (fun h => tsorted_tset _ _ _ h) id
  case recordFree => exact freeRecord_onward ..
  case lineageFree => exact freeLineage_onward ..
  case restrict => exact modRecord_onward ..
  case counter => exact modRecord_onward ..
  case od => exact commitOd_onward ..
  case logClear => exact clearLog_onward ..
  case partDestroy =>
    refine Onward.trans ?_ (freePages_onward ..)
    refine Onward.trans ?_ (dropCache_onward ..)
    refine Onward.trans ?_ (uninstantiate_onward ..)
    exact Onward.trans (State.modPart_onward ..) (closeSessions_onward ..)
  case migration =>
    split
    · exact Onward.upd (Onward.refl _) (Nat.le_refl _) rfl rfl rfl rfl rfl rfl
    · refine Onward.trans ?_ (raise_onward ..)
      refine Onward.trans ?_ (logMain_onward ..)
      exact Onward.upd (Onward.refl _) (Nat.le_refl _) rfl rfl rfl rfl rfl rfl
  case revoke =>
    split
    · exact Onward.refl _
    · split
      · exact modRecord_onward ..
      · split
        · exact modRecord_onward ..
        · exact (modRecord_onward ..).trans (bumpLineage_onward ..)
  case atcTable => exact newAtcTable_onward ..
  case creation p e => exact (State.modPart_onward s p _).trans (Onward.upd (Onward.refl _) (Nat.le_refl _) rfl rfl rfl rfl rfl rfl)
  all_goals first
    | exact Onward.upd (Onward.refl _) (Nat.le_refl _) rfl rfl rfl rfl rfl rfl

theorem applyChange_fwd {r_ : State} {seq : Nat} {s : State} {c : Change} (h_ : Onward r_ s) : Onward r_ (applyChange seq s c) := h_.trans (applyChange_onward ..)

theorem commitOne_onward (acc : State × List Item) (i : Item) : Onward acc.1 (commitOne acc i).1 := by
  unfold commitOne
  refine Onward.fold ?_ (fun t a => State.modSlot_onward ..)
  refine Onward.fold ?_ (fun t a => applyChange_onward ..)
  exact Onward.upd (Onward.refl _) (Nat.le_refl _) rfl rfl rfl rfl rfl rfl

theorem closeItems_onward (s : State) (room : Nat) : Onward s (closeItems s room).1 := by
  unfold closeItems
  have h (l : List Item) : ∀ acc : State × List Item, Onward acc.1 (l.foldl commitOne acc).1 := by
    induction l with
    | nil => exact fun acc => Onward.refl _
    | cons i l ih => exact fun acc => (commitOne_onward acc i).trans (ih _)
  refine Onward.trans ?_ (h _ _)
  exact Onward.upd (Onward.refl _) (Nat.le_refl _) rfl rfl rfl rfl rfl rfl
theorem closeItems_pair {s : State} {room : Nat} {u : State} {l : List Item} (h : closeItems s room = (u, l)) : Onward s u := by
  have := closeItems_onward s room
  rwa [h] at this

theorem sendReply_onward (s : State) (rq : Req) (idx sub op st : Nat) (data : Bytes) : Onward s (sendReply s rq idx sub op st data) := by
  unfold sendReply
  dsimp only
  repeat' first
    | (with_reducible exact Onward.refl _)
    | (with_reducible refine Onward.trans ?_ (raise_onward ..))
    | (simp only [Onward.upd_eq])
    | exact Onward.updSlots (Onward.refl _) (Nat.le_refl _) rfl id (fun h => cwf_bufWrite _ _ _ h) id id id
    | split

theorem sendReply_fwd {r_ : State} {s : State} {rq : Req} {idx sub op st : Nat} {data : Bytes} (h_ : Onward r_ s) : Onward r_ (sendReply s rq idx sub op st data) := h_.trans (sendReply_onward ..)

theorem withPersist_onward (s : State) (b : Persist) (h : TablesWf s → tsorted b.keys.recs = true) : Onward s (withPersist s b) :=
  ⟨rfl, Nat.le_refl _, fun _ _ x => x, fun x => ⟨x.1, x.2.1, h x, x.2.2.2⟩⟩

theorem State.withBase_onward (s : State) (f : Persist → Persist) (h : ∀ b, tsorted b.keys.recs = true → tsorted (f b).keys.recs = true) :
    Onward s (State.withBase s f) :=
  ⟨rfl, Nat.le_refl _, fun _ _ x => x, fun x => ⟨x.1, x.2.1, h (persistOf s) x.2.2.1, h _ x.2.2.2⟩⟩
theorem State.withBase_fwd {r s : State} {f : Persist → Persist} (h : Onward r s)
    (hf : ∀ b, tsorted b.keys.recs = true → tsorted (f b).keys.recs = true) : Onward r (State.withBase s f) :=
  h.trans (State.withBase_onward s f hf)

theorem inNand_onward (s : State) (c : Change) : Onward s (inNand s c) := by
  unfold inNand
  split
  · refine Onward.updSlots (Onward.refl _) (Nat.le_refl _) rfl id id id (fun h => ?_) id
    dsimp only
    exact tsorted_tmap _ _ h
  · exact Onward.refl _

theorem inNand_fwd {r_ : State} {s : State} {c : Change} (h_ : Onward r_ s) : Onward r_ (inNand s c) := h_.trans (inNand_onward ..)

theorem growBase_onward (s : State) (i : Item) : Onward s (growBase s i) := by
  have h : Onward (withPersist s s.commit.base)
      (i.changes.foldl inNand (i.changes.foldl (applyChange i.seq) (withPersist s s.commit.base))) :=
    Onward.fold (Onward.fold (Onward.refl _) (fun t a => applyChange_onward ..)) (fun t a => inNand_onward ..)
  refine ⟨rfl, Nat.le_refl _, fun _ _ x => x, fun x => ⟨x.1, x.2.1, x.2.2.1, ?_⟩⟩
  exact (h.tables ⟨x.1, x.2.1, x.2.2.2, x.2.2.2⟩).2.2.1

theorem growBase_fwd {r_ : State} {s : State} {i : Item} (h_ : Onward r_ s) : Onward r_ (growBase s i) := h_.trans (growBase_onward ..)

theorem durableItem_onward (s00 : State) (i : Item) : Onward s00 (durableItem s00 i) := by
  unfold durableItem
  repeat' first
    | (with_reducible exact Onward.refl _)
    | (with_reducible apply growBase_fwd)
    | (with_reducible apply inNand_fwd)
    | (with_reducible apply sendReply_fwd)
    | (with_reducible apply State.modSlot_fwd)
    | (with_reducible refine Onward.fold ?_ (fun t a => ?_))
    | (simp only [Onward.upd_eq])
    | split

theorem durableItem_fwd {r_ : State} {s00 : State} {i : Item} (h_ : Onward r_ s00) : Onward r_ (durableItem s00 i) := h_.trans (durableItem_onward ..)

theorem aheadOne_onward (s : State) (c : Change) : Onward s (aheadOne s c) := by
  unfold aheadOne
  repeat' first
    | (with_reducible exact Onward.refl _)
    | (with_reducible apply State.odSet_fwd)
    | (with_reducible apply State.modPart_fwd)
    | (simp only [Onward.upd_eq])
    | split

theorem aheadOne_fwd {r_ : State} {s : State} {c : Change} (h_ : Onward r_ s) : Onward r_ (aheadOne s c) := h_.trans (aheadOne_onward ..)

theorem State.ahead_onward (s : State) : Onward s (State.ahead s) := by
  unfold State.ahead
  repeat' first
    | (with_reducible exact Onward.refl _)
    | (with_reducible apply aheadOne_fwd)
    | (with_reducible refine Onward.fold ?_ (fun t a => ?_))

theorem State.ahead_fwd {r_ : State} {s : State} (h_ : Onward r_ s) : Onward r_ (State.ahead s) := h_.trans (State.ahead_onward ..)

theorem closeCycle_onward (s : State) (handover : Bool) : Onward s (closeCycle s handover) := by
  unfold closeCycle
  repeat' first
    | (with_reducible exact Onward.refl _)
    | (with_reducible refine Onward.trans ?_ (closeItems_onward ..))
    | (simp only [Onward.upd_eq])
    | split

theorem closeCycle_fwd {r_ : State} {s : State} {handover : Bool} (h_ : Onward r_ s) : Onward r_ (closeCycle s handover) := h_.trans (closeCycle_onward ..)

theorem execCommitCycleClose_onward (s : State) : ∃ w, execCommitCycleClose s = .next w ∧ Onward s w := by
  refine ⟨_, rfl, ?_⟩
  repeat' first
    | (with_reducible exact Onward.refl _)
    | (with_reducible apply closeCycle_fwd)
    | split

theorem closePage_onward (s : State) : Onward s (closePage s) := by
  unfold closePage
  repeat' first
    | (with_reducible exact Onward.refl _)
    | (with_reducible refine Onward.trans ?_ (closeItems_onward ..))
    | (simp only [Onward.upd_eq])
    | split

theorem closePage_fwd {r_ : State} {s : State} (h_ : Onward r_ s) : Onward r_ (closePage s) := h_.trans (closePage_onward ..)

theorem execJournalPageClose_onward (s : State) : ∃ w, execJournalPageClose s = .next w ∧ Onward s w := by
  refine ⟨_, rfl, ?_⟩
  repeat' first
    | (with_reducible exact Onward.refl _)
    | (with_reducible apply closePage_fwd)
    | split

theorem programPage_onward (s : State) : Onward s (programPage s) := by
  unfold programPage
  repeat' first
    | (with_reducible exact Onward.refl _)
    | (with_reducible apply durableItem_fwd)
    | (with_reducible refine Onward.fold ?_ (fun t a => ?_))
    | (simp only [Onward.upd_eq])
    | split

theorem programPage_fwd {r_ : State} {s : State} (h_ : Onward r_ s) : Onward r_ (programPage s) := h_.trans (programPage_onward ..)

theorem execJournalPageProgrammed_onward (s : State) : ∃ w, execJournalPageProgrammed s = .next w ∧ Onward s w := by
  refine ⟨_, rfl, ?_⟩
  repeat' first
    | (with_reducible exact Onward.refl _)
    | (with_reducible apply programPage_fwd)

theorem vaultSend_onward (s : State) (c : Closed) : Onward s (vaultSend s c) := by
  unfold vaultSend
  repeat' first
    | (with_reducible exact Onward.refl _)
    | (with_reducible refine Onward.fold ?_ (fun t a => ?_))
    | (simp only [Onward.upd_eq])
    | split

theorem vaultSend_fwd {r_ : State} {s : State} {c : Closed} (h_ : Onward r_ s) : Onward r_ (vaultSend s c) := h_.trans (vaultSend_onward ..)

theorem execCommitCycleAck_onward (cycle : Nat) (s : State) : ∃ w, execCommitCycleAck cycle s = .next w ∧ Onward s w := by
  refine ⟨_, rfl, ?_⟩
  repeat' first
    | (with_reducible exact Onward.refl _)
    | (with_reducible apply vaultSend_fwd)
    | (with_reducible apply durableItem_fwd)
    | (with_reducible apply noteService_fwd)
    | (with_reducible apply raise_fwd)
    | (with_reducible refine Onward.fold ?_ (fun t a => ?_))
    | (simp only [Onward.upd_eq])
    | split

/-! ## Alarm -/

theorem haltRings_onward (s : State) (k : Cut) : Onward s (haltRings s k) := by
  unfold haltRings
  repeat' first
    | (with_reducible exact Onward.refl _)
    | (with_reducible apply dropReservation_fwd)
    | (with_reducible apply stopRing_fwd)
    | (with_reducible apply cutRing_fwd)
    | (with_reducible refine Onward.fold ?_ (fun t a => ?_))

theorem haltRings_fwd {r_ : State} {s : State} {k : Cut} (h_ : Onward r_ s) : Onward r_ (haltRings s k) := h_.trans (haltRings_onward ..)

theorem releaseCollar_onward (s : State) : Onward s (releaseCollar s) := by
  unfold releaseCollar
  repeat' first
    | (with_reducible exact Onward.refl _)
    | (with_reducible apply raise_fwd)
    | (simp only [Onward.upd_eq])
    | split

theorem releaseCollar_fwd {r_ : State} {s : State} (h_ : Onward r_ s) : Onward r_ (releaseCollar s) := h_.trans (releaseCollar_onward ..)

theorem lockClear_onward (s : State) : Onward s (lockClear s) := by
  unfold lockClear
  repeat' first
    | (with_reducible exact Onward.refl _)
    | (with_reducible apply sendReply_fwd)
    | (with_reducible apply closeSessions_fwd)
    | (with_reducible apply freePages_fwd)
    | (with_reducible apply State.modEngine_fwd)
    | (with_reducible refine Onward.fold ?_ (fun t a => ?_))
    | (simp only [Onward.upd_eq])
    | split

theorem lockClear_fwd {r_ : State} {s : State} (h_ : Onward r_ s) : Onward r_ (lockClear s) := h_.trans (lockClear_onward ..)

theorem mainActions_onward (s : State) (cls : AlarmClass) (entropy : Bool) : Onward s (mainActions s cls entropy) := by
  unfold mainActions
  dsimp only
  have h : Onward s (if 2 ≤ cls.code then
      closeSessions (haltRings (releaseCollar { s with service := if s.service = .locked then .locked else .halted })
        (if 3 ≤ cls.code then .lock else if entropy then .entropy else .halt)) (fun _ => true) else s) := by
    split
    · refine Onward.trans ?_ (closeSessions_onward ..)
      refine Onward.trans ?_ (haltRings_onward ..)
      refine Onward.trans ?_ (releaseCollar_onward ..)
      exact Onward.upd (Onward.refl _) (Nat.le_refl _) rfl rfl rfl rfl rfl rfl
    · exact Onward.refl _
  generalize (if 2 ≤ cls.code then
      closeSessions (haltRings (releaseCollar { s with service := if s.service = .locked then .locked else .halted })
        (if 3 ≤ cls.code then .lock else if entropy then .entropy else .halt)) (fun _ => true) else s) = u at h
  refine h.trans ?_
  repeat' first
    | (with_reducible exact Onward.refl _)
    | (with_reducible exact lockClear_onward ..)
    | (simp only [Onward.upd_eq])
    | split

theorem mainActions_fwd {r_ : State} {s : State} {cls : AlarmClass} {entropy : Bool} (h_ : Onward r_ s) : Onward r_ (mainActions s cls entropy) := h_.trans (mainActions_onward ..)

theorem stoppedActions_onward (s : State) (cls : AlarmClass) : Onward s (stoppedActions s cls) := by
  unfold stoppedActions
  repeat' first
    | (with_reducible exact Onward.refl _)
    | (with_reducible apply lockClear_fwd)
    | (simp only [Onward.upd_eq])
    | split

theorem stoppedActions_fwd {r_ : State} {s : State} {cls : AlarmClass} (h_ : Onward r_ s) : Onward r_ (stoppedActions s cls) := h_.trans (stoppedActions_onward ..)

theorem mainResponse_onward (s : State) (cls : AlarmClass) (entropy : Bool) : Onward s (mainResponse s cls entropy) := by
  unfold mainResponse
  repeat' first
    | (with_reducible exact Onward.refl _)
    | (with_reducible apply stoppedActions_fwd)
    | (with_reducible apply mainActions_fwd)
    | (with_reducible apply noteService_fwd)
    | (simp only [Onward.upd_eq])
    | split

theorem mainResponse_fwd {r_ : State} {s : State} {cls : AlarmClass} {entropy : Bool} (h_ : Onward r_ s) : Onward r_ (mainResponse s cls entropy) := h_.trans (mainResponse_onward ..)

theorem State.withMemKey_onward (s : State) : Onward s (State.withMemKey s) := by
  unfold State.withMemKey
  repeat' first
    | (with_reducible exact Onward.refl _)
    | (with_reducible refine Onward.trans ?_ (draw_onward ..))
    | (simp only [Onward.upd_eq])
    | split

theorem State.withMemKey_fwd {r_ : State} {s : State} (h_ : Onward r_ s) : Onward r_ (State.withMemKey s) := h_.trans (State.withMemKey_onward ..)

theorem reachStop_onward (s : State) (n : Nat) : Onward s (reachStop s n) := by
  unfold reachStop
  dsimp only
  have h : Onward s (State.withMemKey { s with power := { s.power with stopPoint := n } }) :=
    State.withMemKey_fwd (Onward.upd (Onward.refl _) (Nat.le_refl _) rfl rfl rfl rfl rfl rfl)
  have hl : (State.withMemKey { s with power := { s.power with stopPoint := n } }).life = s.life := by
    unfold State.withMemKey
    split <;> rfl
  generalize State.withMemKey { s with power := { s.power with stopPoint := n } } = u at h hl
  repeat' first
    | (with_reducible exact Onward.refl _)
    | exact Onward.upd h (Nat.le_refl _) (congrArg LifeCycle.otp hl).symm rfl rfl rfl rfl rfl
    | (with_reducible apply stoppedActions_fwd)
    | (with_reducible apply noteService_fwd)
    | (simp only [Onward.upd_eq])
    | split

theorem reachStop_fwd {r_ : State} {s : State} {n : Nat} (h_ : Onward r_ s) : Onward r_ (reachStop s n) := h_.trans (reachStop_onward ..)

theorem alarmRecord_onward (s : State) (flag : Nat) (cls : AlarmClass) (reading : Nat) : Onward s (alarmRecord s flag cls reading) := by
  unfold alarmRecord
  repeat' first
    | (with_reducible exact Onward.refl _)
    | (with_reducible apply logRepeat_fwd)
    | (simp only [Onward.upd_eq])
    | split

theorem alarmRecord_fwd {r_ : State} {s : State} {flag : Nat} {cls : AlarmClass} {reading : Nat} (h_ : Onward r_ s) : Onward r_ (alarmRecord s flag cls reading) := h_.trans (alarmRecord_onward ..)

theorem zeroDrs_onward (s : State) : Onward s (zeroDrs s) := by
  unfold zeroDrs
  repeat' first
    | (with_reducible exact Onward.refl _)
    | (with_reducible apply State.modLooper_fwd)
    | (simp only [Onward.upd_eq])

theorem zeroDrs_fwd {r_ : State} {s : State} (h_ : Onward r_ s) : Onward r_ (zeroDrs s) := h_.trans (zeroDrs_onward ..)

theorem cocoonAlarm_onward (s : State) (flag : Nat) (cls : AlarmClass) (reading : Nat) : Onward s (cocoonAlarm s flag cls reading) := by
  unfold cocoonAlarm
  repeat' first
    | (with_reducible exact Onward.refl _)
    | (with_reducible apply zeroDrs_fwd)
    | (with_reducible apply alarmRecord_fwd)
    | (with_reducible apply raise_fwd)
    | (simp only [Onward.upd_eq])
    | split

theorem cocoonAlarm_fwd {r_ : State} {s : State} {flag : Nat} {cls : AlarmClass} {reading : Nat} (h_ : Onward r_ s) : Onward r_ (cocoonAlarm s flag cls reading) := h_.trans (cocoonAlarm_onward ..)

theorem mainAlarm_onward (s : State) (flag : Nat) (cls : AlarmClass) (reading : Nat) : Onward s (mainAlarm s flag cls reading) := by
  unfold mainAlarm
  repeat' first
    | (with_reducible exact Onward.refl _)
    | (with_reducible apply cocoonAlarm_fwd)
    | (with_reducible apply mainResponse_fwd)

theorem mainAlarm_fwd {r_ : State} {s : State} {flag : Nat} {cls : AlarmClass} {reading : Nat} (h_ : Onward r_ s) : Onward r_ (mainAlarm s flag cls reading) := h_.trans (mainAlarm_onward ..)

theorem cocoonSource_onward (s : State) (flag : Nat) (cls : AlarmClass) (reading : Nat) : Onward s (cocoonSource s flag cls reading) := by
  unfold cocoonSource
  repeat' first
    | (with_reducible exact Onward.refl _)
    | (with_reducible apply cocoonAlarm_fwd)
    | (simp only [Onward.upd_eq])
    | split

theorem cocoonSource_fwd {r_ : State} {s : State} {flag : Nat} {cls : AlarmClass} {reading : Nat} (h_ : Onward r_ s) : Onward r_ (cocoonSource s flag cls reading) := h_.trans (cocoonSource_onward ..)

theorem faultCompare_onward (s : State) (cls : AlarmClass) : Onward s (faultCompare s cls) := by
  unfold faultCompare
  repeat' first
    | (with_reducible exact Onward.refl _)
    | (with_reducible apply mainAlarm_fwd)

theorem faultCompare_fwd {r_ : State} {s : State} {cls : AlarmClass} (h_ : Onward r_ s) : Onward r_ (faultCompare s cls) := h_.trans (faultCompare_onward ..)

theorem mismatch_onward (s : State) : Onward s (mismatch s) := by
  unfold mismatch
  repeat' first
    | (with_reducible exact Onward.refl _)
    | (with_reducible apply faultCompare_fwd)
    | (simp only [Onward.upd_eq])

theorem mismatch_fwd {r_ : State} {s : State} (h_ : Onward r_ s) : Onward r_ (mismatch s) := h_.trans (mismatch_onward ..)

/-! ## Fabric -/

theorem transmit_onward (s : State) (k : Nat) (f : Frame) : Onward s (transmit s k f) := by
  unfold transmit
  repeat' first
    | (with_reducible exact Onward.refl _)
    | (with_reducible apply State.modPort_fwd)
    | (simp only [Onward.upd_eq])

theorem transmit_fwd {r_ : State} {s : State} {k : Nat} {f : Frame} (h_ : Onward r_ s) : Onward r_ (transmit s k f) := h_.trans (transmit_onward ..)

theorem pump_onward (k n : Nat) (s : State) : Onward s (pump k n s) := by
  induction n generalizing s with
  | zero => exact Onward.refl _
  | succ n ih =>
    unfold pump
    split
    · exact Onward.refl _
    · exact (transmit_onward ..).trans (ih _)

theorem pump_fwd {r_ : State} {k : Nat} {m_ : Nat} {s_ : State} (h_ : Onward r_ s_) : Onward r_ (pump k m_ s_) := h_.trans (pump_onward ..)

theorem pumpAll_onward (s : State) (k : Nat) : Onward s (pumpAll s k) := by
  unfold pumpAll
  repeat' first
    | (with_reducible exact Onward.refl _)
    | (with_reducible apply pump_fwd)

theorem pumpAll_fwd {r_ : State} {s : State} {k : Nat} (h_ : Onward r_ s) : Onward r_ (pumpAll s k) := h_.trans (pumpAll_onward ..)

theorem sendOn_onward (s : State) (k : Nat) (f : Frame) : Onward s (sendOn s k f) := by
  unfold sendOn
  repeat' first
    | (with_reducible exact Onward.refl _)
    | (with_reducible apply pumpAll_fwd)
    | (with_reducible apply State.modPort_fwd)

theorem sendOn_fwd {r_ : State} {s : State} {k : Nat} {f : Frame} (h_ : Onward r_ s) : Onward r_ (sendOn s k f) := h_.trans (sendOn_onward ..)

theorem newFrame_onward (s : State) (dest cls stamp : Nat) (payload : Bytes) : Onward s (newFrame s dest cls stamp payload).2 := by
  unfold newFrame
  repeat' first
    | (with_reducible exact Onward.refl _)
    | (simp only [Onward.upd_eq])
theorem newFrame_pair {s : State} {dest cls stamp : Nat} {payload : Bytes} {u : Frame} {v : State} (h_ : newFrame s dest cls stamp payload = (u, v)) : Onward s v := by
  have := newFrame_onward s dest cls stamp payload
  rwa [h_] at this

theorem sendFrame_onward (s : State) (dest cls stamp : Nat) (payload : Bytes) : Onward s (sendFrame s dest cls stamp payload) := by
  unfold sendFrame
  repeat' first
    | (with_reducible exact Onward.refl _)
    | (with_reducible refine Onward.trans ?_ (newFrame_onward ..))
    | (with_reducible apply sendOn_fwd)
    | (simp only [Onward.upd_eq])
    | split

theorem sendFrame_fwd {r_ : State} {s : State} {dest cls stamp : Nat} {payload : Bytes} (h_ : Onward r_ s) : Onward r_ (sendFrame s dest cls stamp payload) := h_.trans (sendFrame_onward ..)

theorem sendTo_onward (s : State) (dest cls : Nat) (payload : Bytes) : Onward s (sendTo s dest cls payload) := by
  unfold sendTo
  repeat' first
    | (with_reducible exact Onward.refl _)
    | (with_reducible apply sendFrame_fwd)
    | (with_reducible refine Onward.fold ?_ (fun t a => ?_))
    | split

theorem sendTo_fwd {r_ : State} {s : State} {dest cls : Nat} {payload : Bytes} (h_ : Onward r_ s) : Onward r_ (sendTo s dest cls payload) := h_.trans (sendTo_onward ..)

theorem broadcast_onward (s : State) (cls stamp : Nat) (payload : Bytes) : Onward s (broadcast s cls stamp payload) := by
  unfold broadcast
  repeat' first
    | (with_reducible exact Onward.refl _)
    | (with_reducible refine Onward.trans ?_ (newFrame_onward ..))
    | (with_reducible apply sendOn_fwd)
    | (with_reducible refine Onward.fold ?_ (fun t a => ?_))

theorem broadcast_fwd {r_ : State} {s : State} {cls stamp : Nat} {payload : Bytes} (h_ : Onward r_ s) : Onward r_ (broadcast s cls stamp payload) := h_.trans (broadcast_onward ..)

theorem sendLink_onward (s : State) (k cls : Nat) (payload : Bytes) : Onward s (sendLink s k cls payload) := by
  unfold sendLink
  repeat' first
    | (with_reducible exact Onward.refl _)
    | (with_reducible refine Onward.trans ?_ (newFrame_onward ..))
    | (with_reducible apply sendOn_fwd)

theorem sendLink_fwd {r_ : State} {s : State} {k cls : Nat} {payload : Bytes} (h_ : Onward r_ s) : Onward r_ (sendLink s k cls payload) := h_.trans (sendLink_onward ..)

theorem linkLost_onward (s : State) (k : Nat) : Onward s (linkLost s k) := by
  unfold linkLost
  repeat' first
    | (with_reducible exact Onward.refl _)
    | (with_reducible apply noteService_fwd)
    | (with_reducible apply State.modPort_fwd)
    | (simp only [Onward.upd_eq])
    | split

theorem linkLost_fwd {r_ : State} {s : State} {k : Nat} (h_ : Onward r_ s) : Onward r_ (linkLost s k) := h_.trans (linkLost_onward ..)

theorem adopt_onward (s : State) (idx sub : Nat) (v : Bytes) : Onward s (adopt s idx sub v) := by
  unfold adopt
  refine Onward.trans ?_ (odEffect_onward ..)
  exact State.withBase_onward s (fun b => { b with
    store := tset b.store (odKey idx sub) v
    change := tset b.change (odKey idx sub) (tgetD b.change (odKey idx sub) 0 + 1) }) (fun b h => h)

theorem adopt_fwd {r_ : State} {s : State} {idx sub : Nat} {v : Bytes} (h_ : Onward r_ s) : Onward r_ (adopt s idx sub v) := h_.trans (adopt_onward ..)

theorem loseCollar_onward (s : State) (role : Nat) : Onward s (loseCollar s role) := by
  unfold loseCollar
  dsimp only
  split
  · refine Onward.trans ?_ (raise_onward ..)
    refine Onward.trans ?_ (closeSessions_onward ..)
    refine Onward.fold ?_ (fun t a => (cutRing_onward ..).trans (noteReplay_onward ..))
    exact Onward.upd (Onward.refl _) (Nat.le_refl _) rfl rfl rfl rfl rfl rfl
  · exact Onward.upd (Onward.refl _) (Nat.le_refl _) rfl rfl rfl rfl rfl rfl

theorem loseCollar_fwd {r_ : State} {s : State} {role : Nat} (h_ : Onward r_ s) : Onward r_ (loseCollar s role) := h_.trans (loseCollar_onward ..)

theorem dropCollar_onward (s : State) : Onward s (dropCollar s) := by
  unfold dropCollar
  split
  · have h := loseCollar_onward s s.pair.role
    generalize loseCollar s s.pair.role = t at h
    exact h.trans (Onward.upd (Onward.refl _) (Nat.le_refl _) rfl rfl rfl rfl rfl rfl)
  · exact Onward.upd (Onward.refl _) (Nat.le_refl _) rfl rfl rfl rfl rfl rfl

theorem dropCollar_fwd {r_ : State} {s : State} (h_ : Onward r_ s) : Onward r_ (dropCollar s) := h_.trans (dropCollar_onward ..)

theorem quarantineAs_onward (s : State) (q : Nat) : Onward s (quarantineAs s q) := by
  unfold quarantineAs
  split
  · exact Onward.refl _
  · dsimp only
    refine Onward.trans ?_ (noteService_onward ..)
    refine Onward.trans ?_ (dropCollar_onward ..)
    refine Onward.trans ?_ (raise_onward ..)
    refine Onward.trans ?_ (logMain_onward ..)
    exact Onward.upd (Onward.refl _) (Nat.le_refl _) rfl rfl rfl rfl rfl rfl

theorem quarantineAs_fwd {r_ : State} {s : State} {q : Nat} (h_ : Onward r_ s) : Onward r_ (quarantineAs s q) := h_.trans (quarantineAs_onward ..)

theorem checkVersion_onward (s : State) : Onward s (checkVersion s) := by
  unfold checkVersion
  repeat' first
    | (with_reducible exact Onward.refl _)
    | (with_reducible apply quarantineAs_fwd)
    | split

theorem checkVersion_fwd {r_ : State} {s : State} (h_ : Onward r_ s) : Onward r_ (checkVersion s) := h_.trans (checkVersion_onward ..)

theorem stepEpoch_onward (s : State) (entry : Option (Nat × Nat × Bytes)) : Onward s (stepEpoch s entry) := by
  unfold stepEpoch
  repeat' first
    | (with_reducible exact Onward.refl _)
    | (with_reducible apply checkVersion_fwd)
    | (with_reducible apply adopt_fwd)
    | (with_reducible apply broadcast_fwd)
    | (with_reducible apply raise_fwd)
    | split

theorem stepEpoch_fwd {r_ : State} {s : State} {entry : Option (Nat × Nat × Bytes)} (h_ : Onward r_ s) : Onward r_ (stepEpoch s entry) := h_.trans (stepEpoch_onward ..)

/-! ## Bind -/

theorem modStored_onward (s : State) (slot : Nat) (f : KeyRec → KeyRec) : Onward s (modStored s slot f) := by
  unfold modStored
  repeat' first
    | (with_reducible exact Onward.refl _)
    | (with_reducible refine State.withBase_fwd ?_ (fun b h => tsorted_tmap _ _ h))

theorem modStored_fwd {r_ : State} {s : State} {slot : Nat} {f : KeyRec → KeyRec} (h_ : Onward r_ s) : Onward r_ (modStored s slot f) := h_.trans (modStored_onward ..)

theorem recordLost_onward (s : State) (slot : Nat) : Onward s (recordLost s slot) := by
  unfold recordLost
  repeat' first
    | (with_reducible exact Onward.refl _)
    | (with_reducible apply logMain_fwd)

theorem recordLost_fwd {r_ : State} {s : State} {slot : Nat} (h_ : Onward r_ s) : Onward r_ (recordLost s slot) := h_.trans (recordLost_onward ..)

theorem markDamaged_onward (s : State) (slot : Nat) : Onward s (markDamaged s slot) := by
  unfold markDamaged
  repeat' first
    | (with_reducible exact Onward.refl _)
    | (with_reducible apply recordLost_fwd)
    | (with_reducible apply modStored_fwd)
    | (with_reducible apply raise_fwd)
    | (simp only [Onward.upd_eq])

theorem markDamaged_fwd {r_ : State} {s : State} {slot : Nat} (h_ : Onward r_ s) : Onward r_ (markDamaged s slot) := h_.trans (markDamaged_onward ..)

theorem askRecord_onward (s : State) (slot n : Nat) : Onward s (askRecord s slot n) := by
  unfold askRecord
  repeat' first
    | (with_reducible exact Onward.refl _)
    | (with_reducible apply markDamaged_fwd)
    | (with_reducible apply sendLink_fwd)
    | (with_reducible apply sendTo_fwd)
    | (simp only [Onward.upd_eq])
    | split

theorem askRecord_fwd {r_ : State} {s : State} {slot n : Nat} (h_ : Onward r_ s) : Onward r_ (askRecord s slot n) := h_.trans (askRecord_onward ..)

theorem loseRecord_onward (s : State) (slot : Nat) : Onward s (loseRecord s slot) := by
  unfold loseRecord
  repeat' first
    | (with_reducible exact Onward.refl _)
    | (with_reducible apply askRecord_fwd)
    | (with_reducible apply recordLost_fwd)
    | (with_reducible apply modStored_fwd)

theorem loseRecord_fwd {r_ : State} {s : State} {slot : Nat} (h_ : Onward r_ s) : Onward r_ (loseRecord s slot) := h_.trans (loseRecord_onward ..)

theorem touchCache_onward (s : State) (slot : Nat) : Onward s (touchCache s slot) := by
  unfold touchCache
  repeat' first
    | (with_reducible exact Onward.refl _)
    | (simp only [Onward.upd_eq])

theorem touchCache_fwd {r_ : State} {s : State} {slot : Nat} (h_ : Onward r_ s) : Onward r_ (touchCache s slot) := h_.trans (touchCache_onward ..)

theorem putCache_onward (s : State) (slot : Nat) (r : Rec) : Onward s (putCache s slot r) := by
  unfold putCache
  repeat' first
    | (with_reducible exact Onward.refl _)
    | (simp only [Onward.upd_eq])

theorem putCache_fwd {r_ : State} {s : State} {slot : Nat} {r : Rec} (h_ : Onward r_ s) : Onward r_ (putCache s slot r) := h_.trans (putCache_onward ..)

theorem insertCache_onward (s : State) (slot : Nat) (r : Rec) : Onward s (insertCache s slot r) := by
  unfold insertCache
  repeat' first
    | (with_reducible exact Onward.refl _)
    | (with_reducible apply putCache_fwd)
    | (simp only [Onward.upd_eq])
    | split

theorem insertCache_fwd {r_ : State} {s : State} {slot : Nat} {r : Rec} (h_ : Onward r_ s) : Onward r_ (insertCache s slot r) := h_.trans (insertCache_onward ..)

theorem chooseLane_onward (s : State) (n : Nat) (x : Slot) : Onward s (chooseLane s n x) := by
  unfold chooseLane
  repeat' first
    | (with_reducible exact Onward.refl _)
    | (with_reducible refine Onward.trans ?_ (freeNat_onward ..))
    | (with_reducible apply State.modSlot_fwd)
    | split

theorem chooseLane_fwd {r_ : State} {s : State} {n : Nat} {x : Slot} (h_ : Onward r_ s) : Onward r_ (chooseLane s n x) := h_.trans (chooseLane_onward ..)

theorem takePage_some {s t : State} {n lane p : Nat} {k : Bound} (h : takePage s n lane p k = some t) : Onward s t := by
  unfold takePage at h
  dsimp only at h
  obtain ⟨o, -, rfl⟩ := Option.map_eq_some_iff.mp h
  refine Onward.trans ?_ (State.modSlot_onward ..)
  simp only [Onward.upd_eq]
  exact State.modLane_onward ..

theorem takePages_some {s t : State} {n lane p : Nat} {l : List Bound} (h : takePages s n lane p l = some t) : Onward s t := by
  induction l generalizing s with
  | nil => unfold takePages at h; cases h; exact Onward.refl _
  | cons k l ih =>
    unfold takePages at h
    obtain ⟨u, h1, h2⟩ := Option.bind_eq_some_iff.mp h
    exact (takePage_some h1).trans (ih h2)
theorem takePages_getD {r s : State} {n lane p : Nat} {l : List Bound} (h : Onward r s) : Onward r ((takePages s n lane p l).getD s) := by
  cases hb : takePages s n lane p l with
  | none => exact h
  | some t => exact h.trans (takePages_some hb)

theorem loadPage_onward (s : State) (n : Nat) : Onward s (loadPage s n) := by
  unfold loadPage
  repeat' first
    | (with_reducible exact Onward.refl _)
    | (with_reducible apply takePages_getD)
    | (with_reducible apply chooseLane_fwd)
    | (simp only [Onward.upd_eq])
    | split

theorem loadPage_fwd {r_ : State} {s : State} {n : Nat} (h_ : Onward r_ s) : Onward r_ (loadPage s n) := h_.trans (loadPage_onward ..)

theorem bound_onward (s : State) (n : Nat) (x : Slot) : Onward s (bound s n x) := by
  unfold bound
  repeat' first
    | (with_reducible exact Onward.refl _)
    | (with_reducible apply chooseLane_fwd)
    | (with_reducible apply malformed_fwd)
    | (with_reducible apply fail_fwd)
    | (with_reducible apply freeLoaded_fwd)
    | (with_reducible apply State.modSlot_fwd)
    | split

theorem bound_fwd {r_ : State} {s : State} {n : Nat} {x : Slot} (h_ : Onward r_ s) : Onward r_ (bound s n x) := h_.trans (bound_onward ..)

theorem reserveAt_got {s t : State} {n slot v : Nat} {x : Slot} {r : Rec} (h : reserveAt s n x slot r = some (.got t v)) : Onward s t := by
  have hc {s t : State} {v rec held cur : Nat} {nx : Nat → Option Nat} (h : reserveCounter s rec held cur nx = .got t v) : Onward s t := by
    unfold reserveCounter at h
    repeat' first
      | cases h; done
      | split at h
      | dsimp only at h
    all_goals
      simp only [Reserve.got.injEq] at h
      rw [← h.1]
      exact Onward.upd (Onward.refl _) (Nat.le_refl _) rfl rfl rfl rfl rfl rfl
  unfold reserveAt at h
  dsimp only at h
  split at h
  · simp only [Option.some.injEq] at h
    unfold reserveOrigin at h
    repeat' first
      | exact hc h
      | cases h; done
      | split at h
      | dsimp only at h
    all_goals
      simp only [Reserve.got.injEq] at h
      rw [← h.1, Onward.upd_eq] <;> first | rfl | exact hc (by assumption)
  · split at h
    · simp only [Option.some.injEq] at h
      exact hc h
    · split at h
      · simp only [Option.some.injEq] at h
        unfold reserveAtc at h
        repeat' first
          | cases h; done
          | split at h
          | dsimp only at h
        all_goals
          simp only [Reserve.got.injEq] at h
          rw [← h.1]
          exact Onward.upd (Onward.refl _) (Nat.le_refl _) rfl rfl rfl rfl rfl rfl
      · cases h
theorem bindOne_some {s t : State} {n pos : Nat} {x : Slot} {r : Rec} (h : bindOne s n x pos r = some t) : Onward s t := by
  unfold bindOne at h
  dsimp only at h
  split at h
  · cases h; exact State.modSlot_onward ..
  · cases h
  · cases h; exact State.modSlot_onward ..
  · rename_i u v hr
    cases h
    refine Onward.trans ?_ (State.modSlot_onward ..)
    split at hr
    · exact reserveAt_got hr
    · cases hr

theorem bindKeys_onward (s : State) (n : Nat) (seen : Option (Nat × Option Rec)) (k : Nat) : Onward s (bindKeys s n seen k) := by
  induction k generalizing s with
  | zero => exact Onward.refl _
  | succ k ih =>
    unfold bindKeys
    repeat' first
      | (with_reducible exact Onward.refl _)
      | (with_reducible refine Onward.trans ?_ (bound_onward ..))
      | (with_reducible refine Onward.trans ?_ (fail_onward ..))
      | (with_reducible refine Onward.trans ?_ (ih ..))
      | (with_reducible refine Onward.trans ?_ (loadPage_onward ..))
      | (with_reducible refine Onward.trans ?_ (bindOne_some (by assumption)))
      | (with_reducible refine Onward.trans ?_ (touchCache_onward ..))
      | (with_reducible refine Onward.trans ?_ (State.modSlot_onward ..))
      | (simp only [Onward.upd_eq])
      | split
      | dsimp only

theorem bindKeys_fwd {r_ : State} {s : State} {n : Nat} {seen : Option (Nat × Option Rec)} {m_ : Nat} (h_ : Onward r_ s) : Onward r_ (bindKeys s n seen m_) := h_.trans (bindKeys_onward ..)

theorem execKeyBind_onward (slot : Nat) (s : State) : ∃ w, execKeyBind slot s = .next w ∧ Onward s w := by
  refine ⟨_, rfl, ?_⟩
  repeat' first
    | (with_reducible exact Onward.refl _)
    | (with_reducible apply bindKeys_fwd)
    | (with_reducible apply fail_fwd)
    | (simp only [Onward.upd_eq])
    | split

theorem insertUnwrapped_onward (s : State) (k : Nat) : Onward s (insertUnwrapped s k) := by
  unfold insertUnwrapped
  repeat' first
    | (with_reducible exact Onward.refl _)
    | (with_reducible apply insertCache_fwd)
    | (with_reducible apply loseRecord_fwd)
    | split

theorem insertUnwrapped_fwd {r_ : State} {s : State} {k : Nat} (h_ : Onward r_ s) : Onward r_ (insertUnwrapped s k) := h_.trans (insertUnwrapped_onward ..)

theorem execKeyCacheMissDone_onward (slot : Nat) (s : State) : ∃ w, execKeyCacheMissDone slot s = .next w ∧ Onward s w := by
  refine ⟨_, rfl, ?_⟩
  repeat' first
    | (with_reducible exact Onward.refl _)
    | (with_reducible apply insertUnwrapped_fwd)
    | (with_reducible apply bindKeys_fwd)
    | (with_reducible refine Onward.fold ?_ (fun t a => ?_))
    | (simp only [Onward.upd_eq])
    | split

theorem execReservationEntryFree_onward (slot : Nat) (s : State) : ∃ w, execReservationEntryFree slot s = .next w ∧ Onward s w := by
  refine ⟨_, rfl, ?_⟩
  repeat' first
    | (with_reducible exact Onward.refl _)
    | (with_reducible apply bindKeys_fwd)
    | split

/-! ## Units -/

theorem askDraw_onward (s : State) (cls who : Nat) : Onward s (askDraw s cls who) := by
  unfold askDraw
  repeat' first
    | (with_reducible exact Onward.refl _)
    | (simp only [Onward.upd_eq])

theorem askDraw_fwd {r_ : State} {s : State} {cls who : Nat} (h_ : Onward r_ s) : Onward r_ (askDraw s cls who) := h_.trans (askDraw_onward ..)

theorem enqueue_onward (s : State) (n : Nat) (u : UnitClass × Nat) : Onward s (enqueue s n u) := by
  unfold enqueue
  repeat' first
    | (with_reducible exact Onward.refl _)
    | (with_reducible apply startEngine_fwd)
    | (with_reducible apply startPlume_fwd)
    | (with_reducible apply startHash_fwd)
    | (with_reducible apply State.modPlume_fwd)
    | (with_reducible apply State.modEngine_fwd)
    | (with_reducible apply State.modHash_fwd)
    | (with_reducible apply State.modLane_fwd)
    | split

theorem enqueue_fwd {r_ : State} {s : State} {n : Nat} {u : UnitClass × Nat} (h_ : Onward r_ s) : Onward r_ (enqueue s n u) := h_.trans (enqueue_onward ..)

theorem reserveRandom_onward (s : State) (n : Nat) (x : Slot) (u : UnitClass × Nat) : Onward s (reserveRandom s n x u) := by
  unfold reserveRandom
  repeat' first
    | (with_reducible exact Onward.refl _)
    | (with_reducible apply State.modLane_fwd)
    | (with_reducible apply State.modSlot_fwd)
    | (with_reducible apply State.modPart_fwd)
    | (simp only [Onward.upd_eq])
    | split

theorem reserveRandom_fwd {r_ : State} {s : State} {n : Nat} {x : Slot} {u : UnitClass × Nat} (h_ : Onward r_ s) : Onward r_ (reserveRandom s n x u) := h_.trans (reserveRandom_onward ..)

theorem admitLane_onward (s : State) (lane : Nat) : Onward s (admitLane s lane) := by
  unfold admitLane
  repeat' first
    | (with_reducible exact Onward.refl _)
    | (with_reducible apply takePages_getD)
    | (with_reducible refine Onward.fold ?_ (fun t a => ?_))
    | split

theorem admitLane_fwd {r_ : State} {s : State} {lane : Nat} (h_ : Onward r_ s) : Onward r_ (admitLane s lane) := h_.trans (admitLane_onward ..)

theorem dispatchTo_onward (s : State) (n : Nat) (x : Slot) (u : UnitClass × Nat) (rest : List UnitClass) : Onward s (dispatchTo s n x u rest) := by
  unfold dispatchTo
  repeat' first
    | (with_reducible exact Onward.refl _)
    | (with_reducible apply admitLane_fwd)
    | (with_reducible apply reserveRandom_fwd)
    | (with_reducible apply enqueue_fwd)
    | (with_reducible apply State.modSlot_fwd)
    | split

theorem dispatchTo_fwd {r_ : State} {s : State} {n : Nat} {x : Slot} {u : UnitClass × Nat} {rest : List UnitClass} (h_ : Onward r_ s) : Onward r_ (dispatchTo s n x u rest) := h_.trans (dispatchTo_onward ..)

theorem execStepDispatch_onward (slot unit : Nat) (s : State) : ∃ w, execStepDispatch slot unit s = .next w ∧ Onward s w := by
  refine ⟨_, rfl, ?_⟩
  repeat' first
    | (with_reducible exact Onward.refl _)
    | (with_reducible apply dispatchTo_fwd)
    | (with_reducible apply askDraw_fwd)
    | (with_reducible apply fail_fwd)
    | (with_reducible apply State.modSlot_fwd)
    | split

theorem freeUpTo_onward (s : State) (n : Nat) : Onward s (freeUpTo s n).2 := by
  unfold freeUpTo
  repeat' first
    | (with_reducible exact Onward.refl _)
    | (with_reducible refine Onward.trans ?_ (freeNat_pair (by assumption)))
    | split
theorem freeUpTo_pair {s : State} {n : Nat} {u : Nat} {v : State} (h_ : freeUpTo s n = (u, v)) : Onward s v := by
  have := freeUpTo_onward s n
  rwa [h_] at this

theorem totalTime_onward (s : State) (n : Nat) (x : Slot) : Onward s (totalTime s n x) := by
  unfold totalTime
  repeat' first
    | (with_reducible exact Onward.refl _)
    | (with_reducible refine Onward.trans ?_ (freeUpTo_onward ..))
    | (with_reducible apply State.modSlot_fwd)

theorem totalTime_fwd {r_ : State} {s : State} {n : Nat} {x : Slot} (h_ : Onward r_ s) : Onward r_ (totalTime s n x) := h_.trans (totalTime_onward ..)

theorem stepEnd_onward (s : State) (n : Nat) (x : Slot) : Onward s (stepEnd s n x) := by
  unfold stepEnd
  repeat' first
    | (with_reducible exact Onward.refl _)
    | (with_reducible apply totalTime_fwd)
    | (with_reducible apply State.modSlot_fwd)
    | split

theorem stepEnd_fwd {r_ : State} {s : State} {n : Nat} {x : Slot} (h_ : Onward r_ s) : Onward r_ (stepEnd s n x) := h_.trans (stepEnd_onward ..)

theorem endCut_onward (s : State) (n : Nat) (x : Slot) (st : Status) (running : Bool) : Onward s (endCut s n x st running) := by
  unfold endCut
  repeat' first
    | (with_reducible exact Onward.refl _)
    | (with_reducible apply fail_fwd)
    | (with_reducible apply finish_fwd)
    | (with_reducible refine Onward.trans ?_ (freeNat_onward ..))
    | (with_reducible apply State.modSlot_fwd)
    | (simp only [Onward.upd_eq])
    | split

theorem endCut_fwd {r_ : State} {s : State} {n : Nat} {x : Slot} {st : Status} {running : Bool} (h_ : Onward r_ s) : Onward r_ (endCut s n x st running) := h_.trans (endCut_onward ..)

theorem laneDone_onward (s : State) (lane n : Nat) (x : Slot) : Onward s (laneDone s lane n x) := by
  unfold laneDone
  repeat' first
    | (with_reducible exact Onward.refl _)
    | (with_reducible apply stepEnd_fwd)
    | (with_reducible apply State.modLane_fwd)
    | (with_reducible apply State.modSlot_fwd)

theorem laneDone_fwd {r_ : State} {s : State} {lane n : Nat} {x : Slot} (h_ : Onward r_ s) : Onward r_ (laneDone s lane n x) := h_.trans (laneDone_onward ..)

theorem execSkipperStepDone_onward (slot : Nat) (s : State) : ∃ w, execSkipperStepDone slot s = .next w ∧ Onward s w := by
  refine ⟨_, rfl, ?_⟩
  repeat' first
    | (with_reducible exact Onward.refl _)
    | (with_reducible apply laneDone_fwd)
    | (with_reducible apply endCut_fwd)
    | (with_reducible apply admitLane_fwd)
    | (with_reducible apply unqueue_fwd)
    | split

theorem execHashStepDone_onward (unit : Nat) (s : State) : ∃ w, execHashStepDone unit s = .next w ∧ Onward s w := by
  refine ⟨_, rfl, ?_⟩
  repeat' first
    | (with_reducible exact Onward.refl _)
    | (with_reducible apply endCut_fwd)
    | (with_reducible apply stepEnd_fwd)
    | (with_reducible apply unqueue_fwd)
    | (with_reducible apply State.modHash_fwd)
    | split

theorem passesDiffer_onward (s : State) (n : Nat) (u : UnitClass × Nat) : Onward s (passesDiffer s n u) := by
  unfold passesDiffer
  repeat' first
    | (with_reducible exact Onward.refl _)
    | (with_reducible apply mismatch_fwd)
    | (with_reducible apply fail_fwd)
    | (with_reducible apply closeEngine_fwd)
    | (with_reducible apply State.modPlume_fwd)
    | (with_reducible apply State.modEngine_fwd)
    | split

theorem passesDiffer_fwd {r_ : State} {s : State} {n : Nat} {u : UnitClass × Nat} (h_ : Onward r_ s) : Onward r_ (passesDiffer s n u) := h_.trans (passesDiffer_onward ..)

theorem engineDone_onward (s : State) (engine n : Nat) (x : Slot) (extra : Nat) : Onward s (engineDone s engine n x extra) := by
  unfold engineDone
  repeat' first
    | (with_reducible exact Onward.refl _)
    | (with_reducible apply stepEnd_fwd)
    | (with_reducible refine Onward.trans ?_ (freeUpTo_onward ..))
    | (with_reducible apply State.modEngine_fwd)
    | (with_reducible apply State.modSlot_fwd)
    | split

theorem engineDone_fwd {r_ : State} {s : State} {engine n : Nat} {x : Slot} {extra : Nat} (h_ : Onward r_ s) : Onward r_ (engineDone s engine n x extra) := h_.trans (engineDone_onward ..)

theorem execHawkmothOpDone_onward (engine : Nat) (agree : Bool) (s : State) : ∃ w, execHawkmothOpDone engine agree s = .next w ∧ Onward s w := by
  refine ⟨_, rfl, ?_⟩
  repeat' first
    | (with_reducible exact Onward.refl _)
    | (with_reducible apply engineDone_fwd)
    | (with_reducible apply passesDiffer_fwd)
    | (with_reducible apply endCut_fwd)
    | (with_reducible apply fail_fwd)
    | (with_reducible apply unqueue_fwd)
    | (with_reducible apply State.modEngine_fwd)
    | split

theorem execPlumeOpDone_onward (unit : Nat) (agree : Bool) (s : State) : ∃ w, execPlumeOpDone unit agree s = .next w ∧ Onward s w := by
  refine ⟨_, rfl, ?_⟩
  repeat' first
    | (with_reducible exact Onward.refl _)
    | (with_reducible apply passesDiffer_fwd)
    | (with_reducible apply endCut_fwd)
    | (with_reducible apply stepEnd_fwd)
    | (with_reducible apply unqueue_fwd)
    | (with_reducible apply State.modPlume_fwd)
    | split

theorem redispatch_onward (s : State) (u : UnitClass × Nat) (q : List Nat) : Onward s (redispatch s u q) := by
  unfold redispatch
  repeat' first
    | (with_reducible exact Onward.refl _)
    | (with_reducible apply unqueue_fwd)
    | (with_reducible apply State.modSlot_fwd)
    | (with_reducible refine Onward.fold ?_ (fun t a => ?_))

theorem redispatch_fwd {r_ : State} {s : State} {u : UnitClass × Nat} {q : List Nat} (h_ : Onward r_ s) : Onward r_ (redispatch s u q) := h_.trans (redispatch_onward ..)

theorem goOffline_onward (s : State) (u : UnitClass × Nat) : Onward s (goOffline s u) := by
  unfold goOffline
  repeat' first
    | (with_reducible exact Onward.refl _)
    | (with_reducible apply redispatch_fwd)
    | (with_reducible apply faultCompare_fwd)
    | (with_reducible apply raise_fwd)
    | (with_reducible apply logMain_fwd)
    | (with_reducible apply State.modPlume_fwd)
    | (with_reducible apply State.modEngine_fwd)
    | (simp only [Onward.upd_eq])
    | split

theorem goOffline_fwd {r_ : State} {s : State} {u : UnitClass × Nat} (h_ : Onward r_ s) : Onward r_ (goOffline s u) := h_.trans (goOffline_onward ..)

theorem goIdle_onward (s : State) (u : UnitClass × Nat) : Onward s (goIdle s u) := by
  unfold goIdle
  repeat' first
    | (with_reducible exact Onward.refl _)
    | (with_reducible apply startEngine_fwd)
    | (with_reducible apply startPlume_fwd)
    | (with_reducible apply State.modPlume_fwd)
    | (with_reducible apply State.modEngine_fwd)
    | split

theorem goIdle_fwd {r_ : State} {s : State} {u : UnitClass × Nat} (h_ : Onward r_ s) : Onward r_ (goIdle s u) := h_.trans (goIdle_onward ..)

theorem execEngineSelfTestDone_onward (cls : UnitClass) (unit : Nat) (pass : Bool) (s : State) : ∃ w, execEngineSelfTestDone cls unit pass s = .next w ∧ Onward s w := by
  refine ⟨_, rfl, ?_⟩
  repeat' first
    | (with_reducible exact Onward.refl _)
    | (with_reducible apply goIdle_fwd)
    | (with_reducible apply goOffline_fwd)
    | split

theorem execEngineAbortDone_onward (cls : UnitClass) (unit : Nat) (s : State) : ∃ w, execEngineAbortDone cls unit s = .next w ∧ Onward s w := by
  refine ⟨_, rfl, ?_⟩
  repeat' first
    | (with_reducible exact Onward.refl _)
    | (with_reducible apply endCut_fwd)
    | (with_reducible apply closeEngine_fwd)
    | (with_reducible apply unqueue_fwd)
    | (with_reducible apply State.modPlume_fwd)
    | (with_reducible apply State.modEngine_fwd)
    | (with_reducible refine Onward.fold ?_ (fun t a => ?_))
    | (simp only [Onward.upd_eq])
    | split

end Sys2Proof.Machine
end

