-- ==== Sys2Proof/Laws/OnwardService.lean ====
section
/-! SUPPORT. No operation of a group takes back what `Onward` keeps: results, key operations, signing in bulk, operational data, events, rings, disabling and entropy. -/

set_option linter.unreachableTactic false
set_option linter.unusedTactic false

namespace Sys2Proof.Machine

/-! ## Result -/

theorem queueItem_onward (s : State) (i : Item) : Onward s (queueItem s i) := by
  unfold queueItem
  repeat' first
    | (with_reducible exact Onward.refl _)
    | (with_reducible apply State.modSlot_fwd)
    | (with_reducible refine Onward.fold ?_ (fun t a => ?_))
    | (simp only [Onward.upd_eq])

theorem queueItem_fwd {r_ : State} {s : State} {i : Item} (h_ : Onward r_ s) : Onward r_ (queueItem s i) := h_.trans (queueItem_onward ..)

theorem setResult_onward (s : State) (n : Nat) (o : Out) : Onward s (setResult s n o) := by
  unfold setResult
  repeat' first
    | (with_reducible exact Onward.refl _)
    | (with_reducible apply State.modSlot_fwd)

theorem setResult_fwd {r_ : State} {s : State} {n : Nat} {o : Out} (h_ : Onward r_ s) : Onward r_ (setResult s n o) := h_.trans (setResult_onward ..)

theorem conclude_onward (s : State) (l : Tab Slot) : Onward s (conclude s l) := by
  unfold conclude
  repeat' first
    | (with_reducible exact Onward.refl _)
    | (with_reducible apply queueItem_fwd)
    | (with_reducible apply State.modSlot_fwd)
    | (with_reducible refine Onward.fold ?_ (fun t a => ?_))
    | split

theorem conclude_fwd {r_ : State} {s : State} {l : Tab Slot} (h_ : Onward r_ s) : Onward r_ (conclude s l) := h_.trans (conclude_onward ..)

theorem settleAlone_onward {r s0 s : State} (n : Nat) (o : Out) (h0 : Onward r s0) (h : Onward r s) : Onward r (settleAlone s0 s n o) := by
  unfold settleAlone
  dsimp only
  split
  · exact h0
  · exact (h.trans (setResult_onward ..)).trans (conclude_onward ..)

theorem settleChained_onward {r s0 s : State} (n first : Nat) (x : Slot) (o : Out) (h0 : Onward r s0) (h : Onward r s) :
    Onward r (settleChained s0 s n first x o) := by
  unfold settleChained
  dsimp only
  split
  · exact settleAlone_onward n o h0 (h.trans (failChain_onward ..))
  · split
    · exact h.trans (setResult_onward ..)
    · split
      · exact h0
      · exact (h.trans (setResult_onward ..)).trans (conclude_onward ..)

theorem settle_onward {r s0 s : State} (n : Nat) (x : Slot) (o : Out) (h0 : Onward r s0) (h : Onward r s) : Onward r (settle s0 s n x o) := by
  unfold settle
  split
  · exact settleAlone_onward n o h0 h
  · exact settleChained_onward n _ x o h0 h

theorem workDone_onward (s : State) (n : Nat) (x : Slot) : Onward s (workDone s n x) := by
  unfold workDone
  repeat' first
    | (with_reducible exact Onward.refl _)
    | (with_reducible apply totalTime_fwd)
    | split

theorem workDone_fwd {r_ : State} {s : State} {n : Nat} {x : Slot} (h_ : Onward r_ s) : Onward r_ (workDone s n x) := h_.trans (workDone_onward ..)

theorem runOp_onward (op n : Nat) (f : State → Slot → Out) (s : State) : ∃ t, runOp op n f s = .next t ∧ Onward s t := by
  refine ⟨_, rfl, ?_⟩
  split
  · exact Onward.refl _
  · exact settle_onward _ _ _ (Onward.refl _) (workDone_onward ..)

theorem runOpS_onward (op n : Nat) (f : State → Slot → Out × State) (s : State) (hf : ∀ t x, Onward t (f t x).2) :
    ∃ t, runOpS op n f s = .next t ∧ Onward s t := by
  refine ⟨_, rfl, ?_⟩
  split
  · exact Onward.refl _
  · exact settle_onward _ _ _ (Onward.refl _) ((workDone_onward ..).trans (hf _ _))

theorem execNop_onward (slot : Nat) (s : State) : ∃ w, execNop slot s = .next w ∧ Onward s w := runOp_onward ..

/-! ## KeyOps -/

theorem keyGenerateOut_onward (s : State) (x : Slot) : Onward s (keyGenerateOut s x).2 := by
  unfold keyGenerateOut
  repeat' first
    | (with_reducible exact Onward.refl _)
    | (simp only [Onward.upd_eq])
    | split
theorem keyGenerateOut_pair {s : State} {x : Slot} {u : Out} {v : State} (h_ : keyGenerateOut s x = (u, v)) : Onward s v := by
  have := keyGenerateOut_onward s x
  rwa [h_] at this

theorem execKeyGenerate_onward (slot : Nat) (s : State) : ∃ w, execKeyGenerate slot s = .next w ∧ Onward s w := runOpS_onward _ _ _ _ (fun t x => keyGenerateOut_onward t x)

theorem keyGeneratePairOut_onward (s : State) (x : Slot) : Onward s (keyGeneratePairOut s x).2 := by
  unfold keyGeneratePairOut
  repeat' first
    | (with_reducible exact Onward.refl _)
    | (simp only [Onward.upd_eq])
    | split
theorem keyGeneratePairOut_pair {s : State} {x : Slot} {u : Out} {v : State} (h_ : keyGeneratePairOut s x = (u, v)) : Onward s v := by
  have := keyGeneratePairOut_onward s x
  rwa [h_] at this

theorem execKeyGeneratePair_onward (slot : Nat) (s : State) : ∃ w, execKeyGeneratePair slot s = .next w ∧ Onward s w := runOpS_onward _ _ _ _ (fun t x => keyGeneratePairOut_onward t x)

theorem execKeyDerive_onward (slot : Nat) (s : State) : ∃ w, execKeyDerive slot s = .next w ∧ Onward s w := runOp_onward ..

theorem execKeyImportTr31_onward (slot : Nat) (s : State) : ∃ w, execKeyImportTr31 slot s = .next w ∧ Onward s w := runOp_onward ..

theorem execKeyImportWrap_onward (slot : Nat) (s : State) : ∃ w, execKeyImportWrap slot s = .next w ∧ Onward s w := runOp_onward ..

theorem keyExportTr31Out_onward (s : State) (x : Slot) : Onward s (keyExportTr31Out s x).2 := by
  unfold keyExportTr31Out
  repeat' first
    | (with_reducible exact Onward.refl _)
theorem keyExportTr31Out_pair {s : State} {x : Slot} {u : Out} {v : State} (h_ : keyExportTr31Out s x = (u, v)) : Onward s v := by
  have := keyExportTr31Out_onward s x
  rwa [h_] at this

theorem execKeyExportTr31_onward (slot : Nat) (s : State) : ∃ w, execKeyExportTr31 slot s = .next w ∧ Onward s w := runOpS_onward _ _ _ _ (fun t x => keyExportTr31Out_onward t x)

theorem execKeyExportWrap_onward (slot : Nat) (s : State) : ∃ w, execKeyExportWrap slot s = .next w ∧ Onward s w := runOp_onward ..

theorem execKeyInvalidate_onward (slot : Nat) (s : State) : ∃ w, execKeyInvalidate slot s = .next w ∧ Onward s w := runOp_onward ..

theorem execKeyDestroy_onward (slot : Nat) (s : State) : ∃ w, execKeyDestroy slot s = .next w ∧ Onward s w := runOp_onward ..

theorem execKeyQuery_onward (slot : Nat) (s : State) : ∃ w, execKeyQuery slot s = .next w ∧ Onward s w := runOp_onward ..

theorem execKeyRestrict_onward (slot : Nat) (s : State) : ∃ w, execKeyRestrict slot s = .next w ∧ Onward s w := runOp_onward ..

theorem execKeyImportPublic_onward (slot : Nat) (s : State) : ∃ w, execKeyImportPublic slot s = .next w ∧ Onward s w := runOp_onward ..

theorem execKeyExportPublic_onward (slot : Nat) (s : State) : ∃ w, execKeyExportPublic slot s = .next w ∧ Onward s w := runOp_onward ..

/-! ## BulkSign -/

theorem bulkEncryptOut_onward (s : State) (x : Slot) : Onward s (bulkEncryptOut s x).2 := by
  unfold bulkEncryptOut
  repeat' first
    | (with_reducible exact Onward.refl _)
    | (simp only [Onward.upd_eq])
    | split
theorem bulkEncryptOut_pair {s : State} {x : Slot} {u : Out} {v : State} (h_ : bulkEncryptOut s x = (u, v)) : Onward s v := by
  have := bulkEncryptOut_onward s x
  rwa [h_] at this

theorem execBulkEncrypt_onward (slot : Nat) (s : State) : ∃ w, execBulkEncrypt slot s = .next w ∧ Onward s w := runOpS_onward _ _ _ _ (fun t x => bulkEncryptOut_onward t x)

theorem execBulkDecrypt_onward (slot : Nat) (s : State) : ∃ w, execBulkDecrypt slot s = .next w ∧ Onward s w := runOp_onward ..

theorem signOut_onward (s : State) (x : Slot) : Onward s (signOut s x).2 := by
  unfold signOut
  repeat' first
    | (with_reducible exact Onward.refl _)
    | (simp only [Onward.upd_eq])
    | split
theorem signOut_pair {s : State} {x : Slot} {u : Out} {v : State} (h_ : signOut s x = (u, v)) : Onward s v := by
  have := signOut_onward s x
  rwa [h_] at this

theorem execSign_onward (slot : Nat) (s : State) : ∃ w, execSign slot s = .next w ∧ Onward s w := runOpS_onward _ _ _ _ (fun t x => signOut_onward t x)

theorem execVerify_onward (slot : Nat) (s : State) : ∃ w, execVerify slot s = .next w ∧ Onward s w := runOp_onward ..

theorem execKeyAgree_onward (slot : Nat) (s : State) : ∃ w, execKeyAgree slot s = .next w ∧ Onward s w := runOp_onward ..

theorem kemEncapsulateOut_onward (s : State) (x : Slot) : Onward s (kemEncapsulateOut s x).2 := by
  unfold kemEncapsulateOut
  repeat' first
    | (with_reducible exact Onward.refl _)
    | (simp only [Onward.upd_eq])
    | split
theorem kemEncapsulateOut_pair {s : State} {x : Slot} {u : Out} {v : State} (h_ : kemEncapsulateOut s x = (u, v)) : Onward s v := by
  have := kemEncapsulateOut_onward s x
  rwa [h_] at this

theorem execKemEncapsulate_onward (slot : Nat) (s : State) : ∃ w, execKemEncapsulate slot s = .next w ∧ Onward s w := runOpS_onward _ _ _ _ (fun t x => kemEncapsulateOut_onward t x)

theorem execKemDecapsulate_onward (slot : Nat) (s : State) : ∃ w, execKemDecapsulate slot s = .next w ∧ Onward s w := runOp_onward ..

/-! ## Od -/

theorem mailboxReply_onward (s : State) (env : Bytes) : Onward s (mailboxReply s env) := by
  unfold mailboxReply
  split
  · split
    · exact Onward.upd (Onward.refl _) (Nat.le_refl _) rfl rfl rfl rfl rfl rfl
    · refine Onward.trans ?_ (raise_onward ..)
      exact Onward.updSlots (Onward.refl _) (Nat.le_refl _) rfl id (fun h => cwf_bufWrite _ _ _ h) id id id
  · exact Onward.refl _

theorem mailboxReply_fwd {r_ : State} {s : State} {env : Bytes} (h_ : Onward r_ s) : Onward r_ (mailboxReply s env) := h_.trans (mailboxReply_onward ..)

theorem resend_onward (s : State) (rq : Req) (x : Session) : Onward s (resend s rq x) := by
  unfold resend
  repeat' first
    | (with_reducible exact Onward.refl _)
    | (with_reducible apply mailboxReply_fwd)
    | (simp only [Onward.upd_eq])
    | split

theorem resend_fwd {r_ : State} {s : State} {rq : Req} {x : Session} (h_ : Onward r_ s) : Onward r_ (resend s rq x) := h_.trans (resend_onward ..)

theorem answer_onward (s : State) (rq : Req) (body : Bytes) : Onward s (answer s rq body) := by
  unfold answer
  repeat' first
    | (with_reducible exact Onward.refl _)
    | (with_reducible apply mailboxReply_fwd)
    | (simp only [Onward.upd_eq])
    | split

theorem answer_fwd {r_ : State} {s : State} {rq : Req} {body : Bytes} (h_ : Onward r_ s) : Onward r_ (answer s rq body) := h_.trans (answer_onward ..)

theorem refuse_onward (s : State) (rq : Req) (idx sub op : Nat) (st : Status) : Onward s (refuse s rq idx sub op st) := by
  unfold refuse
  repeat' first
    | (with_reducible exact Onward.refl _)
    | (with_reducible apply sendReply_fwd)

theorem refuse_fwd {r_ : State} {s : State} {rq : Req} {idx sub op : Nat} {st : Status} (h_ : Onward r_ s) : Onward r_ (refuse s rq idx sub op st) := h_.trans (refuse_onward ..)

theorem takeReq_onward (s : State) (rq : Req) (idx sub op : Nat) : Onward s (takeReq s rq idx sub op).1 := by
  unfold takeReq
  dsimp only
  have h : Onward s { s with od := { s.od with inbox := s.od.inbox.filter (fun e => e.1 != rq) } } :=
    Onward.upd (Onward.refl _) (Nat.le_refl _) rfl rfl rfl rfl rfl rfl
  generalize ({ s with od := { s.od with inbox := s.od.inbox.filter (fun e => e.1 != rq) } } : State) = t at h
  repeat' first
    | (with_reducible exact h)
    | (with_reducible exact Onward.refl _)
    | (with_reducible refine Onward.trans ?_ (resend_onward ..))
    | (with_reducible refine Onward.trans ?_ (answer_onward ..))
    | (simp only [Onward.upd_eq])
    | split
theorem takeReq_pair {s : State} {rq : Req} {idx sub op : Nat} {u : State} {b : Bool} (h : takeReq s rq idx sub op = (u, b)) : Onward s u := by
  have := takeReq_onward s rq idx sub op
  rwa [h] at this

theorem acceptNow_onward (s : State) (rq : Req) (idx sub op : Nat) (data : Bytes) : Onward s (acceptNow s rq idx sub op data) := by
  unfold acceptNow
  repeat' first
    | (with_reducible exact Onward.refl _)
    | (with_reducible apply sendReply_fwd)

theorem acceptNow_fwd {r_ : State} {s : State} {rq : Req} {idx sub op : Nat} {data : Bytes} (h_ : Onward r_ s) : Onward r_ (acceptNow s rq idx sub op data) := h_.trans (acceptNow_onward ..)

theorem acceptCommit_onward (s : State) (rq : Req) (idx sub op : Nat) (data : Bytes) (l : List Change) : Onward s (acceptCommit s rq idx sub op data l) := by
  unfold acceptCommit
  repeat' first
    | (with_reducible exact Onward.refl _)
    | (simp only [Onward.upd_eq])

theorem acceptCommit_fwd {r_ : State} {s : State} {rq : Req} {idx sub op : Nat} {data : Bytes} {l : List Change} (h_ : Onward r_ s) : Onward r_ (acceptCommit s rq idx sub op data l) := h_.trans (acceptCommit_onward ..)

theorem acceptUse_onward (s : State) (rq : Req) (idx sub op : Nat) (data : Bytes) (use : List Change) : Onward s (acceptUse s rq idx sub op data use) := by
  unfold acceptUse
  repeat' first
    | (with_reducible exact Onward.refl _)
    | (with_reducible apply acceptCommit_fwd)
    | (with_reducible apply acceptNow_fwd)
    | split

theorem acceptUse_fwd {r_ : State} {s : State} {rq : Req} {idx sub op : Nat} {data : Bytes} {use : List Change} (h_ : Onward r_ s) : Onward r_ (acceptUse s rq idx sub op data use) := h_.trans (acceptUse_onward ..)

theorem commitQuietly_onward (s : State) (l : List Change) : Onward s (commitQuietly s l) := by
  unfold commitQuietly
  repeat' first
    | (with_reducible exact Onward.refl _)
    | (simp only [Onward.upd_eq])

theorem commitQuietly_fwd {r_ : State} {s : State} {l : List Change} (h_ : Onward r_ s) : Onward r_ (commitQuietly s l) := h_.trans (commitQuietly_onward ..)

theorem serveWrite_from (s : State) (rq : Req) (idx sub op : Nat) (stopped : Bool) (may : State → Bool) (f : State → State)
    (hf : ∀ t, Onward s t → Onward s (f t)) : Onward s (serveWrite s rq idx sub op stopped may f) := by
  unfold serveWrite
  split
  rename_i t go h
  have ht := takeReq_pair h
  split
  · exact ht
  · split
    · exact ht.trans (refuse_onward ..)
    · split
      · exact ht.trans (refuse_onward ..)
      · exact hf t ht
theorem serveWrite_onward (s : State) (rq : Req) (idx sub op : Nat) (stopped : Bool) (may : State → Bool) (f : State → State)
    (hf : ∀ t, Onward t (f t)) : Onward s (serveWrite s rq idx sub op stopped may f) :=
  serveWrite_from _ _ _ _ _ _ _ _ (fun t h => h.trans (hf t))

theorem roleWrite_from (s : State) (rq : Req) (idx sub mask : Nat) (pa0 : Bool) (check : State → Option Status) (f : State → State)
    (hf : ∀ t, Onward s t → Onward s (f t)) : Onward s (roleWrite s rq idx sub mask pa0 check f) := by
  unfold roleWrite
  refine serveWrite_from _ _ _ _ _ _ _ _ (fun t h => ?_)
  split
  · exact h.trans (refuse_onward ..)
  · exact hf t h
theorem roleWrite_onward (s : State) (rq : Req) (idx sub mask : Nat) (pa0 : Bool) (check : State → Option Status) (f : State → State)
    (hf : ∀ t, Onward t (f t)) : Onward s (roleWrite s rq idx sub mask pa0 check f) :=
  roleWrite_from _ _ _ _ _ _ _ _ (fun t h => h.trans (hf t))

theorem openServe_from (s : State) (rq : Req) (idx sub : Nat) (check : State → Option Status) (f : State → State)
    (hf : ∀ t, Onward s t → Onward s (f t)) : Onward s (openServe s rq idx sub check f) := by
  unfold openServe
  refine serveWrite_from _ _ _ _ _ _ _ _ (fun t h => ?_)
  split
  · exact h.trans (refuse_onward ..)
  · exact hf t h
theorem openServe_onward (s : State) (rq : Req) (idx sub : Nat) (check : State → Option Status) (f : State → State)
    (hf : ∀ t, Onward t (f t)) : Onward s (openServe s rq idx sub check f) :=
  openServe_from _ _ _ _ _ _ (fun t h => h.trans (hf t))

theorem grantWrite_onward (s : State) (rq : Req) (idx sub cls part : Nat) (domain : Bool) (v grant : Bytes)
    (check : State → Option Status) (f : State → List Change → State) (hf : ∀ t use, Onward t (f t use)) :
    Onward s (grantWrite s rq idx sub cls part domain v grant check f) := by
  unfold grantWrite
  refine serveWrite_onward _ _ _ _ _ _ _ _ (fun t => ?_)
  have h (use : List Change) : Onward t (match check t with
      | some st => refuse t rq idx sub (writeOp domain grant) st
      | none => f t use) := by
    split
    · exact refuse_onward ..
    · exact hf t use
  dsimp only
  split
  · exact h []
  · split
    · exact refuse_onward ..
    · exact h _

theorem grantOd_onward (s : State) (rq : Req) (idx sub cls part : Nat) (v grant : Bytes) (check : State → Option Status) :
    Onward s (grantOd s rq idx sub cls part v grant check) := by
  unfold grantOd
  exact grantWrite_onward _ _ _ _ _ _ _ _ _ _ _ (fun t use => acceptCommit_onward ..)

theorem grantOd_fwd {r_ : State} {s : State} {rq : Req} {idx sub cls part : Nat} {v grant : Bytes} {check : State → Option Status} (h_ : Onward r_ s) : Onward r_ (grantOd s rq idx sub cls part v grant check) := h_.trans (grantOd_onward ..)

theorem configPut_onward (s : State) (rq : Req) (idx sub op : Nat) (v : Bytes) (use : List Change) : Onward s (configPut s rq idx sub op v use) := by
  unfold configPut
  repeat' first
    | (with_reducible exact Onward.refl _)
    | (with_reducible apply commitQuietly_fwd)
    | (with_reducible apply acceptUse_fwd)
    | (with_reducible apply stepEpoch_fwd)
    | (with_reducible apply sendTo_fwd)
    | (simp only [Onward.upd_eq])
    | split

theorem configPut_fwd {r_ : State} {s : State} {rq : Req} {idx sub op : Nat} {v : Bytes} {use : List Change} (h_ : Onward r_ s) : Onward r_ (configPut s rq idx sub op v use) := h_.trans (configPut_onward ..)

theorem grantConfig_onward (s : State) (rq : Req) (idx sub cls : Nat) (v grant : Bytes) (check : State → Option Status) :
    Onward s (grantConfig s rq idx sub cls v grant check) := by
  unfold grantConfig
  exact grantWrite_onward _ _ _ _ _ _ _ _ _ _ _ (fun t use => configPut_onward ..)

theorem grantConfig_fwd {r_ : State} {s : State} {rq : Req} {idx sub cls : Nat} {v grant : Bytes} {check : State → Option Status} (h_ : Onward r_ s) : Onward r_ (grantConfig s rq idx sub cls v grant check) := h_.trans (grantConfig_onward ..)

/-! ## Events -/

theorem settlePba_onward (s : State) (fn : Nat) : Onward s (settlePba s fn) := by
  unfold settlePba
  repeat' first
    | (with_reducible exact Onward.refl _)
    | (with_reducible apply State.modFn_fwd)

theorem settlePba_fwd {r_ : State} {s : State} {fn : Nat} (h_ : Onward r_ s) : Onward r_ (settlePba s fn) := h_.trans (settlePba_onward ..)

theorem closeWindow_onward (s : State) (h : Nat) : Onward s (closeWindow s h) := by
  unfold closeWindow
  repeat' first
    | (with_reducible exact Onward.refl _)
    | (simp only [Onward.upd_eq])
    | split

theorem closeWindow_fwd {r_ : State} {s : State} {h : Nat} (h_ : Onward r_ s) : Onward r_ (closeWindow s h) := h_.trans (closeWindow_onward ..)

theorem execHoldoffWindowClose_onward (group : Nat) (s : State) : ∃ w, execHoldoffWindowClose group s = .next w ∧ Onward s w := by
  refine ⟨_, rfl, ?_⟩
  repeat' first
    | (with_reducible exact Onward.refl _)
    | (with_reducible apply closeWindow_fwd)

theorem commitMessage_onward (s : State) (n : Nat) : Onward s (commitMessage s n) := by
  unfold commitMessage
  repeat' first
    | (with_reducible exact Onward.refl _)
    | (with_reducible apply releaseGroups_fwd)
    | (with_reducible apply State.modFn_fwd)
    | (simp only [Onward.upd_eq])

theorem commitMessage_fwd {r_ : State} {s : State} {n : Nat} (h_ : Onward r_ s) : Onward r_ (commitMessage s n) := h_.trans (commitMessage_onward ..)

theorem decideSource_onward (s : State) (n : Nat) : Onward s (decideSource s n) := by
  unfold decideSource
  repeat' first
    | (with_reducible exact Onward.refl _)
    | (with_reducible apply commitMessage_fwd)
    | (with_reducible apply State.modFn_fwd)
    | split

theorem decideSource_fwd {r_ : State} {s : State} {n : Nat} (h_ : Onward r_ s) : Onward r_ (decideSource s n) := h_.trans (decideSource_onward ..)

theorem execMsixCommit_onward (source : Nat) (s : State) : ∃ w, execMsixCommit source s = .next w ∧ Onward s w := by
  refine ⟨_, rfl, ?_⟩
  repeat' first
    | (with_reducible exact Onward.refl _)
    | (with_reducible apply decideSource_fwd)
    | split

theorem execVectorControlWrite_onward (fn vector : Nat) (mask : Bool) (s : State) : ∃ w, execVectorControlWrite fn vector mask s = .next w ∧ Onward s w := by
  refine ⟨_, rfl, ?_⟩
  repeat' first
    | (with_reducible exact Onward.refl _)
    | (with_reducible refine Onward.trans ?_ (barAccess_onward _ _ _ _ (?_)))
    | (with_reducible apply State.modFn_fwd)
    | split

theorem execFunctionMaskWrite_onward (fn : Nat) (mask : Bool) (s : State) : ∃ w, execFunctionMaskWrite fn mask s = .next w ∧ Onward s w := by
  refine ⟨_, rfl, ?_⟩
  repeat' first
    | (with_reducible exact Onward.refl _)
    | (with_reducible refine Onward.trans ?_ (configAccess_onward _ _ _ _ (?_)))
    | (with_reducible apply State.modFn_fwd)

theorem execVectorControlRead_onward (fn vector : Nat) (s : State) : ∃ w, execVectorControlRead fn vector s = .next w ∧ Onward s w := by
  refine ⟨_, rfl, ?_⟩
  repeat' first
    | (with_reducible exact Onward.refl _)
    | (with_reducible refine Onward.trans ?_ (barAccess_onward _ _ _ _ (?_)))
    | (with_reducible apply readBack_fwd)
    | split

theorem execMessageControlRead_onward (fn : Nat) (s : State) : ∃ w, execMessageControlRead fn s = .next w ∧ Onward s w := by
  refine ⟨_, rfl, ?_⟩
  repeat' first
    | (with_reducible exact Onward.refl _)
    | (with_reducible refine Onward.trans ?_ (configAccess_onward _ _ _ _ (?_)))
    | (with_reducible apply readBack_fwd)

theorem clearPending_onward (s : State) (fn : Nat) (l : List Nat) : Onward s (clearPending s fn l) := by
  unfold clearPending
  repeat' first
    | (with_reducible exact Onward.refl _)
    | (with_reducible apply settlePba_fwd)
    | (with_reducible apply releaseGroups_fwd)
    | (simp only [Onward.upd_eq])

theorem clearPending_fwd {r_ : State} {s : State} {fn : Nat} {l : List Nat} (h_ : Onward r_ s) : Onward r_ (clearPending s fn l) := h_.trans (clearPending_onward ..)

theorem execEicSrcPendW1c_onward (fn word v : Nat) (s : State) : ∃ w, execEicSrcPendW1c fn word v s = .next w ∧ Onward s w := by
  refine ⟨_, rfl, ?_⟩
  repeat' first
    | (with_reducible exact Onward.refl _)
    | (with_reducible apply clearPending_fwd)
    | (with_reducible refine Onward.trans ?_ (barAccess_onward _ _ _ _ (?_)))
    | split

theorem execEicHoldWrite_onward (fn : Nat) (hold : Bool) (s : State) : ∃ w, execEicHoldWrite fn hold s = .next w ∧ Onward s w := by
  refine ⟨_, rfl, ?_⟩
  repeat' first
    | (with_reducible exact Onward.refl _)
    | (with_reducible refine Onward.trans ?_ (barAccess_onward _ _ _ _ (?_)))
    | (with_reducible apply State.modFn_fwd)

theorem execEicGlobalHoldWrite_onward (hold : Bool) (s : State) : ∃ w, execEicGlobalHoldWrite hold s = .next w ∧ Onward s w := by
  refine ⟨_, rfl, ?_⟩
  repeat' first
    | (with_reducible exact Onward.refl _)
    | (with_reducible refine Onward.trans ?_ (barAccess_onward _ _ _ _ (?_)))
    | (simp only [Onward.upd_eq])

theorem writeMap_onward (s : State) (fn k v : Nat) : Onward s (writeMap s fn k v) := by
  unfold writeMap
  repeat' first
    | (with_reducible exact Onward.refl _)
    | (with_reducible apply settlePba_fwd)
    | (with_reducible apply State.modFn_fwd)
    | (with_reducible refine Onward.fold ?_ (fun t a => ?_))
    | (simp only [Onward.upd_eq])
    | split

theorem writeMap_fwd {r_ : State} {s : State} {fn k v : Nat} (h_ : Onward r_ s) : Onward r_ (writeMap s fn k v) := h_.trans (writeMap_onward ..)

theorem execEicMapWrite_onward (fn k v : Nat) (s : State) : ∃ w, execEicMapWrite fn k v s = .next w ∧ Onward s w := by
  refine ⟨_, rfl, ?_⟩
  repeat' first
    | (with_reducible exact Onward.refl _)
    | (with_reducible apply writeMap_fwd)
    | (with_reducible refine Onward.trans ?_ (barAccess_onward _ _ _ _ (?_)))
    | split

theorem resetEic_onward (s : State) (fn : Nat) : Onward s (resetEic s fn) := by
  unfold resetEic
  repeat' first
    | (with_reducible exact Onward.refl _)
    | (with_reducible apply State.modFn_fwd)
    | (simp only [Onward.upd_eq])

theorem resetEic_fwd {r_ : State} {s : State} {fn : Nat} (h_ : Onward r_ s) : Onward r_ (resetEic s fn) := h_.trans (resetEic_onward ..)

theorem askReset_onward (s : State) (p : PendingReset) : Onward s (askReset s p) := by
  unfold askReset
  repeat' first
    | (with_reducible exact Onward.refl _)
    | (with_reducible apply logMain_fwd)
    | (simp only [Onward.upd_eq])
    | split

theorem askReset_fwd {r_ : State} {s : State} {p : PendingReset} (h_ : Onward r_ s) : Onward r_ (askReset s p) := h_.trans (askReset_onward ..)

theorem execCoreHandlerEntry_onward (core : Nat) (s : State) : ∃ w, execCoreHandlerEntry core s = .next w ∧ Onward s w := by
  refine ⟨_, rfl, ?_⟩
  repeat' first
    | (with_reducible exact Onward.refl _)
    | (with_reducible apply State.modCore_fwd)
    | split

theorem execCoreClaimRead_onward (core : Nat) (s : State) : ∃ w, execCoreClaimRead core s = .next w ∧ Onward s w := by
  refine ⟨_, rfl, ?_⟩
  repeat' first
    | (with_reducible exact Onward.refl _)
    | (with_reducible apply State.modCore_fwd)
    | (simp only [Onward.upd_eq])
    | split

theorem execCoreCompletionWrite_onward (core source : Nat) (s : State) : ∃ w, execCoreCompletionWrite core source s = .next w ∧ Onward s w := by
  refine ⟨_, rfl, ?_⟩
  repeat' first
    | (with_reducible exact Onward.refl _)
    | (with_reducible apply State.modCore_fwd)
    | split

theorem execCoreHandlerReturn_onward (core : Nat) (s : State) : ∃ w, execCoreHandlerReturn core s = .next w ∧ Onward s w := by
  refine ⟨_, rfl, ?_⟩
  repeat' first
    | (with_reducible exact Onward.refl _)
    | (with_reducible apply State.modCore_fwd)
    | split

theorem execCoreWatchdogRestart_onward (core : Nat) (s : State) : ∃ w, execCoreWatchdogRestart core s = .next w ∧ Onward s w := by
  refine ⟨_, rfl, ?_⟩
  repeat' first
    | (with_reducible exact Onward.refl _)
    | (with_reducible apply State.modCore_fwd)
    | split

theorem execCoreWatchdogStage1_onward (core : Nat) (s : State) : ∃ w, execCoreWatchdogStage1 core s = .next w ∧ Onward s w := by
  refine ⟨_, rfl, ?_⟩
  repeat' first
    | (with_reducible exact Onward.refl _)
    | (with_reducible apply raise_fwd)
    | (with_reducible apply State.modCore_fwd)
    | split

theorem execCoreWatchdogStage2_onward (core : Nat) (s : State) : ∃ w, execCoreWatchdogStage2 core s = .next w ∧ Onward s w := by
  refine ⟨_, rfl, ?_⟩
  repeat' first
    | (with_reducible exact Onward.refl _)
    | (with_reducible apply askReset_fwd)
    | (with_reducible apply logCocoon_fwd)
    | (with_reducible apply State.modCore_fwd)
    | (simp only [Onward.upd_eq])
    | split

theorem execIdleEntry_onward (s : State) : ∃ w, execIdleEntry s = .next w ∧ Onward s w := by
  refine ⟨_, rfl, ?_⟩
  repeat' first
    | (with_reducible exact Onward.refl _)
    | (simp only [Onward.upd_eq])
    | split

theorem execIdleExit_onward (source : Nat) (s : State) : ∃ w, execIdleExit source s = .next w ∧ Onward s w := by
  refine ⟨_, rfl, ?_⟩
  repeat' first
    | (with_reducible exact Onward.refl _)
    | (with_reducible apply raise_fwd)
    | (with_reducible apply State.roused_fwd)
    | split

theorem execWakeLatch_onward (source : Nat) (s : State) : ∃ w, execWakeLatch source s = .next w ∧ Onward s w := by
  refine ⟨_, rfl, ?_⟩
  repeat' first
    | (with_reducible exact Onward.refl _)
    | (with_reducible apply State.roused_fwd)
    | (with_reducible apply latchWake_fwd)

theorem execWakeTimer_onward (s : State) : ∃ w, execWakeTimer s = .next w ∧ Onward s w := by
  refine ⟨_, rfl, ?_⟩
  repeat' first
    | (with_reducible exact Onward.refl _)
    | (with_reducible apply State.roused_fwd)
    | (with_reducible apply latchWake_fwd)
    | (simp only [Onward.upd_eq])
    | split

theorem wakeListWrite_onward (rq : Req) (entry source : Nat) (s : State) : Onward s (wakeListWrite rq entry source s) := by
  unfold wakeListWrite
  repeat' first
    | (with_reducible exact Onward.refl _)
    | (with_reducible refine Onward.trans ?_ (roleWrite_onward _ _ _ _ _ _ _ _ (fun t => ?_)))
    | (with_reducible apply acceptCommit_fwd)

theorem wakeListWrite_fwd {r_ : State} {rq : Req} {entry source : Nat} {s : State} (h_ : Onward r_ s) : Onward r_ (wakeListWrite rq entry source s) := h_.trans (wakeListWrite_onward ..)

theorem execWakeListWrite_onward (rq : Req) (entry source : Nat) (s : State) : ∃ w, execWakeListWrite rq entry source s = .next w ∧ Onward s w := by
  refine ⟨_, rfl, ?_⟩
  repeat' first
    | (with_reducible exact Onward.refl _)
    | (with_reducible apply wakeListWrite_fwd)

theorem wakeTimerSWrite_onward (rq : Req) (v : Nat) (s : State) : Onward s (wakeTimerSWrite rq v s) := by
  unfold wakeTimerSWrite
  repeat' first
    | (with_reducible exact Onward.refl _)
    | (with_reducible refine Onward.trans ?_ (roleWrite_onward _ _ _ _ _ _ _ _ (fun t => ?_)))
    | (with_reducible apply acceptCommit_fwd)
    | (simp only [Onward.upd_eq])

theorem wakeTimerSWrite_fwd {r_ : State} {rq : Req} {v : Nat} {s : State} (h_ : Onward r_ s) : Onward r_ (wakeTimerSWrite rq v s) := h_.trans (wakeTimerSWrite_onward ..)

theorem execWakeTimerSWrite_onward (rq : Req) (v : Nat) (s : State) : ∃ w, execWakeTimerSWrite rq v s = .next w ∧ Onward s w := by
  refine ⟨_, rfl, ?_⟩
  repeat' first
    | (with_reducible exact Onward.refl _)
    | (with_reducible apply wakeTimerSWrite_fwd)

/-! ## Rings -/

theorem groupEvent_onward (s : State) (gid : Nat) : Onward s (groupEvent s gid) := by
  unfold groupEvent
  repeat' first
    | (with_reducible exact Onward.refl _)
    | (with_reducible apply raise_fwd)
    | split

theorem groupEvent_fwd {r_ : State} {s : State} {gid : Nat} (h_ : Onward r_ s) : Onward r_ (groupEvent s gid) := h_.trans (groupEvent_onward ..)

theorem strayDoorbell_onward (s : State) (fn : Nat) : Onward s (strayDoorbell s fn) := by
  unfold strayDoorbell
  repeat' first
    | (with_reducible exact Onward.refl _)
    | (with_reducible apply State.modFn_fwd)

theorem strayDoorbell_fwd {r_ : State} {s : State} {fn : Nat} (h_ : Onward r_ s) : Onward r_ (strayDoorbell s fn) := h_.trans (strayDoorbell_onward ..)

theorem ringDoorbell_onward (s : State) (rid p t : Nat) : Onward s (ringDoorbell s rid p t) := by
  unfold ringDoorbell
  repeat' first
    | (with_reducible exact Onward.refl _)
    | (with_reducible apply ringError_fwd)
    | (with_reducible apply State.modRing_fwd)
    | (simp only [Onward.upd_eq])
    | split

theorem ringDoorbell_fwd {r_ : State} {s : State} {rid p t : Nat} (h_ : Onward r_ s) : Onward r_ (ringDoorbell s rid p t) := h_.trans (ringDoorbell_onward ..)

theorem pageDoorbell_onward (s : State) (fn page p t : Nat) : Onward s (pageDoorbell s fn page p t) := by
  unfold pageDoorbell
  repeat' first
    | (with_reducible exact Onward.refl _)
    | (with_reducible apply ringDoorbell_fwd)
    | (with_reducible apply strayDoorbell_fwd)
    | (simp only [Onward.upd_eq])
    | split

theorem pageDoorbell_fwd {r_ : State} {s : State} {fn page p t : Nat} (h_ : Onward r_ s) : Onward r_ (pageDoorbell s fn page p t) := h_.trans (pageDoorbell_onward ..)

theorem restWatch_onward (s : State) (fn : Nat) : Onward s (restWatch s fn) := by
  unfold restWatch
  repeat' first
    | (with_reducible exact Onward.refl _)
    | (with_reducible apply State.modFn_fwd)
    | split

theorem restWatch_fwd {r_ : State} {s : State} {fn : Nat} (h_ : Onward r_ s) : Onward r_ (restWatch s fn) := h_.trans (restWatch_onward ..)

theorem dropDeficit_onward (s : State) : Onward s (dropDeficit s) := by
  unfold dropDeficit
  repeat' first
    | (with_reducible exact Onward.refl _)
    | (simp only [Onward.upd_eq])

theorem dropDeficit_fwd {r_ : State} {s : State} (h_ : Onward r_ s) : Onward r_ (dropDeficit s) := h_.trans (dropDeficit_onward ..)

theorem execDoorbell_onward (fn page p t : Nat) (s : State) : ∃ w, execDoorbell fn page p t s = .next w ∧ Onward s w := by
  refine ⟨_, rfl, ?_⟩
  repeat' first
    | (with_reducible exact Onward.refl _)
    | (with_reducible apply dropDeficit_fwd)
    | (with_reducible apply restWatch_fwd)
    | (with_reducible apply pageDoorbell_fwd)
    | (with_reducible refine Onward.trans ?_ (barAccess_onward _ _ _ _ (?_)))
    | (simp only [Onward.upd_eq])
    | split

theorem takeSlot_onward (s : State) (rid part readId : Nat) : Onward s (takeSlot s rid part readId) := by
  unfold takeSlot
  split
  · exact Onward.refl _
  · exact Onward.updSlots (State.modRing_onward ..) (Nat.le_refl _) rfl id id (fun h => tsorted_tset _ _ _ h) id id

theorem takeSlot_fwd {r_ : State} {s : State} {rid part readId : Nat} (h_ : Onward r_ s) : Onward r_ (takeSlot s rid part readId) := h_.trans (takeSlot_onward ..)

theorem execDescriptorReadIssue_onward (rid : Nat) (s0 : State) : ∃ w, execDescriptorReadIssue rid s0 = .next w ∧ Onward s0 w := by
  refine ⟨_, rfl, ?_⟩
  repeat' first
    | (with_reducible exact Onward.refl _)
    | (with_reducible apply takeSlot_fwd)
    | (with_reducible apply dropDeficit_fwd)
    | (with_reducible apply State.modFn_fwd)
    | (with_reducible refine Onward.fold ?_ (fun t a => ?_))
    | (simp only [Onward.upd_eq])
    | split

theorem execChainReservationTake_onward (rid : Nat) (s : State) : ∃ w, execChainReservationTake rid s = .next w ∧ Onward s w := by
  refine ⟨_, rfl, ?_⟩
  repeat' first
    | (with_reducible exact Onward.refl _)
    | (with_reducible apply State.modRing_fwd)
    | (simp only [Onward.upd_eq])
    | split

theorem spoilChain_onward (s : State) (rid index : Nat) (d : Bytes) : Onward s (spoilChain s rid index d) := by
  unfold spoilChain
  repeat' first
    | (with_reducible exact Onward.refl _)
    | (with_reducible apply State.modRing_fwd)

theorem spoilChain_fwd {r_ : State} {s : State} {rid index : Nat} {d : Bytes} (h_ : Onward r_ s) : Onward r_ (spoilChain s rid index d) := h_.trans (spoilChain_onward ..)

theorem cutArrival_onward (s : State) (n rid index : Nat) (d : Bytes) (st : Status) : Onward s (cutArrival s n rid index d st) := by
  unfold cutArrival
  repeat' first
    | (with_reducible exact Onward.refl _)
    | (with_reducible apply spoilChain_fwd)
    | (with_reducible apply finish_fwd)

theorem cutArrival_fwd {r_ : State} {s : State} {n rid index : Nat} {d : Bytes} {st : Status} (h_ : Onward r_ s) : Onward r_ (cutArrival s n rid index d st) := h_.trans (cutArrival_onward ..)

theorem stepBack_onward (s : State) (rid index : Nat) : Onward s (stepBack s rid index) := by
  unfold stepBack
  repeat' first
    | (with_reducible exact Onward.refl _)
    | (with_reducible apply release_fwd)
    | (with_reducible apply State.modRing_fwd)
    | (with_reducible refine Onward.fold ?_ (fun t a => ?_))

theorem stepBack_fwd {r_ : State} {s : State} {rid index : Nat} (h_ : Onward r_ s) : Onward r_ (stepBack s rid index) := h_.trans (stepBack_onward ..)

theorem arrive_onward (s : State) (n rid p index : Nat) (d : Bytes) : Onward s (arrive s n rid p index d) := by
  unfold arrive
  repeat' first
    | (with_reducible exact Onward.refl _)
    | (with_reducible apply stepBack_fwd)
    | (with_reducible apply freeHold_fwd)
    | (with_reducible apply finish_fwd)
    | (with_reducible apply State.modSlot_fwd)
    | (with_reducible apply State.modRing_fwd)
    | (simp only [Onward.upd_eq])
    | split

theorem arrive_fwd {r_ : State} {s : State} {n rid p index : Nat} {d : Bytes} (h_ : Onward r_ s) : Onward r_ (arrive s n rid p index d) := h_.trans (arrive_onward ..)

theorem askReads_onward (s : State) (n : Nat) : Onward s (askReads s n) := by
  unfold askReads
  repeat' first
    | (with_reducible exact Onward.refl _)
    | (with_reducible apply issueReads_fwd)
    | (with_reducible apply State.modSlot_fwd)

theorem askReads_fwd {r_ : State} {s : State} {n : Nat} (h_ : Onward r_ s) : Onward r_ (askReads s n) := h_.trans (askReads_onward ..)

theorem execDescriptorArrival_onward (rid : Nat) (data : Bytes) (s : State) : ∃ w, execDescriptorArrival rid data s = .next w ∧ Onward s w := by
  refine ⟨_, rfl, ?_⟩
  repeat' first
    | (with_reducible exact Onward.refl _)
    | (with_reducible apply askReads_fwd)
    | (with_reducible apply arrive_fwd)
    | (with_reducible apply cutArrival_fwd)
    | (with_reducible apply spoilChain_fwd)
    | (with_reducible apply malformed_fwd)
    | (with_reducible apply failOpenChains_fwd)
    | (with_reducible apply issueAllReads_fwd)
    | (with_reducible apply State.modSlot_fwd)
    | split

theorem readFailed_onward (s : State) (n addr : Nat) (timeout : Bool) : Onward s (readFailed s n addr timeout) := by
  unfold readFailed
  repeat' first
    | (with_reducible exact Onward.refl _)
    | (with_reducible apply malformed_fwd)
    | (with_reducible apply ringError_fwd)
    | (with_reducible apply failOpenChains_fwd)
    | (with_reducible apply discard_fwd)
    | (with_reducible apply logMain_fwd)
    | (with_reducible apply State.modRing_fwd)
    | (with_reducible apply State.modFn_fwd)
    | split

theorem readFailed_fwd {r_ : State} {s : State} {n addr : Nat} {timeout : Bool} (h_ : Onward r_ s) : Onward r_ (readFailed s n addr timeout) := h_.trans (readFailed_onward ..)

theorem execReadFault_onward (slot addr : Nat) (s : State) : ∃ w, execReadFault slot addr s = .next w ∧ Onward s w := by
  refine ⟨_, rfl, ?_⟩
  repeat' first
    | (with_reducible exact Onward.refl _)
    | (with_reducible apply readFailed_fwd)

theorem execReadTimeout_onward (slot addr : Nat) (s : State) : ∃ w, execReadTimeout slot addr s = .next w ∧ Onward s w := by
  refine ⟨_, rfl, ?_⟩
  repeat' first
    | (with_reducible exact Onward.refl _)
    | (with_reducible apply readFailed_fwd)

theorem takePiece_onward (s : State) (slot : Nat) (x : Slot) (data : Bytes) : Onward s (takePiece s slot x data) := by
  unfold takePiece
  repeat' first
    | (with_reducible exact Onward.refl _)
    | (with_reducible apply askReads_fwd)
    | (with_reducible apply malformed_fwd)
    | (with_reducible apply State.modSlot_fwd)
    | split

theorem takePiece_fwd {r_ : State} {s : State} {slot : Nat} {x : Slot} {data : Bytes} (h_ : Onward r_ s) : Onward r_ (takePiece s slot x data) := h_.trans (takePiece_onward ..)

theorem owedReads_onward (s : State) (x : Slot) : Onward s (owedReads s x) := by
  unfold owedReads
  repeat' first
    | (with_reducible exact Onward.refl _)
    | (simp only [Onward.upd_eq])

theorem owedReads_fwd {r_ : State} {s : State} {x : Slot} (h_ : Onward r_ s) : Onward r_ (owedReads s x) := h_.trans (owedReads_onward ..)

theorem execBufferReadCompletion_onward (slot : Nat) (data : Bytes) (s : State) : ∃ w, execBufferReadCompletion slot data s = .next w ∧ Onward s w := by
  refine ⟨_, rfl, ?_⟩
  repeat' first
    | (with_reducible exact Onward.refl _)
    | (with_reducible apply owedReads_fwd)
    | (with_reducible apply takePiece_fwd)
    | (with_reducible apply issueAllReads_fwd)
    | (with_reducible apply State.modSlot_fwd)
    | split

theorem bindGroup_some {s t : State} {gid : Nat} (h : bindGroup s gid = some t) : Onward s t := by
  unfold bindGroup at h
  split at h
  · split at h
    · cases h
    · rw [Option.some.injEq] at h; rw [← h]; exact Onward.refl _
  · split at h
    · rw [Option.some.injEq] at h; rw [← h]; exact Onward.refl _
    · simp only [Option.map_eq_some_iff] at h
      obtain ⟨g, -, rfl⟩ := h
      exact State.modGroup_onward ..
theorem bindGroup_getD {r s : State} {gid : Nat} (h : Onward r s) : Onward r ((bindGroup s gid).getD s) := by
  cases hb : bindGroup s gid with
  | none => exact h
  | some t => exact h.trans (bindGroup_some hb)

theorem ringCommand_onward (s : State) (rid : Nat) (f : State → State) (hf : Onward s (f s)) : Onward s (ringCommand s rid f) := by
  refine barAccess_onward _ _ _ _ ?_
  split
  · exact Onward.refl _
  · exact hf

theorem enableRing_onward (s : State) (rid : Nat) : Onward s (enableRing s rid) := by
  unfold enableRing
  repeat' first
    | (with_reducible exact Onward.refl _)
    | (with_reducible apply bindGroup_getD)
    | (with_reducible apply groupEvent_fwd)
    | (with_reducible apply State.modRing_fwd)
    | split

theorem enableRing_fwd {r_ : State} {s : State} {rid : Nat} (h_ : Onward r_ s) : Onward r_ (enableRing s rid) := h_.trans (enableRing_onward ..)

theorem execRingEnable_onward (rid : Nat) (s : State) : ∃ w, execRingEnable rid s = .next w ∧ Onward s w := by
  refine ⟨_, rfl, ?_⟩
  repeat' first
    | (with_reducible exact Onward.refl _)
    | (with_reducible apply enableRing_fwd)
    | (with_reducible refine Onward.trans ?_ (barAccess_onward _ _ _ _ (?_)))
    | split

theorem disableRing_onward (s : State) (rid : Nat) : Onward s (disableRing s rid) := by
  unfold disableRing
  repeat' first
    | (with_reducible exact Onward.refl _)
    | (with_reducible apply dropReservation_fwd)
    | (with_reducible apply cutRing_fwd)
    | (with_reducible apply closeSessions_fwd)
    | (with_reducible apply State.modRing_fwd)

theorem disableRing_fwd {r_ : State} {s : State} {rid : Nat} (h_ : Onward r_ s) : Onward r_ (disableRing s rid) := h_.trans (disableRing_onward ..)

theorem execRingDisable_onward (rid : Nat) (s : State) : ∃ w, execRingDisable rid s = .next w ∧ Onward s w := by
  refine ⟨_, rfl, ?_⟩
  repeat' first
    | (with_reducible exact Onward.refl _)
    | (with_reducible apply disableRing_fwd)
    | (with_reducible refine Onward.trans ?_ (ringCommand_onward _ _ _ (?_)))

theorem execRingResume_onward (rid : Nat) (s : State) : ∃ w, execRingResume rid s = .next w ∧ Onward s w := by
  refine ⟨_, rfl, ?_⟩
  repeat' first
    | (with_reducible exact Onward.refl _)
    | (with_reducible refine Onward.trans ?_ (ringCommand_onward _ _ _ (?_)))
    | (with_reducible apply State.modRing_fwd)
    | split

theorem settleRing_onward (s : State) (rid : Nat) : Onward s (settleRing s rid) := by
  unfold settleRing
  repeat' first
    | (with_reducible exact Onward.refl _)
    | (with_reducible apply groupEvent_fwd)
    | (with_reducible apply releaseGroups_fwd)
    | (with_reducible apply State.modRing_fwd)
    | split

theorem settleRing_fwd {r_ : State} {s : State} {rid : Nat} (h_ : Onward r_ s) : Onward r_ (settleRing s rid) := h_.trans (settleRing_onward ..)

theorem execRingSettle_onward (rid : Nat) (s : State) : ∃ w, execRingSettle rid s = .next w ∧ Onward s w := by
  refine ⟨_, rfl, ?_⟩
  repeat' first
    | (with_reducible exact Onward.refl _)
    | (with_reducible apply settleRing_fwd)
    | split

theorem enableDigest_onward (s : State) (gid base sizeLog2 : Nat) : Onward s (enableDigest s gid base sizeLog2) := by
  unfold enableDigest
  repeat' first
    | (with_reducible exact Onward.refl _)
    | (with_reducible apply State.modGroup_fwd)
    | (with_reducible refine Onward.trans ?_ (bindGroup_some (by assumption)))
    | (simp only [Onward.upd_eq])
    | split

theorem enableDigest_fwd {r_ : State} {s : State} {gid base sizeLog2 : Nat} (h_ : Onward r_ s) : Onward r_ (enableDigest s gid base sizeLog2) := h_.trans (enableDigest_onward ..)

theorem execGrpDigEnable_onward (gid base sizeLog2 : Nat) (s : State) : ∃ w, execGrpDigEnable gid base sizeLog2 s = .next w ∧ Onward s w := by
  refine ⟨_, rfl, ?_⟩
  repeat' first
    | (with_reducible exact Onward.refl _)
    | (with_reducible apply enableDigest_fwd)
    | (with_reducible refine Onward.trans ?_ (barAccess_onward _ _ _ _ (?_)))

theorem execGrpDigDisable_onward (gid : Nat) (s : State) : ∃ w, execGrpDigDisable gid s = .next w ∧ Onward s w := by
  refine ⟨_, rfl, ?_⟩
  repeat' first
    | (with_reducible exact Onward.refl _)
    | (with_reducible apply releaseGroups_fwd)
    | (with_reducible refine Onward.trans ?_ (barAccess_onward _ _ _ _ (?_)))
    | (with_reducible apply State.modGroup_fwd)
    | split

theorem execGrpDigBaseRead_onward (gid : Nat) (s : State) : ∃ w, execGrpDigBaseRead gid s = .next w ∧ Onward s w := by
  refine ⟨_, rfl, ?_⟩
  repeat' first
    | (with_reducible exact Onward.refl _)
    | (with_reducible refine Onward.trans ?_ (barAccess_onward _ _ _ _ (?_)))
    | (with_reducible apply readBack_fwd)

theorem execGrpDigConsWrite_onward (gid c : Nat) (s : State) : ∃ w, execGrpDigConsWrite gid c s = .next w ∧ Onward s w := by
  refine ⟨_, rfl, ?_⟩
  repeat' first
    | (with_reducible exact Onward.refl _)
    | (with_reducible refine Onward.trans ?_ (barAccess_onward _ _ _ _ (?_)))
    | (with_reducible apply State.modGroup_fwd)
    | split

theorem writeResult_onward (s : State) (x : Slot) (r : Result) : Onward s (writeResult s x r) := by
  unfold writeResult
  repeat' first
    | (with_reducible exact Onward.refl _)
    | (with_reducible apply post_fwd)
    | (with_reducible refine Onward.fold ?_ (fun t a => ?_))
    | split

theorem writeResult_fwd {r_ : State} {s : State} {x : Slot} {r : Result} (h_ : Onward r_ s) : Onward r_ (writeResult s x r) := h_.trans (writeResult_onward ..)

theorem writeDigest_onward (s : State) (x : Slot) (r : Result) : Onward s (writeDigest s x r) := by
  unfold writeDigest
  repeat' first
    | (with_reducible exact Onward.refl _)
    | (with_reducible apply groupEvent_fwd)
    | (with_reducible apply post_fwd)
    | (with_reducible apply State.modGroup_fwd)
    | (simp only [Onward.upd_eq])
    | split

theorem writeDigest_fwd {r_ : State} {s : State} {x : Slot} {r : Result} (h_ : Onward r_ s) : Onward r_ (writeDigest s x r) := h_.trans (writeDigest_onward ..)

theorem countEnd_onward (s : State) (x : Slot) (r : Result) (written : Bool) : Onward s (countEnd s x r written) := by
  unfold countEnd
  repeat' first
    | (with_reducible exact Onward.refl _)
    | (with_reducible apply countDisable_fwd)

theorem countEnd_fwd {r_ : State} {s : State} {x : Slot} {r : Result} {written : Bool} (h_ : Onward r_ s) : Onward r_ (countEnd s x r written) := h_.trans (countEnd_onward ..)

theorem execCompletionWrite_onward (slot : Nat) (s0 : State) : ∃ w, execCompletionWrite slot s0 = .next w ∧ Onward s0 w := by
  refine ⟨_, rfl, ?_⟩
  repeat' first
    | (with_reducible exact Onward.refl _)
    | (with_reducible apply countEnd_fwd)
    | (with_reducible apply writeDigest_fwd)
    | (with_reducible apply writeResult_fwd)
    | (with_reducible apply dropDeficit_fwd)
    | (with_reducible apply groupEvent_fwd)
    | (with_reducible apply noteReplay_fwd)
    | (with_reducible apply discardRunning_fwd)
    | (with_reducible apply release_fwd)
    | (with_reducible apply State.modRing_fwd)
    | (with_reducible apply State.modFn_fwd)
    | (simp only [Onward.upd_eq])
    | split

/-! ## Disable -/

theorem closeWindows_onward (s : State) (p : Nat) : Onward s (closeWindows s p) := by
  unfold closeWindows
  repeat' first
    | (with_reducible exact Onward.refl _)
    | (with_reducible apply closeWindow_fwd)
    | (with_reducible refine Onward.fold ?_ (fun t a => ?_))

theorem closeWindows_fwd {r_ : State} {s : State} {p : Nat} (h_ : Onward r_ s) : Onward r_ (closeWindows s p) := h_.trans (closeWindows_onward ..)

theorem disablePart_onward (s : State) (p : Nat) (t : Trigger) (remap : Option Nat) : Onward s (disablePart s p t remap) := by
  unfold disablePart
  repeat' first
    | (with_reducible exact Onward.refl _)
    | (with_reducible apply closeWindows_fwd)
    | (with_reducible apply disableRing_fwd)
    | (with_reducible apply closeSessions_fwd)
    | (with_reducible apply State.modPart_fwd)
    | (with_reducible refine Onward.fold ?_ (fun t a => ?_))
    | (simp only [Onward.upd_eq])
    | split

theorem disablePart_fwd {r_ : State} {s : State} {p : Nat} {t : Trigger} {remap : Option Nat} (h_ : Onward r_ s) : Onward r_ (disablePart s p t remap) := h_.trans (disablePart_onward ..)

theorem resetFunction_onward (s : State) (n : Nat) : Onward s (resetFunction s n) := by
  unfold resetFunction
  repeat' first
    | (with_reducible exact Onward.refl _)
    | (with_reducible apply resetEic_fwd)
    | (simp only [Onward.upd_eq])
    | split

theorem resetFunction_fwd {r_ : State} {s : State} {n : Nat} (h_ : Onward r_ s) : Onward r_ (resetFunction s n) := h_.trans (resetFunction_onward ..)

theorem enableParts_onward (s : State) (n : Nat) : Onward s (enableParts s n) := by
  unfold enableParts
  repeat' first
    | (with_reducible exact Onward.refl _)
    | (with_reducible apply State.modPart_fwd)
    | (with_reducible refine Onward.fold ?_ (fun t a => ?_))
    | split

theorem enableParts_fwd {r_ : State} {s : State} {n : Nat} (h_ : Onward r_ s) : Onward r_ (enableParts s n) := h_.trans (enableParts_onward ..)

theorem functionSettled_onward (s : State) (n : Nat) : Onward s (functionSettled s n) := by
  unfold functionSettled
  repeat' first
    | (with_reducible exact Onward.refl _)
    | (with_reducible apply enableParts_fwd)
    | (with_reducible apply resetFunction_fwd)
    | (with_reducible apply State.modFn_fwd)
    | (simp only [Onward.upd_eq])
    | split

theorem functionSettled_fwd {r_ : State} {s : State} {n : Nat} (h_ : Onward r_ s) : Onward r_ (functionSettled s n) := h_.trans (functionSettled_onward ..)

theorem disableFn_onward (s : State) (n : Nat) (t : Trigger) : Onward s (disableFn s n t) := by
  unfold disableFn
  repeat' first
    | (with_reducible exact Onward.refl _)
    | (with_reducible apply functionSettled_fwd)
    | (with_reducible apply disablePart_fwd)
    | (with_reducible apply State.modFn_fwd)
    | (with_reducible refine Onward.fold ?_ (fun t a => ?_))

theorem disableFn_fwd {r_ : State} {s : State} {n : Nat} {t : Trigger} (h_ : Onward r_ s) : Onward r_ (disableFn s n t) := h_.trans (disableFn_onward ..)

theorem disableAll_onward (s : State) (t : Trigger) : Onward s (disableAll s t) := by
  unfold disableAll
  repeat' first
    | (with_reducible exact Onward.refl _)
    | (with_reducible apply disableFn_fwd)
    | (with_reducible refine Onward.fold ?_ (fun t a => ?_))

theorem disableAll_fwd {r_ : State} {s : State} {t : Trigger} (h_ : Onward r_ s) : Onward r_ (disableAll s t) := h_.trans (disableAll_onward ..)

theorem orderlyReset_onward (s : State) (kind source : Nat) : Onward s (orderlyReset s kind source) := by
  unfold orderlyReset
  repeat' first
    | (with_reducible exact Onward.refl _)
    | (with_reducible apply disableAll_fwd)
    | (with_reducible apply askReset_fwd)
    | (with_reducible apply noteFunctions_fwd)
    | (simp only [Onward.upd_eq])
    | split

theorem orderlyReset_fwd {r_ : State} {s : State} {kind source : Nat} (h_ : Onward r_ s) : Onward r_ (orderlyReset s kind source) := h_.trans (orderlyReset_onward ..)

theorem functionLevelReset_onward (s : State) (n : Nat) (t : Trigger) : Onward s (functionLevelReset s n t) := by
  unfold functionLevelReset
  repeat' first
    | (with_reducible exact Onward.refl _)
    | (with_reducible apply disableFn_fwd)
    | (with_reducible apply State.modFn_fwd)
    | (with_reducible refine Onward.fold ?_ (fun t a => ?_))
    | (simp only [Onward.upd_eq])
    | split

theorem functionLevelReset_fwd {r_ : State} {s : State} {n : Nat} {t : Trigger} (h_ : Onward r_ s) : Onward r_ (functionLevelReset s n t) := h_.trans (functionLevelReset_onward ..)

theorem enableVfs_onward (s : State) (numVfs : Nat) : Onward s (enableVfs s numVfs) := by
  unfold enableVfs
  repeat' first
    | (with_reducible exact Onward.refl _)
    | (with_reducible apply enableParts_fwd)
    | (with_reducible apply resetFunction_fwd)
    | (with_reducible refine Onward.fold ?_ (fun t a => ?_))
    | (simp only [Onward.upd_eq])

theorem enableVfs_fwd {r_ : State} {s : State} {numVfs : Nat} (h_ : Onward r_ s) : Onward r_ (enableVfs s numVfs) := h_.trans (enableVfs_onward ..)

theorem vfsSettled_onward (s : State) : Onward s (vfsSettled s) := by
  unfold vfsSettled
  repeat' first
    | (with_reducible exact Onward.refl _)
    | (with_reducible apply enableVfs_fwd)
    | split

theorem vfsSettled_fwd {r_ : State} {s : State} (h_ : Onward r_ s) : Onward r_ (vfsSettled s) := h_.trans (vfsSettled_onward ..)

theorem leaveUnwritten_onward (s : State) (e : Nat × Slot) : Onward s (leaveUnwritten s e) := by
  unfold leaveUnwritten
  repeat' first
    | (with_reducible exact Onward.refl _)
    | (with_reducible apply countDisable_fwd)
    | (with_reducible apply State.modSlot_fwd)

theorem leaveUnwritten_fwd {r_ : State} {s : State} {e : Nat × Slot} (h_ : Onward r_ s) : Onward r_ (leaveUnwritten s e) := h_.trans (leaveUnwritten_onward ..)

theorem disableRecord_onward (s : State) (p : Nat) (d : Disable) : Onward s (disableRecord s p d) := by
  unfold disableRecord
  repeat' first
    | (with_reducible exact Onward.refl _)
    | (with_reducible apply logMain_fwd)

theorem disableRecord_fwd {r_ : State} {s : State} {p : Nat} {d : Disable} (h_ : Onward r_ s) : Onward r_ (disableRecord s p d) := h_.trans (disableRecord_onward ..)

theorem quietGroups_onward (s : State) (p : Nat) : Onward s (quietGroups s p) := by
  unfold quietGroups
  repeat' first
    | (with_reducible exact Onward.refl _)
    | (simp only [Onward.upd_eq])

theorem quietGroups_fwd {r_ : State} {s : State} {p : Nat} (h_ : Onward r_ s) : Onward r_ (quietGroups s p) := h_.trans (quietGroups_onward ..)

theorem acknowledge_onward (s : State) (p : Nat) (d : Disable) : Onward s (acknowledge s p d) := by
  unfold acknowledge
  repeat' first
    | (with_reducible exact Onward.refl _)
    | (with_reducible apply quietGroups_fwd)
    | (with_reducible apply disableRecord_fwd)
    | (with_reducible apply leaveUnwritten_fwd)
    | (with_reducible apply vfsSettled_fwd)
    | (with_reducible apply functionSettled_fwd)
    | (with_reducible apply closeWindows_fwd)
    | (with_reducible apply settleRing_fwd)
    | (with_reducible apply freePages_fwd)
    | (with_reducible apply raise_fwd)
    | (with_reducible apply State.modPart_fwd)
    | (with_reducible refine Onward.fold ?_ (fun t a => ?_))

theorem acknowledge_fwd {r_ : State} {s : State} {p : Nat} {d : Disable} (h_ : Onward r_ s) : Onward r_ (acknowledge s p d) := h_.trans (acknowledge_onward ..)

theorem execDisableAck_onward (part : Nat) (s : State) : ∃ w, execDisableAck part s = .next w ∧ Onward s w := by
  refine ⟨_, rfl, ?_⟩
  repeat' first
    | (with_reducible exact Onward.refl _)
    | (with_reducible apply acknowledge_fwd)
    | (with_reducible apply noteFunctions_fwd)
    | split

theorem execDisableBufferTimeout_onward (slot : Nat) (s : State) : ∃ w, execDisableBufferTimeout slot s = .next w ∧ Onward s w := by
  refine ⟨_, rfl, ?_⟩
  repeat' first
    | (with_reducible exact Onward.refl _)
    | (with_reducible apply fail_fwd)
    | (with_reducible apply unqueue_fwd)
    | (simp only [Onward.upd_eq])
    | split

theorem setVfEnable_onward (s : State) (numVfs : Nat) : Onward s (setVfEnable s numVfs) := by
  unfold setVfEnable
  repeat' first
    | (with_reducible exact Onward.refl _)
    | (with_reducible apply vfsSettled_fwd)
    | (with_reducible apply noteFunctions_fwd)
    | (simp only [Onward.upd_eq])
    | split

theorem setVfEnable_fwd {r_ : State} {s : State} {numVfs : Nat} (h_ : Onward r_ s) : Onward r_ (setVfEnable s numVfs) := h_.trans (setVfEnable_onward ..)

theorem execVfEnableSet_onward (numVfs : Nat) (s : State) : ∃ w, execVfEnableSet numVfs s = .next w ∧ Onward s w := by
  refine ⟨_, rfl, ?_⟩
  repeat' first
    | (with_reducible exact Onward.refl _)
    | (with_reducible apply setVfEnable_fwd)
    | (with_reducible refine Onward.trans ?_ (configAccess_onward _ _ _ _ (?_)))

theorem clearVfEnable_onward (s : State) : Onward s (clearVfEnable s) := by
  unfold clearVfEnable
  repeat' first
    | (with_reducible exact Onward.refl _)
    | (with_reducible apply disableFn_fwd)
    | (with_reducible apply noteFunctions_fwd)
    | (with_reducible refine Onward.fold ?_ (fun t a => ?_))
    | (simp only [Onward.upd_eq])
    | split

theorem clearVfEnable_fwd {r_ : State} {s : State} (h_ : Onward r_ s) : Onward r_ (clearVfEnable s) := h_.trans (clearVfEnable_onward ..)

theorem execVfEnableClear_onward (s : State) : ∃ w, execVfEnableClear s = .next w ∧ Onward s w := by
  refine ⟨_, rfl, ?_⟩
  repeat' first
    | (with_reducible exact Onward.refl _)
    | (with_reducible apply clearVfEnable_fwd)
    | (with_reducible refine Onward.trans ?_ (configAccess_onward _ _ _ _ (?_)))

theorem execBusMasterEnableClear_onward (fn : Nat) (s : State) : ∃ w, execBusMasterEnableClear fn s = .next w ∧ Onward s w := by
  refine ⟨_, rfl, ?_⟩
  repeat' first
    | (with_reducible exact Onward.refl _)
    | (with_reducible apply disableFn_fwd)
    | (with_reducible refine Onward.trans ?_ (configAccess_onward _ _ _ _ (?_)))
    | (with_reducible apply noteFunctions_fwd)
    | (with_reducible apply State.modFn_fwd)
    | split

theorem execD3hotEntry_onward (fn : Nat) (s : State) : ∃ w, execD3hotEntry fn s = .next w ∧ Onward s w := by
  refine ⟨_, rfl, ?_⟩
  repeat' first
    | (with_reducible exact Onward.refl _)
    | (with_reducible apply disableFn_fwd)
    | (with_reducible refine Onward.trans ?_ (configAccess_onward _ _ _ _ (?_)))
    | (with_reducible apply noteFunctions_fwd)
    | (with_reducible apply State.modFn_fwd)
    | split

theorem execD0Return_onward (fn : Nat) (s : State) : ∃ w, execD0Return fn s = .next w ∧ Onward s w := by
  refine ⟨_, rfl, ?_⟩
  repeat' first
    | (with_reducible exact Onward.refl _)
    | (with_reducible apply functionLevelReset_fwd)
    | (with_reducible refine Onward.trans ?_ (configAccess_onward _ _ _ _ (?_)))
    | (with_reducible apply noteFunctions_fwd)
    | split

theorem execFunctionLevelReset_onward (fn : Nat) (s : State) : ∃ w, execFunctionLevelReset fn s = .next w ∧ Onward s w := by
  refine ⟨_, rfl, ?_⟩
  repeat' first
    | (with_reducible exact Onward.refl _)
    | (with_reducible apply functionLevelReset_fwd)
    | (with_reducible refine Onward.trans ?_ (configAccess_onward _ _ _ _ (?_)))
    | (with_reducible apply noteFunctions_fwd)

theorem execFunctionWedged_onward (fn : Nat) (s : State) : ∃ w, execFunctionWedged fn s = .next w ∧ Onward s w := by
  refine ⟨_, rfl, ?_⟩
  repeat' first
    | (with_reducible exact Onward.refl _)
    | (with_reducible apply disableFn_fwd)
    | (with_reducible apply noteFunctions_fwd)
    | (with_reducible apply raise_fwd)
    | (with_reducible apply logMain_fwd)
    | split

/-! ## Entropy -/

theorem execEntropyBlockRelease_onward (s : State) : ∃ w, execEntropyBlockRelease s = .next w ∧ Onward s w := by
  refine ⟨_, rfl, ?_⟩
  repeat' first
    | (with_reducible exact Onward.refl _)
    | (with_reducible apply State.modEntropy_fwd)
    | split

theorem execWarmupEnd_onward (s : State) : ∃ w, execWarmupEnd s = .next w ∧ Onward s w := by
  refine ⟨_, rfl, ?_⟩
  repeat' first
    | (with_reducible exact Onward.refl _)
    | (with_reducible apply State.modEntropy_fwd)
    | split

theorem looperDraw_onward (s : State) : Onward s (looperDraw s) := by
  unfold looperDraw
  repeat' first
    | (with_reducible exact Onward.refl _)
    | (with_reducible apply State.modEntropy_fwd)
    | (with_reducible apply State.modLooper_fwd)
    | split

theorem looperDraw_fwd {r_ : State} {s : State} (h_ : Onward r_ s) : Onward r_ (looperDraw s) := h_.trans (looperDraw_onward ..)

theorem execEntropyBlockArrival_onward (s : State) : ∃ w, execEntropyBlockArrival s = .next w ∧ Onward s w := by
  refine ⟨_, rfl, ?_⟩
  repeat' first
    | (with_reducible exact Onward.refl _)
    | (with_reducible apply State.modEntropy_fwd)
    | split

theorem seedPart_onward (s : State) (p : Nat) (seed add : Bytes) : Onward s (seedPart s p seed add) := by
  unfold seedPart
  repeat' first
    | (with_reducible exact Onward.refl _)
    | (with_reducible apply State.modPart_fwd)

theorem seedPart_fwd {r_ : State} {s : State} {p : Nat} {seed add : Bytes} (h_ : Onward r_ s) : Onward r_ (seedPart s p seed add) := h_.trans (seedPart_onward ..)

theorem giveDraw_onward (s : State) (who : Nat) (key : Bytes) : Onward s (giveDraw s who key) := by
  unfold giveDraw
  repeat' first
    | (with_reducible exact Onward.refl _)
    | (with_reducible apply seedPart_fwd)
    | (with_reducible apply State.modEntropy_fwd)
    | (with_reducible apply State.modLane_fwd)
    | (with_reducible apply State.modSlot_fwd)
    | split

theorem giveDraw_fwd {r_ : State} {s : State} {who : Nat} {key : Bytes} (h_ : Onward r_ s) : Onward r_ (giveDraw s who key) := h_.trans (giveDraw_onward ..)

theorem serveDraw_onward (s : State) (d : Nat × Nat × Nat) : Onward s (serveDraw s d) := by
  unfold serveDraw
  repeat' first
    | (with_reducible exact Onward.refl _)
    | (with_reducible apply giveDraw_fwd)
    | (with_reducible apply State.modEntropy_fwd)
    | (simp only [Onward.upd_eq])
    | split

theorem serveDraw_fwd {r_ : State} {s : State} {d : Nat × Nat × Nat} (h_ : Onward r_ s) : Onward r_ (serveDraw s d) := h_.trans (serveDraw_onward ..)

theorem execSeedPoolDrawServed_onward (s : State) : ∃ w, execSeedPoolDrawServed s = .next w ∧ Onward s w := by
  refine ⟨_, rfl, ?_⟩
  repeat' first
    | (with_reducible exact Onward.refl _)
    | (with_reducible apply serveDraw_fwd)
    | split

theorem askOnce_onward (s : State) (cls who : Nat) : Onward s (askOnce s cls who) := by
  unfold askOnce
  repeat' first
    | (with_reducible exact Onward.refl _)
    | (with_reducible apply askDraw_fwd)
    | split

theorem askOnce_fwd {r_ : State} {s : State} {cls who : Nat} (h_ : Onward r_ s) : Onward r_ (askOnce s cls who) := h_.trans (askOnce_onward ..)

theorem execEntropyReady_onward (s : State) : ∃ w, execEntropyReady s = .next w ∧ Onward s w := by
  refine ⟨_, rfl, ?_⟩
  repeat' first
    | (with_reducible exact Onward.refl _)
    | (with_reducible apply askOnce_fwd)
    | (with_reducible apply reachStop_fwd)
    | (with_reducible apply State.modEntropy_fwd)
    | (with_reducible apply noteService_fwd)
    | (with_reducible refine Onward.fold ?_ (fun t a => ?_))
    | (simp only [Onward.upd_eq])
    | split

theorem execLaneGeneratorRekey_onward (lane : Nat) (s : State) : ∃ w, execLaneGeneratorRekey lane s = .next w ∧ Onward s w := by
  refine ⟨_, rfl, ?_⟩
  repeat' first
    | (with_reducible exact Onward.refl _)
    | (with_reducible apply askOnce_fwd)
    | (with_reducible apply State.modLane_fwd)
    | split

theorem execLaneGeneratorStall_onward (lane : Nat) (s : State) : ∃ w, execLaneGeneratorStall lane s = .next w ∧ Onward s w := by
  refine ⟨_, rfl, ?_⟩
  repeat' first
    | (with_reducible exact Onward.refl _)
    | (with_reducible apply State.modLane_fwd)
    | split

theorem execEngineGeneratorRekey_onward (gen : Nat) (s : State) : ∃ w, execEngineGeneratorRekey gen s = .next w ∧ Onward s w := by
  refine ⟨_, rfl, ?_⟩
  repeat' first
    | (with_reducible exact Onward.refl _)
    | (with_reducible apply askOnce_fwd)
    | (with_reducible apply State.modEntropy_fwd)
    | split

theorem execEngineGeneratorStall_onward (gen : Nat) (s : State) : ∃ w, execEngineGeneratorStall gen s = .next w ∧ Onward s w := by
  refine ⟨_, rfl, ?_⟩
  repeat' first
    | (with_reducible exact Onward.refl _)
    | (with_reducible apply State.modEntropy_fwd)
    | split

theorem execDrbgInstantiate_onward (part : Nat) (s : State) : ∃ w, execDrbgInstantiate part s = .next w ∧ Onward s w := by
  refine ⟨_, rfl, ?_⟩
  repeat' first
    | (with_reducible exact Onward.refl _)
    | (with_reducible apply serveDraw_fwd)
    | split

theorem reseedPart_onward (s : State) (p : Nat) : Onward s (reseedPart s p) := by
  unfold reseedPart
  repeat' first
    | (with_reducible exact Onward.refl _)
    | (with_reducible apply askOnce_fwd)
    | split

theorem reseedPart_fwd {r_ : State} {s : State} {p : Nat} (h_ : Onward r_ s) : Onward r_ (reseedPart s p) := h_.trans (reseedPart_onward ..)

theorem execDrbgReseedInterval_onward (part : Nat) (s : State) : ∃ w, execDrbgReseedInterval part s = .next w ∧ Onward s w := by
  refine ⟨_, rfl, ?_⟩
  repeat' first
    | (with_reducible exact Onward.refl _)
    | (with_reducible apply reseedPart_fwd)
    | split

theorem execDrbgReseedCount_onward (part : Nat) (s : State) : ∃ w, execDrbgReseedCount part s = .next w ∧ Onward s w := by
  refine ⟨_, rfl, ?_⟩
  repeat' first
    | (with_reducible exact Onward.refl _)
    | (with_reducible apply reseedPart_fwd)
    | split

theorem execDrbgStagingRefill_onward (part : Nat) (s : State) : ∃ w, execDrbgStagingRefill part s = .next w ∧ Onward s w := by
  refine ⟨_, rfl, ?_⟩
  repeat' first
    | (with_reducible exact Onward.refl _)
    | (with_reducible apply State.modPart_fwd)
    | split

theorem takeTokens_some {s t : State} {n : Nat} {x : Slot} (h : takeTokens s n x = some t) : Onward s t := by
  unfold takeTokens at h
  dsimp only at h
  split at h
  · cases h
    exact (State.modPart_onward ..).trans (State.modSlot_onward ..)
  · cases h
theorem takeTokens_getD {r s : State} {n : Nat} {x : Slot} (h : Onward r s) : Onward r ((takeTokens s n x).getD s) := by
  cases hb : takeTokens s n x with
  | none => exact h
  | some t => exact h.trans (takeTokens_some hb)

theorem execDrbgTokenGrant_onward (slot : Nat) (s : State) : ∃ w, execDrbgTokenGrant slot s = .next w ∧ Onward s w := by
  refine ⟨_, rfl, ?_⟩
  split
  · exact Onward.refl _
  · split
    · exact takeTokens_getD (Onward.refl _)
    · exact Onward.refl _

theorem askReseed_onward (s : State) (n : Nat) : Onward s (askReseed s n) := by
  unfold askReseed
  repeat' first
    | (with_reducible exact Onward.refl _)
    | (with_reducible apply askDraw_fwd)
    | (with_reducible apply State.modSlot_fwd)

theorem askReseed_fwd {r_ : State} {s : State} {n : Nat} (h_ : Onward r_ s) : Onward r_ (askReseed s n) := h_.trans (askReseed_onward ..)

theorem randomOut_onward (s : State) (x : Slot) : Onward s (randomOut s x).2 := by
  unfold randomOut
  repeat' first
    | (with_reducible exact Onward.refl _)
    | (with_reducible apply State.modPart_fwd)
theorem randomOut_pair {s : State} {x : Slot} {u : Out} {v : State} (h_ : randomOut s x = (u, v)) : Onward s v := by
  have := randomOut_onward s x
  rwa [h_] at this

theorem execRandomBytes_onward (slot : Nat) (s : State) : ∃ w, execRandomBytes slot s = .next w ∧ Onward s w := by
  refine ⟨_, rfl, ?_⟩
  repeat' first
    | (with_reducible exact Onward.refl _)
    | (with_reducible refine Onward.trans ?_ (randomOut_onward ..))
    | (with_reducible apply askReseed_fwd)
    | (with_reducible apply takeTokens_getD)
    | (with_reducible apply workDone_fwd)
    | (with_reducible apply settle_onward)
    | (with_reducible apply State.modSlot_fwd)
    | (with_reducible apply State.modPart_fwd)
    | (simp only [Onward.upd_eq])
    | split

theorem execDrbgReseed_onward (slot : Nat) (s : State) : ∃ w, execDrbgReseed slot s = .next w ∧ Onward s w := by
  refine ⟨_, rfl, ?_⟩
  repeat' first
    | (with_reducible exact Onward.refl _)
    | (with_reducible apply askReseed_fwd)
    | (with_reducible apply workDone_fwd)
    | (with_reducible apply settle_onward)
    | split

theorem zeroGens_onward (s : State) : Onward s (zeroGens s) := by
  unfold zeroGens
  repeat' first
    | (with_reducible exact Onward.refl _)
    | (with_reducible apply State.modEntropy_fwd)
    | (simp only [Onward.upd_eq])

theorem zeroGens_fwd {r_ : State} {s : State} (h_ : Onward r_ s) : Onward r_ (zeroGens s) := h_.trans (zeroGens_onward ..)

theorem looperCut_onward (s : State) : Onward s (looperCut s) := by
  unfold looperCut
  repeat' first
    | (with_reducible exact Onward.refl _)
    | (with_reducible apply State.modLooper_fwd)

theorem looperCut_fwd {r_ : State} {s : State} (h_ : Onward r_ s) : Onward r_ (looperCut s) := h_.trans (looperCut_onward ..)

theorem entropyFail_onward (s : State) (cause groups : Nat) : Onward s (entropyFail s cause groups) := by
  unfold entropyFail
  repeat' first
    | (with_reducible exact Onward.refl _)
    | (with_reducible apply looperCut_fwd)
    | (with_reducible apply zeroGens_fwd)
    | (with_reducible apply mainAlarm_fwd)
    | (with_reducible apply uninstantiate_fwd)
    | (with_reducible apply State.modEntropy_fwd)
    | (with_reducible apply noteService_fwd)
    | (with_reducible refine Onward.fold ?_ (fun t a => ?_))

theorem entropyFail_fwd {r_ : State} {s : State} {cause groups : Nat} (h_ : Onward r_ s) : Onward r_ (entropyFail s cause groups) := h_.trans (entropyFail_onward ..)

theorem execConditionerBlockOut_onward (rawBits : Bytes) (s : State) : ∃ w, execConditionerBlockOut rawBits s = .next w ∧ Onward s w := by
  refine ⟨_, rfl, ?_⟩
  repeat' first
    | (with_reducible exact Onward.refl _)
    | (with_reducible apply entropyFail_fwd)
    | (with_reducible apply looperDraw_fwd)
    | (with_reducible apply State.modEntropy_fwd)
    | (simp only [Onward.upd_eq])
    | split

theorem execEntropyHealthFail_onward (cause groups : Nat) (s : State) : ∃ w, execEntropyHealthFail cause groups s = .next w ∧ Onward s w := by
  refine ⟨_, rfl, ?_⟩
  repeat' first
    | (with_reducible exact Onward.refl _)
    | (with_reducible apply entropyFail_fwd)
    | split

theorem execEntropyTransportFault_onward (s : State) : ∃ w, execEntropyTransportFault s = .next w ∧ Onward s w := by
  refine ⟨_, rfl, ?_⟩
  repeat' first
    | (with_reducible exact Onward.refl _)
    | (with_reducible apply entropyFail_fwd)
    | split

theorem execEntropyBlockTimeout_onward (s : State) : ∃ w, execEntropyBlockTimeout s = .next w ∧ Onward s w := by
  refine ⟨_, rfl, ?_⟩
  repeat' first
    | (with_reducible exact Onward.refl _)
    | (with_reducible apply entropyFail_fwd)
    | split

end Sys2Proof.Machine
end

