-- ==== Sys2Proof/Laws/OnwardHost.lean ====
section
/-! SUPPORT. No operation of a group takes back what `Onward` keeps: the host link, the domains and the payment commands. -/

set_option linter.unreachableTactic false
set_option linter.unusedTactic false

namespace Sys2Proof.Machine

/-! ## HostLink -/

theorem State.modLink_onward (s : State) (f : Link → Link) : Onward s (State.modLink s f) := by
  unfold State.modLink
  repeat' first
    | (with_reducible exact Onward.refl _)
    | (simp only [Onward.upd_eq])

theorem State.modLink_fwd {r_ : State} {s : State} {f : Link → Link} (h_ : Onward r_ s) : Onward r_ (State.modLink s f) := h_.trans (State.modLink_onward ..)

theorem execPerstAssert_onward (s : State) : ∃ w, execPerstAssert s = .next w ∧ Onward s w := by
  refine ⟨_, rfl, ?_⟩
  repeat' first
    | (with_reducible exact Onward.refl _)
    | (with_reducible apply State.modLink_fwd)
    | (with_reducible apply askReset_fwd)
    | split

theorem execPerstDeassert_onward (s : State) : ∃ w, execPerstDeassert s = .next w ∧ Onward s w := by
  refine ⟨_, rfl, ?_⟩
  repeat' first
    | (with_reducible exact Onward.refl _)
    | (with_reducible apply State.modLink_fwd)
    | (with_reducible apply State.roused_fwd)
    | (with_reducible apply latchWake_fwd)
    | split

theorem linkReset_onward (s : State) (source : Nat) : Onward s (linkReset s source) := by
  unfold linkReset
  repeat' first
    | (with_reducible exact Onward.refl _)
    | (with_reducible apply functionLevelReset_fwd)
    | (with_reducible apply askReset_fwd)
    | (with_reducible apply noteFunctions_fwd)
    | (with_reducible refine Onward.fold ?_ (fun t a => ?_))
    | split

theorem linkReset_fwd {r_ : State} {s : State} {source : Nat} (h_ : Onward r_ s) : Onward r_ (linkReset s source) := h_.trans (linkReset_onward ..)

theorem execHotReset_onward (s : State) : ∃ w, execHotReset s = .next w ∧ Onward s w := by
  refine ⟨_, rfl, ?_⟩
  repeat' first
    | (with_reducible exact Onward.refl _)
    | (with_reducible apply linkReset_fwd)
    | split

theorem execHostLinkDown_onward (s : State) : ∃ w, execHostLinkDown s = .next w ∧ Onward s w := by
  refine ⟨_, rfl, ?_⟩
  repeat' first
    | (with_reducible exact Onward.refl _)
    | (with_reducible apply State.modLink_fwd)

theorem execLinkDownTimeout_onward (s : State) : ∃ w, execLinkDownTimeout s = .next w ∧ Onward s w := by
  refine ⟨_, rfl, ?_⟩
  repeat' first
    | (with_reducible exact Onward.refl _)
    | (with_reducible apply linkReset_fwd)
    | split

theorem execLinkTrained_onward (speed width : Nat) (reversed : Bool) (s : State) : ∃ w, execLinkTrained speed width reversed s = .next w ∧ Onward s w := by
  refine ⟨_, rfl, ?_⟩
  repeat' first
    | (with_reducible exact Onward.refl _)
    | (with_reducible apply State.modLink_fwd)
    | (with_reducible apply noteService_fwd)
    | (with_reducible apply raise_fwd)
    | split

theorem hifReset_onward (s : State) (kind key : Nat) : Onward s (hifReset s kind key) := by
  unfold hifReset
  repeat' first
    | (with_reducible exact Onward.refl _)
    | (with_reducible apply orderlyReset_fwd)
    | (with_reducible refine Onward.trans ?_ (barAccess_onward _ _ _ _ (?_)))
    | split

theorem hifReset_fwd {r_ : State} {s : State} {kind key : Nat} (h_ : Onward r_ s) : Onward r_ (hifReset s kind key) := h_.trans (hifReset_onward ..)

theorem execResetCold_onward (key : Nat) (s : State) : ∃ w, execResetCold key s = .next w ∧ Onward s w := by
  refine ⟨_, rfl, ?_⟩
  repeat' first
    | (with_reducible exact Onward.refl _)
    | (with_reducible apply hifReset_fwd)

theorem execResetWarm_onward (key : Nat) (s : State) : ∃ w, execResetWarm key s = .next w ∧ Onward s w := by
  refine ⟨_, rfl, ?_⟩
  repeat' first
    | (with_reducible exact Onward.refl _)
    | (with_reducible apply hifReset_fwd)

theorem execHifFnErrRead_onward (fn : Nat) (s : State) : ∃ w, execHifFnErrRead fn s = .next w ∧ Onward s w := by
  refine ⟨_, rfl, ?_⟩
  repeat' first
    | (with_reducible exact Onward.refl _)
    | (with_reducible refine Onward.trans ?_ (barAccess_onward _ _ _ _ (?_)))
    | (with_reducible apply readBack_fwd)
    | (with_reducible apply State.modFn_fwd)

theorem writeHifCtl_onward (s : State) (v : Nat) : Onward s (writeHifCtl s v) := by
  unfold writeHifCtl
  repeat' first
    | (with_reducible exact Onward.refl _)
    | (with_reducible apply State.modLink_fwd)
    | (with_reducible apply orderlyReset_fwd)
    | split

theorem writeHifCtl_fwd {r_ : State} {s : State} {v : Nat} (h_ : Onward r_ s) : Onward r_ (writeHifCtl s v) := h_.trans (writeHifCtl_onward ..)

theorem writeHif_onward (s : State) (fn off v : Nat) : Onward s (writeHif s fn off v) := by
  unfold writeHif
  repeat' first
    | (with_reducible exact Onward.refl _)
    | (with_reducible apply writeHifCtl_fwd)
    | (with_reducible apply State.modLink_fwd)
    | (with_reducible apply State.modFn_fwd)
    | split

theorem writeHif_fwd {r_ : State} {s : State} {fn off v : Nat} (h_ : Onward r_ s) : Onward r_ (writeHif s fn off v) := h_.trans (writeHif_onward ..)

theorem writeRing_onward (s : State) (rid off v : Nat) : Onward s (writeRing s rid off v) := by
  unfold writeRing
  repeat' first
    | (with_reducible exact Onward.refl _)
    | (with_reducible apply State.modRing_fwd)
    | (simp only [Onward.upd_eq])
    | split

theorem writeRing_fwd {r_ : State} {s : State} {rid off v : Nat} (h_ : Onward r_ s) : Onward r_ (writeRing s rid off v) := h_.trans (writeRing_onward ..)

theorem writeGroup_onward (s : State) (gid off v : Nat) : Onward s (writeGroup s gid off v) := by
  unfold writeGroup
  repeat' first
    | (with_reducible exact Onward.refl _)
    | (with_reducible apply State.modGroup_fwd)
    | split

theorem writeGroup_fwd {r_ : State} {s : State} {gid off v : Nat} (h_ : Onward r_ s) : Onward r_ (writeGroup s gid off v) := h_.trans (writeGroup_onward ..)

theorem writeEic_onward (s : State) (fn off v : Nat) : Onward s (writeEic s fn off v) := by
  unfold writeEic
  repeat' first
    | (with_reducible exact Onward.refl _)
    | (with_reducible apply State.modFn_fwd)
    | (simp only [Onward.upd_eq])
    | split

theorem writeEic_fwd {r_ : State} {s : State} {fn off v : Nat} (h_ : Onward r_ s) : Onward r_ (writeEic s fn off v) := h_.trans (writeEic_onward ..)

theorem writeMsix_onward (s : State) (fn v word x : Nat) : Onward s (writeMsix s fn v word x) := by
  unfold writeMsix
  repeat' first
    | (with_reducible exact Onward.refl _)
    | (with_reducible apply State.modFn_fwd)

theorem writeMsix_fwd {r_ : State} {s : State} {fn v word x : Nat} (h_ : Onward r_ s) : Onward r_ (writeMsix s fn v word x) := h_.trans (writeMsix_onward ..)

theorem writeBar0_onward (s : State) (fn off v : Nat) : Onward s (writeBar0 s fn off v) := by
  unfold writeBar0
  repeat' first
    | (with_reducible exact Onward.refl _)
    | (with_reducible apply writeMsix_fwd)
    | (with_reducible apply writeEic_fwd)
    | (with_reducible apply writeGroup_fwd)
    | (with_reducible apply writeRing_fwd)
    | (with_reducible apply writeHif_fwd)
    | (simp only [Onward.upd_eq])
    | split

theorem writeBar0_fwd {r_ : State} {s : State} {fn off v : Nat} (h_ : Onward r_ s) : Onward r_ (writeBar0 s fn off v) := h_.trans (writeBar0_onward ..)

theorem writeMailbox_onward (s : State) (off v : Nat) : Onward s (writeMailbox s off v) := by
  unfold writeMailbox
  repeat' first
    | (with_reducible exact Onward.refl _)
    | (simp only [Onward.upd_eq])
    | exact Onward.updSlots (Onward.refl _) (Nat.le_refl _) rfl (fun h => cwf_bufWrite _ _ _ h) id id id id
    | split

theorem writeMailbox_fwd {r_ : State} {s : State} {off v : Nat} (h_ : Onward r_ s) : Onward r_ (writeMailbox s off v) := h_.trans (writeMailbox_onward ..)

theorem setBusMaster_onward (s : State) (fn : Nat) : Onward s (setBusMaster s fn) := by
  unfold setBusMaster
  repeat' first
    | (with_reducible exact Onward.refl _)
    | (with_reducible apply enableParts_fwd)
    | (with_reducible apply State.modFn_fwd)

theorem setBusMaster_fwd {r_ : State} {s : State} {fn : Nat} (h_ : Onward r_ s) : Onward r_ (setBusMaster s fn) := h_.trans (setBusMaster_onward ..)

theorem writeCommand_onward (s : State) (fn v : Nat) : Onward s (writeCommand s fn v) := by
  unfold writeCommand
  repeat' first
    | (with_reducible exact Onward.refl _)
    | (with_reducible apply setBusMaster_fwd)
    | (with_reducible apply disableFn_fwd)
    | (with_reducible apply noteFunctions_fwd)
    | (with_reducible apply State.modFn_fwd)
    | split

theorem writeCommand_fwd {r_ : State} {s : State} {fn v : Nat} (h_ : Onward r_ s) : Onward r_ (writeCommand s fn v) := h_.trans (writeCommand_onward ..)

theorem writePower_onward (s : State) (fn v : Nat) : Onward s (writePower s fn v) := by
  unfold writePower
  repeat' first
    | (with_reducible exact Onward.refl _)
    | (with_reducible apply functionLevelReset_fwd)
    | (with_reducible apply disableFn_fwd)
    | (with_reducible apply noteFunctions_fwd)
    | (with_reducible apply State.modFn_fwd)
    | (simp only [Onward.upd_eq])
    | split

theorem writePower_fwd {r_ : State} {s : State} {fn v : Nat} (h_ : Onward r_ s) : Onward r_ (writePower s fn v) := h_.trans (writePower_onward ..)

theorem writePfConfig_onward (s : State) (off v : Nat) : Onward s (writePfConfig s off v) := by
  unfold writePfConfig
  repeat' first
    | (with_reducible exact Onward.refl _)
    | (with_reducible apply State.modLink_fwd)
    | (with_reducible apply clearVfEnable_fwd)
    | (with_reducible apply setVfEnable_fwd)
    | split

theorem writePfConfig_fwd {r_ : State} {s : State} {off v : Nat} (h_ : Onward r_ s) : Onward r_ (writePfConfig s off v) := h_.trans (writePfConfig_onward ..)

theorem writeConfig_onward (s : State) (fn off v : Nat) : Onward s (writeConfig s fn off v) := by
  unfold writeConfig
  repeat' first
    | (with_reducible exact Onward.refl _)
    | (with_reducible apply writePfConfig_fwd)
    | (with_reducible apply writePower_fwd)
    | (with_reducible apply writeCommand_fwd)
    | (with_reducible apply functionLevelReset_fwd)
    | (with_reducible apply noteFunctions_fwd)
    | (with_reducible apply State.modFn_fwd)
    | split

theorem writeConfig_fwd {r_ : State} {s : State} {fn off v : Nat} (h_ : Onward r_ s) : Onward r_ (writeConfig s fn off v) := h_.trans (writeConfig_onward ..)

theorem writeBar_onward (s : State) (fn bar offset size value : Nat) : Onward s (writeBar s fn bar offset size value) := by
  unfold writeBar
  repeat' first
    | (with_reducible exact Onward.refl _)
    | (with_reducible apply writeMailbox_fwd)
    | (with_reducible apply writeBar0_fwd)
    | (with_reducible apply refuseAccess_fwd)
    | split

theorem writeBar_fwd {r_ : State} {s : State} {fn bar offset size value : Nat} (h_ : Onward r_ s) : Onward r_ (writeBar s fn bar offset size value) := h_.trans (writeBar_onward ..)

theorem execRegisterWrite_onward (fn bar offset size value : Nat) (s : State) : ∃ w, execRegisterWrite fn bar offset size value s = .next w ∧ Onward s w := by
  refine ⟨_, rfl, ?_⟩
  repeat' first
    | (with_reducible exact Onward.refl _)
    | (with_reducible apply writeBar_fwd)
    | (with_reducible apply writeConfig_fwd)
    | (with_reducible refine Onward.trans ?_ (configAccess_onward _ _ _ _ (?_)))
    | (with_reducible refine Onward.trans ?_ (barAccess_onward _ _ _ _ (?_)))
    | split

theorem sendDoe_onward (s : State) (b : Bytes) : Onward s (sendDoe s b) := by
  unfold sendDoe
  repeat' first
    | (with_reducible exact Onward.refl _)
    | (simp only [Onward.upd_eq])

theorem sendDoe_fwd {r_ : State} {s : State} {b : Bytes} (h_ : Onward r_ s) : Onward r_ (sendDoe s b) := h_.trans (sendDoe_onward ..)

theorem leaveSecure_onward (s : State) (stream : Nat) : Onward s (leaveSecure s stream) := by
  unfold leaveSecure
  repeat' first
    | (with_reducible exact Onward.refl _)
    | (with_reducible apply State.modLink_fwd)
    | (with_reducible apply disableFn_fwd)
    | (with_reducible apply noteFunctions_fwd)
    | (with_reducible apply raise_fwd)
    | (with_reducible apply logMain_fwd)
    | (with_reducible apply State.modFn_fwd)
    | (with_reducible refine Onward.fold ?_ (fun t a => ?_))
    | (simp only [Onward.upd_eq])
    | (with_reducible apply Onward.slotsMap)
    | split

theorem leaveSecure_fwd {r_ : State} {s : State} {stream : Nat} (h_ : Onward r_ s) : Onward r_ (leaveSecure s stream) := h_.trans (leaveSecure_onward ..)

theorem execIdeCheckFailed_onward (stream : Nat) (s : State) : ∃ w, execIdeCheckFailed stream s = .next w ∧ Onward s w := by
  refine ⟨_, rfl, ?_⟩
  repeat' first
    | (with_reducible exact Onward.refl _)
    | (with_reducible apply leaveSecure_fwd)
    | (with_reducible apply State.modLink_fwd)
    | split

theorem sendKm_onward (s : State) (body : Bytes) : Onward s (sendKm s body) := by
  unfold sendKm
  repeat' first
    | (with_reducible exact Onward.refl _)
    | (with_reducible apply sendDoe_fwd)
    | (with_reducible apply State.modLink_fwd)

theorem sendKm_fwd {r_ : State} {s : State} {body : Bytes} (h_ : Onward r_ s) : Onward r_ (sendKm s body) := h_.trans (sendKm_onward ..)

theorem execKeyProg_onward (stream keySet rx : Nat) (key : Bytes) (s : State) : ∃ w, execKeyProg stream keySet rx key s = .next w ∧ Onward s w := by
  refine ⟨_, rfl, ?_⟩
  repeat' first
    | (with_reducible exact Onward.refl _)
    | (with_reducible apply sendKm_fwd)
    | (with_reducible apply State.modLink_fwd)
    | split

theorem execKSetGo_onward (stream keySet rx : Nat) (s : State) : ∃ w, execKSetGo stream keySet rx s = .next w ∧ Onward s w := by
  refine ⟨_, rfl, ?_⟩
  repeat' first
    | (with_reducible exact Onward.refl _)
    | (with_reducible apply sendKm_fwd)
    | (with_reducible apply State.modLink_fwd)
    | (with_reducible apply raise_fwd)
    | (simp only [Onward.upd_eq])
    | split

theorem execKSetStop_onward (stream keySet rx : Nat) (s : State) : ∃ w, execKSetStop stream keySet rx s = .next w ∧ Onward s w := by
  refine ⟨_, rfl, ?_⟩
  repeat' first
    | (with_reducible exact Onward.refl _)
    | (with_reducible apply sendKm_fwd)
    | (with_reducible apply leaveSecure_fwd)
    | (with_reducible apply State.modLink_fwd)
    | split

theorem execDoeDiscovery_onward (index : Nat) (s : State) : ∃ w, execDoeDiscovery index s = .next w ∧ Onward s w := by
  refine ⟨_, rfl, ?_⟩
  repeat' first
    | (with_reducible exact Onward.refl _)
    | (with_reducible apply sendDoe_fwd)

theorem serveSpdm_onward (s : State) (ver : Nat) (ok : Bool) (f : State → State) (hf : Onward s (f s)) : Onward s (serveSpdm s ver ok f) := by
  unfold serveSpdm
  split
  · exact hf
  · exact sendDoe_onward ..

theorem execSpdmGetCertificate_onward (head : SpdmHead) (offset length : Nat) (s : State) : ∃ w, execSpdmGetCertificate head offset length s = .next w ∧ Onward s w := by
  refine ⟨_, rfl, ?_⟩
  repeat' first
    | (with_reducible exact Onward.refl _)
    | (with_reducible refine Onward.trans ?_ (serveSpdm_onward _ _ _ _ (?_)))
    | (with_reducible apply sendDoe_fwd)

theorem identitySign_onward (s : State) (h : Bytes) : Onward s (identitySign s h).2 := by
  unfold identitySign
  repeat' first
    | (with_reducible exact Onward.refl _)
    | (with_reducible refine Onward.trans ?_ (coreDraw_onward ..))
theorem identitySign_pair {s : State} {h : Bytes} {u : Bytes} {v : State} (h_ : identitySign s h = (u, v)) : Onward s v := by
  have := identitySign_onward s h
  rwa [h_] at this

theorem execSpdmChallenge_onward (head : SpdmHead) (nonce : Bytes) (s : State) : ∃ w, execSpdmChallenge head nonce s = .next w ∧ Onward s w := by
  refine ⟨_, rfl, ?_⟩
  repeat' first
    | (with_reducible exact Onward.refl _)
    | (with_reducible refine Onward.trans ?_ (serveSpdm_onward _ _ _ _ (?_)))
    | (with_reducible apply sendDoe_fwd)
    | (with_reducible refine Onward.trans ?_ (coreDraw_onward ..))
    | split

theorem execSpdmGetMeasurements_onward (head : SpdmHead) (signed : Bool) (nonce : Bytes) (s : State) : ∃ w, execSpdmGetMeasurements head signed nonce s = .next w ∧ Onward s w := by
  refine ⟨_, rfl, ?_⟩
  repeat' first
    | (with_reducible exact Onward.refl _)
    | (with_reducible refine Onward.trans ?_ (serveSpdm_onward _ _ _ _ (?_)))
    | (with_reducible apply sendDoe_fwd)
    | (with_reducible refine Onward.trans ?_ (coreDraw_onward ..))
    | split

theorem execSpdmKeyExchange_onward (head : SpdmHead) (point : Bytes) (s : State) : ∃ w, execSpdmKeyExchange head point s = .next w ∧ Onward s w := by
  refine ⟨_, rfl, ?_⟩
  repeat' first
    | (with_reducible exact Onward.refl _)
    | (with_reducible refine Onward.trans ?_ (serveSpdm_onward _ _ _ _ (?_)))
    | (with_reducible apply sendDoe_fwd)
    | (with_reducible apply State.modLink_fwd)
    | (with_reducible refine Onward.trans ?_ (coreDraw_onward ..))
    | split

theorem evalQuota_onward (s : State) (w : Req × Nat × Nat × Nat) : Onward s (evalQuota s w) := by
  unfold evalQuota
  repeat' first
    | (with_reducible exact Onward.refl _)
    | (with_reducible apply acceptCommit_fwd)
    | (with_reducible apply refuse_fwd)
    | (with_reducible apply State.odSet_fwd)
    | (with_reducible apply State.modPart_fwd)
    | split

theorem evalQuota_fwd {r_ : State} {s : State} {w : Req × Nat × Nat × Nat} (h_ : Onward r_ s) : Onward r_ (evalQuota s w) := h_.trans (evalQuota_onward ..)

theorem clearAssignments_onward (s : State) (p n : Nat) : Onward s (clearAssignments s p n) := by
  unfold clearAssignments
  repeat' first
    | (with_reducible exact Onward.refl _)
    | (with_reducible apply resetEic_fwd)
    | (with_reducible apply clearPending_fwd)
    | (simp only [Onward.upd_eq])
    | split

theorem clearAssignments_fwd {r_ : State} {s : State} {p n : Nat} (h_ : Onward r_ s) : Onward r_ (clearAssignments s p n) := h_.trans (clearAssignments_onward ..)

theorem remapPart_onward (s : State) (p n : Nat) : Onward s (remapPart s p n) := by
  unfold remapPart
  repeat' first
    | (with_reducible exact Onward.refl _)
    | (with_reducible apply clearAssignments_fwd)
    | (with_reducible apply State.modPart_fwd)
    | (simp only [Onward.upd_eq])
    | split

theorem remapPart_fwd {r_ : State} {s : State} {p n : Nat} (h_ : Onward r_ s) : Onward r_ (remapPart s p n) := h_.trans (remapPart_onward ..)

theorem applyRemaps_onward (s : State) : Onward s (applyRemaps s) := by
  unfold applyRemaps
  repeat' first
    | (with_reducible exact Onward.refl _)
    | (with_reducible apply remapPart_fwd)
    | (with_reducible refine Onward.fold ?_ (fun t a => ?_))
    | split

theorem applyRemaps_fwd {r_ : State} {s : State} (h_ : Onward r_ s) : Onward r_ (applyRemaps s) := h_.trans (applyRemaps_onward ..)

theorem execSchedulingEpoch_onward (s : State) : ∃ w, execSchedulingEpoch s = .next w ∧ Onward s w := by
  refine ⟨_, rfl, ?_⟩
  repeat' first
    | (with_reducible exact Onward.refl _)
    | (with_reducible apply applyRemaps_fwd)
    | (with_reducible apply evalQuota_fwd)
    | (with_reducible apply State.modLink_fwd)
    | (with_reducible apply noteFunctions_fwd)
    | (with_reducible refine Onward.fold ?_ (fun t a => ?_))
    | (simp only [Onward.upd_eq])

theorem quotaWrite_onward (rq : Req) (part sub v : Nat) (s : State) : Onward s (quotaWrite rq part sub v s) := by
  unfold quotaWrite
  repeat' first
    | (with_reducible exact Onward.refl _)
    | (with_reducible refine Onward.trans ?_ (roleWrite_onward _ _ _ _ _ _ _ _ (fun t => ?_)))
    | (simp only [Onward.upd_eq])

theorem quotaWrite_fwd {r_ : State} {rq : Req} {part sub v : Nat} {s : State} (h_ : Onward r_ s) : Onward r_ (quotaWrite rq part sub v s) := h_.trans (quotaWrite_onward ..)

theorem execQuotaWrite_onward (rq : Req) (part sub v : Nat) (s : State) : ∃ w, execQuotaWrite rq part sub v s = .next w ∧ Onward s w := by
  refine ⟨_, rfl, ?_⟩
  repeat' first
    | (with_reducible exact Onward.refl _)
    | (with_reducible apply quotaWrite_fwd)

theorem partitionFunctionWrite_onward (rq : Req) (part fn : Nat) (grant : Bytes) (s : State) : Onward s (partitionFunctionWrite rq part fn grant s) := by
  unfold partitionFunctionWrite
  repeat' first
    | (with_reducible exact Onward.refl _)
    | (with_reducible apply disablePart_fwd)
    | (with_reducible refine Onward.trans ?_ (grantWrite_onward _ _ _ _ _ _ _ _ _ _ _ (fun t use => ?_)))
    | (with_reducible apply acceptCommit_fwd)
    | (with_reducible apply noteFunctions_fwd)

theorem partitionFunctionWrite_fwd {r_ : State} {rq : Req} {part fn : Nat} {grant : Bytes} {s : State} (h_ : Onward r_ s) : Onward r_ (partitionFunctionWrite rq part fn grant s) := h_.trans (partitionFunctionWrite_onward ..)

theorem execPartitionFunctionWrite_onward (rq : Req) (part fn : Nat) (grant : Bytes) (s : State) : ∃ w, execPartitionFunctionWrite rq part fn grant s = .next w ∧ Onward s w := by
  refine ⟨_, rfl, ?_⟩
  repeat' first
    | (with_reducible exact Onward.refl _)
    | (with_reducible apply partitionFunctionWrite_fwd)

theorem partitionEnableWrite_onward (rq : Req) (part v : Nat) (grant : Bytes) (s : State) : Onward s (partitionEnableWrite rq part v grant s) := by
  unfold partitionEnableWrite
  repeat' first
    | (with_reducible exact Onward.refl _)
    | (with_reducible apply disablePart_fwd)
    | (with_reducible refine Onward.trans ?_ (grantWrite_onward _ _ _ _ _ _ _ _ _ _ _ (fun t use => ?_)))
    | (with_reducible apply acceptCommit_fwd)
    | (with_reducible apply noteFunctions_fwd)
    | (with_reducible apply State.odSet_fwd)
    | (with_reducible apply State.modPart_fwd)
    | split

theorem partitionEnableWrite_fwd {r_ : State} {rq : Req} {part v : Nat} {grant : Bytes} {s : State} (h_ : Onward r_ s) : Onward r_ (partitionEnableWrite rq part v grant s) := h_.trans (partitionEnableWrite_onward ..)

theorem execPartitionEnableWrite_onward (rq : Req) (part v : Nat) (grant : Bytes) (s : State) : ∃ w, execPartitionEnableWrite rq part v grant s = .next w ∧ Onward s w := by
  refine ⟨_, rfl, ?_⟩
  repeat' first
    | (with_reducible exact Onward.refl _)
    | (with_reducible apply partitionEnableWrite_fwd)

/-! ## Domains -/

theorem askKd_onward (s : State) (rq : Req) (idx sub op : Nat) (uses : List Change) (task : KdTask) : Onward s (askKd s rq idx sub op uses task) := by
  unfold askKd
  repeat' first
    | (with_reducible exact Onward.refl _)
    | (simp only [Onward.upd_eq])

theorem askKd_fwd {r_ : State} {s : State} {rq : Req} {idx sub op : Nat} {uses : List Change} {task : KdTask} (h_ : Onward r_ s) : Onward r_ (askKd s rq idx sub op uses task) := h_.trans (askKd_onward ..)

theorem drawSecret_onward (s : State) (p n : Nat) : Onward s (drawSecret s p n).2 := by
  unfold drawSecret
  repeat' first
    | (with_reducible exact Onward.refl _)
    | (with_reducible apply seedPart_fwd)
    | (with_reducible apply State.modEntropy_fwd)
    | (with_reducible apply State.modPart_fwd)
    | split
theorem drawSecret_pair {s : State} {p n : Nat} {u : Bytes} {v : State} (h_ : drawSecret s p n = (u, v)) : Onward s v := by
  have := drawSecret_onward s p n
  rwa [h_] at this

theorem partitionCreate_onward (rq : Req) (part : Nat) (grant : Bytes) (s : State) : Onward s (partitionCreate rq part grant s) := by
  unfold partitionCreate
  repeat' first
    | (with_reducible exact Onward.refl _)
    | (with_reducible apply askKd_fwd)
    | (with_reducible refine Onward.trans ?_ (grantWrite_onward _ _ _ _ _ _ _ _ _ _ _ (fun t use => ?_)))

theorem partitionCreate_fwd {r_ : State} {rq : Req} {part : Nat} {grant : Bytes} {s : State} (h_ : Onward r_ s) : Onward r_ (partitionCreate rq part grant s) := h_.trans (partitionCreate_onward ..)

theorem execPartitionCreate_onward (rq : Req) (part : Nat) (grant : Bytes) (s : State) : ∃ w, execPartitionCreate rq part grant s = .next w ∧ Onward s w := by
  refine ⟨_, rfl, ?_⟩
  repeat' first
    | (with_reducible exact Onward.refl _)
    | (with_reducible apply partitionCreate_fwd)

theorem partitionDestroy_onward (rq : Req) (part : Nat) (grant : Bytes) (s : State) : Onward s (partitionDestroy rq part grant s) := by
  unfold partitionDestroy
  repeat' first
    | (with_reducible exact Onward.refl _)
    | (with_reducible refine Onward.trans ?_ (grantWrite_onward _ _ _ _ _ _ _ _ _ _ _ (fun t use => ?_)))
    | (with_reducible apply acceptCommit_fwd)

theorem partitionDestroy_fwd {r_ : State} {rq : Req} {part : Nat} {grant : Bytes} {s : State} (h_ : Onward r_ s) : Onward r_ (partitionDestroy rq part grant s) := h_.trans (partitionDestroy_onward ..)

theorem execPartitionDestroy_onward (rq : Req) (part : Nat) (grant : Bytes) (s : State) : ∃ w, execPartitionDestroy rq part grant s = .next w ∧ Onward s w := by
  refine ⟨_, rfl, ?_⟩
  repeat' first
    | (with_reducible exact Onward.refl _)
    | (with_reducible apply partitionDestroy_fwd)

theorem bindingMaskWrite_onward (rq : Req) (part mask : Nat) (grant : Bytes) (s : State) : Onward s (bindingMaskWrite rq part mask grant s) := by
  unfold bindingMaskWrite
  repeat' first
    | (with_reducible exact Onward.refl _)
    | (with_reducible apply askKd_fwd)
    | (with_reducible refine Onward.trans ?_ (grantWrite_onward _ _ _ _ _ _ _ _ _ _ _ (fun t use => ?_)))

theorem bindingMaskWrite_fwd {r_ : State} {rq : Req} {part mask : Nat} {grant : Bytes} {s : State} (h_ : Onward r_ s) : Onward r_ (bindingMaskWrite rq part mask grant s) := h_.trans (bindingMaskWrite_onward ..)

theorem execBindingMaskWrite_onward (rq : Req) (part mask : Nat) (grant : Bytes) (s : State) : ∃ w, execBindingMaskWrite rq part mask grant s = .next w ∧ Onward s w := by
  refine ⟨_, rfl, ?_⟩
  repeat' first
    | (with_reducible exact Onward.refl _)
    | (with_reducible apply bindingMaskWrite_fwd)

theorem offerManifest_onward (s : State) (m : Bytes) : Onward s (offerManifest s m) := by
  unfold offerManifest
  repeat' first
    | (with_reducible exact Onward.refl _)
    | (with_reducible apply stepEpoch_fwd)
    | (with_reducible apply sendTo_fwd)
    | split

theorem offerManifest_fwd {r_ : State} {s : State} {m : Bytes} (h_ : Onward r_ s) : Onward r_ (offerManifest s m) := h_.trans (offerManifest_onward ..)

theorem manifestWrite_onward (rq : Req) (m grant : Bytes) (s : State) : Onward s (manifestWrite rq m grant s) := by
  unfold manifestWrite
  repeat' first
    | (with_reducible exact Onward.refl _)
    | (with_reducible apply askKd_fwd)
    | (with_reducible refine Onward.trans ?_ (grantWrite_onward _ _ _ _ _ _ _ _ _ _ _ (fun t use => ?_)))

theorem manifestWrite_fwd {r_ : State} {rq : Req} {m grant : Bytes} {s : State} (h_ : Onward r_ s) : Onward r_ (manifestWrite rq m grant s) := h_.trans (manifestWrite_onward ..)

theorem execManifestWrite_onward (rq : Req) (m grant : Bytes) (s : State) : ∃ w, execManifestWrite rq m grant s = .next w ∧ Onward s w := by
  refine ⟨_, rfl, ?_⟩
  repeat' first
    | (with_reducible exact Onward.refl _)
    | (with_reducible apply manifestWrite_fwd)

theorem announcedMrWrite_onward (rq : Req) (k : Nat) (v grant : Bytes) (s : State) : Onward s (announcedMrWrite rq k v grant s) := by
  unfold announcedMrWrite
  repeat' first
    | (with_reducible exact Onward.refl _)
    | (with_reducible apply askKd_fwd)
    | (with_reducible refine Onward.trans ?_ (grantWrite_onward _ _ _ _ _ _ _ _ _ _ _ (fun t use => ?_)))

theorem announcedMrWrite_fwd {r_ : State} {rq : Req} {k : Nat} {v grant : Bytes} {s : State} (h_ : Onward r_ s) : Onward r_ (announcedMrWrite rq k v grant s) := h_.trans (announcedMrWrite_onward ..)

theorem execAnnouncedMrWrite_onward (rq : Req) (k : Nat) (v grant : Bytes) (s : State) : ∃ w, execAnnouncedMrWrite rq k v grant s = .next w ∧ Onward s w := by
  refine ⟨_, rfl, ?_⟩
  repeat' first
    | (with_reducible exact Onward.refl _)
    | (with_reducible apply announcedMrWrite_fwd)

theorem ownSeal_onward (s : State) (p : Nat) : Onward s (ownSeal s p) := by
  unfold ownSeal
  repeat' first
    | (with_reducible exact Onward.refl _)
    | (with_reducible refine State.withBase_fwd ?_ (fun b h => h))
    | (with_reducible apply State.modPart_fwd)
    | split

theorem ownSeal_fwd {r_ : State} {s : State} {p : Nat} (h_ : Onward r_ s) : Onward r_ (ownSeal s p) := h_.trans (ownSeal_onward ..)

theorem vaultSeal_onward (s : State) (key p : Nat) (nonce psk : Bytes) : Onward s (vaultSeal s key p nonce psk) := by
  unfold vaultSeal
  repeat' first
    | (with_reducible exact Onward.refl _)
    | (simp only [Onward.upd_eq])

theorem vaultSeal_fwd {r_ : State} {s : State} {key p : Nat} {nonce psk : Bytes} (h_ : Onward r_ s) : Onward r_ (vaultSeal s key p nonce psk) := h_.trans (vaultSeal_onward ..)

theorem refuseJob_onward (s : State) (j : KdJob) : Onward s (refuseJob s j) := by
  unfold refuseJob
  repeat' first
    | (with_reducible exact Onward.refl _)
    | (with_reducible apply refuse_fwd)
    | split

theorem refuseJob_fwd {r_ : State} {s : State} {j : KdJob} (h_ : Onward r_ s) : Onward r_ (refuseJob s j) := h_.trans (refuseJob_onward ..)

theorem acceptJob_onward (s : State) (j : KdJob) (l : List Change) : Onward s (acceptJob s j l) := by
  unfold acceptJob
  repeat' first
    | (with_reducible exact Onward.refl _)
    | (with_reducible apply commitQuietly_fwd)
    | (with_reducible apply acceptCommit_fwd)
    | split

theorem acceptJob_fwd {r_ : State} {s : State} {j : KdJob} {l : List Change} (h_ : Onward r_ s) : Onward r_ (acceptJob s j l) := h_.trans (acceptJob_onward ..)

theorem runTask_onward (s : State) (j : KdJob) : Onward s (runTask s j) := by
  unfold runTask
  repeat' first
    | (with_reducible exact Onward.refl _)
    | (with_reducible apply acceptJob_fwd)
    | (with_reducible apply refuseJob_fwd)
    | (with_reducible apply vaultSeal_fwd)
    | (with_reducible apply ownSeal_fwd)
    | (with_reducible apply offerManifest_fwd)
    | (with_reducible refine Onward.trans ?_ (drawSecret_onward ..))
    | (simp only [Onward.upd_eq])
    | split

theorem runTask_fwd {r_ : State} {s : State} {j : KdJob} (h_ : Onward r_ s) : Onward r_ (runTask s j) := h_.trans (runTask_onward ..)

theorem serveKd_onward (s : State) : Onward s (serveKd s) := by
  unfold serveKd
  repeat' first
    | (with_reducible exact Onward.refl _)
    | (with_reducible apply runTask_fwd)
    | (simp only [Onward.upd_eq])
    | split

theorem serveKd_fwd {r_ : State} {s : State} (h_ : Onward r_ s) : Onward r_ (serveKd s) := h_.trans (serveKd_onward ..)

theorem finaliseWrite_onward (rq : Req) (grant : Bytes) (s : State) : Onward s (finaliseWrite rq grant s) := by
  unfold finaliseWrite
  repeat' first
    | (with_reducible exact Onward.refl _)
    | (with_reducible refine Onward.trans ?_ (grantWrite_onward _ _ _ _ _ _ _ _ _ _ _ (fun t use => ?_)))
    | (with_reducible apply acceptCommit_fwd)

theorem finaliseWrite_fwd {r_ : State} {rq : Req} {grant : Bytes} {s : State} (h_ : Onward r_ s) : Onward r_ (finaliseWrite rq grant s) := h_.trans (finaliseWrite_onward ..)

theorem execFinalise_onward (rq : Req) (grant : Bytes) (s : State) : ∃ w, execFinalise rq grant s = .next w ∧ Onward s w := by
  refine ⟨_, rfl, ?_⟩
  repeat' first
    | (with_reducible exact Onward.refl _)
    | (with_reducible apply finaliseWrite_fwd)

theorem cancelWrite_onward (rq : Req) (grant : Bytes) (s : State) : Onward s (cancelWrite rq grant s) := by
  unfold cancelWrite
  repeat' first
    | (with_reducible exact Onward.refl _)
    | (with_reducible refine Onward.trans ?_ (grantWrite_onward _ _ _ _ _ _ _ _ _ _ _ (fun t use => ?_)))
    | (with_reducible apply acceptCommit_fwd)

theorem cancelWrite_fwd {r_ : State} {rq : Req} {grant : Bytes} {s : State} (h_ : Onward r_ s) : Onward r_ (cancelWrite rq grant s) := h_.trans (cancelWrite_onward ..)

theorem execCancel_onward (rq : Req) (grant : Bytes) (s : State) : ∃ w, execCancel rq grant s = .next w ∧ Onward s w := by
  refine ⟨_, rfl, ?_⟩
  repeat' first
    | (with_reducible exact Onward.refl _)
    | (with_reducible apply cancelWrite_fwd)

theorem pinPolicyWrite_onward (rq : Req) (part v : Nat) (grant : Bytes) (s : State) : Onward s (pinPolicyWrite rq part v grant s) := by
  unfold pinPolicyWrite
  repeat' first
    | (with_reducible exact Onward.refl _)
    | (with_reducible apply grantOd_fwd)

theorem pinPolicyWrite_fwd {r_ : State} {rq : Req} {part v : Nat} {grant : Bytes} {s : State} (h_ : Onward r_ s) : Onward r_ (pinPolicyWrite rq part v grant s) := h_.trans (pinPolicyWrite_onward ..)

theorem execPinPolicyWrite_onward (rq : Req) (part v : Nat) (grant : Bytes) (s : State) : ∃ w, execPinPolicyWrite rq part v grant s = .next w ∧ Onward s w := by
  refine ⟨_, rfl, ?_⟩
  repeat' first
    | (with_reducible exact Onward.refl _)
    | (with_reducible apply pinPolicyWrite_fwd)

theorem decTableWrite_onward (rq : Req) (part table : Nat) (v grant : Bytes) (s : State) : Onward s (decTableWrite rq part table v grant s) := by
  unfold decTableWrite
  repeat' first
    | (with_reducible exact Onward.refl _)
    | (with_reducible apply grantOd_fwd)

theorem decTableWrite_fwd {r_ : State} {rq : Req} {part table : Nat} {v grant : Bytes} {s : State} (h_ : Onward r_ s) : Onward r_ (decTableWrite rq part table v grant s) := h_.trans (decTableWrite_onward ..)

theorem execDecTableWrite_onward (rq : Req) (part table : Nat) (v grant : Bytes) (s : State) : ∃ w, execDecTableWrite rq part table v grant s = .next w ∧ Onward s w := by
  refine ⟨_, rfl, ?_⟩
  repeat' first
    | (with_reducible exact Onward.refl _)
    | (with_reducible apply decTableWrite_fwd)

theorem atcCapacityWrite_onward (rq : Req) (part v : Nat) (grant : Bytes) (s : State) : Onward s (atcCapacityWrite rq part v grant s) := by
  unfold atcCapacityWrite
  repeat' first
    | (with_reducible exact Onward.refl _)
    | (with_reducible refine Onward.trans ?_ (grantWrite_onward _ _ _ _ _ _ _ _ _ _ _ (fun t use => ?_)))
    | (with_reducible apply acceptCommit_fwd)

theorem atcCapacityWrite_fwd {r_ : State} {rq : Req} {part v : Nat} {grant : Bytes} {s : State} (h_ : Onward r_ s) : Onward r_ (atcCapacityWrite rq part v grant s) := h_.trans (atcCapacityWrite_onward ..)

theorem execAtcCapacityWrite_onward (rq : Req) (part v : Nat) (grant : Bytes) (s : State) : ∃ w, execAtcCapacityWrite rq part v grant s = .next w ∧ Onward s w := by
  refine ⟨_, rfl, ?_⟩
  repeat' first
    | (with_reducible exact Onward.refl _)
    | (with_reducible apply atcCapacityWrite_fwd)

theorem atcWindowWrite_onward (rq : Req) (part v : Nat) (grant : Bytes) (s : State) : Onward s (atcWindowWrite rq part v grant s) := by
  unfold atcWindowWrite
  repeat' first
    | (with_reducible exact Onward.refl _)
    | (with_reducible apply grantOd_fwd)

theorem atcWindowWrite_fwd {r_ : State} {rq : Req} {part v : Nat} {grant : Bytes} {s : State} (h_ : Onward r_ s) : Onward r_ (atcWindowWrite rq part v grant s) := h_.trans (atcWindowWrite_onward ..)

theorem execAtcWindowWrite_onward (rq : Req) (part v : Nat) (grant : Bytes) (s : State) : ∃ w, execAtcWindowWrite rq part v grant s = .next w ∧ Onward s w := by
  refine ⟨_, rfl, ?_⟩
  repeat' first
    | (with_reducible exact Onward.refl _)
    | (with_reducible apply atcWindowWrite_fwd)

theorem execOrphanSweepFree_onward (record : Nat) (s : State) : ∃ w, execOrphanSweepFree record s = .next w ∧ Onward s w := by
  refine ⟨_, rfl, ?_⟩
  repeat' first
    | (with_reducible exact Onward.refl _)
    | (with_reducible apply commitQuietly_fwd)
    | split

theorem execOrphanSweepPassEnd_onward (ms : Nat) (s : State) : ∃ w, execOrphanSweepPassEnd ms s = .next w ∧ Onward s w := by
  refine ⟨_, rfl, ?_⟩
  repeat' first
    | (with_reducible exact Onward.refl _)
    | (with_reducible refine State.withBase_fwd ?_ (fun b h => h))
    | (simp only [Onward.upd_eq])
    | split

theorem criticalEcc_onward (s : State) : Onward s (criticalEcc s) := by
  unfold criticalEcc
  repeat' first
    | (with_reducible exact Onward.refl _)
    | (with_reducible apply mainAlarm_fwd)

theorem criticalEcc_fwd {r_ : State} {s : State} (h_ : Onward r_ s) : Onward r_ (criticalEcc s) := h_.trans (criticalEcc_onward ..)

theorem reloadRecord_onward (s : State) (slot : Nat) : Onward s (reloadRecord s slot) := by
  unfold reloadRecord
  repeat' first
    | (with_reducible exact Onward.refl _)
    | (with_reducible apply loseRecord_fwd)
    | (with_reducible apply recordLost_fwd)
    | (with_reducible apply modStored_fwd)
    | (with_reducible refine Onward.trans ?_ (freeNat_pair (by assumption)))
    | split

theorem reloadRecord_fwd {r_ : State} {s : State} {slot : Nat} (h_ : Onward r_ s) : Onward r_ (reloadRecord s slot) := h_.trans (reloadRecord_onward ..)

theorem execDramPatrolScrub_onward (record : Nat) (correctable : Bool) (s : State) : ∃ w, execDramPatrolScrub record correctable s = .next w ∧ Onward s w := by
  refine ⟨_, rfl, ?_⟩
  repeat' first
    | (with_reducible exact Onward.refl _)
    | (with_reducible apply reloadRecord_fwd)
    | (simp only [Onward.upd_eq])
    | split

theorem execKeyCacheScrub_onward (critical : Bool) (key : Nat) (correctable : Bool) (s : State) : ∃ w, execKeyCacheScrub critical key correctable s = .next w ∧ Onward s w := by
  refine ⟨_, rfl, ?_⟩
  repeat' first
    | (with_reducible exact Onward.refl _)
    | (with_reducible apply criticalEcc_fwd)
    | (with_reducible apply dropCache_fwd)
    | (simp only [Onward.upd_eq])
    | split

theorem execSensorCalibration_onward (sensor : Nat) (s : State) : ∃ w, execSensorCalibration sensor s = .next w ∧ Onward s w := by
  refine ⟨_, rfl, ?_⟩
  repeat' first
    | (with_reducible exact Onward.refl _)
    | (simp only [Onward.upd_eq])
    | split

theorem execRecordRecoveryReply_onward (record src : Nat) (copy : Option Rec) (s : State) : ∃ w, execRecordRecoveryReply record src copy s = .next w ∧ Onward s w := by
  refine ⟨_, rfl, ?_⟩
  repeat' first
    | (with_reducible exact Onward.refl _)
    | (with_reducible apply askRecord_fwd)
    | (with_reducible apply modStored_fwd)
    | (simp only [Onward.upd_eq])
    | split

/-! ## Pin -/

theorem countPin_onward (s : State) (p : Nat) (l : List PinIn) : Onward s (countPin s p l) := by
  unfold countPin
  repeat' first
    | (with_reducible exact Onward.refl _)
    | (with_reducible apply State.modPart_fwd)
    | (simp only [Onward.upd_eq])
    | split

theorem countPin_fwd {r_ : State} {s : State} {p : Nat} {l : List PinIn} (h_ : Onward r_ s) : Onward r_ (countPin s p l) := h_.trans (countPin_onward ..)

theorem translate_onward (s : State) (x : Slot) (fin fout : Nat) (cin cout : Cipher) (blk : Bytes) (pin_ pout : Pan) : Onward s (translate s x fin fout cin cout blk pin_ pout).2 := by
  unfold translate
  repeat' first
    | (with_reducible exact Onward.refl _)
    | (with_reducible apply countPin_fwd)
    | (simp only [Onward.upd_eq])
    | split
theorem translate_pair {s : State} {x : Slot} {fin fout : Nat} {cin cout : Cipher} {blk : Bytes} {pin_ pout : Pan} {u : Option Bytes} {v : State} (h_ : translate s x fin fout cin cout blk pin_ pout = (u, v)) : Onward s v := by
  have := translate_onward s x fin fout cin cout blk pin_ pout
  rwa [h_] at this

theorem pinTranslateOut_onward (s : State) (x : Slot) : Onward s (pinTranslateOut s x).2 := by
  unfold pinTranslateOut
  repeat' first
    | (with_reducible exact Onward.refl _)
    | (with_reducible refine Onward.trans ?_ (translate_onward ..))
theorem pinTranslateOut_pair {s : State} {x : Slot} {u : Out} {v : State} (h_ : pinTranslateOut s x = (u, v)) : Onward s v := by
  have := pinTranslateOut_onward s x
  rwa [h_] at this

theorem execPinTranslate_onward (slot : Nat) (s : State) : ∃ w, execPinTranslate slot s = .next w ∧ Onward s w := runOpS_onward _ _ _ _ (fun t x => pinTranslateOut_onward t x)

theorem pinVerifyOffsetOut_onward (s : State) (x : Slot) : Onward s (pinVerifyOffsetOut s x).2 := by
  unfold pinVerifyOffsetOut
  repeat' first
    | (with_reducible exact Onward.refl _)
    | (with_reducible apply countPin_fwd)
    | (simp only [Onward.upd_eq])
    | split
theorem pinVerifyOffsetOut_pair {s : State} {x : Slot} {u : Out} {v : State} (h_ : pinVerifyOffsetOut s x = (u, v)) : Onward s v := by
  have := pinVerifyOffsetOut_onward s x
  rwa [h_] at this

theorem execPinVerifyOffset_onward (slot : Nat) (s : State) : ∃ w, execPinVerifyOffset slot s = .next w ∧ Onward s w := runOpS_onward _ _ _ _ (fun t x => pinVerifyOffsetOut_onward t x)

theorem pinVerifyValueOut_onward (s : State) (x : Slot) : Onward s (pinVerifyValueOut s x).2 := by
  unfold pinVerifyValueOut
  repeat' first
    | (with_reducible exact Onward.refl _)
    | (with_reducible apply countPin_fwd)
    | (simp only [Onward.upd_eq])
    | split
theorem pinVerifyValueOut_pair {s : State} {x : Slot} {u : Out} {v : State} (h_ : pinVerifyValueOut s x = (u, v)) : Onward s v := by
  have := pinVerifyValueOut_onward s x
  rwa [h_] at this

theorem execPinVerifyValue_onward (slot : Nat) (s : State) : ∃ w, execPinVerifyValue slot s = .next w ∧ Onward s w := runOpS_onward _ _ _ _ (fun t x => pinVerifyValueOut_onward t x)

theorem pinGenerateOut_onward (s : State) (x : Slot) : Onward s (pinGenerateOut s x).2 := by
  unfold pinGenerateOut
  repeat' first
    | (with_reducible exact Onward.refl _)
    | (simp only [Onward.upd_eq])
    | split
theorem pinGenerateOut_pair {s : State} {x : Slot} {u : Out} {v : State} (h_ : pinGenerateOut s x = (u, v)) : Onward s v := by
  have := pinGenerateOut_onward s x
  rwa [h_] at this

theorem execPinGenerate_onward (slot : Nat) (s : State) : ∃ w, execPinGenerate slot s = .next w ∧ Onward s w := runOpS_onward _ _ _ _ (fun t x => pinGenerateOut_onward t x)

theorem pinChangeOut_onward (s : State) (x : Slot) : Onward s (pinChangeOut s x).2 := by
  unfold pinChangeOut
  repeat' first
    | (with_reducible exact Onward.refl _)
    | (with_reducible apply countPin_fwd)
    | (with_reducible refine Onward.trans ?_ (draw_onward ..))
    | (simp only [Onward.upd_eq])
    | split
theorem pinChangeOut_pair {s : State} {x : Slot} {u : Out} {v : State} (h_ : pinChangeOut s x = (u, v)) : Onward s v := by
  have := pinChangeOut_onward s x
  rwa [h_] at this

theorem execPinChange_onward (slot : Nat) (s : State) : ∃ w, execPinChange slot s = .next w ∧ Onward s w := runOpS_onward _ _ _ _ (fun t x => pinChangeOut_onward t x)

/-! ## Mac -/

theorem execMacGenerate_onward (slot : Nat) (s : State) : ∃ w, execMacGenerate slot s = .next w ∧ Onward s w := runOp_onward ..

theorem execMacVerify_onward (slot : Nat) (s : State) : ∃ w, execMacVerify slot s = .next w ∧ Onward s w := runOp_onward ..

theorem execMacTranslate_onward (slot : Nat) (s : State) : ∃ w, execMacTranslate slot s = .next w ∧ Onward s w := runOp_onward ..

theorem execCvvGenerate_onward (slot : Nat) (s : State) : ∃ w, execCvvGenerate slot s = .next w ∧ Onward s w := runOp_onward ..

theorem execCvvVerify_onward (slot : Nat) (s : State) : ∃ w, execCvvVerify slot s = .next w ∧ Onward s w := runOp_onward ..

/-! ## Dukpt -/

theorem dukptPinTranslateOut_onward (s : State) (x : Slot) : Onward s (dukptPinTranslateOut s x).2 := by
  unfold dukptPinTranslateOut
  repeat' first
    | (with_reducible exact Onward.refl _)
    | (with_reducible refine Onward.trans ?_ (translate_onward ..))
theorem dukptPinTranslateOut_pair {s : State} {x : Slot} {u : Out} {v : State} (h_ : dukptPinTranslateOut s x = (u, v)) : Onward s v := by
  have := dukptPinTranslateOut_onward s x
  rwa [h_] at this

theorem execDukptPinTranslate_onward (slot : Nat) (s : State) : ∃ w, execDukptPinTranslate slot s = .next w ∧ Onward s w := runOpS_onward _ _ _ _ (fun t x => dukptPinTranslateOut_onward t x)

theorem execDukptMacGenerate_onward (slot : Nat) (s : State) : ∃ w, execDukptMacGenerate slot s = .next w ∧ Onward s w := runOp_onward ..

theorem execDukptMacVerify_onward (slot : Nat) (s : State) : ∃ w, execDukptMacVerify slot s = .next w ∧ Onward s w := runOp_onward ..

theorem execDukptData_onward (slot : Nat) (s : State) : ∃ w, execDukptData slot s = .next w ∧ Onward s w := runOp_onward ..

theorem execDukptInitialKey_onward (slot : Nat) (s : State) : ∃ w, execDukptInitialKey slot s = .next w ∧ Onward s w := runOp_onward ..

theorem dukptOriginatePinOut_onward (s : State) (x : Slot) : Onward s (dukptOriginatePinOut s x).2 := by
  unfold dukptOriginatePinOut
  repeat' first
    | (with_reducible exact Onward.refl _)
    | (with_reducible refine Onward.trans ?_ (translate_onward ..))
theorem dukptOriginatePinOut_pair {s : State} {x : Slot} {u : Out} {v : State} (h_ : dukptOriginatePinOut s x = (u, v)) : Onward s v := by
  have := dukptOriginatePinOut_onward s x
  rwa [h_] at this

theorem execDukptOriginatePin_onward (slot : Nat) (s : State) : ∃ w, execDukptOriginatePin slot s = .next w ∧ Onward s w := runOpS_onward _ _ _ _ (fun t x => dukptOriginatePinOut_onward t x)

theorem execDukptOriginateMac_onward (slot : Nat) (s : State) : ∃ w, execDukptOriginateMac slot s = .next w ∧ Onward s w := runOp_onward ..

/-! ## Emv -/

theorem execEmvArqcVerify_onward (slot : Nat) (s : State) : ∃ w, execEmvArqcVerify slot s = .next w ∧ Onward s w := runOp_onward ..

theorem execEmvScriptMac_onward (slot : Nat) (s : State) : ∃ w, execEmvScriptMac slot s = .next w ∧ Onward s w := runOp_onward ..

theorem execEmvScriptEncrypt_onward (slot : Nat) (s : State) : ∃ w, execEmvScriptEncrypt slot s = .next w ∧ Onward s w := runOp_onward ..

theorem emvScriptPinOut_onward (s : State) (x : Slot) : Onward s (emvScriptPinOut s x).2 := by
  unfold emvScriptPinOut
  repeat' first
    | (with_reducible exact Onward.refl _)
    | (with_reducible apply countPin_fwd)
    | (simp only [Onward.upd_eq])
    | split
theorem emvScriptPinOut_pair {s : State} {x : Slot} {u : Out} {v : State} (h_ : emvScriptPinOut s x = (u, v)) : Onward s v := by
  have := emvScriptPinOut_onward s x
  rwa [h_] at this

theorem execEmvScriptPin_onward (slot : Nat) (s : State) : ∃ w, execEmvScriptPin slot s = .next w ∧ Onward s w := runOpS_onward _ _ _ _ (fun t x => emvScriptPinOut_onward t x)

theorem bundleOut_onward (n : Nat) (s : State) (x : Slot) : Onward s (bundleOut n s x).2 := by
  unfold bundleOut
  repeat' first
    | (with_reducible exact Onward.refl _)
    | (with_reducible refine Onward.trans ?_ (translate_onward ..))
theorem bundleOut_pair {n : Nat} {s : State} {x : Slot} {u : Out} {v : State} (h_ : bundleOut n s x = (u, v)) : Onward s v := by
  have := bundleOut_onward n s x
  rwa [h_] at this

theorem execAuthoriseBundle_onward (slot : Nat) (s : State) : ∃ w, execAuthoriseBundle slot s = .next w ∧ Onward s w := runOpS_onward _ _ _ _ (fun t x => bundleOut_onward _ t x)

/-! ## Fpe -/

theorem execFf1Tokenise_onward (slot : Nat) (s : State) : ∃ w, execFf1Tokenise slot s = .next w ∧ Onward s w := runOp_onward ..

theorem execFf1Detokenise_onward (slot : Nat) (s : State) : ∃ w, execFf1Detokenise slot s = .next w ∧ Onward s w := runOp_onward ..

/-! ## Looper -/

theorem askLooper_onward (s : State) (code : Nat) : Onward s (askLooper s code) := by
  unfold askLooper
  repeat' first
    | (with_reducible exact Onward.refl _)
    | (with_reducible apply looperDraw_fwd)
    | (with_reducible apply State.modLooper_fwd)

theorem askLooper_fwd {r_ : State} {s : State} {code : Nat} (h_ : Onward r_ s) : Onward r_ (askLooper s code) := h_.trans (askLooper_onward ..)

theorem State.withDrs_onward (s : State) : Onward s (State.withDrs s) := by
  unfold State.withDrs
  repeat' first
    | (with_reducible exact Onward.refl _)
    | (with_reducible refine Onward.trans ?_ (draw_onward ..))
    | (simp only [Onward.upd_eq])
    | split

theorem State.withDrs_fwd {r_ : State} {s : State} (h_ : Onward r_ s) : Onward r_ (State.withDrs s) := h_.trans (State.withDrs_onward ..)

theorem execLooperKdFormation_onward (s : State) : ∃ w, execLooperKdFormation s = .next w ∧ Onward s w := by
  refine ⟨_, rfl, ?_⟩
  repeat' first
    | (with_reducible exact Onward.refl _)
    | (with_reducible apply State.withDrs_fwd)
    | (with_reducible apply askLooper_fwd)
    | split

theorem execLooperIdentitySeal_onward (s : State) : ∃ w, execLooperIdentitySeal s = .next w ∧ Onward s w := by
  refine ⟨_, rfl, ?_⟩
  repeat' first
    | (with_reducible exact Onward.refl _)
    | (with_reducible apply askLooper_fwd)
    | split

theorem execLooperIdentityUnseal_onward (s : State) : ∃ w, execLooperIdentityUnseal s = .next w ∧ Onward s w := by
  refine ⟨_, rfl, ?_⟩
  repeat' first
    | (with_reducible exact Onward.refl _)
    | (with_reducible apply askLooper_fwd)
    | split

theorem execLooperRecordKeyFormation_onward (s : State) : ∃ w, execLooperRecordKeyFormation s = .next w ∧ Onward s w := by
  refine ⟨_, rfl, ?_⟩
  repeat' first
    | (with_reducible exact Onward.refl _)
    | (with_reducible apply askLooper_fwd)
    | split

theorem execLooperNandKeyFormation_onward (s : State) : ∃ w, execLooperNandKeyFormation s = .next w ∧ Onward s w := by
  refine ⟨_, rfl, ?_⟩
  repeat' first
    | (with_reducible exact Onward.refl _)
    | (with_reducible apply askLooper_fwd)
    | split

theorem execLooperRecordSeal_onward (seq : Nat) (s : State) : ∃ w, execLooperRecordSeal seq s = .next w ∧ Onward s w := by
  refine ⟨_, rfl, ?_⟩
  repeat' first
    | (with_reducible exact Onward.refl _)
    | (with_reducible apply askLooper_fwd)
    | split

theorem execLooperRefused_onward (code : Nat) (s : State) : ∃ w, execLooperRefused code s = .next w ∧ Onward s w := by
  refine ⟨_, rfl, ?_⟩
  repeat' first
    | (with_reducible exact Onward.refl _)
    | (with_reducible apply logMain_fwd)
    | (with_reducible apply State.modLooper_fwd)

theorem kdFormed_onward (s : State) (kd : Option Bytes) : Onward s (kdFormed s kd) := by
  unfold kdFormed
  repeat' first
    | (with_reducible exact Onward.refl _)
    | (with_reducible apply serveKd_fwd)
    | (with_reducible apply reachStop_fwd)
    | (simp only [Onward.upd_eq])
    | split

theorem kdFormed_fwd {r_ : State} {s : State} {kd : Option Bytes} (h_ : Onward r_ s) : Onward r_ (kdFormed s kd) := h_.trans (kdFormed_onward ..)

theorem looperOut_onward (s : State) (code : Nat) (out : Option Bytes) : Onward s (looperOut s code out) := by
  unfold looperOut
  repeat' first
    | (with_reducible exact Onward.refl _)
    | (with_reducible apply kdFormed_fwd)
    | (with_reducible apply logMain_fwd)
    | (with_reducible apply State.modLooper_fwd)
    | (simp only [Onward.upd_eq])
    | split

theorem looperOut_fwd {r_ : State} {s : State} {code : Nat} {out : Option Bytes} (h_ : Onward r_ s) : Onward r_ (looperOut s code out) := h_.trans (looperOut_onward ..)

theorem execLooperBlockDone_onward (s : State) : ∃ w, execLooperBlockDone s = .next w ∧ Onward s w := by
  refine ⟨_, rfl, ?_⟩
  repeat' first
    | (with_reducible exact Onward.refl _)
    | (with_reducible apply looperOut_fwd)
    | (with_reducible apply looperCut_fwd)
    | (with_reducible apply looperDraw_fwd)
    | (with_reducible apply State.modLooper_fwd)
    | split

end Sys2Proof.Machine
end

