-- ==== Sys2Proof/Laws/OnwardModule.lean ====
section
/-! SUPPORT. No operation of a group takes back what `Onward` keeps: tamper, the life cycle, the log, the quorum and the resets. -/

set_option linter.unreachableTactic false
set_option linter.unusedTactic false

namespace Sys2Proof.Machine

/-! ## Tamper -/

theorem State.modTamper_onward (s : State) (f : Tamper → Tamper) : Onward s (State.modTamper s f) := by
  unfold State.modTamper
  repeat' first
    | (with_reducible exact Onward.refl _)
    | (simp only [Onward.upd_eq])

theorem State.modTamper_fwd {r_ : State} {s : State} {f : Tamper → Tamper} (h_ : Onward r_ s) : Onward r_ (State.modTamper s f) := h_.trans (State.modTamper_onward ..)

theorem cocoonFlag_onward (s : State) (flag reading : Nat) : Onward s (cocoonFlag s flag reading) := by
  unfold cocoonFlag
  repeat' first
    | (with_reducible exact Onward.refl _)
    | (with_reducible apply cocoonSource_fwd)

theorem cocoonFlag_fwd {r_ : State} {s : State} {flag reading : Nat} (h_ : Onward r_ s) : Onward r_ (cocoonFlag s flag reading) := h_.trans (cocoonFlag_onward ..)

theorem mainFlag_onward (s : State) (flag reading : Nat) : Onward s (mainFlag s flag reading) := by
  unfold mainFlag
  repeat' first
    | (with_reducible exact Onward.refl _)
    | (with_reducible apply mainAlarm_fwd)

theorem mainFlag_fwd {r_ : State} {s : State} {flag reading : Nat} (h_ : Onward r_ s) : Onward r_ (mainFlag s flag reading) := h_.trans (mainFlag_onward ..)

theorem prbsSample_onward (s : State) (flag reading : Nat) : Onward s (prbsSample s flag reading).2 := by
  unfold prbsSample
  repeat' first
    | (with_reducible exact Onward.refl _)
    | (with_reducible apply State.modTamper_fwd)
    | split
theorem prbsSample_pair {s : State} {flag reading : Nat} {u : Bool} {v : State} (h_ : prbsSample s flag reading = (u, v)) : Onward s v := by
  have := prbsSample_onward s flag reading
  rwa [h_] at this

theorem execMantleChannelAlarm_onward (channel reading : Nat) (s : State) : ∃ w, execMantleChannelAlarm channel reading s = .next w ∧ Onward s w := by
  refine ⟨_, rfl, ?_⟩
  repeat' first
    | (with_reducible exact Onward.refl _)
    | (with_reducible refine Onward.trans ?_ (prbsSample_pair (by assumption)))
    | (with_reducible apply cocoonFlag_fwd)
    | split

theorem execEnclosureLoopAlarm_onward (loop reading : Nat) (s : State) : ∃ w, execEnclosureLoopAlarm loop reading s = .next w ∧ Onward s w := by
  refine ⟨_, rfl, ?_⟩
  repeat' first
    | (with_reducible exact Onward.refl _)
    | (with_reducible refine Onward.trans ?_ (prbsSample_onward ..))
    | (with_reducible apply cocoonFlag_fwd)
    | (with_reducible apply State.modTamper_fwd)
    | (simp only [Onward.upd_eq])
    | split

theorem execCaseSwitchAlarm_onward (switch reading : Nat) (s : State) : ∃ w, execCaseSwitchAlarm switch reading s = .next w ∧ Onward s w := by
  refine ⟨_, rfl, ?_⟩
  repeat' first
    | (with_reducible exact Onward.refl _)
    | (with_reducible apply cocoonFlag_fwd)
    | (with_reducible apply State.modTamper_fwd)
    | (simp only [Onward.upd_eq])
    | split

theorem execLightAlarm_onward (site reading : Nat) (s : State) : ∃ w, execLightAlarm site reading s = .next w ∧ Onward s w := by
  refine ⟨_, rfl, ?_⟩
  repeat' first
    | (with_reducible exact Onward.refl _)
    | (with_reducible apply mainFlag_fwd)
    | (with_reducible apply cocoonFlag_fwd)
    | split

theorem execRailAlarm_onward (flag reading : Nat) (s : State) : ∃ w, execRailAlarm flag reading s = .next w ∧ Onward s w := by
  refine ⟨_, rfl, ?_⟩
  repeat' first
    | (with_reducible exact Onward.refl _)
    | (with_reducible apply mainFlag_fwd)
    | (with_reducible apply cocoonFlag_fwd)
    | split

theorem execTempAlarm_onward (flag reading : Nat) (s : State) : ∃ w, execTempAlarm flag reading s = .next w ∧ Onward s w := by
  refine ⟨_, rfl, ?_⟩
  repeat' first
    | (with_reducible exact Onward.refl _)
    | (with_reducible apply cocoonFlag_fwd)
    | split

theorem clockFlag_onward (s : State) (flag reading : Nat) : Onward s (clockFlag s flag reading) := by
  unfold clockFlag
  repeat' first
    | (with_reducible exact Onward.refl _)
    | (with_reducible apply mainFlag_fwd)
    | (with_reducible apply cocoonFlag_fwd)
    | split

theorem clockFlag_fwd {r_ : State} {s : State} {flag reading : Nat} (h_ : Onward r_ s) : Onward r_ (clockFlag s flag reading) := h_.trans (clockFlag_onward ..)

theorem execClockFreq_onward (flag reading : Nat) (s : State) : ∃ w, execClockFreq flag reading s = .next w ∧ Onward s w := by
  refine ⟨_, rfl, ?_⟩
  repeat' first
    | (with_reducible exact Onward.refl _)
    | (with_reducible apply clockFlag_fwd)
    | split

theorem execClockGlitch_onward (flag reading : Nat) (s : State) : ∃ w, execClockGlitch flag reading s = .next w ∧ Onward s w := by
  refine ⟨_, rfl, ?_⟩
  repeat' first
    | (with_reducible exact Onward.refl _)
    | (with_reducible apply clockFlag_fwd)
    | split

theorem execXtalStop_onward (s : State) : ∃ w, execXtalStop s = .next w ∧ Onward s w := by
  refine ⟨_, rfl, ?_⟩
  repeat' first
    | (with_reducible exact Onward.refl _)
    | (with_reducible apply clockFlag_fwd)

theorem execFsmCodewordInvalid_onward (fsm reading : Nat) (s : State) : ∃ w, execFsmCodewordInvalid fsm reading s = .next w ∧ Onward s w := by
  refine ⟨_, rfl, ?_⟩
  repeat' first
    | (with_reducible exact Onward.refl _)
    | (with_reducible apply mainFlag_fwd)
    | (with_reducible apply cocoonFlag_fwd)
    | (with_reducible apply State.modTamper_fwd)
    | split

theorem execBridgeFault_onward (reading : Nat) (s : State) : ∃ w, execBridgeFault reading s = .next w ∧ Onward s w := by
  refine ⟨_, rfl, ?_⟩
  repeat' first
    | (with_reducible exact Onward.refl _)
    | (with_reducible apply cocoonFlag_fwd)
    | split

theorem execMainDieResponse_onward (s : State) : ∃ w, execMainDieResponse s = .next w ∧ Onward s w := by
  refine ⟨_, rfl, ?_⟩
  repeat' first
    | (with_reducible exact Onward.refl _)
    | (with_reducible apply State.modTamper_fwd)
    | (with_reducible apply mainResponse_fwd)
    | split

theorem State.modLife_onward (s : State) (f : LifeCycle → LifeCycle) (hf : (f s.life).otp = s.life.otp) : Onward s (State.modLife s f) :=
  Onward.upd (Onward.refl s) (Nat.le_refl _) hf rfl rfl rfl rfl rfl
theorem State.modLife_fwd {r s : State} {f : LifeCycle → LifeCycle} (h : Onward r s) (hf : (f s.life).otp = s.life.otp) :
    Onward r (State.modLife s f) := h.trans (State.modLife_onward s f hf)

theorem raiseSleeve_onward (s : State) (failed : Bool) : Onward s (raiseSleeve s failed) := by
  unfold raiseSleeve
  repeat' first
    | (with_reducible exact Onward.refl _)
    | (with_reducible apply raise_fwd)
    | split

theorem raiseSleeve_fwd {r_ : State} {s : State} {failed : Bool} (h_ : Onward r_ s) : Onward r_ (raiseSleeve s failed) := h_.trans (raiseSleeve_onward ..)

theorem execSleeveRemoval_onward (s : State) : ∃ w, execSleeveRemoval s = .next w ∧ Onward s w := by
  refine ⟨_, rfl, ?_⟩
  repeat' first
    | (with_reducible exact Onward.refl _)
    | (with_reducible rfl)
    | (with_reducible apply raiseSleeve_fwd)
    | (with_reducible apply State.modLife_fwd)
    | (with_reducible apply cocoonSource_fwd)
    | split

theorem countDays_onward (s : State) (newCell : Bool) : Onward s (countDays s newCell) := by
  unfold countDays
  repeat' first
    | (with_reducible exact Onward.refl _)
    | (with_reducible apply State.modLife_fwd)
    | (with_reducible apply raise_fwd)
    | (simp only [Onward.upd_eq])
    | split

theorem countDays_fwd {r_ : State} {s : State} {newCell : Bool} (h_ : Onward r_ s) : Onward r_ (countDays s newCell) := h_.trans (countDays_onward ..)

theorem authSleeve_onward (s : State) (cert sig : Bytes) (drawn : Nat) : Onward s (authSleeve s cert sig drawn) := by
  unfold authSleeve
  repeat' first
    | (with_reducible exact Onward.refl _)
    | (with_reducible apply countDays_fwd)
    | (with_reducible apply raiseSleeve_fwd)
    | (with_reducible apply State.modLife_fwd)
    | (with_reducible apply State.modTamper_fwd)
    | (with_reducible refine Onward.trans ?_ (draw_onward ..))
    | (with_reducible apply raise_fwd)
    | (with_reducible apply logCocoon_fwd)
    | (simp only [Onward.upd_eq])
    | split

theorem authSleeve_fwd {r_ : State} {s : State} {cert sig : Bytes} {drawn : Nat} (h_ : Onward r_ s) : Onward r_ (authSleeve s cert sig drawn) := h_.trans (authSleeve_onward ..)

theorem execSleeveInsertion_onward (cert sigR sigS : Bytes) (drawn : Nat) (s : State) : ∃ w, execSleeveInsertion cert sigR sigS drawn s = .next w ∧ Onward s w := by
  refine ⟨_, rfl, ?_⟩
  repeat' first
    | (with_reducible exact Onward.refl _)
    | (with_reducible rfl)
    | (with_reducible apply authSleeve_fwd)
    | (with_reducible apply State.modLife_fwd)
    | (with_reducible apply raise_fwd)
    | split

theorem sleeveReleaseWrite_onward (rq : Req) (v : Nat) (s : State) : Onward s (sleeveReleaseWrite rq v s) := by
  unfold sleeveReleaseWrite
  repeat' first
    | (with_reducible exact Onward.refl _)
    | (with_reducible apply State.modTamper_fwd)
    | (with_reducible refine Onward.trans ?_ (roleWrite_onward _ _ _ _ _ _ _ _ (fun t => ?_)))
    | (with_reducible apply acceptNow_fwd)

theorem sleeveReleaseWrite_fwd {r_ : State} {rq : Req} {v : Nat} {s : State} (h_ : Onward r_ s) : Onward r_ (sleeveReleaseWrite rq v s) := h_.trans (sleeveReleaseWrite_onward ..)

theorem execSleeveReleaseWrite_onward (rq : Req) (v : Nat) (s : State) : ∃ w, execSleeveReleaseWrite rq v s = .next w ∧ Onward s w := by
  refine ⟨_, rfl, ?_⟩
  repeat' first
    | (with_reducible exact Onward.refl _)
    | (with_reducible apply sleeveReleaseWrite_fwd)

theorem execSleeveReleaseTimeout_onward (s : State) : ∃ w, execSleeveReleaseTimeout s = .next w ∧ Onward s w := by
  refine ⟨_, rfl, ?_⟩
  repeat' first
    | (with_reducible exact Onward.refl _)
    | (with_reducible apply State.modTamper_fwd)

theorem execSleeveLifeAccounting_onward (mAh tenths : Nat) (s : State) : ∃ w, execSleeveLifeAccounting mAh tenths s = .next w ∧ Onward s w := by
  refine ⟨_, rfl, ?_⟩
  repeat' first
    | (with_reducible exact Onward.refl _)
    | (with_reducible rfl)
    | (with_reducible apply countDays_fwd)
    | (with_reducible apply State.modLife_fwd)
    | split

theorem applyUnlock_onward (s : State) : Onward s (applyUnlock s) := by
  unfold applyUnlock
  repeat' first
    | (with_reducible exact Onward.refl _)
    | (with_reducible apply State.modTamper_fwd)
    | (with_reducible apply logCocoon_fwd)

theorem applyUnlock_fwd {r_ : State} {s : State} (h_ : Onward r_ s) : Onward r_ (applyUnlock s) := h_.trans (applyUnlock_onward ..)

theorem unlockWrite_onward (rq : Req) (v : Nat) (passes : Bool) (grant : Bytes) (s : State) : Onward s (unlockWrite rq v passes grant s) := by
  unfold unlockWrite
  repeat' first
    | (with_reducible exact Onward.refl _)
    | (with_reducible apply applyUnlock_fwd)
    | (with_reducible refine Onward.trans ?_ (grantWrite_onward _ _ _ _ _ _ _ _ _ _ _ (fun t use => ?_)))
    | (with_reducible apply acceptUse_fwd)
    | split

theorem unlockWrite_fwd {r_ : State} {rq : Req} {v : Nat} {passes : Bool} {grant : Bytes} {s : State} (h_ : Onward r_ s) : Onward r_ (unlockWrite rq v passes grant s) := h_.trans (unlockWrite_onward ..)

theorem execUnlock_onward (rq : Req) (v : Nat) (passes : Bool) (grant : Bytes) (s : State) : ∃ w, execUnlock rq v passes grant s = .next w ∧ Onward s w := by
  refine ⟨_, rfl, ?_⟩
  repeat' first
    | (with_reducible exact Onward.refl _)
    | (with_reducible apply unlockWrite_fwd)

theorem execUnlockReset_onward (s : State) : ∃ w, execUnlockReset s = .next w ∧ Onward s w := by
  refine ⟨_, rfl, ?_⟩
  repeat' first
    | (with_reducible exact Onward.refl _)
    | (with_reducible apply State.modTamper_fwd)
    | (with_reducible apply orderlyReset_fwd)
    | split

theorem tamperConfig_onward (s : State) (idx sub v : Nat) : Onward s (tamperConfig s idx sub v) := by
  unfold tamperConfig
  repeat' first
    | (with_reducible exact Onward.refl _)
    | (with_reducible apply logMain_fwd)

theorem tamperConfig_fwd {r_ : State} {s : State} {idx sub v : Nat} (h_ : Onward r_ s) : Onward r_ (tamperConfig s idx sub v) := h_.trans (tamperConfig_onward ..)

theorem tamperSet_onward (rq : Req) (idx sub v : Nat) (grant : Bytes) (check : State → Option Status) (s : State) : Onward s (tamperSet rq idx sub v grant check s) := by
  unfold tamperSet
  repeat' first
    | (with_reducible exact Onward.refl _)
    | (with_reducible apply tamperConfig_fwd)
    | (with_reducible refine Onward.trans ?_ (grantWrite_onward _ _ _ _ _ _ _ _ _ _ _ (fun t use => ?_)))
    | (with_reducible apply acceptCommit_fwd)

theorem tamperSet_fwd {r_ : State} {rq : Req} {idx sub v : Nat} {grant : Bytes} {check : State → Option Status} {s : State} (h_ : Onward r_ s) : Onward r_ (tamperSet rq idx sub v grant check s) := h_.trans (tamperSet_onward ..)

theorem tamperClassWrite_onward (rq : Req) (flag v : Nat) (grant : Bytes) (s : State) : Onward s (tamperClassWrite rq flag v grant s) := by
  unfold tamperClassWrite
  repeat' first
    | (with_reducible exact Onward.refl _)
    | (with_reducible apply tamperSet_fwd)

theorem tamperClassWrite_fwd {r_ : State} {rq : Req} {flag v : Nat} {grant : Bytes} {s : State} (h_ : Onward r_ s) : Onward r_ (tamperClassWrite rq flag v grant s) := h_.trans (tamperClassWrite_onward ..)

theorem execTamperClassWrite_onward (rq : Req) (flag v : Nat) (grant : Bytes) (s : State) : ∃ w, execTamperClassWrite rq flag v grant s = .next w ∧ Onward s w := by
  refine ⟨_, rfl, ?_⟩
  repeat' first
    | (with_reducible exact Onward.refl _)
    | (with_reducible apply tamperClassWrite_fwd)

theorem loopModeWrite_onward (rq : Req) (isSwitch : Bool) (n v : Nat) (passes : Bool) (grant : Bytes) (s : State) : Onward s (loopModeWrite rq isSwitch n v passes grant s) := by
  unfold loopModeWrite
  repeat' first
    | (with_reducible exact Onward.refl _)
    | (with_reducible apply tamperSet_fwd)

theorem loopModeWrite_fwd {r_ : State} {rq : Req} {isSwitch : Bool} {n v : Nat} {passes : Bool} {grant : Bytes} {s : State} (h_ : Onward r_ s) : Onward r_ (loopModeWrite rq isSwitch n v passes grant s) := h_.trans (loopModeWrite_onward ..)

theorem execLoopModeWrite_onward (rq : Req) (isSwitch : Bool) (n v : Nat) (passes : Bool) (grant : Bytes) (s : State) : ∃ w, execLoopModeWrite rq isSwitch n v passes grant s = .next w ∧ Onward s w := by
  refine ⟨_, rfl, ?_⟩
  repeat' first
    | (with_reducible exact Onward.refl _)
    | (with_reducible apply loopModeWrite_fwd)

theorem loopWindowWrite_onward (rq : Req) (n sub v : Nat) (passes : Bool) (grant : Bytes) (s : State) : Onward s (loopWindowWrite rq n sub v passes grant s) := by
  unfold loopWindowWrite
  repeat' first
    | (with_reducible exact Onward.refl _)
    | (with_reducible apply tamperSet_fwd)

theorem loopWindowWrite_fwd {r_ : State} {rq : Req} {n sub v : Nat} {passes : Bool} {grant : Bytes} {s : State} (h_ : Onward r_ s) : Onward r_ (loopWindowWrite rq n sub v passes grant s) := h_.trans (loopWindowWrite_onward ..)

theorem execLoopWindowWrite_onward (rq : Req) (n sub v : Nat) (passes : Bool) (grant : Bytes) (s : State) : ∃ w, execLoopWindowWrite rq n sub v passes grant s = .next w ∧ Onward s w := by
  refine ⟨_, rfl, ?_⟩
  repeat' first
    | (with_reducible exact Onward.refl _)
    | (with_reducible apply loopWindowWrite_fwd)

theorem loseSram_onward (s : State) : Onward s (loseSram s) := by
  unfold loseSram
  repeat' first
    | (with_reducible exact Onward.refl _)
    | (simp only [Onward.upd_eq])

theorem loseSram_fwd {r_ : State} {s : State} (h_ : Onward r_ s) : Onward r_ (loseSram s) := h_.trans (loseSram_onward ..)

theorem execHoldupExhausted_onward (s : State) : ∃ w, execHoldupExhausted s = .next w ∧ Onward s w := by
  refine ⟨_, rfl, ?_⟩
  repeat' first
    | (with_reducible exact Onward.refl _)
    | (with_reducible apply loseSram_fwd)
    | split

/-! ## LifeCycle -/

theorem closeDebug_onward (s : State) : Onward s (closeDebug s) := by
  unfold closeDebug
  repeat' first
    | (with_reducible exact Onward.refl _)
    | (with_reducible rfl)
    | (with_reducible apply State.modLife_fwd)

theorem closeDebug_fwd {r_ : State} {s : State} (h_ : Onward r_ s) : Onward r_ (closeDebug s) := h_.trans (closeDebug_onward ..)

theorem slotDone_onward (s : State) (k : Nat) : Onward s (slotDone s k) := by
  unfold slotDone
  repeat' first
    | (with_reducible exact Onward.refl _)
    | (with_reducible rfl)
    | (with_reducible apply State.modLife_fwd)
    | (with_reducible apply acceptUse_fwd)
    | (with_reducible apply logCocoon_fwd)
    | split

theorem slotDone_fwd {r_ : State} {s : State} {k : Nat} (h_ : Onward r_ s) : Onward r_ (slotDone s k) := h_.trans (slotDone_onward ..)

theorem burn_keeps (t : Tab Nat) (j v k b : Nat) (h : (tgetD t k 0).testBit b = true) : (tgetD (burn t j v) k 0).testBit b = true := by
  unfold burn
  rw [tgetD_tset]
  split
  · subst_vars; simp [h]
  · exact h
/-- Programming OTP words goes onward. -/
theorem otp_onward (s : State) (o : Tab Nat) (f : LifeCycle → LifeCycle) (ho : (f s.life).otp = o)
    (h : ∀ k b, (s.otp k).testBit b = true → (tgetD o k 0).testBit b = true) : Onward s (State.modLife s f) := by
  refine ⟨rfl, Nat.le_refl _, fun k b x => ?_, id⟩
  have := h k b x
  rw [← ho] at this
  exact this
theorem progItem_onward (s : State) (i : Nat × Nat) : Onward s (progItem s i) := by
  unfold progItem
  split
  · exact zeroDrs_onward ..
  · split
    · exact slotDone_onward ..
    · exact otp_onward s _ _ rfl (fun k b x => burn_keeps _ _ _ _ _ x)

theorem progItem_fwd {r_ : State} {s : State} {i : Nat × Nat} (h_ : Onward r_ s) : Onward r_ (progItem s i) := h_.trans (progItem_onward ..)

theorem progMarks_onward (s : State) (w : List (Nat × Nat)) : Onward s (progMarks s w) := by
  induction w generalizing s with
  | nil => exact State.modLife_onward _ _ rfl
  | cons i r ih =>
    unfold progMarks
    split
    · exact (progItem_onward ..).trans (ih _)
    · exact State.modLife_onward _ _ rfl

theorem progMarks_fwd {r_ : State} {s : State} {w : List (Nat × Nat)} (h_ : Onward r_ s) : Onward r_ (progMarks s w) := h_.trans (progMarks_onward ..)

theorem progTick_onward (s : State) : Onward s (progTick s) := by
  unfold progTick
  repeat' first
    | (with_reducible exact Onward.refl _)
    | (with_reducible rfl)
    | (with_reducible apply progMarks_fwd)
    | (with_reducible apply progItem_fwd)
    | (with_reducible apply State.modLife_fwd)
    | split

theorem progTick_fwd {r_ : State} {s : State} (h_ : Onward r_ s) : Onward r_ (progTick s) := h_.trans (progTick_onward ..)

theorem finishOtp_onward (s : State) : Onward s (finishOtp s) := by
  unfold finishOtp
  repeat' first
    | (with_reducible exact Onward.refl _)
    | (with_reducible rfl)
    | (with_reducible apply progItem_fwd)
    | (with_reducible apply State.modLife_fwd)
    | (with_reducible refine Onward.fold ?_ (fun t a => ?_))

theorem finishOtp_fwd {r_ : State} {s : State} (h_ : Onward r_ s) : Onward r_ (finishOtp s) := h_.trans (finishOtp_onward ..)

theorem programTransition_onward (s : State) (t : Transition) : Onward s (programTransition s t) := by
  unfold programTransition
  repeat' first
    | (with_reducible exact Onward.refl _)
    | (with_reducible rfl)
    | (with_reducible apply progMarks_fwd)
    | (with_reducible apply State.modLife_fwd)
    | (with_reducible apply refuse_fwd)
    | split

theorem programTransition_fwd {r_ : State} {s : State} {t : Transition} (h_ : Onward r_ s) : Onward r_ (programTransition s t) := h_.trans (programTransition_onward ..)

theorem continueTransition_onward (s : State) : Onward s (continueTransition s) := by
  unfold continueTransition
  repeat' first
    | (with_reducible exact Onward.refl _)
    | (with_reducible apply programTransition_fwd)
    | (with_reducible apply progTick_fwd)
    | split

theorem continueTransition_fwd {r_ : State} {s : State} (h_ : Onward r_ s) : Onward r_ (continueTransition s) := h_.trans (continueTransition_onward ..)

theorem beginTransition_onward (s : State) (t : Transition) : Onward s (beginTransition s t) := by
  unfold beginTransition
  repeat' first
    | (with_reducible exact Onward.refl _)
    | (with_reducible apply programTransition_fwd)
    | (with_reducible apply closeDebug_fwd)
    | (with_reducible apply State.modLife_fwd)
    | (with_reducible apply disableAll_fwd)
    | (with_reducible apply releaseCollar_fwd)
    | (with_reducible apply noteFunctions_fwd)
    | (with_reducible apply noteService_fwd)
    | (simp only [Onward.upd_eq])
    | split

theorem beginTransition_fwd {r_ : State} {s : State} {t : Transition} (h_ : Onward r_ s) : Onward r_ (beginTransition s t) := h_.trans (beginTransition_onward ..)

theorem targetWrite_onward (rq : Req) (target : Nat) (grant : Bytes) (s : State) : Onward s (targetWrite rq target grant s) := by
  unfold targetWrite
  repeat' first
    | (with_reducible exact Onward.refl _)
    | (with_reducible apply beginTransition_fwd)
    | (with_reducible refine Onward.trans ?_ (grantWrite_onward _ _ _ _ _ _ _ _ _ _ _ (fun t use => ?_)))

theorem targetWrite_fwd {r_ : State} {rq : Req} {target : Nat} {grant : Bytes} {s : State} (h_ : Onward r_ s) : Onward r_ (targetWrite rq target grant s) := h_.trans (targetWrite_onward ..)

theorem execTargetWrite_onward (rq : Req) (target : Nat) (grant : Bytes) (s : State) : ∃ w, execTargetWrite rq target grant s = .next w ∧ Onward s w := by
  refine ⟨_, rfl, ?_⟩
  repeat' first
    | (with_reducible exact Onward.refl _)
    | (with_reducible apply targetWrite_fwd)

theorem execLcTransitionReset_onward (s : State) : ∃ w, execLcTransitionReset s = .next w ∧ Onward s w := by
  refine ⟨_, rfl, ?_⟩
  repeat' first
    | (with_reducible exact Onward.refl _)
    | (with_reducible apply askReset_fwd)
    | split

theorem newDebugChallenge_onward (s : State) : Onward s (newDebugChallenge s) := by
  unfold newDebugChallenge
  repeat' first
    | (with_reducible exact Onward.refl _)
    | (with_reducible rfl)
    | (with_reducible apply State.modLife_fwd)
    | (with_reducible refine Onward.trans ?_ (draw_onward ..))

theorem newDebugChallenge_fwd {r_ : State} {s : State} (h_ : Onward r_ s) : Onward r_ (newDebugChallenge s) := h_.trans (newDebugChallenge_onward ..)

theorem openDebug_onward (s : State) (scope dur : Nat) : Onward s (openDebug s scope dur) := by
  unfold openDebug
  repeat' first
    | (with_reducible exact Onward.refl _)
    | (with_reducible rfl)
    | (with_reducible apply State.modLife_fwd)
    | (with_reducible apply lockClear_fwd)
    | (with_reducible apply logMain_fwd)
    | split

theorem openDebug_fwd {r_ : State} {s : State} {scope dur : Nat} (h_ : Onward r_ s) : Onward r_ (openDebug s scope dur) := h_.trans (openDebug_onward ..)

theorem authCertWrite_onward (rq : Req) (c : Bytes) (s : State) : Onward s (authCertWrite rq c s) := by
  unfold authCertWrite
  repeat' first
    | (with_reducible exact Onward.refl _)
    | (with_reducible apply openDebug_fwd)
    | (with_reducible apply newDebugChallenge_fwd)
    | (with_reducible apply beginTransition_fwd)
    | (with_reducible refine Onward.trans ?_ (openServe_onward _ _ _ _ _ _ (fun t => ?_)))
    | (with_reducible apply acceptNow_fwd)
    | (with_reducible apply refuse_fwd)
    | (simp only [Onward.upd_eq])
    | split

theorem authCertWrite_fwd {r_ : State} {rq : Req} {c : Bytes} {s : State} (h_ : Onward r_ s) : Onward r_ (authCertWrite rq c s) := h_.trans (authCertWrite_onward ..)

theorem execAuthCertWrite_onward (rq : Req) (cert : Bytes) (s : State) : ∃ w, execAuthCertWrite rq cert s = .next w ∧ Onward s w := by
  refine ⟨_, rfl, ?_⟩
  repeat' first
    | (with_reducible exact Onward.refl _)
    | (with_reducible apply authCertWrite_fwd)

theorem execDebugSessionExpiry_onward (s : State) : ∃ w, execDebugSessionExpiry s = .next w ∧ Onward s w := by
  refine ⟨_, rfl, ?_⟩
  repeat' first
    | (with_reducible exact Onward.refl _)
    | (with_reducible apply closeDebug_fwd)
    | split

theorem debugCloseWrite_onward (rq : Req) (v : Nat) (s : State) : Onward s (debugCloseWrite rq v s) := by
  unfold debugCloseWrite
  repeat' first
    | (with_reducible exact Onward.refl _)
    | (with_reducible apply closeDebug_fwd)
    | (with_reducible refine Onward.trans ?_ (roleWrite_onward _ _ _ _ _ _ _ _ (fun t => ?_)))
    | (with_reducible apply acceptNow_fwd)
    | split

theorem debugCloseWrite_fwd {r_ : State} {rq : Req} {v : Nat} {s : State} (h_ : Onward r_ s) : Onward r_ (debugCloseWrite rq v s) := h_.trans (debugCloseWrite_onward ..)

theorem execDebugClose_onward (rq : Req) (v : Nat) (s : State) : ∃ w, execDebugClose rq v s = .next w ∧ Onward s w := by
  refine ⟨_, rfl, ?_⟩
  repeat' first
    | (with_reducible exact Onward.refl _)
    | (with_reducible apply debugCloseWrite_fwd)

theorem observeOpenWrite_onward (rq : Req) (v : Nat) (grant : Bytes) (s : State) : Onward s (observeOpenWrite rq v grant s) := by
  unfold observeOpenWrite
  repeat' first
    | (with_reducible exact Onward.refl _)
    | (with_reducible rfl)
    | (with_reducible apply State.modLife_fwd)
    | (with_reducible refine Onward.trans ?_ (grantWrite_onward _ _ _ _ _ _ _ _ _ _ _ (fun t use => ?_)))
    | (with_reducible apply acceptUse_fwd)
    | (with_reducible apply logMain_fwd)
    | split

theorem observeOpenWrite_fwd {r_ : State} {rq : Req} {v : Nat} {grant : Bytes} {s : State} (h_ : Onward r_ s) : Onward r_ (observeOpenWrite rq v grant s) := h_.trans (observeOpenWrite_onward ..)

theorem execObserveOpen_onward (rq : Req) (v : Nat) (grant : Bytes) (s : State) : ∃ w, execObserveOpen rq v grant s = .next w ∧ Onward s w := by
  refine ⟨_, rfl, ?_⟩
  repeat' first
    | (with_reducible exact Onward.refl _)
    | (with_reducible apply observeOpenWrite_fwd)

theorem execDebugChallengeRefresh_onward (s : State) : ∃ w, execDebugChallengeRefresh s = .next w ∧ Onward s w := by
  refine ⟨_, rfl, ?_⟩
  repeat' first
    | (with_reducible exact Onward.refl _)
    | (with_reducible apply newDebugChallenge_fwd)
    | split

theorem newCommChallenge_onward (s : State) : Onward s (newCommChallenge s) := by
  unfold newCommChallenge
  repeat' first
    | (with_reducible exact Onward.refl _)
    | (with_reducible rfl)
    | (with_reducible apply State.modLife_fwd)
    | (with_reducible refine Onward.trans ?_ (draw_onward ..))

theorem newCommChallenge_fwd {r_ : State} {s : State} (h_ : Onward r_ s) : Onward r_ (newCommChallenge s) := h_.trans (newCommChallenge_onward ..)

theorem commissionTokenWrite_onward (rq : Req) (b : Bytes) (s : State) : Onward s (commissionTokenWrite rq b s) := by
  unfold commissionTokenWrite
  repeat' first
    | (with_reducible exact Onward.refl _)
    | (with_reducible apply newCommChallenge_fwd)
    | (with_reducible refine Onward.trans ?_ (openServe_onward _ _ _ _ _ _ (fun t => ?_)))
    | (with_reducible apply acceptCommit_fwd)
    | (with_reducible apply refuse_fwd)
    | (with_reducible apply logMain_fwd)
    | split

theorem commissionTokenWrite_fwd {r_ : State} {rq : Req} {b : Bytes} {s : State} (h_ : Onward r_ s) : Onward r_ (commissionTokenWrite rq b s) := h_.trans (commissionTokenWrite_onward ..)

theorem execCommissionTokenWrite_onward (rq : Req) (token : Bytes) (s : State) : ∃ w, execCommissionTokenWrite rq token s = .next w ∧ Onward s w := by
  refine ⟨_, rfl, ?_⟩
  repeat' first
    | (with_reducible exact Onward.refl _)
    | (with_reducible apply commissionTokenWrite_fwd)

theorem identityGenerateWrite_onward (rq : Req) (s : State) : Onward s (identityGenerateWrite rq s) := by
  unfold identityGenerateWrite
  refine roleWrite_from _ _ _ _ _ _ _ _ (fun t h => ?_)
  split
  · exact Onward.refl _
  · exact acceptNow_fwd (askLooper_fwd (State.modLife_fwd h rfl))

theorem identityGenerateWrite_fwd {r_ : State} {rq : Req} {s : State} (h_ : Onward r_ s) : Onward r_ (identityGenerateWrite rq s) := h_.trans (identityGenerateWrite_onward ..)

theorem execIdentityGenerate_onward (rq : Req) (s : State) : ∃ w, execIdentityGenerate rq s = .next w ∧ Onward s w := by
  refine ⟨_, rfl, ?_⟩
  repeat' first
    | (with_reducible exact Onward.refl _)
    | (with_reducible apply identityGenerateWrite_fwd)

theorem certInstallWrite_onward (rq : Req) (b : Bytes) (s : State) : Onward s (certInstallWrite rq b s) := by
  unfold certInstallWrite
  repeat' first
    | (with_reducible exact Onward.refl _)
    | (with_reducible rfl)
    | (with_reducible apply State.modLife_fwd)
    | (with_reducible refine Onward.trans ?_ (roleWrite_onward _ _ _ _ _ _ _ _ (fun t => ?_)))
    | (with_reducible apply acceptNow_fwd)

theorem certInstallWrite_fwd {r_ : State} {rq : Req} {b : Bytes} {s : State} (h_ : Onward r_ s) : Onward r_ (certInstallWrite rq b s) := h_.trans (certInstallWrite_onward ..)

theorem execCertInstall_onward (rq : Req) (chains : Bytes) (s : State) : ∃ w, execCertInstall rq chains s = .next w ∧ Onward s w := by
  refine ⟨_, rfl, ?_⟩
  repeat' first
    | (with_reducible exact Onward.refl _)
    | (with_reducible apply certInstallWrite_fwd)

theorem coreDrawNow_onward (s : State) (n : Nat) : Onward s (coreDrawNow s n).2 := by
  unfold coreDrawNow
  repeat' first
    | (with_reducible exact Onward.refl _)
    | (with_reducible refine Onward.trans ?_ (coreDraw_onward ..))
    | (with_reducible refine Onward.trans ?_ (draw_onward ..))
    | split
theorem coreDrawNow_pair {s : State} {n : Nat} {u : Bytes} {v : State} (h_ : coreDrawNow s n = (u, v)) : Onward s v := by
  have := coreDrawNow_onward s n
  rwa [h_] at this

theorem attestation_onward (s : State) (nonce : Bytes) : Onward s (attestation s nonce).2 := by
  unfold attestation
  repeat' first
    | (with_reducible exact Onward.refl _)
    | (with_reducible refine Onward.trans ?_ (coreDrawNow_onward ..))
theorem attestation_pair {s : State} {nonce : Bytes} {u : Bytes} {v : State} (h_ : attestation s nonce = (u, v)) : Onward s v := by
  have := attestation_onward s nonce
  rwa [h_] at this

theorem attestNonceWrite_onward (rq : Req) (nonce : Bytes) (s : State) : Onward s (attestNonceWrite rq nonce s) := by
  unfold attestNonceWrite
  repeat' first
    | (with_reducible exact Onward.refl _)
    | (with_reducible rfl)
    | (with_reducible refine Onward.trans ?_ (attestation_onward ..))
    | (with_reducible apply State.modLife_fwd)
    | (with_reducible refine Onward.trans ?_ (serveWrite_onward _ _ _ _ _ _ _ _ (fun t => ?_)))
    | (with_reducible apply acceptNow_fwd)
    | (with_reducible apply refuse_fwd)
    | split

theorem attestNonceWrite_fwd {r_ : State} {rq : Req} {nonce : Bytes} {s : State} (h_ : Onward r_ s) : Onward r_ (attestNonceWrite rq nonce s) := h_.trans (attestNonceWrite_onward ..)

theorem execAttestNonceWrite_onward (rq : Req) (nonce : Bytes) (s : State) : ∃ w, execAttestNonceWrite rq nonce s = .next w ∧ Onward s w := by
  refine ⟨_, rfl, ?_⟩
  repeat' first
    | (with_reducible exact Onward.refl _)
    | (with_reducible apply attestNonceWrite_fwd)

theorem tapCtlWrite_onward (rq : Req) (v : Nat) (grant : Bytes) (s : State) : Onward s (tapCtlWrite rq v grant s) := by
  unfold tapCtlWrite
  refine grantWrite_onward _ _ _ _ _ _ _ _ _ _ _ (fun t use => ?_)
  dsimp only
  refine Onward.trans ?_ (acceptUse_onward ..)
  split
  · exact Onward.upd (State.modEntropy_onward ..) (Nat.le_add_right _ _) rfl rfl rfl rfl rfl rfl
  · exact State.modEntropy_onward ..

theorem tapCtlWrite_fwd {r_ : State} {rq : Req} {v : Nat} {grant : Bytes} {s : State} (h_ : Onward r_ s) : Onward r_ (tapCtlWrite rq v grant s) := h_.trans (tapCtlWrite_onward ..)

theorem execTapCtlWrite_onward (rq : Req) (v : Nat) (grant : Bytes) (s : State) : ∃ w, execTapCtlWrite rq v grant s = .next w ∧ Onward s w := by
  refine ⟨_, rfl, ?_⟩
  repeat' first
    | (with_reducible exact Onward.refl _)
    | (with_reducible apply tapCtlWrite_fwd)

/-! ## LogStore -/

theorem execLogFlush_onward (s : State) : ∃ w, execLogFlush s = .next w ∧ Onward s w := by
  refine ⟨_, rfl, ?_⟩
  repeat' first
    | (with_reducible exact Onward.refl _)
    | (with_reducible apply flushLog_fwd)
    | split

theorem sequenceHeld_onward (s : State) : Onward s (sequenceHeld s) := by
  unfold sequenceHeld
  repeat' first
    | (with_reducible exact Onward.refl _)
    | (with_reducible apply settleLog_fwd)
    | (simp only [Onward.upd_eq])

theorem sequenceHeld_fwd {r_ : State} {s : State} (h_ : Onward r_ s) : Onward r_ (sequenceHeld s) := h_.trans (sequenceHeld_onward ..)

theorem sealCheckWrite_onward (rq : Req) (seq : Nat) (s : State) : Onward s (sealCheckWrite rq seq s) := by
  unfold sealCheckWrite
  repeat' first
    | (with_reducible exact Onward.refl _)
    | (with_reducible refine Onward.trans ?_ (roleWrite_onward _ _ _ _ _ _ _ _ (fun t => ?_)))
    | (with_reducible apply acceptNow_fwd)
    | (simp only [Onward.upd_eq])

theorem sealCheckWrite_fwd {r_ : State} {rq : Req} {seq : Nat} {s : State} (h_ : Onward r_ s) : Onward r_ (sealCheckWrite rq seq s) := h_.trans (sealCheckWrite_onward ..)

theorem execSealCheck_onward (rq : Req) (seq : Nat) (s : State) : ∃ w, execSealCheck rq seq s = .next w ∧ Onward s w := by
  refine ⟨_, rfl, ?_⟩
  repeat' first
    | (with_reducible exact Onward.refl _)
    | (with_reducible apply sealCheckWrite_fwd)

theorem logClearWrite_onward (rq : Req) (v : Nat) (grant : Bytes) (s : State) : Onward s (logClearWrite rq v grant s) := by
  unfold logClearWrite
  repeat' first
    | (with_reducible exact Onward.refl _)
    | (with_reducible refine Onward.trans ?_ (grantWrite_onward _ _ _ _ _ _ _ _ _ _ _ (fun t use => ?_)))
    | (with_reducible apply acceptCommit_fwd)

theorem logClearWrite_fwd {r_ : State} {rq : Req} {v : Nat} {grant : Bytes} {s : State} (h_ : Onward r_ s) : Onward r_ (logClearWrite rq v grant s) := h_.trans (logClearWrite_onward ..)

theorem execLogClear_onward (rq : Req) (v : Nat) (grant : Bytes) (s : State) : ∃ w, execLogClear rq v grant s = .next w ∧ Onward s w := by
  refine ⟨_, rfl, ?_⟩
  repeat' first
    | (with_reducible exact Onward.refl _)
    | (with_reducible apply logClearWrite_fwd)

/-! ## Quorum -/

theorem policyWrite_onward (rq : Req) (cls sub v : Nat) (grant : Bytes) (s : State) : Onward s (policyWrite rq cls sub v grant s) := by
  unfold policyWrite
  repeat' first
    | (with_reducible exact Onward.refl _)
    | (with_reducible apply grantConfig_fwd)

theorem policyWrite_fwd {r_ : State} {rq : Req} {cls sub v : Nat} {grant : Bytes} {s : State} (h_ : Onward r_ s) : Onward r_ (policyWrite rq cls sub v grant s) := h_.trans (policyWrite_onward ..)

theorem execPolicyWrite_onward (rq : Req) (cls sub v : Nat) (grant : Bytes) (s : State) : ∃ w, execPolicyWrite rq cls sub v grant s = .next w ∧ Onward s w := by
  refine ⟨_, rfl, ?_⟩
  repeat' first
    | (with_reducible exact Onward.refl _)
    | (with_reducible apply policyWrite_fwd)

theorem memberWrite_onward (rq : Req) (member sub : Nat) (v grant : Bytes) (s : State) : Onward s (memberWrite rq member sub v grant s) := by
  unfold memberWrite
  repeat' first
    | (with_reducible exact Onward.refl _)
    | (with_reducible apply grantConfig_fwd)

theorem memberWrite_fwd {r_ : State} {rq : Req} {member sub : Nat} {v grant : Bytes} {s : State} (h_ : Onward r_ s) : Onward r_ (memberWrite rq member sub v grant s) := h_.trans (memberWrite_onward ..)

theorem execMemberWrite_onward (rq : Req) (member sub : Nat) (v grant : Bytes) (s : State) : ∃ w, execMemberWrite rq member sub v grant s = .next w ∧ Onward s w := by
  refine ⟨_, rfl, ?_⟩
  repeat' first
    | (with_reducible exact Onward.refl _)
    | (with_reducible apply memberWrite_fwd)

theorem State.modQuorum_onward (s : State) (f : Quorum → Quorum) : Onward s (State.modQuorum s f) := by
  unfold State.modQuorum
  repeat' first
    | (with_reducible exact Onward.refl _)
    | (simp only [Onward.upd_eq])

theorem State.modQuorum_fwd {r_ : State} {s : State} {f : Quorum → Quorum} (h_ : Onward r_ s) : Onward r_ (State.modQuorum s f) := h_.trans (State.modQuorum_onward ..)

theorem quorumOpen_onward (rq : Req) (cls part uses : Nat) (digest : Bytes) (s : State) : Onward s (quorumOpen rq cls part uses digest s) := by
  unfold quorumOpen
  repeat' first
    | (with_reducible assumption)
    | (with_reducible refine openServe_from _ _ _ _ _ _ (fun t h => ?_))
    | (with_reducible exact Onward.refl _)
    | (with_reducible apply State.modQuorum_fwd)
    | (with_reducible apply acceptNow_fwd)
    | (with_reducible refine Onward.trans ?_ (coreDraw_onward ..))
    | split

theorem quorumOpen_fwd {r_ : State} {rq : Req} {cls part uses : Nat} {digest : Bytes} {s : State} (h_ : Onward r_ s) : Onward r_ (quorumOpen rq cls part uses digest s) := h_.trans (quorumOpen_onward ..)

theorem execQuorumOpen_onward (rq : Req) (cls part uses : Nat) (digest : Bytes) (s : State) : ∃ w, execQuorumOpen rq cls part uses digest s = .next w ∧ Onward s w := by
  refine ⟨_, rfl, ?_⟩
  repeat' first
    | (with_reducible exact Onward.refl _)
    | (with_reducible apply quorumOpen_fwd)

theorem approve_onward (s : State) (rq : Req) (sub : Nat) (q : GrantReq) (m : Nat) : Onward s (approve s rq sub q m) := by
  unfold approve
  repeat' first
    | (with_reducible exact Onward.refl _)
    | (with_reducible apply State.modQuorum_fwd)
    | (with_reducible apply acceptCommit_fwd)
    | (with_reducible apply acceptNow_fwd)
    | (with_reducible apply refuse_fwd)
    | (with_reducible apply logMain_fwd)
    | (simp only [Onward.upd_eq])
    | split

theorem approve_fwd {r_ : State} {s : State} {rq : Req} {sub : Nat} {q : GrantReq} {m : Nat} (h_ : Onward r_ s) : Onward r_ (approve s rq sub q m) := h_.trans (approve_onward ..)

theorem approveBy_onward (s : State) (rq : Req) (sub id : Nat) (m : Option Nat) (sig : Bytes) : Onward s (approveBy s rq sub id m sig) := by
  unfold approveBy
  repeat' first
    | (with_reducible exact Onward.refl _)
    | (with_reducible apply approve_fwd)
    | (with_reducible refine Onward.trans ?_ (openServe_onward _ _ _ _ _ _ (fun t => ?_)))
    | (with_reducible apply refuse_fwd)
    | split

theorem approveBy_fwd {r_ : State} {s : State} {rq : Req} {sub id : Nat} {m : Option Nat} {sig : Bytes} (h_ : Onward r_ s) : Onward r_ (approveBy s rq sub id m sig) := h_.trans (approveBy_onward ..)

theorem execQuorumApprove_onward (rq : Req) (id member : Nat) (signature : Bytes) (s : State) : ∃ w, execQuorumApprove rq id member signature s = .next w ∧ Onward s w := by
  refine ⟨_, rfl, ?_⟩
  repeat' first
    | (with_reducible exact Onward.refl _)
    | (with_reducible apply approveBy_fwd)

theorem cardEphemeral_onward (s : State) : Onward s (cardEphemeral s).2 := by
  unfold cardEphemeral
  repeat' first
    | (with_reducible exact Onward.refl _)
    | (with_reducible refine Onward.trans ?_ (coreDraw_onward ..))
theorem cardEphemeral_pair {s : State} {u : (Nat × Bytes)} {v : State} (h_ : cardEphemeral s = (u, v)) : Onward s v := by
  have := cardEphemeral_onward s
  rwa [h_] at this

theorem toCard_onward (s : State) (port : Nat) (l : List Bytes) : Onward s (toCard s port l) := by
  unfold toCard
  repeat' first
    | (with_reducible exact Onward.refl _)
    | (simp only [Onward.upd_eq])

theorem toCard_fwd {r_ : State} {s : State} {port : Nat} {l : List Bytes} (h_ : Onward r_ s) : Onward r_ (toCard s port l) := h_.trans (toCard_onward ..)

theorem cardApprove_onward (rq : Req) (id port : Nat) (credential : Bytes) (agree : CardAgree) (s : State) : Onward s (cardApprove rq id port credential agree s) := by
  unfold cardApprove
  repeat' first
    | (with_reducible assumption)
    | (with_reducible refine openServe_from _ _ _ _ _ _ (fun t h => ?_))
    | (with_reducible exact Onward.refl _)
    | (with_reducible apply toCard_fwd)
    | (with_reducible refine Onward.trans ?_ (cardEphemeral_pair (by assumption)))
    | (with_reducible apply approve_fwd)
    | (with_reducible apply refuse_fwd)
    | split

theorem cardApprove_fwd {r_ : State} {rq : Req} {id port : Nat} {credential : Bytes} {agree : CardAgree} {s : State} (h_ : Onward r_ s) : Onward r_ (cardApprove rq id port credential agree s) := h_.trans (cardApprove_onward ..)

theorem execCardApprove_onward (rq : Req) (id port : Nat) (credential : Bytes) (agree : CardAgree) (s : State) : ∃ w, execCardApprove rq id port credential agree s = .next w ∧ Onward s w := by
  refine ⟨_, rfl, ?_⟩
  repeat' first
    | (with_reducible exact Onward.refl _)
    | (with_reducible apply cardApprove_fwd)

theorem execQuorumRequestLapse_onward (id : Nat) (s : State) : ∃ w, execQuorumRequestLapse id s = .next w ∧ Onward s w := by
  refine ⟨_, rfl, ?_⟩
  repeat' first
    | (with_reducible exact Onward.refl _)
    | (with_reducible apply State.modQuorum_fwd)

theorem execCustodianCard_onward (port : Nat) (inserted : Bool) (s : State) : ∃ w, execCustodianCard port inserted s = .next w ∧ Onward s w := by
  refine ⟨_, rfl, ?_⟩
  repeat' first
    | (with_reducible exact Onward.refl _)
    | (with_reducible apply State.modQuorum_fwd)
    | (with_reducible apply raise_fwd)
    | (simp only [Onward.upd_eq])
    | split

theorem componentRecord_onward (s : State) (aux member port : Nat) (kcv : Bytes) : Onward s (componentRecord s aux member port kcv) := by
  unfold componentRecord
  repeat' first
    | (with_reducible exact Onward.refl _)
    | (with_reducible apply logMain_fwd)

theorem componentRecord_fwd {r_ : State} {s : State} {aux member port : Nat} {kcv : Bytes} (h_ : Onward r_ s) : Onward r_ (componentRecord s aux member port kcv) := h_.trans (componentRecord_onward ..)

theorem abandonLoad_onward (s : State) : Onward s (abandonLoad s) := by
  unfold abandonLoad
  repeat' first
    | (with_reducible exact Onward.refl _)
    | (with_reducible apply componentRecord_fwd)
    | (with_reducible apply State.modQuorum_fwd)

theorem abandonLoad_fwd {r_ : State} {s : State} (h_ : Onward r_ s) : Onward r_ (abandonLoad s) := h_.trans (abandonLoad_onward ..)

theorem componentStart_onward (rq : Req) (template : Bytes) (parent count : Nat) (grant : Bytes) (s : State) : Onward s (componentStart rq template parent count grant s) := by
  unfold componentStart
  repeat' first
    | (with_reducible exact Onward.refl _)
    | (with_reducible apply State.modQuorum_fwd)
    | (with_reducible refine Onward.trans ?_ (grantWrite_onward _ _ _ _ _ _ _ _ _ _ _ (fun t use => ?_)))
    | (with_reducible apply acceptCommit_fwd)

theorem componentStart_fwd {r_ : State} {rq : Req} {template : Bytes} {parent count : Nat} {grant : Bytes} {s : State} (h_ : Onward r_ s) : Onward r_ (componentStart rq template parent count grant s) := h_.trans (componentStart_onward ..)

theorem execComponentStart_onward (rq : Req) (template : Bytes) (parent count : Nat) (grant : Bytes) (s : State) : ∃ w, execComponentStart rq template parent count grant s = .next w ∧ Onward s w := by
  refine ⟨_, rfl, ?_⟩
  repeat' first
    | (with_reducible exact Onward.refl _)
    | (with_reducible apply componentStart_fwd)

theorem finishLoad_onward (s : State) (rq : Req) (member port : Nat) (kcv : Bytes) : Onward s (finishLoad s rq member port kcv) := by
  unfold finishLoad
  repeat' first
    | (with_reducible exact Onward.refl _)
    | (with_reducible apply abandonLoad_fwd)
    | (with_reducible apply componentRecord_fwd)
    | (with_reducible apply State.modQuorum_fwd)
    | (with_reducible apply acceptCommit_fwd)
    | (with_reducible apply refuse_fwd)
    | (simp only [Onward.upd_eq])
    | split

theorem finishLoad_fwd {r_ : State} {s : State} {rq : Req} {member port : Nat} {kcv : Bytes} (h_ : Onward r_ s) : Onward r_ (finishLoad s rq member port kcv) := h_.trans (finishLoad_onward ..)

theorem takeComponent_onward (s : State) (rq : Req) (m port : Nat) (component : Bytes) : Onward s (takeComponent s rq m port component) := by
  unfold takeComponent
  repeat' first
    | (with_reducible exact Onward.refl _)
    | (with_reducible apply finishLoad_fwd)
    | (with_reducible apply abandonLoad_fwd)
    | (with_reducible apply componentRecord_fwd)
    | (with_reducible apply State.modQuorum_fwd)
    | (with_reducible apply acceptNow_fwd)
    | (with_reducible apply refuse_fwd)
    | (simp only [Onward.upd_eq])
    | split

theorem takeComponent_fwd {r_ : State} {s : State} {rq : Req} {m port : Nat} {component : Bytes} (h_ : Onward r_ s) : Onward r_ (takeComponent s rq m port component) := h_.trans (takeComponent_onward ..)

theorem componentLoad_onward (rq : Req) (port : Nat) (credential point signature answer : Bytes) (s : State) : Onward s (componentLoad rq port credential point signature answer s) := by
  unfold componentLoad
  repeat' first
    | (with_reducible assumption)
    | (with_reducible refine roleWrite_from _ _ _ _ _ _ _ _ (fun t h => ?_))
    | (with_reducible exact Onward.refl _)
    | (with_reducible apply takeComponent_fwd)
    | (with_reducible apply abandonLoad_fwd)
    | (with_reducible apply toCard_fwd)
    | (with_reducible refine Onward.trans ?_ (cardEphemeral_pair (by assumption)))
    | (with_reducible apply refuse_fwd)
    | (with_reducible refine Onward.trans ?_ (coreDraw_pair (by assumption)))
    | split

theorem componentLoad_fwd {r_ : State} {rq : Req} {port : Nat} {credential point signature answer : Bytes} {s : State} (h_ : Onward r_ s) : Onward r_ (componentLoad rq port credential point signature answer s) := h_.trans (componentLoad_onward ..)

theorem execComponentLoad_onward (rq : Req) (port : Nat) (credential point signature answer : Bytes) (s : State) : ∃ w, execComponentLoad rq port credential point signature answer s = .next w ∧ Onward s w := by
  refine ⟨_, rfl, ?_⟩
  repeat' first
    | (with_reducible exact Onward.refl _)
    | (with_reducible apply componentLoad_fwd)

theorem execComponentLoadTimeout_onward (s : State) : ∃ w, execComponentLoadTimeout s = .next w ∧ Onward s w := by
  refine ⟨_, rfl, ?_⟩
  repeat' first
    | (with_reducible exact Onward.refl _)
    | (with_reducible apply abandonLoad_fwd)
    | split

theorem tier0Destroy_onward (rq : Req) (handle : Nat) (grant : Bytes) (s : State) : Onward s (tier0Destroy rq handle grant s) := by
  unfold tier0Destroy
  repeat' first
    | (with_reducible exact Onward.refl _)
    | (with_reducible refine Onward.trans ?_ (grantWrite_onward _ _ _ _ _ _ _ _ _ _ _ (fun t use => ?_)))
    | (with_reducible apply acceptCommit_fwd)

theorem tier0Destroy_fwd {r_ : State} {rq : Req} {handle : Nat} {grant : Bytes} {s : State} (h_ : Onward r_ s) : Onward r_ (tier0Destroy rq handle grant s) := h_.trans (tier0Destroy_onward ..)

theorem execTier0Destroy_onward (rq : Req) (handle : Nat) (grant : Bytes) (s : State) : ∃ w, execTier0Destroy rq handle grant s = .next w ∧ Onward s w := by
  refine ⟨_, rfl, ?_⟩
  repeat' first
    | (with_reducible exact Onward.refl _)
    | (with_reducible apply tier0Destroy_fwd)

/-! ## Reset -/

theorem clearMain_onward (s : State) (warm : Bool) : Onward s (clearMain s warm) := by
  have h : tsorted s.commit.base.keys.recs = true → tsorted (keysAfterReset s.keys s.commit.base.keys warm).recs = true := by
    intro h
    unfold keysAfterReset
    dsimp only
    exact tsorted_tmap _ _ h
  unfold clearMain
  exact ⟨rfl, Nat.le_refl _, fun _ _ h => h, fun x => ⟨⟨rfl, rfl⟩, rfl, h x.2.2.2, x.2.2.2⟩⟩

theorem clearMain_fwd {r_ : State} {s : State} {warm : Bool} (h_ : Onward r_ s) : Onward r_ (clearMain s warm) := h_.trans (clearMain_onward ..)

theorem burnTo_keeps (t : Tab Nat) (target k b : Nat) (h : (tgetD t k 0).testBit b = true) : (tgetD (burnTo t target) k 0).testBit b = true := by
  unfold burnTo
  generalize List.range (lifeRank target) = l
  induction l generalizing t with
  | nil => exact h
  | cons a l ih => exact ih _ (burn_keeps _ _ _ _ _ h)
theorem completeSlot_onward (s : State) (k : Nat) : Onward s (completeSlot s k) := by
  unfold completeSlot
  dsimp only
  have h1 : Onward s (if drsZeroed (intentTarget (s.otp (8 + 2 * k))) = true then zeroDrs s else s) := by
    split
    · exact zeroDrs_onward ..
    · exact Onward.refl _
  refine h1.trans (otp_onward _ _ _ rfl (fun j b x => ?_))
  dsimp only
  exact burn_keeps _ _ _ _ _ (burnTo_keeps _ _ _ _ x)

theorem completeSlot_fwd {r_ : State} {s : State} {k : Nat} (h_ : Onward r_ s) : Onward r_ (completeSlot s k) := h_.trans (completeSlot_onward ..)

theorem recordVoids_onward (s : State) : Onward s (recordVoids s) := by
  unfold recordVoids
  repeat' first
    | (with_reducible exact Onward.refl _)
    | (with_reducible rfl)
    | (with_reducible apply State.modLife_fwd)
    | (with_reducible apply logMain_fwd)
    | (with_reducible refine Onward.fold ?_ (fun t a => ?_))

theorem recordVoids_fwd {r_ : State} {s : State} (h_ : Onward r_ s) : Onward r_ (recordVoids s) := h_.trans (recordVoids_onward ..)

theorem latchLife_onward (s : State) : Onward s (latchLife s) := by
  unfold latchLife
  dsimp only
  have h : Onward s (if lifeOf s.life.otp ≠ s.life.latched ∧ drsZeroed (lifeOf s.life.otp) = true then
      (s.modLife (fun x => { x with latched := lifeOf s.life.otp })).withBase eraseFor
      else s.modLife (fun x => { x with latched := lifeOf s.life.otp })) := by
    split
    · exact (State.modLife_onward _ _ rfl).trans (State.withBase_onward _ _ (fun b _ => rfl))
    · exact State.modLife_onward _ _ rfl
  split
  · exact h.trans (cocoonAlarm_onward ..)
  · exact h

theorem latchLife_fwd {r_ : State} {s : State} (h_ : Onward r_ s) : Onward r_ (latchLife s) := h_.trans (latchLife_onward ..)

theorem handWake_onward (s : State) : Onward s (handWake s) := by
  unfold handWake
  repeat' first
    | (with_reducible exact Onward.refl _)
    | (with_reducible apply raise_fwd)
    | (with_reducible refine Onward.fold ?_ (fun t a => ?_))
    | (simp only [Onward.upd_eq])

theorem handWake_fwd {r_ : State} {s : State} (h_ : Onward r_ s) : Onward r_ (handWake s) := h_.trans (handWake_onward ..)

theorem newChallenges_onward (s : State) : Onward s (newChallenges s) := by
  unfold newChallenges
  repeat' first
    | (with_reducible exact Onward.refl _)
    | (with_reducible rfl)
    | (with_reducible apply State.modLife_fwd)
    | (with_reducible refine Onward.trans ?_ (draw_onward ..))

theorem newChallenges_fwd {r_ : State} {s : State} (h_ : Onward r_ s) : Onward r_ (newChallenges s) := h_.trans (newChallenges_onward ..)

theorem newSeeds_onward (s : State) : Onward s (newSeeds s) := by
  unfold newSeeds
  generalize List.range 112 = l
  exact Onward.fold (Onward.refl _) (fun t a => (freeNat_onward t).trans (State.modTamper_onward ..))

theorem newSeeds_fwd {r_ : State} {s : State} (h_ : Onward r_ s) : Onward r_ (newSeeds s) := h_.trans (newSeeds_onward ..)

theorem leaveReset_onward (s : State) (again : Bool) (kind source : Nat) (orderly : Bool) (core : Nat) : Onward s (leaveReset s again kind source orderly core) := by
  unfold leaveReset
  repeat' first
    | (with_reducible exact Onward.refl _)
    | (simp only [Onward.upd_eq])

theorem leaveReset_fwd {r_ : State} {s : State} {again : Bool} {kind source : Nat} {orderly : Bool} {core : Nat} (h_ : Onward r_ s) : Onward r_ (leaveReset s again kind source orderly core) := h_.trans (leaveReset_onward ..)

theorem startMain_onward (s0 : State) (kind source : Nat) (orderly : Bool) (core : Nat) : Onward s0 (startMain s0 kind source orderly core) := by
  unfold startMain
  extract_lets s op s3 s4 s5 s6
  have h3 : Onward s0 s3 := recordVoids_fwd (latchLife_fwd (leaveReset_fwd
    (Onward.fold (finishOtp_onward s0) (fun t a => completeSlot_onward ..))))
  have h4 : Onward s0 s4 := logMain_fwd h3
  have h5 : Onward s0 s5 := Onward.fold h4 (fun t a => logMain_onward ..)
  have h6 : Onward s0 s6 := by
    dsimp only [s6]
    split
    · exact componentRecord_fwd h5
    · exact h5
  clear_value s6
  exact newSeeds_fwd (newChallenges_fwd (handWake_fwd (State.modLife_fwd h6 rfl)))

theorem startMain_fwd {r_ : State} {s0 : State} {kind source : Nat} {orderly : Bool} {core : Nat} (h_ : Onward r_ s0) : Onward r_ (startMain s0 kind source orderly core) := h_.trans (startMain_onward ..)

theorem restoreCounts_onward (s : State) : Onward s (restoreCounts s) := by
  unfold restoreCounts
  repeat' first
    | (with_reducible exact Onward.refl _)
    | (simp only [Onward.upd_eq])

theorem restoreCounts_fwd {r_ : State} {s : State} (h_ : Onward r_ s) : Onward r_ (restoreCounts s) := h_.trans (restoreCounts_onward ..)

theorem restoreCocoon_onward (s : State) : Onward s (restoreCocoon s) := by
  unfold restoreCocoon
  repeat' first
    | (with_reducible exact Onward.refl _)
    | (with_reducible apply restoreCounts_fwd)
    | (with_reducible refine Onward.trans ?_ (freeNat_onward ..))
    | (simp only [Onward.upd_eq])

theorem restoreCocoon_fwd {r_ : State} {s : State} (h_ : Onward r_ s) : Onward r_ (restoreCocoon s) := h_.trans (restoreCocoon_onward ..)

theorem backupLost_onward (s : State) : Onward s (backupLost s) := by
  unfold backupLost
  repeat' first
    | (with_reducible exact Onward.refl _)
    | (with_reducible apply cocoonAlarm_fwd)
    | (with_reducible apply logCocoon_fwd)
    | (simp only [Onward.upd_eq])
    | split

theorem backupLost_fwd {r_ : State} {s : State} (h_ : Onward r_ s) : Onward r_ (backupLost s) := h_.trans (backupLost_onward ..)

theorem execMainPowerGood_onward (sramOk : Bool) (s : State) : ∃ w, execMainPowerGood sramOk s = .next w ∧ Onward s w := by
  refine ⟨_, rfl, ?_⟩
  repeat' first
    | (with_reducible exact Onward.refl _)
    | (with_reducible apply backupLost_fwd)
    | (with_reducible apply restoreCocoon_fwd)
    | (with_reducible apply startMain_fwd)
    | (with_reducible apply clearMain_fwd)
    | (with_reducible apply loseSram_fwd)
    | (simp only [Onward.upd_eq])
    | split

theorem mainReset_onward (s : State) (p : PendingReset) (orderly : Bool) : Onward s (mainReset s p orderly) := by
  unfold mainReset
  repeat' first
    | (with_reducible exact Onward.refl _)
    | (with_reducible apply startMain_fwd)
    | (with_reducible apply clearMain_fwd)
    | (simp only [Onward.upd_eq])
    | split

theorem mainReset_fwd {r_ : State} {s : State} {p : PendingReset} {orderly : Bool} (h_ : Onward r_ s) : Onward r_ (mainReset s p orderly) := h_.trans (mainReset_onward ..)

theorem execColdMainReset_onward (s : State) : ∃ w, execColdMainReset s = .next w ∧ Onward s w := by
  refine ⟨_, rfl, ?_⟩
  repeat' first
    | (with_reducible exact Onward.refl _)
    | (with_reducible apply mainReset_fwd)
    | split

theorem execWarmMainReset_onward (s : State) : ∃ w, execWarmMainReset s = .next w ∧ Onward s w := by
  refine ⟨_, rfl, ?_⟩
  repeat' first
    | (with_reducible exact Onward.refl _)
    | (with_reducible apply mainReset_fwd)
    | split

theorem cocoonPart_onward (s : State) : Onward s (cocoonPart s) := by
  unfold cocoonPart
  repeat' first
    | (with_reducible exact Onward.refl _)
    | (with_reducible apply restoreCounts_fwd)
    | (with_reducible apply logMain_fwd)
    | (with_reducible apply flushLog_fwd)
    | (with_reducible apply State.modLooper_fwd)
    | (simp only [Onward.upd_eq])

theorem cocoonPart_fwd {r_ : State} {s : State} (h_ : Onward r_ s) : Onward r_ (cocoonPart s) := h_.trans (cocoonPart_onward ..)

theorem execOrderlyResetEffect_onward (s : State) : ∃ w, execOrderlyResetEffect s = .next w ∧ Onward s w := by
  refine ⟨_, rfl, ?_⟩
  repeat' first
    | (with_reducible exact Onward.refl _)
    | (with_reducible apply cocoonPart_fwd)
    | (with_reducible apply mainReset_fwd)
    | (with_reducible apply startMain_fwd)
    | (with_reducible apply clearMain_fwd)
    | (with_reducible apply flushLog_fwd)
    | split

theorem extendRequest_onward (s : State) (k : Nat) (d : Bytes) : Onward s (extendRequest s k d) := by
  unfold extendRequest
  repeat' first
    | (with_reducible exact Onward.refl _)
    | (with_reducible apply logMain_fwd)
    | (simp only [Onward.upd_eq])
    | split

theorem extendRequest_fwd {r_ : State} {s : State} {k : Nat} {d : Bytes} (h_ : Onward r_ s) : Onward r_ (extendRequest s k d) := h_.trans (extendRequest_onward ..)

theorem extendAll_onward (s : State) : Onward s (extendAll s) := by
  unfold extendAll
  repeat' first
    | (with_reducible exact Onward.refl _)
    | (with_reducible apply extendRequest_fwd)
    | (with_reducible refine Onward.fold ?_ (fun t a => ?_))

theorem extendAll_fwd {r_ : State} {s : State} (h_ : Onward r_ s) : Onward r_ (extendAll s) := h_.trans (extendAll_onward ..)

theorem startTime_onward (s : State) : Onward s (startTime s) := by
  unfold startTime
  repeat' first
    | (with_reducible exact Onward.refl _)
    | (with_reducible apply raise_fwd)
    | (simp only [Onward.upd_eq])
    | split

theorem startTime_fwd {r_ : State} {s : State} (h_ : Onward r_ s) : Onward r_ (startTime s) := h_.trans (startTime_onward ..)

theorem beginFirmware_onward (s : State) : Onward s (beginFirmware s) := by
  unfold beginFirmware
  repeat' first
    | (with_reducible exact Onward.refl _)
    | (with_reducible apply startTime_fwd)
    | (with_reducible apply extendAll_fwd)
    | (with_reducible apply sequenceHeld_fwd)
    | (with_reducible apply reachStop_fwd)
    | (with_reducible apply trainPorts_fwd)
    | (simp only [Onward.upd_eq])

theorem beginFirmware_fwd {r_ : State} {s : State} (h_ : Onward r_ s) : Onward r_ (beginFirmware s) := h_.trans (beginFirmware_onward ..)

theorem reachWithEntropy_onward (s : State) : Onward s (reachWithEntropy s) := by
  unfold reachWithEntropy
  repeat' first
    | (with_reducible exact Onward.refl _)
    | (with_reducible apply reachStop_fwd)
    | split

theorem reachWithEntropy_fwd {r_ : State} {s : State} (h_ : Onward r_ s) : Onward r_ (reachWithEntropy s) := h_.trans (reachWithEntropy_onward ..)

theorem execStopPoint1_onward (s : State) : ∃ w, execStopPoint1 s = .next w ∧ Onward s w := by
  refine ⟨_, rfl, ?_⟩
  repeat' first
    | (with_reducible exact Onward.refl _)
    | (with_reducible apply reachWithEntropy_fwd)
    | (with_reducible apply beginFirmware_fwd)
    | split

theorem State.modBoth_onward (s : State) (p : Nat) (f : Part → Part) : Onward s (State.modBoth s p f) :=
  State.withBase_onward _ _ (fun b h => h)

theorem State.modBoth_fwd {r_ : State} {s : State} {p : Nat} {f : Part → Part} (h_ : Onward r_ s) : Onward r_ (State.modBoth s p f) := h_.trans (State.modBoth_onward ..)

theorem openPart_onward (s : State) (kd : Bytes) (p : Nat) : Onward s (openPart s kd p) := by
  unfold openPart
  repeat' first
    | (with_reducible exact Onward.refl _)
    | (with_reducible apply State.modBoth_fwd)
    | (with_reducible apply raise_fwd)
    | (with_reducible apply logMain_fwd)
    | (with_reducible apply State.modPart_fwd)
    | (simp only [Onward.upd_eq])
    | split

theorem openPart_fwd {r_ : State} {s : State} {kd : Bytes} {p : Nat} (h_ : Onward r_ s) : Onward r_ (openPart s kd p) := h_.trans (openPart_onward ..)

theorem settleMigration_onward (s : State) (pend prev : Bool) : Onward s (settleMigration s pend prev) := by
  unfold settleMigration
  extract_lets m
  split
  · exact Onward.refl _
  · refine Onward.trans ?_ (raise_onward ..)
    refine Onward.trans ?_ (logMain_onward ..)
    exact State.withBase_onward _ _ (fun b h => h)

theorem settleMigration_fwd {r_ : State} {s : State} {pend prev : Bool} (h_ : Onward r_ s) : Onward r_ (settleMigration s pend prev) := h_.trans (settleMigration_onward ..)

theorem commitDurable_onward (s : State) (l : List Change) : Onward s (commitDurable s l) := by
  unfold commitDurable
  split
  rename_i u items h
  have := commitOne_onward (s, []) ⟨[], l, 0, none⟩
  rw [h] at this
  exact Onward.fold this (fun t a => durableItem_onward ..)

theorem commitDurable_fwd {r_ : State} {s : State} {l : List Change} (h_ : Onward r_ s) : Onward r_ (commitDurable s l) := h_.trans (commitDurable_onward ..)

theorem createPart0_onward (s : State) : Onward s (createPart0 s) := by
  unfold createPart0
  repeat' first
    | (with_reducible exact Onward.refl _)
    | (with_reducible apply commitDurable_fwd)
    | (with_reducible refine Onward.trans ?_ (drawSecret_onward ..))
    | split

theorem createPart0_fwd {r_ : State} {s : State} (h_ : Onward r_ s) : Onward r_ (createPart0 s) := h_.trans (createPart0_onward ..)

theorem execKeyStoreLoaded_onward (s : State) : ∃ w, execKeyStoreLoaded s = .next w ∧ Onward s w := by
  refine ⟨_, rfl, ?_⟩
  repeat' first
    | (with_reducible exact Onward.refl _)
    | (with_reducible apply createPart0_fwd)
    | (with_reducible apply settleMigration_fwd)
    | (with_reducible apply openPart_fwd)
    | (with_reducible apply quarantineAs_fwd)
    | (with_reducible apply reachStop_fwd)
    | (with_reducible refine Onward.fold ?_ (fun t a => ?_))
    | (simp only [Onward.upd_eq])
    | (with_reducible apply Onward.recsMap)
    | split

theorem execServiceReady_onward (s : State) : ∃ w, execServiceReady s = .next w ∧ Onward s w := by
  refine ⟨_, rfl, ?_⟩
  repeat' first
    | (with_reducible exact Onward.refl _)
    | (with_reducible apply reachStop_fwd)
    | (with_reducible apply noteService_fwd)
    | (simp only [Onward.upd_eq])
    | split

theorem abortEngines_onward (s : State) : Onward s (abortEngines s) := by
  unfold abortEngines
  repeat' first
    | (with_reducible exact Onward.refl _)
    | (with_reducible apply State.modSlot_fwd)
    | (with_reducible refine Onward.fold ?_ (fun t a => ?_))
    | split

theorem abortEngines_fwd {r_ : State} {s : State} (h_ : Onward r_ s) : Onward r_ (abortEngines s) := h_.trans (abortEngines_onward ..)

theorem execPfail_onward (s : State) : ∃ w, execPfail s = .next w ∧ Onward s w := by
  refine ⟨_, rfl, ?_⟩
  repeat' first
    | (with_reducible exact Onward.refl _)
    | (with_reducible apply abortEngines_fwd)
    | (with_reducible apply closePage_fwd)
    | (with_reducible apply closeCycle_fwd)
    | (with_reducible apply raise_fwd)
    | (simp only [Onward.upd_eq])
    | split

theorem programAll_onward (s : State) : Onward s (programAll s) := by
  unfold programAll
  repeat' first
    | (with_reducible exact Onward.refl _)
    | (with_reducible apply programPage_fwd)
    | (with_reducible refine Onward.fold ?_ (fun t a => ?_))

theorem programAll_fwd {r_ : State} {s : State} (h_ : Onward r_ s) : Onward r_ (programAll s) := h_.trans (programAll_onward ..)

theorem powerOff_onward (s : State) : Onward s (powerOff s) := by
  unfold powerOff
  repeat' first
    | (with_reducible exact Onward.refl _)
    | (with_reducible apply clearMain_fwd)
    | (simp only [Onward.upd_eq])

theorem powerOff_fwd {r_ : State} {s : State} (h_ : Onward r_ s) : Onward r_ (powerOff s) := h_.trans (powerOff_onward ..)

theorem execPfailFlushEnd_onward (us : Nat) (s : State) : ∃ w, execPfailFlushEnd us s = .next w ∧ Onward s w := by
  refine ⟨_, rfl, ?_⟩
  repeat' first
    | (with_reducible exact Onward.refl _)
    | (with_reducible apply powerOff_fwd)
    | (with_reducible apply programAll_fwd)
    | (with_reducible apply logCocoon_fwd)
    | (with_reducible apply flushLog_fwd)
    | (simp only [Onward.upd_eq])
    | split

theorem execAuxiliaryPowerReturn_onward (s : State) : ∃ w, execAuxiliaryPowerReturn s = .next w ∧ Onward s w := by
  refine ⟨_, rfl, ?_⟩
  repeat' first
    | (with_reducible exact Onward.refl _)
    | (simp only [Onward.upd_eq])
    | split

theorem execAuxiliaryPowerLoss_onward (s : State) : ∃ w, execAuxiliaryPowerLoss s = .next w ∧ Onward s w := by
  refine ⟨_, rfl, ?_⟩
  repeat' first
    | (with_reducible exact Onward.refl _)
    | (simp only [Onward.upd_eq])
    | split

theorem powerRequest_onward (rq : Req) (v : Nat) (s : State) : Onward s (powerRequest rq v s) := by
  unfold powerRequest
  repeat' first
    | (with_reducible exact Onward.refl _)
    | (with_reducible apply disableAll_fwd)
    | (with_reducible refine Onward.trans ?_ (roleWrite_onward _ _ _ _ _ _ _ _ (fun t => ?_)))
    | (with_reducible apply releaseCollar_fwd)
    | (with_reducible apply noteFunctions_fwd)
    | (with_reducible apply noteService_fwd)
    | (simp only [Onward.upd_eq])

theorem powerRequest_fwd {r_ : State} {rq : Req} {v : Nat} {s : State} (h_ : Onward r_ s) : Onward r_ (powerRequest rq v s) := h_.trans (powerRequest_onward ..)

theorem execPowerRequest_onward (rq : Req) (v : Nat) (s : State) : ∃ w, execPowerRequest rq v s = .next w ∧ Onward s w := by
  refine ⟨_, rfl, ?_⟩
  repeat' first
    | (with_reducible exact Onward.refl _)
    | (with_reducible apply powerRequest_fwd)

theorem continueStandby_onward (s : State) : Onward s (continueStandby s) := by
  unfold continueStandby
  repeat' first
    | (with_reducible exact Onward.refl _)
    | (with_reducible apply clearMain_fwd)
    | (with_reducible apply acceptNow_fwd)
    | (with_reducible apply flushLog_fwd)
    | (simp only [Onward.upd_eq])
    | split

theorem continueStandby_fwd {r_ : State} {s : State} (h_ : Onward r_ s) : Onward r_ (continueStandby s) := h_.trans (continueStandby_onward ..)

theorem resetRequest_onward (rq : Req) (kind : Nat) (ser : Bytes) (s : State) : Onward s (resetRequest rq kind ser s) := by
  unfold resetRequest
  repeat' first
    | (with_reducible exact Onward.refl _)
    | (with_reducible apply orderlyReset_fwd)
    | (with_reducible refine Onward.trans ?_ (serveWrite_onward _ _ _ _ _ _ _ _ (fun t => ?_)))
    | (with_reducible apply acceptNow_fwd)
    | (with_reducible apply refuse_fwd)
    | split

theorem resetRequest_fwd {r_ : State} {rq : Req} {kind : Nat} {ser : Bytes} {s : State} (h_ : Onward r_ s) : Onward r_ (resetRequest rq kind ser s) := h_.trans (resetRequest_onward ..)

theorem execResetRequest_onward (rq : Req) (kind : Nat) (serial : Bytes) (s : State) : ∃ w, execResetRequest rq kind serial s = .next w ∧ Onward s w := by
  refine ⟨_, rfl, ?_⟩
  repeat' first
    | (with_reducible exact Onward.refl _)
    | (with_reducible apply resetRequest_fwd)

theorem seamReset_onward (rq : Req) (v grant : Bytes) (s : State) : Onward s (seamReset rq v grant s) := by
  unfold seamReset
  repeat' first
    | (with_reducible exact Onward.refl _)
    | (with_reducible apply orderlyReset_fwd)
    | (with_reducible refine Onward.trans ?_ (serveWrite_onward _ _ _ _ _ _ _ _ (fun t => ?_)))
    | (with_reducible apply commitQuietly_fwd)
    | (with_reducible apply acceptNow_fwd)
    | (with_reducible apply refuse_fwd)
    | split

theorem seamReset_fwd {r_ : State} {rq : Req} {v grant : Bytes} {s : State} (h_ : Onward r_ s) : Onward r_ (seamReset rq v grant s) := h_.trans (seamReset_onward ..)

theorem execSeamResetCommand_onward (rq : Req) (value grant : Bytes) (s : State) : ∃ w, execSeamResetCommand rq value grant s = .next w ∧ Onward s w := by
  refine ⟨_, rfl, ?_⟩
  repeat' first
    | (with_reducible exact Onward.refl _)
    | (with_reducible apply seamReset_fwd)

theorem cocoonResetWrite_onward (rq : Req) (v : Nat) (passes : Bool) (grant : Bytes) (s : State) : Onward s (cocoonResetWrite rq v passes grant s) := by
  unfold cocoonResetWrite
  repeat' first
    | (with_reducible exact Onward.refl _)
    | (with_reducible apply orderlyReset_fwd)
    | (with_reducible refine Onward.trans ?_ (grantWrite_onward _ _ _ _ _ _ _ _ _ _ _ (fun t use => ?_)))
    | (with_reducible apply acceptUse_fwd)
    | split

theorem cocoonResetWrite_fwd {r_ : State} {rq : Req} {v : Nat} {passes : Bool} {grant : Bytes} {s : State} (h_ : Onward r_ s) : Onward r_ (cocoonResetWrite rq v passes grant s) := h_.trans (cocoonResetWrite_onward ..)

theorem execCocoonReset_onward (rq : Req) (v : Nat) (passes : Bool) (grant : Bytes) (s : State) : ∃ w, execCocoonReset rq v passes grant s = .next w ∧ Onward s w := by
  refine ⟨_, rfl, ?_⟩
  repeat' first
    | (with_reducible exact Onward.refl _)
    | (with_reducible apply cocoonResetWrite_fwd)

theorem enterBlock_onward (s : State) (cls u : Nat) : Onward s (enterBlock s cls u) := by
  unfold enterBlock
  repeat' first
    | (with_reducible exact Onward.refl _)
    | (with_reducible apply askOnce_fwd)
    | (with_reducible apply State.modPlume_fwd)
    | (with_reducible apply State.modEngine_fwd)
    | (with_reducible apply State.modHash_fwd)
    | (with_reducible apply State.modLane_fwd)
    | split

theorem enterBlock_fwd {r_ : State} {s : State} {cls u : Nat} (h_ : Onward r_ s) : Onward r_ (enterBlock s cls u) := h_.trans (enterBlock_onward ..)

theorem setBlock_onward (s : State) (res cls u : Nat) (rq : Option Req) : Onward s (setBlock s res cls u rq) := by
  unfold setBlock
  repeat' first
    | (with_reducible exact Onward.refl _)
    | (simp only [Onward.upd_eq])

theorem setBlock_fwd {r_ : State} {s : State} {res cls u : Nat} {rq : Option Req} (h_ : Onward r_ s) : Onward r_ (setBlock s res cls u rq) := h_.trans (setBlock_onward ..)

theorem blockRecord_onward (s : State) (u res : Nat) : Onward s (blockRecord s u res) := by
  unfold blockRecord
  repeat' first
    | (with_reducible exact Onward.refl _)
    | (with_reducible apply logMain_fwd)

theorem blockRecord_fwd {r_ : State} {s : State} {u res : Nat} (h_ : Onward r_ s) : Onward r_ (blockRecord s u res) := h_.trans (blockRecord_onward ..)

theorem blockReset_onward (rq : Req) (cls u : Nat) (s : State) : Onward s (blockReset rq cls u s) := by
  unfold blockReset
  repeat' first
    | (with_reducible exact Onward.refl _)
    | (with_reducible apply blockRecord_fwd)
    | (with_reducible apply setBlock_fwd)
    | (with_reducible apply enterBlock_fwd)
    | (with_reducible refine Onward.trans ?_ (roleWrite_onward _ _ _ _ _ _ _ _ (fun t => ?_)))
    | (with_reducible apply refuse_fwd)
    | split

theorem blockReset_fwd {r_ : State} {rq : Req} {cls u : Nat} {s : State} (h_ : Onward r_ s) : Onward r_ (blockReset rq cls u s) := h_.trans (blockReset_onward ..)

theorem execBlockReset_onward (rq : Req) (cls unit : Nat) (s : State) : ∃ w, execBlockReset rq cls unit s = .next w ∧ Onward s w := by
  refine ⟨_, rfl, ?_⟩
  repeat' first
    | (with_reducible exact Onward.refl _)
    | (with_reducible apply blockReset_fwd)

theorem leaveBlock_onward (s : State) (cls u : Nat) (pass : Bool) : Onward s (leaveBlock s cls u pass) := by
  unfold leaveBlock
  repeat' first
    | (with_reducible exact Onward.refl _)
    | (with_reducible apply goIdle_fwd)
    | (with_reducible apply goOffline_fwd)
    | (with_reducible apply State.modHash_fwd)
    | (with_reducible apply State.modLane_fwd)
    | split

theorem leaveBlock_fwd {r_ : State} {s : State} {cls u : Nat} {pass : Bool} (h_ : Onward r_ s) : Onward r_ (leaveBlock s cls u pass) := h_.trans (leaveBlock_onward ..)

theorem execBlockResetDone_onward (pass : Bool) (s : State) : ∃ w, execBlockResetDone pass s = .next w ∧ Onward s w := by
  refine ⟨_, rfl, ?_⟩
  repeat' first
    | (with_reducible exact Onward.refl _)
    | (with_reducible apply leaveBlock_fwd)
    | (with_reducible apply blockRecord_fwd)
    | (with_reducible apply setBlock_fwd)
    | (with_reducible apply acceptNow_fwd)
    | (with_reducible apply refuse_fwd)
    | split

end Sys2Proof.Machine
end

