-- ==== Sys2Proof/Laws/OnwardPair.lean ====
section
/-! SUPPORT. No operation of a group takes back what `Onward` keeps: the seam, the pair, telemetry, the service of operational data and the raw operations. -/

set_option linter.unreachableTactic false
set_option linter.unusedTactic false

namespace Sys2Proof.Machine

/-! ## Seam -/

theorem State.modSeam_onward (s : State) (f : Seam → Seam) : Onward s (State.modSeam s f) := by
  unfold State.modSeam
  repeat' first
    | (with_reducible exact Onward.refl _)
    | (simp only [Onward.upd_eq])

theorem State.modSeam_fwd {r_ : State} {s : State} {f : Seam → Seam} (h_ : Onward r_ s) : Onward r_ (State.modSeam s f) := h_.trans (State.modSeam_onward ..)

theorem linkKey_onward (s : State) (peer : Bytes) : Onward s (linkKey s peer).2 := by
  unfold linkKey
  repeat' first
    | (with_reducible exact Onward.refl _)
    | (with_reducible refine Onward.trans ?_ (draw_onward ..))
theorem linkKey_pair {s : State} {peer : Bytes} {u : Bytes} {v : State} (h_ : linkKey s peer = (u, v)) : Onward s v := by
  have := linkKey_onward s peer
  rwa [h_] at this

theorem linkUp_onward (s : State) (port pos steps : Nat) (peer : Bytes) : Onward s (linkUp s port pos steps peer) := by
  unfold linkUp
  repeat' first
    | (with_reducible exact Onward.refl _)
    | (with_reducible refine Onward.trans ?_ (linkKey_onward ..))
    | (with_reducible apply State.modPort_fwd)

theorem linkUp_fwd {r_ : State} {s : State} {port pos steps : Nat} {peer : Bytes} (h_ : Onward r_ s) : Onward r_ (linkUp s port pos steps peer) := h_.trans (linkUp_onward ..)

theorem startPull_onward (s : State) (port : Nat) : Onward s (startPull s port) := by
  unfold startPull
  repeat' first
    | (with_reducible exact Onward.refl _)
    | (with_reducible apply State.modSeam_fwd)
    | (with_reducible apply quarantineAs_fwd)

theorem startPull_fwd {r_ : State} {s : State} {port : Nat} (h_ : Onward r_ s) : Onward r_ (startPull s port) := h_.trans (startPull_onward ..)

theorem execSeamLinkUp_onward (port peerPosition peerPair peerMember : Nat) (peerCluster peerSerial peerPartner : Bytes) (chainsOk inService : Bool) (s : State) : ∃ w, execSeamLinkUp port peerPosition peerPair peerMember peerCluster peerSerial peerPartner chainsOk inService s = .next w ∧ Onward s w := by
  refine ⟨_, rfl, ?_⟩
  repeat' first
    | (with_reducible exact Onward.refl _)
    | (with_reducible apply startPull_fwd)
    | (with_reducible apply linkUp_fwd)
    | (with_reducible apply sendLink_fwd)
    | (with_reducible apply State.modPort_fwd)
    | (simp only [Onward.upd_eq])
    | split

theorem execSeamLinkDown_onward (port : Nat) (s : State) : ∃ w, execSeamLinkDown port s = .next w ∧ Onward s w := by
  refine ⟨_, rfl, ?_⟩
  repeat' first
    | (with_reducible exact Onward.refl _)
    | (with_reducible apply linkLost_fwd)

theorem execSeamFrameRefused_onward (port linkSeq : Nat) (s : State) : ∃ w, execSeamFrameRefused port linkSeq s = .next w ∧ Onward s w := by
  refine ⟨_, rfl, ?_⟩
  repeat' first
    | (with_reducible exact Onward.refl _)
    | (with_reducible apply linkLost_fwd)
    | (with_reducible apply State.modPort_fwd)
    | (simp only [Onward.upd_eq])
    | split

theorem received_onward (s : State) (port : Nat) : Onward s (received s port) := by
  unfold received
  repeat' first
    | (with_reducible exact Onward.refl _)
    | (with_reducible apply State.modPort_fwd)

theorem received_fwd {r_ : State} {s : State} {port : Nat} (h_ : Onward r_ s) : Onward r_ (received s port) := h_.trans (received_onward ..)

theorem relayStamp_onward (s : State) (inPort cls stamp : Nat) : Onward s (relayStamp s inPort cls stamp).2 := by
  unfold relayStamp
  repeat' first
    | (with_reducible exact Onward.refl _)
    | (with_reducible refine Onward.trans ?_ (freeNat_pair (by assumption)))
    | split
theorem relayStamp_pair {s : State} {inPort cls stamp : Nat} {u : Nat} {v : State} (h_ : relayStamp s inPort cls stamp = (u, v)) : Onward s v := by
  have := relayStamp_onward s inPort cls stamp
  rwa [h_] at this

theorem execSeamFrameRelay_onward (inPort dest src cls hops flowSeq stamp : Nat) (payload : Bytes) (s : State) : ∃ w, execSeamFrameRelay inPort dest src cls hops flowSeq stamp payload s = .next w ∧ Onward s w := by
  refine ⟨_, rfl, ?_⟩
  repeat' first
    | (with_reducible exact Onward.refl _)
    | (with_reducible refine Onward.trans ?_ (relayStamp_pair (by assumption)))
    | (with_reducible apply received_fwd)
    | (with_reducible apply State.modSeam_fwd)
    | (with_reducible apply sendOn_fwd)
    | (with_reducible refine Onward.fold ?_ (fun t a => ?_))
    | split

theorem execKeepAliveSend_onward (port : Nat) (s : State) : ∃ w, execKeepAliveSend port s = .next w ∧ Onward s w := by
  refine ⟨_, rfl, ?_⟩
  repeat' first
    | (with_reducible exact Onward.refl _)
    | (with_reducible apply sendLink_fwd)
    | split

theorem execSeamResendTimeout_onward (port : Nat) (s : State) : ∃ w, execSeamResendTimeout port s = .next w ∧ Onward s w := by
  refine ⟨_, rfl, ?_⟩
  repeat' first
    | (with_reducible exact Onward.refl _)
    | (with_reducible apply sendOn_fwd)
    | (with_reducible refine Onward.fold ?_ (fun t a => ?_))
    | split

theorem execSeamLinkRekey_onward (port : Nat) (s : State) : ∃ w, execSeamLinkRekey port s = .next w ∧ Onward s w := by
  refine ⟨_, rfl, ?_⟩
  repeat' first
    | (with_reducible exact Onward.refl _)
    | (with_reducible refine Onward.trans ?_ (linkKey_onward ..))
    | (with_reducible apply State.modPort_fwd)
    | split

theorem execSeamLinkFrameReceive_onward (port linkAck : Nat) (credits : List Nat) (wrap : Bool) (s : State) : ∃ w, execSeamLinkFrameReceive port linkAck credits wrap s = .next w ∧ Onward s w := by
  refine ⟨_, rfl, ?_⟩
  repeat' first
    | (with_reducible exact Onward.refl _)
    | (with_reducible apply received_fwd)
    | (with_reducible apply State.modSeam_fwd)
    | (with_reducible apply pumpAll_fwd)
    | (with_reducible apply State.modPort_fwd)
    | split

theorem execLinkDelayMeasure_onward (port delay : Nat) (s : State) : ∃ w, execLinkDelayMeasure port delay s = .next w ∧ Onward s w := by
  refine ⟨_, rfl, ?_⟩
  repeat' first
    | (with_reducible exact Onward.refl _)
    | (with_reducible apply State.modPort_fwd)
    | split

theorem setUnsynced_onward (s : State) (v : Bool) : Onward s (setUnsynced s v) := by
  unfold setUnsynced
  repeat' first
    | (with_reducible exact Onward.refl _)
    | (with_reducible apply State.modSeam_fwd)
    | (with_reducible apply raise_fwd)
    | (with_reducible apply logMain_fwd)
    | split

theorem setUnsynced_fwd {r_ : State} {s : State} {v : Bool} (h_ : Onward r_ s) : Onward r_ (setUnsynced s v) := h_.trans (setUnsynced_onward ..)

theorem execSyncBroadcast_onward (s : State) : ∃ w, execSyncBroadcast s = .next w ∧ Onward s w := by
  refine ⟨_, rfl, ?_⟩
  repeat' first
    | (with_reducible exact Onward.refl _)
    | (with_reducible apply broadcast_fwd)
    | split

theorem applySync_onward (s : State) (masterTime : Nat) (masterUnsynced : Bool) : Onward s (applySync s masterTime masterUnsynced) := by
  unfold applySync
  repeat' first
    | (with_reducible exact Onward.refl _)
    | (with_reducible apply setUnsynced_fwd)
    | (with_reducible apply State.modSeam_fwd)
    | (simp only [Onward.upd_eq])
    | split

theorem applySync_fwd {r_ : State} {s : State} {masterTime : Nat} {masterUnsynced : Bool} (h_ : Onward r_ s) : Onward r_ (applySync s masterTime masterUnsynced) := h_.trans (applySync_onward ..)

theorem execSyncReceive_onward (src masterTime : Nat) (masterUnsynced : Bool) (s : State) : ∃ w, execSyncReceive src masterTime masterUnsynced s = .next w ∧ Onward s w := by
  refine ⟨_, rfl, ?_⟩
  repeat' first
    | (with_reducible exact Onward.refl _)
    | (with_reducible apply applySync_fwd)
    | (with_reducible apply State.modSeam_fwd)
    | (simp only [Onward.upd_eq])
    | split

theorem execTimeSyncClear_onward (s : State) : ∃ w, execTimeSyncClear s = .next w ∧ Onward s w := by
  refine ⟨_, rfl, ?_⟩
  repeat' first
    | (with_reducible exact Onward.refl _)
    | (with_reducible apply setUnsynced_fwd)
    | (with_reducible apply State.modSeam_fwd)
    | split

theorem execDriftBoundExceeded_onward (s : State) : ∃ w, execDriftBoundExceeded s = .next w ∧ Onward s w := by
  refine ⟨_, rfl, ?_⟩
  repeat' first
    | (with_reducible exact Onward.refl _)
    | (with_reducible apply setUnsynced_fwd)
    | (with_reducible apply State.modSeam_fwd)
    | (simp only [Onward.upd_eq])
    | split

theorem setMasterTime_onward (s : State) (v : Nat) : Onward s (setMasterTime s v) := by
  unfold setMasterTime
  repeat' first
    | (with_reducible exact Onward.refl _)
    | (with_reducible apply setUnsynced_fwd)
    | (with_reducible apply State.modSeam_fwd)
    | (simp only [Onward.upd_eq])

theorem setMasterTime_fwd {r_ : State} {s : State} {v : Nat} (h_ : Onward r_ s) : Onward r_ (setMasterTime s v) := h_.trans (setMasterTime_onward ..)

theorem clusterTimeWrite_onward (rq : Req) (v : Nat) (grant : Bytes) (s : State) : Onward s (clusterTimeWrite rq v grant s) := by
  unfold clusterTimeWrite
  repeat' first
    | (with_reducible exact Onward.refl _)
    | (with_reducible apply setMasterTime_fwd)
    | (with_reducible refine Onward.trans ?_ (grantWrite_onward _ _ _ _ _ _ _ _ _ _ _ (fun t use => ?_)))
    | (with_reducible apply acceptUse_fwd)
    | (with_reducible apply sendTo_fwd)
    | (simp only [Onward.upd_eq])
    | split

theorem clusterTimeWrite_fwd {r_ : State} {rq : Req} {v : Nat} {grant : Bytes} {s : State} (h_ : Onward r_ s) : Onward r_ (clusterTimeWrite rq v grant s) := h_.trans (clusterTimeWrite_onward ..)

theorem execClusterTimeWrite_onward (rq : Req) (v : Nat) (grant : Bytes) (s : State) : ∃ w, execClusterTimeWrite rq v grant s = .next w ∧ Onward s w := by
  refine ⟨_, rfl, ?_⟩
  repeat' first
    | (with_reducible exact Onward.refl _)
    | (with_reducible apply clusterTimeWrite_fwd)

theorem execMasterElection_onward (s : State) : ∃ w, execMasterElection s = .next w ∧ Onward s w := by
  refine ⟨_, rfl, ?_⟩
  repeat' first
    | (with_reducible exact Onward.refl _)
    | (with_reducible apply setUnsynced_fwd)
    | (with_reducible apply State.modSeam_fwd)
    | (simp only [Onward.upd_eq])
    | split

theorem clusterEntryWrite_onward (rq : Req) (idx sub : Nat) (v grant : Bytes) (s : State) : Onward s (clusterEntryWrite rq idx sub v grant s) := by
  unfold clusterEntryWrite
  repeat' first
    | (with_reducible exact Onward.refl _)
    | (with_reducible apply grantConfig_fwd)

theorem clusterEntryWrite_fwd {r_ : State} {rq : Req} {idx sub : Nat} {v grant : Bytes} {s : State} (h_ : Onward r_ s) : Onward r_ (clusterEntryWrite rq idx sub v grant s) := h_.trans (clusterEntryWrite_onward ..)

theorem configEntryWrite_onward (rq : Req) (idx sub : Nat) (v grant : Bytes) (s : State) : Onward s (configEntryWrite rq idx sub v grant s) := by
  unfold configEntryWrite
  repeat' first
    | (with_reducible exact Onward.refl _)
    | (with_reducible apply clusterEntryWrite_fwd)
    | (with_reducible apply memberWrite_fwd)
    | (with_reducible apply policyWrite_fwd)
    | split

theorem configEntryWrite_fwd {r_ : State} {rq : Req} {idx sub : Nat} {v grant : Bytes} {s : State} (h_ : Onward r_ s) : Onward r_ (configEntryWrite rq idx sub v grant s) := h_.trans (configEntryWrite_onward ..)

theorem execConfigWrite_onward (rq : Req) (idx sub : Nat) (v grant : Bytes) (s : State) : ∃ w, execConfigWrite rq idx sub v grant s = .next w ∧ Onward s w := by
  refine ⟨_, rfl, ?_⟩
  repeat' first
    | (with_reducible exact Onward.refl _)
    | (with_reducible apply configEntryWrite_fwd)

theorem settleConflict_onward (s : State) : Onward s (settleConflict s) := by
  unfold settleConflict
  repeat' first
    | (with_reducible exact Onward.refl _)
    | (with_reducible apply State.modSeam_fwd)
    | (with_reducible apply stepEpoch_fwd)
    | (with_reducible apply quarantineAs_fwd)

theorem settleConflict_fwd {r_ : State} {s : State} (h_ : Onward r_ s) : Onward r_ (settleConflict s) := h_.trans (settleConflict_onward ..)

theorem forwardedWrite_onward (s : State) (e : Nat × Nat × Bytes) : Onward s (forwardedWrite s e) := by
  unfold forwardedWrite
  repeat' first
    | (with_reducible exact Onward.refl _)
    | (with_reducible apply settleConflict_fwd)
    | (with_reducible apply setMasterTime_fwd)
    | (with_reducible apply stepEpoch_fwd)
    | split

theorem forwardedWrite_fwd {r_ : State} {s : State} {e : Nat × Nat × Bytes} (h_ : Onward r_ s) : Onward r_ (forwardedWrite s e) := h_.trans (forwardedWrite_onward ..)

theorem answerWriters_onward (s : State) (e : Option (Nat × Nat × Bytes)) : Onward s (answerWriters s e) := by
  unfold answerWriters
  repeat' first
    | (with_reducible exact Onward.refl _)
    | (with_reducible apply acceptNow_fwd)
    | (simp only [Onward.upd_eq])
    | split

theorem answerWriters_fwd {r_ : State} {s : State} {e : Option (Nat × Nat × Bytes)} (h_ : Onward r_ s) : Onward r_ (answerWriters s e) := h_.trans (answerWriters_onward ..)

theorem applyNext_onward (s : State) (port : Nat) (c : CfgChange) : Onward s (applyNext s port c) := by
  unfold applyNext
  repeat' first
    | (with_reducible exact Onward.refl _)
    | (with_reducible apply answerWriters_fwd)
    | (with_reducible apply startPull_fwd)
    | (with_reducible apply checkVersion_fwd)
    | (with_reducible apply adopt_fwd)
    | (with_reducible apply sendLink_fwd)
    | (with_reducible apply raise_fwd)
    | (with_reducible refine Onward.fold ?_ (fun t a => ?_))
    | (simp only [Onward.upd_eq])
    | split

theorem applyNext_fwd {r_ : State} {s : State} {port : Nat} {c : CfgChange} (h_ : Onward r_ s) : Onward r_ (applyNext s port c) := h_.trans (applyNext_onward ..)

theorem execConfigChangeReceive_onward (port : Nat) (c : CfgChange) (s : State) : ∃ w, execConfigChangeReceive port c s = .next w ∧ Onward s w := by
  refine ⟨_, rfl, ?_⟩
  repeat' first
    | (with_reducible exact Onward.refl _)
    | (with_reducible apply applyNext_fwd)
    | (with_reducible apply forwardedWrite_fwd)
    | (with_reducible apply startPull_fwd)
    | (with_reducible apply State.modSeam_fwd)
    | (with_reducible apply quarantineAs_fwd)
    | (with_reducible apply sendLink_fwd)
    | split

theorem execConfigPull_onward (port : Nat) (s : State) : ∃ w, execConfigPull port s = .next w ∧ Onward s w := by
  refine ⟨_, rfl, ?_⟩
  repeat' first
    | (with_reducible exact Onward.refl _)
    | (with_reducible apply State.modSeam_fwd)
    | (with_reducible apply sendLink_fwd)
    | split

theorem takeConfig_onward (s : State) (epoch : Nat) (entries : List (Nat × Nat × Bytes)) : Onward s (takeConfig s epoch entries) := by
  unfold takeConfig
  repeat' first
    | (with_reducible exact Onward.refl _)
    | (with_reducible refine State.withBase_fwd ?_ (fun b h => h))
    | (with_reducible apply dropMemberSessions_fwd)
    | (with_reducible refine Onward.fold ?_ (fun t a => ?_))
    | split

theorem takeConfig_fwd {r_ : State} {s : State} {epoch : Nat} {entries : List (Nat × Nat × Bytes)} (h_ : Onward r_ s) : Onward r_ (takeConfig s epoch entries) := h_.trans (takeConfig_onward ..)

theorem discardedRecords_onward (s t : State) : Onward t (discardedRecords s t) := by
  unfold discardedRecords
  repeat' first
    | (with_reducible exact Onward.refl _)
    | (with_reducible apply logMain_fwd)
    | (with_reducible refine Onward.fold ?_ (fun t a => ?_))
    | split

theorem discardedRecords_fwd {r_ : State} {s t : State} (h_ : Onward r_ t) : Onward r_ (discardedRecords s t) := h_.trans (discardedRecords_onward ..)

theorem execConfigPullDone_onward (epoch : Nat) (digest : Bytes) (entries : List (Nat × Nat × Bytes)) (s : State) : ∃ w, execConfigPullDone epoch digest entries s = .next w ∧ Onward s w := by
  refine ⟨_, rfl, ?_⟩
  repeat' first
    | (with_reducible exact Onward.refl _)
    | (with_reducible apply discardedRecords_fwd)
    | (with_reducible apply takeConfig_fwd)
    | (with_reducible apply State.modSeam_fwd)
    | (with_reducible apply checkVersion_fwd)
    | (with_reducible apply quarantineAs_fwd)
    | (with_reducible apply raise_fwd)
    | (simp only [Onward.upd_eq])
    | split

theorem decisionWrite_onward (rq : Req) (v grant : Bytes) (s : State) : Onward s (decisionWrite rq v grant s) := by
  unfold decisionWrite
  repeat' first
    | (with_reducible exact Onward.refl _)
    | (with_reducible apply settleConflict_fwd)
    | (with_reducible refine Onward.trans ?_ (grantWrite_onward _ _ _ _ _ _ _ _ _ _ _ (fun t use => ?_)))
    | (with_reducible apply acceptUse_fwd)
    | (with_reducible apply sendLink_fwd)
    | (with_reducible refine Onward.fold ?_ (fun t a => ?_))
    | (simp only [Onward.upd_eq])
    | split

theorem decisionWrite_fwd {r_ : State} {rq : Req} {v grant : Bytes} {s : State} (h_ : Onward r_ s) : Onward r_ (decisionWrite rq v grant s) := h_.trans (decisionWrite_onward ..)

theorem execDecisionWrite_onward (rq : Req) (v grant : Bytes) (s : State) : ∃ w, execDecisionWrite rq v grant s = .next w ∧ Onward s w := by
  refine ⟨_, rfl, ?_⟩
  repeat' first
    | (with_reducible exact Onward.refl _)
    | (with_reducible apply decisionWrite_fwd)

/-! ## Pair -/

theorem State.modPair_onward (s : State) (f : Pair → Pair) : Onward s (State.modPair s f) := by
  unfold State.modPair
  repeat' first
    | (with_reducible exact Onward.refl _)
    | (simp only [Onward.upd_eq])

theorem State.modPair_fwd {r_ : State} {s : State} {f : Pair → Pair} (h_ : Onward r_ s) : Onward r_ (State.modPair s f) := h_.trans (State.modPair_onward ..)

theorem execHeartbeatSend_onward (s : State) : ∃ w, execHeartbeatSend s = .next w ∧ Onward s w := by
  refine ⟨_, rfl, ?_⟩
  repeat' first
    | (with_reducible exact Onward.refl _)
    | (with_reducible apply State.modPair_fwd)
    | (with_reducible apply sendLink_fwd)
    | (with_reducible apply sendTo_fwd)
    | (simp only [Onward.upd_eq])
    | split

theorem sendToken_onward (s : State) (pair : Nat) (r : Referee) : Onward s (sendToken s pair r) := by
  unfold sendToken
  repeat' first
    | (with_reducible exact Onward.refl _)
    | (with_reducible refine Onward.trans ?_ (draw_onward ..))
    | (simp only [Onward.upd_eq])

theorem sendToken_fwd {r_ : State} {s : State} {pair : Nat} {r : Referee} (h_ : Onward r_ s) : Onward r_ (sendToken s pair r) := h_.trans (sendToken_onward ..)

theorem decideToken_onward (s : State) (pair : Nat) (r : Referee) (race : Bool) : Onward s (decideToken s pair r race) := by
  unfold decideToken
  repeat' first
    | (with_reducible exact Onward.refl _)
    | (with_reducible apply sendToken_fwd)
    | (with_reducible apply State.modPair_fwd)

theorem decideToken_fwd {r_ : State} {s : State} {pair : Nat} {r : Referee} {race : Bool} (h_ : Onward r_ s) : Onward r_ (decideToken s pair r race) := h_.trans (decideToken_onward ..)

theorem refereeHears_onward (s : State) (h : Heartbeat) : Onward s (refereeHears s h) := by
  unfold refereeHears
  repeat' first
    | (with_reducible exact Onward.refl _)
    | (with_reducible apply decideToken_fwd)
    | (simp only [Onward.upd_eq])
    | split

theorem refereeHears_fwd {r_ : State} {s : State} {h : Heartbeat} (h_ : Onward r_ s) : Onward r_ (refereeHears s h) := h_.trans (refereeHears_onward ..)

theorem execHeartbeatReceive_onward (h : Heartbeat) (s : State) : ∃ w, execHeartbeatReceive h s = .next w ∧ Onward s w := by
  refine ⟨_, rfl, ?_⟩
  repeat' first
    | (with_reducible exact Onward.refl _)
    | (with_reducible apply refereeHears_fwd)
    | (with_reducible apply State.modPair_fwd)
    | split

theorem execArbiterHeartbeatTimeout_onward (pair member : Nat) (s : State) : ∃ w, execArbiterHeartbeatTimeout pair member s = .next w ∧ Onward s w := by
  refine ⟨_, rfl, ?_⟩
  repeat' first
    | (with_reducible exact Onward.refl _)
    | (with_reducible apply decideToken_fwd)
    | split

theorem newArbChallenge_onward (s : State) : Onward s (newArbChallenge s) := by
  unfold newArbChallenge
  repeat' first
    | (with_reducible exact Onward.refl _)
    | (with_reducible apply State.modPair_fwd)
    | (with_reducible refine Onward.trans ?_ (draw_onward ..))

theorem newArbChallenge_fwd {r_ : State} {s : State} (h_ : Onward r_ s) : Onward r_ (newArbChallenge s) := h_.trans (newArbChallenge_onward ..)

theorem openArbiter_onward (s : State) (point signature : Bytes) (refereeOk : Bool) : Onward s (openArbiter s point signature refereeOk) := by
  unfold openArbiter
  repeat' first
    | (with_reducible exact Onward.refl _)
    | (with_reducible apply newArbChallenge_fwd)
    | (with_reducible apply State.modPair_fwd)
    | (with_reducible refine Onward.trans ?_ (draw_onward ..))
    | split

theorem openArbiter_fwd {r_ : State} {s : State} {point signature : Bytes} {refereeOk : Bool} (h_ : Onward r_ s) : Onward r_ (openArbiter s point signature refereeOk) := h_.trans (openArbiter_onward ..)

theorem execArbOpen_onward (point signature : Bytes) (refereeOk : Bool) (s : State) : ∃ w, execArbOpen point signature refereeOk s = .next w ∧ Onward s w := by
  refine ⟨_, rfl, ?_⟩
  repeat' first
    | (with_reducible exact Onward.refl _)
    | (with_reducible apply openArbiter_fwd)
    | split

theorem holdToken_onward (s : State) (v : Bool) : Onward s (holdToken s v) := by
  unfold holdToken
  repeat' first
    | (with_reducible exact Onward.refl _)
    | (with_reducible apply State.modPair_fwd)
    | (with_reducible apply dropCollar_fwd)
    | (with_reducible apply noteService_fwd)
    | (with_reducible apply raise_fwd)
    | (simp only [Onward.upd_eq])
    | split

theorem holdToken_fwd {r_ : State} {s : State} {v : Bool} (h_ : Onward r_ s) : Onward r_ (holdToken s v) := h_.trans (holdToken_onward ..)

theorem execArbSessionTimeout_onward (s : State) : ∃ w, execArbSessionTimeout s = .next w ∧ Onward s w := by
  refine ⟨_, rfl, ?_⟩
  repeat' first
    | (with_reducible exact Onward.refl _)
    | (with_reducible apply holdToken_fwd)
    | (with_reducible apply newArbChallenge_fwd)
    | (with_reducible apply State.modPair_fwd)
    | split

theorem enterSolo_onward (s : State) : Onward s (enterSolo s) := by
  unfold enterSolo
  exact Onward.upd (State.modPair_onward ..) (Nat.le_refl _) rfl rfl rfl rfl rfl rfl

theorem enterSolo_fwd {r_ : State} {s : State} (h_ : Onward r_ s) : Onward r_ (enterSolo s) := h_.trans (enterSolo_onward ..)

theorem tokenSolo_onward (s : State) (t : Token) : Onward s (tokenSolo s t) := by
  unfold tokenSolo
  repeat' first
    | (with_reducible exact Onward.refl _)
    | (with_reducible apply enterSolo_fwd)
    | (with_reducible apply State.modPair_fwd)
    | split

theorem tokenSolo_fwd {r_ : State} {s : State} {t : Token} (h_ : Onward r_ s) : Onward r_ (tokenSolo s t) := h_.trans (tokenSolo_onward ..)

theorem acceptToken_onward (s : State) (t : Token) : Onward s (acceptToken s t) := by
  unfold acceptToken
  repeat' first
    | (with_reducible exact Onward.refl _)
    | (with_reducible apply tokenSolo_fwd)
    | (with_reducible apply holdToken_fwd)
    | (with_reducible apply State.modPair_fwd)
    | (with_reducible apply noteEligible_fwd)

theorem acceptToken_fwd {r_ : State} {s : State} {t : Token} (h_ : Onward r_ s) : Onward r_ (acceptToken s t) := h_.trans (acceptToken_onward ..)

theorem tokenRecord_onward (s : State) (t : Token) : Onward s (tokenRecord s t) := by
  unfold tokenRecord
  repeat' first
    | (with_reducible exact Onward.refl _)
    | (with_reducible apply acceptToken_fwd)
    | split

theorem tokenRecord_fwd {r_ : State} {s : State} {t : Token} (h_ : Onward r_ s) : Onward r_ (tokenRecord s t) := h_.trans (tokenRecord_onward ..)

theorem execTokenRecordReceive_onward (record : Bytes) (s : State) : ∃ w, execTokenRecordReceive record s = .next w ∧ Onward s w := by
  refine ⟨_, rfl, ?_⟩
  repeat' first
    | (with_reducible exact Onward.refl _)
    | (with_reducible apply tokenRecord_fwd)
    | split

theorem execTokenLoss_onward (s : State) : ∃ w, execTokenLoss s = .next w ∧ Onward s w := by
  refine ⟨_, rfl, ?_⟩
  repeat' first
    | (with_reducible exact Onward.refl _)
    | (with_reducible apply holdToken_fwd)

theorem execCollarClaim_onward (s : State) : ∃ w, execCollarClaim s = .next w ∧ Onward s w := by
  refine ⟨_, rfl, ?_⟩
  repeat' first
    | (with_reducible exact Onward.refl _)
    | (with_reducible apply State.modPair_fwd)
    | split

theorem takeOver_onward (s : State) : Onward s (takeOver s) := by
  unfold takeOver
  repeat' first
    | (with_reducible exact Onward.refl _)
    | (with_reducible apply State.modPair_fwd)
    | (with_reducible apply logMain_fwd)
    | (simp only [Onward.upd_eq])

theorem takeOver_fwd {r_ : State} {s : State} (h_ : Onward r_ s) : Onward r_ (takeOver s) := h_.trans (takeOver_onward ..)

theorem execClaimWindowEnd_onward (s : State) : ∃ w, execClaimWindowEnd s = .next w ∧ Onward s w := by
  refine ⟨_, rfl, ?_⟩
  repeat' first
    | (with_reducible exact Onward.refl _)
    | (with_reducible apply takeOver_fwd)
    | (with_reducible apply State.modPair_fwd)
    | (with_reducible apply noteService_fwd)
    | (with_reducible apply raise_fwd)
    | split

theorem execCollarRxAssert_onward (s : State) : ∃ w, execCollarRxAssert s = .next w ∧ Onward s w := by
  refine ⟨_, rfl, ?_⟩
  repeat' first
    | (with_reducible exact Onward.refl _)
    | (with_reducible apply State.modPair_fwd)
    | (with_reducible apply dropCollar_fwd)
    | (with_reducible apply noteService_fwd)
    | (with_reducible apply logMain_fwd)
    | split

theorem execCollarRxDeassert_onward (s : State) : ∃ w, execCollarRxDeassert s = .next w ∧ Onward s w := by
  refine ⟨_, rfl, ?_⟩
  repeat' first
    | (with_reducible exact Onward.refl _)
    | (with_reducible apply State.modPair_fwd)
    | split

theorem applyForeign_onward (seq : Nat) (s : State) (c : Change) : Onward s (applyForeign seq s c) := by
  unfold applyForeign
  repeat' first
    | (with_reducible exact Onward.refl _)
    | (with_reducible apply applyChange_fwd)
    | (with_reducible apply State.modPart_fwd)
    | split

theorem applyForeign_fwd {r_ : State} {seq : Nat} {s : State} {c : Change} (h_ : Onward r_ s) : Onward r_ (applyForeign seq s c) := h_.trans (applyForeign_onward ..)

theorem queueTasks_onward (s : State) (l : List KdTask) : Onward s (queueTasks s l) := by
  unfold queueTasks
  repeat' first
    | (with_reducible exact Onward.refl _)
    | (simp only [Onward.upd_eq])

theorem queueTasks_fwd {r_ : State} {s : State} {l : List KdTask} (h_ : Onward r_ s) : Onward r_ (queueTasks s l) := h_.trans (queueTasks_onward ..)

theorem applyCommits_onward (seq : Nat) (s : State) (l : List (List Change)) : Onward s (applyCommits seq s l) := by
  induction l generalizing seq s with
  | nil => exact Onward.refl _
  | cons a l ih =>
    unfold applyCommits
    exact (Onward.fold (Onward.refl _) (fun t c => applyForeign_onward ..)).trans (ih _ _)

theorem applyCommits_fwd {r_ : State} {seq : Nat} {s : State} {m_ : List (List Change)} (h_ : Onward r_ s) : Onward r_ (applyCommits seq s m_) := h_.trans (applyCommits_onward ..)

theorem applyBoth_onward (s : State) (seq : Nat) (l : List (List Change)) : Onward s (applyBoth s seq l) := by
  unfold applyBoth
  refine ⟨(applyCommits_onward seq s l).queue, (applyCommits_onward seq s l).fresh, (applyCommits_onward seq s l).otp, fun x => ?_⟩
  have h := (applyCommits_onward seq s l).tables x
  have hb := (applyCommits_onward seq (withPersist s s.commit.base) l).tables ⟨x.1, x.2.1, x.2.2.2, x.2.2.2⟩
  exact ⟨h.1, h.2.1, h.2.2.1, hb.2.2.1⟩

theorem applyBoth_fwd {r_ : State} {s : State} {seq : Nat} {l : List (List Change)} (h_ : Onward r_ s) : Onward r_ (applyBoth s seq l) := h_.trans (applyBoth_onward ..)

theorem applyCycle_onward (s : State) (c : CycleMsg) : Onward s (applyCycle s c) := by
  unfold applyCycle
  repeat' first
    | (with_reducible exact Onward.refl _)
    | (with_reducible apply applyBoth_fwd)
    | (with_reducible apply State.modPair_fwd)
    | (with_reducible apply noteService_fwd)
    | (simp only [Onward.upd_eq])

theorem applyCycle_fwd {r_ : State} {s : State} {c : CycleMsg} (h_ : Onward r_ s) : Onward r_ (applyCycle s c) := h_.trans (applyCycle_onward ..)

theorem execCommitCycleReceive_onward (c : CycleMsg) (s : State) : ∃ w, execCommitCycleReceive c s = .next w ∧ Onward s w := by
  refine ⟨_, rfl, ?_⟩
  repeat' first
    | (with_reducible exact Onward.refl _)
    | (with_reducible apply applyCycle_fwd)
    | (with_reducible apply State.modPair_fwd)
    | (with_reducible apply noteService_fwd)
    | (simp only [Onward.upd_eq])
    | split

theorem dropUnwritten_onward (s : State) (n : Nat) : Onward s (dropUnwritten s n) := by
  unfold dropUnwritten
  repeat' first
    | (with_reducible exact Onward.refl _)
    | (with_reducible apply noteReplay_fwd)
    | (with_reducible apply release_fwd)
    | split

theorem dropUnwritten_fwd {r_ : State} {s : State} {n : Nat} (h_ : Onward r_ s) : Onward r_ (dropUnwritten s n) := h_.trans (dropUnwritten_onward ..)

theorem execCycleAckTimeout_onward (s : State) : ∃ w, execCycleAckTimeout s = .next w ∧ Onward s w := by
  refine ⟨_, rfl, ?_⟩
  repeat' first
    | (with_reducible exact Onward.refl _)
    | (with_reducible apply dropUnwritten_fwd)
    | (with_reducible refine Onward.fold ?_ (fun t a => ?_))
    | (simp only [Onward.upd_eq])
    | split

theorem serveResync_onward (s : State) : Onward s (serveResync s) := by
  unfold serveResync
  repeat' first
    | (with_reducible exact Onward.refl _)
    | (with_reducible apply State.modPair_fwd)
    | (simp only [Onward.upd_eq])

theorem serveResync_fwd {r_ : State} {s : State} (h_ : Onward r_ s) : Onward r_ (serveResync s) := h_.trans (serveResync_onward ..)

theorem discardOwn_onward (s : State) : Onward s (discardOwn s) := by
  unfold discardOwn
  dsimp only
  split
  · exact Onward.refl _
  · refine Onward.fold ?_ (fun t n => dropUnwritten_onward ..)
    exact Onward.upd (dropCache_fwd (withPersist_onward _ _ (fun x => x.2.2.2))) (Nat.le_refl _) rfl rfl rfl rfl rfl rfl

theorem discardOwn_fwd {r_ : State} {s : State} (h_ : Onward r_ s) : Onward r_ (discardOwn s) := h_.trans (discardOwn_onward ..)

theorem execResyncRequest_onward (s : State) : ∃ w, execResyncRequest s = .next w ∧ Onward s w := by
  refine ⟨_, rfl, ?_⟩
  repeat' first
    | (with_reducible exact Onward.refl _)
    | (with_reducible apply discardOwn_fwd)
    | (with_reducible apply serveResync_fwd)
    | (with_reducible apply State.modPair_fwd)
    | (with_reducible apply sendLink_fwd)
    | split

theorem execResyncCopyReceive_onward (cycle : Nat) (parts : List Nat) (changes : List Change) (s : State) :
    ∃ w, execResyncCopyReceive cycle parts changes s = .next w ∧ Onward s w := by
  refine ⟨_, rfl, ?_⟩
  split
  · exact Onward.refl _
  · dsimp only
    apply noteService_fwd
    apply State.modPair_fwd
    simp only [Onward.upd_eq]
    apply applyBoth_fwd
    exact State.withBase_onward _ _ (fun b h => tsorted_filter _ _ h)

theorem switchoverWrite_onward (rq : Req) (v : Nat) (grant : Bytes) (s : State) : Onward s (switchoverWrite rq v grant s) := by
  unfold switchoverWrite
  repeat' first
    | (with_reducible exact Onward.refl _)
    | (with_reducible apply State.modPair_fwd)
    | (with_reducible refine Onward.trans ?_ (grantWrite_onward _ _ _ _ _ _ _ _ _ _ _ (fun t use => ?_)))
    | (with_reducible apply acceptUse_fwd)
    | (with_reducible apply cutRing_fwd)
    | (with_reducible refine Onward.fold ?_ (fun t a => ?_))
    | split

theorem switchoverWrite_fwd {r_ : State} {rq : Req} {v : Nat} {grant : Bytes} {s : State} (h_ : Onward r_ s) : Onward r_ (switchoverWrite rq v grant s) := h_.trans (switchoverWrite_onward ..)

theorem execSwitchover_onward (rq : Req) (v : Nat) (grant : Bytes) (s : State) : ∃ w, execSwitchover rq v grant s = .next w ∧ Onward s w := by
  refine ⟨_, rfl, ?_⟩
  repeat' first
    | (with_reducible exact Onward.refl _)
    | (with_reducible apply switchoverWrite_fwd)

theorem continueSwitchover_onward (s : State) : Onward s (continueSwitchover s) := by
  unfold continueSwitchover
  repeat' first
    | (with_reducible exact Onward.refl _)
    | (with_reducible apply closeCycle_fwd)
    | split

theorem continueSwitchover_fwd {r_ : State} {s : State} (h_ : Onward r_ s) : Onward r_ (continueSwitchover s) := h_.trans (continueSwitchover_onward ..)

theorem idleStep_onward (s : State) : Onward s (idleStep s) := by
  unfold idleStep
  repeat' first
    | (with_reducible exact Onward.refl _)
    | (with_reducible apply continueSwitchover_fwd)
    | (with_reducible apply continueStandby_fwd)
    | (with_reducible apply continueTransition_fwd)
    | (with_reducible apply serveKd_fwd)
    | (with_reducible apply tick_fwd)

theorem idleStep_fwd {r_ : State} {s : State} (h_ : Onward r_ s) : Onward r_ (idleStep s) := h_.trans (idleStep_onward ..)

theorem execVaultStreamReceive_onward (src part : Nat) (c : CycleMsg) (s : State) : ∃ w, execVaultStreamReceive src part c s = .next w ∧ Onward s w := by
  refine ⟨_, rfl, ?_⟩
  repeat' first
    | (with_reducible exact Onward.refl _)
    | (with_reducible apply queueTasks_fwd)
    | (with_reducible apply State.modPair_fwd)
    | (with_reducible apply sendTo_fwd)
    | split

/-! ## Telemetry -/

theorem refreshTelemetry_onward (s : State) : Onward s (refreshTelemetry s) :=
  Onward.upd (Onward.refl s) (Nat.le_add_right _ _) rfl rfl rfl rfl rfl rfl

theorem refreshTelemetry_fwd {r_ : State} {s : State} (h_ : Onward r_ s) : Onward r_ (refreshTelemetry s) := h_.trans (refreshTelemetry_onward ..)

theorem execTelemetryRefresh_onward (dieTemp cocoonTemp inputMv inputMw nandWear : Nat) (s : State) : ∃ w, execTelemetryRefresh dieTemp cocoonTemp inputMv inputMw nandWear s = .next w ∧ Onward s w := by
  refine ⟨_, rfl, ?_⟩
  repeat' first
    | (with_reducible exact Onward.refl _)
    | (with_reducible apply refreshTelemetry_fwd)
    | (simp only [Onward.upd_eq])
    | split

/-! ## OdServe -/

theorem State.modOd_onward (s : State) (f : Od → Od) (hf : (f s.od).reqBuf = s.od.reqBuf) (hg : (f s.od).replyBuf = s.od.replyBuf) :
    Onward s (State.modOd s f) :=
  Onward.upd (Onward.refl s) (Nat.le_refl _) rfl hf hg rfl rfl rfl
theorem State.modOd_fwd {r s : State} {f : Od → Od} (h : Onward r s) (hf : (f s.od).reqBuf = s.od.reqBuf)
    (hg : (f s.od).replyBuf = s.od.replyBuf) : Onward r (State.modOd s f) := h.trans (State.modOd_onward s f hf hg)

theorem odReadServe_onward (rq : Req) (idx sub : Nat) (s : State) : Onward s (odReadServe rq idx sub s) := by
  unfold odReadServe
  split
  rename_i t go h
  have ht := takeReq_pair h
  split
  · exact ht
  · split
    · exact refuse_fwd ht
    · exact sendReply_fwd (Onward.upd ht (Nat.le_succ _) rfl rfl rfl rfl rfl rfl)

theorem odReadServe_fwd {r_ : State} {rq : Req} {idx sub : Nat} {s : State} (h_ : Onward r_ s) : Onward r_ (odReadServe rq idx sub s) := h_.trans (odReadServe_onward ..)

theorem execOdRead_onward (rq : Req) (idx sub : Nat) (s : State) : ∃ w, execOdRead rq idx sub s = .next w ∧ Onward s w := by
  refine ⟨_, rfl, ?_⟩
  repeat' first
    | (with_reducible exact Onward.refl _)
    | (with_reducible apply odReadServe_fwd)

theorem odReadSegmentServe_onward (rq : Req) (idx sub offset maxLen : Nat) (s : State) : Onward s (odReadSegmentServe rq idx sub offset maxLen s) := by
  unfold odReadSegmentServe
  repeat' first
    | (with_reducible exact Onward.refl _)
    | (with_reducible refine Onward.trans ?_ (takeReq_pair (by assumption)))
    | (with_reducible apply refuse_fwd)
    | (with_reducible apply sendReply_fwd)
    | split

theorem odReadSegmentServe_fwd {r_ : State} {rq : Req} {idx sub offset maxLen : Nat} {s : State} (h_ : Onward r_ s) : Onward r_ (odReadSegmentServe rq idx sub offset maxLen s) := h_.trans (odReadSegmentServe_onward ..)

theorem execOdReadSegment_onward (rq : Req) (idx sub offset maxLen : Nat) (s : State) : ∃ w, execOdReadSegment rq idx sub offset maxLen s = .next w ∧ Onward s w := by
  refine ⟨_, rfl, ?_⟩
  repeat' first
    | (with_reducible exact Onward.refl _)
    | (with_reducible apply odReadSegmentServe_fwd)

theorem boolCommand_onward (rq : Req) (idx sub cls part : Nat) (v grant : Bytes) (f : State → State) (hf : ∀ t, Onward t (f t)) (s : State) :
    Onward s (boolCommand rq idx sub cls part v grant f s) := by
  unfold boolCommand
  split
  · exact hf s
  · exact grantWrite_onward _ _ _ _ _ _ _ _ _ _ _ (fun t use => acceptUse_onward ..)

theorem tokenWrite_onward (rq : Req) (v : Bytes) (s : State) : Onward s (tokenWrite rq v s) := by
  unfold tokenWrite
  refine openServe_onward _ _ _ _ _ _ (fun t => ?_)
  split
  · exact refuse_onward ..
  · dsimp only
    generalize tokenOf _ v = tok
    split
    · exact acceptNow_fwd (tokenRecord_onward ..)
    · exact refuse_onward ..

theorem tokenWrite_fwd {r_ : State} {rq : Req} {v : Bytes} {s : State} (h_ : Onward r_ s) : Onward r_ (tokenWrite rq v s) := h_.trans (tokenWrite_onward ..)

theorem arbOpenWrite_onward (rq : Req) (v : Bytes) (s : State) : Onward s (arbOpenWrite rq v s) := by
  unfold arbOpenWrite
  repeat' first
    | (with_reducible exact Onward.refl _)
    | (with_reducible apply openArbiter_fwd)
    | (with_reducible refine Onward.trans ?_ (openServe_onward _ _ _ _ _ _ (fun t => ?_)))
    | (with_reducible apply acceptNow_fwd)
    | (with_reducible apply refuse_fwd)
    | split

theorem arbOpenWrite_fwd {r_ : State} {rq : Req} {v : Bytes} {s : State} (h_ : Onward r_ s) : Onward r_ (arbOpenWrite rq v s) := h_.trans (arbOpenWrite_onward ..)

/-- What a write with a row of its own does goes onward. -/
def Acts (o : Option (State → State)) : Prop := ∀ f, o = some f → ∀ s, Onward s (f s)
theorem Acts.act {g : State → State} (hg : ∀ s, Onward s (g s)) : Acts (some g) := by
  intro f h s
  cases h
  exact hg s
theorem Acts.no : Acts none := by
  intro f h
  cases h
theorem Acts.ite {c : Prop} [Decidable c] {a b : Option (State → State)} (ha : Acts a) (hb : Acts b) : Acts (if c then a else b) := by
  split
  · exact ha
  · exact hb
theorem ownPartition_acts (rq : Req) (idx sub : Nat) (v grant : Bytes) :
    Acts (ownPartition rq idx sub v grant) := by
  unfold ownPartition
  generalize bodyNat idx sub v = n
  dsimp only
  repeat' first
    | (with_reducible exact Acts.no)
    | (with_reducible refine Acts.act (fun t => ?_))
    | (with_reducible refine partitionFunctionWrite_fwd (Onward.refl _))
    | (with_reducible refine partitionEnableWrite_fwd (Onward.refl _))
    | (with_reducible refine quotaWrite_fwd (Onward.refl _))
    | (with_reducible refine bindingMaskWrite_fwd (Onward.refl _))
    | (with_reducible refine pinPolicyWrite_fwd (Onward.refl _))
    | (with_reducible refine decTableWrite_fwd (Onward.refl _))
    | (with_reducible refine atcCapacityWrite_fwd (Onward.refl _))
    | (with_reducible refine atcWindowWrite_fwd (Onward.refl _))
    | (with_reducible apply partitionCreate_onward)
    | (with_reducible apply partitionDestroy_onward)
    | (with_reducible apply boolCommand_onward)
    | split

theorem ownModule_acts (rq : Req) (idx sub : Nat) (v grant : Bytes) :
    Acts (ownModule rq idx sub v grant) := by
  unfold ownModule
  generalize bodyNat idx sub v = n
  dsimp only
  repeat' first
    | (with_reducible refine Acts.ite ?_ ?_)
    | (with_reducible exact Acts.no)
    | (with_reducible refine Acts.act (fun t => ?_))
    | (with_reducible refine announcedMrWrite_fwd (Onward.refl _))
    | (with_reducible refine manifestWrite_fwd (Onward.refl _))
    | (with_reducible refine policyWrite_fwd (Onward.refl _))
    | (with_reducible refine quorumOpen_fwd (Onward.refl _))
    | (with_reducible refine memberWrite_fwd (Onward.refl _))
    | (with_reducible refine componentStart_fwd (Onward.refl _))
    | (with_reducible refine tier0Destroy_fwd (Onward.refl _))
    | (with_reducible refine tamperClassWrite_fwd (Onward.refl _))
    | (with_reducible refine sleeveReleaseWrite_fwd (Onward.refl _))
    | (with_reducible refine tapCtlWrite_fwd (Onward.refl _))
    | (with_reducible refine logClearWrite_fwd (Onward.refl _))
    | (with_reducible refine sealCheckWrite_fwd (Onward.refl _))
    | (with_reducible apply finaliseWrite_onward)
    | (with_reducible apply cancelWrite_onward)
    | (with_reducible refine approveBy_fwd (Onward.refl _))
    | (with_reducible apply boolCommand_onward)

theorem ownSystem_acts (rq : Req) (idx sub : Nat) (v grant : Bytes) :
    Acts (ownSystem rq idx sub v grant) := by
  unfold ownSystem
  generalize bodyNat idx sub v = n
  dsimp only
  repeat' first
    | (with_reducible refine Acts.ite ?_ ?_)
    | (with_reducible exact Acts.no)
    | (with_reducible refine Acts.act (fun t => ?_))
    | (with_reducible refine decisionWrite_fwd (Onward.refl _))
    | (with_reducible refine clusterEntryWrite_fwd (Onward.refl _))
    | (with_reducible refine clusterTimeWrite_fwd (Onward.refl _))
    | (with_reducible refine switchoverWrite_fwd (Onward.refl _))
    | (with_reducible refine arbOpenWrite_fwd (Onward.refl _))
    | (with_reducible refine targetWrite_fwd (Onward.refl _))
    | (with_reducible refine commissionTokenWrite_fwd (Onward.refl _))
    | (with_reducible refine authCertWrite_fwd (Onward.refl _))
    | (with_reducible refine debugCloseWrite_fwd (Onward.refl _))
    | (with_reducible refine observeOpenWrite_fwd (Onward.refl _))
    | (with_reducible refine attestNonceWrite_fwd (Onward.refl _))
    | (with_reducible refine identityGenerateWrite_fwd (Onward.refl _))
    | (with_reducible refine certInstallWrite_fwd (Onward.refl _))
    | (with_reducible refine powerRequest_fwd (Onward.refl _))
    | (with_reducible refine resetRequest_fwd (Onward.refl _))
    | (with_reducible refine seamReset_fwd (Onward.refl _))
    | (with_reducible refine blockReset_fwd (Onward.refl _))
    | (with_reducible refine wakeListWrite_fwd (Onward.refl _))
    | (with_reducible refine wakeTimerSWrite_fwd (Onward.refl _))
    | (with_reducible refine tokenWrite_fwd (Onward.refl _))
    | split

theorem ownWrite_some {rq : Req} {idx sub : Nat} {v grant : Bytes} {f : State → State} (h : ownWrite rq idx sub v grant = some f) (s : State) :
    Onward s (f s) := by
  unfold ownWrite at h
  split at h
  · exact ownPartition_acts _ _ _ _ _ _ h s
  · split at h
    · exact ownModule_acts _ _ _ _ _ _ h s
    · exact ownSystem_acts _ _ _ _ _ _ h s

theorem denyWrite_onward (s : State) (rq : Req) (idx sub op : Nat) : Onward s (denyWrite s rq idx sub op) :=
  serveWrite_onward _ _ _ _ _ _ _ _ Onward.refl

theorem denyWrite_fwd {r_ : State} {s : State} {rq : Req} {idx sub op : Nat} (h_ : Onward r_ s) : Onward r_ (denyWrite s rq idx sub op) := h_.trans (denyWrite_onward ..)

theorem genericWrite_onward (rq : Req) (idx sub : Nat) (v : Bytes) (s : State) : Onward s (genericWrite rq idx sub v s) := by
  unfold genericWrite
  repeat' first
    | (with_reducible exact Onward.refl _)
    | (with_reducible apply denyWrite_fwd)
    | (with_reducible refine Onward.trans ?_ (serveWrite_onward _ _ _ _ _ _ _ _ (fun t => ?_)))
    | (with_reducible apply acceptCommit_fwd)
    | (with_reducible apply refuse_fwd)
    | split

theorem genericWrite_fwd {r_ : State} {rq : Req} {idx sub : Nat} {v : Bytes} {s : State} (h_ : Onward r_ s) : Onward r_ (genericWrite rq idx sub v s) := h_.trans (genericWrite_onward ..)

theorem plainWrite_onward (rq : Req) (idx sub : Nat) (v : Bytes) (s : State) : Onward s (plainWrite rq idx sub v s) := by
  unfold plainWrite
  split
  · split
    · split
      · exact denyWrite_onward ..
      · exact ownWrite_some (by assumption) s
    · split
      · exact Onward.refl _
      · exact denyWrite_onward ..
  · exact genericWrite_onward ..

theorem plainWrite_fwd {r_ : State} {rq : Req} {idx sub : Nat} {v : Bytes} {s : State} (h_ : Onward r_ s) : Onward r_ (plainWrite rq idx sub v s) := h_.trans (plainWrite_onward ..)

theorem execOdWrite_onward (rq : Req) (idx sub : Nat) (v : Bytes) (s : State) : ∃ w, execOdWrite rq idx sub v s = .next w ∧ Onward s w := by
  refine ⟨_, rfl, ?_⟩
  repeat' first
    | (with_reducible exact Onward.refl _)
    | (with_reducible apply plainWrite_fwd)

theorem genericGrant_onward (rq : Req) (idx sub : Nat) (v grant : Bytes) (s : State) : Onward s (genericGrant rq idx sub v grant s) := by
  unfold genericGrant
  repeat' first
    | (with_reducible exact Onward.refl _)
    | (with_reducible apply denyWrite_fwd)
    | (with_reducible refine Onward.trans ?_ (grantWrite_onward _ _ _ _ _ _ _ _ _ _ _ (fun t use => ?_)))
    | (with_reducible apply acceptCommit_fwd)
    | split

theorem genericGrant_fwd {r_ : State} {rq : Req} {idx sub : Nat} {v grant : Bytes} {s : State} (h_ : Onward r_ s) : Onward r_ (genericGrant rq idx sub v grant s) := h_.trans (genericGrant_onward ..)

theorem grantedWrite_onward (rq : Req) (idx sub : Nat) (v grant : Bytes) (s : State) : Onward s (grantedWrite rq idx sub v grant s) := by
  unfold grantedWrite
  split
  · split
    · split
      · exact denyWrite_onward ..
      · exact ownWrite_some (by assumption) s
    · split
      · exact Onward.refl _
      · exact denyWrite_onward ..
  · exact genericGrant_onward ..

theorem grantedWrite_fwd {r_ : State} {rq : Req} {idx sub : Nat} {v grant : Bytes} {s : State} (h_ : Onward r_ s) : Onward r_ (grantedWrite rq idx sub v grant s) := h_.trans (grantedWrite_onward ..)

theorem execOdWriteGrant_onward (rq : Req) (idx sub : Nat) (v grant : Bytes) (s : State) : ∃ w, execOdWriteGrant rq idx sub v grant s = .next w ∧ Onward s w := by
  refine ⟨_, rfl, ?_⟩
  repeat' first
    | (with_reducible exact Onward.refl _)
    | (with_reducible apply grantedWrite_fwd)

theorem dropStage_onward (s : State) (n : Nat) : Onward s (dropStage s n) := by
  unfold dropStage
  repeat' first
    | (with_reducible exact Onward.refl _)
    | (with_reducible rfl)
    | (with_reducible apply State.modOd_fwd)

theorem dropStage_fwd {r_ : State} {s : State} {n : Nat} (h_ : Onward r_ s) : Onward r_ (dropStage s n) := h_.trans (dropStage_onward ..)

theorem finishSegments_onward (rq : Req) (idx sub : Nat) (v grant : Bytes) (s : State) : Onward s (finishSegments rq idx sub v grant s) := by
  unfold finishSegments
  dsimp only
  split
  · exact denyWrite_onward ..
  · rename_i h
    split at h
    · exact ownWrite_some h s
    · cases h

theorem finishSegments_fwd {r_ : State} {rq : Req} {idx sub : Nat} {v grant : Bytes} {s : State} (h_ : Onward r_ s) : Onward r_ (finishSegments rq idx sub v grant s) := h_.trans (finishSegments_onward ..)

theorem sessionSegment_onward (rq : Req) (idx sub offset total : Nat) (data grant : Bytes) (x : Session) (s : State) : Onward s (sessionSegment rq idx sub offset total data grant x s) := by
  unfold sessionSegment
  repeat' first
    | (with_reducible exact Onward.refl _)
    | (with_reducible apply finishSegments_fwd)
    | (with_reducible apply dropStage_fwd)
    | (with_reducible apply State.modOd_fwd)
    | (with_reducible refine Onward.trans ?_ (serveWrite_onward _ _ _ _ _ _ _ _ (fun t => ?_)))
    | (with_reducible apply acceptNow_fwd)
    | (with_reducible apply refuse_fwd)
    | (simp only [Onward.upd_eq])
    | split

theorem sessionSegment_fwd {r_ : State} {rq : Req} {idx sub offset total : Nat} {data grant : Bytes} {x : Session} {s : State} (h_ : Onward r_ s) : Onward r_ (sessionSegment rq idx sub offset total data grant x s) := h_.trans (sessionSegment_onward ..)

theorem segmentWrite_onward (rq : Req) (idx sub offset total : Nat) (data grant : Bytes) (s : State) : Onward s (segmentWrite rq idx sub offset total data grant s) := by
  unfold segmentWrite
  repeat' first
    | (with_reducible exact Onward.refl _)
    | (with_reducible apply sessionSegment_fwd)
    | (with_reducible apply finishSegments_fwd)
    | (with_reducible refine Onward.trans ?_ (serveWrite_onward _ _ _ _ _ _ _ _ (fun t => ?_)))
    | (with_reducible refine Onward.trans ?_ (takeReq_onward ..))
    | (with_reducible apply refuse_fwd)
    | split

theorem segmentWrite_fwd {r_ : State} {rq : Req} {idx sub offset total : Nat} {data grant : Bytes} {s : State} (h_ : Onward r_ s) : Onward r_ (segmentWrite rq idx sub offset total data grant s) := h_.trans (segmentWrite_onward ..)

theorem execOdWriteSegment_onward (rq : Req) (idx sub offset total : Nat) (data : Bytes) (s : State) : ∃ w, execOdWriteSegment rq idx sub offset total data s = .next w ∧ Onward s w := by
  refine ⟨_, rfl, ?_⟩
  repeat' first
    | (with_reducible exact Onward.refl _)
    | (with_reducible apply segmentWrite_fwd)

theorem execOdWriteSegmentGrant_onward (rq : Req) (idx sub offset total : Nat) (data grant : Bytes) (s : State) : ∃ w, execOdWriteSegmentGrant rq idx sub offset total data grant s = .next w ∧ Onward s w := by
  refine ⟨_, rfl, ?_⟩
  repeat' first
    | (with_reducible exact Onward.refl _)
    | (with_reducible apply segmentWrite_fwd)

theorem execSegmentStagingTimeout_onward (session : Nat) (s : State) : ∃ w, execSegmentStagingTimeout session s = .next w ∧ Onward s w := by
  refine ⟨_, rfl, ?_⟩
  repeat' first
    | (with_reducible exact Onward.refl _)
    | (with_reducible apply dropStage_fwd)
    | split

theorem sessionOpen_onward (rq : Req) (member : Nat) (point : Bytes) (s : State) : Onward s (sessionOpen rq member point s) := by
  unfold sessionOpen
  repeat' first
    | (with_reducible assumption)
    | (with_reducible refine serveWrite_from _ _ _ _ _ _ _ _ (fun t h => ?_))
    | (with_reducible exact Onward.refl _)
    | (with_reducible rfl)
    | (with_reducible apply State.modOd_fwd)
    | (with_reducible apply acceptNow_fwd)
    | (with_reducible apply refuse_fwd)
    | (with_reducible refine Onward.trans ?_ (coreDraw_onward ..))
    | split

theorem sessionOpen_fwd {r_ : State} {rq : Req} {member : Nat} {point : Bytes} {s : State} (h_ : Onward r_ s) : Onward r_ (sessionOpen rq member point s) := h_.trans (sessionOpen_onward ..)

theorem execSessionOpen_onward (rq : Req) (member : Nat) (point : Bytes) (s : State) : ∃ w, execSessionOpen rq member point s = .next w ∧ Onward s w := by
  refine ⟨_, rfl, ?_⟩
  repeat' first
    | (with_reducible exact Onward.refl _)
    | (with_reducible apply sessionOpen_fwd)

theorem authFailed_onward (s : State) (member transport : Nat) : Onward s (authFailed s member transport) := by
  unfold authFailed
  repeat' first
    | (with_reducible exact Onward.refl _)
    | (with_reducible rfl)
    | (with_reducible apply State.modOd_fwd)
    | (with_reducible apply logMain_fwd)

theorem authFailed_fwd {r_ : State} {s : State} {member transport : Nat} (h_ : Onward r_ s) : Onward r_ (authFailed s member transport) := h_.trans (authFailed_onward ..)

theorem sessionAuth_onward (rq : Req) (signature : Bytes) (s : State) : Onward s (sessionAuth rq signature s) := by
  unfold sessionAuth
  repeat' first
    | (with_reducible exact Onward.refl _)
    | (with_reducible rfl)
    | (with_reducible apply authFailed_fwd)
    | (with_reducible apply State.modOd_fwd)
    | (with_reducible refine Onward.trans ?_ (serveWrite_onward _ _ _ _ _ _ _ _ (fun t => ?_)))
    | (with_reducible apply acceptNow_fwd)
    | (with_reducible apply refuse_fwd)
    | (with_reducible apply logMain_fwd)
    | split

theorem sessionAuth_fwd {r_ : State} {rq : Req} {signature : Bytes} {s : State} (h_ : Onward r_ s) : Onward r_ (sessionAuth rq signature s) := h_.trans (sessionAuth_onward ..)

theorem execSessionAuth_onward (rq : Req) (signature : Bytes) (s : State) : ∃ w, execSessionAuth rq signature s = .next w ∧ Onward s w := by
  refine ⟨_, rfl, ?_⟩
  repeat' first
    | (with_reducible exact Onward.refl _)
    | (with_reducible apply sessionAuth_fwd)

theorem endSession_onward (s : State) (n : Nat) : Onward s (endSession s n) := by
  unfold endSession
  repeat' first
    | (with_reducible exact Onward.refl _)
    | (with_reducible rfl)
    | (with_reducible apply State.modOd_fwd)

theorem endSession_fwd {r_ : State} {s : State} {n : Nat} (h_ : Onward r_ s) : Onward r_ (endSession s n) := h_.trans (endSession_onward ..)

theorem sessionClose_onward (rq : Req) (s : State) : Onward s (sessionClose rq s) := by
  unfold sessionClose
  repeat' first
    | (with_reducible exact Onward.refl _)
    | (with_reducible apply endSession_fwd)
    | (with_reducible refine Onward.trans ?_ (serveWrite_onward _ _ _ _ _ _ _ _ (fun t => ?_)))
    | (with_reducible apply acceptNow_fwd)

theorem sessionClose_fwd {r_ : State} {rq : Req} {s : State} (h_ : Onward r_ s) : Onward r_ (sessionClose rq s) := h_.trans (sessionClose_onward ..)

theorem execSessionClose_onward (rq : Req) (s : State) : ∃ w, execSessionClose rq s = .next w ∧ Onward s w := by
  refine ⟨_, rfl, ?_⟩
  repeat' first
    | (with_reducible exact Onward.refl _)
    | (with_reducible apply sessionClose_fwd)

theorem execSessionIdleTimeout_onward (session : Nat) (s : State) : ∃ w, execSessionIdleTimeout session s = .next w ∧ Onward s w := by
  refine ⟨_, rfl, ?_⟩
  repeat' first
    | (with_reducible exact Onward.refl _)
    | (with_reducible apply endSession_fwd)
    | split

theorem serveBody_onward (rq : Req) (b : Bytes) (s : State) : Onward s (serveBody rq b s) := by
  unfold serveBody
  repeat' first
    | (with_reducible exact Onward.refl _)
    | (with_reducible apply sessionClose_fwd)
    | (with_reducible apply sessionAuth_fwd)
    | (with_reducible apply sessionOpen_fwd)
    | (with_reducible apply segmentWrite_fwd)
    | (with_reducible apply grantedWrite_fwd)
    | (with_reducible apply plainWrite_fwd)
    | (with_reducible apply odReadSegmentServe_fwd)
    | (with_reducible apply odReadServe_fwd)
    | (with_reducible refine Onward.trans ?_ (serveWrite_onward _ _ _ _ _ _ _ _ (fun t => ?_)))
    | (with_reducible apply refuse_fwd)
    | (simp only [Onward.upd_eq])
    | split

theorem serveBody_fwd {r_ : State} {rq : Req} {b : Bytes} {s : State} (h_ : Onward r_ s) : Onward r_ (serveBody rq b s) := h_.trans (serveBody_onward ..)

theorem holdRequest_onward (s : State) (rq : Req) (b : Bytes) : Onward s (holdRequest s rq b) := by
  unfold holdRequest
  repeat' first
    | (with_reducible exact Onward.refl _)
    | (with_reducible rfl)
    | (with_reducible apply State.modOd_fwd)

theorem holdRequest_fwd {r_ : State} {s : State} {rq : Req} {b : Bytes} (h_ : Onward r_ s) : Onward r_ (holdRequest s rq b) := h_.trans (holdRequest_onward ..)

theorem execMailboxGo_onward (reqLen : Nat) (s : State) : ∃ w, execMailboxGo reqLen s = .next w ∧ Onward s w := by
  refine ⟨_, rfl, ?_⟩
  repeat' first
    | (with_reducible exact Onward.refl _)
    | (with_reducible apply holdRequest_fwd)
    | (with_reducible apply State.modOd_fwd)
    | (with_reducible apply answer_fwd)
    | (simp only [Onward.upd_eq])
    | split

theorem relayRequest_onward (s : State) (rq : Req) (dest : Nat) (b : Bytes) : Onward s (relayRequest s rq dest b) := by
  unfold relayRequest
  repeat' first
    | (with_reducible exact Onward.refl _)
    | (with_reducible apply State.modOd_fwd)
    | (with_reducible refine Onward.trans ?_ (takeReq_onward ..))
    | (with_reducible apply sendTo_fwd)
    | (simp only [Onward.upd_eq])
    | split

theorem relayRequest_fwd {r_ : State} {s : State} {rq : Req} {dest : Nat} {b : Bytes} (h_ : Onward r_ s) : Onward r_ (relayRequest s rq dest b) := h_.trans (relayRequest_onward ..)

theorem execMgmtDatagram_onward (peer : Nat) (dst : MgmtPath) (data : Bytes) (s : State) : ∃ w, execMgmtDatagram peer dst data s = .next w ∧ Onward s w := by
  refine ⟨_, rfl, ?_⟩
  repeat' first
    | (with_reducible exact Onward.refl _)
    | (with_reducible apply relayRequest_fwd)
    | (with_reducible apply holdRequest_fwd)
    | (with_reducible apply answer_fwd)
    | split

theorem execMgmtLinkChange_onward (up : Bool) (s : State) : ∃ w, execMgmtLinkChange up s = .next w ∧ Onward s w := by
  refine ⟨_, rfl, ?_⟩
  repeat' first
    | (with_reducible exact Onward.refl _)
    | (with_reducible rfl)
    | (with_reducible apply State.modOd_fwd)

theorem relayedReply_onward (s : State) (src : Nat) (b : Bytes) : Onward s (relayedReply s src b) := by
  unfold relayedReply
  repeat' first
    | (with_reducible exact Onward.refl _)
    | (with_reducible apply State.modOd_fwd)
    | (with_reducible apply State.modSeam_fwd)
    | (with_reducible apply sendReply_fwd)
    | (simp only [Onward.upd_eq])
    | split

theorem relayedReply_fwd {r_ : State} {s : State} {src : Nat} {b : Bytes} (h_ : Onward r_ s) : Onward r_ (relayedReply s src b) := h_.trans (relayedReply_onward ..)

theorem execMgmtFrameReceive_onward (src : Nat) (body : Bytes) (s : State) : ∃ w, execMgmtFrameReceive src body s = .next w ∧ Onward s w := by
  refine ⟨_, rfl, ?_⟩
  repeat' first
    | (with_reducible exact Onward.refl _)
    | (with_reducible apply relayedReply_fwd)
    | (with_reducible apply holdRequest_fwd)
    | (with_reducible apply serveBody_fwd)
    | (with_reducible apply sendTo_fwd)
    | (with_reducible refine Onward.fold ?_ (fun t a => ?_))
    | split

/-! ## Raw -/

theorem execRawSessionOpen_onward (slot : Nat) (s : State) : ∃ w, execRawSessionOpen slot s = .next w ∧ Onward s w := by
  refine ⟨_, rfl, ?_⟩
  repeat' first
    | (with_reducible exact Onward.refl _)
    | (with_reducible apply settle_onward)
    | (with_reducible apply State.modEngine_fwd)
    | (with_reducible apply State.modSlot_fwd)
    | split

theorem grantSession_onward (s : State) (engine n : Nat) (x : Slot) : Onward s (grantSession s engine n x) := by
  unfold grantSession
  repeat' first
    | (with_reducible exact Onward.refl _)
    | (with_reducible apply settle_onward)
    | (with_reducible apply State.modEngine_fwd)
    | (with_reducible apply State.modSlot_fwd)

theorem grantSession_fwd {r_ : State} {s : State} {engine n : Nat} {x : Slot} (h_ : Onward r_ s) : Onward r_ (grantSession s engine n x) := h_.trans (grantSession_onward ..)

theorem dropReserve_onward (s : State) (engine : Nat) : Onward s (dropReserve s engine) := by
  unfold dropReserve
  repeat' first
    | (with_reducible exact Onward.refl _)
    | (with_reducible apply State.modEngine_fwd)

theorem dropReserve_fwd {r_ : State} {s : State} {engine : Nat} (h_ : Onward r_ s) : Onward r_ (dropReserve s engine) := h_.trans (dropReserve_onward ..)

theorem execRawSessionGranted_onward (engine : Nat) (s : State) : ∃ w, execRawSessionGranted engine s = .next w ∧ Onward s w := by
  refine ⟨_, rfl, ?_⟩
  repeat' first
    | (with_reducible exact Onward.refl _)
    | (with_reducible apply dropReserve_fwd)
    | (with_reducible apply grantSession_fwd)
    | (with_reducible apply endCut_fwd)
    | (with_reducible apply State.modSlot_fwd)
    | split

theorem execRawSessionIdleTimeout_onward (engine : Nat) (s : State) : ∃ w, execRawSessionIdleTimeout engine s = .next w ∧ Onward s w := by
  refine ⟨_, rfl, ?_⟩
  repeat' first
    | (with_reducible exact Onward.refl _)
    | (with_reducible apply closeSession_fwd)
    | split

theorem runRaw_onward (op n : Nat) (f : State → Slot → Engine → Out × Engine) (s : State) : ∃ t, runRaw op n f s = .next t ∧ Onward s t := by
  refine ⟨_, rfl, ?_⟩
  split
  · exact Onward.refl _
  · split
    · exact settle_onward _ _ _ (Onward.refl _) (Onward.refl _)
    · exact settle_onward _ _ _ (Onward.refl _) (State.modEngine_onward ..)

theorem execRawSessionClose_onward (slot : Nat) (s : State) : ∃ w, execRawSessionClose slot s = .next w ∧ Onward s w := by
  refine ⟨_, rfl, ?_⟩
  repeat' first
    | (with_reducible exact Onward.refl _)
    | (with_reducible apply settle_onward)
    | (with_reducible apply closeEngine_fwd)
    | split

theorem execRawLoad_onward (slot : Nat) (s : State) : ∃ w, execRawLoad slot s = .next w ∧ Onward s w := runRaw_onward ..

theorem execRawLoadKey_onward (slot : Nat) (s : State) : ∃ w, execRawLoadKey slot s = .next w ∧ Onward s w := runRaw_onward ..

theorem execRawRead_onward (slot : Nat) (s : State) : ∃ w, execRawRead slot s = .next w ∧ Onward s w := runRaw_onward ..

theorem rawArith_onward (op n checks : Nat) (two exp : Bool) (f : RawIn → Option Nat) (s : State) :
    ∃ t, rawArith op n checks two exp f s = .next t ∧ Onward s t := by
  refine ⟨_, rfl, ?_⟩
  repeat' first
    | (with_reducible exact Onward.refl _)
    | (with_reducible exact State.modSlot_onward ..)
    | (with_reducible exact State.modEngine_onward ..)
    | (with_reducible refine settle_onward _ _ _ (Onward.refl _) ?_)
    | split
    | dsimp only

theorem execRawModadd_onward (slot : Nat) (s : State) : ∃ w, execRawModadd slot s = .next w ∧ Onward s w := rawArith_onward ..

theorem execRawModsub_onward (slot : Nat) (s : State) : ∃ w, execRawModsub slot s = .next w ∧ Onward s w := rawArith_onward ..

theorem execRawModmul_onward (slot : Nat) (s : State) : ∃ w, execRawModmul slot s = .next w ∧ Onward s w := rawArith_onward ..

theorem execRawModinv_onward (slot : Nat) (s : State) : ∃ w, execRawModinv slot s = .next w ∧ Onward s w := rawArith_onward ..

theorem execRawModexp_onward (slot : Nat) (s : State) : ∃ w, execRawModexp slot s = .next w ∧ Onward s w := by
  unfold execRawModexp
  split
  · exact ⟨_, rfl, Onward.refl _⟩
  · split
    · exact runRaw_onward ..
    · exact rawArith_onward ..

theorem abortOne_onward (s : State) (n : Nat) (x : Slot) : Onward s (abortOne s n x) := by
  unfold abortOne
  repeat' first
    | (with_reducible exact Onward.refl _)
    | (with_reducible apply fail_fwd)
    | (with_reducible apply failChain_fwd)
    | (with_reducible apply State.modSlot_fwd)
    | split

theorem abortOne_fwd {r_ : State} {s : State} {n : Nat} {x : Slot} (h_ : Onward r_ s) : Onward r_ (abortOne s n x) := h_.trans (abortOne_onward ..)

theorem execRawAbort_onward (slot : Nat) (s : State) : ∃ w, execRawAbort slot s = .next w ∧ Onward s w := by
  refine ⟨_, rfl, ?_⟩
  repeat' first
    | (with_reducible exact Onward.refl _)
    | (with_reducible apply abortOne_fwd)
    | (with_reducible apply settle_onward)
    | (with_reducible apply closeEngine_fwd)
    | (with_reducible refine Onward.fold ?_ (fun t a => ?_))
    | split

end Sys2Proof.Machine
end

