-- ==== Sys2Proof/Laws/Sha.lean ====
section
/-! SUPPORT. How long a hash is. -/

namespace Sys2Proof.Machine.Sha

/-- The primes below 420: the first 81. -/
def primes : List Nat := (List.range 420).filter (fun n => decide (2 ≤ n) && (List.range 19).all (fun d => d + 2 == n || n % (d + 2) != 0))

/-- Each round constant is the fraction of its prime's cube root: with its whole part before it, its cube is the largest not above
the prime. -/
theorem cubeRoots_eq : (List.zip primes cubeRoots).all (fun e =>
    let w := (List.range 8).find? (fun i => decide (e.1 < (i + 1) ^ 3))
    let r := w.getD 0 * 2 ^ 64 + e.2
    decide (r ^ 3 ≤ e.1 * 2 ^ 192 ∧ e.1 * 2 ^ 192 < (r + 1) ^ 3)) = true := by decide +kernel

/-- Each initial word is the fraction of its prime's square root. -/
theorem squareRoots_eq : (List.zip primes squareRoots).all (fun e =>
    let w := (List.range 8).find? (fun i => decide (e.1 < (i + 1) ^ 2))
    let r := w.getD 0 * 2 ^ 64 + e.2
    decide (r ^ 2 ≤ e.1 * 2 ^ 128 ∧ e.1 * 2 ^ 128 < (r + 1) ^ 2)) = true := by decide +kernel

theorem round_length (p : Params) (st : List Nat) (k : Nat) (h : st.length = 8) : (round p st k).length = 8 := by
  unfold round; split
  · rfl
  · exact h

theorem rounds_length (p : Params) (l : List Nat) : ∀ st : List Nat, st.length = 8 → (l.foldl (round p) st).length = 8 := by
  induction l with
  | nil => exact fun st h => h
  | cons k l ih => exact fun st h => ih _ (round_length p st k h)

theorem block_length (p : Params) (h : List Nat) (b : Bytes) (hh : h.length = 8) : (block p h b).length = 8 := by
  simp [block, rounds_length p _ h hh, hh]

theorem chain_length (p : Params) (l : List Bytes) : ∀ h : List Nat, h.length = 8 → (l.foldl (block p) h).length = 8 := by
  induction l with
  | nil => exact fun h hh => hh
  | cons b l ih => exact fun h hh => ih _ (block_length p h b hh)

theorem words_length (n : Nat) (l : List Nat) : ((l.map (beBytes n)).flatten).length = n * l.length := by
  induction l with
  | nil => rfl
  | cons a l ih =>
    have hb : ∀ n v, (leBytes n v).length = n := by
      intro n; induction n with
      | zero => intro v; rfl
      | succ n ih => intro v; simp [leBytes, ih]
    simp only [List.map_cons, List.flatten_cons, List.length_append, List.length_cons, ih, beBytes, List.length_reverse, hb]
    rw [Nat.mul_add]; omega

theorem hash_length (p : Params) (h0 : List Nat) (n : Nat) (m : Bytes) (hh : h0.length = 8) :
    (hash p h0 n m).length = min n (p.w / 8 * 8) := by
  simp only [hash, List.length_take, words_length, chain_length p _ h0 hh]

/-- A SHA-256 digest has 32 bytes. -/
theorem sha256_length (m : Bytes) : (sha256 m).length = 32 := hash_length p256 h256 32 m rfl

/-- A SHA-384 digest has 48 bytes. -/
theorem sha384_length (m : Bytes) : (sha384 m).length = 48 := hash_length p512 h384 48 m rfl

end Sys2Proof.Machine.Sha
end

