-- ==== Sys2Proof/Laws/Siv.lean ====
section
/-! SUPPORT. The store gives back what it took: a record wrapped under a record key opens under it to the key it held (R165, R168). -/

namespace Sys2Proof.Machine

/-- A block encrypted under a key whose last round key is whole is a whole block. -/
theorem Aes.encrypt_length (key b : Bytes) (h : ((Aes.roundKeys key).tail.getLastD []).length = 16) : (Aes.encrypt key b).length = 16 := by
  unfold Aes.encrypt
  split
  · next hk => simp [hk] at h
  · next k0 ks hk =>
    have h : (ks.getLastD []).length = 16 := by simpa [hk] using h
    simp only [Aes.addKey, Aes.shiftRows, List.length_map, List.length_zipWith, List.length_range]
    rw [h]; rfl

/-- Exclusive or with the same bytes twice leaves a string as it was. -/
theorem xorBytes_twice : ∀ a b : Bytes, a.length ≤ b.length → xorBytes (xorBytes a b) b = a
  | [], b, _ => by cases b <;> rfl
  | x :: a, [], h => by simp at h
  | x :: a, y :: b, h => by
    have h2 := xorBytes_twice a b (by simpa using h)
    simp only [xorBytes, List.zipWith_cons_cons, List.cons.injEq] at h2 ⊢
    exact ⟨by rw [BitVec.xor_assoc, BitVec.xor_self, BitVec.xor_zero], h2⟩

/-- The counter mode undoes itself on whole blocks. -/
theorem ctrAux_twice (c : Cipher) (hb : 0 < c.block) (hc : ∀ b, (c.enc b).length = c.block) :
    ∀ (l : List Bytes) (i fuel : Nat), (∀ b ∈ l, b.length = c.block) → l.length ≤ fuel →
      ctrAux c (chunksAux c.block fuel (ctrAux c l i)) i = l.flatten
  | [], i, fuel, _, _ => by cases fuel <;> rfl
  | b :: l, i, 0, _, h => by simp at h
  | b :: l, i, fuel + 1, hl, h => by
    have hlen : (xorBytes b (c.enc (beBytes c.block i))).length = c.block := by
      simp [xorBytes, hc, hl b (by simp)]
    have hne : (xorBytes b (c.enc (beBytes c.block i)) ++ ctrAux c l (i + 1)).isEmpty = false := by
      cases hx : xorBytes b (c.enc (beBytes c.block i)) with
      | nil => rw [hx] at hlen; simp at hlen; omega
      | cons _ _ => rfl
    simp only [ctrAux, chunksAux, hne, List.take_left' hlen, List.drop_left' hlen, Bool.false_eq_true, if_false, List.flatten_cons]
    rw [xorBytes_twice _ _ (by rw [hc, hl b (by simp)]),
      ctrAux_twice c hb hc l (i + 1) fuel (fun x hx => hl x (by simp [hx])) (by simpa using h)]

/-- 32 bytes are two whole AES blocks. -/
theorem chunks_two (q : Bytes) (hq : q.length = 32) : chunks 16 q = [q.take 16, q.drop 16] := by
  have h1 : q.isEmpty = false := by cases q <;> simp at hq ⊢
  have h2 : (q.drop 16).isEmpty = false := by
    cases h : q.drop 16 with
    | nil => have := congrArg List.length h; simp [hq] at this
    | cons _ _ => rfl
  have h3 : ((q.drop 16).drop 16).isEmpty = true := by simp [hq]
  simp only [chunks, hq, chunksAux, h1, h2, h3, Bool.false_eq_true, if_false, if_true]
  rw [List.take_of_length_le (l := q.drop 16) (by simp [hq])]

/-- The counter mode keeps the length of two blocks. -/
theorem ctr_length (k v p : Bytes) (hp : p.length = 32) (hk : ∀ b, (Aes.encrypt k b).length = 16) : (ctr ⟨true, k⟩ v p).length = 32 := by
  simp only [ctr, Cipher.block, if_true, chunks_two p hp]
  simp [ctrAux, xorBytes, Cipher.enc, Cipher.block, hk, hp]

/-- What AES-SIV encrypted in two blocks it decrypts. -/
theorem sivDec_sivEnc (key ad p : Bytes) (hp : p.length = 32) (hk : ∀ b, (Aes.encrypt (key.drop (key.length / 2)) b).length = 16) :
    sivDec key ad (sivEnc key ad p).1 (sivEnc key ad p).2 = some p := by
  have hc : ∀ v : Bytes, ctr ⟨true, key.drop (key.length / 2)⟩ v (ctr ⟨true, key.drop (key.length / 2)⟩ v p) = p := by
    intro v
    have hlen := ctr_length _ v p hp hk
    have h := ctrAux_twice ⟨true, key.drop (key.length / 2)⟩ (by simp [Cipher.block]) (fun b => hk b) [p.take 16, p.drop 16] (beNat v) 32
      (by simp [hp, Cipher.block]) (by simp)
    simp only [List.flatten_cons, List.flatten_nil, List.append_nil, List.take_append_drop] at h
    simp only [ctr, Cipher.block, if_true, chunks_two p hp] at h hlen ⊢
    rw [chunks, hlen]
    exact h
  simp only [sivDec, sivEnc, hc, if_true]

/-- The synthetic IV is one block. -/
theorem s2v_length (k1 ad p : Bytes) (hk : ∀ b, (Aes.encrypt k1 b).length = 16) : (s2v k1 ad p).length = 16 := by
  unfold s2v
  split <;> exact hk _

/-- A record that was wrapped opens to the key it held. -/
theorem openRec_wrapRec (k : Bytes) (r : Rec) (h : r.material.length = r.keyLen) (hl : r.keyLen ≤ 32)
    (h1 : ∀ b, (Aes.encrypt (k.take (k.length / 2)) b).length = 16) (h2 : ∀ b, (Aes.encrypt (k.drop (k.length / 2)) b).length = 16) :
    openRec k (wrapRec k r) = some r := by
  have hf : (fit 32 r.material).length = 32 := by
    simp only [fit, slice, zeros, List.length_append, List.length_replicate, List.length_take, List.length_drop]; omega
  have hs : (sivEnc k r.header (fit 32 r.material)).1.length = 16 := s2v_length _ _ _ h1
  have hd := sivDec_sivEnc k r.header (fit 32 r.material) hf h2
  have hc : (sivEnc k r.header (fit 32 r.material)).2.length = 32 := ctr_length _ _ _ hf h2
  have hw : wrapRec k r = { r with material := (sivEnc k r.header (fit 32 r.material)).2 ++ (sivEnc k r.header (fit 32 r.material)).1 } := rfl
  have e1 : slice ((sivEnc k r.header (fit 32 r.material)).2 ++ (sivEnc k r.header (fit 32 r.material)).1) 32 16
      = (sivEnc k r.header (fit 32 r.material)).1 := by
    simp only [slice, List.drop_left' hc, List.take_of_length_le (Nat.le_of_eq hs), hs]; simp [zeros]
  have e3 : (fit 32 r.material).take r.keyLen = r.material := by
    simp only [fit, slice, List.drop_zero]
    have h5 : r.material.take 32 = r.material := List.take_of_length_le (by omega)
    rw [h5, List.take_append_of_le_length (by omega), List.take_of_length_le (by omega)]
  have e4 : (wrapRec k r).header = r.header := rfl
  have e5 : (wrapRec k r).keyLen = r.keyLen := rfl
  simp only [openRec, e4, e5]
  simp only [hw, e1, List.take_left' hc, hd, Option.map_some, e3]

end Sys2Proof.Machine
end

