-- ==== Sys2Proof/Tests/Slice0.lean ====
section
/-! SUPPORT. Small checks of the model: the ill-formed commands are refused, and for each statement that has hypotheses a named
theorem shows a concrete state and operands that meet them, clause by clause. Every state stands after reset but for the few fields
a check names. -/

namespace Sys2Proof.Tests

open Sys2Proof Sys2Proof.Machine

set_option Elab.async false

/-! ### Building blocks -/

/-- A request without a session, over the mailbox. -/
def rq0 : Req := ⟨0, 0, 0, 1, 0⟩

/-- A well-formed cycle, configuration change and heartbeat of pair 7, before a check alters one field. -/
def cycle0 : CycleMsg := ⟨7, false, 1, 0, 0, 0, 0, [], true⟩
/-- A configuration change. -/
def cfg0 : CfgChange := ⟨none, 1, zeros 48⟩
/-- A heartbeat of member 1. -/
def hb0 : Heartbeat := ⟨7, 1, 1, 0, 0, 0, 0, 1, 0, true⟩

/-- A token naming member 0. -/
def token0 : Token := ⟨7, 1, 0, false, 1, 0, true⟩

/-- A function whose memory space, bus mastering and MSI-X are on. -/
def fnOn : Fn := { fn0 with memSpace := true, busMaster := true, msixEnable := true }

/-- A module that serves: started, linked, function 0 on. -/
def ready : State :=
  { State.reset with
    service := .ready
    power := { power0 with stopPoint := 5 }
    link := { link0 with up := true, speed := 5, width := 16, perst := false }
    fns := [(0, fnOn)] }

/-- The same module with one virtual function, on too. -/
def withVf : State :=
  { ready with link := { ready.link with vfEnable := true, numVfs := 1 }, fns := [(0, fnOn), (1, fnOn)] }

/-- The serving module with one descriptor in flight, in slot 5. -/
def holding (x : Slot) : State := { ready with adm := { ready.adm with slots := [(5, x)] } }

/-- A module in the VENDOR state, whose requests need no role and no grant. -/
def vendor : State := { ready with life := { life0 with latched := 0x22 } }

/-- A descriptor: opcode with VERSION 1, the operand bytes, SRC, DST, their lengths and the two parameters. -/
def desc (op key1 : Nat) (ops : Bytes) (src dst srcLen dstLen p0 p1 : Nat) : Bytes :=
  leBytes 8 (op + 4096) ++ leBytes 8 key1 ++ zeros 16 ++ fit 64 ops ++ leBytes 8 src ++ leBytes 8 dst ++ leBytes 4 srcLen ++
    leBytes 4 dstLen ++ leBytes 4 p0 ++ leBytes 4 p1

/-- A descriptor of ring 0 and partition 0 at a stage. -/
def slotOf (st : Stage) (d : Bytes) : Slot := { newSlot 0 0 0 0 with desc := d, stage := st }

/-- A request without a session is taken, with nothing changed, where no envelope waits. -/
theorem taken (s : State) (rq : Req) (idx sub op : Nat) (hr : rq.session = 0) (h : s.od.inbox = []) (h2 : s.service ≠ .bootStopped) :
    Taken s rq idx sub op s := by
  refine ⟨?_, h2⟩
  have h4 : s.od.inbox.filter (fun e => e.1 != rq) = s.od.inbox := by rw [h]; rfl
  have h3 : ({ s with od := { s.od with inbox := s.od.inbox.filter (fun e => e.1 != rq) } } : State) = s := by rw [h4]
  unfold takeReq
  simp only [h3]
  simp [State.session, hr]

/-- In the factory states no grant is asked for. -/
theorem waived {t : State} {rq : Req} {clock : Bool} {cls part : Nat} {v grant : Bytes} (h : t.factory = true) :
    Granted t rq clock cls part v grant [] := ⟨by simp [State.mayGrant, h], .inl ⟨h, rfl⟩⟩

/-- A grant carries a request. -/
theorem byGrant {t : State} {rq : Req} {clock : Bool} {cls part : Nat} {v grant : Bytes} {g : Grant} (h : t.mayGrant rq = true)
    (hf : t.factory = false) (hg : t.grantFor cls part v grant clock = some g) : Granted t rq clock cls part v grant [.grantUse g.id g.own] :=
  ⟨h, .inr ⟨hf, g, hg, rfl⟩⟩

/-! ### Ill-formed commands, one for each check of WellFormed -/

theorem test_ill_formed_1 :
    (Instr.doorbell 256 0 0 0).wf = false ∧
    (Instr.doorbell 0 4096 0 0).wf = false ∧
    (Instr.doorbell 0 0 (2 ^ 32) 0).wf = false ∧
    (Instr.doorbell 0 0 0 (2 ^ 32)).wf = false ∧
    (Instr.descriptorReadIssue (256 * 4096)).wf = false ∧
    (Instr.readFault 65536 0).wf = false ∧
    (Instr.readFault 0 (2 ^ 64)).wf = false ∧
    (Instr.stepDispatch 0 48).wf = false ∧
    (Instr.hashStepDone 16).wf = false ∧
    (Instr.hawkmothOpDone 48 false).wf = false := by decide

theorem test_ill_formed_2 :
    (Instr.commitCycleAck (2 ^ 64)).wf = false ∧
    (Instr.commitCycleReceive { cycle0 with pairId := 2 ^ 32 }).wf = false ∧
    (Instr.orphanSweepFree (2 ^ 28)).wf = false ∧
    (Instr.sensorCalibration 16).wf = false ∧
    (Instr.telemetryRefresh (2 ^ 16) 0 0 0 0).wf = false ∧
    (Instr.telemetryRefresh 0 (2 ^ 16) 0 0 0).wf = false ∧
    (Instr.telemetryRefresh 0 0 (2 ^ 16) 0 0).wf = false ∧
    (Instr.telemetryRefresh 0 0 0 (2 ^ 32) 0).wf = false ∧
    (Instr.telemetryRefresh 0 0 0 0 (2 ^ 16)).wf = false ∧
    (Instr.recordRecoveryReply 0 1025 none).wf = false := by decide

theorem test_ill_formed_3 :
    (Instr.linkTrained 8 0 false).wf = false ∧
    (Instr.linkTrained 0 64 false).wf = false ∧
    (Instr.vfEnableSet (2 ^ 16)).wf = false ∧
    (Instr.disableAck 256).wf = false ∧
    (Instr.resetCold (2 ^ 16)).wf = false ∧
    (Instr.registerWrite 0 7 0 4 0).wf = false ∧
    (Instr.registerWrite 0 0 (2 ^ 32) 4 0).wf = false ∧
    (Instr.registerWrite 0 0 0 3 0).wf = false ∧
    (Instr.registerWrite 0 0 0 4 (2 ^ 64)).wf = false ∧
    (Instr.ideCheckFailed 16).wf = false := by decide

theorem test_ill_formed_4 :
    (Instr.doeDiscovery 256).wf = false ∧
    (Instr.spdmGetCertificate (⟨256, 0⟩) 0 0).wf = false ∧
    (Instr.spdmGetCertificate ⟨0x12, 0⟩ 0 (2 ^ 16)).wf = false ∧
    (Instr.keyProg 0 2 0 []).wf = false ∧
    (Instr.keyProg 0 0 2 []).wf = false ∧
    (Instr.quotaWrite { rq0 with transport := 3 } 0 0 0).wf = false ∧
    (Instr.quotaWrite rq0 0 (2 ^ 9) 0).wf = false ∧
    (Instr.quotaWrite rq0 0 0 (2 ^ 64)).wf = false ∧
    (Instr.partitionFunctionWrite rq0 0 0 [0#8]).wf = false ∧
    (Instr.grpDigEnable (256 * 1024) 0 0).wf = false := by decide

theorem test_ill_formed_5 :
    (Instr.grpDigEnable 0 (2 ^ 64) 0).wf = false ∧
    (Instr.grpDigEnable 0 0 32).wf = false ∧
    (Instr.grpDigConsWrite 0 (2 ^ 32)).wf = false ∧
    (Instr.bindingMaskWrite rq0 0 256 []).wf = false ∧
    (Instr.announcedMrWrite rq0 256 [] []).wf = false ∧
    (Instr.quorumOpen rq0 256 0 0 []).wf = false ∧
    (Instr.quorumOpen rq0 0 0 256 []).wf = false ∧
    (Instr.quorumApprove rq0 (2 ^ 32) 0 []).wf = false ∧
    (Instr.quorumApprove rq0 0 256 []).wf = false ∧
    (Instr.cardApprove rq0 0 4 [] ⟨[], []⟩).wf = false := by decide

theorem test_ill_formed_6 :
    (Instr.policyWrite rq0 0 (2 ^ 8) 0 []).wf = false ∧
    (Instr.componentStart rq0 [] (2 ^ 64) 0 []).wf = false ∧
    (Instr.componentStart rq0 [] 0 256 []).wf = false ∧
    (Instr.tier0Destroy rq0 (2 ^ 64) []).wf = false ∧
    (Instr.decTableWrite rq0 0 4 [] []).wf = false ∧
    (Instr.looperRecordSeal (2 ^ 64)).wf = false ∧
    (Instr.looperRefused (2 ^ 16)).wf = false ∧
    (Instr.conditionerBlockOut [0#8]).wf = false ∧
    (Instr.entropyHealthFail 256 0).wf = false ∧
    (Instr.entropyHealthFail 0 4096).wf = false := by decide

theorem test_ill_formed_7 :
    (Instr.laneGeneratorRekey 8).wf = false ∧
    (Instr.engineGeneratorRekey 10).wf = false ∧
    (Instr.holdoffWindowClose 96).wf = false ∧
    (Instr.msixCommit (2 ^ 11)).wf = false ∧
    (Instr.vectorControlWrite 0 (2 ^ 11) false).wf = false ∧
    (Instr.eicSrcPendW1c 0 48 0).wf = false ∧
    (Instr.eicMapWrite 0 768 0).wf = false ∧
    (Instr.coreHandlerEntry 4).wf = false ∧
    (Instr.wakeListWrite rq0 256 0).wf = false ∧
    (Instr.wakeListWrite rq0 0 (2 ^ 16)).wf = false := by decide

theorem test_ill_formed_8 :
    (Instr.mantleChannelAlarm 48 0).wf = false ∧
    (Instr.mantleChannelAlarm 0 (2 ^ 32)).wf = false ∧
    (Instr.enclosureLoopAlarm 64 0).wf = false ∧
    (Instr.caseSwitchAlarm 16 0).wf = false ∧
    (Instr.lightAlarm 12 0).wf = false ∧
    (Instr.railAlarm 256 0).wf = false ∧
    (Instr.fsmCodewordInvalid 4 0).wf = false ∧
    (Instr.sleeveInsertion [] [] [] (2 ^ 32)).wf = false ∧
    (Instr.sleeveLifeAccounting (2 ^ 28) 0).wf = false ∧
    (Instr.sleeveLifeAccounting 0 10).wf = false := by decide

theorem test_ill_formed_9 :
    (Instr.loopModeWrite rq0 false 64 0 false []).wf = false ∧
    (Instr.targetWrite rq0 256 []).wf = false ∧
    (Instr.pfailFlushEnd (2 ^ 32)).wf = false ∧
    (Instr.resetRequest rq0 256 []).wf = false ∧
    (Instr.blockReset rq0 8 0).wf = false ∧
    (Instr.blockReset rq0 0 64).wf = false ∧
    (Instr.seamLinkUp 5 0 0 0 [] (zeros 12) [] false false).wf = false ∧
    (Instr.seamLinkUp 0 1024 0 0 [] (zeros 12) [] false false).wf = false ∧
    (Instr.seamLinkUp 0 0 (2 ^ 16) 0 [] (zeros 12) [] false false).wf = false ∧
    (Instr.seamLinkUp 0 0 0 256 [] (zeros 12) [] false false).wf = false := by decide

theorem test_ill_formed_10 :
    (Instr.seamLinkUp 0 0 0 0 [] [0#8] [] false false).wf = false ∧
    (Instr.seamFrameRefused 0 (2 ^ 64)).wf = false ∧
    (Instr.seamFrameRelay 5 0 0 0 0 0 0 []).wf = false ∧
    (Instr.seamFrameRelay 0 (2 ^ 16) 0 0 0 0 0 []).wf = false ∧
    (Instr.seamFrameRelay 0 0 0 0 256 0 0 []).wf = false ∧
    (Instr.seamFrameRelay 0 0 0 0 0 (2 ^ 64) 0 []).wf = false ∧
    (Instr.seamFrameRelay 0 0 0 0 0 0 (2 ^ 64) []).wf = false ∧
    (Instr.linkDelayMeasure 0 (2 ^ 32)).wf = false ∧
    (Instr.syncReceive 0 (2 ^ 64) false).wf = false ∧
    (Instr.configWrite rq0 (2 ^ 16) 0 [] []).wf = false := by decide

theorem test_ill_formed_11 :
    (Instr.configChangeReceive 0 { cfg0 with epoch := 2 ^ 64 }).wf = false ∧
    (Instr.configPullDone (2 ^ 64) [] []).wf = false ∧
    (Instr.heartbeatReceive { hb0 with member := 2 }).wf = false ∧
    (Instr.tokenRecordReceive [0#8]).wf = false ∧
    (Instr.odReadSegment rq0 0 0 0 (2 ^ 32)).wf = false ∧
    (Instr.odWriteSegment rq0 0 0 0 (2 ^ 32) []).wf = false ∧
    (Instr.segmentStagingTimeout (2 ^ 32)).wf = false ∧
    (Instr.mailboxGo (2 ^ 32)).wf = false ∧
    (Instr.mgmtDatagram (2 ^ 48) ⟨0, zeros 16, 0⟩ []).wf = false ∧
    (Instr.mgmtDatagram 0 (⟨1024, zeros 16, 0⟩) []).wf = false := by decide

theorem test_ill_formed_12 :
    (Instr.orphanSweepPassEnd (2 ^ 32)).wf = false ∧
    (Instr.seamLinkFrameReceive 0 (2 ^ 64) [] false).wf = false ∧
    (Instr.seamLinkFrameReceive 0 0 [2 ^ 16] false).wf = false ∧
    (Instr.arbiterHeartbeatTimeout (2 ^ 16) 0).wf = false ∧
    (Instr.resyncCopyReceive 0 [256] []).wf = false := by decide

/-- The largest values stay well-formed. -/
theorem test_well_formed :
    (Instr.doorbell 255 4095 0xFFFFFFFF 0xFFFFFFFF).wf = true ∧
    (Instr.readFault 65535 0).wf = true ∧
    (Instr.stepDispatch 0 47).wf = true ∧
    (Instr.skipperStepDone 65535).wf = true ∧
    (Instr.commitCycleReceive cycle0).wf = true ∧
    (Instr.orphanSweepFree (2 ^ 28 - 1)).wf = true ∧
    (Instr.sensorCalibration 15).wf = true ∧
    (Instr.perstAssert).wf = true := by decide

/-! ### Worked examples of the spec -/

/-- The ring of the doorbell example of 03_work_rings.md. -/
def exampleRing : Ring := { ring0 with sizeLog2 := 8, fetch := 0xFFFFFF80, retire := 0xFFFFFF40 }

/-- The five rows of the doorbell example of 03_work_rings.md, under R101. -/
theorem test_doorbell_rows :
    doorbellOk exampleRing 0x40 0xFFFFFF40 = true ∧ doorbellOk exampleRing 0x41 0xFFFFFF40 = false ∧
    doorbellOk exampleRing 0xFFFFFF70 0xFFFFFF40 = false ∧ doorbellOk exampleRing 0xFFFFFF80 0xFFFFFF90 = false ∧
    doorbellOk exampleRing 0xFFFFFF80 0xFFFFFF80 = true := by decide +kernel

/-- The two LAPs under R104. -/
theorem test_lap_wraps : lapOf 0xFFFFFF80 256 = 0xFF ∧ lapOf 0x40 256 = 0 ∧ lapOf 0xA37 1024 = 2 := by decide +kernel

/-- The two handles of the example under R161. -/
theorem test_handles :
    hPart 0x1100000400000153 = 0x11 ∧ hSlot 0x1100000400000153 = 0x40 ∧ hGen 0x1100000400000153 = 1 ∧
    mkHandle 0x11 0x40 1 = 0x1100000400000153 ∧ mkHandle 0x11 0x41 1 = 0x11000004100001F1 := by decide +kernel

/-- ENGINE_TIME of the examples of 04_keys.md, 05_pin_and_mac.md and 08_hawkmoth_engines.md. -/
theorem test_engine_time : encodeTime 150 = 0x4B ∧ encodeTime 55 = 0x1B ∧ encodeTime 40001500 = 0xD989 := by decide +kernel

/-- The first control word of the translation example of 05_pin_and_mac.md. -/
def exampleDesc : Bytes := leBytes 8 0x0000051700021201 ++ zeros 112 ++ leBytes 4 0x140 ++ zeros 4

/-- Its fields under R105. -/
theorem test_descriptor_fields :
    dTag exampleDesc = 0x517 ∧ dLap exampleDesc = 2 ∧ dVersion exampleDesc = 1 ∧ opcode exampleDesc = 0x201 ∧ dDone exampleDesc = false ∧
    bit (dP0 exampleDesc) 8 = true ∧ bits (dP0 exampleDesc) 7 4 = 4 ∧ bits (dP0 exampleDesc) 3 0 = 0 := by decide +kernel

/-- The digits of the examples' PAN. -/
def examplePan : List Nat := [4, 0, 0, 0, 0, 0, 1, 2, 3, 4, 5, 6, 7, 8, 9, 9]

/-- Its two PAN fields, under R222. -/
theorem test_pan_fields :
    readPan (beBytes 10 0x4000001234567899FFFF) = .ok examplePan ∧
    panField 0 examplePan = beBytes 8 0x0000000123456789 ∧
    panField 4 examplePan = beBytes 16 0x44000001234567899000000000000000 := by decide +kernel

/-- The decrypted block of the example gives the PIN field and the PIN, and the new field is built from the fill drawn. -/
theorem test_pin_fields :
    xorBytes (beBytes 8 0x041234FEDCBA9876) (panField 0 examplePan) = beBytes 8 0x041234FFFFFFFFFF ∧
    pinOf 0xC400 0 (beBytes 8 0x041234FFFFFFFFFF) = some [1, 2, 3, 4] ∧
    pinBuild 4 [1, 2, 3, 4] (beBytes 8 0x3C9107E55B2D86F0) = beBytes 16 0x441234AAAAAAAAAA3C9107E55B2D86F0 := by decide +kernel

/-- The natural PIN, the sum without carry and the digits taken, under R231 and R232. -/
theorem test_reference_digits :
    (((nibbles (beBytes 8 0x8F3A1C27D5906B4E)).map (fun x => (nibbles (beBytes 8 0x0123456789012345)).getD x 0)).take 4) = [8, 5, 3, 0] ∧
    addDigits [8, 5, 3, 0] [3, 7, 0, 4] = [1, 2, 3, 4] ∧
    panRight 11 examplePan ++ [1] ++ [1, 2, 3, 4] = nibbles (beBytes 8 0x0012345678911234) ∧
    extract 4 (beBytes 8 0xB7E294AC0D5F318B) = [7, 2, 9, 4] := by decide +kernel

/-- The card verification value of the example, under R232 and R240. -/
theorem test_card_value :
    cvvDigits (zeros 48 ++ beBytes 10 0x4000001234567899FFFF ++ beBytes 2 0x2809 ++ beBytes 2 0x101F ++ zeros 66) =
      some (examplePan ++ [2, 8, 0, 9, 1, 0, 1]) ∧
    cvvBytes (extract 3 (beBytes 8 0x5E9A07C3B24D1F68)) = [0x59#8, 0x0F#8] := by decide +kernel

/-- The reservations of the origination example, under R252 and R255. -/
theorem test_transaction_counters :
    nextCounter true 0x1FF0 = some 0x1FF1 ∧ nextCounter true 0x1FF1 = some 0x1FF2 ∧ nextCounter true 0x1FF2 = some 0x1FF4 ∧
    nextCounter true 0x1FF4 = some 0x1FF8 ∧ nextCounter true 0x1FF8 = some 0x2000 ∧ nextCounter true 0x1FF800 = none ∧
    nextCounter false 0xFFFF0000 = none := by decide +kernel

/-- X and the ARPC input of the card example, under R262 and R266. -/
theorem test_card_derivation :
    emvX examplePan [1#8] = beBytes 8 0x0000123456789901 ∧
    xorBytes (beBytes 8 0x8E41D2075C19A36F) (beBytes 2 0x3030 ++ zeros 6) = beBytes 8 0xBE71D2075C19A36F := by decide +kernel

/-- The check digit and the output of the tokenise example, under R279. -/
theorem test_token_digits :
    luhnDigit [4, 0, 0, 0, 0, 0, 9, 0, 7, 2, 1, 5, 7, 8, 9] = 7 ∧
    ff1Middle (zeros 120 ++ leBytes 4 0x4D90 ++ zeros 4) (fun _ => [9, 0, 7, 2, 1, 5]) (examplePan.take 15) =
      [4, 0, 0, 0, 0, 0, 9, 0, 7, 2, 1, 5, 7, 8, 9] ∧
    ff1Output [4, 0, 0, 0, 0, 0, 9, 0, 7, 2, 1, 5, 7, 8, 9, 7] = beBytes 8 0x4000009072157897 ++ List.replicate 8 0xFF#8 := by decide +kernel

/-- The arithmetic of the raw example of 08_hawkmoth_engines.md. -/
theorem test_raw_values :
    powMod 5 3 1000003 = 125 ∧ 125 * 8001 % 1000003 = 122 ∧ invMod 0 1000003 = none ∧ invMod 5 1000003 = some 600002 := by decide +kernel

/-- The value V of the write example of 15_object_dictionary.md stands little-endian. -/
theorem test_od_value : leNat [0x00#8, 0x02#8] = 0x200 ∧ leBytes 2 0x3111 = [0x11#8, 0x31#8] := by decide +kernel

/-! ### Published vectors of the standards the spec names -/

/-- FIPS 180-4 example: SHA-256 and SHA-384 of "abc". -/
theorem test_sha2 :
    Sha.sha256 (ascii "abc") = beBytes 32 0xBA7816BF8F01CFEA414140DE5DAE2223B00361A396177A9CB410FF61F20015AD ∧
    slice (Sha.sha384 (ascii "abc")) 0 8 = beBytes 8 0xCB00753F45A35E8B := by decide +kernel

/-- FIPS 202: the first bytes of SHA3-256 of the empty message. -/
theorem test_sha3 : slice (Sha.sha3_256 []) 0 8 = beBytes 8 0xA7FFC6F8BF1ED766 := by decide +kernel

/-- FIPS 197, appendix C.1. -/
theorem test_aes :
    Aes.encrypt (beBytes 16 0x000102030405060708090A0B0C0D0E0F) (beBytes 16 0x00112233445566778899AABBCCDDEEFF) =
      beBytes 16 0x69C4E0D86A7B0430D8CDB78070B4C55A ∧
    Aes.decrypt (beBytes 16 0x000102030405060708090A0B0C0D0E0F) (beBytes 16 0x69C4E0D86A7B0430D8CDB78070B4C55A) =
      beBytes 16 0x00112233445566778899AABBCCDDEEFF := by decide +kernel

/-- FIPS 81: one block of DES. -/
theorem test_des :
    Des.enc1 (beBytes 8 0x0123456789ABCDEF) (beBytes 8 0x4E6F772069732074) = beBytes 8 0x3FA40E8A984D4815 := by decide +kernel


/-! ### States the checks stand on -/

/-! ### States on the path of a descriptor -/

/-- Ring 0 enabled, with a descriptor of it awaited in slot 5. -/
def ringOn : State := { ready with rings := [(0, { ring0 with state := .enabled, fetch := 1, prod := 1 })] }
def reading : State := { ringOn with adm := { ringOn.adm with slots := [(5, newSlot 0 0 0 0)] } }
def foreignRing : State := { ready with rings := [(3, { ring0 with part := 9 })] }
def vfRing : State := { withVf with rings := [(4096 + 255, { ring0 with state := .enabled, fetch := 1, prod := 1 })] }
/-- A NOP of ring 0 as it arrives. -/
def nopDesc : Bytes := desc 0 0 [] 0 0 0 0 0 0
/-- A ring of partition 0 that waits for its chain reservation, and one whose descriptors are fetched next. -/
def chainWaits : State := { ready with rings := [(0, { ring0 with state := .enabled, chainWait := true, chainAt := some 0 })] }
def fetching : State := { ready with rings := [(0, { ring0 with state := .enabled, prod := 3 })] }
def dataWaits : Slot := slotOf .dataWait (desc 0x104 0 [] 0x1000 0 16 0 0 0)
/-- Descriptors whose scatter list for the source, or for the destination, is still to come. -/
def sgWaits : Slot := slotOf .dataWait (leBytes 8 (0x104 + 4096 + 2 ^ 48) ++ (desc 0x104 0 [] 0x1000 0 16 0 0 0).drop 8)
def sgdWaits : Slot := slotOf .dataWait (leBytes 8 (0x104 + 4096 + 2 ^ 49) ++ (desc 0x104 0 [] 0x1000 0x2000 16 16 0 0).drop 8)
def resvWaits : Slot := slotOf .resvWait (desc 0x601 0 [] 0 0 0 0 0 0)
def fetchedNop : Slot := slotOf .fetched nopDesc
def fetchedBad : Slot := slotOf .fetched (desc 0xFFF 0 [] 0 0 0 0 0 0)
def fetchedMac : Slot := slotOf .fetched (desc 0x301 5 [] 0 0 0 0 0 0)
/-- A key record of partition 0, and one that cannot be read. -/
def key0 : Rec := { (newSlot 0 0 0 0).keyD 1 with tier := 1, alg := 0x110, version := 1, material := zeros 16 }
def missWaits : Slot := { slotOf .missWait (desc 0x301 (mkHandle 0 7 0) [] 0 0 0 0 0 0) with resvd := none }
def fetchedCvv : Slot := slotOf .fetched (desc 0x301 (mkHandle 0 7 0) [] 0 0 0 0 0 0)
def holdingActive (x : Slot) : State :=
  { holding x with parts := [(0, { part0 0 with key := .active })], keys := { keys0 with recs := [(7, ⟨key0, true, true, false⟩)] } }
/-- The record under an all-zero record key as the store holds it, and a module whose cache misses it. -/
def recKey0 : Bytes := zeros 64
def wrapped0 : Rec := wrapRec recKey0 key0
def missing : State :=
  { holding missWaits with
    parts := [(0, { part0 0 with key := .active, recKey := some recKey0 })]
    keys := { keys0 with unwrap := [7], recs := [(7, ⟨wrapped0, true, true, false⟩)] } }

/-- An all-zero AES-256 key encrypts to whole blocks, so the record opens to the key it holds. -/
theorem zeroKey_block (b : Bytes) : (Aes.encrypt (zeros 32) b).length = 16 := Aes.encrypt_length _ _ (by decide +kernel)
theorem missing_unwraps : missing.unwrapOf 7 = some key0 := by
  have h1 : missing.rcd 7 = some ⟨wrapped0, true, true, false⟩ := rfl
  have h2 : (missing.part wrapped0.part).recKey = some recKey0 := rfl
  rw [State.unwrapOf, h1, Option.bind_some, if_pos (by rfl), State.unwrapped, h2, Option.bind_some]
  exact openRec_wrapRec recKey0 key0 rfl (by decide) zeroKey_block zeroKey_block

/-- A descriptor bound for a hash unit, one for a Hawkmoth engine, and one running there. -/
def boundHash : Slot := { slotOf .bound (desc 0x301 5 [] 0 0 0 0 0 0) with steps := [.hash], started := true }
def boundPk : Slot := { slotOf .bound (desc 0x802 5 [] 0 0 0 0 0 0) with steps := [.hawkmoth, .hash], started := true, src := some [] }
def boundPlume : Slot := { slotOf .bound (desc 0x804 5 [] 0 0 0 0 0 0) with steps := [.plume], started := true }
def pfail (s : State) : State := { s with power := { s.power with pfail := true } }
def running (c : UnitClass) (st : List UnitClass) : Slot :=
  { slotOf .queued (desc 0x801 5 [] 0 0 0 0 0 0) with unit := some (c, 0), started := true, steps := st }
def onLane : State := { holding (running .skipper []) with units := { units0 with lanes := [(0, { lane0 with queue := [5] })] } }
def onHash : State := { holding (running .hash [.hawkmoth]) with units := { units0 with hashes := [(0, { hash0 with queue := [5] })] } }
def onEngine : State :=
  { holding (running .hawkmoth []) with units := { units0 with engines := [(0, { engine0 with st := .busy, queue := [5], bank := [(3, ⟨9, true⟩)] })] } }
def onPlume : State := { holding (running .plume []) with units := { units0 with plumes := [(0, { plume0 with st := .busy, queue := [5] })] } }
def inReset : State :=
  { ready with units := { units0 with engines := [(47, { engine0 with st := .inReset })], plumes := [(15, { plume0 with st := .inReset })] } }
def aborting : Slot := { running .hawkmoth [] with cut := some .aborted }
def abortingOn : State :=
  { holding aborting with units := { units0 with engines := [(0, { engine0 with st := .busy, queue := [5], bank := [(3, ⟨9, true⟩)] })] } }
/-- The VENDOR module serving, an engine of it at work, and one resetting. -/
def engineBusy : State := { vendor with units := { units0 with engines := [(0, { engine0 with st := .busy, queue := [5], bank := [(3, ⟨9, true⟩)] })] } }
def blockAt (c u : Nat) : State :=
  { vendor with units := { units0 with blockReq := some rq0, blockCls := c, blockUnit := u } }
def missingLost : State := { missing with keys := { missing.keys with recs := [(7, ⟨key0, false, false, false⟩)] } }
def rawRunning : Slot := { running .hawkmoth [] with desc := desc 0x903 0 [] 0 0 0 0 0 0x10001, sess := 0x10001, unit := some (.hawkmoth, 1) }
def onRawEngine : State :=
  { holding rawRunning with units := { units0 with engines := [(1, { engine0 with st := .session, sess := 0x10001, queue := [5] })] } }

/-- The active member of pair 7, and items that wait to commit. -/
def active : State :=
  { ready with od := { od0 with store := [(odKey 0x7100 1, leBytes 4 7)] }, pair := { pair0 with role := 3 } }
def counterItem : Item := ⟨[], [.counter 7 9], 0, none⟩
def counterQueued : State :=
  { ready with commit := { commit0 with queue := [counterItem] }, keys := { keys0 with recs := [(7, ⟨key0, true, true, false⟩)] } }
def page0 : Closed := ⟨0, [], false, false, 0⟩
def doneItem : Item := ⟨[5], [], 3, none⟩
def closedNop : Slot := { slotOf .closed nopDesc with res := some ⟨.ok, 0, 0, none, [], 0, 3⟩ }
def pageEmpty : State := { ready with commit := { commit0 with pages := [{ page0 with cycle := 4 }] } }
def pageDone : State := { holding closedNop with commit := { commit0 with pages := [{ page0 with items := [doneItem] }] } }
def cycleSent : State := { active with commit := { commit0 with cycles := [{ page0 with cycle := 1 }] }, seam := { seam0 with quarantine := 1 } }
def cycleSolo : State := { cycleSent with pair := { cycleSent.pair with solo := true } }
def doneNop : Slot := { slotOf .done nopDesc with res := some ⟨.ok, 0, 0, none, [], 0, 3⟩ }
def doneBlocked : State := { holding doneNop with fns := [(0, { fnOn with busMaster := false })] }
def pageOfItem : Closed := { page0 with items := [doneItem] }
def pageCycle4 : Closed := { page0 with cycle := 4 }
def cycleOne0 : Closed := { page0 with cycle := 1 }
def handoverCycle : Closed := { cycleOne0 with items := [doneItem], handover := true }
def cycleItem : State := { holding closedNop with pair := active.pair, od := active.od, commit := { commit0 with cycles := [handoverCycle] } }
def cycleOne : Closed := cycleOne0
def resultOk : Result := ⟨.ok, 0, 0, none, [], 0, 3⟩

/-! ### States for opcodes, rings, the host link and events -/

/-- A descriptor whose steps have run, for an opcode with the key it names. -/
def ranOp (op : Nat) : Slot := { slotOf .ran (desc op 5 [] 0 0 0 0 0 0) with keys := [⟨1, 5, 7, key0⟩] }
def commitFull (s : State) : State := { s with commit := { s.commit with queue := List.replicate 4096 counterItem } }

/-- A raw command of session 0x10001 (engine 1), waiting to run or on the engine. -/
def rawDesc (op key : Nat) (ops : Bytes) (p0 : Nat) : Bytes := desc op key ops 0 0 0 0 p0 0x10001
def onRaw (op key : Nat) (ops : Bytes) (p0 : Nat) : Slot :=
  { slotOf .ran (rawDesc op key ops p0) with unit := some (.hawkmoth, 1), sess := 0x10001, started := true }
def session1 : Engine := { engine0 with st := .session, sess := 0x10001, bank := [(0, ⟨4, false⟩), (1, ⟨5, false⟩), (2, ⟨7, false⟩)] }
def tagged1 : Engine := { session1 with bank := [(0, ⟨4, true⟩)] }
def secretOperands : Engine := { session1 with bank := [(0, ⟨0, true⟩), (2, ⟨7, false⟩)] }
def noInverse : Engine := { session1 with bank := [(2, ⟨7, false⟩)] }
def inSession (g : Engine) (x : Slot) : State :=
  { holding x with
    units := { units0 with engines := [(1, g)] }
    od := { od0 with store := [(odKey 0x2100 0x0F, leBytes 4 2), (odKey 0x3100 0x15, [1#8])] } }
def noSessions (x : Slot) : State := { holding x with od := { od0 with store := [(odKey 0x2100 0x0F, leBytes 4 0)] } }
def reserved : State :=
  { holding { ranOp 0x901 with stage := .queued } with units := { units0 with engines := [(1, { engine0 with reservedBy := some 5 })] } }
def idleSession : State :=
  { ready with opUs := 10000000, units := { units0 with engines := [(1, session1)] } }
/-- An RSA key of 2048 bits, for RAW_LOAD_KEY of its exponent. -/
def rsaRec : Rec := { key0 with alg := 0x21F, material := zeros 700 }
/-- The operand bytes of a raw command: R, A, B, N and E. -/
def rawOps (r a b n e : Nat) : Bytes := leBytes 2 r ++ leBytes 2 a ++ leBytes 2 b ++ leBytes 2 n ++ leBytes 2 e
def rawPrivDesc : Slot :=
  { onRaw 0x90A 5 (rawOps 9 0 0 0 0) (32 + 2 ^ 30) with keys := [⟨1, 5, 7, rsaRec⟩] }
def rawLoadKeyDesc : Slot := { onRaw 0x904 5 (rawOps 9 0 0 0 0) (1 + 2 ^ 25) with keys := [⟨1, 5, 7, rsaRec⟩] }

/-- Ring 9 in ERROR, stopping toward ERROR or HALTED, and of no valid size. -/
def ringAt (r : Ring) : State := { ready with rings := [(9, r)] }
def ringError9 : State := ringAt { ring0 with state := .error, errCode := 0x104, replay := 3, unwritten := [4] }
def stopping9 : State := ringAt { ring0 with state := .stopping, settle := .error, fetch := 3 }
def halting9 : State := ringAt { ring0 with state := .stopping, settle := .halted }
def badSize9 : State := ringAt { ring0 with sizeLog2 := 17 }
def digestOn : State := { ready with groups := [(1023, { group0 with enable := true, base := 0x20000, prod := 70, cons := 5, overflow := true })] }

/-- The digest ring of global group 1023 bound to a VF's group. -/
def hidden1023 : State := { withVf with groups := [(1023, { group0 with enable := true }), (1024, { group0 with glob := some 1023 })] }

/-- Main power in STANDBY, and the link held in reset. -/
def linkUpx2 : State := { ready with link := { ready.link with trainedOnce := true } }
def resetHeld : State := { ready with link := { ready.link with perst := true } }

/-- Function 1 disabling partition 1, and partition 1 disabled but for its acknowledgement. -/
def disable0 : Disable := ⟨1, .busMaster, 0, 0, 0, 0, 0, 0, none, none⟩
def acking : State := { withVf with parts := [(1, { part0 1 with dis := .disabling, disable := some disable0 })] }
def ackingFlr : State := { acking with fns := [(0, fnOn), (1, { fnOn with inFlr := true })] }
def closedBar : State := { ready with fns := [(0, { fnOn with memSpace := false })] }
def unready : State := { ready with power := { ready.power with stopPoint := 0 } }
def hot1 : State := { withVf with fns := [(0, fnOn), (1, { fnOn with d3hot := true })] }
def stalled1 : State :=
  { withVf with
    rings := [(4096, { ring0 with state := .enabled, prod := 1 })]
    fns := [(0, fnOn), (1, { fnOn with stallUs := 500000 })]
    od := { od0 with store := [(odKey 0x2101 0x0D, leBytes 4 5)] } }
def movingOn : Slot := { slotOf .queued (desc 0x104 5 [] 0x1000 0 16 0 0 0) with unit := some (.skipper, 7), started := true }
def moving : State :=
  { holding movingOn with
    parts := [(0, { part0 0 with dis := .disabling, disable := some { disable0 with fn := 0 } })]
    units := { units0 with lanes := [(7, { lane0 with queue := [5] })] } }

/-- A secured session, and an IDE stream with keys, in use, and Secure. -/
def secured : State := { ready with link := { ready.link with spdmSession := some 1, spdmKey := zeros 48 } }
def ideKeys : Tab Bytes := [(0, zeros 32), (1, zeros 32)]
def keysSet : State := { secured with link := { secured.link with ide := [(15, { ide0 with keys := ideKeys, active := [(0, 0)] })] } }
def secure : State :=
  { secured with link := { secured.link with ide := [(15, { ide0 with keys := ideKeys, active := [(0, 0), (1, 0)], secure := true })] } }
def certified : State :=
  { ready with
    life := { life0 with unsealed := true, certEc := zeros 100 }
    parts := [(0, { part0 0 with drbg := { drbg0 with ready := true, staged := zeros 200 } })] }
/-- The base point of P-384. -/
def p384Base : Bytes := beBytes 48 Ec.p384.gx ++ beBytes 48 Ec.p384.gy

/-- Source 3 pending, ready and mapped to vector 9 of function 0. -/
def sourceReady : State :=
  { ready with
    fns := [(0, { fnOn with msix := [(9, ⟨0xFEE00000, 33, false⟩)] })]
    eic := { eic0 with hostPend := [3, 4], ready := [3, 4], map := [(3, ⟨true, 2, 9⟩), (4, ⟨true, 1, 9⟩)] } }
def sourceMasked : State := { sourceReady with fns := [(0, fnOn)] }
def sourceHeld : State := { sourceReady with eic := { sourceReady.eic with globalHold := true } }
def fewVectors : State := { withVf with od := { od0 with store := [(odKey 0x2101 0x0C, leBytes 2 2)] } }
def windowOpen : State := { sourceReady with eic := { sourceReady.eic with ready := [], holdOff := [(0, ⟨10, true, 5⟩)] } }

/-- Core 3 with its watchdog source pending, claimed and in its handler. -/
def coreAt (k : Core) (l : List Nat) : State := { ready with eic := { eic0 with cores := [(3, k)], corePend := l } }
def wakeListed (p : Power) : State :=
  { ready with
    power := { ready.power with power := p, mainOk := false, aux := true }
    eic := { eic0 with wakeArmed := true }
    od := { od0 with store := [(odKey 0xA020 64, leBytes 2 1041), (odKey 0xA021 1, leBytes 4 60)] } }
def strayed : State := { withVf with fns := [(1, { fnOn with stray := 3, dropped := true })] }
def coreClaimed : State := coreAt { core0 with claimed := [(15, 1443)], entered := 1 } []
def workless : State := { ready with power := { ready.power with idleUs := 0xFFFFFFFF } }
def idling : State := { ready with power := { ready.power with power := .idle } }
def openQueued : Slot := { ranOp 0x901 with stage := .queued }
def coreEntered : State := coreAt { core0 with entered := 1 } []
def timerUnarmed : State := { wakeListed .off with eic := eic0 }
def coreBarked : State := coreAt { core0 with wdog := 1 } []

/-- A descriptor with the key at position 1 that stands in slot 7 of the store, its handle named. -/
def keyRan (op : Nat) : Slot := { slotOf .ran (desc op (mkHandle 0 7 0) [] 0 0 0 0 0 0) with keys := [⟨1, mkHandle 0 7 0, 7, key0⟩] }
def keyHeld (x : Slot) : State := { holding x with keys := { keys0 with recs := [(7, ⟨key0, true, true, false⟩)] } }
def linkLost : State := { ready with link := { ready.link with up := false, trainedOnce := true, perstSeenHigh := true, warmOnLinkdown := true } }
def resettable : State := { ready with link := { ready.link with perstSeenHigh := true } }
def perstStandby : State := { wakeListed .standby with
  link := { ready.link with perst := true }
  od := { od0 with store := [(odKey 0xA020 64, leBytes 2 1042)] } }
def linkDown : State := { withVf with link := { withVf.link with up := false, trainedOnce := true, warmOnLinkdown := false } }
def noAri : State := { ready with link := { ready.link with ari := false } }
def vfsBusy : State := { acking with link := { acking.link with vfEnable := false } }

/-! ### States of the key store, of grants, and of the entropy block -/

/-- A record that lives under no storage key: the sweep frees it. -/
def orphaned : State := { ready with keys := { keys0 with recs := [(7, ⟨{ key0 with part := 9 }, true, true, false⟩)] }, parts := [(9, { part0 9 with key := .destroying })] }
def keyLost : KeyRec := ⟨wrapped0, false, false, false⟩
def recordLost : State :=
  { ready with
    keys := { keys0 with recs := [(7, keyLost)], recover := [(7, 0)] }
    parts := [(0, { part0 0 with recKey := some recKey0 })] }
theorem recordLost_unwraps : (recordLost.unwrapped wrapped0).isSome = true := by
  have h2 : (recordLost.part wrapped0.part).recKey = some recKey0 := rfl
  have h : recordLost.unwrapped wrapped0 = some key0 := by
    rw [State.unwrapped, h2, Option.bind_some]
    exact openRec_wrapRec recKey0 key0 rfl (by decide) zeroKey_block zeroKey_block
  rw [h]; rfl
def recordLostPaired : State := { recordLost with od := { od0 with store := [(odKey 0x7200 1, leBytes 2 3 ++ leBytes 2 5)] } }
def recordLostLast : State := { recordLostPaired with keys := { recordLostPaired.keys with recover := [(7, 1)] } }

/-- The VENDOR module with one virtual function, and partitions of it in several states. -/
def vendorVf : State := { vendor with link := { vendor.link with vfEnable := true, numVfs := 1 }, fns := [(0, fnOn), (1, fnOn)] }
def vendorPart (p : Nat) (x : Part) : State := { vendorVf with parts := [(p, x)] }
def unmapped5 : State :=
  { vendorVf with
    od := { od0 with store := [(odKey 0x2105 1, [0#8]), (odKey 0x21FF 3, leBytes 2 256)] }
    parts := [(5, { part0 5 with fn := 0 })] }
def quotaWaits : State := { ready with od := { od0 with quotas := [(rq0, 1, 4, 64)] } }
def quotaShort : State := { ready with od := { od0 with quotas := [(rq0, 1, 4, 63)] } }
def creatable : State :=
  { vendor with
    entropy := { entropy0 with ready := true, st := 3, pool := [zeros 32, zeros 32] }
    tamper := { tamper0 with drs := some (zeros 32) }
    parts := [(255, { part0 255 with key := .empty })] }
/-- A creation and a new mask that wait for KD, whose last block Looper ends. -/
def forming (task : KdTask) (k : KeyState) : State :=
  { creatable with
    keys := { keys0 with kdJobs := [⟨some (rq0, 0x31FF, 3, 0x21), [], task⟩] }
    units := { units0 with looper := { looper0 with queue := [0], block := 2, drawn := true, keyReg := some (zeros 32), out := zeros 32 } }
    parts := [(255, { part0 255 with key := k, psk := some (zeros 32) })] }
def activePart : State :=
  { vendorPart 255 { part0 255 with key := .active, psk := some (zeros 32) } with keys := { keys0 with kd := some (zeros 32) } }
def migrating (k : Nat) : State := { vendor with meas := { meas0 with migration := k } }

/-- Member 63, a Security Officer and Key Custodian; his card stands on port 3. The card signs, with his ephemeral point the base point
as the module's is, over a challenge whose hash is the x coordinate of the sum of the base point and his key. -/
def cardPoint : Bytes := Ec.encode Ec.p256 (Ec.base Ec.p256)
def cred63 : Bytes :=
  4#8 :: (beBytes 32 0xa2d38fbf91988a7fa59f4a3b8de8fb0c92a80e91ec1c666499ff00397997bac9 ++
    beBytes 32 0x8f6b76c089d97c4016b7688bc89b6f91c528d9c84c96dfbd41b168f9639f63a6)
def cardChallenge : Bytes := beBytes 32 6
def cardSig : Bytes :=
  beBytes 32 0x1a243e70b0bd4171a9539dc6f72dc96ec470cd163c01150e29f72f3b5e1a48e ++
    beBytes 32 0x1a243e70b0bd4171a9539dc6f72dc96ec470cd163c01150e29f72f3b5e1a48e
/-- The card's answer under the key of that exchange, and the component it holds. -/
def cardAnswer : Bytes := zeros 28 ++ beBytes 16 268741769119899367571163026742761265814
def component0 : Bytes := beBytes 16 222542768332813151237942364449666613084
def member63 : State :=
  { vendor with
    keys := { keys0 with grantKey := some (zeros 32) }
    od := { od0 with store := [(odKey 0x353F 1, [3#8]), (odKey 0x353F 3, cred63)] }
    parts := [(0, { part0 0 with key := .active, drbg := { drbg0 with ready := true, staged := zeros 40 ++ cardChallenge ++ zeros 200 } })]
    quorum := { quorum0 with cards := [(3, true)], requests := [⟨1, 5, 0, 1, zeros 32, cardChallenge, [], 0⟩] } }
def request1 : GrantReq := ⟨1, 5, 0, 1, zeros 32, cardChallenge, [], 0⟩
/-- Class 5 asks for one approval. -/
def single63 : State := { member63 with od := { member63.od with store := (odKey 0x3305 1, [1#8]) :: member63.od.store } }
/-- The template of a tier 0 AES key-encrypting key. -/
def tier0Template : Bytes := leBytes 2 0x110 ++ [0x4B#8, 0x30#8, 0x58#8, 0x4E#8, 0x30#8, 0x30#8, 0#8, 0#8] ++ zeros 22
def loading (n : Nat) (l : List Bytes) : State :=
  { member63 with quorum := { member63.quorum with load := { load0 with state := 1, template := tier0Template, count := n, parts := l } } }
/-- The record that component makes with a first one of zeros. -/
def creation0 : NewKey :=
  ⟨readTemplate (loading 2 [zeros 16]).quorum.load.template, false, 4, component0, (loading 2 [zeros 16]).quorum.load.parent,
    match (loading 2 [zeros 16]).named (loading 2 [zeros 16]).quorum.load.part (loading 2 [zeros 16]).quorum.load.parent with
      | none => []
      | some r => r.rcd.anc, 0⟩
theorem creates : (newRecord (loading 2 [zeros 16]) (loading 2 [zeros 16]).quorum.load.part creation0).isSome = true := by decide +kernel
def created0 : Created := (newRecord (loading 2 [zeros 16]) (loading 2 [zeros 16]).quorum.load.part creation0).get creates
theorem created0_made : newRecord (loading 2 [zeros 16]) (loading 2 [zeros 16]).quorum.load.part creation0 = some created0 := (Option.some_get creates).symm
theorem card_agrees : agreed cred63 (Ec.encode Ec.p256 (Ec.mul Ec.p256 1 (Ec.base Ec.p256))) cardPoint cardChallenge cardSig = true := by
  decide +kernel
theorem card_component : openComponent (cardKey 1 cardPoint) cardAnswer = some component0 := by decide +kernel
def tier0Key : KeyRec := ⟨{ key0 with tier := 0 }, true, true, false⟩
def tier0Held : State := { vendor with keys := { keys0 with recs := [(7, tier0Key)] } }

/-- A module starting, at stop points 0 and 2, and at work. -/
def starting (k : Nat) : State := { State.reset with power := { power0 with stopPoint := k } }
def unsealedVendor : State := { vendor with life := { vendor.life with sealed := false } }
def looperAt (l : Looper) : State := { ready with units := { units0 with looper := l }, entropy := { entropy0 with powered := true, st := 3, passed := 0xFFF } }
def logged1 : LogRec := ⟨9, 0, 1, true, 0, 0, 0, 0, 0, 0, false, [], 0, []⟩
def sealable : State :=
  { ready with units := { units0 with looper := { looper0 with recordKey := some (zeros 32) } }, log := { log0 with nand := [(logged1, none)] } }
def entropyAt (e : Entropy) : State := { ready with entropy := e }
def pooled : Entropy := { entropy0 with powered := true, st := 3, ready := true, passed := 0xFFF, pool := [zeros 32, zeros 32] }
def drawing1 : State := entropyAt { pooled with draws := [(4, 300255, 1), (2, 300001, 2)] }
def keyed0 (n : Nat) : Gen := { gen0 with key := some (zeros 32), blocks := n }
def keyedLane (n : Nat) : State :=
  { entropyAt { pooled with gens := [(9, keyed0 n)] } with units := { units0 with lanes := [(7, { lane0 with gen := keyed0 n })] } }

/-- RANDOM_BYTES for 4 bytes, and DRBG_RESEED, of an instance that serves. -/
def drbg1 : Drbg := { drbg0 with ready := true, key := zeros 32, v := zeros 16, tokens := 4000 }
def randomAt (x : Slot) (d : Drbg) : State := { holding x with parts := [(0, { part0 0 with drbg := d })], entropy := pooled }
def random4 : Slot := slotOf .ran (desc 0xA01 0 [] 0 0 0 0 0 4)
def random4g : Slot := { random4 with random := true }
def random4w : Slot := { random4 with stage := .drawWait }
def reseed0 : Slot := slotOf .ran (desc 0xA02 0 [] 0 0 0 0 0 0)
def cachedTwo : State := { ready with keys := { keys0 with cache := [(7, ⟨0, 0, key0⟩), (8, ⟨0, 0, key0⟩)] } }
def poolFull : State := entropyAt { pooled with held := [zeros 32], pool := List.replicate 64 (zeros 32) }
def drsKept : State := { ready with tamper := { tamper0 with drs := some (zeros 32) } }
def looperMid : State := looperAt { looper0 with queue := [0], block := 1, drawn := true, keyReg := some (zeros 32) }
def looperAsks : State := looperAt { looper0 with queue := [0], block := 1 }
def looperFed : State := { looperAsks with entropy := { looperAsks.entropy with held := [zeros 32] } }
def looperEnd : State := looperAt { looper0 with queue := [4], block := 1, drawn := true, keyReg := some (zeros 32) }
def tested : State := entropyAt { pooled with st := 2, ready := false }
def countOver : State := randomAt reseed0 { drbg1 with counter := 2 ^ 20 }
def intervalOver : State := { randomAt reseed0 drbg1 with opUs := 1000000 }
/-- 128 bytes of samples that pass the tests, and the entropy block that fails on a constant bit. -/
def samples0 : Bytes := (List.range 128).map (fun i => byteOf ((i * i * i * 37 + i * i * 11 + i * 101) / 4))
def tokenWaits : State := randomAt random4w { drbg1 with waiting := [5] }
def disabled1 : State := vendorPart 1 { part0 1 with dis := .disabled }
def tokensShort : State := randomAt random4 { drbg1 with tokens := 3999 }
def stagedMost : State := randomAt reseed0 { drbg1 with staged := zeros 1536 }
def orphanKey : KeyRec := ⟨{ key0 with part := 9 }, true, true, false⟩
def reseeded : State := randomAt { reseed0 with draws := 1 } drbg1
def loadStale : State := { loading 2 [] with opUs := 300000001 }
def formingStart : State := { drsKept with service := .starting, power := { drsKept.power with stopPoint := 2 } }
def kdAsked : State := { drsKept with keys := { keys0 with kdJobs := [⟨none, [], .own 0⟩] } }
def served (who : Nat) (cls : Nat) : State := entropyAt { pooled with draws := [(cls, who, 1)] }
def random4p : Slot := { slotOf .ran (desc 0xA01 0 [] 0 0 0 0 1 4) with random := true }
def loadFresh : State := { loading 2 [] with opUs := 300000000 }
def warming : State := entropyAt { entropy0 with st := 1 }
def testing : State := entropyAt { entropy0 with st := 2 }
def destroyedEmpty : State := { orphaned with keys := keys0 }
def reseed1 : Slot := { reseed0 with draws := 1 }
def keyGood : KeyRec := ⟨key0, true, true, false⟩

/-! ### States of tamper, life cycle, reset and power -/

/-- A request over the Seam, and a module that holds one grant without a digest for a class. -/
def rqSeam : Req := ⟨2, 0, 0, 1, 9⟩
def grantHead : Bytes := zeros 16
def grantBytes : Bytes := grantHead ++ grantMac (zeros 32) grantHead (zeros 32)
def grantOf (cls : Nat) : Grant := ⟨grantBytes, cls, 0, 1, 1, 8, 1, zeros 32, 0, true⟩
def holdsGrant (cls life : Nat) : State :=
  { ready with
    life := { life0 with latched := life }
    keys := { keys0 with grantKey := some (zeros 32) }
    seam := { seam0 with unsynced := false }
    quorum := { quorum0 with grants := [grantOf cls] } }

/-- The grant's own MAC verifies. -/
theorem grant_mac : grantBytes.length = 32 ∧ (slice grantBytes 16 16 == grantMac (zeros 32) (slice grantBytes 0 16) (zeros 32)) = true := by
  decide +kernel

/-- The grant passes for its class and any value. -/
theorem grant_passes (s : State) (c : Nat) (v : Bytes) (hk : s.keys.grantKey = some (zeros 32)) (hg : s.quorum.grants = [grantOf c])
    (hu : s.seam.unsynced = false) (ht : s.timeUs = 0) (hq : s.commit.queue = [])
    (hj : s.keys.kdJobs = []) :
    s.grantFor c 0 v (grantOf c).bytes false = some (grantOf c) := by
  have hz : allZero (zeros 32) = true := by decide
  simp [State.grantFor, hk, hg, hu, ht, hq, hj, State.usesPending, grantOf, grant_mac.1, grant_mac.2, hz]

def commissioned (cls : Nat) : State :=
  { holdsGrant cls 0x33 with od := { od0 with store := [(odKey 0x8010 2, [1#8])] } }

def loopsOn : State :=
  { ready with od := { od0 with store := [(odKey 0x423E 1, [1#8]), (odKey 0x423E 2, leBytes 4 100), (odKey 0x423E 3, leBytes 4 200),
      (odKey 0x423F 1, [2#8]), (odKey 0x430F 1, [1#8])] } }
def pendingMain (c : AlarmClass) : State :=
  { ringOn with
    tamper := { tamper0 with pendingMain := [(0, c)] }
    keys := { keys0 with cache := [(7, ⟨0, 0, key0⟩)], kd := some (zeros 32) }
    parts := [(0, { part0 0 with key := .active, psk := some (zeros 32) })] }
/-- Channel 47 with its sequence, and responses for a module in start-up, and for one without main power. -/
def sampling : State := { ready with tamper := { tamper0 with prbs := [(47, 1)] } }
def pendingBoot : State := { pendingMain .lock with service := .starting }
def pendingLow : State := { pendingMain .halt with power := { ready.power with mainOk := false } }
def sleeveDue : State := { ready with life := { life0 with sleeve := true, sleeveDue := true } }
def sleeved : State := { ready with life := { life0 with sleeve := true, sleeveAuth := 1, daysLeft := 91 } }
def dark : State :=
  { ready with
    power := { ready.power with mainOk := false, power := .off }
    tamper := { tamper0 with drs := some (zeros 32), flags := [3], latch := true } }
def flagged : State := { vendor with service := .locked, tamper := { tamper0 with flags := [3], latch := true, alarmOut := true } }
def unlockOwed : State := { ready with tamper := { tamper0 with unlockAt := true } }
def windowVendor : State := { vendor with od := { od0 with store := [(odKey 0x423F 3, leBytes 4 110)] } }
def resetOwed : State := { ready with life := { life0 with resetPend := true, otp := (3, 0x0F0F0F0F) :: otp0.drop 3 |> fun l => otp0.take 3 ++ l } }
def noIdentity : State := { vendor with life := { vendor.life with identity := false }, entropy := pooled }
def noEntropy : State := { vendor with life := { vendor.life with identity := false } }
def uncertified : State := { vendor with life := { vendor.life with certsSet := false } }
/-- An authorisation certificate of the right length, not signed. -/
def unsignedCert : Bytes := zeros 52 ++ [0xFF#8] ++ zeros 4726
def debugOpen : State := { ready with opUs := 5, life := { life0 with dbgOpen := true, dbgEnd := 5, dbgValid := true } }

/-- The module off, about to reset, and orderly. -/
def off : State := { ready with power := { ready.power with mainOk := false, power := .off } }
def asked (kind : Nat) (orderly : Bool) : State :=
  { ringOn with power := { ready.power with waiting := some ⟨kind, 4, orderly, 2⟩, wasCold := false, dramValid := true } }
def sramLost : State := { off with tamper := { tamper0 with sram := false } }
def askedEarly : State := { asked 2 false with power := { (asked 2 false).power with wasCold := true, stopPoint := 3 } }
def offFailed : State := { off with entropy := { entropy0 with st := 4 } }
def drsHeld (k : Nat) : State :=
  { starting k with
    keys := { keys0 with kd := some (zeros 32) }
    units := { units0 with looper := { looper0 with nandKey := some (zeros 32) } }
    parts := [(0, { part0 0 with key := .active })] }
def readySoon : State := { starting 4 with entropy := pooled }
def cutting : State := { starting 3 with adm := { State.reset.adm with slots := [(5, running .hawkmoth [])] } }
def auxOn : State := { off with power := { off.power with aux := true } }
def stockResetOwed : State := { ready with life := { life0 with resetPend := true } }
def debugRunning : State := { debugOpen with opUs := 4 }

/-- An all-zero signature never verifies. -/
theorem zero_never_verifies (c : Ec.Curve) (key h : Bytes) : Ec.verifyEnc c key h (zeros 32 ++ zeros 32) = false := by
  rw [show zeros 32 ++ zeros 32 = zeros 64 from rfl]
  have hz : ∀ a n, beAt (zeros 64) a n = 0 := by
    intro a n
    have h : ∀ k, beNat (List.replicate k 0#8) = 0 := by
      intro k; induction k with
      | zero => rfl
      | succ k ih => simpa [beNat, List.replicate_succ] using ih
    show beNat (((List.replicate 64 0#8).drop a).take n ++ List.replicate _ 0#8) = 0
    rw [List.drop_replicate, List.take_replicate, List.replicate_append_replicate, h]
  unfold Ec.verifyEnc
  split
  · rfl
  · simp [Ec.verify, hz]

/-- The samples of one byte, and the walk over bytes that looks at the failures after each: it gives what `sampled` gives, and the
kernel evaluates it byte by byte. -/
def sampleByte (frame : List (Nat × Bool)) (n : Sampling) (x : Byte) : Sampling :=
  (List.range 8).foldl (fun m i => m.step frame (bit x.toNat i)) n
def walk (frame : List (Nat × Bool)) : Bytes → Sampling → Sampling
  | [], n => n
  | x :: l, n => if n.fails = [] then walk frame l (sampleByte frame n x) else walk frame l (sampleByte frame n x)
theorem walk_eq (frame : List (Nat × Bool)) (l : Bytes) (n : Sampling) : l.foldl (sampleByte frame) n = walk frame l n := by
  induction l generalizing n with
  | nil => rfl
  | cons x l ih => rw [List.foldl_cons, ih, walk, ite_self]
theorem clear_samples : (testing.entropy.sampled (fit 128 samples0)).fails = [] := by
  show (List.foldl (sampleByte testing.entropy.frame) _ _).fails = []
  rw [walk_eq]; decide +kernel
theorem stuck_samples : (testing.entropy.sampled (fit 128 (zeros 128))).fails ≠ [] := by
  show (List.foldl (sampleByte testing.entropy.frame) _ _).fails ≠ []
  rw [walk_eq]; decide +kernel

/-! ### States of the cluster and of the pair -/

/-- A module at position 0 of a grid of 4 rows and 4 columns, alone or in a cluster, its links UP. -/
def grid : Tab Bytes := [(odKey 0x7000 3, leBytes 2 (3 * 32 + 3))]
def clusterId : Bytes := List.replicate 16 1#8
def clusterGrid : Tab Bytes := [(odKey 0x7000 1, clusterId), (odKey 0x7000 3, leBytes 2 (3 * 32 + 3)), (odKey 0x7000 5, leBytes 2 0 ++ leBytes 6 (2 ^ 48 - 1))]
def portOn : Port := { port0 with st := 3, neighbour := 3, wrapped := false, key := some (zeros 32), credits := [(1, 8), (2, 16), (3, 256), (4, 256), (5, 256)] }
def linkedWith (store : Tab Bytes) (p : Port) : State :=
  { ready with od := { od0 with store := store }, seam := { seam0 with ports := [(0, p), (1, portOn), (2, portOn), (3, portOn), (4, portOn)] } }
def training : State := linkedWith (grid ++ [(odKey 0x7000 4, [31#8])]) { port0 with st := 2 }
def linked : State := linkedWith grid portOn
def frame1 : Frame := ⟨0, 3, 0, 2, 8, 5, 0, 1, 0, []⟩
def resending : State := linkedWith grid { portOn with fails := 7, replay := [frame1] }
def failing : State := linkedWith grid { portOn with fails := 8 }
def clustered : State := linkedWith clusterGrid portOn
/-- A member whose acting master stands at position 1. -/
def follower : State :=
  linkedWith [(odKey 0x7000 1, clusterId), (odKey 0x7000 3, leBytes 2 (3 * 32 + 3)), (odKey 0x7000 5, leBytes 2 1 ++ leBytes 6 (2 ^ 48 - 1))] portOn
def inBand (t : Nat) : State := { ready with opUs := t, seam := { seam0 with inBand := some 0, unsynced := true } }
def drifted (o : Int) : State := { follower with seam := { follower.seam with offset := o } }
/-- Members 0 to 2, Security Officers and Auditors, who satisfy every class. -/
def members : Tab Bytes := [(odKey 0x3500 1, [15#8]), (odKey 0x3501 1, [15#8]), (odKey 0x3502 1, [15#8]), (odKey 0x3503 1, [15#8])]
def registered : State := { vendor with od := { od0 with store := members } }
def pulling : State := { follower with seam := { follower.seam with pulling := some 0, quarantine := 1 } }
def conflicted : State := { vendor with seam := { seam0 with quarantine := 2, conflict := true } }

/-- Member 0 of pair 7, its arbiter session open, in a role. -/
def pairStore : Tab Bytes := [(odKey 0x7100 1, leBytes 4 7)]
def inPair (p : Pair) : State :=
  { ready with
    opUs := 10
    od := { od0 with store := pairStore }
    pair := p
    seam := { seam0 with ports := [(4, portOn)] } }
def unlinkedPair (p : Pair) : State := { inPair p with seam := seam0 }
def keyedPair : Pair := { pair0 with arbKey := some (zeros 32) }
def tokened : Pair := { keyedPair with tokenHeld := true }
def hbOther : Heartbeat := { hb0 with pairId := 9 }
/-- A token record for member 0 or 1 of pair 7, its MAC under an all-zero session key. -/
def tokenHead (m : Nat) : Bytes := leBytes 4 7 ++ leBytes 8 1 ++ [byteOf m, 0#8, 0#8, 0#8] ++ leBytes 8 1 ++ leBytes 8 0
def tokenRec (m : Nat) : Bytes := tokenHead m ++ slice (Sha.hmac256 (zeros 32) (tokenHead m)) 0 16
def tokenFor (m : Nat) : Token := ⟨7, 1, m, false, 1, 0, true⟩
def arbitrated : State :=
  { ready with od := { od0 with store := [(odKey 0x7100 1, leBytes 4 7), (odKey 0x7100 4, leBytes 2 3)] } }
def switchable : State :=
  { inPair { pair0 with role := 3, partner := some { hb0 with flags := 1 } } with life := { life0 with latched := 0x22 } }
def cycleLate (b : Bool) : Closed := { page0 with cycle := 1, late := b }
def lateOf (b : Bool) : State := { inPair { pair0 with role := 3 } with commit := { commit0 with cycles := [cycleLate b] } }
def gapped : State := inPair { pair0 with role := 1, gap := true }
def copying : State :=
  { inPair { pair0 with role := 1, resync := true } with keys := { keys0 with recs := [(7, ⟨key0, true, true, false⟩), (8, ⟨{ key0 with part := 9 }, true, true, false⟩)] } }
def vaulted : State := { clustered with pair := { pair0 with vaults := [(3 * 256 + 255, { vault0 with cycle := 4 })] } }
def refereed : State := inPair { pair0 with refs := [(9, { referee0 with a := ⟨true, some hbOther, 0⟩ })] }
def epochFour : State := { follower with od := { od0 with store := follower.od.store ++ [(odKey 0x7000 6, leBytes 8 4)] } }
def activeRings : State := { inPair { tokened with role := 3 } with rings := ringOn.rings }
def standbyUntokened : State := inPair { tokened with role := 1, tokenHeld := false }
def claimingForeign : State := inPair { tokened with role := 2, foreign := true }
def refereeA : Referee := { referee0 with a := ⟨true, some hbOther, 0⟩ }
def unlinkedActive : State := unlinkedPair { keyedPair with role := 3 }
def collarSeen : State := inPair { pair0 with collarRx := true }
def activeTokened : State := inPair { tokened with role := 3 }
def claiming : State := inPair { tokened with role := 2 }
def standbyTokened : State := inPair { tokened with role := 1 }
def standby : State := inPair { pair0 with role := 1 }
def hbBad : Heartbeat := { hb0 with macOk := false }
def lateItem (b : Bool) : Closed := { handoverCycle with late := b, handover := false }
def lostCycle : State := { inPair { pair0 with role := 1 } with adm := (holding closedNop).adm, commit := { commit0 with cycles := [lateItem false] } }
def activeResync : State := inPair { pair0 with role := 3 }
def cycleTwo : CycleMsg := { cycle0 with cycle := 2 }
def cycleFive : CycleMsg := { cycle0 with cycle := 5 }
def cfgNext : CfgChange := ⟨some (0x3301, 2, [2#8]), 1, zeros 48⟩
def cfgNone : CfgChange := ⟨none, 1, zeros 48⟩
def cfgFour : CfgChange := ⟨none, 4, zeros 48⟩
def entry3500 : Entry := (odEntry 0x3500 1).get rfl
def vendorFollower : State := { follower with life := { life0 with latched := 0x22 } }
def cfgAhead : CfgChange := ⟨none, 2, zeros 48⟩

/-! ### States of the object dictionary, its transports and the log -/

/-- The mailbox busy with a request without a session. -/
def mailboxBusy : State := { ready with od := { od0 with busy := true } }
def session0 : Session := ⟨63, 1, false, 5, [], false, 0, [], [], zeros 32, zeros 32, none, 0, [], 0⟩
/-- A request of session 4 over the management port, and a module that holds the session. -/
def rqSess : Req := ⟨1, 4, 5, 1, 9⟩
def inSession4 (x : Session) : State := { vendor with od := { od0 with sessions := [(4, x), (9, x)], nextSess := 10 } }
def staging : Session := { session0 with stageIdx := some (0x3001, 1), stageTot := 9, stageData := [1#8], stageUs := 3 }
/-- A NONE-session envelope of a read request, over the mailbox and over the management port. -/
def readBody : Bytes := leBytes 2 0x1000 ++ [1#8, 1#8] ++ leBytes 4 77
def envelope : Bytes := [1#8, 0#8] ++ leBytes 2 8 ++ leBytes 4 0 ++ leBytes 8 0 ++ readBody
def mailboxFull : State := { ready with od := { od0 with reqBuf := (List.range 24).filterMap (fun i => let b := envelope.getD i 0#8; if b = 0#8 then none else some (i, b)) } }
def rqRead : Req := ⟨0, 0, 0, 77, 0⟩
def rqMgmt : Req := ⟨1, 0, 0, 77, 9⟩
def mgmtAddr : Bytes := List.replicate 16 1#8
def mgmtUp : State := { ready with od := { od0 with mgmtUp := true, store := [(odKey 0x1010 1, [1#8]), (odKey 0x1010 3, mgmtAddr)] } }
/-- The address the module was given and its default port are its own; the link-local one is not needed. -/
theorem mgmtUp_addressed : mgmtUp.mgmtAddressed mgmtAddr 5170 = true := by
  have h : mgmtUp.odNat 0x1010 5 = 5170 ∧ mgmtUp.odGet 0x1010 3 = mgmtAddr ∧ allZero mgmtAddr = false := by decide +kernel
  simp [State.mgmtAddressed, h]
/-- A body that waits at its dispatcher: a QUORUM_CANCEL, say. -/
def heldBody : Bytes := leBytes 2 0x3400 ++ [4#8, 0x20#8] ++ leBytes 4 4 ++ leBytes 4 77 ++ zeros 4
/-- No byte of partition 0's instance is staged. -/
def undrawn : State := { member63 with parts := [] }
def relaying : State := { ready with od := { od0 with relays := [(3, rqMgmt, 77)] } }
def replyFrame : Bytes := leBytes 2 0x1000 ++ [1#8, 0x81#8] ++ leBytes 4 0 ++ leBytes 4 77
def logging : State :=
  { ready with units := { units0 with looper := { looper0 with nandKey := some (zeros 32), recordKey := some (zeros 32) } }, log := { log0 with mainBuf := [logged1], next := 10 } }
def loggingOff : State := { logging with power := { logging.power with pfail := true } }
def sealed1 : State := { logging with life := { life0 with latched := 0x22 } }
def queued2 : State := { ready with pending := [.hostLinkDown, .warmupEnd] }
def stagedOld : State := { inSession4 staging with opUs := 300000003 }
def stagedNew : State := { inSession4 staging with opUs := 300000002 }
def sessionOld : State := { inSession4 session0 with opUs := 10 ^ 12 }
def rqOpen : Req := { rqSess with session := 0 }
/-- What stands after the module took a request of session 4. -/
def authTaken : State := (takeReq (inSession4 session0) rqSess 0 0 0x41).1
def closeTaken : State := (takeReq (inSession4 session0) rqSess 0 0 0x42).1
def sessionTaken : Session := { session0 with seq := 6, busy := true }
def segTaken2 : State := (takeReq (inSession4 staging) rqSess 0x3001 1 0x22).1
def segTaken : State := (takeReq (inSession4 session0) rqSess 0x3001 1 0x22).1
/-- The entries the dictionary checks name. -/
def entry1000 : Entry := (odEntry 0x1000 1).get rfl
def entry3001 : Entry := (odEntry 0x3001 1).get rfl
def entry1020 : Entry := (odEntry 0x1020 2).get rfl
def entry7000 : Entry := (odEntry 0x7000 1).get rfl

/-! ### Hypotheses met -/

theorem witness_DoorbellTakesIndices :
    (ringOn.barOpen 0 = true ∧ 4095 < (if 0 = 0 then 4096 else 256) ∧ ringOn.ringPart (0 * 4096 + 4095) = some 0 ∧ (ringOn.part
      0).fn = 0 ∧ (0 = 0 → ringOn.vfRingOf 4095 = none) ∧ (ringOn.ring (0 * 4096 + 4095)).state = RingState.disabled) ∧
    (ringOn.barOpen 0 = true ∧ 0 < (if 0 = 0 then 4096 else 256) ∧ ringOn.ringPart (0 * 4096 + 0) = some 0 ∧ (ringOn.part 0).fn
      = 0 ∧ (0 = 0 → ringOn.vfRingOf 0 = none) ∧ (ringOn.ring (0 * 4096 + 0)).state ≠ RingState.disabled ∧ ((ringOn.ring (0 *
      4096 + 0)).state = RingState.enabled → doorbellOk (ringOn.ring (0 * 4096 + 0)) (64 % 2 ^ 32) (0 % 2 ^ 32) = true)) ∧
    (vfRing.barOpen 1 = true ∧ 255 < (if 1 = 0 then 4096 else 256) ∧ vfRing.ringPart (1 * 4096 + 255) = some 1 ∧ (vfRing.part
      1).fn = 1 ∧ (1 = 0 → vfRing.vfRingOf 255 = none) ∧ (vfRing.ring (1 * 4096 + 255)).state = RingState.enabled ∧ doorbellOk
      (vfRing.ring (1 * 4096 + 255)) (66 % 2 ^ 32) (2 % 2 ^ 32) = false) ∧
    ((∀ (q : ℕ), foreignRing.ringPart (0 * 4096 + 3) = some q → (foreignRing.part q).fn ≠ 0) ∧ foreignRing.barOpen 0 = true ∧ 3
      < (if 0 = 0 then 4096 else 256)) := by
  refine ⟨?_, ?_, ?_, ?_⟩
  · decide +kernel
  · decide +kernel
  · decide +kernel
  · exact ⟨by
    intro q h
    have h9 : foreignRing.ringPart (0 * 4096 + 3) = some 9 := by decide +kernel
    rw [h9] at h; obtain rfl := Option.some.inj h; decide +kernel, by decide +kernel⟩

theorem witness_ArrivalChecksDescriptor :
    (reading.awaited 0 = some (5, newSlot 0 0 0 0) ∧ (newSlot 0 0 0 0).cut = none ∧ reading.slot 5 = some (newSlot 0 0 0 0) ∧
      (newSlot 0 0 0 0).chain = none ∧ tsorted reading.adm.slots = true ∧ (reading.ring 0).state = RingState.enabled ∧
      arrivalCheck reading 0 (newSlot 0 0 0 0).index (fit 128 nopDesc) = none) ∧
    (reading.awaited 0 = some (5, newSlot 0 0 0 0) ∧ (newSlot 0 0 0 0).cut = none ∧ reading.slot 5 = some (newSlot 0 0 0 0) ∧
      (newSlot 0 0 0 0).chain = none ∧ tsorted reading.adm.slots = true ∧ (reading.ring 0).state = RingState.enabled ∧
      (reading.ring 0).chainAt = none ∧ arrivalCheck reading 0 (newSlot 0 0 0 0).index (fit 128 (zeros 128)) = some 1) ∧
    (reading.slot 5 = some (newSlot 0 0 0 0) ∧ (reading.ring (newSlot 0 0 0 0).rid).state = RingState.enabled) := by
  refine ⟨?_, ?_, ?_⟩
  · decide +kernel
  · decide +kernel
  · decide +kernel

theorem witness_FetchAndWaits :
    (chainWaits.ringPart 0 = some 0 ∧ (chainWaits.ring 0).chainWait = true ∧ (chainWaits.ring 0).chainAt.isSome = true ∧ tget
      chainWaits.adm.chainHold 0 = none ∧ chainWaits.inFlight 0 - chainWaits.chainFetched 0 + 64 ≤ chainWaits.quota 0 4) ∧
    ((holding sgWaits).slot 5 = some sgWaits ∧ sgWaits.stage ≠ Stage.reading ∧ sgWaits.stage.uncommitted = true ∧
      (sgWaits.bufReads = 0 → sgWaits.owed = []) ∧ (dSrcSg sgWaits.desc && sgWaits.sgSrc.isNone) = true ∧ sgOk (leBytes 8 8192
      ++ leBytes 4 16 ++ leBytes 4 1) (dSrcLen sgWaits.desc) true = true) ∧
    ((holding sgdWaits).slot 5 = some sgdWaits ∧ sgdWaits.stage ≠ Stage.reading ∧ sgdWaits.stage.uncommitted = true ∧
      (sgdWaits.bufReads = 0 → sgdWaits.owed = []) ∧ (dSrcSg sgdWaits.desc && sgdWaits.sgSrc.isNone) = false ∧ (dDstSg
      sgdWaits.desc && sgdWaits.sgDst.isNone) = true ∧ sgOk (leBytes 8 8192 ++ leBytes 4 16 ++ leBytes 4 1) (dDstLen
      sgdWaits.desc) false = true) ∧
    ((holding dataWaits).slot 5 = some dataWaits ∧ dataWaits.stage ≠ Stage.reading ∧ dataWaits.stage.uncommitted = true ∧
      (dataWaits.bufReads = 0 → dataWaits.owed = []) ∧ (dSrcSg dataWaits.desc && dataWaits.sgSrc.isNone) = false ∧ (dDstSg
      dataWaits.desc && dataWaits.sgDst.isNone) = false ∧ dataWaits.src = none) ∧
    ((holding resvWaits).slot 5 = some resvWaits ∧ resvWaits.stage = Stage.resvWait ∧ List.length (holding resvWaits).resv <
      4096) ∧
    ((dropDeficit fetching).nextFetch = some (0, 0, 32)) := by
  refine ⟨?_, ?_, ?_, ?_, ?_, ?_⟩
  · decide +kernel
  · decide +kernel
  · decide +kernel
  · decide +kernel
  · decide +kernel
  · decide +kernel

theorem witness_KeyBindDecides :
    ((holdingActive fetchedCvv).slot 5 = some fetchedCvv ∧ fetchedCvv.stage = Stage.fetched ∧ (holdingActive fetchedCvv).fenced
      fetchedCvv = false ∧ (holdingActive fetchedCvv).chainReady fetchedCvv = true ∧ fetchedCvv.cut = none ∧ (bindsAfterSrc
      fetchedCvv.desc = true → buffersReady fetchedCvv.desc fetchedCvv.sgSrc fetchedCvv.sgDst fetchedCvv.src = true) ∧
      opcodes.contains (opcode fetchedCvv.desc) = true ∧ (isRaw (opcode fetchedCvv.desc) = true → (holdingActive
      fetchedCvv).quota fetchedCvv.part 15 ≠ 0) ∧ (opcode fetchedCvv.desc = 0 ∨ (holdingActive fetchedCvv).seam.quarantine = 0)
      ∧ (namesKey fetchedCvv.desc = true → ((holdingActive fetchedCvv).part fetchedCvv.part).key = KeyState.active) ∧
      keyPositions fetchedCvv.desc ≠ []) ∧
    ((holding fetchedNop).slot 5 = some fetchedNop ∧ fetchedNop.stage = Stage.fetched ∧ (holding fetchedNop).fenced fetchedNop
      = false ∧ (holding fetchedNop).chainReady fetchedNop = true ∧ fetchedNop.cut = none ∧ (bindsAfterSrc fetchedNop.desc =
      true → buffersReady fetchedNop.desc fetchedNop.sgSrc fetchedNop.sgDst fetchedNop.src = true) ∧ opcodes.contains (opcode
      fetchedNop.desc) = true ∧ (isRaw (opcode fetchedNop.desc) = true → (holding fetchedNop).quota fetchedNop.part 15 ≠ 0) ∧
      (opcode fetchedNop.desc = 0 ∨ (holding fetchedNop).seam.quarantine = 0) ∧ (namesKey fetchedNop.desc = true → ((holding
      fetchedNop).part fetchedNop.part).key = KeyState.active) ∧ keyPositions fetchedNop.desc = [] ∧ wholeBlocks fetchedNop =
      none ∧ fetchedNop.keys = []) ∧
    ((holding fetchedBad).slot 5 = some fetchedBad ∧ fetchedBad.stage = Stage.fetched ∧ (holding fetchedBad).fenced fetchedBad
      = false ∧ (holding fetchedBad).chainReady fetchedBad = true ∧ fetchedBad.cut = none ∧ (bindsAfterSrc fetchedBad.desc =
      true → buffersReady fetchedBad.desc fetchedBad.sgSrc fetchedBad.sgDst fetchedBad.src = true) ∧ opcodes.contains (opcode
      fetchedBad.desc) = false) ∧
    ((holding fetchedMac).slot 5 = some fetchedMac ∧ fetchedMac.stage = Stage.fetched ∧ (holding fetchedMac).fenced fetchedMac
      = false ∧ (holding fetchedMac).chainReady fetchedMac = true ∧ fetchedMac.cut = none ∧ (bindsAfterSrc fetchedMac.desc =
      true → buffersReady fetchedMac.desc fetchedMac.sgSrc fetchedMac.sgDst fetchedMac.src = true) ∧ opcodes.contains (opcode
      fetchedMac.desc) = true ∧ isRaw (opcode fetchedMac.desc) = false ∧ (holding fetchedMac).seam.quarantine = 0 ∧ namesKey
      fetchedMac.desc = true ∧ ((holding fetchedMac).part fetchedMac.part).key ≠ KeyState.active) ∧
    (missing.unwrapOf 7 = some key0 ∧ missing.slot 5 = some missWaits ∧ missWaits.stage = Stage.missWait ∧ missWaits.missing =
      some 7 ∧ missing.lives key0 = true ∧ List.length (missing.cacheSet key0.part 7) < 16) ∧
    ((∀ (r : KeyRec), missingLost.rcd 7 = some r → r.readable = false) ∧ missingLost.slot 5 = some missWaits ∧ missWaits.stage
      = Stage.missWait ∧ missWaits.missing = some 7) := by
  refine ⟨?_, ?_, ?_, ?_, ?_, ?_⟩
  · decide +kernel
  · decide +kernel
  · decide +kernel
  · decide +kernel
  · exact ⟨missing_unwraps, by decide +kernel⟩
  · exact ⟨by
    intro r h
    have h9 : missingLost.rcd 7 = some ⟨key0, false, false, false⟩ := by decide +kernel
    rw [h9] at h; obtain rfl := Option.some.inj h; decide +kernel, by decide +kernel⟩

theorem witness_DispatchAndStepEnd :
    ((pfail (holding boundHash)).slot 5 = some boundHash ∧ boundHash.stage = Stage.bound ∧ boundHash.cut = none ∧ (if
      boundHash.started = true then boundHash.steps else stepsOf boundHash) = [UnitClass.hash] ∧ (pfail (holding
      boundHash)).power.pfail = true) ∧
    ((holding boundHash).slot 5 = some boundHash ∧ boundHash.stage = Stage.bound ∧ boundHash.cut = none ∧ (if boundHash.started
      = true then boundHash.steps else stepsOf boundHash) = [UnitClass.hash] ∧ (holding boundHash).power.pfail = false ∧
      (boundHash.started && UnitClass.hash.zeroes && (holding boundHash).disabling boundHash) = false ∧ (isRaw (opcode
      boundHash.desc) = true → ((holding boundHash).rawEngine boundHash).isSome = true) ∧ buffersReady boundHash.desc
      boundHash.sgSrc boundHash.sgDst boundHash.src = true ∧ (holding boundHash).unitFree boundHash (UnitClass.hash, 15) = true
      ∧ (holding boundHash).bulkRoom boundHash = true ∧ (boundHash.started = true ∨ (holding boundHash).blocksHeld boundHash
      (UnitClass.hash, 15) = true ∧ (holding boundHash).entropy.ready = true ∧ (holding boundHash).supply boundHash =
      Supply.ready)) ∧
    ((holding boundPk).slot 5 = some boundPk ∧ boundPk.stage = Stage.bound ∧ boundPk.cut = none ∧ (if boundPk.started = true
      then boundPk.steps else stepsOf boundPk) = [UnitClass.hawkmoth, UnitClass.hash] ∧ (holding boundPk).power.pfail = false ∧
      (boundPk.started && UnitClass.hawkmoth.zeroes && (holding boundPk).disabling boundPk) = false ∧ (isRaw (opcode
      boundPk.desc) = true → ((holding boundPk).rawEngine boundPk).isSome = true) ∧ buffersReady boundPk.desc boundPk.sgSrc
      boundPk.sgDst boundPk.src = true ∧ (holding boundPk).unitFree boundPk (UnitClass.hawkmoth, 47) = true ∧ (holding
      boundPk).bulkRoom boundPk = true ∧ (boundPk.started = true ∨ (holding boundPk).blocksHeld boundPk (UnitClass.hawkmoth,
      47) = true ∧ (holding boundPk).entropy.ready = true ∧ (holding boundPk).supply boundPk = Supply.ready)) ∧
    ((holding boundPlume).slot 5 = some boundPlume ∧ boundPlume.stage = Stage.bound ∧ boundPlume.cut = none ∧ (if
      boundPlume.started = true then boundPlume.steps else stepsOf boundPlume) = [UnitClass.plume] ∧ (holding
      boundPlume).power.pfail = false ∧ (boundPlume.started && UnitClass.plume.zeroes && (holding boundPlume).disabling
      boundPlume) = false ∧ (isRaw (opcode boundPlume.desc) = true → ((holding boundPlume).rawEngine boundPlume).isSome = true)
      ∧ buffersReady boundPlume.desc boundPlume.sgSrc boundPlume.sgDst boundPlume.src = true ∧ (holding boundPlume).unitFree
      boundPlume (UnitClass.plume, 15) = true ∧ (holding boundPlume).bulkRoom boundPlume = true ∧ (boundPlume.started = true ∨
      (holding boundPlume).blocksHeld boundPlume (UnitClass.plume, 15) = true ∧ (holding boundPlume).entropy.ready = true ∧
      (holding boundPlume).supply boundPlume = Supply.ready)) ∧
    (onLane.slot 5 = some (running UnitClass.skipper []) ∧ (running UnitClass.skipper []).cut = none ∧ (running
      UnitClass.skipper []).ends = none ∧ (running UnitClass.skipper []).unit = some (UnitClass.skipper, 0) ∧ (onLane.lane
      0).queue.contains 5 = true ∧ (∀ k ∈ (running UnitClass.skipper []).symKeys, ∃ p ∈ (running UnitClass.skipper []).pages,
      p.lane = 0 ∧ p.handle = k.handle)) ∧
    (onHash.slot 5 = some (running UnitClass.hash [UnitClass.hawkmoth]) ∧ (running UnitClass.hash [UnitClass.hawkmoth]).cut =
      none ∧ (running UnitClass.hash [UnitClass.hawkmoth]).ends = none ∧ (onHash.hash 0).queue = [5]) ∧
    (onEngine.slot 5 = some (running UnitClass.hawkmoth []) ∧ (running UnitClass.hawkmoth []).cut = none ∧ (running
      UnitClass.hawkmoth []).ends = none ∧ (onEngine.engine 0).queue = [5] ∧ (onEngine.engine 0).st ≠ UnitState.inReset ∧
      (compared (running UnitClass.hawkmoth []) = true → true = true) ∧ (∀ e ∈ onEngine.adm.slots, e.2.stage = Stage.ran →
      e.2.unit ≠ some (UnitClass.hawkmoth, 0)) ∧ isRaw (opcode (running UnitClass.hawkmoth []).desc) = false) ∧
    (onRawEngine.slot 5 = some rawRunning ∧ rawRunning.cut = none ∧ rawRunning.ends = none ∧ (onRawEngine.engine 1).queue = [5]
      ∧ (onRawEngine.engine 1).st ≠ UnitState.inReset ∧ (compared rawRunning = true → true = true) ∧ (∀ e ∈
      onRawEngine.adm.slots, e.2.stage = Stage.ran → e.2.unit ≠ some (UnitClass.hawkmoth, 1)) ∧ isRaw (opcode rawRunning.desc)
      = true ∧ onRawEngine.holdsSession rawRunning = true) ∧
    (onPlume.slot 5 = some (running UnitClass.plume []) ∧ (running UnitClass.plume []).cut = none ∧ (running UnitClass.plume
      []).ends = none ∧ (onPlume.plume 0).queue = [5] ∧ (onPlume.plume 0).st ≠ UnitState.inReset ∧ (compared (running
      UnitClass.plume []) = true → true = true)) := by
  refine ⟨?_, ?_, ?_, ?_, ?_, ?_, ?_, ?_, ?_⟩
  · decide +kernel
  · decide +kernel
  · decide +kernel
  · decide +kernel
  · decide +kernel
  · decide +kernel
  · decide +kernel
  · decide +kernel
  · decide +kernel

theorem witness_MismatchSuppressesResult :
    (onEngine.slot 5 = some (running UnitClass.hawkmoth []) ∧ (running UnitClass.hawkmoth []).cut = none ∧ (running
      UnitClass.hawkmoth []).ends = none ∧ (running UnitClass.hawkmoth []).chain = none ∧ compared (running UnitClass.hawkmoth
      []) = true ∧ onEngine.units.mismatch2 = none ∧ (onEngine.engine 0).queue = [5] ∧ (onEngine.engine 0).st ≠
      UnitState.inReset ∧ (isRaw (opcode (running UnitClass.hawkmoth []).desc) = true → onEngine.holdsSession (running
      UnitClass.hawkmoth []) = true) ∧ (∀ e ∈ onEngine.adm.slots, e.2.stage = Stage.ran → e.2.unit ≠ some (UnitClass.hawkmoth,
      0))) ∧
    (onPlume.slot 5 = some (running UnitClass.plume []) ∧ (running UnitClass.plume []).cut = none ∧ (running UnitClass.plume
      []).ends = none ∧ (running UnitClass.plume []).chain = none ∧ compared (running UnitClass.plume []) = true ∧
      onPlume.units.mismatch2 = none ∧ (onPlume.plume 0).queue = [5] ∧ (onPlume.plume 0).st ≠ UnitState.inReset) := by
  refine ⟨?_, ?_⟩
  · decide +kernel
  · decide +kernel

theorem witness_UnitsReturnAfterZeroing :
    ((inReset.engine 47).st = UnitState.inReset) ∧
    ((inReset.engine 47).st = UnitState.inReset ∧ 8 < inReset.enginesLeft ∧ 47 < 48 ∧ inReset.asleep = false) ∧
    ((inReset.plume 15).st = UnitState.inReset) ∧
    ((inReset.plume 15).st = UnitState.inReset ∧ 2 < inReset.plumesLeft ∧ 15 < 16 ∧ inReset.asleep = false) ∧
    (UnitClass.hawkmoth.zeroes = true ∧ tsorted abortingOn.adm.slots = true) ∧
    (Taken engineBusy rq0 40962 1 32 engineBusy ∧ engineBusy.holds rq0 1 true = true ∧ engineBusy.units.blockReq = none ∧ 7 <
      blockCount 1 ∧ engineBusy.unitIdle 1 7 = true) ∧
    (Taken engineBusy rq0 40962 1 32 engineBusy ∧ engineBusy.holds rq0 1 true = true ∧ engineBusy.units.blockReq = none ∧ 15 <
      blockCount 2 ∧ engineBusy.unitIdle 2 15 = true) ∧
    (Taken engineBusy rq0 40962 1 32 engineBusy ∧ engineBusy.holds rq0 1 true = true ∧ engineBusy.units.blockReq = none ∧ 47 <
      blockCount 3 ∧ engineBusy.unitIdle 3 47 = true) ∧
    (Taken engineBusy rq0 40962 1 32 engineBusy ∧ engineBusy.holds rq0 1 true = true ∧ engineBusy.units.blockReq = none ∧ 15 <
      blockCount 4 ∧ engineBusy.unitIdle 4 15 = true) ∧
    (Taken engineBusy rq0 40962 1 32 engineBusy ∧ engineBusy.holds rq0 1 true = true ∧ engineBusy.units.blockReq = none ∧ 0 <
      blockCount 3 ∧ engineBusy.unitIdle 3 0 = false) ∧
    (Taken engineBusy rq0 40962 1 32 engineBusy ∧ engineBusy.holds rq0 1 true = true ∧ engineBusy.units.blockReq = none ∧
      blockCount 3 ≤ 48) ∧
    ((blockAt 1 7).units.blockReq = some rq0) ∧
    ((blockAt 2 15).units.blockReq = some rq0) ∧
    ((blockAt 3 47).units.blockReq = some rq0) ∧
    ((blockAt 4 15).units.blockReq = some rq0) := by
  refine ⟨?_, ?_, ?_, ?_, ?_, ?_, ?_, ?_, ?_, ?_, ?_, ?_, ?_, ?_, ?_⟩
  · decide +kernel
  · decide +kernel
  · decide +kernel
  · decide +kernel
  · decide +kernel
  · exact ⟨taken _ _ _ _ _ rfl rfl (by decide), by decide +kernel⟩
  · exact ⟨taken _ _ _ _ _ rfl rfl (by decide), by decide +kernel⟩
  · exact ⟨taken _ _ _ _ _ rfl rfl (by decide), by decide +kernel⟩
  · exact ⟨taken _ _ _ _ _ rfl rfl (by decide), by decide +kernel⟩
  · exact ⟨taken _ _ _ _ _ rfl rfl (by decide), by decide +kernel⟩
  · exact ⟨taken _ _ _ _ _ rfl rfl (by decide), by decide +kernel⟩
  · decide +kernel
  · decide +kernel
  · decide +kernel
  · decide +kernel

theorem witness_CommitCloses :
    (active.paired = true ∧ active.pair.role = 3 ∧ active.power.pfail = false) ∧
    ((counterQueued.paired = true → counterQueued.pair.role ≠ 3) ∧ counterQueued.power.pfail = false ∧ counterQueued.closing
      16384 ≠ []) := by
  refine ⟨?_, ?_⟩
  · decide +kernel
  · decide +kernel

theorem witness_DurabilityFollowsOrder :
    (pageEmpty.commit.pages = [pageCycle4]) ∧
    (pageDone.commit.pages = [pageOfItem]) ∧
    (cycleSent.commit.cycles = [cycleOne] ∧ cycleSent.pair.solo = false) ∧
    (cycleItem.commit.cycles = [handoverCycle] ∧ cycleItem.pair.solo = false) ∧
    (cycleSolo.commit.cycles = [cycleOne] ∧ cycleSolo.pair.solo = true) ∧
    (cycleSent.commit.cycles = [cycleOne] ∧ 2 ≠ cycleOne.cycle) := by
  refine ⟨?_, ?_, ?_, ?_, ?_, ?_⟩
  · decide +kernel
  · decide +kernel
  · decide +kernel
  · decide +kernel
  · decide +kernel
  · decide +kernel

theorem witness_CompletionWritesHeaderLast :
    ((holding doneNop).slot 5 = some doneNop ∧ doneNop.res = some resultOk ∧ doneNop.stage = Stage.done ∧ doneNop.noWrite =
      false ∧ mayWrite (holding doneNop) doneNop = true) ∧
    (doneBlocked.slot 5 = some doneNop ∧ doneNop.res = some resultOk ∧ doneNop.stage = Stage.done ∧ doneNop.noWrite = false ∧
      mayWrite doneBlocked doneNop = false) := by
  refine ⟨?_, ?_⟩
  · decide +kernel
  · decide +kernel

theorem witness_ComputingOpcodesAnswer :
    ((((.nop 5, 0x000, fun _ _ => {}) : Instr × Nat × (State → Slot → Out)) ∈ computing 5) ∧ (HasRoom (((.nop 5, 0x000, fun _ _
      => {}) : Instr × Nat × (State → Slot → Out)).2.2 (holding (ranOp 0)) (ranOp 0)) (ranOp 0) (holding (ranOp 0))) ∧ tsorted
      (holding (ranOp 0)).adm.slots = true ∧ ((holding (ranOp 0)).due 5 ((.nop 5, 0x000, fun _ _ => {}) : Instr × Nat × (State
      → Slot → Out)).2.1 = some (ranOp 0)) ∧ ((((.nop 5, 0x000, fun _ _ => {}) : Instr × Nat × (State → Slot → Out)).2.2
      (holding (ranOp 0)) (ranOp 0)).changes = [])) ∧
    ((Instr.macVerify 5, 770, macVerifyOut) ∈ computing 5 ∧ HasRoom ((Instr.macVerify 5, 770, macVerifyOut).2.2 (holding (ranOp
      770)) (ranOp 770)) (ranOp 770) (holding (ranOp 770)) ∧ tsorted (holding (ranOp 770)).adm.slots = true ∧ (holding (ranOp
      770)).due 5 (Instr.macVerify 5, 770, macVerifyOut).2.1 = some (ranOp 770) ∧ ((Instr.macVerify 5, 770, macVerifyOut).2.2
      (holding (ranOp 770)) (ranOp 770)).changes = []) := by
  refine ⟨?_, ?_⟩
  · exact ⟨by simp [computing, computingKeys, computingMore], by unfold HasRoom; decide +kernel, by decide +kernel⟩
  · exact ⟨by simp [computing, computingKeys, computingMore], by unfold HasRoom; decide +kernel, by decide +kernel⟩

theorem witness_ChangingOpcodesQueue :
    ((Instr.keyInvalidate 5, 264, keyInvalidateOut) ∈ computing 5 ∧ tsorted (commitFull (keyHeld (keyRan 264))).adm.slots =
      true ∧ (commitFull (keyHeld (keyRan 264))).due 5 (Instr.keyInvalidate 5, 264, keyInvalidateOut).2.1 = some (keyRan 264) ∧
      ((Instr.keyInvalidate 5, 264, keyInvalidateOut).2.2 (commitFull (keyHeld (keyRan 264))) (keyRan 264)).changes ≠ [] ∧
      commitRoom (commitFull (keyHeld (keyRan 264))) = false ∧ ((keyRan 264).chain = none ∨ (keyRan 264).chainEnd = true ∨
      ((Instr.keyInvalidate 5, 264, keyInvalidateOut).2.2 (commitFull (keyHeld (keyRan 264))) (keyRan 264)).status ≠
      Status.ok)) ∧
    ((Instr.keyInvalidate 5, 264, keyInvalidateOut) ∈ computing 5 ∧ tsorted (keyHeld (keyRan 264)).adm.slots = true ∧ (keyHeld
      (keyRan 264)).due 5 (Instr.keyInvalidate 5, 264, keyInvalidateOut).2.1 = some (keyRan 264) ∧ ((Instr.keyInvalidate 5,
      264, keyInvalidateOut).2.2 (keyHeld (keyRan 264)) (keyRan 264)).changes ≠ [] ∧ commitRoom (keyHeld (keyRan 264)) = true) := by
  refine ⟨?_, ?_⟩
  · exact ⟨by simp [computing, computingKeys, computingMore], by decide +kernel⟩
  · exact ⟨by simp [computing, computingKeys, computingMore], by decide +kernel⟩

theorem witness_DrawingOpcodesAnswer :
    (Instr.pinGenerate 5, 516, pinGenerateOut) ∈ drawing 5 ∧ HasRoom ((Instr.pinGenerate 5, 516, pinGenerateOut).2.2 (workDone
      (holding (ranOp 516)) 5 (ranOp 516)) (ranOp 516)).1 (ranOp 516) (holding (ranOp 516)) ∧ tsorted (holding (ranOp
      516)).adm.slots = true ∧ (holding (ranOp 516)).due 5 (Instr.pinGenerate 5, 516, pinGenerateOut).2.1 = some (ranOp 516) :=
  ⟨by simp [drawing], by unfold HasRoom; decide +kernel, by decide +kernel⟩

theorem witness_RawSessionLife :
    (tsorted (noSessions (ranOp 2305)).adm.slots = true ∧ (noSessions (ranOp 2305)).due 5 2305 = some (ranOp 2305)) ∧
    (tsorted (noSessions (ranOp 2305)).adm.slots = true ∧ (noSessions (ranOp 2305)).due 5 2305 = some (ranOp 2305) ∧
      (((noSessions (ranOp 2305)).quota (ranOp 2305).part 15 ≤ (noSessions (ranOp 2305)).sessions fun p => p == (ranOp
      2305).part) ∨ 32 ≤ (noSessions (ranOp 2305)).sessions fun x => true)) ∧
    (tsorted (inSession engine0 (ranOp 2305)).adm.slots = true ∧ (inSession engine0 (ranOp 2305)).due 5 2305 = some (ranOp
      2305) ∧ ((inSession engine0 (ranOp 2305)).sessions fun p => p == (ranOp 2305).part) < (inSession engine0 (ranOp
      2305)).quota (ranOp 2305).part 15 ∧ ((inSession engine0 (ranOp 2305)).sessions fun x => true) < 32 ∧ (inSession engine0
      (ranOp 2305)).openEngine = some 0) ∧
    (HasRoom { } openQueued reserved ∧ tsorted reserved.adm.slots = true ∧ (reserved.engine 1).reservedBy = some 5 ∧
      (reserved.engine 1).queue = [] ∧ (reserved.engine 1).st ≠ UnitState.inReset ∧ (reserved.engine 1).st ≠ UnitState.offline
      ∧ reserved.slot 5 = some openQueued ∧ openQueued.stage = Stage.queued ∧ openQueued.cut = none) ∧
    (HasRoom { } (onRaw 2306 0 [] 0) (inSession session1 (onRaw 2306 0 [] 0)) ∧ tsorted (inSession session1 (onRaw 2306 0 []
      0)).adm.slots = true ∧ (inSession session1 (onRaw 2306 0 [] 0)).due 5 2306 = some (onRaw 2306 0 [] 0) ∧ (inSession
      session1 (onRaw 2306 0 [] 0)).rawUnit (onRaw 2306 0 [] 0) = some 1 ∧ ((inSession session1 (onRaw 2306 0 [] 0)).engine
      1).st = UnitState.session) ∧
    ((idleSession.engine 1).st = UnitState.session ∧ (idleSession.engine 1).lastUs + 10000000 ≤ idleSession.opUs ∧
      (idleSession.engine 1).queue = [] ∧ idleSession.runningRaw 1 = none ∧ (∀ y ∈ idleSession.adm.slots, isRaw (opcode
      y.2.desc) = true → y.2.res.isNone = true → idleSession.rawEngine y.2 ≠ some 1)) ∧
    (HasRoom { } (onRaw 2315 0 [] 0) (inSession session1 (onRaw 2315 0 [] 0)) ∧ tsorted (inSession session1 (onRaw 2315 0 []
      0)).adm.slots = true ∧ (inSession session1 (onRaw 2315 0 [] 0)).due 5 2315 = some (onRaw 2315 0 [] 0) ∧ (inSession
      session1 (onRaw 2315 0 [] 0)).rawEngine (onRaw 2315 0 [] 0) = some 1) ∧
    (HasRoom { } (onRaw 2315 0 [] 0) (noSessions (onRaw 2315 0 [] 0)) ∧ tsorted (noSessions (onRaw 2315 0 [] 0)).adm.slots =
      true ∧ (noSessions (onRaw 2315 0 [] 0)).due 5 2315 = some (onRaw 2315 0 [] 0) ∧ (noSessions (onRaw 2315 0 []
      0)).rawEngine (onRaw 2315 0 [] 0) = none) := by
  refine ⟨?_, ?_, ?_, ?_, ?_, ?_, ?_, ?_⟩
  · decide +kernel
  · decide +kernel
  · decide +kernel
  · exact ⟨by unfold HasRoom; decide +kernel, by decide +kernel⟩
  · exact ⟨by unfold HasRoom; decide +kernel, by decide +kernel⟩
  · decide +kernel
  · exact ⟨by unfold HasRoom; decide +kernel, by decide +kernel⟩
  · exact ⟨by unfold HasRoom; decide +kernel, by decide +kernel⟩

theorem witness_RawCommands :
    (HasRoom { } (onRaw 2307 0 (rawOps 9 0 0 0 0) 1) (inSession session1 (onRaw 2307 0 (rawOps 9 0 0 0 0) 1)) ∧ tsorted
      (inSession session1 (onRaw 2307 0 (rawOps 9 0 0 0 0) 1)).adm.slots = true ∧ (inSession session1 (onRaw 2307 0 (rawOps 9 0
      0 0 0) 1)).rawUnit (onRaw 2307 0 (rawOps 9 0 0 0 0) 1) = some 1 ∧ (inSession session1 (onRaw 2307 0 (rawOps 9 0 0 0 0)
      1)).due 5 2307 = some (onRaw 2307 0 (rawOps 9 0 0 0 0) 1)) ∧
    (HasRoom { } rawLoadKeyDesc (inSession session1 rawLoadKeyDesc) ∧ tsorted (inSession session1 rawLoadKeyDesc).adm.slots =
      true ∧ (inSession session1 rawLoadKeyDesc).rawUnit rawLoadKeyDesc = some 1 ∧ (inSession session1 rawLoadKeyDesc).due 5
      2308 = some rawLoadKeyDesc ∧ dKey rawLoadKeyDesc.desc 1 ≠ 0 ∧ (inSession session1 rawLoadKeyDesc).policyEntry
      rawLoadKeyDesc.part 21 = 1 ∧ (((inSession session1 rawLoadKeyDesc).engine 1).sessKey = 0 ∨ ((inSession session1
      rawLoadKeyDesc).engine 1).sessKey = dKey rawLoadKeyDesc.desc 1) ∧ rawWords rawLoadKeyDesc.desc = (rawComponent
      (rawLoadKeyDesc.keyD 1) (rawComp rawLoadKeyDesc.desc)).1) ∧
    (HasRoom { } (onRaw 2309 0 (rawOps 0 0 0 0 0) 1) (inSession tagged1 (onRaw 2309 0 (rawOps 0 0 0 0 0) 1)) ∧ tsorted
      (inSession tagged1 (onRaw 2309 0 (rawOps 0 0 0 0 0) 1)).adm.slots = true ∧ (inSession tagged1 (onRaw 2309 0 (rawOps 0 0 0
      0 0) 1)).rawUnit (onRaw 2309 0 (rawOps 0 0 0 0 0) 1) = some 1 ∧ (inSession tagged1 (onRaw 2309 0 (rawOps 0 0 0 0 0)
      1)).due 5 2309 = some (onRaw 2309 0 (rawOps 0 0 0 0 0) 1) ∧ ((inSession tagged1 (onRaw 2309 0 (rawOps 0 0 0 0 0)
      1)).engine 1).tagged (rawA (onRaw 2309 0 (rawOps 0 0 0 0 0) 1).desc) (rawWords (onRaw 2309 0 (rawOps 0 0 0 0 0) 1).desc)
      = true) ∧
    (HasRoom { } (onRaw 2309 0 (rawOps 0 0 0 0 0) 2) (inSession session1 (onRaw 2309 0 (rawOps 0 0 0 0 0) 2)) ∧ tsorted
      (inSession session1 (onRaw 2309 0 (rawOps 0 0 0 0 0) 2)).adm.slots = true ∧ (inSession session1 (onRaw 2309 0 (rawOps 0 0
      0 0 0) 2)).rawUnit (onRaw 2309 0 (rawOps 0 0 0 0 0) 2) = some 1) ∧
    (HasRoom { } (onRaw 2310 0 (rawOps 9 0 1 2 1) 1) (inSession session1 (onRaw 2310 0 (rawOps 9 0 1 2 1) 1)) ∧ tsorted
      (inSession session1 (onRaw 2310 0 (rawOps 9 0 1 2 1) 1)).adm.slots = true ∧ (inSession session1 (onRaw 2310 0 (rawOps 9 0
      1 2 1) 1)).rawUnit (onRaw 2310 0 (rawOps 9 0 1 2 1) 1) = some 1 ∧ rawKeyFault (inSession session1 (onRaw 2310 0 (rawOps 9
      0 1 2 1) 1)) (onRaw 2310 0 (rawOps 9 0 1 2 1) 1) ((inSession session1 (onRaw 2310 0 (rawOps 9 0 1 2 1) 1)).engine 1)
      false = none ∧ rawIn (onRaw 2310 0 (rawOps 9 0 1 2 1) 1).desc session1 true false = rawIn (onRaw 2310 0 (rawOps 9 0 1 2
      1) 1).desc ((inSession session1 (onRaw 2310 0 (rawOps 9 0 1 2 1) 1)).engine 1) true false ∧ (rawIn (onRaw 2310 0 (rawOps
      9 0 1 2 1) 1).desc session1 true false).secret = (dKey (onRaw 2310 0 (rawOps 9 0 1 2 1) 1).desc 1 != 0) ∧ (rawIn (onRaw
      2310 0 (rawOps 9 0 1 2 1) 1).desc session1 true false).rangeOk = true ∧ (inSession session1 (onRaw 2310 0 (rawOps 9 0 1 2
      1) 1)).due 5 2310 = some (onRaw 2310 0 (rawOps 9 0 1 2 1) 1)) ∧
    (HasRoom { } (onRaw 2311 0 (rawOps 9 0 1 2 1) 1) (inSession session1 (onRaw 2311 0 (rawOps 9 0 1 2 1) 1)) ∧ tsorted
      (inSession session1 (onRaw 2311 0 (rawOps 9 0 1 2 1) 1)).adm.slots = true ∧ (inSession session1 (onRaw 2311 0 (rawOps 9 0
      1 2 1) 1)).rawUnit (onRaw 2311 0 (rawOps 9 0 1 2 1) 1) = some 1 ∧ rawKeyFault (inSession session1 (onRaw 2311 0 (rawOps 9
      0 1 2 1) 1)) (onRaw 2311 0 (rawOps 9 0 1 2 1) 1) ((inSession session1 (onRaw 2311 0 (rawOps 9 0 1 2 1) 1)).engine 1)
      false = none ∧ rawIn (onRaw 2311 0 (rawOps 9 0 1 2 1) 1).desc session1 true false = rawIn (onRaw 2311 0 (rawOps 9 0 1 2
      1) 1).desc ((inSession session1 (onRaw 2311 0 (rawOps 9 0 1 2 1) 1)).engine 1) true false ∧ (rawIn (onRaw 2311 0 (rawOps
      9 0 1 2 1) 1).desc session1 true false).secret = (dKey (onRaw 2311 0 (rawOps 9 0 1 2 1) 1).desc 1 != 0) ∧ (rawIn (onRaw
      2311 0 (rawOps 9 0 1 2 1) 1).desc session1 true false).rangeOk = true ∧ (inSession session1 (onRaw 2311 0 (rawOps 9 0 1 2
      1) 1)).due 5 2311 = some (onRaw 2311 0 (rawOps 9 0 1 2 1) 1)) ∧
    (HasRoom { } (onRaw 2312 0 (rawOps 9 0 1 2 1) 1) (inSession session1 (onRaw 2312 0 (rawOps 9 0 1 2 1) 1)) ∧ tsorted
      (inSession session1 (onRaw 2312 0 (rawOps 9 0 1 2 1) 1)).adm.slots = true ∧ (inSession session1 (onRaw 2312 0 (rawOps 9 0
      1 2 1) 1)).rawUnit (onRaw 2312 0 (rawOps 9 0 1 2 1) 1) = some 1 ∧ rawKeyFault (inSession session1 (onRaw 2312 0 (rawOps 9
      0 1 2 1) 1)) (onRaw 2312 0 (rawOps 9 0 1 2 1) 1) ((inSession session1 (onRaw 2312 0 (rawOps 9 0 1 2 1) 1)).engine 1)
      false = none ∧ rawIn (onRaw 2312 0 (rawOps 9 0 1 2 1) 1).desc session1 true false = rawIn (onRaw 2312 0 (rawOps 9 0 1 2
      1) 1).desc ((inSession session1 (onRaw 2312 0 (rawOps 9 0 1 2 1) 1)).engine 1) true false ∧ (rawIn (onRaw 2312 0 (rawOps
      9 0 1 2 1) 1).desc session1 true false).secret = (dKey (onRaw 2312 0 (rawOps 9 0 1 2 1) 1).desc 1 != 0) ∧ (rawIn (onRaw
      2312 0 (rawOps 9 0 1 2 1) 1).desc session1 true false).rangeOk = true ∧ (inSession session1 (onRaw 2312 0 (rawOps 9 0 1 2
      1) 1)).due 5 2312 = some (onRaw 2312 0 (rawOps 9 0 1 2 1) 1)) ∧
    (HasRoom { } (onRaw 2313 0 (rawOps 9 0 1 2 1) 1) (inSession session1 (onRaw 2313 0 (rawOps 9 0 1 2 1) 1)) ∧ tsorted
      (inSession session1 (onRaw 2313 0 (rawOps 9 0 1 2 1) 1)).adm.slots = true ∧ (inSession session1 (onRaw 2313 0 (rawOps 9 0
      1 2 1) 1)).rawUnit (onRaw 2313 0 (rawOps 9 0 1 2 1) 1) = some 1 ∧ rawKeyFault (inSession session1 (onRaw 2313 0 (rawOps 9
      0 1 2 1) 1)) (onRaw 2313 0 (rawOps 9 0 1 2 1) 1) ((inSession session1 (onRaw 2313 0 (rawOps 9 0 1 2 1) 1)).engine 1)
      false = none ∧ rawIn (onRaw 2313 0 (rawOps 9 0 1 2 1) 1).desc session1 false false = rawIn (onRaw 2313 0 (rawOps 9 0 1 2
      1) 1).desc ((inSession session1 (onRaw 2313 0 (rawOps 9 0 1 2 1) 1)).engine 1) false false ∧ (rawIn (onRaw 2313 0 (rawOps
      9 0 1 2 1) 1).desc session1 false false).secret = (dKey (onRaw 2313 0 (rawOps 9 0 1 2 1) 1).desc 1 != 0) ∧ (rawIn (onRaw
      2313 0 (rawOps 9 0 1 2 1) 1).desc session1 false false).rangeOk = true ∧ (inSession session1 (onRaw 2313 0 (rawOps 9 0 1
      2 1) 1)).due 5 2313 = some (onRaw 2313 0 (rawOps 9 0 1 2 1) 1) ∧ (rawIn (onRaw 2313 0 (rawOps 9 0 1 2 1) 1).desc session1
      false false).badModulus = false ∧ invMod (rawIn (onRaw 2313 0 (rawOps 9 0 1 2 1) 1).desc session1 false false).a (rawIn
      (onRaw 2313 0 (rawOps 9 0 1 2 1) 1).desc session1 false false).n = some 2) ∧
    (HasRoom { } (onRaw 2313 5 (rawOps 9 0 1 2 1) 1) (inSession secretOperands (onRaw 2313 5 (rawOps 9 0 1 2 1) 1)) ∧ tsorted
      (inSession secretOperands (onRaw 2313 5 (rawOps 9 0 1 2 1) 1)).adm.slots = true ∧ (inSession secretOperands (onRaw 2313 5
      (rawOps 9 0 1 2 1) 1)).rawUnit (onRaw 2313 5 (rawOps 9 0 1 2 1) 1) = some 1 ∧ rawKeyFault (inSession secretOperands
      (onRaw 2313 5 (rawOps 9 0 1 2 1) 1)) (onRaw 2313 5 (rawOps 9 0 1 2 1) 1) ((inSession secretOperands (onRaw 2313 5 (rawOps
      9 0 1 2 1) 1)).engine 1) false = none ∧ rawIn (onRaw 2313 5 (rawOps 9 0 1 2 1) 1).desc secretOperands false false = rawIn
      (onRaw 2313 5 (rawOps 9 0 1 2 1) 1).desc ((inSession secretOperands (onRaw 2313 5 (rawOps 9 0 1 2 1) 1)).engine 1) false
      false ∧ (rawIn (onRaw 2313 5 (rawOps 9 0 1 2 1) 1).desc secretOperands false false).secret = (dKey (onRaw 2313 5 (rawOps
      9 0 1 2 1) 1).desc 1 != 0) ∧ (rawIn (onRaw 2313 5 (rawOps 9 0 1 2 1) 1).desc secretOperands false false).rangeOk = true ∧
      (inSession secretOperands (onRaw 2313 5 (rawOps 9 0 1 2 1) 1)).due 5 2313 = some (onRaw 2313 5 (rawOps 9 0 1 2 1) 1) ∧
      ((rawIn (onRaw 2313 5 (rawOps 9 0 1 2 1) 1).desc secretOperands false false).badModulus = true ∨ invMod (rawIn (onRaw
      2313 5 (rawOps 9 0 1 2 1) 1).desc secretOperands false false).a (rawIn (onRaw 2313 5 (rawOps 9 0 1 2 1) 1).desc
      secretOperands false false).n = none) ∧ (rawIn (onRaw 2313 5 (rawOps 9 0 1 2 1) 1).desc secretOperands false
      false).secret = true) ∧
    (HasRoom { } (onRaw 2313 0 (rawOps 9 0 1 2 1) 1) (inSession noInverse (onRaw 2313 0 (rawOps 9 0 1 2 1) 1)) ∧ tsorted
      (inSession noInverse (onRaw 2313 0 (rawOps 9 0 1 2 1) 1)).adm.slots = true ∧ (inSession noInverse (onRaw 2313 0 (rawOps 9
      0 1 2 1) 1)).rawUnit (onRaw 2313 0 (rawOps 9 0 1 2 1) 1) = some 1 ∧ rawKeyFault (inSession noInverse (onRaw 2313 0
      (rawOps 9 0 1 2 1) 1)) (onRaw 2313 0 (rawOps 9 0 1 2 1) 1) ((inSession noInverse (onRaw 2313 0 (rawOps 9 0 1 2 1)
      1)).engine 1) false = none ∧ rawIn (onRaw 2313 0 (rawOps 9 0 1 2 1) 1).desc noInverse false false = rawIn (onRaw 2313 0
      (rawOps 9 0 1 2 1) 1).desc ((inSession noInverse (onRaw 2313 0 (rawOps 9 0 1 2 1) 1)).engine 1) false false ∧ (rawIn
      (onRaw 2313 0 (rawOps 9 0 1 2 1) 1).desc noInverse false false).secret = (dKey (onRaw 2313 0 (rawOps 9 0 1 2 1) 1).desc 1
      != 0) ∧ (rawIn (onRaw 2313 0 (rawOps 9 0 1 2 1) 1).desc noInverse false false).rangeOk = true ∧ (inSession noInverse
      (onRaw 2313 0 (rawOps 9 0 1 2 1) 1)).due 5 2313 = some (onRaw 2313 0 (rawOps 9 0 1 2 1) 1) ∧ invMod (rawIn (onRaw 2313 0
      (rawOps 9 0 1 2 1) 1).desc noInverse false false).a (rawIn (onRaw 2313 0 (rawOps 9 0 1 2 1) 1).desc noInverse false
      false).n = none ∧ (rawIn (onRaw 2313 0 (rawOps 9 0 1 2 1) 1).desc noInverse false false).secret = false) ∧
    (HasRoom { } (onRaw 2314 0 (rawOps 9 0 1 2 1) 65537) (inSession session1 (onRaw 2314 0 (rawOps 9 0 1 2 1) 65537)) ∧ tsorted
      (inSession session1 (onRaw 2314 0 (rawOps 9 0 1 2 1) 65537)).adm.slots = true ∧ (inSession session1 (onRaw 2314 0 (rawOps
      9 0 1 2 1) 65537)).rawUnit (onRaw 2314 0 (rawOps 9 0 1 2 1) 65537) = some 1 ∧ rawKeyFault (inSession session1 (onRaw 2314
      0 (rawOps 9 0 1 2 1) 65537)) (onRaw 2314 0 (rawOps 9 0 1 2 1) 65537) ((inSession session1 (onRaw 2314 0 (rawOps 9 0 1 2
      1) 65537)).engine 1) false = none ∧ rawIn (onRaw 2314 0 (rawOps 9 0 1 2 1) 65537).desc session1 false true = rawIn (onRaw
      2314 0 (rawOps 9 0 1 2 1) 65537).desc ((inSession session1 (onRaw 2314 0 (rawOps 9 0 1 2 1) 65537)).engine 1) false true
      ∧ (rawIn (onRaw 2314 0 (rawOps 9 0 1 2 1) 65537).desc session1 false true).secret = (dKey (onRaw 2314 0 (rawOps 9 0 1 2
      1) 65537).desc 1 != 0) ∧ (rawIn (onRaw 2314 0 (rawOps 9 0 1 2 1) 65537).desc session1 false true).rangeOk = true ∧
      (inSession session1 (onRaw 2314 0 (rawOps 9 0 1 2 1) 65537)).due 5 2314 = some (onRaw 2314 0 (rawOps 9 0 1 2 1) 65537) ∧
      rawPriv (onRaw 2314 0 (rawOps 9 0 1 2 1) 65537).desc = false) ∧
    (HasRoom { } rawPrivDesc (inSession session1 rawPrivDesc) ∧ tsorted (inSession session1 rawPrivDesc).adm.slots = true ∧
      (inSession session1 rawPrivDesc).rawUnit rawPrivDesc = some 1 ∧ rawKeyFault (inSession session1 rawPrivDesc) rawPrivDesc
      ((inSession session1 rawPrivDesc).engine 1) false = none ∧ (inSession session1 rawPrivDesc).due 5 2314 = some rawPrivDesc
      ∧ rawPriv rawPrivDesc.desc = true ∧ dKey rawPrivDesc.desc 1 ≠ 0 ∧ (inSession session1 rawPrivDesc).policyEntry
      rawPrivDesc.part 21 = 1 ∧ rawWords rawPrivDesc.desc = rsaBits (rawPrivDesc.keyD 1).alg / 64 ∧ ((inSession session1
      rawPrivDesc).engine 1).tagged (rawA rawPrivDesc.desc) (rawWords rawPrivDesc.desc) = false) := by
  refine ⟨?_, ?_, ?_, ?_, ?_, ?_, ?_, ?_, ?_, ?_, ?_, ?_⟩
  · exact ⟨by unfold HasRoom; decide +kernel, by decide +kernel⟩
  · exact ⟨by unfold HasRoom; decide +kernel, by decide +kernel⟩
  · exact ⟨by unfold HasRoom; decide +kernel, by decide +kernel⟩
  · exact ⟨by unfold HasRoom; decide +kernel, by decide +kernel⟩
  · exact ⟨by unfold HasRoom; decide +kernel, by decide +kernel⟩
  · exact ⟨by unfold HasRoom; decide +kernel, by decide +kernel⟩
  · exact ⟨by unfold HasRoom; decide +kernel, by decide +kernel⟩
  · exact ⟨by unfold HasRoom; decide +kernel, by decide +kernel⟩
  · exact ⟨by unfold HasRoom; decide +kernel, by decide +kernel⟩
  · exact ⟨by unfold HasRoom; decide +kernel, by decide +kernel⟩
  · exact ⟨by unfold HasRoom; decide +kernel, by decide +kernel⟩
  · exact ⟨by unfold HasRoom; decide +kernel, by decide +kernel⟩

theorem witness_RingStateMachine :
    (ready.barOpen (4095 / 4096) = true ∧ (ready.ring 4095).state = RingState.disabled ∧ enableRefused ready 4095 = none) ∧
    (badSize9.barOpen (9 / 4096) = true ∧ (badSize9.ring 9).state = RingState.disabled ∧ enableRefused badSize9 9 = some
      Status.malformed) ∧
    (ringError9.barOpen (9 / 4096) = true ∧ (9 < 4096 → ringError9.vfRingOf 9 = none) ∧ (ringError9.ring 9).state =
      RingState.error) ∧
    ((stopping9.ring 9).state = RingState.stopping ∧ stopping9.ringSlots 9 = []) ∧
    (ringOn.barOpen (0 / 4096) = true ∧ (0 < 4096 → ringOn.vfRingOf 0 = none) ∧ (ringOn.ring 0).state ≠ RingState.disabled ∧
      (¬((ringOn.ring 0).state = RingState.stopping ∧ (ringOn.ring 0).settle = RingState.halted))) ∧
    (halting9.barOpen (9 / 4096) = true ∧ (9 < 4096 → halting9.vfRingOf 9 = none) ∧ (halting9.ring 9).state =
      RingState.stopping ∧ (halting9.ring 9).settle = RingState.halted) := by
  refine ⟨?_, ?_, ?_, ?_, ?_, ?_⟩
  · decide +kernel
  · decide +kernel
  · decide +kernel
  · decide +kernel
  · decide +kernel
  · decide +kernel

theorem witness_DigestRingCommands :
    (ready.barOpen (1023 / 1024) = true ∧ ready.groupHidden 1023 = false ∧ (ready.group 1023).enable = false ∧ 6 ≤ 16 ∧ 16 ≤ 16
      ∧ (1024 ≤ 1023 → (ready.group 1023).glob.isSome = true ∨ ready.freeGlobalGroup.isSome = true)) ∧
    (withVf.barOpen (1024 / 1024) = true ∧ withVf.groupHidden 1024 = false ∧ (withVf.group 1024).enable = false ∧ 6 ≤ 6 ∧ 6 ≤
      16 ∧ (1024 ≤ 1024 → (withVf.group 1024).glob.isSome = true ∨ withVf.freeGlobalGroup.isSome = true)) ∧
    (digestOn.barOpen (1023 / 1024) = true ∧ digestOn.groupHidden 1023 = false ∧ idxSub (digestOn.group 1023).prod (6 % 2 ^ 32)
      ≤ 2 ^ (digestOn.group 1023).sizeLog2) ∧
    (digestOn.barOpen (1023 / 1024) = true ∧ digestOn.groupHidden 1023 = false ∧ 2 ^ (digestOn.group 1023).sizeLog2 < idxSub
      (digestOn.group 1023).prod (4 % 2 ^ 32)) ∧
    (digestOn.barOpen (1023 / 1024) = true ∧ digestOn.groupHidden 1023 = false) ∧
    (hidden1023.barOpen (1023 / 1024) = true ∧ hidden1023.groupHidden 1023 = true) := by
  refine ⟨?_, ?_, ?_, ?_, ?_, ?_⟩
  · decide +kernel
  · decide +kernel
  · decide +kernel
  · decide +kernel
  · decide +kernel
  · decide +kernel

theorem witness_HostLinkEvents :
    ((resetHeld.power.mainOk && resetHeld.link.perstSeenHigh && !resetHeld.link.perst) = false) ∧
    ((resettable.power.mainOk && resettable.link.perstSeenHigh && !resettable.link.perst) = true) ∧
    ((resetHeld.link.perst = false ∨ resetHeld.power.power ≠ Power.standby)) ∧
    (perstStandby.link.perst = true ∧ perstStandby.power.power = Power.standby) ∧
    (linkUpx2.link.perst = false ∧ linkUpx2.power.mainOk = true ∧ 1 ≤ 5 ∧ 5 ≤ 5 ∧ 2 ∈ [1, 2, 4, 8, 16]) ∧
    (linkLost.power.mainOk = true ∧ linkLost.link.warmOnLinkdown = true) ∧
    (linkDown.power.mainOk = true ∧ linkDown.link.warmOnLinkdown = false ∧ (Instr.hotReset = Instr.hotReset ∨ Instr.hotReset =
      Instr.linkDownTimeout ∧ linkDown.link.up = false ∧ linkDown.link.trainedOnce = true)) ∧
    (linkDown.power.mainOk = true ∧ linkDown.link.warmOnLinkdown = false ∧ (Instr.linkDownTimeout = Instr.hotReset ∨
      Instr.linkDownTimeout = Instr.linkDownTimeout ∧ linkDown.link.up = false ∧ linkDown.link.trainedOnce = true)) ∧
    (ready.power.pfail = false ∧ ready.power.stopPoint ≠ 0 ∧ ready.power.waiting = none) ∧
    (noAri.cfgReady = true ∧ noAri.link.vfEnable = false ∧ 7 < 8 ∧ 8 ≤ 255 ∧ noAri.link.ari = false) ∧
    (ready.cfgReady = true ∧ ready.link.vfEnable = false ∧ 7 ≤ 255 ∧ (7 ≤ 7 ∨ ready.link.ari = true) ∧ ready.vfsBusy = false) ∧
    (vfsBusy.cfgReady = true ∧ vfsBusy.link.vfEnable = false ∧ 7 ≤ 255 ∧ (7 ≤ 7 ∨ vfsBusy.link.ari = true) ∧ vfsBusy.vfsBusy =
      true) ∧
    (withVf.cfgReady = true ∧ withVf.link.vfEnable = true) ∧
    (ready.cfgReady = true ∧ ready.link.vfEnable = false) := by
  refine ⟨?_, ?_, ?_, ?_, ?_, ?_, ?_, ?_, ?_, ?_, ?_, ?_, ?_, ?_⟩
  · decide +kernel
  · decide +kernel
  · decide +kernel
  · decide +kernel
  · decide +kernel
  · decide +kernel
  · decide +kernel
  · decide +kernel
  · decide +kernel
  · decide +kernel
  · decide +kernel
  · decide +kernel
  · decide +kernel
  · decide +kernel

theorem witness_DisableProcedure :
    (withVf.fnExists 1 = true ∧ (withVf.fn 1).state ≠ FnState.wedged ∧ withVf.cfgReady = true ∧ (withVf.fn 1).busMaster = true
      ∧ (withVf.fn 1).inFlr = false) ∧
    (withVf.fnExists 1 = true ∧ (withVf.fn 1).state ≠ FnState.wedged ∧ withVf.cfgReady = true ∧ (withVf.fn 1).d3hot = false ∧
      (withVf.fn 1).inFlr = false) ∧
    (withVf.fnExists 1 = true ∧ (withVf.fn 1).state ≠ FnState.wedged ∧ withVf.cfgReady = true ∧ (Instr.functionLevelReset 1 =
      Instr.functionLevelReset 1 ∧ Trigger.flr = Trigger.flr ∨ Instr.functionLevelReset 1 = Instr.d0Return 1 ∧ Trigger.flr =
      Trigger.d3hot ∧ (withVf.fn 1).d3hot = true)) ∧
    (hot1.fnExists 1 = true ∧ (hot1.fn 1).state ≠ FnState.wedged ∧ hot1.cfgReady = true ∧ (Instr.d0Return 1 =
      Instr.functionLevelReset 1 ∧ Trigger.d3hot = Trigger.flr ∨ Instr.d0Return 1 = Instr.d0Return 1 ∧ Trigger.d3hot =
      Trigger.d3hot ∧ (hot1.fn 1).d3hot = true)) ∧
    (stalled1.fnExists 1 = true ∧ (stalled1.fn 1).state ≠ FnState.wedged ∧ stalled1.mainPart 1 = some 1 ∧ 1 ∈ stalled1.hosted 1
      ∧ stalled1.outstanding 1 = true ∧ stalled1.quota 1 13 ≠ 0 ∧ 100000 * stalled1.quota 1 13 ≤ (stalled1.fn 1).stallUs) ∧
    ((acking.part 1).disable = some disable0 ∧ (acking.part 1).dis = FnState.disabling ∧ acking.drained 1 = true ∧ (∀ g ∈
      acking.groupsOf 1, acking.undecided g = false) ∧ acking.link.vfPending = none ∧ (acking.fn disable0.fn).inFlr = false) ∧
    ((ackingFlr.part 1).disable = some disable0 ∧ (ackingFlr.part 1).dis = FnState.disabling ∧ ackingFlr.drained 1 = true ∧ (∀
      g ∈ ackingFlr.groupsOf 1, ackingFlr.undecided g = false) ∧ ackingFlr.link.vfPending = none ∧ (ackingFlr.fn
      disable0.fn).inFlr = true ∧ (ackingFlr.part 1).fn = disable0.fn ∧ disable0.remap = none ∧ ackingFlr.quota 1 2 = 1 ∧
      (ackingFlr.fn disable0.fn).state ≠ FnState.wedged ∧ 1 < 256 ∧ (∀ q ∈ ackingFlr.hosted disable0.fn, q ≠ 1 →
      (ackingFlr.part q).dis ≠ FnState.disabling)) ∧
    (tsorted moving.adm.slots = true ∧ moving.slot 5 = some movingOn ∧ movingOn.unit = some (UnitClass.skipper, 7) ∧
      (UnitClass.skipper, 7).1.zeroes = false ∧ ((moving.part movingOn.part).dis = FnState.disabling ∨ (moving.ring
      movingOn.rid).state = RingState.stopping ∧ (moving.ring movingOn.rid).settle = RingState.disabled) ∧ (dSrc movingOn.desc
      ≠ 0 ∨ dDst movingOn.desc ≠ 0)) := by
  refine ⟨?_, ?_, ?_, ?_, ?_, ?_, ?_, ?_⟩
  · decide +kernel
  · decide +kernel
  · decide +kernel
  · decide +kernel
  · decide +kernel
  · decide +kernel
  · decide +kernel
  · decide +kernel

theorem witness_RegisterAccesses :
    (strayed.barOpen 1 = true) ∧
    (ready.barOpen 0 = true ∧ 4096 ≤ 20476 ∧ 20476 < 20480 ∧ 20476 % 4 = 0 ∧ 2151686160 < 2 ^ 32) ∧
    (ready.barOpen 0 = true ∧ 4095 < 4096 ∧ ready.vfRingOf 4095 = none ∧ (ready.ring 4095).state = RingState.disabled ∧
      4278214660 < 2 ^ 32) ∧
    (withVf.fnExists 1 = true ∧ withVf.cfgReady = true) ∧
    (5 < 6 ∧ 5 ≠ 2 ∧ (8 = 4 ∨ 8 = 8) ∧ 4 % 8 ≠ 0 ∧ ready.barOpen 0 = true) ∧
    (closedBar.fnExists 0 = true ∧ closedBar.power.mainOk = true ∧ 5 < 6 ∧ (closedBar.fn 0).memSpace = false) ∧
    (unready.fnExists 0 = true ∧ unready.power.mainOk = true ∧ unready.link.perst = false ∧ unready.power.stopPoint = 0) := by
  refine ⟨?_, ?_, ?_, ?_, ?_, ?_, ?_⟩
  · decide +kernel
  · decide +kernel
  · decide +kernel
  · decide +kernel
  · decide +kernel
  · decide +kernel
  · decide +kernel

theorem witness_LinkEncryption :
    (secured.kmOpen 15 1 1 = true) ∧
    (keysSet.kmOpen 15 0 1 = true ∧ (tget (tgetD keysSet.link.ide 15 ide0).keys (2 * 0 + 1)).isSome = true) ∧
    (secure.kmOpen 15 0 1 = true ∧ tget (tgetD secure.link.ide 15 ide0).active 1 = some 0) ∧
    (15 < 16 ∧ (tgetD secure.link.ide 15 ide0).secure = true) ∧
    (17 ∈ [17, 18] ∧ certified.life.unsealed = true ∧ certified.certChain 0 ≠ [] ∧ 100 ≤ List.length (certified.certChain 0)) ∧
    ((1 ≠ 0 ∨ 18 ∉ [17, 18])) ∧
    (18 ∈ [17, 18] ∧ List.length (zeros 32) = 32 ∧ certified.life.unsealed = true ∧ certified.certChain 0 ≠ [] ∧
      certified.coreReady 88 = true) ∧
    (17 ∈ [17, 18] ∧ (9 ≤ 9 ∨ 9 = 255) ∧ (false = true → certified.life.unsealed = true ∧ List.length (zeros 32) = 32) ∧
      certified.coreReady (if false = true then 88 else 32) = true) ∧
    (18 ∈ [17, 18] ∧ (255 ≤ 9 ∨ 255 = 255) ∧ (true = true → certified.life.unsealed = true ∧ List.length (zeros 32) = 32) ∧
      certified.coreReady (if true = true then 88 else 32) = true) ∧
    (18 ∈ [17, 18] ∧ Ec.decode Ec.p384 (4#8 :: p384Base) = some (Ec.p384.gx, Ec.p384.gy) ∧ certified.life.unsealed = true ∧
      Ec.onCurve Ec.p384 (Ec.p384.gx, Ec.p384.gy).1 (Ec.p384.gx, Ec.p384.gy).2 = true ∧ certified.coreReady 146 = true) := by
  refine ⟨?_, ?_, ?_, ?_, ?_, ?_, ?_, ?_, ?_, ?_⟩
  · decide +kernel
  · decide +kernel
  · decide +kernel
  · decide +kernel
  · decide +kernel
  · decide +kernel
  · decide +kernel
  · decide +kernel
  · decide +kernel
  · decide +kernel

theorem witness_MessageCommit :
    (sourceReady.arbiter = some 3 ∧ sourceReady.masked 3 = false) ∧
    (sourceMasked.arbiter = some 3 ∧ sourceMasked.masked 3 = true) ∧
    (((sourceHeld.fn (sourceHeld.sourceOwner 3).1).msixEnable = false ∨ (sourceHeld.fn (sourceHeld.sourceOwner 3).1).busMaster
      = false ∨ (sourceHeld.fn (sourceHeld.sourceOwner 3).1).hold = true ∨ sourceHeld.eic.globalHold = true)) ∧
    (sourceReady.arbiter ≠ some 4) := by
  refine ⟨?_, ?_, ?_, ?_⟩
  · decide +kernel
  · decide +kernel
  · decide +kernel
  · decide +kernel

theorem witness_EventRegisters :
    (withVf.barOpen 1 = true ∧ 63 < vectorCount 1) ∧
    (withVf.fnExists 1 = true ∧ withVf.cfgReady = true) ∧
    (withVf.barOpen 1 = true) ∧
    (ready.barOpen 0 = true) ∧
    (sourceReady.barOpen 0 = true ∧ 0 < (if 0 = 0 then 48 else 2)) ∧
    (ready.barOpen 0 = true ∧ 0 < (if 0 = 0 then 768 else 32) ∧ [(0, 32771), (1, 32777)] = [(2 * 0, 2148106243 % 65536), (2 * 0
      + 1, 2148106243 / 65536)] ∧ (∀ p ∈ [(0, 32771), (1, 32777)], ready.mapOpen 0 p.1 = true → (mapHalf 0 p.2).enable = true →
      (mapHalf 0 p.2).vector < ready.vectors 0)) ∧
    (fewVectors.barOpen 1 = true ∧ 31 < (if 1 = 0 then 768 else 32) ∧ [(62, 32771), (63, 33791)] = [(2 * 31, 2214559747 %
      65536), (2 * 31 + 1, 2214559747 / 65536)] ∧ (63, 33791) ∈ [(62, 32771), (63, 33791)] ∧ fewVectors.mapOpen 1 (63, 33791).1
      = true ∧ (mapHalf 1 (63, 33791).2).enable = true ∧ fewVectors.vectors 1 ≤ (mapHalf 1 (63, 33791).2).vector) ∧
    ((windowOpen.holdOff 0).isOpen = true) := by
  refine ⟨?_, ?_, ?_, ?_, ?_, ?_, ?_, ?_⟩
  · decide +kernel
  · decide +kernel
  · decide +kernel
  · decide +kernel
  · decide +kernel
  · decide +kernel
  · decide +kernel
  · decide +kernel

theorem witness_CoreHandlers :
    (3 < 4 ∧ ((coreAt core0 [1443]).target 3).isSome = true ∧ ((coreAt core0 [1443]).core 3).entered = ((coreAt core0
      [1443]).core 3).claimed.length ∧ ((coreAt core0 [1443]).core 3).entered < 16) ∧
    (3 < 4 ∧ (coreAt core0 [1443]).target 3 = some 1443) ∧
    (3 < 4 ∧ (coreAt core0 []).target 3 = none) ∧
    (3 < 4 ∧ (coreClaimed.core 3).claimed = [(15, 1443)]) ∧
    (3 < 4 ∧ (coreEntered.core 3).claimed.length < (coreEntered.core 3).entered ∧ coreEntered.target 3 = none) ∧
    (3 < 4) ∧
    (3 < 4 ∧ ((coreAt core0 []).core 3).wdog = 0) ∧
    (3 < 4 ∧ (coreBarked.core 3).wdog = 1) := by
  refine ⟨?_, ?_, ?_, ?_, ?_, ?_, ?_, ?_⟩
  · decide +kernel
  · decide +kernel
  · decide +kernel
  · decide +kernel
  · decide +kernel
  · decide +kernel
  · decide +kernel
  · decide +kernel

theorem witness_IdleAndWake :
    ((workless.power.power = Power.run ∨ workless.power.power = Power.idle) ∧ workless.power.mainOk = true ∧ workless.workless
      = true ∧ workless.odNat 40960 3 ≤ workless.power.idleUs) ∧
    (idling.power.power = Power.idle ∧ reservedSource 1439 = false) ∧
    (wakeCapable 1041 = true ∧ (wakeListed Power.standby).wakeAt 1041 ≠ [] ∧ (wakeListed Power.standby).power.power =
      Power.standby) ∧
    (wakeCapable 1041 = true ∧ (wakeListed Power.off).wakeAt 1041 ≠ [] ∧ (wakeListed Power.off).power.power = Power.off) ∧
    (wakeCapable 1041 = true ∧ (wakeListed Power.run).wakeAt 1041 ≠ [] ∧ (wakeListed Power.run).power.power = Power.run) ∧
    (((wakeListed Power.off).power.power = Power.off ∨ (wakeListed Power.off).power.power = Power.standby) ∧ (wakeListed
      Power.off).eic.wakeArmed = true ∧ (wakeListed Power.off).odNat 40993 1 ≠ 0 ∧ (wakeListed Power.off).wakeAt 1041 ≠ []) ∧
    ((timerUnarmed.power.power = Power.off ∨ timerUnarmed.power.power = Power.standby) ∧ timerUnarmed.eic.wakeArmed = false) ∧
    (Taken vendor rq0 40992 64 32 vendor ∧ vendor.holds rq0 1 false = true ∧ 1 ≤ 64 ∧ 64 ≤ 64 ∧ 1439 < 65536 ∧ (1439 = 65535 ∨
      wakeCapable 1439 = true)) ∧
    (Taken vendor rq0 40993 1 32 vendor ∧ vendor.holds rq0 1 false = true ∧ 60 < 2 ^ 32) := by
  refine ⟨?_, ?_, ?_, ?_, ?_, ?_, ?_, ?_, ?_⟩
  · decide +kernel
  · decide +kernel
  · decide +kernel
  · decide +kernel
  · decide +kernel
  · decide +kernel
  · decide +kernel
  · exact ⟨taken _ _ _ _ _ rfl rfl (by decide), by decide +kernel⟩
  · exact ⟨taken _ _ _ _ _ rfl rfl (by decide), by decide +kernel⟩

theorem witness_UpkeepRuns :
    (orphaned.power.mainOk = true ∧ orphaned.rcd 7 = some orphanKey ∧ orphaned.orphan 7 = true ∧ orphaned.freeing 7 = false ∧
      commitRoom orphaned = true) ∧
    (orphaned.power.mainOk = true) ∧
    (destroyedEmpty.power.mainOk = true) ∧
    ((keyHeld (keyRan 0)).power.mainOk = true ∧ (keyHeld (keyRan 0)).rcd 7 = some keyGood) ∧
    (cachedTwo.power.mainOk = true) ∧
    (recordLost.rcd 7 = some keyLost ∧ wrapped0.gen = keyLost.rcd.gen ∧ wrapped0.part = keyLost.rcd.part ∧
      (recordLost.unwrapped wrapped0).isSome = true ∧ tget recordLost.keys.recover 7 = some 0) ∧
    (recordLostPaired.rcd 7 = some keyLost ∧ (∀ (d : Rec), none = some d → d.gen ≠ keyLost.rcd.gen ∨ d.part ≠ keyLost.rcd.part
      ∨ recordLostPaired.unwrapped d = none) ∧ tget recordLostPaired.keys.recover 7 = some 0 ∧ (recordLostPaired.copyHolders
      keyLost.rcd.part)[0]? ≠ some 5) ∧
    (recordLostPaired.rcd 7 = some keyLost ∧ (∀ (d : Rec), none = some d → d.gen ≠ keyLost.rcd.gen ∨ d.part ≠ keyLost.rcd.part
      ∨ recordLostPaired.unwrapped d = none) ∧ tget recordLostPaired.keys.recover 7 = some 0 ∧ (recordLostPaired.copyHolders
      keyLost.rcd.part)[0]? = some 3 ∧ (recordLostPaired.copyHolders keyLost.rcd.part)[0 + 1]? = some 5) ∧
    (recordLostLast.rcd 7 = some keyLost ∧ (∀ (d : Rec), none = some d → d.gen ≠ keyLost.rcd.gen ∨ d.part ≠ keyLost.rcd.part ∨
      recordLostLast.unwrapped d = none) ∧ tget recordLostLast.keys.recover 7 = some 1 ∧ (recordLostLast.copyHolders
      keyLost.rcd.part)[1]? = some 5 ∧ (recordLostLast.copyHolders keyLost.rcd.part)[1 + 1]? = none) ∧
    (ready.power.mainOk = true) := by
  refine ⟨?_, ?_, ?_, ?_, ?_, ?_, ?_, ?_, ?_, ?_⟩
  · decide +kernel
  · decide +kernel
  · decide +kernel
  · decide +kernel
  · decide +kernel
  · exact ⟨rfl, rfl, rfl, recordLost_unwraps, by decide +kernel⟩
  · exact ⟨rfl, nofun, by decide +kernel⟩
  · exact ⟨rfl, nofun, by decide +kernel⟩
  · exact ⟨rfl, nofun, by decide +kernel⟩
  · decide +kernel

theorem witness_PartitionServiceCommands :
    (Taken vendor rq0 (quotaAt 255 4).1 (quotaAt 255 4).2 (plainOp (quotaAt 255 4).1 (quotaAt 255 4).2) vendor ∧ 255 < 256 ∧
      isQuota 4 = true ∧ vendor.holds rq0 1 true = true ∧ numCheck (quotaAt 255 4).1 (quotaAt 255 4).2 65536 = none ∧ (4 = 3 →
      (vendor.part 255).fn = 0 ∨ 65536 ≤ 256)) ∧
    (Taken unmapped5 rq0 (8448 + 255) 1 (writeOp false []) unmapped5 ∧ Granted unmapped5 rq0 false 4 255 (leBytes 1 5) [] [] ∧
      255 < 256 ∧ 255 ≠ 0 ∧ 5 < 256 ∧ (5 ≠ 0 → unmapped5.vfTaken 255 5 = false ∧ unmapped5.quota 255 3 ≤ 256)) ∧
    (Taken vendorVf rq0 (8448 + 1) 1 (writeOp false []) vendorVf ∧ Granted vendorVf rq0 false 4 1 (leBytes 1 0) [] [] ∧ 1 < 256
      ∧ 1 ≠ 0 ∧ 0 < 256 ∧ (0 ≠ 0 → vendorVf.vfTaken 1 0 = false ∧ vendorVf.quota 1 3 ≤ 256)) ∧
    (Taken vendorVf rq0 (8448 + 1) 2 (writeOp false []) vendorVf ∧ Granted vendorVf rq0 false 4 1 (leBytes 1 0) [] [] ∧ 1 < 256
      ∧ (vendorVf.part 1).dis = FnState.enabled) ∧
    (Taken disabled1 rq0 (8448 + 1) 2 (writeOp false []) disabled1 ∧ Granted disabled1 rq0 false 4 1 (leBytes 1 1) [] [] ∧ 1 <
      256 ∧ (disabled1.part 1).dis = FnState.disabled ∧ (disabled1.part 1).disable = none ∧ (disabled1.fn (disabled1.part
      1).fn).state = FnState.enabled) ∧
    (quotaWaits.od.quotas = [(rq0, 1, 4, 64)] ∧ (∀ e ∈ quotaWaits.parts, (quotaWaits.part e.1).disable = none) ∧ 1 < 256 ∧ 64 <
      2 ^ 32 ∧ quotaWaits.quotaRefused 1 4 64 = false) ∧
    (quotaShort.od.quotas = [(rq0, 1, 4, 63)] ∧ (∀ e ∈ quotaShort.parts, (quotaShort.part e.1).disable = none) ∧ 1 < 256 ∧ 63 <
      2 ^ 32 ∧ quotaShort.quotaRefused 1 4 63 = true) := by
  refine ⟨?_, ?_, ?_, ?_, ?_, ?_, ?_⟩
  · exact ⟨taken _ _ _ _ _ rfl rfl (by decide), by decide +kernel⟩
  · exact ⟨taken _ _ _ _ _ rfl rfl (by decide), waived rfl, by decide +kernel⟩
  · exact ⟨taken _ _ _ _ _ rfl rfl (by decide), waived rfl, by decide +kernel⟩
  · exact ⟨taken _ _ _ _ _ rfl rfl (by decide), waived rfl, by decide +kernel⟩
  · exact ⟨taken _ _ _ _ _ rfl rfl (by decide), waived rfl, by decide +kernel⟩
  · decide +kernel
  · decide +kernel

theorem witness_PartitionKeyCommands :
    (Taken creatable rq0 (12544 + 255) 3 (writeOp false []) creatable ∧ Granted creatable rq0 false 1 255 [1#8] [] [] ∧ 255 <
      256 ∧ (creatable.part 255).key = KeyState.empty ∧ creatable.domainPending 255 = false ∧ creatable.tamper.drs.isSome =
      true) ∧
    (Taken activePart rq0 (12544 + 255) 4 (writeOp false []) activePart ∧ Granted activePart rq0 false 1 255 [1#8] [] [] ∧ 1 ≤
      255 ∧ 255 < 256 ∧ ((activePart.part 255).key = KeyState.active ∨ (activePart.part 255).key = KeyState.sealFailed) ∧
      activePart.domainPending 255 = false) ∧
    (Taken activePart rq0 (12544 + 255) 2 (writeOp false []) activePart ∧ Granted activePart rq0 false 2 255 (leBytes 1 255) []
      [] ∧ 1 ≤ 255 ∧ 255 < 256 ∧ bit 255 0 = true ∧ bit 255 2 = true ∧ (activePart.part 255).key = KeyState.active ∧
      activePart.announcing = false ∧ activePart.domainPending 255 = false) ∧
    (Taken vendor rq0 12289 1 (writeOp true []) vendor ∧ Granted vendor rq0 false 2 0 (zeros 8) [] []) ∧
    (Taken vendor rq0 12288 (7 + 4) (writeOp false []) vendor ∧ Granted vendor rq0 false 2 0 (zeros 48) [] [] ∧ 5 ≤ 7 ∧ 7 ≤ 7 ∧
      List.length (zeros 48) = 48) ∧
    (Taken (migrating 3) rq0 12289 3 (writeOp false []) (migrating 3) ∧ Granted (migrating 3) rq0 false 2 0 [1#8] [] [] ∧
      ((migrating 3).ahead.meas.migration = 2 ∨ (migrating 3).ahead.meas.migration = 3)) ∧
    (Taken (migrating 1) rq0 12289 4 (writeOp false []) (migrating 1) ∧ Granted (migrating 1) rq0 false 2 0 [1#8] [] [] ∧
      (migrating 1).ahead.meas.migration = 1) ∧
    ((∀ (p : ℕ), KdTask.create 255 = KdTask.create p → ((forming (KdTask.create 255) KeyState.empty).ahead.part p).key =
      KeyState.empty ∧ (forming (KdTask.create 255) KeyState.empty).entropy.ready = true ∧ 2 ≤ (forming (KdTask.create 255)
      KeyState.empty).entropy.pool.length) ∧ (∀ (p m : ℕ), KdTask.create 255 = KdTask.mask p m → ((forming (KdTask.create 255)
      KeyState.empty).ahead.part p).key = KeyState.active ∧ (forming (KdTask.create 255) KeyState.empty).ahead.meas.migration ≠
      1) ∧ (∀ (p : ℕ), KdTask.create 255 ≠ KdTask.own p) ∧ (∀ (k p : ℕ) (n v : Bytes), KdTask.create 255 ≠ KdTask.vault k p n
      v) ∧ (forming (KdTask.create 255) KeyState.empty).units.looper.queue = [0] ∧ (forming (KdTask.create 255)
      KeyState.empty).units.looper.drawn = true ∧ (forming (KdTask.create 255) KeyState.empty).units.looper.keyReg.isSome =
      true ∧ (forming (KdTask.create 255) KeyState.empty).units.looper.block = 2 ∧ (forming (KdTask.create 255)
      KeyState.empty).looperPowered = true ∧ (forming (KdTask.create 255) KeyState.empty).booting = false ∧ (forming
      (KdTask.create 255) KeyState.empty).keys.kdJobs =
      [{ rq := some (rq0, 12799, 3, 33), uses := [], task := KdTask.create 255 }] ∧ (forming (KdTask.create 255)
      KeyState.empty).clustered = false) ∧
    ((∀ (p : ℕ), KdTask.mask 255 5 = KdTask.create p → ((forming (KdTask.mask 255 5) KeyState.active).ahead.part p).key =
      KeyState.empty ∧ (forming (KdTask.mask 255 5) KeyState.active).entropy.ready = true ∧ 2 ≤ (forming (KdTask.mask 255 5)
      KeyState.active).entropy.pool.length) ∧ (∀ (p m : ℕ), KdTask.mask 255 5 = KdTask.mask p m → ((forming (KdTask.mask 255 5)
      KeyState.active).ahead.part p).key = KeyState.active ∧ (forming (KdTask.mask 255 5) KeyState.active).ahead.meas.migration
      ≠ 1) ∧ (∀ (p : ℕ), KdTask.mask 255 5 ≠ KdTask.own p) ∧ (∀ (k p : ℕ) (n v : Bytes), KdTask.mask 255 5 ≠ KdTask.vault k p n
      v) ∧ (forming (KdTask.mask 255 5) KeyState.active).units.looper.queue = [0] ∧ (forming (KdTask.mask 255 5)
      KeyState.active).units.looper.drawn = true ∧ (forming (KdTask.mask 255 5) KeyState.active).units.looper.keyReg.isSome =
      true ∧ (forming (KdTask.mask 255 5) KeyState.active).units.looper.block = 2 ∧ (forming (KdTask.mask 255 5)
      KeyState.active).looperPowered = true ∧ (forming (KdTask.mask 255 5) KeyState.active).booting = false ∧ (forming
      (KdTask.mask 255 5) KeyState.active).keys.kdJobs =
      [{ rq := some (rq0, 12799, 3, 33), uses := [], task := KdTask.mask 255 5 }] ∧ (forming (KdTask.mask 255 5)
      KeyState.active).clustered = false) ∧
    ((∀ (p : ℕ), KdTask.manifest (zeros 300) = KdTask.create p → ((forming (KdTask.manifest (zeros 300))
      KeyState.active).ahead.part p).key = KeyState.empty ∧ (forming (KdTask.manifest (zeros 300))
      KeyState.active).entropy.ready = true ∧ 2 ≤ (forming (KdTask.manifest (zeros 300)) KeyState.active).entropy.pool.length)
      ∧ (∀ (p m : ℕ), KdTask.manifest (zeros 300) = KdTask.mask p m → ((forming (KdTask.manifest (zeros 300))
      KeyState.active).ahead.part p).key = KeyState.active ∧ (forming (KdTask.manifest (zeros 300))
      KeyState.active).ahead.meas.migration ≠ 1) ∧ (∀ (p : ℕ), KdTask.manifest (zeros 300) ≠ KdTask.own p) ∧ (∀ (k p : ℕ) (n v
      : Bytes), KdTask.manifest (zeros 300) ≠ KdTask.vault k p n v) ∧ (forming (KdTask.manifest (zeros 300))
      KeyState.active).units.looper.queue = [0] ∧ (forming (KdTask.manifest (zeros 300)) KeyState.active).units.looper.drawn =
      true ∧ (forming (KdTask.manifest (zeros 300)) KeyState.active).units.looper.keyReg.isSome = true ∧ (forming
      (KdTask.manifest (zeros 300)) KeyState.active).units.looper.block = 2 ∧ (forming (KdTask.manifest (zeros 300))
      KeyState.active).looperPowered = true ∧ (forming (KdTask.manifest (zeros 300)) KeyState.active).booting = false ∧
      (forming (KdTask.manifest (zeros 300)) KeyState.active).keys.kdJobs =
      [{ rq := some (rq0, 12799, 3, 33), uses := [], task := KdTask.manifest (zeros 300) }] ∧ (forming (KdTask.manifest (zeros
      300)) KeyState.active).clustered = false) ∧
    ((∀ (p : ℕ), KdTask.announce 5 (zeros 48) = KdTask.create p → ((forming (KdTask.announce 5 (zeros 48))
      KeyState.active).ahead.part p).key = KeyState.empty ∧ (forming (KdTask.announce 5 (zeros 48))
      KeyState.active).entropy.ready = true ∧ 2 ≤ (forming (KdTask.announce 5 (zeros 48)) KeyState.active).entropy.pool.length)
      ∧ (∀ (p m : ℕ), KdTask.announce 5 (zeros 48) = KdTask.mask p m → ((forming (KdTask.announce 5 (zeros 48))
      KeyState.active).ahead.part p).key = KeyState.active ∧ (forming (KdTask.announce 5 (zeros 48))
      KeyState.active).ahead.meas.migration ≠ 1) ∧ (∀ (p : ℕ), KdTask.announce 5 (zeros 48) ≠ KdTask.own p) ∧ (∀ (k p : ℕ) (n v
      : Bytes), KdTask.announce 5 (zeros 48) ≠ KdTask.vault k p n v) ∧ (forming (KdTask.announce 5 (zeros 48))
      KeyState.active).units.looper.queue = [0] ∧ (forming (KdTask.announce 5 (zeros 48)) KeyState.active).units.looper.drawn =
      true ∧ (forming (KdTask.announce 5 (zeros 48)) KeyState.active).units.looper.keyReg.isSome = true ∧ (forming
      (KdTask.announce 5 (zeros 48)) KeyState.active).units.looper.block = 2 ∧ (forming (KdTask.announce 5 (zeros 48))
      KeyState.active).looperPowered = true ∧ (forming (KdTask.announce 5 (zeros 48)) KeyState.active).booting = false ∧
      (forming (KdTask.announce 5 (zeros 48)) KeyState.active).keys.kdJobs =
      [{ rq := some (rq0, 12799, 3, 33), uses := [], task := KdTask.announce 5 (zeros 48) }] ∧ (forming (KdTask.announce 5
      (zeros 48)) KeyState.active).clustered = false) ∧
    (Taken vendor rq0 (12544 + 255) 12 (writeOp false []) vendor ∧ Granted vendor rq0 false 12 255 (leBytes 2 (4096 * 12 + 256
      * 12 + 7)) [] [] ∧ 255 < 256 ∧ 4096 * 12 + 256 * 12 + 7 = 4096 * 12 + 256 * 12 + 7 ∧ 4 ≤ 12 ∧ 12 ≤ 12 ∧ 7 < 8) ∧
    (Taken vendor rq0 (12544 + 255) (13 + 3) (writeOp false []) vendor ∧ Granted vendor rq0 false 12 255 (leBytes 8
      1167088121775456513) [] [] ∧ 255 < 256 ∧ 3 < 4 ∧ List.length (leBytes 8 1167088121775456513) = 8 ∧ (∀ d ∈ nibbles
      (leBytes 8 1167088121775456513), d ≤ 9) ∧ (∀ d ≤ 9, d ∈ nibbles (leBytes 8 1167088121775456513))) ∧
    (Taken vendor rq0 (12544 + 255) 18 (writeOp false []) vendor ∧ Granted vendor rq0 false 12 255 (leBytes 4 64) [] [] ∧ 255 <
      256 ∧ 64 ≤ 2 ^ 26 ∧ 64 % 8 = 0 ∧ (64 ≠ (vendor.part 255).atcCap → vendor.recordsUsed 255 - (vendor.part 255).atcCap / 8 +
      64 / 8 ≤ vendor.quota 255 5)) ∧
    (Taken vendor rq0 (12544 + 255) 19 (writeOp false []) vendor ∧ Granted vendor rq0 false 12 255 (leBytes 2 65535) [] [] ∧
      255 < 256 ∧ 65535 < 65536) := by
  refine ⟨?_, ?_, ?_, ?_, ?_, ?_, ?_, ?_, ?_, ?_, ?_, ?_, ?_, ?_, ?_⟩
  · exact ⟨taken _ _ _ _ _ rfl rfl (by decide), waived rfl, by decide +kernel⟩
  · exact ⟨taken _ _ _ _ _ rfl rfl (by decide), waived rfl, by decide +kernel⟩
  · exact ⟨taken _ _ _ _ _ rfl rfl (by decide), waived rfl, by decide +kernel⟩
  · exact ⟨taken _ _ _ _ _ rfl rfl (by decide), waived rfl⟩
  · exact ⟨taken _ _ _ _ _ rfl rfl (by decide), waived rfl, by decide +kernel⟩
  · exact ⟨taken _ _ _ _ _ rfl rfl (by decide), waived rfl, by decide +kernel⟩
  · exact ⟨taken _ _ _ _ _ rfl rfl (by decide), waived rfl, by decide +kernel⟩
  · exact ⟨by intro p h; cases h; decide +kernel, nofun, nofun, nofun, by decide +kernel⟩
  · exact ⟨nofun, by intro p m h; cases h; decide +kernel, nofun, nofun, by decide +kernel⟩
  · exact ⟨nofun, nofun, nofun, nofun, by decide +kernel⟩
  · exact ⟨nofun, nofun, nofun, nofun, by decide +kernel⟩
  · exact ⟨taken _ _ _ _ _ rfl rfl (by decide), waived rfl, by decide +kernel⟩
  · exact ⟨taken _ _ _ _ _ rfl rfl (by decide), waived rfl, by decide +kernel⟩
  · exact ⟨taken _ _ _ _ _ rfl rfl (by decide), waived rfl, by decide +kernel⟩
  · exact ⟨taken _ _ _ _ _ rfl rfl (by decide), waived rfl, by decide +kernel⟩

theorem witness_GrantRequests :
    (Taken member63 rq0 13312 1 32 member63 ∧ List.length (zeros 32) = 32 ∧ 255 < 256 ∧ 1 ≤ 12 ∧ 12 ≤ 12 ∧ 1 ≤ 1 ∧ 1 ≤
      member63.odNat (13056 + 12) 4 ∧ member63.keys.grantKey.isSome = true ∧ member63.openRequests.length < 16 ∧
      member63.coreReady 32 = true) ∧
    (Taken member63 rq0 13312 2 32 member63 ∧ 63 < 64 ∧ List.find? (fun x => x.id == 1) member63.openRequests = some request1 ∧
      member63.mayApprove 63 request1.cls request1.part = true ∧ (2 = 2 ∧ Instr.quorumApprove rq0 1 63 (zeros 64) =
      Instr.quorumApprove rq0 1 63 (zeros 64) ∧ List.length (zeros 64) = 64 ∧ false = Ec.verifyEnc Ec.p256 (member63.odGet
      (13568 + 63) 3) (approveDigest request1) (zeros 64) ∨ 2 = 4 ∧ Instr.quorumApprove rq0 1 63 (zeros 64) = Instr.cardApprove
      rq0 1 3 cred63 { point := [], signature := zeros 64 } ∧ member63.cardIn 3 = true ∧ member63.memberOf cred63 = some 63 ∧
      member63.coreReady 40 = true ∧ false = agreed cred63 (Ec.encode Ec.p256 (Ec.mul Ec.p256 (Ec.scalar Ec.p256 (List.take 40
      (member63.part 0).drbg.staged)) (Ec.base Ec.p256))) [] request1.challenge (zeros 64)) ∧ member63.keys.grantKey = some
      (zeros 32) ∧ 63 ∉ request1.approvers) ∧
    (Taken member63 rq0 13312 4 32 member63 ∧ 63 < 64 ∧ List.find? (fun x => x.id == 1) member63.openRequests = some request1 ∧
      member63.mayApprove 63 request1.cls request1.part = true ∧ (4 = 2 ∧ Instr.cardApprove rq0 1 3 cred63
      { point := cardPoint, signature := cardSig } = Instr.quorumApprove rq0 1 63 cardSig ∧ List.length cardSig = 64 ∧ true =
      Ec.verifyEnc Ec.p256 (member63.odGet (13568 + 63) 3) (approveDigest request1) cardSig ∨ 4 = 4 ∧ Instr.cardApprove rq0 1 3
      cred63 { point := cardPoint, signature := cardSig } = Instr.cardApprove rq0 1 3 cred63
      { point := cardPoint, signature := cardSig } ∧ member63.cardIn 3 = true ∧ member63.memberOf cred63 = some 63 ∧
      member63.coreReady 40 = true ∧ true = agreed cred63 (Ec.encode Ec.p256 (Ec.mul Ec.p256 (Ec.scalar Ec.p256 (List.take 40
      (member63.part 0).drbg.staged)) (Ec.base Ec.p256))) cardPoint request1.challenge cardSig) ∧ member63.keys.grantKey = some
      (zeros 32) ∧ 63 ∉ request1.approvers) ∧
    (Taken single63 rq0 13312 4 32 single63 ∧ 63 < 64 ∧ List.find? (fun x => x.id == 1) single63.openRequests = some request1 ∧
      single63.mayApprove 63 request1.cls request1.part = true ∧ (4 = 2 ∧ Instr.cardApprove rq0 1 3 cred63
      { point := cardPoint, signature := cardSig } = Instr.quorumApprove rq0 1 63 cardSig ∧ List.length cardSig = 64 ∧ true =
      Ec.verifyEnc Ec.p256 (single63.odGet (13568 + 63) 3) (approveDigest request1) cardSig ∨ 4 = 4 ∧ Instr.cardApprove rq0 1 3
      cred63 { point := cardPoint, signature := cardSig } = Instr.cardApprove rq0 1 3 cred63
      { point := cardPoint, signature := cardSig } ∧ single63.cardIn 3 = true ∧ single63.memberOf cred63 = some 63 ∧
      single63.coreReady 40 = true ∧ true = agreed cred63 (Ec.encode Ec.p256 (Ec.mul Ec.p256 (Ec.scalar Ec.p256 (List.take 40
      (single63.part 0).drbg.staged)) (Ec.base Ec.p256))) cardPoint request1.challenge cardSig) ∧ single63.keys.grantKey = some
      (zeros 32) ∧ 63 ∉ request1.approvers) := by
  refine ⟨?_, ?_, ?_, ?_⟩
  · exact ⟨taken _ _ _ _ _ rfl rfl (by decide), by decide +kernel⟩
  · exact ⟨taken _ _ _ _ _ rfl rfl (by decide), by decide +kernel⟩
  · exact ⟨taken _ _ _ _ _ rfl rfl (by decide), by decide +kernel⟩
  · exact ⟨taken _ _ _ _ _ rfl rfl (by decide), by decide +kernel⟩

theorem witness_KeyCeremonies :
    (Taken member63 rq0 13824 1 (writeOp false []) member63 ∧ Granted member63 rq0 false 3 (grantPart []) (tier0Template ++
      leBytes 8 0 ++ leBytes 1 3) [] [] ∧ List.length tier0Template = 32 ∧ 0 < 2 ^ 64 ∧ 2 ≤ 3 ∧ 3 ≤ 3 ∧
      member63.quorum.load.state ≠ 1 ∧ (member63.part (grantPart [])).key = KeyState.active ∧ loadTemplateOk (readTemplate
      tier0Template) = true ∧ member63.loadParentOk (grantPart []) 0 (readTemplate tier0Template).tier = true) ∧
    (Taken (loading 3 [zeros 16]) rq0 13824 2 32 (loading 3 [zeros 16]) ∧ agreed cred63 (Ec.encode Ec.p256 (Ec.mul Ec.p256 1
      (Ec.base Ec.p256))) cardPoint cardChallenge cardSig = true ∧ openComponent (cardKey 1 cardPoint) cardAnswer = some
      component0 ∧ (loading 3 [zeros 16]).holds rq0 1 false = true ∧ 3 < 4 ∧ (loading 3 [zeros 16]).quorum.load.state = 1 ∧
      (loading 3 [zeros 16]).quorum.load.handle = 0 ∧ (loading 3 [zeros 16]).opUs ≤ (loading 3 [zeros 16]).quorum.load.lastUs +
      300000000 ∧ (loading 3 [zeros 16]).cardIn 3 = true ∧ (loading 3 [zeros 16]).memberOf cred63 = some 63 ∧ bit ((loading 3
      [zeros 16]).roles 63) 1 = true ∧ 63 ∉ (loading 3 [zeros 16]).quorum.load.members ∧ (loading 3 [zeros 16]).coreReady 72 =
      true ∧ 1 = Ec.scalar Ec.p256 (List.take 40 ((loading 3 [zeros 16]).part 0).drbg.staged) ∧ cardChallenge = List.take 32
      (List.drop 40 ((loading 3 [zeros 16]).part 0).drbg.staged) ∧ List.length component0 = symLen (readTemplate (loading 3
      [zeros 16]).quorum.load.template).alg ∧ (loading 3 [zeros 16]).quorum.load.parts.length + 1 ≠ (loading 3 [zeros
      16]).quorum.load.count) ∧
    (Taken (loading 2 [zeros 16]) rq0 13824 2 32 (loading 2 [zeros 16]) ∧ agreed cred63 (Ec.encode Ec.p256 (Ec.mul Ec.p256 1
      (Ec.base Ec.p256))) cardPoint cardChallenge cardSig = true ∧ openComponent (cardKey 1 cardPoint) cardAnswer = some
      component0 ∧ newRecord (loading 2 [zeros 16]) (loading 2 [zeros 16]).quorum.load.part creation0 = some created0 ∧
      (loading 2 [zeros 16]).holds rq0 1 false = true ∧ 3 < 4 ∧ (loading 2 [zeros 16]).quorum.load.state = 1 ∧ (loading 2
      [zeros 16]).quorum.load.handle = 0 ∧ (loading 2 [zeros 16]).opUs ≤ (loading 2 [zeros 16]).quorum.load.lastUs + 300000000
      ∧ (loading 2 [zeros 16]).cardIn 3 = true ∧ (loading 2 [zeros 16]).memberOf cred63 = some 63 ∧ bit ((loading 2 [zeros
      16]).roles 63) 1 = true ∧ 63 ∉ (loading 2 [zeros 16]).quorum.load.members ∧ (loading 2 [zeros 16]).coreReady 72 = true ∧
      1 = Ec.scalar Ec.p256 (List.take 40 ((loading 2 [zeros 16]).part 0).drbg.staged) ∧ cardChallenge = List.take 32
      (List.drop 40 ((loading 2 [zeros 16]).part 0).drbg.staged) ∧ List.length component0 = symLen (readTemplate (loading 2
      [zeros 16]).quorum.load.template).alg ∧ (loading 2 [zeros 16]).quorum.load.parts.length + 1 = (loading 2 [zeros
      16]).quorum.load.count ∧ component0 = xorAll (symLen (readTemplate (loading 2 [zeros 16]).quorum.load.template).alg)
      ((loading 2 [zeros 16]).quorum.load.parts ++ [component0]) ∧ allZero component0 = false ∧ ((loading 2 [zeros 16]).part
      (loading 2 [zeros 16]).quorum.load.part).key = KeyState.active ∧ (loading 2 [zeros 16]).loadParentOk (loading 2 [zeros
      16]).quorum.load.part (loading 2 [zeros 16]).quorum.load.parent (readTemplate (loading 2 [zeros
      16]).quorum.load.template).tier = true) ∧
    (Taken (loading 2 [component0]) rq0 13824 2 32 (loading 2 [component0]) ∧ agreed cred63 (Ec.encode Ec.p256 (Ec.mul Ec.p256
      1 (Ec.base Ec.p256))) cardPoint cardChallenge cardSig = true ∧ openComponent (cardKey 1 cardPoint) cardAnswer = some
      component0 ∧ (loading 2 [component0]).holds rq0 1 false = true ∧ 3 < 4 ∧ (loading 2 [component0]).quorum.load.state = 1 ∧
      (loading 2 [component0]).quorum.load.handle = 0 ∧ (loading 2 [component0]).opUs ≤ (loading 2
      [component0]).quorum.load.lastUs + 300000000 ∧ (loading 2 [component0]).cardIn 3 = true ∧ (loading 2
      [component0]).memberOf cred63 = some 63 ∧ bit ((loading 2 [component0]).roles 63) 1 = true ∧ 63 ∉ (loading 2
      [component0]).quorum.load.members ∧ (loading 2 [component0]).coreReady 72 = true ∧ 1 = Ec.scalar Ec.p256 (List.take 40
      ((loading 2 [component0]).part 0).drbg.staged) ∧ cardChallenge = List.take 32 (List.drop 40 ((loading 2
      [component0]).part 0).drbg.staged) ∧ List.length component0 = symLen (readTemplate (loading 2
      [component0]).quorum.load.template).alg ∧ (loading 2 [component0]).quorum.load.parts.length + 1 = (loading 2
      [component0]).quorum.load.count ∧ allZero (xorAll (symLen (readTemplate (loading 2
      [component0]).quorum.load.template).alg) ((loading 2 [component0]).quorum.load.parts ++ [component0])) = true) ∧
    (Taken (loading 3 [zeros 16]) rq0 13824 2 32 (loading 3 [zeros 16]) ∧ (loading 3 [zeros 16]).holds rq0 1 false = true ∧ 3 <
      4 ∧ (loading 3 [zeros 16]).quorum.load.state = 1 ∧ (loading 3 [zeros 16]).quorum.load.handle = 0 ∧ (loading 3 [zeros
      16]).opUs ≤ (loading 3 [zeros 16]).quorum.load.lastUs + 300000000 ∧ (loading 3 [zeros 16]).cardIn 3 = true ∧ (loading 3
      [zeros 16]).memberOf cred63 = some 63 ∧ bit ((loading 3 [zeros 16]).roles 63) 1 = true ∧ 63 ∉ (loading 3 [zeros
      16]).quorum.load.members ∧ (loading 3 [zeros 16]).coreReady 72 = true ∧ 1 = Ec.scalar Ec.p256 (List.take 40 ((loading 3
      [zeros 16]).part 0).drbg.staged) ∧ cardChallenge = List.take 32 (List.drop 40 ((loading 3 [zeros 16]).part
      0).drbg.staged) ∧ (agreed cred63 (Ec.encode Ec.p256 (Ec.mul Ec.p256 1 (Ec.base Ec.p256))) cardPoint cardChallenge (zeros
      64) = false ∨ openComponent (cardKey 1 cardPoint) cardAnswer = none)) ∧
    (loadStale.quorum.load.state = 1 ∧ loadStale.quorum.load.handle = 0 ∧ loadStale.quorum.load.lastUs + 300000000 <
      loadStale.opUs) ∧
    (loadFresh.quorum.load.state = 1 ∧ loadFresh.quorum.load.handle = 0 ∧ loadFresh.opUs ≤ loadFresh.quorum.load.lastUs +
      300000000) ∧
    (3 < 4) ∧
    (Taken tier0Held rq0 13824 5 (writeOp false []) tier0Held ∧ Granted tier0Held rq0 false 3 (grantPart []) (leBytes 8
      (mkHandle 0 7 0)) [] [] ∧ mkHandle 0 7 0 < 2 ^ 64 ∧ tier0Held.named (grantPart []) (mkHandle 0 7 0) = some tier0Key ∧
      tier0Key.readable = true ∧ tier0Key.rcd.tier = 0) := by
  refine ⟨?_, ?_, ?_, ?_, ?_, ?_, ?_, ?_, ?_⟩
  · exact ⟨taken _ _ _ _ _ rfl rfl (by decide), waived rfl, by decide +kernel⟩
  · exact ⟨taken _ _ _ _ _ rfl rfl (by decide), card_agrees, card_component, by decide +kernel⟩
  · exact ⟨taken _ _ _ _ _ rfl rfl (by decide), card_agrees, card_component, created0_made, by decide +kernel⟩
  · exact ⟨taken _ _ _ _ _ rfl rfl (by decide), card_agrees, card_component, by decide +kernel⟩
  · exact ⟨taken _ _ _ _ _ rfl rfl (by decide), by decide +kernel⟩
  · decide +kernel
  · decide +kernel
  · decide +kernel
  · exact ⟨taken _ _ _ _ _ rfl rfl (by decide), waived rfl, by decide +kernel⟩

theorem witness_LooperRequests :
    (looperFed.entropy.held = [zeros 32] ∧ looperFed.units.looper.queue ≠ [] ∧ looperFed.units.looper.drawn = false ∧
      looperFed.looperRuns = true) ∧
    ((ready.entropy.held = [] ∨ ready.units.looper.queue = [] ∨ ready.units.looper.drawn = true ∨ ready.looperRuns = false)) ∧
    (kdAsked.power.mainOk = true ∧ drsState kdAsked.life.latched = true ∧ (kdAsked.booting = false ∨ kdAsked.power.stopPoint ≠
      2) ∧ kdAsked.kdDue = true ∧ kdAsked.tamper.drs.isSome = true) ∧
    (formingStart.power.mainOk = true ∧ drsState formingStart.life.latched = true ∧ formingStart.booting = true ∧
      formingStart.power.stopPoint = 2 ∧ 0 ∉ formingStart.units.looper.queue) ∧
    ((starting 2).power.mainOk = true ∧ drsState (starting 2).life.latched = true ∧ (starting 2).booting = true ∧ (starting
      2).power.stopPoint = 2 ∧ 0 ∉ (starting 2).units.looper.queue) ∧
    (unsealedVendor.power.mainOk = true ∧ unsealedVendor.life.latched = 34 ∧ unsealedVendor.life.identity = true ∧
      unsealedVendor.life.sealed = false) ∧
    ((starting 0).power.mainOk = true ∧ (starting 0).power.stopPoint = 0 ∧ (starting 0).life.identity = true ∧ (starting
      0).life.unsealed = false) ∧
    (ready.power.mainOk = true ∧ ready.units.looper.recordKey = none) ∧
    (ready.power.mainOk = true ∧ ready.units.looper.nandKey = none) ∧
    (sealable.units.looper.recordKey.isSome = true ∧ (logged1, none) ∈ sealable.log.nand ∧ logged1.seq = 9 ∧ logged1.cocoon =
      true) ∧
    (looperAsks.units.looper.queue = [0] ∧ looperAsks.units.looper.drawn = false) ∧
    (looperMid.units.looper.queue = [0] ∧ looperMid.units.looper.drawn = true ∧ looperMid.looperPowered = true ∧
      looperMid.units.looper.block + 1 < looperNeed 0 ∧ looperMid.entropy.st ≠ 4) ∧
    (looperEnd.units.looper.queue = [4] ∧ looperEnd.units.looper.drawn = true ∧ looperEnd.looperPowered = true ∧ looperNeed 4 ≤
      looperEnd.units.looper.block + 1 ∧ looperEnd.units.looper.keyReg = some (zeros 32)) := by
  refine ⟨?_, ?_, ?_, ?_, ?_, ?_, ?_, ?_, ?_, ?_, ?_, ?_, ?_⟩
  · decide +kernel
  · decide +kernel
  · decide +kernel
  · decide +kernel
  · decide +kernel
  · decide +kernel
  · decide +kernel
  · decide +kernel
  · decide +kernel
  · decide +kernel
  · decide +kernel
  · decide +kernel
  · decide +kernel

theorem witness_EntropyBlockLife :
    ((ready.power.mainOk = true ∨ ready.power.aux = true) ∧ ready.entropy.st = 0) ∧
    (warming.entropy.st = 1) ∧
    ((testing.entropy.sampled (fit 128 samples0)).fails = [] ∧ (testing.entropy.st = 2 ∨ testing.entropy.st = 3)) ∧
    ((testing.entropy.sampled (fit 128 (zeros 128))).fails ≠ [] ∧ (testing.entropy.st = 2 ∨ testing.entropy.st = 3)) ∧
    (poolFull.power.mainOk = true ∧ poolFull.entropy.held = [zeros 32]) ∧
    (tested.entropy.st = 2 ∧ tested.entropy.passed = 4095 ∧ 2 ≤ tested.entropy.pool.length) ∧
    ((Instr.entropyHealthFail 2 4095 = Instr.entropyHealthFail 2 4095 ∧ (1 ≤ 2 ∧ 2 ≤ 2 ∧ ((entropyAt pooled).entropy.st = 2 ∨
      (entropyAt pooled).entropy.st = 3) ∨ 3 ≤ 2 ∧ 2 ≤ 5 ∧ (entropyAt pooled).entropy.st = 2) ∨ Instr.entropyHealthFail 2 4095
      = Instr.entropyTransportFault ∧ 2 = 6 ∧ 4095 = 0 ∧ ((entropyAt pooled).entropy.st = 2 ∨ (entropyAt pooled).entropy.st =
      3) ∨ Instr.entropyHealthFail 2 4095 = Instr.entropyBlockTimeout ∧ 2 = 7 ∧ 4095 = 0 ∧ (entropyAt pooled).entropy.st = 3)) ∧
    ((Instr.entropyTransportFault = Instr.entropyHealthFail 6 0 ∧ (1 ≤ 6 ∧ 6 ≤ 2 ∧ ((entropyAt pooled).entropy.st = 2 ∨
      (entropyAt pooled).entropy.st = 3) ∨ 3 ≤ 6 ∧ 6 ≤ 5 ∧ (entropyAt pooled).entropy.st = 2) ∨ Instr.entropyTransportFault =
      Instr.entropyTransportFault ∧ 6 = 6 ∧ 0 = 0 ∧ ((entropyAt pooled).entropy.st = 2 ∨ (entropyAt pooled).entropy.st = 3) ∨
      Instr.entropyTransportFault = Instr.entropyBlockTimeout ∧ 6 = 7 ∧ 0 = 0 ∧ (entropyAt pooled).entropy.st = 3)) ∧
    ((Instr.entropyBlockTimeout = Instr.entropyHealthFail 7 0 ∧ (1 ≤ 7 ∧ 7 ≤ 2 ∧ ((entropyAt pooled).entropy.st = 2 ∨
      (entropyAt pooled).entropy.st = 3) ∨ 3 ≤ 7 ∧ 7 ≤ 5 ∧ (entropyAt pooled).entropy.st = 2) ∨ Instr.entropyBlockTimeout =
      Instr.entropyTransportFault ∧ 7 = 6 ∧ 0 = 0 ∧ ((entropyAt pooled).entropy.st = 2 ∨ (entropyAt pooled).entropy.st = 3) ∨
      Instr.entropyBlockTimeout = Instr.entropyBlockTimeout ∧ 7 = 7 ∧ 0 = 0 ∧ (entropyAt pooled).entropy.st = 3)) := by
  refine ⟨?_, ?_, ?_, ?_, ?_, ?_, ?_, ?_, ?_⟩
  · decide +kernel
  · decide +kernel
  · exact ⟨clear_samples, by decide +kernel⟩
  · exact ⟨stuck_samples, by decide +kernel⟩
  · decide +kernel
  · decide +kernel
  · decide +kernel
  · decide +kernel
  · decide +kernel

theorem witness_DrawsServed :
    (nextDraw drawing1.entropy.draws = some (2, 300001, 2) ∧ drawing1.entropy.ready = true ∧ drawBlocks 2 ≤
      drawing1.entropy.pool.length) ∧
    (nextDraw (served 300255 4).entropy.draws = some (4, 300255, 1) ∧ (served 300255 4).entropy.ready = true ∧ drawBlocks 4 ≤
      (served 300255 4).entropy.pool.length) ∧
    (nextDraw (served 200009 1).entropy.draws = some (1, 200009, 1) ∧ (served 200009 1).entropy.ready = true ∧ drawBlocks 1 ≤
      (served 200009 1).entropy.pool.length) ∧
    (nextDraw (served 100007 3).entropy.draws = some (3, 100007, 1) ∧ (served 100007 3).entropy.ready = true ∧ drawBlocks 3 ≤
      (served 100007 3).entropy.pool.length) ∧
    (nextDraw ready.entropy.draws = none) ∧
    (7 < 8 ∧ (keyedLane (2 ^ 16)).entropy.ready = true ∧ ((keyedLane (2 ^ 16)).lane 7).gen.due (keyedLane (2 ^ 16)).opUs = true
      ∧ (∀ d ∈ (keyedLane (2 ^ 16)).entropy.draws, d.2.1 ≠ 100000 + 7)) ∧
    (7 < 8 ∧ ((keyedLane (2 ^ 20)).lane 7).gen.key.isSome = true ∧ ((keyedLane (2 ^ 20)).lane 7).gen.stalled = false ∧ 2 ^ 20 ≤
      ((keyedLane (2 ^ 20)).lane 7).gen.blocks) ∧
    (9 < 10 ∧ (keyedLane (2 ^ 16)).entropy.ready = true ∧ (tgetD (keyedLane (2 ^ 16)).entropy.gens 9 gen0).due (keyedLane (2 ^
      16)).opUs = true ∧ (∀ d ∈ (keyedLane (2 ^ 16)).entropy.draws, d.2.1 ≠ 200000 + 9)) ∧
    (9 < 10 ∧ (tgetD (keyedLane (2 ^ 20)).entropy.gens 9 gen0).key.isSome = true ∧ (tgetD (keyedLane (2 ^ 20)).entropy.gens 9
      gen0).stalled = false ∧ 2 ^ 20 ≤ (tgetD (keyedLane (2 ^ 20)).entropy.gens 9 gen0).blocks) := by
  refine ⟨?_, ?_, ?_, ?_, ?_, ?_, ?_, ?_, ?_⟩
  · decide +kernel
  · decide +kernel
  · decide +kernel
  · decide +kernel
  · decide +kernel
  · decide +kernel
  · decide +kernel
  · decide +kernel
  · decide +kernel

theorem witness_PartitionRandomness :
    (HasRoom { } random4 (randomAt random4 drbg0) ∧ tsorted (randomAt random4 drbg0).adm.slots = true ∧ (randomAt random4
      drbg0).due 5 2561 = some random4 ∧ ((randomAt random4 drbg0).part random4.part).drbg.ready = false) ∧
    (HasRoom { } random4g (randomAt random4g drbg1) ∧ tsorted (randomAt random4g drbg1).adm.slots = true ∧ (randomAt random4g
      drbg1).due 5 2561 = some random4g ∧ ((randomAt random4g drbg1).part random4g.part).drbg.serves = true ∧ (bit (dP0
      random4g.desc) 0 = false ∨ random4g.draws ≠ 0) ∧ (random4g.random = true ∨ (randomAt random4g drbg1).tokenWaiters
      random4g.part = [] ∧ 1000 * dP1 random4g.desc ≤ ((randomAt random4g drbg1).part random4g.part).drbg.tokens) ∧
      (drbg1.generate 4 []).1 = (((randomAt random4g drbg1).part random4g.part).drbg.generate (dP1 random4g.desc) (if bit (dP0
      random4g.desc) 0 = true then [] else addInput random4g.desc)).1) ∧
    (HasRoom { } random4 (randomAt random4 drbg1) ∧ tsorted (randomAt random4 drbg1).adm.slots = true ∧ (randomAt random4
      drbg1).due 5 2561 = some random4 ∧ ((randomAt random4 drbg1).part random4.part).drbg.serves = true ∧ (bit (dP0
      random4.desc) 0 = false ∨ random4.draws ≠ 0) ∧ (random4.random = true ∨ (randomAt random4 drbg1).tokenWaiters
      random4.part = [] ∧ 1000 * dP1 random4.desc ≤ ((randomAt random4 drbg1).part random4.part).drbg.tokens) ∧ (drbg1.generate
      4 []).1 = (((randomAt random4 drbg1).part random4.part).drbg.generate (dP1 random4.desc) (if bit (dP0 random4.desc) 0 =
      true then [] else addInput random4.desc)).1) ∧
    (HasRoom { } random4p (randomAt random4p drbg1) ∧ tsorted (randomAt random4p drbg1).adm.slots = true ∧ (randomAt random4p
      drbg1).due 5 2561 = some random4p ∧ ((randomAt random4p drbg1).part random4p.part).drbg.ready = true ∧ random4p.random =
      true ∧ bit (dP0 random4p.desc) 0 = true ∧ random4p.draws = 0) ∧
    (HasRoom { } random4 tokensShort ∧ tsorted tokensShort.adm.slots = true ∧ tokensShort.due 5 2561 = some random4 ∧
      (tokensShort.part random4.part).drbg.ready = true ∧ random4.random = false ∧ (tokensShort.tokenWaiters random4.part ≠ []
      ∨ (tokensShort.part random4.part).drbg.tokens < 1000 * dP1 random4.desc)) ∧
    (HasRoom { } reseed0 (randomAt reseed0 drbg1) ∧ tsorted (randomAt reseed0 drbg1).adm.slots = true ∧ (randomAt reseed0
      drbg1).due 5 2562 = some reseed0 ∧ ((randomAt reseed0 drbg1).part reseed0.part).drbg.ready = true ∧ reseed0.draws = 0) ∧
    (HasRoom { } reseed1 reseeded ∧ tsorted reseeded.adm.slots = true ∧ reseeded.due 5 2562 = some reseed1 ∧ (reseeded.part
      reseed1.part).drbg.ready = true ∧ reseed1.draws ≠ 0) ∧
    (HasRoom { } reseed0 (randomAt reseed0 drbg0) ∧ tsorted (randomAt reseed0 drbg0).adm.slots = true ∧ (randomAt reseed0
      drbg0).due 5 2562 = some reseed0 ∧ ((randomAt reseed0 drbg0).part reseed0.part).drbg.ready = false) ∧
    ((Instr.drbgReseedInterval 0 = Instr.drbgReseedInterval 0 ∧ (intervalOver.part 0).drbg.lastUs + 1000000 ≤ intervalOver.opUs
      ∨ Instr.drbgReseedInterval 0 = Instr.drbgReseedCount 0 ∧ 2 ^ 20 ≤ (intervalOver.part 0).drbg.counter) ∧
      (intervalOver.part 0).drbg.ready = true ∧ intervalOver.entropy.ready = true ∧ (∀ d ∈ intervalOver.entropy.draws, d.2.1 ≠
      300000 + 0)) ∧
    ((Instr.drbgReseedCount 0 = Instr.drbgReseedInterval 0 ∧ (countOver.part 0).drbg.lastUs + 1000000 ≤ countOver.opUs ∨
      Instr.drbgReseedCount 0 = Instr.drbgReseedCount 0 ∧ 2 ^ 20 ≤ (countOver.part 0).drbg.counter) ∧ (countOver.part
      0).drbg.ready = true ∧ countOver.entropy.ready = true ∧ (∀ d ∈ countOver.entropy.draws, d.2.1 ≠ 300000 + 0)) ∧
    ((stagedMost.part 0).drbg.serves = true ∧ List.length (stagedMost.part 0).drbg.staged + 512 ≤ 2048) ∧
    (tokenWaits.slot 5 = some random4w ∧ (tokenWaits.tokenWaiters random4w.part).head? = some 5 ∧ 1000 * dP1 random4w.desc ≤
      (tokenWaits.part random4w.part).drbg.tokens) := by
  refine ⟨?_, ?_, ?_, ?_, ?_, ?_, ?_, ?_, ?_, ?_, ?_, ?_⟩
  · exact ⟨by unfold HasRoom; decide +kernel, by decide +kernel⟩
  · exact ⟨by unfold HasRoom; decide +kernel, by decide +kernel⟩
  · exact ⟨by unfold HasRoom; decide +kernel, by decide +kernel⟩
  · exact ⟨by unfold HasRoom; decide +kernel, by decide +kernel⟩
  · exact ⟨by unfold HasRoom; decide +kernel, by decide +kernel⟩
  · exact ⟨by unfold HasRoom; decide +kernel, by decide +kernel⟩
  · exact ⟨by unfold HasRoom; decide +kernel, by decide +kernel⟩
  · exact ⟨by unfold HasRoom; decide +kernel, by decide +kernel⟩
  · decide +kernel
  · decide +kernel
  · decide +kernel
  · decide +kernel

theorem witness_AlarmsLatch :
    (senses (Instr.mantleChannelAlarm 47 9) ready 47) ∧
    (senses (Instr.enclosureLoopAlarm 63 9) loopsOn 111) ∧
    (senses (Instr.enclosureLoopAlarm 62 99) loopsOn 110) ∧
    (senses (Instr.caseSwitchAlarm 15 9) loopsOn 127) ∧
    (senses (Instr.lightAlarm 11 9) ready 139) ∧
    (senses (Instr.railAlarm 142 9) ready 142) ∧
    (senses (Instr.tempAlarm 144 9) ready 144) ∧
    (senses (Instr.clockFreq 145 9) ready 145) ∧
    (senses (Instr.clockGlitch 146 9) ready 146) ∧
    (senses Instr.xtalStop ready 147) ∧
    (senses (Instr.fsmCodewordInvalid 3 9) ready 152) ∧
    (senses (Instr.bridgeFault 9) ready 158) ∧
    (47 < 48 ∧ (prbsSample sampling 47 0).1 = false) := by
  refine ⟨?_, ?_, ?_, ?_, ?_, ?_, ?_, ?_, ?_, ?_, ?_, ?_, ?_⟩
  · exact .inl ⟨9, rfl, by decide⟩
  · exact .inr (.inl ⟨63, 9, rfl, by decide, rfl, by decide +kernel⟩)
  · exact .inr (.inl ⟨62, 99, rfl, by decide, rfl, by decide +kernel⟩)
  · exact .inr (.inr (.inl ⟨15, 9, rfl, by decide, rfl, by decide +kernel⟩))
  · exact .inr (.inr (.inr (.inl ⟨11, 9, rfl, by decide, rfl, by decide +kernel⟩)))
  · exact .inr (.inr (.inr (.inr (.inl ⟨9, rfl, by decide, by decide, by decide +kernel⟩))))
  · exact .inr (.inr (.inr (.inr (.inr (.inl ⟨9, rfl, by decide⟩)))))
  · exact .inr (.inr (.inr (.inr (.inr (.inr (.inl ⟨9, rfl, rfl, by decide⟩))))))
  · exact .inr (.inr (.inr (.inr (.inr (.inr (.inr (.inl ⟨9, rfl, rfl, by decide⟩)))))))
  · exact .inr (.inr (.inr (.inr (.inr (.inr (.inr (.inr (.inl ⟨rfl, rfl⟩))))))))
  · exact .inr (.inr (.inr (.inr (.inr (.inr (.inr (.inr (.inr (.inl ⟨3, 9, rfl, by decide, rfl, by decide⟩)))))))))
  · exact .inr (.inr (.inr (.inr (.inr (.inr (.inr (.inr (.inr (.inr ⟨9, rfl, rfl, by decide⟩)))))))))
  · decide +kernel

theorem witness_MainDieResponds :
    ((pendingMain AlarmClass.halt).tamper.pendingMain = [(0, AlarmClass.halt)] ∧ (pendingMain AlarmClass.halt).power.mainOk =
      true ∧ ((AlarmClass.halt = AlarmClass.halt ∨ AlarmClass.halt = AlarmClass.lock) ∧ (pendingMain
      AlarmClass.halt).tamper.response = none ∨ AlarmClass.halt = AlarmClass.lock ∧ (pendingMain
      AlarmClass.halt).tamper.response = some AlarmClass.halt)) ∧
    ((pendingMain AlarmClass.lock).tamper.pendingMain = [(0, AlarmClass.lock)] ∧ (pendingMain AlarmClass.lock).power.mainOk =
      true ∧ ((AlarmClass.lock = AlarmClass.halt ∨ AlarmClass.lock = AlarmClass.lock) ∧ (pendingMain
      AlarmClass.lock).tamper.response = none ∨ AlarmClass.lock = AlarmClass.lock ∧ (pendingMain
      AlarmClass.lock).tamper.response = some AlarmClass.halt)) ∧
    (pendingBoot.tamper.pendingMain = [(0, AlarmClass.lock)] ∧ pendingBoot.power.mainOk = true ∧ ((AlarmClass.lock =
      AlarmClass.halt ∨ AlarmClass.lock = AlarmClass.lock) ∧ pendingBoot.tamper.response = none ∨ AlarmClass.lock =
      AlarmClass.lock ∧ pendingBoot.tamper.response = some AlarmClass.halt)) ∧
    (pendingLow.tamper.pendingMain = [(0, AlarmClass.halt)] ∧ (pendingLow.power.mainOk = false ∨ AlarmClass.halt.code < 2 ∨ ∃
      a, pendingLow.tamper.response = some a ∧ AlarmClass.halt.code ≤ a.code)) := by
  refine ⟨?_, ?_, ?_, ?_⟩
  · decide +kernel
  · decide +kernel
  · decide +kernel
  · decide +kernel

theorem witness_SleeveAndUnlock :
    (sleeved.life.sleeve = true) ∧
    (ready.life.sleeve = false) ∧
    ((∀ (e : Bytes × ℕ), Config.sleeveKey (zeros 80) = some e → Ec.verifyEnc Ec.p256 e.1 (Sha.sha256 ((draw ready 32).1 ++
      Config.certSerial (zeros 80) ++ serial)) (zeros 32 ++ zeros 32) = false) ∧ (ready.life.sleeve = false ∨
      ready.life.sleeveDue = true ∧ ready.powered = true) ∧ ready.powered = true) ∧
    ((∀ (e : Bytes × ℕ), Config.sleeveKey (zeros 80) = some e → Ec.verifyEnc Ec.p256 e.1 (Sha.sha256 ((draw sleeveDue 32).1 ++
      Config.certSerial (zeros 80) ++ serial)) (zeros 32 ++ zeros 32) = false) ∧ (sleeveDue.life.sleeve = false ∨
      sleeveDue.life.sleeveDue = true ∧ sleeveDue.powered = true) ∧ sleeveDue.powered = true) ∧
    ((dark.life.sleeve = false ∨ dark.life.sleeveDue = true ∧ dark.powered = true) ∧ dark.powered = false) ∧
    (Taken vendor rq0 17408 1 32 vendor ∧ 1 ≤ 1 ∧ vendor.holds rq0 1 false = true) ∧
    (sleeved.life.sleeve = true ∧ sleeved.powered = true) ∧
    ((ready.life.sleeve = false ∨ ready.powered = false)) ∧
    (dark.powered = false ∧ dark.life.sleeve = false) ∧
    ((sleeved.powered = true ∨ sleeved.life.sleeve = true)) ∧
    (Taken flagged rq0 16384 5 (writeOp false []) flagged ∧ Granted flagged rq0 false 7 0 (leBytes 1 1) [] [] ∧
      flagged.unlockBarred true = false) ∧
    (Taken flagged rq0 16384 5 (writeOp false []) flagged ∧ Granted flagged rq0 false 7 0 (leBytes 1 0) [] []) ∧
    (unlockOwed.tamper.unlockAt = true ∧ unlockOwed.power.pfail = false ∧ (unlockOwed.power.stopPoint ≠ 0 ∨ unlockOwed.service
      ≠ Service.starting)) ∧
    (Taken vendor rq0 (16640 + 158) 1 (writeOp false []) vendor ∧ Granted vendor rq0 false 5 0 (leBytes 1 3) [] [] ∧ 158 ≤ 158
      ∧ classPermitted 158 3 = true) ∧
    (Taken vendor rq0 16959 1 (writeOp false []) vendor ∧ Granted vendor rq0 false 5 0 (leBytes 1 2) [] [] ∧ 63 < (if false =
      true then 16 else 64) ∧ 2 ≤ 2 ∧ 16959 = (if false = true then 17152 else 16896) + 63 ∧ (2 = 0 ∨ true = true)) ∧
    (Taken vendor rq0 17167 1 (writeOp false []) vendor ∧ Granted vendor rq0 false 5 0 (leBytes 1 0) [] [] ∧ 15 < (if true =
      true then 16 else 64) ∧ 0 ≤ 2 ∧ 17167 = (if true = true then 17152 else 16896) + 15 ∧ (0 = 0 ∨ false = true)) ∧
    (Taken windowVendor rq0 (16896 + 63) 2 (writeOp false []) windowVendor ∧ Granted windowVendor rq0 false 5 0 (leBytes 4 100)
      [] [] ∧ 63 < 64 ∧ (2 = 2 ∧ windowOk 100 (windowVendor.odNat (16896 + 63) 3) = true ∨ 2 = 3 ∧ windowOk (windowVendor.odNat
      (16896 + 63) 2) 100 = true) ∧ (windowVendor.loopMode 63 = 0 ∨ false = true)) := by
  refine ⟨?_, ?_, ?_, ?_, ?_, ?_, ?_, ?_, ?_, ?_, ?_, ?_, ?_, ?_, ?_, ?_, ?_⟩
  · decide +kernel
  · decide +kernel
  · exact ⟨fun _ _ => zero_never_verifies _ _ _, by decide +kernel⟩
  · exact ⟨fun _ _ => zero_never_verifies _ _ _, by decide +kernel⟩
  · decide +kernel
  · exact ⟨taken _ _ _ _ _ rfl rfl (by decide), by decide +kernel⟩
  · decide +kernel
  · decide +kernel
  · decide +kernel
  · decide +kernel
  · exact ⟨taken _ _ _ _ _ rfl rfl (by decide), waived rfl, by decide +kernel⟩
  · exact ⟨taken _ _ _ _ _ rfl rfl (by decide), waived rfl⟩
  · decide +kernel
  · exact ⟨taken _ _ _ _ _ rfl rfl (by decide), waived rfl, by decide +kernel⟩
  · exact ⟨taken _ _ _ _ _ rfl rfl (by decide), waived rfl, by decide +kernel⟩
  · exact ⟨taken _ _ _ _ _ rfl rfl (by decide), waived rfl, by decide +kernel⟩
  · exact ⟨taken _ _ _ _ _ rfl rfl (by decide), waived rfl, by decide +kernel⟩

theorem witness_LifeCycleMoves :
    (Taken (commissioned 6) rqSeam 32769 1 (writeOp false (grantOf 6).bytes) (commissioned 6) ∧ Granted (commissioned 6) rqSeam
      false 6 0 (leBytes 1 68) (grantOf 6).bytes [Change.grantUse (grantOf 6).id (grantOf 6).own] ∧ (commissioned
      6).grantedTransition 68 = true ∧ 68 < 256 ∧ (commissioned 6).transitionShut = false) ∧
    (resetOwed.life.resetPend = true ∧ resetOwed.power.mainOk = true ∧ resetOwed.power.pfail = false ∧ lifeOf
      resetOwed.life.otp ≠ 51) ∧
    (stockResetOwed.life.resetPend = true ∧ stockResetOwed.power.mainOk = true ∧ stockResetOwed.power.pfail = false ∧ lifeOf
      stockResetOwed.life.otp = 51) ∧
    (Taken ready rq0 32784 2 34 ready ∧ ready.life.latched = 51 ∧ List.isEmpty (ready.ahead.odGet 32784 2) = true ∧
      (ready.factory = true ∨ ready.openWrite 32784 2 = true ∨ ready.anyRole rq0 = true)) ∧
    (Taken vendor rq0 20482 1 (writeOp false []) vendor ∧ Granted vendor rq0 false 9 0 (leBytes 4 177) [] [] ∧ (vendor.factory
      = true ∨ vendor.life.latched = 85) ∧ 177 < 2 ^ 32 ∧ bits 177 4 1 ≤ 11) := by
  refine ⟨?_, ?_, ?_, ?_, ?_⟩
  · exact ⟨taken _ _ _ _ _ rfl rfl (by decide), byGrant (g := grantOf 6) rfl rfl (grant_passes _ _ _ rfl rfl rfl rfl rfl rfl), by decide +kernel⟩
  · decide +kernel
  · decide +kernel
  · exact ⟨taken _ _ _ _ _ rfl rfl (by decide), by decide +kernel⟩
  · exact ⟨taken _ _ _ _ _ rfl rfl (by decide), waived rfl, by decide +kernel⟩

theorem witness_IdentityAndDebug :
    (Taken noIdentity rq0 32816 5 32 noIdentity ∧ noIdentity.holds rq0 1 false = true ∧ noIdentity.life.latched = 34 ∧
      noIdentity.life.identity = false ∧ noIdentity.entropy.ready = true) ∧
    (Taken noEntropy rq0 32816 5 32 noEntropy ∧ noEntropy.holds rq0 1 false = true ∧ noEntropy.life.latched = 34 ∧
      noEntropy.life.identity = false ∧ noEntropy.entropy.ready = false) ∧
    (Taken uncertified rq0 32816 6 34 uncertified ∧ uncertified.holds rq0 1 false = true ∧ uncertified.life.certsSet = false) ∧
    (Taken ready rq0 32800 2 34 ready ∧ List.length unsignedCert = authCertLen ∧ (ready.factory = true ∨ ready.openWrite 32800
      2 = true ∨ ready.anyRole rq0 = true)) ∧
    (debugOpen.life.dbgEnd ≤ debugOpen.opUs) ∧
    (debugRunning.opUs < debugRunning.life.dbgEnd) ∧
    (Taken vendor rq0 32800 4 32 vendor ∧ vendor.holds rq0 1 false = true) ∧
    (Taken (holdsGrant 9 68) rqSeam 32800 5 (writeOp false (grantOf 9).bytes) (holdsGrant 9 68) ∧ Granted (holdsGrant 9 68)
      rqSeam false 9 0 (leBytes 1 1) (grantOf 9).bytes [Change.grantUse (grantOf 9).id (grantOf 9).own] ∧ 1 ≤ 1 ∧ (holdsGrant 9
      68).life.latched = 68) ∧
    (debugOpen.life.dbgValid = true) := by
  refine ⟨?_, ?_, ?_, ?_, ?_, ?_, ?_, ?_, ?_⟩
  · exact ⟨taken _ _ _ _ _ rfl rfl (by decide), by decide +kernel⟩
  · exact ⟨taken _ _ _ _ _ rfl rfl (by decide), by decide +kernel⟩
  · exact ⟨taken _ _ _ _ _ rfl rfl (by decide), by decide +kernel⟩
  · exact ⟨taken _ _ _ _ _ rfl rfl (by decide), by decide +kernel⟩
  · decide +kernel
  · decide +kernel
  · exact ⟨taken _ _ _ _ _ rfl rfl (by decide), by decide +kernel⟩
  · exact ⟨taken _ _ _ _ _ rfl rfl (by decide), byGrant (g := grantOf 9) rfl rfl (grant_passes _ _ _ rfl rfl rfl rfl rfl rfl), by decide +kernel⟩
  · decide +kernel

theorem witness_MainResets :
    (off.power.power = Power.off ∧ true = true ∧ off.tamper.sram = true) ∧
    (off.power.power = Power.off ∧ (false = false ∨ off.tamper.sram = false)) ∧
    (sramLost.power.power = Power.off ∧ (true = false ∨ sramLost.tamper.sram = false)) ∧
    (ready.power.power ≠ Power.off) ∧
    ((asked 1 false).power.waiting = some { kind := 1, source := 4, orderly := false, core := 2 } ∧ (asked 1
      false).power.mainOk = true ∧ (asked 1 false).power.pfail = false) ∧
    ((asked 2 false).power.waiting = some { kind := 2, source := 4, orderly := false, core := 2 } ∧ ((asked 2
      false).power.mainOk = true ∨ (asked 2 false).power.power = Power.standby) ∧ (asked 2 false).power.pfail = false ∧ (asked
      2 false).warmAsCold = false) ∧
    (askedEarly.power.waiting = some { kind := 2, source := 4, orderly := false, core := 2 } ∧ (askedEarly.power.mainOk = true
      ∨ askedEarly.power.power = Power.standby) ∧ askedEarly.power.pfail = false ∧ askedEarly.warmAsCold = true) ∧
    ((asked 1 true).power.waiting = some { kind := 1, source := 4, orderly := true, core := 2 } ∧ (asked 1 true).quiesced =
      true ∧ (asked 1 true).power.pfail = false ∧ 1 = 1) ∧
    ((asked 2 true).power.waiting = some { kind := 2, source := 4, orderly := true, core := 2 } ∧ (asked 2 true).quiesced =
      true ∧ (asked 2 true).power.pfail = false ∧ 2 = 2 ∧ (asked 2 true).warmAsCold = false) ∧
    ((asked 4 true).power.waiting = some { kind := 4, source := 4, orderly := true, core := 2 } ∧ (asked 4 true).quiesced =
      true ∧ (asked 4 true).power.pfail = false ∧ 4 = 4) := by
  refine ⟨?_, ?_, ?_, ?_, ?_, ?_, ?_, ?_, ?_, ?_⟩
  · decide +kernel
  · decide +kernel
  · decide +kernel
  · decide +kernel
  · decide +kernel
  · decide +kernel
  · decide +kernel
  · decide +kernel
  · decide +kernel
  · decide +kernel

theorem witness_StartUpReachesReady :
    ((drsHeld 0).booting = true ∧ (drsHeld 0).tamper.response = none ∧ (drsHeld 0).power.mainOk = true ∧ (drsHeld
      0).power.stopPoint = 0 ∧ (drsHeld 0).units.looper.nandKey.isSome = true ∧ 2 ∉ (drsHeld 0).units.looper.queue ∧ (drsHeld
      0).meas.portOpen = true) ∧
    ((drsHeld 3).booting = true ∧ (drsHeld 3).tamper.response = none ∧ (drsHeld 3).power.stopPoint = 3 ∧ (drsHeld 3).keys.kd =
      some (zeros 32)) ∧
    (readySoon.booting = true ∧ readySoon.tamper.response = none ∧ readySoon.power.stopPoint = 4 ∧ readySoon.entropy.ready =
      true) := by
  refine ⟨?_, ?_, ?_⟩
  · decide +kernel
  · decide +kernel
  · decide +kernel

theorem witness_PowerCommands :
    (ready.barOpen 0 = true ∧ ready.power.pfail = false) ∧
    (ready.barOpen 0 = true ∧ ready.power.pfail = false ∧ (ready.power.stopPoint ≠ 0 ∨ ready.service ≠ Service.starting)) ∧
    (ready.barOpen 0 = true ∧ ready.power.pfail = false ∧ 1 ≠ 23235) ∧
    (takeReq vendor rq0 40961 1 32 = (vendor, true) ∧ vendor.holds rq0 1 false = true ∧ vendor.power.pfail = false ∧ (2 = 1 ∨ 2
      = 2 ∧ (vendor.power.stopPoint ≠ 0 ∨ vendor.service ≠ Service.starting))) ∧
    (takeReq ready rqSeam 40961 1 33 = (ready, true) ∧ (rqSeam.transport = 2 ∨ ready.anyRole rqSeam = true ∨ ready.factory =
      true) ∧ ready.power.pfail = false) ∧
    (takeReq (holdsGrant 10 68) rqSeam 40961 1 33 = (holdsGrant 10 68, true) ∧ (rqSeam.transport = 2 ∨ (holdsGrant 10
      68).anyRole rqSeam = true ∨ (holdsGrant 10 68).factory = true) ∧ (holdsGrant 10 68).power.pfail = false) ∧
    (Taken vendor rq0 40961 3 (writeOp false []) vendor ∧ Granted vendor rq0 false 11 0 (leBytes 1 1) [] [] ∧
      vendor.unlockBarred true = false ∧ vendor.power.pfail = false) ∧
    (Taken vendor rq0 40961 3 (writeOp false []) vendor ∧ Granted vendor rq0 false 11 0 (leBytes 1 0) [] []) ∧
    (cutting.power.pfail = false ∧ (cutting.power.mainOk = true ∨ cutting.power.power = Power.standby)) ∧
    (active.power.pfail = false ∧ (active.power.mainOk = true ∨ active.power.power = Power.standby)) ∧
    ((pfail ready).power.pfail = true) ∧
    (off.power.aux = false ∧ off.power.power = Power.off ∧ off.entropy.st ≠ 4) ∧
    (offFailed.power.aux = false ∧ offFailed.power.power = Power.off ∧ offFailed.entropy.st = 4) ∧
    (ready.power.aux = false ∧ ready.power.power ≠ Power.off) ∧
    (auxOn.power.power = Power.off ∧ auxOn.entropy.st ≠ 4) ∧
    (offFailed.power.power = Power.off ∧ offFailed.entropy.st = 4) ∧
    (ready.power.power ≠ Power.off) ∧
    (Taken vendor rq0 40960 2 32 vendor ∧ vendor.holds rq0 1 false = true ∧ vendor.service ≠ Service.starting ∧
      vendor.life.trans = none ∧ vendor.life.resetPend = false ∧ vendor.power.standbyReq = none ∧ vendor.power.waiting = none ∧
      152 ∉ vendor.tamper.flags) := by
  refine ⟨?_, ?_, ?_, ?_, ?_, ?_, ?_, ?_, ?_, ?_, ?_, ?_, ?_, ?_, ?_, ?_, ?_, ?_⟩
  · decide +kernel
  · decide +kernel
  · decide +kernel
  · decide +kernel
  · decide +kernel
  · decide +kernel
  · exact ⟨taken _ _ _ _ _ rfl rfl (by decide), waived rfl, by decide +kernel⟩
  · exact ⟨taken _ _ _ _ _ rfl rfl (by decide), waived rfl⟩
  · decide +kernel
  · decide +kernel
  · decide +kernel
  · decide +kernel
  · decide +kernel
  · decide +kernel
  · decide +kernel
  · decide +kernel
  · decide +kernel
  · exact ⟨taken _ _ _ _ _ rfl rfl (by decide), by decide +kernel⟩

theorem witness_SeamLinks :
    (0 ≤ 4 ∧ (training.port 0).st ≠ 0 ∧ (training.port 0).st ≠ 3 ∧ (0 = 4 ∨ training.bypassClosed 0 = false) ∧ (0 < 4 → zeros
      16 = training.odGet 28672 1 ∧ training.peerSteps 0 3 = some 1) ∧ (0 = 4 → training.isPartner 0 0 (zeros 12) [] = true ∧ 1
      = 1)) ∧
    (0 ≤ 4 ∧ (training.port 0).st ≠ 0 ∧ (training.port 0).st ≠ 3 ∧ (0 = 4 ∨ training.bypassClosed 0 = false) ∧ (false && true)
      = false) ∧
    (0 ≤ 4 ∧ (training.port 0).st ≠ 0 ∧ (training.port 0).st ≠ 3 ∧ (0 = 4 ∨ training.bypassClosed 0 = false) ∧ 0 < 4 ∧
      clusterId ≠ training.odGet 28672 1) ∧
    (0 ≤ 4 ∧ (training.port 0).st ≠ 0 ∧ (training.port 0).st ≠ 3 ∧ (0 = 4 ∨ training.bypassClosed 0 = false) ∧ (0 < 4 ∧ zeros
      16 = training.odGet 28672 1 ∧ training.peerSteps 0 15 = none ∨ 0 = 4 ∧ training.isPartner 0 0 (zeros 12) [] = false)) ∧
    (linked.portUp 3 = true) ∧
    (resending.portUp 0 = true ∧ (resending.port 0).fails < 8) ∧
    (failing.portUp 0 = true ∧ 8 ≤ (failing.port 0).fails) ∧
    (linked.portUp 3 = true ∧ 3 < 4 ∧ 5 < 6) ∧
    (linked.portUp 3 = true ∧ 3 < 4 ∧ 0 < 6) ∧
    (linked.portUp 3 = true ∧ 3 < 4 ∧ 5 < 6 ∧ 2 ≤ 2 ∧ 1 < 32768 ∧ 1 ≠ linked.position ∧ linked.routePort 1 = some 1) ∧
    (linked.portUp 3 = true ∧ 3 < 4 ∧ 2 < 6 ∧ 2 ≤ 255 ∧ 96 < 32768 ∧ 96 ≠ linked.position ∧ linked.routePort 96 = some 2) ∧
    (resending.portUp 0 = true) := by
  refine ⟨?_, ?_, ?_, ?_, ?_, ?_, ?_, ?_, ?_, ?_, ?_, ?_⟩
  · decide +kernel
  · decide +kernel
  · decide +kernel
  · decide +kernel
  · decide +kernel
  · decide +kernel
  · decide +kernel
  · decide +kernel
  · decide +kernel
  · decide +kernel
  · decide +kernel
  · decide +kernel

theorem witness_ClusterTime :
    (clustered.clustered = true ∧ clustered.isMaster = true ∧ clustered.power.stopPoint ≠ 0) ∧
    (follower.clustered = true ∧ 1 ≠ follower.position ∧ follower.power.stopPoint ≠ 0 ∧ 50000 < 2 ^ 64 ∧
      ({ follower with seam := { follower.seam with masterGone := sdel 1 follower.seam.masterGone } } : State).actingMaster = 1
      ∧ ((50000 : Int) - (follower.timeUs : Int)).natAbs ≤ 50000) ∧
    (follower.clustered = true ∧ 1 ≠ follower.position ∧ follower.power.stopPoint ≠ 0 ∧ 50001 < 2 ^ 64 ∧
      ({ follower with seam := { follower.seam with masterGone := sdel 1 follower.seam.masterGone } } : State).actingMaster = 1
      ∧ 50000 < ((50001 : Int) - (follower.timeUs : Int)).natAbs) ∧
    ((inBand 10000000).seam.inBand = some 0 ∧ (inBand 10000000).seam.unsynced = true ∧ 0 + 10000000 ≤ (inBand 10000000).opUs) ∧
    ((inBand 9999999).seam.inBand = some 0 ∧ (inBand 9999999).seam.unsynced = true ∧ (inBand 9999999).opUs < 0 + 10000000) ∧
    ((drifted 50000).clustered = true ∧ (drifted 50000).isMaster = false ∧ (drifted 50000).power.stopPoint ≠ 0 ∧ 50000 =
      (drifted 50000).seam.offset.natAbs + 20 * ((drifted 50000).opUs - (drifted 50000).seam.lastSync) / 1000000 ∧ 50000 ≤
      50000) ∧
    ((drifted (-50001)).clustered = true ∧ (drifted (-50001)).isMaster = false ∧ (drifted (-50001)).power.stopPoint ≠ 0 ∧ 50001
      = (drifted (-50001)).seam.offset.natAbs + 20 * ((drifted (-50001)).opUs - (drifted (-50001)).seam.lastSync) / 1000000 ∧
      50000 < 50001) ∧
    ((drifted (-50001)).clustered = true ∧ (drifted (-50001)).isMaster = false ∧ (drifted (-50001)).power.stopPoint ≠ 0 ∧ 50001
      = (drifted (-50001)).seam.offset.natAbs + 20 * ((drifted (-50001)).opUs - (drifted (-50001)).seam.lastSync) / 1000000) ∧
    (Taken vendor rq0 28673 1 (writeOp false []) vendor ∧ Granted vendor rq0 true 10 0 (leBytes 8 5) [] [] ∧ 5 < 2 ^ 64) ∧
    (Taken vendorFollower rq0 28673 1 (writeOp false []) vendorFollower ∧ Granted vendorFollower rq0 true 10 0 (leBytes 8 5) []
      [] ∧ 5 < 2 ^ 64) := by
  refine ⟨?_, ?_, ?_, ?_, ?_, ?_, ?_, ?_, ?_, ?_⟩
  · decide +kernel
  · decide +kernel
  · decide +kernel
  · decide +kernel
  · decide +kernel
  · decide +kernel
  · decide +kernel
  · decide +kernel
  · exact ⟨taken _ _ _ _ _ rfl rfl (by decide), waived rfl, by decide +kernel⟩
  · exact ⟨taken _ _ _ _ _ rfl rfl (by decide), waived rfl, by decide +kernel⟩

theorem witness_ClusterConfiguration :
    (Taken registered rq0 (13056 + 12) 3 (writeOp false []) registered ∧ Granted registered rq0 false 5 0 (numBytes (13056 +
      12) 3 600) [] [] ∧ registered.seam.quarantine = 0 ∧ 1 ≤ 12 ∧ 12 ≤ 12 ∧ 1 ≤ 3 ∧ 3 ≤ 4 ∧ numCheck (13056 + 12) 3 600 = none
      ∧ (registered.odSet (13056 + 12) 3 (numBytes (13056 + 12) 3 600)).classM 12 ≠ 0 ∧ (registered.odSet (13056 + 12) 3
      (numBytes (13056 + 12) 3 600)).classM 12 ≤ (registered.odSet (13056 + 12) 3 (numBytes (13056 + 12) 3 600)).holders
      ((registered.odSet (13056 + 12) 3 (numBytes (13056 + 12) 3 600)).classRoles 12)) ∧
    (Taken registered rq0 (13056 + 1) 2 (writeOp false []) registered ∧ Granted registered rq0 false 5 0 (numBytes (13056 + 1)
      2 2) [] [] ∧ registered.seam.quarantine = 0 ∧ 1 ≤ 1 ∧ 1 ≤ 12 ∧ 1 ≤ 2 ∧ 2 ≤ 4 ∧ numCheck (13056 + 1) 2 2 = none ∧
      (registered.odSet (13056 + 1) 2 (numBytes (13056 + 1) 2 2)).classM 1 ≠ 0 ∧ (registered.odSet (13056 + 1) 2 (numBytes
      (13056 + 1) 2 2)).classM 1 ≤ (registered.odSet (13056 + 1) 2 (numBytes (13056 + 1) 2 2)).holders ((registered.odSet
      (13056 + 1) 2 (numBytes (13056 + 1) 2 2)).classRoles 1)) ∧
    (Taken registered rq0 (13568 + 63) 1 (writeOp false []) registered ∧ Granted registered rq0 false 5 0 [15#8] [] [] ∧
      registered.seam.quarantine = 0 ∧ 63 < 64 ∧ 1 ≤ 1 ∧ 1 ≤ 4 ∧ odEntry (13568 + 63) 1 = some entry3500 ∧ [15#8].length =
      entry3500.size ∧ (1 = 1 → leNat [15#8] < 16) ∧ (registered.odSet (13568 + 63) 1 [15#8]).satisfiable = true) ∧
    (Taken registered rq0 28672 5 (writeOp false []) registered ∧ Granted registered rq0 false 10 0 (leBytes 8 65535) [] [] ∧
      registered.seam.quarantine = 0 ∧ List.length (leBytes 8 65535) = 8) ∧
    (Taken vendorFollower rq0 28672 5 (writeOp false []) vendorFollower ∧ Granted vendorFollower rq0 false 10 0 (leBytes 8
      65535) [] [] ∧ vendorFollower.seam.quarantine = 0 ∧ List.length (leBytes 8 65535) = 8) ∧
    (3 < 4 ∧ follower.portUp 3 = true ∧ follower.clustered = true ∧ cfgNext.entry = some (13057, 2, [2#8]) ∧ isConfig 13057 2 =
      true ∧ entryTrusted (13057, 2, [2#8]) = true ∧ cfgNext.epoch = follower.epoch + 1 ∧ cfgNext.epoch < 2 ^ 64 ∧
      follower.seam.pulling = none ∧ follower.seam.conflict = false) ∧
    (3 < 4 ∧ follower.portUp 3 = true ∧ follower.clustered = true ∧ cfgNone.entry = none ∧ cfgNone.epoch = follower.epoch + 1 ∧
      cfgNone.epoch < 2 ^ 64 ∧ follower.seam.pulling = none ∧ follower.seam.conflict = false) ∧
    (3 < 4 ∧ follower.portUp 3 = true ∧ follower.clustered = true ∧ follower.epoch + 1 < cfgAhead.epoch) ∧
    (3 < 4 ∧ epochFour.portUp 3 = true ∧ epochFour.clustered = true ∧ cfgFour.epoch = epochFour.epoch ∧ cfgFour.epoch ≠ 0 ∧
      cfgFour.digest ≠ epochFour.digest ∧ epochFour.seam.pulling = none) ∧
    (3 < 4 ∧ pulling.portUp 3 = true ∧ pulling.clustered = true ∧ pulling.seam.quarantine = 1) ∧
    (follower.seam.pulling = none) ∧
    (0 < epochFour.epoch) ∧
    ((takeConfig pulling 5 []).digest = (takeConfig pulling 5 []).digest ∧ pulling.seam.pulling.isSome = true ∧ pulling.epoch ≤
      5 ∧ 5 < 2 ^ 64) ∧
    (Taken conflicted rq0 28672 10 (writeOp false []) conflicted ∧ Granted conflicted rq0 false 10 0 (zeros 48) [] [] ∧
      List.length (zeros 48) = 48 ∧ conflicted.seam.quarantine = 2) := by
  refine ⟨?_, ?_, ?_, ?_, ?_, ?_, ?_, ?_, ?_, ?_, ?_, ?_, ?_, ?_⟩
  · exact ⟨taken _ _ _ _ _ rfl rfl (by decide), waived rfl, by decide +kernel⟩
  · exact ⟨taken _ _ _ _ _ rfl rfl (by decide), waived rfl, by decide +kernel⟩
  · exact ⟨taken _ _ _ _ _ rfl rfl (by decide), waived rfl, by decide +kernel⟩
  · exact ⟨taken _ _ _ _ _ rfl rfl (by decide), waived rfl, by decide +kernel⟩
  · exact ⟨taken _ _ _ _ _ rfl rfl (by decide), waived rfl, by decide +kernel⟩
  · decide +kernel
  · decide +kernel
  · decide +kernel
  · decide +kernel
  · decide +kernel
  · decide +kernel
  · decide +kernel
  · exact ⟨rfl, by decide +kernel⟩
  · exact ⟨taken _ _ _ _ _ rfl rfl (by decide), waived rfl, by decide +kernel⟩

theorem witness_HeartbeatsAndToken :
    (unlinkedActive.pair.arbKey = some (zeros 32) ∧ unlinkedActive.paired = true) ∧
    (hb0.macOk = true ∧ hb0.member ≤ 1 ∧ hb0.pairId ≠ 0 ∧ (inPair pair0).power.stopPoint ≠ 0 ∧ hb0.pairId = (inPair
      pair0).pairId ∧ hb0.member ≠ (inPair pair0).member) ∧
    (hbOther.macOk = true ∧ hbOther.member ≤ 1 ∧ hbOther.pairId ≠ 0 ∧ (inPair pair0).power.stopPoint ≠ 0 ∧ hbOther.pairId ≠
      (inPair pair0).pairId ∧ (∀ (o : Heartbeat), (((inPair pair0).referee hbOther.pairId).watch hbOther.member).hb = some o →
      o.seq < hbOther.seq)) ∧
    (hbBad.macOk = false) ∧
    (tget refereed.pair.refs 9 = some refereeA ∧ 0 ≤ 1) ∧
    ((inPair keyedPair).pair.arbKey = some (zeros 32) ∧ List.length (tokenRec 0) = 48 ∧ tokenFor 0 = tokenOf (zeros 32)
      (tokenRec 0) ∧ (inPair keyedPair).paired = true ∧ (tokenFor 0).macOk = true ∧ (tokenFor 0).pairId = (inPair
      keyedPair).pairId ∧ (inPair keyedPair).pair.tokenSeq < (tokenFor 0).seq ∧ 1 ≤ (inPair keyedPair).power.stopPoint ∧
      (tokenFor 0).active = (inPair keyedPair).member) ∧
    (activeTokened.pair.arbKey = some (zeros 32) ∧ List.length (tokenRec 1) = 48 ∧ tokenFor 1 = tokenOf (zeros 32) (tokenRec 1)
      ∧ activeTokened.paired = true ∧ (tokenFor 1).macOk = true ∧ (tokenFor 1).pairId = activeTokened.pairId ∧
      activeTokened.pair.tokenSeq < (tokenFor 1).seq ∧ 1 ≤ activeTokened.power.stopPoint ∧ (tokenFor 1).active ≠
      activeTokened.member ∧ activeTokened.pair.tokenHeld = true) ∧
    (activeTokened.pair.arbKey = some (zeros 32) ∧ (List.length (zeros 48) ≠ 48 ∨ (tokenOf (zeros 32) (zeros 48)).macOk = false
      ∨ (tokenOf (zeros 32) (zeros 48)).seq ≤ activeTokened.pair.tokenSeq)) ∧
    (activeTokened.pair.tokenHeld = true) ∧
    ((inPair keyedPair).pair.tokenHeld = false) ∧
    (claiming.pair.arbKey.isSome = true) ∧
    (arbitrated.power.stopPoint ≠ 0 ∧ arbitrated.paired = true ∧ (Ec.decode Ec.p256 cardPoint).isSome = true ∧
      arbitrated.arbSigned [] true = true) ∧
    (arbitrated.power.stopPoint ≠ 0 ∧ arbitrated.paired = true ∧ (Ec.decode Ec.p256 cardPoint).isSome = true ∧
      arbitrated.arbSigned [] false = false) := by
  refine ⟨?_, ?_, ?_, ?_, ?_, ?_, ?_, ?_, ?_, ?_, ?_, ?_, ?_⟩
  · decide +kernel
  · decide +kernel
  · decide +kernel
  · decide +kernel
  · decide +kernel
  · decide +kernel
  · decide +kernel
  · decide +kernel
  · decide +kernel
  · decide +kernel
  · decide +kernel
  · decide +kernel
  · decide +kernel

theorem witness_CollarMoves :
    (standbyTokened.pair.role = 1 ∧ standbyTokened.pair.tokenHeld = true ∧ standbyTokened.eligible = true ∧
      standbyTokened.collarClear = true ∧ standbyTokened.pair.race = false ∧ standbyTokened.power.waiting = none ∧
      standbyTokened.power.pfail = false) ∧
    ((standbyUntokened.pair.role ≠ 1 ∨ standbyUntokened.pair.tokenHeld = false ∨ standbyUntokened.eligible = false ∨
      standbyUntokened.collarClear = false)) ∧
    (claiming.pair.role = 2 ∧ claiming.collarClear = true ∧ claiming.pair.foreign = false) ∧
    (claimingForeign.pair.role = 2 ∧ claimingForeign.collarClear = true ∧ claimingForeign.pair.foreign = true) ∧
    (activeRings.pair.collarRx = false ∧ (activeRings.pair.role = 2 ∨ activeRings.pair.role = 3)) ∧
    (standbyTokened.pair.collarRx = false ∧ standbyTokened.pair.role ≠ 2 ∧ standbyTokened.pair.role ≠ 3) ∧
    (collarSeen.pair.collarRx = true) ∧
    (Taken switchable rq0 28928 6 (writeOp false []) switchable ∧ Granted switchable rq0 false 10 0 (leBytes 1 1) [] [] ∧
      switchable.pair.role = 3 ∧ switchable.partnerEligible = true ∧ switchable.pair.switching = none) ∧
    (Taken switchable rq0 28928 6 (writeOp false []) switchable ∧ Granted switchable rq0 false 10 0 (leBytes 1 0) [] []) := by
  refine ⟨?_, ?_, ?_, ?_, ?_, ?_, ?_, ?_, ?_⟩
  · decide +kernel
  · decide +kernel
  · decide +kernel
  · decide +kernel
  · decide +kernel
  · decide +kernel
  · decide +kernel
  · exact ⟨taken _ _ _ _ _ rfl rfl (by decide), waived rfl, by decide +kernel⟩
  · exact ⟨taken _ _ _ _ _ rfl rfl (by decide), waived rfl⟩

theorem witness_StandbyCycles :
    (standby.paired = true ∧ standby.portUp 4 = true ∧ standby.pair.role ≠ 3 ∧ standby.service ≠ Service.starting ∧
      standby.seam.quarantine = 0 ∧ cycle0.tagOk = true ∧ standby.commit.cycles = [] ∧ cycle0.pairId = standby.pairId ∧
      cycle0.cycle = standby.commit.applied + 1 ∧ cycle0.epoch = standby.pair.tokenEpoch) ∧
    (standby.paired = true ∧ standby.portUp 4 = true ∧ standby.pair.role ≠ 3 ∧ standby.service ≠ Service.starting ∧
      standby.seam.quarantine = 0 ∧ cycleTwo.cycle ≠ standby.commit.applied + 1) ∧
    (List.find? (fun x => !x.late) (lateOf false).commit.cycles = some (cycleLate false) ∧ (lateOf false).pair.role = 3) ∧
    (List.find? (fun x => !x.late) lostCycle.commit.cycles = some (lateItem false) ∧ lostCycle.pair.role ≠ 3 ∧ tsorted
      lostCycle.adm.slots = true) ∧
    (List.find? (fun x => !x.late) (lateOf true).commit.cycles = none) ∧
    (gapped.paired = true ∧ gapped.portUp 4 = true ∧ gapped.seam.quarantine = 0 ∧ gapped.pair.role ≠ 3 ∧ gapped.eligible =
      false) ∧
    (activeResync.paired = true ∧ activeResync.portUp 4 = true ∧ activeResync.seam.quarantine = 0 ∧ activeResync.pair.role = 3) ∧
    (copying.paired = true ∧ copying.portUp 4 = true ∧ copying.pair.role ≠ 3 ∧ copying.pair.resync = true ∧
      copying.seam.quarantine = 0) ∧
    (cycleFive.tagOk = true ∧ vaulted.seam.quarantine = 0 ∧ 255 < 256 ∧ vaulted.clustered = true ∧ vaulted.power.stopPoint ≠ 0
      ∧ (tgetD vaulted.pair.vaults (3 % 1024 * 256 + 255) vault0).cycle < cycleFive.cycle) := by
  refine ⟨?_, ?_, ?_, ?_, ?_, ?_, ?_, ?_, ?_⟩
  · decide +kernel
  · decide +kernel
  · decide +kernel
  · decide +kernel
  · decide +kernel
  · decide +kernel
  · decide +kernel
  · decide +kernel
  · decide +kernel

theorem witness_RepliesReachTheirSender :
    (tget (inSession4 session0).od.sessions rqSess.session = some session0) ∧
    (rq0.transport = 0 ∧ rq0.session = 0 ∧ mailboxBusy.od.busy = true ∧ mailboxBusy.od.dropReply = false ∧ mailboxBusy.asleep =
      false) := by
  refine ⟨?_, ?_⟩
  · decide +kernel
  · decide +kernel

theorem witness_DictionaryRequests :
    (takeReq ready rq0 4096 1 1 = (ready, true) ∧ odEntry 4096 1 = some entry1000 ∧ entry1000.size ≠ 0 ∧ entry1000.acc ≠
      Access.wo ∧ ready.mayRead rq0 4096 1 = true) ∧
    (takeReq ready rq0 13568 1 1 = (ready, true) ∧ odEntry 13568 1 = some entry3500 ∧ entry3500.size ≠ 0 ∧ ready.mayRead rq0
      13568 1 = false) ∧
    (takeReq vendor rq0 12289 1 2 = (vendor, true) ∧ odEntry 12289 1 = some entry3001 ∧ entry3001.size = 0 ∧ entry3001.acc ≠
      Access.wo ∧ vendor.mayRead rq0 12289 1 = true) ∧
    (Taken vendor rq0 4128 2 32 vendor ∧ odEntry 4128 2 = some entry1020 ∧ entry1020.own = false ∧ entry1020.acc = Access.rw ∧
      entry1020.size ≠ 0 ∧ vendor.holds rq0 1 entry1020.pa = true ∧ valueCheck entry1020 (leBytes 2 600) = none ∧ extraCheck
      4128 2 (leNat (leBytes 2 600)) = none) ∧
    (Taken vendor rq0 1 2 32 vendor ∧ odEntry 1 2 = none) ∧
    (Taken (holdsGrant 10 51) rqSeam 28672 1 33 (holdsGrant 10 51) ∧ Granted (holdsGrant 10 51) rqSeam (28672 == 28673)
      entry7000.cls (entryPart 28672) clusterId (grantOf 10).bytes [Change.grantUse (grantOf 10).id (grantOf 10).own] ∧
      List.length (grantOf 10).bytes = 32 ∧ odEntry 28672 1 = some entry7000 ∧ entry7000.own = false ∧ entry7000.acc =
      Access.rwq ∧ entry7000.size ≠ 0 ∧ valueCheck entry7000 clusterId = none ∧ extraCheck 28672 1 (leNat clusterId) = none) ∧
    (ready.session rq0 = none ∧ List.length (zeros 8) ≤ segmentMax rq0.transport) ∧
    (tget stagedOld.od.sessions 4 = some staging ∧ staging.stageUs + 300000000 ≤ stagedOld.opUs) ∧
    (tget stagedNew.od.sessions 4 = some staging ∧ stagedNew.opUs < staging.stageUs + 300000000) ∧
    (Taken (inSession4 session0) rqSess 12289 1 34 segTaken ∧ (inSession4 session0).session rqSess = some session0 ∧
      session0.seq ≤ rqSess.seq ∧ session0.busy = false ∧ ([] : Bytes) = (if session0.stageIdx = some (12289, 1) then
      session0.stageData else []) ∧ 0 = ([] : Bytes).length ∧ (session0.stageIdx = some (12289, 1) → 9 = session0.stageTot) ∧ 0
      + [1#8].length < 9 ∧ 9 ≤ 2 ^ 24 ∧ [1#8].length ≤ segmentMax rqSess.transport ∧ writableDomain 12289 1 = true ∧
      (segTaken.anyRole rqSess = true ∨ segTaken.factory = true ∨ segTaken.openWrite 12289 1 = true)) ∧
    (Taken (inSession4 staging) rqSess 12289 1 34 segTaken2 ∧ (inSession4 staging).session rqSess = some staging ∧ staging.seq
      ≤ rqSess.seq ∧ staging.busy = false ∧ [1#8] = (if staging.stageIdx = some (12289, 1) then staging.stageData else []) ∧ 1
      = [1#8].length ∧ (staging.stageIdx = some (12289, 1) → 9 = staging.stageTot) ∧ 1 + [1#8].length < 9 ∧ 9 ≤ 2 ^ 24 ∧
      [1#8].length ≤ segmentMax rqSess.transport ∧ writableDomain 12289 1 = true ∧ (segTaken2.anyRole rqSess = true ∨
      segTaken2.factory = true ∨ segTaken2.openWrite 12289 1 = true)) := by
  refine ⟨?_, ?_, ?_, ?_, ?_, ?_, ?_, ?_, ?_, ?_, ?_⟩
  · decide +kernel
  · decide +kernel
  · decide +kernel
  · exact ⟨taken _ _ _ _ _ rfl rfl (by decide), by decide +kernel⟩
  · exact ⟨taken _ _ _ _ _ rfl rfl (by decide), by decide +kernel⟩
  · exact ⟨taken _ _ _ _ _ rfl rfl (by decide), byGrant (g := grantOf 10) rfl rfl (grant_passes _ _ _ rfl rfl rfl rfl rfl rfl), by decide +kernel⟩
  · decide +kernel
  · decide +kernel
  · decide +kernel
  · exact ⟨⟨by decide +kernel, by decide⟩, by decide +kernel⟩
  · exact ⟨⟨by decide +kernel, by decide⟩, by decide +kernel⟩

theorem witness_SessionLife :
    (Taken member63 rqOpen 0 0 64 member63 ∧ rqOpen.transport ≠ 2 ∧ 63 < 64 ∧ member63.roles 63 ≠ 0 ∧ (Ec.decode Ec.p256
      cardPoint).isSome = true ∧ List.length member63.od.sessions < 32 ∧ tgetD member63.od.barred 63 0 ≤ member63.opUs ∧
      rqOpen.session ≠ member63.od.nextSess ∧ member63.coreReady 72 = true) ∧
    (Taken undrawn rqOpen 0 0 64 undrawn ∧ rqOpen.transport ≠ 2 ∧ 63 < 64 ∧ undrawn.roles 63 ≠ 0 ∧ (Ec.decode Ec.p256
      cardPoint).isSome = true ∧ List.length undrawn.od.sessions < 32 ∧ tgetD undrawn.od.barred 63 0 ≤ undrawn.opUs ∧
      rqOpen.session ≠ undrawn.od.nextSess ∧ undrawn.coreReady 72 = false) ∧
    (tget sessionOld.od.sessions 4 = some session0 ∧ session0.busy = false ∧ session0.lastUs + 1000000 * sessionOld.odNat 4128
      2 ≤ sessionOld.opUs) ∧
    (tget (inSession4 session0).od.sessions 4 = some session0 ∧ session0.busy = false ∧ (inSession4 session0).opUs <
      session0.lastUs + 1000000 * (inSession4 session0).odNat 4128 2) ∧
    (Taken (inSession4 session0) rqSess 0 0 65 authTaken ∧ authTaken.session rqSess = some sessionTaken ∧
      sessionTaken.transport = rqSess.transport ∧ sessionTaken.keyed = false ∧ List.length (zeros 64) = 64) ∧
    (Taken (inSession4 session0) rqSess 0 0 66 closeTaken ∧ closeTaken.session rqSess = some sessionTaken ∧
      sessionTaken.transport = rqSess.transport) := by
  refine ⟨?_, ?_, ?_, ?_, ?_, ?_⟩
  · exact ⟨taken _ _ _ _ _ rfl rfl (by decide), by decide +kernel⟩
  · exact ⟨taken _ _ _ _ _ rfl rfl (by decide), by decide +kernel⟩
  · decide +kernel
  · decide +kernel
  · exact ⟨⟨by decide +kernel, by decide⟩, by decide +kernel⟩
  · exact ⟨⟨by decide +kernel, by decide⟩, by decide +kernel⟩

theorem witness_WaysInAndLog :
    (mailboxBusy.barOpen 0 = true ∧ (mailboxBusy.od.busy = true ∨ mailboxBusy.od.replyUp = true)) ∧
    (mailboxFull.barOpen 0 = true ∧ mailboxFull.od.busy = false ∧ mailboxFull.od.replyUp = false ∧ 16 ≤ 24 ∧ 24 ≤ 16384 ∧
      openEnvelope mailboxFull 0 0 (List.map (fun i => tgetD mailboxFull.od.reqBuf i 0#8) (List.range 24)) = Except.ok (rqRead,
      readBody)) ∧
    (mgmtUp.odNat 4112 1 ≠ 0 ∧ mgmtUp.od.mgmtUp = true ∧ mgmtUp.power.stopPoint ≠ 0 ∧ mgmtUp.mgmtAddressed mgmtAddr 1024 =
      false) ∧
    (mgmtUp.mgmtAddressed mgmtAddr 5170 = true ∧ mgmtUp.odNat 4112 1 ≠ 0 ∧ mgmtUp.od.mgmtUp = true ∧ mgmtUp.power.stopPoint ≠ 0
      ∧ openEnvelope mgmtUp 1 9 envelope = Except.ok (rqMgmt, readBody) ∧ 0 = mgmtUp.position) ∧
    (mgmtUp.mgmtAddressed mgmtAddr 5170 = true ∧ mgmtUp.odNat 4112 1 ≠ 0 ∧ mgmtUp.od.mgmtUp = true ∧ mgmtUp.power.stopPoint ≠ 0
      ∧ openEnvelope mgmtUp 1 9 envelope = Except.ok (rqMgmt, readBody) ∧ 3 ≠ mgmtUp.position ∧ takeReq mgmtUp rqMgmt (leAt
      readBody 0 2) (byteAt readBody 2) (byteAt readBody 3) = (mgmtUp, true)) ∧
    (relaying.power.stopPoint ≠ 0 ∧ 128 ≤ byteAt replyFrame 3 ∧ 3 < 1024 ∧ List.find? (fun r => r.1 == 3 && r.2.2 == leAt
      replyFrame 8 4) relaying.od.relays = some (3, rqMgmt, 77)) ∧
    (relaying.power.stopPoint ≠ 0 ∧ 128 ≤ byteAt replyFrame 3 ∧ 4 < 1024 ∧ List.find? (fun r => r.1 == 4 && r.2.2 == leAt
      replyFrame 8 4) relaying.od.relays = none) ∧
    (ready.power.stopPoint ≠ 0 ∧ 9 < 1024 ∧ waitsForRow (leAt heldBody 0 2) (byteAt heldBody 2) = true ∧ 32 ≤ byteAt heldBody 3
      ∧ byteAt heldBody 3 < 128) ∧
    (ready.power.stopPoint ≠ 0 ∧ 9 < 1024 ∧ List.length readBody = 8 ∧ byteAt readBody 3 = 1) ∧
    (logging.logOpen = true ∧ logging.power.pfail = false) ∧
    ((loggingOff.logOpen = false ∨ loggingOff.power.pfail = true)) ∧
    (Taken sealed1 rq0 24579 1 32 sealed1 ∧ sealed1.holds rq0 1 false = true ∧ 9 < 2 ^ 64 ∧ sealed1.units.looper.recordKey =
      some (zeros 32)) ∧
    (Taken vendor rq0 24578 1 (writeOp false []) vendor ∧ Granted vendor rq0 false 8 0 (leBytes 1 1) [] [] ∧ 1 ≤ 1) := by
  refine ⟨?_, ?_, ?_, ?_, ?_, ?_, ?_, ?_, ?_, ?_, ?_, ?_, ?_⟩
  · decide +kernel
  · decide +kernel
  · decide +kernel
  · exact ⟨mgmtUp_addressed, by decide +kernel⟩
  · exact ⟨mgmtUp_addressed, by decide +kernel⟩
  · decide +kernel
  · decide +kernel
  · decide +kernel
  · decide +kernel
  · decide +kernel
  · decide +kernel
  · exact ⟨taken _ _ _ _ _ rfl rfl (by decide), by decide +kernel⟩
  · exact ⟨taken _ _ _ _ _ rfl rfl (by decide), waived rfl, by decide +kernel⟩

theorem witness_StepRunsFront :
    queued2.pending = [Instr.hostLinkDown, Instr.warmupEnd] :=
  by decide +kernel

theorem witness_IdleStepPassesTime :
    ready.pending = [] :=
  by decide +kernel

theorem ready_inv : Machine.Inv ready := by
  refine ⟨fun k b h => h, ⟨?_, ?_⟩, ?_, ?_, ?_⟩ <;> decide +kernel

theorem witness_StepKeepsInv : Machine.Inv ready ∧ ∃ t, step ready = .next t := ⟨ready_inv, _, rfl⟩

theorem witness_StepTakesNothingBack : ∃ t, step queued2 = .next t := ⟨_, rfl⟩


end Sys2Proof.Tests
end

section
/-! SUPPORT. What ending descriptors leaves alone: the ring blocks, and the partitions where nothing is counted. -/

namespace Sys2Proof.Machine

/-! ### What a descriptor holds -/

/-- Two states that differ at most in the descriptors in flight and what they hold: slots, units, reservations and draws. Unlike
`WorkOnly` it leaves rings and partitions alone. -/
def HeldOnly (s t : State) : Prop :=
  ∃ a u v c e, t = { s with adm := a, units := u, resv := v, atcResv := c, entropy := e }

theorem HeldOnly.refl (s : State) : HeldOnly s s := ⟨_, _, _, _, _, rfl⟩

theorem HeldOnly.trans {a b c : State} (h : HeldOnly a b) (h' : HeldOnly b c) : HeldOnly a c := by
  obtain ⟨_, _, _, _, _, rfl⟩ := h
  obtain ⟨_, _, _, _, _, rfl⟩ := h'
  exact ⟨_, _, _, _, _, rfl⟩

theorem HeldOnly.fold {α : Type} {g : State → α → State} (hg : ∀ t a, HeldOnly t (g t a)) (l : List α) (s : State) :
    HeldOnly s (l.foldl g s) := foldl_rel HeldOnly.refl (fun _ _ _ => HeldOnly.trans) g hg l s

theorem HeldOnly.rings {s t : State} (h : HeldOnly s t) : t.rings = s.rings := by obtain ⟨_, _, _, _, _, rfl⟩ := h; rfl
theorem HeldOnly.parts {s t : State} (h : HeldOnly s t) : t.parts = s.parts := by obtain ⟨_, _, _, _, _, rfl⟩ := h; rfl

theorem HeldOnly.modSlot (s : State) (n : Nat) (f : Slot → Slot) : HeldOnly s (s.modSlot n f) := by
  unfold State.modSlot; split <;> exact ⟨_, _, _, _, _, rfl⟩
theorem HeldOnly.modLane (s : State) (n : Nat) (f : Lane → Lane) : HeldOnly s (s.modLane n f) := ⟨_, _, _, _, _, rfl⟩
theorem HeldOnly.modHash (s : State) (n : Nat) (f : HashUnit → HashUnit) : HeldOnly s (s.modHash n f) := ⟨_, _, _, _, _, rfl⟩
theorem HeldOnly.modEngine (s : State) (n : Nat) (f : Engine → Engine) : HeldOnly s (s.modEngine n f) := ⟨_, _, _, _, _, rfl⟩
theorem HeldOnly.modPlume (s : State) (n : Nat) (f : Plume → Plume) : HeldOnly s (s.modPlume n f) := ⟨_, _, _, _, _, rfl⟩

theorem HeldOnly.finish (s : State) (n : Nat) (st : Status) (d : Nat) : HeldOnly s (finish s n st d) := HeldOnly.modSlot s n _

theorem HeldOnly.startEngine (s : State) (e : Nat) : HeldOnly s (startEngine s e) := by
  unfold Machine.startEngine
  split
  · exact HeldOnly.refl s
  · split
    · exact HeldOnly.modEngine s _ _
    · split
      · exact HeldOnly.refl s
      · exact HeldOnly.modEngine s _ _

theorem HeldOnly.unqueue (s : State) (n : Nat) (u : UnitClass × Nat) : HeldOnly s (unqueue s n u) := by
  unfold Machine.unqueue
  split
  · exact HeldOnly.modLane s _ _
  · exact (HeldOnly.modHash s _ _).trans (HeldOnly.modHash _ _ _)
  · exact (HeldOnly.modEngine s _ _).trans (HeldOnly.startEngine _ _)
  · exact (HeldOnly.modPlume s _ _).trans (HeldOnly.modPlume _ _ _)

theorem HeldOnly.unusePage (s : State) (u : PageUse) : HeldOnly s (unusePage s u) := by
  unfold Machine.unusePage
  split
  · exact HeldOnly.refl s
  · exact HeldOnly.modLane s _ _

theorem HeldOnly.unreserve (s : State) (n : Nat) : HeldOnly s (unreserve s n) := by
  unfold Machine.unreserve
  split
  · exact HeldOnly.refl s
  · split <;> exact ⟨_, _, _, _, _, rfl⟩

theorem HeldOnly.release (s : State) (n : Nat) : HeldOnly s (release s n) := by
  unfold Machine.release
  split
  · exact HeldOnly.refl s
  · extract_lets s1 s2 s3
    have h1 : HeldOnly s s1 := by
      simp only [s1]
      split
      · exact HeldOnly.refl s
      · exact HeldOnly.unqueue s n _
    have h2 : HeldOnly s s2 := h1.trans (HeldOnly.fold HeldOnly.unusePage _ _)
    have h3 : HeldOnly s s3 := by
      simp only [s3]
      split
      · exact h2
      · exact h2.trans (HeldOnly.unreserve s2 _)
    exact h3.trans ⟨_, _, _, _, _, rfl⟩

theorem HeldOnly.closeEngine (s : State) (e : Nat) : HeldOnly s (closeEngine s e) := HeldOnly.modEngine s _ _

theorem HeldOnly.endEntry (s : State) (n : Nat) (x : Slot) (st : Status) : HeldOnly s (endEntry s n x st) := by
  unfold Machine.endEntry
  split
  · exact HeldOnly.modSlot s _ _
  · exact HeldOnly.finish s _ _ _

theorem HeldOnly.failChain (s : State) (n : Nat) : HeldOnly s (failChain s n) := by
  unfold Machine.failChain
  split
  · exact HeldOnly.refl s
  · split
    · exact HeldOnly.refl s
    · refine HeldOnly.fold (fun t e => ?_) _ _
      extract_lets u
      have hu : HeldOnly t u := by
        simp only [u]
        split
        · exact HeldOnly.closeEngine t _
        · exact HeldOnly.refl t
      split
      · exact hu
      · exact hu.trans (HeldOnly.endEntry _ _ _ _)

theorem HeldOnly.abortRaw (s : State) (n : Nat) : HeldOnly s (abortRaw s n) := by
  unfold Machine.abortRaw
  split
  · exact HeldOnly.refl s
  · split
    · exact HeldOnly.refl s
    · refine HeldOnly.trans ?_ (HeldOnly.modSlot _ _ _)
      split
      · exact HeldOnly.refl s
      · exact HeldOnly.failChain s n

theorem HeldOnly.closeSession (s : State) (e : Nat) : HeldOnly s (closeSession s e) := by
  unfold Machine.closeSession
  refine HeldOnly.trans ?_ (HeldOnly.closeEngine _ _)
  split
  · exact HeldOnly.refl s
  · exact HeldOnly.abortRaw s _

theorem HeldOnly.closeSessions (s : State) (p : Engine → Bool) : HeldOnly s (closeSessions s p) :=
  HeldOnly.fold HeldOnly.closeSession _ _

@[simp] theorem countDisable_rings (s : State) (p : Nat) (f : Disable → Disable) : (countDisable s p f).rings = s.rings := by
  unfold countDisable; split <;> rfl

@[simp] theorem discard_rings (s : State) (n : Nat) : (discard s n).rings = s.rings := by
  unfold discard
  split
  · rfl
  · rw [(HeldOnly.release _ n).rings, countDisable_rings]

/-- An open chain that ends leaves every ring block as it is (R118, R132). -/
@[simp] theorem failOpenChains_rings (s : State) (rid : Nat) : (failOpenChains s rid).rings = s.rings := by
  unfold failOpenChains
  extract_lets l r
  split
  · rfl
  · refine foldl_keep State.rings _ (fun t e => ?_) _ _
    split
    · split
      · exact discard_rings t _
      · exact finish_rings t _ _ _
    · rfl

end Sys2Proof.Machine
end

section
open Sys2Proof.Machine

/-! SUPPORT. What a doorbell does: to its ring, and beside it (R55, R87, R101, R102, R122, R130, R486). -/

namespace Sys2Proof.Machine

/-! ### A ring's reservation and its first error -/

/-- Releasing a chain reservation changes of a ring at most that it waits (R121). -/
theorem freeHold_ring (s : State) (p r : Nat) : ∃ c, (freeHold s p).ring r = { s.ring r with chainWait := c } := by
  simp only [State.ring, freeHold, tgetD, tget_tmap]
  cases tget s.rings r with
  | none => exact ⟨_, rfl⟩
  | some x =>
    simp only [Option.map_some, Option.getD_some]
    split
    · exact ⟨_, rfl⟩
    · exact ⟨x.chainWait, rfl⟩

theorem dropReservation_ring (s : State) (rid r : Nat) : ∃ c, (dropReservation s rid).ring r = { s.ring r with chainWait := c } := by
  unfold dropReservation
  split
  · exact freeHold_ring s _ r
  · split
    · exact ⟨_, rfl⟩
    · split
      · exact freeHold_ring s _ r
      · exact ⟨_, rfl⟩

/-- What the first error of a ring leaves in each ring block, where no entry carries it (R101, R132). -/
theorem ringError_ring (s : State) (rid : Nat) (st : Status) (lo hi r : Nat) (h : (s.ring rid).state = .enabled) :
    (ringError s rid st lo hi none).ring r =
      ((stopRing (dropReservation s rid) rid .error).modRing rid
        (fun x => { x with errCode := st.code, latchLo := lo, latchHi := hi })).ring r := by
  unfold ringError
  extract_lets r0 s1 s2 s3
  rw [if_pos h]
  simp only [State.ring, logMain_rings, s3, failOpenChains_rings]
  rfl

/-- The ring of a first error stops toward ERROR, its cause and both values latched (R101, R132). -/
theorem ringError_ring_self (s : State) (rid : Nat) (st : Status) (lo hi : Nat) (h : (s.ring rid).state = .enabled) :
    (ringError s rid st lo hi none).ring rid =
      { s.ring rid with
        state := .stopping, settle := .error, errCode := st.code, latchLo := lo, latchHi := hi, chainWait := false } := by
  obtain ⟨c, hc⟩ := dropReservation_ring s rid rid
  simp [ringError_ring s rid st lo hi rid h, stopRing, hc, h]

/-- Another ring keeps all but its wait for the reservation that the error released (R121). -/
theorem ringError_ring_ne (s : State) (rid : Nat) (st : Status) (lo hi r : Nat) (h : (s.ring rid).state = .enabled) (hr : r ≠ rid) :
    ∃ c, (ringError s rid st lo hi none).ring r = { s.ring r with chainWait := c } := by
  simpa [ringError_ring s rid st lo hi r h, stopRing, State.modRing_ring, hr] using dropReservation_ring s rid r

/-! ### What a doorbell does beside its ring -/

/-- Two states that differ at most in the watchdog count of function `fn`, in the deficits of partitions and in the power state. -/
structure BesideRings (fn : Nat) (s t : State) : Prop where
  rings : t.rings = s.rings
  parts : t.parts = s.parts
  slots : t.adm.slots = s.adm.slots
  keys : t.keys = s.keys
  commit : t.commit = s.commit
  bus : t.bus = s.bus
  own : ∃ c, t.fn fn = { s.fn fn with stallUs := c }
  others : ∀ n, n ≠ fn → t.fn n = s.fn n

namespace BesideRings

variable {fn : Nat}

theorem trans {a b c : State} (h : BesideRings fn a b) (h' : BesideRings fn b c) : BesideRings fn a c where
  rings := h'.rings.trans h.rings
  parts := h'.parts.trans h.parts
  slots := h'.slots.trans h.slots
  keys := h'.keys.trans h.keys
  commit := h'.commit.trans h.commit
  bus := h'.bus.trans h.bus
  own := by
    obtain ⟨c, hc⟩ := h.own
    obtain ⟨d, hd⟩ := h'.own
    exact ⟨d, by rw [hd, hc]⟩
  others n hn := (h'.others n hn).trans (h.others n hn)

theorem setPower (s : State) (p : PowerState) : BesideRings fn s { s with power := p } :=
  ⟨rfl, rfl, rfl, rfl, rfl, rfl, ⟨_, rfl⟩, fun _ _ => rfl⟩

theorem dropDeficit (s : State) : BesideRings fn s (dropDeficit s) :=
  ⟨rfl, rfl, rfl, rfl, rfl, rfl, ⟨_, rfl⟩, fun _ _ => rfl⟩

theorem restWatch (s : State) : BesideRings fn s (restWatch s fn) := by
  unfold Machine.restWatch
  split
  · exact ⟨rfl, rfl, rfl, rfl, rfl, rfl, ⟨_, rfl⟩, fun _ _ => rfl⟩
  · exact ⟨rfl, rfl, rfl, rfl, rfl, rfl, ⟨0, s.modFn_fn_self fn _⟩, fun n hn => by rw [State.modFn_fn, if_neg hn]⟩

variable {s t : State} (h : BesideRings fn s t)
include h

theorem ring (r : Nat) : t.ring r = s.ring r := by simp [State.ring, h.rings]
theorem part (p : Nat) : t.part p = s.part p := by simp [State.part, h.parts]
theorem vfRingOf (k : Nat) : t.vfRingOf k = s.vfRingOf k := by simp [State.vfRingOf, h.rings]
theorem ringPart (r : Nat) : t.ringPart r = s.ringPart r := by simp [State.ringPart, State.mainPart, h.ring, h.part]

end BesideRings

/-- The module as a doorbell finds it: IDLE is left and its time starts again (R486). -/
def State.active (s : State) : State :=
  { s with power := { s.power with idleUs := 0, power := if s.power.power = .idle then .run else s.power.power } }

/-- Watchdogs and deficits as a doorbell brings them up to date before and after its effect (R87, R122). -/
def settleWatch (s : State) (fn : Nat) : State := dropDeficit (restWatch s fn)

theorem BesideRings.settleWatch (s : State) (fn : Nat) : BesideRings fn s (settleWatch s fn) :=
  (BesideRings.restWatch s).trans (.dropDeficit _)

/-- The state in which a doorbell to an open page reaches its ring. -/
def State.rung (s : State) (fn : Nat) : State := settleWatch s.active fn

theorem State.besideRings_rung (s : State) (fn : Nat) : BesideRings fn s (s.rung fn) :=
  (BesideRings.setPower s _).trans (.settleWatch _ fn)

@[simp] theorem settleWatch_power (s : State) (fn : Nat) : (settleWatch s fn).power = s.power := by
  simp only [settleWatch, dropDeficit, restWatch]
  split <;> rfl

theorem State.rung_power {s : State} (fn : Nat) (h : s.power.power = .idle) : (s.rung fn).power.power = .run := by
  simp [State.rung, State.active, h]

/-- A doorbell to an open page does what the page does, and around it brings watchdogs and deficits up to date. -/
theorem exec_doorbell_open {s : State} {fn page : Nat} (p t : Nat) (hb : s.barOpen fn = true) (hp : page < doorbellPages fn) :
    exec (.doorbell fn page p t) s = .next (settleWatch (pageDoorbell (s.rung fn) fn page p t) fn) := by
  change execDoorbell fn page p t s = _
  rw [execDoorbell, if_neg (Nat.not_le.2 hp), barAccess, if_pos hb]
  rfl

/-! ### What a page does -/

theorem pageDoorbell_hosted {s : State} {fn page q : Nat} (p t : Nat) (hq : s.ringPart (fn * 4096 + page) = some q)
    (hf : (s.part q).fn = fn) (hv : fn = 0 → s.vfRingOf page = none) :
    pageDoorbell s fn page p t = ringDoorbell s (fn * 4096 + page) (p % 2 ^ 32) (t % 2 ^ 32) := by
  have hfree : ¬ ((s.part q).fn ≠ fn ∨ (fn = 0 ∧ (s.vfRingOf page).isSome = true)) := by
    rintro (h | ⟨h0, h⟩)
    · exact h hf
    · simp [hv h0] at h
  simp only [pageDoorbell, hq, if_neg hfree]

theorem pageDoorbell_stray {s : State} {fn page : Nat} (p t : Nat)
    (h : ∀ q, s.ringPart (fn * 4096 + page) = some q → (s.part q).fn ≠ fn) :
    pageDoorbell s fn page p t = strayDoorbell s fn := by
  cases hq : s.ringPart (fn * 4096 + page) with
  | none => simp only [pageDoorbell, hq]
  | some q => simp only [pageDoorbell, hq, if_pos (Or.inl (h q hq))]

theorem ringDoorbell_disabled {s : State} {rid : Nat} (p t : Nat) (h : (s.ring rid).state = .disabled) : ringDoorbell s rid p t = s := by
  simp only [ringDoorbell, h]

theorem ringDoorbell_takes {s : State} {rid p t : Nat} (h : (s.ring rid).state ≠ .disabled)
    (hok : (s.ring rid).state = .enabled → doorbellOk (s.ring rid) p t = true) :
    ringDoorbell s rid p t = s.modRing rid (fun r => { r with prod := p, retire := t }) := by
  unfold ringDoorbell
  extract_lets r
  split
  · exact absurd ‹_› h
  · exact if_pos (hok ‹_›)
  · rfl

theorem ringDoorbell_overrun {s : State} {rid : Nat} {p t : Nat} (h : (s.ring rid).state = .enabled)
    (hbad : doorbellOk (s.ring rid) p t = false) : ringDoorbell s rid p t = ringError s rid .ringOverrun p t none := by
  simp [ringDoorbell, h, hbad]

section
variable {s : State} {fn page : Nat} (p t : Nat) (hb : s.barOpen fn = true) (hp : page < doorbellPages fn)
include hb hp

/-- A doorbell to a page of no hosted ring counts one stray doorbell of its function (R55). -/
theorem exec_doorbell_stray (h : ∀ q, s.ringPart (fn * 4096 + page) = some q → (s.part q).fn ≠ fn) :
    ∃ u, exec (.doorbell fn page p t) s = .next u ∧ (u.fn fn).stray = min 0xFFFF ((s.fn fn).stray + 1) ∧
      (∀ n, n ≠ fn → u.fn n = s.fn n) ∧ u.rings = s.rings ∧ u.keys = s.keys ∧ u.commit = s.commit ∧ u.bus = s.bus := by
  have hs := s.besideRings_rung fn
  rw [exec_doorbell_open p t hb hp, pageDoorbell_stray p t (by simpa only [hs.ringPart, hs.part] using h)]
  have hu := BesideRings.settleWatch (strayDoorbell (s.rung fn) fn) fn
  refine ⟨_, rfl, ?_, fun n hn => ?_, hu.rings.trans hs.rings, hu.keys.trans hs.keys, hu.commit.trans hs.commit,
    hu.bus.trans hs.bus⟩
  · obtain ⟨c, hc⟩ := hu.own
    obtain ⟨d, hd⟩ := hs.own
    rw [hc, strayDoorbell, State.modFn_fn_self, hd]
  · rw [hu.others n hn, strayDoorbell, State.modFn_fn, if_neg hn, hs.others n hn]

variable {q : Nat} (hq : s.ringPart (fn * 4096 + page) = some q) (hf : (s.part q).fn = fn) (hv : fn = 0 → s.vfRingOf page = none)
include hq hf hv

/-- A doorbell to the page of a partition the function hosts reaches its ring (R55, R101). -/
theorem exec_doorbell_hosted :
    exec (.doorbell fn page p t) s =
      .next (settleWatch (ringDoorbell (s.rung fn) (fn * 4096 + page) (p % 2 ^ 32) (t % 2 ^ 32)) fn) := by
  have hs := s.besideRings_rung fn
  rw [exec_doorbell_open p t hb hp,
    pageDoorbell_hosted p t (by rwa [hs.ringPart]) (by rwa [hs.part]) (by rwa [hs.vfRingOf])]

/-- A DISABLED ring keeps its indices (R130). -/
theorem exec_doorbell_disabled (hd : (s.ring (fn * 4096 + page)).state = .disabled) :
    ∃ u, exec (.doorbell fn page p t) s = .next u ∧ u.rings = s.rings ∧ u.keys = s.keys ∧ u.commit = s.commit ∧ u.bus = s.bus := by
  have hs := s.besideRings_rung fn
  have hu := hs.trans (.settleWatch _ fn)
  rw [exec_doorbell_hosted p t hb hp hq hf hv, ringDoorbell_disabled _ _ (by rwa [hs.ring])]
  exact ⟨_, rfl, hu.rings, hu.keys, hu.commit, hu.bus⟩

/-- A ring that takes the doorbell has its indices, and nothing else of it changes (R101, R102, R130). -/
theorem exec_doorbell_takes (hd : (s.ring (fn * 4096 + page)).state ≠ .disabled)
    (hok : (s.ring (fn * 4096 + page)).state = .enabled →
      doorbellOk (s.ring (fn * 4096 + page)) (p % 2 ^ 32) (t % 2 ^ 32) = true) :
    ∃ u, exec (.doorbell fn page p t) s = .next u ∧
      u.ring (fn * 4096 + page) = { s.ring (fn * 4096 + page) with prod := p % 2 ^ 32, retire := t % 2 ^ 32 } ∧
      (∀ r, r ≠ fn * 4096 + page → u.ring r = s.ring r) ∧ (s.power.power = .idle → u.power.power = .run) ∧
      u.adm.slots = s.adm.slots ∧ u.keys = s.keys ∧ u.parts = s.parts ∧ u.commit = s.commit ∧ u.bus = s.bus := by
  have hs := s.besideRings_rung fn
  rw [exec_doorbell_hosted p t hb hp hq hf hv, ringDoorbell_takes (by rwa [hs.ring]) (by rwa [hs.ring])]
  have hu := BesideRings.settleWatch ((s.rung fn).modRing (fn * 4096 + page)
    (fun r => { r with prod := p % 2 ^ 32, retire := t % 2 ^ 32 })) fn
  refine ⟨_, rfl, ?_, fun r hr => ?_, fun hi => ?_, hu.slots.trans hs.slots, hu.keys.trans hs.keys, hu.parts.trans hs.parts,
    hu.commit.trans hs.commit, hu.bus.trans hs.bus⟩
  · rw [hu.ring, State.modRing_ring_self, hs.ring]
  · rw [hu.ring, State.modRing_ring, if_neg hr, hs.ring]
  · rw [settleWatch_power, State.modRing_power, s.rung_power fn hi]

/-- A difference that does not fit stops the ring toward ERROR with both values latched (R101, R132). -/
theorem exec_doorbell_overrun (he : (s.ring (fn * 4096 + page)).state = .enabled)
    (hbad : doorbellOk (s.ring (fn * 4096 + page)) (p % 2 ^ 32) (t % 2 ^ 32) = false) :
    ∃ u, exec (.doorbell fn page p t) s = .next u ∧
      u.ring (fn * 4096 + page) =
        { s.ring (fn * 4096 + page) with
          state := .stopping, settle := .error, errCode := Status.ringOverrun.code,
          latchLo := p % 2 ^ 32, latchHi := t % 2 ^ 32, chainWait := false } ∧
      (∀ r, r ≠ fn * 4096 + page → (u.ring r).prod = (s.ring r).prod ∧ (u.ring r).state = (s.ring r).state) ∧
      u.keys = s.keys ∧ u.commit = s.commit ∧ u.bus = s.bus := by
  have hs := s.besideRings_rung fn
  have he' : ((s.rung fn).ring (fn * 4096 + page)).state = .enabled := by rwa [hs.ring]
  rw [exec_doorbell_hosted p t hb hp hq hf hv, ringDoorbell_overrun he' (by rwa [hs.ring])]
  have hw := WorkOnly.ringError (s.rung fn) (fn * 4096 + page) .ringOverrun (p % 2 ^ 32) (t % 2 ^ 32) none
  have hu := BesideRings.settleWatch (ringError (s.rung fn) (fn * 4096 + page) .ringOverrun (p % 2 ^ 32) (t % 2 ^ 32) none) fn
  refine ⟨_, rfl, ?_, fun r hr => ?_, hu.keys.trans (hw.keys.trans hs.keys), hu.commit.trans (hw.commit.trans hs.commit),
    hu.bus.trans (hw.bus.trans hs.bus)⟩
  · rw [hu.ring, ringError_ring_self _ _ _ _ _ he', hs.ring]
  · obtain ⟨c, hc⟩ := ringError_ring_ne (s.rung fn) _ .ringOverrun (p % 2 ^ 32) (t % 2 ^ 32) r he' hr
    rw [hu.ring, hc, hs.ring]
    exact ⟨rfl, rfl⟩

end

end Sys2Proof.Machine

/-- Settles O1: a doorbell to an open page is its ring's or its function's, and each answer of the ring has its lemma. -/
theorem doorbellTakesIndices : Obligations.DoorbellTakesIndices := by
  unfold Obligations.DoorbellTakesIndices
  intro fn page p t s hb hp
  exact ⟨fun q hq hf hv => ⟨exec_doorbell_disabled p t hb hp hq hf hv, exec_doorbell_takes p t hb hp hq hf hv,
    exec_doorbell_overrun p t hb hp hq hf hv⟩, exec_doorbell_stray p t hb hp⟩
end

section
/-! SUPPORT. What the disable procedure of a partition, of a function and of several functions does and leaves (R60, R81, R83, R91). -/

namespace Sys2Proof.Machine

/-- What some step of a fold brings about and every step keeps holds after it; `I` is what that step relies on. -/
theorem foldl_reaches {α : Type} {I Q : State → Prop} {g : State → α → State} (hI : ∀ t a, I t → I (g t a))
    (hQ : ∀ t a, Q t → Q (g t a)) {a : α} {l : List α} (ha : a ∈ l) (hit : ∀ t, I t → Q (g t a)) {s : State} (hs : I s) :
    Q (l.foldl g s) := by
  induction l generalizing s with
  | nil => cases ha
  | cons b l ih =>
    rcases List.mem_cons.1 ha with rfl | ha
    · exact foldl_rel (P := fun a b => Q a → Q b) (fun _ => id) (fun _ _ _ h h' => h' ∘ h) g hQ l _ (hit s hs)
    · exact ih ha (hI s b hs)

/-! ### A ring's DISABLE -/

/-- What ending work leaves: beside `WorkOnly`, of every partition all but the counts of its disable procedure (R85). -/
structure EndsWork (s t : State) : Prop where
  work : WorkOnly s t
  part : ∀ p, ∃ d, t.part p = { s.part p with disable := d }

namespace EndsWork

theorem of_parts {s t : State} (h : WorkOnly s t) (hp : t.parts = s.parts) : EndsWork s t :=
  ⟨h, fun p => ⟨(s.part p).disable, by simp only [State.part, hp]⟩⟩

theorem refl (s : State) : EndsWork s s := of_parts (.refl s) rfl

theorem trans {a b c : State} (h : EndsWork a b) (h' : EndsWork b c) : EndsWork a c := by
  refine ⟨h.work.trans h'.work, fun p => ?_⟩
  obtain ⟨d, hd⟩ := h.part p
  obtain ⟨e, he⟩ := h'.part p
  exact ⟨e, by rw [he, hd]⟩

theorem fold {α : Type} {g : State → α → State} (hg : ∀ t a, EndsWork t (g t a)) (l : List α) (s : State) :
    EndsWork s (l.foldl g s) := foldl_rel refl (fun _ _ _ => trans) g hg l s

theorem modSlot (s : State) (n : Nat) (f : Slot → Slot) : EndsWork s (s.modSlot n f) :=
  of_parts (.modSlot s n f) (HeldOnly.modSlot s n f).parts

theorem modRing (s : State) (n : Nat) (f : Ring → Ring) : EndsWork s (s.modRing n f) := of_parts (.modRing s n f) rfl

theorem finish (s : State) (n : Nat) (st : Status) (d : Nat) : EndsWork s (finish s n st d) := modSlot s n _

theorem unqueue (s : State) (n : Nat) (u : UnitClass × Nat) : EndsWork s (unqueue s n u) :=
  of_parts (.unqueue s n u) (HeldOnly.unqueue s n u).parts

theorem release (s : State) (n : Nat) : EndsWork s (release s n) := of_parts (.release s n) (HeldOnly.release s n).parts

theorem closeSessions (s : State) (p : Engine → Bool) : EndsWork s (closeSessions s p) :=
  of_parts (.closeSessions s p) (HeldOnly.closeSessions s p).parts

theorem dropReservation (s : State) (rid : Nat) : EndsWork s (dropReservation s rid) := by
  refine of_parts (.dropReservation s rid) ?_
  unfold Machine.dropReservation
  split
  · rfl
  · split
    · rfl
    · split <;> rfl

theorem countDisable (s : State) (p : Nat) (f : Disable → Disable) : EndsWork s (countDisable s p f) := by
  refine ⟨.countDisable s p f, fun q => ?_⟩
  unfold Machine.countDisable
  split
  · exact ⟨_, rfl⟩
  · rw [State.modPart_part]
    split
    · subst q; exact ⟨_, rfl⟩
    · exact ⟨_, rfl⟩

theorem discard (s : State) (n : Nat) : EndsWork s (discard s n) := by
  unfold Machine.discard
  split
  · exact refl s
  · exact (countDisable s _ _).trans (release _ n)

theorem discardRunning (s : State) (n : Nat) : EndsWork s (discardRunning s n) := by
  unfold Machine.discardRunning
  split
  · exact refl s
  · exact (countDisable s _ _).trans (release _ n)

/-- A disable cuts a descriptor outside an uncommitted chain: discarded, left to end, or aborted on its unit (R81, R134). -/
theorem cutOne_disable (s : State) (n : Nat) (x : Slot) : EndsWork s (cutOne s .disable n x) := by
  unfold cutOne
  split
  · exact refl s
  · exact refl s
  · exact refl s
  · exact discard s n
  · split
    · split
      · exact refl s
      · split
        · exact refl s
        · split
          · exact modSlot s n _
          · exact (unqueue s n _).trans (finish _ n _ _)
    · exact discard s n

/-- A disable discards an uncommitted chain whole (R133). -/
theorem cutChained_disable (s : State) (n : Nat) (x : Slot) (first : Nat) : EndsWork s (cutChained s .disable n x first) := by
  unfold cutChained
  dsimp only
  split
  · exact discard s n
  · split
    · exact modSlot s n _
    · exact discardRunning s n

theorem cutRing_disable (s : State) (rid : Nat) : EndsWork s (cutRing s .disable rid) := by
  refine fold (fun t e => ?_) _ s
  unfold cutSlot
  split
  · exact refl t
  · split
    · exact cutOne_disable t _ _
    · split
      · exact cutChained_disable t _ _ _
      · exact cutOne_disable t _ _

/-- A ring's DISABLE ends work and touches no partition's function or STATE (R131). -/
theorem disableRing (s : State) (rid : Nat) : EndsWork s (disableRing s rid) := by
  unfold Machine.disableRing
  exact (((dropReservation s rid).trans (cutRing_disable _ rid)).trans (closeSessions _ _)).trans (modRing _ rid _)

theorem closeWindows (s : State) (p : Nat) : EndsWork s (closeWindows s p) := by
  refine fold (fun t g => ?_) _ s
  unfold closeWindow
  split
  · exact of_parts ⟨_, _, _, _, _, _, _, _, _, rfl⟩ rfl
  · exact refl t

end EndsWork

/-! ### A partition's disable procedure -/

/-- The disable procedure leaves its partition DISABLING, whether it starts or goes on, and beside that ends work (R81, R83). -/
theorem disablePart_ends (s : State) (p : Nat) (t : Trigger) (r : Option Nat) :
    ∃ d, EndsWork (s.modPart p (fun y => { y with dis := .disabling, disable := d })) (disablePart s p t r) := by
  unfold disablePart
  extract_lets x s1 s2
  split
  · rename_i d hdis _
    refine ⟨some { d with remap := r.or d.remap }, ?_⟩
    have heq : s.modPart p (fun y => { y with disable := some { d with remap := r.or d.remap } }) =
        s.modPart p (fun y => { y with dis := .disabling, disable := some { d with remap := r.or d.remap } }) := by
      simp only [State.modPart, ← hdis, x]
    rw [heq]
    exact .refl _
  · exact ⟨some ⟨(s.part p).fn, t, 0, 0, 0, 0, 0, 0, r, none⟩,
      ((EndsWork.fold EndsWork.disableRing _ s1).trans (.closeSessions s2 _)).trans (.closeWindows _ p)⟩

theorem disablePart_workOnly (s : State) (p : Nat) (t : Trigger) (r : Option Nat) : WorkOnly s (disablePart s p t r) := by
  obtain ⟨d, h⟩ := disablePart_ends s p t r
  exact (WorkOnly.modPart s p _).trans h.work

@[simp] theorem disablePart_part_fn (s : State) (p q : Nat) (t : Trigger) (r : Option Nat) :
    ((disablePart s p t r).part q).fn = (s.part q).fn := by
  obtain ⟨d, h⟩ := disablePart_ends s p t r
  obtain ⟨e, he⟩ := h.part q
  rw [he, State.modPart_part]
  split
  · subst q; rfl
  · rfl

theorem disablePart_part_dis (s : State) (p q : Nat) (t : Trigger) (r : Option Nat) :
    ((disablePart s p t r).part q).dis = if q = p then .disabling else (s.part q).dis := by
  obtain ⟨d, h⟩ := disablePart_ends s p t r
  obtain ⟨e, he⟩ := h.part q
  rw [he, State.modPart_part]
  split <;> rfl

/-! ### A function's reset and return to service -/

/-- Two states that differ at most in functions, their rings and groups, partitions and the event controller. -/
def FnsOnly (s t : State) : Prop := ∃ f r g p e, t = { s with fns := f, rings := r, groups := g, parts := p, eic := e }

theorem FnsOnly.refl (s : State) : FnsOnly s s := ⟨_, _, _, _, _, rfl⟩

theorem FnsOnly.trans {a b c : State} (h : FnsOnly a b) (h' : FnsOnly b c) : FnsOnly a c := by
  obtain ⟨_, _, _, _, _, rfl⟩ := h
  obtain ⟨_, _, _, _, _, rfl⟩ := h'
  exact ⟨_, _, _, _, _, rfl⟩

theorem FnsOnly.fold {α : Type} {g : State → α → State} (hg : ∀ t a, FnsOnly t (g t a)) (l : List α) (s : State) :
    FnsOnly s (l.foldl g s) := foldl_rel FnsOnly.refl (fun _ _ _ => FnsOnly.trans) g hg l s

theorem FnsOnly.enableParts (s : State) (n : Nat) : FnsOnly s (enableParts s n) := by
  unfold Machine.enableParts
  split
  · exact .refl s
  · refine .fold (fun t p => ?_) _ s
    split
    · exact ⟨_, _, _, _, _, rfl⟩
    · exact .refl t

/-- A VF's reset touches neither the link nor the mailbox, which the PF holds (R91, R582). -/
theorem FnsOnly.resetFunction (s : State) {n : Nat} (hn : n ≠ 0) : FnsOnly s (resetFunction s n) := by
  unfold Machine.resetFunction
  extract_lets s1 s2
  rw [if_neg hn]
  exact ⟨_, _, _, _, _, rfl⟩

theorem FnsOnly.functionSettled (s : State) {n : Nat} (hn : n ≠ 0) : FnsOnly s (functionSettled s n) := by
  unfold Machine.functionSettled
  split
  · exact .refl s
  · extract_lets s1
    have h1 : FnsOnly s s1 := by
      simp only [s1]
      split <;> exact ⟨_, _, _, _, _, rfl⟩
    split
    · exact (h1.trans (.resetFunction s1 hn)).trans (.enableParts _ n)
    · exact h1

/-! ### Disable procedures as a whole -/

/-- What disable procedures, and the function resets that follow them, do to the rest of the module: keys, durable state, host memory
and power stand, VF Enable is not set, and no partition changes its function or leaves DISABLING (R60, R81, R83, R91). -/
structure StopsService (s t : State) : Prop where
  keys : t.keys = s.keys
  commit : t.commit = s.commit
  bus : t.bus = s.bus
  power : t.power = s.power
  vfOff : s.link.vfEnable = false → t.link.vfEnable = false
  owner : ∀ p, (t.part p).fn = (s.part p).fn
  running : ∀ p, (s.part p).dis = .disabling → (t.part p).dis = .disabling

namespace StopsService

theorem refl (s : State) : StopsService s s := ⟨rfl, rfl, rfl, rfl, id, fun _ => rfl, fun _ => id⟩

theorem trans {a b c : State} (h : StopsService a b) (h' : StopsService b c) : StopsService a c where
  keys := h'.keys.trans h.keys
  commit := h'.commit.trans h.commit
  bus := h'.bus.trans h.bus
  power := h'.power.trans h.power
  vfOff := h'.vfOff ∘ h.vfOff
  owner p := (h'.owner p).trans (h.owner p)
  running p := h'.running p ∘ h.running p

theorem fold {α : Type} {g : State → α → State} (hg : ∀ t a, StopsService t (g t a)) (l : List α) (s : State) :
    StopsService s (l.foldl g s) := foldl_rel refl (fun _ _ _ => trans) g hg l s

theorem modFn (s : State) (n : Nat) (f : Fn → Fn) : StopsService s (s.modFn n f) :=
  ⟨rfl, rfl, rfl, rfl, id, fun _ => rfl, fun _ => id⟩

theorem setLink (s : State) {l : Link} (h : s.link.vfEnable = false → l.vfEnable = false) : StopsService s { s with link := l } :=
  ⟨rfl, rfl, rfl, rfl, h, fun _ => rfl, fun _ => id⟩

theorem noteFunctions (b s : State) : StopsService s (noteFunctions b s) := by
  obtain ⟨e, he⟩ := noteFunctions_only b s
  rw [he]
  exact ⟨rfl, rfl, rfl, rfl, id, fun _ => rfl, fun _ => id⟩

theorem disablePart (s : State) (p : Nat) (t : Trigger) (r : Option Nat) : StopsService s (disablePart s p t r) where
  keys := (disablePart_workOnly s p t r).keys
  commit := (disablePart_workOnly s p t r).commit
  bus := (disablePart_workOnly s p t r).bus
  power := (disablePart_workOnly s p t r).power
  vfOff h := by rw [(disablePart_workOnly s p t r).link, h]
  owner q := disablePart_part_fn s p q t r
  running q h := by
    rw [disablePart_part_dis, h]
    exact ite_self _

theorem resetFunction (s : State) (n : Nat) : StopsService s (resetFunction s n) := by
  unfold Machine.resetFunction
  extract_lets s1 s2
  split <;> exact ⟨rfl, rfl, rfl, rfl, id, fun _ => rfl, fun _ => id⟩

/-- Only a DISABLED partition returns to service (R74). -/
theorem enableParts (s : State) (n : Nat) : StopsService s (enableParts s n) := by
  unfold Machine.enableParts
  split
  · exact refl s
  · refine fold (fun t p => ?_) _ s
    split
    · rename_i hd
      refine ⟨rfl, rfl, rfl, rfl, id, fun q => ?_, fun q hq => ?_⟩ <;> rw [State.modPart_part]
      · split
        · subst q; rfl
        · rfl
      · split
        · subst q; rw [hd.1] at hq; cases hq
        · exact hq
    · exact refl t

theorem functionSettled (s : State) (n : Nat) : StopsService s (functionSettled s n) := by
  unfold Machine.functionSettled
  split
  · exact refl s
  · extract_lets s1
    have h1 : StopsService s s1 := by
      simp only [s1]
      split
      · exact modFn s n _
      · exact refl s
    split
    · exact (h1.trans (resetFunction s1 n)).trans (enableParts _ n)
    · exact h1

theorem disableFn (s : State) (n : Nat) (t : Trigger) : StopsService s (disableFn s n t) :=
  ((modFn s n _).trans (fold (fun u p => disablePart u p t none) _ _)).trans (functionSettled _ n)

end StopsService

theorem State.mem_hosted {s : State} {n p : Nat} : p ∈ s.hosted n ↔ p < 256 ∧ (s.part p).fn = n := by
  simp [State.hosted]

/-- Every partition that a disabled function hosts is DISABLING (R81). -/
theorem disableFn_disabling {s : State} {n p : Nat} (t : Trigger) (hp : p ∈ s.hosted n) :
    ((disableFn s n t).part p).dis = .disabling := by
  refine (StopsService.functionSettled _ n).running p ?_
  refine foldl_reaches (I := fun _ => True) (Q := fun u => (u.part p).dis = .disabling) (fun _ _ _ => trivial)
    (fun u q => (StopsService.disablePart u q t none).running p) hp (fun u _ => ?_) trivial
  rw [disablePart_part_dis, if_pos rfl]

theorem disableFn_od (s : State) {n : Nat} (t : Trigger) (hn : n ≠ 0) : (disableFn s n t).od = s.od := by
  unfold disableFn
  extract_lets s1
  obtain ⟨_, _, _, _, _, h⟩ := FnsOnly.functionSettled ((s.hosted n).foldl (fun u p => disablePart u p t none) s1) hn
  rw [h]
  exact (WorkOnly.fold (fun u p => disablePart_workOnly u p t none) (s.hosted n) s1).od

/-- Where one step of a fold of disable procedures leaves a partition DISABLING, the fold does. -/
theorem foldl_disabling {α : Type} {g : State → α → State} {s : State} {l : List α} {a : α} {n p : Nat}
    (hg : ∀ t a, StopsService t (g t a)) (hit : ∀ t, p ∈ t.hosted n → ((g t a).part p).dis = .disabling)
    (ha : a ∈ l) (hp : p ∈ s.hosted n) : ((l.foldl g s).part p).dis = .disabling := by
  refine foldl_reaches (I := fun t => p ∈ t.hosted n) (Q := fun t => (t.part p).dis = .disabling) (fun t b h => ?_)
    (fun t b => (hg t b).running p) ha hit hp
  rw [State.mem_hosted] at h ⊢
  rwa [(hg t b).owner]

/-- A Function Level Reset is the disable procedure of its function, on the PF with VF Enable cleared before (R60, R91). -/
theorem functionLevelReset_disables (s : State) (n : Nat) (t : Trigger) :
    ∃ u, StopsService s u ∧ (n = 0 → u.link.vfEnable = false) ∧ functionLevelReset s n t = disableFn u n t := by
  unfold functionLevelReset
  extract_lets vfs l s1
  refine ⟨_, StopsService.trans (b := s1) ?_ (.modFn s1 n _), ?_, rfl⟩
  · simp only [s1]
    split
    · exact (StopsService.setLink s (fun _ => rfl)).trans (.fold (fun u k => .disableFn u k .vfEnable) _ _)
    · split
      · exact .setLink s id
      · exact .refl s
  · rintro rfl
    simp only [s1, State.modFn_link, true_and, if_true]
    split
    · exact (StopsService.fold (fun u k => .disableFn u k .vfEnable) _ _).vfOff rfl
    · rename_i hv
      simpa using hv

theorem StopsService.functionLevelReset (s : State) (n : Nat) (t : Trigger) : StopsService s (functionLevelReset s n t) := by
  obtain ⟨u, hu, -, h⟩ := functionLevelReset_disables s n t
  rw [h]
  exact hu.trans (.disableFn u n t)

theorem functionLevelReset_disabling {s : State} {n p : Nat} (t : Trigger) (hp : p ∈ s.hosted n) :
    ((functionLevelReset s n t).part p).dis = .disabling := by
  obtain ⟨u, hu, -, h⟩ := functionLevelReset_disables s n t
  rw [h]
  refine disableFn_disabling t ?_
  rw [State.mem_hosted] at hp ⊢
  rwa [hu.owner]

/-- The PF's Function Level Reset clears VF Enable (R60). -/
theorem functionLevelReset_vfEnable (s : State) (t : Trigger) : (functionLevelReset s 0 t).link.vfEnable = false := by
  obtain ⟨u, -, hv, h⟩ := functionLevelReset_disables s 0 t
  rw [h]
  exact (StopsService.disableFn u 0 t).vfOff (hv rfl)

end Sys2Proof.Machine
end

section
/-! SUPPORT. What the host link and VF Enable do: PERST#, training, Hot Reset and a long link-down, and the setting and clearing of
VF Enable (R45 to R50, R57 to R60, R93, R485, R489). -/

open Sys2Proof.Machine

namespace Sys2Proof.Machine

/-! ### PERST# and training -/

/-- A reset asked for after stop point 1, with none waiting and no power failure, waits (R490). -/
theorem askReset_waits {s : State} (p : PendingReset) (hf : s.power.pfail = false) (hs : s.power.stopPoint ≠ 0)
    (hw : s.power.waiting = none) : askReset s p = { s with power := { s.power with waiting := some p } } := by
  simp [askReset, hf, hs, hw]

/-- PERST# holds the interface in reset (R485). -/
theorem exec_perstAssert_holds {s : State} (h : (s.power.mainOk && s.link.perstSeenHigh && !s.link.perst) = false) :
    exec .perstAssert s = .next { s with link := { s.link with perst := true, up := false } } := by
  change execPerstAssert s = _
  rw [execPerstAssert, if_neg (by rw [h]; decide)]
  rfl

/-- Asserted after it has been high, PERST# also asks for the reset its entry names (R49, R485). -/
theorem exec_perstAssert_resets {s : State} (h : (s.power.mainOk && s.link.perstSeenHigh && !s.link.perst) = true) :
    exec .perstAssert s = .next (askReset { s with link := { s.link with perst := true, up := false } }
      ⟨if s.link.coldOnPerst then 1 else 2, 0x02, false, 0⟩) := by
  change execPerstAssert s = _
  rw [execPerstAssert, if_pos h]
  rfl

theorem exec_perstDeassert {s : State} (h : s.link.perst = false ∨ s.power.power ≠ .standby) :
    exec .perstDeassert s = .next { s with link := { s.link with perst := false, perstSeenHigh := true } } := by
  change execPerstDeassert s = _
  rw [execPerstDeassert, if_neg (fun ⟨hp, hs⟩ => h.elim (by simp [hp]) (· hs))]
  rfl

theorem mem_sins_self (k : Nat) (l : List Nat) : k ∈ sins k l := by
  induction l with
  | nil => exact List.mem_singleton.2 rfl
  | cons a r ih =>
    simp only [sins]
    split
    · exact List.mem_cons_self
    · split
      · subst a; exact List.mem_cons_self
      · exact List.mem_cons_of_mem _ ih

/-- A listed source that wakes is latched while the main die is off (R413, R414). -/
theorem latchWake_latches {s : State} {n : Nat} (ha : s.asleep = true) (hc : wakeCapable n = true) (hl : s.wakeAt n ≠ []) :
    n ∈ (latchWake s n).eic.latches := by
  rw [latchWake, if_pos ⟨ha, hc, hl⟩]
  exact mem_sins_self n _

theorem roused_only (s : State) : ∃ p e, s.roused = { s with power := p, eic := e } := by
  unfold State.roused
  split
  · exact ⟨_, _, rfl⟩
  · split <;> exact ⟨_, _, rfl⟩

/-- In STANDBY a latch starts the exit, by a warm reset with the wake's source (R414, R489). -/
theorem roused_standby {s : State} (hp : s.power.power = .standby) (hl : s.eic.latches ≠ []) :
    s.roused = { s with power := { s.power with waiting := some ⟨2, 0x0B, false, 0⟩ } } := by
  rw [State.roused, if_pos ⟨hp, hl⟩]

/-- PERST# deasserted in STANDBY raises HOST_WAKE: where WAKE_LIST names it, it is latched and the exit asked for (R489). -/
theorem exec_perstDeassert_standby {s : State} (hperst : s.link.perst = true) (hp : s.power.power = .standby) :
    ∃ t, exec .perstDeassert s = .next t ∧ t.link = { s.link with perst := false, perstSeenHigh := true } ∧
      (s.wakeAt 1042 ≠ [] → 1042 ∈ t.eic.latches ∧ t.power.waiting = some ⟨2, 0x0B, false, 0⟩) ∧ t.keys = s.keys ∧ t.bus = s.bus := by
  let s1 := s.modLink (fun l => { l with perst := false, perstSeenHigh := true })
  have hx : exec .perstDeassert s = .next (latchWake s1 1042).roused := by
    change execPerstDeassert s = _
    rw [execPerstDeassert, if_pos ⟨hperst, hp⟩]
  obtain ⟨e, he⟩ := latchWake_only s1 1042
  obtain ⟨q, e', hr⟩ := roused_only (latchWake s1 1042)
  refine ⟨_, hx, ?_, fun hl => ?_, ?_, ?_⟩
  · rw [hr, he]; rfl
  · have hm : 1042 ∈ (latchWake s1 1042).eic.latches :=
      latchWake_latches (by simp [s1, State.asleep, State.modLink, hp]) rfl hl
    rw [roused_standby (by rw [he]; exact hp) (List.ne_nil_of_mem hm)]
    exact ⟨hm, rfl⟩
  · rw [hr, he]; rfl
  · rw [hr, he]; rfl

/-- Training sets the link's state, and beside it events alone (R45, R46, R93). -/
theorem exec_linkTrained {s : State} {speed width : Nat} (rev : Bool) (hperst : s.link.perst = false) (hm : s.power.mainOk = true)
    (h1 : 1 ≤ speed) (h5 : speed ≤ 5) (hw : width ∈ [1, 2, 4, 8, 16]) :
    ∃ e, exec (.linkTrained speed width rev) s = .next { s with
      link := { s.link with
        up := true, speed := speed, width := if width = 2 then 1 else width, reversed := rev, trainedOnce := true,
        retrains := if s.link.trainedOnce then min 0xFFFF (s.link.retrains + 1) else s.link.retrains }
      eic := e } := by
  change ∃ e, execLinkTrained speed width rev s = _
  have hgo : (s.link.perst || !s.power.mainOk || !decide (1 ≤ speed ∧ speed ≤ 5) || !([1, 2, 4, 8, 16].contains width)) = false := by
    simp [hperst, hm, h1, h5, hw]
  rw [execLinkTrained, if_neg (by rw [hgo]; decide)]
  extract_lets w s1 s2
  obtain ⟨e, he⟩ := noteService_only s s2
  have h2 : ∃ e', s2 = { s1 with eic := e' } := by
    simp only [s2]
    split
    · exact raise_only s1 1028
    · exact ⟨_, rfl⟩
  obtain ⟨e', he'⟩ := h2
  exact ⟨e, by rw [he, he']; rfl⟩

/-! ### Hot Reset and a long link-down -/

theorem State.mem_functions {s : State} {n : Nat} (h : s.fnExists n = true) : n ∈ s.functions := by
  have hn : n < 256 := by
    simp only [State.fnExists, Bool.or_eq_true, beq_iff_eq, Bool.and_eq_true, decide_eq_true_eq] at h
    omega
  simp [State.functions, hn, h]

theorem linkReset_warm {s : State} (src : Nat) (hw : s.link.warmOnLinkdown = true) :
    linkReset s src = askReset s ⟨2, src, false, 0⟩ := by
  rw [linkReset, if_pos hw]

/-- A link reset that is no warm reset runs the disable procedure and a Function Level Reset of every function, the PF last (R50). -/
theorem linkReset_resets {s : State} (src : Nat) (hw : s.link.warmOnLinkdown = false) :
    StopsService s (linkReset s src) ∧ (linkReset s src).link.vfEnable = false ∧
      ∀ n p, s.fnExists n = true → p ∈ s.hosted n → ((linkReset s src).part p).dis = .disabling := by
  have hflr : ∀ t n, StopsService t (functionLevelReset t n .flr) := fun t n => .functionLevelReset t n .flr
  have hmem : ∀ n, s.fnExists n = true → n ∈ s.functions.reverse := fun n h => List.mem_reverse.2 (State.mem_functions h)
  have hnote := StopsService.noteFunctions s (s.functions.reverse.foldl (fun t n => functionLevelReset t n .flr) s)
  rw [linkReset, if_neg (by simp [hw])]
  refine ⟨.trans (.fold hflr _ s) hnote, hnote.vfOff ?_, fun n p hn hp => hnote.running p ?_⟩
  · exact foldl_reaches (I := fun _ => True) (Q := fun t => t.link.vfEnable = false) (fun _ _ _ => trivial)
      (fun t n => (hflr t n).vfOff) (hmem 0 rfl) (fun t _ => functionLevelReset_vfEnable t .flr) trivial
  · exact foldl_disabling hflr (fun t => functionLevelReset_disabling .flr) (hmem n hn) hp

theorem exec_hotReset {s : State} (hm : s.power.mainOk = true) : exec .hotReset s = .next (linkReset s 0x06) := by
  change execHotReset s = _
  rw [execHotReset, if_pos hm]

theorem exec_linkDownTimeout {s : State} (hm : s.power.mainOk = true) (hu : s.link.up = false) (ht : s.link.trainedOnce = true) :
    exec .linkDownTimeout s = .next (linkReset s 0x07) := by
  change execLinkDownTimeout s = _
  rw [execLinkDownTimeout, if_pos (by simp [hm, hu, ht])]

/-! ### VF Enable -/

/-- The PF's configuration space answers once the host interface is ready (R48). -/
theorem configAccess_pf {s : State} (off : Nat) (f : State → State) (h : s.cfgReady = true) : configAccess s 0 off f = f s := by
  simp [configAccess, State.fnExists, h]

theorem exec_vfEnableSet {s : State} (k : Nat) (h : s.cfgReady = true) : exec (.vfEnableSet k) s = .next (setVfEnable s k) := by
  change execVfEnableSet k s = _
  rw [execVfEnableSet, configAccess_pf _ _ h]

theorem exec_vfEnableClear {s : State} (h : s.cfgReady = true) : exec .vfEnableClear s = .next (clearVfEnable s) := by
  change execVfEnableClear s = _
  rw [execVfEnableClear, configAccess_pf _ _ h]

theorem setVfEnable_set {s : State} (k : Nat) (hv : s.link.vfEnable = true) : setVfEnable s k = s := by
  simp [setVfEnable, hv]

/-- More than seven VFs in a hierarchy without ARI are rejected (R58). -/
theorem setVfEnable_rejects {s : State} {k : Nat} (hv : s.link.vfEnable = false) (h7 : 7 < k) (hk : k ≤ 255)
    (ha : s.link.ari = false) : setVfEnable s k = { s with link := { s.link with sriovReject := true } } := by
  simp [setVfEnable, hv, h7, Nat.not_lt.2 hk, ha]

/-- Otherwise NumVFs is stored, and takes effect once every acknowledgement is in (R60). -/
theorem setVfEnable_accepts {s : State} {k : Nat} (hv : s.link.vfEnable = false) (hk : k ≤ 255) (ha : k ≤ 7 ∨ s.link.ari = true) :
    setVfEnable s k = noteFunctions s (vfsSettled { s with link := { s.link with vfPending := some k } }) := by
  have hari : ¬ (7 < k ∧ (!s.link.ari) = true) := by
    rintro ⟨h7, h⟩
    rcases ha with ha | ha
    · omega
    · simp [ha] at h
  simp only [setVfEnable, hv, if_neg hari]
  simp [Nat.not_lt.2 hk]

/-- VFs that come up change the link as written, and beside it functions, rings, groups, partitions and events alone (R60). -/
theorem enableVfs_only (s : State) (k : Nat) :
    FnsOnly { s with link := { s.link with vfEnable := true, numVfs := k, vfPending := none } } (enableVfs s k) := by
  unfold enableVfs
  extract_lets l s1
  rw [List.foldl_map]
  exact .fold (fun t n => (FnsOnly.resetFunction t (Nat.succ_ne_zero n)).trans (.enableParts _ (n + 1))) _ s1

/-- With no acknowledgement outstanding the VFs exist at once (R60). -/
theorem setVfEnable_enables {s : State} {k : Nat} (hv : s.link.vfEnable = false) (hk : k ≤ 255) (ha : k ≤ 7 ∨ s.link.ari = true)
    (hb : s.vfsBusy = false) :
    FnsOnly { s with link := { s.link with vfEnable := true, numVfs := k, vfPending := none } } (setVfEnable s k) := by
  have hsettled : vfsSettled { s with link := { s.link with vfPending := some k } } =
      enableVfs { s with link := { s.link with vfPending := some k } } k := by
    have hb' : State.vfsBusy { s with link := { s.link with vfPending := some k } } = false := hb
    simp only [vfsSettled, hb']
    rfl
  rw [setVfEnable_accepts hv hk ha, hsettled]
  obtain ⟨e, he⟩ := noteFunctions_only s (enableVfs { s with link := { s.link with vfPending := some k } } k)
  rw [he]
  exact (enableVfs_only _ k).trans ⟨_, _, _, _, _, rfl⟩

/-- With an acknowledgement outstanding the write waits (R60). -/
theorem setVfEnable_waits {s : State} {k : Nat} (hv : s.link.vfEnable = false) (hk : k ≤ 255) (ha : k ≤ 7 ∨ s.link.ari = true)
    (hb : s.vfsBusy = true) :
    ∃ e, setVfEnable s k = { s with link := { s.link with vfPending := some k }, eic := e } := by
  have hsettled : vfsSettled { s with link := { s.link with vfPending := some k } } =
      { s with link := { s.link with vfPending := some k } } := by
    have hb' : State.vfsBusy { s with link := { s.link with vfPending := some k } } = true := hb
    simp only [vfsSettled, hb']
    rfl
  rw [setVfEnable_accepts hv hk ha, hsettled]
  exact noteFunctions_only s _

theorem State.fnExists_of_vfEnable {s : State} {n k : Nat} (hv : s.link.vfEnable = true) (hk : s.link.numVfs = k) (h : n ≤ k)
    (h255 : k ≤ 255) : s.fnExists n = true := by
  simp [State.fnExists, hv, hk, h, h.trans h255]

theorem State.fnExists_vf_of_clear {s : State} {n : Nat} (hv : s.link.vfEnable = false) (hn : n ≠ 0) : s.fnExists n = false := by
  simp [State.fnExists, hv, hn]

/-- Clearing VF Enable takes the VFs away and disables the partitions of each; the mailbox, the PF's, stands (R60, R81). -/
theorem clearVfEnable_stops {s : State} (hv : s.link.vfEnable = true) :
    StopsService s (clearVfEnable s) ∧ (clearVfEnable s).link.vfEnable = false ∧ (clearVfEnable s).od = s.od ∧
      ∀ n p, 1 ≤ n → n ≤ s.link.numVfs → p ∈ s.hosted n → ((clearVfEnable s).part p).dis = .disabling := by
  have hfn : ∀ t i, StopsService t (disableFn t (i + 1) .vfEnable) := fun t i => .disableFn t (i + 1) .vfEnable
  rw [clearVfEnable, if_pos hv]
  extract_lets l s1
  rw [List.foldl_map]
  have hnote := StopsService.noteFunctions s ((List.range s.link.numVfs).foldl (fun t i => disableFn t (i + 1) .vfEnable) s1)
  have h1 : StopsService s s1 := .setLink s (fun _ => rfl)
  refine ⟨(h1.trans (.fold hfn _ s1)).trans hnote, hnote.vfOff ((StopsService.fold hfn _ s1).vfOff rfl), ?_,
    fun n p h hn hp => hnote.running p ?_⟩
  · rw [noteFunctions_od]
    exact foldl_keep State.od _ (fun t i => disableFn_od t .vfEnable (Nat.succ_ne_zero i)) _ s1
  · have hmem : n - 1 ∈ List.range s.link.numVfs := List.mem_range.2 (by omega)
    refine foldl_disabling hfn (fun t => ?_) hmem hp
    rw [Nat.sub_add_cancel h]
    exact disableFn_disabling .vfEnable

theorem clearVfEnable_clear {s : State} (hv : s.link.vfEnable = false) :
    clearVfEnable s = { s with link := { s.link with vfPending := none } } := by
  rw [clearVfEnable, if_neg (by simp [hv])]

end Sys2Proof.Machine

/-- Settles O20: each event of the link and each write of VF Enable has its lemma, and what a disable procedure leaves is said once by
`StopsService`. -/
theorem hostLinkEvents : Obligations.HostLinkEvents := by
  unfold Obligations.HostLinkEvents
  refine ⟨⟨fun s => ⟨exec_perstAssert_holds, exec_perstAssert_resets⟩, fun s => ⟨exec_perstDeassert, exec_perstDeassert_standby⟩,
    fun s => rfl, ?trained, fun s hm hw => ⟨?hot, fun hu ht => ?down⟩, ?reset, fun s p => askReset_waits p⟩,
    fun k s hr => ⟨?rejects, ?enables, ?waits, ?set, ?clears, ?clear⟩⟩
  case trained =>
    intro s speed width rev hp hm h1 h5 hw
    obtain ⟨e, he⟩ := exec_linkTrained rev hp hm h1 h5 hw
    exact ⟨_, he, rfl, rfl, rfl, rfl, rfl, rfl, rfl, rfl, rfl, rfl⟩
  case hot => rw [exec_hotReset hm, linkReset_warm _ hw]
  case down => rw [exec_linkDownTimeout hm hu ht, linkReset_warm _ hw]
  case reset =>
    intro s hm hw c hc
    have hx : ∃ src, exec c s = .next (linkReset s src) := by
      rcases hc with rfl | ⟨rfl, hu, ht⟩
      · exact ⟨_, exec_hotReset hm⟩
      · exact ⟨_, exec_linkDownTimeout hm hu ht⟩
    obtain ⟨src, hx⟩ := hx
    obtain ⟨hs, hv, hd⟩ := linkReset_resets src hw
    exact ⟨_, hx, fun n p hn hp _ => hd n p hn hp, hv, hs.keys, congrArg _ hs.commit, hs.bus, hs.power⟩
  case rejects =>
    intro hv h7 hk ha
    rw [exec_vfEnableSet k hr, setVfEnable_rejects hv h7 hk ha]
  case enables =>
    intro hv hk ha hb
    obtain ⟨_, _, _, _, _, ht⟩ := setVfEnable_enables hv hk ha hb
    exact ⟨_, (exec_vfEnableSet k hr).trans (congrArg _ ht), rfl, rfl, rfl,
      fun n _ hn => State.fnExists_of_vfEnable rfl rfl hn hk, rfl, rfl, rfl, rfl⟩
  case waits =>
    intro hv hk ha hb
    obtain ⟨e, ht⟩ := setVfEnable_waits hv hk ha hb
    exact ⟨_, (exec_vfEnableSet k hr).trans (congrArg _ ht), hv, rfl, rfl, rfl, rfl⟩
  case set =>
    intro hv
    rw [exec_vfEnableSet k hr, setVfEnable_set k hv]
  case clears =>
    intro hv
    obtain ⟨hs, hoff, hod, hd⟩ := clearVfEnable_stops hv
    exact ⟨_, exec_vfEnableClear hr, hoff, fun n hn => State.fnExists_vf_of_clear hoff hn,
      fun n p h1 hn hp _ => hd n p h1 hn hp, hs.keys, hod, congrArg _ hs.commit, hs.bus⟩
  case clear =>
    intro hv
    rw [exec_vfEnableClear hr, clearVfEnable_clear hv]
end

section
open Sys2Proof.Machine

/-! SUPPORT. What the arbiter takes, and what the commit and the withholding of a message do (R98, R398 to R400, R403, R404). -/

namespace Sys2Proof.Machine

/-- Releasing the groups of a function changes bindings of groups and nothing else (R98). -/
theorem releaseGroups_only (s : State) (fn : Nat) : ∃ g, releaseGroups s fn = { s with groups := g } := by
  unfold releaseGroups
  split <;> exact ⟨_, rfl⟩

theorem not_mem_sdel_self (k : Nat) (l : List Nat) : k ∉ sdel k l := by simp [sdel]

theorem exec_msixCommit (n : Nat) (s : State) :
    exec (.msixCommit n) s = .next (if s.arbiter = some n then decideSource s n else s) := rfl

/-! ### The arbiter -/

theorem State.considered_of_undecided {s : State} {n : Nat} (h : s.undecided n = true) : s.considered n = true :=
  (Bool.and_eq_true_iff.1 h).1

/-- The arbiter takes only a source it still has to decide (R398). -/
theorem State.undecided_of_arbiter {s : State} {n : Nat} (h : s.arbiter = some n) : s.undecided n = true := by
  suffices hall : ∀ k, s.arbiter = some k → s.undecided k = true from hall n h
  refine List.foldlRecOn (motive := fun m => ∀ k, m = some k → s.undecided k = true) _ _ (fun _ hk => nomatch hk) ?_
  intro m hm a ha
  have hu : s.undecided a = true := (List.mem_filter.1 ha).2
  cases m with
  | none => rintro _ ⟨⟩; exact hu
  | some b =>
    dsimp only
    split
    · rintro _ ⟨⟩; exact hu
    · exact hm

theorem State.considered_of_arbiter {s : State} {n : Nat} (h : s.arbiter = some n) : s.considered n = true :=
  considered_of_undecided (undecided_of_arbiter h)

/-- A source that is considered is ready and pending, and its map entry enables it (R398). -/
theorem State.considered_source {s : State} {n : Nat} (h : s.considered n = true) :
    n ∈ s.eic.ready ∧ n ∈ s.eic.hostPend ∧ (s.mapOf n).enable = true := by
  simp only [State.considered, Bool.and_eq_true, List.contains_iff_mem] at h
  tauto

/-- The function of a source that is considered sends messages, and no hold covers it (R399, R404). -/
theorem State.considered_function {s : State} {n : Nat} (h : s.considered n = true) :
    (s.fn (s.sourceOwner n).1).msixEnable = true ∧ (s.fn (s.sourceOwner n).1).busMaster = true ∧
      (s.fn (s.sourceOwner n).1).hold = false ∧ s.eic.globalHold = false := by
  simp only [State.considered, Bool.and_eq_true, Bool.not_eq_true'] at h
  tauto

theorem State.arbiter_ne_of_blocked {s : State} {n : Nat}
    (h : (s.fn (s.sourceOwner n).1).msixEnable = false ∨ (s.fn (s.sourceOwner n).1).busMaster = false ∨
      (s.fn (s.sourceOwner n).1).hold = true ∨ s.eic.globalHold = true) : s.arbiter ≠ some n := by
  intro ha
  obtain ⟨hm, hb, hh, hg⟩ := considered_function (considered_of_arbiter ha)
  simp [hm, hb, hh, hg] at h

theorem State.readyOn_iff {s : State} {fn v k : Nat} :
    s.readyOn fn v k = true ↔ k ∈ s.eic.ready ∧ k ∈ s.eic.hostPend ∧ (s.sourceOwner k).1 = fn ∧ (s.mapOf k).enable = true ∧
      (s.mapOf k).vector = v := by
  simp [State.readyOn, and_assoc]

theorem exec_msixCommit_untaken {s : State} {n : Nat} (h : s.arbiter ≠ some n) : exec (.msixCommit n) s = .next s := by
  rw [exec_msixCommit, if_neg h]

/-! ### The commit of a message -/

/-- The vector of source `n` as it stands in its function's MSI-X table (R400). -/
def State.entryOf (s : State) (n : Nat) : MsixEntry := (s.fn (s.sourceOwner n).1).entry (s.mapOf n).vector

/-- The sources a commit for source `n` clears: those ready, enabled and pending on its vector (R399). -/
def State.sentWith (s : State) (n : Nat) : List Nat := s.eic.ready.filter (s.readyOn (s.sourceOwner n).1 (s.mapOf n).vector)

theorem State.mem_sentWith {s : State} {n k : Nat} :
    k ∈ s.sentWith n ↔ k ∈ s.eic.ready ∧ k ∈ s.eic.hostPend ∧ (s.sourceOwner k).1 = (s.sourceOwner n).1 ∧
      (s.mapOf k).enable = true ∧ (s.mapOf k).vector = (s.mapOf n).vector := by
  simp [sentWith, readyOn_iff]

/-- A commit changes the messages sent, what the host path has pending and ready, the vector's PBA bit, and bindings of groups (R98,
R399, R400). -/
theorem commitMessage_only (s : State) (n : Nat) : ∃ g, commitMessage s n =
    State.modFn { s with
      bus := { s.bus with messages := s.bus.messages ++ [((s.sourceOwner n).1, (s.entryOf n).addr, (s.entryOf n).data)] }
      eic := { s.eic with hostPend := s.eic.hostPend.filter (fun k => !(s.sentWith n).contains k),
                          ready := s.eic.ready.filter (fun k => !(s.sentWith n).contains k) }
      groups := g } (s.sourceOwner n).1 (fun f => { f with pba := sdel (s.mapOf n).vector f.pba }) := by
  unfold commitMessage
  exact releaseGroups_only _ _

/-- After a commit the pending sources are those it did not send (R399). -/
theorem mem_commitMessage_hostPend {s : State} {n k : Nat} :
    k ∈ (commitMessage s n).eic.hostPend ↔ k ∈ s.eic.hostPend ∧ k ∉ s.sentWith n := by
  obtain ⟨g, h⟩ := commitMessage_only s n
  simp [h]

theorem mem_commitMessage_ready {s : State} {n k : Nat} :
    k ∈ (commitMessage s n).eic.ready ↔ k ∈ s.eic.ready ∧ k ∉ s.sentWith n := by
  obtain ⟨g, h⟩ := commitMessage_only s n
  simp [h]

theorem not_mem_commitMessage_pba (s : State) (n : Nat) :
    (s.mapOf n).vector ∉ ((commitMessage s n).fn (s.sourceOwner n).1).pba := by
  obtain ⟨g, h⟩ := commitMessage_only s n
  rw [h, State.modFn_fn_self]
  exact not_mem_sdel_self _ _

/-- A source the arbiter takes is among those its message is sent for. -/
theorem State.mem_sentWith_of_arbiter {s : State} {n : Nat} (ha : s.arbiter = some n) : n ∈ s.sentWith n := by
  obtain ⟨hr, hp, he⟩ := considered_source (considered_of_arbiter ha)
  exact mem_sentWith.2 ⟨hr, hp, rfl, he, rfl⟩

section
variable {s : State} {n : Nat} (ha : s.arbiter = some n)
include ha

/-- An unmasked vector sends its message, and what was ready on it is no longer pending (R399, R400). -/
theorem exec_msixCommit_sends (hm : s.masked n = false) : ∃ t, exec (.msixCommit n) s = .next t ∧
    t.bus = { s.bus with messages := s.bus.messages ++ [((s.sourceOwner n).1, (s.entryOf n).addr, (s.entryOf n).data)] } ∧
    n ∉ t.eic.hostPend ∧ n ∉ t.eic.ready ∧
    (∀ k ∈ s.eic.ready, (s.sourceOwner k).1 = (s.sourceOwner n).1 → (s.mapOf k).enable = true →
      (s.mapOf k).vector = (s.mapOf n).vector → k ∉ t.eic.hostPend) ∧
    (∀ k, (s.sourceOwner k).1 ≠ (s.sourceOwner n).1 → (k ∈ t.eic.hostPend ↔ k ∈ s.eic.hostPend)) ∧
    (s.mapOf n).vector ∉ (t.fn (s.sourceOwner n).1).pba ∧ t.eic.corePend = s.eic.corePend ∧ t.rings = s.rings ∧
    t.keys = s.keys := by
  have hx : exec (.msixCommit n) s = .next (commitMessage s n) := by
    rw [exec_msixCommit, if_pos ha, decideSource, hm]
    rfl
  have hn : n ∈ s.sentWith n := State.mem_sentWith_of_arbiter ha
  obtain ⟨g, hc⟩ := commitMessage_only s n
  refine ⟨_, hx, ?bus, fun h => (mem_commitMessage_hostPend.1 h).2 hn, fun h => (mem_commitMessage_ready.1 h).2 hn, ?vector,
    ?others, not_mem_commitMessage_pba s n, ?core, ?rings, ?keys⟩
  case vector =>
    intro k hk ho he hv h
    obtain ⟨hp, hs⟩ := mem_commitMessage_hostPend.1 h
    exact hs (State.mem_sentWith.2 ⟨hk, hp, ho, he, hv⟩)
  case others =>
    intro k ho
    have hs : k ∉ s.sentWith n := by
      intro h
      obtain ⟨-, -, hk, -⟩ := State.mem_sentWith.1 h
      exact ho hk
    rw [mem_commitMessage_hostPend, and_iff_left hs]
  case bus | core | rings | keys => rw [hc]; rfl

/-- A masked vector withholds its message: its PBA bit is set, and nothing is sent (R399, R403). -/
theorem exec_msixCommit_withholds (hm : s.masked n = true) : ∃ t, exec (.msixCommit n) s = .next t ∧ t.bus = s.bus ∧
    t.eic = s.eic ∧ (s.mapOf n).vector ∈ (t.fn (s.sourceOwner n).1).pba ∧ t.rings = s.rings ∧ t.keys = s.keys := by
  rw [exec_msixCommit, if_pos ha, decideSource, if_pos hm]
  refine ⟨_, rfl, rfl, rfl, ?_, rfl, rfl⟩
  rw [State.modFn_fn_self]
  exact mem_sins_self _ _

end

end Sys2Proof.Machine

/-- Settles O24: each outcome of the arbitration has its lemma; a source that is blocked is one the arbiter does not take. -/
theorem messageCommit : Obligations.MessageCommit := by
  unfold Obligations.MessageCommit
  intro n s
  exact ⟨exec_msixCommit_sends, exec_msixCommit_withholds,
    fun h => exec_msixCommit_untaken (State.arbiter_ne_of_blocked h), exec_msixCommit_untaken⟩
end

section
open Sys2Proof.Machine

/-! SUPPORT. Which behaviour each command has: `exec` at one constructor. -/

namespace Sys2Proof.Machine

theorem dispatch_seedPoolDrawServed (s : State) : exec .seedPoolDrawServed s = execSeedPoolDrawServed s := rfl

theorem dispatch_journalPageProgrammed (s : State) : exec .journalPageProgrammed s = execJournalPageProgrammed s := rfl

theorem dispatch_commitCycleAck {cycle} (s : State) : exec (.commitCycleAck cycle) s = execCommitCycleAck cycle s := rfl

theorem dispatch_commitCycleReceive {c} (s : State) : exec (.commitCycleReceive c) s = execCommitCycleReceive c s := rfl

theorem dispatch_cycleAckTimeout (s : State) : exec .cycleAckTimeout s = execCycleAckTimeout s := rfl

theorem dispatch_randomBytes {slot} (s : State) : exec (.randomBytes slot) s = execRandomBytes slot s := rfl

theorem dispatch_drbgReseed {slot} (s : State) : exec (.drbgReseed slot) s = execDrbgReseed slot s := rfl

theorem dispatch_rawSessionOpen {slot} (s : State) : exec (.rawSessionOpen slot) s = execRawSessionOpen slot s := rfl

theorem dispatch_rawSessionGranted {engine} (s : State) :
    exec (.rawSessionGranted engine) s = execRawSessionGranted engine s := rfl

theorem dispatch_rawSessionClose {slot} (s : State) : exec (.rawSessionClose slot) s = execRawSessionClose slot s := rfl

theorem dispatch_rawModadd {slot} (s : State) : exec (.rawModadd slot) s = execRawModadd slot s := rfl

theorem dispatch_rawModsub {slot} (s : State) : exec (.rawModsub slot) s = execRawModsub slot s := rfl

theorem dispatch_rawModmul {slot} (s : State) : exec (.rawModmul slot) s = execRawModmul slot s := rfl

theorem dispatch_rawModinv {slot} (s : State) : exec (.rawModinv slot) s = execRawModinv slot s := rfl

theorem dispatch_rawModexp {slot} (s : State) : exec (.rawModexp slot) s = execRawModexp slot s := rfl

theorem dispatch_rawAbort {slot} (s : State) : exec (.rawAbort slot) s = execRawAbort slot s := rfl

theorem dispatch_rawSessionIdleTimeout {engine} (s : State) :
    exec (.rawSessionIdleTimeout engine) s = execRawSessionIdleTimeout engine s := rfl

theorem dispatch_orphanSweepFree {record} (s : State) : exec (.orphanSweepFree record) s = execOrphanSweepFree record s := rfl

theorem dispatch_dramPatrolScrub {record correctable} (s : State) :
    exec (.dramPatrolScrub record correctable) s = execDramPatrolScrub record correctable s := rfl

theorem dispatch_keyCacheScrub {critical key correctable} (s : State) :
    exec (.keyCacheScrub critical key correctable) s = execKeyCacheScrub critical key correctable s := rfl

theorem dispatch_sensorCalibration {sensor} (s : State) :
    exec (.sensorCalibration sensor) s = execSensorCalibration sensor s := rfl

theorem dispatch_telemetryRefresh {dieTemp cocoonTemp inputMv inputMw nandWear} (s : State) :
    exec (.telemetryRefresh dieTemp cocoonTemp inputMv inputMw nandWear) s = execTelemetryRefresh dieTemp cocoonTemp inputMv inputMw nandWear s := rfl

theorem dispatch_recordRecoveryReply {record src copy} (s : State) :
    exec (.recordRecoveryReply record src copy) s = execRecordRecoveryReply record src copy s := rfl

theorem dispatch_busMasterEnableClear {fn} (s : State) : exec (.busMasterEnableClear fn) s = execBusMasterEnableClear fn s := rfl

theorem dispatch_d3hotEntry {fn} (s : State) : exec (.d3hotEntry fn) s = execD3hotEntry fn s := rfl

theorem dispatch_d0Return {fn} (s : State) : exec (.d0Return fn) s = execD0Return fn s := rfl

theorem dispatch_functionLevelReset {fn} (s : State) : exec (.functionLevelReset fn) s = execFunctionLevelReset fn s := rfl

theorem dispatch_disableBufferTimeout {slot} (s : State) :
    exec (.disableBufferTimeout slot) s = execDisableBufferTimeout slot s := rfl

theorem dispatch_disableAck {part} (s : State) : exec (.disableAck part) s = execDisableAck part s := rfl

theorem dispatch_functionWedged {fn} (s : State) : exec (.functionWedged fn) s = execFunctionWedged fn s := rfl

theorem dispatch_resetCold {key} (s : State) : exec (.resetCold key) s = execResetCold key s := rfl

theorem dispatch_resetWarm {key} (s : State) : exec (.resetWarm key) s = execResetWarm key s := rfl

theorem dispatch_hifFnErrRead {fn} (s : State) : exec (.hifFnErrRead fn) s = execHifFnErrRead fn s := rfl

theorem dispatch_registerWrite {fn bar offset size value} (s : State) :
    exec (.registerWrite fn bar offset size value) s = execRegisterWrite fn bar offset size value s := rfl

theorem dispatch_ideCheckFailed {stream} (s : State) : exec (.ideCheckFailed stream) s = execIdeCheckFailed stream s := rfl

theorem dispatch_spdmGetCertificate {head offset length} (s : State) :
    exec (.spdmGetCertificate head offset length) s = execSpdmGetCertificate head offset length s := rfl

theorem dispatch_spdmChallenge {head nonce} (s : State) :
    exec (.spdmChallenge head nonce) s = execSpdmChallenge head nonce s := rfl

theorem dispatch_spdmGetMeasurements {head signed nonce} (s : State) :
    exec (.spdmGetMeasurements head signed nonce) s = execSpdmGetMeasurements head signed nonce s := rfl

theorem dispatch_spdmKeyExchange {head point} (s : State) :
    exec (.spdmKeyExchange head point) s = execSpdmKeyExchange head point s := rfl

theorem dispatch_keyProg {stream keySet rx key} (s : State) :
    exec (.keyProg stream keySet rx key) s = execKeyProg stream keySet rx key s := rfl

theorem dispatch_kSetGo {stream keySet rx} (s : State) : exec (.kSetGo stream keySet rx) s = execKSetGo stream keySet rx s := rfl

theorem dispatch_kSetStop {stream keySet rx} (s : State) :
    exec (.kSetStop stream keySet rx) s = execKSetStop stream keySet rx s := rfl

theorem dispatch_quotaWrite {rq part sub v} (s : State) :
    exec (.quotaWrite rq part sub v) s = execQuotaWrite rq part sub v s := rfl

theorem dispatch_partitionFunctionWrite {rq part fn grant} (s : State) :
    exec (.partitionFunctionWrite rq part fn grant) s = execPartitionFunctionWrite rq part fn grant s := rfl

theorem dispatch_partitionEnableWrite {rq part v grant} (s : State) :
    exec (.partitionEnableWrite rq part v grant) s = execPartitionEnableWrite rq part v grant s := rfl

theorem dispatch_ringEnable {rid} (s : State) : exec (.ringEnable rid) s = execRingEnable rid s := rfl

theorem dispatch_ringDisable {rid} (s : State) : exec (.ringDisable rid) s = execRingDisable rid s := rfl

theorem dispatch_ringResume {rid} (s : State) : exec (.ringResume rid) s = execRingResume rid s := rfl

theorem dispatch_ringSettle {rid} (s : State) : exec (.ringSettle rid) s = execRingSettle rid s := rfl

theorem dispatch_grpDigEnable {gid base sizeLog2} (s : State) :
    exec (.grpDigEnable gid base sizeLog2) s = execGrpDigEnable gid base sizeLog2 s := rfl

theorem dispatch_grpDigDisable {gid} (s : State) : exec (.grpDigDisable gid) s = execGrpDigDisable gid s := rfl

theorem dispatch_grpDigBaseRead {gid} (s : State) : exec (.grpDigBaseRead gid) s = execGrpDigBaseRead gid s := rfl

theorem dispatch_grpDigConsWrite {gid c} (s : State) : exec (.grpDigConsWrite gid c) s = execGrpDigConsWrite gid c s := rfl

theorem dispatch_manifestWrite {rq m grant} (s : State) :
    exec (.manifestWrite rq m grant) s = execManifestWrite rq m grant s := rfl

theorem dispatch_quorumOpen {rq cls part uses digest} (s : State) :
    exec (.quorumOpen rq cls part uses digest) s = execQuorumOpen rq cls part uses digest s := rfl

theorem dispatch_quorumApprove {rq id member signature} (s : State) :
    exec (.quorumApprove rq id member signature) s = execQuorumApprove rq id member signature s := rfl

theorem dispatch_cardApprove {rq id port credential agree} (s : State) :
    exec (.cardApprove rq id port credential agree) s = execCardApprove rq id port credential agree s := rfl

theorem dispatch_policyWrite {rq cls sub v grant} (s : State) :
    exec (.policyWrite rq cls sub v grant) s = execPolicyWrite rq cls sub v grant s := rfl

theorem dispatch_memberWrite {rq member sub v grant} (s : State) :
    exec (.memberWrite rq member sub v grant) s = execMemberWrite rq member sub v grant s := rfl

theorem dispatch_componentLoad {rq port credential point signature answer} (s : State) :
    exec (.componentLoad rq port credential point signature answer) s = execComponentLoad rq port credential point signature answer s := rfl

theorem dispatch_looperKdFormation (s : State) : exec .looperKdFormation s = execLooperKdFormation s := rfl

theorem dispatch_looperIdentitySeal (s : State) : exec .looperIdentitySeal s = execLooperIdentitySeal s := rfl

theorem dispatch_looperIdentityUnseal (s : State) : exec .looperIdentityUnseal s = execLooperIdentityUnseal s := rfl

theorem dispatch_looperRecordKeyFormation (s : State) : exec .looperRecordKeyFormation s = execLooperRecordKeyFormation s := rfl

theorem dispatch_looperNandKeyFormation (s : State) : exec .looperNandKeyFormation s = execLooperNandKeyFormation s := rfl

theorem dispatch_looperRecordSeal {seq} (s : State) : exec (.looperRecordSeal seq) s = execLooperRecordSeal seq s := rfl

theorem dispatch_looperRefused {code} (s : State) : exec (.looperRefused code) s = execLooperRefused code s := rfl

theorem dispatch_looperBlockDone (s : State) : exec .looperBlockDone s = execLooperBlockDone s := rfl

theorem dispatch_entropyBlockRelease (s : State) : exec .entropyBlockRelease s = execEntropyBlockRelease s := rfl

theorem dispatch_warmupEnd (s : State) : exec .warmupEnd s = execWarmupEnd s := rfl

theorem dispatch_entropyReady (s : State) : exec .entropyReady s = execEntropyReady s := rfl

theorem dispatch_conditionerBlockOut {rawBits} (s : State) :
    exec (.conditionerBlockOut rawBits) s = execConditionerBlockOut rawBits s := rfl

theorem dispatch_entropyBlockArrival (s : State) : exec .entropyBlockArrival s = execEntropyBlockArrival s := rfl

theorem dispatch_entropyHealthFail {cause groups} (s : State) :
    exec (.entropyHealthFail cause groups) s = execEntropyHealthFail cause groups s := rfl

theorem dispatch_entropyTransportFault (s : State) : exec .entropyTransportFault s = execEntropyTransportFault s := rfl

theorem dispatch_entropyBlockTimeout (s : State) : exec .entropyBlockTimeout s = execEntropyBlockTimeout s := rfl

theorem dispatch_laneGeneratorRekey {lane} (s : State) : exec (.laneGeneratorRekey lane) s = execLaneGeneratorRekey lane s := rfl

theorem dispatch_laneGeneratorStall {lane} (s : State) : exec (.laneGeneratorStall lane) s = execLaneGeneratorStall lane s := rfl

theorem dispatch_engineGeneratorRekey {gen} (s : State) :
    exec (.engineGeneratorRekey gen) s = execEngineGeneratorRekey gen s := rfl

theorem dispatch_engineGeneratorStall {gen} (s : State) :
    exec (.engineGeneratorStall gen) s = execEngineGeneratorStall gen s := rfl

theorem dispatch_drbgInstantiate {part} (s : State) : exec (.drbgInstantiate part) s = execDrbgInstantiate part s := rfl

theorem dispatch_drbgReseedInterval {part} (s : State) : exec (.drbgReseedInterval part) s = execDrbgReseedInterval part s := rfl

theorem dispatch_drbgReseedCount {part} (s : State) : exec (.drbgReseedCount part) s = execDrbgReseedCount part s := rfl

theorem dispatch_drbgStagingRefill {part} (s : State) : exec (.drbgStagingRefill part) s = execDrbgStagingRefill part s := rfl

theorem dispatch_drbgTokenGrant {slot} (s : State) : exec (.drbgTokenGrant slot) s = execDrbgTokenGrant slot s := rfl

theorem dispatch_tapCtlWrite {rq v grant} (s : State) : exec (.tapCtlWrite rq v grant) s = execTapCtlWrite rq v grant s := rfl

theorem dispatch_holdoffWindowClose {group} (s : State) :
    exec (.holdoffWindowClose group) s = execHoldoffWindowClose group s := rfl

theorem dispatch_vectorControlWrite {fn vector mask} (s : State) :
    exec (.vectorControlWrite fn vector mask) s = execVectorControlWrite fn vector mask s := rfl

theorem dispatch_functionMaskWrite {fn mask} (s : State) :
    exec (.functionMaskWrite fn mask) s = execFunctionMaskWrite fn mask s := rfl

theorem dispatch_vectorControlRead {fn vector} (s : State) :
    exec (.vectorControlRead fn vector) s = execVectorControlRead fn vector s := rfl

theorem dispatch_messageControlRead {fn} (s : State) : exec (.messageControlRead fn) s = execMessageControlRead fn s := rfl

theorem dispatch_eicSrcPendW1c {fn word v} (s : State) : exec (.eicSrcPendW1c fn word v) s = execEicSrcPendW1c fn word v s := rfl

theorem dispatch_eicHoldWrite {fn hold} (s : State) : exec (.eicHoldWrite fn hold) s = execEicHoldWrite fn hold s := rfl

theorem dispatch_eicGlobalHoldWrite {hold} (s : State) : exec (.eicGlobalHoldWrite hold) s = execEicGlobalHoldWrite hold s := rfl

theorem dispatch_eicMapWrite {fn k v} (s : State) : exec (.eicMapWrite fn k v) s = execEicMapWrite fn k v s := rfl

theorem dispatch_coreHandlerEntry {core} (s : State) : exec (.coreHandlerEntry core) s = execCoreHandlerEntry core s := rfl

theorem dispatch_coreClaimRead {core} (s : State) : exec (.coreClaimRead core) s = execCoreClaimRead core s := rfl

theorem dispatch_coreCompletionWrite {core source} (s : State) :
    exec (.coreCompletionWrite core source) s = execCoreCompletionWrite core source s := rfl

theorem dispatch_coreHandlerReturn {core} (s : State) : exec (.coreHandlerReturn core) s = execCoreHandlerReturn core s := rfl

theorem dispatch_coreWatchdogRestart {core} (s : State) :
    exec (.coreWatchdogRestart core) s = execCoreWatchdogRestart core s := rfl

theorem dispatch_coreWatchdogStage1 {core} (s : State) : exec (.coreWatchdogStage1 core) s = execCoreWatchdogStage1 core s := rfl

theorem dispatch_coreWatchdogStage2 {core} (s : State) : exec (.coreWatchdogStage2 core) s = execCoreWatchdogStage2 core s := rfl

theorem dispatch_wakeLatch {source} (s : State) : exec (.wakeLatch source) s = execWakeLatch source s := rfl

theorem dispatch_wakeTimer (s : State) : exec .wakeTimer s = execWakeTimer s := rfl

theorem dispatch_wakeListWrite {rq entry source} (s : State) :
    exec (.wakeListWrite rq entry source) s = execWakeListWrite rq entry source s := rfl

theorem dispatch_wakeTimerSWrite {rq v} (s : State) : exec (.wakeTimerSWrite rq v) s = execWakeTimerSWrite rq v s := rfl

theorem dispatch_idleEntry (s : State) : exec .idleEntry s = execIdleEntry s := rfl

theorem dispatch_idleExit {source} (s : State) : exec (.idleExit source) s = execIdleExit source s := rfl

theorem dispatch_mantleChannelAlarm {channel reading} (s : State) :
    exec (.mantleChannelAlarm channel reading) s = execMantleChannelAlarm channel reading s := rfl

theorem dispatch_enclosureLoopAlarm {loop reading} (s : State) :
    exec (.enclosureLoopAlarm loop reading) s = execEnclosureLoopAlarm loop reading s := rfl

theorem dispatch_caseSwitchAlarm {switch reading} (s : State) :
    exec (.caseSwitchAlarm switch reading) s = execCaseSwitchAlarm switch reading s := rfl

theorem dispatch_lightAlarm {site reading} (s : State) : exec (.lightAlarm site reading) s = execLightAlarm site reading s := rfl

theorem dispatch_railAlarm {flag reading} (s : State) : exec (.railAlarm flag reading) s = execRailAlarm flag reading s := rfl

theorem dispatch_tempAlarm {flag reading} (s : State) : exec (.tempAlarm flag reading) s = execTempAlarm flag reading s := rfl

theorem dispatch_clockFreq {flag reading} (s : State) : exec (.clockFreq flag reading) s = execClockFreq flag reading s := rfl

theorem dispatch_clockGlitch {flag reading} (s : State) :
    exec (.clockGlitch flag reading) s = execClockGlitch flag reading s := rfl

theorem dispatch_fsmCodewordInvalid {fsm reading} (s : State) :
    exec (.fsmCodewordInvalid fsm reading) s = execFsmCodewordInvalid fsm reading s := rfl

theorem dispatch_bridgeFault {reading} (s : State) : exec (.bridgeFault reading) s = execBridgeFault reading s := rfl

theorem dispatch_mainDieResponse (s : State) : exec .mainDieResponse s = execMainDieResponse s := rfl

theorem dispatch_sleeveRemoval (s : State) : exec .sleeveRemoval s = execSleeveRemoval s := rfl

theorem dispatch_sleeveInsertion {cert sigR sigS drawn} (s : State) :
    exec (.sleeveInsertion cert sigR sigS drawn) s = execSleeveInsertion cert sigR sigS drawn s := rfl

theorem dispatch_sleeveReleaseWrite {rq v} (s : State) : exec (.sleeveReleaseWrite rq v) s = execSleeveReleaseWrite rq v s := rfl

theorem dispatch_sleeveLifeAccounting {mAh tenths} (s : State) :
    exec (.sleeveLifeAccounting mAh tenths) s = execSleeveLifeAccounting mAh tenths s := rfl

theorem dispatch_unlock {rq v passes grant} (s : State) :
    exec (.unlock rq v passes grant) s = execUnlock rq v passes grant s := rfl

theorem dispatch_unlockReset (s : State) : exec .unlockReset s = execUnlockReset s := rfl

theorem dispatch_tamperClassWrite {rq flag v grant} (s : State) :
    exec (.tamperClassWrite rq flag v grant) s = execTamperClassWrite rq flag v grant s := rfl

theorem dispatch_loopModeWrite {rq isSwitch n v passes grant} (s : State) :
    exec (.loopModeWrite rq isSwitch n v passes grant) s = execLoopModeWrite rq isSwitch n v passes grant s := rfl

theorem dispatch_loopWindowWrite {rq n sub v passes grant} (s : State) :
    exec (.loopWindowWrite rq n sub v passes grant) s = execLoopWindowWrite rq n sub v passes grant s := rfl

theorem dispatch_holdupExhausted (s : State) : exec .holdupExhausted s = execHoldupExhausted s := rfl

theorem dispatch_targetWrite {rq target grant} (s : State) :
    exec (.targetWrite rq target grant) s = execTargetWrite rq target grant s := rfl

theorem dispatch_lcTransitionReset (s : State) : exec .lcTransitionReset s = execLcTransitionReset s := rfl

theorem dispatch_identityGenerate {rq} (s : State) : exec (.identityGenerate rq) s = execIdentityGenerate rq s := rfl

theorem dispatch_attestNonceWrite {rq nonce} (s : State) :
    exec (.attestNonceWrite rq nonce) s = execAttestNonceWrite rq nonce s := rfl

theorem dispatch_debugSessionExpiry (s : State) : exec .debugSessionExpiry s = execDebugSessionExpiry s := rfl

theorem dispatch_debugClose {rq v} (s : State) : exec (.debugClose rq v) s = execDebugClose rq v s := rfl

theorem dispatch_observeOpen {rq v grant} (s : State) : exec (.observeOpen rq v grant) s = execObserveOpen rq v grant s := rfl

theorem dispatch_debugChallengeRefresh (s : State) : exec .debugChallengeRefresh s = execDebugChallengeRefresh s := rfl

theorem dispatch_stopPoint1 (s : State) : exec .stopPoint1 s = execStopPoint1 s := rfl

theorem dispatch_keyStoreLoaded (s : State) : exec .keyStoreLoaded s = execKeyStoreLoaded s := rfl

theorem dispatch_serviceReady (s : State) : exec .serviceReady s = execServiceReady s := rfl

theorem dispatch_pfail (s : State) : exec .pfail s = execPfail s := rfl

theorem dispatch_pfailFlushEnd {us} (s : State) : exec (.pfailFlushEnd us) s = execPfailFlushEnd us s := rfl

theorem dispatch_cocoonReset {rq v passes grant} (s : State) :
    exec (.cocoonReset rq v passes grant) s = execCocoonReset rq v passes grant s := rfl

theorem dispatch_seamLinkUp {port peerPosition peerPair peerMember peerCluster peerSerial peerPartner chainsOk inService} (s : State) :
    exec (.seamLinkUp port peerPosition peerPair peerMember peerCluster peerSerial peerPartner chainsOk inService) s = execSeamLinkUp port peerPosition peerPair peerMember peerCluster peerSerial peerPartner chainsOk inService s := rfl

theorem dispatch_seamFrameRefused {port linkSeq} (s : State) :
    exec (.seamFrameRefused port linkSeq) s = execSeamFrameRefused port linkSeq s := rfl

theorem dispatch_seamFrameRelay {inPort dest src cls hops flowSeq stamp payload} (s : State) :
    exec (.seamFrameRelay inPort dest src cls hops flowSeq stamp payload) s = execSeamFrameRelay inPort dest src cls hops flowSeq stamp payload s := rfl

theorem dispatch_keepAliveSend {port} (s : State) : exec (.keepAliveSend port) s = execKeepAliveSend port s := rfl

theorem dispatch_seamResendTimeout {port} (s : State) : exec (.seamResendTimeout port) s = execSeamResendTimeout port s := rfl

theorem dispatch_seamLinkRekey {port} (s : State) : exec (.seamLinkRekey port) s = execSeamLinkRekey port s := rfl

theorem dispatch_linkDelayMeasure {port delay} (s : State) :
    exec (.linkDelayMeasure port delay) s = execLinkDelayMeasure port delay s := rfl

theorem dispatch_syncBroadcast (s : State) : exec .syncBroadcast s = execSyncBroadcast s := rfl

theorem dispatch_syncReceive {src masterTime masterUnsynced} (s : State) :
    exec (.syncReceive src masterTime masterUnsynced) s = execSyncReceive src masterTime masterUnsynced s := rfl

theorem dispatch_timeSyncClear (s : State) : exec .timeSyncClear s = execTimeSyncClear s := rfl

theorem dispatch_driftBoundExceeded (s : State) : exec .driftBoundExceeded s = execDriftBoundExceeded s := rfl

theorem dispatch_clusterTimeWrite {rq v grant} (s : State) :
    exec (.clusterTimeWrite rq v grant) s = execClusterTimeWrite rq v grant s := rfl

theorem dispatch_masterElection (s : State) : exec .masterElection s = execMasterElection s := rfl

theorem dispatch_configWrite {rq idx sub v grant} (s : State) :
    exec (.configWrite rq idx sub v grant) s = execConfigWrite rq idx sub v grant s := rfl

theorem dispatch_configChangeReceive {port c} (s : State) :
    exec (.configChangeReceive port c) s = execConfigChangeReceive port c s := rfl

theorem dispatch_configPull {port} (s : State) : exec (.configPull port) s = execConfigPull port s := rfl

theorem dispatch_configPullDone {epoch digest entries} (s : State) :
    exec (.configPullDone epoch digest entries) s = execConfigPullDone epoch digest entries s := rfl

theorem dispatch_mgmtFrameReceive {src body} (s : State) :
    exec (.mgmtFrameReceive src body) s = execMgmtFrameReceive src body s := rfl

theorem dispatch_heartbeatSend (s : State) : exec .heartbeatSend s = execHeartbeatSend s := rfl

theorem dispatch_heartbeatReceive {h} (s : State) : exec (.heartbeatReceive h) s = execHeartbeatReceive h s := rfl

theorem dispatch_tokenRecordReceive {record} (s : State) :
    exec (.tokenRecordReceive record) s = execTokenRecordReceive record s := rfl

theorem dispatch_tokenLoss (s : State) : exec .tokenLoss s = execTokenLoss s := rfl

theorem dispatch_arbOpen {point signature refereeOk} (s : State) :
    exec (.arbOpen point signature refereeOk) s = execArbOpen point signature refereeOk s := rfl

theorem dispatch_arbSessionTimeout (s : State) : exec .arbSessionTimeout s = execArbSessionTimeout s := rfl

theorem dispatch_resyncRequest (s : State) : exec .resyncRequest s = execResyncRequest s := rfl

theorem dispatch_collarClaim (s : State) : exec .collarClaim s = execCollarClaim s := rfl

theorem dispatch_claimWindowEnd (s : State) : exec .claimWindowEnd s = execClaimWindowEnd s := rfl

theorem dispatch_collarRxAssert (s : State) : exec .collarRxAssert s = execCollarRxAssert s := rfl

theorem dispatch_switchover {rq v grant} (s : State) : exec (.switchover rq v grant) s = execSwitchover rq v grant s := rfl

theorem dispatch_vaultStreamReceive {src part c} (s : State) :
    exec (.vaultStreamReceive src part c) s = execVaultStreamReceive src part c s := rfl

theorem dispatch_odRead {rq idx sub} (s : State) : exec (.odRead rq idx sub) s = execOdRead rq idx sub s := rfl

theorem dispatch_odReadSegment {rq idx sub offset maxLen} (s : State) :
    exec (.odReadSegment rq idx sub offset maxLen) s = execOdReadSegment rq idx sub offset maxLen s := rfl

theorem dispatch_odWrite {rq idx sub v} (s : State) : exec (.odWrite rq idx sub v) s = execOdWrite rq idx sub v s := rfl

theorem dispatch_odWriteGrant {rq idx sub v grant} (s : State) :
    exec (.odWriteGrant rq idx sub v grant) s = execOdWriteGrant rq idx sub v grant s := rfl

theorem dispatch_odWriteSegment {rq idx sub offset total data} (s : State) :
    exec (.odWriteSegment rq idx sub offset total data) s = execOdWriteSegment rq idx sub offset total data s := rfl

theorem dispatch_odWriteSegmentGrant {rq idx sub offset total data grant} (s : State) :
    exec (.odWriteSegmentGrant rq idx sub offset total data grant) s = execOdWriteSegmentGrant rq idx sub offset total data grant s := rfl

theorem dispatch_segmentStagingTimeout {session} (s : State) :
    exec (.segmentStagingTimeout session) s = execSegmentStagingTimeout session s := rfl

theorem dispatch_sessionOpen {rq member point} (s : State) :
    exec (.sessionOpen rq member point) s = execSessionOpen rq member point s := rfl

theorem dispatch_sessionAuth {rq signature} (s : State) :
    exec (.sessionAuth rq signature) s = execSessionAuth rq signature s := rfl

theorem dispatch_sessionClose {rq} (s : State) : exec (.sessionClose rq) s = execSessionClose rq s := rfl

theorem dispatch_sessionIdleTimeout {session} (s : State) :
    exec (.sessionIdleTimeout session) s = execSessionIdleTimeout session s := rfl

theorem dispatch_mailboxGo {reqLen} (s : State) : exec (.mailboxGo reqLen) s = execMailboxGo reqLen s := rfl

theorem dispatch_mgmtDatagram {peer dst data} (s : State) :
    exec (.mgmtDatagram peer dst data) s = execMgmtDatagram peer dst data s := rfl

theorem dispatch_logFlush (s : State) : exec .logFlush s = execLogFlush s := rfl

theorem dispatch_sealCheck {rq seq} (s : State) : exec (.sealCheck rq seq) s = execSealCheck rq seq s := rfl

theorem dispatch_logClear {rq v grant} (s : State) : exec (.logClear rq v grant) s = execLogClear rq v grant s := rfl

theorem dispatch_auxiliaryPowerReturn (s : State) : exec .auxiliaryPowerReturn s = execAuxiliaryPowerReturn s := rfl

theorem dispatch_auxiliaryPowerLoss (s : State) : exec .auxiliaryPowerLoss s = execAuxiliaryPowerLoss s := rfl

theorem dispatch_collarRxDeassert (s : State) : exec .collarRxDeassert s = execCollarRxDeassert s := rfl

theorem dispatch_orphanSweepPassEnd {ms} (s : State) : exec (.orphanSweepPassEnd ms) s = execOrphanSweepPassEnd ms s := rfl

theorem dispatch_seamLinkFrameReceive {port linkAck credits wrap} (s : State) :
    exec (.seamLinkFrameReceive port linkAck credits wrap) s = execSeamLinkFrameReceive port linkAck credits wrap s := rfl

theorem dispatch_arbiterHeartbeatTimeout {pair member} (s : State) :
    exec (.arbiterHeartbeatTimeout pair member) s = execArbiterHeartbeatTimeout pair member s := rfl

theorem dispatch_resyncCopyReceive {cycle parts changes} (s : State) :
    exec (.resyncCopyReceive cycle parts changes) s = execResyncCopyReceive cycle parts changes s := rfl

end Sys2Proof.Machine
end

section
open Sys2Proof.Machine

/-! SUPPORT. Every command answers with a next state, and what no step takes back: the arms of the dispatch, each by the lemma of its
command. -/

namespace Sys2Proof.Machine

/-- Every command answers with a next state that goes onward from where it began (R34, R458). -/
theorem exec_onward (c : Instr) (s : State) : ∃ t, exec c s = .next t ∧ Onward s t :=
  match c with
  | .doorbell _ _ _ _ => execDoorbell_onward ..
  | .descriptorReadIssue _ => execDescriptorReadIssue_onward ..
  | .descriptorArrival _ _ => execDescriptorArrival_onward ..
  | .readFault _ _ => execReadFault_onward ..
  | .readTimeout _ _ => execReadTimeout_onward ..
  | .chainReservationTake _ => execChainReservationTake_onward ..
  | .keyBind _ => execKeyBind_onward ..
  | .keyCacheMissDone _ => execKeyCacheMissDone_onward ..
  | .reservationEntryFree _ => execReservationEntryFree_onward ..
  | .stepDispatch _ _ => execStepDispatch_onward ..
  | .seedPoolDrawServed => execSeedPoolDrawServed_onward ..
  | .skipperStepDone _ => execSkipperStepDone_onward ..
  | .hashStepDone _ => execHashStepDone_onward ..
  | .hawkmothOpDone _ _ => execHawkmothOpDone_onward ..
  | .plumeOpDone _ _ => execPlumeOpDone_onward ..
  | .engineSelfTestDone _ _ _ => execEngineSelfTestDone_onward ..
  | .engineAbortDone _ _ => execEngineAbortDone_onward ..
  | .commitCycleClose => execCommitCycleClose_onward ..
  | .journalPageClose => execJournalPageClose_onward ..
  | .journalPageProgrammed => execJournalPageProgrammed_onward ..
  | .commitCycleAck _ => execCommitCycleAck_onward ..
  | .commitCycleReceive _ => execCommitCycleReceive_onward ..
  | .cycleAckTimeout => execCycleAckTimeout_onward ..
  | .completionWrite _ => execCompletionWrite_onward ..
  | .nop _ => execNop_onward ..
  | .keyGenerate _ => execKeyGenerate_onward ..
  | .keyGeneratePair _ => execKeyGeneratePair_onward ..
  | .keyDerive _ => execKeyDerive_onward ..
  | .keyImportTr31 _ => execKeyImportTr31_onward ..
  | .keyImportWrap _ => execKeyImportWrap_onward ..
  | .keyExportTr31 _ => execKeyExportTr31_onward ..
  | .keyExportWrap _ => execKeyExportWrap_onward ..
  | .keyInvalidate _ => execKeyInvalidate_onward ..
  | .keyDestroy _ => execKeyDestroy_onward ..
  | .keyQuery _ => execKeyQuery_onward ..
  | .keyRestrict _ => execKeyRestrict_onward ..
  | .keyImportPublic _ => execKeyImportPublic_onward ..
  | .keyExportPublic _ => execKeyExportPublic_onward ..
  | .pinTranslate _ => execPinTranslate_onward ..
  | .pinVerifyOffset _ => execPinVerifyOffset_onward ..
  | .pinVerifyValue _ => execPinVerifyValue_onward ..
  | .pinGenerate _ => execPinGenerate_onward ..
  | .pinChange _ => execPinChange_onward ..
  | .macGenerate _ => execMacGenerate_onward ..
  | .macVerify _ => execMacVerify_onward ..
  | .macTranslate _ => execMacTranslate_onward ..
  | .cvvGenerate _ => execCvvGenerate_onward ..
  | .cvvVerify _ => execCvvVerify_onward ..
  | .dukptPinTranslate _ => execDukptPinTranslate_onward ..
  | .dukptMacGenerate _ => execDukptMacGenerate_onward ..
  | .dukptMacVerify _ => execDukptMacVerify_onward ..
  | .dukptData _ => execDukptData_onward ..
  | .dukptInitialKey _ => execDukptInitialKey_onward ..
  | .dukptOriginatePin _ => execDukptOriginatePin_onward ..
  | .dukptOriginateMac _ => execDukptOriginateMac_onward ..
  | .emvArqcVerify _ => execEmvArqcVerify_onward ..
  | .emvScriptMac _ => execEmvScriptMac_onward ..
  | .emvScriptEncrypt _ => execEmvScriptEncrypt_onward ..
  | .emvScriptPin _ => execEmvScriptPin_onward ..
  | .authoriseBundle _ => execAuthoriseBundle_onward ..
  | .ff1Tokenise _ => execFf1Tokenise_onward ..
  | .ff1Detokenise _ => execFf1Detokenise_onward ..
  | .bulkEncrypt _ => execBulkEncrypt_onward ..
  | .bulkDecrypt _ => execBulkDecrypt_onward ..
  | .sign _ => execSign_onward ..
  | .verify _ => execVerify_onward ..
  | .keyAgree _ => execKeyAgree_onward ..
  | .kemEncapsulate _ => execKemEncapsulate_onward ..
  | .kemDecapsulate _ => execKemDecapsulate_onward ..
  | .randomBytes _ => execRandomBytes_onward ..
  | .drbgReseed _ => execDrbgReseed_onward ..
  | .rawSessionOpen _ => execRawSessionOpen_onward ..
  | .rawSessionGranted _ => execRawSessionGranted_onward ..
  | .rawSessionClose _ => execRawSessionClose_onward ..
  | .rawLoad _ => execRawLoad_onward ..
  | .rawLoadKey _ => execRawLoadKey_onward ..
  | .rawRead _ => execRawRead_onward ..
  | .rawModadd _ => execRawModadd_onward ..
  | .rawModsub _ => execRawModsub_onward ..
  | .rawModmul _ => execRawModmul_onward ..
  | .rawModinv _ => execRawModinv_onward ..
  | .rawModexp _ => execRawModexp_onward ..
  | .rawAbort _ => execRawAbort_onward ..
  | .rawSessionIdleTimeout _ => execRawSessionIdleTimeout_onward ..
  | .orphanSweepFree _ => execOrphanSweepFree_onward ..
  | .dramPatrolScrub _ _ => execDramPatrolScrub_onward ..
  | .keyCacheScrub _ _ _ => execKeyCacheScrub_onward ..
  | .sensorCalibration _ => execSensorCalibration_onward ..
  | .telemetryRefresh _ _ _ _ _ => execTelemetryRefresh_onward ..
  | .recordRecoveryReply _ _ _ => execRecordRecoveryReply_onward ..
  | .perstAssert => execPerstAssert_onward ..
  | .perstDeassert => execPerstDeassert_onward ..
  | .hotReset => execHotReset_onward ..
  | .linkDownTimeout => execLinkDownTimeout_onward ..
  | .linkTrained _ _ _ => execLinkTrained_onward ..
  | .vfEnableSet _ => execVfEnableSet_onward ..
  | .vfEnableClear => execVfEnableClear_onward ..
  | .busMasterEnableClear _ => execBusMasterEnableClear_onward ..
  | .d3hotEntry _ => execD3hotEntry_onward ..
  | .d0Return _ => execD0Return_onward ..
  | .functionLevelReset _ => execFunctionLevelReset_onward ..
  | .disableBufferTimeout _ => execDisableBufferTimeout_onward ..
  | .disableAck _ => execDisableAck_onward ..
  | .functionWedged _ => execFunctionWedged_onward ..
  | .resetCold _ => execResetCold_onward ..
  | .resetWarm _ => execResetWarm_onward ..
  | .hifFnErrRead _ => execHifFnErrRead_onward ..
  | .registerWrite _ _ _ _ _ => execRegisterWrite_onward ..
  | .ideCheckFailed _ => execIdeCheckFailed_onward ..
  | .doeDiscovery _ => execDoeDiscovery_onward ..
  | .spdmGetCertificate _ _ _ => execSpdmGetCertificate_onward ..
  | .spdmChallenge _ _ => execSpdmChallenge_onward ..
  | .spdmGetMeasurements _ _ _ => execSpdmGetMeasurements_onward ..
  | .spdmKeyExchange _ _ => execSpdmKeyExchange_onward ..
  | .keyProg _ _ _ _ => execKeyProg_onward ..
  | .kSetGo _ _ _ => execKSetGo_onward ..
  | .kSetStop _ _ _ => execKSetStop_onward ..
  | .schedulingEpoch => execSchedulingEpoch_onward ..
  | .quotaWrite _ _ _ _ => execQuotaWrite_onward ..
  | .partitionFunctionWrite _ _ _ _ => execPartitionFunctionWrite_onward ..
  | .partitionEnableWrite _ _ _ _ => execPartitionEnableWrite_onward ..
  | .ringEnable _ => execRingEnable_onward ..
  | .ringDisable _ => execRingDisable_onward ..
  | .ringResume _ => execRingResume_onward ..
  | .ringSettle _ => execRingSettle_onward ..
  | .grpDigEnable _ _ _ => execGrpDigEnable_onward ..
  | .grpDigDisable _ => execGrpDigDisable_onward ..
  | .grpDigBaseRead _ => execGrpDigBaseRead_onward ..
  | .grpDigConsWrite _ _ => execGrpDigConsWrite_onward ..
  | .partitionCreate _ _ _ => execPartitionCreate_onward ..
  | .partitionDestroy _ _ _ => execPartitionDestroy_onward ..
  | .bindingMaskWrite _ _ _ _ => execBindingMaskWrite_onward ..
  | .manifestWrite _ _ _ => execManifestWrite_onward ..
  | .announcedMrWrite _ _ _ _ => execAnnouncedMrWrite_onward ..
  | .finalise _ _ => execFinalise_onward ..
  | .cancel _ _ => execCancel_onward ..
  | .quorumOpen _ _ _ _ _ => execQuorumOpen_onward ..
  | .quorumApprove _ _ _ _ => execQuorumApprove_onward ..
  | .cardApprove _ _ _ _ _ => execCardApprove_onward ..
  | .quorumRequestLapse _ => execQuorumRequestLapse_onward ..
  | .policyWrite _ _ _ _ _ => execPolicyWrite_onward ..
  | .memberWrite _ _ _ _ _ => execMemberWrite_onward ..
  | .componentStart _ _ _ _ _ => execComponentStart_onward ..
  | .componentLoad _ _ _ _ _ _ => execComponentLoad_onward ..
  | .componentLoadTimeout => execComponentLoadTimeout_onward ..
  | .tier0Destroy _ _ _ => execTier0Destroy_onward ..
  | .pinPolicyWrite _ _ _ _ => execPinPolicyWrite_onward ..
  | .decTableWrite _ _ _ _ _ => execDecTableWrite_onward ..
  | .atcCapacityWrite _ _ _ _ => execAtcCapacityWrite_onward ..
  | .atcWindowWrite _ _ _ _ => execAtcWindowWrite_onward ..
  | .looperKdFormation => execLooperKdFormation_onward ..
  | .looperIdentitySeal => execLooperIdentitySeal_onward ..
  | .looperIdentityUnseal => execLooperIdentityUnseal_onward ..
  | .looperRecordKeyFormation => execLooperRecordKeyFormation_onward ..
  | .looperNandKeyFormation => execLooperNandKeyFormation_onward ..
  | .looperRecordSeal _ => execLooperRecordSeal_onward ..
  | .looperRefused _ => execLooperRefused_onward ..
  | .looperBlockDone => execLooperBlockDone_onward ..
  | .entropyBlockRelease => execEntropyBlockRelease_onward ..
  | .warmupEnd => execWarmupEnd_onward ..
  | .entropyReady => execEntropyReady_onward ..
  | .conditionerBlockOut _ => execConditionerBlockOut_onward ..
  | .entropyBlockArrival => execEntropyBlockArrival_onward ..
  | .entropyHealthFail _ _ => execEntropyHealthFail_onward ..
  | .entropyTransportFault => execEntropyTransportFault_onward ..
  | .entropyBlockTimeout => execEntropyBlockTimeout_onward ..
  | .laneGeneratorRekey _ => execLaneGeneratorRekey_onward ..
  | .laneGeneratorStall _ => execLaneGeneratorStall_onward ..
  | .engineGeneratorRekey _ => execEngineGeneratorRekey_onward ..
  | .engineGeneratorStall _ => execEngineGeneratorStall_onward ..
  | .drbgInstantiate _ => execDrbgInstantiate_onward ..
  | .drbgReseedInterval _ => execDrbgReseedInterval_onward ..
  | .drbgReseedCount _ => execDrbgReseedCount_onward ..
  | .drbgStagingRefill _ => execDrbgStagingRefill_onward ..
  | .drbgTokenGrant _ => execDrbgTokenGrant_onward ..
  | .tapCtlWrite _ _ _ => execTapCtlWrite_onward ..
  | .holdoffWindowClose _ => execHoldoffWindowClose_onward ..
  | .msixCommit _ => execMsixCommit_onward ..
  | .vectorControlWrite _ _ _ => execVectorControlWrite_onward ..
  | .functionMaskWrite _ _ => execFunctionMaskWrite_onward ..
  | .vectorControlRead _ _ => execVectorControlRead_onward ..
  | .messageControlRead _ => execMessageControlRead_onward ..
  | .eicSrcPendW1c _ _ _ => execEicSrcPendW1c_onward ..
  | .eicHoldWrite _ _ => execEicHoldWrite_onward ..
  | .eicGlobalHoldWrite _ => execEicGlobalHoldWrite_onward ..
  | .eicMapWrite _ _ _ => execEicMapWrite_onward ..
  | .coreHandlerEntry _ => execCoreHandlerEntry_onward ..
  | .coreClaimRead _ => execCoreClaimRead_onward ..
  | .coreCompletionWrite _ _ => execCoreCompletionWrite_onward ..
  | .coreHandlerReturn _ => execCoreHandlerReturn_onward ..
  | .coreWatchdogRestart _ => execCoreWatchdogRestart_onward ..
  | .coreWatchdogStage1 _ => execCoreWatchdogStage1_onward ..
  | .coreWatchdogStage2 _ => execCoreWatchdogStage2_onward ..
  | .wakeLatch _ => execWakeLatch_onward ..
  | .wakeTimer => execWakeTimer_onward ..
  | .wakeListWrite _ _ _ => execWakeListWrite_onward ..
  | .wakeTimerSWrite _ _ => execWakeTimerSWrite_onward ..
  | .idleEntry => execIdleEntry_onward ..
  | .idleExit _ => execIdleExit_onward ..
  | .mantleChannelAlarm _ _ => execMantleChannelAlarm_onward ..
  | .enclosureLoopAlarm _ _ => execEnclosureLoopAlarm_onward ..
  | .caseSwitchAlarm _ _ => execCaseSwitchAlarm_onward ..
  | .lightAlarm _ _ => execLightAlarm_onward ..
  | .railAlarm _ _ => execRailAlarm_onward ..
  | .tempAlarm _ _ => execTempAlarm_onward ..
  | .clockFreq _ _ => execClockFreq_onward ..
  | .clockGlitch _ _ => execClockGlitch_onward ..
  | .xtalStop => execXtalStop_onward ..
  | .fsmCodewordInvalid _ _ => execFsmCodewordInvalid_onward ..
  | .bridgeFault _ => execBridgeFault_onward ..
  | .mainDieResponse => execMainDieResponse_onward ..
  | .sleeveRemoval => execSleeveRemoval_onward ..
  | .sleeveInsertion _ _ _ _ => execSleeveInsertion_onward ..
  | .sleeveReleaseWrite _ _ => execSleeveReleaseWrite_onward ..
  | .sleeveReleaseTimeout => execSleeveReleaseTimeout_onward ..
  | .sleeveLifeAccounting _ _ => execSleeveLifeAccounting_onward ..
  | .unlock _ _ _ _ => execUnlock_onward ..
  | .unlockReset => execUnlockReset_onward ..
  | .tamperClassWrite _ _ _ _ => execTamperClassWrite_onward ..
  | .loopModeWrite _ _ _ _ _ _ => execLoopModeWrite_onward ..
  | .loopWindowWrite _ _ _ _ _ _ => execLoopWindowWrite_onward ..
  | .holdupExhausted => execHoldupExhausted_onward ..
  | .targetWrite _ _ _ => execTargetWrite_onward ..
  | .authCertWrite _ _ => execAuthCertWrite_onward ..
  | .lcTransitionReset => execLcTransitionReset_onward ..
  | .commissionTokenWrite _ _ => execCommissionTokenWrite_onward ..
  | .identityGenerate _ => execIdentityGenerate_onward ..
  | .certInstall _ _ => execCertInstall_onward ..
  | .attestNonceWrite _ _ => execAttestNonceWrite_onward ..
  | .debugSessionExpiry => execDebugSessionExpiry_onward ..
  | .debugClose _ _ => execDebugClose_onward ..
  | .observeOpen _ _ _ => execObserveOpen_onward ..
  | .debugChallengeRefresh => execDebugChallengeRefresh_onward ..
  | .mainPowerGood _ => execMainPowerGood_onward ..
  | .coldMainReset => execColdMainReset_onward ..
  | .warmMainReset => execWarmMainReset_onward ..
  | .stopPoint1 => execStopPoint1_onward ..
  | .keyStoreLoaded => execKeyStoreLoaded_onward ..
  | .serviceReady => execServiceReady_onward ..
  | .pfail => execPfail_onward ..
  | .pfailFlushEnd _ => execPfailFlushEnd_onward ..
  | .powerRequest _ _ => execPowerRequest_onward ..
  | .resetRequest _ _ _ => execResetRequest_onward ..
  | .seamResetCommand _ _ _ => execSeamResetCommand_onward ..
  | .orderlyResetEffect => execOrderlyResetEffect_onward ..
  | .cocoonReset _ _ _ _ => execCocoonReset_onward ..
  | .blockReset _ _ _ => execBlockReset_onward ..
  | .blockResetDone _ => execBlockResetDone_onward ..
  | .seamLinkUp _ _ _ _ _ _ _ _ _ => execSeamLinkUp_onward ..
  | .seamLinkDown _ => execSeamLinkDown_onward ..
  | .seamFrameRefused _ _ => execSeamFrameRefused_onward ..
  | .seamFrameRelay _ _ _ _ _ _ _ _ => execSeamFrameRelay_onward ..
  | .keepAliveSend _ => execKeepAliveSend_onward ..
  | .seamResendTimeout _ => execSeamResendTimeout_onward ..
  | .seamLinkRekey _ => execSeamLinkRekey_onward ..
  | .linkDelayMeasure _ _ => execLinkDelayMeasure_onward ..
  | .syncBroadcast => execSyncBroadcast_onward ..
  | .syncReceive _ _ _ => execSyncReceive_onward ..
  | .timeSyncClear => execTimeSyncClear_onward ..
  | .driftBoundExceeded => execDriftBoundExceeded_onward ..
  | .clusterTimeWrite _ _ _ => execClusterTimeWrite_onward ..
  | .masterElection => execMasterElection_onward ..
  | .configWrite _ _ _ _ _ => execConfigWrite_onward ..
  | .configChangeReceive _ _ => execConfigChangeReceive_onward ..
  | .configPull _ => execConfigPull_onward ..
  | .configPullDone _ _ _ => execConfigPullDone_onward ..
  | .decisionWrite _ _ _ => execDecisionWrite_onward ..
  | .mgmtFrameReceive _ _ => execMgmtFrameReceive_onward ..
  | .heartbeatSend => execHeartbeatSend_onward ..
  | .heartbeatReceive _ => execHeartbeatReceive_onward ..
  | .tokenRecordReceive _ => execTokenRecordReceive_onward ..
  | .tokenLoss => execTokenLoss_onward ..
  | .arbOpen _ _ _ => execArbOpen_onward ..
  | .arbSessionTimeout => execArbSessionTimeout_onward ..
  | .resyncRequest => execResyncRequest_onward ..
  | .collarClaim => execCollarClaim_onward ..
  | .claimWindowEnd => execClaimWindowEnd_onward ..
  | .collarRxAssert => execCollarRxAssert_onward ..
  | .switchover _ _ _ => execSwitchover_onward ..
  | .vaultStreamReceive _ _ _ => execVaultStreamReceive_onward ..
  | .odRead _ _ _ => execOdRead_onward ..
  | .odReadSegment _ _ _ _ _ => execOdReadSegment_onward ..
  | .odWrite _ _ _ _ => execOdWrite_onward ..
  | .odWriteGrant _ _ _ _ _ => execOdWriteGrant_onward ..
  | .odWriteSegment _ _ _ _ _ _ => execOdWriteSegment_onward ..
  | .odWriteSegmentGrant _ _ _ _ _ _ _ => execOdWriteSegmentGrant_onward ..
  | .segmentStagingTimeout _ => execSegmentStagingTimeout_onward ..
  | .sessionOpen _ _ _ => execSessionOpen_onward ..
  | .sessionAuth _ _ => execSessionAuth_onward ..
  | .sessionClose _ => execSessionClose_onward ..
  | .sessionIdleTimeout _ => execSessionIdleTimeout_onward ..
  | .mailboxGo _ => execMailboxGo_onward ..
  | .mgmtDatagram _ _ _ => execMgmtDatagram_onward ..
  | .logFlush => execLogFlush_onward ..
  | .sealCheck _ _ => execSealCheck_onward ..
  | .logClear _ _ _ => execLogClear_onward ..
  | .auxiliaryPowerReturn => execAuxiliaryPowerReturn_onward ..
  | .auxiliaryPowerLoss => execAuxiliaryPowerLoss_onward ..
  | .hostLinkDown => execHostLinkDown_onward ..
  | .custodianCard _ _ => execCustodianCard_onward ..
  | .mgmtLinkChange _ => execMgmtLinkChange_onward ..
  | .collarRxDeassert => execCollarRxDeassert_onward ..
  | .orphanSweepPassEnd _ => execOrphanSweepPassEnd_onward ..
  | .bufferReadCompletion _ _ => execBufferReadCompletion_onward ..
  | .seamLinkFrameReceive _ _ _ _ => execSeamLinkFrameReceive_onward ..
  | .arbiterHeartbeatTimeout _ _ => execArbiterHeartbeatTimeout_onward ..
  | .resyncCopyReceive _ _ _ => execResyncCopyReceive_onward ..

theorem step_idle {s : State} (h : s.pending = []) : step s = .next (idleStep s) := by rw [step, h]

theorem step_front {c : Instr} {r : List Instr} {s : State} (h : s.pending = c :: r) :
    step s = exec c { s with pending := r } := by rw [step, h]

/-- A step runs the front command on the queue's rest, or passes a microsecond, and goes onward from there. -/
theorem step_onward {s t : State} (h : step s = .next t) : Onward { s with pending := s.pending.tail } t := by
  rcases hq : s.pending with _ | ⟨c, r⟩
  · rw [step_idle hq] at h
    obtain rfl := Host.Outcome.next.inj h
    have hs : { s with pending := [] } = s := by rw [← hq]
    rw [List.tail_nil, hs]
    exact idleStep_onward s
  · rw [step_front hq] at h
    obtain ⟨u, hu, ho⟩ := exec_onward c { s with pending := r }
    obtain rfl := Host.Outcome.next.inj (hu.symm.trans h)
    exact ho

end Sys2Proof.Machine

/-- Settles O59: programmed OTP bits stay programmed and the tables stay canonical over every step. -/
theorem stepKeepsInv : Obligations.StepKeepsInv := by
  unfold Obligations.StepKeepsInv
  rintro s t ⟨hotp, htab⟩ hstep
  have ho := step_onward hstep
  exact ⟨fun k b hb => ho.otp k b (hotp k b hb), ho.tables htab⟩

/-- Settles O60: a step goes onward from the state whose queue has lost its front. -/
theorem stepTakesNothingBack : Obligations.StepTakesNothingBack := by
  unfold Obligations.StepTakesNothingBack
  intro s t hstep
  have ho := step_onward hstep
  exact ⟨ho.otp, ho.fresh, ho.queue⟩

/-- Settles O55: the queue's front runs on its rest, and every command goes onward. -/
theorem stepRunsFront : Obligations.StepRunsFront := by
  unfold Obligations.StepRunsFront
  refine ⟨fun c r s h => step_front h, fun c s => ?_⟩
  obtain ⟨t, ht, -⟩ := exec_onward c s
  exact ⟨t, ht⟩
/-- Settles O58: at reset the OTP holds what shipping programmed, and the tables are empty. -/
theorem resetMeetsInv : Obligations.ResetMeetsInv := by
  unfold Obligations.ResetMeetsInv
  exact ⟨fun _ _ h => h, ⟨rfl, rfl⟩, rfl, rfl, rfl⟩

/-- Settles O57: at reset every table is empty, so each look-up gives its default. -/
theorem resetValues : Obligations.ResetValues := by
  unfold Obligations.ResetValues
  refine ⟨fun _ => rfl, rfl, rfl, rfl, rfl, rfl, rfl, rfl, rfl, rfl, rfl, rfl, rfl, fun n hn => ?_, fun _ _ => rfl⟩
  exact State.fnExists_vf_of_clear rfl hn
end

section
open Sys2Proof.Machine

/-! SUPPORT. What the operand bank of an engine reads after a write, and what the two MAC opcodes compare. -/

namespace Sys2Proof.Machine

/-- After a write each word it covers holds its 64 bits of the integer under the tag, and every other word is as before (R343). -/
theorem Engine.word_put (g : Engine) (o n v : Nat) (tag : Bool) (k : Nat) :
    (g.put o n v tag).word k = if o ≤ k ∧ k < o + n then ⟨v / 2 ^ (64 * (k - o)) % 2 ^ 64, tag⟩ else g.word k := by
  induction n with
  | zero => rw [if_neg (by omega)]; rfl
  | succ n ih =>
    simp only [Engine.put, Engine.word] at ih ⊢
    rw [List.range_succ, List.foldl_append, List.foldl_cons, List.foldl_nil, tgetD_cset, ih]
    by_cases hk : k = o + n
    · subst hk
      rw [if_pos rfl, if_pos (by omega), Nat.add_sub_cancel_left]
    · rw [if_neg hk]
      exact if_congr (by omega) rfl rfl

/-- The 64-bit words of an integer, put together again, give it modulo their width. -/
theorem foldr_words (n v : Nat) :
    (List.range n).foldr (fun i a => v / 2 ^ (64 * i) % 2 ^ 64 + 2 ^ 64 * a) 0 = v % 2 ^ (64 * n) := by
  induction n generalizing v with
  | zero => simp [Nat.mod_one]
  | succ n ih =>
    have hdiv : ∀ i, v / 2 ^ (64 * (i + 1)) = v / 2 ^ 64 / 2 ^ (64 * i) := fun i => by
      rw [Nat.div_div_eq_div_mul, ← Nat.pow_add, Nat.mul_succ, Nat.add_comm]
    rw [List.range_succ_eq_map, List.foldr_cons, List.foldr_map]
    simp only [hdiv, ih, Nat.mul_zero, Nat.pow_zero, Nat.div_one]
    rw [Nat.mul_succ, Nat.add_comm (64 * n), Nat.pow_add, Nat.mod_mul]

/-- An integer written over words reads back modulo their width (R339). -/
theorem Engine.value_put (g : Engine) (o n v : Nat) (tag : Bool) : (g.put o n v tag).value o n = v % 2 ^ (64 * n) := by
  rw [← foldr_words n v, Engine.value]
  refine List.foldr_ext _ _ _ fun i hi a => ?_
  rw [Engine.word_put, if_pos ⟨Nat.le_add_right _ _, Nat.add_lt_add_left (List.mem_range.1 hi) o⟩, Nat.add_sub_cancel_left]

/-- The words an integer was written over carry its tag (R343). -/
theorem Engine.tagged_put (g : Engine) (o n v : Nat) (tag : Bool) : (g.put o n v tag).tagged o n = (tag && decide (n ≠ 0)) := by
  have hword : ∀ i ∈ List.range n, ((g.put o n v tag).word (o + i)).tag = tag := fun i hi => by
    rw [Engine.word_put, if_pos ⟨Nat.le_add_right _ _, Nat.add_lt_add_left (List.mem_range.1 hi) o⟩]
  rw [Bool.eq_iff_iff, Engine.tagged, List.any_eq_true, Bool.and_eq_true, decide_eq_true_eq]
  constructor
  · rintro ⟨i, hi, ht⟩
    exact ⟨(hword i hi).symm.trans ht, Nat.ne_of_gt (Nat.zero_lt_of_lt (List.mem_range.1 hi))⟩
  · rintro ⟨ht, hn⟩
    have h0 : 0 ∈ List.range n := List.mem_range.2 (Nat.pos_of_ne_zero hn)
    exact ⟨0, h0, (hword 0 h0).trans ht⟩

/-- Writing an integer keeps the bank's canonical form. -/
theorem Engine.cwf_put (g : Engine) (o n v : Nat) (tag : Bool) (h : cwf ⟨0, false⟩ g.bank = true) :
    cwf ⟨0, false⟩ (g.put o n v tag).bank = true :=
  List.foldlRecOn (motive := fun b => cwf (⟨0, false⟩ : BankWord) b = true) (List.range n) _ h (fun _ hb _ _ => cwf_cset _ _ _ _ hb)

@[simp] theorem Out.verdict_status (ok : Bool) : (Out.verdict ok).status = .ok ↔ ok = true := by
  cases ok <;> simp [Out.verdict, Out.fail]

end Sys2Proof.Machine

/-- Settles O14: both opcodes compute the same MAC, and MAC_VERIFY compares it with the one at byte 32. -/
theorem macVerifyMatchesGenerate : Obligations.MacVerifyMatchesGenerate := by
  unfold Obligations.MacVerifyMatchesGenerate
  intro s t x
  rw [macVerifyOut, Out.verdict_status, macMatches, beq_iff_eq, macGenerateOut, Out.inl, Option.some.injEq]

/-- Settles O15: what a word reads after a write says all four. -/
theorem bankHoldsIntegers : Obligations.BankHoldsIntegers := by
  unfold Obligations.BankHoldsIntegers
  intro g o n v tag
  refine ⟨Engine.value_put g o n v tag, Engine.tagged_put g o n v tag, fun k hk => ?_, Engine.cwf_put g o n v tag⟩
  rw [Engine.word_put, if_neg (by omega)]
end

section
open Sys2Proof.Machine

/-! SUPPORT. How an opcode's outcome is settled: the slots, the commit queue and what stands beside them (R35, R110, R117, R118). -/

namespace Sys2Proof.Machine

/-! ### Members of a table -/

theorem mem_of_tget {α : Type} {t : Tab α} {k : Nat} {v : α} (h : tget t k = some v) : (k, v) ∈ t := by
  induction t with
  | nil => cases h
  | cons e r ih =>
    obtain ⟨a, x⟩ := e
    simp only [tget] at h
    split at h
    · cases h; subst a; exact List.mem_cons_self
    · exact List.mem_cons_of_mem _ (ih h)

/-- A canonical table lists each key once, so a member is what its key reads. -/
theorem tget_of_mem {α : Type} {t : Tab α} {k : Nat} {v : α} (hs : tsorted t = true) (h : (k, v) ∈ t) : tget t k = some v := by
  rw [tsorted_iff] at hs
  induction t with
  | nil => cases h
  | cons e r ih =>
    obtain ⟨a, x⟩ := e
    simp only [tkeys, List.map_cons, List.pairwise_cons] at hs
    simp only [tget]
    rcases List.mem_cons.1 h with h | h
    · cases h; exact if_pos rfl
    · have hlt : a < k := hs.1 k (List.mem_map.2 ⟨(k, v), h, rfl⟩)
      rw [if_neg (Nat.ne_of_lt hlt)]
      exact ih hs.2 h

theorem mem_chainSlots {s : State} {rid first : Nat} {e : Nat × Slot} :
    e ∈ chainSlots s rid first ↔ e ∈ s.adm.slots ∧ e.2.rid = rid ∧ e.2.chain = some first := by
  simp only [chainSlots, State.ringSlots, List.mem_mergeSort, List.mem_filter, beq_iff_eq]
  tauto

/-! ### Stages set over a list of slots -/

/-- A descriptor at another stage. -/
def Slot.setStage (x : Slot) (st : Stage) : Slot := { x with stage := st }

/-- Setting the stage of every slot of a list sets theirs and no other. -/
theorem foldl_stage_slot (st : Stage) (l : List Nat) (s : State) (m : Nat) :
    (l.foldl (fun t n => t.modSlot n (fun x => x.setStage st)) s).slot m =
      if m ∈ l then (s.slot m).map (fun x => x.setStage st) else s.slot m := by
  induction l generalizing s with
  | nil => rfl
  | cons a l ih =>
    rw [List.foldl_cons, ih, State.modSlot_slot]
    by_cases ha : m = a
    · subst a
      cases s.slot m <;> simp [Slot.setStage]
    · simp [ha]

theorem foldl_stage_adm (st : Stage) (l : List Nat) (s : State) :
    ∃ a, l.foldl (fun t n => t.modSlot n (fun x => x.setStage st)) s = { s with adm := a } := by
  refine foldl_rel (P := fun s t => ∃ a, t = { s with adm := a }) (fun s => ⟨s.adm, rfl⟩) ?_ _ (fun t n => ?_) l s
  · rintro _ _ _ ⟨_, rfl⟩ ⟨_, rfl⟩
    exact ⟨_, rfl⟩
  · unfold State.modSlot
    split
    · exact ⟨t.adm, rfl⟩
    · exact ⟨_, rfl⟩

/-! ### Concluding -/

/-- The stage in which `conclude` leaves a list of descriptors. -/
def concludedStage (l : Tab Slot) : Stage := if l.all (fun e => e.2.changes.isEmpty) then .done else .commitWait

/-- The commit state in which `conclude` leaves the module. -/
def concludedCommit (s : State) (l : Tab Slot) : Commit :=
  if l.all (fun e => e.2.changes.isEmpty) then s.commit else { s.commit with queue := s.commit.queue ++ [commitItem s l] }

theorem conclude_eq (s : State) (l : Tab Slot) :
    conclude s l = (tkeys l).foldl (fun t n => t.modSlot n (fun x => x.setStage (concludedStage l)))
      { s with commit := concludedCommit s l } := by
  unfold conclude concludedStage concludedCommit
  split
  · rw [tkeys, List.foldl_map]; rfl
  · rfl

theorem conclude_slot (s : State) (l : Tab Slot) (m : Nat) :
    (conclude s l).slot m = if m ∈ tkeys l then (s.slot m).map (fun x => x.setStage (concludedStage l)) else s.slot m := by
  rw [conclude_eq, foldl_stage_slot]
  rfl

theorem conclude_only (s : State) (l : Tab Slot) : ∃ a, conclude s l = { s with adm := a, commit := concludedCommit s l } := by
  rw [conclude_eq]
  exact foldl_stage_adm _ _ _

/-! ### A result -/

/-- A descriptor with its outcome (R110). -/
def Slot.withResult (y : Slot) (o : Out) : Slot :=
  { y with stage := .ran, unit := none, steps := [], changes := o.changes, handle := o.handle,
           res := some ⟨o.status, o.detail, if o.status = .ok ∨ o.inline_.isSome then o.len else 0, o.inline_, o.dst, y.time24 / 24, 0⟩ }

theorem setResult_slot (s : State) (n m : Nat) (o : Out) :
    (setResult s n o).slot m = if m = n then (s.slot n).map (Slot.withResult · o) else s.slot m := State.modSlot_slot s n m _

theorem setResult_only (s : State) (n : Nat) (o : Out) : ∃ a, setResult s n o = { s with adm := a } := by
  unfold setResult State.modSlot
  split
  · exact ⟨s.adm, rfl⟩
  · exact ⟨_, rfl⟩

theorem Slot.withResult_carries (y : Slot) (o : Out) (st : Stage) : Carries o ((y.withResult o).setStage st) :=
  ⟨_, rfl, rfl, rfl, rfl, rfl, fun h => if_pos (Or.inl h)⟩

/-! ### A failing chain -/

/-- Two states that differ at most in the descriptors in flight and the units. -/
def ChainOnly (s t : State) : Prop := ∃ a u, t = { s with adm := a, units := u }

theorem ChainOnly.refl (s : State) : ChainOnly s s := ⟨_, _, rfl⟩

theorem ChainOnly.trans {a b c : State} (h : ChainOnly a b) (h' : ChainOnly b c) : ChainOnly a c := by
  obtain ⟨_, _, rfl⟩ := h
  obtain ⟨_, _, rfl⟩ := h'
  exact ⟨_, _, rfl⟩

theorem ChainOnly.modSlot (s : State) (n : Nat) (f : Slot → Slot) : ChainOnly s (s.modSlot n f) := by
  unfold State.modSlot
  split <;> exact ⟨_, _, rfl⟩

theorem ChainOnly.endEntry (s : State) (n : Nat) (x : Slot) (st : Status) : ChainOnly s (endEntry s n x st) := by
  unfold Machine.endEntry
  split
  · exact .modSlot s n _
  · exact .modSlot s n _

/-- Of a chain that fails one entry ends, or stays as it is; a raw session it opened is closed (R118, R336). -/
def failEntry (n : Nat) (t : State) (e : Nat × Slot) : State :=
  let u := if opcode e.2.desc == 0x901 && t.holdsSession e.2 then closeEngine t (e.2.sess % 256) else t
  if e.1 = n ∨ e.2.stage = .reading then u else endEntry u e.1 e.2 .chainAborted

theorem failChain_eq {s : State} {n first : Nat} {x : Slot} (hx : s.slot n = some x) (hc : x.chain = some first) :
    failChain s n = (chainSlots s x.rid first).foldl (failEntry n) s := by
  unfold failChain
  simp only [hx, hc]
  rfl

theorem failEntry_slot (n : Nat) (t : State) (e : Nat × Slot) {m : Nat} (h : m = n ∨ e.1 ≠ m) :
    (failEntry n t e).slot m = t.slot m := by
  unfold failEntry
  extract_lets u
  have hu : u.slot m = t.slot m := by
    simp only [u]
    split <;> rfl
  split
  · exact hu
  · rename_i hne
    have hm : m ≠ e.1 := by
      rintro rfl
      rcases h with h | h
      · exact hne (Or.inl h)
      · exact h rfl
    unfold endEntry finish
    split <;> rw [State.modSlot_slot, if_neg hm, hu]

theorem ChainOnly.failEntry (n : Nat) (t : State) (e : Nat × Slot) : ChainOnly t (failEntry n t e) := by
  unfold Machine.failEntry
  extract_lets u
  have hu : ChainOnly t u := by
    simp only [u]
    split
    · exact ⟨_, _, rfl⟩
    · exact .refl t
  split
  · exact hu
  · exact hu.trans (.endEntry u _ _ _)

theorem ChainOnly.failChain (s : State) (n : Nat) : ChainOnly s (failChain s n) := by
  rcases hx : s.slot n with _ | x
  · simp only [Machine.failChain, hx]; exact .refl s
  · rcases hc : x.chain with _ | first
    · simp only [Machine.failChain, hx, hc]; exact .refl s
    · rw [failChain_eq hx hc]
      exact foldl_rel ChainOnly.refl (fun _ _ _ => ChainOnly.trans) _ (ChainOnly.failEntry n) _ s

/-- A failing chain leaves the failing descriptor, and every descriptor outside the chain, as it was. -/
theorem failChain_slot {s : State} {n m : Nat} {x : Slot} (hs : tsorted s.adm.slots = true) (hx : s.slot n = some x)
    (h : m = n ∨ x.chain = none ∨ ∀ z, s.slot m = some z → z.rid ≠ x.rid ∨ z.chain ≠ x.chain) :
    (failChain s n).slot m = s.slot m := by
  rcases hc : x.chain with _ | first
  · simp only [failChain, hx, hc]
  · rw [failChain_eq hx hc]
    refine List.foldlRecOn (motive := fun t : State => t.slot m = s.slot m) _ _ rfl fun t ht e he => ?_
    rw [← ht]
    refine failEntry_slot n t e ?_
    obtain ⟨hmem, hrid, hch⟩ := mem_chainSlots.1 he
    rcases h with h | h | h
    · exact Or.inl h
    · rw [hc] at h; cases h
    · refine Or.inr fun hm => ?_
      rcases h e.2 (by rw [← hm]; exact tget_of_mem hs hmem) with h | h
      · exact h hrid
      · exact h (hch.trans hc.symm)

/-! ### Settling -/

theorem slotsNow_single {s : State} {n : Nat} {y : Slot} (h : s.slot n = some y) : s.slotsNow [n] = [(n, y)] := by
  simp [State.slotsNow, h]

theorem mem_tkeys_slotsNow {s : State} {l : List Nat} {m : Nat} : m ∈ tkeys (s.slotsNow l) ↔ m ∈ l ∧ (s.slot m).isSome := by
  simp only [tkeys, State.slotsNow, List.mem_map, List.mem_filterMap, Option.map_eq_some_iff, Option.isSome_iff_exists]
  constructor
  · rintro ⟨e, ⟨k, hk, x, hx, rfl⟩, rfl⟩
    exact ⟨hk, x, hx⟩
  · rintro ⟨hm, x, hx⟩
    exact ⟨(m, x), ⟨m, hm, x, hx, rfl⟩, rfl⟩

/-- The state in which `settleAlone` leaves a descriptor, where the commit queue has room for what it changed. -/
theorem settleAlone_eq {s0 s : State} {n : Nat} {y : Slot} {o : Out} (hy : s.slot n = some y)
    (hroom : o.changes = [] ∨ commitRoom s0 = true) :
    settleAlone s0 s n o = conclude (setResult s n o) [(n, y.withResult o)] := by
  have hfull : (!o.changes.isEmpty && !commitRoom s0) = false := by
    rcases hroom with h | h <;> simp [h]
  have hn : (setResult s n o).slot n = some (y.withResult o) := by rw [setResult_slot, if_pos rfl, hy]; rfl
  unfold settleAlone
  rw [if_neg (by simp [hfull])]
  dsimp only
  rw [slotsNow_single hn]

theorem settleAlone_full {s0 s : State} {n : Nat} {o : Out} (hc : o.changes ≠ []) (hroom : commitRoom s0 = false) :
    settleAlone s0 s n o = s0 := by
  unfold settleAlone
  rw [if_pos (by simp [hc, hroom])]

theorem concludedStage_single (n : Nat) (y : Slot) (o : Out) :
    concludedStage [(n, y.withResult o)] = if o.changes = [] then .done else .commitWait := by
  simp [concludedStage, Slot.withResult]

theorem settleAlone_slot {s0 s : State} {n : Nat} {y : Slot} {o : Out} (hy : s.slot n = some y)
    (hroom : o.changes = [] ∨ commitRoom s0 = true) (m : Nat) :
    (settleAlone s0 s n o).slot m =
      if m = n then some ((y.withResult o).setStage (if o.changes = [] then .done else .commitWait)) else s.slot m := by
  rw [settleAlone_eq hy hroom, conclude_slot, concludedStage_single, setResult_slot]
  by_cases hm : m = n
  · simp [hm, tkeys, hy]
  · simp [hm, tkeys]

/-- What settling alone changes: the descriptor, and the commit queue where it changed something (R35). -/
theorem settleAlone_only {s0 s : State} {n : Nat} {y : Slot} {o : Out} (hy : s.slot n = some y)
    (hroom : o.changes = [] ∨ commitRoom s0 = true) :
    ∃ a, settleAlone s0 s n o = { s with
      adm := a
      commit := if o.changes = [] then s.commit
        else { s.commit with queue := s.commit.queue ++ [commitItem (setResult s n o) [(n, y.withResult o)]] } } := by
  rw [settleAlone_eq hy hroom]
  obtain ⟨a, ha⟩ := conclude_only (setResult s n o) [(n, y.withResult o)]
  obtain ⟨b, hb⟩ := setResult_only s n o
  have hc : (setResult s n o).commit = s.commit := by rw [hb]
  have hall : (([(n, y.withResult o)] : Tab Slot).all fun e => e.2.changes.isEmpty) = decide (o.changes = []) := by
    cases h : o.changes <;> simp [Slot.withResult, h]
  rw [concludedCommit, hall, hc] at ha
  refine ⟨a, ?_⟩
  rw [ha, hb]
  simp only [decide_eq_true_eq]

/-- The commit queue has room where settling puts an item there (R36). -/
structure Fits (o : Out) (x : Slot) (s : State) : Prop where
  alone : x.chain = none ∨ o.status ≠ .ok → o.changes = [] ∨ commitRoom s = true
  whole : x.chain.isSome = true → o.status = .ok → x.chainEnd = true → commitRoom s = true

theorem HasRoom.fits {o : Out} {x : Slot} {s : State} (h : HasRoom o x s) : Fits o x s := by
  refine ⟨fun _ => h.imp And.left id, fun hc hok hend => ?_⟩
  rcases h with ⟨-, h | h | h⟩ | h
  · rw [h] at hc; cases hc
  · rw [hend] at h; cases h
  · exact absurd hok h
  · exact h

/-- A due descriptor whose outcome is settled carries it, and no descriptor outside its chain is touched (R35, R110, R117, R118). -/
theorem settle_settles {s0 s : State} {n : Nat} {x y : Slot} {o : Out} (hs : tsorted s.adm.slots = true) (hy : s.slot n = some y)
    (hrid : y.rid = x.rid) (hchain : y.chain = x.chain) (hroom : Fits o x s0) : Settles o n x s (settle s0 s n x o) := by
  unfold settle
  rcases hc : x.chain with _ | first
  · have hr := hroom.alone (Or.inl hc)
    have hslot := settleAlone_slot hy hr
    refine ⟨⟨(y.withResult o).setStage (if o.changes = [] then .done else .commitWait), by rw [hslot, if_pos rfl], y.withResult_carries o _, fun _ => rfl, ?_, ?_⟩, fun m z hm hz _ => ?_⟩
    · intro h; rw [hc] at h; cases h
    · intro h; rw [hc] at h; cases h
    · rw [hslot, if_neg hm, hz]
  · simp only [settleChained]
    by_cases hok : o.status = .ok
    · rw [if_neg (not_not.2 hok)]
      have hn : (setResult s n o).slot n = some (y.withResult o) := by rw [setResult_slot, if_pos rfl, hy]; rfl
      have hkeep : ∀ m, m ≠ n → (setResult s n o).slot m = s.slot m := fun m hm => by rw [setResult_slot, if_neg hm]
      rcases hend : x.chainEnd with _ | _
      · rw [if_pos (by rfl)]
        refine ⟨⟨_, hn, y.withResult_carries o .ran, ?_, fun _ _ _ => ⟨rfl, rfl⟩, ?_⟩, fun m z hm hz _ => ?_⟩
        · rintro (h | h)
          · rw [hc] at h; cases h
          · exact absurd hok h
        · intro _ _ h; rw [hend] at h; cases h
        · rw [hkeep m hm, hz]
      · have hr := hroom.whole (by rw [hc]; rfl) hok hend
        rw [if_neg (by simp), if_neg (by simp [hr])]
        generalize ht : setResult s n o = t at hn hkeep ⊢
        have hmem : n ∈ tkeys (t.slotsNow (tkeys (chainSlots t x.rid first))) := by
          refine mem_tkeys_slotsNow.2 ⟨List.mem_map.2 ⟨(n, y.withResult o), mem_chainSlots.2 ⟨mem_of_tget hn, hrid, ?_⟩, rfl⟩, ?_⟩
          · exact hchain.trans hc
          · rw [hn]; rfl
        generalize hl : t.slotsNow (tkeys (chainSlots t x.rid first)) = l at hmem
        have hslot := conclude_slot t l
        refine ⟨⟨(y.withResult o).setStage (concludedStage l), by rw [hslot, if_pos hmem, hn]; rfl, y.withResult_carries o _, ?_, ?_, fun _ _ _ => ?_⟩, fun m z hm hz hout => ?_⟩
        · rintro (h | h)
          · rw [hc] at h; cases h
          · exact absurd hok h
        · intro _ _ h; rw [hend] at h; cases h
        · obtain ⟨a, ha⟩ := conclude_only t l
          rw [ha]
          unfold concludedStage concludedCommit
          split
          · exact Or.inl rfl
          · exact Or.inr ⟨rfl, commitItem t l, List.mem_append_right _ (List.mem_singleton.2 rfl), hmem⟩
        · rw [hslot, if_neg, hkeep m hm, hz]
          rw [← hl]
          intro h
          obtain ⟨h, -⟩ := mem_tkeys_slotsNow.1 h
          obtain ⟨e, he, rfl⟩ := List.mem_map.1 h
          obtain ⟨he, hr, hch⟩ := mem_chainSlots.1 he
          obtain ⟨k, w⟩ := e
          have hts : tsorted t.adm.slots = true := by
            have : t.adm.slots = tset s.adm.slots n (y.withResult o) := by
              simp only [← ht, setResult, State.modSlot, hy, Slot.withResult]
            rw [this]
            exact tsorted_tset _ _ _ hs
          have hw : t.slot k = some w := tget_of_mem hts he
          rw [hkeep k hm, hz] at hw
          obtain rfl := Option.some.inj hw
          rcases hout with h | h | h
          · rw [hc] at h; cases h
          · exact h hr
          · exact h (hch.trans hc.symm)
    · rw [if_pos hok]
      have hfn : (failChain s n).slot n = some y := by rw [failChain_slot hs hy (Or.inl rfl), hy]
      have hr := hroom.alone (Or.inr hok)
      have hslot := settleAlone_slot hfn hr
      refine ⟨⟨(y.withResult o).setStage (if o.changes = [] then .done else .commitWait), by rw [hslot, if_pos rfl], y.withResult_carries o _, fun _ => rfl, fun _ h => absurd h hok, fun _ h => absurd h hok⟩,
        fun m z hm hz hout => ?_⟩
      rw [hslot, if_neg hm, failChain_slot hs hy (Or.inr (Or.inr fun w hw => ?_)), hz]
      rw [hz] at hw
      obtain rfl := Option.some.inj hw
      rw [hrid, hchain]
      rcases hout with h | h
      · rw [hc] at h; cases h
      · exact h

/-- Settling changes slots, units and the commit queue alone; outside a chain no unit, and without changes no queue (R35, R118). -/
theorem settle_only {s0 s : State} {n : Nat} {x y : Slot} {o : Out} (hs : tsorted s.adm.slots = true) (hy : s.slot n = some y)
    (hroom : Fits o x s0) : ∃ a u c, settle s0 s n x o = { s with adm := a, units := u, commit := c } ∧
      (x.chain = none → u = s.units ∧ (o.changes = [] → c = s.commit)) := by
  unfold settle
  rcases hc : x.chain with _ | first
  · obtain ⟨a, ha⟩ := settleAlone_only hy (hroom.alone (Or.inl hc))
    exact ⟨a, _, _, ha, fun _ => ⟨rfl, fun h => if_pos h⟩⟩
  · suffices h : ∃ a u c, settleChained s0 s n first x o = { s with adm := a, units := u, commit := c } by
      obtain ⟨a, u, c, h⟩ := h
      exact ⟨a, u, c, h, fun h => nomatch h⟩
    simp only [settleChained]
    split
    · rename_i hok
      have hfn : (failChain s n).slot n = some y := by rw [failChain_slot hs hy (Or.inl rfl), hy]
      obtain ⟨a, ha⟩ := settleAlone_only hfn (hroom.alone (Or.inr hok))
      obtain ⟨_, _, hf⟩ := ChainOnly.failChain s n
      exact ⟨_, _, _, by rw [ha, hf]⟩
    · rename_i hok
      obtain ⟨a, ha⟩ := setResult_only s n o
      split
      · exact ⟨a, _, _, ha⟩
      · rename_i hend
        rw [if_neg (by simp [hroom.whole (by rw [hc]; rfl) (not_not.1 hok) (by simpa using hend)])]
        obtain ⟨b, hb⟩ := conclude_only (setResult s n o) ((setResult s n o).slotsNow (tkeys (chainSlots (setResult s n o) x.rid first)))
        rw [hb, ha]
        exact ⟨_, _, _, rfl⟩

/-- A chain's earlier entry keeps its changes: the commit queue stands (R117). -/
theorem settle_early_commit {s0 s : State} {n : Nat} {x : Slot} {o : Out} (hc : x.chain.isSome = true) (hend : x.chainEnd = false)
    (hok : o.status = .ok) : (settle s0 s n x o).commit = s.commit := by
  obtain ⟨first, hf⟩ := Option.isSome_iff_exists.1 hc
  obtain ⟨a, ha⟩ := setResult_only s n o
  simp only [settle, hf, settleChained, hok, hend, ne_eq, not_true_eq_false, if_false, Bool.not_false, if_true, ha]

/-- While the commit queue is full an outcome that has to stand there is not settled (R36). -/
theorem settle_full {s0 s : State} {n : Nat} {x : Slot} {o : Out} (hroom : commitRoom s0 = false) (ho : o.changes ≠ [])
    (h : x.chain = none ∨ x.chainEnd = true ∨ o.status ≠ .ok) : settle s0 s n x o = s0 := by
  unfold settle
  rcases hc : x.chain with _ | first
  · exact settleAlone_full ho hroom
  · simp only [settleChained]
    split
    · exact settleAlone_full ho hroom
    · rename_i hok
      have hend : x.chainEnd = true := by
        rcases h with h | h | h
        · rw [hc] at h; cases h
        · exact h
        · exact absurd h hok
      simp [hend, hroom]

/-! ### The time of a descriptor -/

theorem freeUpTo_only (s : State) (k : Nat) : ∃ f, (freeUpTo s k).2 = { s with free := f } ∧ s.free ≤ f := by
  unfold freeUpTo
  split
  · exact ⟨s.free, rfl, Nat.le_refl _⟩
  · exact ⟨s.free + 1, rfl, Nat.le_succ _⟩

/-- Accounting a descriptor's time draws free values and adds to the time its slot holds (R115). -/
theorem totalTime_eq (s : State) (n : Nat) (x : Slot) : ∃ f k, s.free ≤ f ∧
    totalTime s n x = State.modSlot { s with free := f } n (fun y => { y with time24 := y.time24 + k }) := by
  obtain ⟨f, hf, hle⟩ := freeUpTo_only s (workOf x).freeNs
  obtain ⟨g, hg, hle'⟩ := freeUpTo_only { s with free := f } (workOf x).freeP
  simp only [totalTime, hf, hg, Nat.add_assoc]
  exact ⟨g, _, hle.trans hle', rfl⟩

theorem workDone_only (s : State) (n : Nat) (x : Slot) :
    ∃ a f, workDone s n x = { s with adm := a, free := f } ∧ s.free ≤ f := by
  unfold workDone
  split
  · obtain ⟨f, k, hle, h⟩ := totalTime_eq s n x
    rw [h]
    unfold State.modSlot
    split <;> exact ⟨_, f, rfl, hle⟩
  · exact ⟨s.adm, s.free, rfl, Nat.le_refl _⟩

theorem workDone_slot {s : State} {n : Nat} {x : Slot} (hx : s.slot n = some x) :
    ∃ k, ∀ m, (workDone s n x).slot m = if m = n then some { x with time24 := k } else s.slot m := by
  unfold workDone
  split
  · obtain ⟨f, k, -, h⟩ := totalTime_eq s n x
    refine ⟨x.time24 + k, fun m => ?_⟩
    have hx' : State.slot { s with free := f } n = some x := hx
    rw [h, State.modSlot_slot, hx']
    rfl
  · refine ⟨x.time24, fun m => ?_⟩
    split
    · subst m; exact hx
    · rfl

theorem tsorted_modSlot {s : State} (n : Nat) (f : Slot → Slot) (h : tsorted s.adm.slots = true) :
    tsorted (s.modSlot n f).adm.slots = true := by
  unfold State.modSlot
  split
  · exact h
  · exact tsorted_tset _ _ _ h

theorem workDone_sorted {s : State} (n : Nat) (x : Slot) (h : tsorted s.adm.slots = true) :
    tsorted (workDone s n x).adm.slots = true := by
  unfold workDone
  split
  · obtain ⟨f, k, -, ht⟩ := totalTime_eq s n x
    rw [ht]
    exact tsorted_modSlot n _ h
  · exact h

end Sys2Proof.Machine
end

section
open Sys2Proof.Machine

/-! SUPPORT. Opcodes that are due: the descriptor they run for, what their work may draw, and how they are settled. -/

namespace Sys2Proof.Machine

/-- A descriptor whose opcode is due stands in its slot. -/
theorem State.slot_of_due {s : State} {n op : Nat} {x : Slot} (h : s.due n op = some x) : s.slot n = some x := by
  unfold State.due at h
  split at h
  · cases h
  · split at h
    · cases h; assumption
    · cases h

theorem Settles.of_slots {o : Out} {n : Nat} {x : Slot} {s s' t : State} (h : Settles o n x s' t)
    (hs : ∀ m, m ≠ n → s'.slot m = s.slot m) : Settles o n x s t :=
  ⟨h.1, fun m z hm hz hout => h.2 m z hm ((hs m hm).trans hz) hout⟩

theorem runOp_next {s : State} {n op : Nat} {x : Slot} (f : State → Slot → Out) (hd : s.due n op = some x) :
    runOp op n f s = .next (settle s (workDone s n x) n x (f s x)) := by
  simp only [runOp, hd]

section
variable {s : State} {n op : Nat} {x : Slot} {o : Out} (hs : tsorted s.adm.slots = true) (hd : s.due n op = some x)
include hs hd

/-- An outcome that fits is settled after the descriptor's time is accounted. -/
theorem settle_workDone_settles (hroom : Fits o x s) : Settles o n x s (settle s (workDone s n x) n x o) := by
  obtain ⟨k, hk⟩ := workDone_slot (State.slot_of_due hd)
  exact (settle_settles (x := x) (workDone_sorted n x hs) ((hk n).trans (if_pos rfl)) rfl rfl hroom).of_slots
    (fun m hm => (hk m).trans (if_neg hm))

/-- What settling it changes, and that outside a chain no unit and, without changes, no commit state does. -/
theorem settle_workDone_only (hroom : Fits o x s) : ∃ a u c f, settle s (workDone s n x) n x o =
    { s with adm := a, units := u, commit := c, free := f } ∧ (x.chain = none → u = s.units ∧ (o.changes = [] → c = s.commit)) := by
  obtain ⟨k, hk⟩ := workDone_slot (State.slot_of_due hd)
  obtain ⟨a, u, c, h, hn⟩ := settle_only (x := x) (workDone_sorted n x hs) ((hk n).trans (if_pos rfl)) hroom
  obtain ⟨b, f, hw, -⟩ := workDone_only s n x
  rw [hw] at h hn
  exact ⟨a, u, c, f, by rw [hw]; exact h, hn⟩

end

/-- The commands of the opcodes that only compute run them. -/
theorem computing_runOp (n : Nat) : ∀ e ∈ computing n, ∀ s, exec e.1 s = runOp e.2.1 n e.2.2 s := by
  simp only [computing, computingKeys, computingMore, List.cons_append, List.nil_append, List.forall_mem_cons]
  and_intros <;> intros <;> first | rfl | contradiction

/-- The item that settling alone puts in the commit queue: the outcome's changes first, then the log entry with its status (R191). -/
theorem commitItem_single (s : State) (n : Nat) (y : Slot) (o : Out) :
    let i := commitItem s [(n, y.withResult o)]
    i.slots = [n] ∧ i.reply = none ∧ o.changes <+: i.changes ∧
      ∃ l, i.changes.getLast? = some (.log l) ∧ l.status = o.status ∧ l.index = y.index := by
  refine ⟨rfl, rfl, ⟨creationEntry (y.withResult o) o.handle ++ [.log (commitEntry s (y.withResult o) o.status o.handle)], ?_⟩,
    commitEntry s (y.withResult o) o.status o.handle, ?_, rfl, rfl⟩
  · simp [commitItem, Slot.withResult]
  · simp [commitItem, Slot.withResult]

end Sys2Proof.Machine

/-- Settles O11: every such command is `runOp`, and what settling does and leaves is said once for it. -/
theorem computingOpcodesAnswer : Obligations.ComputingOpcodesAnswer := by
  unfold Obligations.ComputingOpcodesAnswer
  intro n x s hs e he hd hc hroom
  rw [computing_runOp n e he s, runOp_next _ hd]
  obtain ⟨a, u, c, f, h, hn⟩ := settle_workDone_only (o := e.2.2 s x) hs hd hroom.fits
  refine ⟨_, rfl, settle_workDone_settles hs hd hroom.fits, ?_⟩
  rw [h]
  exact ⟨rfl, rfl, rfl, rfl, rfl, rfl, rfl, fun hx => (hn hx).imp_right (· hc)⟩

/-- Settles O12: a full queue leaves the state, a queue with room takes the item, and a chain's earlier entry keeps its changes. -/
theorem changingOpcodesQueue : Obligations.ChangingOpcodesQueue := by
  unfold Obligations.ChangingOpcodesQueue
  intro n x s hs e he hd hc
  rw [computing_runOp n e he s, runOp_next _ hd]
  refine ⟨fun hroom h => ?full, fun hroom => ?room, fun hroom hchain hend hok => ?early⟩
  case full => rw [settle_full hroom hc h]
  case room =>
    have hfit : Fits (e.2.2 s x) x s := ⟨fun _ => Or.inr hroom, fun _ _ _ => hroom⟩
    obtain ⟨a, u, c, f, h, hn⟩ := settle_workDone_only (o := e.2.2 s x) hs hd hfit
    refine ⟨_, rfl, settle_workDone_settles hs hd hfit, ?_⟩
    refine ⟨by rw [h], by rw [h], by rw [h], by rw [h], fun hx => ⟨by rw [h]; exact (hn hx).1, ?_⟩⟩
    obtain ⟨k, hk⟩ := workDone_slot (State.slot_of_due hd)
    obtain ⟨b, g, hw, -⟩ := workDone_only s n x
    obtain ⟨a', ha'⟩ := settleAlone_only (s0 := s) (o := e.2.2 s x) ((hk n).trans (if_pos rfl)) (Or.inr hroom)
    obtain ⟨hslots, hreply, hpre, l, hl, hst, hidx⟩ :=
      commitItem_single (setResult (workDone s n x) n (e.2.2 s x)) n { x with time24 := k } (e.2.2 s x)
    refine ⟨_, ?_, hslots, hreply, hpre, l, hl, hst, hidx⟩
    have hcommit : (workDone s n x).commit = s.commit := by rw [hw]
    simp only [settle, hx]
    rw [ha', if_neg hc, hcommit]
    rfl
  case early =>
    have hfit : Fits (e.2.2 s x) x s := by
      refine ⟨fun h => ?_, fun _ _ h => ?_⟩
      · rcases h with h | h
        · rw [h] at hchain; cases hchain
        · exact absurd hok h
      · rw [hend] at h; cases h
    obtain ⟨a, u, c, f, h, -⟩ := settle_workDone_only (o := e.2.2 s x) hs hd hfit
    obtain ⟨b, g, hw, -⟩ := workDone_only s n x
    exact ⟨_, rfl, settle_workDone_settles hs hd hfit, by rw [h], by rw [settle_early_commit hchain hend hok, hw]⟩
end

section
open Sys2Proof.Machine

/-! SUPPORT. What the opcodes that draw leave of the state: free values and the counts of failed PIN checks beside it (R34, R224). -/

namespace Sys2Proof.Machine

/-- Two states that differ at most in free values, of which none is taken back, and in the counts of failed PIN checks. -/
structure Drawn (s t : State) : Prop where
  eq : ∃ p f, t = { s with parts := p, free := f }
  free : s.free ≤ t.free
  parts : ∀ p, { t.part p with checkFails := 0 } = { s.part p with checkFails := 0 }

namespace Drawn

theorem refl (s : State) : Drawn s s := ⟨⟨_, _, rfl⟩, Nat.le_refl _, fun _ => rfl⟩

theorem trans {a b c : State} (h : Drawn a b) (h' : Drawn b c) : Drawn a c := by
  refine ⟨?_, h.free.trans h'.free, fun p => (h'.parts p).trans (h.parts p)⟩
  obtain ⟨_, _, rfl⟩ := h.eq
  obtain ⟨_, _, rfl⟩ := h'.eq
  exact ⟨_, _, rfl⟩

theorem adm {s t : State} (h : Drawn s t) : t.adm = s.adm := by
  obtain ⟨_, _, rfl⟩ := h.eq
  rfl

theorem draw (s : State) (k : Nat) : Drawn s (draw s k).2 := ⟨⟨_, _, rfl⟩, Nat.le_add_right _ _, fun _ => rfl⟩

/-- Counting failed PIN checks changes a partition's count alone (R224). -/
theorem countPin (s : State) (p : Nat) (l : List PinIn) : Drawn s (countPin s p l) := by
  unfold Machine.countPin
  extract_lets k
  split
  · exact refl s
  · refine ⟨⟨_, _, rfl⟩, Nat.le_refl _, fun q => ?_⟩
    rw [State.modPart_part]
    split
    · subst q; rfl
    · rfl

theorem translate (s : State) (x : Slot) (fin fout : Nat) (cin cout : Cipher) (blk : Bytes) (pin pout : Pan) :
    Drawn s (translate s x fin fout cin cout blk pin pout).2 := by
  unfold Machine.translate
  dsimp only
  split
  · exact countPin s _ _
  · split
    · exact countPin s _ _
    · exact countPin s _ _

theorem pinVerifyOffsetOut (s : State) (x : Slot) : Drawn s (pinVerifyOffsetOut s x).2 := by
  unfold Machine.pinVerifyOffsetOut
  dsimp only
  split
  · split
    · exact countPin s _ _
    · exact countPin s _ _
  · exact countPin s _ _

theorem pinVerifyValueOut (s : State) (x : Slot) : Drawn s (pinVerifyValueOut s x).2 := by
  unfold Machine.pinVerifyValueOut
  dsimp only
  split
  · exact countPin s _ _
  · exact countPin s _ _

theorem pinChangeOut (s : State) (x : Slot) : Drawn s (pinChangeOut s x).2 := by
  unfold Machine.pinChangeOut
  have hcount : ∀ l, Drawn s (Machine.countPin (Machine.draw s 8).2 x.part l) := fun l => (draw s 8).trans (countPin _ _ l)
  dsimp only
  repeat' split
  all_goals exact hcount _

theorem emvScriptPinOut (s : State) (x : Slot) : Drawn s (emvScriptPinOut s x).2 := by
  unfold Machine.emvScriptPinOut
  dsimp only
  split
  · exact countPin s _ _
  · split
    · exact countPin s _ _
    · exact countPin s _ _

end Drawn

/-! ### Opcodes whose draw was reserved at dispatch: they leave the state as it is -/

theorem keyGenerateOut_state (s : State) (x : Slot) : (keyGenerateOut s x).2 = s := by
  unfold keyGenerateOut
  extract_lets t
  split <;> rfl

theorem keyGeneratePairOut_state (s : State) (x : Slot) : (keyGeneratePairOut s x).2 = s := by
  unfold keyGeneratePairOut
  extract_lets t
  split
  · rfl
  · dsimp only
    split <;> rfl

theorem pinGenerateOut_state (s : State) (x : Slot) : (pinGenerateOut s x).2 = s := by
  unfold pinGenerateOut
  dsimp only
  split
  · rfl
  · split <;> rfl

theorem bulkEncryptOut_state (s : State) (x : Slot) : (bulkEncryptOut s x).2 = s := by
  unfold bulkEncryptOut
  dsimp only
  split <;> rfl

theorem signOut_state (s : State) (x : Slot) : (signOut s x).2 = s := by
  unfold signOut
  dsimp only
  split <;> rfl

theorem kemEncapsulateOut_state (s : State) (x : Slot) : (kemEncapsulateOut s x).2 = s := by
  unfold kemEncapsulateOut
  dsimp only
  split <;> rfl

theorem drawing_drawn (n : Nat) : ∀ e ∈ drawing n, ∀ s x, Drawn s (e.2.2 s x).2 := by
  simp only [drawing, List.forall_mem_cons]
  refine ⟨fun s x => ?_, fun s x => ?_, fun s x => .refl s, fun s x => Drawn.translate s x _ _ _ _ _ _ _, Drawn.pinVerifyOffsetOut,
    Drawn.pinVerifyValueOut, fun s x => ?_, Drawn.pinChangeOut, fun s x => Drawn.translate s x _ _ _ _ _ _ _,
    fun s x => Drawn.translate s x _ _ _ _ _ _ _, Drawn.emvScriptPinOut, fun s x => Drawn.translate s x _ _ _ _ _ _ _,
    fun s x => ?_, fun s x => ?_, fun s x => ?_, fun e he => nomatch he⟩
  · rw [keyGenerateOut_state]; exact .refl s
  · rw [keyGeneratePairOut_state]; exact .refl s
  · rw [pinGenerateOut_state]; exact .refl s
  · rw [bulkEncryptOut_state]; exact .refl s
  · rw [signOut_state]; exact .refl s
  · rw [kemEncapsulateOut_state]; exact .refl s

/-- The commands of the opcodes that draw run them. -/
theorem drawing_runOpS (n : Nat) : ∀ e ∈ drawing n, ∀ s, exec e.1 s = runOpS e.2.1 n e.2.2 s := by
  simp only [drawing, List.forall_mem_cons]
  and_intros <;> intros <;> first | rfl | contradiction

theorem runOpS_next {s : State} {n op : Nat} {x : Slot} (f : State → Slot → Out × State) (hd : s.due n op = some x) :
    runOpS op n f s = .next (settle s (f (workDone s n x) x).2 n x (f (workDone s n x) x).1) := by
  simp only [runOpS, hd]

end Sys2Proof.Machine

/-- Settles O13: what the work drew or counted leaves slots, units and the commit queue to settling. -/
theorem drawingOpcodesAnswer : Obligations.DrawingOpcodesAnswer := by
  unfold Obligations.DrawingOpcodesAnswer
  intro n x s hs e he hd hroom
  rw [drawing_runOpS n e he s, runOpS_next _ hd]
  have hdrawn := drawing_drawn n e he (workDone s n x) x
  generalize e.2.2 (workDone s n x) x = r at hroom hdrawn
  obtain ⟨o, u⟩ := r
  dsimp only at hroom hdrawn ⊢
  obtain ⟨k, hk⟩ := workDone_slot (State.slot_of_due hd)
  obtain ⟨b, g, hw, hle⟩ := workDone_only s n x
  have hslot : ∀ m, u.slot m = (workDone s n x).slot m := fun m => by simp only [State.slot, hdrawn.adm]
  have hsort : tsorted u.adm.slots = true := by
    rw [hdrawn.adm]
    exact workDone_sorted n x hs
  have hy := (hslot n).trans ((hk n).trans (if_pos rfl))
  obtain ⟨a, v, c, h, hn⟩ := settle_only (x := x) hsort hy hroom.fits
  refine ⟨_, rfl, (settle_settles (x := x) hsort hy rfl rfl hroom.fits).of_slots
    (fun m hm => (hslot m).trans ((hk m).trans (if_neg hm))), ?_⟩
  have hfree : s.free ≤ u.free := by
    refine Nat.le_trans ?_ hdrawn.free
    rw [hw]
    exact hle
  have hpart : ∀ p, { u.part p with checkFails := 0 } = { s.part p with checkFails := 0 } := fun p => by
    rw [hdrawn.parts p, hw]
    rfl
  obtain ⟨p, f, hu⟩ := hdrawn.eq
  have hu' : u = { s with adm := b, parts := p, free := f } := by rw [hu, hw]
  rw [h]
  refine ⟨hfree, ?_, hpart, ?_, ?_, ?_, ?_, fun hx => ⟨(hn hx).1.trans ?_, fun ho => ((hn hx).2 ho).trans ?_⟩⟩ <;> rw [hu']
end

section
open Sys2Proof.Machine

/-! SUPPORT. The registers of a digest ring. -/

namespace Sys2Proof.Machine

@[simp] theorem barAccess_open {s : State} {fn : Nat} (off : Nat) (f : State → State) (h : s.barOpen fn = true) :
    barAccess s fn off f = f s := by simp [barAccess, h]

/-- A write whose entry `P` judges as it judged the entry it replaces changes no answer of `any P`. -/
theorem any_tset {α : Type} (P : Nat × α → Bool) (t : Tab α) (k : Nat) (v d : α) (hd : P (k, d) = false)
    (h : P (k, v) = P (k, tgetD t k d)) : (tset t k v).any P = t.any P := by
  induction t with
  | nil => simpa [tset, tgetD, tget, hd] using h
  | cons e r ih =>
    obtain ⟨a, x⟩ := e
    by_cases hak : a = k
    · subst hak
      simp_all [tset, tgetD, tget]
    · have hr : tgetD ((a, x) :: r) k d = tgetD r k d := by simp [tgetD, tget, hak]
      rw [hr] at h
      have hmem : P (k, tgetD r k d) = true → r.any P = true := fun hp => by
        rcases hg : tget r k with _ | w
        · simp [tgetD, hg, hd] at hp
        · exact List.any_eq_true.mpr ⟨(k, w), mem_of_tget hg, by simpa [tgetD, hg] using hp⟩
      by_cases hlt : k < a
      · simp only [tset, if_pos hlt, List.any_cons, h]
        cases hp : P (k, tgetD r k d) with
        | false => rfl
        | true => simp [hmem hp]
      · simp [tset, if_neg hlt, hak, ih h]

theorem State.vfGroupOf_isSome (s : State) (g : Nat) :
    (s.vfGroupOf g).isSome = s.groups.any (fun e => decide (1024 ≤ e.1) && e.2.glob == some g) := by
  rw [Bool.eq_iff_iff, State.vfGroupOf, Option.isSome_map, List.find?_isSome, List.any_eq_true]

theorem State.vfGroupOf_modGroup (s : State) (gid g : Nat) (f : Group → Group) (hf : (f (s.group gid)).glob = (s.group gid).glob) :
    ((s.modGroup gid f).vfGroupOf g).isSome = (s.vfGroupOf g).isSome := by
  rw [State.vfGroupOf_isSome, State.vfGroupOf_isSome]
  exact any_tset (fun e => decide (1024 ≤ e.1) && e.2.glob == some g) s.groups gid (f (s.group gid)) group0 (by simp [group0])
    (by rw [hf]; rfl)

/-- `f` leaves of group `gid` what binds it and what keeps it from being bound. -/
def BindsAlike (s : State) (gid : Nat) (f : Group → Group) : Prop :=
  (f (s.group gid)).glob = (s.group gid).glob ∧ (f (s.group gid)).enable = (s.group gid).enable

theorem BindsAlike.freeGlobalGroup {s : State} {gid : Nat} {f : Group → Group} (h : BindsAlike s gid f) :
    (s.modGroup gid f).freeGlobalGroup = s.freeGlobalGroup := by
  obtain ⟨hg, he⟩ := h
  have hen : ∀ g, ((s.modGroup gid f).group g).enable = (s.group g).enable := fun g => by
    by_cases hgg : g = gid
    · subst hgg; simp [he]
    · simp [State.modGroup_group, hgg]
  simp only [State.freeGlobalGroup, ← Option.not_isSome, State.vfGroupOf_modGroup s gid _ f hg, hen, State.modGroup_eic,
    State.modGroup_rings]

theorem State.groupHidden_modGroup (s : State) (gid g : Nat) (f : Group → Group) (hf : (f (s.group gid)).glob = (s.group gid).glob) :
    (s.modGroup gid f).groupHidden g = s.groupHidden g := by
  rw [State.groupHidden, State.groupHidden, State.vfGroupOf_modGroup s gid g f hf]

/-- What a digest ring that is not yet bound shows once it is: its function's group takes the lowest free global one (R95). -/
theorem bindGroup_binds {s : State} {gid : Nat} (hh : s.groupHidden gid = false)
    (hf : 1024 ≤ gid → (s.group gid).glob.isSome = true ∨ s.freeGlobalGroup.isSome = true) :
    ∃ t, bindGroup s gid = some t ∧
      t.group gid = { s.group gid with glob := if gid < 1024 then (s.group gid).glob else (s.group gid).glob.or s.freeGlobalGroup } ∧
      (∀ g, g ≠ gid → t.group g = s.group g) ∧ t.rings = s.rings ∧ t.keys = s.keys ∧ t.bus = s.bus := by
  by_cases hlt : gid < 1024
  · have hv : (s.vfGroupOf gid).isSome = false := by simpa [State.groupHidden, hlt] using hh
    exact ⟨s, by simp [bindGroup, hlt, hv], by simp [hlt], fun _ _ => rfl, rfl, rfl, rfl⟩
  · rcases hg : (s.group gid).glob with _ | g
    · obtain ⟨g, hfree⟩ := Option.isSome_iff_exists.mp ((hf (by omega)).resolve_left (by simp [hg]))
      exact ⟨s.modGroup gid (fun x => { x with glob := some g }), by simp [bindGroup, hlt, hg, hfree], by simp [hlt, hfree],
        fun k hk => by simp [State.modGroup_group, hk], rfl, rfl, rfl⟩
    · exact ⟨s, by simp [bindGroup, hlt, hg], by rw [if_neg hlt, Option.some_or, ← hg], fun _ _ => rfl, rfl, rfl, rfl⟩

/-- The base and size an ENABLE write gives a group's digest ring. -/
def Group.placed (base size : Nat) (g : Group) : Group := { g with base := base / 65536 * 65536 % 2 ^ 64, sizeLog2 := size % 32 }

theorem enableDigest_starts {s u : State} {gid base size : Nat} (he : (s.group gid).enable = false) (hh : s.groupHidden gid = false)
    (h6 : 6 ≤ size) (h16 : size ≤ 16) (hu : bindGroup (s.modGroup gid (Group.placed base size)) gid = some u) :
    enableDigest s gid base size = u.modGroup gid (fun g => { g with enable := true, prod := 0, cons := 0, overflow := false }) := by
  have hu' : bindGroup (s.modGroup gid (fun g => { g with base := base / 65536 * 65536 % 2 ^ 64, sizeLog2 := size % 32 })) gid = some u := hu
  simp only [enableDigest]
  rw [if_neg (by simp [he, hh]), if_neg (by omega), hu']

section
variable {gid base size : Nat} {s : State}

theorem exec_grpDigEnable_enables (ho : s.barOpen (gid / 1024) = true) (hh : s.groupHidden gid = false) (he : (s.group gid).enable = false)
    (h6 : 6 ≤ size) (h16 : size ≤ 16) (hf : 1024 ≤ gid → (s.group gid).glob.isSome = true ∨ s.freeGlobalGroup.isSome = true) :
    ∃ t, exec (.grpDigEnable gid base size) s = .next t ∧
      t.group gid = { s.group gid with
        base := base / 65536 * 65536 % 2 ^ 64, sizeLog2 := size, enable := true, prod := 0, cons := 0, overflow := false,
        glob := if gid < 1024 then (s.group gid).glob else (s.group gid).glob.or s.freeGlobalGroup } ∧
      (∀ g, g ≠ gid → t.group g = s.group g) ∧ t.rings = s.rings ∧ t.keys = s.keys ∧ t.bus = s.bus := by
  have hb : BindsAlike s gid (Group.placed base size) := ⟨rfl, rfl⟩
  obtain ⟨u, hu, hself, hne, hrings, hkeys, hbus⟩ := bindGroup_binds (s := s.modGroup gid (Group.placed base size))
    ((State.groupHidden_modGroup s gid gid _ hb.1).trans hh)
    (by rw [hb.freeGlobalGroup, State.modGroup_group_self]; exact hf)
  rw [hb.freeGlobalGroup] at hself
  refine ⟨u.modGroup gid (fun g => { g with enable := true, prod := 0, cons := 0, overflow := false }),
    by rw [dispatch_grpDigEnable, execGrpDigEnable, barAccess_open _ _ ho, enableDigest_starts he hh h6 h16 hu], ?_, fun g hg => ?_, hrings, hkeys, hbus⟩
  · simp [hself, Group.placed, Nat.mod_eq_of_lt (show size < 32 by omega)]
  · simp [State.modGroup_group, hg, hne g hg]

theorem releaseGroups_pf (s : State) : releaseGroups s 0 = s := by simp [releaseGroups]

/-- `releaseGroups` unbinds groups of one function and leaves the rest of every group. -/
theorem releaseGroups_group (s : State) (fn g : Nat) :
    (releaseGroups s fn).group g = s.group g ∨ g / 1024 = fn ∧ (releaseGroups s fn).group g = { s.group g with glob := none } := by
  unfold releaseGroups
  split
  · exact .inl rfl
  · rw [State.group, State.group, tgetD, tgetD, tget_tmap]
    rcases tget s.groups g with _ | x
    · exact .inl rfl
    · rw [Option.map_some, Option.getD_some, Option.getD_some]
      split_ifs with hc
      · exact .inr ⟨by simp only [Bool.and_eq_true, decide_eq_true_eq] at hc; exact hc.1.1.1, rfl⟩
      · exact .inl rfl

theorem exec_grpDigDisable_disables (ho : s.barOpen (gid / 1024) = true) (hh : s.groupHidden gid = false) :
    ∃ t, exec (.grpDigDisable gid) s = .next t ∧ (t.group gid).enable = false ∧ (t.group gid).prod = (s.group gid).prod ∧
      (t.group gid).cons = (s.group gid).cons ∧ (t.group gid).base = (s.group gid).base ∧
      (∀ g, g / 1024 ≠ gid / 1024 → t.group g = s.group g) ∧
      (gid < 1024 → t = s.modGroup gid (fun g => { g with enable := false })) ∧ t.rings = s.rings ∧ t.keys = s.keys ∧ t.bus = s.bus := by
  obtain ⟨gs, hgs⟩ := releaseGroups_only (s.modGroup gid (fun g => { g with enable := false })) (gid / 1024)
  have hself : ∃ o, (releaseGroups (s.modGroup gid (fun g => { g with enable := false })) (gid / 1024)).group gid =
      { s.group gid with enable := false, glob := o } := by
    rcases releaseGroups_group (s.modGroup gid (fun g => { g with enable := false })) (gid / 1024) gid with h | ⟨-, h⟩
    · exact ⟨(s.group gid).glob, by simp [h]⟩
    · exact ⟨none, by simp [h]⟩
  obtain ⟨o, ho'⟩ := hself
  refine ⟨releaseGroups (s.modGroup gid (fun g => { g with enable := false })) (gid / 1024), by simp [dispatch_grpDigDisable, execGrpDigDisable, ho, hh],
    by simp [ho'], by simp [ho'], by simp [ho'], by simp [ho'], fun g hg => ?_, fun hlt => ?_, by simp [hgs], by simp [hgs], by simp [hgs]⟩
  · have hne : g ≠ gid := fun h => hg (by rw [h])
    rcases releaseGroups_group (s.modGroup gid (fun g => { g with enable := false })) (gid / 1024) g with h | ⟨h, -⟩
    · simp [h, State.modGroup_group, hne]
    · exact absurd h hg
  · rw [Nat.div_eq_of_lt hlt, releaseGroups_pf]

end

end Sys2Proof.Machine

/-- Settles O19: each access of an open BAR is the function the register's case names; ENABLE binds a VF's group before it starts it. -/
theorem digestRingCommands : Obligations.DigestRingCommands := by
  unfold Obligations.DigestRingCommands
  intro gid s ho
  refine ⟨fun hh => ⟨fun base size he h6 h16 hf => exec_grpDigEnable_enables ho hh he h6 h16 hf, fun c hc => ?_, fun c hc => ?_,
    exec_grpDigDisable_disables ho hh, ?_⟩, fun hh => ⟨fun base size => ?_, fun c => ?_, ?_, ?_⟩⟩
  · simp only [dispatch_grpDigConsWrite, execGrpDigConsWrite, barAccess_open _ _ ho]
    rw [if_neg (not_or.mpr ⟨by simp [hh], Nat.not_lt.mpr hc⟩)]
  · simp only [dispatch_grpDigConsWrite, execGrpDigConsWrite, barAccess_open _ _ ho]
    rw [if_pos (.inr hc)]
  · simp [dispatch_grpDigBaseRead, execGrpDigBaseRead, ho, hh, Group.baseWord]
  · simp [dispatch_grpDigEnable, execGrpDigEnable, ho, enableDigest, hh]
  · simp [dispatch_grpDigConsWrite, execGrpDigConsWrite, ho, hh]
  · simp [dispatch_grpDigDisable, execGrpDigDisable, ho, hh]
  · simp [dispatch_grpDigBaseRead, execGrpDigBaseRead, ho, hh]

end

section
open Sys2Proof.Machine

/-! SUPPORT. Pending bits: what `raise` sets, and the registers of the event controller and of the cores. -/

namespace Sys2Proof.Machine

theorem mem_sins {k n : Nat} {l : List Nat} : n ∈ sins k l ↔ n = k ∨ n ∈ l := by
  induction l with
  | nil => simp [sins]
  | cons a r ih =>
    simp only [sins]
    split
    · simp
    · split
      · rename_i h; subst h; simp
      · simp only [List.mem_cons, ih]; tauto

theorem mem_foldl_sins {n : Nat} (l a : List Nat) : n ∈ l.foldl (fun b k => sins k b) a ↔ n ∈ a ∨ n ∈ l := by
  induction l generalizing a with
  | nil => simp
  | cons k r ih => rw [List.foldl_cons, ih, mem_sins, List.mem_cons]; tauto

theorem configAccess_open {s : State} {fn : Nat} (off : Nat) (f : State → State) (he : s.fnExists fn = true) (hr : s.cfgReady = true) :
    configAccess s fn off f = f s := by simp [configAccess, he, hr]

theorem raiseHost_hostPend (s : State) (n : Nat) : n ∈ (raiseHost s n).eic.hostPend := by
  unfold raiseHost
  split
  · rename_i h; simpa using h
  · dsimp only
    split
    · exact mem_sins_self n _
    · split <;> exact mem_sins_self n _

theorem raiseHost_corePend (s : State) (n : Nat) : (raiseHost s n).eic.corePend = s.eic.corePend := by
  unfold raiseHost
  split
  · rfl
  · dsimp only
    split
    · rfl
    · split <;> rfl

theorem rouse_hostPend (s : State) : (rouse s).eic.hostPend = s.eic.hostPend := by unfold rouse; split <;> rfl

theorem pendCore_hostPend (s : State) (n : Nat) : (pendCore s n).eic.hostPend = s.eic.hostPend := by unfold pendCore; split <;> rfl

theorem latchWake_hostPend (s : State) (n : Nat) : (latchWake s n).eic.hostPend = s.eic.hostPend := by unfold latchWake; split <;> rfl

section
variable {s : State} {n : Nat} (hr : reservedSource n = false) (ha : s.asleep = false)
include hr ha

theorem raise_awake : raise s n = if n < 1440 then raiseHost (pendCore (rouse s) n) n else pendCore (rouse s) n := by
  simp [raise, hr, ha]

theorem raise_pends_host (hn : n < 1440) : n ∈ (raise s n).eic.hostPend := by
  rw [raise_awake hr ha, if_pos hn]; exact raiseHost_hostPend _ _

theorem raise_pends_core (hn : 1024 ≤ n) : n ∈ (raise s n).eic.corePend := by
  have hp : n ∈ (pendCore (rouse s) n).eic.corePend := by
    rw [pendCore, if_pos hn]; exact mem_sins_self n _
  rw [raise_awake hr ha]
  split
  · rw [raiseHost_corePend]; exact hp
  · exact hp

end

/-- An internal source of the cores reaches no host vector (R396). -/
theorem raise_hostPend_internal (s : State) {n : Nat} (hn : 1440 ≤ n) : (raise s n).eic.hostPend = s.eic.hostPend := by
  have hlt : ¬ n < 1440 := by omega
  simp only [raise, if_neg hlt]
  split
  · rfl
  · split
    · exact latchWake_hostPend s n
    · rw [pendCore_hostPend, rouse_hostPend]

/-- What a write of 1 to pending bits clears (R397). -/
theorem clearPending_only (s : State) (fn : Nat) (l : List Nat) : ∃ f g, clearPending s fn l =
    { s with fns := f, groups := g, eic := { s.eic with hostPend := s.eic.hostPend.filter (fun k => !l.contains k),
                                                        ready := s.eic.ready.filter (fun k => !l.contains k) } } := by
  unfold clearPending
  obtain ⟨g, hg⟩ := releaseGroups_only (settlePba { s with eic := { s.eic with
    hostPend := s.eic.hostPend.filter (fun k => !l.contains k), ready := s.eic.ready.filter (fun k => !l.contains k) } } fn) fn
  exact ⟨_, g, hg⟩

theorem mem_pendSources {s : State} {fn word v k : Nat} :
    k ∈ ((List.range 32).filter (bit v)).filterMap (fun b => s.pendSource fn (32 * word + b)) ↔
      ∃ b, b < 32 ∧ bit v b = true ∧ s.pendSource fn (32 * word + b) = some k := by
  simp [List.mem_filterMap, and_assoc]

theorem exec_eicSrcPendW1c_clears {s : State} {fn word : Nat} (v : Nat) (ho : s.barOpen fn = true) (hw : word < (if fn = 0 then 48 else 2)) :
    ∃ t, exec (.eicSrcPendW1c fn word v) s = .next t ∧
      (∀ b k, b < 32 → bit v b = true → s.pendSource fn (32 * word + b) = some k → k ∉ t.eic.hostPend) ∧
      (∀ k, (∀ b, b < 32 → bit v b = true → s.pendSource fn (32 * word + b) ≠ some k) → (k ∈ t.eic.hostPend ↔ k ∈ s.eic.hostPend)) ∧
      t.eic.corePend = s.eic.corePend ∧ t.eic.map = s.eic.map ∧ t.bus = s.bus ∧ t.keys = s.keys := by
  obtain ⟨f, g, hc⟩ := clearPending_only s fn (((List.range 32).filter (bit v)).filterMap (fun b => s.pendSource fn (32 * word + b)))
  rw [dispatch_eicSrcPendW1c, execEicSrcPendW1c, if_pos hw, barAccess_open _ _ ho, hc]
  refine ⟨_, rfl, fun b k hb hv hk => ?_, fun k hk => ?_, rfl, rfl, rfl, rfl⟩
  · simp only [List.mem_filter, Bool.not_eq_true', List.contains_eq_mem, decide_eq_false_iff_not, mem_pendSources]
    exact fun h => h.2 ⟨b, hb, hv, hk⟩
  · simp only [List.mem_filter, Bool.not_eq_true', List.contains_eq_mem, decide_eq_false_iff_not, mem_pendSources]
    exact and_iff_left (fun ⟨b, hb, hv, hs⟩ => hk b hb hv hs)

/-! The map of a function's sources to its vectors (R402). -/

section
variable {s : State} {fn k v : Nat} (ho : s.barOpen fn = true) (hk : k < (if fn = 0 then 768 else 32))
include ho hk

theorem exec_eicMapWrite_refused {p : Nat × Nat} (hp : p ∈ [(2 * k, v % 65536), (2 * k + 1, v / 65536)]) (hm : s.mapOpen fn p.1 = true)
    (he : (mapHalf fn p.2).enable = true) (hv : s.vectors fn ≤ (mapHalf fn p.2).vector) :
    exec (.eicMapWrite fn k v) s = .next (s.modFn fn (fun f => { f with mapRefused := true })) := by
  rw [dispatch_eicMapWrite, execEicMapWrite, if_pos hk, barAccess_open _ _ ho, writeMap, if_pos]
  refine List.any_eq_true.mpr ⟨(p.1, mapHalf fn p.2), List.mem_filter.mpr ⟨?_, hm⟩, by simp [he, hv]⟩
  rcases List.mem_pair.mp hp with rfl | rfl <;> simp

theorem exec_eicMapWrite_stored (h : ∀ p ∈ [(2 * k, v % 65536), (2 * k + 1, v / 65536)], s.mapOpen fn p.1 = true →
      (mapHalf fn p.2).enable = true → (mapHalf fn p.2).vector < s.vectors fn) :
    ∃ t, exec (.eicMapWrite fn k v) s = .next t ∧
      (∀ p ∈ [(2 * k, v % 65536), (2 * k + 1, v / 65536)], s.mapOpen fn p.1 = true →
        tget t.eic.map (mapKey fn p.1) = some (mapHalf fn p.2)) ∧
      t.eic.hostPend = s.eic.hostPend ∧ t.bus = s.bus ∧ t.keys = s.keys := by
  have hany : (([(2 * k, mapHalf fn (v % 65536)), (2 * k + 1, mapHalf fn (v / 65536))]).filter (fun e => s.mapOpen fn e.1)).any
      (fun e => e.2.enable && decide (s.vectors fn ≤ e.2.vector)) = false := by
    have hl := h (2 * k, v % 65536) (by simp)
    have hh := h (2 * k + 1, v / 65536) (by simp)
    rw [List.any_eq_false]
    intro e he hc
    obtain ⟨he, hm⟩ := List.mem_filter.mp he
    simp only [Bool.and_eq_true, decide_eq_true_eq] at hc
    rcases List.mem_pair.mp he with rfl | rfl
    · exact absurd (hl hm hc.1) (Nat.not_lt.mpr hc.2)
    · exact absurd (hh hm hc.1) (Nat.not_lt.mpr hc.2)
  have hne : mapKey fn (2 * k) ≠ mapKey fn (2 * k + 1) := by simp [mapKey]
  rw [dispatch_eicMapWrite, execEicMapWrite, if_pos hk, barAccess_open _ _ ho, writeMap, if_neg (by rw [hany]; exact Bool.false_ne_true)]
  refine ⟨_, rfl, ?_⟩
  cases h0 : s.mapOpen fn (2 * k) <;> cases h1 : s.mapOpen fn (2 * k + 1) <;>
    simp [h0, h1, settlePba, tget_tset, hne]

end

theorem exec_holdoffWindowClose_closes {s : State} {h : Nat} (ho : (s.holdOff h).isOpen = true) : ∃ t, exec (.holdoffWindowClose h) s = .next t ∧
    t.holdOff h = { s.holdOff h with isOpen := false, remain := 0 } ∧
    (∀ n, n ∈ t.eic.ready ↔ n ∈ s.eic.ready ∨ (n ∈ s.eic.hostPend ∧ n / 16 = h)) ∧
    t.eic.hostPend = s.eic.hostPend ∧ t.bus = s.bus ∧ t.fns = s.fns ∧ t.keys = s.keys := by
  rw [dispatch_holdoffWindowClose, execHoldoffWindowClose, closeWindow, if_pos ho]
  refine ⟨_, rfl, by simp [State.holdOff], fun n => ?_, rfl, rfl, rfl, rfl⟩
  rw [mem_foldl_sins]
  simp

end Sys2Proof.Machine

/-- Settles O25: each write is the one change its case names; the two halves of a map write have different keys. -/
theorem eventRegisters : Obligations.EventRegisters := by
  unfold Obligations.EventRegisters
  refine ⟨fun fn v m s ho hv => ⟨?_, ?_⟩, fun fn m s he hr => ⟨?_, ?_⟩, fun fn h s ho => ?_, fun h s ho => ?_,
    fun fn word v s ho hw => exec_eicSrcPendW1c_clears v ho hw, ?_, fun h s ho => ?_⟩
  · simp [dispatch_vectorControlWrite, execVectorControlWrite, ho, hv]
  · simp [dispatch_vectorControlRead, execVectorControlRead, ho, hv]
  · rw [dispatch_functionMaskWrite, execFunctionMaskWrite, configAccess_open _ _ he hr]
  · rw [dispatch_messageControlRead, execMessageControlRead, configAccess_open _ _ he hr]
  · rw [dispatch_eicHoldWrite, execEicHoldWrite, barAccess_open _ _ ho]
  · rw [dispatch_eicGlobalHoldWrite, execEicGlobalHoldWrite, barAccess_open _ _ ho]
  · rintro fn k v l s ho hk rfl
    exact ⟨exec_eicMapWrite_stored ho hk, fun p hp hm he hv => exec_eicMapWrite_refused ho hk hp hm he hv⟩
  · exact exec_holdoffWindowClose_closes ho

end

section
open Sys2Proof.Machine

/-! SUPPORT. A request taken by a module that may serve it; the supervisor cores, IDLE and the wake latches. -/

namespace Sys2Proof.Machine

/-- A request that is granted, or whose grant the life-cycle state waives, does what it is for and consumes `use`. -/
theorem grantWrite_taken {s t : State} {rq : Req} {idx sub cls part : Nat} {domain : Bool} {v grant : Bytes} {use : List Change}
    {check : State → Option Status} (f : State → List Change → State) (ht : Taken s rq idx sub (writeOp domain grant) t)
    (hg : Granted t rq (idx == 0x7001) cls part v grant use) (hc : check t = none) :
    grantWrite s rq idx sub cls part domain v grant check f = f t use := by
  obtain ⟨htake, hb⟩ := ht
  obtain ⟨hm, ⟨hf, rfl⟩ | ⟨hf, g, hgr, rfl⟩⟩ := hg
  · exact grantWrite_waived htake hb hm hf hc
  · exact grantWrite_granted htake hb hm hf hgr hc

/-- A number within its entry's size and range passes. -/
theorem numCheck_none {idx sub v : Nat} {e : Entry} (he : odEntry idx sub = some e) (hv : v < 2 ^ (8 * e.size))
    (hr : e.hi = 0 ∨ e.lo ≤ v ∧ v ≤ e.hi) : numCheck idx sub v = none := by
  simp only [numCheck, he]
  rw [if_neg (Nat.not_le.mpr hv), if_neg (by omega)]

/-- Asking for a reset writes what waits, and a log record where a watchdog's main reset is ignored. -/
theorem askReset_only (s : State) (q : PendingReset) : ∃ p l, askReset s q = { s with power := p, log := l } := by
  unfold askReset
  split
  · exact ⟨_, _, rfl⟩
  · split
    · exact ⟨s.power, logMain_only ..⟩
    · split <;> exact ⟨_, _, rfl⟩

theorem raiseHost_cores (s : State) (n : Nat) : (raiseHost s n).eic.cores = s.eic.cores := by
  unfold raiseHost
  split
  · rfl
  · dsimp only
    split
    · rfl
    · split <;> rfl

theorem raise_core (s : State) (n k : Nat) : (raise s n).core k = s.core k := by
  have hp : (pendCore (rouse s) n).eic.cores = s.eic.cores := by
    unfold pendCore rouse
    split <;> split <;> rfl
  simp only [raise, State.core]
  split
  · rfl
  · split
    · unfold latchWake
      split <;> rfl
    · split
      · rw [raiseHost_cores, hp]
      · rw [hp]

/-! The cores (R408 to R411). -/

section
variable {c : Nat} {s : State} (hc : c < 4)
include hc

theorem exec_coreHandlerEntry_enters (ht : (s.target c).isSome = true) (he : (s.core c).entered = (s.core c).claimed.length)
    (hd : (s.core c).entered < 16) :
    exec (.coreHandlerEntry c) s = .next (s.modCore c (fun k => { k with entered := k.entered + 1 })) := by
  rw [dispatch_coreHandlerEntry, execCoreHandlerEntry, if_pos ⟨hc, ht, he, hd⟩]

theorem exec_coreClaimRead_claims {n : Nat} (ht : s.target c = some n) : ∃ t, exec (.coreClaimRead c) s = .next t ∧
    t.core c = { s.core c with claim := n, claimed := (sourcePriority n, n) :: (s.core c).claimed } ∧
    n ∉ t.eic.corePend ∧ t.eic.hostPend = s.eic.hostPend ∧ (∀ k, k ≠ c → t.core k = s.core k) ∧ t.bus = s.bus ∧ t.keys = s.keys := by
  rw [dispatch_coreClaimRead, execCoreClaimRead, if_neg (Nat.not_le.mpr hc), ht]
  refine ⟨_, rfl, by rw [State.modCore_core_self]; rfl, not_mem_sdel_self n _, rfl, fun k hk => ?_, rfl, rfl⟩
  rw [State.modCore_core, if_neg hk]; rfl

theorem exec_coreClaimRead_none (ht : s.target c = none) :
    exec (.coreClaimRead c) s = .next (s.modCore c (fun k => { k with claim := 0xFFFF })) := by
  rw [dispatch_coreClaimRead, execCoreClaimRead, if_neg (Nat.not_le.mpr hc), ht]

theorem exec_coreCompletionWrite_completes {pr n : Nat} {r : List (Nat × Nat)} (h : (s.core c).claimed = (pr, n) :: r) :
    exec (.coreCompletionWrite c n) s = .next (s.modCore c (fun k => { k with claimed := r })) := by
  simp [dispatch_coreCompletionWrite, execCoreCompletionWrite, h, hc]

theorem exec_coreHandlerReturn_returns (hl : (s.core c).claimed.length < (s.core c).entered) (ht : s.target c = none) :
    exec (.coreHandlerReturn c) s = .next (s.modCore c (fun k => { k with entered := k.entered - 1 })) := by
  rw [dispatch_coreHandlerReturn, execCoreHandlerReturn, if_pos ⟨hc, hl, ht⟩]

theorem exec_coreWatchdogStage1_raises (hw : (s.core c).wdog = 0) : ∃ t, exec (.coreWatchdogStage1 c) s = .next t ∧ (t.core c).wdog = 1 ∧
    (s.asleep = false → 1440 + c ∈ t.eic.corePend) ∧ t.eic.hostPend = s.eic.hostPend ∧ t.power = s.power ∧ t.keys = s.keys := by
  rw [dispatch_coreWatchdogStage1, execCoreWatchdogStage1, if_pos ⟨hc, hw⟩]
  refine ⟨_, rfl, ?_, fun ha => raise_pends_core ?_ ha (by omega), ?_, by simp, by simp⟩
  · rw [raise_core, State.modCore_core_self]
  · simp only [reservedSource, Bool.or_eq_false_iff, decide_eq_false_iff_not]; omega
  · rw [raise_hostPend_internal _ (by omega)]; rfl

/-- What stage 2 of a core's watchdog counts (R411). -/
def wdogExpired (s : State) (c : Nat) : State :=
  ({ s with eic := { s.eic with wdogResets := min 0xFFFFFFFF (s.eic.wdogResets + 1) } } : State).modCore c (fun k => { k with wdog := 2 })

omit hc in
theorem wdogExpired_wdog (s : State) (c : Nat) : ((wdogExpired s c).core c).wdog = 2 := by
  rw [wdogExpired, State.modCore_core_self]

theorem exec_coreWatchdogStage2_resets (hw : (s.core c).wdog = 1) : ∃ t, exec (.coreWatchdogStage2 c) s = .next t ∧ (t.core c).wdog = 2 ∧
    (s.power.pfail = false → s.power.stopPoint ≠ 0 → s.power.waiting = none → t.power.waiting = some ⟨2, 0x08, false, c⟩) ∧
    t.keys = s.keys ∧ t.bus = s.bus := by
  rw [dispatch_coreWatchdogStage2, execCoreWatchdogStage2, if_pos ⟨hc, hw⟩]
  obtain ⟨l, hl⟩ := logCocoon_only s 5 0x0A00 0x0A03 0xFF c []
  obtain ⟨p, l', ha⟩ := askReset_only (wdogExpired { s with log := l } c) ⟨2, 0x08, false, c⟩
  refine ⟨askReset (wdogExpired { s with log := l } c) ⟨2, 0x08, false, c⟩, by rw [hl]; rfl, ?_, fun hf hs hn => ?_, ?_, ?_⟩
  · rw [ha]; exact wdogExpired_wdog ..
  · rw [askReset_waits (s := wdogExpired { s with log := l } c) _ hf hs hn]
  · rw [ha]; rfl
  · rw [ha]; rfl

end

/-! IDLE, the latches and the wake timer (R413 to R417, R486, R487, R489). -/

theorem State.asleep_of_idle {s : State} (h : s.power.power = .idle) : s.asleep = false := by simp [State.asleep, h]

theorem raiseHost_roused (s : State) (n : Nat) : (raiseHost s n).eic.roused = s.eic.roused := by
  unfold raiseHost
  split
  · rfl
  · dsimp only
    split
    · rfl
    · split <;> rfl

/-- A raise in IDLE ends it (R486). -/
theorem raise_roused_idle {s : State} {n : Nat} (h : s.power.power = .idle) (hr : reservedSource n = false) :
    (raise s n).eic.roused = true := by
  have hp : (pendCore (rouse s) n).eic.roused = true := by
    unfold pendCore rouse
    rw [if_pos h]
    split <;> rfl
  rw [raise_awake hr (State.asleep_of_idle h)]
  split
  · rw [raiseHost_roused, hp]
  · exact hp

theorem State.roused_idle {s : State} (hp : s.power.power = .idle) (hr : s.eic.roused = true) :
    s.roused = { s with power := { s.power with power := .run }, eic := { s.eic with roused := false } } := by
  rw [State.roused, if_neg (by simp [hp]), if_pos ⟨hp, hr⟩]

theorem State.roused_of_awake {s : State} (h : s.power.power ≠ .standby) (h' : s.power.power ≠ .idle) : s.roused = s := by
  rw [State.roused, if_neg (by simp [h]), if_neg (by simp [h'])]

theorem exec_idleExit_wakes {n : Nat} {s : State} (h : s.power.power = .idle) (hr : reservedSource n = false) :
    ∃ t, exec (.idleExit n) s = .next t ∧ t.power = { s.power with power := .run } ∧
      (n < 1440 → n ∈ t.eic.hostPend) ∧ (1024 ≤ n → n ∈ t.eic.corePend) ∧
      t.fns = s.fns ∧ t.rings = s.rings ∧ t.keys = s.keys ∧ t.bus = s.bus := by
  have ha := State.asleep_of_idle h
  rw [dispatch_idleExit, execIdleExit, if_pos h, State.roused_idle (by simpa using h) (raise_roused_idle h hr)]
  exact ⟨_, rfl, by simp, raise_pends_host hr ha, raise_pends_core hr ha, by simp, by simp, by simp, by simp⟩

/-- A latch of a wake-capable source that the wake list names, while the main die is off (R415, R489). -/
theorem latchWake_eq {s : State} {n : Nat} (ha : s.asleep = true) (hc : wakeCapable n = true) (hl : s.wakeAt n ≠ []) :
    latchWake s n = { s with eic := { s.eic with latches := sins n s.eic.latches, firstLatch := s.eic.firstLatch.or (some n) } } := by
  rw [latchWake, if_pos ⟨ha, hc, hl⟩]

section
variable {n : Nat} {s : State} (hc : wakeCapable n = true) (hl : s.wakeAt n ≠ [])
include hc hl

theorem latchWake_roused_standby (hp : s.power.power = .standby) : (latchWake s n).roused =
    { s with eic := { s.eic with latches := sins n s.eic.latches, firstLatch := s.eic.firstLatch.or (some n) },
             power := { s.power with waiting := some ⟨2, 0x0B, false, 0⟩ } } := by
  rw [latchWake_eq (by simp [State.asleep, hp]) hc hl]
  exact roused_standby hp (List.ne_nil_of_mem (mem_sins_self n _))

theorem latchWake_roused_off (hp : s.power.power = .off) : (latchWake s n).roused =
    { s with eic := { s.eic with latches := sins n s.eic.latches, firstLatch := s.eic.firstLatch.or (some n) } } := by
  rw [latchWake_eq (by simp [State.asleep, hp]) hc hl]
  exact State.roused_of_awake (by simp [hp]) (by simp [hp])

end

theorem latchWake_awake {s : State} {n : Nat} (ha : s.asleep = false) : latchWake s n = s := by simp [latchWake, ha]

theorem exec_wakeLatch_run {s : State} (n : Nat) (h : s.power.power = .run) : exec (.wakeLatch n) s = .next s := by
  rw [dispatch_wakeLatch, execWakeLatch, latchWake_awake (by simp [State.asleep, h]), State.roused_of_awake (by simp [h]) (by simp [h])]

theorem exec_wakeTimer_fires {s : State} (hw : s.power.power = .off ∨ s.power.power = .standby) (ha : s.eic.wakeArmed = true)
    (ht : s.odNat 0xA021 1 ≠ 0) (hl : s.wakeAt 1041 ≠ []) : ∃ t, exec .wakeTimer s = .next t ∧
      t.eic.wakeArmed = false ∧ 1041 ∈ t.eic.latches ∧ (s.power.power = .off → t.power = s.power) ∧
      (s.power.power = .standby → t.power.waiting = some ⟨2, 0x0B, false, 0⟩) ∧ t.keys = s.keys := by
  rw [dispatch_wakeTimer, execWakeTimer, if_pos ⟨ha, ht, hw.symm⟩]
  rcases hw with hp | hp
  · rw [latchWake_roused_off (s := { s with eic := { s.eic with wakeArmed := false } }) rfl hl hp]
    exact ⟨_, rfl, rfl, mem_sins_self .., fun _ => rfl, fun h => by simp [hp] at h, rfl⟩
  · rw [latchWake_roused_standby (s := { s with eic := { s.eic with wakeArmed := false } }) rfl hl hp]
    exact ⟨_, rfl, rfl, mem_sins_self .., fun h => by simp [hp] at h, fun _ => rfl, rfl⟩

theorem plainOp_wakeList {entry : Nat} (h1 : 1 ≤ entry) (h64 : entry ≤ 64) : plainOp 0xA020 entry = 0x20 := by
  interval_cases entry <;> rfl

end Sys2Proof.Machine

/-- Settles O26: each access of a core is the change its case names; an internal source reaches no host vector. -/
theorem coreHandlers : Obligations.CoreHandlers := by
  unfold Obligations.CoreHandlers
  intro c s hc
  exact ⟨exec_coreHandlerEntry_enters hc, fun n => exec_coreClaimRead_claims hc, exec_coreClaimRead_none hc,
    fun pr n r => exec_coreCompletionWrite_completes hc, exec_coreHandlerReturn_returns hc,
    by rw [dispatch_coreWatchdogRestart, execCoreWatchdogRestart, if_pos hc], exec_coreWatchdogStage1_raises hc, exec_coreWatchdogStage2_resets hc⟩


/-- Settles O27: a raise in IDLE ends it, a latch in STANDBY asks for the wake, and the timer is a latch of source 1041. -/
theorem idleAndWake : Obligations.IdleAndWake := by
  unfold Obligations.IdleAndWake
  refine ⟨fun s hp hm hw hi => ?_, fun n s h hr => exec_idleExit_wakes h hr, fun n s hc hl => ⟨fun hp => ?_, fun hp => ?_, exec_wakeLatch_run n⟩,
    fun s hw => ⟨exec_wakeTimer_fires hw, fun ha => ?_⟩, fun rq entry source s t ht hh h1 h64 hs hc => ?_, fun rq v s t ht hh hv => ?_⟩
  · rw [dispatch_idleEntry, execIdleEntry, if_pos ⟨hp, hm, hw, hi⟩]
  · rw [dispatch_wakeLatch, execWakeLatch, latchWake_roused_standby hc hl hp]
    exact ⟨_, rfl, mem_sins_self .., rfl, rfl, rfl, rfl⟩
  · rw [dispatch_wakeLatch, execWakeLatch, latchWake_roused_off hc hl hp]
    exact ⟨_, rfl, mem_sins_self .., rfl, rfl, rfl, rfl⟩
  · rw [dispatch_wakeTimer, execWakeTimer, if_neg (by simp [ha])]
  · rw [dispatch_wakeListWrite, execWakeListWrite, wakeListWrite, roleWrite_taken (by rw [plainOp_wakeList h1 h64]; exact ht.1) ht.2 hh]
    rw [if_neg (by omega), if_neg (by omega)]
    rcases hc with h | h <;> simp [h]
  · rw [dispatch_wakeTimerSWrite, execWakeTimerSWrite, wakeTimerSWrite, roleWrite_taken ht.1 ht.2 hh]
    exact numCheck_none (e := (eRw 4 0 0 0).mine) rfl hv (.inl rfl)

end

section
open Sys2Proof.Machine

/-! SUPPORT. What a durable item comes to (R35, R545, R567), and a reply. -/

namespace Sys2Proof.Machine

/-- A reply stands on the bus; beside it only its session, its buffer and the source of the mailbox move. -/
theorem sendReply_only (s : State) (rq : Req) (idx sub op st : Nat) (data : Bytes) : ∃ o e, sendReply s rq idx sub op st data =
    { s with od := o, eic := e, bus := { s.bus with
      replies := s.bus.replies ++ [(rq, replyBody idx sub op st rq.reqId (if st = 0 then data else []))] } } := by
  unfold sendReply
  dsimp only
  split
  · split
    · split
      · exact ⟨_, _, rfl⟩
      · obtain ⟨e, he⟩ := raise_only _ 1027
        rw [he]
        exact ⟨_, e, rfl⟩
    · exact ⟨_, _, rfl⟩
  · exact ⟨_, _, rfl⟩

theorem inNand_only (s : State) (c : Change) : ∃ k, inNand s c = { s with keys := k } := by
  cases c <;> exact ⟨_, rfl⟩

theorem foldl_inNand_only (l : List Change) (s : State) : ∃ k, l.foldl inNand s = { s with keys := k } := by
  refine foldl_rel (P := fun s t => ∃ k, t = { s with keys := k }) (fun s => ⟨_, rfl⟩) ?_ _ inNand_only l s
  rintro a b c ⟨k, rfl⟩ ⟨k', rfl⟩
  exact ⟨k', rfl⟩

/-- A descriptor whose item is durable may complete (R35). -/
def Slot.durable (x : Slot) : Slot := if x.stage = .closed then { x with stage := .done } else x

theorem Slot.durable_durable (x : Slot) : x.durable.durable = x.durable := by
  unfold Slot.durable
  split <;> simp_all

theorem foldl_durable_slot (l : List Nat) (s : State) (m : Nat) :
    (l.foldl (fun t n => t.modSlot n Slot.durable) s).slot m = if m ∈ l then (s.slot m).map Slot.durable else s.slot m := by
  induction l generalizing s with
  | nil => rfl
  | cons a l ih =>
    rw [List.foldl_cons, ih, State.modSlot_slot]
    by_cases ha : m = a
    · subst a
      cases s.slot m <;> simp [Slot.durable_durable]
    · simp [ha]

theorem foldl_modSlot_only (f : Slot → Slot) (l : List Nat) (s : State) : ∃ a, l.foldl (fun t n => t.modSlot n f) s = { s with adm := a } := by
  refine foldl_rel (P := fun s t => ∃ a, t = { s with adm := a }) (fun s => ⟨s.adm, rfl⟩) ?_ _ (fun t n => ?_) l s
  · rintro a b c ⟨k, rfl⟩ ⟨k', rfl⟩
    exact ⟨k', rfl⟩
  · unfold State.modSlot
    split <;> exact ⟨_, rfl⟩

/-- What a durable item answers (R567). -/
def Item.answer (i : Item) : List (Req × Bytes) :=
  match i.reply with
  | none => []
  | some (rq, idx, sub, op, data) => [(rq, replyBody idx sub op 0 rq.reqId data)]

/-- `t` is `s` once the items `l` are durable. -/
structure Durable (l : List Item) (s t : State) : Prop where
  only : ∃ a b k o e, t = { s with
    adm := a, keys := k, od := o, eic := e,
    commit := { s.commit with base := b, durable := l.foldl (fun d i => max d i.seq) s.commit.durable },
    bus := { s.bus with replies := s.bus.replies ++ l.flatMap Item.answer } }
  slot : ∀ n, t.slot n = if ∃ i ∈ l, n ∈ i.slots then (s.slot n).map Slot.durable else s.slot n
  od : (∀ i ∈ l, i.reply = none) → t.od = s.od

theorem Durable.single {s t : State} {i : Item} {a : Admission} {b : Persist} {k : Keys} {o : Od} {e : Eic}
    (h : t = { s with
      adm := a, keys := k, od := o, eic := e, commit := { s.commit with base := b, durable := max s.commit.durable i.seq },
      bus := { s.bus with replies := s.bus.replies ++ i.answer } })
    (hs : ∀ n, t.slot n = if n ∈ i.slots then (s.slot n).map Slot.durable else s.slot n) (ho : i.reply = none → o = s.od) :
    Durable [i] s t := by
  refine ⟨⟨a, b, k, o, e, by simpa using h⟩, fun n => by simpa using hs n, fun hn => ?_⟩
  rw [h]
  exact ho (by simpa using hn)

theorem durableItem_durable (s : State) (i : Item) : Durable [i] s (durableItem s i) := by
  obtain ⟨a, ha⟩ := foldl_modSlot_only Slot.durable i.slots (growBase s i)
  have hslot := foldl_durable_slot i.slots (growBase s i)
  obtain ⟨k, hk⟩ := foldl_inNand_only i.changes { growBase s i with
    adm := a, commit := { (growBase s i).commit with durable := max (growBase s i).commit.durable i.seq } }
  have hx : durableItem s i = (match i.reply with
      | none => { growBase s i with
        adm := a, keys := k, commit := { (growBase s i).commit with durable := max (growBase s i).commit.durable i.seq } }
      | some (rq, idx, sub, op, data) => sendReply { growBase s i with
        adm := a, keys := k, commit := { (growBase s i).commit with durable := max (growBase s i).commit.durable i.seq } } rq idx sub op 0 data) := by
    rw [durableItem, show (fun (t : State) n => t.modSlot n (fun x => if x.stage = .closed then { x with stage := .done } else x)) =
      fun t n => t.modSlot n Slot.durable from rfl, ha]
    dsimp only
    rw [hk] <;> rfl
  rw [ha] at hslot
  rcases hr : i.reply with _ | ⟨rq, idx, sub, op, data⟩
  · rw [hx, hr]
    exact Durable.single (a := a) (b := (growBase s i).commit.base) (k := k) (o := s.od) (e := s.eic) (by simp [growBase, Item.answer, hr])
      hslot (fun _ => rfl)
  · obtain ⟨o, e, hsend⟩ := sendReply_only { growBase s i with
      adm := a, keys := k, commit := { (growBase s i).commit with durable := max (growBase s i).commit.durable i.seq } } rq idx sub op 0 data
    rw [hx, hr]
    dsimp only
    rw [hsend]
    exact Durable.single (a := a) (b := (growBase s i).commit.base) (k := k) (o := o) (e := e) (by simp [growBase, Item.answer, hr])
      hslot (fun h => by simp [hr] at h)

theorem Durable.refl (s : State) : Durable [] s s :=
  ⟨⟨s.adm, s.commit.base, s.keys, s.od, s.eic, by simp⟩, fun n => by simp, fun _ => rfl⟩

theorem Durable.trans {l m : List Item} {a b c : State} (h : Durable l a b) (h' : Durable m b c) : Durable (l ++ m) a c where
  only := by
    obtain ⟨_, _, _, _, _, rfl⟩ := h.only
    obtain ⟨a', b', k', o', e', rfl⟩ := h'.only
    exact ⟨a', b', k', o', e', by simp⟩
  slot n := by
    rw [h'.slot, h.slot]
    by_cases h1 : ∃ i ∈ l, n ∈ i.slots <;> by_cases h2 : ∃ i ∈ m, n ∈ i.slots <;>
      cases a.slot n <;> simp [h1, h2, or_and_right, exists_or, Slot.durable_durable]
  od hn := by
    rw [h'.od (fun i hi => hn i (List.mem_append_right l hi)), h.od (fun i hi => hn i (List.mem_append_left m hi))]

theorem foldl_durableItem_durable (l : List Item) (s : State) : Durable l s (l.foldl durableItem s) := by
  induction l generalizing s with
  | nil => exact Durable.refl s
  | cons i r ih => exact (durableItem_durable s i).trans (ih (durableItem s i))

theorem le_foldl_max {f : Item → Nat} (l : List Item) (d : Nat) : d ≤ l.foldl (fun d i => max d (f i)) d := by
  induction l generalizing d with
  | nil => exact Nat.le_refl d
  | cons i r ih => exact (Nat.le_max_left ..).trans (ih _)

theorem le_foldl_max_of_mem {f : Item → Nat} {l : List Item} {i : Item} (h : i ∈ l) (d : Nat) : f i ≤ l.foldl (fun d i => max d (f i)) d := by
  induction l generalizing d with
  | nil => simp at h
  | cons j r ih =>
    rcases List.mem_cons.mp h with rfl | h
    · exact (Nat.le_max_right ..).trans (le_foldl_max r _)
    · exact ih h _

section
variable {l : List Item} {s t : State} (h : Durable l s t)
include h

theorem Durable.seq {i : Item} (hi : i ∈ l) : i.seq ≤ t.commit.durable := by
  obtain ⟨_, _, _, _, _, rfl⟩ := h.only
  exact le_foldl_max_of_mem hi _

theorem Durable.le : s.commit.durable ≤ t.commit.durable := by
  obtain ⟨_, _, _, _, _, rfl⟩ := h.only
  exact le_foldl_max l _

theorem Durable.done {i : Item} (hi : i ∈ l) {n : Nat} (hn : n ∈ i.slots) {x : Slot} (hx : s.slot n = some x) (hc : x.stage = .closed) :
    t.slot n = some { x with stage := .done } := by
  rw [h.slot, if_pos ⟨i, hi, hn⟩, hx, Option.map_some, Slot.durable, if_pos hc]

theorem Durable.slot_beside {n : Nat} {x : Slot} (hx : s.slot n = some x) (hn : ∀ i ∈ l, n ∉ i.slots) : t.slot n = some x := by
  rw [h.slot, if_neg (by simpa using hn), hx]

theorem Durable.answers {i : Item} (hi : i ∈ l) {rq : Req} {idx sub op : Nat} {data : Bytes} (hr : i.reply = some (rq, idx, sub, op, data)) :
    (rq, replyBody idx sub op 0 rq.reqId data) ∈ t.bus.replies := by
  obtain ⟨_, _, _, _, _, rfl⟩ := h.only
  refine List.mem_append_right _ (List.mem_flatMap.mpr ⟨i, hi, ?_⟩)
  simp [Item.answer, hr]

theorem Durable.silent (hn : ∀ i ∈ l, i.reply = none) : t.bus = s.bus := by
  obtain ⟨_, _, _, _, _, rfl⟩ := h.only
  have hl : l.flatMap Item.answer = [] := List.flatMap_eq_nil_iff.mpr (fun i hi => by simp [Item.answer, hn i hi])
  simp [hl]

end

theorem exec_journalPageProgrammed_durable {s : State} {c : Closed} {r : List Closed} (hp : s.commit.pages = c :: r) :
    ∃ t, exec .journalPageProgrammed s = .next t ∧
      Durable c.items { s with commit := { s.commit with pages := r, journal := if c.cycle = 0 then s.commit.journal else s.commit.journal ++ [c] } } t :=
  ⟨_, by rw [dispatch_journalPageProgrammed, execJournalPageProgrammed, programPage, hp], foldl_durableItem_durable c.items _⟩

/-! The acknowledgement of a cycle. -/

theorem vaultSend_only (s : State) (c : Closed) : ∃ v, vaultSend s c = { s with bus := { s.bus with vaults := v } } := by
  have hrel : ∀ {α : Type} (g : State → α → State), (∀ t a, ∃ v, g t a = { t with bus := { t.bus with vaults := v } }) →
      ∀ (l : List α) (t : State), ∃ v, l.foldl g t = { t with bus := { t.bus with vaults := v } } := fun g hg l t => by
    refine foldl_rel (P := fun s t => ∃ v, t = { s with bus := { s.bus with vaults := v } }) (fun s => ⟨_, rfl⟩) ?_ g hg l t
    rintro a b c ⟨k, rfl⟩ ⟨k', rfl⟩
    exact ⟨k', rfl⟩
  refine hrel _ (fun t p => ?_) _ _
  refine hrel _ (fun u pos => ?_) _ _
  split <;> exact ⟨_, rfl⟩

/-- The acknowledged cycle gone from those in flight (R545). -/
def acked (s : State) (r : List Closed) : State :=
  { s with commit := { s.commit with cycles := r, soloRequest := s.commit.soloRequest && !r.isEmpty } }

/-- The member that gave its collar away with the cycle (R560). -/
def Pair.givenUp (p : Pair) : Pair := { p with collarTx := false, role := 1, handover := true, switching := none }

theorem exec_commitCycleAck_durable {s : State} {c : Closed} {r : List Closed} (hc : s.commit.cycles = c :: r) (hs : s.pair.solo = false) :
    ∃ u v e, Durable c.items (acked s r) u ∧ exec (.commitCycleAck c.cycle) s = .next { u with
      bus := { u.bus with vaults := v }, eic := e, pair := if c.handover = true then u.pair.givenUp else u.pair } := by
  have hd := foldl_durableItem_durable c.items (acked s r)
  generalize hu : c.items.foldl durableItem (acked s r) = u at hd
  have hv : ∃ v, (if u.seam.quarantine = 0 then vaultSend u c else u) = { u with bus := { u.bus with vaults := v } } := by
    split
    · exact vaultSend_only u c
    · exact ⟨u.bus.vaults, rfl⟩
  obtain ⟨v, hv⟩ := hv
  have hx : exec (.commitCycleAck c.cycle) s = .next (if c.handover then
      noteService s (raise { u with bus := { u.bus with vaults := v }, pair := u.pair.givenUp } 1033)
    else { u with bus := { u.bus with vaults := v } }) := by
    rw [dispatch_commitCycleAck, execCommitCycleAck, hc]
    dsimp only
    rw [if_neg (by simp [hs]), ← acked, hu, hv]
    rfl
  cases hh : c.handover with
  | false => exact ⟨u, v, u.eic, hd, by simpa [hh] using hx⟩
  | true =>
    obtain ⟨e, he⟩ := raise_only { u with bus := { u.bus with vaults := v }, pair := u.pair.givenUp } 1033
    obtain ⟨e', he'⟩ := noteService_only s (raise { u with bus := { u.bus with vaults := v }, pair := u.pair.givenUp } 1033)
    rw [he] at he'
    exact ⟨u, v, e', hd, by rw [hx, if_pos hh, he, he', if_pos rfl]⟩

theorem exec_commitCycleAck_other {s : State} {c : Closed} {r : List Closed} {k : Nat} (hc : s.commit.cycles = c :: r)
    (h : c.cycle ≠ k ∨ s.pair.solo = true) : exec (.commitCycleAck k) s = .next s := by
  rw [dispatch_commitCycleAck, execCommitCycleAck, hc]
  dsimp only
  rw [if_pos h]

end Sys2Proof.Machine

/-- Settles O9: a page's items, or a cycle's, become durable one after the other. -/
theorem durabilityFollowsOrder : Obligations.DurabilityFollowsOrder := by
  unfold Obligations.DurabilityFollowsOrder
  refine ⟨fun s c r hp => ?_, fun s c r hc => ⟨fun hs => ?_, fun hs => exec_commitCycleAck_other hc (.inr hs),
    fun k hk => exec_commitCycleAck_other hc (.inl hk.symm)⟩⟩
  · obtain ⟨t, ht, hd⟩ := exec_journalPageProgrammed_durable hp
    obtain ⟨_, _, _, _, _, htt⟩ := hd.only
    exact ⟨t, ht, by rw [htt], by rw [htt], by rw [htt], by rw [htt], by rw [htt], fun i hi => hd.seq hi, hd.le,
      fun i hi n hn x hx hst => hd.done hi hn hx hst, fun n x hx hn => hd.slot_beside hx hn,
      fun i hi rq idx sub op data hr => hd.answers hi hr, fun hn => ⟨hd.silent hn, hd.od hn⟩, by rw [htt], by rw [htt]⟩
  · obtain ⟨u, v, e, hd, hx⟩ := exec_commitCycleAck_durable hc hs
    obtain ⟨_, _, _, _, _, hu⟩ := hd.only
    refine ⟨_, hx, by rw [hu]; rfl, by rw [hu]; rfl, by rw [hu]; rfl, fun i hi => hd.seq hi, fun i hi n hn x hx hst => hd.done hi hn hx hst,
      fun i hi rq idx sub op data hr => hd.answers hi hr, fun hh => ?_, fun hh => ?_, by rw [hu]; rfl⟩
    · rw [if_neg (by simp [hh]), hu]; rfl
    · rw [if_pos hh]; exact ⟨rfl, rfl⟩

end

section
open Sys2Proof.Machine

/-! SUPPORT. A cycle that closes over the write that dissolves the pair. -/

namespace Sys2Proof.Machine

/-- An active member with a cycle in flight, and the write that clears its pair's identity at the front of its queue (R536). -/
def unpairing : State :=
  { State.reset with
    od := { od0 with store := [(odKey 0x7100 1, leBytes 4 1)] }
    pair := { pair0 with role := 3 }
    commit := { commit0 with cycle := 1, applied := 1, cycles := [⟨1, [], false, false, 0⟩],
                             queue := [⟨[], [.od 0x7100 1 (leBytes 4 0)], 0, none⟩] } }

/-- What a step leaves of SOLO and of the cycles in flight. -/
def inFlight : Host.Outcome State Fault Refusal → Option (Bool × List Nat)
  | .next t => some (t.pair.solo, t.commit.cycles.map Closed.cycle)
  | _ => none

theorem commitCycleClose_unpairing : inFlight (exec .commitCycleClose unpairing) = some (false, [2]) := by decide

end Sys2Proof.Machine

/-- Refutes O8: a cycle that takes the write of a pair identity of 0 dissolves the pair, which moves the cycles in flight to the
journal's pages before the closed cycle joins them. The active member of `unpairing` has cycle 1 in flight and closes cycle 2 over that
write: cycle 2 stands alone, not behind cycle 1. -/
theorem not_commitCloses : ¬ Obligations.CommitCloses := by
  unfold Obligations.CommitCloses
  rintro ⟨hclose, -⟩
  obtain ⟨t, c, -, ht, -, -, -, -, -, -, -, hcycles, -⟩ := hclose unpairing (by decide) (by decide) (by decide)
  have hflight : (t.pair.solo, t.commit.cycles.map Closed.cycle) = (false, [2]) := by
    have h := commitCycleClose_unpairing
    rw [ht] at h
    exact Option.some.inj h
  obtain ⟨hsolo, hlist⟩ := Prod.mk.inj hflight
  rw [(hcycles hsolo).1, List.map_append] at hlist
  exact absurd (congrArg List.length hlist) (by simp [unpairing])

end

section
open Sys2Proof.Machine

/-! SUPPORT. The main die's response to an alarm, and what it leaves (R430 to R434). -/

namespace Sys2Proof.Machine

/-- What the main die's response does not change once it is taken: the stored records and seals, the life-cycle block, the dictionary's
values, the supply, the stream, and of the Cocoon all but the path that ERASE cuts. -/
structure Harmless (s t : State) : Prop where
  recs : t.keys.recs = s.keys.recs
  lineage : t.keys.lineage = s.keys.lineage
  life : t.life = s.life
  store : t.od.store = s.od.store
  power : t.power = s.power
  free : t.free = s.free
  base : t.commit.base = s.commit.base
  tamper : ∃ c, t.tamper = { s.tamper with pathCut := c }
  part : ∀ p, (t.part p).key = (s.part p).key ∧ (t.part p).current = (s.part p).current

namespace Harmless

theorem refl (s : State) : Harmless s s := ⟨rfl, rfl, rfl, rfl, rfl, rfl, rfl, ⟨_, rfl⟩, fun _ => ⟨rfl, rfl⟩⟩

theorem trans {a b c : State} (h : Harmless a b) (h' : Harmless b c) : Harmless a c where
  recs := h'.recs.trans h.recs
  lineage := h'.lineage.trans h.lineage
  life := h'.life.trans h.life
  store := h'.store.trans h.store
  power := h'.power.trans h.power
  free := h'.free.trans h.free
  base := h'.base.trans h.base
  tamper := by
    obtain ⟨p, hp⟩ := h.tamper
    obtain ⟨p', hp'⟩ := h'.tamper
    exact ⟨p', by rw [hp', hp]⟩
  part p := ⟨(h'.part p).1.trans (h.part p).1, (h'.part p).2.trans (h.part p).2⟩

theorem fold {α : Type} {g : State → α → State} (hg : ∀ t a, Harmless t (g t a)) (l : List α) (s : State) : Harmless s (l.foldl g s) :=
  foldl_rel refl (fun _ _ _ => trans) g hg l s

theorem of_parts {s t : State} (h : WorkOnly s t) (hp : ∀ p, (t.part p).key = (s.part p).key ∧ (t.part p).current = (s.part p).current) :
    Harmless s t :=
  ⟨by rw [h.keys], by rw [h.keys], h.life, by rw [h.od], h.power, h.free, by rw [h.commit], ⟨_, by rw [h.tamper]⟩, hp⟩

theorem of_endsWork {s t : State} (h : EndsWork s t) : Harmless s t :=
  of_parts h.work (fun p => by obtain ⟨d, hd⟩ := h.part p; simp [hd])

theorem setEic (s : State) (e : Eic) : Harmless s { s with eic := e } :=
  ⟨rfl, rfl, rfl, rfl, rfl, rfl, rfl, ⟨_, rfl⟩, fun _ => ⟨rfl, rfl⟩⟩

theorem noteService (b s : State) : Harmless s (noteService b s) := by
  obtain ⟨e, he⟩ := noteService_only b s
  rw [he]
  exact setEic s e

theorem raise (s : State) (n : Nat) : Harmless s (raise s n) := by
  obtain ⟨e, he⟩ := raise_only s n
  rw [he]
  exact setEic s e

end Harmless

/-! ### Cutting the work of the rings -/

/-- What a cut that discards nothing leaves: the queue of changes may lose what it withdraws, the rings and partitions stand. -/
def CutOnly (s t : State) : Prop := ∃ q, HeldOnly { s with commit := { s.commit with queue := q } } t

namespace CutOnly

theorem of_held {s t : State} (h : HeldOnly s t) : CutOnly s t := ⟨s.commit.queue, h⟩

theorem refl (s : State) : CutOnly s s := of_held (.refl s)

theorem trans {a b c : State} (h : CutOnly a b) (h' : CutOnly b c) : CutOnly a c := by
  obtain ⟨q, _, _, _, _, _, rfl⟩ := h
  obtain ⟨q', h'⟩ := h'
  exact ⟨q', HeldOnly.trans ⟨_, _, _, _, _, rfl⟩ h'⟩

theorem fold {α : Type} {g : State → α → State} (hg : ∀ t a, CutOnly t (g t a)) (l : List α) (s : State) : CutOnly s (l.foldl g s) :=
  foldl_rel refl (fun _ _ _ => trans) g hg l s

theorem rings {s t : State} (h : CutOnly s t) : t.rings = s.rings := by
  obtain ⟨_, _, _, _, _, _, rfl⟩ := h; rfl

theorem harmless {s t : State} (h : CutOnly s t) : Harmless s t := by
  obtain ⟨_, _, _, _, _, _, rfl⟩ := h
  exact ⟨rfl, rfl, rfl, rfl, rfl, rfl, rfl, ⟨_, rfl⟩, fun _ => ⟨rfl, rfl⟩⟩

theorem keys {s t : State} (h : CutOnly s t) : t.keys = s.keys := by
  obtain ⟨_, _, _, _, _, _, rfl⟩ := h; rfl

theorem modSlot (s : State) (n : Nat) (f : Slot → Slot) : CutOnly s (s.modSlot n f) := of_held (.modSlot s n f)

theorem finish (s : State) (n : Nat) (st : Status) (d : Nat) : CutOnly s (finish s n st d) := of_held (.finish s n st d)

theorem withdraw_finish (s : State) (n : Nat) (st : Status) (d : Nat) : CutOnly s (Machine.finish (withdraw s n) n st d) :=
  ⟨_, HeldOnly.finish (withdraw s n) n st d⟩

theorem unqueue_finish (s : State) (n : Nat) (u : UnitClass × Nat) (st : Status) (d : Nat) : CutOnly s (Machine.finish (unqueue s n u) n st d) :=
  of_held ((HeldOnly.unqueue s n u).trans (.finish _ n st d))

theorem dropStep_finish (s : State) (n : Nat) (x : Slot) (st : Status) (d : Nat) : CutOnly s (Machine.finish (dropStep s n x) n st d) := by
  unfold dropStep
  split
  · exact finish s n st d
  · exact unqueue_finish s n _ st d

/-- A cut that ends what waits, as every cut but a disable's does (R81, R134). -/
theorem cutOne {s : State} {k : Cut} {st : Status} (hk : k.waiting = some st) (n : Nat) (x : Slot) : CutOnly s (cutOne s k n x) := by
  unfold Machine.cutOne
  rw [hk]
  split
  · exact refl s
  · exact refl s
  · split
    · exact withdraw_finish s n _ _
    · exact withdraw_finish s n _ _
    · exact refl s
  · exact modSlot s n _
  · split
    · split
      · split
        · exact finish s n _ _
        · exact refl s
      · split
        · exact refl s
        · split
          · exact modSlot s n _
          · exact unqueue_finish s n _ _ _
    · exact dropStep_finish s n x _ _

theorem cutChained {s : State} {k : Cut} {st : Status} (hk : k.waiting = some st) (n : Nat) (x : Slot) (first : Nat) :
    CutOnly s (cutChained s k n x first) := by
  unfold Machine.cutChained
  dsimp only
  split
  · simp [Cut.waiting] at hk
  · split
    · exact refl s
    · split
      · split
        · exact modSlot s n _
        · exact finish s n _ _
      · split
        · exact of_held (.endEntry s n x _)
        · split
          · exact modSlot s n _
          · exact unqueue_finish s n _ _ _

theorem cutRing {s : State} {k : Cut} {st : Status} (hk : k.waiting = some st) (rid : Nat) : CutOnly s (cutRing s k rid) := by
  refine fold (fun t e => ?_) _ s
  unfold cutSlot
  split
  · exact refl t
  · split
    · exact cutOne hk _ _
    · split
      · exact cutChained hk _ _ _
      · exact cutOne hk _ _

end CutOnly

/-! ### HALT and LOCK -/

theorem sendReply_od (s : State) (rq : Req) (idx sub op st : Nat) (data : Bytes) : ∃ ss y d u l r, (sendReply s rq idx sub op st data).od =
    { s.od with sessions := ss, busy := y, dropReply := d, replyUp := u, replyLen := l, replyBuf := r } := by
  unfold sendReply
  dsimp only
  split
  · split
    · split
      · exact ⟨_, _, _, _, _, _, rfl⟩
      · rw [raise_od]
        exact ⟨_, _, _, _, _, _, rfl⟩
    · exact ⟨_, _, _, _, _, _, rfl⟩
  · exact ⟨_, _, _, _, _, _, rfl⟩

theorem sendReply_store (s : State) (rq : Req) (idx sub op st : Nat) (data : Bytes) : (sendReply s rq idx sub op st data).od.store = s.od.store := by
  obtain ⟨_, _, _, _, _, _, h⟩ := sendReply_od s rq idx sub op st data
  rw [h]

theorem Harmless.sendReply (s : State) (rq : Req) (idx sub op st : Nat) (data : Bytes) : Harmless s (sendReply s rq idx sub op st data) := by
  have hs := sendReply_store s rq idx sub op st data
  obtain ⟨o, e, h⟩ := sendReply_only s rq idx sub op st data
  rw [h] at hs ⊢
  exact ⟨rfl, rfl, rfl, hs, rfl, rfl, rfl, ⟨_, rfl⟩, fun _ => ⟨rfl, rfl⟩⟩

theorem Harmless.haltRings (s : State) {k : Cut} {st : Status} (hk : k.waiting = some st) : Harmless s (haltRings s k) :=
  fold (fun t rid => ((of_endsWork (EndsWork.dropReservation t rid)).trans (of_endsWork (EndsWork.modRing _ rid _))).trans
    (CutOnly.cutRing hk rid).harmless) _ s

theorem haltRings_keys (s : State) {k : Cut} {st : Status} (hk : k.waiting = some st) : (haltRings s k).keys = s.keys :=
  foldl_rel (P := fun a b : State => b.keys = a.keys) (fun _ => rfl) (fun _ _ _ h h' => h'.trans h) _
    (fun t rid => ((CutOnly.cutRing hk rid).keys.trans (WorkOnly.stopRing _ rid _).keys).trans (WorkOnly.dropReservation t rid).keys) _ s

/-- A ring stopping toward HALTED. -/
def HaltsAt (k : Nat) (s : State) : Prop := (s.ring k).state = .stopping ∧ (s.ring k).settle = .halted

/-- One ring stopped toward HALTED, its work cut. -/
def haltRing (k : Cut) (t : State) (rid : Nat) : State := cutRing (stopRing (dropReservation t rid) rid .halted) k rid

theorem haltRing_ring {k : Cut} {st : Status} (hk : k.waiting = some st) (t : State) (rid r : Nat) :
    ∃ c, (haltRing k t rid).ring r = (stopRing (t.modRing r (fun x => { x with chainWait := c })) rid .halted).ring r := by
  obtain ⟨c, hc⟩ := dropReservation_ring t rid r
  refine ⟨c, ?_⟩
  have hr : (haltRing k t rid).ring r = (stopRing (dropReservation t rid) rid .halted).ring r := by
    simp only [State.ring, haltRing, (CutOnly.cutRing (s := stopRing (dropReservation t rid) rid .halted) hk rid).rings]
  rw [hr]
  simp only [stopRing, State.modRing_ring]
  split
  · subst r; simp [hc]
  · simp [hc]

theorem HaltsAt.haltRing {k : Cut} {st : Status} (hk : k.waiting = some st) {t : State} {r : Nat} (rid : Nat) (h : HaltsAt r t) :
    HaltsAt r (haltRing k t rid) := by
  obtain ⟨hst, hse⟩ := h
  obtain ⟨c, hc⟩ := haltRing_ring hk t rid r
  rw [HaltsAt, hc, stopRing, State.modRing_ring]
  split
  · subst r; simp [hst]
  · simp [hst, hse]

theorem haltRing_halts {k : Cut} {st : Status} (hk : k.waiting = some st) {t : State} {r : Nat} (h : (t.ring r).state = .enabled ∨ HaltsAt r t) :
    HaltsAt r (haltRing k t r) := by
  rcases h with he | h
  · obtain ⟨c, hc⟩ := haltRing_ring hk t r r
    rw [HaltsAt, hc, stopRing]
    simp [he]
  · exact h.haltRing hk r

theorem mem_tkeys_tfilter {α : Type} {t : Tab α} {p : Nat → α → Bool} {k : Nat} {x : α} (h : tget t k = some x) (hp : p k x = true) :
    k ∈ tkeys (tfilter t p) :=
  List.mem_map.mpr ⟨(k, x), List.mem_filter.mpr ⟨mem_of_tget h, hp⟩, rfl⟩

theorem haltRings_halts {s : State} {k : Cut} {st : Status} (hk : k.waiting = some st) {r : Nat} (h : (s.ring r).state = .enabled) :
    HaltsAt r (haltRings s k) := by
  have hmem : r ∈ tkeys (tfilter s.rings (fun _ r => r.state != .disabled)) := by
    rcases hg : tget s.rings r with _ | x
    · simp [State.ring, tgetD, hg, ring0] at h
    · exact mem_tkeys_tfilter hg (by simp [State.ring, tgetD, hg] at h; simp [h])
  refine foldl_reaches (I := fun t => (t.ring r).state = .enabled ∨ HaltsAt r t) (Q := HaltsAt r) (g := haltRing k) (fun t rid hi => ?_)
    (fun t rid => HaltsAt.haltRing hk rid) hmem (fun t => haltRing_halts hk) (.inl h)
  rcases hi with he | hq
  · by_cases hr : r = rid
    · subst hr; exact .inr (haltRing_halts hk (.inl he))
    · obtain ⟨c, hc⟩ := haltRing_ring hk t rid r
      refine .inl ?_
      rw [hc, stopRing, State.modRing_ring, if_neg hr]
      simp [he]
  · exact .inr (hq.haltRing hk rid)

theorem Harmless.releaseCollar (s : State) : Harmless s (releaseCollar s) := by
  have hp : ∀ p, Harmless s { s with pair := p } := fun p => ⟨rfl, rfl, rfl, rfl, rfl, rfl, rfl, ⟨_, rfl⟩, fun _ => ⟨rfl, rfl⟩⟩
  unfold Machine.releaseCollar
  split
  · dsimp only
    split
    · exact (hp _).trans (raise _ 1033)
    · exact hp _
  · exact refl s

theorem releaseCollar_keys (s : State) : (releaseCollar s).keys = s.keys := by
  unfold releaseCollar
  split
  · dsimp only
    split
    · rw [raise_keys]
    · rfl
  · rfl

theorem releaseCollar_rings (s : State) : (releaseCollar s).rings = s.rings := by
  unfold releaseCollar
  split
  · dsimp only
    split
    · rw [raise_rings]
    · rfl
  · rfl

/-- The tasks that waited for KD, answered with SERVICE_LOCKED (R433). -/
def lockAnswers (s : State) : State :=
  s.keys.kdJobs.foldl (fun t j => match j.rq with
    | none => t
    | some (rq, idx, sub, op) => sendReply t rq idx sub op (Status.code .serviceLocked) []) s

/-- The work that the opened keys held, ended (R433). -/
def lockEnds (s : State) : State :=
  let s1 := closeSessions (freePages s (fun _ => true)) (fun _ => true)
  tkeys s1.units.engines |>.foldl (fun t e => t.modEngine e (fun x => { x.zeroed with blind := [] })) s1

theorem lockEnds_held (s : State) : HeldOnly s (lockEnds s) :=
  (HeldOnly.trans (b := freePages s (fun _ => true)) ⟨_, _, _, _, _, rfl⟩ (.closeSessions _ _)).trans
    (HeldOnly.fold (fun t e => .modEngine t e _) _ _)

theorem lockClear_eq (s : State) : ∃ u, lockClear s = { lockEnds (lockAnswers s) with
    units := u
    keys := { (lockEnds (lockAnswers s)).keys with cache := [], unwrap := [], kd := none, kdJobs := [] }
    parts := tmap (lockEnds (lockAnswers s)).parts (fun _ x => { x with psk := none, pmk := none, recKey := none })
    resv := []
    atcResv := [] } := ⟨_, rfl⟩

theorem Harmless.lockAnswers (s : State) : Harmless s (lockAnswers s) :=
  fold (fun t j => by
    split
    · exact refl t
    · exact sendReply t _ _ _ _ _ _) _ s

theorem State.part_tmap (s : State) {f : Nat → Part → Part} (hf : f = fun _ x => { x with psk := none, pmk := none, recKey := none }) (p : Nat) :
    tgetD (tmap s.parts f) p (part0 p) = { s.part p with psk := none, pmk := none, recKey := none } := by
  subst hf
  rw [State.part, tgetD, tget_tmap, tgetD]
  cases tget s.parts p <;> rfl

theorem Harmless.lockClear (s : State) : Harmless s (lockClear s) := by
  obtain ⟨u, hu⟩ := lockClear_eq s
  have hheld := CutOnly.harmless (.of_held (lockEnds_held (Machine.lockAnswers s)))
  refine ((lockAnswers s).trans hheld).trans ?_
  rw [hu]
  refine ⟨rfl, rfl, rfl, rfl, rfl, rfl, rfl, ⟨_, rfl⟩, fun p => ?_⟩
  simp only [State.part, State.part_tmap _ rfl p]
  exact ⟨trivial, trivial⟩

/-- What LOCK leaves of the keys and the opened storage keys. -/
theorem lockClear_clears (s : State) : (lockClear s).keys.cache = [] ∧ (lockClear s).keys.kd = none ∧ (lockClear s).keys.kdJobs = [] ∧
    (∀ p, ((lockClear s).part p).psk = none ∧ ((lockClear s).part p).recKey = none) ∧ (lockClear s).rings = (lockAnswers s).rings ∧
    (lockClear s).bus = (lockAnswers s).bus := by
  obtain ⟨u, hu⟩ := lockClear_eq s
  obtain ⟨_, _, _, _, _, he⟩ := lockEnds_held (lockAnswers s)
  rw [hu]
  refine ⟨rfl, rfl, rfl, fun p => ?_, by rw [he], by rw [he]⟩
  simp only [State.part, State.part_tmap _ rfl p]
  exact ⟨trivial, trivial⟩

theorem lockAnswers_rings (s : State) : (lockAnswers s).rings = s.rings :=
  foldl_rel (P := fun a b : State => b.rings = a.rings) (fun _ => rfl) (fun _ _ _ h h' => h'.trans h) _
    (fun t j => by
      split
      · rfl
      · obtain ⟨o, e, h⟩ := sendReply_only t _ _ _ _ _ _
        rw [h]) _ s

theorem lockAnswers_answers {s : State} {j : KdJob} (hj : j ∈ s.keys.kdJobs) {rq : Req} {idx sub op : Nat} (hr : j.rq = some (rq, idx, sub, op)) :
    (rq, replyBody idx sub op Status.serviceLocked.code rq.reqId []) ∈ (lockAnswers s).bus.replies := by
  refine foldl_reaches (I := fun _ => True)
    (Q := fun t => (rq, replyBody idx sub op Status.serviceLocked.code rq.reqId []) ∈ t.bus.replies) (fun _ _ _ => trivial) (fun t k hq => ?_) hj
    (fun t _ => ?_) (s := s) trivial
  · split
    · exact hq
    · obtain ⟨o, e, h⟩ := sendReply_only t _ _ _ _ _ _
      rw [h]
      exact List.mem_append_left _ hq
  · rw [hr]
    obtain ⟨o, e, h⟩ := sendReply_only t rq idx sub op Status.serviceLocked.code []
    dsimp only
    rw [h]
    exact List.mem_append_right _ (by simp)

/-- Rings halted and every session closed: what HALT does and LOCK begins with (R431, R433). -/
def haltAll (s : State) (cls : AlarmClass) (entropy : Bool) : State :=
  closeSessions (haltRings (releaseCollar { s with service := if s.service = .locked then .locked else .halted })
    (if 3 ≤ cls.code then .lock else if entropy then .entropy else .halt)) (fun _ => true)

theorem cutOf_waiting (cls : AlarmClass) (entropy : Bool) :
    ∃ st, Cut.waiting (if 3 ≤ cls.code then .lock else if entropy then .entropy else .halt) = some st := by
  split
  · exact ⟨_, rfl⟩
  · split <;> exact ⟨_, rfl⟩

theorem Harmless.setService (s : State) (v : Service) : Harmless s { s with service := v } :=
  ⟨rfl, rfl, rfl, rfl, rfl, rfl, rfl, ⟨_, rfl⟩, fun _ => ⟨rfl, rfl⟩⟩

theorem Harmless.haltAll (s : State) (cls : AlarmClass) (entropy : Bool) : Harmless s (haltAll s cls entropy) := by
  obtain ⟨st, hst⟩ := cutOf_waiting cls entropy
  exact (((setService s _).trans (releaseCollar _)).trans (haltRings _ hst)).trans (of_endsWork (EndsWork.closeSessions _ _))

theorem haltAll_keys (s : State) (cls : AlarmClass) (entropy : Bool) : (haltAll s cls entropy).keys = s.keys := by
  obtain ⟨st, hst⟩ := cutOf_waiting cls entropy
  rw [haltAll, closeSessions_keys, haltRings_keys _ hst, releaseCollar_keys]

theorem haltAll_halts {s : State} (cls : AlarmClass) (entropy : Bool) {r : Nat} (h : (s.ring r).state = .enabled) :
    HaltsAt r (haltAll s cls entropy) := by
  obtain ⟨st, hst⟩ := cutOf_waiting cls entropy
  have he : ((releaseCollar { s with service := if s.service = .locked then .locked else .halted }).ring r).state = .enabled := by
    rw [State.ring, releaseCollar_rings]; exact h
  have hq := haltRings_halts hst he
  rw [HaltsAt, haltAll, State.ring, (HeldOnly.closeSessions _ _).rings]
  exact hq

theorem mainActions_eq {s : State} {cls : AlarmClass} (entropy : Bool) (h2 : 2 ≤ cls.code) : mainActions s cls entropy =
    (let s2 := if 3 ≤ cls.code then { lockClear (haltAll s cls entropy) with service := .locked } else haltAll s cls entropy
     if 4 ≤ cls.code then { s2 with tamper := { s2.tamper with pathCut := true } } else s2) := by
  rw [mainActions, if_pos h2]; rfl

theorem Harmless.cutPath (s : State) : Harmless s { s with tamper := { s.tamper with pathCut := true } } :=
  ⟨rfl, rfl, rfl, rfl, rfl, rfl, rfl, ⟨_, rfl⟩, fun _ => ⟨rfl, rfl⟩⟩

theorem Harmless.mainActions {s : State} {cls : AlarmClass} (entropy : Bool) (h2 : 2 ≤ cls.code) : Harmless s (mainActions s cls entropy) := by
  rw [mainActions_eq entropy h2]
  have hl : Harmless s (if 3 ≤ cls.code then { Machine.lockClear (Machine.haltAll s cls entropy) with service := .locked }
      else Machine.haltAll s cls entropy) := by
    split
    · exact ((haltAll s cls entropy).trans (lockClear _)).trans (setService _ _)
    · exact haltAll s cls entropy
  dsimp only
  split
  · exact hl.trans (cutPath _)
  · exact hl

theorem Harmless.stoppedActions (s : State) (cls : AlarmClass) : Harmless s (stoppedActions s cls) := by
  unfold Machine.stoppedActions
  have hl : Harmless s (if 3 ≤ cls.code then Machine.lockClear s else s) := by
    split
    · exact lockClear s
    · exact refl s
  dsimp only
  split
  · exact hl.trans (cutPath _)
  · exact hl

/-- The response taken, before it acts (R430). -/
def responding (s : State) (cls : AlarmClass) : State :=
  { s with tamper := { s.tamper with response := some cls }
           life := { s.life with dbgOpen := false, dbgLevel := 0, dbgScope := 0, dbgEnd := 0 } }

theorem mainResponse_untaken {s : State} {cls : AlarmClass} (entropy : Bool)
    (h : s.power.mainOk = false ∨ cls.code ≤ (s.tamper.response.map (·.code)).getD 0 ∨ cls.code < 2) : mainResponse s cls entropy = s := by
  unfold mainResponse
  rw [if_pos]
  simp only [Bool.or_eq_true, Bool.not_eq_true', decide_eq_true_eq]
  tauto

theorem mainResponse_taken {s : State} {cls : AlarmClass} (entropy : Bool) (hm : s.power.mainOk = true)
    (hr : (s.tamper.response.map (·.code)).getD 0 < cls.code) (h2 : 2 ≤ cls.code) : mainResponse s cls entropy =
      if s.booting then responding s cls
      else if s.service = .bootStopped then stoppedActions (responding s cls) cls
      else noteService s (mainActions (responding s cls) cls entropy) := by
  unfold mainResponse
  rw [if_neg]
  · rfl
  · simp only [Bool.or_eq_true, Bool.not_eq_true', decide_eq_true_eq]
    rintro ((h | h) | h)
    · simp [hm] at h
    · exact Nat.not_le.mpr hr h
    · exact Nat.not_le.mpr h h2

theorem mainResponse_taken_harmless {s : State} {cls : AlarmClass} (entropy : Bool) (hm : s.power.mainOk = true)
    (hr : (s.tamper.response.map (·.code)).getD 0 < cls.code) (h2 : 2 ≤ cls.code) :
    Harmless (responding s cls) (mainResponse s cls entropy) := by
  rw [mainResponse_taken entropy hm hr h2]
  split
  · exact .refl _
  · split
    · exact .stoppedActions _ _
    · exact (Harmless.mainActions entropy h2).trans (.noteService _ _)

theorem mainResponse_harmless (s : State) (cls : AlarmClass) (entropy : Bool) :
    mainResponse s cls entropy = s ∨ Harmless (responding s cls) (mainResponse s cls entropy) := by
  by_cases h : s.power.mainOk = false ∨ cls.code ≤ (s.tamper.response.map (·.code)).getD 0 ∨ cls.code < 2
  · exact .inl (mainResponse_untaken entropy h)
  · simp only [not_or, Bool.not_eq_false, Nat.not_le, Nat.not_lt] at h
    obtain ⟨hm, hr, h2⟩ := h
    exact .inr (mainResponse_taken_harmless entropy hm hr h2)

/-! ### An alarm in the Cocoon -/

/-- What an alarm leaves beside what it latches: the log, the pending bits and Looper's queue move. -/
def AlarmOnly (s t : State) : Prop := ∃ l e x u, t = { s with log := l, eic := e, tamper := x, units := u }

theorem alarmRecord_only (s : State) (flag : Nat) (cls : AlarmClass) (reading : Nat) :
    ∃ l r p, alarmRecord s flag cls reading = { s with log := l, tamper := { s.tamper with recent := r, repeats := p } } := by
  unfold alarmRecord
  dsimp only
  split
  · split
    · exact ⟨_, _, _, rfl⟩
    · obtain ⟨l, hl⟩ := logRepeat_only s (tgetD s.tamper.repeats flag 0) cls.severity (0x0800 + flag) 0x0801 0xFF cls.code (leBytes 4 reading)
      rw [hl]
      exact ⟨_, _, _, rfl⟩
  · obtain ⟨l, hl⟩ := logRepeat_only s 0 cls.severity (0x0800 + flag) 0x0801 0xFF cls.code (leBytes 4 reading)
    rw [hl]
    exact ⟨_, _, _, rfl⟩

/-- What an alarm latches (R418, R427). -/
def Tamper.alarmed (t : Tamper) (flag : Nat) (cls : AlarmClass) (acts : Bool) : Tamper :=
  { t with flags := sins flag t.flags
           counts := tset t.counts flag (min 0xFFFFFFFF (tgetD t.counts flag 0 + 1))
           machine := t.machine.max (if acts then AlarmClass.max cls .alert else .alert)
           alarmOut := t.alarmOut || (decide (1 ≤ cls.code) && acts)
           latch := t.latch || decide (3 ≤ cls.code)
           lockCause := if !t.latch && decide (3 ≤ cls.code) then flag else t.lockCause
           lockedOut := t.lockedOut || decide (3 ≤ cls.code) }

theorem cocoonAlarm_only (s : State) (flag : Nat) (cls : AlarmClass) (reading : Nat) : ∃ l e r p u, cocoonAlarm s flag cls reading =
    { s with
      log := l, eic := e, units := u
      tamper := { Tamper.alarmed { s.tamper with recent := r, repeats := p } flag cls (decide (3 ≤ cls.code) || !s.asleep) with
        drs := if 4 ≤ cls.code then none else s.tamper.drs } } := by
  obtain ⟨l, r, p, hr⟩ := alarmRecord_only s flag cls reading
  obtain ⟨e, he⟩ := raise_only (alarmRecord s flag cls reading) (1280 + flag)
  rw [hr] at he
  unfold cocoonAlarm
  rw [hr, he]
  dsimp only
  split
  · exact ⟨l, e, r, p, _, rfl⟩
  · exact ⟨l, e, r, p, _, rfl⟩

/-- What the alarm of a flag leaves (R418, R427, R430, R437). -/
structure Latched (f : Nat) (c : AlarmClass) (s t : State) : Prop where
  alarmed : Alarmed s t f c
  recs : t.keys.recs = s.keys.recs
  lineage : t.keys.lineage = s.keys.lineage
  otp : t.life.otp = s.life.otp
  store : t.od.store = s.od.store
  power : t.power = s.power
  free : t.free = s.free

theorem Latched.before {f : Nat} {c : AlarmClass} {s s' t : State} (h : Latched f c s' t) {p : Tab Nat} {l w : Tab Input}
    (hs : s' = { s with tamper := { s.tamper with prbs := p, loops := l, switches := w } }) : Latched f c s t := by
  subst hs
  exact ⟨h.alarmed, h.recs, h.lineage, h.otp, h.store, h.power, h.free⟩

theorem Latched.responding {f : Nat} {c d : AlarmClass} {s t : State} (h : Latched f c s t) : Latched f c s (responding t d) :=
  ⟨h.alarmed, h.recs, h.lineage, h.otp, h.store, h.power, h.free⟩

theorem Latched.after {f : Nat} {c : AlarmClass} {s t u : State} (h : Latched f c s t) (hu : Harmless t u) : Latched f c s u := by
  obtain ⟨p, hp⟩ := hu.tamper
  exact ⟨by rw [Alarmed, hp]; exact h.alarmed, hu.recs.trans h.recs, hu.lineage.trans h.lineage, by rw [hu.life, h.otp],
    hu.store.trans h.store, hu.power.trans h.power, hu.free.trans h.free⟩

theorem Latched.mainResponse {f : Nat} {c : AlarmClass} {s t : State} (h : Latched f c s t) (d : AlarmClass) (entropy : Bool) :
    Latched f c s (mainResponse t d entropy) := by
  rcases mainResponse_harmless t d entropy with he | hh
  · rw [he]; exact h
  · exact h.responding.after hh

theorem latched_cocoonAlarm (s : State) (f : Nat) (c : AlarmClass) (reading : Nat) : Latched f c s (cocoonAlarm s f c reading) := by
  obtain ⟨l, e, r, p, u, h⟩ := cocoonAlarm_only s f c reading
  rw [h]
  refine ⟨⟨mem_sins_self f _, fun g hg => mem_sins.mpr (.inr hg), ?_, rfl, rfl, rfl⟩, rfl, rfl, rfl, rfl, rfl, rfl⟩
  simp [Tamper.alarmed]

theorem latched_mainFlag (s : State) (f reading : Nat) : Latched f (s.flagClassNow f) s (mainFlag s f reading) :=
  (latched_cocoonAlarm s f _ reading).mainResponse _ _

theorem latched_cocoonFlag (s : State) (f reading : Nat) : Latched f (s.flagClassNow f) s (cocoonFlag s f reading) := by
  have h := latched_cocoonAlarm s f (s.flagClassNow f) reading
  unfold cocoonFlag cocoonSource
  dsimp only
  split
  · exact ⟨h.alarmed, h.recs, h.lineage, h.otp, h.store, h.power, h.free⟩
  · exact h

/-- The same for a sample taken first. -/
theorem latched_sampled (s : State) (p : Tab Nat) (l w : Tab Input) (f reading : Nat) : Latched f (s.flagClassNow f) s
    (cocoonFlag { s with tamper := { s.tamper with prbs := p, loops := l, switches := w } } f reading) :=
  (latched_cocoonFlag { s with tamper := { s.tamper with prbs := p, loops := l, switches := w } } f reading).before rfl

theorem latched_clockFlag {s : State} {f : Nat} (reading : Nat) (h : s.powered = true ∨ f = 147) :
    Latched f (s.flagClassNow f) s (clockFlag s f reading) := by
  unfold clockFlag
  split
  · exact latched_mainFlag s f reading
  · rw [if_pos (by rcases h with h | h <;> simp [h])]
    exact latched_cocoonFlag s f reading

theorem prbsSample_snd (s : State) (f r : Nat) : (prbsSample s f r).2 = { s with tamper := { s.tamper with prbs := (prbsSample s f r).2.tamper.prbs } } := by
  unfold prbsSample
  split <;> rfl

/-- An enclosure loop whose sample fails: its input's counters, then its flag (R421). -/
theorem exec_enclosureLoopAlarm_fails {s u : State} {n r : Nat} (hn : n < 64) (hm : s.loopMode n ≠ 0)
    (h : (if s.loopMode n = 1 then (!s.loopPasses n r, s) else prbsSample s (48 + n) r) = (true, u)) :
    ∃ l, exec (.enclosureLoopAlarm n r) s = .next (cocoonFlag { u with tamper := { u.tamper with loops := l } } (48 + n) r) := by
  rw [dispatch_enclosureLoopAlarm, execEnclosureLoopAlarm]
  dsimp only
  rw [h]
  dsimp only
  rw [if_neg (by omega), if_neg (by simp)]
  exact ⟨_, rfl⟩

/-- What each sensed occurrence latches, by its monitor (R420 to R426). -/
theorem senses_latches {c : Sys2Proof.Instr} {f : Nat} {s : State} (h : senses c s f) :
    ∃ t, exec c s = .next t ∧ Latched f (s.flagClassNow f) s t := by
  rcases h with ⟨r, rfl, hf, hp⟩ | ⟨n, r, rfl, hn, rfl, hm⟩ | ⟨n, r, rfl, hn, rfl, hm⟩ | ⟨n, r, rfl, hn, rfl, hm⟩ | ⟨r, rfl, h1, h2, ha⟩ |
    ⟨r, rfl, hf⟩ | ⟨r, rfl, rfl, hp⟩ | ⟨r, rfl, rfl, hp⟩ | ⟨rfl, rfl⟩ | ⟨n, r, rfl, hn, rfl, hm⟩ | ⟨r, rfl, rfl, hm, hp⟩
  · have hs := prbsSample_snd s f r
    have hc : (prbsSample s f r).2.flagClassNow f = s.flagClassNow f := by rw [hs]; rfl
    refine ⟨cocoonFlag (prbsSample s f r).2 f r, ?_, hc ▸ (latched_cocoonFlag (prbsSample s f r).2 f r).before hs⟩
    rw [dispatch_mantleChannelAlarm, execMantleChannelAlarm]
    simp [hp, Nat.not_le.mpr hf]
  · rcases hm with ⟨hm, hp⟩ | ⟨hm, hp⟩
    · obtain ⟨l, hx⟩ := exec_enclosureLoopAlarm_fails (s := s) (r := r) (u := (prbsSample s (48 + n) r).2) hn (by omega)
        (by rw [if_neg (by omega), ← hp])
      have hs := prbsSample_snd s (48 + n) r
      have hl : { (prbsSample s (48 + n) r).2 with tamper := { (prbsSample s (48 + n) r).2.tamper with loops := l } } =
          { s with tamper := { s.tamper with prbs := (prbsSample s (48 + n) r).2.tamper.prbs, loops := l } } := by rw [hs]
      rw [hl] at hx
      exact ⟨_, hx, latched_sampled s _ _ _ (48 + n) r⟩
    · obtain ⟨l, hx⟩ := exec_enclosureLoopAlarm_fails (s := s) (u := s) (r := r) hn (by omega) (by simp [hm, hp])
      exact ⟨_, hx, latched_sampled s _ _ _ (48 + n) r⟩
  · rw [dispatch_caseSwitchAlarm, execCaseSwitchAlarm]
    dsimp only
    rw [if_neg (by omega)]
    exact ⟨_, rfl, latched_sampled s _ _ _ (112 + n) r⟩
  · by_cases h8 : n < 8
    · refine ⟨mainFlag s (128 + n) r, ?_, latched_mainFlag s _ r⟩
      rw [dispatch_lightAlarm, execLightAlarm, if_pos h8, if_pos (hm h8)]
    · refine ⟨cocoonFlag s (128 + n) r, ?_, latched_cocoonFlag s _ r⟩
      rw [dispatch_lightAlarm, execLightAlarm, if_neg h8, if_pos hn]
  · cases hs : s.armed with
    | true =>
      refine ⟨mainFlag s f r, ?_, latched_mainFlag s f r⟩
      rw [dispatch_railAlarm, execRailAlarm, if_neg (by omega), if_pos hs]
    | false =>
      refine ⟨cocoonFlag s f r, ?_, latched_cocoonFlag s f r⟩
      rw [dispatch_railAlarm, execRailAlarm, if_neg (by omega), if_neg (by simp [hs]), if_neg (fun h => by simp [ha h] at hs)]
  · refine ⟨cocoonFlag s f r, ?_, latched_cocoonFlag s f r⟩
    rw [dispatch_tempAlarm, execTempAlarm, if_pos hf]
  · refine ⟨clockFlag s 145 r, ?_, latched_clockFlag r (.inl hp)⟩
    rw [dispatch_clockFreq, execClockFreq, if_pos rfl]
  · refine ⟨clockFlag s 146 r, ?_, latched_clockFlag r (.inl hp)⟩
    rw [dispatch_clockGlitch, execClockGlitch, if_pos rfl]
  · exact ⟨clockFlag s 147 0, rfl, latched_clockFlag 0 (.inr rfl)⟩
  · rw [dispatch_fsmCodewordInvalid, execFsmCodewordInvalid, if_neg (by omega)]
    by_cases h2 : n = 2
    · subst h2
      rw [if_pos rfl, if_pos (hm rfl)]
      exact ⟨_, rfl, latched_mainFlag s 151 r⟩
    · rw [if_neg h2]
      by_cases h1 : n = 1
      · subst h1
        rw [if_pos rfl]
        have hl := latched_cocoonFlag s 150 r
        exact ⟨_, rfl, hl.alarmed, hl.recs, hl.lineage, hl.otp, hl.store, hl.power, hl.free⟩
      · rw [if_neg h1]
        exact ⟨_, rfl, latched_cocoonFlag s _ r⟩
  · refine ⟨cocoonFlag s 158 r, ?_, latched_cocoonFlag s 158 r⟩
    rw [dispatch_bridgeFault, execBridgeFault, if_pos (by simp [hm, hp])]

/-! ### HALT and LOCK past the start-up -/

section
variable {s : State} {cls : AlarmClass} (hm : s.power.mainOk = true) (hr : (s.tamper.response.map (·.code)).getD 0 < cls.code)
include hm hr

theorem mainResponse_booting (h2 : 2 ≤ cls.code) (hb : s.booting = true) : mainResponse s cls false = responding s cls := by
  rw [mainResponse_taken false hm hr h2, if_pos hb]

theorem mainResponse_halt (hc : cls = .halt) (hb : s.booting = false) (hs : s.service ≠ .bootStopped) :
    mainResponse s cls false = noteService s (haltAll (responding s cls) cls false) := by
  subst hc
  rw [mainResponse_taken false hm hr (by decide), if_neg (by simp [hb]), if_neg hs, mainActions_eq false (by decide)]
  rfl

theorem mainResponse_lock (hc : cls = .lock) (hb : s.booting = false) (hs : s.service ≠ .bootStopped) :
    mainResponse s cls false = noteService s { lockClear (haltAll (responding s cls) cls false) with service := .locked } := by
  subst hc
  rw [mainResponse_taken false hm hr (by decide), if_neg (by simp [hb]), if_neg hs, mainActions_eq false (by decide)]
  rfl

end

theorem CutOnly.service {s t : State} (h : CutOnly s t) : t.service = s.service := by
  obtain ⟨_, _, _, _, _, _, rfl⟩ := h; rfl

theorem releaseCollar_service (s : State) : (releaseCollar s).service = s.service := by
  unfold releaseCollar
  split
  · dsimp only
    split
    · rw [raise_service]
    · rfl
  · rfl

theorem haltRings_service (s : State) {k : Cut} {st : Status} (hk : k.waiting = some st) : (haltRings s k).service = s.service :=
  foldl_rel (P := fun a b : State => b.service = a.service) (fun _ => rfl) (fun _ _ _ h h' => h'.trans h) _
    (fun t rid => ((CutOnly.cutRing hk rid).service.trans (WorkOnly.stopRing _ rid _).service).trans (WorkOnly.dropReservation t rid).service) _ s

theorem haltAll_service (s : State) (cls : AlarmClass) (entropy : Bool) :
    (haltAll s cls entropy).service = if s.service = .locked then .locked else .halted := by
  obtain ⟨st, hst⟩ := cutOf_waiting cls entropy
  rw [haltAll, closeSessions_service, haltRings_service _ hst, releaseCollar_service]

section
variable {s : State} {cls : AlarmClass} (hm : s.power.mainOk = true) (hr : (s.tamper.response.map (·.code)).getD 0 < cls.code)
  (hb : s.booting = false) (hs : s.service ≠ .bootStopped)
include hm hr hb hs

theorem mainResponse_halts (hc : cls = .halt ∨ cls = .lock) {k : Nat} (hk : (s.ring k).state = .enabled) :
    HaltsAt k (mainResponse s cls false) := by
  have hh : HaltsAt k (haltAll (responding s cls) cls false) := haltAll_halts cls false hk
  rcases hc with hc | hc
  · rw [mainResponse_halt hm hr hc hb hs, HaltsAt, State.ring, noteService_rings]
    exact hh
  · obtain ⟨-, -, -, -, hrings, -⟩ := lockClear_clears (haltAll (responding s cls) cls false)
    rw [mainResponse_lock hm hr hc hb hs, HaltsAt, State.ring, noteService_rings, hrings, lockAnswers_rings]
    exact hh

theorem mainResponse_halt_service (hc : cls = .halt) (hl : s.service ≠ .locked) : (mainResponse s cls false).service = .halted := by
  rw [mainResponse_halt hm hr hc hb hs, noteService_service, haltAll_service]
  exact if_neg hl

theorem mainResponse_lock_clears (hc : cls = .lock) : (mainResponse s cls false).service = .locked ∧
    (mainResponse s cls false).keys.cache = [] ∧ (mainResponse s cls false).keys.kd = none ∧ (mainResponse s cls false).keys.kdJobs = [] ∧
    (∀ p, ((mainResponse s cls false).part p).psk = none ∧ ((mainResponse s cls false).part p).recKey = none) ∧
    (∀ j ∈ s.keys.kdJobs, ∀ rq idx sub op, j.rq = some (rq, idx, sub, op) →
      (rq, replyBody idx sub op Status.serviceLocked.code rq.reqId []) ∈ (mainResponse s cls false).bus.replies) := by
  obtain ⟨hcache, hkd, hjobs, hpart, -, hbus⟩ := lockClear_clears (haltAll (responding s cls) cls false)
  rw [mainResponse_lock hm hr hc hb hs]
  refine ⟨by rw [noteService_service], by rw [noteService_keys]; exact hcache, by rw [noteService_keys]; exact hkd,
    by rw [noteService_keys]; exact hjobs, fun p => ?_, fun j hj rq idx sub op hrq => ?_⟩
  · have hsame : (noteService s { lockClear (haltAll (responding s cls) cls false) with service := .locked }).part p =
        (lockClear (haltAll (responding s cls) cls false)).part p := by simp only [State.part, noteService_parts]
    rw [hsame]
    exact hpart p
  · have hk : j ∈ (haltAll (responding s cls) cls false).keys.kdJobs := by rw [haltAll_keys]; exact hj
    have ha := lockAnswers_answers hk hrq
    rw [← hbus] at ha
    simpa only [noteService_bus] using ha

end

end Sys2Proof.Machine

/-- Settles O37: every source records its flag through one alarm, after which the main die's response touches nothing the alarm latched. -/
theorem alarmsLatch : Obligations.AlarmsLatch := by
  unfold Obligations.AlarmsLatch
  refine ⟨fun c f s h => ?_, fun f r s hf hp => ?_⟩
  · obtain ⟨t, ht, hl⟩ := senses_latches h
    exact ⟨t, ht, hl.alarmed, hl.recs, hl.lineage, hl.otp, hl.store, hl.power, hl.free⟩
  · rw [dispatch_mantleChannelAlarm, execMantleChannelAlarm, ← prbsSample_snd]
    simp [hp, Nat.not_le.mpr hf]

/-- Settles O38: once taken the response halts every ring, and under LOCK answers what waited for KD before it clears the keys. -/
theorem mainDieResponds : Obligations.MainDieResponds := by
  unfold Obligations.MainDieResponds
  intro f cls r s hp
  have hx : exec .mainDieResponse s = .next (mainResponse (s.modTamper (fun t => { t with pendingMain := r })) cls false) := by
    rw [dispatch_mainDieResponse, execMainDieResponse, hp]
  refine ⟨fun hm hc => ?_, fun hn => ?_⟩
  · have h2 : 2 ≤ cls.code := by rcases hc with ⟨rfl | rfl, -⟩ | ⟨rfl, -⟩ <;> decide
    have hr : ((s.modTamper (fun t => { t with pendingMain := r })).tamper.response.map (·.code)).getD 0 < cls.code := by
      change (s.tamper.response.map (·.code)).getD 0 < cls.code
      rcases hc with ⟨rfl | rfl, h⟩ | ⟨rfl, h⟩ <;> rw [h] <;> decide
    have hcls : cls = .halt ∨ cls = .lock := hc.elim And.left (fun h => .inr h.1)
    have hh := mainResponse_taken_harmless (s := s.modTamper (fun t => { t with pendingMain := r })) false hm hr h2
    obtain ⟨c, htam⟩ := hh.tamper
    refine ⟨_, hx, by rw [htam]; rfl, by rw [htam]; rfl, by rw [hh.life]; rfl, hh.recs, hh.part, hh.base, fun hb => ?_,
      fun hb hs => ⟨fun k hk => mainResponse_halts (s := s.modTamper _) hm hr hb hs hcls hk,
        mainResponse_halt_service (s := s.modTamper _) hm hr hb hs, mainResponse_lock_clears (s := s.modTamper _) hm hr hb hs⟩⟩
    rw [mainResponse_booting (s := s.modTamper _) hm hr h2 hb]
    exact ⟨rfl, rfl, rfl, rfl⟩
  · rw [hx, mainResponse_untaken false]
    · rfl
    · rcases hn with h | h | ⟨a, ha, hle⟩
      · exact .inl h
      · exact .inr (.inr h)
      · exact .inr (.inl (by simpa [State.modTamper, ha] using hle))

end

section
open Sys2Proof.Machine

/-! SUPPORT. Frames sent, the stored state rewritten, and the telemetry a refresh shows. -/

namespace Sys2Proof.Machine

/-! ### Frames -/

/-- What sending frames changes: the Seam's ports and counters, and the frames on the bus. -/
def SendOnly (s t : State) : Prop := ∃ m f, t = { s with seam := m, bus := { s.bus with frames := f } }

namespace SendOnly

theorem refl (s : State) : SendOnly s s := ⟨_, _, rfl⟩

theorem trans {a b c : State} (h : SendOnly a b) (h' : SendOnly b c) : SendOnly a c := by
  obtain ⟨_, _, rfl⟩ := h
  obtain ⟨_, _, rfl⟩ := h'
  exact ⟨_, _, rfl⟩

theorem fold {α : Type} {g : State → α → State} (hg : ∀ t a, SendOnly t (g t a)) (l : List α) (s : State) : SendOnly s (l.foldl g s) :=
  foldl_rel refl (fun _ _ _ => trans) g hg l s

theorem setSeam (s : State) (m : Seam) : SendOnly s { s with seam := m } := ⟨_, _, rfl⟩

theorem transmit (s : State) (k : Nat) (f : Frame) : SendOnly s (transmit s k f) := ⟨_, _, rfl⟩

theorem pump (k n : Nat) (s : State) : SendOnly s (pump k n s) := by
  induction n generalizing s with
  | zero => exact refl s
  | succ n ih =>
    rw [Machine.pump]
    split
    · exact refl s
    · exact (transmit s k _).trans (ih _)

theorem sendOn (s : State) (k : Nat) (f : Frame) : SendOnly s (sendOn s k f) :=
  (setSeam s _).trans (pump k _ _)

theorem sendFrame (s : State) (dest cls stamp : Nat) (b : Bytes) : SendOnly s (sendFrame s dest cls stamp b) := by
  unfold Machine.sendFrame
  split
  · exact setSeam s _
  · rename_i k _
    dsimp only [newFrame]
    refine trans ?_ (sendOn _ k _)
    split
    · exact setSeam s _
    · exact setSeam s _

theorem sendTo (s : State) (dest cls : Nat) (b : Bytes) : SendOnly s (sendTo s dest cls b) := by
  unfold Machine.sendTo
  split
  · exact refl s
  · exact fold (fun t c => sendFrame t _ _ _ _) _ s

theorem sendLink (s : State) (k cls : Nat) (b : Bytes) : SendOnly s (sendLink s k cls b) :=
  (setSeam s _).trans (sendOn _ k _)

end SendOnly

/-! ### The state that survives a reset, rewritten together with its durable base -/

theorem Part.under_stored (x : Part) : x.stored.under x = x := rfl

theorem tgetD_joinParts (live base : Tab Part) (p : Nat) :
    tgetD (joinParts live base) p (part0 p) = (tgetD base p (part0 p)).under (tgetD live p (part0 p)) := by
  have hfold : ∀ (l : List Nat) (t : Tab Part), tgetD (l.foldl (fun t p => tset t p ((tgetD base p (part0 p)).under (tgetD live p (part0 p)))) t)
      p (part0 p) = if p ∈ l then (tgetD base p (part0 p)).under (tgetD live p (part0 p)) else tgetD t p (part0 p) := fun l => by
    induction l with
    | nil => intro t; rfl
    | cons a l ih =>
      intro t
      rw [List.foldl_cons, ih, tgetD_tset]
      by_cases ha : p = a
      · subst a; simp
      · simp [ha]
  rw [joinParts, hfold]
  split
  · rfl
  · rename_i h
    have hnone : ∀ t : Tab Part, p ∉ tkeys t → tgetD t p (part0 p) = part0 p := fun t ht => by
      rcases hg : tget t p with _ | x
      · simp [tgetD, hg]
      · exact absurd (List.mem_map.mpr ⟨(p, x), mem_of_tget hg, rfl⟩) ht
    simp only [List.mem_append, not_or] at h
    rw [hnone base h.2, hnone live h.1]
    rfl

theorem withBase_part (s : State) (f : Persist → Persist) (p : Nat) :
    (s.withBase f).part p = (tgetD (f (persistOf s)).parts p (part0 p)).under (s.part p) :=
  tgetD_joinParts s.parts (f (persistOf s)).parts p

/-- Rewriting a stored record: beside the durable base, and the partitions written back as they stand, nothing but it changes. -/
theorem modStored_only (s : State) (k : Nat) (f : KeyRec → KeyRec) : ∃ b q, modStored s k f = { s with
    keys := { s.keys with recs := tmap s.keys.recs (fun j r => if j = k then f r else r) }
    parts := q
    commit := { s.commit with base := b } } := ⟨_, _, rfl⟩

theorem modStored_rcd (s : State) (k j : Nat) (f : KeyRec → KeyRec) :
    (modStored s k f).rcd j = if j = k then (s.rcd j).map f else s.rcd j := by
  obtain ⟨b, q, h⟩ := modStored_only s k f
  rw [h, State.rcd, State.rcd, tget_tmap]
  by_cases hj : j = k
  · simp [hj]
  · simp [hj]

theorem recordLost_only (s : State) (k : Nat) : ∃ l, recordLost s k = { s with log := l } := logMain_only ..

/-! ### Upkeep (R39, R40, R151, R188, R193) -/

/-- A record's entry rewritten in the keys. -/
def Keys.modRec (x : Keys) (k : Nat) (f : KeyRec → KeyRec) : Keys := { x with recs := tmap x.recs (fun j r => if j = k then f r else r) }

theorem Keys.tget_modRec (x : Keys) (k j : Nat) (f : KeyRec → KeyRec) :
    tget (x.modRec k f).recs j = if j = k then (tget x.recs j).map f else tget x.recs j := by
  rw [Keys.modRec, tget_tmap]
  by_cases hj : j = k
  · simp [hj]
  · simp [hj]

theorem markDamaged_only (s : State) (k : Nat) : ∃ l b q, markDamaged s k = raise { s with
    keys := { s.keys.modRec k (fun r => { r with damaged := true }) with
      damagedCnt := s.keys.damagedCnt + 1, recover := terase s.keys.recover k }
    parts := q
    commit := { s.commit with base := b }
    log := l } 1037 := by
  obtain ⟨b, q, hm⟩ := modStored_only s k (fun r => { r with damaged := true })
  rw [markDamaged, hm]
  obtain ⟨l, hl⟩ := recordLost_only { s with
    keys := { s.keys.modRec k (fun r => { r with damaged := true }) with
      damagedCnt := s.keys.damagedCnt + 1, recover := terase s.keys.recover k }
    parts := q
    commit := { s.commit with base := b } } k
  exact ⟨l, b, q, congrArg (fun t => raise t 1037) hl⟩

theorem markDamaged_damages {s : State} {k : Nat} {r : KeyRec} (hr : s.rcd k = some r) :
    (markDamaged s k).rcd k = some { r with damaged := true } ∧ (∀ j, j ≠ k → (markDamaged s k).rcd j = s.rcd j) ∧
      tget (markDamaged s k).keys.recover k = none ∧ (markDamaged s k).keys.damagedCnt = s.keys.damagedCnt + 1 ∧
      (s.asleep = false → 1037 ∈ (markDamaged s k).eic.corePend) ∧ (markDamaged s k).commit.queue = s.commit.queue := by
  obtain ⟨l, b, q, h⟩ := markDamaged_only s k
  have hk : tget s.keys.recs k = some r := hr
  have hget := fun j => Keys.tget_modRec s.keys k j (fun r => { r with damaged := true })
  rw [h]
  refine ⟨?_, fun j hj => ?_, ?_, by rw [raise_keys], fun ha => raise_pends_core rfl ha (by decide), by rw [raise_commit]⟩
  · rw [State.rcd, raise_keys]
    exact (hget k).trans (by rw [if_pos rfl, hk, Option.map_some])
  · rw [State.rcd, raise_keys]
    exact (hget j).trans (if_neg hj)
  · rw [raise_keys]
    exact (tget_terase ..).trans (if_pos rfl)

/-- Asking the `n`th holder of copies, where there is one. -/
theorem askRecord_asks {s : State} {k n h : Nat} {r : KeyRec} (hr : s.rcd k = some r) (hh : (s.copyHolders r.rcd.part)[n]? = some h) :
    SendOnly { s with keys := { s.keys with recover := tset s.keys.recover k n } } (askRecord s k n) := by
  unfold askRecord
  rw [hr]
  dsimp only
  rw [hh]
  dsimp only
  split
  · exact SendOnly.sendLink _ _ _ _
  · exact SendOnly.sendTo _ _ _ _

theorem askRecord_none {s : State} {k n : Nat} {r : KeyRec} (hr : s.rcd k = some r) (hh : (s.copyHolders r.rcd.part)[n]? = none) :
    askRecord s k n = markDamaged s k := by
  unfold askRecord
  rw [hr]
  dsimp only
  rw [hh]

/-- Asking for a record changes at most its damaged mark. -/
theorem askRecord_rcd (s : State) (k n : Nat) {r : KeyRec} (hr : s.rcd k = some r) :
    (∃ d, (askRecord s k n).rcd k = some { r with damaged := d }) ∧ (∀ j, j ≠ k → (askRecord s k n).rcd j = s.rcd j) ∧
      (askRecord s k n).commit.queue = s.commit.queue := by
  rcases hh : (s.copyHolders r.rcd.part)[n]? with _ | h
  · obtain ⟨hk, hj, -, -, -, hq⟩ := markDamaged_damages hr
    rw [askRecord_none hr hh]
    exact ⟨⟨true, hk⟩, hj, hq⟩
  · obtain ⟨m, f, hs⟩ := askRecord_asks hr hh
    rw [hs]
    exact ⟨⟨r.damaged, hr⟩, fun _ _ => rfl, rfl⟩

/-- A record lost from DRAM and NAND (R193). -/
theorem loseRecord_rcd {s : State} {k : Nat} {r : KeyRec} (hr : s.rcd k = some r) :
    (∃ d, (loseRecord s k).rcd k = some { r with nand := false, dram := false, damaged := d }) ∧
      (∀ j, j ≠ k → (loseRecord s k).rcd j = s.rcd j) ∧ (loseRecord s k).commit.queue = s.commit.queue := by
  obtain ⟨b, q, hm⟩ := modStored_only s k (fun r => { r with nand := false, dram := false })
  have hrcd := fun j => modStored_rcd s k j (fun r => { r with nand := false, dram := false })
  obtain ⟨l, hl⟩ := recordLost_only (modStored s k (fun r => { r with nand := false, dram := false })) k
  have hk : (recordLost (modStored s k (fun r => { r with nand := false, dram := false })) k).rcd k =
      some { r with nand := false, dram := false } := by
    rw [hl]
    exact (hrcd k).trans (by rw [if_pos rfl, hr]; rfl)
  obtain ⟨hd, hj, hq⟩ := askRecord_rcd _ k 0 hk
  refine ⟨hd, fun j hjk => (hj j hjk).trans ?_, hq.trans ?_⟩
  · rw [hl]
    exact (hrcd j).trans (if_neg hjk)
  · rw [hl, hm]

theorem exec_dramPatrolScrub_loses {s : State} {k : Nat} {r : KeyRec} (hm : s.power.mainOk = true) (hr : s.rcd k = some r) (hd : r.dram = true) :
    ∃ t q, exec (.dramPatrolScrub k false) s = .next t ∧ t.rcd k = some q ∧ q.rcd = r.rcd ∧
      (q.dram = true ∨ (q.dram = false ∧ q.nand = false)) ∧ (r.nand = false ∨ r.damaged = true → q.dram = false) ∧
      (∀ j, j ≠ k → t.rcd j = s.rcd j) ∧ t.commit.queue = s.commit.queue := by
  have hx : exec (.dramPatrolScrub k false) s = .next (reloadRecord s k) := by
    rw [dispatch_dramPatrolScrub, execDramPatrolScrub, if_neg (by simp [hm]), if_neg (by simp), if_pos (by simp [hr, hd])]
  have hfree : ∃ v f, freeNat s = (v, { s with free := f }) := ⟨_, _, rfl⟩
  obtain ⟨v, f, hf⟩ := hfree
  rw [hx, reloadRecord, hf]
  dsimp only
  split
  · rename_i h
    simp only [hr, Option.any_some, Bool.and_eq_true, Bool.not_eq_true', beq_iff_eq] at h
    obtain ⟨b, q, hms⟩ := modStored_only { s with free := f } k (fun r => { r with dram := true })
    have hrcd := fun j => modStored_rcd { s with free := f } k j (fun r => { r with dram := true })
    obtain ⟨l, hl⟩ := recordLost_only (modStored { s with free := f } k (fun r => { r with dram := true })) k
    refine ⟨_, { r with dram := true }, rfl, ?_, rfl, .inl rfl, fun hn => ?_, fun j hj => ?_, ?_⟩
    · rw [hl]
      exact (hrcd k).trans (by rw [if_pos rfl, show ({ s with free := f } : State).rcd k = some r from hr]; rfl)
    · simp [h.1.1, h.1.2] at hn
    · rw [hl]
      exact (hrcd j).trans (if_neg hj)
    · rw [hl, hms]
  · obtain ⟨⟨d, hk⟩, hj, hq⟩ := loseRecord_rcd (s := { s with free := f }) hr
    exact ⟨_, _, rfl, hk, rfl, .inr ⟨rfl, rfl⟩, fun _ => rfl, hj, hq⟩

/-! The reply of a holder of copies (R193). -/

section
variable {s : State} {k n src : Nat} {r : KeyRec} (hr : s.rcd k = some r) (hn : tget s.keys.recover k = some n)
include hr hn

theorem exec_recordRecoveryReply_restores {c : Rec} (hg : c.gen = r.rcd.gen) (hp : c.part = r.rcd.part) (hu : (s.unwrapped c).isSome = true) :
    ∃ t, exec (.recordRecoveryReply k src (some c)) s = .next t ∧ t.rcd k = some ⟨c, true, true, false⟩ ∧ tget t.keys.recover k = none ∧
      (∀ j, j ≠ k → t.rcd j = s.rcd j) ∧ t.bus = s.bus := by
  have hrcd := fun j => modStored_rcd s k j (fun _ => ⟨c, true, true, false⟩)
  rw [dispatch_recordRecoveryReply, execRecordRecoveryReply, hr, hn]
  dsimp only
  rw [if_pos ⟨hg, hp, hu⟩]
  refine ⟨_, rfl, (hrcd k).trans (by rw [if_pos rfl, hr, Option.map_some]), (tget_terase ..).trans (if_pos rfl),
    fun j hj => (hrcd j).trans (if_neg hj), rfl⟩

/-- A reply that restores nothing counts only from the holder that was asked. -/
theorem exec_recordRecoveryReply_fails {c : Option Rec} (hc : ∀ d, c = some d → d.gen ≠ r.rcd.gen ∨ d.part ≠ r.rcd.part ∨ s.unwrapped d = none) :
    exec (.recordRecoveryReply k src c) s =
      .next (if (s.copyHolders r.rcd.part)[n]? = some src then askRecord s k (n + 1) else s) := by
  rw [dispatch_recordRecoveryReply, execRecordRecoveryReply, hr, hn]
  rcases c with _ | d
  · rfl
  · have hbad : ¬ (d.gen = r.rcd.gen ∧ d.part = r.rcd.part ∧ (s.unwrapped d).isSome = true) := by
      rintro ⟨hg, hp, hu⟩
      rcases hc d rfl with h | h | h
      · exact h hg
      · exact h hp
      · simp [h] at hu
    dsimp only
    rw [if_neg hbad]

theorem exec_recordRecoveryReply_unrestored {c : Option Rec}
    (hc : ∀ d, c = some d → d.gen ≠ r.rcd.gen ∨ d.part ≠ r.rcd.part ∨ s.unwrapped d = none) :
    ((s.copyHolders r.rcd.part)[n]? ≠ some src → exec (.recordRecoveryReply k src c) s = .next s) ∧
    (∀ h, (s.copyHolders r.rcd.part)[n]? = some src → (s.copyHolders r.rcd.part)[n + 1]? = some h →
      ∃ t, exec (.recordRecoveryReply k src c) s = .next t ∧
        tget t.keys.recover k = some (n + 1) ∧ t.keys.recs = s.keys.recs ∧ t.parts = s.parts) ∧
    ((s.copyHolders r.rcd.part)[n]? = some src → (s.copyHolders r.rcd.part)[n + 1]? = none →
      ∃ t q, exec (.recordRecoveryReply k src c) s = .next t ∧ t.rcd k = some q ∧ q = { r with damaged := true } ∧
        tget t.keys.recover k = none ∧ t.keys.damagedCnt = s.keys.damagedCnt + 1 ∧
        (s.asleep = false → 1037 ∈ t.eic.corePend) ∧ (∀ j, j ≠ k → t.rcd j = s.rcd j)) := by
  rw [exec_recordRecoveryReply_fails hr hn hc]
  refine ⟨fun hs => by rw [if_neg hs], fun h hs hh => ?_, fun hs hh => ?_⟩
  · obtain ⟨m, f, hsend⟩ := askRecord_asks hr hh
    rw [if_pos hs, hsend]
    exact ⟨_, rfl, tget_tset_self .., rfl, rfl⟩
  · obtain ⟨hk, hj, hrec, hcnt, hpend, -⟩ := markDamaged_damages hr
    rw [if_pos hs, askRecord_none hr hh]
    exact ⟨_, _, rfl, hk, rfl, hrec, hcnt, hpend, hj⟩

end

/-! The end of a sweep's pass (R151). -/

theorem swept_iff {s : State} {p : Nat} : s.swept p = true ↔
    (s.part p).key = .destroying ∧ (∀ e ∈ s.keys.recs, e.2.rcd.part ≠ p) ∧ s.recordsComing p = [] := by
  simp [State.swept, and_assoc]

theorem exec_orphanSweepPassEnd_sweeps (ms p : Nat) {s : State} (hm : s.power.mainOk = true) :
    ∃ t, exec (.orphanSweepPassEnd ms) s = .next t ∧ t.keys.sweepMs = min 0xFFFFFFFF ms ∧ t.keys.recs = s.keys.recs ∧
      (t.part p).key = (if (s.part p).key = .destroying ∧ (∀ e ∈ s.keys.recs, e.2.rcd.part ≠ p) ∧ s.recordsComing p = []
        then .empty else (s.part p).key) ∧ t.fns = s.fns ∧ t.commit.queue = s.commit.queue := by
  rw [dispatch_orphanSweepPassEnd, execOrphanSweepPassEnd, if_neg (by simp [hm])]
  refine ⟨_, rfl, rfl, rfl, ?_, rfl, rfl⟩
  rw [withBase_part]
  have hkey : (tgetD (tmap (tmap s.parts (fun _ x => x.stored)) (fun q x => if s.swept q = true then { x with key := .empty } else x))
      p (part0 p)).key = if s.swept p = true then .empty else (s.part p).key := by
    rw [tgetD, tget_tmap, tget_tmap, State.part, tgetD]
    rcases tget s.parts p with _ | x
    · simp [part0]
    · simp only [Option.map_some, Option.getD_some]
      split <;> rfl
  refine Eq.trans ?_ (hkey.trans ?_)
  · rfl
  · simp only [swept_iff]

/-! ### Telemetry (R586) -/

/-- A value shown, and no other under its key, reads back; a value of 0 is not kept. -/
theorem tgetD_shown {t : Tab Nat} {k v : Nat} (hm : (k, v) ∈ t) (hu : ∀ e ∈ t, e.1 = k → e.2 = v) :
    tgetD (t.filter (fun e => e.2 != 0)) k 0 = v := by
  rcases hg : tget (t.filter (fun e => e.2 != 0)) k with _ | w
  · by_contra hv
    have hin : (k, v) ∈ t.filter (fun e => e.2 != 0) := List.mem_filter.mpr ⟨hm, by simpa [tgetD, hg] using Ne.symm hv⟩
    have hall : ∀ l : Tab Nat, tget l k = none → (k, v) ∉ l := fun l => by
      induction l with
      | nil => simp
      | cons e l ih =>
        obtain ⟨a, x⟩ := e
        simp only [tget, List.mem_cons, not_or]
        split
        · simp
        · rename_i hne
          exact fun hl => ⟨fun h => hne (Prod.mk.inj h).1.symm, ih hl⟩
    exact hall _ hg hin
  · have hw := List.mem_filter.mp (mem_of_tget hg)
    rw [tgetD, hg, Option.getD_some]
    exact hu (k, w) hw.1 rfl

/-- The widths of the module's own entry of telemetry. -/
def moduleWidths : List Nat := [2, 2, 2, 4, 8, 8, 2, 8]

/-- What a refresh reads for one entry of telemetry. -/
def State.readUnit (s : State) (e : Nat × List Nat) : Tab Nat :=
  (e.2.zipIdx.zip (s.measured e.1)).map (fun w => (odKey e.1 (w.1.2 + 1), min (2 ^ (8 * w.1.1) - 1) w.2))

theorem refreshTelemetry_shown (s : State) :
    (refreshTelemetry s).tele.shown = ((unitEntries.map s.readUnit).flatten).filter (fun e => e.2 != 0) := by
  rw [refreshTelemetry]
  rfl

theorem unitEntries_module : ∀ u ∈ unitEntries, u.2.length ≤ 8 ∧ (u.1 = 0x9000 → u = (0x9000, moduleWidths)) := by
  intro u hu
  simp only [unitEntries, List.mem_append, List.mem_map, List.mem_singleton] at hu
  rcases hu with (((((rfl | ⟨l, -, rfl⟩) | ⟨l, -, rfl⟩) | rfl) | ⟨l, -, rfl⟩) | ⟨l, -, rfl⟩) | rfl
  · exact ⟨by decide, fun _ => rfl⟩
  all_goals exact ⟨by simp only [List.length_cons, List.length_nil]; omega, fun h => by simp only at h; omega⟩

/-- Only the module's own entry is read under its keys. -/
theorem mem_readUnit_module {s : State} {e : Nat × Nat} {k : Nat} (h : e ∈ (unitEntries.map s.readUnit).flatten) (hk : k < 255)
    (he : e.1 = odKey 0x9000 (k + 1)) : e ∈ s.readUnit (0x9000, moduleWidths) := by
  obtain ⟨l, hl, hel⟩ := List.mem_flatten.mp h
  obtain ⟨u, hu, rfl⟩ := List.mem_map.mp hl
  obtain ⟨hlen, hmod⟩ := unitEntries_module u hu
  obtain ⟨w, hw, hwe⟩ := List.mem_map.mp hel
  have hidx : w.1.2 < u.2.length := by
    have hz := (List.of_mem_zip (a := w.1) (b := w.2) hw).1
    exact (List.mem_zipIdx (x := w.1.1) (i := w.1.2) hz).2.1.trans_eq (by simp)
  have hkey : odKey u.1 (w.1.2 + 1) = odKey 0x9000 (k + 1) := by rw [← he, ← hwe]
  have hone : u.1 = 0x9000 := by simp only [odKey] at hkey; omega
  rw [← hmod hone]
  exact hel

theorem readUnit_module (s : State) : s.readUnit (0x9000, moduleWidths) =
    [(odKey 0x9000 1, min (2 ^ 16 - 1) s.tele.dieTemp), (odKey 0x9000 2, min (2 ^ 16 - 1) s.tele.cocoonTemp),
     (odKey 0x9000 3, min (2 ^ 16 - 1) s.tele.inputMv), (odKey 0x9000 4, min (2 ^ 32 - 1) s.tele.inputMw),
     (odKey 0x9000 5, min (2 ^ 64 - 1) s.tele.dramCorr), (odKey 0x9000 6, min (2 ^ 64 - 1) s.tele.sramCorr),
     (odKey 0x9000 7, min (2 ^ 16 - 1) s.tele.wear), (odKey 0x9000 8, min (2 ^ 64 - 1) s.tele.completions)] := rfl

theorem readUnit_module_keys (s : State) : ((s.readUnit (0x9000, moduleWidths)).map Prod.fst).Nodup := by
  have hkeys : (s.readUnit (0x9000, moduleWidths)).map Prod.fst = (List.range 8).map (fun k => odKey 0x9000 (k + 1)) := rfl
  rw [hkeys]
  decide

/-- A value of the module's own entry, as it is read after a refresh (R586). -/
theorem telemetry_refreshed {s : State} {k v : Nat} (hk : k < 8) (hm : (odKey 0x9000 (k + 1), v) ∈ s.readUnit (0x9000, moduleWidths)) :
    (refreshTelemetry s).telemetry 0x9000 (k + 1) = (moduleWidths[k]?).map (fun w => leBytes w v) := by
  have hval : tgetD (refreshTelemetry s).tele.shown (odKey 0x9000 (k + 1)) 0 = v := by
    rw [refreshTelemetry_shown]
    refine tgetD_shown (List.mem_flatten.mpr ⟨_, List.mem_map.mpr ⟨_, List.mem_cons_self, rfl⟩, hm⟩) (fun e he hek => ?_)
    have hin := mem_readUnit_module he (by omega) hek
    exact congrArg Prod.snd (List.inj_on_of_nodup_map (readUnit_module_keys s) hin hm hek)
  have hfind : unitEntries.find? (fun e => e.1 == 0x9000) = some (0x9000, moduleWidths) := rfl
  rw [State.telemetry, hfind, Option.bind_some, hval]

theorem exec_telemetryRefresh_shows (a b c d w : Nat) {s : State} (hm : s.power.mainOk = true) :
    ∃ t, exec (.telemetryRefresh a b c d w) s = .next t ∧ t.telemetry 0x9000 1 = some (leBytes 2 (a % 65536)) ∧
      t.telemetry 0x9000 2 = some (leBytes 2 (b % 65536)) ∧ t.telemetry 0x9000 3 = some (leBytes 2 (c % 65536)) ∧
      t.telemetry 0x9000 4 = some (leBytes 4 (d % 2 ^ 32)) ∧ t.telemetry 0x9000 7 = some (leBytes 2 (w % 65536)) ∧
      t.telemetry 0x9000 8 = some (leBytes 8 (min (2 ^ 64 - 1) s.tele.completions)) ∧
      t.keys = s.keys ∧ t.units = s.units ∧ t.parts = s.parts ∧ t.bus = s.bus := by
  have hmin : ∀ n m : Nat, 0 < m → min (m - 1) (n % m) = n % m := fun n m h => Nat.min_eq_right (by have := Nat.mod_lt n h; omega)
  rw [dispatch_telemetryRefresh, execTelemetryRefresh, if_pos hm]
  refine ⟨_, rfl, telemetry_refreshed (k := 0) (by decide) ?_, telemetry_refreshed (k := 1) (by decide) ?_,
    telemetry_refreshed (k := 2) (by decide) ?_, telemetry_refreshed (k := 3) (by decide) ?_, telemetry_refreshed (k := 6) (by decide) ?_,
    telemetry_refreshed (k := 7) (by decide) ?_, rfl, rfl, rfl, rfl⟩
  all_goals rw [readUnit_module]
  · exact List.mem_iff_getElem?.mpr ⟨0, congrArg (fun v => some (odKey 0x9000 1, v)) (hmin a 65536 (by decide))⟩
  · exact List.mem_iff_getElem?.mpr ⟨1, congrArg (fun v => some (odKey 0x9000 2, v)) (hmin b 65536 (by decide))⟩
  · exact List.mem_iff_getElem?.mpr ⟨2, congrArg (fun v => some (odKey 0x9000 3, v)) (hmin c 65536 (by decide))⟩
  · exact List.mem_iff_getElem?.mpr ⟨3, congrArg (fun v => some (odKey 0x9000 4, v)) (hmin d (2 ^ 32) (by decide))⟩
  · exact List.mem_iff_getElem?.mpr ⟨6, congrArg (fun v => some (odKey 0x9000 7, v)) (hmin w 65536 (by decide))⟩
  · exact List.mem_iff_getElem?.mpr ⟨7, rfl⟩

end Sys2Proof.Machine

/-- Settles O28: the upkeep rewrites one record, one cache entry or one value each, and asks the holders of copies in their order. -/
theorem upkeepRuns : Obligations.UpkeepRuns := by
  unfold Obligations.UpkeepRuns
  refine ⟨fun k r s hm hr ho hf hq => ?_, fun ms p s hm => exec_orphanSweepPassEnd_sweeps ms p hm,
    fun k r s hm hr => ⟨?_, exec_dramPatrolScrub_loses hm hr⟩, fun k l s hm => ⟨?_, ?_, ?_⟩,
    fun k n src r s hr hn => ⟨fun c hg hp hu => exec_recordRecoveryReply_restores hr hn hg hp hu,
      fun c hc => exec_recordRecoveryReply_unrestored hr hn hc⟩, fun k a b c d w s hm => ⟨?_, ?_⟩⟩
  · rw [dispatch_orphanSweepFree, execOrphanSweepFree, hr]
    dsimp only
    exact congrArg Host.Outcome.next ((if_pos (by simp [hm, ho, hf, hq])).trans rfl)
  · rw [dispatch_dramPatrolScrub, execDramPatrolScrub, if_neg (by simp [hm]), if_pos rfl]
  · rw [dispatch_keyCacheScrub, execKeyCacheScrub, if_neg (by simp [hm]), if_pos rfl]
  · rw [dispatch_keyCacheScrub, execKeyCacheScrub, if_neg (by simp [hm]), if_neg (by simp), if_neg (by simp)]
    have hkeep := tget_tfilter_key s.keys.cache (fun j => !(j == k))
    exact ⟨_, rfl, (hkeep k).trans (by simp), fun j hj => (hkeep j).trans (by simp [hj]), rfl, rfl, rfl⟩
  · rw [dispatch_keyCacheScrub, execKeyCacheScrub, if_neg (by simp [hm]), if_neg (by simp), if_pos rfl]
    obtain ⟨hal, hrecs, -, -, -, -, -⟩ := (latched_cocoonAlarm s 155 (s.flagClassNow 155) 0).mainResponse (s.flagClassNow 155) false
    exact ⟨_, rfl, hal.1, hrecs⟩
  · rw [dispatch_sensorCalibration, execSensorCalibration, if_pos hm]
    exact ⟨_, rfl, fun j => mem_sins, rfl⟩
  · exact exec_telemetryRefresh_shows a b c d w hm

end

section
open Sys2Proof.Machine

/-! SUPPORT. What a disable procedure was started for, quota writes and the scheduling epoch (R73 to R81). -/

namespace Sys2Proof.Machine

/-- What a disable procedure was started for, which its counts leave alone. -/
def Disable.goal (d : Disable) : Nat × Trigger × Option Nat × Option (Req × Nat × Nat × Nat) := (d.fn, d.trigger, d.remap, d.reply)

/-- Every disable procedure goes on for what it was started for. -/
def KeepsGoal (s t : State) : Prop := ∀ p, (t.part p).disable.map Disable.goal = (s.part p).disable.map Disable.goal

namespace KeepsGoal

theorem refl (s : State) : KeepsGoal s s := fun _ => rfl

theorem trans {a b c : State} (h : KeepsGoal a b) (h' : KeepsGoal b c) : KeepsGoal a c := fun p => (h' p).trans (h p)

theorem fold {α : Type} {g : State → α → State} (hg : ∀ t a, KeepsGoal t (g t a)) (l : List α) (s : State) : KeepsGoal s (l.foldl g s) :=
  foldl_rel refl (fun _ _ _ => trans) g hg l s

theorem of_parts {s t : State} (h : t.parts = s.parts) : KeepsGoal s t := fun p => by rw [State.part, h]; rfl

theorem of_held {s t : State} (h : HeldOnly s t) : KeepsGoal s t := of_parts h.parts

theorem modSlot (s : State) (n : Nat) (f : Slot → Slot) : KeepsGoal s (s.modSlot n f) := of_held (.modSlot s n f)

theorem dropReservation (s : State) (rid : Nat) : KeepsGoal s (dropReservation s rid) := by
  refine of_parts ?_
  unfold Machine.dropReservation
  split
  · rfl
  · split
    · rfl
    · split <;> rfl

theorem countDisable {s : State} {f : Disable → Disable} (hf : ∀ d, (f d).goal = d.goal) (p : Nat) : KeepsGoal s (countDisable s p f) := by
  intro q
  unfold Machine.countDisable
  split
  · rfl
  · rename_i d hd
    rw [State.modPart_part]
    split
    · subst q; simp [hd, hf]
    · rfl

theorem discard (s : State) (n : Nat) : KeepsGoal s (discard s n) := by
  unfold Machine.discard
  split
  · exact refl s
  · exact (countDisable (f := fun d => { d with discarded := d.discarded + 1 }) (fun _ => rfl) _).trans (of_held (.release _ n))

theorem discardRunning (s : State) (n : Nat) : KeepsGoal s (discardRunning s n) := by
  unfold Machine.discardRunning
  split
  · exact refl s
  · exact (countDisable (f := fun d => { d with aborted := d.aborted + 1 }) (fun _ => rfl) _).trans (of_held (.release _ n))

theorem cutOne_disable (s : State) (n : Nat) (x : Slot) : KeepsGoal s (cutOne s .disable n x) := by
  unfold cutOne
  split
  · exact refl s
  · exact refl s
  · exact refl s
  · exact discard s n
  · split
    · split
      · exact refl s
      · split
        · exact refl s
        · split
          · exact modSlot s n _
          · exact of_held ((HeldOnly.unqueue s n _).trans (.finish _ n _ _))
    · exact discard s n

theorem cutChained_disable (s : State) (n : Nat) (x : Slot) (first : Nat) : KeepsGoal s (cutChained s .disable n x first) := by
  unfold cutChained
  dsimp only
  split
  · exact discard s n
  · split
    · exact modSlot s n _
    · exact discardRunning s n

theorem cutRing_disable (s : State) (rid : Nat) : KeepsGoal s (cutRing s .disable rid) := by
  refine fold (fun t e => ?_) _ s
  unfold cutSlot
  split
  · exact refl t
  · split
    · exact cutOne_disable t _ _
    · split
      · exact cutChained_disable t _ _ _
      · exact cutOne_disable t _ _

theorem disableRing (s : State) (rid : Nat) : KeepsGoal s (disableRing s rid) := by
  unfold Machine.disableRing
  exact (((dropReservation s rid).trans (cutRing_disable _ rid)).trans (of_held (.closeSessions _ _))).trans (of_parts rfl)

theorem closeWindows (s : State) (p : Nat) : KeepsGoal s (closeWindows s p) := by
  refine fold (fun t g => ?_) _ s
  unfold closeWindow
  split
  · exact of_parts rfl
  · exact refl t

end KeepsGoal

/-- What a partition's disable procedure stands for once it is asked for: the first trigger, and the last function asked for (R81, R83). -/
theorem disablePart_disable (s : State) (p : Nat) (t : Trigger) (r : Option Nat) : ∃ d, ((disablePart s p t r).part p).disable = some d ∧
    d.goal = if (s.part p).dis = .disabling then
        ((s.part p).disable.map (fun d => { d with remap := r.or d.remap }.goal)).getD ((s.part p).fn, t, r, none)
      else ((s.part p).fn, t, r, none) := by
  unfold disablePart
  extract_lets x s1 s2
  split
  · rename_i d hdis hsome
    refine ⟨{ d with remap := r.or d.remap }, by simp, ?_⟩
    have hd : (s.part p).disable = some d := hsome
    rw [if_pos hdis, hd]
    rfl
  · rename_i hnot
    have hgoal : KeepsGoal s1 (closeWindows (closeSessions s2 (fun e => e.sessPart == p)) p) :=
      ((KeepsGoal.fold KeepsGoal.disableRing _ s1).trans (.of_held (.closeSessions s2 _))).trans (.closeWindows _ p)
    have hs1 : (s1.part p).disable = some ⟨(s.part p).fn, t, 0, 0, 0, 0, 0, 0, r, none⟩ := by simp [s1]
    have hmap := hgoal p
    rw [hs1, Option.map_some, Option.map_eq_some_iff] at hmap
    obtain ⟨d, hd, hdg⟩ := hmap
    refine ⟨d, hd, hdg.trans ?_⟩
    split
    · rename_i hdis
      rcases hn : (s.part p).disable with _ | d0
      · rfl
      · exact absurd hn (hnot d0 hdis)
    · rfl

/-! ### Writes of a partition's entry -/

theorem odEntry_partition_enable {p : Nat} (hp : p < 256) : odEntry (0x2100 + p) 2 = some ((eQ 1 4 1).rng 0 1).mine := by
  unfold odEntry odIndex
  rw [if_neg (by decide), if_neg (by omega), if_neg (by omega), if_neg (by omega), if_neg (by omega), if_neg (by omega), if_pos (by omega)]
  rfl

theorem numCheck_partition_enable {p v : Nat} (hp : p < 256) (hv : v ≤ 1) : numCheck (0x2100 + p) 2 v = none :=
  numCheck_none (odEntry_partition_enable hp) (Nat.lt_of_le_of_lt hv (by decide)) (.inr ⟨Nat.zero_le _, hv⟩)

theorem exec_quotaWrite_waits {rq : Req} {p v sub : Nat} {s t : State} (hp : p < 256) (hq : isQuota sub = true)
    (ht : Taken s rq (quotaAt p sub).1 (quotaAt p sub).2 (plainOp (quotaAt p sub).1 (quotaAt p sub).2) t) (hh : t.holds rq 1 true = true)
    (hn : numCheck (quotaAt p sub).1 (quotaAt p sub).2 v = none) (h3 : sub = 3 → (t.part p).fn = 0 ∨ v ≤ 256) :
    exec (.quotaWrite rq p sub v) s = .next { t with od := { t.od with quotas := t.od.quotas ++ [(rq, p, sub, v)] } } := by
  rw [dispatch_quotaWrite, execQuotaWrite, quotaWrite]
  dsimp only
  rw [roleWrite_taken ht.1 ht.2 hh]
  rw [if_neg (by simp [hq, hp]), hn]
  dsimp only
  rw [if_neg]
  rintro ⟨hs, hf, hv⟩
  rcases h3 hs with h | h
  · exact hf h
  · omega

theorem exec_partitionFunctionWrite_remaps {rq : Req} {p v : Nat} {grant : Bytes} {use : List Change} {s t : State} (hp : p < 256)
    (ht : Taken s rq (0x2100 + p) 1 (writeOp false grant) t) (hg : Granted t rq false 4 p (leBytes 1 v) grant use) (h0 : p ≠ 0)
    (hv : v < 256) (hfree : v ≠ 0 → t.vfTaken p v = false ∧ t.quota p 3 ≤ 256) :
    exec (.partitionFunctionWrite rq p v grant) s = .next (noteFunctions t (disablePart
      (acceptCommit t rq (0x2100 + p) 1 (writeOp false grant) [] (.od (0x2100 + p) 1 (leBytes 1 v) :: use)) p .remap (some v))) := by
  rw [dispatch_partitionFunctionWrite, execPartitionFunctionWrite, partitionFunctionWrite, grantWrite_taken _ ht (by
    rw [show (0x2100 + p == 0x7001) = false from by simp; omega]; exact hg)]
  rw [if_neg (by omega), if_neg (by omega), if_neg, if_neg]
  · rintro ⟨h, hq⟩; have := (hfree h).2; omega
  · rintro (h | ⟨h, hq⟩)
    · exact h0 h
    · simp [(hfree h).1] at hq

theorem exec_partitionEnableWrite_taken {rq : Req} {p v : Nat} {grant : Bytes} {use : List Change} {s t : State} (hp : p < 256)
    (ht : Taken s rq (0x2100 + p) 2 (writeOp false grant) t) (hg : Granted t rq false 4 p (leBytes 1 v) grant use) (hv : v ≤ 1) :
    exec (.partitionEnableWrite rq p v grant) s = .next (
      let t1 := acceptCommit (t.odSet (0x2100 + p) 2 (leBytes 1 v)) rq (0x2100 + p) 2 (writeOp false grant) []
        (.od (0x2100 + p) 2 (leBytes 1 v) :: use)
      noteFunctions t (if v = 0 then (if (t.part p).dis = .enabled then disablePart t1 p .enable none else t1)
        else if (t.part p).dis = .disabled ∧ (t.part p).disable.isNone ∧ (t.fn (t.part p).fn).state = .enabled then
          t1.modPart p (fun x => { x with dis := .enabled })
        else t1)) := by
  rw [dispatch_partitionEnableWrite, execPartitionEnableWrite, partitionEnableWrite, grantWrite_taken _ ht (by
    rw [show (0x2100 + p == 0x7001) = false from by simp; omega]; exact hg)]
  rw [if_neg (by omega), numCheck_partition_enable hp hv]

theorem noteFunctions_part (b s : State) (p : Nat) : (noteFunctions b s).part p = s.part p := by
  simp only [State.part, noteFunctions_parts]

theorem noteFunctions_quota (b s : State) (p sub : Nat) : (noteFunctions b s).quota p sub = s.quota p sub := by
  simp only [State.quota, State.odNat, State.odGet, noteFunctions_od]

/-! ### The scheduling epoch -/

theorem noteFunctions_same {b s : State} (h : ∀ n, b.fnState n = s.fnState n) : noteFunctions b s = s := by
  rw [noteFunctions, if_pos]
  simp [h]

theorem resetEic_only (s : State) (fn : Nat) : ∃ f e, resetEic s fn = { s with fns := f, eic := e } := ⟨_, _, rfl⟩

theorem clearAssignments_only (s : State) (p n : Nat) : ∃ f g e, clearAssignments s p n = { s with fns := f, groups := g, eic := e } := by
  unfold clearAssignments
  split
  · obtain ⟨f, g, h⟩ := clearPending_only { s with eic := { s.eic with map := tfilter s.eic.map (fun k _ => !(decide (k < 1024) &&
      ((s.groupsOf p).filter (fun g => !(s.rings.any (fun e => decide (e.1 < 4096) && e.2.part != p && e.2.group == g)))).contains k)) } } 0
      ((s.groupsOf p).filter (fun g => !(s.rings.any (fun e => decide (e.1 < 4096) && e.2.part != p && e.2.group == g))))
    exact ⟨f, g, _, h⟩
  · exact ⟨_, _, _, rfl⟩

/-- What the epoch's remaps change: functions, groups, rings, partitions and the event controller (R79). -/
def RemapOnly (s t : State) : Prop := ∃ f g e r q, t = { s with fns := f, groups := g, eic := e, rings := r, parts := q }

theorem RemapOnly.refl (s : State) : RemapOnly s s := ⟨_, _, _, _, _, rfl⟩

theorem RemapOnly.trans {a b c : State} (h : RemapOnly a b) (h' : RemapOnly b c) : RemapOnly a c := by
  obtain ⟨_, _, _, _, _, rfl⟩ := h
  obtain ⟨_, _, _, _, _, rfl⟩ := h'
  exact ⟨_, _, _, _, _, rfl⟩

theorem remapPart_part (s : State) (p n : Nat) : RemapOnly s (remapPart s p n) ∧
    ((remapPart s p n).part p).fn = n ∧ ((remapPart s p n).part p).disable = none ∧
    (∀ k, k ≠ p → (remapPart s p n).part k = s.part k) := by
  have hclear : ∃ f g e, (if n = 0 then clearAssignments s p (s.part p).fn else clearAssignments (clearAssignments s p (s.part p).fn) p n) =
      { s with fns := f, groups := g, eic := e } := by
    obtain ⟨f, g, e, h0⟩ := clearAssignments_only s p (s.part p).fn
    split
    · exact ⟨f, g, e, h0⟩
    · obtain ⟨f', g', e', h1⟩ := clearAssignments_only (clearAssignments s p (s.part p).fn) p n
      exact ⟨f', g', e', by rw [h1, h0]⟩
  obtain ⟨f, g, e, hc⟩ := hclear
  unfold remapPart
  dsimp only
  rw [hc]
  dsimp only
  split
  · refine ⟨⟨_, _, _, _, _, rfl⟩, by simp, by simp, fun k hk => ?_⟩
    rw [State.modPart_part, if_neg hk, State.modPart_part, if_neg hk]
    rfl
  · refine ⟨⟨_, _, _, _, _, rfl⟩, by simp, by simp, fun k hk => ?_⟩
    rw [State.modPart_part, if_neg hk]
    rfl

/-- One partition's turn at the epoch. -/
def remapDue (t : State) (p : Nat) : State :=
  match (t.part p).disable with
  | none => t
  | some d => if (t.part p).dis = .disabled then (match d.remap with
      | none => t
      | some n => remapPart t p n) else t

theorem applyRemaps_eq (s : State) : applyRemaps s = (tkeys s.parts).foldl remapDue s := rfl

theorem remapDue_only (s : State) (p : Nat) : RemapOnly s (remapDue s p) := by
  unfold remapDue
  split
  · exact .refl s
  · split
    · split
      · exact .refl s
      · exact (remapPart_part s p _).1
    · exact .refl s

theorem remapDue_beside (s : State) {p k : Nat} (h : k ≠ p) : (remapDue s p).part k = s.part k := by
  unfold remapDue
  split
  · rfl
  · split
    · split
      · rfl
      · exact (remapPart_part s p _).2.2.2 k h
    · rfl

theorem remapDue_idle {s : State} {p : Nat} (h : (s.part p).disable = none) : remapDue s p = s := by
  rw [remapDue, h]

theorem applyRemaps_only (s : State) : RemapOnly s (applyRemaps s) :=
  foldl_rel .refl (fun _ _ _ => .trans) _ remapDue_only _ s

/-- A partition without a disable procedure is not remapped. -/
theorem applyRemaps_idle_part {s : State} {p : Nat} (h : (s.part p).disable = none) : (applyRemaps s).part p = s.part p := by
  have hfold := foldl_rel (P := fun a b : State => (a.part p).disable = none → b.part p = a.part p) (fun _ _ => rfl)
    (fun a b c hab hbc ha => (hbc (by rw [hab ha]; exact ha)).trans (hab ha)) remapDue
    (fun t q ht => by
      by_cases hq : p = q
      · subst hq; rw [remapDue_idle ht]
      · exact remapDue_beside t hq) (tkeys s.parts) s
  exact hfold h

theorem applyRemaps_idle {s : State} (h : ∀ e ∈ s.parts, (s.part e.1).disable = none) : applyRemaps s = s := by
  have hfold : ∀ l : List Nat, (∀ p ∈ l, (s.part p).disable = none) → l.foldl remapDue s = s := fun l => by
    induction l with
    | nil => intro _; rfl
    | cons p l ih =>
      intro hl
      rw [List.foldl_cons, remapDue_idle (hl p List.mem_cons_self)]
      exact ih (fun q hq => hl q (List.mem_cons_of_mem p hq))
  refine hfold _ (fun p hp => ?_)
  obtain ⟨e, he, rfl⟩ := List.mem_map.mp hp
  exact h e he

/-- A partition whose disable has been acknowledged comes to its new function (R79). -/
theorem applyRemaps_remaps {s : State} {p n : Nat} {d : Disable} (hd : (s.part p).disable = some d) (hs : (s.part p).dis = .disabled)
    (hr : d.remap = some n) : ((applyRemaps s).part p).fn = n ∧ ((applyRemaps s).part p).disable = none := by
  have hmem : p ∈ tkeys s.parts := by
    rcases hg : tget s.parts p with _ | x
    · simp [State.part, tgetD, hg, part0] at hd
    · exact List.mem_map.mpr ⟨(p, x), mem_of_tget hg, rfl⟩
  have hdone : ∀ t : State, t.part p = s.part p → ((remapDue t p).part p).fn = n ∧ ((remapDue t p).part p).disable = none := fun t ht => by
    have hx : remapDue t p = remapPart t p n := by
      rw [remapDue, ht, hd]
      dsimp only
      rw [if_pos hs, hr]
    rw [hx]
    exact ⟨(remapPart_part t p n).2.1, (remapPart_part t p n).2.2.1⟩
  have hkeep : ∀ t q, ((t.part p).fn = n ∧ (t.part p).disable = none) → ((remapDue t q).part p).fn = n ∧ ((remapDue t q).part p).disable = none := by
    rintro t q ⟨hf, hn⟩
    by_cases hq : p = q
    · subst hq; rw [remapDue_idle hn]; exact ⟨hf, hn⟩
    · rw [remapDue_beside t hq]; exact ⟨hf, hn⟩
  refine foldl_reaches (I := fun t => t.part p = s.part p ∨ ((t.part p).fn = n ∧ (t.part p).disable = none))
    (Q := fun t => (t.part p).fn = n ∧ (t.part p).disable = none) (fun t q hi => ?_) hkeep hmem (fun t hi => ?_) (.inl rfl)
  · rcases hi with hi | hi
    · by_cases hq : p = q
      · subst hq; exact .inr (hdone t hi)
      · exact .inl ((remapDue_beside t hq).trans hi)
    · exact .inr (hkeep t q hi)
  · rcases hi with hi | hi
    · exact hdone t hi
    · exact hkeep t p hi

/-! The quota writes an epoch evaluates (R75). -/

/-- What evaluating quota writes changes: the dictionary, the commit queue, the token buckets, and what replies change. -/
structure QuotaOnly (s t : State) : Prop where
  only : ∃ o c q e b, t = { s with od := o, commit := { s.commit with queue := c }, parts := q, eic := e, bus := b }
  part : ∀ p, ∃ g, t.part p = { s.part p with drbg := g }
  quotas : t.od.quotas = s.od.quotas

theorem QuotaOnly.refl (s : State) : QuotaOnly s s := ⟨⟨_, _, _, _, _, rfl⟩, fun _ => ⟨_, rfl⟩, rfl⟩

theorem QuotaOnly.trans {a b c : State} (h : QuotaOnly a b) (h' : QuotaOnly b c) : QuotaOnly a c where
  only := by
    obtain ⟨_, _, _, _, _, rfl⟩ := h.only
    obtain ⟨o, c, q, e, b, rfl⟩ := h'.only
    exact ⟨o, c, q, e, b, rfl⟩
  part p := by
    obtain ⟨g, hg⟩ := h.part p
    obtain ⟨g', hg'⟩ := h'.part p
    exact ⟨g', by rw [hg', hg]⟩
  quotas := h'.quotas.trans h.quotas

theorem sendReply_quotas (s : State) (rq : Req) (idx sub op st : Nat) (data : Bytes) :
    (sendReply s rq idx sub op st data).od.quotas = s.od.quotas := by
  obtain ⟨_, _, _, _, _, _, h⟩ := sendReply_od s rq idx sub op st data
  rw [h]

theorem QuotaOnly.sendReply (s : State) (rq : Req) (idx sub op st : Nat) (data : Bytes) : QuotaOnly s (sendReply s rq idx sub op st data) := by
  have hq := sendReply_quotas s rq idx sub op st data
  obtain ⟨o, e, h⟩ := sendReply_only s rq idx sub op st data
  exact ⟨⟨o, s.commit.queue, s.parts, e, _, h⟩, fun p => ⟨(s.part p).drbg, by rw [h]; rfl⟩, hq⟩

theorem acceptCommit_part (s : State) (rq : Req) (idx sub op : Nat) (data : Bytes) (l : List Change) (p : Nat) :
    (acceptCommit s rq idx sub op data l).part p = s.part p := rfl

theorem evalQuota_only (s : State) (w : Req × Nat × Nat × Nat) : QuotaOnly s (evalQuota s w) := by
  obtain ⟨rq, p, sub, v⟩ := w
  unfold evalQuota
  dsimp only
  split
  · exact .sendReply s _ _ _ _ _ _
  · split
    · refine ⟨⟨_, _, _, _, _, rfl⟩, fun k => ?_, rfl⟩
      by_cases hk : k = p
      · subst hk
        exact ⟨{ (s.part k).drbg with tokens := 0 }, by rw [acceptCommit_part, State.modPart_part_self]; rfl⟩
      · exact ⟨(s.part k).drbg, by rw [acceptCommit_part, State.modPart_part, if_neg hk]; rfl⟩
    · exact ⟨⟨_, _, _, _, _, rfl⟩, fun k => ⟨_, rfl⟩, rfl⟩

/-- The epoch counted, no write of a quota waiting (R73, R93). -/
def epochStarts (s : State) : State :=
  { s with link := { s.link with epoch := (s.link.epoch + 1) % 2 ^ 32 }, od := { s.od with quotas := [] } }

theorem exec_schedulingEpoch_eq (s : State) : exec .schedulingEpoch s =
    .next (noteFunctions s (applyRemaps (s.od.quotas.foldl evalQuota (epochStarts s)))) := rfl

theorem evalQuotas_only (s : State) : QuotaOnly (epochStarts s) (s.od.quotas.foldl evalQuota (epochStarts s)) :=
  foldl_rel .refl (fun _ _ _ => .trans) _ evalQuota_only _ _

theorem exec_schedulingEpoch_idle {s : State} (hq : s.od.quotas = []) (h : ∀ e ∈ s.parts, (s.part e.1).disable = none) :
    exec .schedulingEpoch s = .next { s with link := { s.link with epoch := (s.link.epoch + 1) % 2 ^ 32 } } := by
  have hod : { s.od with quotas := [] } = s.od := by rw [← hq]
  rw [exec_schedulingEpoch_eq, hq, List.foldl_nil, applyRemaps_idle (s := epochStarts s) h, noteFunctions_same (b := s) (s := epochStarts s) (fun _ => rfl),
    epochStarts, hod]

/-- One quota write at the boundary, and nothing to remap. -/
theorem exec_schedulingEpoch_single {s u : State} {w : Req × Nat × Nat × Nat} (hq : s.od.quotas = [w]) (hu : evalQuota (epochStarts s) w = u)
    (hp : u.parts = s.parts) (h : ∀ e ∈ s.parts, (s.part e.1).disable = none) : exec .schedulingEpoch s = .next (noteFunctions s u) := by
  rw [exec_schedulingEpoch_eq, hq, List.foldl_cons, List.foldl_nil, hu, applyRemaps_idle]
  intro e he
  rw [State.part, hp]
  exact h e (hp ▸ he)

end Sys2Proof.Machine

/-- Settles O29: a remap or a disable is the disable procedure under its trigger; an epoch evaluates the waiting quota writes, then remaps. -/
theorem partitionServiceCommands : Obligations.PartitionServiceCommands := by
  unfold Obligations.PartitionServiceCommands
  refine ⟨fun rq p v grant use s t hp => ⟨fun sub hq ht hh hn h3 => exec_quotaWrite_waits hp hq ht hh hn h3, fun ht hg h0 hv hfree => ?_,
    fun ht hg hen => ?_, fun ht hg hdis hno hfn => ?_⟩, fun s => ?_, fun s rq p v hq hidle hp hv => ⟨fun hok => ?_, fun hbad => ?_⟩⟩
  · obtain ⟨d, hd, hgoal⟩ := disablePart_disable
      (acceptCommit t rq (0x2100 + p) 1 (writeOp false grant) [] (.od (0x2100 + p) 1 (leBytes 1 v) :: use)) p .remap (some v)
    have hw := disablePart_workOnly
      (acceptCommit t rq (0x2100 + p) 1 (writeOp false grant) [] (.od (0x2100 + p) 1 (leBytes 1 v) :: use)) p .remap (some v)
    refine ⟨_, d, exec_partitionFunctionWrite_remaps hp ht hg h0 hv hfree, ?_, ?_, fun hen => ?_, ?_, ?_, ?_, ?_, ?_⟩
    · rw [noteFunctions_part, disablePart_part_dis, if_pos rfl]
    · rw [noteFunctions_part]; exact hd
    · rw [if_neg (by rw [show ((acceptCommit t rq (0x2100 + p) 1 (writeOp false grant) []
        (.od (0x2100 + p) 1 (leBytes 1 v) :: use)).part p).dis = .enabled from hen]; decide)] at hgoal
      exact congrArg (fun g => g.2.1) hgoal
    · split at hgoal
      · rcases hn : ((acceptCommit t rq (0x2100 + p) 1 (writeOp false grant) []
          (.od (0x2100 + p) 1 (leBytes 1 v) :: use)).part p).disable with _ | d0
        · rw [hn] at hgoal; exact congrArg (fun g => g.2.2.1) hgoal
        · rw [hn] at hgoal; exact congrArg (fun g => g.2.2.1) hgoal
      · exact congrArg (fun g => g.2.2.1) hgoal
    · rw [noteFunctions_commit, hw.commit]
    · rw [noteFunctions_keys, hw.keys]; rfl
    · rw [noteFunctions_od, hw.od]; rfl
    · rw [noteFunctions_bus, hw.bus]; rfl
  · obtain ⟨d, hd, hgoal⟩ := disablePart_disable (acceptCommit (t.odSet (0x2100 + p) 2 (leBytes 1 0)) rq (0x2100 + p) 2 (writeOp false grant) []
      (.od (0x2100 + p) 2 (leBytes 1 0) :: use)) p .enable none
    have hw := disablePart_workOnly (acceptCommit (t.odSet (0x2100 + p) 2 (leBytes 1 0)) rq (0x2100 + p) 2 (writeOp false grant) []
      (.od (0x2100 + p) 2 (leBytes 1 0) :: use)) p .enable none
    rw [if_neg (by rw [acceptCommit_part, show ((t.odSet (0x2100 + p) 2 (leBytes 1 0)).part p).dis = .enabled from hen]; decide)] at hgoal
    refine ⟨_, d, exec_partitionEnableWrite_taken hp ht hg (Nat.zero_le 1), ?_, ?_, congrArg (fun g => g.2.1) hgoal,
      congrArg (fun g => g.2.2.1) hgoal, ?_, ?_, ?_⟩
    all_goals dsimp only; rw [if_pos rfl, if_pos hen]
    · rw [noteFunctions_part, disablePart_part_dis, if_pos rfl]
    · rw [noteFunctions_part, hd]
    · rw [noteFunctions_quota, State.quota, State.odNat, State.odGet, hw.od]
      exact congrArg leNat (congrArg (fun o => o.getD (odDefault (0x2100 + p) 2)) (tget_tset_self ..))
    · rw [noteFunctions_keys, hw.keys]; rfl
    · rw [noteFunctions_bus, hw.bus]; rfl
  · refine ⟨_, exec_partitionEnableWrite_taken hp ht hg (Nat.le_refl 1), ?_, ?_, ?_, fun q hq => ?_, ?_, ?_, ?_⟩
    all_goals dsimp only; rw [if_neg (by decide), if_pos ⟨hdis, by rw [hno]; rfl, hfn⟩]
    · rw [noteFunctions_part, State.modPart_part_self]; rfl
    · rw [noteFunctions_quota]
      exact congrArg leNat (congrArg (fun o => o.getD (odDefault (0x2100 + p) 2)) (tget_tset_self ..))
    · rw [noteFunctions_commit]; rfl
    · rw [noteFunctions_part, State.modPart_part, if_neg hq]; rfl
    · rw [noteFunctions_keys]; rfl
    · rw [noteFunctions_rings]; rfl
    · rw [noteFunctions_bus]; rfl
  · have hu := evalQuotas_only s
    have hx := exec_schedulingEpoch_eq s
    generalize s.od.quotas.foldl evalQuota (epochStarts s) = u at hu hx
    obtain ⟨f, g, e', r, q, hr⟩ := applyRemaps_only u
    obtain ⟨o, c, q', e'', b, huo⟩ := hu.only
    refine ⟨_, hx, ?_, ?_, ?_, ?_, fun hq hidle => ?_, fun p d n hd hs hn => ?_, fun p hn => ?_⟩
    · rw [noteFunctions_link, hr, huo]; rfl
    · rw [noteFunctions_od, hr]; exact hu.quotas
    · rw [noteFunctions_keys, hr, huo]; rfl
    · rw [noteFunctions_adm, hr, huo]; rfl
    · rw [exec_schedulingEpoch_idle hq hidle] at hx
      exact (Host.Outcome.next.inj hx).symm
    · obtain ⟨g, hg⟩ := hu.part p
      rw [noteFunctions_part]
      exact applyRemaps_remaps (by rw [hg]; exact hd) (by rw [hg]; exact hs) hn
    · obtain ⟨g, hg⟩ := hu.part p
      rw [noteFunctions_part, applyRemaps_idle_part (s := u) (p := p) (by rw [hg]; exact hn), hg]
      exact ⟨rfl, rfl⟩
  · have hev : evalQuota (epochStarts s) (rq, p, 4, v) = acceptCommit ((epochStarts s).odSet (0x2100 + p) 4 (numBytes (0x2100 + p) 4 v))
        rq (0x2100 + p) 4 0x20 [] [.od (0x2100 + p) 4 (numBytes (0x2100 + p) 4 v)] := by
      have hok' : (epochStarts s).quotaRefused p 4 v = false := hok
      simp [evalQuota, quotaAt, hok']
    refine ⟨_, exec_schedulingEpoch_single hq hev rfl hidle, ?_, ?_, ?_, ?_, ?_, ?_⟩
    · rw [noteFunctions_od]; rfl
    · rw [State.odGet, noteFunctions_od]
      exact congrArg (fun o => o.getD (odDefault (0x2100 + p) 4)) (tget_tset_self ..)
    · rw [noteFunctions_commit]; rfl
    · rw [noteFunctions_keys]; rfl
    · rw [noteFunctions_parts]; rfl
    · rw [noteFunctions_rings]; rfl
  · have hev : evalQuota (epochStarts s) (rq, p, 4, v) = refuse (epochStarts s) rq (0x2100 + p) 4 0x20 .quota := by
      have hbad' : (epochStarts s).quotaRefused p 4 v = true := hbad
      simp [evalQuota, quotaAt, hbad']
    have hstore := sendReply_store (epochStarts s) rq (0x2100 + p) 4 0x20 Status.quota.code []
    have hquotas := sendReply_quotas (epochStarts s) rq (0x2100 + p) 4 0x20 Status.quota.code []
    obtain ⟨o, e, hsend⟩ := sendReply_only (epochStarts s) rq (0x2100 + p) 4 0x20 Status.quota.code []
    rw [hsend] at hstore hquotas
    rw [refuse, hsend] at hev
    refine ⟨_, exec_schedulingEpoch_single hq hev rfl hidle, ?_, ?_, ?_, ?_, ?_⟩
    · rw [noteFunctions_od]; exact hquotas
    · rw [noteFunctions_commit]; rfl
    · rw [State.odGet, noteFunctions_od]
      exact congrArg (fun m => (tget m (odKey (0x2100 + p) 4)).getD (odDefault (0x2100 + p) 4)) hstore
    · rw [noteFunctions_keys]; rfl
    · rw [noteFunctions_parts]; rfl

end

section
open Sys2Proof.Machine

/-! SUPPORT. A reply, its session and its buffer (R567, R575 to R583), and the life of sessions. -/

namespace Sys2Proof.Machine

/-- The body of a reply as its sender's transport carries it. -/
def replyEnv (s : State) (rq : Req) (idx sub op st : Nat) (data : Bytes) : Bytes :=
  let body := replyBody idx sub op st rq.reqId (if st = 0 then data else [])
  if rq.transport = 2 then body else envelope s rq body

/-- A session whose request has been answered (R576). -/
def Session.answered (x : Session) (env : Bytes) (now : Nat) : Session := { x with busy := false, cached := env, lastUs := now }

theorem sendReply_sessions (s : State) (rq : Req) (idx sub op st : Nat) (data : Bytes) : (sendReply s rq idx sub op st data).od.sessions =
    tmap s.od.sessions (fun k x => if k = rq.session then x.answered (replyEnv s rq idx sub op st data) s.opUs else x) := by
  unfold sendReply
  dsimp only
  split
  · split
    · split
      · rfl
      · rw [raise_od]; rfl
    · rfl
  · rfl

theorem sendReply_session (s : State) (rq : Req) (idx sub op st : Nat) (data : Bytes) (k : Nat) :
    tget (sendReply s rq idx sub op st data).od.sessions k = (tget s.od.sessions k).map (fun x =>
      if k = rq.session then x.answered (replyEnv s rq idx sub op st data) s.opUs else x) := by
  rw [sendReply_sessions, tget_tmap]

theorem sendReply_answers {s : State} {rq : Req} {x : Session} (idx sub op st : Nat) (data : Bytes) (hx : tget s.od.sessions rq.session = some x) :
    ∃ env, tget (sendReply s rq idx sub op st data).od.sessions rq.session = some (x.answered env s.opUs) :=
  ⟨_, by rw [sendReply_session, hx, Option.map_some, if_pos rfl]⟩

/-- A reply through the mailbox fills its buffer and raises MB_REPLY (R582). -/
theorem sendReply_mailbox {s : State} {rq : Req} (idx sub op st : Nat) (data : Bytes) (ht : rq.transport = 0) (hb : s.od.busy = true)
    (hd : s.od.dropReply = false) : ∃ u, sendReply s rq idx sub op st data = raise u 1027 ∧ u.power = s.power ∧ u.od.replyUp = true ∧
      u.od.busy = false ∧ u.od.replyLen = (replyEnv s rq idx sub op st data).length ∧
      u.od.replyBuf = bufWrite s.od.replyBuf 0 (replyEnv s rq idx sub op st data) := by
  refine ⟨{ s with
    od := { s.od with
      sessions := tmap s.od.sessions (fun k x => if k = rq.session then x.answered (replyEnv s rq idx sub op st data) s.opUs else x)
      busy := false, replyUp := true, replyLen := (replyEnv s rq idx sub op st data).length
      replyBuf := bufWrite s.od.replyBuf 0 (replyEnv s rq idx sub op st data) }
    bus := { s.bus with replies := s.bus.replies ++ [(rq, replyBody idx sub op st rq.reqId (if st = 0 then data else []))] } }, ?_, rfl, rfl, rfl, rfl, rfl⟩
  unfold sendReply
  dsimp only
  rw [if_pos ht, if_pos hb, if_neg (by simp [hd])]
  rfl

/-- Outside a session the envelope is the header and the body (R580). -/
theorem replyEnv_plain {s : State} {rq : Req} (idx sub op : Nat) (data : Bytes) (ht : rq.transport = 0) (hs : rq.session = 0) :
    replyEnv s rq idx sub op 0 data = leBytes 1 1 ++ leBytes 1 1 ++ leBytes 2 (replyBody idx sub op 0 rq.reqId data).length ++ leBytes 4 0 ++
      leBytes 8 rq.seq ++ replyBody idx sub op 0 rq.reqId data := by
  simp [replyEnv, envelope, ht, hs, b2n]

theorem acceptNow_mailbox {s : State} {rq : Req} (idx sub op : Nat) (data : Bytes) (ht : rq.transport = 0) (hs : rq.session = 0)
    (hb : s.od.busy = true) (hd : s.od.dropReply = false) (ha : s.asleep = false) :
    (acceptNow s rq idx sub op data).od.replyUp = true ∧ (acceptNow s rq idx sub op data).od.busy = false ∧
    1027 ∈ (acceptNow s rq idx sub op data).eic.hostPend ∧
    (∀ i, i < (acceptNow s rq idx sub op data).od.replyLen →
      tgetD (acceptNow s rq idx sub op data).od.replyBuf i 0#8 =
        (leBytes 1 1 ++ leBytes 1 1 ++ leBytes 2 (replyBody idx sub op 0 rq.reqId data).length ++ leBytes 4 0 ++ leBytes 8 rq.seq ++
          replyBody idx sub op 0 rq.reqId data).getD i 0#8) := by
  obtain ⟨u, hu, hp, hup, hbusy, hlen, hbuf⟩ := sendReply_mailbox idx sub op 0 data ht hb hd
  rw [acceptNow, hu]
  refine ⟨by rw [raise_od, hup], by rw [raise_od, hbusy], raise_pends_host rfl (by rw [State.asleep, hp]; exact ha) (by decide), fun i hi => ?_⟩
  rw [raise_od, hlen] at hi
  rw [raise_od, hbuf, tgetD_bufWrite, if_pos ⟨Nat.zero_le i, by omega⟩, Nat.sub_zero, replyEnv_plain idx sub op data ht hs]

theorem State.session_some {s : State} {rq : Req} {x : Session} (h : s.session rq = some x) : tget s.od.sessions rq.session = some x := by
  unfold State.session at h
  split at h
  · cases h
  · exact h

/-- A failed authentication is counted; no session changes (R578). -/
theorem authFailed_only (s : State) (m tr : Nat) : ∃ l f b, authFailed s m tr = { s with
    log := l, od := { s.od with failures := min 0xFFFFFFFF (s.od.failures + 1), fails := f, barred := b } } := by
  unfold authFailed
  dsimp only
  obtain ⟨l, h⟩ := logMain_only (s.modOd (fun o => { o with
    failures := min 0xFFFFFFFF (o.failures + 1)
    fails := tset o.fails m (if 5 ≤ (((tgetD s.od.fails m []).filter (fun t => decide (s.opUs < t + 60000000))) ++ [s.opUs]).length then []
      else ((tgetD s.od.fails m []).filter (fun t => decide (s.opUs < t + 60000000))) ++ [s.opUs])
    barred := if 5 ≤ (((tgetD s.od.fails m []).filter (fun t => decide (s.opUs < t + 60000000))) ++ [s.opUs]).length
      then tset o.barred m (s.opUs + 60000000) else o.barred })) 4 0x0C00 0x0C01 0xFF m (leBytes 1 tr)
  rw [h]
  exact ⟨l, _, _, rfl⟩

/-- What the core draws for its own use it takes from the front of partition 0's staging (R381). -/
theorem coreDraw_staged (s : State) (n : Nat) : ((coreDraw s n).2.part 0).drbg.staged = (s.part 0).drbg.staged.drop n := by
  simp [coreDraw]

theorem coreDraw_beside (s : State) (n : Nat) {p : Nat} (hp : p ≠ 0) : (coreDraw s n).2.part p = s.part p := by
  rw [coreDraw, State.modPart_part, if_neg hp]

/-- The session that SESSION_OPEN adds (R577): its key and points from the 40 octets drawn first, its challenge the 32 behind them. -/
def newSession (t : State) (rq : Req) (m : Nat) (point : Bytes) (q : Nat × Nat) : Session :=
  let db := (coreDraw t 40).1
  let t1 := (coreDraw t 40).2
  let mp := Ec.encode Ec.p256 (Ec.mul Ec.p256 (Ec.scalar Ec.p256 db) (Ec.base Ec.p256))
  ⟨m, rq.transport, false, 0, [], false, t.opUs, point, mp, (coreDraw t1 32).1,
    kdfHmac (Ec.ecdh Ec.p256 (Ec.scalar Ec.p256 db) q) (ascii "NLM-OAP") (point ++ mp) 512, none, 0, [], 0⟩

/-- The state with the session opened, before its answer. -/
def sessionOpened (t : State) (rq : Req) (m : Nat) (point : Bytes) (q : Nat × Nat) : State :=
  let t2 := (coreDraw (coreDraw t 40).2 32).2
  t2.modOd (fun o => { o with
    sessions := tset o.sessions t.od.nextSess (newSession t rq m point q)
    nextSess := if t.od.nextSess + 1 < 2 ^ 32 then t.od.nextSess + 1 else 1 })

/-- SESSION_OPEN with a point of the curve and the randomness there (R577). -/
theorem sessionOpen_opens {s t : State} {rq : Req} {m : Nat} {point : Bytes} {q : Nat × Nat} (ht : Taken s rq 0 0 0x40 t) (htr : rq.transport ≠ 2)
    (hm : m < 64) (hr : t.roles m ≠ 0) (hq : Ec.decode Ec.p256 point = some q) (hn : t.od.sessions.length < 32) (hb : tgetD t.od.barred m 0 ≤ t.opUs) :
    sessionOpen rq m point s = if t.coreReady 72 = true then
      acceptNow (sessionOpened t rq m point q) rq 0 0 0x40 (leBytes 4 t.od.nextSess ++
        Ec.encode Ec.p256 (Ec.mul Ec.p256 (Ec.scalar Ec.p256 (coreDraw t 40).1) (Ec.base Ec.p256)) ++ (coreDraw (coreDraw t 40).2 32).1) else s := by
  rw [sessionOpen, serveWrite_taken ht.1 ht.2 (by simp [htr, hm, hr])]
  simp only [hq]
  rw [if_neg (Nat.not_le.2 hn), if_neg (Nat.not_lt.2 hb)]
  by_cases hc : t.coreReady 72 = true
  · rw [if_neg (by simp [hc]), if_pos hc]
    rfl
  · rw [if_pos (by simpa using hc), if_neg hc]

theorem sessionOpened_part_zero (t : State) (rq : Req) (m : Nat) (point : Bytes) (q : Nat × Nat) :
    ((sessionOpened t rq m point q).part 0).drbg.staged = (t.part 0).drbg.staged.drop 72 := by
  change (((coreDraw (coreDraw t 40).2 32).2).part 0).drbg.staged = _
  rw [coreDraw_staged, coreDraw_staged, List.drop_drop]

theorem sessionOpened_part (t : State) (rq : Req) (m : Nat) (point : Bytes) (q : Nat × Nat) {p : Nat} (hp : p ≠ 0) :
    (sessionOpened t rq m point q).part p = t.part p := by
  change ((coreDraw (coreDraw t 40).2 32).2).part p = _
  rw [coreDraw_beside _ _ hp, coreDraw_beside _ _ hp]

/-- The challenge is the 32 octets behind the 40 of the key (R381, R577). -/
theorem newSession_challenge {t : State} (rq : Req) (m : Nat) (point : Bytes) (q : Nat × Nat) (hc : t.coreReady 72 = true) :
    (newSession t rq m point q).challenge = slice (t.part 0).drbg.staged 40 32 := by
  have hlen : 72 ≤ (t.part 0).drbg.staged.length := by
    rw [State.coreReady, Bool.and_eq_true, decide_eq_true_eq] at hc
    exact hc.2
  change (((coreDraw t 40).2.part 0).drbg.staged.take 32) = _
  rw [coreDraw_staged, slice]
  rw [List.length_take, List.length_drop, Nat.min_eq_left (by omega), Nat.sub_self]
  exact (List.append_nil _).symm

/-- SESSION_AUTH keys the session where the signature verifies, and counts a failure otherwise (R578). -/
theorem sessionAuth_decides {s t : State} {rq : Req} {sig : Bytes} {x : Session} (ht : Taken s rq 0 0 0x41 t) (hx : t.session rq = some x)
    (htr : x.transport = rq.transport) (hk : x.keyed = false) (hl : sig.length = 64) : sessionAuth rq sig s =
    if Ec.verifyEnc Ec.p256 (t.odGet (0x3500 + x.member) 3) (authDigest rq.session x) sig then
      acceptNow (logMain (t.modOd (fun o => { o with sessions := tset o.sessions rq.session { x with keyed := true } })) 1 0x0C00 0x0C02 0xFF
        x.member (leBytes 4 rq.session)) rq 0 0 0x41 []
    else refuse (authFailed t x.member rq.transport) rq 0 0 0x41 .verifyFail := by
  rw [sessionAuth, serveWrite_taken ht.1 ht.2 (by simp [hx, htr, hk])]
  simp only [hx]
  rw [if_neg (by omega)]

theorem sessionClose_ends {s t : State} {rq : Req} {x : Session} (ht : Taken s rq 0 0 0x42 t) (hx : t.session rq = some x)
    (htr : x.transport = rq.transport) : sessionClose rq s = endSession (acceptNow t rq 0 0 0x42 []) rq.session := by
  rw [sessionClose, serveWrite_taken ht.1 ht.2 (by simp [hx, htr])]

theorem sendReply_failures (s : State) (rq : Req) (idx sub op st : Nat) (data : Bytes) :
    (sendReply s rq idx sub op st data).od.failures = s.od.failures := by
  obtain ⟨_, _, _, _, _, _, h⟩ := sendReply_od s rq idx sub op st data
  rw [h]

end Sys2Proof.Machine

/-- Settles O51: a reply enters the bus, its sender's session and, through the mailbox, the reply buffer, and touches nothing else. -/
theorem repliesReachTheirSender : Obligations.RepliesReachTheirSender := by
  unfold Obligations.RepliesReachTheirSender
  intro rq idx sub op data s
  refine ⟨?_, fun x hx => ?_, acceptNow_mailbox idx sub op data, ?_⟩
  · obtain ⟨o, e, h⟩ := sendReply_only s rq idx sub op 0 data
    rw [acceptNow, h]
    rfl
  · rw [acceptNow, sendReply_session, hx, Option.map_some, if_pos rfl]
    exact ⟨_, rfl, rfl, rfl, rfl⟩
  · have hstore := sendReply_store s rq idx sub op 0 data
    obtain ⟨o, e, h⟩ := sendReply_only s rq idx sub op 0 data
    rw [h] at hstore
    rw [acceptNow, h]
    exact ⟨rfl, rfl, rfl, rfl, hstore⟩

/-- Settles O53: the four ways a session begins, is authenticated and ends. -/
theorem sessionLife : Obligations.SessionLife := by
  unfold Obligations.SessionLife
  refine ⟨fun rq m point s t ht htr hm hr hq hn hb hne => ?_, fun rq sig x s t ht hx htr hk hl => ?_, fun rq x s t ht hx htr => ?_,
    fun n x s hx hb => ⟨fun hd => ?_, fun hd => ?_⟩⟩
  · obtain ⟨q, hq⟩ := Option.isSome_iff_exists.1 hq
    refine ⟨fun hc => ?_, fun hc => ?_⟩ <;> rw [dispatch_sessionOpen, execSessionOpen, sessionOpen_opens ht htr hm hr hq hn hb]
    · rw [if_pos hc]
      have hsess := sendReply_session (sessionOpened t rq m point q) rq 0 0 0x40 0 (leBytes 4 t.od.nextSess ++
        Ec.encode Ec.p256 (Ec.mul Ec.p256 (Ec.scalar Ec.p256 (coreDraw t 40).1) (Ec.base Ec.p256)) ++ (coreDraw (coreDraw t 40).2 32).1) t.od.nextSess
      obtain ⟨o, e, h⟩ := sendReply_only (sessionOpened t rq m point q) rq 0 0 0x40 0 (leBytes 4 t.od.nextSess ++
        Ec.encode Ec.p256 (Ec.mul Ec.p256 (Ec.scalar Ec.p256 (coreDraw t 40).1) (Ec.base Ec.p256)) ++ (coreDraw (coreDraw t 40).2 32).1)
      rw [show tget (sessionOpened t rq m point q).od.sessions t.od.nextSess = some (newSession t rq m point q) from tget_tset_self ..,
        Option.map_some, if_neg (Ne.symm hne)] at hsess
      refine ⟨_, _, rfl, hsess, rfl, rfl, rfl, rfl, newSession_challenge rq m point q hc, ?_⟩
      rw [acceptNow, h]
      exact ⟨sessionOpened_part_zero t rq m point q, fun p hp => sessionOpened_part t rq m point q hp, rfl, rfl, rfl⟩
    · rw [if_neg (by simp [hc])]
  · rw [dispatch_sessionAuth, execSessionAuth, sessionAuth_decides ht hx htr hk hl]
    cases hv : Ec.verifyEnc Ec.p256 (t.odGet (0x3500 + x.member) 3) (authDigest rq.session x) sig
    case true =>
      rw [if_pos rfl, acceptNow]
      obtain ⟨env, hsess⟩ := sendReply_answers (s := logMain (t.modOd (fun o => { o with
        sessions := tset o.sessions rq.session { x with keyed := true } })) 1 0x0C00 0x0C02 0xFF x.member (leBytes 4 rq.session)) (rq := rq)
        (x := { x with keyed := true }) 0 0 0x41 0 [] (by rw [logMain_od]; exact tget_tset_self ..)
      refine ⟨_, _, rfl, hsess, rfl, rfl, fun _ => ?_, fun h => ?_, ?_⟩
      · rw [sendReply_failures, logMain_od]
        rfl
      · cases h
      · obtain ⟨o, e, h⟩ := sendReply_only (logMain (t.modOd (fun o => { o with
          sessions := tset o.sessions rq.session { x with keyed := true } })) 1 0x0C00 0x0C02 0xFF x.member (leBytes 4 rq.session)) rq 0 0 0x41 0 []
        rw [h]
        exact ⟨logMain_keys .., logMain_parts .., logMain_commit ..⟩
    case false =>
      obtain ⟨l, f, b, hfail⟩ := authFailed_only t x.member rq.transport
      rw [if_neg Bool.false_ne_true, refuse, hfail]
      have hx' : tget (authFailed t x.member rq.transport).od.sessions rq.session = some x := by rw [hfail]; exact State.session_some hx
      obtain ⟨env, hsess⟩ := sendReply_answers 0 0 0x41 Status.verifyFail.code [] hx'
      rw [hfail] at hsess
      refine ⟨_, _, rfl, hsess, hk, rfl, fun h => ?_, fun _ => ?_, ?_⟩
      · simp [Session.answered, hk] at h
      · rw [sendReply_failures]
      · obtain ⟨o, e, h⟩ := sendReply_only _ rq 0 0 0x41 Status.verifyFail.code []
        rw [h]
        exact ⟨rfl, rfl, rfl⟩
  · rw [dispatch_sessionClose, execSessionClose, sessionClose_ends ht hx htr]
    refine ⟨_, rfl, ?_, fun k hk => ?_, ?_⟩
    · simp [endSession, State.modOd, tget_terase]
    · simp only [endSession, State.modOd, tget_terase, if_neg hk, acceptNow, sendReply_session, Option.map_id']
    · obtain ⟨o, e, h⟩ := sendReply_only t rq 0 0 0x42 0 []
      rw [acceptNow, h]
      exact ⟨rfl, rfl⟩
  · rw [dispatch_sessionIdleTimeout, execSessionIdleTimeout]
    simp only [hx]
    rw [if_pos (by simp [hb, hd])]
    rfl
  · rw [dispatch_sessionIdleTimeout, execSessionIdleTimeout]
    simp only [hx]
    rw [if_neg (by simp [hb]; omega)]
end

section
open Sys2Proof.Machine

/-! SUPPORT. What leaves Looper as it stands: the cuts of rings, the collar's loss and the tasks that wait for KD (R141, R320). -/

namespace Sys2Proof.Machine

/-- Looper's queue, registers and keys stand. -/
def LooperKept (s t : State) : Prop := t.units.looper = s.units.looper

namespace LooperKept

theorem refl (s : State) : LooperKept s s := Eq.refl _

theorem trans {a b c : State} (h : LooperKept a b) (h' : LooperKept b c) : LooperKept a c := Eq.trans h' h

theorem fold {α : Type} {g : State → α → State} (hg : ∀ t a, LooperKept t (g t a)) (l : List α) (s : State) : LooperKept s (l.foldl g s) :=
  foldl_rel refl (fun _ _ _ => trans) g hg l s

/-- A change of anything but the units. -/
theorem of_units {s t : State} (h : t.units = s.units) : LooperKept s t := by rw [LooperKept, h]

theorem modSlot (s : State) (n : Nat) (f : Slot → Slot) : LooperKept s (s.modSlot n f) := by
  unfold State.modSlot; split <;> rfl

theorem finish (s : State) (n : Nat) (st : Status) (d : Nat) : LooperKept s (finish s n st d) := modSlot s n _

theorem startEngine (s : State) (e : Nat) : LooperKept s (startEngine s e) := by
  unfold Machine.startEngine
  split
  · exact refl s
  · split
    · exact refl s
    · split
      · exact refl s
      · exact refl s

theorem unqueue (s : State) (n : Nat) (u : UnitClass × Nat) : LooperKept s (unqueue s n u) := by
  unfold Machine.unqueue
  split
  · exact refl s
  · exact refl s
  · exact trans (b := s.modEngine _ _) (refl s) (startEngine _ _)
  · exact refl s

theorem unusePage (s : State) (u : PageUse) : LooperKept s (unusePage s u) := by
  unfold Machine.unusePage; split <;> rfl

theorem unreserve (s : State) (r : Nat) : LooperKept s (unreserve s r) := by
  unfold Machine.unreserve
  split
  · exact refl s
  · split <;> rfl

theorem release (s : State) (n : Nat) : LooperKept s (release s n) := by
  unfold Machine.release
  split
  · exact refl s
  · next x _ =>
    dsimp only
    have h1 : LooperKept s (match x.unit with
        | none => s
        | some u => Machine.unqueue s n u) := by
      split
      · exact refl s
      · exact unqueue s n _
    have h2 := h1.trans (fold unusePage x.pages _)
    have h3 : ∀ u, LooperKept s u → LooperKept s (match x.resvd with
        | none => u
        | some r => Machine.unreserve u r) := fun u hu => by
      split
      · exact hu
      · exact hu.trans (unreserve u _)
    exact h3 _ h2

theorem countDisable (s : State) (p : Nat) (f : Disable → Disable) : LooperKept s (countDisable s p f) := by
  unfold Machine.countDisable; split <;> rfl

theorem discard (s : State) (n : Nat) : LooperKept s (discard s n) := by
  unfold Machine.discard
  split
  · exact refl s
  · exact (countDisable s _ _).trans (release _ n)

theorem discardRunning (s : State) (n : Nat) : LooperKept s (discardRunning s n) := by
  unfold Machine.discardRunning
  split
  · exact refl s
  · exact (countDisable s _ _).trans (release _ n)

theorem endEntry (s : State) (n : Nat) (x : Slot) (st : Status) : LooperKept s (endEntry s n x st) := by
  unfold Machine.endEntry
  split
  · exact modSlot s n _
  · exact finish s n st 0

theorem closeEngine (s : State) (e : Nat) : LooperKept s (closeEngine s e) := refl s

theorem failChain (s : State) (n : Nat) : LooperKept s (failChain s n) := by
  unfold Machine.failChain
  split
  · exact refl s
  · split
    · exact refl s
    · refine fold (fun t e => ?_) _ s
      have hu : LooperKept t (if opcode e.2.desc == 0x901 && t.holdsSession e.2 then Machine.closeEngine t (e.2.sess % 256) else t) := by
        split
        · exact closeEngine t _
        · exact refl t
      dsimp only
      split
      · exact hu
      · exact hu.trans (endEntry _ _ _ _)

theorem abortRaw (s : State) (n : Nat) : LooperKept s (abortRaw s n) := by
  unfold Machine.abortRaw
  split
  · exact refl s
  · split
    · exact refl s
    · split
      · exact modSlot s n _
      · exact (failChain s n).trans (modSlot _ n _)

theorem closeSession (s : State) (e : Nat) : LooperKept s (closeSession s e) := by
  unfold Machine.closeSession
  split
  · exact closeEngine s e
  · exact (abortRaw s _).trans (closeEngine _ e)

theorem closeSessions (s : State) (p : Engine → Bool) : LooperKept s (closeSessions s p) := fold closeSession _ s

theorem dropStep (s : State) (n : Nat) (x : Slot) : LooperKept s (dropStep s n x) := by
  unfold Machine.dropStep
  split
  · exact refl s
  · exact unqueue s n _

theorem withdraw (s : State) (n : Nat) : LooperKept s (withdraw s n) := refl s

theorem unqueue_finish (s : State) (n : Nat) (u : UnitClass × Nat) (st : Status) : LooperKept s (Machine.finish (Machine.unqueue s n u) n st 0) :=
  (unqueue s n u).trans (finish _ n st 0)

theorem cutOne (s : State) (k : Cut) (n : Nat) (x : Slot) : LooperKept s (cutOne s k n x) := by
  unfold Machine.cutOne
  split
  · exact refl s
  · exact refl s
  · split
    · exact (withdraw s n).trans (finish _ n _ 0)
    · exact (withdraw s n).trans (finish _ n _ 0)
    · exact refl s
  · split
    · exact discard s n
    · exact modSlot s n _
  · split
    · split
      · split
        · exact finish s n _ 0
        · exact refl s
      · split
        · exact refl s
        · split
          · exact modSlot s n _
          · exact unqueue_finish s n _ _
    · split
      · exact discard s n
      · exact (dropStep s n x).trans (finish _ n _ 0)

theorem cutChained (s : State) (k : Cut) (n : Nat) (x : Slot) (first : Nat) : LooperKept s (cutChained s k n x first) := by
  unfold Machine.cutChained
  split
  · split
    · exact discard s n
    · split
      · exact modSlot s n _
      · exact discardRunning s n
  · dsimp only
    split
    · exact refl s
    · split
      · split
        · exact modSlot s n _
        · exact finish s n _ 0
      · split
        · exact endEntry s n x _
        · split
          · exact modSlot s n _
          · exact unqueue_finish s n _ _

theorem cutRing (s : State) (k : Cut) (rid : Nat) : LooperKept s (cutRing s k rid) := by
  refine fold (fun t e => ?_) _ s
  unfold cutSlot
  split
  · exact refl t
  · split
    · exact cutOne t k _ _
    · split
      · exact cutChained t k _ _ _
      · exact cutOne t k _ _

theorem noteReplay (s : State) (rid : Nat) : LooperKept s (noteReplay s rid) := by
  unfold Machine.noteReplay; split <;> rfl

theorem raise (s : State) (n : Nat) : LooperKept s (raise s n) := of_units (raise_units ..)

theorem loseCollar (s : State) (role : Nat) : LooperKept s (loseCollar s role) := by
  unfold Machine.loseCollar
  dsimp only
  split
  · exact (fold (s := { s with pair := { s.pair with collarTx := false, role := role, switching := none } })
      (fun t rid => (cutRing t .collar rid).trans (noteReplay _ rid)) _).trans ((closeSessions _ _).trans (raise _ _))
  · exact refl s

theorem dropCollar (s : State) : LooperKept s (dropCollar s) := by
  unfold Machine.dropCollar
  split
  · exact loseCollar s _
  · exact refl s

theorem noteService {a b c : State} (h : LooperKept a c) : LooperKept a (noteService b c) := h.trans (of_units (noteService_units ..))

theorem quarantineAs (s : State) (q : Nat) : LooperKept s (quarantineAs s q) := by
  unfold Machine.quarantineAs
  split
  · exact refl s
  · refine noteService (LooperKept.trans ?_ (dropCollar _))
    exact LooperKept.trans (of_units (logMain_units (s := { s with seam := { s.seam with quarantine := q } }) ..)) (raise _ _)

theorem checkVersion (s : State) : LooperKept s (checkVersion s) := by
  unfold Machine.checkVersion
  split
  · exact quarantineAs s 3
  · split
    · exact quarantineAs s 0
    · exact refl s

theorem of_sendOnly {s t : State} (h : SendOnly s t) : LooperKept s t := by
  obtain ⟨_, _, rfl⟩ := h; rfl

end LooperKept

theorem SendOnly.broadcast (s : State) (cls stamp : Nat) (b : Bytes) : SendOnly s (broadcast s cls stamp b) := by
  refine fold (fun t b => ?_) _ s
  exact (setSeam t _).trans (fold (fun v k => sendOn v k _) _ _)

theorem trainPorts_only (s : State) : ∃ m, trainPorts s = { s with seam := m } := by
  refine foldl_rel (P := fun a b : State => ∃ m, b = { a with seam := m }) (fun a => ⟨a.seam, rfl⟩) ?_ _ (fun t k => ?_) _ s
  · rintro a b c ⟨m, rfl⟩ ⟨m', rfl⟩
    exact ⟨m', rfl⟩
  · dsimp only
    generalize (if k = 4 then t.paired else bit (t.odNat 0x7000 4) k) = on
    split
    · exact ⟨t.seam, rfl⟩
    · split
      · split
        · exact ⟨_, rfl⟩
        · exact ⟨t.seam, rfl⟩
      · split
        · exact ⟨t.seam, rfl⟩
        · exact ⟨_, rfl⟩

theorem pairSet_only (s : State) : ∃ c p e, pairSet s = { s with commit := c, pair := p, eic := e } := by
  unfold pairSet
  split
  · split
    · obtain ⟨e, h⟩ := noteService_only s { s with pair := { s.pair with role := 1 } }
      rw [h]
      exact ⟨_, _, e, rfl⟩
    · exact ⟨s.commit, s.pair, s.eic, rfl⟩
  · obtain ⟨e, h⟩ := noteService_only s { s with
      pair := { s.pair with role := 0, collarTx := false, solo := false, switching := none }
      commit := { s.commit with pages := s.commit.pages ++ s.commit.cycles, cycles := [], soloRequest := false } }
    rw [h]
    exact ⟨_, _, e, rfl⟩

/-- What a stored value takes effect on at once: the sessions of its member, the ports and the pair. -/
theorem odEffect_only (s : State) (idx sub : Nat) : ∃ ss m c p e, odEffect s idx sub =
    { s with od := { s.od with sessions := ss }, seam := m, commit := c, pair := p, eic := e } := by
  unfold odEffect
  split
  · exact ⟨_, s.seam, s.commit, s.pair, s.eic, rfl⟩
  · split
    · obtain ⟨m, h⟩ := trainPorts_only s
      rw [h]
      exact ⟨s.od.sessions, m, s.commit, s.pair, s.eic, rfl⟩
    · split
      · obtain ⟨c, p, e, h⟩ := pairSet_only s
        rw [h]
        obtain ⟨m, h'⟩ := trainPorts_only { s with commit := c, pair := p, eic := e }
        rw [h']
        exact ⟨s.od.sessions, m, c, p, e, rfl⟩
      · exact ⟨s.od.sessions, s.seam, s.commit, s.pair, s.eic, rfl⟩

namespace LooperKept

theorem adopt (s : State) (idx sub : Nat) (v : Bytes) : LooperKept s (adopt s idx sub v) := by
  unfold Machine.adopt
  obtain ⟨ss, m, c, p, e, h⟩ := odEffect_only (s.withBase (fun b => { b with
    store := tset b.store (odKey idx sub) v
    change := tset b.change (odKey idx sub) (tgetD b.change (odKey idx sub) 0 + 1) })) idx sub
  rw [h]
  exact of_units rfl

theorem stepEpoch (s : State) (entry : Option (Nat × Nat × Bytes)) : LooperKept s (stepEpoch s entry) := by
  have hentry : LooperKept s (match entry with
      | none => s
      | some (i, k, v) => Machine.adopt s i k v) := by
    split
    · exact refl s
    · exact adopt s _ _ _
  exact (((hentry.trans (adopt _ _ _ _)).trans (raise _ _)).trans (checkVersion _)).trans (of_sendOnly (.broadcast _ _ _ _))

theorem offerManifest (s : State) (m : Bytes) : LooperKept s (offerManifest s m) := by
  unfold Machine.offerManifest
  split
  · split
    · exact stepEpoch s _
    · exact of_sendOnly (.sendTo s _ _ _)
  · exact refl s

theorem sendReply (s : State) (rq : Req) (idx sub op st : Nat) (data : Bytes) : LooperKept s (sendReply s rq idx sub op st data) := by
  obtain ⟨o, e, h⟩ := sendReply_only s rq idx sub op st data
  rw [h]
  exact refl s

theorem acceptJob (s : State) (j : KdJob) (l : List Change) : LooperKept s (acceptJob s j l) := by
  unfold Machine.acceptJob; split <;> exact refl s

theorem refuseJob (s : State) (j : KdJob) : LooperKept s (refuseJob s j) := by
  unfold Machine.refuseJob
  split
  · exact refl s
  · exact sendReply s _ _ _ _ _ _

theorem drawSecret (s : State) (p n : Nat) : LooperKept s (drawSecret s p n).2 := by
  unfold Machine.drawSecret
  dsimp only
  split <;> exact refl s

theorem runTask (s : State) (j : KdJob) : LooperKept s (runTask s j) := by
  unfold Machine.runTask
  split
  · split
    · exact refuseJob s j
    · exact ((drawSecret s _ _).trans (drawSecret _ _ _)).trans (acceptJob _ j _)
  · dsimp only
    split
    · exact refuseJob s j
    · exact acceptJob s j _
  · exact (acceptJob s j _).trans (offerManifest _ _)
  · exact acceptJob s j _
  · unfold ownSeal; split <;> exact refl s
  · exact refl s

theorem serveKd (s : State) : LooperKept s (serveKd s) := by
  unfold Machine.serveKd
  split
  · split
    · exact refl s
    · exact LooperKept.trans (b := { s with keys := { s.keys with kdJobs := _ } }) (refl s) (runTask _ _)
  · exact refl s

end LooperKept

namespace LooperKept

theorem freePages (s : State) (p : Page → Bool) : LooperKept s (freePages s p) := by
  unfold Machine.freePages
  exact refl s

theorem lockAnswers (s : State) : LooperKept s (lockAnswers s) :=
  fold (fun t j => by
    split
    · exact refl t
    · exact sendReply t _ _ _ _ _ _) _ s

theorem lockClear (s : State) : LooperKept s (lockClear s) := by
  have h := ((lockAnswers s).trans (freePages _ (fun _ => true))).trans (closeSessions _ (fun _ => true))
  exact h.trans (fold (fun t e => refl (t.modEngine e _)) (tkeys _) _)

theorem stoppedActions (s : State) (cls : AlarmClass) : LooperKept s (stoppedActions s cls) := by
  have h : LooperKept s (if 3 ≤ cls.code then Machine.lockClear s else s) := by
    split
    · exact lockClear s
    · exact refl s
  unfold Machine.stoppedActions
  dsimp only
  split
  · exact h
  · exact h

theorem reachStop_three (s : State) : LooperKept s (reachStop s 3) := by
  unfold reachStop
  dsimp only
  rw [if_neg (by decide)]
  split
  · exact noteService (LooperKept.trans (b := { s with
      power := { s.power with stopPoint := 3 }, service := .bootStopped, tamper := { s.tamper with bootStop := 3 } }) (refl s) (stoppedActions _ _))
  · rw [if_neg (fun h => by cases h.1), if_pos rfl]
    exact noteService (of_units rfl)

theorem kdFormed (s : State) (kd : Option Bytes) : LooperKept s (kdFormed s kd) := by
  unfold Machine.kdFormed
  dsimp only
  split
  · exact LooperKept.trans (b := { s with keys := { s.keys with kd := kd, grantKey := kd.map (fun k => grantKeyOf k s.life.latched) } }) (refl s)
      (reachStop_three _)
  · split
    · exact refl s
    · exact LooperKept.trans (b := { s with keys := { s.keys with kd := kd } }) (refl s) (serveKd _)

end LooperKept

/-! ### Looper's own steps -/

theorem looperDraw_only (s : State) : ∃ h d k, looperDraw s = { s with
    entropy := { s.entropy with held := h }, units := { s.units with looper := { s.units.looper with drawn := d, keyReg := k } } } := by
  unfold looperDraw
  split
  · exact ⟨s.entropy.held, s.units.looper.drawn, s.units.looper.keyReg, rfl⟩
  · split
    · exact ⟨s.entropy.held, s.units.looper.drawn, s.units.looper.keyReg, rfl⟩
    · exact ⟨_, _, _, rfl⟩

theorem looperDraw_draws {s : State} {b : Bytes} {h : List Bytes} (hh : s.entropy.held = b :: h) (hq : s.units.looper.queue ≠ [])
    (hd : s.units.looper.drawn = false) (hr : s.looperRuns = true) : looperDraw s = { s with
      entropy := { s.entropy with held := h }
      units := { s.units with looper := { s.units.looper with drawn := true, keyReg := s.units.looper.queue.head?.bind s.looperKey } } } := by
  unfold looperDraw
  simp only [hh]
  rw [if_neg (by simp [hq, hd, hr])]
  rfl

theorem looperDraw_waits {s : State}
    (h : s.entropy.held = [] ∨ s.units.looper.queue = [] ∨ s.units.looper.drawn = true ∨ s.looperRuns = false) : looperDraw s = s := by
  unfold looperDraw
  split
  · rfl
  · next hh =>
    rw [if_pos]
    rcases h with h | h | h | h
    · simp [hh] at h
    all_goals simp [h]

/-- What follows a block: the next draw, or the end of a failed block's requests (R323, R391). -/
def looperGoesOn (s : State) (failed : Prop) [Decidable failed] : State := if failed then looperCut s else looperDraw s

theorem looperGoesOn_only (s : State) (failed : Prop) [Decidable failed] : ∃ h l, looperGoesOn s failed = { s with
    entropy := { s.entropy with held := h }, units := { s.units with looper := l } } ∧ (s.units.looper.block = 0 → l.block = 0) ∧
    l.recordKey = s.units.looper.recordKey ∧ l.nandKey = s.units.looper.nandKey ∧
    (¬ failed → l.queue = s.units.looper.queue ∧ l.block = s.units.looper.block ∧ l.blocks = s.units.looper.blocks) := by
  unfold looperGoesOn
  split
  · next hf =>
    refine ⟨s.entropy.held, _, rfl, fun h => ?_, ?_, ?_, fun h => absurd hf h⟩
    all_goals dsimp only
    all_goals split
    · exact h
    all_goals rfl
  · obtain ⟨h, d, k, e⟩ := looperDraw_only s
    exact ⟨h, _, e, fun h => h, rfl, rfl, fun _ => ⟨rfl, rfl, rfl⟩⟩

theorem looperOut_queue (s : State) (c : Nat) (out : Option Bytes) : (looperOut s c out).units.looper.queue = s.units.looper.queue ∧
    (looperOut s c out).units.looper.block = s.units.looper.block := by
  unfold looperOut
  split
  · rw [LooperKept.kdFormed s out]
    exact ⟨rfl, rfl⟩
  · exact ⟨rfl, rfl⟩
  · split
    · exact ⟨rfl, rfl⟩
    · rw [logMain_units]
      exact ⟨rfl, rfl⟩
  · exact ⟨rfl, rfl⟩
  · exact ⟨rfl, rfl⟩
  · exact ⟨rfl, rfl⟩

theorem looperOut_keys (s : State) {c : Nat} (out : Option Bytes) (hc : c ≠ 0) : (looperOut s c out).keys = s.keys := by
  unfold looperOut
  split
  · exact absurd rfl hc
  · rfl
  · split
    · rfl
    · exact logMain_keys ..
  · rfl
  · rfl
  · rfl

/-- Stop point 3 with no response taken (R503). -/
theorem reachStop_three_runs {s : State} (h : s.tamper.response = none) : reachStop s 3 = noteService s { s with
    power := { s.power with stopPoint := 3 }, service := if s.tamper.latch then .locked else .starting
    life := { s.life with parked := s.life.latched == 0x33 || s.life.latched == 0x55 } } := by
  unfold reachStop
  dsimp only
  split
  · next hr => cases hr.symm.trans h
  · rfl

/-- The start-up's KD: it stands, and the module is at stop point 3 (R145, R503). -/
theorem looperOut_kd {s : State} (out : Option Bytes) (hb : s.booting = true) (hp : s.power.stopPoint = 2) (hr : s.tamper.response = none) :
    (looperOut s 0 out).power.stopPoint = 3 ∧ (looperOut s 0 out).keys.kd = out := by
  change (kdFormed s out).power.stopPoint = 3 ∧ (kdFormed s out).keys.kd = out
  unfold kdFormed
  dsimp only
  rw [if_pos ⟨hb, hp⟩, reachStop_three_runs (by exact hr), noteService_power, noteService_keys]
  exact ⟨rfl, rfl⟩

/-- Every record of that sequence number that the Cocoon sent carries a seal (R592). -/
theorem looperOut_seal (s : State) (seq : Nat) (b : Bytes) : ∀ e ∈ (looperOut s (16 + seq) (some b)).log.nand, e.1.seq = seq → e.1.cocoon = true →
    e.2.isSome = true := by
  intro e he hseq hco
  rw [Nat.add_comm] at he
  obtain ⟨e0, _, rfl⟩ := List.mem_map.1 (show e ∈ s.log.nand.map (fun e =>
    if e.1.seq + 16 = seq + 16 ∧ e.1.cocoon ∧ e.2.isNone then (e.1, some b) else e) from he)
  split
  · rfl
  · next h =>
    rw [if_neg h] at hseq hco
    cases hn : e0.2 with
    | some => rfl
    | none => exact absurd ⟨by rw [hseq], hco, by rw [hn]; rfl⟩ h

/-- The state in which a request's output is put where it belongs. -/
def looperEnded (s : State) (r : List Nat) : State :=
  s.modLooper (fun l => { l with blocks := min (2 ^ 64 - 1) (l.blocks + 1), drawn := false, queue := r, block := 0, keyReg := none, out := [] })

/-- A block of a request has been computed (R320 to R324). -/
theorem blockDone_runs {s : State} {c : Nat} {r : List Nat} (hq : s.units.looper.queue = c :: r) (hd : s.units.looper.drawn = true)
    (hp : s.looperPowered = true) : exec .looperBlockDone s = .next (looperGoesOn
      (if s.units.looper.block + 1 < looperNeed c then s.modLooper (fun l => { l with
        blocks := min (2 ^ 64 - 1) (l.blocks + 1), drawn := false, block := s.units.looper.block + 1
        out := s.looperStep c s.units.looper.block s.units.looper.out })
      else looperOut (looperEnded s r) c (s.units.looper.keyReg.map (fun _ => s.looperStep c s.units.looper.block s.units.looper.out)))
      (s.entropy.st = 4)) := by
  rw [dispatch_looperBlockDone, execLooperBlockDone]
  simp only [hq]
  rw [if_neg (by simp [hd]), if_neg (by simp [hp])]
  rfl

theorem blockDone_counts {s : State} {c : Nat} {r : List Nat} (hq : s.units.looper.queue = c :: r) (hd : s.units.looper.drawn = true)
    (hp : s.looperPowered = true) (hn : s.units.looper.block + 1 < looperNeed c) (hst : s.entropy.st ≠ 4) :
    ∃ t, exec .looperBlockDone s = .next t ∧ t.units.looper.queue = c :: r ∧ t.units.looper.block = s.units.looper.block + 1 ∧
      t.units.looper.blocks = min (2 ^ 64 - 1) (s.units.looper.blocks + 1) ∧ t.keys = s.keys ∧ t.life = s.life ∧ t.log = s.log := by
  rw [blockDone_runs hq hd hp, if_pos hn]
  obtain ⟨h, l, e, _, _, _, hl⟩ := looperGoesOn_only (s.modLooper (fun l => { l with
    blocks := min (2 ^ 64 - 1) (l.blocks + 1), drawn := false, block := s.units.looper.block + 1
    out := s.looperStep c s.units.looper.block s.units.looper.out })) (s.entropy.st = 4)
  obtain ⟨hq', hb, hbs⟩ := hl hst
  rw [e]
  exact ⟨_, rfl, hq'.trans hq, hb, hbs, rfl, rfl, rfl⟩

theorem blockDone_ends {s : State} {c : Nat} {r : List Nat} {k : Bytes} (hq : s.units.looper.queue = c :: r) (hd : s.units.looper.drawn = true)
    (hp : s.looperPowered = true) (hn : looperNeed c ≤ s.units.looper.block + 1) (hk : s.units.looper.keyReg = some k) :
    ∃ t, exec .looperBlockDone s = .next t ∧
      (s.entropy.st ≠ 4 → t.units.looper.queue = r) ∧ t.units.looper.block = 0 ∧
      (c = 0 → s.booting = true → s.power.stopPoint = 2 → s.tamper.response = none → t.power.stopPoint = 3 ∧
        t.keys.kd = some (s.looperStep 0 s.units.looper.block s.units.looper.out)) ∧
      (c = 1 → t.life.sealed = true) ∧ (c = 2 → s.life.sealed = true → t.life.unsealed = true) ∧
      (c = 3 → t.units.looper.recordKey = some (s.looperStep 3 s.units.looper.block s.units.looper.out)) ∧
      (c = 4 → t.units.looper.nandKey = some (s.looperStep 4 s.units.looper.block s.units.looper.out)) ∧
      (∀ seq, c = 16 + seq → ∀ e ∈ t.log.nand, e.1.seq = seq → e.1.cocoon = true → e.2.isSome = true) ∧
      (c ≠ 0 → t.keys = s.keys) := by
  rw [blockDone_runs hq hd hp, if_neg (Nat.not_lt.2 hn), hk, Option.map_some]
  obtain ⟨hqo, hbo⟩ := looperOut_queue (looperEnded s r) c (some (s.looperStep c s.units.looper.block s.units.looper.out))
  obtain ⟨h, l, e, hl0, hrk, hnk, hl⟩ := looperGoesOn_only
    (looperOut (looperEnded s r) c (some (s.looperStep c s.units.looper.block s.units.looper.out))) (s.entropy.st = 4)
  rw [e]
  refine ⟨_, rfl, fun hst => (hl hst).1.trans hqo, hl0 hbo, ?_, ?_, ?_, ?_, ?_, ?_, fun hc => looperOut_keys _ _ hc⟩
  · rintro rfl hb hsp hr
    exact looperOut_kd (s := looperEnded s r) _ hb hsp hr
  · rintro rfl
    rfl
  · rintro rfl hs
    change (if s.life.sealed then _ else _ : State).life.unsealed = true
    rw [if_pos hs]
  · rintro rfl
    exact hrk
  · rintro rfl
    exact hnk
  · rintro seq rfl
    exact looperOut_seal (looperEnded s r) seq _

theorem State.withDrs_present {s : State} (h : s.tamper.drs.isSome = true) : s.withDrs = s := by
  obtain ⟨d, hd⟩ := Option.isSome_iff_exists.1 h
  unfold State.withDrs
  simp only [hd]

theorem State.withDrs_drawn {s : State} (h : s.tamper.drs = none) : s.withDrs = { s with
    free := s.free + 32, tamper := { s.tamper with drs := some (draw s 32).1 }, entropy := { s.entropy with held := s.entropy.held.drop 2 } } := by
  unfold State.withDrs
  simp only [h]
  rfl

theorem looperDraw_held (s : State) : (looperDraw s).entropy.held.length ≤ s.entropy.held.length := by
  unfold looperDraw
  split
  · exact Nat.le_refl _
  · next hh =>
    split
    · exact Nat.le_refl _
    · rw [hh]
      exact Nat.le_succ _

/-- At stop point 2 KD is asked for, under a DRS drawn where there is none (R145, R372). -/
theorem looperKd_asks {s : State} (hm : s.power.mainOk = true) (hl : drsState s.life.latched = true) (hb : s.booting = true)
    (hp : s.power.stopPoint = 2) (hq : 0 ∉ s.units.looper.queue) : exec .looperKdFormation s = .next (askLooper s.withDrs 0) := by
  rw [dispatch_looperKdFormation, execLooperKdFormation, if_neg (by simp [hm, hl]), if_pos (by simp [hb, hp]), if_neg (by simpa using hq)]

end Sys2Proof.Machine

/-- Settles O33: the requests by their conditions, the draw by its equation, and a block by whether it was the request's last. -/
theorem looperRequests : Obligations.LooperRequests := by
  unfold Obligations.LooperRequests
  intro s
  refine ⟨fun b h hh hq hd hr => looperDraw_draws hh hq hd hr, looperDraw_waits, fun hm hl hn hd hs => ?_, fun hm hl hb hp hq => ?_,
    fun hm hl hi hs => ?_, fun hm hp hi hu => ?_, fun hm hr => ?_, fun hm hr => ?_, fun seq r hk hr hs hc => ?_, fun code => ?_,
    fun c r hq hd => ?_, fun c r hq hd hp => ⟨blockDone_counts hq hd hp, fun k hn hk => blockDone_ends hq hd hp hn hk⟩⟩
  · rw [dispatch_looperKdFormation, execLooperKdFormation, if_neg (by simp [hm, hl]), if_neg (by rcases hn with h | h <;> simp [h]), if_pos (by simp [hd, hs])]
    rfl
  · rw [looperKd_asks hm hl hb hp hq, askLooper]
    cases hdrs : s.tamper.drs with
    | some d =>
      rw [State.withDrs_present (by rw [hdrs]; rfl)]
      obtain ⟨h, dr, k, e⟩ := looperDraw_only (s.modLooper (fun l => { l with queue := l.queue ++ [0] }))
      rw [e]
      exact ⟨_, rfl, rfl, fun _ => ⟨hdrs, rfl⟩, nofun, rfl, rfl⟩
    | none =>
      rw [State.withDrs_drawn hdrs]
      have hheld := looperDraw_held ({ s with
        free := s.free + 32, tamper := { s.tamper with drs := some (draw s 32).1 }, entropy := { s.entropy with held := s.entropy.held.drop 2 } }.modLooper
          (fun l => { l with queue := l.queue ++ [0] }))
      obtain ⟨h, dr, k, e⟩ := looperDraw_only ({ s with
        free := s.free + 32, tamper := { s.tamper with drs := some (draw s 32).1 }, entropy := { s.entropy with held := s.entropy.held.drop 2 } }.modLooper
          (fun l => { l with queue := l.queue ++ [0] }))
      rw [e] at hheld ⊢
      refine ⟨_, rfl, rfl, nofun, fun _ => ⟨⟨_, rfl, ?_⟩, rfl, ?_⟩, rfl, rfl⟩
      · simp [draw]
      · exact hheld.trans (by rw [State.modLooper_entropy, List.length_drop])
  · rw [dispatch_looperIdentitySeal, execLooperIdentitySeal, if_pos ⟨hm, hl, hi, by simp [hs]⟩]
    rfl
  · rw [dispatch_looperIdentityUnseal, execLooperIdentityUnseal, if_pos ⟨hm, hp, hi, by simp [hu]⟩]
    rfl
  · rw [dispatch_looperRecordKeyFormation, execLooperRecordKeyFormation, if_pos ⟨hm, by simp [hr]⟩]
    rfl
  · rw [dispatch_looperNandKeyFormation, execLooperNandKeyFormation, if_pos ⟨hm, by simp [hr]⟩]
    rfl
  · rw [dispatch_looperRecordSeal, execLooperRecordSeal, if_pos ⟨hk, List.any_eq_true.2 ⟨_, hr, by simp [hs, hc]⟩⟩]
    rfl
  · rw [dispatch_looperRefused, execLooperRefused]
    obtain ⟨l, h⟩ := logMain_only (s.modLooper (fun l => { l with refused := min 0xFFFFFFFF (l.refused + 1) })) 4 0x0400 0x0401 0xFF (code % 256) []
    rw [h]
    exact ⟨_, rfl, rfl, rfl, rfl, rfl, rfl⟩
  · rw [dispatch_looperBlockDone, execLooperBlockDone]
    simp only [hq]
    rw [if_pos (by simp [hd])]
end

section
open Sys2Proof.Machine

/-! SUPPORT. What no committed change and no loss of the collar moves, and the step that only passes time. -/

namespace Sys2Proof.Machine

/-- What a commit point leaves as it stands: the clocks, the host's and the tamper side, the power and the bus. -/
structure Unmoved (s t : State) : Prop where
  opUs : t.opUs = s.opUs
  timeUs : t.timeUs = s.timeUs
  free : t.free = s.free
  service : t.service = s.service
  fns : t.fns = s.fns
  link : t.link = s.link
  groups : t.groups = s.groups
  tamper : t.tamper = s.tamper
  life : t.life = s.life
  power : t.power = s.power
  bus : t.bus = s.bus
  pending : t.pending = s.pending

namespace Unmoved

theorem refl (s : State) : Unmoved s s := by constructor <;> rfl

theorem trans {a b c : State} (h : Unmoved a b) (h' : Unmoved b c) : Unmoved a c where
  opUs := h'.opUs.trans h.opUs
  timeUs := h'.timeUs.trans h.timeUs
  free := h'.free.trans h.free
  service := h'.service.trans h.service
  fns := h'.fns.trans h.fns
  link := h'.link.trans h.link
  groups := h'.groups.trans h.groups
  tamper := h'.tamper.trans h.tamper
  life := h'.life.trans h.life
  power := h'.power.trans h.power
  bus := h'.bus.trans h.bus
  pending := h'.pending.trans h.pending

theorem fold {α : Type} {g : State → α → State} (hg : ∀ t a, Unmoved t (g t a)) (l : List α) (s : State) : Unmoved s (l.foldl g s) :=
  foldl_rel refl (fun _ _ _ => trans) g hg l s

theorem of_work {s t : State} (h : WorkOnly s t) : Unmoved s t := by
  obtain ⟨_, _, _, _, _, _, _, _, _, rfl⟩ := h
  constructor <;> rfl

theorem raise (s : State) (n : Nat) : Unmoved s (raise s n) := by
  obtain ⟨e, h⟩ := raise_only s n
  rw [h]
  constructor <;> rfl

theorem logMain (s : State) (a b c d e : Nat) (x : Bytes) : Unmoved s (logMain s a b c d e x) := by
  obtain ⟨l, h⟩ := logMain_only s a b c d e x
  rw [h]
  constructor <;> rfl

theorem modPart (s : State) (p : Nat) (f : Part → Part) : Unmoved s (s.modPart p f) := by constructor <;> rfl

theorem setCommit (s : State) (c : Commit) : Unmoved s { s with commit := c } := by constructor <;> rfl

theorem setKeys (s : State) (k : Keys) : Unmoved s { s with keys := k } := by constructor <;> rfl

theorem setQuorum (s : State) (q : Quorum) : Unmoved s { s with quorum := q } := by constructor <;> rfl

theorem setLog (s : State) (l : Recorder) : Unmoved s { s with log := l } := by constructor <;> rfl

theorem freePages (s : State) (p : Page → Bool) : Unmoved s (freePages s p) := by constructor <;> rfl

theorem dropCache (s : State) (p : Nat → CacheEntry → Bool) : Unmoved s (dropCache s p) := setKeys s _

theorem freeRecord (s : State) (slot : Nat) : Unmoved s (freeRecord s slot) := by
  unfold Machine.freeRecord
  split
  · exact refl s
  · exact (setKeys s _).trans ((dropCache _ _).trans (freePages _ _))

theorem freeLineage (s : State) (i : Nat) : Unmoved s (freeLineage s i) := by
  unfold Machine.freeLineage
  dsimp only
  split
  · exact refl s
  · exact setKeys s _

theorem odEffect (s : State) (idx sub : Nat) : Unmoved s (odEffect s idx sub) := by
  obtain ⟨_, _, _, _, _, h⟩ := odEffect_only s idx sub
  rw [h]
  constructor <;> rfl

theorem setOd (s : State) (o : Od) : Unmoved s { s with od := o } := by constructor <;> rfl

theorem uninstantiate (s : State) (p : Nat) (st : Status) : Unmoved s (uninstantiate s p st) := by
  have h := fold (fun t (e : Nat × Slot) => show Unmoved t (if e.2.res.isSome then t
    else if (opcode e.2.desc == 0xA01 || opcode e.2.desc == 0xA02) && (e.2.stage == .drawWait || e.2.random || e.2.draws != 0)
    then fail t e.1 st 0
    else if e.2.stage = .drawWait then t.modSlot e.1 (fun x => { x with stage := .bound, draws := 0 })
    else t) from by
      split
      · exact refl t
      · split
        · exact of_work (.fail t _ _ _)
        · split
          · exact of_work (.modSlot t _ _)
          · exact refl t) (s.adm.slots.filter (fun e => e.2.part == p)) s
  exact h.trans ⟨rfl, rfl, rfl, rfl, rfl, rfl, rfl, rfl, rfl, rfl, rfl, rfl⟩

/-- A committed change. -/
theorem applyChange (seq : Nat) (s : State) (c : Change) : Unmoved s (applyChange seq s c) := by
  cases c with
  | record slot r =>
    unfold Machine.applyChange
    dsimp only
    split <;> exact setKeys s _
  | recordFree slot => exact freeRecord s slot
  | large => exact setKeys s _
  | largeFree => exact setKeys s _
  | revoke slot =>
    unfold Machine.applyChange
    dsimp only
    split
    · exact refl s
    · split
      · exact setKeys s _
      · split
        · exact setKeys s _
        · exact (setKeys s _).trans (setKeys _ _)
  | lineageFree i => exact freeLineage s i
  | restrict => exact setKeys s _
  | counter => exact setKeys s _
  | atc => constructor <;> rfl
  | atcTable => constructor <;> rfl
  | grant => exact setQuorum s _
  | grantUse => exact setQuorum s _
  | od => exact (setOd s _).trans (odEffect _ _ _)
  | partCreate => constructor <;> rfl
  | partDestroy p =>
    exact ((((modPart s p _).trans (of_work (.closeSessions _ _))).trans (uninstantiate _ _ _)).trans (dropCache _ _)).trans (freePages _ _)
  | sealSet => constructor <;> rfl
  | creation p => exact (modPart s p _).trans (setQuorum _ _)
  | log => exact setCommit s _
  | checkFail => constructor <;> rfl
  | migration st =>
    unfold Machine.applyChange
    dsimp only
    split
    · constructor <;> rfl
    · exact Unmoved.trans (b := { s with meas := { s.meas with migration := st } }) (by constructor <;> rfl) ((logMain _ _ _ _ _ _ _).trans (raise _ _))
  | manifest => constructor <;> rfl
  | logClear => exact (logMain s _ _ _ _ _ _).trans (setLog _ _)

theorem commitOne (acc : State × List Item) (i : Item) : Unmoved acc.1 (commitOne acc i).1 :=
  ((setCommit acc.1 _).trans (fold (fun t c => applyChange _ t c) i.changes _)).trans (fold (fun t n => of_work (.modSlot t n _)) i.slots _)

theorem foldl_commitOne (l : List Item) (acc : State × List Item) : Unmoved acc.1 (l.foldl Machine.commitOne acc).1 := by
  induction l generalizing acc with
  | nil => exact refl acc.1
  | cons i l ih => exact (commitOne acc i).trans (ih _)

theorem closeItems (s : State) (room : Nat) : Unmoved s (closeItems s room).1 :=
  (setCommit s _).trans (foldl_commitOne _ ({ s with commit := { s.commit with queue := s.commit.queue.drop (s.closing room).length } }, []))

end Unmoved

/-- What the loss of the collar, a quarantine or a version check moves: the work, the pair, the Seam, the rings, the events and the log. -/
def CollarOnly (s t : State) : Prop := ∃ q a r u v c e i l m p, t = { s with
  commit := { s.commit with queue := q }, adm := a, rings := r, units := u, resv := v, atcResv := c, entropy := e, eic := i, log := l
  seam := m, pair := p }

namespace CollarOnly

theorem refl (s : State) : CollarOnly s s := ⟨s.commit.queue, _, _, _, _, _, _, _, _, _, _, rfl⟩

theorem trans {a b c : State} (h : CollarOnly a b) (h' : CollarOnly b c) : CollarOnly a c := by
  obtain ⟨_, _, _, _, _, _, _, _, _, _, _, rfl⟩ := h
  obtain ⟨_, _, _, _, _, _, _, _, _, _, _, rfl⟩ := h'
  exact ⟨_, _, _, _, _, _, _, _, _, _, _, rfl⟩

theorem fold {α : Type} {g : State → α → State} (hg : ∀ t a, CollarOnly t (g t a)) (l : List α) (s : State) : CollarOnly s (l.foldl g s) :=
  foldl_rel refl (fun _ _ _ => trans) g hg l s

theorem of_cut {s t : State} (h : CutOnly s t) : CollarOnly s t := by
  obtain ⟨q, _, _, _, _, _, rfl⟩ := h
  exact ⟨q, _, _, _, _, _, _, _, _, _, _, rfl⟩

theorem setEic (s : State) (e : Eic) : CollarOnly s { s with eic := e } := ⟨s.commit.queue, _, _, _, _, _, _, _, _, _, _, rfl⟩

theorem setLog (s : State) (l : Recorder) : CollarOnly s { s with log := l } := ⟨s.commit.queue, _, _, _, _, _, _, _, _, _, _, rfl⟩

theorem setSeam (s : State) (m : Seam) : CollarOnly s { s with seam := m } := ⟨s.commit.queue, _, _, _, _, _, _, _, _, _, _, rfl⟩

theorem setPair (s : State) (p : Pair) : CollarOnly s { s with pair := p } := ⟨s.commit.queue, _, _, _, _, _, _, _, _, _, _, rfl⟩

theorem raise (s : State) (n : Nat) : CollarOnly s (raise s n) := by
  obtain ⟨e, h⟩ := raise_only s n
  rw [h]
  exact setEic s e

theorem logMain (s : State) (a b c d e : Nat) (x : Bytes) : CollarOnly s (logMain s a b c d e x) := by
  obtain ⟨l, h⟩ := logMain_only s a b c d e x
  rw [h]
  exact setLog s l

theorem noteService {a b c : State} (h : CollarOnly a c) : CollarOnly a (noteService b c) := by
  obtain ⟨e, hn⟩ := noteService_only b c
  rw [hn]
  exact h.trans (setEic c e)

theorem noteReplay (s : State) (rid : Nat) : CollarOnly s (noteReplay s rid) := by
  unfold Machine.noteReplay
  split
  · exact ⟨s.commit.queue, _, _, _, _, _, _, _, _, _, _, rfl⟩
  · exact refl s

theorem loseCollar (s : State) (role : Nat) : CollarOnly s (loseCollar s role) := by
  unfold Machine.loseCollar
  dsimp only
  split
  · have hcut := fold (fun (t : State) (rid : Nat) => (of_cut (CutOnly.cutRing (s := t) (k := .collar) rfl rid)).trans (noteReplay _ rid))
      (tkeys s.rings) { s with pair := { s.pair with collarTx := false, role := role, switching := none } }
    exact (((setPair s _).trans hcut).trans (of_cut (.of_held (.closeSessions _ _)))).trans (raise _ _)
  · exact setPair s _

theorem dropCollar (s : State) : CollarOnly s (dropCollar s) := by
  unfold Machine.dropCollar
  split
  · exact (loseCollar s _).trans (setPair _ _)
  · exact setPair s _

theorem quarantineAs (s : State) (q : Nat) : CollarOnly s (quarantineAs s q) := by
  unfold Machine.quarantineAs
  split
  · exact refl s
  · exact noteService ((((setSeam s _).trans (logMain _ _ _ _ _ _ _)).trans (raise _ _)).trans (dropCollar _))

theorem checkVersion (s : State) : CollarOnly s (checkVersion s) := by
  unfold Machine.checkVersion
  split
  · exact quarantineAs s 3
  · split
    · exact quarantineAs s 0
    · exact refl s

end CollarOnly

/-! ### The idle step -/

/-- The clock stands. -/
def ClockKept (s t : State) : Prop := t.opUs = s.opUs

namespace ClockKept

theorem refl (s : State) : ClockKept s s := Eq.refl _

theorem trans {a b c : State} (h : ClockKept a b) (h' : ClockKept b c) : ClockKept a c := Eq.trans h' h

theorem of_collar {s t : State} (h : CollarOnly s t) : ClockKept s t := by
  obtain ⟨_, _, _, _, _, _, _, _, _, _, _, rfl⟩ := h
  exact refl s

theorem of_send {s t : State} (h : SendOnly s t) : ClockKept s t := by
  obtain ⟨_, _, rfl⟩ := h
  exact refl s

theorem sendReply (s : State) (rq : Req) (idx sub op st : Nat) (data : Bytes) : ClockKept s (sendReply s rq idx sub op st data) := by
  obtain ⟨o, e, h⟩ := sendReply_only s rq idx sub op st data
  rw [h]
  exact refl s

theorem adopt (s : State) (idx sub : Nat) (v : Bytes) : ClockKept s (adopt s idx sub v) :=
  (Unmoved.odEffect (s.withBase (fun b => { b with
    store := tset b.store (odKey idx sub) v
    change := tset b.change (odKey idx sub) (tgetD b.change (odKey idx sub) 0 + 1) })) idx sub).opUs

theorem stepEpoch (s : State) (entry : Option (Nat × Nat × Bytes)) : ClockKept s (stepEpoch s entry) := by
  have hentry : ClockKept s (match entry with
      | none => s
      | some (i, k, v) => Machine.adopt s i k v) := by
    split
    · exact refl s
    · exact adopt s _ _ _
  exact (((hentry.trans (adopt _ _ _ _)).trans (of_collar (.raise _ _))).trans (of_collar (.checkVersion _))).trans (of_send (.broadcast _ _ _ _))

theorem offerManifest (s : State) (m : Bytes) : ClockKept s (offerManifest s m) := by
  unfold Machine.offerManifest
  split
  · split
    · exact stepEpoch s _
    · exact of_send (.sendTo s _ _ _)
  · exact refl s

theorem acceptJob (s : State) (j : KdJob) (l : List Change) : ClockKept s (acceptJob s j l) := by
  unfold Machine.acceptJob; split <;> exact refl s

theorem refuseJob (s : State) (j : KdJob) : ClockKept s (refuseJob s j) := by
  unfold Machine.refuseJob
  split
  · exact refl s
  · exact sendReply s _ _ _ _ _ _

theorem drawSecret (s : State) (p n : Nat) : ClockKept s (drawSecret s p n).2 := by
  unfold Machine.drawSecret
  dsimp only
  split <;> exact refl s

theorem runTask (s : State) (j : KdJob) : ClockKept s (runTask s j) := by
  unfold Machine.runTask
  split
  · split
    · exact refuseJob s j
    · exact ((drawSecret s _ _).trans (drawSecret _ _ _)).trans (acceptJob _ j _)
  · dsimp only
    split
    · exact refuseJob s j
    · exact acceptJob s j _
  · exact (acceptJob s j _).trans (offerManifest _ _)
  · exact acceptJob s j _
  · unfold ownSeal; split <;> exact refl s
  · exact refl s

theorem serveKd (s : State) : ClockKept s (serveKd s) := by
  unfold Machine.serveKd
  split
  · split
    · exact refl s
    · exact ClockKept.trans (b := { s with keys := { s.keys with kdJobs := _ } }) (refl s) (runTask _ _)
  · exact refl s

theorem closeCycle (s : State) (h : Bool) : ClockKept s (closeCycle s h) := by
  have hitems := (Unmoved.closeItems s (625000 - 80)).opUs
  unfold Machine.closeCycle
  dsimp only
  split <;> exact hitems

theorem continueSwitchover (s : State) : ClockKept s (continueSwitchover s) := by
  unfold Machine.continueSwitchover
  split
  · exact refl s
  · split <;> exact closeCycle s _

theorem slotDone (s : State) (k : Nat) : ClockKept s (slotDone s k) := by
  have hlog : ClockKept s (logCocoon s 6 0x0900 0x0901 0xFF (0x11 * (otpPats.idxOf (s.otp (8 + 2 * k)) + 1)) (leBytes 1 k)) := logCocoon_opUs ..
  unfold Machine.slotDone
  dsimp only
  split
  · exact hlog
  · unfold acceptUse
    split
    · exact ClockKept.trans (b := State.modLife (logCocoon s _ _ _ _ _ _) _) hlog (sendReply _ _ _ _ _ _ _)
    · exact hlog

theorem progItem (s : State) (i : Nat × Nat) : ClockKept s (progItem s i) := by
  unfold Machine.progItem
  split
  · exact refl s
  · split
    · exact slotDone s _
    · exact refl s

theorem progMarks (w : List (Nat × Nat)) (s : State) : ClockKept s (progMarks s w) := by
  induction w generalizing s with
  | nil => exact refl s
  | cons i r ih =>
    unfold Machine.progMarks
    split
    · exact (progItem s i).trans (ih _)
    · exact refl s

theorem progTick (s : State) : ClockKept s (progTick s) := by
  unfold Machine.progTick
  split
  · exact refl s
  · next i r _ =>
    split
    · exact refl s
    · split
      · exact refl s
      · exact ClockKept.trans (b := (Machine.progItem s i).modLife (fun l => { l with progUs := 0 })) (progItem s i) (progMarks r _)

theorem programTransition (s : State) (t : Transition) : ClockKept s (programTransition s t) := by
  unfold Machine.programTransition
  split
  · exact ClockKept.trans (b := s.modLife (fun l => { l with trans := none })) (refl s) (sendReply _ _ _ _ _ _ _)
  · exact ClockKept.trans (b := s.modLife (fun l => { l with progUs := 0 })) (refl s) (progMarks _ _)

theorem continueTransition (s : State) : ClockKept s (continueTransition s) := by
  unfold Machine.continueTransition
  split
  · exact progTick s
  · split
    · exact progTick s
    · split
      · exact refl s
      · exact programTransition s _

theorem continueStandby (s : State) : ClockKept s (continueStandby s) := by
  unfold Machine.continueStandby
  split
  · exact refl s
  · split
    · exact refl s
    · have hlog : ClockKept s (if s.logOpen then flushLog s false else s) := by
        split
        · obtain ⟨l, h⟩ := flushLog_only s false
          rw [h]
          exact refl s
        · exact refl s
      exact hlog.trans (sendReply _ _ _ _ _ _ _)

end ClockKept

theorem tick_opUs (s : State) : (tick s).opUs = s.opUs + 1 := by
  obtain ⟨p, e, h⟩ := roused_only s
  rw [tick, h]

theorem idleStep_opUs (s : State) : (idleStep s).opUs = s.opUs + 1 :=
  Eq.trans ((((ClockKept.continueStandby (tick s)).trans (.continueTransition _)).trans (.continueSwitchover _)).trans (.serveKd _)) (tick_opUs s)

/-- With nothing to go on with, an idle step is the clock's tick. -/
theorem idleStep_tick {s : State} (hs : s.power.standbyReq = none) (ht : s.life.trans = none) (hp : s.life.prog = [])
    (hw : s.pair.switching = none) (hk : s.keys.kd = none ∨ s.keys.kdJobs = []) : idleStep s = tick s := by
  obtain ⟨p, e, h⟩ := roused_only s
  have hp' : p.standbyReq = s.power.standbyReq := by
    rw [← show s.roused.power = p by rw [h]]
    unfold State.roused
    split
    · rfl
    · split <;> rfl
  have h1 : continueStandby (tick s) = tick s := by
    unfold continueStandby
    rw [show (tick s).power.standbyReq = none by rw [tick, h]; exact hp'.trans hs]
  have h2 : continueTransition (tick s) = tick s := by
    unfold continueTransition progTick
    rw [show (tick s).life = s.life by rw [tick, h], ht, hp]
  have h3 : continueSwitchover (tick s) = tick s := by
    unfold continueSwitchover
    rw [show (tick s).pair = s.pair by rw [tick, h], hw]
    rfl
  have h4 : serveKd (tick s) = tick s := by
    unfold serveKd
    rw [show (tick s).keys = s.keys by rw [tick, h]]
    rcases hk with hk | hk
    · simp [hk]
    · simp [hk]
  rw [idleStep, h1, h2, h3, h4]

theorem Drbg.le_tick (d : Drbg) (rate : Nat) (h : d.tokens ≤ 65536000) : d.tokens ≤ (d.tick rate).tokens := by
  unfold Drbg.tick
  split
  · exact Nat.le_min.2 ⟨h, Nat.le_add_right ..⟩
  · exact Nat.le_refl _

/-- No token is lost to the tick (R297). -/
theorem tick_tokens (s : State) (p : Nat) (h : (s.part p).drbg.tokens ≤ 65536000) : (s.part p).drbg.tokens ≤ ((tick s).part p).drbg.tokens := by
  obtain ⟨pw, e, hr⟩ := roused_only s
  have hparts : (tick s).parts = tmap s.parts (fun p x => { x with drbg := x.drbg.tick (s.roused.quota p 0x0B) }) := by rw [tick, hr]
  unfold State.part at h ⊢
  rw [hparts]
  unfold tgetD at h ⊢
  rw [tget_tmap]
  cases hx : tget s.parts p with
  | none => exact Nat.le_refl _
  | some x =>
    rw [hx] at h
    exact Drbg.le_tick _ _ h

/-- A function without outstanding work has not stalled (R88). -/
theorem tick_stall (s : State) (n : Nat) (h : s.outstanding n = false) : ((tick s).fn n).stallUs = 0 := by
  obtain ⟨pw, e, hr⟩ := roused_only s
  have hfns : (tick s).fns = tmap s.fns s.roused.watch := by rw [tick, hr]
  have hout : s.roused.outstanding n = false := by rw [hr]; exact h
  unfold State.fn tgetD
  rw [hfns, tget_tmap]
  cases hx : tget s.fns n with
  | none => rfl
  | some f =>
    simp [State.watch, hout]

end Sys2Proof.Machine

/-- Settles O56: an idle step counts the microsecond whatever it goes on with, and without such work it is the clock's tick alone. -/
theorem idleStepPassesTime : Obligations.IdleStepPassesTime := by
  unfold Obligations.IdleStepPassesTime
  intro s hpend
  refine ⟨_, step_idle hpend, idleStep_opUs s, (idleStep_onward s).queue.trans hpend, fun hs ht hp hw hk => ?_⟩
  rw [idleStep_tick hs ht hp hw hk]
  obtain ⟨pw, e, hr⟩ := roused_only s
  refine ⟨?_, ?_, ?_, ?_, ?_, ?_, ?_, ?_, ?_, ?_, fun p h => tick_tokens s p h, fun n h => tick_stall s n h⟩
  all_goals rw [tick, hr]
  exact Nat.le_add_right ..
end

section
open Sys2Proof.Machine

/-! SUPPORT. Raw sessions: how their commands are settled, and what an abort leaves of a session's work (R332 to R350). -/

namespace Sys2Proof.Machine

/-! ### Settling a raw command -/

/-- An outcome of status OK leaves every unit, in a chain too (R117). -/
theorem settle_ok_units {s0 s : State} {n : Nat} {x y : Slot} {o : Out} (hy : s.slot n = some y) (hok : o.status = .ok)
    (hroom : Fits o x s0) : (settle s0 s n x o).units = s.units := by
  unfold settle
  rcases hc : x.chain with _ | first
  · obtain ⟨a, ha⟩ := settleAlone_only hy (hroom.alone (Or.inl hc))
    dsimp only
    rw [ha]
  · obtain ⟨a, ha⟩ := setResult_only s n o
    simp only [settleChained]
    rw [if_neg (not_not.2 hok)]
    split
    · rw [ha]
    · next hend =>
      rw [if_neg (by simp [hroom.whole (by rw [hc]; rfl) hok (by simpa using hend)])]
      obtain ⟨b, hb⟩ := conclude_only (setResult s n o) ((setResult s n o).slotsNow (tkeys (chainSlots (setResult s n o) x.rid first)))
      rw [hb, ha]

/-- An outcome of status OK leaves in every other slot at most another stage. -/
theorem settle_ok_slot {s0 s : State} {n m : Nat} {x y z : Slot} {o : Out} (hy : s.slot n = some y) (hok : o.status = .ok)
    (hroom : Fits o x s0) (hm : m ≠ n) (hz : s.slot m = some z) : ∃ st, (settle s0 s n x o).slot m = some (z.setStage st) := by
  have hr : (setResult s n o).slot m = some z := by rw [setResult_slot, if_neg hm, hz]
  unfold settle
  rcases hc : x.chain with _ | first
  · exact ⟨z.stage, by dsimp only; rw [settleAlone_slot hy (hroom.alone (Or.inl hc)), if_neg hm, hz]; rfl⟩
  · simp only [settleChained]
    rw [if_neg (not_not.2 hok)]
    split
    · exact ⟨z.stage, hr⟩
    · next hend =>
      rw [if_neg (by simp [hroom.whole (by rw [hc]; rfl) hok (by simpa using hend)]), conclude_slot]
      split
      · exact ⟨_, by rw [hr]; rfl⟩
      · exact ⟨z.stage, hr⟩

/-- A failure outcome without changes always fits. -/
theorem Fits.of_fail (st : Status) (x : Slot) (s : State) (h : st ≠ .ok) : Fits (.fail st) x s :=
  ⟨fun _ => Or.inl rfl, fun _ hok _ => absurd hok h⟩

/-- What settling a raw command comes to, whatever it did to its engine. -/
theorem settle_raw {s s' : State} {n : Nat} {x : Slot} {o : Out} (hs : tsorted s.adm.slots = true) (hx : s.slot n = some x)
    (hadm : s'.adm = s.adm) (hroom : Fits o x s) : Settles o n x s (settle s s' n x o) ∧ (settle s s' n x o).keys = s'.keys ∧
      (settle s s' n x o).bus = s'.bus ∧ (o.status = .ok ∨ x.chain = none → (settle s s' n x o).units = s'.units) := by
  have hslot : ∀ m, s'.slot m = s.slot m := fun m => by rw [State.slot, State.slot, hadm]
  have hs' : tsorted s'.adm.slots = true := by rw [hadm]; exact hs
  have hx' : s'.slot n = some x := (hslot n).trans hx
  refine ⟨(settle_settles hs' hx' rfl rfl hroom).of_slots fun m _ => hslot m, ?_⟩
  obtain ⟨a, u, c, h, hu⟩ := settle_only hs' hx' hroom
  have hok : o.status = .ok → (settle s s' n x o).units = s'.units := fun h => settle_ok_units hx' h hroom
  rw [h] at hok ⊢
  exact ⟨rfl, rfl, fun hor => hor.elim hok fun hc => (hu hc).1⟩

theorem State.engine_of_units {s t : State} (h : t.units = s.units) (e : Nat) : t.engine e = s.engine e := by rw [State.engine, h]; rfl

/-- A raw command on the engine its session is open on. -/
theorem runRaw_next {s : State} {op n e : Nat} {x : Slot} (f : State → Slot → Engine → Out × Engine) (hd : s.due n op = some x)
    (hu : s.rawUnit x = some e) :
    runRaw op n f s = .next (settle s (s.modEngine e (fun _ => (f s x (s.engine e)).2)) n x (f s x (s.engine e)).1) := by
  simp only [runRaw, hd, hu]

/-- What a raw command that runs leaves: its engine as the command says, its descriptor with its outcome. -/
theorem runRaw_runs {s : State} {op n e : Nat} {x : Slot} {o : Out} {g : Engine} (f : State → Slot → Engine → Out × Engine)
    (hs : tsorted s.adm.slots = true) (hd : s.due n op = some x) (hu : s.rawUnit x = some e) (hf : f s x (s.engine e) = (o, g))
    (hroom : Fits o x s) : ∃ t, runRaw op n f s = .next t ∧ (o.status = .ok ∨ x.chain = none → t.engine e = g) ∧ Settles o n x s t ∧
      t.keys = s.keys ∧ t.bus = s.bus := by
  rw [runRaw_next f hd hu, hf]
  obtain ⟨hset, hk, hb, hun⟩ := settle_raw (s' := s.modEngine e (fun _ => g)) hs (State.slot_of_due hd) rfl hroom
  exact ⟨_, rfl, fun h => by rw [State.engine_of_units (hun h), State.modEngine_engine, if_pos rfl], hset, hk, hb⟩

/-! ### Modular commands -/

section
variable {s : State} {op n e checks : Nat} {x : Slot} {hasB hasE : Bool} {f : RawIn → Option Nat} {i : RawIn}
  (hs : tsorted s.adm.slots = true) (hd : s.due n op = some x) (hu : s.rawUnit x = some e)
  (hk : rawKeyFault s x (s.engine e) false = none) (hi : i = rawIn x.desc (s.engine e) hasB hasE)
  (hsec : i.secret = (dKey x.desc 1 != 0)) (hok : i.rangeOk = true)
include hs hd hu hk hi hsec hok

/-- A modular command that has a value puts it into the result words (R342, R347). -/
theorem rawArith_value {v : Nat} (hroom : HasRoom {} x s) (hv : (if i.badModulus then some 0 else f i) = some v) :
    ∃ t, rawArith op n checks hasB hasE f s = .next t ∧
      t.engine e = (s.engine e).put (rawR x.desc) (rawWords x.desc) v i.secret ∧ Settles {} n x s t ∧ t.keys = s.keys := by
  subst hi
  obtain ⟨hset, hkeys, -, hun⟩ := settle_raw (o := {}) (s' := s.modEngine e (fun g => g.put (rawR x.desc) (rawWords x.desc) v
    (rawIn x.desc (s.engine e) hasB hasE).secret)) hs (State.slot_of_due hd) rfl hroom.fits
  simp only [rawArith, hd, hu, hk]
  rw [if_neg (by simp [hsec]), if_neg (by simp [hok]), hv]
  exact ⟨_, rfl, by rw [State.engine_of_units (hun (Or.inl rfl)), State.modEngine_engine, if_pos rfl], hset, hkeys⟩

/-- A tagged modular command without a value leaves zero, tagged (R346). -/
theorem rawArith_zero (hroom : HasRoom {} x s) (hv : (if i.badModulus then some 0 else f i) = none) (ht : i.secret = true) :
    ∃ t, rawArith op n checks hasB hasE f s = .next t ∧
      t.engine e = (s.engine e).put (rawR x.desc) (rawWords x.desc) 0 true ∧ Settles {} n x s t ∧ t.keys = s.keys := by
  subst hi
  obtain ⟨hset, hkeys, -, hun⟩ := settle_raw (o := {}) (s' := s.modEngine e (fun g => g.put (rawR x.desc) (rawWords x.desc) 0 true))
    hs (State.slot_of_due hd) rfl hroom.fits
  simp only [rawArith, hd, hu, hk]
  rw [if_neg (by simp [hsec]), if_neg (by simp [hok]), hv]
  dsimp only
  rw [if_pos ht]
  exact ⟨_, rfl, by rw [State.engine_of_units (hun (Or.inl rfl)), State.modEngine_engine, if_pos rfl], hset, hkeys⟩

/-- An untagged modular command without a value fails (R346). -/
theorem rawArith_fails (hv : (if i.badModulus then some 0 else f i) = none) (ht : i.secret = false) :
    ∃ t, rawArith op n checks hasB hasE f s = .next t ∧ Settles (.fail .inputRange) n x s t ∧ t.keys = s.keys := by
  subst hi
  obtain ⟨hset, hkeys, -, -⟩ := settle_raw (s' := s) hs (State.slot_of_due hd) rfl (.of_fail .inputRange x s (by decide))
  simp only [rawArith, hd, hu, hk]
  rw [if_neg (by simp [hsec]), if_neg (by simp [hok]), hv]
  dsimp only
  rw [if_neg (by simp [ht])]
  exact ⟨_, rfl, hset, hkeys⟩

end

/-- An untagged modulus in range is a good one (R345). -/
theorem RawIn.not_badModulus {i : RawIn} (hok : i.rangeOk = true) (ht : i.secret = false) : i.badModulus = false := by
  have htn : i.tn = false := by
    simp only [RawIn.secret, Bool.or_eq_false_iff] at ht
    exact ht.1.2
  simp only [RawIn.rangeOk, htn, Bool.false_or, Bool.and_eq_true, decide_eq_true_eq] at hok
  simp only [RawIn.badModulus, decide_eq_false_iff_not]
  omega

/-! ### The outcomes of the data commands -/

theorem rawLoadKeyOut_loads {s : State} {x : Slot} {g : Engine} (hk : dKey x.desc 1 ≠ 0) (hp : s.policyEntry x.part 0x15 = 1)
    (hg : g.sessKey = 0 ∨ g.sessKey = dKey x.desc 1) (hw : rawWords x.desc = (rawComponent (x.keyD 1) (rawComp x.desc)).1) :
    rawLoadKeyOut s x g = ({}, ({ g with sessKey := dKey x.desc 1 } : Engine).put (rawR x.desc) (rawWords x.desc)
      (rawComponent (x.keyD 1) (rawComp x.desc)).2.1 (rawComponent (x.keyD 1) (rawComp x.desc)).2.2) := by
  have hf : rawKeyFault s x g true = none := by
    unfold rawKeyFault
    dsimp only
    rw [if_neg (by simp [hp]), if_neg]
    rintro ⟨-, h0, h1⟩
    exact hg.elim h0 h1
  simp only [rawLoadKeyOut]
  rw [if_neg hk, hf]
  dsimp only
  rw [if_neg (not_not.2 hw), ← hw]

theorem rawReadOut_tagged {s : State} {x : Slot} {g : Engine} (h : g.tagged (rawA x.desc) (rawWords x.desc) = true) :
    rawReadOut s x g = (.fail .inputRange, g) := by simp only [rawReadOut, h, if_true]

theorem rawReadOut_untagged {s : State} {x : Slot} {g : Engine} (h : g.tagged (rawA x.desc) (rawWords x.desc) = false) :
    rawReadOut s x g = (if dDst x.desc = 0
      then .inl (if rawBig x.desc = true then beBytes (8 * rawWords x.desc) (g.value (rawA x.desc) (rawWords x.desc))
        else leBytes (8 * rawWords x.desc) (g.value (rawA x.desc) (rawWords x.desc)))
      else .toDst (if rawBig x.desc = true then beBytes (8 * rawWords x.desc) (g.value (rawA x.desc) (rawWords x.desc))
        else leBytes (8 * rawWords x.desc) (g.value (rawA x.desc) (rawWords x.desc))), g) := by
  simp only [rawReadOut, h, Bool.false_eq_true, if_false]

theorem rawPrivateOut_computes {s : State} {x : Slot} {g : Engine} (hk : dKey x.desc 1 ≠ 0) (hp : s.policyEntry x.part 0x15 = 1)
    (hg : rawKeyFault s x g false = none) (hw : rawWords x.desc = rsaBits (x.keyD 1).alg / 64)
    (ht : g.tagged (rawA x.desc) (rawWords x.desc) = false) :
    rawPrivateOut s x g = ({}, ({ g with sessKey := dKey x.desc 1 } : Engine).put (rawR x.desc) (rawWords x.desc)
      (rsaDec (x.keyD 1).alg (x.keyD 1).material (g.value (rawA x.desc) (rawWords x.desc))) false) := by
  have hf : rawKeyFault s x g true = none := by
    unfold rawKeyFault at hg ⊢
    dsimp only at hg ⊢
    rw [if_neg (by simp)] at hg
    rw [if_neg (by simp [hp]), hg]
  simp only [rawPrivateOut]
  rw [if_neg hk, hf]
  dsimp only
  rw [if_neg]
  rintro (h | h)
  · exact h hw
  · rw [ht] at h
    cases h

theorem HasRoom.of_ok {o : Out} {x : Slot} {s : State} (h : HasRoom {} x s) (hc : o.changes = []) : HasRoom o x s :=
  h.imp (fun h => ⟨hc, h.2.imp id (Or.imp id fun hn => absurd rfl hn)⟩) id

end Sys2Proof.Machine

/-- Settles O17: the data commands by their outcome, the modular ones by whether there is a value. -/
theorem rawCommands : Obligations.RawCommands := by
  unfold Obligations.RawCommands
  refine ⟨fun n e x s hs hu hr => ⟨fun hd => ?_, fun hd hk hp hg hw => ?_, fun hd ht => ?_, fun b hd ht hb => ?_⟩,
    fun n e x s hs hu hr hk => ⟨fun i hi hsec hok => ⟨fun hd => ?_, fun hd => ?_, fun hd => ?_⟩,
      fun i hi hsec hok hd => ⟨fun v hb hv => ?_, fun hv ht => ?_, fun hv ht => ?_⟩, fun i hi hsec hok hd hp => ?_,
      fun hd hp hk1 hpol hw ht => ?_⟩⟩
  · obtain ⟨t, he, hg, h⟩ := runRaw_runs rawLoadOut hs hd hu rfl hr.fits
    exact ⟨t, he, hg (Or.inl rfl), h⟩
  · obtain ⟨t, he, hg', h⟩ := runRaw_runs rawLoadKeyOut hs hd hu (rawLoadKeyOut_loads hk hp hg hw) hr.fits
    exact ⟨t, he, by rw [hg' (Or.inl rfl)]; rfl, by rw [hg' (Or.inl rfl)]; rfl, h⟩
  · obtain ⟨t, he, hg', h⟩ := runRaw_runs rawReadOut hs hd hu (rawReadOut_tagged ht) (.of_fail .inputRange x s (by decide))
    exact ⟨t, he, fun hc => hg' (Or.inr hc), h⟩
  · subst hb
    have hout := rawReadOut_untagged (s := s) ht
    split at hout <;> split
    · obtain ⟨t, he, hg', h⟩ := runRaw_runs rawReadOut hs hd hu hout (hr.of_ok rfl).fits
      exact ⟨t, he, hg' (Or.inl rfl), h⟩
    · contradiction
    · contradiction
    · obtain ⟨t, he, hg', h⟩ := runRaw_runs rawReadOut hs hd hu hout (hr.of_ok rfl).fits
      exact ⟨t, he, hg' (Or.inl rfl), h⟩
  · rw [dispatch_rawModadd, execRawModadd]
    exact rawArith_value hs hd hu hk hi hsec hok hr (by split <;> rfl)
  · rw [dispatch_rawModsub, execRawModsub]
    exact rawArith_value hs hd hu hk hi hsec hok hr (by split <;> rfl)
  · rw [dispatch_rawModmul, execRawModmul]
    exact rawArith_value hs hd hu hk hi hsec hok hr (by split <;> rfl)
  · rw [dispatch_rawModinv, execRawModinv]
    exact rawArith_value hs hd hu hk hi hsec hok hr (by rw [hb]; exact hv)
  · rw [dispatch_rawModinv, execRawModinv]
    by_cases hb : i.badModulus = true
    · obtain ⟨t, he, h⟩ := rawArith_value (op := 0x909) (checks := 1) (f := fun i => invMod i.a i.n) (v := 0) hs hd hu hk hi hsec hok hr
        (by rw [if_pos hb])
      rw [ht] at h
      exact ⟨t, he, h⟩
    · exact rawArith_zero hs hd hu hk hi hsec hok hr (by rw [if_neg hb]; exact hv.resolve_left hb) ht
  · rw [dispatch_rawModinv, execRawModinv]
    exact rawArith_fails hs hd hu hk hi hsec hok (by rw [RawIn.not_badModulus hok ht]; exact hv) ht
  · rw [dispatch_rawModexp, execRawModexp, hd]
    dsimp only
    rw [if_neg (by simp [hp])]
    exact rawArith_value hs hd hu hk hi hsec hok hr (by split <;> rfl)
  · obtain ⟨t, he, hg', h, hkeys, -⟩ := runRaw_runs rawPrivateOut hs hd hu (rawPrivateOut_computes hk1 hpol hk hw ht) hr.fits
    rw [dispatch_rawModexp, execRawModexp, hd]
    dsimp only
    rw [if_pos hp]
    exact ⟨t, he, by rw [hg' (Or.inl rfl)]; rfl, by rw [hg' (Or.inl rfl)]; rfl, h, hkeys⟩
end

section
open Sys2Proof.Machine

/-! SUPPORT. The life of a raw session, and what an abort leaves of its commands (R334 to R336, R349). -/

namespace Sys2Proof.Machine

/-- An engine whose session has been closed (R336). -/
def Engine.Shut (g : Engine) : Prop := g.st = .idle ∧ g.bank = [] ∧ g.window = none ∧ g.sess = 0

theorem closeEngine_engine (s : State) (e k : Nat) (h : (s.engine k).st = .session ∨ (s.engine k).Shut) :
    ((closeEngine s e).engine k).st = .session ∨ ((closeEngine s e).engine k).Shut := by
  unfold closeEngine
  rw [State.modEngine_engine]
  split
  · next hk =>
    subst hk
    split
    · exact Or.inr ⟨rfl, rfl, rfl, rfl⟩
    · exact h
  · exact h

theorem closeEngine_shut (s : State) (e : Nat) (h : (s.engine e).st = .session ∨ (s.engine e).Shut) : ((closeEngine s e).engine e).Shut := by
  unfold closeEngine
  rw [State.modEngine_engine, if_pos rfl]
  split
  · exact ⟨rfl, rfl, rfl, rfl⟩
  · next hn => exact h.resolve_left hn

theorem closeEngine_beside (s : State) {e k : Nat} (h : k ≠ e) : (closeEngine s e).engine k = s.engine k := by
  unfold closeEngine
  rw [State.modEngine_engine, if_neg h]

/-! ### What aborting leaves -/

/-- Between two states commands of a session were aborted: descriptors keep their ring and chain and an abort they carry, and an open
session may have been closed (R349). -/
structure Aborts (t u : State) : Prop where
  only : ChainOnly t u
  sorted : tsorted t.adm.slots = true → tsorted u.adm.slots = true
  slot : ∀ m z, t.slot m = some z → ∃ z', u.slot m = some z' ∧ z'.rid = z.rid ∧ z'.chain = z.chain ∧
    (z.cut = some .aborted → z'.cut = some .aborted)
  engine : ∀ e, (t.engine e).st = .session ∨ (t.engine e).Shut → (u.engine e).st = .session ∨ (u.engine e).Shut

namespace Aborts

theorem refl (s : State) : Aborts s s := ⟨.refl s, id, fun _ z hz => ⟨z, hz, rfl, rfl, id⟩, fun _ => id⟩

theorem trans {a b c : State} (h : Aborts a b) (h' : Aborts b c) : Aborts a c where
  only := h.only.trans h'.only
  sorted := h'.sorted ∘ h.sorted
  slot := fun m z hz => by
    obtain ⟨y, hy, hr, hc, ha⟩ := h.slot m z hz
    obtain ⟨w, hw, hr', hc', ha'⟩ := h'.slot m y hy
    exact ⟨w, hw, hr'.trans hr, hc'.trans hc, ha' ∘ ha⟩
  engine := fun e => h'.engine e ∘ h.engine e

theorem fold {α : Type} {g : State → α → State} (hg : ∀ t a, Aborts t (g t a)) (l : List α) (s : State) : Aborts s (l.foldl g s) :=
  foldl_rel refl (fun _ _ _ => trans) g hg l s

theorem modSlot (s : State) (n : Nat) (f : Slot → Slot)
    (hf : ∀ z, (f z).rid = z.rid ∧ (f z).chain = z.chain ∧ (z.cut = some .aborted → (f z).cut = some .aborted)) : Aborts s (s.modSlot n f) where
  only := .modSlot s n f
  sorted := tsorted_modSlot n f
  slot := fun m z hz => by
    rw [State.modSlot_slot]
    split
    · next h =>
      rw [← h, hz]
      exact ⟨f z, rfl, hf z⟩
    · exact ⟨z, hz, rfl, rfl, id⟩
  engine := fun e h => by rwa [State.engine, State.modSlot_units]

theorem finish (s : State) (n : Nat) (st : Status) (d : Nat) : Aborts s (finish s n st d) := modSlot s n _ (fun _ => ⟨rfl, rfl, id⟩)

theorem endEntry (s : State) (n : Nat) (x : Slot) (st : Status) : Aborts s (endEntry s n x st) := by
  unfold Machine.endEntry
  split
  · exact modSlot s n _ (fun _ => ⟨rfl, rfl, id⟩)
  · exact finish s n st 0

theorem closeEngine (s : State) (e : Nat) : Aborts s (closeEngine s e) :=
  ⟨⟨_, _, rfl⟩, id, fun _ z hz => ⟨z, hz, rfl, rfl, id⟩, closeEngine_engine s e⟩

theorem failChain (s : State) (n : Nat) : Aborts s (failChain s n) := by
  unfold Machine.failChain
  split
  · exact refl s
  · split
    · exact refl s
    · refine fold (fun t e => ?_) _ s
      have hu : Aborts t (if opcode e.2.desc == 0x901 && t.holdsSession e.2 then Machine.closeEngine t (e.2.sess % 256) else t) := by
        split
        · exact closeEngine t _
        · exact refl t
      dsimp only
      split
      · exact hu
      · exact hu.trans (endEntry _ _ _ _)

theorem abortOne (s : State) (n : Nat) (x : Slot) : Aborts s (abortOne s n x) := by
  unfold Machine.abortOne
  split
  · exact (failChain s n).trans (modSlot _ n _ (fun _ => ⟨rfl, rfl, fun _ => rfl⟩))
  · split
    · exact (failChain s n).trans (finish _ n _ _)
    · exact refl s

end Aborts

/-- A command on its unit is marked for its end (R349). -/
theorem abortOne_marks {s : State} {n : Nat} {x z : Slot} (hu : x.unit.isSome = true) (hz : s.slot n = some z) :
    ∃ y, (abortOne s n x).slot n = some y ∧ y.cut = some .aborted := by
  obtain ⟨u, hu⟩ := Option.isSome_iff_exists.1 hu
  obtain ⟨y, hy, -⟩ := (Aborts.failChain s n).slot n z hz
  unfold abortOne
  simp only [hu]
  exact ⟨_, by rw [State.modSlot_slot, if_pos rfl, hy]; rfl, rfl⟩

/-- A failing chain leaves the descriptors that stand in none. -/
theorem failChain_unchained {s : State} {n m : Nat} {z : Slot} (hs : tsorted s.adm.slots = true) (hz : s.slot m = some z)
    (hc : z.chain = none) : (failChain s n).slot m = some z := by
  cases hx : s.slot n with
  | none =>
    unfold failChain
    simp only [hx, hz]
  | some x =>
    cases hxc : x.chain with
    | none => rw [failChain_slot hs hx (Or.inr (Or.inl hxc)), hz]
    | some first =>
      rw [failChain_slot hs hx (Or.inr (Or.inr fun w hw => Or.inr ?_)), hz]
      rw [hz] at hw
      cases hw
      rw [hc, hxc]
      nofun

/-- Aborting another command leaves the descriptors that stand in no chain. -/
theorem abortOne_beside {s : State} {n m : Nat} {x z : Slot} (hs : tsorted s.adm.slots = true) (hz : s.slot m = some z) (hc : z.chain = none)
    (hm : m ≠ n) : (abortOne s n x).slot m = some z := by
  have hf := failChain_unchained (n := n) hs hz hc
  unfold abortOne
  split
  · rw [State.modSlot_slot, if_neg hm, hf]
  · split
    · unfold fail finish
      rw [State.modSlot_slot, if_neg hm, hf]
    · exact hz

theorem foldl_abortOne_beside {m : Nat} {z : Slot} (hc : z.chain = none) (l : Tab Slot) (hl : ∀ p ∈ l, m ≠ p.1) {s : State}
    (hs : tsorted s.adm.slots = true) (hz : s.slot m = some z) : (l.foldl (fun t p => abortOne t p.1 p.2) s).slot m = some z := by
  induction l generalizing s with
  | nil => exact hz
  | cons p l ih =>
    exact ih (fun q hq => hl q (List.mem_cons_of_mem _ hq)) ((Aborts.abortOne s p.1 p.2).sorted hs)
      (abortOne_beside hs hz hc (hl p List.mem_cons_self))

/-- One that waits elsewhere, outside a chain, ends with ABORTED (R349). -/
theorem abortOne_ends {s : State} {n : Nat} {x : Slot} (hs : tsorted s.adm.slots = true) (hx : s.slot n = some x) (hu : x.unit = none)
    (hc : x.chain = none) (hr : x.res.isNone = true) : ∃ y r, (abortOne s n x).slot n = some y ∧ y.chain = none ∧ y.stage = .done ∧
      y.res = some r ∧ r.status = .aborted := by
  have hf := failChain_unchained (n := n) hs hx hc
  unfold abortOne
  simp only [hu]
  rw [if_pos (by rw [hx]; exact hr)]
  unfold fail finish
  rw [State.modSlot_slot, if_pos rfl, hf]
  exact ⟨_, _, rfl, hc, rfl, rfl, rfl⟩

theorem mem_sessionWork {s : State} {e : Nat} {p : Nat × Slot} (h : p ∈ s.sessionWork e) : p ∈ s.adm.slots ∧
    isRaw (opcode p.2.desc) = true ∧ opcode p.2.desc ≠ 0x90B ∧ p.2.res.isNone = true := by
  simp only [State.sessionWork, List.mem_filter, Bool.and_eq_true, bne_iff_ne] at h
  tauto

/-- The commands of a session are listed once each. -/
theorem sessionWork_pairwise {s : State} (hs : tsorted s.adm.slots = true) (e : Nat) :
    (s.sessionWork e).Pairwise (fun p q => p.1 < q.1) := by
  rw [tsorted_iff, tkeys, List.pairwise_map] at hs
  exact hs.filter _

/-- What the aborts of a session's commands leave of each (R349). -/
theorem sessionWork_ended {s : State} (hs : tsorted s.adm.slots = true) {e : Nat} {p : Nat × Slot} (hp : p ∈ s.sessionWork e)
    (hu : p.2.unit = none) (hc : p.2.chain = none) :
    ∃ y r, ((s.sessionWork e).foldl (fun t p => abortOne t p.1 p.2) s).slot p.1 = some y ∧ y.chain = none ∧ y.stage = .done ∧
      y.res = some r ∧ r.status = .aborted := by
  obtain ⟨hmem, -, -, hres⟩ := mem_sessionWork hp
  have hpair := sessionWork_pairwise hs e
  obtain ⟨l1, l2, hl⟩ := List.append_of_mem hp
  rw [hl] at hpair ⊢
  obtain ⟨-, h2, h1⟩ := List.pairwise_append.1 hpair
  have hslot := foldl_abortOne_beside hc l1 (fun q hq => (Nat.ne_of_lt (h1 q hq p List.mem_cons_self)).symm) hs (tget_of_mem hs hmem)
  have hsort := (Aborts.fold (fun t (p : Nat × Slot) => .abortOne t p.1 p.2) l1 s).sorted hs
  rw [List.foldl_append, List.foldl_cons]
  obtain ⟨y, r, hy, hyc, hst, hr, hra⟩ := abortOne_ends hsort hslot hu hc hres
  exact ⟨y, r, foldl_abortOne_beside hyc l2 (fun q hq => Nat.ne_of_lt ((List.pairwise_cons.1 h2).1 q hq))
    ((Aborts.abortOne _ p.1 p.2).sorted hsort) hy, hyc, hst, hr, hra⟩

theorem sessionWork_marked {s : State} (hs : tsorted s.adm.slots = true) {e : Nat} {p : Nat × Slot} (hp : p ∈ s.sessionWork e)
    (hu : p.2.unit.isSome = true) :
    ∃ y, ((s.sessionWork e).foldl (fun t p => abortOne t p.1 p.2) s).slot p.1 = some y ∧ y.cut = some .aborted := by
  obtain ⟨hmem, -⟩ := mem_sessionWork hp
  refine foldl_reaches (I := fun t => ∃ z, t.slot p.1 = some z) (Q := fun t => ∃ y, t.slot p.1 = some y ∧ y.cut = some .aborted)
    (fun t q ⟨z, hz⟩ => ?_) (fun t q ⟨y, hy, hc⟩ => ?_) hp (fun t ⟨z, hz⟩ => abortOne_marks hu hz) ⟨p.2, tget_of_mem hs hmem⟩
  · obtain ⟨y, hy, -⟩ := (Aborts.abortOne t q.1 q.2).slot p.1 z hz
    exact ⟨y, hy⟩
  · obtain ⟨w, hw, -, -, ha⟩ := (Aborts.abortOne t q.1 q.2).slot p.1 y hy
    exact ⟨w, hw, ha hc⟩

theorem State.rawEngine_session {s : State} {x : Slot} {e : Nat} (h : s.rawEngine x = some e) : (s.engine e).st = .session := by
  unfold State.rawEngine at h
  dsimp only at h
  generalize (if dP1 x.desc = 0xFFFFFFFF then _ else _ : Nat) = id at h
  split at h
  · cases h
  · next hn =>
    have hst : (s.engine (id % 256)).st = .session := by
      by_contra hc
      exact hn (Or.inr (Or.inl hc))
    split at h <;> split at h <;> cases h <;> exact hst

/-! ### Opening and closing -/

/-- RAW_SESSION_GRANTED on an engine whose queue is empty: the session opens, zeroed (R334). -/
theorem grantSession_opens {s : State} {e n : Nat} {x : Slot} (hs : tsorted s.adm.slots = true) (hx : s.slot n = some x) (hr : HasRoom {} x s) :
    ∃ g, (grantSession s e n x).engine e = g ∧ g.st = .session ∧ g.bank = [] ∧ g.window = none ∧
      g.sess = ((s.engine e).openGen + 1) % 2 ^ 16 * 2 ^ 16 + e ∧ g.sessPart = x.part ∧ g.sessRid = x.rid ∧
      Settles (.inl (leBytes 4 g.sess)) n x s (grantSession s e n x) ∧ (grantSession s e n x).keys = s.keys := by
  have hfit : Fits (.inl (leBytes 4 (((s.engine e).openGen + 1) % 2 ^ 16 * 2 ^ 16 + e))) x s := (hr.of_ok rfl).fits
  unfold grantSession
  extract_lets gen id s1 s2
  have hs2 : tsorted s2.adm.slots = true := tsorted_modSlot n _ (s := s1) hs
  have hslot : ∀ m, s2.slot m = if m = n then (s.slot n).map (fun y => { y with sess := id, time24 := 20 * 1024 }) else s.slot m :=
    fun m => State.modSlot_slot s1 n m _
  have hx2 : s2.slot n = some { x with sess := id, time24 := 20 * 1024 } := by rw [hslot, if_pos rfl, hx]; rfl
  have hkeys : s2.keys = s.keys := State.modSlot_keys ..
  have heng : s2.engine e = { (s.engine e).zeroed with
      st := .session, reservedBy := none, openGen := gen, sess := id, sessPart := x.part, sessRid := x.rid, sessKey := 0, lastUs := s.opUs } := by
    rw [State.engine, show s2.units = s1.units from State.modSlot_units .., ← State.engine, State.modEngine_engine, if_pos rfl]
  obtain ⟨a, u, c, h, -⟩ := settle_only (x := x) hs2 hx2 hfit
  refine ⟨_, (State.engine_of_units (settle_ok_units hx2 rfl hfit) e).trans heng, rfl, rfl, rfl, rfl, rfl, rfl,
    (settle_settles (x := x) hs2 hx2 rfl rfl hfit).of_slots fun m hm => by rw [hslot, if_neg hm], ?_⟩
  rw [h]
  exact hkeys

theorem rawSessionGranted_grants {s : State} {e n : Nat} {x : Slot} (hres : (s.engine e).reservedBy = some n) (hq : (s.engine e).queue = [])
    (hr : (s.engine e).st ≠ .inReset) (ho : (s.engine e).st ≠ .offline) (hx : s.slot n = some x) (hst : x.stage = .queued) (hc : x.cut = none) :
    exec (.rawSessionGranted e) s = .next (grantSession s e n x) := by
  rw [dispatch_rawSessionGranted, execRawSessionGranted]
  simp only [hres, hx, hc]
  rw [if_neg (not_not.2 hst), if_neg ho, if_neg (by simp [hq, hr])]

theorem rawSessionClose_closes {s : State} {n e : Nat} {x : Slot} (hd : s.due n 0x902 = some x) (hu : s.rawUnit x = some e) :
    exec (.rawSessionClose n) s = .next (settle s (closeEngine s e) n x {}) := by
  rw [dispatch_rawSessionClose, execRawSessionClose]
  simp only [hd, hu]

theorem rawSessionIdle_closes {s : State} {e : Nat} (hl : (s.engine e).lastUs + 10000000 ≤ s.opUs) (hq : (s.engine e).queue = [])
    (hr : s.runningRaw e = none)
    (hw : ∀ y ∈ s.adm.slots, isRaw (opcode y.2.desc) = true → y.2.res.isNone = true → s.rawEngine y.2 ≠ some e) :
    exec (.rawSessionIdleTimeout e) s = .next (closeEngine s e) := by
  have hno : ((tvals s.adm.slots).any fun y => isRaw (opcode y.desc) && y.res.isNone && s.rawEngine y == some e) = false := by
    rw [List.any_eq_false]
    intro y hy
    obtain ⟨p, hp, rfl⟩ := List.mem_map.1 hy
    simp only [Bool.and_eq_true, beq_iff_eq, not_and]
    exact fun h h' => hw p hp h.1 h.2 h' |>.elim
  rw [dispatch_rawSessionIdleTimeout, execRawSessionIdleTimeout, if_pos ⟨hl, hq, by rw [hno]; rfl⟩, closeSession, hr]

/-! ### RAW_ABORT -/

/-- The state in which RAW_ABORT has aborted the session's commands and closed it. -/
def rawAborted (s : State) (e : Nat) : State := closeEngine ((s.sessionWork e).foldl (fun t p => abortOne t p.1 p.2) s) e

theorem rawAborted_aborts (s : State) (e : Nat) : Aborts s (rawAborted s e) :=
  (Aborts.fold (fun t (p : Nat × Slot) => .abortOne t p.1 p.2) _ s).trans (.closeEngine _ e)

theorem rawAbort_next {s : State} {n e : Nat} {x : Slot} (hd : s.due n 0x90B = some x) (he : s.rawEngine x = some e) :
    exec (.rawAbort n) s = .next (settle s (rawAborted s e) n x (.inl (leBytes 2 (s.sessionWork e).length))) := by
  rw [dispatch_rawAbort, execRawAbort]
  simp only [hd, he]
  rfl

theorem rawAbort_misses {s : State} {n : Nat} {x : Slot} (hd : s.due n 0x90B = some x) (he : s.rawEngine x = none) :
    exec (.rawAbort n) s = .next (settle s s n x (.fail .inputRange)) := by
  rw [dispatch_rawAbort, execRawAbort]
  simp only [hd, he]

theorem State.opcode_of_due {s : State} {n op : Nat} {x : Slot} (h : s.due n op = some x) : opcode x.desc = op := by
  unfold State.due at h
  split at h
  · cases h
  · split at h
    · next hc =>
      cases h
      simp only [Bool.and_eq_true, beq_iff_eq] at hc
      exact hc.1.1.1
    · cases h

/-- RAW_ABORT itself is none of the commands it aborts. -/
theorem not_mem_sessionWork_of_due {s : State} (hs : tsorted s.adm.slots = true) {n e : Nat} {x : Slot} (hd : s.due n 0x90B = some x)
    {p : Nat × Slot} (hp : p ∈ s.sessionWork e) : p.1 ≠ n := by
  rintro rfl
  obtain ⟨hmem, -, hop, -⟩ := mem_sessionWork hp
  have hx := (tget_of_mem hs hmem).symm.trans (State.slot_of_due hd)
  cases hx
  exact hop (State.opcode_of_due hd)

end Sys2Proof.Machine

/-- Settles O16: opening, closing and lapsing by the engine's state, RAW_ABORT by the abort of each of the session's commands. -/
theorem rawSessionLife : Obligations.RawSessionLife := by
  unfold Obligations.RawSessionLife
  refine ⟨⟨fun n x s hs hd => ⟨fun hq => ?_, fun e hq hn he => ?_⟩, fun e n x s hs hres hq hr ho hx hst hc hroom => ?_,
    fun n e x s hs hd hu hst hroom => ?_, fun e s hst hl hq hr hw => ?_⟩, fun n x s hs hd hroom => ⟨fun e he => ?_, fun he => ?_⟩⟩
  · obtain ⟨hset, -, -, hu⟩ := settle_raw (s' := s) hs (State.slot_of_due hd) rfl (.of_fail .quota x s (by decide))
    rw [dispatch_rawSessionOpen, execRawSessionOpen]
    simp only [hd]
    rw [if_pos hq]
    exact ⟨_, rfl, hset, fun hc => hu (Or.inr hc)⟩
  · rw [dispatch_rawSessionOpen, execRawSessionOpen]
    simp only [hd, he]
    rw [if_neg (by omega)]
    refine ⟨_, rfl, ?_, ?_, fun k hk => ?_, fun m hm => ?_, State.modSlot_keys .., State.modSlot_commit ..⟩
    · rw [State.engine, State.modSlot_units, ← State.engine, State.modEngine_engine, if_pos rfl]
    · rw [State.modSlot_slot, if_pos rfl, show (s.modEngine e fun g => { g with reservedBy := some n }).slot n = s.slot n from rfl,
        State.slot_of_due hd]
      rfl
    · rw [State.engine, State.modSlot_units, ← State.engine, State.modEngine_engine, if_neg hk]
    · rw [State.modSlot_slot, if_neg hm]
      rfl
  · rw [rawSessionGranted_grants hres hq hr ho hx hst hc]
    obtain ⟨g, hg, h1, h2, h3, h4, h5, h6, hset, hk⟩ := grantSession_opens (e := e) hs hx hroom
    exact ⟨_, rfl, by rw [hg, h1], by rw [hg, h2], by rw [hg, h3], by rw [hg, h4], by rw [hg, h5], by rw [hg, h6], by rw [hg]; exact hset, hk⟩
  · rw [rawSessionClose_closes hd hu]
    obtain ⟨hset, hk, -, hun⟩ := settle_raw (s' := closeEngine s e) hs (State.slot_of_due hd) rfl hroom.fits
    obtain ⟨h1, h2, h3, h4⟩ := closeEngine_shut s e (Or.inl hst)
    have heng := State.engine_of_units (hun (Or.inl rfl))
    exact ⟨_, rfl, by rw [heng, h1], by rw [heng, h2], by rw [heng, h3], by rw [heng, h4],
      fun k hke => by rw [heng, closeEngine_beside s hke], hset, hk⟩
  · rw [rawSessionIdle_closes hl hq hr hw]
    obtain ⟨h1, h2, h3, h4⟩ := closeEngine_shut s e (Or.inl hst)
    exact ⟨_, rfl, h1, h2, h3, h4, fun k hke => closeEngine_beside s hke, rfl, rfl⟩
  · rw [rawAbort_next hd he]
    have hab := rawAborted_aborts s e
    have hwork := Aborts.fold (fun t (p : Nat × Slot) => .abortOne t p.1 p.2) (s.sessionWork e) s
    have hfit : Fits (.inl (leBytes 2 (s.sessionWork e).length)) x s := (hroom.of_ok rfl).fits
    obtain ⟨y, hy, hyr, hyc, -⟩ := hab.slot n x (State.slot_of_due hd)
    have hset := settle_settles (hab.sorted hs) hy hyr hyc hfit
    have heng := State.engine_of_units (settle_ok_units (s0 := s) (x := x) hy rfl hfit) e
    obtain ⟨h1, h2, -, h4⟩ := closeEngine_shut _ e (hwork.engine e (Or.inl (State.rawEngine_session he)))
    have hbeside : ∀ m z, m ≠ n → (rawAborted s e).slot m = some z → z.chain = none →
        (settle s (rawAborted s e) n x (.inl (leBytes 2 (s.sessionWork e).length))).slot m = some z := fun m z hm hz hc =>
      hset.2 m z hm hz (by
        cases hxc : x.chain with
        | none => exact Or.inl rfl
        | some first => exact Or.inr (Or.inr (by rw [hc]; nofun)))
    refine ⟨_, rfl, by rw [heng]; exact h1, by rw [heng]; exact h2, by rw [heng]; exact h4, ?_, fun p hp hu => ?_, fun p hp hu hc => ?_,
      fun m z hz hm hw hc => ?_, ?_⟩
    · obtain ⟨⟨w, hw, hcar, -⟩, -⟩ := hset
      exact ⟨w, hw, hcar⟩
    · obtain ⟨w, hw, hcut⟩ := sessionWork_marked hs hp hu
      obtain ⟨st, hst⟩ := settle_ok_slot (s0 := s) (x := x) hy rfl hfit (not_mem_sessionWork_of_due hs hd hp) hw
      exact ⟨_, hst, hcut⟩
    · obtain ⟨w, r, hw, hwc, hst, hr, hra⟩ := sessionWork_ended hs hp hu hc
      exact ⟨w, r, hbeside _ w (not_mem_sessionWork_of_due hs hd hp) hw hwc, hst, hr, hra⟩
    · exact hbeside m z hm (foldl_abortOne_beside hc _ (fun p hp h => hw (List.mem_map.2 ⟨p, hp, h.symm⟩)) hs hz) hc
    · obtain ⟨a, u, c, h, -⟩ := settle_only (s0 := s) (x := x) (hab.sorted hs) hy hfit
      obtain ⟨a', u', h'⟩ := hab.only
      rw [h, h']
  · rw [rawAbort_misses hd he]
    obtain ⟨hset, hk, -, hu⟩ := settle_raw (s' := s) hs (State.slot_of_due hd) rfl (.of_fail .inputRange x s (by decide))
    exact ⟨_, rfl, fun hc => hu (Or.inr hc), hset, hk⟩
end

section
open Sys2Proof.Machine

/-! SUPPORT. The ways a request comes in, and the log's flush (R580 to R592). -/

namespace Sys2Proof.Machine

/-! ### Taking a request -/

/-- A request that is taken leaves the dispatcher's queue and may enter its session; nothing else moves (R576). -/
theorem takeReq_only {s t : State} {rq : Req} {idx sub op : Nat} (h : takeReq s rq idx sub op = (t, true)) :
    ∃ i ss, t = { s with od := { s.od with inbox := i, sessions := ss } } := by
  unfold takeReq at h
  extract_lets s0 at h
  split at h
  · obtain ⟨rfl, -⟩ := Prod.mk.inj h
    exact ⟨_, s.od.sessions, rfl⟩
  · split at h
    · cases (Prod.mk.inj h).2
    · split at h
      · cases (Prod.mk.inj h).2
      · split at h
        · cases (Prod.mk.inj h).2
        · obtain ⟨rfl, -⟩ := Prod.mk.inj h
          exact ⟨_, _, rfl⟩

/-- A request outside a session is taken as it comes (R575). -/
theorem takeReq_plain (s : State) {rq : Req} (idx sub op : Nat) (h : rq.session = 0) :
    takeReq s rq idx sub op = ({ s with od := { s.od with inbox := s.od.inbox.filter (fun e => e.1 != rq) } }, true) := by
  unfold takeReq
  simp only [State.session, h, if_true]

/-! ### Relayed bodies (R583) -/

theorem relayRequest_relays {s t : State} {rq : Req} {dest : Nat} {b : Bytes}
    (h : takeReq s rq (leAt b 0 2) (byteAt b 2) (byteAt b 3) = (t, true)) :
    (relayRequest s rq dest b).od.relays = t.od.relays ++ [(dest, rq, bodyId b)] ∧ (relayRequest s rq dest b).keys = s.keys ∧
      (relayRequest s rq dest b).bus.replies = s.bus.replies := by
  obtain ⟨m, f, hsend⟩ := SendOnly.sendTo (t.modOd (fun o => { o with relays := o.relays ++ [(dest, rq, bodyId b)] })) dest 3 b
  have hr : relayRequest s rq dest b = sendTo (t.modOd (fun o => { o with relays := o.relays ++ [(dest, rq, bodyId b)] })) dest 3 b := by
    unfold relayRequest
    simp only [h]
    rfl
  obtain ⟨i, ss, rfl⟩ := takeReq_only h
  rw [hr, hsend]
  exact ⟨rfl, rfl, rfl⟩

theorem relayedReply_returns {s : State} {src : Nat} {b : Bytes} {r : Nat × Req × Nat}
    (h : s.od.relays.find? (fun r => r.1 == src && r.2.2 == leAt b 8 4) = some r) : ∃ d,
      (relayedReply s src b).od.relays = s.od.relays.erase r ∧ (relayedReply s src b).bus.replies = s.bus.replies ++ [(r.2.1, d)] ∧
      (relayedReply s src b).keys = s.keys ∧ (relayedReply s src b).commit = s.commit := by
  have he : relayedReply s src b = sendReply ((s.modOd (fun o => { o with relays := o.relays.erase r })).modSeam (fun m => { m with
      unacked := m.unacked.filter (fun f => !(f.cls == 3 && f.dest == src)) })) r.2.1 (leAt b 0 2) (byteAt b 2) (byteAt b 3 - 0x80)
      (leAt b 4 2) (b.drop 12) := by
    unfold relayedReply
    simp only [h]
  rw [he]
  have hod := sendReply_od ((s.modOd (fun o => { o with relays := o.relays.erase r })).modSeam (fun m => { m with
      unacked := m.unacked.filter (fun f => !(f.cls == 3 && f.dest == src)) })) r.2.1 (leAt b 0 2) (byteAt b 2) (byteAt b 3 - 0x80)
      (leAt b 4 2) (b.drop 12)
  obtain ⟨o, e, hs⟩ := sendReply_only ((s.modOd (fun o => { o with relays := o.relays.erase r })).modSeam (fun m => { m with
      unacked := m.unacked.filter (fun f => !(f.cls == 3 && f.dest == src)) })) r.2.1 (leAt b 0 2) (byteAt b 2) (byteAt b 3 - 0x80)
      (leAt b 4 2) (b.drop 12)
  rw [hs] at hod ⊢
  obtain ⟨_, _, _, _, _, _, rfl⟩ := hod
  exact ⟨_, rfl, rfl, rfl, rfl⟩

/-! ### A body served over the Seam -/

/-- A read over the Seam, outside a session: one reply to its sender and a microsecond of the stream (R570, R583). -/
theorem odReadServe_plain (s : State) {rq : Req} (idx sub : Nat) (h : rq.session = 0) : ∃ d,
    (odReadServe rq idx sub s).bus.replies = s.bus.replies ++ [(rq, d)] ∧ (odReadServe rq idx sub s).keys = s.keys ∧
      (odReadServe rq idx sub s).parts = s.parts ∧ (odReadServe rq idx sub s).commit = s.commit := by
  unfold odReadServe
  rw [takeReq_plain s idx sub 1 h]
  dsimp only
  rw [if_neg (by simp)]
  split
  · obtain ⟨o, e, hs⟩ := sendReply_only { s with od := { s.od with inbox := s.od.inbox.filter (fun e => e.1 != rq) } } rq idx sub 1
      Status.keyUsage.code []
    rw [refuse, hs]
    exact ⟨_, rfl, rfl, rfl, rfl⟩
  · obtain ⟨o, e, hs⟩ := sendReply_only { s with od := { s.od with inbox := s.od.inbox.filter (fun e => e.1 != rq) }, free := s.free + 1 } rq
      idx sub 1 0 (State.odValue { s with od := { s.od with inbox := s.od.inbox.filter (fun e => e.1 != rq) } } idx sub)
    rw [hs]
    exact ⟨_, rfl, rfl, rfl, rfl⟩

theorem serveBody_read {s : State} {rq : Req} {b : Bytes} (hn : b.length = 8) (ho : byteAt b 3 = 1) :
    serveBody rq b s = odReadServe rq (leAt b 0 2) (byteAt b 2) s := by
  unfold serveBody
  simp only [ho, hn, if_true]

/-- The replies a served body added go back over the Seam; only frames are added (R536). -/
theorem SendOnly.replies (s : State) (rq : Req) (src : Nat) (l : List (Req × Bytes)) :
    SendOnly s (l.foldl (fun u e => if e.1 = rq then Machine.sendTo u src 3 e.2 else u) s) :=
  fold (fun t e => by
    split
    · exact sendTo t src 3 e.2
    · exact refl t) l s

/-! ### The flush (R589, R598) -/

theorem nandPut_mainBuf (ovw : Bool) (l : Recorder) (r : LogRec) : (nandPut ovw l r).mainBuf = l.mainBuf := by
  unfold nandPut
  split
  · rfl
  · split <;> rfl

theorem drainLog_mainBuf (ovw : Bool) (l : Recorder) : (drainLog ovw l).mainBuf = [] := by
  have h : ∀ (b : List LogRec) (l : Recorder), (b.foldl (nandPut ovw) l).mainBuf = l.mainBuf := fun b => by
    induction b with
    | nil => exact fun _ => rfl
    | cons r b ih => exact fun l => (ih _).trans (nandPut_mainBuf ovw l r)
  exact h l.mainBuf { l with mainBuf := [] }

/-- Where NAND has room each buffered record is appended, in order. -/
theorem foldl_nandPut_room (ovw : Bool) (b : List LogRec) (l : Recorder) (h : l.nand.length + b.length ≤ nandCap) :
    b.foldl (nandPut ovw) l = { l with nand := l.nand ++ b.map (fun r => (r, none)) } := by
  induction b generalizing l with
  | nil => simp
  | cons r b ih =>
    rw [List.length_cons] at h
    rw [List.foldl_cons, nandPut, if_pos (by omega), ih _ (by rw [List.length_append, List.length_singleton]; omega)]
    simp

theorem flushLog_mainBuf (s : State) (one : Bool) : (flushLog s one).log.mainBuf = [] := drainLog_mainBuf _ _

/-- A flush with room and nothing left to report (R592). -/
theorem flushLog_appends {s : State} (one : Bool) (hu : s.log.unreported = (0, 0)) (hr : s.log.nand.length + s.log.mainBuf.length ≤ nandCap) :
    (flushLog s one).log.nand = s.log.nand ++ s.log.mainBuf.map (fun r => (r, none)) ∧ (flushLog s one).log.dropped = s.log.dropped ∧
      (flushLog s one).log.next = s.log.next := by
  have hd : drainLog (overwriteMode s) s.log = Recorder.freed { s.log with
      mainBuf := [], nand := s.log.nand ++ s.log.mainBuf.map (fun r => (r, none)) } := by
    rw [drainLog, foldl_nandPut_room (overwriteMode s) s.log.mainBuf { s.log with mainBuf := [] } hr]
  have hrep : reportDrops { s with log := drainLog (overwriteMode s) s.log } = { s with log := drainLog (overwriteMode s) s.log } := by
    have hu' : (drainLog (overwriteMode s) s.log).unreported = (0, 0) := by rw [hd]; exact hu
    unfold reportDrops
    simp only [hu', if_true]
  unfold flushLog
  rw [hrep, hd]
  exact ⟨rfl, rfl, rfl⟩

end Sys2Proof.Machine

/-- Settles O54: the envelope's ways in, the relay and the served body by their one reply, and the log's flush, seal check and clear. -/
theorem waysInAndLog : Obligations.WaysInAndLog := by
  unfold Obligations.WaysInAndLog
  refine ⟨⟨fun n s hb => ⟨fun h => ?_, fun rq b hbusy hup hlo hhi he => ?_⟩, fun peer dest port addr d b rq s hm hup hsp => ⟨fun ha => ?_,
      fun ha he hd => ?_, fun t ha he hd ht => ?_⟩, fun v s => rfl, fun src b s hsp ho hsrc => ⟨fun r hr => ?_, fun hr => ?_⟩,
      fun src b s hsp hsrc hw ho ho' => ?_, fun src b s hsp hsrc hn ho => ?_⟩, fun s => ⟨fun hopen hpf => ?_, fun h => ?_⟩,
    fun rq seq k s t ht hh hseq hk => ?_, fun rq v grant use s t hv ht hg => ?_⟩
  · rw [dispatch_mailboxGo, execMailboxGo, if_neg (by simp [hb]), if_pos (by rcases h with h | h <;> simp [h])]
    rfl
  · rw [dispatch_mailboxGo, execMailboxGo, if_neg (by simp [hb]), if_neg (by simp [hbusy, hup])]
    dsimp only
    rw [if_neg (by omega), Nat.min_eq_left hhi, Nat.mod_eq_of_lt (by omega),
      show openEnvelope (s.modOd fun o => { o with busy := true, reqLen := n }) 0 0 ((List.range n).map fun i => tgetD s.od.reqBuf i 0#8) = .ok (rq, b)
        from he]
    rfl
  · rw [dispatch_mgmtDatagram, execMgmtDatagram, if_pos (Or.inr (Or.inr (Or.inr (by simp [ha]))))]
  · rw [dispatch_mgmtDatagram, execMgmtDatagram, if_neg (by simp [hm, hup, hsp, ha]), he]
    dsimp only
    rw [if_pos hd]
    rfl
  · rw [dispatch_mgmtDatagram, execMgmtDatagram, if_neg (by simp [hm, hup, hsp, ha]), he]
    dsimp only
    rw [if_neg hd]
    exact ⟨_, rfl, relayRequest_relays ht⟩
  · obtain ⟨d, h⟩ := relayedReply_returns hr
    rw [dispatch_mgmtFrameReceive, execMgmtFrameReceive, if_neg hsp, if_pos ho, Nat.mod_eq_of_lt hsrc]
    obtain ⟨h1, h2, h3, h4⟩ := h
    exact ⟨_, d, rfl, h1, h2, h3, h4⟩
  · rw [dispatch_mgmtFrameReceive, execMgmtFrameReceive, if_neg hsp, if_pos ho, Nat.mod_eq_of_lt hsrc, relayedReply]
    simp only [hr]
  · rw [dispatch_mgmtFrameReceive, execMgmtFrameReceive, if_neg hsp, if_neg (by omega), Nat.mod_eq_of_lt hsrc]
    dsimp only
    rw [if_pos ⟨hw, ho⟩]
    rfl
  · rw [dispatch_mgmtFrameReceive, execMgmtFrameReceive, if_neg hsp, if_neg (by omega), Nat.mod_eq_of_lt hsrc]
    dsimp only
    rw [if_neg (by omega), serveBody_read hn ho]
    obtain ⟨d, h1, h2, h3, h4⟩ := odReadServe_plain s (rq := ⟨2, 0, 0, bodyId b, src⟩) (leAt b 0 2) (byteAt b 2) rfl
    obtain ⟨m, f, hsend⟩ := SendOnly.replies (odReadServe ⟨2, 0, 0, bodyId b, src⟩ (leAt b 0 2) (byteAt b 2) s) ⟨2, 0, 0, bodyId b, src⟩ src
      ((odReadServe ⟨2, 0, 0, bodyId b, src⟩ (leAt b 0 2) (byteAt b 2) s).bus.replies.drop s.bus.replies.length)
    rw [hsend]
    exact ⟨_, d, rfl, h1, h2, h3, h4⟩
  · rw [dispatch_logFlush, execLogFlush, if_pos (by simp [hopen, hpf])]
    obtain ⟨l, hl⟩ := flushLog_only s false
    exact ⟨_, rfl, flushLog_mainBuf s false, by rw [hl], by rw [hl], fun hu hr => flushLog_appends false hu hr⟩
  · rw [dispatch_logFlush, execLogFlush, if_neg (by rcases h with h | h <;> simp [h])]
  · rw [dispatch_sealCheck, execSealCheck, sealCheckWrite, roleWrite_taken ht.1 ht.2 hh (by rw [if_neg (Nat.not_le.2 hseq), hk]; rfl), hk]
    rfl
  · rw [dispatch_logClear, execLogClear, logClearWrite, grantWrite_taken _ ht hg (by unfold boolCheck; rw [if_neg (by omega), if_neg (by omega)])]
end

section
open Sys2Proof.Machine

/-! SUPPORT. Reads, writes and segments of the object dictionary (R564 to R574). -/

namespace Sys2Proof.Machine

/-! ### Reads -/

theorem odReadServe_taken {s t : State} {rq : Req} {idx sub : Nat} (ht : takeReq s rq idx sub 1 = (t, true)) :
    odReadServe rq idx sub s = if readError t rq idx sub false then refuse t rq idx sub 1 .keyUsage
      else sendReply { t with free := t.free + 1 } rq idx sub 1 0 (t.odValue idx sub) := by
  unfold odReadServe
  rw [ht]
  rfl

theorem odReadSegmentServe_taken {s t : State} {rq : Req} {idx sub : Nat} (off n : Nat) (ht : takeReq s rq idx sub 2 = (t, true)) :
    odReadSegmentServe rq idx sub off n s = if readError t rq idx sub true then refuse t rq idx sub 2 .keyUsage
      else sendReply t rq idx sub 2 0 (t.segment idx sub off (min n (segmentMax rq.transport))) := by
  unfold odReadSegmentServe
  rw [ht]
  rfl

theorem readError_eq {t : State} {rq : Req} {idx sub : Nat} {e : Entry} (domain : Bool) (he : odEntry idx sub = some e) :
    readError t rq idx sub domain = (e.acc == .wo || (e.size == 0) != domain || !t.mayRead rq idx sub) := by
  unfold readError
  rw [he]

/-! ### Writes -/

theorem not_isOwn {idx sub : Nat} {e : Entry} (he : odEntry idx sub = some e) (ho : e.own = false) : isOwn idx sub = false := by
  rw [isOwn, he]
  exact ho

theorem genericWrite_role {s t : State} {rq : Req} {idx sub : Nat} {e : Entry} {v : Bytes} (ht : Taken s rq idx sub 0x20 t)
    (he : odEntry idx sub = some e) (ha : e.acc = .rw) (hs : e.size ≠ 0) (hh : t.holds rq 1 e.pa = true) (hv : valueCheck e v = none)
    (hx : extraCheck idx sub (leNat v) = none) :
    genericWrite rq idx sub v s = acceptCommit t rq idx sub 0x20 [] [.od idx sub v] := by
  unfold genericWrite
  simp only [he, ha, hv, hx]
  rw [if_neg hs, serveWrite_taken ht.1 ht.2 hh]

theorem genericGrant_granted {s t : State} {rq : Req} {idx sub : Nat} {e : Entry} {v grant : Bytes} {use : List Change}
    (hl : grant.length = 32) (ht : Taken s rq idx sub 0x21 t) (he : odEntry idx sub = some e) (ha : e.acc = .rwq) (hs : e.size ≠ 0)
    (hg : Granted t rq (idx == 0x7001) e.cls (entryPart idx) v grant use) (hv : valueCheck e v = none)
    (hx : extraCheck idx sub (leNat v) = none) :
    genericGrant rq idx sub v grant s = acceptCommit t rq idx sub 0x21 [] (entryChanges t idx sub v ++ use) := by
  have hop : writeOp false grant = 0x21 := by
    have hne : grant.isEmpty = false := by cases grant <;> simp at hl ⊢
    rw [writeOp, hne]
    rfl
  unfold genericGrant
  simp only [he]
  rw [if_pos ⟨ha, hs⟩, grantWrite_taken _ (by rw [hop]; exact ht) hg (by simp only [hv, hx])]

/-! ### Segments (R571, R572) -/

/-- A session's staged value after another segment. -/
def Session.staged (y : Session) (idx sub total us : Nat) (held : Bool) (b : Bytes) : Session :=
  { y with stageIdx := some (idx, sub), stageTot := total, stageUs := us, stageData := (if held then y.stageData else []) ++ b }

theorem Taken.session {s t : State} {rq : Req} {idx sub op : Nat} {x : Session} (ht : Taken s rq idx sub op t) (hx : s.session rq = some x) :
    ∃ y, tget t.od.sessions rq.session = some y ∧ (x.stageIdx = some (idx, sub) → y.stageData = x.stageData) := by
  have h := ht.1
  have h0 : State.session { s with od := { s.od with inbox := s.od.inbox.filter (fun e => e.1 != rq) } } rq = some x := hx
  unfold takeReq at h
  dsimp only at h
  rw [h0] at h
  dsimp only at h
  split at h
  · cases (Prod.mk.inj h).2
  · split at h
    · cases (Prod.mk.inj h).2
    · split at h
      · cases (Prod.mk.inj h).2
      · obtain ⟨rfl, -⟩ := Prod.mk.inj h
        exact ⟨_, tget_tset_self .., fun hs => by simp [hs]⟩

theorem segmentWrite_stages {s t : State} {rq : Req} {idx sub off total : Nat} {b held : Bytes} {x : Session} (ht : Taken s rq idx sub 0x22 t)
    (hx : s.session rq = some x) (hseq : x.seq ≤ rq.seq) (hbusy : x.busy = false)
    (hheld : held = if x.stageIdx = some (idx, sub) then x.stageData else []) (hoff : off = held.length)
    (htot : x.stageIdx = some (idx, sub) → total = x.stageTot) (hlt : off + b.length < total) (hmax : total ≤ 2 ^ 24)
    (hlen : b.length ≤ segmentMax rq.transport) (hdom : writableDomain idx sub = true)
    (hmay : t.anyRole rq = true ∨ t.factory = true ∨ t.openWrite idx sub = true) :
    segmentWrite rq idx sub off total b [] s = acceptNow (t.modOd (fun o => { o with
      sessions := tmap o.sessions (fun k y => if k = rq.session then y.staged idx sub total t.opUs (x.stageIdx == some (idx, sub)) b else y) }))
      rq idx sub 0x22 [] := by
  have hat : (if (x.stageIdx == some (idx, sub)) = true then x.stageData.length else 0) = held.length := by
    rw [hheld]
    simp only [beq_iff_eq]
    split <;> rfl
  unfold segmentWrite
  simp only [hx]
  rw [if_neg (by simp only [hbusy, Bool.false_eq_true, or_false]; omega)]
  unfold sessionSegment
  dsimp only
  rw [if_neg]
  · rw [if_neg (by omega), serveWrite_taken (s := s) (op := writeOp true []) ht.1 ht.2]
    · rfl
    · rw [hdom]
      rcases hmay with h | h | h <;> simp [h]
  · rw [hat]
    rintro (h | h | h | h | h | h)
    · exact h hoff
    · exact h.2 (htot (by simpa using h.1))
    · omega
    · omega
    · omega
    · simp at h

theorem segmentWrite_whole {s : State} {rq : Req} {idx sub : Nat} {m grant : Bytes} (hs : s.session rq = none)
    (hl : m.length ≤ segmentMax rq.transport) : segmentWrite rq idx sub 0 m.length m grant s = finishSegments rq idx sub m grant s := by
  unfold segmentWrite
  simp only [hs]
  rw [if_pos ⟨trivial, trivial, hl⟩]

/-- The whole value of the manifest entry is its own command's (R570). -/
theorem finishSegments_manifest (rq : Req) (m grant : Bytes) (s : State) :
    finishSegments rq 0x3001 1 m grant s = manifestWrite rq m grant s := by
  have hd : writableDomain 0x3001 1 = true := by decide
  unfold finishSegments
  rw [hd]
  rfl

theorem dropStage_session {s : State} {n : Nat} {x : Session} (hx : tget s.od.sessions n = some x) :
    tget (dropStage s n).od.sessions n = some { x with stageIdx := none, stageData := [] } := by
  simp only [dropStage, State.modOd]
  rw [tget_tmap, hx, Option.map_some, if_pos rfl]

end Sys2Proof.Machine

/-- Settles O52: reads by what they may read, writes by their entry, segments by whether the whole value is there. -/
theorem dictionaryRequests : Obligations.DictionaryRequests := by
  unfold Obligations.DictionaryRequests
  refine ⟨fun rq idx sub e s t ht he hs => ⟨fun ha hm => ?_, fun hm => ?_⟩, fun rq idx sub off n e s t ht he hs ha hm => ?_,
    fun rq idx sub e v s t ht he ho ha hs hh hv hx => ?_, fun rq idx sub v s t ht he => ?_,
    fun rq idx sub e v grant use s t hl ht he ho ha hs hg hv hx => ?_,
    fun rq idx sub off total b held x s t ht hx hseq hbusy hheld hoff htot hlt hmax hlen hdom hmay => ?_, fun rq m grant s hs hl => ?_,
    fun n x s hx => ⟨fun h => ?_, fun h => ?_⟩⟩
  · rw [dispatch_odRead, execOdRead, odReadServe_taken ht, readError_eq false he, if_neg (by simp [ha, hs, hm])]
  · rw [dispatch_odRead, execOdRead, odReadServe_taken ht, readError_eq false he, if_pos (by simp [hm])]
  · rw [dispatch_odReadSegment, execOdReadSegment, odReadSegmentServe_taken off n ht, readError_eq true he, if_neg (by simp [ha, hs, hm])]
  · rw [dispatch_odWrite, execOdWrite, plainWrite, if_neg (by rw [not_isOwn he ho]; exact Bool.false_ne_true), genericWrite_role ht he ha hs hh hv hx]
  · rw [dispatch_odWrite, execOdWrite, plainWrite, if_neg (by rw [isOwn, he]; exact Bool.false_ne_true), genericWrite]
    simp only [he]
    unfold denyWrite serveWrite
    rw [ht.1]
    dsimp only
    rw [if_neg (by simp), if_neg (by simp [ht.2])]
    rfl
  · rw [dispatch_odWriteGrant, execOdWriteGrant, grantedWrite, if_neg (by rw [not_isOwn he ho]; exact Bool.false_ne_true),
      genericGrant_granted hl ht he ha hs hg hv hx]
  · rw [dispatch_odWriteSegment, execOdWriteSegment, segmentWrite_stages ht hx hseq hbusy hheld hoff htot hlt hmax hlen hdom hmay]
    obtain ⟨y, hy, hkeep⟩ := ht.session hx
    have hy' : tget (t.modOd (fun o => { o with sessions := tmap o.sessions (fun k y =>
        if k = rq.session then y.staged idx sub total t.opUs (x.stageIdx == some (idx, sub)) b else y) })).od.sessions rq.session =
        some (y.staged idx sub total t.opUs (x.stageIdx == some (idx, sub)) b) := by
      simp only [State.modOd]
      rw [tget_tmap, hy, Option.map_some, if_pos rfl]
    obtain ⟨env, hsess⟩ := sendReply_answers idx sub 0x22 0 [] hy'
    have hstore := sendReply_store (t.modOd (fun o => { o with sessions := tmap o.sessions (fun k y =>
        if k = rq.session then y.staged idx sub total t.opUs (x.stageIdx == some (idx, sub)) b else y) })) rq idx sub 0x22 0 []
    obtain ⟨o, e, hrep⟩ := sendReply_only (t.modOd (fun o => { o with sessions := tmap o.sessions (fun k y =>
        if k = rq.session then y.staged idx sub total t.opUs (x.stageIdx == some (idx, sub)) b else y) })) rq idx sub 0x22 0 []
    refine ⟨_, _, rfl, hsess, rfl, rfl, ?_, rfl, rfl, hstore, ?_⟩
    · rw [hheld]
      simp only [Session.answered, Session.staged, beq_iff_eq]
      split
      · next h => rw [hkeep h]
      · rfl
    · rw [acceptNow, hrep]
      exact ⟨rfl, rfl⟩
  · rw [dispatch_odWriteSegmentGrant, dispatch_manifestWrite, execOdWriteSegmentGrant, segmentWrite_whole hs hl, finishSegments_manifest]
    exact ⟨_, rfl, rfl⟩
  · rw [dispatch_segmentStagingTimeout, execSegmentStagingTimeout]
    simp only [hx]
    rw [if_pos h]
    exact ⟨_, _, rfl, dropStage_session hx, rfl, rfl, rfl⟩
  · rw [dispatch_segmentStagingTimeout, execSegmentStagingTimeout]
    simp only [hx]
    rw [if_neg (Nat.not_le.2 h)]
end

section
open Sys2Proof.Machine

/-! SUPPORT. Frames queued and sent over the Seam, and the cluster's time (R516 to R535). -/

namespace Sys2Proof.Machine

/-! ### What sending frames leaves -/

/-- A port after it has sent a frame (R520, R522). -/
def Port.sent (p : Port) (k : Nat) (f : Frame) : Port :=
  { p with linkSeq := (p.linkSeq + 1) % 2 ^ 32, frames := p.frames + 1, waiting := p.waiting.erase f
           credits := if f.cls = 0 then p.credits else tset p.credits f.cls (tgetD p.credits f.cls 0 - f.cells)
           replay := if f.cls = 0 then p.replay
             else p.replay ++ [{ f with port := k, linkSeq := (p.linkSeq + 1) % 2 ^ 32, linkAck := p.linkAck }] }

theorem transmit_port (s : State) (k m : Nat) (f : Frame) :
    (transmit s k f).port m = if m = k then (s.port k).sent k f else s.port m := State.modPort_port s k m (fun _ => (s.port k).sent k f)

/-- Frames are queued and sent: the ports' queues and the counters move, no link comes or goes, and no frame queued is lost (R520, R522). -/
structure Posts (s t : State) : Prop where
  only : ∃ p u n a f, t = { s with
    seam := { s.seam with ports := p, unreachable := u, sent := n, unacked := a }, bus := { s.bus with frames := f } }
  st : ∀ k, (t.port k).st = (s.port k).st
  queued : ∀ k f, Queued s k f → Queued t k f

namespace Posts

theorem refl (s : State) : Posts s s := ⟨⟨_, _, _, _, _, rfl⟩, fun _ => rfl, fun _ _ => id⟩

theorem trans {a b c : State} (h : Posts a b) (h' : Posts b c) : Posts a c := by
  refine ⟨?_, fun k => (h'.st k).trans (h.st k), fun k f => h'.queued k f ∘ h.queued k f⟩
  obtain ⟨⟨_, _, _, _, _, rfl⟩, -, -⟩ := h
  obtain ⟨⟨_, _, _, _, _, rfl⟩, -, -⟩ := h'
  exact ⟨_, _, _, _, _, rfl⟩

theorem fold {α : Type} {g : State → α → State} (hg : ∀ t a, Posts t (g t a)) (l : List α) (s : State) : Posts s (l.foldl g s) :=
  foldl_rel refl (fun _ _ _ => trans) g hg l s

theorem count (s : State) (u : Nat) (n : Tab Nat) (a : List Frame) :
    Posts s { s with seam := { s.seam with unreachable := u, sent := n, unacked := a } } := ⟨⟨_, _, _, _, _, rfl⟩, fun _ => rfl, fun _ _ => id⟩

theorem sendOnly {s t : State} (h : Posts s t) : SendOnly s t := by
  obtain ⟨_, _, _, _, _, rfl⟩ := h.only
  exact ⟨_, _, rfl⟩

theorem upPorts {s t : State} (h : Posts s t) : t.upPorts = s.upPorts := by
  unfold State.upPorts State.portUp
  simp only [h.st]

theorem transmit (s : State) (k : Nat) (f : Frame) : Posts s (transmit s k f) := by
  refine ⟨⟨_, _, _, _, _, rfl⟩, fun m => ?_, fun m g hg => ?_⟩
  · rw [transmit_port]
    split
    · next h =>
      rw [h]
      rfl
    · rfl
  · rcases hg with hg | ⟨w, hw, h⟩
    · by_cases hm : m = k
      · subst hm
        by_cases he : f = g
        · subst he
          exact Or.inr ⟨_, List.mem_append_right _ (List.mem_singleton.2 rfl), rfl, rfl⟩
        · refine Or.inl ?_
          rw [transmit_port, if_pos rfl]
          exact (List.mem_erase_of_ne (Ne.symm he)).2 hg
      · refine Or.inl ?_
        rw [transmit_port, if_neg hm]
        exact hg
    · exact Or.inr ⟨w, List.mem_append_left _ hw, h⟩

theorem pump (k n : Nat) (s : State) : Posts s (pump k n s) := by
  induction n generalizing s with
  | zero => exact refl s
  | succ n ih =>
    rw [Machine.pump]
    split
    · exact refl s
    · exact (transmit s k _).trans (ih _)

/-- A frame put behind a port's queue. -/
theorem enqueue (s : State) (k : Nat) (f : Frame) : Posts s (s.modPort k (fun p => { p with waiting := p.waiting ++ [f] })) := by
  refine ⟨⟨_, _, _, _, _, rfl⟩, fun m => ?_, fun m g hg => ?_⟩
  · rw [State.modPort_port]
    split
    · next h => rw [h]
    · rfl
  · refine hg.imp (fun hg => ?_) id
    rw [State.modPort_port]
    split
    · next h => exact List.mem_append_left _ (h ▸ hg)
    · exact hg

theorem sendOn (s : State) (k : Nat) (f : Frame) : Posts s (sendOn s k f) := (enqueue s k f).trans (pump k _ _)

theorem sendFrame (s : State) (dest cls stamp : Nat) (b : Bytes) : Posts s (sendFrame s dest cls stamp b) := by
  unfold Machine.sendFrame
  split
  · exact count s _ s.seam.sent s.seam.unacked
  · next k _ =>
    dsimp only [newFrame]
    refine trans ?_ (sendOn _ k _)
    split
    · exact count s s.seam.unreachable _ _
    · exact count s s.seam.unreachable _ s.seam.unacked

theorem sendTo (s : State) (dest cls : Nat) (b : Bytes) : Posts s (sendTo s dest cls b) := by
  unfold Machine.sendTo
  split
  · exact refl s
  · exact fold (fun t c => sendFrame t _ _ _ _) _ s

theorem sendLink (s : State) (k cls : Nat) (b : Bytes) : Posts s (sendLink s k cls b) :=
  (count s s.seam.unreachable _ s.seam.unacked).trans (sendOn _ k _)

theorem broadcast (s : State) (cls stamp : Nat) (b : Bytes) : Posts s (broadcast s cls stamp b) :=
  fold (fun t _ => (count t t.seam.unreachable _ t.seam.unacked).trans (fold (fun v k => sendOn v k _) _ _)) _ s

end Posts

/-- A frame sent on a port is queued there or has gone out (R520). -/
theorem sendOn_queued (s : State) (k : Nat) (f : Frame) : Queued (sendOn s k f) k f := by
  refine (Posts.pump k _ (s.modPort k (fun p => { p with waiting := p.waiting ++ [f] }))).queued k f (Or.inl ?_)
  rw [State.modPort_port, if_pos rfl]
  exact List.mem_append_right _ (List.mem_singleton.2 rfl)

/-- One frame on every port of a list is queued on each. -/
theorem foldl_sendOn_queued (f : Frame) (l : List Nat) (s : State) {k : Nat} (hk : k ∈ l) : Queued (l.foldl (fun v k => sendOn v k f) s) k f :=
  foldl_reaches (I := fun _ => True) (Q := fun t => Queued t k f) (fun _ _ _ => trivial) (fun t j hq => (Posts.sendOn t j f).queued k f hq) hk
    (fun t _ => sendOn_queued t k f) trivial

/-- A payload of one byte is broadcast as one frame on every port that is up (R521). -/
theorem broadcast_byte (s : State) (cls stamp : Nat) (b : Byte) : ∃ f, f.cls = cls ∧ f.dest = 0x8000 ∧ f.stamp = stamp ∧ f.payload = [b] ∧
    ∀ k, k ∈ s.upPorts → Queued (broadcast s cls stamp [b]) k f :=
  ⟨(newFrame s 0x8000 cls stamp [b]).1, rfl, rfl, rfl, rfl, fun _ hk => foldl_sendOn_queued _ s.upPorts (newFrame s 0x8000 cls stamp [b]).2 hk⟩

/-! ### The unsynchronised state (R533) -/

theorem setUnsynced_only (s : State) (v : Bool) : ∃ l e, setUnsynced s v = { s with seam := { s.seam with unsynced := v }, log := l, eic := e } := by
  unfold setUnsynced
  split
  · next h =>
    subst h
    exact ⟨s.log, s.eic, rfl⟩
  · obtain ⟨l, hl⟩ := logMain_only (s.modSeam (fun m => { m with unsynced := v })) 4 0x0B00 0x0B04 0xFF (b2n v) (int64 s.seam.offset)
    obtain ⟨e, he⟩ := raise_only (logMain (s.modSeam (fun m => { m with unsynced := v })) 4 0x0B00 0x0B04 0xFF (b2n v) (int64 s.seam.offset)) 1036
    rw [he, hl]
    exact ⟨l, e, rfl⟩

/-- A change of it raises TIME_SYNC (R533). -/
theorem setUnsynced_raises {s : State} {v : Bool} (h : s.seam.unsynced ≠ v) (ha : s.asleep = false) : 1036 ∈ (setUnsynced s v).eic.corePend := by
  unfold setUnsynced
  rw [if_neg h]
  obtain ⟨l, hl⟩ := logMain_only (s.modSeam (fun m => { m with unsynced := v })) 4 0x0B00 0x0B04 0xFF (b2n v) (int64 s.seam.offset)
  refine raise_pends_core rfl ?_ (by decide)
  rw [hl]
  exact ha

/-- A time heard from the master is slewed to, or stepped to (R532, R533). -/
theorem applySync_slews {s : State} {v : Nat} {un : Bool} (h : ((v : Int) - (s.timeUs : Int)).natAbs ≤ 50000) :
    (applySync s v un).timeUs = s.timeUs ∧ (applySync s v un).seam.slew = (v : Int) - (s.timeUs : Int) ∧
      (applySync s v un).seam.offset = (v : Int) - (s.timeUs : Int) ∧ (applySync s v un).seam.lastSync = s.opUs ∧
      (applySync s v un).seam.unsynced = (s.seam.unsynced || un) ∧ (applySync s v un).keys = s.keys ∧ (applySync s v un).od = s.od := by
  unfold applySync
  dsimp only
  rw [if_neg (Nat.not_lt.2 h), if_pos h]
  cases un with
  | false =>
    rw [if_neg Bool.false_ne_true, Bool.or_false]
    exact ⟨rfl, rfl, rfl, rfl, rfl, rfl, rfl⟩
  | true =>
    rw [if_pos rfl, Bool.or_true]
    obtain ⟨l, e, hu⟩ := setUnsynced_only (s.modSeam (fun m => { m with
      offset := (v : Int) - (s.timeUs : Int), bound := ((v : Int) - (s.timeUs : Int)).natAbs, lastSync := s.opUs
      slew := (v : Int) - (s.timeUs : Int)
      inBand := if ((v : Int) - (s.timeUs : Int)).natAbs ≤ 1000 ∧ true = false then some (m.inBand.getD s.opUs) else none })) true
    rw [hu]
    exact ⟨rfl, rfl, rfl, rfl, rfl, rfl, rfl⟩

theorem applySync_steps {s : State} {v : Nat} {un : Bool} (h : 50000 < ((v : Int) - (s.timeUs : Int)).natAbs) :
    (applySync s v un).timeUs = v ∧ (applySync s v un).seam.slew = 0 ∧ (applySync s v un).seam.unsynced = true ∧
      (applySync s v un).keys = s.keys ∧ (applySync s v un).od = s.od := by
  unfold applySync
  dsimp only
  rw [if_pos h, if_neg (Nat.not_le.2 h)]
  obtain ⟨l, e, hu⟩ := setUnsynced_only { s.modSeam (fun m => { m with
    offset := (v : Int) - (s.timeUs : Int), bound := ((v : Int) - (s.timeUs : Int)).natAbs, lastSync := s.opUs, slew := 0
    inBand := if ((v : Int) - (s.timeUs : Int)).natAbs ≤ 1000 ∧ un = false then some (m.inBand.getD s.opUs) else none }) with timeUs := v } true
  rw [hu]
  exact ⟨rfl, rfl, rfl, rfl, rfl⟩

/-! ### A granted write of the time (R534) -/

/-- An answer, or its wait for a commit point, leaves the stored entries, the Seam, the clocks and the keys. -/
theorem acceptUse_only (s : State) (rq : Req) (idx sub op : Nat) (data : Bytes) (use : List Change) : ∃ o e b c,
    acceptUse s rq idx sub op data use = { s with od := o, eic := e, bus := b, commit := c } ∧ o.store = s.od.store ∧ c.base = s.commit.base := by
  unfold acceptUse
  split
  · have hstore := sendReply_store s rq idx sub op 0 data
    obtain ⟨o, e, h⟩ := sendReply_only s rq idx sub op 0 data
    rw [h] at hstore
    rw [acceptNow, h]
    exact ⟨_, _, _, s.commit, rfl, hstore, rfl⟩
  · exact ⟨s.od, s.eic, s.bus, _, rfl, rfl, rfl⟩

theorem State.odGet_of_store {s t : State} (h : t.od.store = s.od.store) (idx sub : Nat) : t.odGet idx sub = s.odGet idx sub := by
  simp only [State.odGet, h]

theorem State.isMaster_of_store {s t : State} (h : t.od.store = s.od.store) (hs : t.seam = s.seam) : t.isMaster = s.isMaster := by
  simp only [State.isMaster, State.actingMaster, State.clustered, State.masters, State.position, State.cstate, State.odNat,
    State.odGet_of_store h, hs]
  rfl

theorem setMasterTime_sets {s : State} {v : Nat} (h : v < 2 ^ 64) : (setMasterTime s v).timeUs = v ∧ (setMasterTime s v).seam.timeSet = true ∧
    (setMasterTime s v).seam.unsynced = false ∧ (setMasterTime s v).seam.slew = 0 ∧ (setMasterTime s v).opUs = s.opUs ∧
    (setMasterTime s v).keys = s.keys := by
  obtain ⟨l, e, hu⟩ := setUnsynced_only { s.modSeam (fun m => { m with timeSet := true, offset := 0, slew := 0, bound := 0, inBand := none }) with
    timeUs := v % 2 ^ 64 } false
  rw [setMasterTime, hu]
  exact ⟨Nat.mod_eq_of_lt h, rfl, rfl, rfl, rfl, rfl⟩

theorem clusterTimeWrite_accepts {s t : State} {rq : Req} {v : Nat} {grant : Bytes} {use : List Change}
    (ht : Taken s rq 0x7001 1 (writeOp false grant) t) (hg : Granted t rq true 10 0 (leBytes 8 v) grant use) (hv : v < 2 ^ 64) :
    clusterTimeWrite rq v grant s = if (acceptUse t rq 0x7001 1 (writeOp false grant) [] use).isMaster then
        setMasterTime (acceptUse t rq 0x7001 1 (writeOp false grant) [] use) v
      else sendTo (acceptUse t rq 0x7001 1 (writeOp false grant) [] use)
        (acceptUse t rq 0x7001 1 (writeOp false grant) [] use).actingMaster 4 (configMessage (some (0x7001, 1, leBytes 8 v)) 0 []) := by
  rw [clusterTimeWrite, grantWrite_taken _ ht hg (if_neg (Nat.not_le.2 hv))]

end Sys2Proof.Machine

/-- Settles O46: the broadcast's one frame, the slew and the step, and the two ways a granted time goes. -/
theorem clusterTime : Obligations.ClusterTime := by
  unfold Obligations.ClusterTime
  refine ⟨fun s hc hm hp => ?_, fun src v un s hc hsrc hp hv ha => ⟨fun h => ?_, fun h => ?_⟩, fun t0 s hb hu => ⟨fun h => ?_, fun h => ?_⟩,
    fun b s hc hm hp hb => ⟨fun h => ?_, fun h => ?_, ?_⟩, fun rq v grant use s t ht hg hv => ?_⟩
  · rw [dispatch_syncBroadcast, execSyncBroadcast, if_pos ⟨hc, hm, hp⟩]
    obtain ⟨f, hcls, hdest, hst, hpay, hq⟩ := broadcast_byte s 1 s.timeUs (byteOf (b2n s.seam.unsynced))
    obtain ⟨_, _, _, _, _, hp⟩ := (Posts.broadcast s 1 s.timeUs [byteOf (b2n s.seam.unsynced)]).only
    exact ⟨_, f, rfl, hcls, hdest, hst, hpay, hq, by rw [hp], by rw [hp]⟩
  · rw [dispatch_syncReceive, execSyncReceive, if_neg (by simp [hc, hsrc, hp])]
    dsimp only
    rw [if_pos (by exact ha), Nat.mod_eq_of_lt hv]
    exact ⟨_, rfl, applySync_slews (s := s.modSeam _) h⟩
  · rw [dispatch_syncReceive, execSyncReceive, if_neg (by simp [hc, hsrc, hp])]
    dsimp only
    rw [if_pos (by exact ha), Nat.mod_eq_of_lt hv]
    exact ⟨_, rfl, applySync_steps (s := s.modSeam _) h⟩
  · rw [dispatch_timeSyncClear, execTimeSyncClear, hb]
    dsimp only
    rw [if_pos ⟨hu, h⟩]
    have hraise := setUnsynced_raises (s := s.modSeam (fun m => { m with timeSet := true })) (v := false) (by simp [State.modSeam, hu])
    obtain ⟨l, e, hs⟩ := setUnsynced_only (s.modSeam (fun m => { m with timeSet := true })) false
    refine ⟨_, rfl, by rw [hs], by rw [hs]; rfl, hraise, by rw [hs]; rfl, by rw [hs]; rfl⟩
  · rw [dispatch_timeSyncClear, execTimeSyncClear, hb]
    dsimp only
    rw [if_neg (by omega)]
  · subst hb
    rw [dispatch_driftBoundExceeded, execDriftBoundExceeded, if_neg (by simp [hc, hm, hp])]
    dsimp only
    rw [if_neg (Nat.not_lt.2 h)]
    rfl
  · subst hb
    rw [dispatch_driftBoundExceeded, execDriftBoundExceeded, if_neg (by simp [hc, hm, hp])]
    dsimp only
    rw [if_pos h]
    obtain ⟨l, e, hs⟩ := setUnsynced_only ((s.modSeam (fun m => { m with
      bound := s.seam.offset.natAbs + 20 * (s.opUs - s.seam.lastSync) / 1000000 })).modSeam (fun m => { m with inBand := none })) true
    rw [hs]
    exact ⟨_, rfl, rfl, rfl, rfl, rfl⟩
  · rw [dispatch_masterElection, execMasterElection, if_neg (by simp [hc, hm, hp])]
    dsimp only
    split
    · obtain ⟨l, e, hs⟩ := setUnsynced_only (s.modSeam (fun m => { m with masterGone := sins s.actingMaster m.masterGone, inBand := none })) true
      rw [hs]
      exact ⟨_, rfl, mem_sins_self _ _, rfl, rfl, rfl⟩
    · exact ⟨_, rfl, mem_sins_self _ _, rfl, rfl, rfl⟩
  · obtain ⟨o, e, b, c, ha, hstore, -⟩ := acceptUse_only t rq 0x7001 1 (writeOp false grant) [] use
    have hm : (acceptUse t rq 0x7001 1 (writeOp false grant) [] use).isMaster = t.isMaster :=
      State.isMaster_of_store (by rw [ha]; exact hstore) (by rw [ha])
    rw [dispatch_clusterTimeWrite, execClusterTimeWrite, clusterTimeWrite_accepts ht hg hv, hm]
    cases t.isMaster with
    | true =>
      rw [if_pos rfl]
      obtain ⟨h1, h2, h3, h4, h5, h6⟩ := setMasterTime_sets (s := acceptUse t rq 0x7001 1 (writeOp false grant) [] use) hv
      exact ⟨_, rfl, fun _ => ⟨h1, h2, h3, h4⟩, nofun, by rw [h5, ha], by rw [h6, ha]⟩
    | false =>
      rw [if_neg Bool.false_ne_true]
      obtain ⟨_, _, _, _, _, hs⟩ := (Posts.sendTo (acceptUse t rq 0x7001 1 (writeOp false grant) [] use)
        (acceptUse t rq 0x7001 1 (writeOp false grant) [] use).actingMaster 4 (configMessage (some (0x7001, 1, leBytes 8 v)) 0 [])).only
      rw [hs, ha]
      exact ⟨_, rfl, nofun, fun _ => ⟨rfl, rfl⟩, rfl, rfl⟩
end

section
open Sys2Proof.Machine

/-! SUPPORT. Heartbeats, the referee, the token and the collar (R549 to R560). -/

namespace Sys2Proof.Machine

/-! ### Pending sources -/

/-- No raise takes a pending source of the cores back. -/
theorem raise_keeps_core {s : State} {m : Nat} (n : Nat) (h : m ∈ s.eic.corePend) : m ∈ (raise s n).eic.corePend := by
  unfold raise
  split
  · exact h
  · split
    · unfold latchWake
      split <;> exact h
    · have hr : m ∈ (rouse s).eic.corePend := by
        unfold rouse
        split <;> exact h
      have hp : m ∈ (pendCore (rouse s) n).eic.corePend := by
        unfold pendCore
        split
        · exact mem_sins.2 (Or.inr hr)
        · exact hr
      dsimp only
      split
      · rw [raiseHost_corePend]
        exact hp
      · exact hp

theorem noteService_keeps_core {b s : State} {m : Nat} (h : m ∈ s.eic.corePend) : m ∈ (noteService b s).eic.corePend := by
  have he : m ∈ (noteEligible b s).eic.corePend := by
    unfold noteEligible
    split
    · exact h
    · exact raise_keeps_core _ h
  unfold noteService
  dsimp only
  split
  · exact he
  · exact raise_keeps_core _ he

/-! ### Losing the collar -/

/-- The replay index follows; no ring changes its state (R557). -/
theorem noteReplay_only (s : State) (rid : Nat) : ∃ r, noteReplay s rid = { s with rings := r } ∧
    ∀ k, ((noteReplay s rid).ring k).state = (s.ring k).state := by
  unfold noteReplay
  split
  · refine ⟨_, rfl, fun k => ?_⟩
    rw [State.modRing_ring]
    split
    · next h => rw [h]
    · rfl
  · exact ⟨s.rings, rfl, fun _ => rfl⟩

/-- Between two states the collar's work was cut: the pair stands and no ring changes its state. -/
def CollarCut (s t : State) : Prop := t.pair = s.pair ∧ t.power = s.power ∧ t.od = s.od ∧ t.service = s.service ∧ t.seam = s.seam ∧
  ∀ k, (t.ring k).state = (s.ring k).state

theorem CollarCut.refl (s : State) : CollarCut s s := ⟨rfl, rfl, rfl, rfl, rfl, fun _ => rfl⟩

theorem CollarCut.trans {a b c : State} (h : CollarCut a b) (h' : CollarCut b c) : CollarCut a c := by
  obtain ⟨h1, h2, h3, h4, h5, h6⟩ := h
  obtain ⟨k1, k2, k3, k4, k5, k6⟩ := h'
  exact ⟨k1.trans h1, k2.trans h2, k3.trans h3, k4.trans h4, k5.trans h5, fun k => (k6 k).trans (h6 k)⟩

theorem CollarCut.of_cut {s t : State} (h : CutOnly s t) : CollarCut s t := by
  obtain ⟨_, _, _, _, _, _, rfl⟩ := h
  exact ⟨rfl, rfl, rfl, rfl, rfl, fun _ => rfl⟩

theorem CollarCut.noteReplay (s : State) (rid : Nat) : CollarCut s (noteReplay s rid) := by
  obtain ⟨r, h, hs⟩ := noteReplay_only s rid
  refine ⟨?_, ?_, ?_, ?_, ?_, hs⟩
  all_goals rw [h]

/-- The holder's work cut, before TOKEN_CHANGE is raised. -/
def collarCut (t : State) : State :=
  closeSessions ((tkeys t.rings).foldl (fun u rid => noteReplay (cutRing u .collar rid) rid) t) (fun _ => true)

theorem collarCut_cut (t : State) : CollarCut t (collarCut t) :=
  (foldl_rel CollarCut.refl (fun _ _ _ => CollarCut.trans) _
    (fun _ rid => (CollarCut.of_cut (CutOnly.cutRing (k := .collar) rfl rid)).trans (.noteReplay _ rid)) _ t).trans
    (.of_cut (.of_held (.closeSessions _ _)))

theorem loseCollar_holder {s : State} (role : Nat) (h : s.pair.role = 3) :
    loseCollar s role = raise (collarCut { s with pair := { s.pair with collarTx := false, role := role, switching := none } }) 1033 := by
  unfold loseCollar
  dsimp only
  rw [if_pos h]
  rfl

theorem loseCollar_other {s : State} (role : Nat) (h : s.pair.role ≠ 3) :
    loseCollar s role = { s with pair := { s.pair with collarTx := false, role := role, switching := none } } := by
  unfold loseCollar
  dsimp only
  rw [if_neg h]

/-- The pair after the collar's loss, and what stands. -/
theorem loseCollar_pair (s : State) (role : Nat) :
    (loseCollar s role).pair = { s.pair with collarTx := false, role := role, switching := none } ∧
      (∀ k, ((loseCollar s role).ring k).state = (s.ring k).state) ∧ (s.pair.role ≠ 3 → (loseCollar s role).eic = s.eic) ∧
      (s.pair.role = 3 → s.asleep = false → 1033 ∈ (loseCollar s role).eic.corePend) := by
  by_cases h : s.pair.role = 3
  · obtain ⟨hp, hw, -, -, -, hr⟩ := collarCut_cut { s with pair := { s.pair with collarTx := false, role := role, switching := none } }
    rw [loseCollar_holder role h]
    refine ⟨by rw [raise_pair, hp], fun k => ?_, fun hn => absurd h hn, fun _ ha => ?_⟩
    · rw [State.ring, raise_rings]
      exact hr k
    · refine raise_pends_core rfl ?_ (by decide)
      rw [State.asleep, hw]
      exact ha
  · rw [loseCollar_other role h]
    exact ⟨rfl, fun _ => rfl, fun _ => rfl, fun h' => absurd h' h⟩

theorem State.idleRole_lt (s : State) : s.idleRole ≠ 2 ∧ s.idleRole ≠ 3 := by
  unfold State.idleRole
  split
  · decide
  · split <;> decide

/-- A member without the collar (R557): its other pair state stands. -/
theorem dropCollar_pair (s : State) : ∃ c r w, (dropCollar s).pair = { s.pair with collarTx := c, role := r, switching := w } ∧ r ≠ 2 ∧ r ≠ 3 ∧
    (s.pair.role = 2 ∨ s.pair.role = 3 → c = false) := by
  unfold dropCollar
  split
  · obtain ⟨hp, -⟩ := loseCollar_pair s s.pair.role
    refine ⟨false, (loseCollar s s.pair.role).idleRole, none, by dsimp only; rw [hp], (State.idleRole_lt _).1, (State.idleRole_lt _).2, fun _ => rfl⟩
  · next h => exact ⟨s.pair.collarTx, s.idleRole, s.pair.switching, rfl, (State.idleRole_lt s).1, (State.idleRole_lt s).2, fun h' => absurd h' h⟩

theorem dropCollar_ring (s : State) (k : Nat) : ((dropCollar s).ring k).state = (s.ring k).state := by
  unfold dropCollar
  split
  · exact (loseCollar_pair s s.pair.role).2.1 k
  · rfl

theorem dropCollar_keeps_core {s : State} (ha : s.asleep = false) (h : 1033 ∈ s.eic.corePend) : 1033 ∈ (dropCollar s).eic.corePend := by
  obtain ⟨-, -, he, hr⟩ := loseCollar_pair s s.pair.role
  unfold dropCollar
  split
  · by_cases h3 : s.pair.role = 3
    · exact hr h3 ha
    · exact (he h3).symm ▸ h
  · exact h

/-! ### The token -/

theorem holdToken_same {s : State} {v : Bool} (h : s.pair.tokenHeld = v) : holdToken s v = s := by
  unfold holdToken
  rw [if_pos h]

/-- The token comes: TOKEN_CHANGE and nothing else (R554). -/
theorem holdToken_gains (s : State) : ∃ e, holdToken s true = { s with pair := { s.pair with tokenHeld := true }, eic := e } := by
  unfold holdToken
  split
  · next h => exact ⟨s.eic, by rw [← h]⟩
  · obtain ⟨e, he⟩ := raise_only (s.modPair (fun p => { p with tokenHeld := true })) 1033
    dsimp only
    rw [if_pos rfl, he]
    exact ⟨e, rfl⟩

/-- The token goes, and with it the collar (R554, R557). -/
theorem holdToken_loses {s : State} (h : s.pair.tokenHeld = true) : CollarOnly s (holdToken s false) ∧
    (∃ c r w, (holdToken s false).pair = { s.pair with tokenHeld := false, collarTx := c, role := r, switching := w } ∧ r ≠ 2 ∧ r ≠ 3) ∧
    (s.asleep = false → 1033 ∈ (holdToken s false).eic.corePend) := by
  obtain ⟨e, he⟩ := raise_only (s.modPair (fun p => { p with tokenHeld := false })) 1033
  have hpair : (raise (s.modPair (fun p => { p with tokenHeld := false })) 1033).pair = { s.pair with tokenHeld := false } := raise_pair ..
  have hcollar : CollarOnly s (raise (s.modPair (fun p => { p with tokenHeld := false })) 1033) := (CollarOnly.setPair s _).trans (.raise _ _)
  have hcore : s.asleep = false → 1033 ∈ (raise (s.modPair (fun p => { p with tokenHeld := false })) 1033).eic.corePend := fun ha =>
    raise_pends_core rfl ha (by decide)
  have hasleep : (raise (s.modPair (fun p => { p with tokenHeld := false })) 1033).asleep = s.asleep := by
    rw [State.asleep, raise_power]
    rfl
  unfold holdToken
  rw [if_neg (by simp [h])]
  dsimp only
  rw [if_neg Bool.false_ne_true]
  generalize raise (s.modPair (fun p => { p with tokenHeld := false })) 1033 = t at hpair hcollar hcore hasleep
  split
  · obtain ⟨c, r, w, hd, h2, h3, -⟩ := dropCollar_pair t
    refine ⟨.noteService (hcollar.trans (.dropCollar t)), ⟨c, r, w, by rw [noteService_pair, hd, hpair], h2, h3⟩, fun ha => ?_⟩
    exact noteService_keeps_core (dropCollar_keeps_core (hasleep.trans ha) (hcore ha))
  · next hn =>
    rw [not_or] at hn
    rw [hpair] at hn
    exact ⟨hcollar, ⟨s.pair.collarTx, s.pair.role, s.pair.switching, hpair, hn.1, hn.2⟩, hcore⟩

/-- SOLO as a token record has it: the pair's SOLO and, for the active, where its cycles go (R545, R546). -/
theorem tokenSolo_only (s : State) (t : Token) : ∃ c v g, tokenSolo s t = { s with
    commit := c, pair := { s.pair with solo := v, soloGap := g } } ∧ c.base = s.commit.base := by
  unfold tokenSolo
  split
  · split
    · exact ⟨_, true, s.pair.soloGap, rfl, rfl⟩
    · exact ⟨s.commit, _, _, rfl, rfl⟩
  · exact ⟨s.commit, _, _, rfl, rfl⟩

/-- The pair as a valid token record has it, before the token is held or lost (R551, R554). -/
def tokenNoted (s : State) (k : Token) : State :=
  (tokenSolo s k).modPair (fun p => { p with
    tokenSeq := k.seq, tokenEpoch := max p.tokenEpoch k.epoch, tokenActive := k.active, race := p.race && decide (k.epoch ≤ p.raceEpoch) })

theorem acceptToken_eq (s : State) (k : Token) : acceptToken s k = noteEligible s (holdToken (tokenNoted s k) (k.active == s.member)) := rfl

theorem tokenRecord_valid {s : State} {key record : Bytes} (hk : s.pair.arbKey = some key) (hl : record.length = 48) (hp : s.paired = true)
    (hm : (tokenOf key record).macOk = true) (hid : (tokenOf key record).pairId = s.pairId) (hs : s.pair.tokenSeq < (tokenOf key record).seq)
    (hst : 1 ≤ s.power.stopPoint) : exec (.tokenRecordReceive record) s = .next (acceptToken s (tokenOf key record)) := by
  rw [dispatch_tokenRecordReceive, execTokenRecordReceive]
  simp only [hk]
  rw [if_pos hl, tokenRecord, if_pos (by simp [hp, hk, hm, hid, hs, hst])]

theorem tokenRecord_invalid {s : State} {key record : Bytes} (hk : s.pair.arbKey = some key)
    (h : record.length ≠ 48 ∨ (tokenOf key record).macOk = false ∨ (tokenOf key record).seq ≤ s.pair.tokenSeq) :
    exec (.tokenRecordReceive record) s = .next s := by
  rw [dispatch_tokenRecordReceive, execTokenRecordReceive]
  simp only [hk]
  split
  · next hl =>
    rw [tokenRecord, if_neg]
    rcases h with h | h | h
    · exact absurd hl h
    · simp [h]
    · simp [Nat.not_lt.2 h]
  · rfl

/-! ### Heartbeats -/

/-- A member numbers and keeps the heartbeat it sends (R549). -/
theorem heartbeatSend_sends {s : State} {k : Bytes} (hk : s.pair.arbKey = some k) (hp : s.paired = true) : ∃ t,
    exec .heartbeatSend s = .next t ∧
      t.pair = { s.pair with hbSeq := s.pair.hbSeq + 1, hbLast := heartbeatRecord s k (s.pair.hbSeq + 1) } ∧
      t.keys = s.keys ∧ t.commit = s.commit ∧ t.rings = s.rings := by
  have hsend : ∀ u : State, SendOnly u (if s.odNat 0x7100 4 = 0xFFFF then u
      else sendTo u (s.odNat 0x7100 4 % 1024) 2 (heartbeatRecord s k (s.pair.hbSeq + 1))) := fun u => by
    split
    · exact .refl u
    · exact .sendTo u _ _ _
  have hlink : ∀ u : State, SendOnly u (if u.portUp 4 then sendLink u 4 2 (heartbeatRecord s k (s.pair.hbSeq + 1)) else u) := fun u => by
    split
    · exact .sendLink u _ _ _
    · exact .refl u
  obtain ⟨m, f, h⟩ := (hsend (s.modPair (fun p => { p with
    hbSeq := s.pair.hbSeq + 1, hbLast := heartbeatRecord s k (s.pair.hbSeq + 1) }))).trans (hlink _)
  rw [dispatch_heartbeatSend, execHeartbeatSend]
  split
  · next hn => cases hk.symm.trans hn
  · next k' hk' =>
    cases hk.symm.trans hk'
    rw [if_neg (by simp [hp])]
    dsimp only
    rw [h]
    exact ⟨_, rfl, rfl, rfl, rfl, rfl⟩

/-! ### The referee -/

/-- What a member is known by, in a referee (R550). -/
theorem Referee.next_watch (r : Referee) (race : Bool) (m : Nat) : (r.next race).watch m = r.watch m := by
  unfold Referee.watch Referee.next
  rfl

theorem decideToken_decides (s : State) (pair : Nat) (r : Referee) (race : Bool) :
    (decideToken s pair r race).referee pair = r.next race ∧ (∃ b, (decideToken s pair r race).bus.records = s.bus.records ++ [(pair, b)]) ∧
      (decideToken s pair r race).pair.role = s.pair.role ∧ (decideToken s pair r race).keys = s.keys :=
  ⟨tgetD_tset_self .., ⟨_, rfl⟩, rfl, rfl⟩

/-- The referee with what it now knows of one member. -/
def Referee.noted (r : Referee) (m : Nat) (w : Watched) : Referee := if m = 0 then { r with a := w } else { r with b := w }

theorem Referee.noted_watch (r : Referee) (m : Nat) (w : Watched) : (r.noted m w).watch m = w := by
  unfold Referee.noted Referee.watch
  split <;> rfl

theorem refereeHears_fresh {s : State} {h : Heartbeat} (hf : ∀ o, ((s.referee h.pairId).watch h.member).hb = some o → o.seq < h.seq) :
    ∃ race, refereeHears s h = decideToken s h.pairId
      ((s.referee h.pairId).noted h.member ⟨true, some h, max ((s.referee h.pairId).watch h.member).highest h.cycle⟩) race := by
  refine ⟨bit h.flags 3 && decide ((s.referee h.pairId).epoch ≤ h.tokenEpoch), ?_⟩
  unfold refereeHears
  dsimp only
  rw [if_neg]
  · unfold Referee.noted
    split <;> rfl
  · cases hb : ((s.referee h.pairId).watch h.member).hb with
    | none => simp
    | some o => simp [hf o hb]

/-! ### Claims and switchovers -/

/-- A new holder continues from the history the other member left (R556). -/
theorem takeOver_only (s : State) : ∃ l, takeOver s = { s with
    resv := [], atcResv := [], log := l
    commit := { s.commit with cycle := s.commit.applied, cycles := [], pages := s.commit.pages.filter (fun p => p.cycle == 0) }
    pair := { s.pair with takeover := [s.pair.tokenEpoch, s.commit.applied, s.commit.seq + 1], foreign := false } } := by
  obtain ⟨l, h⟩ := logMain_only (State.modPair { s with
    resv := [], atcResv := []
    commit := { s.commit with cycle := s.commit.applied, cycles := [], pages := s.commit.pages.filter (fun p => p.cycle == 0) } }
    (fun p => { p with takeover := [s.pair.tokenEpoch, s.commit.applied, s.commit.seq + 1], foreign := false })) 5 0x0B00 0x0B01 0xFF 0
    (leBytes 8 s.pair.tokenEpoch ++ leBytes 8 s.commit.applied ++ leBytes 6 (s.commit.seq + 1))
  exact ⟨l, h⟩

/-- Every ring's waiting work ended before the collar is handed over (R560). -/
def handoverCut (t : State) : State := (tkeys t.rings).foldl (fun u rid => cutRing u .handover rid) t

theorem handoverCut_cut (t : State) : CutOnly t (handoverCut t) := CutOnly.fold (fun _ rid => CutOnly.cutRing (k := .handover) rfl rid) _ t

theorem switchoverWrite_begins {s t : State} {rq : Req} {grant : Bytes} {use : List Change} (ht : Taken s rq 0x7100 6 (writeOp false grant) t)
    (hg : Granted t rq false 10 0 (leBytes 1 1) grant use) (hr : t.pair.role = 3) (hp : t.partnerEligible = true) (hs : t.pair.switching = none) :
    switchoverWrite rq 1 grant s = acceptUse (handoverCut (t.modPair (fun p => { p with switching := some rq }))) rq 0x7100 6
      (writeOp false grant) [] use := by
  rw [switchoverWrite, grantWrite_taken _ ht hg (by simp [boolCheck, hr, hp, hs]), if_neg (by decide)]
  rfl

end Sys2Proof.Machine

/-- Settles O48: a heartbeat sent, heard and counted, and the token by the record that gives or takes it. -/
theorem heartbeatsAndToken : Obligations.HeartbeatsAndToken := by
  unfold Obligations.HeartbeatsAndToken
  refine ⟨fun k s hk hp => ?_, fun h s hm hmem hid hst => ⟨fun hs hne => ?_, fun hs hf => ?_⟩, fun h s hm => ?_, fun pair r m s hr hm => ?_,
    fun record key k s hk hl he hp hm hid hseq hst => ?_, fun record key s hk h => tokenRecord_invalid hk h, fun s => ⟨fun h => ?_, fun h => ?_, fun h => ?_⟩,
    fun point sig ok s hst hp hd => ⟨fun hsig => ?_, fun hsig => ?_⟩⟩
  · exact heartbeatSend_sends hk hp
  · rw [dispatch_heartbeatReceive, execHeartbeatReceive, if_neg (by simp [hm, hid, hst]; omega), if_neg (not_not.2 hs), if_neg hne]
    exact ⟨_, rfl, rfl, rfl, rfl, rfl, rfl⟩
  · rw [dispatch_heartbeatReceive, execHeartbeatReceive, if_neg (by simp [hm, hid, hst]; omega), if_pos hs]
    obtain ⟨race, hears⟩ := refereeHears_fresh hf
    rw [hears]
    obtain ⟨href, hrec, hrole, hkeys⟩ := decideToken_decides s h.pairId
      ((s.referee h.pairId).noted h.member ⟨true, some h, max ((s.referee h.pairId).watch h.member).highest h.cycle⟩) race
    refine ⟨_, rfl, ?_, ?_, hrec, hrole, hkeys⟩
    · rw [href, Referee.next_watch, Referee.noted_watch]
    · rw [href, Referee.next_watch, Referee.noted_watch]
  · rw [dispatch_heartbeatReceive, execHeartbeatReceive, if_pos (by simp [hm])]
  · rw [dispatch_arbiterHeartbeatTimeout, execArbiterHeartbeatTimeout]
    simp only [hr]
    rw [if_neg (Nat.not_lt.2 hm)]
    split
    · next h0 =>
      subst h0
      obtain ⟨href, hrec, -, hkeys⟩ := decideToken_decides s pair { r with a := { r.a with alive := false } } false
      exact ⟨_, rfl, by rw [href, Referee.next_watch]; rfl, by rw [href, Referee.next_watch]; rfl, hrec, hkeys⟩
    · next h0 =>
      obtain rfl : m = 1 := by omega
      obtain ⟨href, hrec, -, hkeys⟩ := decideToken_decides s pair { r with b := { r.b with alive := false } } false
      exact ⟨_, rfl, by rw [href, Referee.next_watch]; rfl, by rw [href, Referee.next_watch]; rfl, hrec, hkeys⟩
  · subst he
    rw [tokenRecord_valid hk hl hp hm hid hseq hst, acceptToken_eq]
    obtain ⟨c, v, g, hsolo, hbase⟩ := tokenSolo_only s (tokenOf key record)
    refine ⟨fun ha => ?_, fun ha hheld => ?_⟩
    · rw [show ((tokenOf key record).active == s.member) = true by simp [ha]]
      obtain ⟨e, hh⟩ := holdToken_gains (tokenNoted s (tokenOf key record))
      obtain ⟨e', he'⟩ := noteEligible_only s (holdToken (tokenNoted s (tokenOf key record)) true)
      rw [he', hh, tokenNoted, hsolo]
      exact ⟨_, rfl, rfl, rfl, rfl, rfl, rfl, rfl⟩
    · rw [show ((tokenOf key record).active == s.member) = false by simp [ha]]
      have hheld' : (tokenNoted s (tokenOf key record)).pair.tokenHeld = true := by rw [tokenNoted, hsolo]; exact hheld
      obtain ⟨hcol, ⟨c', r', w', hpair, h2, h3⟩, -⟩ := holdToken_loses hheld'
      obtain ⟨e', he'⟩ := noteEligible_only s (holdToken (tokenNoted s (tokenOf key record)) false)
      rw [he']
      refine ⟨_, rfl, by rw [hpair], ?_, by rw [hpair]; exact h2, by rw [hpair]; exact h3, ?_, ?_⟩
      · rw [hpair, tokenNoted, hsolo]
        rfl
      · obtain ⟨_, _, _, _, _, _, _, _, _, _, _, hc⟩ := hcol
        rw [hc, tokenNoted, hsolo]
        rfl
      · obtain ⟨_, _, _, _, _, _, _, _, _, _, _, hc⟩ := hcol
        rw [hc, tokenNoted, hsolo]
        exact hbase
  · obtain ⟨hcol, ⟨c, r, w, hpair, h2, h3⟩, hcore⟩ := holdToken_loses h
    rw [dispatch_tokenLoss, execTokenLoss]
    refine ⟨_, rfl, by rw [hpair], by rw [hpair]; exact h2, by rw [hpair]; exact h3, hcore, ?_⟩
    obtain ⟨_, _, _, _, _, _, _, _, _, _, _, hc⟩ := hcol
    rw [hc]
    exact ⟨rfl, rfl⟩
  · rw [dispatch_tokenLoss, execTokenLoss, holdToken_same h]
  · rw [dispatch_arbSessionTimeout, execArbSessionTimeout, if_neg (by obtain ⟨k, hk⟩ := Option.isSome_iff_exists.1 h; simp [hk])]
    cases hheld : s.pair.tokenHeld with
    | false =>
      rw [holdToken_same (by exact hheld)]
      exact ⟨_, rfl, rfl, hheld, nofun, Nat.le_refl _, rfl⟩
    | true =>
      obtain ⟨hcol, ⟨c, r, w, hpair, h2, h3⟩, -⟩ := holdToken_loses (s := newArbChallenge (s.modPair (fun p => { p with arbKey := none }))) hheld
      refine ⟨_, rfl, by rw [hpair]; rfl, by rw [hpair], fun _ => by rw [hpair]; exact ⟨h2, h3⟩, ?_⟩
      obtain ⟨_, _, _, _, _, _, _, _, _, _, _, hc⟩ := hcol
      rw [hc]
      exact ⟨Nat.le_refl _, rfl⟩
  · rw [dispatch_arbOpen, execArbOpen, if_neg hst, openArbiter, if_pos (by simp [hp, hd, hsig])]
    exact ⟨_, rfl, rfl, rfl, rfl, rfl, rfl⟩
  · rw [dispatch_arbOpen, execArbOpen, if_neg hst, openArbiter, if_neg (by simp [hsig])]

/-- Settles O49: the claim, its end, another line against it, and a switchover by its grant. -/
theorem collarMoves : Obligations.CollarMoves := by
  unfold Obligations.CollarMoves
  refine ⟨fun s => ⟨fun hr ht he hc hra hw hp => ?_, fun h => ?_⟩, fun s hr hc => ⟨fun hf => ?_, fun hf => ?_⟩,
    fun s hrx => ⟨fun h => ?_, fun h2 h3 => ?_⟩, fun s h => ?_, fun rq grant use s t => ⟨fun ht hg hr hpe hsw => ?_, fun ht hg => ?_⟩⟩
  · rw [dispatch_collarClaim, execCollarClaim, if_pos ⟨hr, ht, he, hc, by simp [hra], by simp [hw], by simp [hp]⟩]
    rfl
  · rw [dispatch_collarClaim, execCollarClaim, if_neg]
    rintro ⟨hr, ht, he, hc, -⟩
    rcases h with h | h | h | h
    · exact h hr
    · simp [h] at ht
    · simp [h] at he
    · simp [h] at hc
  · rw [dispatch_claimWindowEnd, execClaimWindowEnd, if_pos ⟨hr, hc⟩]
    dsimp only
    rw [if_neg (by simp [hf])]
    have hcore : s.asleep = false → 1033 ∈ (raise (s.modPair (fun p => { p with role := 3 })) 1033).eic.corePend := fun ha =>
      raise_pends_core rfl ha (by decide)
    obtain ⟨e, he⟩ := raise_only (s.modPair (fun p => { p with role := 3 })) 1033
    refine ⟨_, rfl, ?_, fun ha => noteService_keeps_core (hcore ha), ?_, ?_, ?_⟩
    · rw [noteService_pair, he]
      rfl
    · rw [noteService_commit, he]
      rfl
    · rw [noteService_rings, he]
      rfl
    · rw [noteService_keys, he]
      rfl
  · rw [dispatch_claimWindowEnd, execClaimWindowEnd, if_pos ⟨hr, hc⟩]
    dsimp only
    rw [if_pos hf]
    obtain ⟨l, ht⟩ := takeOver_only s
    rw [ht]
    obtain ⟨e, he⟩ := noteService_only s (raise (State.modPair { s with
      resv := [], atcResv := [], log := l
      commit := { s.commit with cycle := s.commit.applied, cycles := [], pages := s.commit.pages.filter (fun p => p.cycle == 0) }
      pair := { s.pair with takeover := [s.pair.tokenEpoch, s.commit.applied, s.commit.seq + 1], foreign := false } }
      (fun p => { p with role := 3 })) 1033)
    obtain ⟨e', he'⟩ := raise_only (State.modPair { s with
      resv := [], atcResv := [], log := l
      commit := { s.commit with cycle := s.commit.applied, cycles := [], pages := s.commit.pages.filter (fun p => p.cycle == 0) }
      pair := { s.pair with takeover := [s.pair.tokenEpoch, s.commit.applied, s.commit.seq + 1], foreign := false } }
      (fun p => { p with role := 3 })) 1033
    rw [he, he']
    exact ⟨_, rfl, rfl, rfl, rfl, rfl, rfl, rfl, rfl, rfl, rfl⟩
  · rw [dispatch_collarRxAssert, execCollarRxAssert, if_neg (by simp [hrx])]
    dsimp only
    rw [if_pos h]
    obtain ⟨c, r, w, hp, h2, h3, hcf⟩ := dropCollar_pair ((s.modPair (fun p => { p with collarRx := true })).modPair (fun p => { p with
      race := true, raceEpoch := p.tokenEpoch }))
    have hring := dropCollar_ring ((s.modPair (fun p => { p with collarRx := true })).modPair (fun p => { p with
      race := true, raceEpoch := p.tokenEpoch }))
    have hcol := CollarOnly.dropCollar ((s.modPair (fun p => { p with collarRx := true })).modPair (fun p => { p with
      race := true, raceEpoch := p.tokenEpoch }))
    refine ⟨_, rfl, ?_, ?_, ?_, ?_, ?_, fun k => ?_, ?_, ?_⟩
    · rw [noteService_pair, logMain_pair, hp]
      rfl
    · rw [noteService_pair, logMain_pair, hp]
      rfl
    · rw [noteService_pair, logMain_pair, hp]
      exact hcf h
    · rw [noteService_pair, logMain_pair, hp]
      exact h2
    · rw [noteService_pair, logMain_pair, hp]
      exact h3
    · rw [State.ring, noteService_rings, logMain_rings]
      exact hring k
    · rw [noteService_keys, logMain_keys]
      obtain ⟨_, _, _, _, _, _, _, _, _, _, _, hd⟩ := hcol
      rw [hd]
      rfl
    · rw [noteService_commit, logMain_commit]
      obtain ⟨_, _, _, _, _, _, _, _, _, _, _, hd⟩ := hcol
      rw [hd]
      rfl
  · rw [dispatch_collarRxAssert, execCollarRxAssert, if_neg (by simp [hrx])]
    dsimp only
    rw [if_neg (by simp [h2, h3])]
    rfl
  · rw [dispatch_collarRxDeassert, execCollarRxDeassert, if_pos (by simp [h])]
    rfl
  · rw [dispatch_switchover, execSwitchover, switchoverWrite_begins ht hg hr hpe hsw]
    obtain ⟨_, _, _, _, _, _, hcut⟩ := handoverCut_cut (t.modPair (fun p => { p with switching := some rq }))
    obtain ⟨o, e, b, c, ha, -, hbase⟩ := acceptUse_only (handoverCut (t.modPair (fun p => { p with switching := some rq }))) rq 0x7100 6
      (writeOp false grant) [] use
    rw [ha]
    rw [hcut] at hbase ⊢
    exact ⟨_, rfl, rfl, rfl, rfl, hbase⟩
  · rw [dispatch_switchover, execSwitchover, switchoverWrite, grantWrite_taken _ ht hg (by simp [boolCheck]), if_pos rfl]
end

section
open Sys2Proof.Machine

/-! SUPPORT. Cycles applied on the standby, dropped by a member that lost the collar, and kept in vaults (R543 to R548, R557, R561). -/

namespace Sys2Proof.Machine

/-! ### What a committed change leaves of the rings -/

theorem uninstantiate_rings (s : State) (p : Nat) (st : Status) : (uninstantiate s p st).rings = s.rings := by
  refine foldl_rel (P := fun a b : State => b.rings = a.rings) (fun _ => rfl) (fun _ _ _ h h' => h'.trans h) _ (fun t e => ?_)
    (s.adm.slots.filter (fun e => e.2.part == p)) s
  split
  · rfl
  · split
    · exact ((HeldOnly.failChain t _).trans (.finish _ _ _ _)).rings
    · split
      · exact (HeldOnly.modSlot t _ _).rings
      · rfl

theorem withCommit_rings (s : State) (c : Commit) : ({ s with commit := c } : State).rings = s.rings := rfl

theorem applyChange_rings (seq : Nat) (s : State) (c : Change) : (applyChange seq s c).rings = s.rings := by
  cases c with
  | record slot r =>
    unfold applyChange
    dsimp only
    split <;> rfl
  | recordFree slot =>
    change (freeRecord s slot).rings = _
    unfold freeRecord
    split <;> rfl
  | large => rfl
  | largeFree => rfl
  | revoke slot =>
    unfold applyChange
    dsimp only
    split
    · rfl
    · split
      · rfl
      · split <;> rfl
  | lineageFree i =>
    change (freeLineage s i).rings = _
    unfold freeLineage
    dsimp only
    split <;> rfl
  | restrict => rfl
  | counter => rfl
  | atc => rfl
  | atcTable => rfl
  | grant => rfl
  | grantUse => rfl
  | od idx sub v =>
    change (commitOd s idx sub v).rings = _
    unfold commitOd
    obtain ⟨_, _, _, _, _, h⟩ := odEffect_only { s.odSet idx sub v with od := { (s.odSet idx sub v).od with
      change := tset (s.odSet idx sub v).od.change (odKey idx sub) (tgetD (s.odSet idx sub v).od.change (odKey idx sub) 0 + 1) } } idx sub
    dsimp only
    rw [h]
    rfl
  | partCreate => rfl
  | partDestroy p =>
    change (freePages (dropCache (uninstantiate _ p .notActive) _) _).rings = s.rings
    unfold freePages dropCache
    rw [uninstantiate_rings]
    exact (HeldOnly.closeSessions _ _).rings
  | sealSet => rfl
  | creation => rfl
  | log => exact withCommit_rings s _
  | checkFail => rfl
  | migration st =>
    unfold applyChange
    dsimp only
    split
    · rfl
    · rw [raise_rings, logMain_rings]
  | manifest => rfl
  | logClear =>
    change (clearLog s _).rings = s.rings
    unfold clearLog
    dsimp only
    exact logMain_rings s 6 0x0D00 0x0D01 0xFF 0 _

/-! ### Applying cycles -/

/-- Between two states replicated changes were applied: the machine stands, and its rings (R539, R543). -/
def Applied (s t : State) : Prop := Unmoved s t ∧ t.rings = s.rings

namespace Applied

theorem refl (s : State) : Applied s s := ⟨.refl s, rfl⟩

theorem trans {a b c : State} (h : Applied a b) (h' : Applied b c) : Applied a c := ⟨h.1.trans h'.1, h'.2.trans h.2⟩

theorem fold {α : Type} {g : State → α → State} (hg : ∀ t a, Applied t (g t a)) (l : List α) (s : State) : Applied s (l.foldl g s) :=
  foldl_rel refl (fun _ _ _ => trans) g hg l s

theorem applyChange (seq : Nat) (s : State) (c : Change) : Applied s (applyChange seq s c) := ⟨.applyChange seq s c, applyChange_rings seq s c⟩

theorem applyForeign (seq : Nat) (s : State) (c : Change) : Applied s (applyForeign seq s c) := by
  unfold Machine.applyForeign
  split
  · split
    · exact refl s
    · exact ⟨.modPart s _ _, rfl⟩
  · exact applyChange seq s _
  · exact applyChange seq s _
  · exact applyChange seq s _

theorem applyCommits (l : List (List Change)) (seq : Nat) (s : State) : Applied s (applyCommits seq s l) := by
  induction l generalizing seq s with
  | nil => exact refl s
  | cons c l ih => exact (fold (fun t c => applyForeign seq t c) _ s).trans (ih _ _)

theorem applyBoth (s : State) (seq : Nat) (l : List (List Change)) : Applied s (applyBoth s seq l) := by
  have h := applyCommits l seq s
  refine h.trans ⟨(Unmoved.setCommit _ { (Machine.applyCommits seq s l).commit with
    base := persistOf (Machine.applyCommits seq (withPersist s s.commit.base) l) }).trans (.setKeys _ _), rfl⟩

end Applied

/-- Where the cycles hold no change, the durable state is read out and put back, and no seal is made anew. -/
theorem applyBoth_of_none {s : State} {seq : Nat} {l : List (List Change)} (h : ∀ t, applyCommits seq t l = t) (hr : resealed l = []) :
    (applyBoth s seq l).keys = s.keys ∧ (applyBoth s seq l).parts = s.parts := by
  unfold applyBoth queueTasks
  dsimp only
  rw [hr, h]
  exact ⟨by rw [List.map_nil, List.map_nil, List.append_nil], rfl⟩

theorem applyBoth_nil (s : State) (seq : Nat) : (applyBoth s seq []).keys = s.keys ∧ (applyBoth s seq []).parts = s.parts :=
  applyBoth_of_none (fun _ => rfl) rfl

theorem applyBoth_empty (s : State) (seq : Nat) : (applyBoth s seq [[]]).keys = s.keys ∧ (applyBoth s seq [[]]).parts = s.parts :=
  applyBoth_of_none (fun _ => rfl) rfl

/-- An accepted cycle (R543, R547). -/
theorem applyCycle_applies (s : State) (c : CycleMsg) : (applyCycle s c).commit.applied = c.cycle ∧ (applyCycle s c).commit.cycle = c.cycle ∧
    (applyCycle s c).bus.acks = s.bus.acks ++ [(c.cycle, true)] ∧ (applyCycle s c).rings = s.rings ∧ (applyCycle s c).tamper = s.tamper ∧
    (c.changes = [] → (applyCycle s c).pair.foreign = true ∧ (applyCycle s c).keys = s.keys ∧ (applyCycle s c).parts = s.parts) := by
  obtain ⟨hu, hr⟩ := Applied.applyBoth s c.firstSeq c.changes
  unfold applyCycle
  dsimp only
  refine ⟨?_, ?_, ?_, ?_, ?_, fun hc => ⟨?_, ?_, ?_⟩⟩
  · rw [noteService_commit]
    rfl
  · rw [noteService_commit]
    rfl
  · rw [noteService_bus, State.modPair_bus, hu.bus]
  · rw [noteService_rings]
    exact hr
  · rw [noteService_tamper]
    exact hu.tamper
  · rw [noteService_pair]
    rfl
  · rw [noteService_keys, hc]
    exact (applyBoth_nil s c.firstSeq).1
  · rw [noteService_parts, hc]
    exact (applyBoth_nil s c.firstSeq).2

/-! ### Descriptors let go -/

theorem unqueue_adm (s : State) (n : Nat) (u : UnitClass × Nat) : (unqueue s n u).adm = s.adm := by
  unfold unqueue
  split
  · rfl
  · rfl
  · unfold startEngine
    split
    · rfl
    · split
      · rfl
      · split <;> rfl
  · rfl

theorem release_slot (s : State) (n m : Nat) : (release s n).slot m = if m = n then none else s.slot m := by
  unfold release
  split
  · next h =>
    split
    · next hm => rw [hm, h]
    · rfl
  · next x hx =>
    have hpages : ∀ (l : List PageUse) (t : State), (l.foldl unusePage t).adm = t.adm := fun l t =>
      foldl_rel (P := fun a b : State => b.adm = a.adm) (fun _ => rfl) (fun _ _ _ h h' => h'.trans h) _
        (fun t u => by unfold unusePage; split <;> rfl) l t
    have hres : ∀ (t : State) (r : Nat), (unreserve t r).adm = t.adm := fun t r => by
      unfold unreserve
      split
      · rfl
      · split <;> rfl
    have hadm : (match x.resvd with
        | none => x.pages.foldl unusePage (match x.unit with
          | none => s
          | some u => unqueue s n u)
        | some r => unreserve (x.pages.foldl unusePage (match x.unit with
          | none => s
          | some u => unqueue s n u)) r).adm = s.adm := by
      cases x.resvd with
      | none =>
        dsimp only
        rw [hpages]
        cases x.unit with
        | none => rfl
        | some u => exact unqueue_adm s n u
      | some r =>
        dsimp only
        rw [hres, hpages]
        cases x.unit with
        | none => rfl
        | some u => exact unqueue_adm s n u
    dsimp only
    rw [State.slot]
    dsimp only
    rw [tget_terase]
    split
    · rfl
    · exact congrArg (fun a : Admission => tget a.slots m) hadm

/-- A descriptor let go: its slot is empty, no other fills, and only the work and the replay indices move (R557). -/
theorem dropUnwritten_drops (s : State) (n : Nat) : (dropUnwritten s n).slot n = none ∧
    (∀ m, s.slot m = none → (dropUnwritten s n).slot m = none) ∧
    ∃ a r u v c e, dropUnwritten s n = { s with adm := a, rings := r, units := u, resv := v, atcResv := c, entropy := e } := by
  unfold dropUnwritten
  split
  · next h => exact ⟨h, fun _ => id, s.adm, s.rings, s.units, s.resv, s.atcResv, s.entropy, rfl⟩
  · next x hx =>
    obtain ⟨r, hr, -⟩ := noteReplay_only (release s n) x.rid
    obtain ⟨_, _, _, _, _, hh⟩ := HeldOnly.release s n
    have hs : ∀ m, (noteReplay (release s n) x.rid).slot m = if m = n then none else s.slot m := fun m => by
      rw [hr]
      exact release_slot s n m
    refine ⟨by rw [hs, if_pos rfl], fun m hm => ?_, ?_⟩
    · rw [hs]
      split
      · rfl
      · exact hm
    · rw [hr, hh]
      exact ⟨_, _, _, _, _, _, rfl⟩

theorem foldl_dropUnwritten_only (l : List Nat) (s : State) :
    ∃ a r u v c e, l.foldl dropUnwritten s = { s with adm := a, rings := r, units := u, resv := v, atcResv := c, entropy := e } := by
  refine foldl_rel (P := fun a b : State => ∃ ad r u v c e, b = { a with adm := ad, rings := r, units := u, resv := v, atcResv := c, entropy := e })
    (fun a => ⟨a.adm, a.rings, a.units, a.resv, a.atcResv, a.entropy, rfl⟩) ?_ _ (fun t n => (dropUnwritten_drops t n).2.2) l s
  rintro a b c ⟨_, _, _, _, _, _, rfl⟩ ⟨_, _, _, _, _, _, rfl⟩
  exact ⟨_, _, _, _, _, _, rfl⟩

theorem foldl_dropUnwritten_slot {l : List Nat} {n : Nat} (h : n ∈ l) (s : State) : (l.foldl dropUnwritten s).slot n = none :=
  foldl_reaches (I := fun _ => True) (Q := fun t => t.slot n = none) (fun _ _ _ => trivial) (fun t m hq => (dropUnwritten_drops t m).2.1 n hq) h
    (fun t _ => (dropUnwritten_drops t n).1) trivial

/-! ### Resynchronisation -/

/-- A member without withdrawn cycles discards nothing; whatever it discards, none is left (R548). -/
theorem discardOwn_cycles (s : State) : (discardOwn s).commit.cycles = [] := by
  unfold discardOwn
  dsimp only
  split
  · next h => exact List.isEmpty_iff.1 h
  · obtain ⟨_, _, _, _, _, _, h⟩ := foldl_dropUnwritten_only (s.commit.cycles.flatMap (fun c => c.items.flatMap (·.slots)))
      { dropCache (withPersist s s.commit.base) (fun _ _ => true) with commit := { (dropCache (withPersist s s.commit.base) (fun _ _ => true)).commit with
        cycles := [], cycle := s.commit.durableCycle, applied := s.commit.durableCycle, seq := s.commit.durable } }
    rw [h]

theorem discardOwn_none {s : State} (h : s.commit.cycles = []) : discardOwn s = s := by
  unfold discardOwn
  dsimp only
  rw [h]
  rfl

/-- A frame on a link is queued on it. -/
theorem sendLink_queued (s : State) (k cls : Nat) (b : Bytes) : ∃ f, f.cls = cls ∧ f.payload = b ∧ Queued (sendLink s k cls b) k f :=
  ⟨(newFrame s (s.port k).neighbour cls s.timeUs b).1, rfl, rfl, sendOn_queued _ k _⟩

theorem sendTo_beside (s : State) (d cls : Nat) (b : Bytes) : (sendTo s d cls b).pair = s.pair ∧ (sendTo s d cls b).keys = s.keys ∧
    (sendTo s d cls b).parts = s.parts ∧ (sendTo s d cls b).commit = s.commit := by
  obtain ⟨m, f, h⟩ := SendOnly.sendTo s d cls b
  rw [h]
  exact ⟨rfl, rfl, rfl, rfl⟩

theorem tget_emptied {s : State} {ps : List Nat} {k : Nat} {r : KeyRec} (hs : tsorted s.keys.recs = true)
    (h : tget (tfilter s.keys.recs (fun _ r => !ps.contains r.rcd.part)) k = some r) : r.rcd.part ∉ ps ∧ s.rcd k = some r := by
  obtain ⟨hm, hp⟩ := List.mem_filter.1 (mem_of_tget h)
  exact ⟨by simpa using hp, tget_of_mem hs hm⟩

end Sys2Proof.Machine

/-- Settles O50: a cycle applied or refused, one late, one asked for again, a full copy, and a vault's own. -/
theorem standbyCycles : Obligations.StandbyCycles := by
  unfold Obligations.StandbyCycles
  refine ⟨fun c s hp hup hr hs hq => ⟨fun ht hcy hid hn he => ?_, fun hn => ?_⟩, fun c s hf hr => ?_, fun c s hf hr _ => ?_, fun s hf => ?_,
    fun s hp hup hq => ⟨fun hr he => ?_, fun hr => ?_⟩, fun n ps l s hp hup hr hre hq => ?_, fun src p c s ht hq hp hc hsp hv => ?_⟩
  · rw [dispatch_commitCycleReceive, execCommitCycleReceive, if_neg (by simp [hp, hup, hr, hs, hq]), if_pos (by simp [ht, hcy, hid, hn, he])]
    exact ⟨_, rfl, applyCycle_applies s c⟩
  · rw [dispatch_commitCycleReceive, execCommitCycleReceive, if_neg (by simp [hp, hup, hr, hs, hq]), if_neg (by simp [hn])]
    obtain ⟨e, he⟩ := noteService_only s { s.modPair (fun p => { p with gap := true }) with bus := { s.bus with acks := s.bus.acks ++ [(c.cycle, false)] } }
    rw [he]
    exact ⟨_, rfl, rfl, rfl, rfl, rfl, rfl⟩
  · rw [dispatch_cycleAckTimeout, execCycleAckTimeout]
    simp only [hf]
    rw [if_pos hr]
  · rw [dispatch_cycleAckTimeout, execCycleAckTimeout]
    simp only [hf]
    rw [if_neg hr]
    refine ⟨_, rfl, fun i hi n hn => foldl_dropUnwritten_slot (List.mem_flatten.2 ⟨_, List.mem_map.2 ⟨i, hi, rfl⟩, hn⟩) _, ?_⟩
    obtain ⟨_, _, _, _, _, _, h⟩ := foldl_dropUnwritten_only (c.items.map (·.slots)).flatten { s with commit := { s.commit with
      cycles := lmod (fun x => x.cycle == c.cycle) (fun x => { x with late := true }) s.commit.cycles } }
    rw [h]
    exact ⟨rfl, rfl⟩
  · rw [dispatch_cycleAckTimeout, execCycleAckTimeout]
    simp only [hf]
  · rw [dispatch_resyncRequest, execResyncRequest, if_neg (by simp [hp, hup, hq]), if_neg hr, if_neg (by simp [he])]
    dsimp only
    obtain ⟨f, hcls, hpay, hqd⟩ := sendLink_queued ((discardOwn s).modPair (fun p => { p with resync := true, resyncPm := 0 })) 4 5
      (leBytes 8 (discardOwn s).commit.applied)
    obtain ⟨m, fr, hsend⟩ := SendOnly.sendLink ((discardOwn s).modPair (fun p => { p with resync := true, resyncPm := 0 })) 4 5
      (leBytes 8 (discardOwn s).commit.applied)
    refine ⟨_, f, rfl, by rw [hsend]; rfl, hcls, hqd, by rw [hsend]; exact discardOwn_cycles s, fun hc => ?_⟩
    rw [hpay, hsend, discardOwn_none hc]
    exact ⟨rfl, rfl, rfl, rfl⟩
  · rw [dispatch_resyncRequest, execResyncRequest, if_neg (by simp [hp, hup, hq]), if_pos hr]
    exact ⟨_, _, rfl, rfl, rfl, rfl, rfl, rfl⟩
  · rw [dispatch_resyncCopyReceive, execResyncCopyReceive, if_neg (by simp [hp, hup, hr, hre, hq])]
    dsimp only
    obtain ⟨hu, hrings⟩ := Applied.applyBoth (s.withBase (fun b => emptyParts b ps)) s.commit.seq [l]
    refine ⟨_, rfl, ?_, ?_, ?_, ?_, ?_, fun hl hsort k r hk => ?_⟩
    · rw [noteService_commit]
      rfl
    · rw [noteService_commit]
      rfl
    · rw [noteService_rings]
      exact hrings
    · rw [noteService_tamper]
      exact hu.tamper
    · rw [noteService_pair]
      rfl
    · subst hl
      rw [State.rcd, noteService_keys] at hk
      have hkeys := (applyBoth_empty (s.withBase (fun b => emptyParts b ps)) s.commit.seq).1
      exact tget_emptied hsort (hk.symm.trans (congrArg (fun q : Keys => tget q.recs k) hkeys)).symm
  · rw [dispatch_vaultStreamReceive, execVaultStreamReceive]
    dsimp only
    rw [if_neg (by simp [ht, hq, hc, hsp]; omega)]
    refine ⟨_, { c.changes.flatten.foldl (vaultApply p (runsOf p c.changes.flatten)) (tgetD s.pair.vaults (src % 1024 * 256 + p) vault0) with
      cycle := c.cycle }, rfl, ?_⟩
    obtain ⟨hpair, hkeys, hparts, hcommit⟩ := sendTo_beside (queueTasks _ _) (src % 1024) 5 (leBytes 1 p ++ leBytes 8 c.cycle)
    rw [hpair, hkeys, hparts, hcommit]
    refine ⟨tget_tset_self .., rfl, fun hch => ?_, rfl, rfl, rfl, rfl⟩
    rw [hch]
    rfl
end

section
open Sys2Proof.Machine

/-! SUPPORT. Links of the Seam: what a frame sent on one moves, and the loss of service (R514 to R538). -/

namespace Sys2Proof.Machine

/-! ### Frames of one link -/

/-- Frames of link `k` alone were queued and sent: the link stays as it is but for its queues and counters (R520, R522). -/
structure OnLink (k : Nat) (s t : State) : Prop where
  only : ∃ p f, t = { s with seam := { s.seam with ports := p }, bus := { s.bus with frames := f } }
  others : ∀ m, m ≠ k → t.port m = s.port m
  self : ∃ q n w c r, t.port k = { s.port k with linkSeq := q, frames := n, waiting := w, credits := c, replay := (s.port k).replay ++ r }

namespace OnLink

theorem refl (k : Nat) (s : State) : OnLink k s s :=
  ⟨⟨s.seam.ports, s.bus.frames, rfl⟩, fun _ _ => rfl, (s.port k).linkSeq, (s.port k).frames, (s.port k).waiting, (s.port k).credits, [],
    by rw [List.append_nil]⟩

theorem trans {k : Nat} {a b c : State} (h : OnLink k a b) (h' : OnLink k b c) : OnLink k a c := by
  refine ⟨?_, fun m hm => (h'.others m hm).trans (h.others m hm), ?_⟩
  · obtain ⟨_, _, rfl⟩ := h.only
    obtain ⟨_, _, rfl⟩ := h'.only
    exact ⟨_, _, rfl⟩
  · obtain ⟨_, _, _, _, _, h⟩ := h.self
    obtain ⟨_, _, _, _, _, h'⟩ := h'.self
    rw [h', h]
    exact ⟨_, _, _, _, _, by rw [List.append_assoc]⟩

theorem transmit (s : State) (k : Nat) (f : Frame) : OnLink k s (transmit s k f) := by
  refine ⟨⟨_, _, rfl⟩, fun m hm => by rw [transmit_port, if_neg hm], ?_⟩
  rw [transmit_port, if_pos rfl, Port.sent]
  split
  · exact ⟨_, _, _, _, [], by rw [List.append_nil]⟩
  · exact ⟨_, _, _, _, _, rfl⟩

theorem pump (k n : Nat) (s : State) : OnLink k s (pump k n s) := by
  induction n generalizing s with
  | zero => exact refl k s
  | succ n ih =>
    rw [Machine.pump]
    split
    · exact refl k s
    · exact (transmit s k _).trans (ih _)

theorem enqueue (s : State) (k : Nat) (f : Frame) : OnLink k s (s.modPort k (fun p => { p with waiting := p.waiting ++ [f] })) := by
  refine ⟨⟨_, _, rfl⟩, fun m hm => ?_, ?_⟩
  · rw [State.modPort_port, if_neg hm]
  · rw [State.modPort_port, if_pos rfl]
    exact ⟨_, _, _, _, [], by rw [List.append_nil]⟩

theorem sendOn (s : State) (k : Nat) (f : Frame) : OnLink k s (sendOn s k f) := (enqueue s k f).trans (pump k _ _)

end OnLink

/-- A frame sent over a link moves only that link and the counter of its flow. -/
theorem sendLink_port (s : State) (k cls : Nat) (b : Bytes) : (∀ m, m ≠ k → (sendLink s k cls b).port m = s.port m) ∧
    ∃ q n w c r, (sendLink s k cls b).port k =
      { s.port k with linkSeq := q, frames := n, waiting := w, credits := c, replay := (s.port k).replay ++ r } :=
  have h := OnLink.sendOn (newFrame s (s.port k).neighbour cls s.timeUs b).2 k (newFrame s (s.port k).neighbour cls s.timeUs b).1
  ⟨h.others, h.self⟩

/-! ### Quarantine and the Seam -/

theorem loseCollar_seam (s : State) (role : Nat) : (loseCollar s role).seam = s.seam := by
  by_cases h : s.pair.role = 3
  · obtain ⟨-, -, -, -, hm, -⟩ := collarCut_cut { s with pair := { s.pair with collarTx := false, role := role, switching := none } }
    rw [loseCollar_holder role h, raise_seam, hm]
  · rw [loseCollar_other role h]

theorem dropCollar_seam (s : State) : (dropCollar s).seam = s.seam := by
  unfold dropCollar
  split
  · exact loseCollar_seam s s.pair.role
  · rfl

theorem quarantineAs_seam (s : State) (q : Nat) : (quarantineAs s q).seam = { s.seam with quarantine := q } := by
  unfold quarantineAs
  split
  · next h => rw [← h]
  · dsimp only
    rw [noteService_seam, dropCollar_seam, raise_seam, logMain_seam]

/-- A pull asked for leaves the links, the keys and the object dictionary (R527). -/
theorem startPull_only (s : State) (k : Nat) : CollarOnly s (startPull s k) ∧ (startPull s k).seam = { s.seam with pulling := some k, quarantine := 1 } :=
  ⟨(CollarOnly.setSeam s _).trans (.quarantineAs _ 1), quarantineAs_seam _ 1⟩

/-! ### Links up and down -/

/-- The link as it comes up with its neighbour (R516 to R518). -/
def Port.up (p : Port) (pos steps : Nat) (peer key : Bytes) : Port :=
  { port0 with st := 3, peer := fit 12 peer, neighbour := pos, bypassed := steps - 1, retrains := p.retrains, wrapped := false, key := some key,
               credits := [(1, 8), (2, 16), (3, 256), (4, 256), (5, 256)] }

/-- The key of a link from fresh bytes (R518). -/
def State.freshLinkKey (s : State) (peer : Bytes) : Bytes := kdfHmac (draw s 80).1 (ascii "NLM-SEAM") (serial ++ fit 12 peer) 256

/-- A link came up: its port as set, the others as they were, and the key's bytes drawn. -/
structure LinkedUp (s t : State) (k pos steps : Nat) (peer : Bytes) : Prop where
  port : ∃ q n w c r, t.port k = { (s.port k).up pos steps peer (s.freshLinkKey peer) with linkSeq := q, frames := n, waiting := w, credits := c, replay := r }
  credits : s.clustered = false ∨ k = 4 → (t.port k).credits = [(1, 8), (2, 16), (3, 256), (4, 256), (5, 256)]
  others : ∀ m, m ≠ k → t.port m = s.port m
  free : t.free = s.free + 80
  keys : t.keys = s.keys
  od : t.od = s.od

theorem linkUp_links (s : State) (k pos steps : Nat) (peer : Bytes) : LinkedUp s (linkUp s k pos steps peer) k pos steps peer := by
  have hp : ∀ m, (linkUp s k pos steps peer).port m = if m = k then (s.port k).up pos steps peer (s.freshLinkKey peer) else s.port m :=
    fun m => State.modPort_port _ k m _
  refine ⟨⟨0, 0, [], [(1, 8), (2, 16), (3, 256), (4, 256), (5, 256)], [], by rw [hp, if_pos rfl]; rfl⟩, fun _ => by rw [hp, if_pos rfl]; rfl,
    fun m hm => by rw [hp, if_neg hm], rfl, rfl, rfl⟩

/-- Behind the link a message is sent over it, and a pull may be asked for: neither sets the link anew. -/
theorem LinkedUp.after {s t u : State} {k pos steps : Nat} {peer : Bytes} (h : LinkedUp s t k pos steps peer) (hc : s.clustered = true) (hk : k ≠ 4)
    (hs : ∃ q n w c r, u.port k = { t.port k with linkSeq := q, frames := n, waiting := w, credits := c, replay := (t.port k).replay ++ r })
    (ho : ∀ m, m ≠ k → u.port m = t.port m) (hf : u.free = t.free) (hkey : u.keys = t.keys) (hod : u.od = t.od) : LinkedUp s u k pos steps peer := by
  refine ⟨?_, fun h' => absurd h' (by simp [hc, hk]), fun m hm => (ho m hm).trans (h.others m hm), hf.trans h.free, hkey.trans h.keys, hod.trans h.od⟩
  obtain ⟨_, _, _, _, _, ht⟩ := h.port
  obtain ⟨_, _, _, _, _, hu⟩ := hs
  rw [hu, ht]
  exact ⟨_, _, _, _, _, rfl⟩

/-- The message of a link come up in a cluster (R527). -/
theorem announce_links {s t : State} {k pos steps : Nat} {peer b : Bytes} (h : LinkedUp s t k pos steps peer) (hc : s.clustered = true) (hk : k ≠ 4) :
    LinkedUp s (sendLink t k 4 b) k pos steps peer ∧ LinkedUp s (startPull (sendLink t k 4 b) k) k pos steps peer := by
  obtain ⟨ho, hs⟩ := sendLink_port t k 4 b
  obtain ⟨m, f, hsend⟩ := SendOnly.sendLink t k 4 b
  have h1 : LinkedUp s (sendLink t k 4 b) k pos steps peer := h.after hc hk hs ho (by rw [hsend]) (by rw [hsend]) (by rw [hsend])
  obtain ⟨hcollar, hseam⟩ := startPull_only (sendLink t k 4 b) k
  have hport : ∀ m, (startPull (sendLink t k 4 b) k).port m = (sendLink t k 4 b).port m := fun m => by
    rw [State.port, State.port, hseam]
  obtain ⟨_, _, _, _, _, _, _, _, _, _, _, he⟩ := hcollar
  refine ⟨h1, h1.after hc hk ?_ (fun m _ => hport m) (by rw [he]) (by rw [he]) (by rw [he])⟩
  rw [hport]
  exact ⟨_, _, _, _, [], by rw [List.append_nil]⟩

theorem State.clustered_of_od {s t : State} (h : t.od = s.od) : t.clustered = s.clustered := by
  rw [State.clustered, State.odGet, h]
  rfl

theorem noteService_port (b s : State) (m : Nat) : (noteService b s).port m = s.port m := by rw [State.port, noteService_seam, State.port]

/-- A lost link starts its training anew (R519, R538). -/
theorem linkLost_loses {s : State} {k : Nat} (h : s.portUp k = true) :
    (linkLost s k).port k = { port0 with st := 7, retrains := min 255 ((s.port k).retrains + 1) } ∧
    (∀ p, p ≠ k → (linkLost s k).port p = s.port p) ∧ (linkLost s k).keys = s.keys ∧ (linkLost s k).commit = s.commit ∧ (linkLost s k).bus = s.bus := by
  have hp : ∀ m, (linkLost s k).port m = if m = k then { port0 with st := 7, retrains := min 255 ((s.port k).retrains + 1) } else s.port m := by
    intro m
    unfold linkLost
    rw [if_pos h]
    dsimp only
    split
    · rw [noteService_port]
      exact State.modPort_port s k m (fun p => { port0 with st := 7, retrains := min 255 (p.retrains + 1) })
    · exact State.modPort_port s k m _
  refine ⟨by rw [hp, if_pos rfl], fun m hm => by rw [hp, if_neg hm], ?_⟩
  unfold linkLost
  rw [if_pos h]
  dsimp only
  split
  · rw [noteService_keys, noteService_commit, noteService_bus]
    exact ⟨rfl, rfl, rfl⟩
  · exact ⟨rfl, rfl, rfl⟩

/-! ### Frames relayed and sent again -/

/-- The route to a position depends on the grid and on the links that are up (R517). -/
theorem State.routePort_of {s t : State} (hod : t.od = s.od) (hst : ∀ k, (t.port k).st = (s.port k).st) (d : Nat) : t.routePort d = s.routePort d := by
  have hn : ∀ i k, t.odNat i k = s.odNat i k := fun i k => by
    rw [State.odNat, State.odGet, hod]
    rfl
  have hl : ∀ k, t.livePort k = s.livePort k := fun k => by rw [State.livePort, State.portUp, State.portUp, hst, hst]; rfl
  rw [State.routePort, State.columnLeg, State.rowLeg, State.rows, State.cols, State.position, hn, hn]
  simp only [hl]
  rw [State.routePort, State.columnLeg, State.rowLeg, State.rows, State.cols, State.position]

theorem received_port (s : State) (k m : Nat) : (received s k).port m =
    if m = k then { s.port k with linkAck := ((s.port k).linkAck + 1) % 2 ^ 32, frames := (s.port k).frames + 1 } else s.port m :=
  State.modPort_port s k m _

theorem received_st (s : State) (k m : Nat) : ((received s k).port m).st = (s.port m).st := by
  rw [received_port]
  split
  · next h => rw [h]
  · rfl

/-- The stamp of a relayed frame: a time frame's grows by its stay (R533). -/
theorem relayStamp_only (s : State) (p cls stamp : Nat) : ∃ st f, relayStamp s p cls stamp = (st, { s with free := f }) ∧ (cls ≠ 1 → st = stamp) := by
  unfold relayStamp
  split
  · next h => exact ⟨_, _, rfl, fun hn => absurd h hn⟩
  · exact ⟨stamp, s.free, rfl, fun _ => rfl⟩

/-- One frame sent again by its route, if it has one (R523). -/
def resendOne (t : State) (f : Frame) : State := match t.routePort f.dest with
  | none => t
  | some k => sendOn t k f

/-- Frames were sent again over links: only links and the frames out move, and no frame queued is lost. -/
structure Resent (s t : State) : Prop where
  only : ∃ p f, t = { s with seam := { s.seam with ports := p }, bus := { s.bus with frames := f } }
  posts : Posts s t

namespace Resent

theorem refl (s : State) : Resent s s := ⟨⟨s.seam.ports, s.bus.frames, rfl⟩, .refl s⟩

theorem trans {a b c : State} (h : Resent a b) (h' : Resent b c) : Resent a c := by
  refine ⟨?_, h.posts.trans h'.posts⟩
  obtain ⟨_, _, rfl⟩ := h.only
  obtain ⟨_, _, rfl⟩ := h'.only
  exact ⟨_, _, rfl⟩

theorem resendOne (s : State) (f : Frame) : Resent s (resendOne s f) := by
  unfold Machine.resendOne
  split
  · exact refl s
  · next k _ => exact ⟨(OnLink.sendOn s k f).only, .sendOn s k f⟩

theorem fold (l : List Frame) (s : State) : Resent s (l.foldl Machine.resendOne s) := foldl_rel refl (fun _ _ _ => trans) _ resendOne l s

theorem routePort {s t : State} (h : Resent s t) (d : Nat) : t.routePort d = s.routePort d := by
  obtain ⟨_, _, he⟩ := h.only
  exact State.routePort_of (by rw [he]) h.posts.st d

end Resent

theorem foldl_resendOne_queued {l : List Frame} {f : Frame} {k : Nat} {s : State} (hf : f ∈ l) (hr : s.routePort f.dest = some k) :
    Queued (l.foldl resendOne s) k f := by
  refine foldl_reaches (I := fun t => Resent s t) (Q := fun t => Queued t k f) (fun t g h => h.trans (.resendOne t g))
    (fun t g hq => (Resent.resendOne t g).posts.queued k f hq) hf (fun t h => ?_) (.refl s)
  unfold resendOne
  rw [h.routePort, hr]
  exact sendOn_queued t k f

/-! ### Acknowledgements on a link -/

/-- The link behind an acknowledgement: what it acknowledges leaves the replay buffer, and the credits grow (R520, R522). -/
def Port.acked (p : Port) (ack : Nat) (credits : List Nat) : Port :=
  let more (k : Nat) : Nat := min (classCells k) (tgetD p.credits k 0 + credits.getD (k - 1) 0)
  { p with replay := p.replay.filter (fun f => decide (ack < f.linkSeq))
           fails := if (p.replay.filter (fun f => decide (f.linkSeq ≤ ack))).isEmpty then p.fails else 0
           credits := [(1, more 1), (2, more 2), (3, more 3), (4, more 4), (5, more 5)] }

/-- A frame received on the link (R520). -/
def Port.heard (p : Port) : Port := { p with linkAck := (p.linkAck + 1) % 2 ^ 32, frames := p.frames + 1 }

theorem received_self (s : State) (k : Nat) : (received s k).port k = (s.port k).heard := by rw [received_port, if_pos rfl, Port.heard]

theorem received_keeps (s : State) (k : Nat) : (received s k).bus = s.bus ∧ (received s k).keys = s.keys := ⟨rfl, rfl⟩

/-- What an acknowledgement leaves of its link before the frames behind it go out. -/
theorem seamLinkFrame_acks {s : State} {port : Nat} (hup : s.portUp port = true) (ack : Nat) (credits : List Nat) (wrap : Bool) :
    ∃ u, execSeamLinkFrameReceive port ack credits wrap s = .next (pumpAll u port) ∧ u.bus = s.bus ∧ u.keys = s.keys ∧
      u.port port = if wrap then ((s.port port).heard.acked ack credits).heard else (s.port port).heard.acked ack credits := by
  have hacked : ((received s port).modPort port (fun p => (s.port port).heard.acked ack credits)).port port = (s.port port).heard.acked ack credits := by
    rw [State.modPort_port, if_pos rfl]
  unfold execSeamLinkFrameReceive
  rw [if_neg (by simp [hup])]
  dsimp only
  have hmod : (received s port).modPort port (fun q => { q with
      replay := q.replay.filter (fun f => decide (ack < f.linkSeq))
      fails := if ((s.port port).replay.filter (fun f => decide (f.linkSeq ≤ ack))).isEmpty then q.fails else 0
      credits := [(1, min (classCells 1) (tgetD (s.port port).credits 1 0 + credits.getD (1 - 1) 0)),
        (2, min (classCells 2) (tgetD (s.port port).credits 2 0 + credits.getD (2 - 1) 0)),
        (3, min (classCells 3) (tgetD (s.port port).credits 3 0 + credits.getD (3 - 1) 0)),
        (4, min (classCells 4) (tgetD (s.port port).credits 4 0 + credits.getD (4 - 1) 0)),
        (5, min (classCells 5) (tgetD (s.port port).credits 5 0 + credits.getD (5 - 1) 0))] }) =
      (received s port).modPort port (fun p => (s.port port).heard.acked ack credits) := by
    rw [State.modPort, State.modPort, received_self]
    rfl
  rw [hmod]
  cases wrap
  · exact ⟨_, rfl, rfl, rfl, hacked⟩
  · obtain ⟨hbus, hkeys⟩ := received_keeps (((received s port).modPort port (fun p => (s.port port).heard.acked ack credits)).modSeam _) port
    refine ⟨_, rfl, hbus, hkeys, (received_self _ port).trans ?_⟩
    rw [if_pos rfl]
    exact congrArg Port.heard hacked

end Sys2Proof.Machine

/-- Settles O45: a link that comes up, is refused or is lost, and the frames relayed, acknowledged and sent again. -/
theorem seamLinks : Obligations.SeamLinks := by
  unfold Obligations.SeamLinks
  refine ⟨fun port pos pair member cluster ser partner s hp h0 h3 hb => ⟨fun n hg hpair => ?_, fun a b hab => ?_, fun h4 hcl => ?_, fun hno => ?_⟩,
    fun port s hup => ⟨?_, fun q hq => ?_, fun q hq => ?_, fun dest src cls seq stamp b h4 hcls => ?_,
      fun dest src cls hops seq stamp k b h4 hcls hh hd hdp hr => ?_, ?_, ?_, fun ack credits wrap => ?_, fun d => ?_⟩, fun port s => ?_⟩
  · have hlinked : ∃ t, exec (.seamLinkUp port pos pair member cluster ser partner true true) s = .next t ∧ LinkedUp s t port pos n ser := by
      rw [dispatch_seamLinkUp, execSeamLinkUp]
      dsimp only
      rw [if_neg (by simp [h0, h3]; grind), if_neg (by simp)]
      have hlink := linkUp_links s port pos n ser
      by_cases h4 : port = 4
      · obtain ⟨hpartner, rfl⟩ := hpair h4
        subst h4
        rw [if_pos rfl, if_pos hpartner]
        exact ⟨_, rfl, hlink⟩
      · obtain ⟨hcl, hst⟩ := hg (by omega)
        rw [if_neg h4, if_neg (by simp [hcl]), hst]
        dsimp only
        split
        · next hcl =>
          obtain ⟨hs, hpull⟩ := announce_links (b := configMessage none (linkUp s port pos n ser).epoch (linkUp s port pos n ser).digest) hlink
            ((State.clustered_of_od hlink.od).symm.trans hcl) h4
          split
          · exact ⟨_, rfl, hpull⟩
          · exact ⟨_, rfl, hs⟩
        · exact ⟨_, rfl, hlink⟩
    obtain ⟨t, he, hl⟩ := hlinked
    obtain ⟨_, _, _, _, _, ht⟩ := hl.port
    refine ⟨t, he, ?_, ?_, ?_, ?_, ?_, ?_, fun hc => hl.credits (Or.inl hc), hl.others, hl.free, hl.keys, hl.od⟩
    all_goals
      rw [ht]
      rfl
  · rw [dispatch_seamLinkUp, execSeamLinkUp]
    dsimp only
    rw [if_neg (by simp [h0, h3]; grind), if_pos (by simpa [← Bool.not_and] using hab)]
  · rw [dispatch_seamLinkUp, execSeamLinkUp]
    dsimp only
    rw [if_neg (by simp [h0, h3]; grind), if_neg (by simp), if_neg (by omega), if_pos hcl]
  · rw [dispatch_seamLinkUp, execSeamLinkUp]
    dsimp only
    rw [if_neg (by simp [h0, h3]; grind), if_neg (by simp)]
    rcases hno with ⟨h4, hcl, hst⟩ | ⟨rfl, hpartner⟩
    · rw [if_neg (by omega), if_neg (by simp [hcl]), hst]
    · rw [if_pos rfl, if_neg (by simp [hpartner])]
  · exact ⟨_, rfl, linkLost_loses hup⟩
  · rw [dispatch_seamFrameRefused, execSeamFrameRefused, if_neg (by simp [hup]), if_neg (by omega)]
    refine ⟨_, rfl, rfl, ?_, rfl⟩
    exact (State.modPort_port s port port (fun p => { p with fails := p.fails + 1 })).trans (if_pos rfl)
  · rw [dispatch_seamFrameRefused, execSeamFrameRefused, if_neg (by simp [hup]), if_pos hq]
    obtain ⟨h, -, -, -, hbus⟩ := linkLost_loses hup
    exact ⟨_, rfl, by rw [h], hbus⟩
  · rw [dispatch_seamFrameRelay, execSeamFrameRelay, if_neg (by simp [hup]; omega), if_neg (by omega), if_pos (by omega)]
    rfl
  · rw [dispatch_seamFrameRelay, execSeamFrameRelay, if_neg (by simp [hup]; omega), if_neg (by omega), if_neg (by omega)]
    obtain ⟨st, f, he, hst⟩ := relayStamp_only (received s port) port cls stamp
    have hroute : ({ received s port with free := f } : State).routePort dest = some k := by
      rw [← hr]
      exact State.routePort_of (s := s) (t := { received s port with free := f }) rfl (fun m => received_st s port m) dest
    rw [he]
    dsimp only
    rw [if_neg (by omega), if_neg hdp, hroute]
    dsimp only
    obtain ⟨m, fr, hsend⟩ := SendOnly.sendOn { received s port with free := f } k ⟨0, dest, src, cls, hops - 1, 0, 0, seq, st, b⟩
    exact ⟨_, st, rfl, sendOn_queued _ k _, hst, by rw [hsend]; rfl, by rw [hsend]; rfl, by rw [hsend]; rfl⟩
  · rw [dispatch_keepAliveSend, execKeepAliveSend, if_pos hup]
    obtain ⟨m, fr, hsend⟩ := SendOnly.sendLink s port 0 []
    exact ⟨_, (newFrame s (s.port port).neighbour 0 s.timeUs []).1, rfl, rfl, rfl, rfl, sendOn_queued _ port _, by rw [hsend], by rw [hsend]⟩
  · rw [dispatch_seamLinkRekey, execSeamLinkRekey, if_pos hup]
    exact ⟨_, rfl, (State.modPort_port _ port port _).trans (if_pos rfl), rfl, rfl⟩
  · rw [dispatch_seamLinkFrameReceive]
    obtain ⟨u, he, hbus, hkeys, hport⟩ := seamLinkFrame_acks hup ack credits wrap
    obtain ⟨p, f, honly⟩ := (OnLink.pump port (u.port port).waiting.length u).only
    obtain ⟨_, _, _, _, r, hself⟩ := (OnLink.pump port (u.port port).waiting.length u).self
    have hreplay : (u.port port).replay = (s.port port).replay.filter (fun f => decide (ack < f.linkSeq)) := by
      rw [hport]
      cases wrap <;> rfl
    refine ⟨_, he, fun g hg hlt => ?_, fun hw => ?_, ?_, ?_⟩
    · rw [pumpAll, hself]
      refine List.mem_append_left _ ?_
      rw [hreplay]
      exact List.mem_filter.2 ⟨hg, by simpa using hlt⟩
    · have hidle : (u.port port).waiting = [] := by
        rw [hport, ← hw]
        cases wrap <;> rfl
      rw [pumpAll, hidle, List.length_nil, pump]
      exact ⟨hreplay, hbus⟩
    · rw [pumpAll, hself, hport]
      cases wrap
      · rfl
      · exact Nat.mod_add_mod ((s.port port).linkAck + 1) (2 ^ 32) 1
    · rw [pumpAll, honly]
      exact hkeys
  · rw [dispatch_linkDelayMeasure, execLinkDelayMeasure, if_pos hup]
  · rw [dispatch_seamResendTimeout, execSeamResendTimeout]
    change ∃ t, Host.Outcome.next ((s.seam.unacked.filter (fun f => f.port == port)).foldl resendOne s) = .next t ∧ _
    obtain ⟨p, f, honly⟩ := (Resent.fold (s.seam.unacked.filter (fun f => f.port == port)) s).only
    exact ⟨_, rfl, fun f k hf hport hr => foldl_resendOne_queued (List.mem_filter.2 ⟨hf, by simpa using hport⟩) hr, by rw [honly], by rw [honly],
      by rw [honly]⟩
end

section
open Sys2Proof.Machine

/-! SUPPORT. The cluster's configuration: what a change adopted, a pull and a decision set, and what they keep (R524 to R530). -/

namespace Sys2Proof.Machine

/-! ### Numbers stored as bytes -/

theorem leNat_leBytes (n v : Nat) : leNat (leBytes n v) = v % 2 ^ (8 * n) := by
  induction n generalizing v with
  | zero => simp [leBytes, leNat, Nat.mod_one]
  | succ n ih =>
    rw [leBytes, leNat, ih, byteOf, BitVec.toNat_ofNat, show 8 * (n + 1) = 8 + 8 * n by ring, pow_add, Nat.mod_mul]
    rfl

theorem State.epoch_of_get {s : State} {e : Nat} (h : s.odGet 0x7000 6 = leBytes 8 e) : s.epoch = e % 2 ^ 64 := by
  rw [State.epoch, State.odNat, h, leNat_leBytes]

theorem State.epoch_of_store {s t : State} (h : t.od.store = s.od.store) : t.epoch = s.epoch := by
  rw [State.epoch, State.odNat, State.odGet_of_store h]
  rfl

/-! ### What the configuration keeps -/

/-- Between two states the configuration moved: the keys, the tamper state and the life cycle stand (R524). -/
def CfgKept (s t : State) : Prop := t.keys = s.keys ∧ t.tamper = s.tamper ∧ t.life = s.life

namespace CfgKept

theorem refl (s : State) : CfgKept s s := ⟨rfl, rfl, rfl⟩

theorem trans {a b c : State} (h : CfgKept a b) (h' : CfgKept b c) : CfgKept a c :=
  ⟨h'.1.trans h.1, h'.2.1.trans h.2.1, h'.2.2.trans h.2.2⟩

theorem of_collar {s t : State} (h : CollarOnly s t) : CfgKept s t := by
  obtain ⟨_, _, _, _, _, _, _, _, _, _, _, rfl⟩ := h
  exact refl s

theorem of_send {s t : State} (h : SendOnly s t) : CfgKept s t := by
  obtain ⟨_, _, rfl⟩ := h
  exact refl s

theorem acceptUse (s : State) (rq : Req) (idx sub op : Nat) (data : Bytes) (use : List Change) : CfgKept s (acceptUse s rq idx sub op data use) := by
  obtain ⟨_, _, _, _, h, -⟩ := acceptUse_only s rq idx sub op data use
  rw [h]
  exact refl s

theorem adopt (s : State) (idx sub : Nat) (v : Bytes) : CfgKept s (adopt s idx sub v) := by
  unfold Machine.adopt
  obtain ⟨_, _, _, _, _, h⟩ := odEffect_only (s.withBase (fun b => { b with
    store := tset b.store (odKey idx sub) v
    change := tset b.change (odKey idx sub) (tgetD b.change (odKey idx sub) 0 + 1) })) idx sub
  rw [h]
  exact refl s

end CfgKept

/-! ### An entry adopted -/

theorem adopt_store (s : State) (idx sub : Nat) (v : Bytes) : (adopt s idx sub v).od.store = (s.odSet idx sub v).od.store := by
  unfold adopt
  obtain ⟨_, _, _, _, _, h⟩ := odEffect_only (s.withBase (fun b => { b with
    store := tset b.store (odKey idx sub) v
    change := tset b.change (odKey idx sub) (tgetD b.change (odKey idx sub) 0 + 1) })) idx sub
  rw [h]
  rfl

theorem odEffect_seam {s : State} {idx sub : Nat} (h4 : ¬(idx = 0x7000 ∧ sub = 4)) (h1 : ¬(idx = 0x7100 ∧ sub = 1)) : (odEffect s idx sub).seam = s.seam := by
  unfold odEffect
  split
  · rfl
  · rfl

theorem adopt_seam {s : State} {idx sub : Nat} (v : Bytes) (h4 : ¬(idx = 0x7000 ∧ sub = 4)) (h1 : ¬(idx = 0x7100 ∧ sub = 1)) :
    (adopt s idx sub v).seam = s.seam := odEffect_seam h4 h1

/-- A configuration entry is not the epoch's, the ports' or the pair's. -/
theorem isConfig_apart {idx sub : Nat} (h : isConfig idx sub = true) :
    ¬(idx = 0x7000 ∧ sub = 4) ∧ ¬(idx = 0x7100 ∧ sub = 1) ∧ odKey idx sub ≠ odKey 0x7000 6 := by
  simp only [isConfig, Bool.or_eq_true, Bool.and_eq_true, decide_eq_true_eq, beq_iff_eq] at h
  simp only [odKey]
  omega

/-! ### Quarantine and the firmware's version -/

theorem checkVersion_seam (s : State) : ∃ q, (checkVersion s).seam = { s.seam with quarantine := q } ∧
    (q = s.seam.quarantine ∨ (s.seam.quarantine = 0 ∧ q = 3) ∨ (s.seam.quarantine = 3 ∧ q = 0)) := by
  unfold checkVersion
  split
  · next h => exact ⟨3, quarantineAs_seam s 3, Or.inr (Or.inl ⟨h.1, rfl⟩)⟩
  · split
    · next h => exact ⟨0, quarantineAs_seam s 0, Or.inr (Or.inr ⟨h.1, rfl⟩)⟩
    · exact ⟨_, rfl, Or.inl rfl⟩

theorem CollarOnly.store {s t : State} (h : CollarOnly s t) : t.od.store = s.od.store := by
  obtain ⟨_, _, _, _, _, _, _, _, _, _, _, rfl⟩ := h
  rfl

/-! ### A configuration change taken over -/

/-- The entry of a change, adopted (R525). -/
def State.adopted (s : State) : Option (Nat × Nat × Bytes) → State
  | none => s
  | some (i, k, v) => adopt s i k v

/-- What the change's entry names is a configuration entry (R525). -/
def ConfigOnly (e : Option (Nat × Nat × Bytes)) : Prop := ∀ i k v, e = some (i, k, v) → isConfig i k = true

theorem State.adopted_kept (s : State) {e : Option (Nat × Nat × Bytes)} (he : ConfigOnly e) : CfgKept s (s.adopted e) ∧ (s.adopted e).seam = s.seam ∧
    ∀ i k v, e = some (i, k, v) → (s.adopted e).od.store = (s.odSet i k v).od.store := by
  rcases e with _ | ⟨i, k, v⟩
  · exact ⟨.refl s, rfl, nofun⟩
  · obtain ⟨h4, h1, -⟩ := isConfig_apart (he i k v rfl)
    refine ⟨.adopt s i k v, adopt_seam v h4 h1, ?_⟩
    rintro _ _ _ ⟨rfl⟩
    exact adopt_store s i k v

/-- The state with a change and its epoch adopted, and the change noted (R525). -/
def State.tookEpoch (s : State) (e : Option (Nat × Nat × Bytes)) (n : Nat) : State := raise (adopt (s.adopted e) 0x7000 6 (leBytes 8 n)) 1035

theorem State.tookEpoch_takes (s : State) {e : Option (Nat × Nat × Bytes)} (n : Nat) (he : ConfigOnly e) :
    CfgKept s (s.tookEpoch e n) ∧ (s.tookEpoch e n).seam = s.seam ∧ (s.tookEpoch e n).epoch = n % 2 ^ 64 ∧
      ∀ i k v, e = some (i, k, v) → (s.tookEpoch e n).odGet i k = v := by
  obtain ⟨hk, hm, hs⟩ := s.adopted_kept he
  have hod : (s.tookEpoch e n).od.store = ((s.adopted e).odSet 0x7000 6 (leBytes 8 n)).od.store := by
    rw [State.tookEpoch, raise_od]
    exact adopt_store ..
  refine ⟨(hk.trans (.adopt _ _ _ _)).trans (.of_collar (.raise _ _)), ?_, ?_, fun i k v hi => ?_⟩
  · rw [State.tookEpoch, raise_seam]
    exact (adopt_seam _ (by omega) (by omega)).trans hm
  · refine State.epoch_of_get ?_
    rw [State.odGet_of_store hod, State.odSet_odGet, if_pos rfl]
  · rw [State.odGet_of_store hod, State.odSet_odGet, if_neg (isConfig_apart (he i k v hi)).2.2, State.odGet_of_store (hs i k v hi), State.odSet_odGet,
      if_pos rfl]

theorem stepEpoch_eq (s : State) (e : Option (Nat × Nat × Bytes)) : stepEpoch s e =
    broadcast (checkVersion (s.tookEpoch e (s.epoch + 1))) 4 (s.tookEpoch e (s.epoch + 1)).timeUs
      (configMessage e (s.tookEpoch e (s.epoch + 1)).epoch (s.tookEpoch e (s.epoch + 1)).digest) := by
  rcases e with _ | ⟨i, k, v⟩ <;> rfl

/-- A change committed by the acting master: its entry, the next epoch, and the broadcast of both (R525). -/
theorem stepEpoch_steps (s : State) {e : Option (Nat × Nat × Bytes)} (he : ConfigOnly e) :
    CfgKept s (stepEpoch s e) ∧ (stepEpoch s e).epoch = (s.epoch + 1) % 2 ^ 64 ∧ (stepEpoch s e).seam.conflict = s.seam.conflict ∧
      (s.seam.quarantine = 0 → (stepEpoch s e).seam.quarantine = 0 ∨ (stepEpoch s e).seam.quarantine = 3) ∧
      ∀ i k v, e = some (i, k, v) → (stepEpoch s e).odGet i k = v := by
  obtain ⟨hk, hm, hn, hg⟩ := s.tookEpoch_takes (s.epoch + 1) he
  have hv := CollarOnly.checkVersion (s.tookEpoch e (s.epoch + 1))
  obtain ⟨q, hq, hor⟩ := checkVersion_seam (s.tookEpoch e (s.epoch + 1))
  have hp := Posts.broadcast (checkVersion (s.tookEpoch e (s.epoch + 1))) 4 (s.tookEpoch e (s.epoch + 1)).timeUs
    (configMessage e (s.tookEpoch e (s.epoch + 1)).epoch (s.tookEpoch e (s.epoch + 1)).digest)
  have hkept := (hk.trans (.of_collar hv)).trans (.of_send hp.sendOnly)
  obtain ⟨_, _, _, _, _, ho⟩ := hp.only
  rw [← stepEpoch_eq] at hkept ho
  have hstore : (stepEpoch s e).od.store = (s.tookEpoch e (s.epoch + 1)).od.store := by
    rw [ho]
    exact hv.store
  refine ⟨hkept, (State.epoch_of_store hstore).trans hn, ?_, fun h0 => ?_, fun i k v hi => (State.odGet_of_store hstore i k).trans (hg i k v hi)⟩
  · rw [ho]
    dsimp only
    rw [hq, hm]
  · rw [ho]
    dsimp only
    rw [hq]
    rw [hm] at hor
    dsimp only
    omega

/-! ### A granted configuration write -/

theorem grantConfig_puts {s t : State} {rq : Req} {idx sub cls : Nat} {v grant : Bytes} {use : List Change} {check : State → Option Status}
    (ht : Taken s rq idx sub (writeOp false grant) t) (hg : Granted t rq false cls 0 v grant use) (hi : idx ≠ 0x7001) (hq : t.seam.quarantine = 0)
    (hc : check t = none) : grantConfig s rq idx sub cls v grant check = configPut t rq idx sub (writeOp false grant) v use := by
  have hclock : (idx == 0x7001) = false := beq_eq_false_iff_ne.2 hi
  rw [grantConfig, grantWrite_taken _ ht (hclock.symm ▸ hg) (by rw [if_neg (not_not.2 hq), hc])]

/-- The acting master commits the write under the next epoch; any other module keeps its writer waiting (R524, R525). -/
theorem configPut_puts (s : State) (rq : Req) {idx sub : Nat} (op : Nat) (v : Bytes) (use : List Change) (hc : isConfig idx sub = true) :
    (configPut s rq idx sub op v use).keys = s.keys ∧ (configPut s rq idx sub op v use).tamper = s.tamper ∧
      (s.isMaster = true → (configPut s rq idx sub op v use).odGet idx sub = v ∧ (configPut s rq idx sub op v use).epoch = (s.epoch + 1) % 2 ^ 64) ∧
      (s.isMaster = false → (configPut s rq idx sub op v use).od.store = s.od.store ∧
        (rq, idx, sub, op, v) ∈ (configPut s rq idx sub op v use).od.cfgWait) := by
  unfold configPut
  cases s.isMaster with
  | true =>
    rw [if_pos rfl]
    obtain ⟨hk, he, -, -, hv⟩ := stepEpoch_steps s (e := some (idx, sub, v)) (by rintro _ _ _ ⟨rfl⟩; exact hc)
    obtain ⟨o, e, b, c, ha, hstore, -⟩ := acceptUse_only (stepEpoch s (some (idx, sub, v))) rq idx sub op [] use
    have hst : (acceptUse (stepEpoch s (some (idx, sub, v))) rq idx sub op [] use).od.store = (stepEpoch s (some (idx, sub, v))).od.store := by
      rw [ha]
      exact hstore
    obtain ⟨hkeys, htamper, -⟩ := hk.trans (.acceptUse _ rq idx sub op [] use)
    exact ⟨hkeys, htamper, fun _ => ⟨(State.odGet_of_store hst _ _).trans (hv _ _ _ rfl), (State.epoch_of_store hst).trans he⟩, nofun⟩
  | false =>
    rw [if_neg Bool.false_ne_true]
    obtain ⟨m, f, h⟩ := SendOnly.sendTo (if use.isEmpty then s else commitQuietly s use) s.actingMaster 4 (configMessage (some (idx, sub, v)) 0 [])
    rw [h]
    split <;> exact ⟨rfl, rfl, nofun, fun _ => ⟨rfl, List.mem_append_right _ (List.mem_singleton.2 rfl)⟩⟩

/-! ### Changes received -/

theorem answerWriters_only (s : State) (e : Option (Nat × Nat × Bytes)) : CfgKept s (answerWriters s e) ∧ (answerWriters s e).od.store = s.od.store := by
  unfold answerWriters
  split
  · exact ⟨.refl s, rfl⟩
  · split
    · exact ⟨.refl s, rfl⟩
    · next i k v _ w _ =>
      have hstore := sendReply_store { s with od := { s.od with cfgWait := s.od.cfgWait.erase w } } w.1 i k w.2.2.2.1 0 []
      obtain ⟨o, e, h⟩ := sendReply_only { s with od := { s.od with cfgWait := s.od.cfgWait.erase w } } w.1 i k w.2.2.2.1 0 []
      rw [h] at hstore
      rw [acceptNow, h]
      exact ⟨⟨rfl, rfl, rfl⟩, hstore⟩

/-- The change that follows this module's epoch is taken over; where the digests differ, a pull is asked for (R525, R527). -/
theorem applyNext_applies (s : State) (port : Nat) {c : CfgChange} (he : ConfigOnly c.entry) :
    CfgKept s (applyNext s port c) ∧ (applyNext s port c).epoch = c.epoch % 2 ^ 64 ∧
      ∀ i k v, c.entry = some (i, k, v) → (applyNext s port c).odGet i k = v := by
  obtain ⟨hk, -, hn, hg⟩ := s.tookEpoch_takes c.epoch he
  have htook : applyNext s port c = if (s.tookEpoch c.entry c.epoch).digest = c.digest then
      checkVersion (answerWriters (((s.tookEpoch c.entry c.epoch).upPorts.filter (· != port)).foldl
        (fun u k => sendLink u k 4 (configMessage c.entry c.epoch c.digest)) (s.tookEpoch c.entry c.epoch)) c.entry)
      else startPull (s.tookEpoch c.entry c.epoch) port := by
    unfold applyNext State.tookEpoch State.adopted
    rcases hc : c.entry with _ | ⟨i, k, v⟩
    · rfl
    · dsimp only
      rw [if_pos (he i k v hc)]
  suffices h : CfgKept (s.tookEpoch c.entry c.epoch) (applyNext s port c) ∧ (applyNext s port c).od.store = (s.tookEpoch c.entry c.epoch).od.store from
    ⟨hk.trans h.1, (State.epoch_of_store h.2).trans hn, fun i k v hi => (State.odGet_of_store h.2 i k).trans (hg i k v hi)⟩
  rw [htook]
  split
  · have hs := SendOnly.fold (fun u k => .sendLink u k 4 (configMessage c.entry c.epoch c.digest))
      ((s.tookEpoch c.entry c.epoch).upPorts.filter (· != port)) (s.tookEpoch c.entry c.epoch)
    obtain ⟨ha, hastore⟩ := answerWriters_only (((s.tookEpoch c.entry c.epoch).upPorts.filter (· != port)).foldl
        (fun u k => sendLink u k 4 (configMessage c.entry c.epoch c.digest)) (s.tookEpoch c.entry c.epoch)) c.entry
    refine ⟨((CfgKept.of_send hs).trans ha).trans (.of_collar (.checkVersion _)), (CollarOnly.checkVersion _).store.trans (hastore.trans ?_)⟩
    obtain ⟨_, _, hs⟩ := hs
    rw [hs]
  · exact ⟨.of_collar (startPull_only _ port).1, (startPull_only _ port).1.store⟩

/-! ### A pull that ends -/

/-- Sessions alone are dropped. -/
def SessionsOnly (s t : State) : Prop := ∃ ss, t = { s with od := { s.od with sessions := ss } }

theorem foldl_dropMembers_only (p : Nat → Bool) (l : List Nat) (s : State) :
    SessionsOnly s (l.foldl (fun u m => if p m then u else dropMemberSessions u m) s) := by
  refine foldl_rel (P := SessionsOnly) (fun a => ⟨a.od.sessions, rfl⟩) ?_ _ (fun t m => ?_) l s
  · rintro a b c ⟨_, rfl⟩ ⟨_, rfl⟩
    exact ⟨_, rfl⟩
  · split
    · exact ⟨t.od.sessions, rfl⟩
    · exact ⟨_, rfl⟩

/-- Configuration entries taken over leave the epoch's. -/
theorem foldl_config_epoch {l : List (Nat × Nat × Bytes)} (h : ∀ e ∈ l, isConfig e.1 e.2.1 = true) (m : Tab Bytes) :
    tget (l.foldl (fun m e => tset m (odKey e.1 e.2.1) e.2.2) m) (odKey 0x7000 6) = tget m (odKey 0x7000 6) := by
  induction l generalizing m with
  | nil => rfl
  | cons e l ih =>
    rw [List.foldl_cons, ih (fun x hx => h x (List.mem_cons_of_mem _ hx))]
    exact tget_tset_ne m e.2.2 (isConfig_apart (h e List.mem_cons_self)).2.2.symm

theorem takeConfig_takes (s : State) (e : Nat) (l : List (Nat × Nat × Bytes)) : CfgKept s (takeConfig s e l) ∧ (takeConfig s e l).seam = s.seam ∧
    (takeConfig s e l).epoch = e % 2 ^ 64 := by
  unfold takeConfig
  dsimp only
  obtain ⟨ss, h⟩ := foldl_dropMembers_only
    (fun m => (List.range 4).all (fun k => s.odGet (0x3500 + m) (k + 1) == (s.withBase (fun b => { b with
      store := (l.filter (fun e => isConfig e.1 e.2.1)).foldl (fun m e => tset m (odKey e.1 e.2.1) e.2.2)
        (tset (tfilter b.store (fun k _ => !isConfig (k / 256) (k % 256))) (odKey 0x7000 6) (leBytes 8 e)) })).odGet (0x3500 + m) (k + 1)))
    (List.range 64) (s.withBase (fun b => { b with
      store := (l.filter (fun e => isConfig e.1 e.2.1)).foldl (fun m e => tset m (odKey e.1 e.2.1) e.2.2)
        (tset (tfilter b.store (fun k _ => !isConfig (k / 256) (k % 256))) (odKey 0x7000 6) (leBytes 8 e)) }))
  rw [h]
  refine ⟨⟨rfl, rfl, rfl⟩, rfl, State.epoch_of_get ?_⟩
  have hstore := foldl_config_epoch (l := l.filter (fun e => isConfig e.1 e.2.1)) (fun x hx => (List.mem_filter.1 hx).2)
    (tset (tfilter s.od.store (fun k _ => !isConfig (k / 256) (k % 256))) (odKey 0x7000 6) (leBytes 8 e))
  rw [tget_tset_self] at hstore
  exact congrArg (fun o : Option Bytes => o.getD (odDefault 0x7000 6)) hstore

theorem discardedRecords_only (s t : State) : ∃ l, discardedRecords s t = { t with log := l } := by
  refine foldl_rel (P := fun a b : State => ∃ l, b = { a with log := l }) (fun a => ⟨a.log, rfl⟩) ?_ _ (fun u e => ?_) configEntries t
  · rintro a b c ⟨_, rfl⟩ ⟨_, rfl⟩
    exact ⟨_, rfl⟩
  · split
    · exact ⟨u.log, rfl⟩
    · exact logMain_only ..

/-- Quarantine lifted: it stays so, or the firmware's version takes its place (R527, R530). -/
theorem lifted (s : State) : CollarOnly s (checkVersion (quarantineAs s 0)) ∧
    ∃ q, (checkVersion (quarantineAs s 0)).seam = { s.seam with quarantine := q } ∧ (q = 0 ∨ q = 3) := by
  obtain ⟨q, hq, hor⟩ := checkVersion_seam (quarantineAs s 0)
  rw [quarantineAs_seam] at hq hor
  dsimp only at hor
  exact ⟨(CollarOnly.quarantineAs s 0).trans (.checkVersion _), q, hq, by omega⟩

/-- What a matching pull ends with: links, keys and life cycle as they were (R527). -/
theorem endPull_ends (s : State) : CfgKept s (checkVersion (quarantineAs (raise (s.modSeam (fun m => { m with pulling := none, conflict := false })) 1035) 0)) ∧
    (checkVersion (quarantineAs (raise (s.modSeam (fun m => { m with pulling := none, conflict := false })) 1035) 0)).od.store = s.od.store ∧
    ∃ q, (checkVersion (quarantineAs (raise (s.modSeam (fun m => { m with pulling := none, conflict := false })) 1035) 0)).seam =
      { s.seam with pulling := none, conflict := false, quarantine := q } ∧ (q = 0 ∨ q = 3) := by
  obtain ⟨hc, q, hq, hor⟩ := lifted (raise (s.modSeam (fun m => { m with pulling := none, conflict := false })) 1035)
  have h := ((CollarOnly.setSeam s { s.seam with pulling := none, conflict := false }).trans (.raise _ 1035)).trans hc
  rw [raise_seam] at hq
  exact ⟨.of_collar h, h.store, q, hq, hor⟩

/-- The decision for this module's own digest ends its conflict (R528). -/
theorem settleConflict_settles (s : State) : CfgKept s (settleConflict s) ∧ (settleConflict s).epoch = (s.epoch + 1) % 2 ^ 64 ∧
    (settleConflict s).seam.conflict = false ∧ (settleConflict s).seam.quarantine ≠ 2 := by
  have hc : CollarOnly s (quarantineAs (s.modSeam (fun m => { m with conflict := false })) 0) :=
    (CollarOnly.setSeam s { s.seam with conflict := false }).trans (.quarantineAs _ 0)
  have hm := quarantineAs_seam (s.modSeam (fun m => { m with conflict := false })) 0
  obtain ⟨hk, he, hconf, hq, -⟩ := stepEpoch_steps (quarantineAs (s.modSeam (fun m => { m with conflict := false })) 0) (e := none) nofun
  have hconf' : (quarantineAs (s.modSeam (fun m => { m with conflict := false })) 0).seam.conflict = false := by rw [hm]; rfl
  have hq' := hq (by rw [hm])
  unfold settleConflict
  exact ⟨(CfgKept.of_collar hc).trans hk, by rw [he, State.epoch_of_store hc.store], hconf.trans hconf', by omega⟩

end Sys2Proof.Machine

/-- Settles O47: what a change, a pull and a decision set on a master, on another module, and on one in conflict. -/
theorem clusterConfiguration : Obligations.ClusterConfiguration := by
  unfold Obligations.ClusterConfiguration
  refine ⟨fun rq cls sub v grant use s t ht hg hq hc1 hc12 hs1 hs4 hn hm hh => ?_, fun rq m sub e v grant use s t ht hg hq hm hs1 hs4 he hl hr hsat => ?_,
    fun rq v grant use s t ht hg hq hl => ?_,
    fun port i k v c s hp hup hcl => ⟨fun hi hcfg htr he hb hpull hconf => ?_, fun hi he hb hpull hconf => ?_, fun he => ?_, fun he h0 hd hpull => ?_,
      fun hq => ?_⟩,
    fun e d l s => ⟨fun hpull => ?_, fun he => ?_, fun hpull he hb hd => ?_⟩, fun rq v grant use s t ht hg hl hq => ⟨_, rfl, ?_⟩⟩
  · rw [dispatch_policyWrite, execPolicyWrite, policyWrite]
    dsimp only
    rw [grantConfig_puts ht hg (by omega) hq (by rw [if_pos ⟨hc1, hc12, hs1, hs4⟩, hn]; dsimp only; rw [if_neg (by omega)])]
    exact ⟨_, rfl, configPut_puts t rq _ _ use (by simp [isConfig]; omega)⟩
  · rw [dispatch_memberWrite, execMemberWrite, memberWrite]
    rw [grantConfig_puts ht hg (by omega) hq (by
      rw [if_neg (by omega), he]
      dsimp only
      rw [if_neg (not_not.2 hl), if_neg (fun h => absurd (hr h.1) (by omega)), if_pos hsat])]
    exact ⟨_, rfl, configPut_puts t rq _ _ use (by simp [isConfig]; omega)⟩
  · rw [dispatch_configWrite, execConfigWrite, configEntryWrite, if_neg (by omega), if_neg (by omega), clusterEntryWrite,
      grantConfig_puts ht hg (by omega) hq (by rw [if_neg (by omega), if_neg (by simp [hl]), if_neg (by omega)])]
    exact ⟨_, rfl, configPut_puts t rq _ _ use rfl⟩
  · have hent : ConfigOnly c.entry := by
      rw [hi]
      rintro _ _ _ ⟨rfl⟩
      exact hcfg
    obtain ⟨⟨hkeys, -, hlife⟩, hn, hv⟩ := applyNext_applies s port hent
    rw [dispatch_configChangeReceive, execConfigChangeReceive, if_neg (by simp [hup, hcl]; omega), if_neg (by omega), if_pos (by omega), if_pos (by simp [he, hpull, hconf]),
      if_pos (by rw [hi]; exact htr)]
    exact ⟨_, rfl, hv i k v hi, hn.trans (Nat.mod_eq_of_lt hb), by rw [hkeys], hlife⟩
  · obtain ⟨⟨hkeys, -, hlife⟩, hn, -⟩ := applyNext_applies s port (c := c) (by rw [hi]; nofun)
    rw [dispatch_configChangeReceive, execConfigChangeReceive, if_neg (by simp [hup, hcl]; omega), if_neg (by omega), if_pos (by omega), if_pos (by simp [he, hpull, hconf]),
      if_pos (by rw [hi])]
    exact ⟨_, rfl, hn.trans (Nat.mod_eq_of_lt hb), by rw [hkeys], hlife⟩
  · obtain ⟨hcollar, hseam⟩ := startPull_only s port
    obtain ⟨hkeys, -⟩ := CfgKept.of_collar hcollar
    rw [dispatch_configChangeReceive, execConfigChangeReceive, if_neg (by simp [hup, hcl]; omega), if_neg (by omega), if_pos (by omega), if_neg (by simp; omega)]
    exact ⟨_, rfl, by rw [hseam], by rw [hseam], State.epoch_of_store hcollar.store, by rw [hkeys]⟩
  · have hcollar := (CollarOnly.setSeam s _).trans (.quarantineAs (s.modSeam (fun m => { m with conflict := true })) 2)
    have hseam := quarantineAs_seam (s.modSeam (fun m => { m with conflict := true })) 2
    rw [dispatch_configChangeReceive, execConfigChangeReceive, if_neg (by simp [hup, hcl]; omega), if_neg (by omega), if_neg (by omega), if_neg (by omega),
      if_neg (by simp [hd, hpull])]
    refine ⟨_, rfl, by rw [hseam]; rfl, by rw [hseam], ?_, ?_⟩
    · obtain ⟨_, _, _, _, _, _, _, _, _, _, _, h⟩ := hcollar
      rw [h]
    · rw [(CfgKept.of_collar hcollar).1]
  · obtain ⟨_, _, _, _, _, h⟩ := (Posts.sendLink (s.modSeam (fun m => { m with pulling := some port })) port 4 (leBytes 8 s.epoch)).only
    rw [dispatch_configPull, execConfigPull, if_pos ⟨hq, hp, hup⟩]
    exact ⟨_, rfl, by rw [h]; rfl, by rw [h]; rfl, by rw [h]; rfl⟩
  · rw [dispatch_configPullDone, execConfigPullDone, if_pos (by simp [hpull])]
  · rw [dispatch_configPullDone, execConfigPullDone, if_pos (Or.inr he)]
  · obtain ⟨hk, -, hn⟩ := takeConfig_takes s e l
    have hlog : ∃ g, (if s.seam.conflict then discardedRecords s (takeConfig s e l) else takeConfig s e l) = { takeConfig s e l with log := g } := by
      split
      · exact discardedRecords_only s _
      · exact ⟨(takeConfig s e l).log, rfl⟩
    obtain ⟨g, hg⟩ := hlog
    rw [dispatch_configPullDone, execConfigPullDone, if_neg (by simp [Option.ne_none_iff_isSome, hpull]; omega)]
    dsimp only
    rw [if_neg (not_not.2 hd), hg]
    obtain ⟨⟨hkeys, -, hlife⟩, hstore, q, hseam, hor⟩ := endPull_ends { takeConfig s e l with log := g }
    obtain ⟨hkeys', -, hlife'⟩ := hk
    refine ⟨_, rfl, ?_, by rw [hseam], by rw [hseam], by rw [hseam]; exact hor, by rw [hkeys]; exact congrArg Keys.recs hkeys', hlife.trans hlife'⟩
    exact ((State.epoch_of_store hstore).trans hn).trans (Nat.mod_eq_of_lt hb)
  · rw [decisionWrite, grantWrite_taken _ ht hg (by rw [if_neg (not_not.2 hl), if_neg (not_not.2 hq)])]
    dsimp only
    obtain ⟨o, e, b, c, ha, hstore, -⟩ := acceptUse_only t rq 0x7000 0x0A (writeOp false grant) [] use
    have hst : (acceptUse t rq 0x7000 0x0A (writeOp false grant) [] use).od.store = t.od.store := by
      rw [ha]
      exact hstore
    have hd : (acceptUse t rq 0x7000 0x0A (writeOp false grant) [] use).digest = t.digest := by
      simp only [State.digest, State.odGet_of_store hst]
    have he := State.epoch_of_store hst
    rw [hd]
    split
    · next hv =>
      obtain ⟨⟨hkeys, -⟩, hn, hconf, hq2⟩ := settleConflict_settles (acceptUse t rq 0x7000 0x0A (writeOp false grant) [] use)
      exact ⟨by rw [hkeys, ha], fun _ => ⟨by rw [hn, he], hconf, hq2⟩, fun h => absurd hv h⟩
    · next hv =>
      obtain ⟨_, _, _, _, _, h⟩ := (Posts.fold (fun u k => .sendLink u k 4 (configMessage (some (0x7000, 0x0A, v)) 0 []))
        (acceptUse t rq 0x7000 0x0A (writeOp false grant) [] use).upPorts (acceptUse t rq 0x7000 0x0A (writeOp false grant) [] use)).only
      rw [h]
      refine ⟨by rw [ha], fun h => absurd h hv, fun _ => ⟨he, ?_, hst⟩⟩
      rw [ha]
      exact hq
end

section
open Sys2Proof.Machine

/-! SUPPORT. The entropy block: what the responses to its failure leave of it, and what becomes ready with it (R365 to R371, R384 to R389). -/

namespace Sys2Proof.Machine

/-! ### Work ended without a draw given up -/

theorem ChainOnly.fold {α : Type} {g : State → α → State} (hg : ∀ t a, ChainOnly t (g t a)) (l : List α) (s : State) : ChainOnly s (l.foldl g s) :=
  foldl_rel ChainOnly.refl (fun _ _ _ => ChainOnly.trans) g hg l s

theorem ChainOnly.modEngine (s : State) (n : Nat) (f : Engine → Engine) : ChainOnly s (s.modEngine n f) := ⟨_, _, rfl⟩

theorem ChainOnly.startEngine (s : State) (e : Nat) : ChainOnly s (startEngine s e) := by
  unfold Machine.startEngine
  split
  · exact .refl s
  · split
    · exact .modEngine s _ _
    · split
      · exact .refl s
      · exact .modEngine s _ _

theorem ChainOnly.unqueue (s : State) (n : Nat) (u : UnitClass × Nat) : ChainOnly s (unqueue s n u) := by
  unfold Machine.unqueue
  split
  · exact ⟨_, _, rfl⟩
  · exact ⟨_, _, rfl⟩
  · exact (ChainOnly.modEngine s _ _).trans (.startEngine _ _)
  · exact ⟨_, _, rfl⟩

theorem ChainOnly.abortRaw (s : State) (n : Nat) : ChainOnly s (abortRaw s n) := by
  unfold Machine.abortRaw
  split
  · exact .refl s
  · split
    · exact .refl s
    · refine ChainOnly.trans ?_ (.modSlot _ _ _)
      split
      · exact .refl s
      · exact .failChain s n

theorem ChainOnly.closeSession (s : State) (e : Nat) : ChainOnly s (closeSession s e) := by
  unfold Machine.closeSession
  refine ChainOnly.trans ?_ (.modEngine _ _ _)
  split
  · exact .refl s
  · exact .abortRaw s _

theorem ChainOnly.closeSessions (s : State) (p : Engine → Bool) : ChainOnly s (closeSessions s p) := .fold ChainOnly.closeSession _ s

theorem ChainOnly.finish (s : State) (n : Nat) (st : Status) (d : Nat) : ChainOnly s (finish s n st d) := .modSlot s n _

/-- The entropy block, its pool and its draws stand. -/
def EntropyKept (s t : State) : Prop := t.entropy = s.entropy

namespace EntropyKept

theorem refl (s : State) : EntropyKept s s := Eq.refl _

theorem trans {a b c : State} (h : EntropyKept a b) (h' : EntropyKept b c) : EntropyKept a c := Eq.trans h' h

theorem fold {α : Type} {g : State → α → State} (hg : ∀ t a, EntropyKept t (g t a)) (l : List α) (s : State) : EntropyKept s (l.foldl g s) :=
  foldl_rel refl (fun _ _ _ => trans) g hg l s

theorem of_chain {s t : State} (h : ChainOnly s t) : EntropyKept s t := by
  obtain ⟨_, _, rfl⟩ := h
  exact refl s

theorem raise (s : State) (n : Nat) : EntropyKept s (raise s n) := raise_entropy s n

theorem noteService {a b c : State} (h : EntropyKept a c) : EntropyKept a (noteService b c) := trans h (noteService_entropy c b)

theorem finish (s : State) (n : Nat) (st : Status) (d : Nat) : EntropyKept s (finish s n st d) := of_chain (.finish s n st d)

theorem unqueue_finish (s : State) (n : Nat) (u : UnitClass × Nat) (st : Status) (d : Nat) : EntropyKept s (Machine.finish (unqueue s n u) n st d) :=
  of_chain ((ChainOnly.unqueue s n u).trans (.finish _ n st d))

theorem dropStep_finish (s : State) (n : Nat) (x : Slot) (st : Status) (d : Nat) : EntropyKept s (Machine.finish (dropStep s n x) n st d) := by
  unfold dropStep
  split
  · exact finish s n st d
  · exact unqueue_finish s n _ st d

theorem modSlot (s : State) (n : Nat) (f : Slot → Slot) : EntropyKept s (s.modSlot n f) := of_chain (.modSlot s n f)

theorem withdraw_finish (s : State) (n : Nat) (st : Status) (d : Nat) : EntropyKept s (Machine.finish (withdraw s n) n st d) :=
  trans (b := withdraw s n) (refl s) (finish _ n st d)

/-- A cut that ends what waits gives up no draw: only what is discarded leaves with its draw. -/
theorem cutOne {s : State} {k : Cut} {st : Status} (hk : k.waiting = some st) (n : Nat) (x : Slot) : EntropyKept s (cutOne s k n x) := by
  unfold Machine.cutOne
  rw [hk]
  split
  · exact refl s
  · exact refl s
  · split
    · exact withdraw_finish s n _ _
    · exact withdraw_finish s n _ _
    · exact refl s
  · exact modSlot s n _
  · split
    · split
      · split
        · exact finish s n _ _
        · exact refl s
      · split
        · exact refl s
        · split
          · exact modSlot s n _
          · exact unqueue_finish s n _ _ _
    · exact dropStep_finish s n x _ _

theorem cutChained {s : State} {k : Cut} {st : Status} (hk : k.waiting = some st) (n : Nat) (x : Slot) (first : Nat) :
    EntropyKept s (cutChained s k n x first) := by
  unfold Machine.cutChained
  dsimp only
  split
  · simp [Cut.waiting] at hk
  · split
    · exact refl s
    · split
      · split
        · exact modSlot s n _
        · exact finish s n _ _
      · split
        · exact of_chain (.endEntry s n x _)
        · split
          · exact modSlot s n _
          · exact unqueue_finish s n _ _ _

theorem cutRing {s : State} {k : Cut} {st : Status} (hk : k.waiting = some st) (rid : Nat) : EntropyKept s (cutRing s k rid) := by
  refine fold (fun t e => ?_) _ s
  unfold cutSlot
  split
  · exact refl t
  · split
    · exact cutOne hk _ _
    · split
      · exact cutChained hk _ _ _
      · exact cutOne hk _ _

theorem dropReservation (s : State) (rid : Nat) : EntropyKept s (dropReservation s rid) := by
  unfold Machine.dropReservation
  split
  · exact refl s
  · split
    · exact refl s
    · split <;> exact refl s

theorem haltRings (s : State) {k : Cut} {st : Status} (hk : k.waiting = some st) : EntropyKept s (haltRings s k) :=
  fold (fun t rid => ((dropReservation t rid).trans (b := Machine.dropReservation t rid) (c := stopRing (Machine.dropReservation t rid) rid .halted)
    (refl _)).trans (cutRing hk rid)) _ s

theorem releaseCollar (s : State) : EntropyKept s (releaseCollar s) := by
  unfold Machine.releaseCollar
  split
  · dsimp only
    split
    · exact raise_entropy _ _
    · exact refl s
  · exact refl s

theorem haltAll (s : State) (cls : AlarmClass) (entropy : Bool) : EntropyKept s (haltAll s cls entropy) := by
  obtain ⟨st, hst⟩ := cutOf_waiting cls entropy
  exact ((trans (b := { s with service := if s.service = .locked then .locked else .halted }) (refl s) (releaseCollar _)).trans
    (haltRings _ hst)).trans (of_chain (.closeSessions _ _))

theorem lockAnswers (s : State) : EntropyKept s (lockAnswers s) :=
  fold (fun t j => by
    split
    · exact refl t
    · obtain ⟨o, e, h⟩ := sendReply_only t _ _ _ _ _ _
      rw [h]
      exact refl t) _ s

theorem lockClear (s : State) : EntropyKept s (lockClear s) := by
  obtain ⟨u, hu⟩ := lockClear_eq s
  have hends : EntropyKept (Machine.lockAnswers s) (lockEnds (Machine.lockAnswers s)) :=
    of_chain ((ChainOnly.trans (b := freePages (Machine.lockAnswers s) (fun _ => true)) ⟨_, _, rfl⟩ (.closeSessions _ _)).trans
      (.fold (fun t e => .modEngine t e _) _ _))
  rw [hu]
  exact (lockAnswers s).trans hends

theorem setService (s : State) (v : Service) : EntropyKept s { s with service := v } := refl s

theorem cutPath (s : State) : EntropyKept s { s with tamper := { s.tamper with pathCut := true } } := refl s

theorem mainActions {s : State} {cls : AlarmClass} (entropy : Bool) (h2 : 2 ≤ cls.code) : EntropyKept s (mainActions s cls entropy) := by
  rw [mainActions_eq entropy h2]
  have hl : EntropyKept s (if 3 ≤ cls.code then { Machine.lockClear (Machine.haltAll s cls entropy) with service := .locked }
      else Machine.haltAll s cls entropy) := by
    split
    · exact ((haltAll s cls entropy).trans (lockClear _)).trans (setService _ _)
    · exact haltAll s cls entropy
  dsimp only
  split
  · exact hl.trans (cutPath _)
  · exact hl

theorem stoppedActions (s : State) (cls : AlarmClass) : EntropyKept s (stoppedActions s cls) := by
  have hl : EntropyKept s (if 3 ≤ cls.code then Machine.lockClear s else s) := by
    split
    · exact lockClear s
    · exact refl s
  unfold Machine.stoppedActions
  dsimp only
  split
  · exact hl.trans (cutPath _)
  · exact hl

theorem mainResponse (s : State) (cls : AlarmClass) (entropy : Bool) : EntropyKept s (mainResponse s cls entropy) := by
  by_cases h : s.power.mainOk = false ∨ cls.code ≤ (s.tamper.response.map (·.code)).getD 0 ∨ cls.code < 2
  · rw [mainResponse_untaken entropy h]
    exact refl s
  · simp only [not_or, Bool.not_eq_false, Nat.not_le, Nat.not_lt] at h
    obtain ⟨hm, hr, h2⟩ := h
    rw [mainResponse_taken entropy hm hr h2]
    split
    · exact refl s
    · split
      · exact trans (b := responding s cls) (refl s) (stoppedActions _ _)
      · exact noteService (trans (b := responding s cls) (refl s) (mainActions entropy h2))

theorem mainAlarm (s : State) (f : Nat) (cls : AlarmClass) (r : Nat) : EntropyKept s (mainAlarm s f cls r) := by
  obtain ⟨_, _, _, _, _, h⟩ := cocoonAlarm_only s f cls r
  refine trans (b := cocoonAlarm s f cls r) ?_ (mainResponse _ _ _)
  rw [h]
  exact refl s

end EntropyKept

/-- The second stop point's memory key and life-cycle value (R501, R503). -/
def State.withKeyDrawn (s : State) : State := { s.withMemKey with life := { s.life with dbgValid := true } }

/-- A stop point taken down, before what follows it (R501). -/
def State.atStop (s : State) (n : Nat) : State :=
  if n = 2 then State.withKeyDrawn { s with power := { s.power with stopPoint := n } } else { s with power := { s.power with stopPoint := n } }

/-- What a response already taken, or the life-cycle value, makes of a stop point (R438, R503). -/
def State.afterStop (s t : State) (n : Nat) : State := match s.tamper.response with
  | some cls => noteService s (stoppedActions { t with service := .bootStopped, tamper := { t.tamper with bootStop := n } } cls)
  | none =>
    if n = 2 ∧ (s.life.latched = 0x00 ∨ s.life.latched = 0x66 ∨ s.life.latched = 0xFF) then
      noteService s { t with service := if s.life.latched = 0xFF then .locked else .starting, life := { t.life with parked := true } }
    else if n = 3 then
      noteService s { t with service := if s.tamper.latch then .locked else .starting,
                             life := { t.life with parked := s.life.latched == 0x33 || s.life.latched == 0x55 } }
    else t

theorem reachStop_eq (s : State) (n : Nat) : reachStop s n = s.afterStop (s.atStop n) n := rfl

theorem State.withMemKey_only (s : State) : ∃ k f, s.withMemKey = { s with power := { s.power with memKey := k }, free := f } ∧ k.isSome = true := by
  unfold State.withMemKey
  split
  · next k hk => exact ⟨s.power.memKey, s.free, rfl, by rw [hk]; rfl⟩
  · exact ⟨_, _, rfl, rfl⟩

theorem State.atStop_only (s : State) (n : Nat) : ∃ k f l, s.atStop n =
    { s with power := { s.power with stopPoint := n, memKey := k }, free := f, life := l } := by
  unfold State.atStop
  split
  · obtain ⟨k, f, h, -⟩ := State.withMemKey_only { s with power := { s.power with stopPoint := n } }
    rw [State.withKeyDrawn, h]
    exact ⟨k, f, _, rfl⟩
  · exact ⟨s.power.memKey, s.free, s.life, rfl⟩

/-- What follows a stop point keeps the supply and the entropy block. -/
theorem State.afterStop_keeps (s t : State) (n : Nat) : (s.afterStop t n).entropy = t.entropy ∧ (s.afterStop t n).power = t.power := by
  unfold State.afterStop
  split
  · next cls _ =>
    rw [noteService_entropy, noteService_power]
    exact ⟨EntropyKept.stoppedActions { t with service := .bootStopped, tamper := { t.tamper with bootStop := n } } cls,
      (Harmless.stoppedActions { t with service := .bootStopped, tamper := { t.tamper with bootStop := n } } cls).power⟩
  · split
    · rw [noteService_entropy, noteService_power]
      exact ⟨rfl, rfl⟩
    · split
      · rw [noteService_entropy, noteService_power]
        exact ⟨rfl, rfl⟩
      · exact ⟨rfl, rfl⟩

theorem reachStop_keeps (s : State) (n : Nat) : (reachStop s n).entropy = s.entropy ∧ (reachStop s n).power.stopPoint = n := by
  obtain ⟨k, f, l, h⟩ := s.atStop_only n
  obtain ⟨he, hp⟩ := s.afterStop_keeps (s.atStop n) n
  rw [reachStop_eq, he, hp, h]
  exact ⟨rfl, rfl⟩

/-! ### The block's failure (R388, R389) -/

/-- An generator uninstantiated: its generator is gone, and its draws (R382, R388). -/
theorem uninstantiate_parts (s : State) (p : Nat) (st : Status) : ∃ s1, ChainOnly s s1 ∧ ∃ d, uninstantiate s p st =
    ({ s1 with entropy := { s.entropy with draws := d } } : State).modPart p
      (fun x => { x with drbg := { drbg0 with reseeds := x.drbg.reseeds, hostBytes := x.drbg.hostBytes } }) := by
  have h : ChainOnly s ((s.adm.slots.filter (fun e => e.2.part == p)).foldl (fun t e =>
      if e.2.res.isSome then t
      else if (opcode e.2.desc == 0xA01 || opcode e.2.desc == 0xA02) && (e.2.stage == .drawWait || e.2.random || e.2.draws != 0)
      then fail t e.1 st 0
      else if e.2.stage = .drawWait then t.modSlot e.1 (fun x => { x with stage := .bound, draws := 0 })
      else t) s) := by
    refine .fold (fun t e => ?_) _ s
    split
    · exact .refl t
    · split
      · exact (ChainOnly.failChain t _).trans (.finish _ _ _ _)
      · split
        · exact .modSlot t _ _
        · exact .refl t
  obtain ⟨a, u, hs⟩ := h
  refine ⟨_, ⟨a, u, rfl⟩, s.entropy.draws.filter (fun d => d.2.1 != 300000 + p &&
    !(tkeys (tfilter s.adm.slots (fun _ x => x.part == p && x.stage == .drawWait))).contains d.2.1), ?_⟩
  unfold uninstantiate
  rw [hs]
  rfl

/-- What uninstantiating leaves: the records, the Cocoon, and of the entropy block all but its draws. -/
structure Uninstantiated (s t : State) : Prop where
  keys : t.keys = s.keys
  tamper : t.tamper = s.tamper
  entropy : ∃ d, t.entropy = { s.entropy with draws := d }
  part : ∀ p, (s.part p).drbg.ready = false → (t.part p).drbg.ready = false

namespace Uninstantiated

theorem refl (s : State) : Uninstantiated s s := ⟨rfl, rfl, ⟨_, rfl⟩, fun _ => id⟩

theorem trans {a b c : State} (h : Uninstantiated a b) (h' : Uninstantiated b c) : Uninstantiated a c := by
  refine ⟨h'.keys.trans h.keys, h'.tamper.trans h.tamper, ?_, fun p => h'.part p ∘ h.part p⟩
  obtain ⟨d, hd⟩ := h.entropy
  obtain ⟨d', hd'⟩ := h'.entropy
  exact ⟨d', by rw [hd', hd]⟩

theorem uninstantiate_self (s : State) (p : Nat) (st : Status) : Uninstantiated s (uninstantiate s p st) ∧
    ((uninstantiate s p st).part p).drbg.ready = false := by
  obtain ⟨s1, ⟨a, u, rfl⟩, d, h⟩ := uninstantiate_parts s p st
  have hp : ∀ q, ((uninstantiate s p st).part q) = if q = p then
      { s.part p with drbg := { drbg0 with reseeds := (s.part p).drbg.reseeds, hostBytes := (s.part p).drbg.hostBytes } } else s.part q := fun q => by
    rw [h, State.modPart_part]
    rfl
  refine ⟨⟨by rw [h]; rfl, by rw [h]; rfl, ⟨d, by rw [h]; rfl⟩, fun q hq => ?_⟩, by rw [hp, if_pos rfl]; rfl⟩
  rw [hp]
  split
  · rfl
  · exact hq

theorem fold (l : List Nat) (st : Status) (s : State) : Uninstantiated s (l.foldl (fun t p => uninstantiate t p st) s) :=
  foldl_rel refl (fun _ _ _ => trans) _ (fun t p => (uninstantiate_self t p st).1) l s

end Uninstantiated

/-- After every partition's generator none is instantiated. -/
theorem foldl_uninstantiate_ready (s : State) (st : Status) (p : Nat) :
    (((tkeys s.parts).foldl (fun t p => uninstantiate t p st) s).part p).drbg.ready = false := by
  by_cases hp : p ∈ tkeys s.parts
  · exact foldl_reaches (I := fun _ => True) (Q := fun t => (t.part p).drbg.ready = false) (fun _ _ _ => trivial)
      (fun t q hq => (Uninstantiated.uninstantiate_self t q st).1.part p hq) hp (fun t _ => (Uninstantiated.uninstantiate_self t p st).2) trivial
  · refine (Uninstantiated.fold (tkeys s.parts) st s).part p ?_
    rw [State.part, tgetD]
    cases hg : tget s.parts p with
    | none => rfl
    | some x => exact absurd (List.mem_map.2 ⟨(p, x), mem_of_tget hg, rfl⟩) hp

/-- The state with the block failed (R388). -/
def blockFailed (s : State) (cause groups : Nat) : State := s.modEntropy (fun e =>
  { e with st := 4, ready := false, cause := cause, groups := groups % 4096,
           passed := bits (e.passed) 11 0 - (e.passed &&& (groups % 4096)), formed := [], held := [], pool := [] })

/-- The failed block with its alarm raised (R388, R389). -/
def blockAlarmed (s : State) (cause groups : Nat) : State := noteService s (mainAlarm (looperCut (blockFailed s cause groups)) 153
  ((blockFailed s cause groups).flagClassNow 153) (rngFail (blockFailed s cause groups).entropy))

/-- Every generator of the failed block uninstantiated (R388). -/
def blockEmptied (s : State) (cause groups : Nat) : State :=
  (tkeys (blockAlarmed s cause groups).parts).foldl (fun t p => uninstantiate t p .entropyFailed) (blockAlarmed s cause groups)

theorem entropyFail_eq (s : State) (cause groups : Nat) :
    entropyFail s cause groups = zeroGens ((blockEmptied s cause groups).modEntropy (fun e => { e with draws := [] })) := rfl

theorem blockAlarmed_alarms (s : State) (cause groups : Nat) : (blockAlarmed s cause groups).entropy = (blockFailed s cause groups).entropy ∧
    153 ∈ (blockAlarmed s cause groups).tamper.flags ∧ (blockAlarmed s cause groups).keys.recs = s.keys.recs := by
  have hent : (mainAlarm (looperCut (blockFailed s cause groups)) 153 ((blockFailed s cause groups).flagClassNow 153)
      (rngFail (blockFailed s cause groups).entropy)).entropy = (looperCut (blockFailed s cause groups)).entropy := EntropyKept.mainAlarm ..
  have hlatch := ((latched_cocoonAlarm (looperCut (blockFailed s cause groups)) 153 ((blockFailed s cause groups).flagClassNow 153)
    (rngFail (blockFailed s cause groups).entropy)).mainResponse ((blockFailed s cause groups).flagClassNow 153) true).after (.noteService s _)
  obtain ⟨hflag, -⟩ := hlatch.alarmed
  refine ⟨?_, hflag, hlatch.recs⟩
  rw [blockAlarmed, noteService_entropy, hent]
  rfl

theorem zeroGens_lane (s : State) (l : Nat) : ((zeroGens s).lane l).gen.key = none := by
  change (tgetD (tmap s.units.lanes (fun _ l => { l with gen := l.gen.zeroed })) l lane0).gen.key = none
  rw [tgetD, tget_tmap]
  cases tget s.units.lanes l <;> rfl

theorem zeroGens_entropy (s : State) : (zeroGens s).entropy = { s.entropy with gens := tmap s.entropy.gens (fun _ g => g.zeroed) } := rfl

theorem zeroGens_keeps (s : State) : (zeroGens s).tamper = s.tamper ∧ (zeroGens s).keys = s.keys ∧ (zeroGens s).parts = s.parts := ⟨rfl, rfl, rfl⟩

theorem blockEmptied_empties (s : State) (cause groups : Nat) :
    (∃ d, (blockEmptied s cause groups).entropy = { (blockFailed s cause groups).entropy with draws := d }) ∧
    153 ∈ (blockEmptied s cause groups).tamper.flags ∧ (blockEmptied s cause groups).keys.recs = s.keys.recs ∧
    ∀ p, ((blockEmptied s cause groups).part p).drbg.ready = false := by
  obtain ⟨hent, hflag, hrecs⟩ := blockAlarmed_alarms s cause groups
  have hun := Uninstantiated.fold (tkeys (blockAlarmed s cause groups).parts) .entropyFailed (blockAlarmed s cause groups)
  obtain ⟨d, hd⟩ := hun.entropy
  exact ⟨⟨d, hd.trans (by rw [hent])⟩, hun.tamper.symm ▸ hflag, (congrArg Keys.recs hun.keys).trans hrecs, fun p => foldl_uninstantiate_ready _ _ p⟩

theorem entropyFail_fails (s : State) (cause groups : Nat) : (entropyFail s cause groups).entropy.st = 4 ∧
    (entropyFail s cause groups).entropy.ready = false ∧ (entropyFail s cause groups).entropy.cause = cause ∧
    (entropyFail s cause groups).entropy.groups = groups % 4096 ∧ (entropyFail s cause groups).entropy.pool = [] ∧
    (entropyFail s cause groups).entropy.held = [] ∧ (entropyFail s cause groups).entropy.draws = [] ∧
    153 ∈ (entropyFail s cause groups).tamper.flags ∧ (∀ p, ((entropyFail s cause groups).part p).drbg.ready = false) ∧
    (∀ l, ((entropyFail s cause groups).lane l).gen.key = none) ∧ (entropyFail s cause groups).keys.recs = s.keys.recs := by
  obtain ⟨⟨d, hd⟩, hflag, hrecs, hready⟩ := blockEmptied_empties s cause groups
  obtain ⟨ht, hk, hp⟩ := zeroGens_keeps ((blockEmptied s cause groups).modEntropy (fun e => { e with draws := [] }))
  rw [entropyFail_eq, zeroGens_entropy, ht, hk, State.modEntropy]
  dsimp only
  rw [hd]
  refine ⟨rfl, rfl, rfl, rfl, rfl, rfl, rfl, hflag, fun p => ?_, fun l => zeroGens_lane _ l, hrecs⟩
  exact (congrArg (fun q : Tab Part => (tgetD q p (part0 p)).drbg.ready) hp).trans (hready p)

/-! ### Draws asked for -/

/-- The draws of a row of consumers asked for (R385). -/
def askRange (cls base n : Nat) (s : State) : State := (List.range n).foldl (fun t k => askOnce t cls (base + k)) s

/-- Draws were asked for, and none was given up. -/
def DrawsAsked (s t : State) : Prop := ∃ d, t = { s with entropy := { s.entropy with draws := s.entropy.draws ++ d } }

namespace DrawsAsked

theorem refl (s : State) : DrawsAsked s s := ⟨[], by rw [List.append_nil]⟩

theorem trans {a b c : State} (h : DrawsAsked a b) (h' : DrawsAsked b c) : DrawsAsked a c := by
  obtain ⟨d, rfl⟩ := h
  obtain ⟨e, rfl⟩ := h'
  exact ⟨d ++ e, by rw [List.append_assoc]⟩

theorem askOnce (s : State) (cls who : Nat) : DrawsAsked s (askOnce s cls who) := by
  unfold Machine.askOnce
  split
  · exact refl s
  · exact ⟨[(cls, who, s.opUs)], rfl⟩

theorem askRange (cls base n : Nat) (s : State) : DrawsAsked s (askRange cls base n s) :=
  foldl_rel refl (fun _ _ _ => trans) _ (fun t k => askOnce t cls (base + k)) _ s

theorem keeps {s t : State} (h : DrawsAsked s t) {w : Nat} (hw : ∃ d ∈ s.entropy.draws, d.2.1 = w) : ∃ d ∈ t.entropy.draws, d.2.1 = w := by
  obtain ⟨e, rfl⟩ := h
  obtain ⟨d, hd, h⟩ := hw
  exact ⟨d, List.mem_append_left _ hd, h⟩

end DrawsAsked

theorem askOnce_asks (s : State) (cls who : Nat) : ∃ d ∈ (askOnce s cls who).entropy.draws, d.2.1 = who := by
  unfold askOnce
  split
  · next h =>
    obtain ⟨d, hd, h⟩ := List.any_eq_true.1 h
    exact ⟨d, hd, by simpa using h⟩
  · exact ⟨(cls, who, s.opUs), List.mem_append_right _ (List.mem_singleton.2 rfl), rfl⟩

theorem askRange_asks (cls base : Nat) {n k : Nat} (hk : k < n) (s : State) : ∃ d ∈ (askRange cls base n s).entropy.draws, d.2.1 = base + k :=
  foldl_reaches (I := fun _ => True) (Q := fun t => ∃ d ∈ t.entropy.draws, d.2.1 = base + k) (fun _ _ _ => trivial)
    (fun t j hq => (DrawsAsked.askOnce t cls (base + j)).keeps hq) (List.mem_range.2 hk) (fun t _ => askOnce_asks t cls (base + k)) trivial

/-- The state once the block is ready: every generator and partition asks for its seed (R385). -/
def readied (s : State) : State :=
  askRange 4 300000 256 (askRange 3 100000 8 (askRange 1 200000 10 (s.modEntropy (fun e => { e with st := 3, ready := true }))))

theorem readied_asks (s : State) : DrawsAsked (s.modEntropy (fun e => { e with st := 3, ready := true })) (readied s) ∧
    (∀ g, g < 10 → ∃ d ∈ (readied s).entropy.draws, d.2.1 = 200000 + g) ∧ (∀ l, l < 8 → ∃ d ∈ (readied s).entropy.draws, d.2.1 = 100000 + l) ∧
    (∀ p, p < 256 → ∃ d ∈ (readied s).entropy.draws, d.2.1 = 300000 + p) := by
  obtain ⟨s1, hs1⟩ : ∃ s1, s1 = s.modEntropy (fun e => { e with st := 3, ready := true }) := ⟨_, rfl⟩
  obtain ⟨e1, he1⟩ : ∃ e1, e1 = askRange 1 200000 10 s1 := ⟨_, rfl⟩
  obtain ⟨e2, he2⟩ : ∃ e2, e2 = askRange 3 100000 8 e1 := ⟨_, rfl⟩
  have h1 : DrawsAsked s1 e1 := he1 ▸ DrawsAsked.askRange 1 200000 10 s1
  have h2 : DrawsAsked e1 e2 := he2 ▸ DrawsAsked.askRange 3 100000 8 e1
  have h3 : DrawsAsked e2 (readied s) := by
    rw [readied, ← hs1, ← he1, ← he2]
    exact .askRange 4 300000 256 e2
  refine ⟨hs1 ▸ (h1.trans h2).trans h3, fun g hg => (h2.trans h3).keeps ?_, fun l hl => h3.keeps ?_, fun p hp => ?_⟩
  · rw [he1]
    exact askRange_asks 1 200000 hg s1
  · rw [he2]
    exact askRange_asks 3 100000 hl e1
  · rw [readied]
    exact askRange_asks 4 300000 hp _

theorem execEntropyReady_eq {s : State} (h : s.entropy.st = 2 ∧ s.entropy.passed = 0xFFF ∧ 2 ≤ s.entropy.pool.length) :
    execEntropyReady s = .next (if (noteService s (readied s)).power.stopPoint = 1 ∧ (noteService s (readied s)).booting
      then reachStop (noteService s (readied s)) 2 else noteService s (readied s)) := by
  unfold execEntropyReady readied askRange
  exact congrArg Host.Outcome.next (if_pos h)

/-- The block with the samples taken in and their conditioned block formed (R365, R368). -/
def Entropy.blockOut (e : Entropy) (raw : Bytes) : Entropy :=
  let f := { e with lfsr := lfsrRun e.lfsr raw, passed := 0xFFF, phase := (e.sampled raw).phase, tests := (e.sampled raw).tests }
  { f with formed := f.formed ++ [(leBytes 32 f.lfsr, f.windows)] }

/-- The formed blocks whose windows have closed are held, in order; nothing else of the block moves but its count (R368). -/
theorem Entropy.release_releases (e : Entropy) : ∃ l, e.formed.map (·.1) = l ++ e.release.formed.map (·.1) ∧
    e.release = { e with formed := e.release.formed, held := e.held ++ l, blocksOut := e.release.blocksOut } := by
  refine ⟨(e.formed.takeWhile (fun b => e.released b.2)).map (·.1), ?_, rfl⟩
  have h := List.prefix_iff_eq_append.1 (List.takeWhile_prefix (l := e.formed) (fun b => e.released b.2))
  change e.formed.map (·.1) = _ ++ (e.formed.drop (e.formed.takeWhile (fun b => e.released b.2)).length).map (·.1)
  rw [← List.map_append, h]

theorem conditionerBlockOut_passes {s : State} {raw : Bytes} (hst : s.entropy.st = 2 ∨ s.entropy.st = 3)
    (hf : (s.entropy.sampled (fit 128 raw)).fails = []) :
    execConditionerBlockOut raw s = .next (looperDraw (s.modEntropy (fun e => (e.blockOut (fit 128 raw)).release))) := by
  unfold execConditionerBlockOut
  rw [if_pos hst]
  dsimp only
  rw [hf, List.isEmpty_nil, if_pos rfl]
  rfl

end Sys2Proof.Machine

/-- Settles O34: the block released, sampled and made ready, and its failure by every cause. -/
theorem entropyBlockLife : Obligations.EntropyBlockLife := by
  unfold Obligations.EntropyBlockLife
  refine ⟨fun s hp h0 => ?_, fun s h1 => ?_, fun raw s hst => ⟨fun hf => ?_, fun hf => ?_⟩, fun b r s hm hh => ?_, fun s h2 hp hl => ?_,
    fun c cause groups s hc => ?_⟩
  · rw [dispatch_entropyBlockRelease, execEntropyBlockRelease, if_pos (by simpa [h0] using hp)]
    rfl
  · rw [dispatch_warmupEnd, execWarmupEnd, if_pos h1]
    rfl
  · rw [dispatch_conditionerBlockOut, conditionerBlockOut_passes hst hf]
    obtain ⟨l, hl, hr⟩ := Entropy.release_releases (s.entropy.blockOut (fit 128 raw))
    obtain ⟨h, dr, k, he⟩ := looperDraw_only (s.modEntropy (fun e => (e.blockOut (fit 128 raw)).release))
    have hsplit : s.entropy.formed.map (·.1) ++ [leBytes 32 (lfsrRun s.entropy.lfsr (fit 128 raw))] =
        l ++ (s.entropy.blockOut (fit 128 raw)).release.formed.map (·.1) := by
      rw [← hl]
      simp [Entropy.blockOut]
    refine ⟨_, l, rfl, ?_, ?_, ?_, ?_, fun hq => ?_, fun b r hpow hq hdr hh => ?_, ?_, ?_⟩
    · rw [he]
      rfl
    · rw [he]
      rfl
    · rw [he]
      rfl
    · rw [he]
      exact hsplit
    · rw [looperDraw_waits (by tauto)]
      exact ⟨by rw [State.modEntropy]; dsimp only; rw [hr]; rfl, rfl⟩
    · have hheld : (s.modEntropy (fun e => (e.blockOut (fit 128 raw)).release)).entropy.held = b :: r := by
        rw [State.modEntropy]
        dsimp only
        rw [hr]
        exact hh
      rw [looperDraw_draws hheld hq hdr (by
        have hpass : (s.modEntropy (fun e => (e.blockOut (fit 128 raw)).release)).entropy.passed = 0xFFF := rfl
        have hst' : (s.modEntropy (fun e => (e.blockOut (fit 128 raw)).release)).entropy.st = s.entropy.st := rfl
        have hpow' : (s.modEntropy (fun e => (e.blockOut (fit 128 raw)).release)).looperPowered = true := hpow
        rw [State.looperRuns, hpass, hst', hpow']
        simpa using hst)]
      exact ⟨rfl, rfl⟩
    · rw [he]
      rfl
    · rw [he]
      rfl
  · rw [dispatch_conditionerBlockOut, execConditionerBlockOut, if_pos hst]
    dsimp only
    rw [if_neg (by simpa using hf)]
    obtain ⟨h1, h2, h3, -, h5, -, -, h8, -⟩ := entropyFail_fails (s.modEntropy (fun e =>
        let f := { e with lfsr := lfsrRun e.lfsr (fit 128 raw), passed := 0xFFF, phase := (s.entropy.sampled (fit 128 raw)).phase
                          tests := (s.entropy.sampled (fit 128 raw)).tests }
        { f with formed := f.formed ++ [(leBytes 32 f.lfsr, f.windows)] }))
      (if (s.entropy.sampled (fit 128 raw)).fails.any (fun f => f.2 == 1) then 1 else 2)
      (((s.entropy.sampled (fit 128 raw)).fails.map (fun f => 2 ^ f.1)).foldl (· ||| ·) 0)
    refine ⟨_, rfl, h1, h2, ?_, h5, h8⟩
    rw [h3]
    split
    · exact Or.inl rfl
    · exact Or.inr rfl
  · rw [dispatch_entropyBlockArrival, execEntropyBlockArrival, if_neg (by simp [hm])]
    simp only [hh]
    refine ⟨_, rfl, rfl, rfl, rfl, fun hl => ?_, rfl⟩
    change (((if s.entropy.pool.length < 64 then s.entropy.pool else s.entropy.pool.drop 1) ++ [b]).length ≤ 64)
    split <;> simp <;> omega
  · rw [dispatch_entropyReady, execEntropyReady_eq ⟨h2, hp, hl⟩]
    obtain ⟨⟨d, hd⟩, hg, hln, hpt⟩ := readied_asks s
    have hkeeps : ∀ t : State, t.entropy = (readied s).entropy → t.entropy.st = 3 ∧ t.entropy.ready = true ∧ t.entropy.pool = s.entropy.pool ∧
        (∀ g, g < 10 → ∃ d ∈ t.entropy.draws, d.2.1 = 200000 + g) ∧ (∀ l, l < 8 → ∃ d ∈ t.entropy.draws, d.2.1 = 100000 + l) ∧
        (∀ p, p < 256 → ∃ d ∈ t.entropy.draws, d.2.1 = 300000 + p) := fun t ht => by
      rw [ht]
      exact ⟨by rw [hd]; rfl, by rw [hd]; rfl, by rw [hd]; rfl, hg, hln, hpt⟩
    have hpow : (noteService s (readied s)).power = s.power := by rw [noteService_power, hd]; rfl
    have hboot : (noteService s (readied s)).booting = s.booting := by
      rw [State.booting, noteService_service, noteService_life, hd]
      rfl
    rw [hpow, hboot]
    split
    · next h =>
      obtain ⟨he, hstop⟩ := reachStop_keeps (noteService s (readied s)) 2
      obtain ⟨k1, k2, k3, k4, k5, k6⟩ := hkeeps _ (he.trans (noteService_entropy _ _))
      exact ⟨_, rfl, k1, k2, k3, k4, k5, k6, fun _ _ => hstop, fun hn => absurd h.1 hn⟩
    · next h =>
      obtain ⟨k1, k2, k3, k4, k5, k6⟩ := hkeeps _ (noteService_entropy (readied s) s)
      exact ⟨_, rfl, k1, k2, k3, k4, k5, k6, fun h1 hb => absurd ⟨h1, hb⟩ h,
        fun _ => ⟨hpow, by rw [noteService_parts, hd]; rfl, by rw [noteService_keys, hd]; rfl⟩⟩
  · have hfails : exec c s = .next (entropyFail s cause (if cause = 5 then 0 else groups)) := by
      rcases hc with ⟨rfl, h⟩ | ⟨rfl, rfl, rfl, h⟩ | ⟨rfl, rfl, rfl, h⟩
      · rw [dispatch_entropyHealthFail, execEntropyHealthFail, if_pos (by tauto)]
      · rw [dispatch_entropyTransportFault, execEntropyTransportFault, if_pos h]
        rfl
      · rw [dispatch_entropyBlockTimeout, execEntropyBlockTimeout, if_pos h]
        rfl
    obtain ⟨h1, h2, h3, h4, h5, h6, h7, h8, h9, h10, h11⟩ := entropyFail_fails s cause (if cause = 5 then 0 else groups)
    refine ⟨_, hfails, h1, h2, h3, ?_, h5, h6, h7, h8, h9, h10, h11⟩
    rw [h4]
    split <;> rfl
end

section
open Sys2Proof.Machine

/-! SUPPORT. Draws from the seed pool, and the generators they key (R315, R372 to R375). -/

namespace Sys2Proof.Machine

theorem Gen.rekeyed_keys (g : Gen) (cap now : Nat) (key : Bytes) : (g.rekeyed cap now key).keyedUs = now ∧ (g.rekeyed cap now key).stalled = false ∧
    (g.rekeyed cap now key).key = some key := ⟨rfl, rfl, rfl⟩

theorem Gen.stall_stalls {g : Gen} (hk : g.key.isSome = true) (hs : g.stalled = false) (hb : 2 ^ 20 ≤ g.blocks) :
    g.stall = { g with stalled := true, stalls := min 0xFFFFFFFF (g.stalls + 1) } := by
  unfold Gen.stall
  rw [if_pos (by simp [hk, hs]; exact hb)]

theorem askOnce_new {s : State} (cls : Nat) {who : Nat} (h : ∀ d ∈ s.entropy.draws, d.2.1 ≠ who) :
    askOnce s cls who = { s with entropy := { s.entropy with draws := s.entropy.draws ++ [(cls, who, s.opUs)] } } := by
  unfold askOnce
  rw [if_neg fun ha => ?_]
  · rfl
  · obtain ⟨d, hd, he⟩ := List.any_eq_true.1 ha
    exact h d hd (by simpa using he)

/-- The pool with a draw's blocks taken, its time counted (R373, R374). -/
def State.drawn (s : State) (d : Nat × Nat × Nat) : State := s.modEntropy (fun e =>
  { e with draws := e.draws.erase d, pool := e.pool.drop (drawBlocks d.1),
           drawCount := tset e.drawCount d.1 (min (2 ^ 64 - 1) (tgetD e.drawCount d.1 0 + 1))
           waitMax := tset e.waitMax d.1 (max (tgetD e.waitMax d.1 0) (min 0xFFFFFFFF (s.opUs - d.2.2))) })

theorem serveDraw_serves {s : State} {d : Nat × Nat × Nat} (hr : s.entropy.ready = true) (hp : drawBlocks d.1 ≤ s.entropy.pool.length) :
    serveDraw s d = giveDraw (s.drawn d) d.2.1 (s.entropy.pool.take (drawBlocks d.1)).flatten := by
  unfold serveDraw
  rw [if_neg (by simp [hr]; omega), State.drawn]

section
variable (s : State) (key : Bytes)

/-- Which consumer a draw's bytes go to (R372). -/
theorem giveDraw_part (p : Nat) : giveDraw s (300000 + p) key = seedPart s p key [] := by
  unfold giveDraw
  rw [if_pos (by omega), Nat.add_sub_cancel_left]

theorem giveDraw_engine {g : Nat} (h : g < 10) : giveDraw s (200000 + g) key = s.modEntropy (fun e =>
    { e with gens := tset e.gens g ((tgetD e.gens g gen0).rekeyed engineBuf s.opUs key) }) := by
  unfold giveDraw
  rw [if_neg (by omega), if_pos (by omega), Nat.add_sub_cancel_left]

theorem giveDraw_lane {l : Nat} (h : l < 8) :
    giveDraw s (100000 + l) key = s.modLane l (fun x => { x with gen := x.gen.rekeyed laneBuf s.opUs key }) := by
  unfold giveDraw
  rw [if_neg (by omega), if_neg (by omega), if_pos (by omega), Nat.add_sub_cancel_left]

theorem giveDraw_slot {n : Nat} {x : Slot} (h : n < 100000) (hx : s.slot n = some x) : giveDraw s n key =
    (seedPart s x.part key (if 0xA01 ≤ opcode x.desc then addInput x.desc else [])).modSlot n (fun y => { y with draws := 2, stage := .bound }) := by
  unfold giveDraw
  rw [if_neg (by omega), if_neg (by omega), if_neg (by omega), hx]

end

/-- A draw given out takes nothing from the pool and its draws, and no key moves. -/
theorem giveDraw_keeps (s : State) (who : Nat) (key : Bytes) : (giveDraw s who key).entropy.pool = s.entropy.pool ∧
    (giveDraw s who key).entropy.draws = s.entropy.draws ∧ (giveDraw s who key).keys = s.keys := by
  unfold giveDraw
  split
  · exact ⟨rfl, rfl, rfl⟩
  · split
    · exact ⟨rfl, rfl, rfl⟩
    · split
      · exact ⟨rfl, rfl, rfl⟩
      · split
        · exact ⟨rfl, rfl, rfl⟩
        · next x _ =>
          obtain ⟨a, u, h⟩ := ChainOnly.modSlot (seedPart s x.part key (if 0xA01 ≤ opcode x.desc then addInput x.desc else [])) who
            (fun y => { y with draws := 2, stage := .bound })
          rw [h]
          exact ⟨rfl, rfl, rfl⟩

theorem seedPart_part (s : State) (p q : Nat) (seed add : Bytes) : (seedPart s p seed add).part q = if q = p then
    { s.part p with drbg := (s.part p).drbg.seeded s.opUs seed (leBytes 1 p ++ beBytes 4 s.power.boots ++ serial) add } else s.part q :=
  State.modPart_part s p q _

theorem Drbg.seeded_fresh {d : Drbg} (h : d.ready = false) (now : Nat) (seed pers add : Bytes) :
    (d.seeded now seed pers add).ready = true ∧ (d.seeded now seed pers add).tokens = 0 := by
  unfold Drbg.seeded
  rw [if_neg (by simp [h])]
  exact ⟨rfl, rfl⟩

end Sys2Proof.Machine

/-- Settles O35: the next draw served to each kind of consumer, and the generators' rekeys and stalls. -/
theorem drawsServed : Obligations.DrawsServed := by
  unfold Obligations.DrawsServed
  refine ⟨fun cls who since s hn hr hp => ?_, fun s hn => ?_, fun l s hl => ⟨fun hr hd hnew => ?_, fun hk hs hb => ?_⟩,
    fun g s hg => ⟨fun hr hd hnew => ?_, fun hk hs hb => ?_⟩⟩
  · have hserve := serveDraw_serves (s := s) (d := (cls, who, since)) hr hp
    obtain ⟨h1, h2, h3⟩ := giveDraw_keeps (s.drawn (cls, who, since)) who (s.entropy.pool.take (drawBlocks cls)).flatten
    rw [dispatch_seedPoolDrawServed, execSeedPoolDrawServed, hn]
    dsimp only
    rw [hserve]
    refine ⟨_, rfl, h1, h2, h3, fun p hw => ?_, fun g hw hg => ?_, fun l hw hl => ?_, fun x hw hx => ?_⟩
    · subst hw
      rw [giveDraw_part]
      have hpart := fun q => seedPart_part (s.drawn (cls, 300000 + p, since)) p q (s.entropy.pool.take (drawBlocks cls)).flatten []
      refine ⟨by rw [hpart, if_pos rfl]; rfl, fun q hq => by rw [hpart, if_neg hq]; rfl, rfl, rfl, fun hnr => ⟨?_, ?_⟩⟩
      · rw [dispatch_drbgInstantiate, execDrbgInstantiate, hn]
        dsimp only
        rw [if_pos (by simp [hnr]), hserve, giveDraw_part]
      · rw [hpart, if_pos rfl]
        exact Drbg.seeded_fresh hnr _ _ _ _
    · subst hw
      rw [giveDraw_engine _ _ hg]
      refine ⟨?_, ?_, ?_, rfl, rfl⟩
      all_goals
        rw [State.modEntropy]
        dsimp only
        rw [tgetD_tset_self]
        rfl
    · subst hw
      rw [giveDraw_lane _ _ hl, State.modLane_lane_self]
      exact ⟨rfl, rfl, rfl, rfl, rfl⟩
    · have hx' : (s.drawn (cls, who, since)).slot who = some x := hx
      rw [giveDraw_slot _ _ hw hx', State.modSlot_slot_self]
      exact congrArg (Option.map _) hx'
  · rw [dispatch_seedPoolDrawServed, execSeedPoolDrawServed, hn]
  · rw [dispatch_laneGeneratorRekey, execLaneGeneratorRekey, if_pos (by simp [hr, hd, hl]), askOnce_new (s := s.modLane l _) 3 hnew]
    refine ⟨_, rfl, ?_, rfl, rfl, rfl⟩
    exact congrArg Lane.gen (State.modLane_lane_self s l (fun x => { x with gen := { x.gen with asked := true } }))
  · rw [dispatch_laneGeneratorStall, execLaneGeneratorStall, if_pos hl, State.modLane, State.modLane, Gen.stall_stalls hk hs hb]
  · rw [dispatch_engineGeneratorRekey, execEngineGeneratorRekey]
    dsimp only
    rw [if_pos (by simp [hr, hd, hg]), askOnce_new (s := s.modEntropy (fun e => { e with
      gens := tset e.gens g { tgetD s.entropy.gens g gen0 with asked := true } })) 1 hnew]
    refine ⟨_, rfl, ?_, rfl, rfl, rfl⟩
    exact tgetD_tset_self ..
  · rw [dispatch_engineGeneratorStall, execEngineGeneratorStall, if_pos hg]
    refine ⟨_, rfl, ?_, ?_, rfl⟩
    · exact (congrArg Gen.stalled (tgetD_tset_self ..)).trans (by rw [Gen.stall_stalls hk hs hb])
    · exact (congrArg Gen.stalls (tgetD_tset_self ..)).trans (by rw [Gen.stall_stalls hk hs hb])
end

section
open Sys2Proof.Machine

/-! SUPPORT. The partitions' random generators: what a request takes of its generator, and when it waits (R295 to R297, R377 to R383). -/

namespace Sys2Proof.Machine

/-- A generator's update moves its key and counter block alone (R377). -/
theorem Drbg.generate_keeps (d : Drbg) (n : Nat) (add : Bytes) : (d.generate n add).2.counter = d.counter + 1 ∧
    (d.generate n add).2.hostBytes = d.hostBytes ∧ (d.generate n add).2.staged = d.staged ∧ (d.generate n add).2.tokens = d.tokens := by
  unfold Drbg.generate
  dsimp only
  split <;> exact ⟨rfl, rfl, rfl, rfl⟩

/-- Tokens and those that wait for them are no part of what an generator generates. -/
theorem Drbg.generate_spent (d : Drbg) (k : Nat) (w : List Nat) (n : Nat) (add : Bytes) : ({ d with tokens := k, waiting := w } : Drbg).generate n add =
    ((d.generate n add).1, { (d.generate n add).2 with tokens := k, waiting := w }) := by
  unfold Drbg.generate
  split <;> rfl

/-- Settling beside partitions that moved: what the outcome comes to, and what stands. -/
theorem settle_beside {s0 s s' : State} {n : Nat} {x y : Slot} {o : Out} (hs : tsorted s'.adm.slots = true) (hy : s'.slot n = some y)
    (hrid : y.rid = x.rid) (hchain : y.chain = x.chain) (hslots : ∀ m, m ≠ n → s'.slot m = s.slot m) (hroom : Fits o x s0) :
    Settles o n x s (settle s0 s' n x o) ∧ (settle s0 s' n x o).parts = s'.parts ∧ (settle s0 s' n x o).keys = s'.keys ∧
      (settle s0 s' n x o).bus = s'.bus := by
  obtain ⟨a, u, c, h, -⟩ := settle_only hs hy hroom
  refine ⟨(settle_settles hs hy hrid hchain hroom).of_slots hslots, ?_⟩
  rw [h]
  exact ⟨rfl, rfl, rfl⟩

/-- A partition whose generator gave up tokens to descriptor `n` (R379). -/
def Part.spent (p : Part) (n k : Nat) : Part :=
  { p with drbg := { p.drbg with tokens := p.drbg.tokens - k, waiting := p.drbg.waiting.filter (· != n) } }

/-- A descriptor that has its tokens. -/
def Slot.granted (x : Slot) : Slot := { x with random := true, stage := .bound }

/-- Descriptor `n` takes its tokens of its generator. -/
def tokensSpent (s : State) (n : Nat) (x : Slot) : State := (s.modPart x.part (fun p => p.spent n (1000 * dP1 x.desc))).modSlot n Slot.granted

theorem takeTokens_takes {s : State} {n : Nat} {x : Slot} (h : 1000 * dP1 x.desc ≤ (s.part x.part).drbg.tokens) :
    takeTokens s n x = some (tokensSpent s n x) := by
  unfold takeTokens
  rw [if_pos h]
  rfl

theorem tokensSpent_slot {s : State} {n : Nat} {x : Slot} (hx : s.slot n = some x) (m : Nat) :
    (tokensSpent s n x).slot m = if m = n then some x.granted else s.slot m := by
  have hx' : (s.modPart x.part (fun p => p.spent n (1000 * dP1 x.desc))).slot n = some x := hx
  rw [tokensSpent, State.modSlot_slot, hx']
  rfl

theorem tokensSpent_part (s : State) (n : Nat) (x : Slot) (q : Nat) :
    (tokensSpent s n x).part q = if q = x.part then (s.part x.part).spent n (1000 * dP1 x.desc) else s.part q := by
  obtain ⟨a, u, he⟩ := ChainOnly.modSlot (s.modPart x.part (fun p => p.spent n (1000 * dP1 x.desc))) n Slot.granted
  have hp : (tokensSpent s n x).part q = (s.modPart x.part (fun p => p.spent n (1000 * dP1 x.desc))).part q := by
    rw [tokensSpent, he]
    rfl
  rw [hp, State.modPart_part]

theorem tokensSpent_only (s : State) (n : Nat) (x : Slot) : ∃ a u q, tokensSpent s n x = { s with adm := a, units := u, parts := q } := by
  obtain ⟨a, u, he⟩ := ChainOnly.modSlot (s.modPart x.part (fun p => p.spent n (1000 * dP1 x.desc))) n Slot.granted
  exact ⟨a, u, _, he⟩

/-- The state in which a descriptor that needs no wait draws: its tokens taken, unless they were (R379). -/
def tokensTaken (s : State) (n : Nat) (x : Slot) : State := if x.random then s else tokensSpent s n x

/-- The generator whose tokens were taken generates as it did before. -/
structure TokensTaken (n : Nat) (x : Slot) (s t : State) : Prop where
  only : ∃ a u q, t = { s with adm := a, units := u, parts := q }
  sorted : tsorted t.adm.slots = true
  slot : ∃ y, t.slot n = some y ∧ y.rid = x.rid ∧ y.chain = x.chain
  slots : ∀ m, m ≠ n → t.slot m = s.slot m
  drbg : ∃ w, (t.part x.part).drbg =
    { (s.part x.part).drbg with tokens := (s.part x.part).drbg.tokens - (if x.random = true then 0 else 1000 * dP1 x.desc), waiting := w }
  parts : ∀ q, q ≠ x.part → t.part q = s.part q

theorem tokensTaken_takes {s : State} {n : Nat} {x : Slot} (hs : tsorted s.adm.slots = true) (hx : s.slot n = some x) :
    TokensTaken n x s (tokensTaken s n x) := by
  unfold tokensTaken
  split
  · next h => exact ⟨⟨s.adm, s.units, s.parts, rfl⟩, hs, ⟨x, hx, rfl, rfl⟩, fun _ _ => rfl, ⟨_, by rw [if_pos h]; rfl⟩, fun _ _ => rfl⟩
  · next h =>
    refine ⟨tokensSpent_only s n x, tsorted_modSlot n _ hs, ⟨x.granted, ?_, rfl, rfl⟩, fun m hm => ?_,
      ⟨(s.part x.part).drbg.waiting.filter (· != n), ?_⟩, fun q hq => ?_⟩
    · rw [tokensSpent_slot hx, if_pos rfl]
    · rw [tokensSpent_slot hx, if_neg hm]
    · rw [tokensSpent_part, if_pos rfl, if_neg h]
      rfl
    · rw [tokensSpent_part, if_neg hq]

/-- What RANDOM_BYTES comes to where it need not wait (R295, R377). -/
theorem randomBytes_runs {s : State} {n : Nat} {x : Slot} (hs : tsorted s.adm.slots = true) (hd : s.due n 0xA01 = some x) (hroom : HasRoom {} x s)
    (hserve : (s.part x.part).drbg.serves = true) (hbit : bit (dP0 x.desc) 0 = false ∨ x.draws ≠ 0)
    (htok : x.random = true ∨ (s.tokenWaiters x.part = [] ∧ 1000 * dP1 x.desc ≤ (s.part x.part).drbg.tokens)) :
    execRandomBytes n s = .next (settle (tokensTaken s n x) (randomOut (workDone (tokensTaken s n x) n x) x).2 n x (randomOut (workDone (tokensTaken s n x) n x) x).1) := by
  have hready : (s.part x.part).drbg.ready = true := by
    rw [Drbg.serves, Bool.and_eq_true] at hserve
    exact hserve.1
  unfold execRandomBytes
  rw [hd]
  dsimp only
  rw [if_neg (by simp [hready])]
  have hdraw : (bit (dP0 x.desc) 0 && x.draws == 0) = false := by
    rcases hbit with h | h <;> simp [h]
  cases hr : x.random with
  | true =>
    have ht : tokensTaken s n x = s := by rw [tokensTaken, if_pos hr]
    rw [if_neg (by simp), if_pos rfl, hdraw, if_neg Bool.false_ne_true, if_neg (by simp [hserve]), ht]
  | false =>
    obtain ⟨hw, htk⟩ := htok.resolve_left (by simp [hr])
    have ht : (takeTokens s n x).getD s = tokensTaken s n x := by rw [takeTokens_takes htk, tokensTaken, if_neg (by simp [hr])]; rfl
    rw [if_neg (by simp [hw, htk]), if_neg Bool.false_ne_true, hdraw, if_neg Bool.false_ne_true, if_neg (by simp [hserve]), ht]

/-- A descriptor that waits for a reseed asks for its draw (R378). -/
theorem askReseed_asks (s : State) {n : Nat} {x : Slot} (hx : s.slot n = some x) :
    (askReseed s n).slot n = some { x with stage := .drawWait, draws := 1 } ∧
    (askReseed s n).entropy.draws = s.entropy.draws ++ [(4, n, s.opUs)] ∧ (askReseed s n).parts = s.parts ∧ (askReseed s n).keys = s.keys := by
  have hslot := (State.modSlot_slot_self s n (fun y => { y with stage := .drawWait, draws := 1 })).trans (congrArg (Option.map _) hx)
  obtain ⟨a, u, h⟩ := ChainOnly.modSlot s n (fun y => { y with stage := .drawWait, draws := 1 })
  rw [askReseed, askDraw]
  refine ⟨hslot, ?_⟩
  rw [h]
  exact ⟨rfl, rfl, rfl⟩

/-- A descriptor that waits for tokens stands behind those that wait (R379). -/
theorem tokensAwaited_waits (s : State) {n : Nat} {x : Slot} (hx : s.slot n = some x) (f : Part → Part) :
    ((s.modPart x.part f).modSlot n (fun y => { y with stage := .drawWait })).slot n = some { x with stage := .drawWait } ∧
    ((s.modPart x.part f).modSlot n (fun y => { y with stage := .drawWait })).part x.part = f (s.part x.part) ∧
    ((s.modPart x.part f).modSlot n (fun y => { y with stage := .drawWait })).free = s.free ∧
    ((s.modPart x.part f).modSlot n (fun y => { y with stage := .drawWait })).keys = s.keys := by
  have hslot := (State.modSlot_slot_self (s.modPart x.part f) n (fun y => { y with stage := .drawWait })).trans
    (congrArg (Option.map _) (show (s.modPart x.part f).slot n = some x from hx))
  obtain ⟨a, u, h⟩ := ChainOnly.modSlot (s.modPart x.part f) n (fun y => { y with stage := .drawWait })
  refine ⟨hslot, ?_⟩
  rw [h]
  exact ⟨(State.modPart_part s x.part x.part f).trans (if_pos rfl), rfl, rfl⟩

/-- Accounting a descriptor's time leaves its slot but for that time, whatever it holds. -/
theorem workDone_slot_held {s : State} {n : Nat} {y : Slot} (x : Slot) (hy : s.slot n = some y) :
    ∃ k, ∀ m, (workDone s n x).slot m = if m = n then some { y with time24 := k } else s.slot m := by
  unfold workDone
  split
  · obtain ⟨f, k, -, h⟩ := totalTime_eq s n x
    refine ⟨y.time24 + k, fun m => ?_⟩
    have hy' : State.slot { s with free := f } n = some y := hy
    rw [h, State.modSlot_slot, hy']
    rfl
  · refine ⟨y.time24, fun m => ?_⟩
    split
    · next h => rw [h, hy]
    · rfl

/-- The bytes a descriptor draws: its generator moves on, every other stands (R295, R377). -/
theorem randomOut_draws (s : State) (x : Slot) : ∃ b g,
    (s.part x.part).drbg.generate (dP1 x.desc) (if bit (dP0 x.desc) 0 then [] else addInput x.desc) = (b, g) ∧
    randomOut s x = (if dDst x.desc = 0 then .inl b else .toDst b,
      s.modPart x.part (fun p => { p with drbg := { g with hostBytes := min (2 ^ 64 - 1) (g.hostBytes + dP1 x.desc) } })) :=
  ⟨_, _, rfl, rfl⟩

theorem randomOut_fits {x : Slot} {s t : State} {b : Bytes} (h : HasRoom {} x s) (hc : t.commit = s.commit) :
    Fits (if dDst x.desc = 0 then .inl b else .toDst b) x t := by
  have hroom : commitRoom t = commitRoom s := by rw [commitRoom, hc, commitRoom]
  have hfit : ∀ o : Out, o.changes = [] → Fits o x t := fun o ho =>
    (HasRoom.of_ok (o := o) (s := t) (h.imp id (fun h => hroom.trans h)) ho).fits
  split
  · exact hfit _ rfl
  · exact hfit _ rfl

/-- What RANDOM_BYTES leaves of its generator and of everything else (R295, R377, R379). -/
theorem randomBytes_draws {s : State} {n : Nat} {x : Slot} (hs : tsorted s.adm.slots = true) (hx : s.slot n = some x) (hroom : HasRoom {} x s) :
    ∃ b g t w, ((s.part x.part).drbg.generate (dP1 x.desc) (if bit (dP0 x.desc) 0 then [] else addInput x.desc)) = (b, g) ∧
    settle (tokensTaken s n x) (randomOut (workDone (tokensTaken s n x) n x) x).2 n x (randomOut (workDone (tokensTaken s n x) n x) x).1 = t ∧
    Settles (if dDst x.desc = 0 then .inl b else .toDst b) n x s t ∧ t.keys = s.keys ∧ t.bus = s.bus ∧
    (t.part x.part).drbg = { g with hostBytes := min (2 ^ 64 - 1) ((s.part x.part).drbg.hostBytes + dP1 x.desc), waiting := w
                                    tokens := (s.part x.part).drbg.tokens - (if x.random = true then 0 else 1000 * dP1 x.desc) } ∧
    ∀ q, q ≠ x.part → t.part q = s.part q := by
  obtain ⟨-, hsort, ⟨y, hy, hrid, hchain⟩, hslots, ⟨w, hd⟩, hparts⟩ := tokensTaken_takes hs hx
  obtain ⟨a, u, q, he⟩ := (tokensTaken_takes hs hx).only
  obtain ⟨k, hk⟩ := workDone_slot_held x hy
  obtain ⟨a', f, hw, -⟩ := workDone_only (tokensTaken s n x) n x
  have hpart : ∀ p, (workDone (tokensTaken s n x) n x).part p = (tokensTaken s n x).part p := fun p => by rw [hw]; rfl
  obtain ⟨b, g, hg⟩ : ∃ b g, (s.part x.part).drbg.generate (dP1 x.desc) (if bit (dP0 x.desc) 0 then [] else addInput x.desc) = (b, g) := ⟨_, _, rfl⟩
  obtain ⟨b', g', hgen, hout⟩ := randomOut_draws (workDone (tokensTaken s n x) n x) x
  rw [hpart, hd, Drbg.generate_spent, hg] at hgen
  obtain ⟨rfl, rfl⟩ := Prod.mk.inj hgen
  have hhost : g.hostBytes = (s.part x.part).drbg.hostBytes := by
    have h := (Drbg.generate_keeps (s.part x.part).drbg (dP1 x.desc) (if bit (dP0 x.desc) 0 then [] else addInput x.desc)).2.1
    rwa [hg] at h
  have hmod := fun p => State.modPart_part (workDone (tokensTaken s n x) n x) x.part p (fun p => { p with drbg := { g with
    tokens := (s.part x.part).drbg.tokens - (if x.random = true then 0 else 1000 * dP1 x.desc), waiting := w
    hostBytes := min (2 ^ 64 - 1) (g.hostBytes + dP1 x.desc) } })
  rw [hout]
  obtain ⟨hset, hp, hkeys, hbus⟩ := settle_beside (s0 := tokensTaken s n x) (s := s)
    (s' := (workDone (tokensTaken s n x) n x).modPart x.part (fun p => { p with drbg := { g with
      tokens := (s.part x.part).drbg.tokens - (if x.random = true then 0 else 1000 * dP1 x.desc), waiting := w
      hostBytes := min (2 ^ 64 - 1) (g.hostBytes + dP1 x.desc) } }))
    (workDone_sorted n x hsort) ((hk n).trans (if_pos rfl)) hrid hchain (fun m hm => ((hk m).trans (if_neg hm)).trans (hslots m hm))
    (randomOut_fits (b := b) hroom (by rw [he]))
  refine ⟨b, g, _, w, hg, rfl, hset, hkeys.trans ?_, hbus.trans ?_, ?_, fun p hq => ?_⟩
  · rw [hw, he]
    rfl
  · rw [hw, he]
    rfl
  · rw [← hhost]
    exact congrArg Part.drbg ((congrArg (fun l : Tab Part => tgetD l x.part (part0 x.part)) hp).trans ((hmod x.part).trans (if_pos rfl)))
  · exact (congrArg (fun l : Tab Part => tgetD l p (part0 p)) hp).trans (((hmod p).trans (if_neg hq)).trans ((hpart p).trans (hparts p hq)))

end Sys2Proof.Machine

/-- Settles O36: RANDOM_BYTES and DRBG_RESEED served, waiting and refused, and an generator's reseed, staging and tokens. -/
theorem partitionRandomness : Obligations.PartitionRandomness := by
  unfold Obligations.PartitionRandomness
  refine ⟨fun n x s hs hd hroom => ⟨fun hr => ?_, fun b hserve hbit htok hb => ?_, fun hr hrand hbit hdraw => ?_, fun hr hrand hor => ?_⟩,
    fun n x s hs hd hroom => ⟨fun hr hdraw => ?_, fun hr hdraw => ?_, fun hr => ?_⟩, fun c p s hc hr he hnew => ?_, fun p s hserve hl => ?_,
    fun n x s hx hw ht => ?_⟩
  · have hfit := Fits.of_fail .notActive x s nofun
    obtain ⟨a, u, c, f, h, -⟩ := settle_workDone_only hs hd hfit
    rw [dispatch_randomBytes, execRandomBytes, hd]
    dsimp only
    rw [if_pos (by simp [hr])]
    exact ⟨_, rfl, settle_workDone_settles hs hd hfit, by rw [h], by rw [h]⟩
  · rw [dispatch_randomBytes, randomBytes_runs hs hd hroom hserve hbit htok]
    obtain ⟨b', g, t, w, hg, ht, hset, hkeys, hbus, hdrbg, hparts⟩ := randomBytes_draws hs (State.slot_of_due hd) hroom
    have hbb : b = b' := hb.trans (congrArg Prod.fst hg)
    obtain ⟨h1, -, h3, -⟩ := Drbg.generate_keeps (s.part x.part).drbg (dP1 x.desc) (if bit (dP0 x.desc) 0 then [] else addInput x.desc)
    rw [hg] at h1 h3
    rw [ht, hbb]
    refine ⟨t, rfl, hset, ?_, ?_, ?_, ?_, hparts, hkeys, hbus⟩
    all_goals rw [hdrbg]
    · exact h1
    · exact h3
  · rw [dispatch_randomBytes, execRandomBytes, hd]
    dsimp only
    rw [if_neg (by simp [hr]), if_neg (by simp [hrand]), if_pos hrand, if_pos (by simp [hbit, hdraw])]
    exact ⟨_, rfl, askReseed_asks s (State.slot_of_due hd)⟩
  · rw [dispatch_randomBytes, execRandomBytes, hd]
    dsimp only
    rw [if_neg (by simp [hr]), if_pos (by rcases hor with h | h <;> simp [hrand, h])]
    obtain ⟨hslot, hpart, hfree, hkeys⟩ := tokensAwaited_waits s (State.slot_of_due hd)
      (fun p => { p with drbg := { p.drbg with waiting := s.tokenWaiters x.part ++ [n] } })
    exact ⟨_, rfl, hslot, by rw [hpart], hfree, hkeys⟩
  · rw [dispatch_drbgReseed, execDrbgReseed, hd]
    dsimp only
    rw [if_neg (by simp [hr]), if_pos hdraw]
    exact ⟨_, rfl, askReseed_asks s (State.slot_of_due hd)⟩
  · obtain ⟨a, u, c, f, h, -⟩ := settle_workDone_only hs hd hroom.fits
    rw [dispatch_drbgReseed, execDrbgReseed, hd]
    dsimp only
    rw [if_neg (by simp [hr]), if_neg hdraw]
    exact ⟨_, rfl, settle_workDone_settles hs hd hroom.fits, by rw [h], by rw [h], by rw [h]⟩
  · have hfit := Fits.of_fail .notActive x s nofun
    obtain ⟨a, u, c, f, h, -⟩ := settle_workDone_only hs hd hfit
    rw [dispatch_drbgReseed, execDrbgReseed, hd]
    dsimp only
    rw [if_pos (by simp [hr])]
    exact ⟨_, rfl, settle_workDone_settles hs hd hfit, by rw [h], by rw [h]⟩
  · have hask : exec c s = .next (askOnce s 4 (300000 + p)) := by
      rcases hc with ⟨rfl, h⟩ | ⟨rfl, h⟩
      · rw [dispatch_drbgReseedInterval, execDrbgReseedInterval, if_pos h, reseedPart, if_pos (by simp [hr, he])]
      · rw [dispatch_drbgReseedCount, execDrbgReseedCount, if_pos h, reseedPart, if_pos (by simp [hr, he])]
    rw [hask, askOnce_new 4 hnew]
    exact ⟨_, rfl, rfl, rfl, rfl, rfl⟩
  · obtain ⟨h1, -, -, h4⟩ := Drbg.generate_keeps (s.part p).drbg 512 []
    rw [dispatch_drbgStagingRefill, execDrbgStagingRefill]
    dsimp only
    rw [if_pos (by simp [hserve]; omega)]
    have hpart := fun q => State.modPart_part s p q (fun x => { x with drbg :=
      { ((s.part p).drbg.generate 512 []).2 with staged := (s.part p).drbg.staged ++ ((s.part p).drbg.generate 512 []).1 } })
    refine ⟨_, rfl, ?_, ?_, ?_, fun q hq => (hpart q).trans (if_neg hq), rfl⟩
    · rw [hpart, if_pos rfl]
    · rw [hpart, if_pos rfl]
      exact h1
    · rw [hpart, if_pos rfl]
      exact h4
  · rw [dispatch_drbgTokenGrant, execDrbgTokenGrant, hx]
    dsimp only
    rw [if_pos hw, takeTokens_takes ht, Option.getD_some]
    obtain ⟨a, u, q, h⟩ := tokensSpent_only s n x
    refine ⟨_, rfl, ?_, ?_, ?_, ?_, ?_⟩
    · exact (tokensSpent_slot hx n).trans (if_pos rfl)
    · exact (congrArg (fun p : Part => p.drbg.tokens) (tokensSpent_part s n x x.part)).trans (by rw [if_pos rfl]; rfl)
    · rw [show ((tokensSpent s n x).part x.part).drbg.waiting = (s.part x.part).drbg.waiting.filter (· != n) by rw [tokensSpent_part, if_pos rfl]; rfl]
      simp
    · rw [h]
    · rw [h]
end

section
open Sys2Proof.Machine

/-! SUPPORT. A Cocoon reset that finishes more OTP programming than one transition holds (R460, R510). -/

namespace Sys2Proof.Machine

/-- A module that owes an orderly Cocoon reset while eighteen slot marks wait to be programmed: each finished mark is logged in the Cocoon. -/
def markedReset : State := { State.reset with
  power := { State.reset.power with waiting := some ⟨4, 0x0C, true, 0⟩ }
  life := { State.reset.life with prog := List.replicate 18 (65, 0) } }

/-- It restarts with the Cocoon emptied, and only then finishes its programming. -/
theorem markedReset_starts : exec .orderlyResetEffect markedReset = .next (startMain (clearMain (cocoonPart markedReset) false) 4 0x0C true 0) := rfl

theorem markedReset_logs : (startMain (clearMain (cocoonPart markedReset) false) 4 0x0C true 0).log.cocoonBuf.length = 18 := by
  decide +kernel

end Sys2Proof.Machine

/-- Refutes O42: a Cocoon reset finishes whatever OTP programming was left, and logs each finished slot mark in the emptied Cocoon. With eighteen
marks left, `markedReset`, eighteen records stand there after it, one more than the statement allows. -/
theorem not_mainResets : ¬ Obligations.MainResets := by
  unfold Obligations.MainResets
  intro h
  obtain ⟨-, -, -, -, horderly⟩ := h markedReset
  obtain ⟨-, -, hcocoon⟩ := horderly 4 0x0C 0 rfl (by decide +kernel) rfl
  obtain ⟨t, ht, -, -, -, hlen⟩ := hcocoon rfl
  rw [markedReset_starts, Host.Outcome.next.injEq] at ht
  rw [← ht, markedReset_logs] at hlen
  omega
end

section
open Sys2Proof.Machine

/-! SUPPORT. Start-up: the measurement registers extended, the key store opened, and the service ready (R143 to R148, R157, R501 to R504). -/

namespace Sys2Proof.Machine

/-! ### The first stop point -/

/-- The measurement registers after a list of extensions (R143, R148). -/
def extended (l : List (Nat × Bytes)) (mr : List Bytes) : List Bytes := l.foldl (fun m e => m.set e.1 (extendMr (m.getD e.1 (zeros 48)) e.2)) mr

theorem foldl_extendRequest {s : State} (l : List (Nat × Bytes)) (h : s.meas.portOpen = true) :
    l.foldl (fun t e => extendRequest t e.1 e.2) s = { s with meas := { s.meas with mr := extended l s.meas.mr } } := by
  induction l generalizing s with
  | nil => rfl
  | cons e l ih =>
    have he : extendRequest s e.1 e.2 = { s with meas := { s.meas with mr := s.meas.mr.set e.1 (extendMr (s.meas.mr.getD e.1 (zeros 48)) e.2) } } := by
      unfold extendRequest
      rw [if_pos h]
      rfl
    rw [List.foldl_cons, he, ih (s := { s with meas := { s.meas with mr := s.meas.mr.set e.1 (extendMr (s.meas.mr.getD e.1 (zeros 48)) e.2) } }) h]
    rfl

theorem nandRoom_early {ovw : Bool} {l m : Recorder} {sev : Nat} (h : nandRoom ovw l sev = some m) : m.early = l.early := by
  unfold nandRoom at h
  split at h
  · cases h
    rfl
  · obtain ⟨i, -, rfl⟩ := Option.map_eq_some_iff.1 h
    rfl

theorem enterMain_early (ovw : Bool) (l : Recorder) (r : LogRec) : (enterMain ovw l r).early = l.early := by
  unfold enterMain
  split
  · next l0 _ h =>
    have he := nandRoom_early h
    dsimp only [stamp]
    split <;> exact he
  · rfl

theorem foldl_enterMain_early (ovw : Bool) (rs : List LogRec) (l : Recorder) : (rs.foldl (enterMain ovw) l).early = l.early := by
  induction rs generalizing l with
  | nil => rfl
  | cons r rs ih => rw [List.foldl_cons, ih, enterMain_early]

theorem settleLog_closed {s : State} (h : s.power.stopPoint = 0) : settleLog s = s := by
  unfold settleLog State.logOpen
  rw [if_neg (by simp [h])]

/-- The records held before the first stop point are sequenced (R590). -/
theorem sequenceHeld_early {s : State} (h : s.power.stopPoint = 0) : ∃ l, sequenceHeld s = { s with log := l } ∧ l.early = [] := by
  unfold sequenceHeld
  dsimp only
  rw [settleLog_closed]
  · exact ⟨_, rfl, foldl_enterMain_early _ _ _⟩
  · exact h

theorem startTime_only (s : State) : ∃ m e, startTime s = { s with seam := m, eic := e } := by
  unfold startTime
  dsimp only
  split
  · obtain ⟨e, he⟩ := raise_only { s with seam := { s.seam with
      unsynced := false, bound := if s.clustered then s.seam.offset.natAbs + 20 * (s.opUs - s.seam.lastSync) / 1000000 else 0 } } 1036
    rw [he]
    exact ⟨_, e, rfl⟩
  · exact ⟨s.seam, s.eic, rfl⟩

/-- A stop point other than the second and the third is reached as it is, without a response taken (R501). -/
theorem reachStop_plain {s : State} {n : Nat} (hr : s.tamper.response = none) (h2 : n ≠ 2) (h3 : n ≠ 3) :
    reachStop s n = { s with power := { s.power with stopPoint := n } } := by
  rw [reachStop_eq, State.afterStop, hr]
  dsimp only
  rw [if_neg (fun h => h2 h.1), if_neg h3, State.atStop, if_neg h2]

/-- The first stop point: the registers extended in their order, and the lands released (R143, R148, R24). -/
theorem beginFirmware_begins {s : State} (hr : s.tamper.response = none) (hs : s.power.stopPoint = 0) (hp : s.meas.portOpen = true) :
    ∃ m e l, beginFirmware s = { s with
      meas := { s.meas with mr := extended s.startExtends s.meas.mr }, power := { s.power with released := 0x33, stopPoint := 1 }
      seam := m, eic := e, log := l } ∧ l.early = [] := by
  obtain ⟨l, hl, hearly⟩ := sequenceHeld_early (s := { s with
    meas := { s.meas with mr := extended s.startExtends s.meas.mr }, power := { s.power with released := 0x33 } }) hs
  obtain ⟨m, e, ht⟩ := startTime_only { s with
    meas := { s.meas with mr := extended s.startExtends s.meas.mr }, power := { s.power with released := 0x33, stopPoint := 1 }, log := l }
  obtain ⟨m', hm⟩ := trainPorts_only { s with
    meas := { s.meas with mr := extended s.startExtends s.meas.mr }, power := { s.power with released := 0x33, stopPoint := 1 }, log := l
    seam := m, eic := e }
  refine ⟨m', e, { l with copyOwed := false }, ?_, hearly⟩
  unfold beginFirmware extendAll
  rw [foldl_extendRequest _ hp]
  dsimp only
  rw [hl, reachStop_plain (s := { s with
    meas := { s.meas with mr := extended s.startExtends s.meas.mr }, power := { s.power with released := 0x33 }, log := l }) hr (by omega) (by omega),
    ht, hm]

/-- The second stop point: the memory key is there, and the life-cycle value (R501, R503). -/
theorem reachStop_second {s : State} (hr : s.tamper.response = none) : ∃ k f v q e, reachStop s 2 = { s with
    power := { s.power with stopPoint := 2, memKey := k }, free := f, service := v, life := { s.life with dbgValid := true, parked := q }, eic := e } ∧
    k.isSome = true := by
  obtain ⟨k, f, hk, hsome⟩ := State.withMemKey_only { s with power := { s.power with stopPoint := 2 } }
  have hat : s.atStop 2 = { s with power := { s.power with stopPoint := 2, memKey := k }, free := f, life := { s.life with dbgValid := true } } := by
    rw [State.atStop, if_pos rfl, State.withKeyDrawn, hk]
  rw [reachStop_eq, State.afterStop, hr, hat]
  dsimp only
  split
  · obtain ⟨e, he⟩ := noteService_only s { s with
      power := { s.power with stopPoint := 2, memKey := k }, free := f, service := if s.life.latched = 0xFF then .locked else .starting
      life := { s.life with dbgValid := true, parked := true } }
    rw [he]
    exact ⟨k, f, _, true, e, rfl, hsome⟩
  · rw [if_neg (by omega)]
    exact ⟨k, f, s.service, s.life.parked, s.eic, rfl, hsome⟩

/-! ### The key store opened -/

/-- The key store is opened: the supply, the response, the life cycle and the extend port stand. -/
structure Opening (s t : State) : Prop where
  power : t.power = s.power
  tamper : t.tamper = s.tamper
  life : t.life = s.life
  port : t.meas.portOpen = s.meas.portOpen

namespace Opening

theorem refl (s : State) : Opening s s := ⟨rfl, rfl, rfl, rfl⟩

theorem trans {a b c : State} (h : Opening a b) (h' : Opening b c) : Opening a c :=
  ⟨h'.power.trans h.power, h'.tamper.trans h.tamper, h'.life.trans h.life, h'.port.trans h.port⟩

theorem fold {α : Type} {g : State → α → State} (hg : ∀ t a, Opening t (g t a)) (l : List α) (s : State) : Opening s (l.foldl g s) :=
  foldl_rel refl (fun _ _ _ => trans) g hg l s

theorem of_collar {s t : State} (h : CollarOnly s t) : Opening s t := by
  obtain ⟨_, _, _, _, _, _, _, _, _, _, _, rfl⟩ := h
  exact ⟨rfl, rfl, rfl, rfl⟩

theorem raise_log (s : State) (n a b c d e : Nat) (x : Bytes) : Opening s (raise (logMain s a b c d e x) n) :=
  of_collar ((CollarOnly.logMain s a b c d e x).trans (.raise _ n))

theorem drawSecret (s : State) (p n : Nat) : Opening s (drawSecret s p n).2 := by
  unfold Machine.drawSecret
  dsimp only
  split <;> exact ⟨rfl, rfl, rfl, rfl⟩

/-- A partition is created and sealed: nothing else is changed so (R150). -/
theorem of_created {s : State} {seq : Nat} {c : Change} (h : (∃ p n k, c = .partCreate p n k) ∨ ∃ p w b, c = .sealSet p w b) :
    Opening s (applyChange seq s c) := by
  have hu := Unmoved.applyChange seq s c
  refine ⟨hu.power, hu.tamper, hu.life, ?_⟩
  rcases h with ⟨p, n, k, rfl⟩ | ⟨p, w, b, rfl⟩ <;> rfl

end Opening

theorem mem_createChanges {s : State} {p : Nat} {nonce psk : Bytes} {c : Change} (h : c ∈ createChanges s p nonce psk) :
    (∃ p n k, c = .partCreate p n k) ∨ ∃ p w b, c = .sealSet p w b := by
  have hpend : ∀ (t : State) (man : Option Bytes), c ∈ t.pendingSeal man p nonce psk → ∃ p w b, c = .sealSet p w b := fun t man hc => by
    unfold State.pendingSeal at hc
    split at hc
    · cases hc
    · exact ⟨p, 1, _, List.mem_singleton.1 hc⟩
  unfold createChanges at h
  dsimp only at h
  split at h
  · cases h
  · rcases List.mem_append.1 h with h | h
    · rcases List.mem_cons.1 h with h | h
      · exact Or.inl ⟨_, _, _, h⟩
      · exact Or.inr ⟨_, _, _, List.mem_singleton.1 h⟩
    · split at h
      · exact Or.inr (hpend _ _ h)
      · cases h

theorem Opening.commitDurable {l : List Change} (h : ∀ c ∈ l, (∃ p n k, c = .partCreate p n k) ∨ ∃ p w b, c = .sealSet p w b) (s : State) :
    Opening s (commitDurable s l) := by
  have hfold : ∀ t : State, Opening t (l.foldl (applyChange (t.commit.seq)) t) := fun t =>
    List.foldlRecOn (motive := fun u => Opening t u) l (applyChange t.commit.seq) (refl t) fun u hu c hc => hu.trans (of_created (h c hc))
  obtain ⟨_, _, _, _, _, hd⟩ := (durableItem_durable (commitOne (s, []) ⟨[], l, 0, none⟩).1 ⟨[], l, s.commit.seq + 1, none⟩).only
  change Opening s (durableItem (commitOne (s, []) ⟨[], l, 0, none⟩).1 ⟨[], l, s.commit.seq + 1, none⟩)
  rw [hd]
  exact trans (b := { s with commit := { s.commit with seq := s.commit.seq + 1 } }) ⟨rfl, rfl, rfl, rfl⟩
    ((hfold { s with commit := { s.commit with seq := s.commit.seq + 1 } }).trans ⟨rfl, rfl, rfl, rfl⟩)

theorem Opening.createPart0 (s : State) : Opening s (createPart0 s) := by
  unfold Machine.createPart0
  split
  · exact ((drawSecret s 0 32).trans (drawSecret _ 0 32)).trans (commitDurable (fun _ => mem_createChanges) _)
  · exact .refl s

theorem stored_part (s : State) (r : Nat) : tgetD (tmap s.parts (fun _ x => x.stored)) r (part0 r) = (s.part r).stored := by
  rw [State.part, tgetD, tget_tmap, tgetD]
  cases tget s.parts r <;> rfl

theorem State.modBoth_part (s : State) (p q : Nat) (f : Part → Part) :
    (s.modBoth p f).part q = if q = p then (f (s.part p).stored).under (s.part p) else s.part q := by
  rw [State.modBoth, withBase_part]
  change (tgetD (tmod (tmap s.parts (fun _ x => x.stored)) p (part0 p) f) q (part0 q)).under (s.part q) = _
  rw [tmod, tgetD_tset, stored_part]
  split
  · next h => rw [h]
  · rw [stored_part, Part.under_stored]

/-- A partition whose key domain is ACTIVE has its storage key (R157). -/
def Opened (s : State) (p : Nat) : Prop := (s.part p).key = .active → (s.part p).psk.isSome = true

theorem openPart_opens (s : State) (kd : Bytes) (p : Nat) : Opening s (openPart s kd p) ∧ Opened (openPart s kd p) p ∧
    ∀ q, q ≠ p → (openPart s kd p).part q = s.part q := by
  unfold openPart
  dsimp only
  split
  · next h => exact ⟨.refl s, fun hk => absurd hk h.1, fun _ _ => rfl⟩
  · split
    · refine ⟨⟨rfl, rfl, rfl, rfl⟩, fun _ => ?_, fun q hq => ?_⟩
      · rw [State.modPart_part, if_pos rfl]
        rfl
      · rw [State.modPart_part, if_neg hq, State.modBoth_part, if_neg hq]
    · have hpart : ∀ q, (raise (logMain (s.modBoth p (fun y => { y with key := .sealFailed })) 5 0x0300 0x0302 p 0 []) 1037).part q =
          (s.modBoth p (fun y => { y with key := .sealFailed })).part q := fun q => by
        rw [State.part, raise_parts, logMain_parts, State.part]
      refine ⟨Opening.trans (b := s.modBoth p (fun y => { y with key := .sealFailed })) ⟨rfl, rfl, rfl, rfl⟩ (.raise_log _ _ _ _ _ _ _ _), fun hk => ?_,
        fun q hq => ?_⟩
      · rw [hpart, State.modBoth_part, if_pos rfl] at hk
        cases hk
      · rw [hpart, State.modBoth_part, if_neg hq]

/-- Every partition that is not open yet is opened, or its seal found broken (R157). -/
def openAll (s : State) (kd : Bytes) : State := (List.range 256).foldl (fun t p => if (t.part p).psk.isSome then t else openPart t kd p) s

theorem openAll_opens (s : State) (kd : Bytes) : Opening s (openAll s kd) ∧ ∀ p, p < 256 → Opened (openAll s kd) p := by
  refine ⟨.fold (fun t p => ?_) _ s, fun p hp => ?_⟩
  · split
    · exact .refl t
    · exact (openPart_opens t kd p).1
  · refine foldl_reaches (I := fun _ => True) (Q := fun t => Opened t p) (fun _ _ _ => trivial) (fun t q hq => ?_) (List.mem_range.2 hp)
      (fun t _ => ?_) trivial
    · split
      · exact hq
      · by_cases h : p = q
        · exact h ▸ (openPart_opens t kd p).2.1
        · rw [Opened, (openPart_opens t kd q).2.2 p h]
          exact hq
    · split
      · next h => exact fun _ => h
      · exact (openPart_opens t kd p).2.1

theorem withMeas_part (s : State) (m p : Nat) : (s.withBase (fun b => { b with meas := { b.meas with migration := m } })).part p = s.part p := by
  rw [withBase_part]
  change (tgetD (tmap s.parts (fun _ x => x.stored)) p (part0 p)).under (s.part p) = s.part p
  rw [stored_part, Part.under_stored]

theorem settleMigration_settles (s : State) (a b : Bool) : Opening s (settleMigration s a b) ∧ ∀ p, (settleMigration s a b).part p = s.part p := by
  unfold settleMigration
  dsimp only
  generalize (if a then 2 else if b then 3 else s.meas.migration) = m
  split
  · exact ⟨.refl s, fun _ => rfl⟩
  · refine ⟨Opening.trans (b := s.withBase (fun b => { b with meas := { b.meas with migration := m } })) ⟨rfl, rfl, rfl, rfl⟩
      (.raise_log _ _ _ _ _ _ _ _), fun p => ?_⟩
    rw [State.part, raise_parts, logMain_parts]
    exact withMeas_part s m p

/-- The key store read in and the extend port closed (R145, R501). -/
def State.loadKeys (s : State) : State := { s with
  meas := { s.meas with portOpen := false }
  power := { s.power with dramValid := true }
  keys := { s.keys with recs := tmap s.keys.recs (fun _ r => { r with dram := r.nand }) } }

/-- The loaded key store opened, before KD is cleared. -/
def keyStoreOpened (s : State) (kd : Bytes) (q : Nat) (a b : Bool) : State := settleMigration (openAll (createPart0 (quarantineAs s q)) kd) a b

theorem keyStoreOpened_opens (s : State) (kd : Bytes) (q : Nat) (a b : Bool) : Opening s (keyStoreOpened s kd q a b) ∧
    ∀ p, p < 256 → Opened (keyStoreOpened s kd q a b) p := by
  obtain ⟨hopen, hall⟩ := openAll_opens (createPart0 (quarantineAs s q)) kd
  obtain ⟨hsettle, hpart⟩ := settleMigration_settles (openAll (createPart0 (quarantineAs s q)) kd) a b
  refine ⟨(((Opening.of_collar (.quarantineAs s q)).trans (.createPart0 _)).trans hopen).trans hsettle, fun p hp => ?_⟩
  rw [Opened, keyStoreOpened, hpart]
  exact hall p hp

/-- What KEY_STORE_LOADED makes of a start that has KD. -/
theorem keyStoreLoad_opens {s : State} {kd : Bytes} (hb : s.booting = true) (h3 : s.power.stopPoint = 3) (hk : s.keys.kd = some kd) :
    ∃ q a b, execKeyStoreLoaded s = .next (reachStop { keyStoreOpened s.loadKeys kd q a b with
      keys := { (keyStoreOpened s.loadKeys kd q a b).keys with kd := none } } 4) := by
  unfold execKeyStoreLoaded
  rw [hk]
  dsimp only
  rw [if_neg (by simp [hb, h3])]
  exact ⟨_, _, _, rfl⟩

theorem idleRole_ready (s : State) : State.idleRole { s with power := { s.power with stopPoint := 5 }, service := .ready } =
    if s.paired = true then (if s.seam.quarantine = 0 then 1 else 4) else 0 := by
  have hp : State.paired { s with power := { s.power with stopPoint := 5 }, service := .ready } = s.paired := rfl
  rw [State.idleRole, hp]
  cases s.paired <;> simp

end Sys2Proof.Machine

/-- Settles O43: the measured start up to the first two stop points, the key store opened, and READY. -/
theorem startUpReachesReady : Obligations.StartUpReachesReady := by
  unfold Obligations.StartUpReachesReady
  refine fun s hb hr => ⟨fun hm h0 hn hq hp => ?_, fun kd h3 hkd => ?_, fun h4 he => ?_⟩
  · obtain ⟨m, e, l, hbegin, hearly⟩ := beginFirmware_begins hr h0 hp
    rw [dispatch_stopPoint1, execStopPoint1, if_neg (by simp [hm, hb, h0, hq, Option.isSome_iff_ne_none.1 hn])]
    have hboot : (beginFirmware s).booting = true := by rw [hbegin]; exact hb
    have hresp : (beginFirmware s).tamper.response = none := by rw [hbegin]; exact hr
    have hready : (beginFirmware s).entropy.ready = s.entropy.ready := by rw [hbegin]
    have hstart : s.service = .starting := by
      rw [State.booting, Bool.and_eq_true, beq_iff_eq] at hb
      exact hb.1
    unfold reachWithEntropy
    rw [hboot, hready]
    cases he : s.entropy.ready with
    | false =>
      rw [if_neg (by simp), hbegin]
      exact ⟨_, rfl, rfl, rfl, hearly, rfl, rfl, rfl, fun _ => ⟨rfl, hstart⟩, nofun⟩
    | true =>
      obtain ⟨k, f, v, q, e', h2, hk⟩ := reachStop_second hresp
      rw [if_pos ⟨rfl, rfl⟩, h2, hbegin]
      exact ⟨_, rfl, rfl, rfl, hearly, rfl, rfl, rfl, nofun, fun _ => ⟨rfl, hk, rfl⟩⟩
  · obtain ⟨q, a, b, hload⟩ := keyStoreLoad_opens hb h3 hkd
    obtain ⟨hopen, hparts⟩ := keyStoreOpened_opens (s.loadKeys) kd q a b
    have hresp : (keyStoreOpened s.loadKeys kd q a b).tamper.response = none := by rw [hopen.tamper]; exact hr
    rw [dispatch_keyStoreLoaded, hload, reachStop_plain (s := { keyStoreOpened s.loadKeys kd q a b with
      keys := { (keyStoreOpened s.loadKeys kd q a b).keys with kd := none } }) (n := 4) hresp (by omega) (by omega)]
    refine ⟨_, rfl, rfl, rfl, hopen.port, ?_, hparts, ?_⟩
    · exact congrArg (·.dramValid) hopen.power
    · exact congrArg (·.otp) hopen.life
  · have hready := reachStop_plain (n := 5) hr (by omega) (by omega)
    have hboot : ({ s with power := { s.power with stopPoint := 5 } } : State).booting = true := hb
    rw [dispatch_serviceReady, execServiceReady, if_neg (by simp [hb, h4, he]), hready]
    dsimp only
    rw [if_pos hboot]
    refine ⟨_, rfl, by rw [noteService_service], by rw [noteService_power], ?_, by rw [noteService_keys], by rw [noteService_parts],
      by rw [noteService_rings]⟩
    rw [noteService_pair]
    exact idleRole_ready s
end

section
open Sys2Proof.Machine

/-! SUPPORT. An orderly reset waits for its preamble; what PFAIL closes and its flush leaves; STANDBY. -/

namespace Sys2Proof.Machine

/-! ### A disable procedure and the tamper side -/

/-- The tamper side, the life cycle, the service state and the model's stream counter stand. -/
def Calm (s t : State) : Prop := t.tamper = s.tamper ∧ t.service = s.service ∧ t.life = s.life ∧ t.free = s.free

namespace Calm

theorem refl (s : State) : Calm s s := ⟨rfl, rfl, rfl, rfl⟩

theorem trans {a b c : State} (h : Calm a b) (h' : Calm b c) : Calm a c :=
  ⟨h'.1.trans h.1, h'.2.1.trans h.2.1, h'.2.2.1.trans h.2.2.1, h'.2.2.2.trans h.2.2.2⟩

theorem fold {α : Type} {g : State → α → State} (hg : ∀ t a, Calm t (g t a)) (l : List α) (s : State) : Calm s (l.foldl g s) :=
  foldl_rel refl (fun _ _ _ => trans) g hg l s

theorem of_work {s t : State} (h : WorkOnly s t) : Calm s t := by
  obtain ⟨_, _, _, _, _, _, _, _, _, rfl⟩ := h
  exact ⟨rfl, rfl, rfl, rfl⟩

theorem modFn (s : State) (n : Nat) (f : Fn → Fn) : Calm s (s.modFn n f) := ⟨rfl, rfl, rfl, rfl⟩

theorem resetFunction (s : State) (n : Nat) : Calm s (resetFunction s n) := by
  unfold Machine.resetFunction
  extract_lets s1 s2
  split <;> exact ⟨rfl, rfl, rfl, rfl⟩

theorem enableParts (s : State) (n : Nat) : Calm s (enableParts s n) := by
  unfold Machine.enableParts
  split
  · exact refl s
  · refine fold (fun t p => ?_) _ s
    split
    · exact ⟨rfl, rfl, rfl, rfl⟩
    · exact refl t

theorem functionSettled (s : State) (n : Nat) : Calm s (functionSettled s n) := by
  unfold Machine.functionSettled
  split
  · exact refl s
  · extract_lets s1
    have h1 : Calm s s1 := by
      simp only [s1]
      split
      · exact modFn s n _
      · exact refl s
    split
    · exact (h1.trans (resetFunction s1 n)).trans (enableParts _ n)
    · exact h1

theorem disableFn (s : State) (n : Nat) (t : Trigger) : Calm s (disableFn s n t) :=
  ((modFn s n _).trans (fold (fun u p => of_work (disablePart_workOnly u p t none)) _ _)).trans (functionSettled _ n)

theorem disableAll (s : State) (t : Trigger) : Calm s (disableAll s t) := fold (fun u n => disableFn u n t) _ s

end Calm

theorem StopsService.disableAll (s : State) (t : Trigger) : StopsService s (disableAll s t) := .fold (fun u n => .disableFn u n t) _ s

/-! ### A reset that waits for its preamble -/

theorem askReset_waiting {s : State} {kind source : Nat} (hf : s.power.pfail = false)
    (hk : kind ≠ 2 ∨ s.power.stopPoint ≠ 0 ∨ s.service ≠ .starting) :
    (askReset s ⟨kind, source, true, 0⟩).power.waiting.isSome = true ∧
      (s.power.waiting = none → (askReset s ⟨kind, source, true, 0⟩).power.waiting = some ⟨kind, source, true, 0⟩) := by
  unfold askReset
  rw [if_neg (by simp [hf]), if_neg (by dsimp only; tauto)]
  split
  · exact ⟨rfl, fun _ => rfl⟩
  · rename_i w hw
    exact ⟨rfl, fun h => by simp [hw] at h⟩

/-- An orderly reset waits, and every function's disable procedure starts (R493). -/
theorem orderlyReset_asks {s : State} {kind source : Nat} (hf : s.power.pfail = false)
    (hk : kind ≠ 2 ∨ s.power.stopPoint ≠ 0 ∨ s.service ≠ .starting) :
    Asked s (orderlyReset s kind source) kind source ∧ (orderlyReset s kind source).bus = s.bus ∧
      (orderlyReset s kind source).commit = s.commit := by
  obtain ⟨hsome, hnew⟩ := askReset_waiting (source := source) hf hk
  obtain ⟨p, l, hask⟩ := askReset_only s ⟨kind, source, true, 0⟩
  have hservice : StopsService (askReset s ⟨kind, source, true, 0⟩) (orderlyReset s kind source) := by
    rw [orderlyReset, if_neg (by simp [Option.isSome_iff_ne_none.mp hsome])]
    exact (StopsService.disableAll _ .flr).trans (.noteFunctions s _)
  have hcalm : Calm (askReset s ⟨kind, source, true, 0⟩) (orderlyReset s kind source) := by
    rw [orderlyReset, if_neg (by simp [Option.isSome_iff_ne_none.mp hsome])]
    obtain ⟨e, he⟩ := noteFunctions_only s (disableAll (askReset s ⟨kind, source, true, 0⟩) .flr)
    exact (Calm.disableAll _ .flr).trans (by rw [he]; exact ⟨rfl, rfl, rfl, rfl⟩)
  have hcommit : (orderlyReset s kind source).commit = s.commit := hservice.commit.trans (by rw [hask])
  refine ⟨⟨by rw [hservice.power, hsome], fun h => by rw [hservice.power, hnew h], hservice.keys.trans (by rw [hask]),
    hcalm.1.trans (by rw [hask]), hcalm.2.1.trans (by rw [hask]), by rw [hcommit]⟩, hservice.bus.trans (by rw [hask]), hcommit⟩

/-- What asks for a reset of `t` asks for it of a state that differs from `t` neither in these parts. -/
theorem Asked.of_kept {s t u : State} {kind source : Nat} (h : Asked t u kind source) (hp : t.power = s.power) (hk : t.keys = s.keys)
    (ht : t.tamper = s.tamper) (hs : t.service = s.service) (hb : t.commit.base = s.commit.base) : Asked s u kind source := by
  obtain ⟨hsome, hnew, hkeys, htamper, hservice, hbase⟩ := h
  exact ⟨hsome, fun hn => hnew (by rw [hp, hn]), hkeys.trans hk, htamper.trans ht, hservice.trans hs, hbase.trans hb⟩

theorem exec_reset_register {s : State} {kind : Nat} (ho : s.barOpen 0 = true) (hf : s.power.pfail = false)
    (hk : kind ≠ 2 ∨ s.power.stopPoint ≠ 0 ∨ s.service ≠ .starting) :
    Asked s (hifReset s kind 0x5AC3) kind 0x03 ∧ (hifReset s kind 0x5AC3).bus = s.bus := by
  obtain ⟨h, hb, -⟩ := orderlyReset_asks (source := 0x03) hf hk
  rw [hifReset, barAccess_open 0x008 _ ho, if_pos rfl]
  exact ⟨h, hb⟩

/-- A register write under another key does nothing. -/
theorem hifReset_other {s : State} {kind key : Nat} (hk : key ≠ 0x5AC3) (ho : s.barOpen 0 = true) : hifReset s kind key = s := by
  rw [hifReset, barAccess_open 0x008 _ ho, if_neg hk]

/-- A write that is served in BOOT_STOPPED too. -/
theorem serveWrite_always {s t : State} {rq : Req} {idx sub op : Nat} {may : State → Bool} {f : State → State}
    (ht : takeReq s rq idx sub op = (t, true)) (hm : may t = true) : serveWrite s rq idx sub op true may f = f t := by
  simp [serveWrite, ht, hm]

theorem serial_length : serial.length = 12 := by simp [serial]

theorem resetCheck_serial {kind : Nat} (h : kind = 1 ∨ kind = 2) : resetCheck kind serial = none := by
  rw [resetCheck, if_neg (by simp [serial_length]), if_neg (by simp; omega)]

theorem resetRequest_asks {rq : Req} {kind : Nat} {s t : State} (ht : takeReq s rq 0xA001 1 0x20 = (t, true))
    (hh : t.holds rq 1 false = true) (hf : t.power.pfail = false)
    (hk : kind = 1 ∨ (kind = 2 ∧ (t.power.stopPoint ≠ 0 ∨ t.service ≠ .starting))) :
    Asked t (resetRequest rq kind serial s) kind 0x04 ∧
      (resetRequest rq kind serial s).bus.replies = t.bus.replies ++ [(rq, replyBody 0xA001 1 0x20 0 rq.reqId [])] := by
  obtain ⟨o, e, hsend⟩ := sendReply_only t rq 0xA001 1 0x20 0 []
  have heq : resetRequest rq kind serial s = orderlyReset (acceptNow t rq 0xA001 1 0x20 []) kind 0x04 := by
    rw [resetRequest, serveWrite_always ht hh, resetCheck_serial (by tauto)]
  have hnow : acceptNow t rq 0xA001 1 0x20 [] = _ := hsend
  obtain ⟨h, hb, -⟩ := orderlyReset_asks (s := acceptNow t rq 0xA001 1 0x20 []) (kind := kind) (source := 0x04)
    (by rw [hnow]; exact hf) (by
      rw [hnow]
      rcases hk with rfl | ⟨-, hk⟩
      · exact .inl (by decide)
      · exact .inr hk)
  rw [heq]
  exact ⟨h.of_kept (by rw [hnow]) (by rw [hnow]) (by rw [hnow]) (by rw [hnow]) (by rw [hnow]),
    (congrArg Bus.replies hb).trans (by rw [hnow]; rfl)⟩

theorem refuse_power (s : State) (rq : Req) (idx sub op : Nat) (st : Status) : (refuse s rq idx sub op st).power = s.power := by
  obtain ⟨_, _, h⟩ := sendReply_only s rq idx sub op st.code []
  rw [refuse, h]

theorem seamReset_asks {rq : Req} {v grant : Bytes} {s t : State} {g : Grant} (ht : takeReq s rq 0xA001 1 0x21 = (t, true))
    (hm : rq.transport = 2 ∨ t.anyRole rq = true ∨ t.factory = true) (hf : t.power.pfail = false) (hk : t.keys.grantKey.isSome = true)
    (hg : t.grantFor 10 0 v grant false = some g) (hd : g.digest = Sha.sha256 v) (hv : v = [1#8, 0#8, 0#8, 0#8] ++ serial) :
    Asked t (seamReset rq v grant s) 1 0x05 ∧ ∃ i ∈ (seamReset rq v grant s).commit.queue, i.changes = [Change.grantUse g.id g.own] := by
  obtain ⟨o, e, hsend⟩ := sendReply_only t rq 0xA001 1 0x21 0 []
  have hvalid : ¬ (v.length ≠ 16 ∨ byteAt v 0 ≠ 1 ∨ !allZero (slice v 1 3) ∨ slice v 4 12 ≠ serial) := by
    subst hv
    have hkind : byteAt ([1#8, 0#8, 0#8, 0#8] ++ serial) 0 = 1 := rfl
    have hzero : allZero (slice ([1#8, 0#8, 0#8, 0#8] ++ serial) 1 3) = true := rfl
    have hser : slice ([1#8, 0#8, 0#8, 0#8] ++ serial) 4 12 = serial := by
      simp [slice, serial_length, List.take_of_length_le, zeros]
    rintro (h | h | h | h)
    · exact h (by simp [serial_length])
    · exact h hkind
    · rw [hzero] at h
      cases h
    · exact h hser
  have heq : seamReset rq v grant s =
      orderlyReset (commitQuietly (acceptNow t rq 0xA001 1 0x21 []) [.grantUse g.id g.own]) 1 0x05 := by
    rw [seamReset, serveWrite_always ht (by simpa [or_assoc] using hm), if_neg (by simp [Option.isSome_iff_ne_none.mp hk]), hg]
    dsimp only
    rw [if_neg (not_not.mpr hd), if_neg hvalid]
  have hnow : acceptNow t rq 0xA001 1 0x21 [] = _ := hsend
  obtain ⟨h, -, hc⟩ := orderlyReset_asks (s := commitQuietly (acceptNow t rq 0xA001 1 0x21 []) [.grantUse g.id g.own]) (kind := 1)
    (source := 0x05) (by rw [hnow]; exact hf) (.inl (by decide))
  rw [heq]
  refine ⟨h.of_kept (by rw [hnow]; rfl) (by rw [hnow]; rfl) (by rw [hnow]; rfl) (by rw [hnow]; rfl) (by rw [hnow]; rfl),
    ⟨[], [.grantUse g.id g.own], 0, none⟩, ?_, rfl⟩
  rw [hc]
  exact List.mem_append_right _ (List.mem_singleton_self _)

/-- Without a grant over the value nothing is asked for. -/
theorem seamReset_refused {rq : Req} {v grant : Bytes} {s t : State} (ht : takeReq s rq 0xA001 1 0x21 = (t, true))
    (hm : rq.transport = 2 ∨ t.anyRole rq = true ∨ t.factory = true) (hg : t.grantFor 10 0 v grant false = none) :
    (seamReset rq v grant s).power = t.power := by
  rw [seamReset, serveWrite_always ht (by simpa [or_assoc] using hm)]
  split
  · exact refuse_power ..
  · rw [hg]
    exact refuse_power ..

theorem orderlyReset_keys (s : State) (kind source : Nat) : (orderlyReset s kind source).keys = s.keys := by
  obtain ⟨p, l, hask⟩ := askReset_only s ⟨kind, source, true, 0⟩
  unfold orderlyReset
  dsimp only
  split
  · rw [hask]
  · rw [((StopsService.disableAll _ .flr).trans (.noteFunctions s _)).keys, hask]

theorem seamReset_keys {rq : Req} {v grant : Bytes} {s t : State} (ht : takeReq s rq 0xA001 1 0x21 = (t, true))
    (hm : rq.transport = 2 ∨ t.anyRole rq = true ∨ t.factory = true) : (seamReset rq v grant s).keys = t.keys := by
  have hrefuse : ∀ st, (refuse t rq 0xA001 1 0x21 st).keys = t.keys := fun st => by
    obtain ⟨_, _, h⟩ := sendReply_only t rq 0xA001 1 0x21 st.code []
    rw [refuse, h]
  rw [seamReset, serveWrite_always ht (by simpa [or_assoc] using hm)]
  split
  · exact hrefuse _
  · split
    · exact hrefuse _
    · split
      · exact hrefuse _
      · split
        · exact hrefuse _
        · obtain ⟨_, _, h⟩ := sendReply_only t rq 0xA001 1 0x21 0 []
          rw [orderlyReset_keys, acceptNow, h]
          rfl

theorem cocoonReset_asks {rq : Req} {ok : Bool} {grant : Bytes} {use : List Change} {s t : State}
    (ht : Taken s rq 0xA001 3 (writeOp false grant) t) (hg : Granted t rq false 11 0 (leBytes 1 1) grant use)
    (hb : t.unlockBarred ok = false) (hf : t.power.pfail = false) : Asked t (cocoonResetWrite rq 1 ok grant s) 4 0x0C := by
  have heq : cocoonResetWrite rq 1 ok grant s = orderlyReset (acceptUse t rq 0xA001 3 (writeOp false grant) [] use) 4 0x0C := by
    rw [cocoonResetWrite, grantWrite_taken _ ht hg (by simp [boolCheck, hb])]
    exact if_pos rfl
  obtain ⟨o, e, b, c, huse, -, hbase⟩ := acceptUse_only t rq 0xA001 3 (writeOp false grant) [] use
  obtain ⟨h, -, -⟩ := orderlyReset_asks (s := acceptUse t rq 0xA001 3 (writeOp false grant) [] use) (kind := 4) (source := 0x0C)
    (by rw [huse]; exact hf) (.inl (by decide))
  rw [heq]
  exact h.of_kept (by rw [huse]) (by rw [huse]) (by rw [huse]) (by rw [huse]) (by rw [huse]; exact hbase)

theorem cocoonReset_stands {rq : Req} {ok : Bool} {grant : Bytes} {use : List Change} {s t : State}
    (ht : Taken s rq 0xA001 3 (writeOp false grant) t) (hg : Granted t rq false 11 0 (leBytes 1 0) grant use) :
    cocoonResetWrite rq 0 ok grant s = acceptUse t rq 0xA001 3 (writeOp false grant) [] use := by
  rw [cocoonResetWrite, grantWrite_taken _ ht hg (by simp [boolCheck])]
  exact if_neg (by decide)

/-! ### PFAIL -/

/-- What the abort of the started operations writes. -/
theorem abortEngines_only (s : State) : ∃ a, abortEngines s = { s with adm := a } := by
  unfold abortEngines
  refine foldl_rel (P := fun s t => ∃ a, t = { s with adm := a }) (fun s => ⟨s.adm, rfl⟩) ?_ _ (fun t e => ?_) _ s
  · rintro a b c ⟨_, rfl⟩ ⟨_, rfl⟩
    exact ⟨_, rfl⟩
  · split
    · exact ⟨t.adm, rfl⟩
    · split
      · unfold State.modSlot
        split
        · exact ⟨t.adm, rfl⟩
        · exact ⟨_, rfl⟩
      · exact ⟨t.adm, rfl⟩

/-- Every started operation of a Hawkmoth engine is aborted (R505). -/
theorem abortEngines_aborts {s : State} {n e : Nat} {x : Slot} (hx : s.slot n = some x) (hu : x.unit = some (.hawkmoth, e))
    (hc : x.cut = none) : ∃ y, (abortEngines s).slot n = some y ∧ y.cut = some .aborted := by
  unfold abortEngines
  refine foldl_reaches (I := fun t => ∃ y, t.slot n = some y) (Q := fun t => ∃ y, t.slot n = some y ∧ y.cut = some .aborted)
    (fun t a => ?_) (fun t a => ?_) (mem_of_tget hx) (fun t => ?_) ⟨x, hx⟩
  · rintro ⟨y, hy⟩
    split
    · exact ⟨y, hy⟩
    · split
      · rw [State.modSlot_slot]
        split
        · subst n; exact ⟨_, by rw [hy]; rfl⟩
        · exact ⟨y, hy⟩
      · exact ⟨y, hy⟩
  · rintro ⟨y, hy, hcut⟩
    split
    · exact ⟨y, hy, hcut⟩
    · split
      · rw [State.modSlot_slot]
        split
        · subst n; exact ⟨_, by rw [hy]; rfl, rfl⟩
        · exact ⟨y, hy, hcut⟩
      · exact ⟨y, hy, hcut⟩
  · rintro ⟨y, hy⟩
    dsimp only
    rw [hu]
    dsimp only
    rw [if_pos (by simp [UnitClass.zeroes, hc]), State.modSlot_slot, if_pos rfl, hy]
    exact ⟨_, rfl, rfl⟩

/-! ### The cycle that a close numbers -/

theorem uninstantiate_commit (s : State) (p : Nat) (st : Status) : (uninstantiate s p st).commit = s.commit := by
  refine foldl_rel (P := fun a b : State => b.commit = a.commit) (fun _ => rfl) (fun _ _ _ h h' => h'.trans h) _ (fun t e => ?_)
    (s.adm.slots.filter (fun e => e.2.part == p)) s
  split
  · rfl
  · split
    · exact (WorkOnly.fail t _ _ _).commit
    · split
      · exact (WorkOnly.modSlot t _ _).commit
      · rfl

theorem pairSet_cycle (s : State) : (pairSet s).commit.cycle = s.commit.cycle := by
  unfold pairSet
  split
  · split
    · rw [noteService_commit]
    · rfl
  · rw [noteService_commit]

theorem odEffect_cycle (s : State) (idx sub : Nat) : (odEffect s idx sub).commit.cycle = s.commit.cycle := by
  unfold odEffect
  split
  · rfl
  · split
    · obtain ⟨m, h⟩ := trainPorts_only s
      rw [h]
    · split
      · obtain ⟨m, h⟩ := trainPorts_only (pairSet s)
        rw [h]
        exact pairSet_cycle s
      · rfl

theorem withLogs_cycle (s : State) (l : List CommitLog) :
    ({ s with commit := { s.commit with logs := l } } : State).commit.cycle = s.commit.cycle := rfl

/-- A committed change numbers no cycle. -/
theorem applyChange_cycle (seq : Nat) (s : State) (c : Change) : (applyChange seq s c).commit.cycle = s.commit.cycle := by
  cases c with
  | record slot r =>
    unfold applyChange
    dsimp only
    split <;> rfl
  | recordFree slot =>
    change (freeRecord s slot).commit.cycle = _
    unfold freeRecord
    split <;> rfl
  | large => rfl
  | largeFree => rfl
  | revoke slot =>
    unfold applyChange
    dsimp only
    split
    · rfl
    · split
      · rfl
      · split <;> rfl
  | lineageFree i =>
    change (freeLineage s i).commit.cycle = _
    unfold freeLineage
    dsimp only
    split <;> rfl
  | restrict => rfl
  | counter => rfl
  | atc => rfl
  | atcTable => rfl
  | grant => rfl
  | grantUse => rfl
  | od idx sub v => exact odEffect_cycle _ idx sub
  | partCreate => rfl
  | partDestroy p =>
    change (freePages (dropCache (uninstantiate _ p .notActive) _) _).commit.cycle = s.commit.cycle
    unfold freePages dropCache
    rw [uninstantiate_commit]
    exact congrArg Commit.cycle (closeSessions_commit _ _)
  | sealSet => rfl
  | creation => rfl
  | log => exact withLogs_cycle s _
  | checkFail => rfl
  | migration st =>
    unfold applyChange
    dsimp only
    split
    · rfl
    · rw [raise_commit, logMain_commit]
  | manifest => rfl
  | logClear =>
    change (clearLog s _).commit.cycle = s.commit.cycle
    unfold clearLog
    dsimp only
    rw [logMain_commit]

theorem foldl_modSlot_commit (f : Slot → Slot) (l : List Nat) (s : State) : (l.foldl (fun t n => t.modSlot n f) s).commit = s.commit := by
  obtain ⟨a, h⟩ := foldl_modSlot_only f l s
  rw [h]

theorem commitOne_cycle (acc : State × List Item) (i : Item) : (commitOne acc i).1.commit.cycle = acc.1.commit.cycle := by
  unfold commitOne
  dsimp only
  rw [foldl_modSlot_commit]
  exact foldl_rel (P := fun a b : State => b.commit.cycle = a.commit.cycle) (fun _ => rfl) (fun _ _ _ h h' => h'.trans h)
    (applyChange (acc.1.commit.seq + 1)) (fun t c => applyChange_cycle _ t c) i.changes _

theorem foldl_commitOne_cycle (l : List Item) (acc : State × List Item) :
    (l.foldl commitOne acc).1.commit.cycle = acc.1.commit.cycle := by
  induction l generalizing acc with
  | nil => rfl
  | cons i l ih => exact (ih _).trans (commitOne_cycle acc i)

theorem closeItems_cycle (s : State) (room : Nat) : (closeItems s room).1.commit.cycle = s.commit.cycle := by
  exact foldl_commitOne_cycle (s.closing room) ({ s with commit := { s.commit with queue := s.commit.queue.drop (s.closing room).length } }, [])

/-- The next cycle is the one that closes (R543). -/
theorem closeCycle_next (s : State) (handover : Bool) : (closeCycle s handover).commit.cycle = s.commit.cycle + 1 ∧
    (closeCycle s handover).power = s.power := by
  have hc := closeItems_cycle s (625000 - 80)
  have hp := (Unmoved.closeItems s (625000 - 80)).power
  unfold closeCycle
  dsimp only
  split <;> exact ⟨congrArg (· + 1) hc, hp⟩

theorem closePage_power (s : State) : (closePage s).power = s.power := by
  unfold closePage
  dsimp only
  split
  · rfl
  · exact (Unmoved.closeItems s 16384).power

/-- What PFAIL writes of the power state (R484, R495, R505). -/
def PowerState.failing (p : PowerState) : PowerState :=
  { p with pfail := true, flushed := false, pfails := min 0xFFFFFFFF (p.pfails + 1), waiting := none, standbyReq := none }

/-- PFAIL's interrupt and the abort of the started operations (R505). -/
def State.pfailAborted (s : State) : State := abortEngines (raise { s with power := s.power.failing } 1030)

theorem State.pfailAborted_only (s : State) : ∃ a e, s.pfailAborted = { s with power := s.power.failing, adm := a, eic := e } := by
  obtain ⟨e, he⟩ := raise_only { s with power := s.power.failing } 1030
  obtain ⟨a, ha⟩ := abortEngines_only (raise { s with power := s.power.failing } 1030)
  rw [he] at ha
  exact ⟨a, e, by rw [pfailAborted, he, ha]⟩

theorem exec_pfail_eq {s : State} (hf : s.power.pfail = false) (hp : s.power.mainOk = true ∨ s.power.power = .standby) :
    exec .pfail s = .next (if s.power.power = .standby then { s with power := s.power.failing }
      else if s.pfailAborted.power.stopPoint < 4 then s.pfailAborted
      else if s.pfailAborted.paired then (if s.pfailAborted.pair.role = 3 then closeCycle s.pfailAborted false else s.pfailAborted)
      else if s.pfailAborted.commit.queue = [] then s.pfailAborted else closePage s.pfailAborted) := by
  rw [dispatch_pfail, execPfail, if_neg (by rcases hp with h | h <;> simp [h, hf])]
  rfl

theorem State.pfailAborted_aborts {s : State} {n e : Nat} {x : Slot} (hx : s.slot n = some x) (hu : x.unit = some (.hawkmoth, e))
    (hc : x.cut = none) : ∃ y, s.pfailAborted.slot n = some y ∧ y.cut = some .aborted := by
  refine abortEngines_aborts (x := x) (e := e) ?_ hu hc
  obtain ⟨i, hi⟩ := raise_only { s with power := s.power.failing } 1030
  rw [hi]
  exact hx

/-- PFAIL once admission has stopped: the open cycle or page closes (R505). -/
theorem exec_pfail_closes {s : State} (hf : s.power.pfail = false) (hp : s.power.mainOk = true ∨ s.power.power = .standby) :
    ∃ t, exec .pfail s = .next t ∧ t.power = s.power.failing ∧
      (s.power.power ≠ .standby → s.power.stopPoint < 4 ∨ (s.paired = true ∧ s.pair.role ≠ 3) ∨ (s.paired = false ∧ s.commit.queue = []) →
        t = s.pfailAborted) ∧
      (s.power.power ≠ .standby → 4 ≤ s.power.stopPoint → s.paired = true → s.pair.role = 3 → t.commit.cycle = s.commit.cycle + 1) ∧
      (s.power.power = .standby → t = { s with power := s.power.failing }) := by
  obtain ⟨a, e, hab⟩ := s.pfailAborted_only
  have hpaired : s.pfailAborted.paired = s.paired := by rw [hab]; rfl
  have hpower : s.pfailAborted.power = s.power.failing := by rw [hab]
  have hstop : s.pfailAborted.power.stopPoint = s.power.stopPoint := by rw [hpower]; rfl
  have hrole : s.pfailAborted.pair.role = s.pair.role := by rw [hab]
  have hqueue : s.pfailAborted.commit = s.commit := by rw [hab]
  rw [exec_pfail_eq hf hp, hpaired, hstop, hrole, hqueue]
  refine ⟨_, rfl, ?_, fun hs h => ?_, fun hs h4 hpair h3 => ?_, fun hs => if_pos hs⟩
  · split
    · rfl
    · split
      · exact hpower
      · split
        · split
          · exact (closeCycle_next _ false).2.trans hpower
          · exact hpower
        · split
          · exact hpower
          · exact (closePage_power _).trans hpower
  · rw [if_neg hs]
    rcases h with h | ⟨hpair, h3⟩ | ⟨hpair, hq⟩
    · rw [if_pos h]
    · rw [if_pos hpair, if_neg h3, ite_self]
    · rw [hpair, if_neg (by decide : ¬ (false = true)), if_pos hq, ite_self]
  · rw [if_neg hs, if_neg (by omega), if_pos hpair, if_pos h3, (closeCycle_next _ false).1, hqueue]

/-! ### The end of the flush -/

/-- What the flush of the journal moves. -/
def JournalOnly (s t : State) : Prop := ∃ a c k o e b, t = { s with adm := a, commit := c, keys := k, od := o, eic := e, bus := b }

theorem programPage_only (s : State) : JournalOnly s (programPage s) := by
  unfold programPage
  split
  · exact ⟨_, _, _, _, _, _, rfl⟩
  · rename_i c r _
    obtain ⟨a, b, k, o, e, h⟩ := (foldl_durableItem_durable c.items { s with commit := { s.commit with
      pages := r, journal := if c.cycle = 0 then s.commit.journal else s.commit.journal ++ [c] } }).only
    dsimp only
    rw [h]
    exact ⟨_, _, _, _, _, _, rfl⟩

theorem programAll_only (s : State) : JournalOnly s (programAll s) := by
  refine foldl_rel (P := JournalOnly) (fun s => ⟨s.adm, s.commit, s.keys, s.od, s.eic, s.bus, rfl⟩) ?_ _ (fun t _ => programPage_only t)
    s.commit.pages s
  rintro a b c ⟨_, _, _, _, _, _, rfl⟩ ⟨_, _, _, _, _, _, rfl⟩
  exact ⟨_, _, _, _, _, _, rfl⟩

/-- The state as the flush leaves it (R505, R591). -/
def State.flushedOut (s : State) (us : Nat) : State :=
  let s1 := programAll (if s.logOpen then flushLog s true else s)
  logCocoon { s1 with power := { s1.power with flushed := true, flushUs := us % 2 ^ 32 } } 4 0x0A00 0x0A02 0xFF 0 (leBytes 4 us)

theorem State.flushedOut_keeps (s : State) (us : Nat) : (s.flushedOut us).power = { s.power with flushed := true, flushUs := us % 2 ^ 32 } ∧
    (s.flushedOut us).life = s.life ∧ (s.flushedOut us).pending = s.pending := by
  have hlog : ∃ l, (if s.logOpen then flushLog s true else s) = { s with log := l } := by
    split
    · exact flushLog_only s true
    · exact ⟨s.log, rfl⟩
  obtain ⟨l, hl⟩ := hlog
  obtain ⟨a, c, k, o, e, b, h⟩ := programAll_only { s with log := l }
  unfold flushedOut
  dsimp only
  rw [hl, h]
  obtain ⟨l', hl'⟩ := logCocoon_only { s with
    adm := a, commit := c, keys := k, od := o, eic := e, bus := b, log := l
    power := { s.power with flushed := true, flushUs := us % 2 ^ 32 } } 4 0x0A00 0x0A02 0xFF 0 (leBytes 4 us)
  rw [hl']
  exact ⟨rfl, rfl, rfl⟩

/-- What the loss of the main die's power leaves (R484, R486). -/
theorem powerOff_leaves (s : State) : (powerOff s).power.power = .off ∧ (powerOff s).power.mainOk = false ∧ (powerOff s).power.pfail = false ∧
    (powerOff s).rings = [] ∧ (powerOff s).adm.slots = [] ∧ (powerOff s).keys.cache = [] ∧ (powerOff s).eic.wakeArmed = true ∧
    (powerOff s).life.otp = s.life.otp ∧ (powerOff s).pending = s.pending ∧ (powerOff s).power.flushed = s.power.flushed ∧
    (powerOff s).power.flushUs = s.power.flushUs := ⟨rfl, rfl, rfl, rfl, rfl, rfl, rfl, rfl, rfl, rfl, rfl⟩

theorem exec_pfailFlushEnd_eq {s : State} (us : Nat) (hf : s.power.pfail = true) : exec (.pfailFlushEnd us) s = .next
    (if s.power.power = .standby ∨ s.tamper.response = some .erase then powerOff s else powerOff (s.flushedOut us)) := by
  rw [dispatch_pfailFlushEnd, execPfailFlushEnd, if_neg (by simp [hf])]
  rfl

/-! ### STANDBY -/

theorem releaseCollar_only (s : State) : ∃ p e, releaseCollar s = { s with pair := p, eic := e } := by
  unfold releaseCollar
  split
  · dsimp only
    split
    · obtain ⟨e, h⟩ := raise_only { s with pair := { s.pair with collarTx := false, role := 4, switching := none } } 1033
      rw [h]
      exact ⟨_, e, rfl⟩
    · exact ⟨_, s.eic, rfl⟩
  · exact ⟨s.pair, s.eic, rfl⟩

/-- A STANDBY request waits for its preparation; the collar is released and every function's disable procedure starts (R488). -/
theorem powerRequest_waits {rq : Req} {s t : State} (ht : Taken s rq 0xA000 2 0x20 t) (hh : t.holds rq 1 false = true)
    (hs : t.service ≠ .starting) (htr : t.life.trans = none) (hr : t.life.resetPend = false) (hq : t.power.standbyReq = none)
    (hw : t.power.waiting = none) (hz : 152 ∉ t.tamper.flags) :
    (powerRequest rq 2 s).power = { t.power with standbyReq := some rq } ∧ (powerRequest rq 2 s).keys = t.keys ∧
      (powerRequest rq 2 s).commit.base = t.commit.base ∧ (powerRequest rq 2 s).bus = t.bus := by
  have heq : powerRequest rq 2 s = noteService t (noteFunctions t (disableAll
      (releaseCollar { t with power := { t.power with standbyReq := some rq } }) .flr)) := by
    rw [powerRequest, roleWrite_taken ht.1 ht.2 hh]
    simp [hs, htr, hr, hq, hw, hz]
  have hd := (StopsService.disableAll (releaseCollar { t with power := { t.power with standbyReq := some rq } }) .flr).trans
    (.noteFunctions t _)
  obtain ⟨p, e, hrel⟩ := releaseCollar_only { t with power := { t.power with standbyReq := some rq } }
  rw [heq, noteService_power, noteService_keys, noteService_commit, noteService_bus, hd.power, hd.keys, hd.commit, hd.bus, hrel]
  exact ⟨rfl, rfl, rfl, rfl⟩

end Sys2Proof.Machine

/-- Settles O44: what asks for a reset only lets it wait while every function's disable procedure starts; PFAIL closes one cycle, and its
flush moves the journal and the log alone. -/
theorem powerCommands : Obligations.PowerCommands := by
  unfold Obligations.PowerCommands
  refine ⟨fun s ho hf => ⟨?_, fun hk => ?_, fun k hk => ⟨?_, ?_⟩⟩, fun rq kind s t ht hh hf hk => ?_, fun rq v grant s t ht hm hf => ?_,
    fun rq ok grant use s t => ⟨fun ht hg hb hf => ?_, fun ht hg => ?_⟩, fun s hf hp => ?_, fun us s hf => ?_, fun s => ?_,
    fun rq s t ht hh hs htr hr hq hw hz => ?_⟩
  · exact ⟨_, rfl, exec_reset_register ho hf (.inl (by decide))⟩
  · exact ⟨_, rfl, exec_reset_register ho hf (.inr hk)⟩
  · rw [dispatch_resetCold, execResetCold, hifReset_other hk ho]
  · rw [dispatch_resetWarm, execResetWarm, hifReset_other hk ho]
  · exact ⟨_, rfl, resetRequest_asks ht hh hf hk⟩
  · exact ⟨_, rfl, seamReset_keys ht hm, fun g hk hg hd hv => seamReset_asks ht hm hf hk hg hd hv, seamReset_refused ht hm⟩
  · exact ⟨_, rfl, cocoonReset_asks ht hg hb hf⟩
  · rw [dispatch_cocoonReset, execCocoonReset, cocoonReset_stands ht hg]
  · obtain ⟨t, he, hpower, habort, hcycle, hstand⟩ := exec_pfail_closes hf hp
    refine ⟨t, he, hpower, fun hs h => ?_, hcycle, fun hs => ?_⟩
    · rw [habort hs h]
      obtain ⟨a, e, hab⟩ := s.pfailAborted_only
      refine ⟨fun n x e hx hu hc => State.pfailAborted_aborts hx hu hc, ?_, ?_, ?_, ?_⟩ <;> rw [hab]
    · rw [hstand hs]
      exact ⟨rfl, rfl, rfl, rfl, rfl⟩
  · obtain ⟨hpow, hlife, hpend⟩ := s.flushedOut_keeps us
    refine ⟨_, exec_pfailFlushEnd_eq us hf, ?_⟩
    by_cases hstop : s.power.power = .standby ∨ s.tamper.response = some .erase
    · rw [if_pos hstop]
      obtain ⟨h1, h2, h3, h4, h5, h6, h7, h8, h9, h10, -⟩ := powerOff_leaves s
      exact ⟨h1, h2, h3, h4, h5, h6, h7, h8, h9, fun hs he => absurd hstop (by simp [hs, he]), fun _ => h10⟩
    · rw [if_neg hstop]
      obtain ⟨h1, h2, h3, h4, h5, h6, h7, h8, h9, h10, h11⟩ := powerOff_leaves (s.flushedOut us)
      exact ⟨h1, h2, h3, h4, h5, h6, h7, h8.trans (by rw [hlife]), h9.trans hpend,
        fun _ _ => ⟨h10.trans (by rw [hpow]), h11.trans (by rw [hpow])⟩, fun h => absurd h hstop⟩
  · refine ⟨fun ha hp he => ?_, fun ha hp he => ?_, fun ha hp => ?_, fun hp he => ?_, fun hp he => ?_, fun hp => ?_⟩
    · rw [dispatch_auxiliaryPowerReturn, execAuxiliaryPowerReturn, if_neg (by simp [ha]), if_neg (not_not.mpr hp), if_neg he]
    · rw [dispatch_auxiliaryPowerReturn, execAuxiliaryPowerReturn, if_neg (by simp [ha]), if_neg (not_not.mpr hp), if_pos he]
    · rw [dispatch_auxiliaryPowerReturn, execAuxiliaryPowerReturn, if_neg (by simp [ha]), if_pos hp]
    · rw [dispatch_auxiliaryPowerLoss, execAuxiliaryPowerLoss, if_neg (not_not.mpr hp), if_neg he]
    · rw [dispatch_auxiliaryPowerLoss, execAuxiliaryPowerLoss, if_neg (not_not.mpr hp), if_pos he]
    · rw [dispatch_auxiliaryPowerLoss, execAuxiliaryPowerLoss, if_pos hp]
  · exact ⟨_, rfl, powerRequest_waits ht hh hs htr hr hq hw hz⟩
end

section
open Sys2Proof.Machine

/-! SUPPORT. The Sleeve, the loss of the Cocoon's SRAM, an unlock and the tamper settings. -/

namespace Sys2Proof.Machine

/-! ### The Sleeve -/

theorem cocoonSource_only (s : State) (flag : Nat) (cls : AlarmClass) (reading : Nat) :
    ∃ l e x u, cocoonSource s flag cls reading = { s with log := l, eic := e, tamper := x, units := u } := by
  obtain ⟨l, e, r, p, u, h⟩ := cocoonAlarm_only s flag cls reading
  unfold cocoonSource
  rw [h]
  dsimp only
  split <;> exact ⟨_, _, _, _, rfl⟩

theorem latched_cocoonSource (s : State) (f : Nat) (c : AlarmClass) (reading : Nat) : Latched f c s (cocoonSource s f c reading) := by
  have h := latched_cocoonAlarm s f c reading
  unfold cocoonSource
  dsimp only
  split
  · exact ⟨h.alarmed, h.recs, h.lineage, h.otp, h.store, h.power, h.free⟩
  · exact h

theorem raiseSleeve_only (s : State) (failed : Bool) : ∃ e, raiseSleeve s failed = { s with eic := e } := by
  unfold raiseSleeve
  split
  · exact ⟨s.eic, rfl⟩
  · exact raise_only s 1031

theorem raiseSleeve_pends {s : State} {failed : Bool} (ha : s.asleep = false) : 1031 ∈ (raiseSleeve s failed).eic.corePend := by
  rw [raiseSleeve, if_neg (by simp [ha])]
  exact raise_pends_core (by decide) ha (by decide)

/-- Removal raises flag 148 and the Sleeve's interrupt (R429, R472). -/
theorem exec_sleeveRemoval_raises {s : State} (hs : s.life.sleeve = true) :
    ∃ t, exec .sleeveRemoval s = .next t ∧ t.life.sleeve = false ∧ t.life.sleeveAuth = 0 ∧
      Alarmed s t 148 s.removalClass ∧ (s.asleep = false → 1031 ∈ t.eic.corePend) ∧ t.keys = s.keys ∧ t.parts = s.parts := by
  have hal := (latched_cocoonSource (s.modLife (fun l => { l with sleeve := false, sleeveAuth := 0, sleeveDue := false })) 148
    s.removalClass 0).alarmed
  obtain ⟨l, e, x, u, hc⟩ := cocoonSource_only (s.modLife (fun l => { l with sleeve := false, sleeveAuth := 0, sleeveDue := false })) 148
    s.removalClass 0
  obtain ⟨e', hr⟩ := raiseSleeve_only (cocoonSource (s.modLife (fun l => { l with sleeve := false, sleeveAuth := 0, sleeveDue := false })) 148
    s.removalClass 0) (s.life.sleeveAuth == 2)
  rw [dispatch_sleeveRemoval, execSleeveRemoval, if_pos hs]
  refine ⟨_, rfl, ?_, ?_, ?_, fun ha => raiseSleeve_pends ?_, ?_, ?_⟩
  · rw [hr, hc]; rfl
  · rw [hr, hc]; rfl
  · rw [hr]; exact hal
  · rw [hc]; exact ha
  · rw [hr, hc]; rfl
  · rw [hr, hc]; rfl

theorem countDays_only (s : State) (new : Bool) : ∃ e, countDays s new = { s with life := { s.life with daysLeft := s.sleeveDays }, eic := e } := by
  unfold countDays
  dsimp only
  split
  · exact raise_only _ 1032
  · exact ⟨s.eic, rfl⟩

/-- The life of the Sleeve is warned of once, as it falls to 90 days (R474). -/
theorem countDays_warns {s : State} {new : Bool} (ha : s.asleep = false) (hd : s.sleeveDays ≤ 90) (h : 90 < s.life.daysLeft) :
    1032 ∈ (countDays s new).eic.corePend := by
  unfold countDays
  dsimp only
  rw [if_pos ⟨hd, .inr h⟩]
  exact raise_pends_core (by decide) ha (by decide)

/-- What the Cocoon keeps of a Sleeve whose certificate and response it accepts (R472). -/
def LifeCycle.accepting (l : LifeCycle) (ser : Bytes) (till drawn : Nat) (same : Bool) : LifeCycle :=
  { l with sleeve := true, sleeveDue := false, sleeveAuth := 1, sleeveSer := ser, sleeveEnd := till, drawn := drawn % 2 ^ 32,
           draws := if same then l.draws else [] }

theorem authSleeve_accepts {s : State} {cert sig : Bytes} {drawn : Nat} {e : Bytes × Nat} (hk : Config.sleeveKey cert = some e)
    (hv : Ec.verifyEnc Ec.p256 e.1 (Sha.sha256 ((draw s 32).1 ++ Config.certSerial cert ++ serial)) sig = true) :
    ∃ i d b, authSleeve s cert sig drawn = { s with
      free := s.free + 32, eic := i, tamper := { s.tamper with release := false }
      life := { s.life.accepting (Config.certSerial cert) e.2 drawn b with daysLeft := d } } := by
  have hsome : (Config.sleeveKey cert).bind (fun e =>
      if Ec.verifyEnc Ec.p256 e.1 (Sha.sha256 ((draw s 32).1 ++ Config.certSerial cert ++ serial)) sig then some e.2 else none) = some e.2 := by
    rw [hk, Option.bind_some, if_pos hv]
  unfold authSleeve
  rw [show draw s 32 = ((draw s 32).1, { s with free := s.free + 32 }) from rfl]
  dsimp only
  rw [hsome]
  dsimp only
  generalize (s.life.sleeveAuth == 1 && s.life.sleeveSer == Config.certSerial cert) = same
  split
  · obtain ⟨i, h⟩ := countDays_only { s with
      free := s.free + 32, tamper := { s.tamper with release := false }
      life := s.life.accepting (Config.certSerial cert) e.2 drawn same } (!same)
    exact ⟨i, _, same, h⟩
  · obtain ⟨i, hi⟩ := raise_only { s with
      free := s.free + 32, tamper := { s.tamper with release := false }
      life := s.life.accepting (Config.certSerial cert) e.2 drawn same } 1031
    obtain ⟨j, h⟩ := countDays_only { s with
      free := s.free + 32, tamper := { s.tamper with release := false }, eic := i
      life := s.life.accepting (Config.certSerial cert) e.2 drawn same } (!same)
    exact ⟨j, _, same, (congrArg (fun u => countDays u (!same)) hi).trans h⟩

theorem authSleeve_fails {s : State} {cert sig : Bytes} {drawn : Nat} (hn : ∀ e, Config.sleeveKey cert = some e →
      Ec.verifyEnc Ec.p256 e.1 (Sha.sha256 ((draw s 32).1 ++ Config.certSerial cert ++ serial)) sig = false) :
    ∃ i l, authSleeve s cert sig drawn = { s with
      free := s.free + 32, eic := i, log := l, life := { s.life with sleeve := true, sleeveDue := false, sleeveAuth := 2 } } := by
  have hnone : (Config.sleeveKey cert).bind (fun e =>
      if Ec.verifyEnc Ec.p256 e.1 (Sha.sha256 ((draw s 32).1 ++ Config.certSerial cert ++ serial)) sig then some e.2 else none) = none := by
    rcases hk : Config.sleeveKey cert with _ | e
    · rfl
    · rw [Option.bind_some, hn e hk]
      rfl
  unfold authSleeve
  rw [show draw s 32 = ((draw s 32).1, { s with free := s.free + 32 }) from rfl]
  dsimp only
  rw [hnone]
  dsimp only
  obtain ⟨l, hl⟩ := logCocoon_only { s with
    free := s.free + 32, life := { s.life with sleeve := true, sleeveDue := false, sleeveAuth := 2 } } 4 0x0800 0x0805 0xFF 0
    (fit 12 (Config.certSerial cert))
  obtain ⟨i, hi⟩ := raiseSleeve_only (logCocoon { s with
    free := s.free + 32, life := { s.life with sleeve := true, sleeveDue := false, sleeveAuth := 2 } } 4 0x0800 0x0805 0xFF 0
    (fit 12 (Config.certSerial cert))) true
  refine ⟨i, l, hi.trans ?_⟩
  rw [hl]

theorem exec_sleeveInsertion_eq {s : State} (cert sigR sigS : Bytes) (drawn : Nat)
    (h : s.life.sleeve = false ∨ (s.life.sleeveDue = true ∧ s.powered = true)) : exec (.sleeveInsertion cert sigR sigS drawn) s = .next
    (if s.powered then authSleeve s cert (sigR ++ sigS) drawn
      else raise (s.modLife (fun l => { l with sleeve := true, sleeveAuth := 0, sleeveDue := true })) 1031) := by
  rw [dispatch_sleeveInsertion, execSleeveInsertion, if_neg (by rcases h with h | ⟨hd, hp⟩ <;> simp [*])]

/-- The drawn charge counted (R474). -/
def LifeCycle.drawing (l : LifeCycle) (now added : Nat) : LifeCycle :=
  { l with drawn := min (2 ^ 32 - 1) (l.drawn + added)
           draws := (now, added) :: l.draws.filter (fun e => decide (now < e.1 + 2592000000000)) }

theorem exec_sleeveLifeAccounting_counts {s : State} (mAh tenths : Nat) (hs : s.life.sleeve = true) (hp : s.powered = true) :
    ∃ t, exec (.sleeveLifeAccounting mAh tenths) s = .next t ∧
      t.life.drawn = min (2 ^ 32 - 1) (s.life.drawn + (10 * mAh + tenths)) ∧ (s.opUs, 10 * mAh + tenths) ∈ t.life.draws ∧
      (s.life.sleeveAuth = 1 → t.life.daysLeft = t.sleeveDays) ∧ (s.life.sleeveAuth ≠ 1 → t.life.daysLeft = s.life.daysLeft) ∧
      (s.asleep = false → s.life.sleeveAuth = 1 → t.life.daysLeft ≤ 90 → 90 < s.life.daysLeft → 1032 ∈ t.eic.corePend) ∧
      t.keys = s.keys ∧ t.tamper = s.tamper := by
  obtain ⟨e, hc⟩ := countDays_only { s with life := s.life.drawing s.opUs (10 * mAh + tenths) } false
  have hx : exec (.sleeveLifeAccounting mAh tenths) s = .next (if s.life.sleeveAuth = 1
      then countDays { s with life := s.life.drawing s.opUs (10 * mAh + tenths) } false
      else { s with life := s.life.drawing s.opUs (10 * mAh + tenths) }) := by
    rw [dispatch_sleeveLifeAccounting, execSleeveLifeAccounting]
    dsimp only
    rw [if_pos (by simp [hs, hp])]
    rfl
  refine ⟨_, hx, ?_⟩
  by_cases ha : s.life.sleeveAuth = 1
  · rw [if_pos ha]
    refine ⟨by rw [hc]; rfl, by rw [hc]; exact List.mem_cons_self .., fun _ => by rw [hc]; rfl, fun h => absurd ha h, fun hsl _ hd h => ?_,
      by rw [hc], by rw [hc]⟩
    rw [hc] at hd
    exact countDays_warns hsl hd h
  · rw [if_neg ha]
    exact ⟨rfl, List.mem_cons_self .., fun h => absurd h ha, fun _ => rfl, fun _ h => absurd h ha, rfl, rfl⟩

/-! ### Unlock -/

theorem applyUnlock_clears (s : State) : ∃ l, applyUnlock s = { s with log := l, tamper := { s.tamper with
    flags := [], counts := [], latch := false, lockCause := 0xFF, machine := .record, alarmOut := false, lockedOut := false,
    unlocks := min 0xFFFFFFFF (s.tamper.unlocks + 1), unlockAt := s.service == .locked } } := by
  obtain ⟨l, h⟩ := logCocoon_only s 6 0x0800 0x0802 0xFF 0 (s.tamper.flagBytes ++ leBytes 4 s.tamper.occurrences)
  unfold applyUnlock
  rw [h]
  exact ⟨l, rfl⟩

/-! ### The settings -/

/-- A granted write of a setting that passes its entry's check and its own. -/
theorem tamperSet_commits {rq : Req} {idx sub v : Nat} {grant : Bytes} {use : List Change} {s t : State} {e : Entry}
    {check : State → Option Status} (he : odEntry idx sub = some e) (hv : v < 2 ^ (8 * e.size)) (hr : e.hi = 0 ∨ e.lo ≤ v ∧ v ≤ e.hi)
    (hc : check t = none) (ht : Taken s rq idx sub (writeOp false grant) t) (hg : Granted t rq false 5 0 (leBytes e.size v) grant use)
    (hi : (idx == 0x7001) = false) : tamperSet rq idx sub v grant check s =
      acceptCommit (tamperConfig t idx sub v) rq idx sub (writeOp false grant) [] (.od idx sub (leBytes e.size v) :: use) := by
  have hb : numBytes idx sub v = leBytes e.size v := by rw [numBytes, he]
  rw [tamperSet, hb, grantWrite_taken _ ht (by rw [hi]; exact hg) (by rw [numCheck_none he hv hr]; exact hc)]

theorem odIndex_tamperClass {f : Nat} (h : f ≤ 158) : odIndex (0x4100 + f) = [((eQ 1 5 (flagClass f)).rng 0 4).mine, eRo 4] := by
  simp (disch := omega) only [odIndex, if_neg, if_pos, Nat.add_sub_cancel_left]

theorem odIndex_loop {n : Nat} (h : n < 64) : odIndex (0x4200 + n) =
    [((eQ 1 5 0).rng 0 2).mine, (eQ 4 5 1000).mine, (eQ 4 5 10000).mine, eRo 4, eRo 4] := by
  simp (disch := omega) only [odIndex, if_neg, if_pos]

theorem odIndex_switch {n : Nat} (h : n < 16) : odIndex (0x4300 + n) = [((eQ 1 5 0).rng 0 2).mine, eRo 1] := by
  simp (disch := omega) only [odIndex, if_neg, if_pos]

theorem odEntry_at {idx sub : Nat} {e : Entry} (hs : sub ≠ 0) (hi : idx ≠ 0x3400) (h : (odIndex idx)[sub - 1]? = some e) :
    odEntry idx sub = some e := by
  rw [odEntry, if_neg hs, if_neg (by omega), h]

theorem classPermitted_le {f v : Nat} (h : classPermitted f v = true) : v ≤ 4 := by
  unfold classPermitted at h
  have hclass : flagClass f ≤ 4 := by
    unfold flagClass
    split_ifs <;> omega
  split_ifs at h <;> simp at h <;> omega

end Sys2Proof.Machine

/-- Settles O39: the Sleeve's occurrences and the unlock move the Cocoon's side alone; a setting is committed once its entry's check and its
own pass. -/
theorem sleeveAndUnlock : Obligations.SleeveAndUnlock := by
  unfold Obligations.SleeveAndUnlock
  refine ⟨⟨fun s => ⟨exec_sleeveRemoval_raises, fun hs => ?_⟩, fun cert sigR sigS drawn s hs => ⟨fun hp e hk hv => ?_, fun hp hn => ?_, fun hp => ?_⟩,
    fun rq v s t hv ht hh => ?_, fun s => rfl, fun mAh tenths s => ⟨exec_sleeveLifeAccounting_counts mAh tenths, fun h => ?_⟩,
    fun s => ⟨fun hp hs => ?_, fun h => ?_⟩⟩,
    fun rq ok grant use s t => ⟨fun ht hg hb => ?_, fun ht hg => ?_⟩, fun s hu hf hk => ?_, fun rq f v grant use s t hf hc ht hg => ?_,
    fun rq switch passes n v i grant use s t hn hv hi hp ht hg => ?_, fun rq n sub v passes grant use s t hn hw hp ht hg => ?_⟩
  · rw [dispatch_sleeveRemoval, execSleeveRemoval, if_neg (by simp [hs])]
  · obtain ⟨i, d, b, h⟩ := authSleeve_accepts (drawn := drawn) hk hv
    refine ⟨_, exec_sleeveInsertion_eq cert sigR sigS drawn hs, ?_⟩
    rw [if_pos hp, h]
    exact ⟨rfl, rfl, rfl, rfl, rfl, rfl, rfl, rfl, rfl, rfl⟩
  · obtain ⟨i, l, h⟩ := authSleeve_fails (drawn := drawn) hn
    refine ⟨_, exec_sleeveInsertion_eq cert sigR sigS drawn hs, ?_⟩
    rw [if_pos hp, h]
    exact ⟨rfl, rfl, rfl, rfl, rfl⟩
  · obtain ⟨e, h⟩ := raise_only (s.modLife (fun l => { l with sleeve := true, sleeveAuth := 0, sleeveDue := true })) 1031
    refine ⟨_, exec_sleeveInsertion_eq cert sigR sigS drawn hs, ?_⟩
    rw [if_neg (by simp [hp]), h]
    exact ⟨rfl, rfl, rfl, rfl, rfl⟩
  · rw [dispatch_sleeveReleaseWrite, execSleeveReleaseWrite, sleeveReleaseWrite, roleWrite_taken ht.1 ht.2 hh (by rw [boolCheck, if_neg (by omega), if_neg (by omega)])]
    rfl
  · rw [dispatch_sleeveLifeAccounting, execSleeveLifeAccounting]
    dsimp only
    rw [if_neg (by rcases h with h | h <;> simp [h])]
  · rw [dispatch_holdupExhausted, execHoldupExhausted, if_neg (by simp [hp, hs])]
    exact ⟨_, rfl, rfl, rfl, rfl, rfl, rfl, rfl, rfl, rfl⟩
  · rw [dispatch_holdupExhausted, execHoldupExhausted, if_pos (by rcases h with h | h <;> simp [h])]
  · obtain ⟨l, hl⟩ := applyUnlock_clears t
    obtain ⟨o, e, b, c, huse, -, -⟩ := acceptUse_only (applyUnlock t) rq 0x4000 5 (writeOp false grant) [] use
    rw [dispatch_unlock, execUnlock, unlockWrite, grantWrite_taken _ ht hg (by simp [boolCheck, hb]), if_pos rfl, huse, hl]
    exact ⟨_, rfl, rfl, rfl, rfl, rfl, rfl, rfl, rfl, rfl, rfl⟩
  · rw [dispatch_unlock, execUnlock, unlockWrite, grantWrite_taken _ ht hg (by simp [boolCheck]), if_neg (by decide)]
  · obtain ⟨⟨hsome, hnew, hkeys, htamper, hservice, -⟩, hbus, -⟩ := orderlyReset_asks (s := s.modTamper (fun t => { t with unlockAt := false }))
      (kind := 2) (source := 0x0A) hf (.inr hk)
    rw [dispatch_unlockReset, execUnlockReset, if_pos hu]
    exact ⟨_, rfl, hsome, hnew, htamper, hkeys, hservice, hbus⟩
  · have hi : min f 0xFF = f := by omega
    have he : odEntry (0x4100 + f) 1 = some ((eQ 1 5 (flagClass (0x4100 + f - 0x4100))).rng 0 4).mine :=
      odEntry_at (by decide) (by omega) (by rw [odIndex_tamperClass hf, Nat.add_sub_cancel_left]; rfl)
    rw [dispatch_tamperClassWrite, execTamperClassWrite, tamperClassWrite, hi]
    have hv := classPermitted_le hc
    exact congrArg _ (tamperSet_commits he (by show v < 2 ^ 8; omega) (.inr ⟨Nat.zero_le _, hv⟩) (by simp [hc]) ht hg (by simp; omega))
  · have he : odEntry i 1 = some ((eQ 1 5 0).rng 0 2).mine := by
      subst hi
      split at hn
      · rename_i hsw
        exact odEntry_at (by decide) (by rw [if_pos hsw]; omega) (by rw [if_pos hsw, odIndex_switch hn]; rfl)
      · rename_i hsw
        exact odEntry_at (by decide) (by rw [if_neg hsw]; omega) (by rw [if_neg hsw, odIndex_loop hn]; rfl)
    have hmin : (if switch = true then 0x4300 + min n 0xFF else 0x4200 + min n 0xFF) = i := by
      subst hi
      split at hn <;> rename_i hsw <;> simp only [hsw] <;> simp <;> omega
    have hidx : (i == 0x7001) = false := by
      subst hi
      cases switch <;> simp at hn ⊢ <;> omega
    rw [dispatch_loopModeWrite, execLoopModeWrite, loopModeWrite, hmin]
    exact congrArg _ (tamperSet_commits he (by show v < 2 ^ 8; omega) (.inr ⟨Nat.zero_le _, hv⟩)
      (if_neg (by rcases hp with rfl | hp <;> simp [*])) ht hg hidx)
  · have hv : v < 2 ^ (8 * 4) := by
      simp only [windowOk, decide_eq_true_eq] at hw
      omega
    have hmin : (if sub = 2 ∨ sub = 3 then sub else 0xFF) = sub := if_pos (by omega)
    rw [dispatch_loopWindowWrite, execLoopWindowWrite, loopWindowWrite, show min n 0xFF = n by omega, hmin]
    have hidx : (0x4200 + n == 0x7001) = false := by simp; omega
    rcases hw with ⟨rfl, hw⟩ | ⟨rfl, hw⟩
    · have he : odEntry (0x4200 + n) 2 = some (eQ 4 5 1000).mine :=
        odEntry_at (by decide) (by omega) (by rw [odIndex_loop hn]; rfl)
      exact congrArg _ (tamperSet_commits he hv (.inl rfl) (by simp [hw, hp]) ht hg hidx)
    · have he : odEntry (0x4200 + n) 3 = some (eQ 4 5 10000).mine :=
        odEntry_at (by decide) (by omega) (by rw [odIndex_loop hn]; rfl)
      exact congrArg _ (tamperSet_commits he hv (.inl rfl) (by simp [hw, hp]) ht hg hidx)
end

section
open Sys2Proof.Machine

/-! SUPPORT. An accepted transition, commissioning and the entropy tap. -/

namespace Sys2Proof.Machine

/-! ### Transitions -/

/-- The states that a transition can enter. -/
def Enterable (target : Nat) : Prop := target ∈ [0x11, 0x22, 0x33, 0x44, 0x55, 0x66]

theorem State.enterable_of_granted {s : State} {target : Nat} (h : s.grantedTransition target = true) : Enterable target := by
  simp only [grantedTransition, Bool.or_eq_true, Bool.and_eq_true, beq_iff_eq] at h
  have ht : target = 0x44 ∨ target = 0x55 ∨ target = 0x66 := by omega
  rcases ht with rfl | rfl | rfl <;> simp [Enterable]

theorem State.freeSlot_free {s : State} {k : Nat} (h : s.freeSlot = some k) : k < 16 ∧ s.otp (8 + 2 * k) = 0 := by
  refine ⟨List.mem_range.mp (List.mem_of_find?_eq_some h), ?_⟩
  have hc : s.slotCond k = 0 := by simpa using List.find?_some h
  unfold slotCond at hc
  dsimp only at hc
  split at hc
  · assumption
  · split at hc
    · split at hc <;> cases hc
    · cases hc

theorem State.mem_bitsToBurn {s : State} {k v : Nat} {i : Nat × Nat} :
    i ∈ s.bitsToBurn k v ↔ i.1 = k ∧ i.2 < 32 ∧ bit v i.2 = true ∧ bit (s.otp k) i.2 = false := by
  obtain ⟨a, b⟩ := i
  simp only [bitsToBurn, List.mem_filterMap, List.mem_range, Option.ite_none_right_eq_some, Bool.and_eq_true, Bool.not_eq_true',
    Option.some.injEq, Prod.mk.injEq]
  constructor
  · rintro ⟨c, hc, ⟨h1, h2⟩, rfl, rfl⟩
    exact ⟨rfl, hc, h1, h2⟩
  · rintro ⟨rfl, hb, h1, h2⟩
    exact ⟨b, hb, ⟨h1, h2⟩, rfl, rfl⟩

theorem State.enterable_of_certified {s : State} {target : Nat} (h : s.certifiedTransition target = true) : Enterable target := by
  have ht : target = 0x11 ∨ target = 0x22 ∨ target = 0x33 ∨ target = 0x66 := by
    unfold certifiedTransition at h
    split at h <;> simp at h <;> omega
  rcases ht with rfl | rfl | rfl | rfl <;> simp [Enterable]

/-- Every INTENT pattern has a bit to set. -/
theorem intent_bit {target : Nat} (h : Enterable target) : ∃ b < 32, bit (otpPats.getD (lifeRank target - 1) 0) b = true := by
  revert target
  unfold Enterable
  decide

/-- The work of a transition starts with a bit of its slot's INTENT word (R457). -/
theorem State.transitionWork_starts {s : State} {target k : Nat} (hk : s.freeSlot = some k) (ht : Enterable target) :
    ∃ i r, s.transitionWork target k = i :: r ∧ i.1 < 64 := by
  obtain ⟨hlt, hz⟩ := freeSlot_free hk
  obtain ⟨b, hb, hbit⟩ := intent_bit ht
  have hmem : (8 + 2 * k, b) ∈ s.bitsToBurn (8 + 2 * k) (otpPats.getD (lifeRank target - 1) 0) :=
    mem_bitsToBurn.mpr ⟨rfl, hb, hbit, by simp [hz, bit]⟩
  obtain ⟨i, r, hir⟩ := List.exists_cons_of_ne_nil (List.ne_nil_of_mem hmem)
  have hi : i.1 = 8 + 2 * k := (mem_bitsToBurn.mp (hir ▸ List.mem_cons_self ..)).1
  exact ⟨i, _, by rw [transitionWork, hir, List.cons_append, List.cons_append, List.cons_append, List.cons_append], by omega⟩

/-- Bits to program wait for their time. -/
theorem progMarks_bits (s : State) {i : Nat × Nat} (r : List (Nat × Nat)) (hi : i.1 < 64) :
    progMarks s (i :: r) = s.modLife (fun l => { l with prog := i :: r }) := by
  rw [progMarks, if_neg (Nat.not_le.mpr hi)]

theorem programTransition_begins {s : State} {x : Transition} {k : Nat} (hk : s.freeSlot = some k) (ht : Enterable x.target) :
    programTransition s x = s.modLife (fun l => { l with progUs := 0, prog := s.transitionWork x.target k }) := by
  obtain ⟨i, r, hw, hi⟩ := State.transitionWork_starts hk ht
  rw [programTransition, hk]
  dsimp only
  rw [hw, progMarks_bits _ r hi]
  rfl

/-- The state in which an accepted transition is held, its debug session closed (R456, R477). -/
def State.holding (s : State) (x : Transition) : State := closeDebug (s.modLife (fun l => { l with trans := some x }))

/-- An accepted transition once the functions' disable procedures have started where they must. -/
def State.transiting (s : State) (x : Transition) : State :=
  if s.life.latched = 0x44 ∨ s.factory then noteService s (noteFunctions s (disableAll (releaseCollar (s.holding x)) .flr)) else s.holding x

theorem State.transiting_keeps (s : State) (x : Transition) : (s.transiting x).life = (s.holding x).life ∧ (s.transiting x).tamper = s.tamper ∧
    (s.transiting x).keys = s.keys ∧ (s.transiting x).free = s.free := by
  unfold transiting
  split
  · obtain ⟨p, e, hrel⟩ := releaseCollar_only (s.holding x)
    obtain ⟨i, hi⟩ := noteFunctions_only s (disableAll (releaseCollar (s.holding x)) .flr)
    obtain ⟨j, hj⟩ := noteService_only s (noteFunctions s (disableAll (releaseCollar (s.holding x)) .flr))
    obtain ⟨htamper, -, hlife, hfree⟩ := Calm.disableAll (releaseCollar (s.holding x)) .flr
    have hkeys := (StopsService.disableAll (releaseCollar (s.holding x)) .flr).keys
    rw [hj, hi]
    exact ⟨hlife.trans (by rw [hrel]), htamper.trans (by rw [hrel]; rfl), hkeys.trans (by rw [hrel]; rfl),
      hfree.trans (by rw [hrel]; rfl)⟩
  · exact ⟨rfl, rfl, rfl, rfl⟩

theorem beginTransition_eq (s : State) (x : Transition) : beginTransition s x =
    if (s.transiting x).anyDisabling then s.transiting x else programTransition (s.transiting x) x := rfl

/-- An accepted transition is held, and programs at once where nothing has to be disabled first (R456 to R458). -/
theorem beginTransition_begins {s : State} {x : Transition} (hf : s.freeSlot.isSome = true) (ht : Enterable x.target) :
    (beginTransition s x).life.trans = some x ∧ (beginTransition s x).life.dbgOpen = false ∧ (beginTransition s x).life.otp = s.life.otp ∧
      (beginTransition s x).life.latched = s.life.latched ∧ (beginTransition s x).tamper = s.tamper ∧ (beginTransition s x).keys = s.keys ∧
      (beginTransition s x).free = s.free ∧ (beginTransition s x).life.dbgChal = s.life.dbgChal ∧
      (beginTransition s x).life.dbgValid = s.life.dbgValid ∧ ∀ k, s.life.latched = 0x33 → s.anyDisabling = false → s.freeSlot = some k →
        (beginTransition s x).life.prog = s.transitionWork x.target k ∧ (beginTransition s x).parts = s.parts := by
  obtain ⟨hlife, htamper, hkeys, hfree⟩ := s.transiting_keeps x
  obtain ⟨k, hk⟩ := Option.isSome_iff_exists.mp hf
  have hotp : (s.transiting x).otp = s.otp := by
    funext j
    rw [State.otp, hlife]
    rfl
  have hk' : (s.transiting x).freeSlot = some k := by
    rw [← hk]
    simp only [State.freeSlot, State.slotCond, hotp]
  have hwork : (s.transiting x).transitionWork x.target k = s.transitionWork x.target k := by
    simp only [State.transitionWork, State.bitsToBurn, hotp]
  obtain ⟨w, n, h⟩ : ∃ w n, beginTransition s x = (s.transiting x).modLife (fun l => { l with prog := w, progUs := n }) := by
    rw [beginTransition_eq]
    split
    · exact ⟨(s.transiting x).life.prog, (s.transiting x).life.progUs, rfl⟩
    · exact ⟨_, _, programTransition_begins hk' ht⟩
  refine ⟨?_, ?_, ?_, ?_, ?_, ?_, ?_, ?_, ?_, fun j hl hd hj => ?_⟩
  · rw [h]; exact (congrArg LifeCycle.trans hlife).trans rfl
  · rw [h]; exact (congrArg LifeCycle.dbgOpen hlife).trans rfl
  · rw [h]; exact (congrArg LifeCycle.otp hlife).trans rfl
  · rw [h]; exact (congrArg LifeCycle.latched hlife).trans rfl
  · rw [h]; exact htamper
  · rw [h]; exact hkeys
  · rw [h]; exact hfree
  · rw [h]; exact (congrArg LifeCycle.dbgChal hlife).trans rfl
  · rw [h]; exact (congrArg LifeCycle.dbgValid hlife).trans rfl
  · obtain rfl : k = j := Option.some.inj (hk.symm.trans hj)
    have hstock : s.transiting x = s.holding x := by
      rw [State.transiting, if_neg (by simp [hl, State.factory])]
    have hnone : (s.transiting x).anyDisabling = false := by rw [hstock]; exact hd
    rw [beginTransition_eq, if_neg (by simp [hnone]), programTransition_begins hk' ht, hwork]
    exact ⟨rfl, by rw [hstock]; rfl⟩

theorem targetWrite_begins {rq : Req} {target : Nat} {grant : Bytes} {use : List Change} {s t : State}
    (ht : Taken s rq 0x8001 1 (writeOp false grant) t) (hg : Granted t rq false 6 0 (leBytes 1 target) grant use)
    (hm : t.grantedTransition target = true) (hb : target < 256) (hs : t.transitionShut = false) :
    targetWrite rq target grant s = beginTransition t ⟨target, rq, 0x8001, 1, writeOp false grant, use⟩ := by
  rw [targetWrite, grantWrite_taken _ ht hg]
  rw [if_neg (by omega), State.transitionCheck, if_neg (by simp [hm]), if_neg (by simp [hs])]

theorem State.freeSlot_of_open {s : State} (h : s.transitionShut = false) : s.freeSlot.isSome = true := by
  simp only [transitionShut, Bool.or_eq_false_iff] at h
  simpa using h.1.2

/-- What a transition asks for once it is done: a cold reset that waits for no preamble (R490). -/
theorem askReset_transition {s : State} (hf : s.power.pfail = false) : ∃ w, askReset s ⟨1, 0x09, false, 0⟩ =
    { s with power := { s.power with waiting := some w } } ∧ w.kind = 1 ∧ w.orderly = false ∧ (s.power.waiting = none → w.source = 0x09) := by
  unfold askReset
  rw [if_neg (by simp [hf]), if_neg (by simp)]
  split
  · exact ⟨_, rfl, rfl, rfl, fun _ => rfl⟩
  · rename_i w hw
    exact ⟨_, rfl, by simp, by simp, fun h => by simp [hw] at h⟩

/-! ### Commissioning -/

theorem commissionTokenWrite_eq {rq : Req} {b : Bytes} {s t : State} (ht : Taken s rq 0x8010 2 0x22 t) (hl : t.life.latched = 0x33)
    (he : (t.ahead.odGet 0x8010 2).isEmpty = true) (hm : t.factory = true ∨ t.openWrite 0x8010 2 = true ∨ t.anyRole rq = true) :
    commissionTokenWrite rq b s = if tokenForm b = false then refuse (newCommChallenge t) rq 0x8010 2 0x22 .inputRange
      else if t.tokenSigned b = false then refuse (newCommChallenge t) rq 0x8010 2 0x22 .verifyFail
      else acceptCommit (logMain t 6 0x0900 0x0906 0xFF (tokenCount b) (slice b 48 16)) rq 0x8010 2 0x22 [] (tokenChanges b) := by
  rw [commissionTokenWrite, openServe_taken ht.1 ht.2 hm (by simp [hl, he])]
  simp only [Bool.not_eq_true']

/-- A refused token leaves a new challenge (R463). -/
theorem refuse_newChallenge (t : State) (rq : Req) (st : Status) :
    ∃ o e b, refuse (newCommChallenge t) rq 0x8010 2 0x22 st =
      { t with free := t.free + 32, life := { t.life with commChal := (draw t 32).1 }, od := o, eic := e, bus := b } := by
  obtain ⟨o, e, h⟩ := sendReply_only (newCommChallenge t) rq 0x8010 2 0x22 st.code []
  exact ⟨o, e, _, h⟩

theorem commissionTokenWrite_answers {rq : Req} {b : Bytes} {s t : State} (ht : Taken s rq 0x8010 2 0x22 t) (hl : t.life.latched = 0x33)
    (he : (t.ahead.odGet 0x8010 2).isEmpty = true) (hm : t.factory = true ∨ t.openWrite 0x8010 2 = true ∨ t.anyRole rq = true) :
    (commissionTokenWrite rq b s).keys = t.keys ∧ (commissionTokenWrite rq b s).parts = t.parts ∧
      (tokenForm b = true → t.tokenSigned b = true → (commissionTokenWrite rq b s).commit.queue = t.commit.queue ++
        [⟨[], tokenChanges b, 0, some (rq, 0x8010, 2, 0x22, [])⟩] ∧ (commissionTokenWrite rq b s).life = t.life) ∧
      (tokenForm b = false ∨ t.tokenSigned b = false → (commissionTokenWrite rq b s).commit = t.commit ∧
        (commissionTokenWrite rq b s).free = t.free + 32 ∧
        (commissionTokenWrite rq b s).life = { t.life with commChal := (draw t 32).1 }) := by
  rw [commissionTokenWrite_eq ht hl he hm]
  by_cases hvalid : tokenForm b = true ∧ t.tokenSigned b = true
  · obtain ⟨hform, hsigned⟩ := hvalid
    obtain ⟨l, hlog⟩ := logMain_only t 6 0x0900 0x0906 0xFF (tokenCount b) (slice b 48 16)
    rw [if_neg (by simp [hform]), if_neg (by simp [hsigned]), hlog]
    exact ⟨rfl, rfl, fun _ _ => ⟨rfl, rfl⟩, fun h => by simp [hform, hsigned] at h⟩
  · have hrefused : ∃ st, (if tokenForm b = false then refuse (newCommChallenge t) rq 0x8010 2 0x22 .inputRange
        else if t.tokenSigned b = false then refuse (newCommChallenge t) rq 0x8010 2 0x22 .verifyFail
        else acceptCommit (logMain t 6 0x0900 0x0906 0xFF (tokenCount b) (slice b 48 16)) rq 0x8010 2 0x22 [] (tokenChanges b)) =
        refuse (newCommChallenge t) rq 0x8010 2 0x22 st := by
      split
      · exact ⟨_, rfl⟩
      · rename_i hform
        rw [if_pos (by simpa [hform] using hvalid)]
        exact ⟨_, rfl⟩
    obtain ⟨st, hst⟩ := hrefused
    obtain ⟨o, e, bus, h⟩ := refuse_newChallenge t rq st
    rw [hst, h]
    exact ⟨rfl, rfl, fun hf hs => absurd ⟨hf, hs⟩ hvalid, fun _ => ⟨rfl, rfl, rfl⟩⟩

/-! ### The entropy tap -/

/-- The tap as a granted write sets it (R391). -/
def State.tapped (s : State) (v : Nat) : State :=
  let t1 := s.modEntropy (fun e => { e with
    tap := bit v 0, tapGroup := bits v 4 1, tapFree := if bit v 0 then s.free else e.tapFree, tapBits := if bit v 0 then 0 else e.tapBits })
  if bit v 0 then { t1 with free := t1.free + 2 ^ 20 } else t1

theorem State.tapped_entropy (s : State) (v : Nat) : (s.tapped v).entropy = { s.entropy with
      tap := bit v 0, tapGroup := bits v 4 1, tapFree := if bit v 0 then s.free else s.entropy.tapFree
      tapBits := if bit v 0 then 0 else s.entropy.tapBits } ∧ (s.tapped v).keys = s.keys ∧ (s.tapped v).parts = s.parts := by
  unfold tapped
  dsimp only
  split <;> exact ⟨rfl, rfl, rfl⟩

theorem tapCtlWrite_eq {rq : Req} {v : Nat} {grant : Bytes} {use : List Change} {s t : State} (ht : Taken s rq 0x5002 1 (writeOp false grant) t)
    (hg : Granted t rq false 9 0 (leBytes 4 v) grant use) (hm : t.factory = true ∨ t.life.latched = 0x55) (hv : v < 2 ^ 32)
    (hb : bits v 4 1 ≤ 11) : tapCtlWrite rq v grant s = acceptUse (t.tapped v) rq 0x5002 1 (writeOp false grant) [] use := by
  rw [tapCtlWrite, grantWrite_taken _ ht hg]
  · rfl
  · rw [if_neg (by rcases hm with h | h <;> simp [h]), if_neg (Nat.not_le.mpr hv), if_neg (Nat.not_lt.mpr hb)]

end Sys2Proof.Machine

/-- Settles O40: a transition waits, held, for its disable procedures, and its work starts with a bit to program; a commissioning token is
either committed whole or answered with a new challenge. -/
theorem lifeCycleMoves : Obligations.LifeCycleMoves := by
  unfold Obligations.LifeCycleMoves
  refine ⟨fun rq target grant use s t ht hg hm hb hs => ?_, fun s k b => (progTick_onward s).otp k b, fun s hr hp hf => ⟨fun hl => ?_, fun hl => ?_⟩,
    fun rq b s t ht hl he hm => ⟨_, rfl, commissionTokenWrite_answers ht hl he hm⟩, fun rq v grant use s t ht hg hm hv hb => ?_⟩
  · obtain ⟨htrans, hdbg, hotp, hlat, htamper, hkeys, -, -, -, hprog⟩ :=
      beginTransition_begins (x := ⟨target, rq, 0x8001, 1, writeOp false grant, use⟩) (State.freeSlot_of_open hs)
        (State.enterable_of_granted hm)
    rw [dispatch_targetWrite, execTargetWrite, targetWrite_begins ht hg hm hb hs]
    exact ⟨_, rfl, fun x hx => (Option.some.inj (htrans.symm.trans hx)).symm, by rw [htrans]; rfl, hdbg, hotp, hlat, htamper, hkeys,
      fun k hl hd hk => hprog k hl hd hk⟩
  · obtain ⟨w, hw, hk, ho, hsrc⟩ := askReset_transition hf
    rw [dispatch_lcTransitionReset, execLcTransitionReset, if_pos ⟨hr, hp, hl⟩]
    exact ⟨_, w, rfl, hw, hk, ho, hsrc⟩
  · rw [dispatch_lcTransitionReset, execLcTransitionReset, if_neg (fun h => h.2.2 hl)]
  · obtain ⟨he, hk, hp⟩ := t.tapped_entropy v
    obtain ⟨o, e, b, c, huse, -, -⟩ := acceptUse_only (t.tapped v) rq 0x5002 1 (writeOp false grant) [] use
    rw [dispatch_tapCtlWrite, execTapCtlWrite, tapCtlWrite_eq ht hg hm hv hb, huse]
    refine ⟨_, rfl, ?_⟩
    dsimp only
    rw [he]
    exact ⟨rfl, rfl, fun h => if_pos h, rfl, rfl, hk, hp⟩
end

section
open Sys2Proof.Machine

/-! SUPPORT. The identity pair, the certificate chains, an attestation and the debug sessions. -/

namespace Sys2Proof.Machine

/-! ### Answers -/

/-- An answer moves the dictionary, the events and the replies. -/
theorem acceptNow_only (s : State) (rq : Req) (idx sub op : Nat) : ∃ o e, acceptNow s rq idx sub op [] =
    { s with od := o, eic := e, bus := { s.bus with replies := s.bus.replies ++ [(rq, replyBody idx sub op 0 rq.reqId [])] } } :=
  sendReply_only s rq idx sub op 0 []

theorem acceptNow_life (s : State) (rq : Req) (idx sub op : Nat) : (acceptNow s rq idx sub op []).life = s.life := by
  obtain ⟨o, e, h⟩ := acceptNow_only s rq idx sub op
  rw [h]

theorem acceptNow_keys (s : State) (rq : Req) (idx sub op : Nat) : (acceptNow s rq idx sub op []).keys = s.keys := by
  obtain ⟨o, e, h⟩ := acceptNow_only s rq idx sub op
  rw [h]

theorem acceptNow_free (s : State) (rq : Req) (idx sub op : Nat) : (acceptNow s rq idx sub op []).free = s.free := by
  obtain ⟨o, e, h⟩ := acceptNow_only s rq idx sub op
  rw [h]

theorem acceptUse_life (s : State) (rq : Req) (idx sub op : Nat) (data : Bytes) (use : List Change) :
    (acceptUse s rq idx sub op data use).life = s.life := by
  obtain ⟨o, e, b, c, h, -, -⟩ := acceptUse_only s rq idx sub op data use
  rw [h]

theorem acceptUse_keys (s : State) (rq : Req) (idx sub op : Nat) (data : Bytes) (use : List Change) :
    (acceptUse s rq idx sub op data use).keys = s.keys := by
  obtain ⟨o, e, b, c, h, -, -⟩ := acceptUse_only s rq idx sub op data use
  rw [h]

theorem acceptUse_parts (s : State) (rq : Req) (idx sub op : Nat) (data : Bytes) (use : List Change) :
    (acceptUse s rq idx sub op data use).parts = s.parts := by
  obtain ⟨o, e, b, c, h, -, -⟩ := acceptUse_only s rq idx sub op data use
  rw [h]

theorem refuse_only (s : State) (rq : Req) (idx sub op : Nat) (st : Status) : ∃ o e b, refuse s rq idx sub op st = { s with
    od := o, eic := e, bus := b } := by
  obtain ⟨o, e, h⟩ := sendReply_only s rq idx sub op st.code []
  exact ⟨o, e, _, h⟩

/-! ### The identity -/

theorem askLooper_asks (s : State) (code : Nat) : code ∈ (askLooper s code).units.looper.queue ∧ (askLooper s code).life = s.life ∧
    (askLooper s code).keys = s.keys ∧ (askLooper s code).bus = s.bus := by
  obtain ⟨h, d, k, hl⟩ := looperDraw_only (s.modLooper (fun l => { l with queue := l.queue ++ [code] }))
  rw [askLooper, hl]
  exact ⟨List.mem_append_right _ (List.mem_singleton_self _), rfl, rfl, rfl⟩

theorem identityGenerateWrite_eq {rq : Req} {s t : State} (ht : Taken s rq 0x8030 5 0x20 t) (hh : t.holds rq 1 false = true)
    (hl : t.life.latched = 0x22) (hi : t.life.identity = false) : identityGenerateWrite rq s = if t.entropy.ready = false then s
      else acceptNow (askLooper (t.modLife (fun l => { l with identity := true, unsealed := true })) 1) rq 0x8030 5 0x20 [] := by
  rw [identityGenerateWrite, roleWrite_taken ht.1 ht.2 hh (by simp [hl, hi])]
  simp only [Bool.not_eq_true']

/-- Why the certificate chains are refused (R466). -/
def State.certCheck (t : State) (b : Bytes) : Option Status :=
  if t.life.certsSet then some .keyUsage
  else if t.life.latched ≠ 0x22 ∨ !t.life.identity then some .notActive
  else if (readChain b 0).1.isEmpty || (readChain b (readChain b 0).2).1.isEmpty || b.length != (readChain b (readChain b 0).2).2 then
    some .inputRange
  else if chainOk false (readChain b 0).1 && chainOk true (readChain b (readChain b 0).2).1 then none else some .verifyFail

theorem certInstallWrite_eq {rq : Req} {s t : State} (b : Bytes) (ht : Taken s rq 0x8030 6 0x22 t) (hh : t.holds rq 1 false = true) :
    certInstallWrite rq b s = match t.certCheck b with
      | some st => refuse t rq 0x8030 6 0x22 st
      | none => acceptNow (t.modLife (fun l => { l with
          certsSet := true, certEc := slice b 0 (readChain b 0).2, certMl := b.drop (readChain b 0).2 })) rq 0x8030 6 0x22 [] := by
  have hop : plainOp 0x8030 6 = 0x22 := rfl
  rw [certInstallWrite, roleWrite, hop, serveWrite_taken ht.1 ht.2 hh] <;> rfl

theorem State.certCheck_some {t : State} {b : Bytes} (hs : t.life.certsSet = false)
    (h : t.life.latched ≠ 0x22 ∨ t.life.identity = false ∨ chainOk false (readChain b 0).1 = false) : ∃ st, t.certCheck b = some st := by
  unfold certCheck
  rw [if_neg (by simp [hs])]
  split
  · exact ⟨_, rfl⟩
  · split
    · exact ⟨_, rfl⟩
    · rename_i h1 _
      rw [if_neg]
      · exact ⟨_, rfl⟩
      · rcases h with h | h | h
        · exact absurd (.inl h) h1
        · exact absurd (.inr (by simp [h])) h1
        · simp [h]

/-- An attestation draws from partition 0's generator, or from the stream where that one has no bytes (R470). -/
theorem coreDrawNow_only (s : State) (n : Nat) : ∃ p f, (coreDrawNow s n).2 = { s with parts := p, free := f } := by
  unfold coreDrawNow
  split
  · exact ⟨_, s.free, rfl⟩
  · exact ⟨s.parts, _, rfl⟩

theorem attestation_state (s : State) (nonce : Bytes) : (attestation s nonce).2 = (coreDrawNow s 88).2 := rfl

theorem attestNonceWrite_eq {rq : Req} {nonce : Bytes} {s t : State} (ht : takeReq s rq 0x8030 3 0x20 = (t, true)) (hn : nonce.length = 32) :
    attestNonceWrite rq nonce s =
      acceptNow ((coreDrawNow t 88).2.modLife (fun l => { l with attest := (attestation t nonce).1 })) rq 0x8030 3 0x20 [] := by
  rw [attestNonceWrite, serveWrite_always ht rfl, if_neg (not_not.mpr hn)]
  rfl

/-! ### Debug sessions -/

/-- A debug session of a scope, for its time (R475, R476). -/
def LifeCycle.debugging (l : LifeCycle) (now scope dur : Nat) : LifeCycle :=
  { l with dbgOpen := true, dbgLevel := if bit scope 0 = true then 2 else 3, dbgScope := scope, dbgEnd := now + 1000000 * dur
           shut := l.shut || bit scope 0 }

theorem openDebug_opens (s : State) (scope dur : Nat) : (openDebug s scope dur).life = s.life.debugging s.opUs scope dur ∧
    (openDebug s scope dur).free = s.free ∧ (openDebug s scope dur).keys.recs = s.keys.recs ∧
    (bit scope 0 = true → (openDebug s scope dur).keys.cache = [] ∧ (openDebug s scope dur).keys.kd = none) ∧
    (bit scope 0 = false → (openDebug s scope dur).keys = s.keys) := by
  have hclear := Harmless.lockClear s
  obtain ⟨hcache, hkd, -⟩ := lockClear_clears s
  unfold openDebug
  dsimp only
  rw [logMain_life, logMain_free, logMain_keys]
  cases hb : bit scope 0 with
  | true =>
    refine ⟨?_, hclear.free, hclear.recs, fun _ => ⟨hcache, hkd⟩, fun h => nomatch h⟩
    simp only [if_true, State.modLife, LifeCycle.debugging, hclear.life, hb, Bool.or_true]
  | false =>
    refine ⟨?_, rfl, rfl, fun h => (nomatch h), fun _ => rfl⟩
    simp only [State.modLife, LifeCycle.debugging, hb, Bool.or_false]
    rfl

/-- The answer to a debug certificate, once its challenge is drawn anew (R475 to R478). -/
theorem authCertWrite_eq {rq : Req} {c : Bytes} {s t : State} (ht : Taken s rq 0x8020 2 0x22 t) (hc : c.length = authCertLen)
    (hm : t.factory = true ∨ t.openWrite 0x8020 2 = true ∨ t.anyRole rq = true) : authCertWrite rq c s =
      if !t.authCertOk c then refuse (newDebugChallenge t) rq 0x8020 2 0x22 .verifyFail
      else if byteAt c 52 = 0xFF then
        if scopePermitted t.life.latched (byteAt c 49) && decide (1 ≤ leAt c 50 2 ∧ leAt c 50 2 ≤ 3600) then
          acceptNow (openDebug (newDebugChallenge t) (byteAt c 49) (leAt c 50 2)) rq 0x8020 2 0x22 []
        else refuse (newDebugChallenge t) rq 0x8020 2 0x22 .verifyFail
      else match t.transitionCheck (t.certifiedTransition (byteAt c 52)) with
        | some st => refuse (newDebugChallenge t) rq 0x8020 2 0x22 st
        | none => beginTransition (newDebugChallenge t) ⟨byteAt c 52, rq, 0x8020, 2, 0x22, []⟩ := by
  rw [authCertWrite, openServe_taken ht.1 ht.2 hm (if_neg (not_not.mpr hc))] <;> rfl

theorem certInstallWrite_answers {rq : Req} {s t : State} (b : Bytes) (ht : Taken s rq 0x8030 6 0x22 t) (hh : t.holds rq 1 false = true)
    (hs : t.life.certsSet = false) : (certInstallWrite rq b s).keys = t.keys ∧ (certInstallWrite rq b s).life.otp = t.life.otp ∧
      (t.life.latched = 0x22 → t.life.identity = true → (readChain b 0).1 ≠ [] → (readChain b (readChain b 0).2).1 ≠ [] →
        b.length = (readChain b (readChain b 0).2).2 → chainOk false (readChain b 0).1 = true →
        chainOk true (readChain b (readChain b 0).2).1 = true → (certInstallWrite rq b s).life =
          { t.life with certsSet := true, certEc := slice b 0 (readChain b 0).2, certMl := b.drop (readChain b 0).2 }) ∧
      (t.life.latched ≠ 0x22 ∨ t.life.identity = false ∨ chainOk false (readChain b 0).1 = false →
        (certInstallWrite rq b s).life = t.life) := by
  rw [certInstallWrite_eq b ht hh]
  refine ⟨?_, ?_, fun hl hi hec hml hlen hok hok' => ?_, fun h => ?_⟩
  · split
    · obtain ⟨o, e, r, h⟩ := refuse_only t rq 0x8030 6 0x22 ‹Status›
      rw [h]
    · exact acceptNow_keys _ rq 0x8030 6 0x22
  · split
    · obtain ⟨o, e, r, h⟩ := refuse_only t rq 0x8030 6 0x22 ‹Status›
      rw [h]
    · exact (congrArg LifeCycle.otp (acceptNow_life _ rq 0x8030 6 0x22)).trans rfl
  · have hnone : t.certCheck b = none := by
      rw [State.certCheck, if_neg (by simp [hs]), if_neg (by simp [hl, hi]), if_neg (by simp [hec, hml, hlen]), if_pos (by simp [hok, hok'])]
    rw [hnone]
    exact acceptNow_life _ rq 0x8030 6 0x22
  · obtain ⟨st, hst⟩ := State.certCheck_some hs h
    obtain ⟨o, e, r, hr⟩ := refuse_only t rq 0x8030 6 0x22 st
    rw [hst]
    dsimp only
    rw [hr]

theorem newDebugChallenge_eq (s : State) : newDebugChallenge s = { s with free := s.free + 32, life := { s.life with dbgChal := (draw s 32).1 } } :=
  rfl

/-- What the answer to a certificate says where it opens no session and begins no transition (R478). -/
theorem refuse_certificate (t : State) (rq : Req) (st : Status) : ∃ o e b, refuse (newDebugChallenge t) rq 0x8020 2 0x22 st =
    { t with free := t.free + 32, life := { t.life with dbgChal := (draw t 32).1 }, od := o, eic := e, bus := b } :=
  refuse_only (newDebugChallenge t) rq 0x8020 2 0x22 st

/-- What every answer to a certificate leaves: its challenge drawn anew, the records and the OTP (R478). -/
structure Challenged (t u : State) : Prop where
  free : u.free = t.free + 32
  valid : u.life.dbgValid = t.life.dbgValid
  chal : u.life.dbgChal = (draw t 32).1
  recs : u.keys.recs = t.keys.recs
  otp : u.life.otp = t.life.otp

theorem challenged_refuse (t : State) (rq : Req) (st : Status) : Challenged t (refuse (newDebugChallenge t) rq 0x8020 2 0x22 st) := by
  obtain ⟨o, e, b, h⟩ := refuse_certificate t rq st
  rw [h]
  exact ⟨rfl, rfl, rfl, rfl, rfl⟩

theorem challenged_open (t : State) (rq : Req) (scope dur : Nat) :
    Challenged t (acceptNow (openDebug (newDebugChallenge t) scope dur) rq 0x8020 2 0x22 []) := by
  obtain ⟨hlife, hfree, hrecs, -⟩ := openDebug_opens (newDebugChallenge t) scope dur
  obtain ⟨o, e, h⟩ := acceptNow_only (openDebug (newDebugChallenge t) scope dur) rq 0x8020 2 0x22
  rw [h]
  exact ⟨hfree, (congrArg LifeCycle.dbgValid hlife).trans rfl, (congrArg LifeCycle.dbgChal hlife).trans rfl, hrecs,
    (congrArg LifeCycle.otp hlife).trans rfl⟩

theorem State.transitionCheck_none {s : State} {ok : Bool} (h : s.transitionCheck ok = none) : ok = true ∧ s.transitionShut = false := by
  unfold transitionCheck at h
  split at h
  · cases h
  · split at h
    · cases h
    · rename_i hok hs
      exact ⟨by simpa using hok, by simpa using hs⟩

theorem authCertWrite_answers {rq : Req} {c : Bytes} {s t : State} (ht : Taken s rq 0x8020 2 0x22 t) (hc : c.length = authCertLen)
    (hm : t.factory = true ∨ t.openWrite 0x8020 2 = true ∨ t.anyRole rq = true) : (authCertWrite rq c s).free = t.free + 32 ∧
      (authCertWrite rq c s).life.dbgValid = t.life.dbgValid ∧ (authCertWrite rq c s).life.dbgChal = (draw t 32).1 ∧
      (authCertWrite rq c s).keys.recs = t.keys.recs ∧ (authCertWrite rq c s).life.otp = t.life.otp ∧
      (t.authCertOk c = true → byteAt c 52 = 0xFF → scopePermitted t.life.latched (byteAt c 49) = true → 1 ≤ leAt c 50 2 → leAt c 50 2 ≤ 3600 →
        (authCertWrite rq c s).life = { t.life with
          dbgChal := (authCertWrite rq c s).life.dbgChal, dbgOpen := true, dbgLevel := if bit (byteAt c 49) 0 = true then 2 else 3,
          dbgScope := byteAt c 49, dbgEnd := t.opUs + 1000000 * leAt c 50 2, shut := t.life.shut || bit (byteAt c 49) 0 } ∧
        (bit (byteAt c 49) 0 = true → (authCertWrite rq c s).keys.cache = [] ∧ (authCertWrite rq c s).keys.kd = none) ∧
        (bit (byteAt c 49) 0 = false → (authCertWrite rq c s).keys = t.keys)) ∧
      (t.authCertOk c = true → byteAt c 52 ≠ 0xFF → t.certifiedTransition (byteAt c 52) = true → t.transitionShut = false →
        (authCertWrite rq c s).life.trans = some ⟨byteAt c 52, rq, 0x8020, 2, 0x22, []⟩ ∧ (authCertWrite rq c s).life.dbgOpen = false ∧
        (authCertWrite rq c s).keys = t.keys) ∧
      (t.authCertOk c = false → (authCertWrite rq c s).life = { t.life with dbgChal := (authCertWrite rq c s).life.dbgChal } ∧
        (authCertWrite rq c s).keys = t.keys) := by
  have heq := authCertWrite_eq ht hc hm
  have hbegin : ∀ x : Transition, t.freeSlot.isSome = true → Enterable x.target →
      Challenged t (beginTransition (newDebugChallenge t) x) ∧ (beginTransition (newDebugChallenge t) x).life.trans = some x ∧
        (beginTransition (newDebugChallenge t) x).life.dbgOpen = false ∧ (beginTransition (newDebugChallenge t) x).keys = t.keys := by
    intro x hf hx
    obtain ⟨htrans, hdbg, hotp, -, -, hkeys, hfree, hchal, hvalid, -⟩ := beginTransition_begins (s := newDebugChallenge t) hf hx
    exact ⟨⟨hfree, hvalid, hchal, congrArg Keys.recs hkeys, hotp⟩, htrans, hdbg, hkeys⟩
  have hch : Challenged t (authCertWrite rq c s) := by
    rw [heq]
    split
    · exact challenged_refuse t rq _
    · split
      · split
        · exact challenged_open t rq _ _
        · exact challenged_refuse t rq _
      · split
        · exact challenged_refuse t rq _
        · rename_i hnone
          obtain ⟨hok, hshut⟩ := State.transitionCheck_none hnone
          exact (hbegin _ (State.freeSlot_of_open hshut) (State.enterable_of_certified hok)).1
  refine ⟨hch.free, hch.valid, hch.chal, hch.recs, hch.otp, fun hok htarget hscope h1 h2 => ?_, fun hok htarget hcert hshut => ?_, fun hbad => ?_⟩
  · obtain ⟨hlife, -, -, hcut, hkeep⟩ := openDebug_opens (newDebugChallenge t) (byteAt c 49) (leAt c 50 2)
    rw [if_neg (by simp [hok]), if_pos htarget, if_pos (by simp [hscope, h1, h2])] at heq
    have hkeys : (authCertWrite rq c s).keys = (openDebug (newDebugChallenge t) (byteAt c 49) (leAt c 50 2)).keys := by
      rw [heq, acceptNow_keys]
    refine ⟨?_, fun hb => by rw [hkeys]; exact hcut hb, fun hb => by rw [hkeys]; exact hkeep hb⟩
    rw [hch.chal, heq, acceptNow_life, hlife]
    rfl
  · rw [if_neg (by simp [hok]), if_neg htarget, State.transitionCheck, if_neg (by simp [hcert]), if_neg (by simp [hshut])] at heq
    rw [heq]
    exact (hbegin _ (State.freeSlot_of_open hshut) (State.enterable_of_certified hcert)).2
  · obtain ⟨o, e, b, h⟩ := refuse_certificate t rq .verifyFail
    rw [if_pos (by simp [hbad]), h] at heq
    rw [heq]
    exact ⟨rfl, rfl⟩

end Sys2Proof.Machine

/-- Settles O41: the identity, a certificate and a debug session each change the life cycle's record alone, and a certificate on the main die
clears what a lock clears only where its scope says so. -/
theorem identityAndDebug : Obligations.IdentityAndDebug := by
  unfold Obligations.IdentityAndDebug
  refine ⟨fun rq s t ht hh hl hi => ⟨fun hr => ?_, fun hr => ?_⟩, fun rq b s t ht hh hs => ?_, fun rq nonce body s t ht hn hb => ?_,
    fun rq c s t ht hc hm => ?_, fun s => ⟨fun h => ?_, fun h => ?_⟩, fun rq s t ht hh => ⟨?_, ?_⟩, fun rq v grant use s t hv ht hg hl => ?_,
    fun s hv => ?_⟩
  · obtain ⟨hq, hlife, hkeys, hbus⟩ := askLooper_asks (t.modLife (fun l => { l with identity := true, unsealed := true })) 1
    obtain ⟨o, e, h⟩ := acceptNow_only (askLooper (t.modLife (fun l => { l with identity := true, unsealed := true })) 1) rq 0x8030 5 0x20
    rw [dispatch_identityGenerate, execIdentityGenerate, identityGenerateWrite_eq ht hh hl hi, if_neg (by simp [hr]), h]
    exact ⟨_, rfl, hlife, hq, by rw [hbus]; rfl, hkeys⟩
  · rw [dispatch_identityGenerate, execIdentityGenerate, identityGenerateWrite_eq ht hh hl hi, if_pos hr]
  · exact ⟨_, rfl, certInstallWrite_answers b ht hh hs⟩
  · rw [dispatch_attestNonceWrite, execAttestNonceWrite, attestNonceWrite_eq ht hn]
    obtain ⟨p, f, hdraw⟩ := coreDrawNow_only t 88
    obtain ⟨o, e, h⟩ := acceptNow_only ((coreDrawNow t 88).2.modLife (fun l => { l with attest := (attestation t nonce).1 })) rq 0x8030 3 0x20
    refine ⟨_, rfl, ?_⟩
    rw [h, hdraw, hb]
    exact ⟨rfl, rfl, rfl⟩
  · exact ⟨_, rfl, authCertWrite_answers ht hc hm⟩
  · rw [dispatch_debugSessionExpiry, execDebugSessionExpiry, if_pos h]
    rfl
  · rw [dispatch_debugSessionExpiry, execDebugSessionExpiry, if_neg (Nat.not_le.mpr h)]
  · rw [dispatch_debugClose, execDebugClose, debugCloseWrite, roleWrite_taken ht.1 ht.2 hh (by decide), if_pos rfl]
    rfl
  · rw [dispatch_debugClose, execDebugClose, debugCloseWrite, roleWrite_taken ht.1 ht.2 hh (by decide), if_neg (by decide)]
  · rw [dispatch_observeOpen, execObserveOpen, observeOpenWrite, grantWrite_taken _ ht hg (by
      rw [boolCheck, if_neg (by omega), if_neg (by omega)]
      exact if_pos hl)]
    refine ⟨_, rfl, fun h => ?_, fun h => ?_, ?_, ?_⟩
    · rw [acceptUse_life, if_pos h, logMain_life]
      rfl
    · rw [acceptUse_life, if_neg (by omega)]
    · rw [acceptUse_keys]
      split
      · rw [logMain_keys]
        rfl
      · rfl
    · rw [acceptUse_parts]
      split
      · rw [logMain_parts]
        rfl
      · rfl
  · rw [dispatch_debugChallengeRefresh, execDebugChallengeRefresh, if_pos hv]
    rfl
end

section
open Sys2Proof.Machine

/-! SUPPORT. Grant requests: opening, one more approval, an exchange with a member's card. -/

namespace Sys2Proof.Machine

theorem acceptNow_answers (s : State) (rq : Req) (idx sub op : Nat) (data : Bytes) : ∃ o e, acceptNow s rq idx sub op data =
    { s with od := o, eic := e, bus := { s.bus with replies := s.bus.replies ++ [(rq, replyBody idx sub op 0 rq.reqId data)] } } :=
  sendReply_only s rq idx sub op 0 data

theorem refuse_answers (s : State) (rq : Req) (idx sub op : Nat) (st : Status) (hst : st.code ≠ 0) : ∃ o e, refuse s rq idx sub op st =
    { s with od := o, eic := e, bus := { s.bus with replies := s.bus.replies ++ [(rq, replyBody idx sub op st.code rq.reqId [])] } } := by
  obtain ⟨o, e, h⟩ := sendReply_only s rq idx sub op st.code []
  rw [if_neg hst] at h
  exact ⟨o, e, h⟩

/-! ### Opening a request -/

/-- The request that QUORUM_OPEN adds, under the challenge of partition 0's generator (R198, R381). -/
def State.newRequest (t : State) (cls part uses : Nat) (digest : Bytes) : GrantReq :=
  ⟨t.quorum.nextReq, cls, part, uses, digest, (t.part 0).drbg.staged.take 32, [], t.opUs⟩

/-- The state that holds it. -/
def State.requested (t : State) (cls part uses : Nat) (digest : Bytes) : State :=
  (coreDraw t 32).2.modQuorum (fun q => { q with
    requests := q.requests ++ [t.newRequest cls part uses digest], nextReq := (t.quorum.nextReq + 1) % 2 ^ 32 })

theorem quorumOpen_eq {rq : Req} {cls part uses : Nat} {digest : Bytes} {s t : State} (ht : Taken s rq 0x3400 1 0x20 t)
    (hd : digest.length = 32) (hp : part < 256) (h1 : 1 ≤ cls) (h12 : cls ≤ 12) (hu : 1 ≤ uses) (hu' : uses ≤ t.odNat (0x3300 + cls) 4)
    (hk : t.keys.grantKey.isSome = true) (ho : t.openRequests.length < 16) (hc : t.coreReady 32 = true) :
    quorumOpen rq cls part uses digest s = acceptNow (t.requested cls part uses digest) rq 0x3400 1 0x20
      (leBytes 4 t.quorum.nextReq ++ (t.part 0).drbg.staged.take 32) := by
  rw [quorumOpen, openServe_taken ht.1 ht.2 (.inr (.inl rfl))]
  · rw [if_neg (by simp [hc])]
    rfl
  · rw [if_neg (by omega), if_neg (by omega), if_neg (by simpa using Option.isSome_iff_ne_none.mp hk), if_neg (Nat.not_le.mpr ho)]

/-! ### One more approval -/

theorem approve_counts {t : State} (rq : Req) (sub : Nat) {q : GrantReq} {m : Nat} {k : Bytes} (hk : t.keys.grantKey = some k)
    (hm : m ∉ q.approvers) : (approve t rq sub q m).keys = t.keys ∧
      (t.approved { q with approvers := q.approvers ++ [m] } = true → ∃ g,
        g.cls = q.cls ∧ g.part = q.part ∧ g.uses = q.uses ∧ g.left = q.uses ∧ g.digest = q.digest ∧ g.id = t.quorum.nextId ∧
        (approve t rq sub q m).commit.queue = t.commit.queue ++ [⟨[], [Change.grant g], 0, some (rq, 0x3400, sub, 0x20, g.bytes)⟩] ∧
        (approve t rq sub q m).quorum.requests = t.quorum.requests.filter (fun x => x.id != q.id) ∧
        (approve t rq sub q m).bus.replies = t.bus.replies) ∧
      (t.approved { q with approvers := q.approvers ++ [m] } = false →
        (approve t rq sub q m).quorum.requests =
          lmod (fun x => x.id == q.id) (fun _ => { q with approvers := q.approvers ++ [m] }) t.quorum.requests ∧
        (approve t rq sub q m).commit = t.commit ∧
        (approve t rq sub q m).bus.replies = t.bus.replies ++ [(rq, replyBody 0x3400 sub 0x20 0 rq.reqId [])]) := by
  have hadd : (if q.approvers.contains m then q.approvers else q.approvers ++ [m]) = q.approvers ++ [m] := if_neg (by simpa using hm)
  unfold approve
  dsimp only
  rw [hadd, hk]
  dsimp only
  cases ha : t.approved { q with approvers := q.approvers ++ [m] } with
  | true =>
    rw [if_pos rfl]
    obtain ⟨l, hl⟩ := logMain_only (t.modQuorum (fun u => { u with
      requests := u.requests.filter (·.id != q.id), nextId := (u.nextId + 1) % 2 ^ 32 })) 3 0x0300 0x0305 q.part q.cls
      (leBytes 4 (t.issue k { q with approvers := q.approvers ++ [m] }).id ++ leBytes 8 (memberMask (q.approvers ++ [m])))
    rw [hl]
    exact ⟨rfl, fun _ => ⟨t.issue k { q with approvers := q.approvers ++ [m] }, rfl, rfl, rfl, rfl, rfl, rfl, rfl, rfl, rfl⟩, fun h => nomatch h⟩
  | false =>
    rw [if_neg (by decide)]
    obtain ⟨o, e, h⟩ := acceptNow_answers (t.modQuorum (fun u => { u with
      requests := lmod (fun x => x.id == q.id) (fun _ => { q with approvers := q.approvers ++ [m] }) u.requests })) rq 0x3400 sub 0x20 []
    rw [h]
    exact ⟨rfl, fun h => (nomatch h), fun _ => ⟨rfl, rfl, rfl⟩⟩

theorem exec_quorumApprove_eq {rq : Req} {id m : Nat} {sig : Bytes} {q : GrantReq} {s t : State} (hm : m < 64) (ht : Taken s rq 0x3400 2 0x20 t)
    (hq : t.openRequests.find? (·.id == id) = some q) (ha : t.mayApprove m q.cls q.part = true) (hl : sig.length = 64) :
    exec (.quorumApprove rq id m sig) s = .next
      (if Ec.verifyEnc Ec.p256 (t.odGet (0x3500 + m) 3) (approveDigest q) sig = true then approve t rq 2 q m
        else refuse t rq 0x3400 2 0x20 .verifyFail) := by
  rw [dispatch_quorumApprove, execQuorumApprove, if_pos hm, approveBy, openServe_taken ht.1 ht.2 (.inr (.inl rfl)) (if_neg (not_not.mpr hl)), hq]
  dsimp only
  rw [if_neg (by simp [ha])]

/-- The module's point of an exchange with a card (R202, R381). -/
def State.cardPoint (t : State) : Bytes :=
  Ec.encode Ec.p256 (Ec.mul Ec.p256 (Ec.scalar Ec.p256 ((t.part 0).drbg.staged.take 40)) (Ec.base Ec.p256))

/-- The state once a card has been asked to agree over a challenge (R202). -/
def State.askedCard (t : State) (port : Nat) (challenge : Bytes) : State := toCard (coreDraw t 40).2 port (cardOpening t.cardPoint challenge)

theorem exec_cardApprove_eq {rq : Req} {id port m : Nat} {cred point sig : Bytes} {q : GrantReq} {s t : State} (ht : Taken s rq 0x3400 4 0x20 t)
    (hq : t.openRequests.find? (·.id == id) = some q) (ha : t.mayApprove m q.cls q.part = true) (hp : t.cardIn port = true)
    (hm : t.memberOf cred = some m) (hc : t.coreReady 40 = true) : exec (.cardApprove rq id port cred ⟨point, sig⟩) s = .next
      (if agreed cred t.cardPoint point q.challenge sig = true then approve (t.askedCard port q.challenge) rq 4 q m
        else refuse (t.askedCard port q.challenge) rq 0x3400 4 0x20 .verifyFail) := by
  rw [dispatch_cardApprove, execCardApprove, cardApprove, openServe_taken ht.1 ht.2 (.inr (.inl rfl)) rfl, hq, if_pos hp, hm]
  dsimp only
  rw [if_neg (by simp [ha]), if_neg (by simpa [ephemeralDraw] using hc)]
  rfl

/-- A command that ends in an approval where its check holds, and refuses otherwise. -/
theorem approval_answers {t : State} {u : State} {rq : Req} {sub m : Nat} {ok : Bool} {q : GrantReq} {k : Bytes} (hk : t.keys.grantKey = some k)
    (hm : m ∉ q.approvers) (hu : u = if ok = true then approve t rq sub q m else refuse t rq 0x3400 sub 0x20 .verifyFail) : u.keys = t.keys ∧
    (ok = false → u.quorum.requests = t.quorum.requests ∧ u.commit = t.commit ∧
      u.bus.replies = t.bus.replies ++ [(rq, replyBody 0x3400 sub 0x20 (Status.code .verifyFail) rq.reqId [])]) ∧
    (ok = true →
     (t.approved { q with approvers := q.approvers ++ [m] } = true → ∃ g,
      g.cls = q.cls ∧ g.part = q.part ∧ g.uses = q.uses ∧ g.left = q.uses ∧ g.digest = q.digest ∧ g.id = t.quorum.nextId ∧
      u.commit.queue = t.commit.queue ++ [⟨[], [Change.grant g], 0, some (rq, 0x3400, sub, 0x20, g.bytes)⟩] ∧
      u.quorum.requests = t.quorum.requests.filter (fun x => x.id != q.id) ∧ u.bus.replies = t.bus.replies) ∧
     (t.approved { q with approvers := q.approvers ++ [m] } = false →
      u.quorum.requests = lmod (fun x => x.id == q.id) (fun _ => { q with approvers := q.approvers ++ [m] }) t.quorum.requests ∧
      u.commit = t.commit ∧ u.bus.replies = t.bus.replies ++ [(rq, replyBody 0x3400 sub 0x20 0 rq.reqId [])])) := by
  subst hu
  cases ok with
  | true =>
    rw [if_pos rfl]
    obtain ⟨hkeys, hyes, hno⟩ := approve_counts rq sub hk hm
    exact ⟨hkeys, fun h => (nomatch h), fun _ => ⟨hyes, hno⟩⟩
  | false =>
    rw [if_neg (by decide)]
    obtain ⟨o, e, h⟩ := refuse_answers t rq 0x3400 sub 0x20 .verifyFail (by decide)
    rw [h]
    exact ⟨rfl, fun _ => ⟨rfl, rfl, rfl⟩, fun h => nomatch h⟩

end Sys2Proof.Machine

/-- Settles O31: a request is opened under a challenge of partition 0's generator; an approval, by signature or by card, counts once and the one
that reaches M queues the grant; a lapsed request goes. -/
theorem grantRequests : Obligations.GrantRequests := by
  unfold Obligations.GrantRequests
  refine ⟨fun rq cls part uses digest s t ht hd hp h1 h12 hu hu' hk ho hc => ?_,
    fun rq id m port sub sig cred point ok q k c s t hm ht hq ha hcase hk hnew => ?_, fun id s => ⟨_, rfl, fun q => ?_, rfl, rfl, rfl⟩⟩
  · obtain ⟨o, e, h⟩ := acceptNow_answers (t.requested cls part uses digest) rq 0x3400 1 0x20
      (leBytes 4 t.quorum.nextReq ++ (t.part 0).drbg.staged.take 32)
    rw [dispatch_quorumOpen, execQuorumOpen, quorumOpen_eq ht hd hp h1 h12 hu hu' hk ho hc, h]
    exact ⟨_, rfl, rfl, rfl, coreDraw_staged t 32, rfl, rfl, rfl⟩
  · rcases hcase with ⟨rfl, rfl, hl, rfl⟩ | ⟨rfl, rfl, hport, hcard, hcore, rfl⟩
    · exact ⟨_, exec_quorumApprove_eq hm ht hq ha hl, approval_answers hk hnew rfl⟩
    · exact ⟨_, exec_cardApprove_eq ht hq ha hport hcard hcore, approval_answers (t := t.askedCard port q.challenge) hk hnew rfl⟩
  · simp only [State.modQuorum, List.mem_filter, Bool.or_eq_true, bne_iff_ne, ne_eq, Bool.not_eq_true']
end

section
open Sys2Proof.Machine

/-! SUPPORT. A component load whose draws crowd the record slots: where the table of partitions is not in canonical form, a draw from partition 0
writes a second entry for it, and the slots that its ATC table holds are counted twice (R164, R267). -/

namespace Sys2Proof.Machine

/-! ### A card exchange that holds: both ephemeral points are the base point -/

/-- The member's key, and the card's signature over the two points and a challenge. -/
def custodianKey : Bytes :=
  4#8 :: (beBytes 32 0xa2d38fbf91988a7fa59f4a3b8de8fb0c92a80e91ec1c666499ff00397997bac9 ++
    beBytes 32 0x8f6b76c089d97c4016b7688bc89b6f91c528d9c84c96dfbd41b168f9639f63a6)

def custodianSignature : Bytes :=
  beBytes 32 0x1a243e70b0bd4171a9539dc6f72dc96ec470cd163c01150e29f72f3b5e1a48e ++
    beBytes 32 0x1a243e70b0bd4171a9539dc6f72dc96ec470cd163c01150e29f72f3b5e1a48e

def basePoint : Bytes := Ec.encode Ec.p256 (Ec.base Ec.p256)

/-- The card's answer under the session key of that exchange, and the component in it. -/
def custodianAnswer : Bytes := zeros 28 ++ beBytes 16 268741769119899367571163026742761265814

def custodianComponent : Bytes := beBytes 16 222542768332813151237942364449666613084

/-! ### The load -/

/-- The template of an AES key-encrypting key of tier 0. -/
def tierZeroTemplate : Bytes := leBytes 2 0x110 ++ [0x4B#8, 0x30#8, 0x58#8, 0x4E#8, 0x30#8, 0x30#8, 0#8, 0#8] ++ zeros 22

/-- A request over the mailbox, outside a session. -/
def mailboxReq : Req := ⟨0, 0, 0, 1, 0⟩

/-- A VENDOR module that waits for the second of two components of a key of partition 1, from the card of member 63 on port 3. In its table
partition 0 stands behind partition 1, and partition 0's ATC table holds half of the record slots. -/
def crowded : State :=
  { State.reset with
    service := .ready
    power := { power0 with stopPoint := 5 }
    life := { life0 with latched := 0x22 }
    od := { od0 with store := [(odKey 0x353F 1, [3#8]), (odKey 0x353F 3, custodianKey)] }
    parts := [(1, { part0 1 with key := .active }),
      (0, { part0 0 with
        atcCap := 2 ^ 30
        drbg := { drbg0 with ready := true, staged := zeros 40 ++ beBytes 32 6 ++ zeros 200 } })]
    quorum := { quorum0 with
      cards := [(3, true)]
      load := { load0 with state := 1, template := tierZeroTemplate, part := 1, count := 2, parts := [zeros 16] } } }

/-- The key that the two components make. -/
def crowdedKey : NewKey := ⟨readTemplate crowded.quorum.load.template, false, 4, custodianComponent, crowded.quorum.load.parent, [], 0⟩

theorem crowded_parent : crowded.named crowded.quorum.load.part crowded.quorum.load.parent = none := by decide +kernel

theorem crowded_agrees : agreed custodianKey (Ec.encode Ec.p256 (Ec.mul Ec.p256 1 (Ec.base Ec.p256))) basePoint (beBytes 32 6) custodianSignature =
    true := by decide +kernel

theorem crowded_opens : openComponent (cardKey 1 basePoint) custodianAnswer = some custodianComponent := by decide +kernel

theorem crowded_creates : (newRecord crowded crowded.quorum.load.part crowdedKey).isSome = true := by decide +kernel

/-- Once the draws have written their entry no record slot is free, and the load is abandoned. -/
theorem crowded_abandons : (componentLoad mailboxReq 3 custodianKey basePoint custodianSignature custodianAnswer crowded).quorum.load.state ≠ 1 := by
  decide +kernel

end Sys2Proof.Machine

/-- Refutes O32: the record that the last component makes is formed after the exchange's draws, and a draw from partition 0 puts a second entry
of it into a table of partitions that is not in canonical form. In `crowded` the ATC slots counted twice leave no free record slot, and the load is
abandoned although the key can be formed before the draws. -/
theorem not_keyCeremonies : ¬ Obligations.KeyCeremonies := by
  unfold Obligations.KeyCeremonies
  rintro ⟨-, hload, -⟩
  obtain ⟨c, hc⟩ := Option.isSome_iff_exists.mp crowded_creates
  obtain ⟨hagree, -⟩ := hload mailboxReq 3 63 1 custodianKey basePoint custodianSignature custodianAnswer (beBytes 32 6) crowded crowded
    ⟨rfl, by decide⟩ rfl (by decide) rfl rfl (by decide) rfl (by decide +kernel) (by decide +kernel) (by decide +kernel) (by decide +kernel)
    (by decide +kernel) (by decide +kernel)
  obtain ⟨-, hlast, -⟩ := hagree custodianComponent crowded_agrees crowded_opens (by decide +kernel)
  obtain ⟨u, hu, hstate, -⟩ := hlast custodianComponent c rfl (by decide +kernel) (by decide +kernel) rfl (by decide +kernel)
    (by rw [crowded_parent]; exact hc)
  rw [dispatch_componentLoad, execComponentLoad, Host.Outcome.next.injEq] at hu
  exact crowded_abandons (hu ▸ hstate)
end

section
open Sys2Proof.Machine

/-! SUPPORT. KD is formed while the entropy block has failed: Looper's other requests go (R324, R389). -/

namespace Sys2Proof.Machine

/-- The last block of KD for a manifest that waits for it, with the request for the NAND key behind it, on a module whose entropy block has
failed. -/
def formedFailed : State := { State.reset with
  service := .ready
  power := { State.reset.power with stopPoint := 5, mainOk := true }
  keys := { keys0 with kdJobs := [⟨some (⟨0, 0, 0, 1, 0⟩, 0x3001, 1, 0x22), [], .manifest []⟩] }
  entropy := { entropy0 with st := 4 }
  units := { units0 with looper := { looper0 with queue := [0, 4], block := 2, drawn := true, keyReg := some (zeros 32), out := zeros 32 } } }

theorem formedFailed_empties : (match exec .looperBlockDone formedFailed with
    | .next u => u.units.looper.queue
    | _ => [4]) = [] := by decide +kernel

end Sys2Proof.Machine

/-- Refutes O30: once KD is formed Looper keeps the requests behind it only while the entropy block has not failed, which the statement does not
ask. In `formedFailed` the request for the NAND key goes with the failed block. -/
theorem not_partitionKeyCommands : ¬ Obligations.PartitionKeyCommands := by
  unfold Obligations.PartitionKeyCommands
  rintro ⟨⟨-, hformed⟩, -⟩
  obtain ⟨u, l, hu, -, -, hqueue, -⟩ := hformed formedFailed ⟨0, 0, 0, 1, 0⟩ 0x3001 1 0x22 [] (.manifest []) [] [4] rfl rfl rfl rfl rfl rfl rfl
    (by decide +kernel) (fun p h => nomatch h) (fun p m h => nomatch h) (fun p h => nomatch h) (fun k p n v h => nomatch h)
  have hempty := formedFailed_empties
  rw [hu] at hempty
  rw [show u.units.looper.queue = [] from hempty] at hqueue
  exact nomatch hqueue
end

section
open Sys2Proof.Machine

/-! SUPPORT. What the commands of a ring do to it and to the others. -/

namespace Sys2Proof.Machine

/-! ### A disable cut keeps every ring -/

/-- The rings stand, and the pending events. -/
def RingsKept (s t : State) : Prop := t.rings = s.rings ∧ t.eic = s.eic

namespace RingsKept

theorem refl (s : State) : RingsKept s s := ⟨rfl, rfl⟩

theorem trans {a b c : State} (h : RingsKept a b) (h' : RingsKept b c) : RingsKept a c := ⟨h'.1.trans h.1, h'.2.trans h.2⟩

theorem of_held {s t : State} (h : HeldOnly s t) : RingsKept s t := by
  obtain ⟨_, _, _, _, _, rfl⟩ := h
  exact ⟨rfl, rfl⟩

theorem countDisable (s : State) (p : Nat) (f : Disable → Disable) : RingsKept s (countDisable s p f) := by
  unfold Machine.countDisable
  split <;> exact ⟨rfl, rfl⟩

theorem discard (s : State) (n : Nat) : RingsKept s (discard s n) := by
  unfold Machine.discard
  split
  · exact refl s
  · exact (countDisable s _ _).trans (of_held (.release _ n))

theorem discardRunning (s : State) (n : Nat) : RingsKept s (discardRunning s n) := by
  unfold Machine.discardRunning
  split
  · exact refl s
  · exact (countDisable s _ _).trans (of_held (.release _ n))

theorem cutOne_disable (s : State) (n : Nat) (x : Slot) : RingsKept s (cutOne s .disable n x) := by
  unfold cutOne
  split
  · exact refl s
  · exact refl s
  · exact refl s
  · exact discard s n
  · split
    · split
      · exact refl s
      · split
        · exact refl s
        · split
          · exact of_held (.modSlot s n _)
          · exact of_held ((HeldOnly.unqueue s n _).trans (.finish _ n _ _))
    · exact discard s n

theorem cutChained_disable (s : State) (n : Nat) (x : Slot) (first : Nat) : RingsKept s (cutChained s .disable n x first) := by
  unfold cutChained
  dsimp only
  split
  · exact discard s n
  · split
    · exact of_held (.modSlot s n _)
    · exact discardRunning s n

theorem cutRing_disable (s : State) (rid : Nat) : RingsKept s (cutRing s .disable rid) := by
  refine foldl_rel refl (fun _ _ _ => trans) _ (fun t e => ?_) _ s
  unfold cutSlot
  split
  · exact refl t
  · split
    · exact cutOne_disable t _ _
    · split
      · exact cutChained_disable t _ _ _
      · exact cutOne_disable t _ _

end RingsKept

/-- What a DISABLE makes of its ring (R131, R134). -/
def Ring.disabled (r : Ring) : Ring := match r.state with
  | .disabled => r
  | .stopping => if r.settle = .halted then r else { r with settle := .disabled }
  | _ => { r with state := .stopping, settle := .disabled, chainAt := none, chainLen := 0, chainWait := false, chainBad := false }

theorem disableRing_ring (s : State) (rid : Nat) : ∃ c, (disableRing s rid).ring rid = Ring.disabled { s.ring rid with chainWait := c } := by
  obtain ⟨c, hc⟩ := dropReservation_ring s rid rid
  have hkept : RingsKept (dropReservation s rid)
      (closeSessions (cutRing (dropReservation s rid) .disable rid) (fun e => e.sessRid == rid)) :=
    (RingsKept.cutRing_disable _ rid).trans (.of_held (.closeSessions _ _))
  refine ⟨c, ?_⟩
  unfold disableRing
  dsimp only
  rw [State.modRing_ring, if_pos rfl, ← hc, State.ring, State.ring, show State.rings _ = _ from hkept.1]
  rfl

theorem Ring.disabled_stops {r : Ring} (hd : r.state ≠ .disabled) (hh : ¬(r.state = .stopping ∧ r.settle = .halted)) :
    r.disabled.state = .stopping ∧ r.disabled.settle = .disabled := by
  unfold disabled
  split
  · contradiction
  · rename_i hs
    rw [if_neg (fun h => hh ⟨hs, h⟩)]
    exact ⟨hs, rfl⟩
  · exact ⟨rfl, rfl⟩

theorem Ring.disabled_halting {r : Ring} (hs : r.state = .stopping) (hh : r.settle = .halted) : r.disabled = r := by
  unfold disabled
  rw [hs]
  exact if_pos hh

theorem exec_ringDisable_eq {rid : Nat} {s : State} (ho : s.barOpen (rid / 4096) = true) (hv : rid < 4096 → s.vfRingOf rid = none) :
    exec (.ringDisable rid) s = .next (disableRing s rid) := by
  rw [dispatch_ringDisable, execRingDisable, ringCommand, barAccess_open _ _ ho, if_neg (fun h => by simp [hv h.1] at h)]

/-! ### Enabling and settling -/

theorem bindGroup_only {s t : State} {gid : Nat} (h : bindGroup s gid = some t) : ∃ g, t = { s with groups := g } := by
  unfold bindGroup at h
  split at h
  · split at h
    · cases h
    · cases h
      exact ⟨s.groups, rfl⟩
  · split at h
    · cases h
      exact ⟨s.groups, rfl⟩
    · obtain ⟨g, -, rfl⟩ := Option.map_eq_some_iff.mp h
      exact ⟨_, rfl⟩

theorem boundGroup_only (s : State) (gid : Nat) : ∃ g, (bindGroup s gid).getD s = { s with groups := g } := by
  cases h : bindGroup s gid with
  | none => exact ⟨s.groups, rfl⟩
  | some t => exact bindGroup_only h

/-- A ring that nothing refuses starts at REPLAY_INDEX (R95, R131). -/
theorem enableRing_starts {s : State} {rid : Nat} (h : enableRefused s rid = none) : ∃ g e, enableRing s rid = { s with
    groups := g, eic := e
    rings := tset s.rings rid { (s.ring rid).restart (if s.service = .halted ∨ s.service = .locked then .halted else .enabled) with
      glob := if rid < 4096 then none else s.freeGlobalRing } } := by
  obtain ⟨g, hg⟩ := boundGroup_only s (s.ringGroup rid)
  unfold enableRing
  rw [h]
  dsimp only
  rw [hg]
  split
  · obtain ⟨e, he⟩ := groupEvent_only ({ s with groups := g }.modRing rid (fun r => { r.restart .halted with
      glob := if rid < 4096 then none else s.freeGlobalRing })) (s.ringGroup rid)
    exact ⟨g, e, he⟩
  · exact ⟨g, s.eic, rfl⟩

/-- A stopping ring settles (R131). -/
theorem settleRing_settles {s : State} {rid : Nat} (h : (s.ring rid).state = .stopping) : ∃ g e, settleRing s rid = { s with
    groups := g, eic := e
    rings := tset s.rings rid { s.ring rid with
      replay := (s.ring rid).replayIndex, state := (s.ring rid).settle
      glob := if (s.ring rid).settle = .disabled then none else (s.ring rid).glob } } := by
  obtain ⟨e, he⟩ := groupEvent_only (s.modRing rid (fun r =>
    { r with replay := r.replayIndex, state := r.settle, glob := if r.settle = .disabled then none else r.glob })) (s.ringGroup rid)
  unfold settleRing
  rw [if_pos h]
  dsimp only
  rw [he]
  obtain ⟨g, hg⟩ := releaseGroups_only { s.modRing rid (fun r =>
    { r with replay := r.replayIndex, state := r.settle, glob := if r.settle = .disabled then none else r.glob }) with eic := e } (rid / 4096)
  exact ⟨g, e, hg⟩

end Sys2Proof.Machine

/-- Settles O18: a command of a ring writes that ring; what a DISABLE cuts leaves every ring as it stands. -/
theorem ringStateMachine : Obligations.RingStateMachine := by
  unfold Obligations.RingStateMachine
  refine ⟨fun rid s => ⟨fun ho hd hn => ?_, fun st ho hd hr => ?_, fun ho hv he => ?_, fun hst hsl => ?_⟩,
    fun rid s ho hv => ⟨fun hd hh => ?_, fun hst hh => ?_⟩⟩
  · obtain ⟨g, e, h⟩ := enableRing_starts hn
    rw [dispatch_ringEnable, execRingEnable, barAccess_open _ _ ho, if_pos hd, h]
    refine ⟨_, rfl, ?_, fun r hr => ?_, rfl, rfl, rfl, rfl⟩
    · rw [State.ring, tgetD_tset_self]
      rfl
    · rw [State.ring, tgetD_tset_ne (h := hr)]
      rfl
  · rw [dispatch_ringEnable, execRingEnable, barAccess_open _ _ ho, if_pos hd, enableRing, hr]
  · rw [dispatch_ringResume, execRingResume, ringCommand, barAccess_open _ _ ho, if_neg (fun h => by simp [hv h.1] at h), if_pos he]
    rfl
  · obtain ⟨g, e, h⟩ := settleRing_settles hst
    rw [dispatch_ringSettle, execRingSettle, if_pos (by simp [hsl]), h]
    refine ⟨_, rfl, ?_, ?_, fun r hr => ?_, rfl, rfl, rfl⟩
    · rw [State.ring, tgetD_tset_self]
    · rw [State.ring, tgetD_tset_self]
    · rw [State.ring, tgetD_tset_ne (h := hr)]
      rfl
  · obtain ⟨c, hc⟩ := disableRing_ring s rid
    have hw := (EndsWork.disableRing s rid).work
    obtain ⟨hstate, hsettle⟩ := Ring.disabled_stops (r := { s.ring rid with chainWait := c }) hd hh
    exact ⟨_, exec_ringDisable_eq ho hv, by rw [hc, hstate], by rw [hc, hsettle], hw.keys, by rw [hw.commit], hw.bus, hw.od⟩
  · obtain ⟨c, hc⟩ := disableRing_ring s rid
    have hw := (EndsWork.disableRing s rid).work
    have hsame := Ring.disabled_halting (r := { s.ring rid with chainWait := c }) hst hh
    exact ⟨_, exec_ringDisable_eq ho hv, by rw [hc, hsame]; exact hst, by rw [hc, hsame]; exact hh, hw.keys, hw.bus⟩
end

section
open Sys2Proof.Machine

/-! SUPPORT. A write of the host over a base address register. -/

namespace Sys2Proof.Machine

theorem leBytes_getD {n i : Nat} (v : Nat) (h : i < n) : (leBytes n v).getD i 0#8 = BitVec.ofNat 8 (v / 256 ^ i) := by
  induction n generalizing v i with
  | zero => omega
  | succ n ih =>
    cases i with
    | zero => simp [leBytes, byteOf]
    | succ i =>
      rw [leBytes, List.getD_cons_succ, ih (v / 256) (by omega), Nat.div_div_eq_div_mul, ← Nat.pow_succ']

theorem leBytes_length (n v : Nat) : (leBytes n v).length = n := by
  induction n generalizing v with
  | zero => rfl
  | succ n ih => rw [leBytes, List.length_cons, ih]

/-- An aligned write of 4 bytes (R54). -/
theorem writeBar_word {s : State} {fn bar off v : Nat} (hb : bar ≠ 2) (ha : off % 4 = 0) (hv : v < 2 ^ 32) : writeBar s fn bar off 4 v =
    if bar = 0 then writeBar0 s fn off v else if bar = 4 ∧ fn = 0 then writeMailbox s off v else s := by
  rw [writeBar, if_neg hb, if_neg (by simp [ha])]
  dsimp only
  rw [if_neg (by decide), Nat.mod_eq_of_lt hv]

theorem registerWrite_bar {s : State} {fn bar off size v : Nat} (hb : bar < 6) (ho : s.barOpen fn = true) :
    exec (.registerWrite fn bar off size v) s = .next (writeBar s fn bar off size v) := by
  rw [dispatch_registerWrite, execRegisterWrite, if_neg (by omega), barAccess_open _ _ ho]

theorem writeMailbox_buffer {s : State} {off v : Nat} (h1 : 0x1000 ≤ off) (h2 : off < 0x5000) :
    writeMailbox s off v = { s with od := { s.od with reqBuf := bufWrite s.od.reqBuf (off - 0x1000) (leBytes 4 v) } } := by
  rw [writeMailbox, if_neg (by omega), if_neg (by omega), if_pos ⟨h1, h2⟩]

/-- RING_CFG of a ring of the PF (R137). -/
theorem writeBar0_ringCfg {s : State} {rid v : Nat} (hr : rid < 4096) (hv : s.vfRingOf rid = none) (hd : (s.ring rid).state = .disabled) :
    writeBar0 s 0 (0x20000 + 32 * rid + 8) v = s.modRing rid (fun r => { r with
      part := bits v 31 24, group := bits v 23 14, eventAll := bit v 13, sizeLog2 := bits v 4 0, badCfg := bits v 12 5 != 0 || false }) := by
  have hat : writeBar0 s 0 (0x20000 + 32 * rid + 8) v = writeRing s (0 * 4096 + (0x20000 + 32 * rid + 8 - 0x20000) / 32)
      ((0x20000 + 32 * rid + 8 - 0x20000) % 32) v := by
    unfold writeBar0
    dsimp only
    rw [if_neg (by omega), if_neg (by simp; omega), if_neg (by simp; omega), if_neg (by simp; omega), if_pos (by simp; omega)]
    rfl
  rw [hat, show 0 * 4096 + (0x20000 + 32 * rid + 8 - 0x20000) / 32 = rid by omega,
    show (0x20000 + 32 * rid + 8 - 0x20000) % 32 = 8 by omega, writeRing]
  dsimp only
  rw [if_neg (fun h => by simp [hv] at h), hd, if_pos (by rfl)]
  simp [hr, Nat.not_le.mpr hr]

/-- An access that is not aligned to its size (R52). -/
theorem writeBar_unaligned {s : State} {fn bar off size v : Nat} (hb : bar ≠ 2) (ha : off % size ≠ 0) :
    writeBar s fn bar off size v = refuseAccess s fn (bar * 2 ^ 24 + off) .unsupported := by
  rw [writeBar, if_neg hb, if_pos (by simp [ha])]

end Sys2Proof.Machine

/-- Settles O22: an access reaches one register of one block, whose place its offset gives; what is closed, unaligned or too early is refused. -/
theorem registerAccesses : Obligations.RegisterAccesses := by
  unfold Obligations.RegisterAccesses
  refine ⟨fun fn s ho => ?_, fun off v s ho h1 h2 ha hv => ?_, fun rid v s ho hr hvf hd hv => ?_, fun fn v s he hc => ⟨?_, ?_⟩,
    fun fn bar off size v s hb h2 hs ha ho => ?_, fun fn bar off size v s he hp => ⟨fun hb hm => ?_, fun hl hp0 => ?_⟩⟩
  · rw [dispatch_hifFnErrRead, execHifFnErrRead, barAccess_open _ _ ho]
    refine ⟨_, rfl, rfl, ?_, fun n hn => ?_, rfl, rfl⟩
    · rw [State.fn, State.modFn, tgetD_tset_self]
      rfl
    · rw [State.fn, State.modFn, tgetD_tset_ne (h := hn)]
      rfl
  · rw [registerWrite_bar (by decide) ho, writeBar_word (by decide) ha hv, if_neg (by decide), if_pos ⟨rfl, rfl⟩, writeMailbox_buffer h1 h2]
    refine ⟨_, rfl, fun i hi => ?_, fun a ha => ?_, rfl⟩
    · dsimp only
      rw [tgetD_bufWrite, if_pos (by rw [leBytes_length]; omega), Nat.add_sub_cancel_left, leBytes_getD v hi]
    · dsimp only
      rw [tgetD_bufWrite, if_neg (by rw [leBytes_length]; omega)]
  · rw [registerWrite_bar (by decide) ho, writeBar_word (by decide) (by omega) hv, if_pos rfl, writeBar0_ringCfg hr hvf hd]
  · rw [dispatch_registerWrite, execRegisterWrite, if_pos rfl, configAccess, if_neg (by simp [he]), if_pos hc]
    rfl
  · rw [dispatch_registerWrite, execRegisterWrite, if_pos rfl, configAccess, if_neg (by simp [State.fnExists]), if_pos hc]
    rfl
  · rw [registerWrite_bar hb ho, writeBar_unaligned h2 ha]
  · rw [dispatch_registerWrite, execRegisterWrite, if_neg (by omega), barAccess, if_neg (by simp [State.barOpen, hm]), if_pos (by simp [he, hp])]
  · rw [dispatch_registerWrite, execRegisterWrite, if_pos rfl, configAccess, if_neg (by simp [he]), if_neg (by simp [State.cfgReady, hp0]),
      if_pos (by simp [hp, hl])]
end

section
open Sys2Proof.Machine

/-! SUPPORT. What a disable procedure leaves of the descriptors, of the supervisor's pending events and of the link (R68, R81, R83). -/

namespace Sys2Proof.Machine

/-! ### Every descriptor that is left was there, on its ring and as barred as it was -/

/-- Every descriptor of the later state stood in the earlier one, on the same ring and with the same bar on its completion. -/
def SlotsFrom (s t : State) : Prop := ∀ m x, t.slot m = some x → ∃ y, s.slot m = some y ∧ x.rid = y.rid ∧ x.barred = y.barred

namespace SlotsFrom

theorem of_slots {s t : State} (h : t.adm.slots = s.adm.slots) : SlotsFrom s t := by
  intro m x hx
  refine ⟨x, ?_, rfl, rfl⟩
  rwa [State.slot, ← h]

theorem refl (s : State) : SlotsFrom s s := of_slots rfl

theorem trans {a b c : State} (h : SlotsFrom a b) (h' : SlotsFrom b c) : SlotsFrom a c := by
  intro m x hx
  obtain ⟨y, hy, hr, hb⟩ := h' m x hx
  obtain ⟨z, hz, hr', hb'⟩ := h m y hy
  exact ⟨z, hz, hr.trans hr', hb.trans hb'⟩

theorem fold {α : Type} {g : State → α → State} (hg : ∀ t a, SlotsFrom t (g t a)) (l : List α) (s : State) : SlotsFrom s (l.foldl g s) :=
  foldl_rel refl (fun _ _ _ => trans) g hg l s

theorem modSlot (s : State) (n : Nat) {f : Slot → Slot} (hr : ∀ x, (f x).rid = x.rid) (hb : ∀ x, (f x).barred = x.barred) :
    SlotsFrom s (s.modSlot n f) := by
  intro m x hx
  rw [State.modSlot_slot] at hx
  split at hx
  · subst m
    obtain ⟨y, hy, rfl⟩ := Option.map_eq_some_iff.mp hx
    exact ⟨y, hy, hr y, hb y⟩
  · exact ⟨x, hx, rfl, rfl⟩

theorem finish (s : State) (n : Nat) (st : Status) (d : Nat) : SlotsFrom s (finish s n st d) :=
  modSlot s n (fun _ => rfl) (fun _ => rfl)

theorem startEngine (s : State) (e : Nat) : SlotsFrom s (startEngine s e) := by
  unfold Machine.startEngine
  split
  · exact refl s
  · split
    · exact of_slots rfl
    · split
      · exact refl s
      · exact of_slots rfl

theorem unqueue (s : State) (n : Nat) (u : UnitClass × Nat) : SlotsFrom s (unqueue s n u) := by
  unfold Machine.unqueue
  split
  · exact of_slots rfl
  · exact of_slots rfl
  · exact (of_slots (t := s.modEngine _ _) rfl).trans (startEngine _ _)
  · exact of_slots rfl

theorem release (s : State) (n : Nat) : SlotsFrom s (release s n) := by
  intro m x hx
  have h := release_slot s n m
  rw [hx] at h
  split at h
  · cases h
  · exact ⟨x, h.symm, rfl, rfl⟩

theorem countDisable (s : State) (p : Nat) (f : Disable → Disable) : SlotsFrom s (countDisable s p f) := by
  unfold Machine.countDisable
  split <;> exact of_slots rfl

theorem discard (s : State) (n : Nat) : SlotsFrom s (discard s n) := by
  unfold Machine.discard
  split
  · exact refl s
  · exact (countDisable s _ _).trans (release _ n)

theorem discardRunning (s : State) (n : Nat) : SlotsFrom s (discardRunning s n) := by
  unfold Machine.discardRunning
  split
  · exact refl s
  · exact (countDisable s _ _).trans (release _ n)

theorem endEntry (s : State) (n : Nat) (x : Slot) (st : Status) : SlotsFrom s (endEntry s n x st) := by
  unfold Machine.endEntry
  split
  · exact modSlot s n (fun _ => rfl) (fun _ => rfl)
  · exact finish s n _ _

theorem failChain (s : State) (n : Nat) : SlotsFrom s (failChain s n) := by
  unfold Machine.failChain
  split
  · exact refl s
  · split
    · exact refl s
    · refine fold (fun t e => ?_) _ s
      extract_lets u
      have hu : SlotsFrom t u := by
        simp only [u]
        split
        · exact of_slots rfl
        · exact refl t
      split
      · exact hu
      · exact hu.trans (endEntry u _ _ _)

theorem abortRaw (s : State) (n : Nat) : SlotsFrom s (abortRaw s n) := by
  unfold Machine.abortRaw
  split
  · exact refl s
  · split
    · exact refl s
    · refine trans ?_ (modSlot _ _ (fun _ => rfl) (fun _ => rfl))
      split
      · exact refl s
      · exact failChain s n

theorem closeSession (s : State) (e : Nat) : SlotsFrom s (closeSession s e) := by
  unfold Machine.closeSession
  refine trans ?_ (of_slots rfl)
  split
  · exact refl s
  · exact abortRaw s _

theorem closeSessions (s : State) (p : Engine → Bool) : SlotsFrom s (closeSessions s p) := fold closeSession _ s

theorem cutOne_disable (s : State) (n : Nat) (x : Slot) : SlotsFrom s (cutOne s .disable n x) := by
  unfold cutOne
  split
  · exact refl s
  · exact refl s
  · exact refl s
  · exact discard s n
  · split
    · split
      · exact refl s
      · split
        · exact refl s
        · split
          · exact modSlot s n (fun _ => rfl) (fun _ => rfl)
          · exact (unqueue s n _).trans (finish _ n _ _)
    · exact discard s n

theorem cutChained_disable (s : State) (n : Nat) (x : Slot) (first : Nat) : SlotsFrom s (cutChained s .disable n x first) := by
  unfold cutChained
  dsimp only
  split
  · exact discard s n
  · split
    · exact modSlot s n (fun _ => rfl) (fun _ => rfl)
    · exact discardRunning s n

theorem cutRing_disable (s : State) (rid : Nat) : SlotsFrom s (cutRing s .disable rid) := by
  refine fold (fun t e => ?_) _ s
  unfold cutSlot
  split
  · exact refl t
  · split
    · exact cutOne_disable t _ _
    · split
      · exact cutChained_disable t _ _ _
      · exact cutOne_disable t _ _

theorem dropReservation (s : State) (rid : Nat) : SlotsFrom s (dropReservation s rid) := by
  unfold Machine.dropReservation
  split
  · exact of_slots rfl
  · split
    · exact refl s
    · split
      · exact of_slots rfl
      · exact refl s

theorem disableRing (s : State) (rid : Nat) : SlotsFrom s (disableRing s rid) := by
  unfold Machine.disableRing
  exact (((dropReservation s rid).trans (cutRing_disable _ rid)).trans (closeSessions _ _)).trans (of_slots rfl)

theorem closeWindows (s : State) (p : Nat) : SlotsFrom s (closeWindows s p) := by
  refine fold (fun t g => ?_) _ s
  unfold closeWindow
  split
  · exact of_slots rfl
  · exact refl t

theorem disablePart (s : State) (p : Nat) (t : Trigger) (r : Option Nat) : SlotsFrom s (disablePart s p t r) := by
  unfold Machine.disablePart
  extract_lets x s1 s2
  split
  · exact of_slots rfl
  · have h2 : SlotsFrom s s2 := (of_slots (s := s) (t := s1) rfl).trans (fold disableRing _ s1)
    exact (h2.trans (closeSessions s2 _)).trans (closeWindows _ p)

end SlotsFrom

/-! ### Nothing that is pending for the supervisors is cleared, and the link stands -/

/-- The events pending for the supervisor cores stay pending, and the link keeps all but the VF Enable change that was refused. -/
structure LinkKept (s t : State) : Prop where
  core : ∀ k ∈ s.eic.corePend, k ∈ t.eic.corePend
  link : ∃ b, t.link = { s.link with sriovReject := b }

namespace LinkKept

theorem of_parts {s t : State} (h : t.eic.corePend = s.eic.corePend) (hl : t.link = s.link) : LinkKept s t :=
  ⟨fun _ hk => h ▸ hk, s.link.sriovReject, hl⟩

theorem refl (s : State) : LinkKept s s := of_parts rfl rfl

theorem trans {a b c : State} (h : LinkKept a b) (h' : LinkKept b c) : LinkKept a c := by
  refine ⟨fun k hk => h'.core k (h.core k hk), ?_⟩
  obtain ⟨u, hu⟩ := h.link
  obtain ⟨v, hv⟩ := h'.link
  exact ⟨v, by rw [hv, hu]⟩

theorem fold {α : Type} {g : State → α → State} (hg : ∀ t a, LinkKept t (g t a)) (l : List α) (s : State) : LinkKept s (l.foldl g s) :=
  foldl_rel refl (fun _ _ _ => trans) g hg l s

end LinkKept

theorem RingsKept.dropReservation_eic (s : State) (rid : Nat) : (dropReservation s rid).eic = s.eic := by
  unfold dropReservation
  split
  · rfl
  · split
    · rfl
    · split <;> rfl

theorem disableRing_eic (s : State) (rid : Nat) : (disableRing s rid).eic = s.eic := by
  have h : RingsKept (dropReservation s rid)
      (closeSessions (cutRing (dropReservation s rid) .disable rid) (fun e => e.sessRid == rid)) :=
    (RingsKept.cutRing_disable _ rid).trans (.of_held (.closeSessions _ _))
  exact h.2.trans (RingsKept.dropReservation_eic s rid)

theorem closeWindow_core (s : State) (h : Nat) : (closeWindow s h).eic.corePend = s.eic.corePend := by
  unfold closeWindow
  split <;> rfl

theorem closeWindows_core (s : State) (p : Nat) : (closeWindows s p).eic.corePend = s.eic.corePend :=
  foldl_keep (fun u => u.eic.corePend) _ (fun t g => closeWindow_core t (g / 16)) _ s

theorem disablePart_core (s : State) (p : Nat) (t : Trigger) (r : Option Nat) :
    (disablePart s p t r).eic.corePend = s.eic.corePend := by
  unfold disablePart
  extract_lets x s1 s2
  split
  · rfl
  · have h2 : s2.eic = s.eic := foldl_keep (fun u => u.eic) _ disableRing_eic _ s1
    rw [closeWindows_core, (RingsKept.of_held (.closeSessions s2 (fun e => e.sessPart == p))).2, h2]

theorem LinkKept.disablePart (s : State) (p : Nat) (t : Trigger) (r : Option Nat) : LinkKept s (disablePart s p t r) :=
  .of_parts (disablePart_core s p t r) (disablePart_workOnly s p t r).link

theorem enableParts_only (s : State) (n : Nat) : ∃ p, enableParts s n = { s with parts := p } := by
  unfold enableParts
  split
  · exact ⟨_, rfl⟩
  · refine foldl_rel (P := fun a b => ∃ p, b = { a with parts := p }) (fun _ => ⟨_, rfl⟩)
      (fun _ _ _ ⟨_, h⟩ ⟨q, h'⟩ => ⟨q, by rw [h', h]⟩) _ (fun t p => ?_) _ s
    split
    · exact ⟨_, rfl⟩
    · exact ⟨_, rfl⟩

theorem LinkKept.resetFunction (s : State) (n : Nat) : LinkKept s (resetFunction s n) := by
  unfold Machine.resetFunction
  extract_lets s1 s2
  split
  · exact ⟨fun _ => id, false, rfl⟩
  · exact of_parts rfl rfl

theorem resetFunction_adm (s : State) (n : Nat) : (resetFunction s n).adm = s.adm := by
  unfold resetFunction
  extract_lets s1 s2
  split <;> rfl

theorem resetFunction_fn_ne (s : State) {n k : Nat} (hk : k ≠ n) : (resetFunction s n).fn k = s.fn k := by
  have h1 : ∀ f : Fn, tgetD (tset (resetEic s n).fns n f) k fn0 = s.fn k := fun f => by
    rw [tgetD_tset_ne (h := hk)]
    exact tgetD_tset_ne (h := hk) ..
  unfold resetFunction
  extract_lets s1 s2
  split <;> exact h1 _

/-- What settling a function leaves beside it and its partitions. -/
theorem functionSettled_beside (s : State) (n : Nat) : LinkKept s (functionSettled s n) ∧ (functionSettled s n).adm = s.adm ∧
    ∀ k, k ≠ n → (functionSettled s n).fn k = s.fn k := by
  unfold functionSettled
  split
  · exact ⟨.refl s, rfl, fun _ _ => rfl⟩
  · extract_lets s1
    have h1 : LinkKept s s1 ∧ s1.adm = s.adm ∧ ∀ k, k ≠ n → s1.fn k = s.fn k := by
      simp only [s1]
      split
      · exact ⟨.of_parts rfl rfl, rfl, fun k hk => (State.modFn_fn ..).trans (if_neg hk)⟩
      · exact ⟨.refl s, rfl, fun _ _ => rfl⟩
    obtain ⟨hl, ha, hf⟩ := h1
    split
    · obtain ⟨p, hp⟩ := enableParts_only (resetFunction s1 n) n
      rw [hp]
      refine ⟨(hl.trans (.resetFunction s1 n)).trans (.of_parts rfl rfl), (resetFunction_adm s1 n).trans ha, fun k hk => ?_⟩
      exact (resetFunction_fn_ne s1 hk).trans (hf k hk)
    · exact ⟨hl, ha, hf⟩

/-- The function's disable before it is looked at whether it has ended. -/
def stopping (s : State) (n : Nat) (t : Trigger) : State :=
  (s.hosted n).foldl (fun u p => disablePart u p t none)
    (s.modFn n (fun f => { f with state := if f.state = .wedged ∨ t = .wedged then .wedged else .disabling }))

theorem disableFn_eq (s : State) (n : Nat) (t : Trigger) : disableFn s n t = functionSettled (stopping s n t) n := rfl

theorem stopping_fns (s : State) (n : Nat) (t : Trigger) : (stopping s n t).fns =
    (s.modFn n (fun f => { f with state := if f.state = .wedged ∨ t = .wedged then .wedged else .disabling })).fns :=
  (WorkOnly.fold (fun u p => disablePart_workOnly u p t none) (s.hosted n) _).fns

theorem stopping_fn (s : State) (n k : Nat) (t : Trigger) : (stopping s n t).fn k = (s.modFn n (fun f =>
    { f with state := if f.state = .wedged ∨ t = .wedged then .wedged else .disabling })).fn k := by
  rw [State.fn, State.fn, stopping_fns]

theorem disableFn_fn_ne (s : State) {n k : Nat} (t : Trigger) (hk : k ≠ n) : (disableFn s n t).fn k = s.fn k := by
  rw [disableFn_eq, (functionSettled_beside _ n).2.2 k hk, stopping_fn, State.modFn_fn, if_neg hk]

/-- A function that hosts a partition does not settle while that partition's procedure runs. -/
theorem disableFn_hosting {s : State} {n p : Nat} (t : Trigger) (hp : p ∈ s.hosted n) : disableFn s n t = stopping s n t := by
  have hw : StopsService s (stopping s n t) := (StopsService.modFn s n _).trans (.fold (fun u p => .disablePart u p t none) _ _)
  have hdis : ((stopping s n t).part p).dis = .disabling := by
    refine foldl_reaches (I := fun _ => True) (Q := fun u => (u.part p).dis = .disabling) (fun _ _ _ => trivial)
      (fun u q => (StopsService.disablePart u q t none).running p) hp (fun u _ => ?_) trivial
    rw [disablePart_part_dis, if_pos rfl]
  rw [disableFn_eq, functionSettled, if_pos]
  refine List.any_eq_true.mpr ⟨p, ?_, by rw [hdis]; rfl⟩
  rw [State.mem_hosted] at hp ⊢
  rwa [hw.owner]

theorem SlotsFrom.disableFn (s : State) (n : Nat) (t : Trigger) : SlotsFrom s (disableFn s n t) := by
  rw [disableFn_eq]
  have h : SlotsFrom s (stopping s n t) := (of_slots (s := s) (t := s.modFn n _) rfl).trans (fold (fun u p => disablePart u p t none) _ _)
  exact h.trans (of_slots (by rw [(functionSettled_beside (stopping s n t) n).2.1]))

theorem LinkKept.disableFn (s : State) (n : Nat) (t : Trigger) : LinkKept s (disableFn s n t) := by
  rw [disableFn_eq]
  have h : LinkKept s (stopping s n t) :=
    (of_parts (s := s) (t := s.modFn n _) rfl rfl).trans (fold (fun u p => .disablePart u p t none) _ _)
  exact h.trans (functionSettled_beside (stopping s n t) n).1

end Sys2Proof.Machine
end

section
open Sys2Proof.Machine

/-! SUPPORT. Link encryption and the responder of the DOE mailbox (R61 to R69). -/

namespace Sys2Proof.Machine

/-! ### A stream that leaves the Secure state -/

/-- A protected function is disabled with IDE_LOST shown (R68). -/
def ideLoss (t : State) (n : Nat) : State := disableFn (t.modFn n (fun f => { f with ideLost := true })) n .ideLoss

theorem SlotsFrom.ideLoss (t : State) (n : Nat) : SlotsFrom t (ideLoss t n) :=
  (of_slots (t := t.modFn n (fun f => { f with ideLost := true })) rfl).trans (.disableFn _ n _)

theorem LinkKept.ideLoss (t : State) (n : Nat) : LinkKept t (ideLoss t n) :=
  (of_parts (s := t) (t := t.modFn n (fun f => { f with ideLost := true })) rfl rfl).trans (.disableFn _ n _)

theorem StopsService.ideLoss (t : State) (n : Nat) : StopsService t (ideLoss t n) := (StopsService.modFn t n _).trans (.disableFn _ n _)

theorem ideLoss_fn_ne (t : State) {n k : Nat} (hk : k ≠ n) : (ideLoss t n).fn k = t.fn k := by
  rw [ideLoss, disableFn_fn_ne _ _ hk, State.modFn_fn, if_neg hk]

/-- A function that hosts a partition shows the loss: the disable procedure that begins with it does not reset it. -/
theorem ideLoss_shows {t : State} {n p : Nat} (hp : p ∈ t.hosted n) : ((ideLoss t n).fn n).ideLost = true := by
  rw [ideLoss, disableFn_hosting (s := t.modFn n (fun f => { f with ideLost := true })) (p := p) _ hp, stopping_fn]
  simp

/-- Hosting is what no disable procedure changes. -/
theorem ideLoss_hosted (t : State) (n k : Nat) : (ideLoss t n).hosted k = t.hosted k := by
  unfold State.hosted
  simp only [(StopsService.ideLoss t n).owner]

theorem foldl_ideLoss_shows {l : List Nat} {n p : Nat} (hn : n ∈ l) {t : State} (hp : p ∈ t.hosted n) :
    ((l.foldl ideLoss t).fn n).ideLost = true := by
  refine foldl_reaches (I := fun u => p ∈ u.hosted n) (Q := fun u => p ∈ u.hosted n ∧ (u.fn n).ideLost = true)
    (fun u k h => ?_) (fun u k h => ?_) hn (fun u h => ?_) hp |>.2
  · rw [ideLoss_hosted]; exact h
  · rw [ideLoss_hosted]
    refine ⟨h.1, ?_⟩
    by_cases hk : n = k
    · subst k; exact ideLoss_shows h.1
    · rw [ideLoss_fn_ne _ hk]; exact h.2
  · rw [ideLoss_hosted]; exact ⟨h, ideLoss_shows h⟩

/-- The stream out of the Secure state, logged and raised, with the completions of its functions barred (R68). -/
def unsecured (s : State) (stream : Nat) (fns : List Nat) : State :=
  let s1 := s.modLink (fun l => { l with ide := tset l.ide stream { tgetD s.link.ide stream ide0 with secure := false, keys := [], active := [] } })
  let s2 := raise (logMain s1 4 0x0100 0x0104 0xFF stream []) 1029
  { s2 with adm := { s2.adm with slots := tmap s2.adm.slots (fun _ x => { x with barred := x.barred || fns.contains (x.rid / 4096) }) } }

theorem unsecured_only (s : State) (stream : Nat) (fns : List Nat) : ∃ e l, unsecured s stream fns = { s with
    eic := e, log := l
    link := { s.link with ide := tset s.link.ide stream { tgetD s.link.ide stream ide0 with secure := false, keys := [], active := [] } }
    adm := { s.adm with slots := tmap s.adm.slots (fun _ x => { x with barred := x.barred || fns.contains (x.rid / 4096) }) } } := by
  unfold unsecured
  dsimp only
  obtain ⟨l, hl⟩ := logMain_only (s.modLink (fun l => { l with
    ide := tset l.ide stream { tgetD s.link.ide stream ide0 with secure := false, keys := [], active := [] } })) 4 0x0100 0x0104 0xFF stream []
  rw [hl]
  obtain ⟨e, he⟩ := raise_only { s.modLink (fun l => { l with
    ide := tset l.ide stream { tgetD s.link.ide stream ide0 with secure := false, keys := [], active := [] } }) with log := l } 1029
  rw [he]
  exact ⟨e, l, rfl⟩

theorem unsecured_raises {s : State} (stream : Nat) (fns : List Nat) (ha : s.asleep = false) :
    1029 ∈ (unsecured s stream fns).eic.corePend := by
  unfold unsecured
  dsimp only
  refine raise_pends_core rfl ?_ (by decide)
  rw [State.asleep, logMain_power]
  exact ha

theorem unsecured_bars (s : State) (stream : Nat) (fns : List Nat) {m : Nat} {x : Slot} (hx : (unsecured s stream fns).slot m = some x)
    (hn : x.rid / 4096 ∈ fns) : x.barred = true := by
  obtain ⟨e, l, h⟩ := unsecured_only s stream fns
  rw [h, State.slot] at hx
  dsimp only at hx
  rw [tget_tmap] at hx
  obtain ⟨y, -, rfl⟩ := Option.map_eq_some_iff.mp hx
  simp [show y.rid / 4096 ∈ fns from hn]

theorem leaveSecure_secure {s : State} {stream : Nat} (hs : (tgetD s.link.ide stream ide0).secure = true) : leaveSecure s stream =
    noteFunctions s ((s.ideFns (tgetD s.link.ide stream ide0)).foldl ideLoss (unsecured s stream (s.ideFns (tgetD s.link.ide stream ide0)))) := by
  rw [leaveSecure, if_neg (by simp [hs])]
  rfl

theorem leaveSecure_plain {s : State} {stream : Nat} (hs : (tgetD s.link.ide stream ide0).secure = false) : leaveSecure s stream = s := by
  rw [leaveSecure, if_pos (by simp [hs])]

theorem noteFunctions_keeps_core {b t : State} {k : Nat} (h : k ∈ t.eic.corePend) : k ∈ (noteFunctions b t).eic.corePend := by
  unfold noteFunctions
  split
  · exact h
  · exact raise_keeps_core _ h

theorem LinkKept.noteFunctions (b s : State) : LinkKept s (noteFunctions b s) := by
  refine ⟨fun _ => noteFunctions_keeps_core, s.link.sriovReject, ?_⟩
  obtain ⟨e, he⟩ := noteFunctions_only b s
  rw [he]

/-- What a Secure stream leaves behind (R68). -/
structure LeftSecure (s : State) (stream : Nat) (t : State) : Prop where
  link : ∃ b, t.link = { s.link with
    sriovReject := b, ide := tset s.link.ide stream { tgetD s.link.ide stream ide0 with secure := false, keys := [], active := [] } }
  raised : s.asleep = false → 1029 ∈ t.eic.corePend
  lost : ∀ n ∈ s.ideFns (tgetD s.link.ide stream ide0), (t.fn n).ideLost = true
  bars : ∀ n ∈ s.ideFns (tgetD s.link.ide stream ide0), ∀ m x, t.slot m = some x → x.rid / 4096 = n → x.barred = true
  alone : s.ideFns (tgetD s.link.ide stream ide0) = [] → t.fns = s.fns ∧ t.parts = s.parts
  keys : t.keys = s.keys

theorem leaveSecure_leaves {s : State} {stream : Nat} (hs : (tgetD s.link.ide stream ide0).secure = true) :
    LeftSecure s stream (leaveSecure s stream) := by
  rw [leaveSecure_secure hs]
  generalize hfn : s.ideFns (tgetD s.link.ide stream ide0) = fns
  obtain ⟨e, l, hu⟩ := unsecured_only s stream fns
  obtain ⟨e', hn⟩ := noteFunctions_only s (fns.foldl ideLoss (unsecured s stream fns))
  have hk := (LinkKept.fold LinkKept.ideLoss fns (unsecured s stream fns)).trans (.noteFunctions s _)
  refine ⟨?_, fun ha => hk.core _ (unsecured_raises stream fns ha), ?_, ?_, ?_, ?_⟩
  · obtain ⟨b, hb⟩ := hk.link
    rw [hb, hu]
    exact ⟨b, rfl⟩
  · rw [hfn]
    intro n hmem
    obtain ⟨p, hp, -⟩ := List.any_eq_true.mp (Bool.and_eq_true_iff.mp (List.mem_filter.mp (hfn ▸ hmem : n ∈ s.ideFns _)).2).2
    rw [hn]
    exact foldl_ideLoss_shows (p := p) hmem (by rw [hu]; exact hp)
  · rw [hfn]
    intro n hmem m x hx hr
    rw [hn] at hx
    obtain ⟨y, hy, hrid, hbar⟩ := SlotsFrom.fold SlotsFrom.ideLoss fns (unsecured s stream fns) m x hx
    rw [hbar]
    exact unsecured_bars s stream fns hy (by rwa [← hrid, hr])
  · rw [hfn]
    rintro rfl
    rw [hn, List.foldl_nil, hu]
    exact ⟨rfl, rfl⟩
  · rw [hn]
    refine (StopsService.fold StopsService.ideLoss fns (unsecured s stream fns)).keys.trans ?_
    rw [hu]

/-! ### Key management in the secured session -/

theorem sendKm_only (s : State) (body : Bytes) : ∃ b, sendKm s body = { s with
    link := { s.link with spdmSeq := s.link.spdmSeq + 1 }, bus := { s.bus with doe := s.bus.doe ++ [b] } } := ⟨_, rfl⟩

theorem exec_keyProg {stream ks rx : Nat} (key : Bytes) {s : State} (ho : s.kmOpen stream ks rx = true) : ∃ t,
    exec (.keyProg stream ks rx key) s = .next t ∧
    tget (tgetD t.link.ide stream ide0).keys (2 * ks + rx) = some (fit 32 key) ∧
    (tgetD t.link.ide stream ide0).secure = (tgetD s.link.ide stream ide0).secure ∧
    (∀ k, k ≠ stream → tgetD t.link.ide k ide0 = tgetD s.link.ide k ide0) ∧
    t.bus.doe.length = s.bus.doe.length + 1 ∧ t.fns = s.fns ∧ t.parts = s.parts ∧ t.keys = s.keys ∧ t.eic = s.eic := by
  rw [dispatch_keyProg, execKeyProg, if_pos ho]
  dsimp only
  obtain ⟨b, hb⟩ := sendKm_only (s.modLink (fun l => { l with
    ide := tmod l.ide stream ide0 (fun i => { i with keys := tset i.keys (2 * ks + rx) (fit 32 key) }) }))
    [0#8, 3#8, 0#8, 0#8, byteOf stream, 0#8, byteOf (ks + 2 * rx), 0#8]
  rw [hb]
  refine ⟨_, rfl, ?_, ?_, fun k hk => ?_, by simp, rfl, rfl, rfl, rfl⟩
  · simp only [State.modLink, tmod, tgetD_tset_self, tget_tset_self]
  · simp only [State.modLink, tmod, tgetD_tset_self]
  · simp only [State.modLink, tmod, tgetD_tset_ne (h := hk)]

/-- The stream with a key set in use; it is Secure once both directions have one (R65). -/
def IdeStream.started (i : IdeStream) (ks rx : Nat) : IdeStream := { i with
  active := tset i.active rx ks
  secure := i.secure || ((tget (tset i.active rx ks) 0).isSome && (tget (tset i.active rx ks) 1).isSome) }

theorem exec_kSetGo {stream ks rx : Nat} {s : State} (ho : s.kmOpen stream ks rx = true)
    (hk : (tget (tgetD s.link.ide stream ide0).keys (2 * ks + rx)).isSome = true) : ∃ t e,
    exec (.kSetGo stream ks rx) s = .next t ∧ t = { s with
      eic := e, bus := t.bus
      link := { s.link with spdmSeq := t.link.spdmSeq, ide := tset s.link.ide stream ((tgetD s.link.ide stream ide0).started ks rx) } } := by
  rw [dispatch_kSetGo, execKSetGo, if_pos (by rw [ho, hk]; rfl)]
  obtain ⟨b, hb⟩ := sendKm_only (s.modLink (fun l => { l with
    ide := tset l.ide stream ((tgetD s.link.ide stream ide0).started ks rx) }))
    [0#8, 5#8, 0#8, 0#8, byteOf stream, 0#8, byteOf (ks + 2 * rx), 0#8]
  unfold IdeStream.started at hb ⊢
  dsimp only
  generalize sendKm _ _ = u at hb ⊢
  split
  · obtain ⟨e, he⟩ := raise_only u 1029
    rw [he, hb]
    exact ⟨_, e, rfl, rfl⟩
  · rw [hb]
    exact ⟨_, _, rfl, rfl⟩

/-- Any key set taken out of use leaves the Secure state, with the stream's keys cleared (R66). -/
theorem exec_kSetStop {stream ks rx : Nat} {s : State} (ho : s.kmOpen stream ks rx = true)
    (ha : tget (tgetD s.link.ide stream ide0).active rx = some ks) : ∃ t, exec (.kSetStop stream ks rx) s = .next t ∧
    (tgetD t.link.ide stream ide0).secure = false ∧ tget (tgetD t.link.ide stream ide0).active rx = none ∧
    ((tgetD s.link.ide stream ide0).secure = true → (tgetD t.link.ide stream ide0).keys = [] ∧
      ∀ n ∈ s.ideFns (tgetD s.link.ide stream ide0), (t.fn n).ideLost = true) ∧
    (s.ideFns (tgetD s.link.ide stream ide0) = [] → t.fns = s.fns ∧ t.parts = s.parts) ∧ t.keys = s.keys := by
  rw [dispatch_kSetStop, execKSetStop, if_pos (by rw [ho, ha]; simp)]
  dsimp only
  obtain ⟨b, hb⟩ := sendKm_only ((leaveSecure s stream).modLink (fun l => { l with
    ide := tmod l.ide stream ide0 (fun i => { i with active := terase i.active rx }) }))
    [0#8, 5#8, 0#8, 0#8, byteOf stream, 0#8, byteOf (ks + 2 * rx), 0#8]
  rw [hb]
  have herased : ∀ i : IdeStream, tget (terase i.active rx) rx = none := fun i => by rw [tget_terase, if_pos rfl]
  cases hs : (tgetD s.link.ide stream ide0).secure with
  | false =>
    rw [leaveSecure_plain hs]
    refine ⟨_, rfl, ?_, ?_, fun h => (by cases h), fun _ => ⟨rfl, rfl⟩, rfl⟩
    · simp only [State.modLink, tmod, tgetD_tset_self, hs]
    · simp only [State.modLink, tmod, tgetD_tset_self, herased]
  | true =>
    obtain ⟨⟨c, hl⟩, -, hlost, -, halone, hkeys⟩ := leaveSecure_leaves hs
    refine ⟨_, rfl, ?_, ?_, fun _ => ⟨?_, hlost⟩, halone, hkeys⟩
    · simp only [State.modLink, tmod, tgetD_tset_self, hl]
    · simp only [State.modLink, tmod, tgetD_tset_self, herased]
    · simp only [State.modLink, tmod, tgetD_tset_self, hl]

/-- A failed check takes a Secure stream out of the Secure state and bars the completions of its functions (R68). -/
theorem exec_ideCheckFailed {stream : Nat} {s : State} (h : stream < 16) (hs : (tgetD s.link.ide stream ide0).secure = true) : ∃ t,
    exec (.ideCheckFailed stream) s = .next t ∧ t.link.aerIde = true ∧ (tgetD t.link.ide stream ide0).secure = false ∧
    (tgetD t.link.ide stream ide0).keys = [] ∧ (s.asleep = false → 1029 ∈ t.eic.corePend) ∧
    (∀ n ∈ s.ideFns (tgetD s.link.ide stream ide0), (t.fn n).ideLost = true ∧
      ∀ m x, t.slot m = some x → x.rid / 4096 = n → x.barred = true) ∧
    (s.ideFns (tgetD s.link.ide stream ide0) = [] → t.fns = s.fns ∧ t.parts = s.parts) ∧ t.keys = s.keys := by
  rw [dispatch_ideCheckFailed, execIdeCheckFailed, if_pos h]
  obtain ⟨⟨b, hl⟩, hraised, hlost, hbars, halone, hkeys⟩ :=
    leaveSecure_leaves (s := s.modLink (fun l => { l with aerIde := true })) (stream := stream) hs
  refine ⟨_, rfl, by rw [hl]; rfl, ?_, ?_, hraised, fun n hn => ⟨hlost n hn, hbars n hn⟩, halone, hkeys⟩
  · simp only [hl, tgetD_tset_self]
  · simp only [hl, tgetD_tset_self]

/-! ### The responder -/

section
variable {ver : Nat} (hv : ver ∈ [0x11, 0x12])
include hv

theorem serveSpdm_serves (s : State) (f : State → State) {ok : Bool} (ho : ok = true) : serveSpdm s ver ok f = f s := by
  rw [serveSpdm, if_pos]
  rw [ho, Bool.and_true, List.contains_iff_mem]
  exact hv

theorem exec_getCertificate {off : Nat} (len : Nat) {s : State} (hu : s.life.unsealed = true) (hc : s.certChain 0 ≠ [])
    (ho : off ≤ (s.certChain 0).length) : exec (.spdmGetCertificate ⟨ver, 0⟩ off len) s =
      .next (sendDoe s ([byteOf ver, 0x02#8, byteOf 0, 0#8] ++
      leBytes 2 (((s.certChain 0).drop off).take (min len 4080)).length ++
      leBytes 2 ((s.certChain 0).length - off - (((s.certChain 0).drop off).take (min len 4080)).length) ++
      ((s.certChain 0).drop off).take (min len 4080))) := by
  rw [dispatch_spdmGetCertificate, execSpdmGetCertificate]
  dsimp only
  rw [serveSpdm_serves hv s _ (by simp [hu, hc, ho])]
  rfl

theorem exec_challenge {nonce : Bytes} {s : State} (hn : nonce.length = 32) (hu : s.life.unsealed = true) (hc : s.certChain 0 ≠ [])
    (hr : s.coreReady 88 = true) : ∃ t m, exec (.spdmChallenge ⟨ver, 0⟩ nonce) s = .next t ∧
      t = { (coreDraw (coreDraw s 32).2 56).2 with bus := { s.bus with doe := s.bus.doe ++
        [[byteOf ver, 0x03#8, byteOf 0, 1#8] ++ Sha.sha384 (s.certChain 0) ++ (s.part 0).drbg.staged.take 32 ++ m] } } := by
  rw [dispatch_spdmChallenge, execSpdmChallenge]
  dsimp only
  rw [serveSpdm_serves hv s _ (by simp [hn, hu, hc]), if_neg (by rw [show 32 + signDraw = 88 from rfl, hr]; decide)]
  rw [List.append_assoc _ (Sha.sha384 _) (leBytes 2 0), List.append_assoc _ (Sha.sha384 _ ++ leBytes 2 0)]
  exact ⟨_, _, rfl, rfl⟩

theorem exec_getMeasurements {i : Nat} {signed : Bool} {nonce : Bytes} {s : State} (hi : i ≤ 9 ∨ i = 0xFF)
    (hs : signed = true → s.life.unsealed = true ∧ nonce.length = 32) (hr : s.coreReady (if signed = true then 88 else 32) = true) :
    ∃ t m b, exec (.spdmGetMeasurements ⟨ver, i⟩ signed nonce) s = .next t ∧
      b = (if i = 0 then [] else if i = 0xFF then (List.range 9).map (fun k => s.measurement (k + 1)) else [s.measurement i]) ∧
      t = { (if signed = true then (coreDraw (coreDraw s 32).2 56).2 else (coreDraw s 32).2) with bus := { s.bus with doe := s.bus.doe ++
        [[byteOf ver, 0x60#8, byteOf (if i = 0 then 9 else 0), 0#8, byteOf b.length] ++ leBytes 3 b.flatten.length ++ b.flatten ++
          (s.part 0).drbg.staged.take 32 ++ leBytes 2 0 ++ m] } } ∧
      (signed = false → m = []) := by
  rw [dispatch_spdmGetMeasurements, execSpdmGetMeasurements]
  dsimp only
  cases signed with
  | false =>
    rw [serveSpdm_serves hv s _ (by simpa using hi), if_neg (by rw [if_neg (by decide)] at hr ⊢; rw [Nat.add_zero, hr]; decide)]
    exact ⟨_, _, _, rfl, rfl, rfl, fun _ => rfl⟩
  | true =>
    obtain ⟨hu, hn⟩ := hs rfl
    rw [serveSpdm_serves hv s _ (by simpa [hu, hn] using hi),
      if_neg (by rw [if_pos rfl] at hr ⊢; rw [show 32 + signDraw = 88 from rfl, hr]; decide)]
    exact ⟨_, _, _, rfl, rfl, rfl, fun h => by cases h⟩

theorem exec_keyExchange (req : Nat) {point : Bytes} {q : Nat × Nat} {s : State} (hq : Ec.decode Ec.p384 (0x04#8 :: point) = some q)
    (hu : s.life.unsealed = true) (hc : Ec.onCurve Ec.p384 q.1 q.2 = true) (hr : s.coreReady 146 = true) : ∃ t sid key b,
      exec (.spdmKeyExchange ⟨ver, req⟩ point) s = .next t ∧
      t = { (coreDraw (coreDraw (coreDraw (coreDraw s 56).2 2).2 32).2 56).2 with
        link := { s.link with spdmSession := some sid, spdmKey := key, spdmSeq := 0 }
        bus := { s.bus with doe := s.bus.doe ++ [b] } } := by
  rw [dispatch_spdmKeyExchange, execSpdmKeyExchange]
  dsimp only
  rw [hq]
  dsimp only
  rw [serveSpdm_serves hv s _ (by rw [hu, hc]; rfl), if_neg (by rw [show 90 + signDraw = 146 from rfl, hr]; decide)]
  exact ⟨_, _, _, _, rfl, rfl⟩

end

end Sys2Proof.Machine

/-- Settles O23: each request of the key management and of the responder by its own lemma. -/
theorem linkEncryption : Obligations.LinkEncryption := by
  unfold Obligations.LinkEncryption
  refine ⟨fun stream ks rx s => ⟨fun key => exec_keyProg key, fun ho hk => ?_, exec_kSetStop, exec_ideCheckFailed⟩,
    fun i s => rfl, fun ver off len s hv => exec_getCertificate hv len, fun ver k off len s h => ?_,
    fun ver nonce s hv hn hu hc hr => ?_, fun ver i signed nonce s hv hi hs hr => ?_, fun ver req point q s hv hq hu hc hr => ?_⟩
  · obtain ⟨t, e, ht, h⟩ := exec_kSetGo ho hk
    refine ⟨t, ht, ?_, ?_, by rw [h], by rw [h], by rw [h]⟩
    · rw [h]
      simp only [tgetD_tset_self, IdeStream.started, tget_tset_self]
    · rw [h]
      simp only [tgetD_tset_self, IdeStream.started, Bool.or_eq_true, Bool.and_eq_true]
  · rw [dispatch_spdmGetCertificate, execSpdmGetCertificate]
    dsimp only
    rw [serveSpdm, if_neg]
    rw [Bool.and_eq_true, List.contains_iff_mem]
    rintro ⟨hm, ho⟩
    rcases h with h | h
    · simp [h] at ho
    · exact h hm
  · obtain ⟨t, m, ht, h⟩ := exec_challenge hv hn hu hc hr
    refine ⟨t, m, ht, by rw [h], ?_, fun p hp => ?_, by rw [h]; rfl, by rw [h]; rfl, by rw [h]; rfl⟩
    · rw [h]
      exact ((coreDraw_staged _ 56).trans (by rw [coreDraw_staged, List.drop_drop]))
    · rw [h]
      exact (coreDraw_beside _ 56 hp).trans (coreDraw_beside s 32 hp)
  · obtain ⟨t, m, b, ht, hb, h, hm⟩ := exec_getMeasurements hv hi hs hr
    refine ⟨t, m, b, ht, hb, by rw [h], hm, fun p hp => ?_, ?_, ?_, ?_⟩
    · rw [h]
      cases signed with
      | false => exact coreDraw_beside s 32 hp
      | true => exact (coreDraw_beside _ 56 hp).trans (coreDraw_beside s 32 hp)
    all_goals
      rw [h]
      cases signed <;> rfl
  · obtain ⟨t, sid, key, b, ht, h⟩ := exec_keyExchange hv req hq hu hc hr
    exact ⟨t, ht, by rw [h]; rfl, by rw [h], by rw [h]; simp, by rw [h], by rw [h]; rfl, by rw [h]; rfl⟩
end

section
open Sys2Proof.Machine

/-! SUPPORT. How the disable procedure of a function begins (R81, R87, R88, R91, R92). -/

namespace Sys2Proof.Machine

/-- A disable procedure that begins leaves those of the other partitions as they were meant. -/
theorem disablePart_goal_ne (s : State) {p q : Nat} (t : Trigger) (r : Option Nat) (h : p ≠ q) :
    ((disablePart s q t r).part p).disable.map Disable.goal = (s.part p).disable.map Disable.goal := by
  have hmod : ∀ f : Part → Part, ((s.modPart q f).part p) = s.part p := fun f => by rw [State.modPart_part, if_neg h]
  unfold disablePart
  extract_lets x s1 s2
  split
  · rw [hmod]
  · have hgoal : KeepsGoal s1 (closeWindows (closeSessions s2 (fun e => e.sessPart == q)) q) :=
      ((KeepsGoal.fold KeepsGoal.disableRing _ s1).trans (.of_held (.closeSessions s2 _))).trans (.closeWindows _ q)
    rw [hgoal p, hmod]

/-- The partition is of this function, and a disable procedure of it is one this trigger began. -/
def BegunFor (n p : Nat) (t : Trigger) (s : State) : Prop :=
  (s.part p).fn = n ∧ ∀ d, (s.part p).disable = some d → d.goal = (n, t, none, none)

theorem BegunFor.disablePart {n p q : Nat} {t : Trigger} {s : State} (h : BegunFor n p t s) :
    BegunFor n p t (disablePart s q t none) := by
  obtain ⟨hfn, hgoal⟩ := h
  refine ⟨(disablePart_part_fn ..).trans hfn, fun d hd => ?_⟩
  by_cases hq : p = q
  · subst q
    obtain ⟨e, he, heg⟩ := disablePart_disable s p t none
    rw [hd] at he
    cases he
    rw [heg, hfn]
    split
    · cases hs : (s.part p).disable with
      | none => rfl
      | some d0 => exact hgoal d0 hs
    · rfl
  · have hmap := disablePart_goal_ne s t none hq
    rw [hd, Option.map_some] at hmap
    obtain ⟨d0, hd0, hg⟩ := Option.map_eq_some_iff.mp hmap.symm
    rw [← hg]
    exact hgoal d0 hd0

theorem disablePart_begun_kept (s : State) (p q : Nat) (t : Trigger) (h : (s.part p).disable.isSome = true) :
    ((disablePart s q t none).part p).disable.isSome = true := by
  by_cases hq : p = q
  · subst q
    obtain ⟨d, hd, -⟩ := disablePart_disable s p t none
    rw [hd]; rfl
  · have hmap := congrArg Option.isSome (disablePart_goal_ne s t none hq)
    rwa [Option.isSome_map, Option.isSome_map, h] at hmap

/-- A partition that no procedure has begun for has this one begun, under its trigger (R81). -/
theorem disableFn_begins {s : State} {n p : Nat} (t : Trigger) (hp : p ∈ s.hosted n) (hd : (s.part p).disable = none) :
    ((disableFn s n t).part p).dis = .disabling ∧ ∃ d, ((disableFn s n t).part p).disable = some d ∧ d.trigger = t ∧ d.fn = n := by
  have hpre : BegunFor n p t s := ⟨(State.mem_hosted.mp hp).2, fun d h => by rw [hd] at h; cases h⟩
  have hpost : BegunFor n p t (stopping s n t) ∧ ((stopping s n t).part p).disable.isSome = true := by
    refine foldl_reaches (I := BegunFor n p t) (Q := fun u => BegunFor n p t u ∧ (u.part p).disable.isSome = true)
      (fun u q h => h.disablePart) (fun u q h => ⟨h.1.disablePart, disablePart_begun_kept u p q t h.2⟩) hp (fun u h => ⟨h.disablePart, ?_⟩) hpre
    obtain ⟨d, hd, -⟩ := disablePart_disable u p t none
    rw [hd]; rfl
  refine ⟨disableFn_disabling t hp, ?_⟩
  rw [disableFn_hosting t hp]
  obtain ⟨d, hd⟩ := Option.isSome_iff_exists.mp hpost.2
  have hgoal := hpost.1.2 d hd
  exact ⟨d, hd, congrArg (fun g => g.2.1) hgoal, congrArg (fun g => g.1) hgoal⟩

theorem hosted_ne_nil {s : State} {n : Nat} (h : s.hosted n ≠ []) : ∃ p, p ∈ s.hosted n := List.exists_mem_of_ne_nil _ h

/-- The function shows that it is being disabled while a partition of it is (R81, R87). -/
theorem disableFn_fn_hosting {s : State} {n : Nat} (t : Trigger) (h : s.hosted n ≠ []) : (disableFn s n t).fn n =
    { s.fn n with state := if (s.fn n).state = .wedged ∨ t = .wedged then .wedged else .disabling } := by
  obtain ⟨p, hp⟩ := hosted_ne_nil h
  rw [disableFn_hosting t hp, stopping_fn, State.modFn_fn_self]

/-- A function's disable procedure with no partition to disable. -/
theorem disableFn_idle {s : State} {n : Nat} {t : Trigger} (h : s.hosted n = []) (hw : (s.fn n).state ≠ .wedged) (ht : t ≠ .wedged) :
    ∃ f, disableFn s n t = (if (s.fn n).inFlr then enableParts (resetFunction { s with fns := f } n) n else { s with fns := f }) ∧
      tgetD f n fn0 = { s.fn n with state := .disabled } := by
  have hstop : stopping s n t = s.modFn n (fun f => { f with state := .disabling }) := by
    rw [stopping, h, List.foldl_nil]
    simp only [State.modFn, hw, ht, or_self, if_false]
  have hidle : (s.modFn n (fun f => { f with state := .disabling })).stillDisabling n = false := by
    rw [State.stillDisabling, show (s.modFn n _).hosted n = s.hosted n from rfl, h]
    rfl
  rw [disableFn_eq, hstop, functionSettled, if_neg (by simp [hidle])]
  extract_lets s1
  have hs1 : s1 = (s.modFn n (fun f => { f with state := .disabling })).modFn n (fun f => { f with state := .disabled }) :=
    if_pos (by rw [State.modFn_fn_self])
  have hfn : s1.fn n = { s.fn n with state := .disabled } := by rw [hs1, State.modFn_fn_self, State.modFn_fn_self]
  refine ⟨s1.fns, ?_, hfn⟩
  rw [show (s1.fn n).inFlr = (s.fn n).inFlr by rw [hfn]]
  rw [show ({ s with fns := s1.fns } : State) = s1 by rw [hs1]; rfl]

/-- A function of no partition that is reset shows what reset leaves, and its rings are gone (R91). -/
theorem disableFn_reset {s : State} {n : Nat} {t : Trigger} (h : s.hosted n = []) (hw : (s.fn n).state ≠ .wedged) (ht : t ≠ .wedged)
    (hf : (s.fn n).inFlr = true) :
    (disableFn s n t).fn n = { fn0 with state := .enabled } ∧ ∀ r, r / 4096 = n → tget (disableFn s n t).rings r = none := by
  obtain ⟨f, he, hfn⟩ := disableFn_idle h hw ht
  rw [if_pos hf] at he
  obtain ⟨p, hp⟩ := enableParts_only (resetFunction { s with fns := f } n) n
  rw [he, hp]
  have hreset : (resetFunction { s with fns := f } n).fn n = { fn0 with state := .enabled } ∧
      (resetFunction { s with fns := f } n).rings = tfilter s.rings (fun rid _ => rid / 4096 != n) := by
    have hstate : ((resetEic { s with fns := f } n).fn n).state = .disabled := by
      rw [resetEic, State.modFn_fn_self]
      exact congrArg Fn.state hfn
    have hnew : tgetD (tset (resetEic { s with fns := f } n).fns n
        { fn0 with state := if ((resetEic { s with fns := f } n).fn n).state = .wedged then .wedged else .enabled }) n fn0 =
          { fn0 with state := .enabled } := by
      rw [tgetD_tset_self, hstate]
      rfl
    unfold resetFunction
    extract_lets s1 s2
    split <;> exact ⟨hnew, rfl⟩
  refine ⟨hreset.1, fun r hr => ?_⟩
  change tget (resetFunction { s with fns := f } n).rings r = none
  rw [hreset.2]
  exact (tget_tfilter_key s.rings (fun k => k / 4096 != n) r).trans (if_neg (by simp [hr]))

theorem disableFn_od_standing {s : State} {n : Nat} {t : Trigger} (hf : (s.fn n).inFlr = false) (hw : (s.fn n).state ≠ .wedged)
    (ht : t ≠ .wedged) : (disableFn s n t).od = s.od := by
  by_cases h : s.hosted n = []
  · obtain ⟨f, he, -⟩ := disableFn_idle h hw ht
    rw [he, hf]
    rfl
  · obtain ⟨p, hp⟩ := hosted_ne_nil h
    rw [disableFn_hosting t hp]
    exact (WorkOnly.fold (fun u p => disablePart_workOnly u p t none) (s.hosted n) _).od

theorem disableFn_fn_standing {s : State} {n : Nat} {t : Trigger} (hf : (s.fn n).inFlr = false) (hw : (s.fn n).state ≠ .wedged)
    (ht : t ≠ .wedged) : (disableFn s n t).fn n = { s.fn n with state := if s.hosted n = [] then .disabled else .disabling } := by
  by_cases h : s.hosted n = []
  · obtain ⟨f, he, hfn⟩ := disableFn_idle h hw ht
    rw [he, hf, if_pos h]
    exact hfn
  · rw [disableFn_fn_hosting t h, if_neg (by simp [hw, ht]), if_neg h]

/-! ### The triggers -/

theorem configAccess_ready {s : State} {fn : Nat} (off : Nat) (f : State → State) (he : s.fnExists fn = true) (hc : s.cfgReady = true) :
    configAccess s fn off f = f s := by
  rw [configAccess, if_neg (by simp [he]), if_pos hc]

/-- What a disable procedure of a function begins and leaves (R81). -/
structure Disables (s t : State) (n : Nat) (g : Trigger) : Prop where
  parts : ∀ p ∈ s.hosted n, (s.part p).disable = none → (t.part p).dis = .disabling ∧
    ∃ d, (t.part p).disable = some d ∧ d.trigger = g ∧ d.fn = n
  stops : StopsService s t

theorem disableFn_disables (s : State) (n : Nat) (t : Trigger) : Disables s (disableFn s n t) n t :=
  ⟨fun _ hp hd => disableFn_begins t hp hd, .disableFn s n t⟩

theorem Disables.noteFunctions {s t : State} {n : Nat} {g : Trigger} (h : Disables s t n g) (b : State) :
    Disables s (noteFunctions b t) n g := by
  refine ⟨?_, h.stops.trans (.noteFunctions b t)⟩
  obtain ⟨e, he⟩ := noteFunctions_only b t
  rw [he]
  exact h.parts

/-- A trigger that leaves the registers of the function in place. -/
theorem disables_standing {n : Nat} {s : State} (hw : (s.fn n).state ≠ .wedged) {f : Fn → Fn} {g : Trigger} (hg : g ≠ .wedged) (hf : (f (s.fn n)).inFlr = false)
    (hs : (f (s.fn n)).state = (s.fn n).state) : Disables s (noteFunctions s (disableFn (s.modFn n f) n g)) n g ∧
      (noteFunctions s (disableFn (s.modFn n f) n g)).fn n = { f (s.fn n) with state := if s.hosted n = [] then .disabled else .disabling } ∧
      (noteFunctions s (disableFn (s.modFn n f) n g)).od = s.od := by
  have hn : (s.modFn n f).fn n = f (s.fn n) := State.modFn_fn_self ..
  have h := disableFn_disables (s.modFn n f) n g
  have hd : Disables s (disableFn (s.modFn n f) n g) n g := ⟨h.parts, (StopsService.modFn s n f).trans h.stops⟩
  refine ⟨hd.noteFunctions s, ?_⟩
  obtain ⟨e, hnote⟩ := noteFunctions_only s (disableFn (s.modFn n f) n g)
  rw [hnote]
  refine ⟨?_, ?_⟩
  · exact (disableFn_fn_standing (by rw [hn, hf]) (by rw [hn, hs]; exact hw) hg).trans (by rw [hn]; rfl)
  · exact disableFn_od_standing (by rw [hn, hf]) (by rw [hn, hs]; exact hw) hg

section
variable {n : Nat} {s : State} (he : s.fnExists n = true) (hc : s.cfgReady = true) (hw : (s.fn n).state ≠ .wedged)
include he hc hw

theorem exec_busMasterEnableClear (hb : (s.fn n).busMaster = true) (hf : (s.fn n).inFlr = false) : ∃ t,
    exec (.busMasterEnableClear n) s = .next t ∧ Disables s t n .busMaster ∧
      t.fn n = { s.fn n with busMaster := false, state := if s.hosted n = [] then .disabled else .disabling } ∧ t.od = s.od := by
  rw [dispatch_busMasterEnableClear, execBusMasterEnableClear, configAccess_ready _ _ he hc, if_pos hb]
  exact ⟨_, rfl, disables_standing hw (f := fun f => { f with busMaster := false }) (by decide) hf rfl⟩

theorem exec_d3hotEntry (hb : (s.fn n).d3hot = false) (hf : (s.fn n).inFlr = false) : ∃ t,
    exec (.d3hotEntry n) s = .next t ∧ Disables s t n .d3hot ∧
      t.fn n = { s.fn n with d3hot := true, state := if s.hosted n = [] then .disabled else .disabling } ∧ t.od = s.od := by
  rw [dispatch_d3hotEntry, execD3hotEntry, configAccess_ready _ _ he hc, if_neg (by simp [hb])]
  exact ⟨_, rfl, disables_standing hw (f := fun f => { f with d3hot := true }) (by decide) hf rfl⟩

end

/-! ### Function Level Reset and the watchdog -/

/-- The state a Function Level Reset starts its function's procedure from: of the PF, VF Enable is clear and the VFs are disabled. -/
structure ResetReady (n : Nat) (s u : State) : Prop where
  stops : StopsService s u
  fn : (u.fn n).state = (s.fn n).state
  goal : ∀ p ∈ s.hosted n, (s.part p).disable = none → (u.part p).disable = none
  link : n = 0 → u.link.vfEnable = false ∧ u.link.vfPending = none
  od : u.od = s.od

theorem disableFn_goal_other {s : State} {n p : Nat} (t : Trigger) (hp : p ∉ s.hosted n) :
    ((disableFn s n t).part p).disable.map Disable.goal = (s.part p).disable.map Disable.goal := by
  have hstop : ((stopping s n t).part p).disable.map Disable.goal = (s.part p).disable.map Disable.goal := by
    refine List.foldlRecOn (motive := fun u : State => (u.part p).disable.map Disable.goal = (s.part p).disable.map Disable.goal)
      _ _ rfl fun u hu q hq => ?_
    rw [disablePart_goal_ne u t none (by rintro rfl; exact hp hq), hu]
  rw [disableFn_eq, ← hstop]
  have henable : ∀ u : State, ((enableParts u n).part p).disable = (u.part p).disable := fun u => by
    unfold enableParts
    split
    · rfl
    · refine foldl_keep (fun v => (v.part p).disable) _ (fun v q => ?_) _ u
      split
      · rw [State.modPart_part]
        split
        · subst q; rfl
        · rfl
      · rfl
  unfold functionSettled
  split
  · rfl
  · extract_lets s1
    have h1 : s1.parts = (stopping s n t).parts := by
      simp only [s1]
      split <;> rfl
    split
    · have hreset : (resetFunction s1 n).parts = s1.parts := by
        unfold resetFunction
        extract_lets s1 s2
        split <;> rfl
      rw [henable, State.part, hreset, h1]
      rfl
    · rw [State.part, h1]
      rfl

theorem ResetReady.vfs {s : State} : ResetReady 0 s (((List.range s.link.numVfs).map (· + 1)).foldl (fun u k => disableFn u k .vfEnable)
    { s with link := { s.link with vfEnable := false, vfPending := none } }) := by
  refine List.foldlRecOn (motive := fun u : State => ResetReady 0 s u) _ _
    ⟨.setLink s (fun _ => rfl), rfl, fun _ _ => id, fun _ => ⟨rfl, rfl⟩, rfl⟩ fun u hu k hk => ?_
  obtain ⟨hstops, hfn, hgoal, hlink, hod⟩ := hu
  have hk0 : k ≠ 0 := by
    obtain ⟨i, -, rfl⟩ := List.mem_map.mp hk
    exact Nat.succ_ne_zero i
  refine ⟨hstops.trans (.disableFn u k _), ?_, fun p hp hd => ?_, fun _ => ?_, (disableFn_od u _ hk0).trans hod⟩
  · rw [disableFn_fn_ne _ _ hk0.symm, hfn]
  · have hp' : p ∉ u.hosted k := by
      rw [State.mem_hosted, hstops.owner, (State.mem_hosted.mp hp).2]
      exact fun h => hk0 h.2.symm
    have hmap := disableFn_goal_other .vfEnable hp'
    rw [hgoal p hp hd, Option.map_none, Option.map_eq_none_iff] at hmap
    exact hmap
  · obtain ⟨b, hb⟩ := (LinkKept.disableFn u k .vfEnable).link
    rw [hb]
    exact hlink rfl

theorem functionLevelReset_ready (s : State) (n : Nat) (t : Trigger) : ∃ u, ResetReady n s u ∧
    functionLevelReset s n t = disableFn (u.modFn n (fun f => { f with inFlr := true, d3hot := false })) n t := by
  unfold functionLevelReset
  extract_lets vfs l s1
  refine ⟨s1, ?_, rfl⟩
  simp only [s1]
  split
  · next h =>
    obtain ⟨rfl, -⟩ := h
    exact .vfs
  · next h =>
    split
    · next hn =>
      subst n
      exact ⟨.setLink s id, rfl, fun _ _ => id, fun _ => ⟨by simpa using h, rfl⟩, rfl⟩
    · next hn => exact ⟨.refl s, rfl, fun _ _ => id, fun h => absurd h hn, rfl⟩

theorem StopsService.hosted {s t : State} (h : StopsService s t) (n : Nat) : t.hosted n = s.hosted n := by
  unfold State.hosted
  simp only [h.owner]

theorem functionLevelReset_disables_all {s : State} {n : Nat} {g : Trigger} (hg : g ≠ .wedged) (hw : (s.fn n).state ≠ .wedged) :
    Disables s (functionLevelReset s n g) n g ∧
    (s.hosted n ≠ [] → ((functionLevelReset s n g).fn n).inFlr = true ∧ ((functionLevelReset s n g).fn n).d3hot = false ∧
      ((functionLevelReset s n g).fn n).state = .disabling) ∧
    (s.hosted n = [] → (functionLevelReset s n g).fn n = { fn0 with state := .enabled } ∧
      ∀ r, r / 4096 = n → tget (functionLevelReset s n g).rings r = none) ∧
    (n = 0 → (functionLevelReset s n g).link.vfEnable = false ∧ (functionLevelReset s n g).link.vfPending = none) ∧
    (n ≠ 0 → (functionLevelReset s n g).od = s.od) := by
  obtain ⟨u, ⟨hstops, hfn, hgoal, hlink, hod⟩, h⟩ := functionLevelReset_ready s n g
  have hhosted : (u.modFn n (fun f => { f with inFlr := true, d3hot := false })).hosted n = s.hosted n := hstops.hosted n
  have hself : (u.modFn n (fun f => { f with inFlr := true, d3hot := false })).fn n = { u.fn n with inFlr := true, d3hot := false } :=
    State.modFn_fn_self ..
  have hw' : ((u.modFn n (fun f => { f with inFlr := true, d3hot := false })).fn n).state ≠ .wedged := by
    rw [hself]
    exact hfn ▸ hw
  rw [h]
  refine ⟨⟨fun p hp hd => ?_, hstops.trans ((StopsService.modFn u n _).trans (.disableFn _ n g))⟩, fun hne => ?_, fun hnil => ?_,
    fun h0 => ?_, fun h0 => (disableFn_od _ g h0).trans hod⟩
  · exact disableFn_begins g (hhosted ▸ hp) (hgoal p hp hd)
  · rw [disableFn_fn_hosting g (by rw [hhosted]; exact hne), if_neg (not_or.mpr ⟨hw', hg⟩), hself]
    exact ⟨rfl, rfl, rfl⟩
  · exact disableFn_reset (by rw [hhosted]; exact hnil) hw' hg (by rw [hself])
  · obtain ⟨b, hb⟩ := (LinkKept.disableFn (u.modFn n (fun f => { f with inFlr := true, d3hot := false })) n g).link
    rw [hb]
    exact hlink h0

/-- A Function Level Reset, and the return to D0, which is one. -/
theorem exec_functionReset {c : Sys2Proof.Instr} {g : Trigger} {n : Nat} {s : State} (he : s.fnExists n = true) (hc : s.cfgReady = true)
    (h : (c = .functionLevelReset n ∧ g = .flr) ∨ (c = .d0Return n ∧ g = .d3hot ∧ (s.fn n).d3hot = true)) :
    g ≠ .wedged ∧ exec c s = .next (noteFunctions s (functionLevelReset s n g)) := by
  rcases h with ⟨rfl, rfl⟩ | ⟨rfl, rfl, hd⟩
  · exact ⟨by decide, by rw [dispatch_functionLevelReset, execFunctionLevelReset, configAccess_ready _ _ he hc]⟩
  · exact ⟨by decide, by rw [dispatch_d0Return, execD0Return, configAccess_ready _ _ he hc, if_pos hd]⟩

theorem exec_functionWedged {n p : Nat} {s : State} (he : s.fnExists n = true) (hw : (s.fn n).state ≠ .wedged) (hm : s.mainPart n = some p)
    (hp : p ∈ s.hosted n) (ho : s.outstanding n = true) (hq : s.quota p 0x0D ≠ 0) (hs : 100000 * s.quota p 0x0D ≤ (s.fn n).stallUs) :
    ∃ t, exec (.functionWedged n) s = .next t ∧ Disables s t n .wedged ∧ (t.fn n).state = .wedged ∧
      (s.asleep = false → 1026 ∈ t.eic.corePend) ∧ t.od = s.od := by
  rw [dispatch_functionWedged, execFunctionWedged, hm]
  dsimp only
  rw [if_pos (by simp [he, ho, hq, hs, hw])]
  obtain ⟨l, hl⟩ := logMain_only s 5 (0x0100 + n) 0x0102 p 0 (leBytes 4 ((s.fn n).stallUs / 100000))
  rw [hl]
  have hd := (disableFn_disables { s with log := l } n .wedged).noteFunctions s
  have hd' : Disables s (noteFunctions s (disableFn { s with log := l } n .wedged)) n .wedged :=
    ⟨hd.parts, StopsService.trans (b := { s with log := l }) ⟨rfl, rfl, rfl, rfl, id, fun _ => rfl, fun _ => id⟩ hd.stops⟩
  obtain ⟨e, hnote⟩ := noteFunctions_only s (disableFn { s with log := l } n .wedged)
  obtain ⟨e', hraise⟩ := raise_only (noteFunctions s (disableFn { s with log := l } n .wedged)) 1026
  refine ⟨_, rfl, ?_, ?_, fun ha => raise_pends_core rfl ?_ (by decide), ?_⟩
  · rw [hraise]
    exact ⟨hd'.parts, hd'.stops.trans ⟨rfl, rfl, rfl, rfl, id, fun _ => rfl, fun _ => id⟩⟩
  · rw [hraise, hnote]
    exact (congrArg Fn.state (disableFn_fn_hosting (s := { s with log := l }) .wedged (List.ne_nil_of_mem hp))).trans (if_pos (.inr rfl))
  · rw [State.asleep, hd'.stops.power]
    exact ha
  · rw [hraise, hnote, disableFn_hosting (s := { s with log := l }) .wedged hp]
    exact (WorkOnly.fold (fun u p => disablePart_workOnly u p .wedged none) (s.hosted n) _).od

end Sys2Proof.Machine
end

section
open Sys2Proof.Machine

/-! SUPPORT. How a disable procedure ends, and the cut of a step that still moves buffer data (R73, R74, R81, R83, R85, R91). -/

namespace Sys2Proof.Machine

/-! ### The acknowledgement -/

/-- What deciding the last completions of a partition leaves: its committed descriptors unwritten, and nothing of the others touched. -/
structure Unwritten (p : Nat) (s t : State) : Prop where
  only : ∃ a ps, t = { s with adm := a, parts := ps }
  own : ∃ d, t.part p = { s.part p with disable := d }
  others : ∀ q, q ≠ p → t.part q = s.part q
  slots : ∀ n x, s.slot n = some x → ∃ y, t.slot n = some y ∧ (x.noWrite = true → y.noWrite = true) ∧ y.changes = x.changes

theorem Unwritten.refl (p : Nat) (s : State) : Unwritten p s s :=
  ⟨⟨_, _, rfl⟩, ⟨_, rfl⟩, fun _ _ => rfl, fun _ x h => ⟨x, h, id, rfl⟩⟩

theorem Unwritten.trans {p : Nat} {a b c : State} (h : Unwritten p a b) (h' : Unwritten p b c) : Unwritten p a c := by
  refine ⟨?_, ?_, fun q hq => (h'.others q hq).trans (h.others q hq), fun n x hx => ?_⟩
  · obtain ⟨_, _, rfl⟩ := h.only
    obtain ⟨_, _, rfl⟩ := h'.only
    exact ⟨_, _, rfl⟩
  · obtain ⟨d, hd⟩ := h.own
    obtain ⟨e, he⟩ := h'.own
    exact ⟨e, by rw [he, hd]⟩
  · obtain ⟨y, hy, hw, hc⟩ := h.slots n x hx
    obtain ⟨z, hz, hw', hc'⟩ := h'.slots n y hy
    exact ⟨z, hz, hw' ∘ hw, hc'.trans hc⟩

theorem Unwritten.leave (s : State) (e : Nat × Slot) : Unwritten e.2.part s (leaveUnwritten s e) := by
  have hmod : Unwritten e.2.part s (s.modSlot e.1 (fun x => { x with noWrite := true })) := by
    have hpart : ∀ q, (s.modSlot e.1 (fun x => { x with noWrite := true })).part q = s.part q := fun q => by
      rw [State.part, (HeldOnly.modSlot s e.1 _).parts]
      rfl
    refine ⟨?_, ⟨(s.part e.2.part).disable, hpart _⟩, fun q _ => hpart q, fun n x hx => ?_⟩
    · unfold State.modSlot
      split <;> exact ⟨_, _, rfl⟩
    rw [State.modSlot_slot]
    split
    · subst n
      rw [hx]
      exact ⟨_, rfl, fun _ => rfl, rfl⟩
    · exact ⟨x, hx, id, rfl⟩
  refine hmod.trans ?_
  unfold leaveUnwritten countDisable
  split
  · exact .refl _ _
  · refine ⟨⟨_, _, rfl⟩, ⟨_, State.modPart_part_self ..⟩, fun q hq => ?_, fun n x hx => ⟨x, hx, id, rfl⟩⟩
    rw [State.modPart_part, if_neg hq]

theorem leaveUnwritten_noWrite (s : State) (e : Nat × Slot) {n : Nat} {x : Slot} (he : e.1 = n) (hx : s.slot n = some x) :
    ∃ y, (leaveUnwritten s e).slot n = some y ∧ y.noWrite = true ∧ y.changes = x.changes := by
  have hcount : ∀ (u : State) (q : Nat) (f : Disable → Disable), (countDisable u q f).slot n = u.slot n := fun u q f => by
    unfold countDisable
    split <;> rfl
  rw [leaveUnwritten, hcount, State.modSlot_slot, if_pos he.symm, he, hx]
  exact ⟨_, rfl, rfl, rfl⟩

theorem foldl_leaveUnwritten (s : State) (p : Nat) : Unwritten p s ((s.slotsOf p).foldl leaveUnwritten s) := by
  refine List.foldlRecOn (motive := fun t : State => Unwritten p s t) _ _ (.refl p s) fun t ht e he => ht.trans ?_
  have hp : e.2.part = p := by simpa using (List.mem_filter.mp he).2
  exact hp ▸ Unwritten.leave t e

theorem foldl_leaveUnwritten_noWrite {s : State} {p n : Nat} {x : Slot} (hx : s.slot n = some x) (hp : x.part = p) :
    ∃ y, ((s.slotsOf p).foldl leaveUnwritten s).slot n = some y ∧ y.noWrite = true ∧ y.changes = x.changes := by
  have hmem : (n, x) ∈ s.slotsOf p := List.mem_filter.mpr ⟨mem_of_tget hx, by simp [hp]⟩
  refine foldl_reaches (I := fun t => ∃ y, t.slot n = some y ∧ y.changes = x.changes)
    (Q := fun t => ∃ y, t.slot n = some y ∧ y.noWrite = true ∧ y.changes = x.changes) (fun t e ⟨y, hy, hc⟩ => ?_)
    (fun t e ⟨y, hy, hw, hc⟩ => ?_) hmem (fun t ⟨y, hy, hc⟩ => ?_) ⟨x, hx, rfl⟩
  · obtain ⟨z, hz, -, hzc⟩ := (Unwritten.leave t e).slots n y hy
    exact ⟨z, hz, hzc.trans hc⟩
  · obtain ⟨z, hz, hzw, hzc⟩ := (Unwritten.leave t e).slots n y hy
    exact ⟨z, hz, hzw hw, hzc.trans hc⟩
  · obtain ⟨z, hz, hzw, hzc⟩ := leaveUnwritten_noWrite t (n, x) rfl hy
    exact ⟨z, hz, hzw, hzc.trans hc⟩

/-- Two states that differ at most in the event controller, in the rings and their groups, in the log and in the units. -/
def QuietOnly (s t : State) : Prop := ∃ e g r l u, t = { s with eic := e, groups := g, rings := r, log := l, units := u }

theorem QuietOnly.refl (s : State) : QuietOnly s s := ⟨_, _, _, _, _, rfl⟩

theorem QuietOnly.trans {a b c : State} (h : QuietOnly a b) (h' : QuietOnly b c) : QuietOnly a c := by
  obtain ⟨_, _, _, _, _, rfl⟩ := h
  obtain ⟨_, _, _, _, _, rfl⟩ := h'
  exact ⟨_, _, _, _, _, rfl⟩

theorem QuietOnly.fold {α : Type} {g : State → α → State} (hg : ∀ t a, QuietOnly t (g t a)) (l : List α) (s : State) :
    QuietOnly s (l.foldl g s) := foldl_rel QuietOnly.refl (fun _ _ _ => QuietOnly.trans) g hg l s

theorem QuietOnly.settleRing (s : State) (rid : Nat) : QuietOnly s (settleRing s rid) := by
  by_cases h : (s.ring rid).state = .stopping
  · obtain ⟨g, e, he⟩ := settleRing_settles h
    rw [he]
    exact ⟨_, _, _, _, _, rfl⟩
  · rw [Machine.settleRing, if_neg h]
    exact .refl s

theorem QuietOnly.closeWindows (s : State) (p : Nat) : QuietOnly s (closeWindows s p) := by
  refine .fold (fun t g => ?_) _ s
  unfold closeWindow
  split
  · exact ⟨_, _, _, _, _, rfl⟩
  · exact .refl t

theorem QuietOnly.logMain (s : State) (a b c d e : Nat) (x : Bytes) : QuietOnly s (logMain s a b c d e x) := by
  obtain ⟨l, hl⟩ := logMain_only s a b c d e x
  rw [hl]
  exact ⟨_, _, _, _, _, rfl⟩

/-- What an acknowledgement settles before it looks at the partition: its completions decided, its rings settled, the record, its pages. -/
def ackSettled (s : State) (p : Nat) (d : Disable) : State :=
  let s1 := (s.slotsOf p).foldl leaveUnwritten s
  let s2 := quietGroups (closeWindows ((s1.ringsOf p).foldl settleRing s1) p) p
  freePages (disableRecord s2 p ((s2.part p).disable.getD d)) (fun g => g.part == p)

theorem ackSettled_quiet (s : State) (p : Nat) (d : Disable) : QuietOnly ((s.slotsOf p).foldl leaveUnwritten s) (ackSettled s p d) := by
  unfold ackSettled
  extract_lets s1 s2
  have h2 : QuietOnly s1 s2 :=
    ((QuietOnly.fold QuietOnly.settleRing (s1.ringsOf p) s1).trans (.closeWindows _ p)).trans ⟨_, _, _, _, _, rfl⟩
  exact (h2.trans (.logMain s2 ..)).trans ⟨_, _, _, _, _, rfl⟩

/-- Whether the partition returns to service with its acknowledgement (R73, R74). -/
def returns (s : State) (p : Nat) (d : Disable) : Bool :=
  d.trigger == .enable && d.remap.isNone && s.quota p 2 == 1 && (s.fn d.fn).state == .enabled

/-- The state an acknowledgement leaves before the function is looked at. -/
def acknowledged (s : State) (p : Nat) (d : Disable) : State :=
  (ackSettled s p d).modPart p (fun x =>
    { x with dis := if returns (ackSettled s p d) p d then .enabled else .disabled, disable := if d.remap.isSome then some d else none })

theorem acknowledge_eq (s : State) (p : Nat) (d : Disable) :
    acknowledge s p d = raise (vfsSettled (functionSettled (acknowledged s p d) d.fn)) 1025 := rfl

theorem acknowledged_only (s : State) (p : Nat) (d : Disable) : ∃ a ps e g r l u, acknowledged s p d = { s with
    adm := a, parts := ps, eic := e, groups := g, rings := r, log := l, units := u } := by
  obtain ⟨a, ps, h1⟩ := (foldl_leaveUnwritten s p).only
  obtain ⟨_, _, _, _, _, h2⟩ := ackSettled_quiet s p d
  rw [acknowledged, h2, h1]
  exact ⟨_, _, _, _, _, _, _, rfl⟩

theorem ackSettled_part (s : State) (p q : Nat) (d : Disable) :
    (ackSettled s p d).part q = ((s.slotsOf p).foldl leaveUnwritten s).part q := by
  obtain ⟨_, _, _, _, _, h⟩ := ackSettled_quiet s p d
  rw [h]
  rfl

theorem acknowledged_part_ne {s : State} {p q : Nat} (d : Disable) (hq : q ≠ p) : (acknowledged s p d).part q = s.part q := by
  rw [acknowledged, State.modPart_part, if_neg hq, ackSettled_part, (foldl_leaveUnwritten s p).others q hq]

theorem acknowledged_part_self (s : State) (p : Nat) (d : Disable) : (acknowledged s p d).part p = { s.part p with
    dis := if returns s p d then .enabled else .disabled, disable := if d.remap.isSome then some d else none } := by
  obtain ⟨c, hc⟩ := (foldl_leaveUnwritten s p).own
  have hreturns : returns (ackSettled s p d) p d = returns s p d := by
    obtain ⟨a, ps, h1⟩ := (foldl_leaveUnwritten s p).only
    obtain ⟨_, _, _, _, _, h2⟩ := ackSettled_quiet s p d
    rw [h2, h1]
    rfl
  rw [acknowledged, State.modPart_part_self, ackSettled_part, hc, hreturns]

theorem acknowledged_fn (s : State) (p n : Nat) (d : Disable) : (acknowledged s p d).fn n = s.fn n := by
  obtain ⟨_, _, _, _, _, _, _, h⟩ := acknowledged_only s p d
  rw [h]
  rfl

theorem acknowledged_slot {s : State} {p n : Nat} {x : Slot} (d : Disable) (hx : s.slot n = some x) (hp : x.part = p) :
    ∃ y, (acknowledged s p d).slot n = some y ∧ y.noWrite = true ∧ y.changes = x.changes := by
  obtain ⟨_, _, _, _, _, h⟩ := ackSettled_quiet s p d
  rw [acknowledged, h]
  exact foldl_leaveUnwritten_noWrite hx hp

theorem acknowledged_hosted (s : State) (p n : Nat) (d : Disable) : (acknowledged s p d).hosted n = s.hosted n := by
  unfold State.hosted
  refine List.filter_congr fun q _ => ?_
  by_cases hq : q = p
  · subst q; rw [acknowledged_part_self]
  · rw [acknowledged_part_ne d hq]

/-- A function that is not reset shows DISABLED at most. -/
theorem functionSettled_standing {s : State} {n : Nat} (h : (s.fn n).inFlr = false) : ∃ f, functionSettled s n = { s with fns := f } := by
  unfold functionSettled
  split
  · exact ⟨_, rfl⟩
  · extract_lets s1
    have h1 : ∃ f, s1 = { s with fns := f } ∧ (s1.fn n).inFlr = false := by
      simp only [s1]
      split
      · exact ⟨_, rfl, by rw [State.modFn_fn_self, h]⟩
      · exact ⟨_, rfl, h⟩
    obtain ⟨f, hf, hi⟩ := h1
    rw [if_neg (by simp [hi]), hf]
    exact ⟨f, rfl⟩

theorem vfsSettled_none {s : State} (h : s.link.vfPending = none) : vfsSettled s = s := by rw [vfsSettled, h]

/-- The acknowledgement of a partition whose work has ended. -/
theorem exec_disableAck {p : Nat} {d : Disable} {s : State} (hd : (s.part p).disable = some d) (hs : (s.part p).dis = .disabling)
    (hdr : s.drained p = true) (hg : ∀ g ∈ s.groupsOf p, s.undecided g = false) :
    exec (.disableAck p) s = .next (noteFunctions s (acknowledge s p d)) := by
  rw [dispatch_disableAck, execDisableAck, hd]
  dsimp only
  have hany : (!(s.groupsOf p).any s.undecided) = true := by
    rw [Bool.not_eq_true', List.any_eq_false]
    intro g hm
    simp [hg g hm]
  rw [if_pos ⟨hs, hdr, hany⟩]

theorem acknowledge_vfs {s : State} {p : Nat} (d : Disable) (hv : s.link.vfPending = none) :
    acknowledge s p d = raise (functionSettled (acknowledged s p d) d.fn) 1025 := by
  rw [acknowledge_eq, vfsSettled_none]
  obtain ⟨b, hb⟩ := (functionSettled_beside (acknowledged s p d) d.fn).1.link
  obtain ⟨_, _, _, _, _, _, _, h⟩ := acknowledged_only s p d
  rw [hb, h]
  exact hv

/-- The function is in no Function Level Reset: the acknowledgement ends the procedure of this partition alone (R81, R83). -/
theorem acknowledge_standing {s : State} {p : Nat} {d : Disable} (hv : s.link.vfPending = none) (hf : (s.fn d.fn).inFlr = false) :
    ∃ f e, noteFunctions s (acknowledge s p d) = { acknowledged s p d with fns := f, eic := e } := by
  obtain ⟨f, hset⟩ := functionSettled_standing (s := acknowledged s p d) (n := d.fn) (by rw [acknowledged_fn, hf])
  rw [acknowledge_vfs d hv, hset]
  generalize acknowledged s p d = u
  obtain ⟨e, he⟩ := raise_only { u with fns := f } 1025
  rw [he]
  obtain ⟨e', he'⟩ := noteFunctions_only s { u with fns := f, eic := e }
  exact ⟨f, e', he'⟩

/-- What the acknowledgement of a partition leaves when its function is in no Function Level Reset. -/
structure Acked (s : State) (p : Nat) (d : Disable) (t : State) : Prop where
  own : t.part p = { s.part p with dis := if returns s p d then .enabled else .disabled, disable := if d.remap.isSome then some d else none }
  others : ∀ q, q ≠ p → t.part q = s.part q
  unwritten : ∀ n x, s.slot n = some x → x.part = p → ∃ y, t.slot n = some y ∧ y.noWrite = true ∧ y.changes = x.changes
  only : ∃ a ps e g r l u f, t = { s with adm := a, parts := ps, eic := e, groups := g, rings := r, log := l, units := u, fns := f }

theorem acknowledge_acked {s : State} {p : Nat} {d : Disable} (hv : s.link.vfPending = none) (hf : (s.fn d.fn).inFlr = false) :
    Acked s p d (noteFunctions s (acknowledge s p d)) := by
  obtain ⟨f, e, h⟩ := acknowledge_standing (p := p) hv hf
  have hself := acknowledged_part_self s p d
  have hother : ∀ q, q ≠ p → (acknowledged s p d).part q = s.part q := fun q => acknowledged_part_ne d
  have hslot : ∀ n x, s.slot n = some x → x.part = p → _ := fun n x => acknowledged_slot d
  obtain ⟨a, ps, _, g, r, l, u, hk⟩ := acknowledged_only s p d
  rw [h]
  generalize acknowledged s p d = v at hself hother hslot hk
  refine ⟨hself, hother, hslot, a, ps, e, g, r, l, u, f, ?_⟩
  rw [hk]

theorem acknowledge_raises {s : State} {p : Nat} (d : Disable) (ha : s.asleep = false) :
    1025 ∈ (noteFunctions s (acknowledge s p d)).eic.corePend := by
  refine noteFunctions_keeps_core ?_
  rw [acknowledge_eq]
  refine raise_pends_core rfl ?_ (by decide)
  have hvf : ∀ t : State, (vfsSettled t).power = t.power := fun t => by
    unfold vfsSettled
    split
    · rfl
    · split
      · rfl
      · unfold enableVfs
        refine foldl_keep State.power _ (fun u n => ?_) _ _
        exact ((StopsService.resetFunction u n).trans (.enableParts _ n)).power
  obtain ⟨_, _, _, _, _, _, _, h⟩ := acknowledged_only s p d
  rw [State.asleep, hvf, (StopsService.functionSettled _ _).power, h]
  exact ha

/-! ### The last partition of a function under reset -/

/-- The partition is in service, or only waits for its function to be. -/
def MayServe (p : Nat) (s : State) : Prop :=
  ((s.part p).dis = .disabled ∨ (s.part p).dis = .enabled) ∧ (s.part p).disable = none ∧ s.quota p 2 = 1

theorem enableParts_serves {s : State} {n p : Nat} (hp : p ∈ s.hosted n) (hw : (s.fn n).state ≠ .wedged) (h : MayServe p s) :
    ((enableParts s n).part p).dis = .enabled ∧ ((enableParts s n).part p).disable = none := by
  have hstep : ∀ (t : State) (q : Nat), MayServe p t → MayServe p (if (t.part q).dis = .disabled ∧ t.quota q 2 = 1 ∧ (t.part q).disable.isNone
      then t.modPart q (fun x => { x with dis := .enabled }) else t) ∧ ((t.part p).dis = .enabled ∨ q = p →
        ((if (t.part q).dis = .disabled ∧ t.quota q 2 = 1 ∧ (t.part q).disable.isNone
          then t.modPart q (fun x => { x with dis := .enabled }) else t).part p).dis = .enabled) := by
    intro t q ⟨hdis, hnone, hq2⟩
    split
    · next hc =>
      by_cases hq : p = q
      · subst q
        have hpart : (t.modPart p (fun x => { x with dis := .enabled })).part p = { t.part p with dis := .enabled } := State.modPart_part_self ..
        refine ⟨⟨.inr ?_, ?_, hq2⟩, fun _ => ?_⟩ <;> rw [hpart]
        exact hnone
      · have hpart : (t.modPart q (fun x => { x with dis := .enabled })).part p = t.part p := by rw [State.modPart_part, if_neg hq]
        refine ⟨⟨?_, ?_, hq2⟩, fun he => ?_⟩ <;> rw [hpart]
        · exact hdis
        · exact hnone
        · exact he.resolve_right (fun h => hq h.symm)
    · next hc =>
      refine ⟨⟨hdis, hnone, hq2⟩, fun he => ?_⟩
      rcases he with he | rfl
      · exact he
      · exact hdis.resolve_left fun hd => hc ⟨hd, hq2, by rw [hnone]; rfl⟩
  have hreach : MayServe p (enableParts s n) ∧ ((enableParts s n).part p).dis = .enabled := by
    rw [enableParts, if_neg hw]
    refine foldl_reaches (I := MayServe p) (Q := fun t => MayServe p t ∧ (t.part p).dis = .enabled)
      (fun t q ht => (hstep t q ht).1) (fun t q ht => ?_) hp (fun t ht => ?_) h
    · exact ⟨(hstep t q ht.1).1, (hstep t q ht.1).2 (.inl ht.2)⟩
    · exact ⟨(hstep t p ht).1, (hstep t p ht).2 (.inr rfl)⟩
  exact ⟨hreach.2, hreach.1.2.1⟩

theorem resetFunction_leaves (s : State) (n : Nat) : (resetFunction s n).parts = s.parts ∧
    (∀ p k, (resetFunction s n).quota p k = s.quota p k) ∧
    (resetFunction s n).fn n = { fn0 with state := if (s.fn n).state = .wedged then .wedged else .enabled } := by
  have hnew : tgetD (tset (resetEic s n).fns n
      { fn0 with state := if ((resetEic s n).fn n).state = .wedged then .wedged else .enabled }) n fn0 =
        { fn0 with state := if (s.fn n).state = .wedged then .wedged else .enabled } := by
    rw [tgetD_tset_self, show ((resetEic s n).fn n).state = (s.fn n).state by rw [resetEic, State.modFn_fn_self]; rfl]
  unfold resetFunction
  extract_lets s1 s2
  split <;> exact ⟨rfl, fun _ _ => rfl, hnew⟩

/-- The function is reset, and its partition with ENABLE = 1 serves again (R91). -/
theorem functionSettled_resets {s : State} {n p : Nat} (hd : s.stillDisabling n = false) (hf : (s.fn n).inFlr = true)
    (hw : (s.fn n).state ≠ .wedged) (hp : p ∈ s.hosted n) (h : MayServe p s) : (functionSettled s n).fn n = { fn0 with state := .enabled } ∧
      ((functionSettled s n).part p).dis = .enabled ∧ ((functionSettled s n).part p).disable = none := by
  unfold functionSettled
  rw [if_neg (by simp [hd])]
  extract_lets s1
  have h1 : ∃ f, s1 = { s with fns := f } ∧ (s1.fn n).inFlr = true ∧ (s1.fn n).state ≠ .wedged := by
    simp only [s1]
    split
    · exact ⟨_, rfl, by rw [State.modFn_fn_self, hf], by rw [State.modFn_fn_self]; exact nofun⟩
    · exact ⟨_, rfl, hf, hw⟩
  obtain ⟨f, hs1, hi, hw1⟩ := h1
  rw [if_pos hi]
  obtain ⟨hparts, hquota, hfn⟩ := resetFunction_leaves s1 n
  rw [if_neg hw1] at hfn
  have hpart : ∀ q, (resetFunction s1 n).part q = s.part q := fun q => by rw [State.part, hparts, hs1]; rfl
  have hserve : MayServe p (resetFunction s1 n) := by
    obtain ⟨h1, h2, h3⟩ := h
    refine ⟨by rwa [hpart], by rwa [hpart], ?_⟩
    rw [hquota, hs1]
    exact h3
  have hmem : p ∈ (resetFunction s1 n).hosted n := by
    rw [State.mem_hosted, hpart]
    exact State.mem_hosted.mp hp
  have hend := enableParts_serves hmem (by rw [hfn]; exact nofun) hserve
  refine ⟨?_, hend⟩
  obtain ⟨ps, hps⟩ := enableParts_only (resetFunction s1 n) n
  rw [hps]
  exact hfn

/-- The last partition of a function under reset: the function is reset, and the partition serves again (R91). -/
theorem acknowledge_resets {s : State} {p : Nat} {d : Disable} (hv : s.link.vfPending = none) (hf : (s.fn d.fn).inFlr = true)
    (hfn : (s.part p).fn = d.fn) (hr : d.remap = none) (hq : s.quota p 2 = 1) (hw : (s.fn d.fn).state ≠ .wedged) (hp : p < 256)
    (hq' : ∀ q ∈ s.hosted d.fn, q ≠ p → (s.part q).dis ≠ .disabling) :
    (noteFunctions s (acknowledge s p d)).fn d.fn = { fn0 with state := .enabled } ∧
      ((noteFunctions s (acknowledge s p d)).part p).dis = .enabled ∧ ((noteFunctions s (acknowledge s p d)).part p).disable = none ∧
      (noteFunctions s (acknowledge s p d)).keys = s.keys ∧ (noteFunctions s (acknowledge s p d)).commit = s.commit ∧
      (noteFunctions s (acknowledge s p d)).bus = s.bus := by
  have hself := acknowledged_part_self s p d
  obtain ⟨_, _, _, _, _, _, _, hk⟩ := acknowledged_only s p d
  have hmay : MayServe p (acknowledged s p d) := by
    refine ⟨?_, ?_, ?_⟩
    · rw [hself]
      dsimp only
      split
      · exact .inr rfl
      · exact .inl rfl
    · rw [hself, hr]
      rfl
    · rw [hk]
      exact hq
  have hidle : (acknowledged s p d).stillDisabling d.fn = false := by
    rw [State.stillDisabling, acknowledged_hosted, List.any_eq_false]
    intro q hmem
    by_cases hqp : q = p
    · subst q
      rcases hmay.1 with h | h <;> simp [h]
    · rw [acknowledged_part_ne d hqp]
      simpa using hq' q hmem hqp
  obtain ⟨hfn', hdis, hnone⟩ := functionSettled_resets (p := p) hidle (by rw [acknowledged_fn, hf]) (by rw [acknowledged_fn]; exact hw)
    (by rw [acknowledged_hosted]; exact State.mem_hosted.mpr ⟨hp, hfn⟩) hmay
  have hst := StopsService.functionSettled (acknowledged s p d) d.fn
  have hset : (functionSettled (acknowledged s p d) d.fn).keys = s.keys ∧ (functionSettled (acknowledged s p d) d.fn).commit = s.commit ∧
      (functionSettled (acknowledged s p d) d.fn).bus = s.bus := by
    refine ⟨hst.keys.trans ?_, hst.commit.trans ?_, hst.bus.trans ?_⟩ <;> rw [hk]
  rw [acknowledge_vfs d hv]
  generalize functionSettled (acknowledged s p d) d.fn = u at hfn' hdis hnone hset
  obtain ⟨e, he⟩ := raise_only u 1025
  rw [he]
  obtain ⟨e', hn⟩ := noteFunctions_only s { u with eic := e }
  rw [hn]
  exact ⟨hfn', hdis, hnone, hset⟩

/-! ### The cut of a step that moves buffer data -/

/-- The queues of the lanes and of the hash units stand. -/
def QueuesKept (s t : State) : Prop := t.units.lanes = s.units.lanes ∧ t.units.hashes = s.units.hashes

theorem failChain_queues (s : State) (n : Nat) : QueuesKept s (failChain s n) := by
  have hmod : ∀ (t : State) (m : Nat) (f : Slot → Slot), QueuesKept t (t.modSlot m f) := fun t m f => by
    unfold State.modSlot
    split <;> exact ⟨rfl, rfl⟩
  unfold failChain
  split
  · exact ⟨rfl, rfl⟩
  · split
    · exact ⟨rfl, rfl⟩
    · refine foldl_rel (P := QueuesKept) (fun _ => ⟨rfl, rfl⟩) (fun _ _ _ h h' => ⟨h'.1.trans h.1, h'.2.trans h.2⟩) _ (fun t e => ?_) _ s
      extract_lets u
      have hu : QueuesKept t u := by
        simp only [u]
        split <;> exact ⟨rfl, rfl⟩
      split
      · exact hu
      · refine ⟨Eq.trans ?_ hu.1, Eq.trans ?_ hu.2⟩
        · unfold endEntry finish
          split <;> exact (hmod u _ _).1
        · unfold endEntry finish
          split <;> exact (hmod u _ _).2

theorem fail_queues (s : State) (n : Nat) (st : Status) (d : Nat) : QueuesKept s (fail s n st d) := by
  have h := failChain_queues s n
  unfold fail finish State.modSlot
  split
  · exact h
  · exact h

/-- A step on a lane or a hash unit leaves its unit's queue, and no descriptor. -/
theorem unqueue_piped {s : State} {n : Nat} {u : UnitClass × Nat} (hz : u.1.zeroes = false) : (unqueue s n u).adm = s.adm ∧
    (u.1 = .skipper → n ∉ ((unqueue s n u).lane u.2).queue) ∧ (u.1 = .hash → n ∉ ((unqueue s n u).hash u.2).queue) := by
  obtain ⟨c, i⟩ := u
  cases c with
  | skipper =>
    refine ⟨rfl, fun _ => ?_, nofun⟩
    change n ∉ ((s.modLane i (fun x => { x with queue := x.queue.filter (· != n) })).lane i).queue
    rw [State.modLane_lane_self]
    simp
  | hash =>
    refine ⟨rfl, nofun, fun _ => ?_⟩
    change n ∉ ((startHash (s.modHash i (fun x => { x with queue := x.queue.filter (· != n) })) i).hash i).queue
    rw [startHash, State.modHash_hash_self, State.modHash_hash_self]
    simp
  | hawkmoth => cases hz
  | plume => cases hz

/-- The descriptor once its step is cut. -/
def Slot.aborted (x : Slot) : Slot := { x with
  stage := .done, changes := [], unit := none, owed := [], bufReads := 0
  res := some ⟨.aborted, 0, 0, none, [], x.time24 / 24, 0⟩ }

theorem exec_disableBufferTimeout {n : Nat} {u : UnitClass × Nat} {x : Slot} {s : State} (hs : tsorted s.adm.slots = true)
    (hx : s.slot n = some x) (hu : x.unit = some u) (hz : u.1.zeroes = false)
    (hd : (s.part x.part).dis = .disabling ∨ ((s.ring x.rid).state = .stopping ∧ (s.ring x.rid).settle = .disabled))
    (hb : dSrc x.desc ≠ 0 ∨ dDst x.desc ≠ 0) : ∃ t y,
      exec (.disableBufferTimeout n) s = .next t ∧ t.slot n = some y ∧ y.stage = .done ∧ y.unit = none ∧ Carries (.fail .aborted) y ∧
      (u.1 = .skipper → n ∉ (t.lane u.2).queue) ∧ (u.1 = .hash → n ∉ (t.hash u.2).queue) ∧
      (∀ m z, m ≠ n → s.slot m = some z → (x.chain = none ∨ z.rid ≠ x.rid ∨ z.chain ≠ x.chain) → t.slot m = some z) ∧
      t.keys = s.keys ∧ t.commit = s.commit ∧ t.bus = s.bus := by
  rw [dispatch_disableBufferTimeout, execDisableBufferTimeout, hx]
  dsimp only
  rw [hu]
  dsimp only
  rw [if_pos ⟨hd, by rw [hz]; rfl, hb⟩]
  obtain ⟨hadm, hlane, hhash⟩ := unqueue_piped (s := s) (n := n) hz
  obtain ⟨hql, hqh⟩ := fail_queues (unqueue s n u) n .aborted 0
  have hslot : ∀ m, (unqueue s n u).slot m = s.slot m := fun m => by rw [State.slot, State.slot, hadm]
  have hsort : tsorted (unqueue s n u).adm.slots = true := by rw [hadm]; exact hs
  have hchain : ∀ m, (m = n ∨ x.chain = none ∨ ∀ z, s.slot m = some z → z.rid ≠ x.rid ∨ z.chain ≠ x.chain) →
      (failChain (unqueue s n u) n).slot m = s.slot m := fun m h => by
    rw [failChain_slot hsort ((hslot n).trans hx) (by rw [hslot]; exact h), hslot]
  obtain ⟨a, v, hc⟩ := ChainOnly.trans (.unqueue s n u) ((ChainOnly.failChain _ n).trans (.finish _ n .aborted 0))
  refine ⟨_, x.aborted, rfl, ?_, rfl, rfl, ⟨_, rfl, rfl, rfl, rfl, rfl, nofun⟩,
    fun h => ?_, fun h => ?_, fun m z hm hz hout => ?_, ?_, ?_, ?_⟩
  · rw [fail, finish, State.modSlot_slot, if_pos rfl, hchain n (.inl rfl), hx]
    rfl
  · rw [State.lane, hql]
    exact hlane h
  · rw [State.hash, hqh]
    exact hhash h
  · rw [fail, finish, State.modSlot_slot, if_neg hm, hchain m ?_, hz]
    refine .inr (hout.imp_right fun h w hw => ?_)
    rw [hz] at hw
    cases hw
    exact h
  · exact (congrArg State.keys hc).trans rfl
  · exact (congrArg State.commit hc).trans rfl
  · exact (congrArg State.bus hc).trans rfl

end Sys2Proof.Machine

/-- Settles O21: what begins a procedure, what its acknowledgement ends, and the cut of a step that moves buffer data. -/
theorem disableProcedure : Obligations.DisableProcedure := by
  unfold Obligations.DisableProcedure
  refine ⟨fun fn s he hw => ⟨fun hc hb hf => ?_, fun hc hb hf => ?_, fun c g hc hcmd => ?_, fun p hm hp ho hq hs => ?_⟩,
    fun p d s hd hs hdr hg hv => ⟨fun hf => ?_, fun hf hfn hr hq hw hp hq' => ?_⟩,
    fun n u x s => exec_disableBufferTimeout⟩
  · obtain ⟨t, ht, ⟨hparts, hst⟩, hfn, hod⟩ := exec_busMasterEnableClear he hc hw hb hf
    exact ⟨t, ht, hparts, by rw [hfn], by rw [hfn], hst.keys, hod, by rw [hst.commit], hst.bus⟩
  · obtain ⟨t, ht, ⟨hparts, hst⟩, hfn, hod⟩ := exec_d3hotEntry he hc hw hb hf
    exact ⟨t, ht, hparts, by rw [hfn], by rw [hfn], hst.keys, hod, by rw [hst.commit], hst.bus⟩
  · obtain ⟨hg, ht⟩ := exec_functionReset he hc hcmd
    obtain ⟨hdis, hhost, hnone, hlink, hod⟩ := functionLevelReset_disables_all (g := g) hg hw
    obtain ⟨hparts, hst⟩ := hdis.noteFunctions s
    generalize functionLevelReset s fn g = u at ht hhost hnone hlink hod hparts hst
    obtain ⟨e, hn⟩ := noteFunctions_only s u
    refine ⟨_, ht, hparts, ?_, ?_, ?_, ?_, hst.keys, by rw [hst.commit], hst.bus⟩ <;> rw [hn]
    · exact hhost
    · exact hnone
    · exact hlink
    · exact hod
  · obtain ⟨t, ht, ⟨hparts, hst⟩, hfn, hraised, hod⟩ := exec_functionWedged he hw hm hp ho hq hs
    refine ⟨t, ht, fun q hq hn => ?_, hfn, hraised, hst.keys, hod, by rw [hst.commit], hst.bus⟩
    obtain ⟨hdis, d, hd, htr, -⟩ := hparts q hq hn
    exact ⟨hdis, d, hd, htr⟩
  · obtain ⟨hown, hothers, hunwritten, _, _, _, _, _, _, _, _, honly⟩ := acknowledge_acked (p := p) hv hf
    refine ⟨_, exec_disableAck hd hs hdr hg, ?_, ?_, acknowledge_raises d, fun q hq => ?_, hunwritten, ?_, ?_, ?_, ?_⟩
    · rw [hown]
      refine ite_congr (propext ?_) (fun _ => rfl) (fun _ => rfl)
      simp [returns, and_assoc]
    · rw [hown]
      cases d.remap <;> simp
    · rw [hothers q hq]
      exact ⟨rfl, rfl⟩
    all_goals rw [honly]
  · rw [exec_disableAck hd hs hdr hg]
    exact ⟨_, rfl, acknowledge_resets hv hf hfn hr hq hw hp hq'⟩
end

section
open Sys2Proof.Machine

/-! SUPPORT. The reads the host interface issues, and what a descriptor waits for before its keys (R30, R43, R107, R119 to R122). -/

namespace Sys2Proof.Machine

/-! ### Which behaviour each command of the pipeline has -/

theorem dispatch_chainReservationTake {rid} (s : State) :
    exec (.chainReservationTake rid) s = execChainReservationTake rid s := rfl

theorem dispatch_bufferReadCompletion {slot data} (s : State) :
    exec (.bufferReadCompletion slot data) s = execBufferReadCompletion slot data s := rfl

theorem dispatch_reservationEntryFree {slot} (s : State) :
    exec (.reservationEntryFree slot) s = execReservationEntryFree slot s := rfl

theorem dispatch_descriptorReadIssue {rid} (s : State) : exec (.descriptorReadIssue rid) s = execDescriptorReadIssue rid s := rfl

theorem dispatch_descriptorArrival {rid data} (s : State) :
    exec (.descriptorArrival rid data) s = execDescriptorArrival rid data s := rfl

theorem dispatch_readFault {slot addr} (s : State) : exec (.readFault slot addr) s = execReadFault slot addr s := rfl

theorem dispatch_readTimeout {slot addr} (s : State) : exec (.readTimeout slot addr) s = execReadTimeout slot addr s := rfl

theorem dispatch_blockReset {rq cls unit} (s : State) : exec (.blockReset rq cls unit) s = execBlockReset rq cls unit s := rfl

theorem dispatch_blockResetDone {pass} (s : State) : exec (.blockResetDone pass) s = execBlockResetDone pass s := rfl

theorem dispatch_engineAbortDone {cls unit} (s : State) :
    exec (.engineAbortDone cls unit) s = execEngineAbortDone cls unit s := rfl

theorem dispatch_engineSelfTestDone {cls unit pass} (s : State) :
    exec (.engineSelfTestDone cls unit pass) s = execEngineSelfTestDone cls unit pass s := rfl

theorem dispatch_hashStepDone {unit} (s : State) : exec (.hashStepDone unit) s = execHashStepDone unit s := rfl

theorem dispatch_hawkmothOpDone {engine agree} (s : State) :
    exec (.hawkmothOpDone engine agree) s = execHawkmothOpDone engine agree s := rfl

theorem dispatch_keyBind {slot} (s : State) : exec (.keyBind slot) s = execKeyBind slot s := rfl

theorem dispatch_keyCacheMissDone {slot} (s : State) : exec (.keyCacheMissDone slot) s = execKeyCacheMissDone slot s := rfl

theorem dispatch_plumeOpDone {unit agree} (s : State) : exec (.plumeOpDone unit agree) s = execPlumeOpDone unit agree s := rfl

theorem dispatch_skipperStepDone {slot} (s : State) : exec (.skipperStepDone slot) s = execSkipperStepDone slot s := rfl

theorem dispatch_stepDispatch {slot unit} (s : State) : exec (.stepDispatch slot unit) s = execStepDispatch slot unit s := rfl

/-! ### Issuing the reads of a descriptor's buffers -/

/-- Reads are issued for the descriptors: of a descriptor change only the requests still owed, and of the host's view only those issued. -/
structure ReadsIssued (s t : State) : Prop where
  only : ∃ a l, t = { s with adm := a, bus := { s.bus with issued := l } }
  slots : ∀ n x, s.slot n = some x → ∃ o k, t.slot n = some { x with owed := o, bufReads := k }

namespace ReadsIssued

theorem refl (s : State) : ReadsIssued s s := ⟨⟨_, _, rfl⟩, fun _ x h => ⟨x.owed, x.bufReads, h⟩⟩

theorem trans {a b c : State} (h : ReadsIssued a b) (h' : ReadsIssued b c) : ReadsIssued a c := by
  refine ⟨?_, fun n x hx => ?_⟩
  · obtain ⟨_, _, rfl⟩ := h.only
    obtain ⟨_, _, rfl⟩ := h'.only
    exact ⟨_, _, rfl⟩
  · obtain ⟨o, k, ho⟩ := h.slots n x hx
    obtain ⟨o', k', ho'⟩ := h'.slots n _ ho
    exact ⟨o', k', ho'⟩

theorem fold {α : Type} {g : State → α → State} (hg : ∀ t a, ReadsIssued t (g t a)) (l : List α) (s : State) :
    ReadsIssued s (l.foldl g s) := foldl_rel refl (fun _ _ _ => trans) g hg l s

theorem bus (s : State) (l : List (Nat × Nat × Nat)) : ReadsIssued s { s with bus := { s.bus with issued := l } } :=
  ⟨⟨_, _, rfl⟩, fun _ x h => ⟨x.owed, x.bufReads, h⟩⟩

theorem owe (s : State) (n : Nat) {f : Slot → Slot} (hf : ∀ x, ∃ o k, f x = { x with owed := o, bufReads := k }) :
    ReadsIssued s (s.modSlot n f) := by
  refine ⟨?_, fun m x hx => ?_⟩
  · unfold State.modSlot
    split <;> exact ⟨_, _, rfl⟩
  · rw [State.modSlot_slot]
    split
    · subst m
      obtain ⟨o, k, h⟩ := hf x
      exact ⟨o, k, by rw [hx, Option.map_some, h]⟩
    · exact ⟨x.owed, x.bufReads, hx⟩

theorem issueReads (s : State) (n : Nat) : ReadsIssued s (issueReads s n) := by
  unfold Machine.issueReads
  split
  · exact refl s
  · extract_lets fn o t
    split
    · exact refl s
    · exact (owe s n fun x => ⟨_, _, rfl⟩).trans (bus t _)

theorem issueAllReads (s : State) : ReadsIssued s (issueAllReads s) := fold issueReads _ s

theorem askReads (s : State) (n : Nat) : ReadsIssued s (askReads s n) := by
  refine (owe s n fun x => ?_).trans (issueReads _ n)
  split
  · exact ⟨_, _, rfl⟩
  · exact ⟨x.owed, x.bufReads, rfl⟩

theorem rings {s t : State} (h : ReadsIssued s t) : t.rings = s.rings := by
  obtain ⟨_, _, rfl⟩ := h.only
  rfl

theorem keys {s t : State} (h : ReadsIssued s t) : t.keys = s.keys := by
  obtain ⟨_, _, rfl⟩ := h.only
  rfl

theorem parts {s t : State} (h : ReadsIssued s t) : t.parts = s.parts := by
  obtain ⟨_, _, rfl⟩ := h.only
  rfl

theorem commit {s t : State} (h : ReadsIssued s t) : t.commit = s.commit := by
  obtain ⟨_, _, rfl⟩ := h.only
  rfl

theorem writes {s t : State} (h : ReadsIssued s t) : t.bus.writes = s.bus.writes := by
  obtain ⟨_, _, rfl⟩ := h.only
  rfl

end ReadsIssued

/-! ### A piece of a descriptor's buffers -/

/-- What taking one piece of a descriptor's buffers leaves: the descriptor with the piece, and nothing beside the requests. -/
structure PieceTaken (n : Nat) (y : Slot) (s u : State) : Prop where
  slot : ∃ o k, u.slot n = some { y with owed := o, bufReads := k }
  rings : u.rings = s.rings
  keys : u.keys = s.keys
  commit : u.commit = s.commit
  writes : u.bus.writes = s.bus.writes

theorem State.modSlot_only (s : State) (n : Nat) (f : Slot → Slot) : ∃ a, s.modSlot n f = { s with adm := a } := by
  unfold State.modSlot
  split <;> exact ⟨_, rfl⟩

/-- A piece of the descriptor's buffers is there: it is stored, and the next one is asked for. -/
theorem pieceTaken_of_store {s : State} {n : Nat} {x : Slot} (hx : s.slot n = some x) (f : Slot → Slot)
    (hf : ∀ o k, ∃ o' k', f { x with owed := o, bufReads := k } = { f x with owed := o', bufReads := k' }) :
    PieceTaken n (f x) s (issueAllReads (askReads (((owedReads s x).modSlot n (fun y => { y with owed := [], bufReads := 0 })).modSlot n f) n)) := by
  have h1 : ReadsIssued s ((owedReads s x).modSlot n (fun y => { y with owed := [], bufReads := 0 })) :=
    (ReadsIssued.bus s _).trans (.owe _ n fun y => ⟨_, _, rfl⟩)
  generalize (owedReads s x).modSlot n (fun y => { y with owed := [], bufReads := 0 }) = s1 at h1
  have h2 : ReadsIssued (s1.modSlot n f) (issueAllReads (askReads (s1.modSlot n f) n)) := (ReadsIssued.askReads _ n).trans (.issueAllReads _)
  generalize issueAllReads (askReads (s1.modSlot n f) n) = u at h2
  obtain ⟨a, ha⟩ := State.modSlot_only s1 n f
  obtain ⟨o, k, hslot⟩ := h1.slots n x hx
  obtain ⟨o1, k1, hf1⟩ := hf o k
  obtain ⟨o', k', hu⟩ := h2.slots n _ (show (s1.modSlot n f).slot n = _ by rw [State.modSlot_slot, if_pos rfl, hslot, Option.map_some, hf1])
  refine ⟨⟨o', k', hu⟩, h2.rings.trans ?_, h2.keys.trans ?_, h2.commit.trans ?_, h2.writes.trans ?_⟩ <;> rw [ha]
  · exact h1.rings
  · exact h1.keys
  · exact h1.commit
  · exact h1.writes

section
variable {n : Nat} {x : Slot} {s : State} (data : Bytes) (hx : s.slot n = some x) (hr : x.stage ≠ .reading)
  (hc : x.stage.uncommitted = true) (ho : x.bufReads = 0 → x.owed = [])
include hx hr hc ho

theorem exec_bufferReadCompletion_takes : exec (.bufferReadCompletion n data) s =
    .next (issueAllReads (takePiece ((owedReads s x).modSlot n (fun y => { y with owed := [], bufReads := 0 })) n x data)) := by
  rw [dispatch_bufferReadCompletion, execBufferReadCompletion, hx]
  dsimp only
  rw [if_neg (by simp [hr, hc]), if_neg (by
    rintro ⟨h0, he⟩
    simp [ho h0] at he)]

/-- The scatter list of the source, where it keeps R107. -/
theorem exec_bufferReadCompletion_sgSrc (hs : (dSrcSg x.desc && x.sgSrc.isNone) = true) (hok : sgOk data (dSrcLen x.desc) true = true) :
    ∃ u, exec (.bufferReadCompletion n data) s = .next u ∧ PieceTaken n { x with sgSrc := some data } s u := by
  rw [exec_bufferReadCompletion_takes data hx hr hc ho, takePiece, if_pos hs, if_pos hok]
  exact ⟨_, rfl, pieceTaken_of_store hx (fun y => { y with sgSrc := some data }) fun o k => ⟨o, k, rfl⟩⟩

/-- The scatter list of the destination, where it keeps R107. -/
theorem exec_bufferReadCompletion_sgDst (hs : (dSrcSg x.desc && x.sgSrc.isNone) = false) (hd : (dDstSg x.desc && x.sgDst.isNone) = true)
    (hok : sgOk data (dDstLen x.desc) false = true) :
    ∃ u, exec (.bufferReadCompletion n data) s = .next u ∧ PieceTaken n { x with sgDst := some data } s u := by
  rw [exec_bufferReadCompletion_takes data hx hr hc ho, takePiece, if_neg (by simp [hs]), if_pos hd, if_pos hok]
  exact ⟨_, rfl, pieceTaken_of_store hx (fun y => { y with sgDst := some data }) fun o k => ⟨o, k, rfl⟩⟩

/-- The source data. -/
theorem exec_bufferReadCompletion_src (hs : (dSrcSg x.desc && x.sgSrc.isNone) = false) (hd : (dDstSg x.desc && x.sgDst.isNone) = false)
    (hn : x.src = none) :
    ∃ u, exec (.bufferReadCompletion n data) s = .next u ∧ PieceTaken n { x with src := some (fit (dSrcLen x.desc) data) } s u := by
  rw [exec_bufferReadCompletion_takes data hx hr hc ho, takePiece, if_neg (by simp [hs]), if_neg (by simp [hd]), if_pos (by simp [hn])]
  exact ⟨_, rfl, pieceTaken_of_store hx (fun y => { y with src := some (fit (dSrcLen x.desc) data) }) fun o k => ⟨o, k, rfl⟩⟩

end

/-! ### The read of a ring's next entries -/

theorem tset_length_new {α : Type} {t : Tab α} {k : Nat} (v : α) (h : tget t k = none) : (tset t k v).length = t.length + 1 := by
  induction t with
  | nil => rfl
  | cons e r ih =>
    obtain ⟨a, x⟩ := e
    rw [tget] at h
    split at h
    · cases h
    · next ha =>
      rw [tset]
      split
      · rfl
      · rw [List.length_cons, List.length_cons, ih h]

/-- The ring with one more entry fetched. -/
def Ring.took (r : Ring) : Ring := { r with fetch := idxAdd r.fetch 1, unwritten := r.unwritten ++ [r.fetch] }

/-- What taking slots for a ring's next entries has done after `i` of them. -/
structure SlotsTaken (rid : Nat) (s : State) (i : Nat) (t : State) : Prop where
  only : ∃ a r, t = { s with adm := { s.adm with slots := a }, rings := r }
  fetch : (t.ring rid).fetch = (List.range i).foldl (fun f _ => idxAdd f 1) (s.ring rid).fetch
  length : t.adm.slots.length = s.adm.slots.length + i
  others : ∀ r, r ≠ rid → t.ring r = s.ring r

theorem SlotsTaken.take {rid p id i : Nat} {s t : State} (h : SlotsTaken rid s i t) : SlotsTaken rid s (i + 1) (takeSlot t rid p id) := by
  obtain ⟨⟨a, r, honly⟩, hfetch, hlen, hothers⟩ := h
  obtain ⟨k, hk⟩ := Option.isSome_iff_exists.mp (tlowestFree_length t.adm.slots 0)
  have htake : takeSlot t rid p id = { t with
      rings := tset t.rings rid (t.ring rid).took
      adm := { t.adm with slots := tset t.adm.slots k (newSlot rid p (t.ring rid).fetch id) } } := by
    rw [takeSlot, hk]
    rfl
  rw [htake]
  refine ⟨?_, ?_, ?_, fun q hq => ?_⟩
  · rw [honly]
    exact ⟨_, _, rfl⟩
  · rw [List.range_succ, List.foldl_concat, ← hfetch]
    exact congrArg Ring.fetch (tgetD_tset_self t.rings rid (t.ring rid).took ring0)
  · exact (tset_length_new _ (tlowestFree_spec hk)).trans (by rw [hlen, Nat.add_assoc])
  · exact (tgetD_tset_ne (h := hq) ..).trans (hothers q hq)

theorem foldl_takeSlot (s : State) (rid p id n : Nat) : SlotsTaken rid s n ((List.range n).foldl (fun t _ => takeSlot t rid p id) s) := by
  induction n with
  | zero => exact ⟨⟨_, _, rfl⟩, rfl, rfl, fun _ _ => rfl⟩
  | succ n ih =>
    rw [List.range_succ, List.foldl_concat]
    exact ih.take

end Sys2Proof.Machine
end

section
open Sys2Proof.Machine

namespace Sys2Proof.Machine

theorem dropDeficit_only (s : State) : ∃ d b, dropDeficit s = { s with adm := { s.adm with deficit := d, inTurn := b } } := ⟨_, _, rfl⟩

/-- The deficits of the partitions bear on whose turn it is, and not on how many entries a read takes. -/
theorem readSize_dropDeficit (s : State) (rid : Nat) : (dropDeficit s).readSize rid = s.readSize rid := by
  obtain ⟨d, b, h⟩ := dropDeficit_only s
  rw [h]
  rfl

/-- The read of a ring's next entries: its function, the address of the first and the bytes (R30, R122). -/
def State.entryRead (s : State) (rid : Nat) : Nat × Nat × Nat :=
  (rid / 4096, (s.ring rid).base + 128 * ((s.ring rid).fetch % (s.ring rid).size), 128 * s.readSize rid)

/-- The ring whose turn it is has one read issued (R30, R119, R122). -/
theorem exec_descriptorReadIssue_issues {rid p d : Nat} {s : State} (h : (dropDeficit s).nextFetch = some (p, rid, d)) : ∃ t u,
    exec (.descriptorReadIssue rid) s = .next u ∧ SlotsTaken rid s (s.readSize rid) t ∧
      ∃ (a : Admission) (f : Tab Fn), u = { t with
        fns := f
        adm := a
        bus := { s.bus with issued := s.bus.issued ++ [s.entryRead rid] } } ∧
        a.slots = t.adm.slots ∧ a.nextRead = s.adm.nextRead + 1 ∧ (tgetD f (rid / 4096) fn0).stallUs = 0 := by
  rw [dispatch_descriptorReadIssue, execDescriptorReadIssue]
  dsimp only
  rw [h]
  dsimp only
  rw [if_neg (fun hne => hne rfl), readSize_dropDeficit]
  obtain ⟨⟨a, r, honly⟩, hfetch, hlen, hothers⟩ := foldl_takeSlot (dropDeficit s) rid p (dropDeficit s).adm.nextRead (s.readSize rid)
  obtain ⟨e, b, hd⟩ := dropDeficit_only s
  generalize (List.range (s.readSize rid)).foldl (fun t _ => takeSlot t rid p (dropDeficit s).adm.nextRead) (dropDeficit s) = t at honly hfetch hlen hothers
  rw [hd] at honly hfetch hlen hothers ⊢
  refine ⟨{ s with adm := { s.adm with slots := a }, rings := r }, _, rfl, ⟨⟨_, _, rfl⟩, ?_, ?_, ?_⟩, ?_⟩
  · rw [honly] at hfetch
    exact hfetch
  · rw [honly] at hlen
    exact hlen
  · rw [honly] at hothers
    exact hothers
  · rw [honly]
    refine ⟨_, _, rfl, rfl, rfl, ?_⟩
    exact congrArg Fn.stallUs (tgetD_tset_self ..)

theorem exec_chainReservationTake_takes {rid p : Nat} {s : State} (hp : s.ringPart rid = some p) (hw : (s.ring rid).chainWait = true)
    (ha : (s.ring rid).chainAt.isSome = true) (hn : tget s.adm.chainHold p = none)
    (hq : s.inFlight p - s.chainFetched rid + 64 ≤ s.quota p 4) : exec (.chainReservationTake rid) s =
      .next ({ s with adm := { s.adm with chainHold := tset s.adm.chainHold p rid } }.modRing rid (fun r => { r with chainWait := false })) := by
  rw [dispatch_chainReservationTake, execChainReservationTake, hp]
  dsimp only
  rw [if_pos (by simp [hw, ha, hn, hq])]

end Sys2Proof.Machine

/-- Settles O3: the reservation, the pieces of the buffers and the table's entry, and the read issued for the ring whose turn it is. -/
theorem fetchAndWaits : Obligations.FetchAndWaits := by
  unfold Obligations.FetchAndWaits
  refine ⟨⟨fun rid p s hp hw ha hn hq => ?_, fun n x data s hx hr hc ho => ⟨fun hs hok => ?_, fun hs hd hok => ?_, fun hs hd hn => ?_⟩,
    fun n x s hx hst hl => ?_⟩, fun rid p d s h => ?_⟩
  · rw [exec_chainReservationTake_takes hp hw ha hn hq]
    exact ⟨_, rfl, by rw [State.modRing_adm, tget_tset_self], State.modRing_ring_self .., rfl,
      fun r hr => (State.modRing_ring ..).trans (if_neg hr), rfl, rfl⟩
  · obtain ⟨u, he, ⟨o, k, hslot⟩, hrings, hkeys, hcommit, hwrites⟩ := exec_bufferReadCompletion_sgSrc data hx hr hc ho hs hok
    exact ⟨u, _, he, hslot, rfl, rfl, rfl, rfl, hrings, hkeys, hcommit, hwrites⟩
  · obtain ⟨u, he, ⟨o, k, hslot⟩, hrings, hkeys, hcommit, hwrites⟩ := exec_bufferReadCompletion_sgDst data hx hr hc ho hs hd hok
    exact ⟨u, _, he, hslot, rfl, rfl, rfl, rfl, hrings, hkeys, hcommit, hwrites⟩
  · obtain ⟨u, he, ⟨o, k, hslot⟩, hrings, hkeys, hcommit, hwrites⟩ := exec_bufferReadCompletion_src data hx hr hc ho hs hd hn
    exact ⟨u, _, he, hslot, rfl, rfl, rfl, rfl, hrings, hkeys, hcommit, hwrites⟩
  · rw [dispatch_reservationEntryFree, execReservationEntryFree, hx]
    dsimp only
    rw [if_pos ⟨hst, hl⟩]
  · obtain ⟨t, u, he, ⟨⟨a, r, honly⟩, hfetch, hlen, hothers⟩, b, f, hu, hslots, hnext, hstall⟩ := exec_descriptorReadIssue_issues h
    refine ⟨u, he, ?_, by rw [hu]; rfl, by rw [hu]; exact hnext, by rw [hu]; exact hstall, ?_, fun q hq => ?_, ?_, ?_, ?_, ?_, ?_, ?_⟩
    · rw [hu]
      exact hfetch
    · rw [hu]
      exact (congrArg List.length hslots).trans hlen
    · rw [hu]
      exact hothers q hq
    all_goals rw [hu, honly]
end

section
open Sys2Proof.Machine

/-! SUPPORT. What an arriving descriptor, and a read that failed, leave of its ring and of itself (R90, R104 to R109, R116, R132). -/

namespace Sys2Proof.Machine

/-! ### A first error keeps the entry that carries it -/

theorem tsorted_release {s : State} (n : Nat) (h : tsorted s.adm.slots = true) : tsorted (release s n).adm.slots = true := by
  unfold release
  split
  · exact h
  · extract_lets s1 s2 s3
    have h1 : s1.adm = s.adm := by
      simp only [s1]
      split
      · rfl
      · exact unqueue_adm s n _
    have h2 : s2.adm = s1.adm := foldl_keep State.adm _ (fun t u => by unfold unusePage; split <;> rfl) _ s1
    have h3 : s3.adm = s2.adm := by
      simp only [s3]
      split
      · rfl
      · unfold unreserve
        split
        · rfl
        · split <;> rfl
    refine tsorted_terase _ n ?_
    rw [h3, h2, h1]
    exact h

theorem countDisable_adm (s : State) (p : Nat) (f : Disable → Disable) : (countDisable s p f).adm = s.adm := by
  unfold countDisable
  split <;> rfl

/-- The slots are in order, and this one holds `y`. -/
def HoldsAt (n : Nat) (y : Slot) (s : State) : Prop := tsorted s.adm.slots = true ∧ s.slot n = some y

theorem HoldsAt.mem {n : Nat} {y z : Slot} {s : State} (h : HoldsAt n y s) (hz : (n, z) ∈ s.adm.slots) : z = y := by
  have := tget_of_mem h.1 hz
  rw [← State.slot, h.2] at this
  exact (Option.some.inj this).symm

theorem HoldsAt.of_adm {n : Nat} {y : Slot} {s t : State} (h : HoldsAt n y s) (ha : t.adm.slots = s.adm.slots) : HoldsAt n y t := by
  rw [HoldsAt, State.slot, ha]
  exact h

theorem HoldsAt.discard {n m : Nat} {y : Slot} {s : State} (h : HoldsAt n y s) (hm : m ≠ n) : HoldsAt n y (discard s m) := by
  unfold Machine.discard
  split
  · exact h
  · next x hx =>
    have hc := h.of_adm (t := countDisable s x.part (fun d => { d with discarded := d.discarded + 1 })) (by rw [countDisable_adm])
    refine ⟨tsorted_release m hc.1, ?_⟩
    rw [release_slot, if_neg hm.symm]
    exact hc.2

theorem HoldsAt.modSlot_ne {n m : Nat} {y : Slot} {s : State} (h : HoldsAt n y s) (f : Slot → Slot) (hm : m ≠ n) :
    HoldsAt n y (s.modSlot m f) := by
  refine ⟨tsorted_modSlot m f h.1, ?_⟩
  rw [State.modSlot_slot, if_neg hm.symm]
  exact h.2

/-- What is discarded stands above the entry the error is of. -/
theorem HoldsAt.discardAbove {n rid : Nat} {y : Slot} {s : State} (h : HoldsAt n y s) : HoldsAt n y (discardAbove s rid y.index) := by
  unfold Machine.discardAbove
  extract_lets f
  refine List.foldlRecOn (motive := HoldsAt n y) _ _ h fun t ht e he => ?_
  split
  · next hd =>
    refine ht.discard ?_
    rintro rfl
    have hmem : (e.1, e.2) ∈ s.adm.slots := (List.mem_filter.mp he).1
    rw [h.mem hmem] at hd
    simp [below] at hd
  · exact ht

/-- A descriptor outside any chain is none of an open chain's. -/
theorem HoldsAt.failOpenChains {n rid : Nat} {y : Slot} {s : State} (h : HoldsAt n y s) (hc : y.chain = none) :
    HoldsAt n y (failOpenChains s rid) := by
  unfold Machine.failOpenChains
  extract_lets l r
  split
  · exact h
  · refine List.foldlRecOn (motive := HoldsAt n y) _ _ h fun t ht e he => ?_
    split
    · next hd =>
      have hm : e.1 ≠ n := by
        rintro rfl
        have hmem : (e.1, e.2) ∈ s.adm.slots := (List.mem_filter.mp he).1
        rw [h.mem hmem, hc] at hd
        simp at hd
      split
      · exact ht.discard hm
      · exact ht.modSlot_ne _ hm
    · exact ht

theorem dropReservation_slots (s : State) (rid : Nat) : (dropReservation s rid).adm.slots = s.adm.slots := by
  unfold dropReservation
  split
  · rfl
  · split
    · rfl
    · split <;> rfl

theorem HoldsAt.ringError {n rid : Nat} {y : Slot} {s : State} (h : HoldsAt n y s) (hc : y.chain = none) (st : Status) (lo hi : Nat) :
    HoldsAt n y (ringError s rid st lo hi (some y.index)) := by
  unfold Machine.ringError
  extract_lets r s1 s2 s3
  split
  · have h2 : HoldsAt n y s2 := h.of_adm (dropReservation_slots s rid)
    have h3 : HoldsAt n y s3 := (h2.discardAbove).failOpenChains hc
    exact h3.of_adm (by rw [logMain_adm])
  · exact h

theorem foldl_discard_rings (l : Tab Slot) (c : State → Nat × Slot → Bool) (s : State) :
    (l.foldl (fun t x => if c t x then discard t x.1 else t) s).rings = s.rings := by
  refine List.foldlRecOn (motive := fun t : State => t.rings = s.rings) _ _ rfl fun t ht e he => ?_
  split
  · rw [discard_rings, ht]
  · exact ht

theorem discardAbove_rings (s : State) (rid e : Nat) : (discardAbove s rid e).rings = s.rings :=
  foldl_discard_rings (s.ringSlots rid)
    (fun _ x => below (s.ring rid).fetch e x.2.index && !s.unitStarted x.2 && x.2.stage.uncommitted) s

/-- What the first error of a ring leaves in each ring block, where an entry carries it (R132). -/
theorem ringError_ring_eq (s : State) (rid : Nat) (st : Status) (lo hi e r : Nat) (h : (s.ring rid).state = .enabled) :
    (ringError s rid st lo hi (some e)).ring r =
      ((stopRing (dropReservation s rid) rid .error).modRing rid
        (fun x => { x with errCode := st.code, latchLo := lo, latchHi := hi })).ring r := by
  unfold ringError
  extract_lets r0 s1 s2 s3
  rw [if_pos h]
  simp only [State.ring, logMain_rings, s3, failOpenChains_rings, discardAbove_rings]
  rfl

/-- The ring of a first error stops toward ERROR, its cause and both values latched, where an entry carries it (R132). -/
theorem ringError_ring_entry (s : State) (rid : Nat) (st : Status) (lo hi e : Nat) (h : (s.ring rid).state = .enabled) :
    (ringError s rid st lo hi (some e)).ring rid =
      { s.ring rid with
        state := .stopping, settle := .error, errCode := st.code, latchLo := lo, latchHi := hi, chainWait := false } := by
  obtain ⟨c, hc⟩ := dropReservation_ring s rid rid
  simp [ringError_ring_eq s rid st lo hi e rid h, stopRing, hc, h]

theorem failChain_alone {s : State} {n : Nat} {x : Slot} (hx : s.slot n = some x) (hc : x.chain = none) : failChain s n = s := by
  rw [failChain, hx]
  dsimp only
  rw [hc]

/-! ### An arrival that passes the checks -/

theorem failOpenChains_enabled {s : State} {rid : Nat} (h : (s.ring rid).state = .enabled) : failOpenChains s rid = s := by
  rw [failOpenChains]
  exact if_pos (.inl h)

/-- The descriptor as it is held: its bytes, and of its chain `c` and whether it ends it. -/
def Slot.arrived (x : Slot) (d : Bytes) (c : Option Nat) (e : Bool) : Slot := { x with desc := d, stage := .fetched, chain := c, chainEnd := e }

/-- What an arrival leaves: the descriptor held, and beside it the rings and the reservations alone. -/
structure Arrived (n : Nat) (y : Slot) (s u : State) : Prop where
  slot : ∃ o k, u.slot n = some { y with owed := o, bufReads := k }
  only : ∃ a r l, u = { s with adm := a, rings := r, bus := { s.bus with issued := l } }

section
variable {rid n : Nat} {x : Slot} {data : Bytes} {s : State} (hx : s.slot n = some x) (he : (s.ring rid).state = .enabled)

include hx in
/-- The descriptor is stored with its chain, the rings as `r` has them, and its buffers' reads are asked for. -/
theorem arrived_of_store {d : Bytes} {c : Option Nat} {e : Bool} {f : Slot → Slot} (hf : f x = x.arrived d c e) (t : State)
    (ht : ∃ a r, t = { s with adm := a, rings := r }) (hslot : t.slot n = (s.modSlot n f).slot n) :
    Arrived n (x.arrived d c e) s (issueAllReads (askReads t n)) ∧ (issueAllReads (askReads t n)).rings = t.rings := by
  have hr : ReadsIssued t (issueAllReads (askReads t n)) := (ReadsIssued.askReads t n).trans (.issueAllReads _)
  obtain ⟨a, r, hta⟩ := ht
  rw [State.modSlot_slot, if_pos rfl, hx, Option.map_some, hf] at hslot
  refine ⟨⟨hr.slots n _ hslot, ?_⟩, hr.rings⟩
  obtain ⟨b, l, hb⟩ := hr.only
  rw [hb, hta]
  exact ⟨_, _, _, rfl⟩

theorem exec_descriptorArrival_passes (ha : s.awaited rid = some (n, x)) (hc : x.cut = none)
    (hk : arrivalCheck s rid x.index (fit 128 data) = none) (he' : ((arrive s n rid x.part x.index (fit 128 data)).ring rid).state = .enabled) :
    exec (.descriptorArrival rid data) s = .next (issueAllReads (askReads (arrive s n rid x.part x.index (fit 128 data)) n)) := by
  rw [dispatch_descriptorArrival, execDescriptorArrival]
  dsimp only
  rw [ha]
  dsimp only
  rw [hc]
  dsimp only
  rw [hk]
  dsimp only
  rw [failOpenChains_enabled he']

include hx he in
/-- An entry alone (R109, R116). -/
theorem arrive_alone {d : Bytes} (hn : (s.ring rid).chainAt = none) (hd : (dFirst d && !dLast d) = false) (hch : x.chain = none) :
    ((arrive s n rid x.part x.index d).ring rid).state = .enabled ∧
    Arrived n (x.arrived d none x.chainEnd) s (issueAllReads (askReads (arrive s n rid x.part x.index d) n)) ∧
    (issueAllReads (askReads (arrive s n rid x.part x.index d) n)).rings = s.rings := by
  have harr : arrive s n rid x.part x.index d = s.modSlot n (fun x => { x with desc := d, stage := .fetched }) := by
    rw [arrive, hn]
    dsimp only
    rw [if_neg (by simp [hd])]
  obtain ⟨a, hmod⟩ := State.modSlot_only s n (fun x => { x with desc := d, stage := .fetched })
  have hrings : (s.modSlot n (fun x => { x with desc := d, stage := .fetched })).rings = s.rings := by rw [hmod]
  obtain ⟨h1, h2⟩ := arrived_of_store hx (d := d) (c := none) (e := x.chainEnd) (f := fun x => { x with desc := d, stage := .fetched })
    (by rw [Slot.arrived, ← hch]) _ ⟨_, _, hmod⟩ rfl
  rw [harr]
  refine ⟨?_, h1, h2.trans hrings⟩
  rw [State.ring, hrings]
  exact he

include hx he in
/-- The next entry of the ring's open chain (R116). -/
theorem arrive_next {d : Bytes} {first : Nat} (hn : (s.ring rid).chainAt = some first) (hb : (s.ring rid).chainBad = false) :
    ((arrive s n rid x.part x.index d).ring rid).state = .enabled ∧
    Arrived n (x.arrived d (some first) (dLast d)) s (issueAllReads (askReads (arrive s n rid x.part x.index d) n)) ∧
    ((issueAllReads (askReads (arrive s n rid x.part x.index d) n)).ring rid).chainAt = (if dLast d = true then none else some first) ∧
    ((issueAllReads (askReads (arrive s n rid x.part x.index d) n)).ring rid).state = .enabled := by
  obtain ⟨a, hmod⟩ := State.modSlot_only s n (fun x => { x with desc := d, stage := .fetched, chain := some first, chainEnd := dLast d })
  have hstore : (∃ a r, arrive s n rid x.part x.index d = { s with adm := a, rings := r }) ∧
      (arrive s n rid x.part x.index d).slot n =
        (s.modSlot n (fun x => { x with desc := d, stage := .fetched, chain := some first, chainEnd := dLast d })).slot n ∧
      ((arrive s n rid x.part x.index d).ring rid).chainAt = (if dLast d = true then none else some first) ∧
      ((arrive s n rid x.part x.index d).ring rid).state = .enabled := by
    rw [arrive, hn]
    dsimp only
    simp only [hb, Bool.false_eq_true, if_false]
    have hring : (s.modSlot n (fun x => { x with desc := d, stage := .fetched, chain := some first, chainEnd := dLast d })).ring rid =
        s.ring rid := by rw [hmod]; rfl
    generalize s.modSlot n (fun x => { x with desc := d, stage := .fetched, chain := some first, chainEnd := dLast d }) = v at hmod hring ⊢
    split
    · split
      · obtain ⟨c, hc⟩ := freeHold_ring (v.modRing rid (fun r => { r with chainAt := none, chainLen := 0, chainWait := false, chainBad := false }))
          x.part rid
        rw [hc, State.modRing_ring_self, hring]
        exact ⟨⟨_, _, by rw [hmod]; rfl⟩, rfl, rfl, he⟩
      · rw [State.modRing_ring_self, hring]
        exact ⟨⟨_, _, by rw [hmod]; rfl⟩, rfl, rfl, he⟩
    · rw [State.modRing_ring_self, hring]
      exact ⟨⟨_, _, by rw [hmod]; rfl⟩, rfl, hn, he⟩
  obtain ⟨honly, hslot, hat, hst⟩ := hstore
  obtain ⟨h1, h2⟩ := arrived_of_store hx (d := d) (c := some first) (e := dLast d) rfl _ honly hslot
  refine ⟨hst, h1, ?_, ?_⟩ <;> rw [State.ring, h2]
  · exact hat
  · exact hst

include hx he in
/-- The first entry of a chain, while no chain of its partition holds the reservation (R116, R121). -/
theorem arrive_first {d : Bytes} (hn : (s.ring rid).chainAt = none) (hf : dFirst d = true) (hl : dLast d = false)
    (hh : tget s.adm.chainHold x.part = none) (ht : s.takePending x.part = false) :
    ((arrive s n rid x.part x.index d).ring rid).state = .enabled ∧
    Arrived n (x.arrived d (some x.index) false) s (issueAllReads (askReads (arrive s n rid x.part x.index d) n)) ∧
    (issueAllReads (askReads (arrive s n rid x.part x.index d) n)).ring rid =
      { s.ring rid with chainAt := some x.index, chainLen := 1, chainWait := true, chainBad := false } := by
  obtain ⟨a, hmod⟩ := State.modSlot_only s n (fun y => { y with desc := d, stage := .fetched, chain := some x.index, chainEnd := false })
  have harr : arrive s n rid x.part x.index d =
      (s.modSlot n (fun y => { y with desc := d, stage := .fetched, chain := some x.index, chainEnd := false })).modRing rid
        (fun r => { r with chainAt := some x.index, chainLen := 1, chainWait := r.state == .enabled, chainBad := false }) := by
    rw [arrive, hn]
    dsimp only
    rw [if_pos (by rw [hf, hl]; rfl), if_neg (by simp [hh, ht])]
  have hring : (arrive s n rid x.part x.index d).ring rid =
      { s.ring rid with chainAt := some x.index, chainLen := 1, chainWait := true, chainBad := false } := by
    rw [harr, State.modRing_ring_self, show (s.modSlot n _).ring rid = s.ring rid by rw [hmod]; rfl,
      show ((s.ring rid).state == .enabled) = true by rw [he]; rfl]
  obtain ⟨h1, h2⟩ := arrived_of_store hx (d := d) (c := some x.index) (e := false)
    (f := fun y => { y with desc := d, stage := .fetched, chain := some x.index, chainEnd := false }) rfl
    (arrive s n rid x.part x.index d) ⟨_, _, by rw [harr, hmod]; rfl⟩ (by rw [harr]; rfl)
  refine ⟨by rw [hring]; exact he, h1, ?_⟩
  rw [State.ring, h2]
  exact hring

/-- The descriptor once it has ended with a status. -/
def Slot.ended (x : Slot) (st : Status) (detail : Nat) : Slot := { x with
  stage := .done, changes := [], unit := none, owed := [], bufReads := 0
  res := some ⟨st, detail, 0, none, [], x.time24 / 24, 0⟩ }

/-! ### An arrival that breaks a check, and a read that failed -/

/-- A ring that stops toward ERROR at an entry of its own (R132). -/
structure StopsAt (rid index : Nat) (s u : State) : Prop where
  ring : (u.ring rid).state = .stopping ∧ (u.ring rid).settle = .error ∧ (u.ring rid).errCode = Status.malformed.code ∧
    (u.ring rid).latchLo = index
  work : WorkOnly s u

include he in
theorem malformed_stops (index off : Nat) : StopsAt rid index s (malformed s n rid index off) := by
  have hrings : (fail s n .malformed off).ring rid = s.ring rid := by
    obtain ⟨_, _, hf⟩ := ChainOnly.trans (.failChain s n) (.finish _ n .malformed off)
    rw [State.ring, fail, hf]
    rfl
  rw [malformed, if_pos he]
  refine ⟨?_, (WorkOnly.fail s n .malformed off).trans (.ringError _ rid .malformed index 0 (some index))⟩
  rw [ringError_ring_entry _ _ _ _ _ _ (hrings ▸ he)]
  exact ⟨rfl, rfl, rfl, rfl⟩

include hx he in
theorem malformed_ends (hs : tsorted s.adm.slots = true) (hch : x.chain = none) (off : Nat) : ∃ y,
    (malformed s n rid x.index off).slot n = some y ∧ y.stage = .done ∧ y.res = some ⟨.malformed, off, 0, none, [], x.time24 / 24, 0⟩ := by
  have hheld : HoldsAt n (x.ended .malformed off) (finish s n .malformed off) := by
    refine ⟨tsorted_modSlot n _ hs, ?_⟩
    rw [finish, State.modSlot_slot, if_pos rfl, hx]
    rfl
  rw [malformed, if_pos he, fail, failChain_alone hx hch]
  exact ⟨_, (HoldsAt.ringError hheld hch .malformed x.index 0).2, rfl, rfl⟩

end

/-- The state of a broken arrival once its bytes are stored (R109). -/
def brokenArrival (s : State) (n : Nat) (d : Bytes) : State :=
  (s.modSlot n (fun y => { y with desc := d })).modSlot n (fun y => { y with chain := none })

theorem brokenArrival_only (s : State) (n : Nat) (d : Bytes) : ∃ a, brokenArrival s n d = { s with adm := a } := by
  obtain ⟨a, ha⟩ := State.modSlot_only s n (fun y => { y with desc := d })
  obtain ⟨b, hb⟩ := State.modSlot_only { s with adm := a } n (fun y => { y with chain := none })
  exact ⟨b, by rw [brokenArrival, ha, hb]⟩

theorem exec_descriptorArrival_breaks {rid n off : Nat} {x : Slot} {data : Bytes} {s : State} (ha : s.awaited rid = some (n, x))
    (hc : x.cut = none) (hk : arrivalCheck s rid x.index (fit 128 data) = some off) (hn : (s.ring rid).chainAt = none)
    (he : (s.ring rid).state = .enabled) :
    exec (.descriptorArrival rid data) s = .next (malformed (brokenArrival s n (fit 128 data)) n rid x.index off) := by
  rw [dispatch_descriptorArrival, execDescriptorArrival]
  dsimp only
  rw [ha]
  dsimp only
  rw [hc]
  dsimp only
  rw [hk]
  dsimp only
  rw [if_pos he, hn]
  rfl

section
variable {rid n : Nat} {x : Slot} {s : State} (he : (s.ring rid).state = .enabled) (d : Bytes)
include he

theorem brokenArrival_stops (index off : Nat) : StopsAt rid index s (malformed (brokenArrival s n d) n rid index off) := by
  obtain ⟨a, ha⟩ := brokenArrival_only s n d
  have h := malformed_stops (s := brokenArrival s n d) (n := n) (rid := rid) (by rw [ha]; exact he) index off
  exact ⟨h.ring, ((WorkOnly.modSlot s n _).trans (.modSlot _ n _)).trans h.work⟩

theorem brokenArrival_ends (hx : s.slot n = some x) (hs : tsorted s.adm.slots = true) (off : Nat) : ∃ y,
    (malformed (brokenArrival s n d) n rid x.index off).slot n = some y ∧ y.stage = .done ∧
      y.res = some ⟨.malformed, off, 0, none, [], x.time24 / 24, 0⟩ := by
  obtain ⟨a, ha⟩ := brokenArrival_only s n d
  have hslot : (brokenArrival s n d).slot n = some { x with desc := d, chain := none } := by
    rw [brokenArrival, State.modSlot_slot, if_pos rfl, State.modSlot_slot, if_pos rfl, hx]
    rfl
  exact malformed_ends hslot (by rw [ha]; exact he) (tsorted_modSlot n _ (tsorted_modSlot n _ hs)) rfl off

end

/-- A ring that stops toward ERROR with MALFORMED, and what that leaves of the rest. -/
def StopsRing (rid : Nat) (s u : State) : Prop :=
  ((u.ring rid).state = .stopping ∧ (u.ring rid).settle = .error ∧ (u.ring rid).errCode = Status.malformed.code) ∧ WorkOnly s u

theorem StopsAt.stops {rid index : Nat} {s u : State} (h : StopsAt rid index s u) : StopsRing rid s u := by
  obtain ⟨⟨hst, hse, hcode, -⟩, hwork⟩ := h
  exact ⟨⟨hst, hse, hcode⟩, hwork⟩

theorem failOpenChains_discard_ring (s : State) (rid n : Nat) (f : Ring → Ring) :
    (failOpenChains (discard (s.modRing rid f) n) rid).ring rid = f (s.ring rid) := by
  rw [State.ring, failOpenChains_rings, discard_rings]
  exact State.modRing_ring_self s rid f

/-- The read of an entry itself failed: the ring stops at it, and the entry is discarded (R90, R132). -/
theorem entryFailed_stops {rid n index : Nat} {s : State} (he : (s.ring rid).state = .enabled) :
    StopsRing rid s (failOpenChains (discard ((ringError s rid .malformed index 0 (some index)).modRing rid
      (fun r => { r with chainBad := r.chainBad || r.chainAt.isSome })) n) rid) := by
  refine ⟨?_, ?_⟩
  · rw [failOpenChains_discard_ring, ringError_ring_entry _ _ _ _ _ _ he]
    exact ⟨rfl, rfl, rfl⟩
  · exact (((WorkOnly.ringError s rid .malformed index 0 (some index)).trans (.modRing _ rid _)).trans (.discard _ n)).trans
      (.failOpenChains _ rid)

/-- The flags and the latch of a function after a failed read (R90). -/
def Fn.readFailed (f : Fn) (addr : Nat) (timeout : Bool) : Fn := { f with
  readFault := f.readFault || !timeout, readTimeout := f.readTimeout || timeout
  errAddr := if f.readFault || f.readTimeout then f.errAddr else addr }

theorem readFailed_stops {n : Nat} {x : Slot} {s : State} (addr : Nat) (timeout : Bool) (hx : s.slot n = some x)
    (he : (s.ring x.rid).state = .enabled) : ∃ l, StopsRing x.rid
      { s with fns := tset s.fns (x.rid / 4096) ((s.fn (x.rid / 4096)).readFailed addr timeout), log := l } (readFailed s n addr timeout) := by
  obtain ⟨l, hl⟩ := logMain_only { s with fns := tset s.fns (x.rid / 4096) ((s.fn (x.rid / 4096)).readFailed addr timeout) }
    3 (0x0100 + x.rid / 4096) 0x0103 x.part (b2n timeout) (leBytes 8 addr)
  refine ⟨l, ?_⟩
  have hring : ∀ t : State, t = { s with fns := tset s.fns (x.rid / 4096) ((s.fn (x.rid / 4096)).readFailed addr timeout), log := l } →
      (t.ring x.rid).state = .enabled := by
    rintro _ rfl
    exact he
  have hst : readFailed s n addr timeout = (if x.stage = .reading then
      failOpenChains (discard ((ringError (logMain { s with fns := tset s.fns (x.rid / 4096) ((s.fn (x.rid / 4096)).readFailed addr timeout) }
        3 (0x0100 + x.rid / 4096) 0x0103 x.part (b2n timeout) (leBytes 8 addr)) x.rid .malformed x.index 0 (some x.index)).modRing x.rid
        (fun r => { r with chainBad := r.chainBad || r.chainAt.isSome })) n) x.rid
      else malformed (logMain { s with fns := tset s.fns (x.rid / 4096) ((s.fn (x.rid / 4096)).readFailed addr timeout) }
        3 (0x0100 + x.rid / 4096) 0x0103 x.part (b2n timeout) (leBytes 8 addr)) n x.rid x.index
          (if x.sgSrc.isNone && dSrcSg x.desc || !dDstSg x.desc || x.sgDst.isSome then 96 else 104)) := by
    unfold Machine.readFailed
    rw [hx]
    rfl
  rw [hst, hl]
  generalize hs2 : ({ s with fns := tset s.fns (x.rid / 4096) ((s.fn (x.rid / 4096)).readFailed addr timeout), log := l } : State) = s2
  have he2 := hring s2 hs2.symm
  split
  · exact entryFailed_stops he2
  · exact (malformed_stops he2 _ _).stops

end Sys2Proof.Machine

/-- Settles O2: what arrives is held as its ring has room for it, or stops its ring; so does a read that failed. -/
theorem arrivalChecksDescriptor : Obligations.ArrivalChecksDescriptor := by
  unfold Obligations.ArrivalChecksDescriptor
  refine ⟨fun rid n x data s ha hc hx hch hs he => ⟨fun hk => ⟨fun hn hd => ?_, fun first hn hb => ?_, fun hn hf hl hh ht => ?_⟩,
    fun off hn hk => ?_⟩, fun n addr x s hx he => ⟨?_, ?_⟩⟩
  · obtain ⟨hst, ⟨⟨o, k, hslot⟩, a, r, l, honly⟩, hrings⟩ := arrive_alone hx he hn hd hch
    rw [exec_descriptorArrival_passes ha hc hk hst]
    refine ⟨_, _, rfl, hslot, rfl, rfl, rfl, rfl, rfl, rfl, rfl, hrings, ?_, ?_, ?_, ?_, ?_, ?_⟩ <;> rw [honly]
  · obtain ⟨hst, ⟨⟨o, k, hslot⟩, a, r, l, honly⟩, hat, hst'⟩ := arrive_next hx he (d := fit 128 data) hn hb
    rw [exec_descriptorArrival_passes ha hc hk hst]
    refine ⟨_, _, rfl, hslot, rfl, rfl, rfl, rfl, hat, hst', ?_, ?_, ?_, ?_⟩ <;> rw [honly]
  · obtain ⟨hst, ⟨⟨o, k, hslot⟩, a, r, l, honly⟩, hring⟩ := arrive_first hx he hn hf hl hh ht
    rw [exec_descriptorArrival_passes ha hc hk hst]
    refine ⟨_, _, rfl, hslot, rfl, rfl, rfl, rfl, by rw [hring], by rw [hring], by rw [hring], ?_, ?_, ?_, ?_⟩ <;> rw [honly]
  · rw [exec_descriptorArrival_breaks ha hc hk hn he]
    obtain ⟨y, hslot, hdone, hres⟩ := brokenArrival_ends he (fit 128 data) hx hs off
    obtain ⟨⟨hst, hse, hcode, hlatch⟩, hw⟩ := brokenArrival_stops (n := n) he (fit 128 data) x.index off
    generalize malformed (brokenArrival s n (fit 128 data)) n rid x.index off = u at hslot hst hse hcode hlatch hw ⊢
    exact ⟨u, rfl, hst, hse, hcode, hlatch, ⟨y, hslot, hdone, hres⟩, hw.keys, hw.commit, hw.bus, hw.fns⟩
  · obtain ⟨l, ⟨hst, hse, hcode⟩, hw⟩ := readFailed_stops addr false hx he
    have hfn : (readFailed s n addr false).fn (x.rid / 4096) = (s.fn (x.rid / 4096)).readFailed addr false := by
      rw [State.fn, hw.fns, tgetD_tset_self]
    rw [dispatch_readFault, execReadFault]
    generalize readFailed s n addr false = u at hst hse hcode hw hfn ⊢
    refine ⟨u, rfl, ?_, ?_, ?_, hst, hse, hcode, hw.keys, hw.commit, hw.bus⟩ <;> rw [hfn] <;> simp [Fn.readFailed]
  · obtain ⟨l, ⟨hst, hse, hcode⟩, hw⟩ := readFailed_stops addr true hx he
    have hfn : (readFailed s n addr true).fn (x.rid / 4096) = (s.fn (x.rid / 4096)).readFailed addr true := by
      rw [State.fn, hw.fns, tgetD_tset_self]
    rw [dispatch_readTimeout, execReadTimeout]
    generalize readFailed s n addr true = u at hst hse hcode hw hfn ⊢
    refine ⟨u, rfl, ?_, ?_, ?_, hst, hse, hcode, hw.keys, hw.commit, hw.bus⟩ <;> rw [hfn] <;> simp [Fn.readFailed]
end

section
open Sys2Proof.Machine

/-! SUPPORT. What binding a descriptor's keys leaves of the key cache (R32, R109, R149, R168, R178, R181, R182). -/

namespace Sys2Proof.Machine

/-- A descriptor gets a lane, or stays without one (R302). -/
theorem chooseLane_eq (s : State) (n : Nat) (x : Slot) : ∃ f l, chooseLane s n x = s ∨
    chooseLane s n x = { s with free := f }.modSlot n (fun y => { y with lane := some l }) := by
  unfold chooseLane
  split
  · exact ⟨0, 0, .inl rfl⟩
  · exact ⟨s.free, _, .inr rfl⟩
  · exact ⟨_, _, .inr rfl⟩

/-- Binding keeps what the cache holds, but for when it was last used; the key records, the commit queue and the host's view stand. -/
structure CacheKept (s t : State) : Prop where
  cache : ∀ k e, tget s.keys.cache k = some e → ∃ u, tget t.keys.cache k = some { e with use := u }
  recs : t.keys.recs = s.keys.recs
  commit : t.commit = s.commit
  bus : t.bus = s.bus

namespace CacheKept

theorem of_keys {s t : State} (h : t.keys = s.keys) (hc : t.commit = s.commit) (hb : t.bus = s.bus) : CacheKept s t :=
  ⟨fun k e he => ⟨e.use, by rw [h]; exact he⟩, by rw [h], hc, hb⟩

theorem refl (s : State) : CacheKept s s := of_keys rfl rfl rfl

theorem trans {a b c : State} (h : CacheKept a b) (h' : CacheKept b c) : CacheKept a c := by
  refine ⟨fun k e he => ?_, h'.recs.trans h.recs, h'.commit.trans h.commit, h'.bus.trans h.bus⟩
  obtain ⟨u, hu⟩ := h.cache k e he
  obtain ⟨v, hv⟩ := h'.cache k _ hu
  exact ⟨v, hv⟩

theorem fold {α : Type} {g : State → α → State} (hg : ∀ t a, CacheKept t (g t a)) (l : List α) (s : State) : CacheKept s (l.foldl g s) :=
  foldl_rel refl (fun _ _ _ => trans) g hg l s

theorem of_work {s t : State} (h : WorkOnly s t) : CacheKept s t := of_keys h.keys h.commit h.bus

theorem modSlot (s : State) (n : Nat) (f : Slot → Slot) : CacheKept s (s.modSlot n f) := of_work (.modSlot s n f)

theorem fail (s : State) (n : Nat) (st : Status) (d : Nat) : CacheKept s (fail s n st d) := of_work (.fail s n st d)

theorem chooseLane (s : State) (n : Nat) (x : Slot) : CacheKept s (chooseLane s n x) := by
  obtain ⟨f, l, h⟩ := chooseLane_eq s n x
  rcases h with h | h <;> rw [h]
  · exact refl s
  · exact (of_keys (s := s) (t := { s with free := f }) rfl rfl rfl).trans (modSlot _ n _)

theorem touchCache (s : State) (k : Nat) : CacheKept s (touchCache s k) := by
  refine ⟨fun j e he => ?_, rfl, rfl, rfl⟩
  unfold Machine.touchCache
  dsimp only
  rw [tget_tmap, he, Option.map_some]
  split
  · exact ⟨_, rfl⟩
  · exact ⟨e.use, rfl⟩

theorem takePage {s t : State} {n lane p : Nat} {k : Bound} (h : takePage s n lane p k = some t) : CacheKept s t := by
  unfold Machine.takePage at h
  obtain ⟨o, -, rfl⟩ := Option.map_eq_some_iff.mp h
  dsimp only
  refine trans ?_ (modSlot _ n _)
  exact ⟨fun j e he => ⟨e.use, he⟩, rfl, rfl, rfl⟩

theorem takePages {n lane p : Nat} {s t : State} {l : List Bound} (h : takePages s n lane p l = some t) : CacheKept s t := by
  induction l generalizing s with
  | nil =>
    cases h
    exact refl _
  | cons k r ih =>
    obtain ⟨u, hu, hr⟩ := Option.bind_eq_some_iff.mp h
    exact (takePage hu).trans (ih hr)

theorem loadPage (s : State) (n : Nat) : CacheKept s (loadPage s n) := by
  unfold Machine.loadPage
  split
  · exact refl s
  · split
    · exact refl s
    · extract_lets t
      have ht : CacheKept s t := by
        simp only [t]
        split
        · exact chooseLane s n _
        · exact refl s
      split
      · exact ht
      · next l _ =>
        cases hp : Machine.takePages t n l _ (t.unpaged _ l) with
        | none => exact ht
        | some u => exact ht.trans (takePages hp)

theorem reserveCounter {s t : State} {slot tag last v : Nat} {next : Nat → Option Nat} (h : reserveCounter s slot tag last next = .got t v) :
    ∃ r, t = { s with resv := r } := by
  unfold Machine.reserveCounter at h
  dsimp only at h
  split at h
  · cases h
  · split at h
    · cases h
    · cases h
      exact ⟨_, rfl⟩

theorem reserveOrigin {s t : State} {d : Bytes} {slot v : Nat} {r : Rec} (h : reserveOrigin s d slot r = .got t v) :
    ∃ q, t = { s with resv := q } := by
  unfold Machine.reserveOrigin at h
  dsimp only at h
  generalize (!idClean d (dkId d 80) || _) = c at h
  cases c with
  | true => cases h
  | false =>
    cases ho : Machine.reserveCounter s slot (idTag (dkId d 80)) (counterLast r.counter) (nextCounter (dkTdes d)) with
    | got u w =>
      rw [ho] at h
      obtain ⟨q, rfl⟩ := reserveCounter ho
      cases h
      exact ⟨_, rfl⟩
    | wait => rw [ho] at h; cases h
    | early st d => rw [ho] at h; cases h

theorem reserveAtc {s t : State} {n p slot v : Nat} {x : Slot} (h : reserveAtc s n p slot x = .got t v) :
    ∃ q, t = { s with atcResv := q } := by
  unfold Machine.reserveAtc at h
  dsimp only at h
  split at h
  · cases h
  · split at h
    · split at h
      · cases h; exact ⟨_, rfl⟩
      · cases h
    · split at h
      · cases h
      · split at h
        · cases h
        · split at h
          · cases h
          · cases h; exact ⟨_, rfl⟩

/-- A reservation takes its entry in one of the reservation tables. -/
theorem reserveAt {s t : State} {n slot v : Nat} {x : Slot} {r : Rec} (h : reserveAt s n x slot r = some (.got t v)) : CacheKept s t := by
  unfold Machine.reserveAt at h
  dsimp only at h
  split at h
  · obtain ⟨q, rfl⟩ := reserveOrigin (Option.some.inj h)
    exact of_keys rfl rfl rfl
  · split at h
    · obtain ⟨q, rfl⟩ := reserveCounter (Option.some.inj h)
      exact of_keys rfl rfl rfl
    · split at h
      · obtain ⟨q, rfl⟩ := reserveAtc (Option.some.inj h)
        exact of_keys rfl rfl rfl
      · cases h

theorem bindOne {s t : State} {n pos : Nat} {x : Slot} {r : Rec} (h : bindOne s n x pos r = some t) : CacheKept s t := by
  unfold Machine.bindOne at h
  dsimp only at h
  split at h
  · cases h; exact modSlot s n _
  · cases h
  · cases h; exact modSlot s n _
  · next u v hr =>
    cases h
    split at hr
    · exact (reserveAt hr).trans (modSlot u n _)
    · cases hr

theorem bound (s : State) (n : Nat) (x : Slot) : CacheKept s (bound s n x) := by
  have hfree : CacheKept s (freeLoaded s x) := of_keys rfl rfl rfl
  unfold Machine.bound
  split
  · exact hfree.trans (fail _ n _ _)
  · split
    · exact hfree.trans (of_work (.malformed _ n _ _ _))
    · extract_lets t
      have ht : CacheKept s t := modSlot s n _
      split
      · exact ht.trans (chooseLane t n x)
      · exact ht

theorem bindKeys (s : State) (n : Nat) (seen : Option (Nat × Option Rec)) (fuel : Nat) : CacheKept s (bindKeys s n seen fuel) := by
  induction fuel generalizing s with
  | zero => exact refl s
  | succ fuel ih =>
    unfold Machine.bindKeys
    split
    · exact refl s
    · next x _ =>
      split
      · exact bound s n x
      · next pos _ =>
        dsimp only
        split
        · exact fail s n _ _
        · split
          · exact fail s n _ _
          · split
            · exact (modSlot s n (fun y => { y with stage := .missWait })).trans ⟨fun j e he => ⟨e.use, he⟩, rfl, rfl, rfl⟩
            · split
              · exact refl s
              · split
                · next r _ =>
                  cases hb : Machine.bindOne (Machine.touchCache s (hSlot (dKey x.desc pos))) n x pos r with
                  | none => exact modSlot s n _
                  | some t => exact (((touchCache s _).trans (bindOne hb)).trans (loadPage t n)).trans (ih _)
                · exact fail s n _ _

end CacheKept

/-! ### The end of a cache miss -/

/-- The unwrap of a record is no longer under way. -/
def unwrapEnded (s : State) (k : Nat) : State := { s with keys := { s.keys with unwrap := s.keys.unwrap.filter (· != k) } }

theorem exec_keyCacheMissDone_eq {n k : Nat} {x : Slot} {s : State} (hx : s.slot n = some x) (hst : x.stage = .missWait)
    (hm : x.missing = some k) : exec (.keyCacheMissDone n) s = .next (((insertUnwrapped (unwrapEnded s k) k).missWaiters k).foldl
      (fun t m => bindKeys t m (some (k, s.unwrapOf k)) 4) (insertUnwrapped (unwrapEnded s k) k)) := by
  rw [dispatch_keyCacheMissDone, execKeyCacheMissDone, hx]
  dsimp only
  rw [if_neg (by simp [hst]), hm]
  rfl

/-- A record that unwraps and still serves enters the cache where its set has room (R168, R181). -/
theorem insertUnwrapped_enters {k : Nat} {r : Rec} {s : State} (hr : s.unwrapOf k = some r) (hl : s.lives r = true)
    (hc : (s.cacheSet r.part k).length < 16) : insertUnwrapped (unwrapEnded s k) k = putCache (unwrapEnded s k) k r := by
  unfold insertUnwrapped
  rw [show (unwrapEnded s k).unwrapOf k = some r from hr]
  dsimp only
  rw [if_pos (show (unwrapEnded s k).lives r = true from hl), insertCache,
    if_pos (show ((unwrapEnded s k).cacheSet r.part k).length < 16 from hc)]

/-- A record that cannot be read enters no cache (R182). -/
theorem insertUnwrapped_unreadable {k : Nat} {s : State} (h : ∀ r, s.rcd k = some r → r.readable = false) :
    s.unwrapOf k = none ∧ insertUnwrapped (unwrapEnded s k) k = unwrapEnded s k := by
  have hn : s.unwrapOf k = none := by
    rw [State.unwrapOf]
    cases hr : s.rcd k with
    | none => rfl
    | some r => rw [Option.bind_some, if_neg (by simp [h r hr])]
  refine ⟨hn, ?_⟩
  unfold insertUnwrapped
  rw [show (unwrapEnded s k).unwrapOf k = none from hn]
  dsimp only
  have hs : (unwrapEnded s k).sivFails k = false := by
    rw [State.sivFails]
    change (s.rcd k).any _ = false
    cases hr : s.rcd k with
    | none => rfl
    | some r => simp [h r hr]
  rw [if_neg (by simp [hs])]

/-! ### Binding -/

section
variable {n : Nat} {x : Slot} {s : State} (hx : s.slot n = some x) (hst : x.stage = .fetched) (hf : s.fenced x = false)
  (hc : s.chainReady x = true) (hcut : x.cut = none)
  (hb : bindsAfterSrc x.desc = true → buffersReady x.desc x.sgSrc x.sgDst x.src = true)
include hx hst hf hc hcut hb

/-- A descriptor that may bind is looked at in this order (R109, R149, R178). -/
theorem exec_keyBind_eq : exec (.keyBind n) s = .next (
    if !opcodes.contains (opcode x.desc) || (isRaw (opcode x.desc) && s.quota x.part 0x0F == 0) then fail s n .badOpcode 0
    else if opcode x.desc ≠ 0 ∧ s.seam.quarantine ≠ 0 then fail s n .notActive 0
    else if namesKey x.desc && (s.part x.part).key != .active then fail s n .notActive 0
    else bindKeys s n none 4) := by
  rw [dispatch_keyBind, execKeyBind, hx]
  dsimp only
  have hbuf : (bindsAfterSrc x.desc && !buffersReady x.desc x.sgSrc x.sgDst x.src) = false := by
    cases h : bindsAfterSrc x.desc with
    | false => rfl
    | true => rw [hb h]; rfl
  rw [if_neg (by simp [hst, hf, hc, hcut]), hbuf, if_neg (by decide)]

theorem exec_keyBind_binds (ho : opcodes.contains (opcode x.desc) = true) (hq : isRaw (opcode x.desc) = true → s.quota x.part 0x0F ≠ 0)
    (h0 : opcode x.desc = 0 ∨ s.seam.quarantine = 0) (hk : namesKey x.desc = true → (s.part x.part).key = .active) :
    exec (.keyBind n) s = .next (bindKeys s n none 4) := by
  rw [exec_keyBind_eq hx hst hf hc hcut hb, if_neg, if_neg, if_neg]
  · rw [Bool.and_eq_true, bne_iff_ne]
    exact fun h => h.2 (hk h.1)
  · exact fun h => h0.elim h.1 h.2
  · rw [ho, Bool.not_true, Bool.false_or, Bool.and_eq_true, beq_iff_eq]
    exact fun h => hq h.1 h.2

end

/-- A descriptor without keys to bind is bound with its steps and the policies in force (R32). -/
theorem bindKeys_keyless {n fuel : Nat} {x : Slot} {s : State} (hx : s.slot n = some x) (hp : keyPositions x.desc = []) (hk : x.keys = [])
    (hw : wholeBlocks x = none) : ∃ l f a, bindKeys s n none (fuel + 1) = { s with free := f, adm := a } ∧
      (∀ m, m ≠ n → (bindKeys s n none (fuel + 1)).slot m = s.slot m) ∧ (bindKeys s n none (fuel + 1)).slot n = some { x with
        stage := .bound, steps := stepsOf x, policy := s.policyEntry x.part 0x0C, dec := s.decTable x.part x.desc
        hardDef := s.policyEntry x.part 6 == 1, lane := l } := by
  rw [bindKeys, hx]
  dsimp only
  rw [hp, List.find?_nil]
  dsimp only
  unfold bound
  rw [show s.rechecked x = none by rw [State.rechecked, hk]; rfl, hw]
  dsimp only
  have hstore : ∀ f : Slot → Slot, (s.modSlot n f).slot n = some (f x) := fun f => by rw [State.modSlot_slot, if_pos rfl, hx]; rfl
  have hother : ∀ (t : State) (f : Slot → Slot) (m : Nat), m ≠ n → (t.modSlot n f).slot m = t.slot m := fun t f m hm => by
    rw [State.modSlot_slot, if_neg hm]
  generalize hg : s.modSlot n _ = t
  have htslot := hstore (fun y => { y with
    stage := .bound, steps := stepsOf y, policy := s.policyEntry x.part 0x0C, dec := s.decTable x.part x.desc
    hardDef := s.policyEntry x.part 6 == 1 })
  rw [hg] at htslot
  have htother : ∀ m, m ≠ n → t.slot m = s.slot m := fun m hm => by rw [← hg]; exact hother s _ m hm
  obtain ⟨a, ha⟩ : ∃ a, t = { s with adm := a } := by rw [← hg]; exact State.modSlot_only s n _
  have hlane : ∀ (u : State) (l : Option Nat), u.slot n = t.slot n →
      (u.modSlot n (fun y => { y with lane := l })).slot n = some { x with
        stage := .bound, steps := stepsOf x, policy := s.policyEntry x.part 0x0C, dec := s.decTable x.part x.desc
        hardDef := s.policyEntry x.part 6 == 1, lane := l } := fun u l hu => by
    rw [State.modSlot_slot, if_pos rfl, hu, htslot]
    rfl
  split
  · obtain ⟨f, l, h⟩ := chooseLane_eq t n x
    rcases h with h | h <;> rw [h]
    · exact ⟨x.lane, s.free, a, ha, htother, htslot⟩
    · obtain ⟨b, hbm⟩ := State.modSlot_only { t with free := f } n (fun y => { y with lane := some l })
      refine ⟨some l, f, b, by rw [hbm, ha], fun m hm => ?_, hlane { t with free := f } (some l) rfl⟩
      exact (hother { t with free := f } _ m hm).trans (htother m hm)
  · exact ⟨x.lane, s.free, a, ha, htother, htslot⟩

end Sys2Proof.Machine

/-- Settles O4: the order of the checks, a descriptor without keys, and what the end of an unwrap brings into the cache. -/
theorem keyBindDecides : Obligations.KeyBindDecides := by
  unfold Obligations.KeyBindDecides
  refine ⟨fun n x s hx hst hf hc hcut hb => ⟨fun ho hq h0 hk => ?_, fun ho => ?_, fun ho hr hq hn hk => ?_⟩,
    fun n k x s hx hst hm => ⟨fun r hr hl hset => ?_, fun h => ?_⟩⟩
  · rw [exec_keyBind_binds hx hst hf hc hcut hb ho hq h0 hk]
    refine ⟨fun _ => rfl, fun hp hw hkeys => ?_⟩
    obtain ⟨l, f, a, honly, hother, hslot⟩ := bindKeys_keyless (fuel := 3) hx hp hkeys hw
    generalize bindKeys s n none 4 = u at honly hother hslot
    refine ⟨u, _, rfl, hslot, rfl, rfl, rfl, rfl, rfl, rfl, hkeys, hother, ?_, ?_, ?_, ?_⟩ <;> rw [honly]
  · rw [exec_keyBind_eq hx hst hf hc hcut hb, ho]
    rfl
  · rw [exec_keyBind_eq hx hst hf hc hcut hb, ho, hr, if_neg (by simp), if_neg (fun h => h.2 hq), hn, if_pos (by simpa using hk)]
  · rw [exec_keyCacheMissDone_eq hx hst hm, insertUnwrapped_enters hr hl hset]
    have hkept := CacheKept.fold (fun t m => CacheKept.bindKeys t m (some (k, s.unwrapOf k)) 4)
      ((putCache (unwrapEnded s k) k r).missWaiters k) (putCache (unwrapEnded s k) k r)
    obtain ⟨u, hu⟩ := hkept.cache k ⟨r.part, s.keys.useClock + 1, r⟩ (tget_tset_self ..)
    exact ⟨_, _, rfl, hu, rfl, rfl, hkept.recs, hkept.commit, hkept.bus⟩
  · obtain ⟨hn, hi⟩ := insertUnwrapped_unreadable h
    rw [exec_keyCacheMissDone_eq hx hst hm, hi, hn]
    rfl
end

section
open Sys2Proof.Machine

/-! SUPPORT. An operation that ends on a Hawkmoth engine or a Plume unit, and one whose two passes differ (R330, R356, R361). -/

namespace Sys2Proof.Machine

/-! ### What leaving a queue changes of an engine -/

/-- Between the two states only engines changed. -/
def EnginesOnly (s t : State) : Prop := ∃ l, t = { s with units := { s.units with engines := l } }

namespace EnginesOnly

theorem refl (s : State) : EnginesOnly s s := ⟨_, rfl⟩

theorem trans {a b c : State} (h : EnginesOnly a b) (h' : EnginesOnly b c) : EnginesOnly a c := by
  obtain ⟨_, rfl⟩ := h
  obtain ⟨_, rfl⟩ := h'
  exact ⟨_, rfl⟩

theorem modEngine (s : State) (e : Nat) (f : Engine → Engine) : EnginesOnly s (s.modEngine e f) := ⟨_, rfl⟩

theorem startEngine (s : State) (e : Nat) : EnginesOnly s (startEngine s e) := by
  unfold Machine.startEngine
  split
  · exact refl s
  · split
    · exact modEngine s e _
    · split
      · exact refl s
      · exact modEngine s e _

theorem unqueue (s : State) (n e : Nat) : EnginesOnly s (unqueue s n (.hawkmoth, e)) := (modEngine s e _).trans (startEngine _ e)

theorem slot {s t : State} (h : EnginesOnly s t) (n : Nat) : t.slot n = s.slot n := by
  obtain ⟨_, rfl⟩ := h; rfl

theorem keys {s t : State} (h : EnginesOnly s t) : t.keys = s.keys := by
  obtain ⟨_, rfl⟩ := h; rfl

theorem commit {s t : State} (h : EnginesOnly s t) : t.commit = s.commit := by
  obtain ⟨_, rfl⟩ := h; rfl

end EnginesOnly

/-- What the front of its queue leaves in an engine's memory (R357). -/
theorem startEngine_engine (s : State) (e k : Nat) : ∃ b w, (startEngine s e).engine k = { s.engine k with bank := b, window := w } := by
  have hmod : ∀ b w, ∃ b' w', (s.modEngine e (fun g => { g with bank := b, window := w })).engine k =
      { s.engine k with bank := b', window := w' } := by
    intro b w
    rw [State.modEngine_engine]
    split
    · next h => subst h; exact ⟨_, _, rfl⟩
    · exact ⟨_, _, rfl⟩
  unfold startEngine
  split
  · exact ⟨_, _, rfl⟩
  · split
    · exact hmod _ _
    · split
      · exact ⟨_, _, rfl⟩
      · exact hmod _ _

/-- A descriptor that leaves an engine's queue. -/
theorem unqueue_engine (s : State) (n e : Nat) : ∃ b w, (unqueue s n (.hawkmoth, e)).engine e =
    { s.engine e with queue := (s.engine e).queue.filter (· != n), bank := b, window := w } := by
  obtain ⟨b, w, h⟩ := startEngine_engine (s.modEngine e (fun x => { x with queue := x.queue.filter (· != n) })) e e
  exact ⟨b, w, h.trans (by rw [State.modEngine_engine_self])⟩

theorem filter_front {n : Nat} {l q : List Nat} (h : l = n :: q) : l.filter (· != n) = q.filter (· != n) := by
  rw [h]
  simp

/-! ### An operation that has run -/

/-- The operation counted, and off its engine's queue. -/
def opCounted (s : State) (n e : Nat) : State :=
  (unqueue s n (.hawkmoth, e)).modEngine e (fun g => { g with commands := min (2 ^ 64 - 1) (g.commands + 1), lastUs := s.opUs })

/-- Its blinding pair used, where it is an RSA operation with a secret exponent (R353). -/
def opBlinded (s : State) (n e : Nat) (x : Slot) : State :=
  if rsaPrivOp x then (opCounted s n e).modEngine e (fun g => useBlind g x s.opUs) else opCounted s n e

theorem opBlinded_only (s : State) (n e : Nat) (x : Slot) : EnginesOnly s (opBlinded s n e x) := by
  have h : EnginesOnly s (opCounted s n e) := (EnginesOnly.unqueue s n e).trans (.modEngine _ e _)
  unfold opBlinded
  split
  · exact h.trans (.modEngine _ e _)
  · exact h

theorem useBlind_eq (g : Engine) (x : Slot) (now : Nat) : ∃ b, useBlind g x now = { g with blind := b } := by
  unfold useBlind
  split
  · exact ⟨_, rfl⟩
  · exact ⟨_, rfl⟩

theorem opBlinded_engine (s : State) (n e : Nat) (x : Slot) : ∃ b w l, (opBlinded s n e x).engine e =
    { s.engine e with
      queue := (s.engine e).queue.filter (· != n), bank := b, window := w
      commands := min (2 ^ 64 - 1) ((s.engine e).commands + 1), lastUs := s.opUs, blind := l } := by
  obtain ⟨b, w, hu⟩ := unqueue_engine s n e
  have hc : (opCounted s n e).engine e = { s.engine e with
      queue := (s.engine e).queue.filter (· != n), bank := b, window := w
      commands := min (2 ^ 64 - 1) ((s.engine e).commands + 1), lastUs := s.opUs } := by
    rw [opCounted, State.modEngine_engine_self, hu]
  unfold opBlinded
  split
  · obtain ⟨l, hl⟩ := useBlind_eq ((opCounted s n e).engine e) x s.opUs
    exact ⟨b, w, l, by rw [State.modEngine_engine_self, hl, hc]⟩
  · exact ⟨b, w, _, hc⟩

/-- An operation at the front of its engine's queue, neither cut nor ended, has run. -/
theorem exec_hawkmothOpDone_runs {s : State} {e n : Nat} {q : List Nat} {x : Slot} (agree : Bool) (hx : s.slot n = some x) (hcut : x.cut = none)
    (hends : x.ends = none) (hq : (s.engine e).queue = n :: q) (hst : (s.engine e).st ≠ .inReset)
    (hraw : isRaw (opcode x.desc) = true → s.holdsSession x = true)
    (hran : ∀ p ∈ s.adm.slots, p.2.stage = .ran → p.2.unit ≠ some (.hawkmoth, e)) :
    exec (.hawkmothOpDone e agree) s = .next (if compared x && !agree then passesDiffer (opBlinded s n e x) n (.hawkmoth, e)
      else engineDone (opBlinded s n e x) e n x (blindTime s e x)) := by
  have hany : (tvals s.adm.slots).any (fun y => y.stage == .ran && y.unit == some (.hawkmoth, e)) = false := by
    refine List.any_eq_false.mpr fun y hy h => ?_
    obtain ⟨p, hp, rfl⟩ := List.mem_map.mp hy
    simp only [Bool.and_eq_true, beq_iff_eq] at h
    exact hran p hp h.1 h.2
  have hses : (isRaw (opcode x.desc) && !s.holdsSession x) = false := by
    cases hr : isRaw (opcode x.desc) with
    | false => rfl
    | true => simp [hraw hr]
  rw [dispatch_hawkmothOpDone, execHawkmothOpDone, hq]
  dsimp only
  rw [hx]
  dsimp only
  rw [hany, hends, if_neg (by simp [hst, hcut]), hses]
  rfl

/-- The operation counted, and off its unit's queue. -/
def plumeCounted (s : State) (n p : Nat) : State :=
  (unqueue s n (.plume, p)).modPlume p (fun g => { g with ops := min (2 ^ 64 - 1) (g.ops + 1) })

theorem plumeCounted_plume (s : State) (n p : Nat) : ∃ m, (plumeCounted s n p).plume p =
    { s.plume p with queue := (s.plume p).queue.filter (· != n), mem := m, ops := min (2 ^ 64 - 1) ((s.plume p).ops + 1) } := by
  rw [plumeCounted, unqueue, startPlume]
  simp only [State.modPlume_plume_self]
  exact ⟨_, rfl⟩

theorem exec_plumeOpDone_runs {s : State} {p n : Nat} {q : List Nat} {x : Slot} (agree : Bool) (hx : s.slot n = some x) (hcut : x.cut = none)
    (hends : x.ends = none) (hq : (s.plume p).queue = n :: q) (hst : (s.plume p).st ≠ .inReset) :
    exec (.plumeOpDone p agree) s = .next (if compared x && !agree then passesDiffer (plumeCounted s n p) n (.plume, p)
      else stepEnd (plumeCounted s n p) n x) := by
  rw [dispatch_plumeOpDone, execPlumeOpDone, hq]
  dsimp only
  rw [hx]
  dsimp only
  rw [hends, if_neg (by simp [hst, hcut])]
  rfl

/-! ### Two passes that differ -/

/-- An alarm below ERASE leaves the units, the DRS zeroed only above it (R437). -/
theorem cocoonAlarm_below {cls : AlarmClass} (h : ¬ 4 ≤ cls.code) (s : State) (flag reading : Nat) :
    ∃ l e tm, cocoonAlarm s flag cls reading = { s with log := l, eic := e, tamper := tm } := by
  obtain ⟨l, r, p, hr⟩ := alarmRecord_only s flag cls reading
  obtain ⟨e, he⟩ := raise_only (alarmRecord s flag cls reading) (1280 + flag)
  rw [hr] at he
  unfold cocoonAlarm
  rw [hr, he]
  dsimp only
  rw [if_neg h]
  exact ⟨_, _, _, rfl⟩

/-- A mismatch with no other within 60 s latches its flag and notes its time; its class is below HALT. -/
theorem mismatch_only {s : State} (h : s.units.mismatch2 = none) : ∃ l e tm, mismatch s =
    { s with
      log := l, eic := e, tamper := tm
      units := { s.units with mismatch2 := s.units.mismatch1, mismatch1 := some s.opUs } } := by
  have hcls : mismatch s = cocoonAlarm
      { s with units := { s.units with mismatch2 := s.units.mismatch1, mismatch1 := some s.opUs } } 154 .alert 0 := by
    unfold mismatch
    rw [h]
    exact mainResponse_untaken (cls := .alert) _ (.inr (.inr (by decide)))
  rw [hcls]
  exact cocoonAlarm_below (by decide) _ _ _

/-- A descriptor outside a chain ended without a result (R356). -/
def Slot.Faulted (y : Slot) : Prop :=
  y.stage = .done ∧ y.changes = [] ∧ ∃ r, y.res = some r ∧ r.status = .faultDetected ∧ r.inline_ = none ∧ r.dst = []

theorem fail_faulted {s : State} {n : Nat} {x : Slot} (hx : s.slot n = some x) (hc : x.chain = none) :
    ∃ y, (fail s n .faultDetected 0).slot n = some y ∧ y.Faulted ∧ (fail s n .faultDetected 0).units = s.units ∧
      (fail s n .faultDetected 0).keys = s.keys ∧ (fail s n .faultDetected 0).commit = s.commit := by
  rw [fail, failChain_alone hx hc]
  have hy := State.modSlot_slot_self s n (fun x =>
    { x with stage := .done, changes := [], unit := none, owed := [], bufReads := 0,
             res := some ⟨.faultDetected, 0, 0, none, [], x.time24 / 24, 0⟩ })
  rw [hx] at hy
  exact ⟨_, hy, ⟨rfl, rfl, _, rfl, rfl, rfl, rfl⟩, finish_units .., finish_keys .., finish_commit ..⟩

/-- An engine whose operation did not compare: zeroed, in its self-test. -/
def Engine.OnTest (g : Engine) : Prop := g.st = .inReset ∧ g.bank = [] ∧ g.window = none

/-- The engine as a mismatch zeroes it, its session closed. -/
def engineZeroed (s : State) (e : Nat) : State :=
  closeEngine (s.modEngine e (fun g => { g.zeroed with mismatches := min 0xFFFFFFFF (g.mismatches + 1) })) e

theorem engineZeroed_zero (s : State) (e : Nat) : ((engineZeroed s e).engine e).bank = [] ∧ ((engineZeroed s e).engine e).window = none := by
  unfold engineZeroed closeEngine
  rw [State.modEngine_engine_self]
  split
  · exact ⟨rfl, rfl⟩
  · rw [State.modEngine_engine_self]
    exact ⟨rfl, rfl⟩

theorem passesDiffer_hawkmoth {s : State} {n e : Nat} {x : Slot} (hx : s.slot n = some x) (hc : x.chain = none)
    (h2 : s.units.mismatch2 = none) : ∃ y, (passesDiffer s n (.hawkmoth, e)).slot n = some y ∧ y.Faulted ∧
      ((passesDiffer s n (.hawkmoth, e)).engine e).OnTest ∧ (passesDiffer s n (.hawkmoth, e)).keys = s.keys ∧
      (passesDiffer s n (.hawkmoth, e)).commit = s.commit := by
  have hp : passesDiffer s n (.hawkmoth, e) =
      fail ((mismatch (engineZeroed s e)).modEngine e (fun g => { g with st := .inReset })) n .faultDetected 0 := rfl
  have hz : EnginesOnly s (engineZeroed s e) := (EnginesOnly.modEngine s e _).trans (.modEngine _ e _)
  obtain ⟨hb, hw⟩ := engineZeroed_zero s e
  obtain ⟨l, v, tm, hm⟩ := mismatch_only (s := engineZeroed s e) (by obtain ⟨_, hz⟩ := hz; rw [hz]; exact h2)
  rw [hp, hm]
  have hsl := (hz.slot n).trans hx
  have hk := hz.keys
  have hcm := hz.commit
  generalize engineZeroed s e = t at *
  obtain ⟨y, hy, hf, hu, hkeys, hcommit⟩ := fail_faulted
    (s := ({ t with log := l, eic := v, tamper := tm, units := { t.units with mismatch2 := t.units.mismatch1, mismatch1 := some t.opUs } } :
      State).modEngine e (fun g => { g with st := .inReset })) (n := n) hsl hc
  refine ⟨y, hy, hf, ?_, hkeys.trans hk, hcommit.trans hcm⟩
  rw [State.engine, hu, ← State.engine, State.modEngine_engine_self]
  exact ⟨rfl, hb, hw⟩

theorem passesDiffer_plume {s : State} {n p : Nat} {x : Slot} (hx : s.slot n = some x) (hc : x.chain = none)
    (h2 : s.units.mismatch2 = none) : ∃ y, (passesDiffer s n (.plume, p)).slot n = some y ∧ y.Faulted ∧
      ((passesDiffer s n (.plume, p)).plume p).st = .inReset ∧ ((passesDiffer s n (.plume, p)).plume p).mem = none ∧
      (passesDiffer s n (.plume, p)).keys = s.keys ∧ (passesDiffer s n (.plume, p)).commit = s.commit := by
  have hp : passesDiffer s n (.plume, p) =
      fail ((mismatch (s.modPlume p (fun g => { g with mem := none, mismatches := min 0xFFFFFFFF (g.mismatches + 1) }))).modPlume p
        (fun g => { g with st := .inReset })) n .faultDetected 0 := rfl
  have hmem : ((s.modPlume p (fun g => { g with mem := none, mismatches := min 0xFFFFFFFF (g.mismatches + 1) })).plume p).mem = none := by
    rw [State.modPlume_plume_self]
  obtain ⟨l, v, tm, hm⟩ := mismatch_only
    (s := s.modPlume p (fun g => { g with mem := none, mismatches := min 0xFFFFFFFF (g.mismatches + 1) })) h2
  rw [hp, hm]
  obtain ⟨u, hu⟩ : ∃ u, s.modPlume p (fun g => { g with mem := none, mismatches := min 0xFFFFFFFF (g.mismatches + 1) }) =
      { s with units := u } := ⟨_, rfl⟩
  rw [hu] at hmem ⊢
  obtain ⟨y, hy, hf, hunits, hkeys, hcommit⟩ := fail_faulted
    (s := ({ s with log := l, eic := v, tamper := tm, units := { u with mismatch2 := u.mismatch1, mismatch1 := some s.opUs } } : State).modPlume
      p (fun g => { g with st := .inReset })) (n := n) hx hc
  have hpl : ((fail (({ s with log := l, eic := v, tamper := tm, units := { u with mismatch2 := u.mismatch1, mismatch1 := some s.opUs } } :
      State).modPlume p (fun g => { g with st := .inReset })) n .faultDetected 0).plume p) =
      { ({ s with units := u } : State).plume p with st := .inReset } := by
    rw [State.plume, hunits, ← State.plume, State.modPlume_plume_self]
    rfl
  exact ⟨y, hy, hf, by rw [hpl], by rw [hpl]; exact hmem, hkeys, hcommit⟩

end Sys2Proof.Machine

/-- Settles O6: the first mismatch raises an alarm below HALT, and the descriptor ends without a result. -/
theorem mismatchSuppressesResult : Obligations.MismatchSuppressesResult := by
  unfold Obligations.MismatchSuppressesResult
  intro unit n q x s hx hcut hends hc hcomp h2
  refine ⟨fun hq hst hraw hran => ?_, fun hq hst => ?_⟩
  · have honly := opBlinded_only s n unit x
    obtain ⟨y, hy, ⟨hs, hch, r, hr, hf, hi, hd⟩, ⟨ht, hb, hw⟩, hk, hcm⟩ := passesDiffer_hawkmoth (e := unit) ((honly.slot n).trans hx) hc
      (by obtain ⟨_, h⟩ := honly; rw [h]; exact h2)
    rw [exec_hawkmothOpDone_runs false hx hcut hends hq hst hraw hran, hcomp]
    exact ⟨_, y, r, rfl, hy, hs, hr, hf, hi, hd, hch, ht, hb, hw, hk.trans honly.keys, hcm.trans honly.commit⟩
  · obtain ⟨y, hy, ⟨hs, hch, r, hr, hf, hi, hd⟩, ht, hm, hk, hcm⟩ := passesDiffer_plume (s := plumeCounted s n unit) (p := unit) hx hc h2
    rw [exec_plumeOpDone_runs false hx hcut hends hq hst, hcomp]
    exact ⟨_, y, r, rfl, hy, hs, hr, hf, hi, hd, hch, ht, hm, hk, hcm⟩
end

section
open Sys2Proof.Machine

/-! SUPPORT. A step on its way into a unit's queue, and out of it when it ends (R34, R302, R318, R330, R361). -/

namespace Sys2Proof.Machine

/-! ### Into the queue -/

/-- Beside the slots only what a step reserves changed: the queues of the units, the records, the commit stage and the bus stand. -/
structure QueuesStand (s t : State) : Prop where
  lane : ∀ l, (t.lane l).queue = (s.lane l).queue
  hashes : t.units.hashes = s.units.hashes
  engines : t.units.engines = s.units.engines
  plumes : t.units.plumes = s.units.plumes
  recs : t.keys.recs = s.keys.recs
  commit : t.commit = s.commit
  bus : t.bus = s.bus

namespace QueuesStand

theorem refl (s : State) : QueuesStand s s := ⟨fun _ => rfl, rfl, rfl, rfl, rfl, rfl, rfl⟩

theorem trans {a b c : State} (h : QueuesStand a b) (h' : QueuesStand b c) : QueuesStand a c where
  lane l := (h'.lane l).trans (h.lane l)
  hashes := h'.hashes.trans h.hashes
  engines := h'.engines.trans h.engines
  plumes := h'.plumes.trans h.plumes
  recs := h'.recs.trans h.recs
  commit := h'.commit.trans h.commit
  bus := h'.bus.trans h.bus

theorem modSlot (s : State) (n : Nat) (f : Slot → Slot) : QueuesStand s (s.modSlot n f) := by
  obtain ⟨a, ha⟩ := State.modSlot_only s n f
  rw [ha]
  exact ⟨fun _ => rfl, rfl, rfl, rfl, rfl, rfl, rfl⟩

theorem modPart (s : State) (p : Nat) (f : Part → Part) : QueuesStand s (s.modPart p f) := ⟨fun _ => rfl, rfl, rfl, rfl, rfl, rfl, rfl⟩

theorem modLane (s : State) (l : Nat) {f : Lane → Lane} (hf : ∀ x, (f x).queue = x.queue) : QueuesStand s (s.modLane l f) := by
  refine ⟨fun k => ?_, rfl, rfl, rfl, rfl, rfl, rfl⟩
  rw [State.modLane_lane]
  split
  · next h => rw [h, hf]
  · rfl

end QueuesStand

/-- A descriptor whose randomness is reserved (R34). -/
def Slot.reserved (x : Slot) (rd : Bool) (m : Bytes) (a b : Option Blocks) : Slot :=
  { x with random := rd, rnd := m, started := true, blocks := a, engBlocks := b }

/-- The partition's generator after the bytes a descriptor takes of it (R297, R378). -/
def bytesDrawn (s : State) (x : Slot) : State :=
  s.modPart x.part (fun p => { p with drbg :=
    { (if keyNeed x.desc then (s.part x.part).drbg.generate (keyBytes x.desc) [] else ([], (s.part x.part).drbg)).2 with
      staged := (s.part x.part).drbg.staged.drop (stagedNeed x) } })

/-- The lane's generator after the dummy blocks reserved of it (R315). -/
def laneReserved (s : State) (x : Slot) (u : UnitClass × Nat) : State :=
  if ((s.lane (x.drawLane u)).gen.reserve laneBuf (laneBlocks x)).1.isSome then
    s.modLane (x.drawLane u) (fun l => { l with gen := ((s.lane (x.drawLane u)).gen.reserve laneBuf (laneBlocks x)).2 })
  else s

/-- The engine generator `k` after `c` blocks reserved of it (R375). -/
def engineReserved (s : State) (k c : Nat) : State :=
  if ((tgetD s.entropy.gens k gen0).reserve engineBuf c).1.isSome then
    { s with entropy := { s.entropy with gens := tset s.entropy.gens k ((tgetD s.entropy.gens k gen0).reserve engineBuf c).2 } }
  else s

theorem reserveRandom_eq {s : State} {x : Slot} (n : Nat) (u : UnitClass × Nat) (h : ¬ x.started = true) : ∃ rd m a b c k,
    reserveRandom s n x u = (engineReserved (laneReserved (bytesDrawn s x) x u) k c).modSlot n (·.reserved rd m a b) := by
  unfold reserveRandom
  rw [if_neg h]
  exact ⟨_, _, _, _, _, _, rfl⟩

theorem laneReserved_stands (s : State) (x : Slot) (u : UnitClass × Nat) :
    QueuesStand s (laneReserved s x u) ∧ (laneReserved s x u).adm = s.adm := by
  unfold laneReserved
  split
  · exact ⟨.modLane s _ (fun _ => rfl), rfl⟩
  · exact ⟨.refl s, rfl⟩

theorem engineReserved_stands (s : State) (k c : Nat) : QueuesStand s (engineReserved s k c) ∧ (engineReserved s k c).adm = s.adm := by
  unfold engineReserved
  split
  · exact ⟨⟨fun _ => rfl, rfl, rfl, rfl, rfl, rfl, rfl⟩, rfl⟩
  · exact ⟨.refl s, rfl⟩

theorem reserveRandom_reserves {s : State} {n : Nat} {x : Slot} (u : UnitClass × Nat) (hx : s.slot n = some x) :
    QueuesStand s (reserveRandom s n x u) ∧ (∀ m, m ≠ n → (reserveRandom s n x u).slot m = s.slot m) ∧
      ∃ rd m a b, (reserveRandom s n x u).slot n = some (x.reserved rd m a b) := by
  by_cases h : x.started = true
  · have hr : reserveRandom s n x u = s := by rw [reserveRandom, if_pos h]
    rw [hr]
    exact ⟨.refl s, fun _ _ => rfl, x.random, x.rnd, x.blocks, x.engBlocks, by rw [hx, Slot.reserved, ← h]⟩
  · obtain ⟨rd, m, a, b, c, k, hr⟩ := reserveRandom_eq (s := s) n u h
    obtain ⟨hl, hla⟩ := laneReserved_stands (bytesDrawn s x) x u
    obtain ⟨he, hea⟩ := engineReserved_stands (laneReserved (bytesDrawn s x) x u) k c
    rw [hr]
    generalize engineReserved (laneReserved (bytesDrawn s x) x u) k c = t at *
    have hslot : ∀ m, t.slot m = s.slot m := fun m => congrArg (fun a : Admission => tget a.slots m) (hea.trans hla)
    refine ⟨QueuesStand.trans (((QueuesStand.modPart s _ _).trans hl).trans he) (.modSlot t n _),
      fun m hm => by rw [State.modSlot_slot, if_neg hm, hslot], rd, m, a, b, ?_⟩
    rw [State.modSlot_slot_self, hslot, hx]
    rfl

/-- Between the two states descriptors took pages (R301): of every descriptor all but its pages stands. -/
structure PagesTaken (s t : State) : Prop where
  stand : QueuesStand s t
  slot : ∀ m z, s.slot m = some z → ∃ p, t.slot m = some { z with pages := p }

namespace PagesTaken

theorem refl (s : State) : PagesTaken s s := ⟨.refl s, fun _ z hz => ⟨z.pages, hz⟩⟩

theorem trans {a b c : State} (h : PagesTaken a b) (h' : PagesTaken b c) : PagesTaken a c := by
  refine ⟨h.stand.trans h'.stand, fun m z hz => ?_⟩
  obtain ⟨p, hp⟩ := h.slot m z hz
  obtain ⟨p', hp'⟩ := h'.slot m _ hp
  exact ⟨p', hp'⟩

theorem takePage {s t : State} {n lane p : Nat} {k : Bound} (h : takePage s n lane p k = some t) : PagesTaken s t := by
  unfold Machine.takePage at h
  obtain ⟨o, -, rfl⟩ := Option.map_eq_some_iff.mp h
  dsimp only
  generalize hs1 : State.modLane s lane _ = s1
  have h1 : QueuesStand s s1 := hs1 ▸ .modLane s lane (fun _ => rfl)
  have hslot : ∀ m, s1.slot m = s.slot m := hs1 ▸ fun _ => rfl
  have h2 : QueuesStand s { s1 with keys := { s1.keys with useClock := s.keys.useClock + 1 } } :=
    h1.trans ⟨fun _ => rfl, rfl, rfl, rfl, rfl, rfl, rfl⟩
  refine ⟨h2.trans (.modSlot _ n _), fun m z hz => ?_⟩
  have hm : ({ s1 with keys := { s1.keys with useClock := s.keys.useClock + 1 } } : State).slot m = some z := (hslot m).trans hz
  rw [State.modSlot_slot]
  split
  · next he => rw [← he, hm]; exact ⟨_, rfl⟩
  · exact ⟨_, hm⟩

theorem takePages {n lane p : Nat} {s t : State} {l : List Bound} (h : takePages s n lane p l = some t) : PagesTaken s t := by
  induction l generalizing s with
  | nil =>
    cases h
    exact refl _
  | cons k r ih =>
    obtain ⟨u, hu, hr⟩ := Option.bind_eq_some_iff.mp h
    exact (takePage hu).trans (ih hr)

theorem admitLane (s : State) (lane : Nat) : PagesTaken s (admitLane s lane) := by
  refine foldl_rel refl (fun _ _ _ => trans) _ (fun t n => ?_) _ s
  split
  · exact refl t
  · next x _ =>
    cases h : Machine.takePages t n lane x.part (t.unpaged x lane) with
    | none => exact refl t
    | some u => exact takePages h

end PagesTaken

theorem enqueue_adm (s : State) (n : Nat) (u : UnitClass × Nat) : (enqueue s n u).adm = s.adm ∧ (enqueue s n u).keys = s.keys ∧
    (enqueue s n u).commit = s.commit ∧ (enqueue s n u).bus = s.bus := by
  obtain ⟨c, k⟩ := u
  cases c with
  | skipper => exact ⟨rfl, rfl, rfl, rfl⟩
  | hash => exact ⟨rfl, rfl, rfl, rfl⟩
  | hawkmoth =>
    obtain ⟨l, hl⟩ := (EnginesOnly.modEngine s k (fun x => { x with queue := x.queue ++ [n], lastUs := s.opUs })).trans (.startEngine _ k)
    rw [enqueue, hl]
    exact ⟨rfl, rfl, rfl, rfl⟩
  | plume => exact ⟨rfl, rfl, rfl, rfl⟩

/-- The queue of a unit. -/
def State.queueOf (s : State) (u : UnitClass × Nat) : List Nat :=
  match u with
  | (.skipper, l) => (s.lane l).queue
  | (.hash, h) => (s.hash h).queue
  | (.hawkmoth, e) => (s.engine e).queue
  | (.plume, p) => (s.plume p).queue

theorem enqueue_queueOf (s : State) (n : Nat) (u : UnitClass × Nat) : (enqueue s n u).queueOf u = s.queueOf u ++ [n] := by
  obtain ⟨c, k⟩ := u
  cases c with
  | skipper => simp [enqueue, State.queueOf]
  | hash => simp [enqueue, State.queueOf, startHash]
  | hawkmoth =>
    obtain ⟨b, w, h⟩ := startEngine_engine (s.modEngine k (fun x => { x with queue := x.queue ++ [n], lastUs := s.opUs })) k k
    rw [enqueue, State.queueOf, h, State.modEngine_engine_self]
    rfl
  | plume => simp [enqueue, State.queueOf, startPlume]

theorem QueuesStand.queueOf {s t : State} (h : QueuesStand s t) (u : UnitClass × Nat) : t.queueOf u = s.queueOf u := by
  obtain ⟨c, k⟩ := u
  cases c with
  | skipper => exact h.lane k
  | hash => rw [State.queueOf, State.hash, h.hashes]; rfl
  | hawkmoth => rw [State.queueOf, State.engine, h.engines]; rfl
  | plume => rw [State.queueOf, State.plume, h.plumes]; rfl

/-- A descriptor whose step stands in the queue of `u` (R34). -/
def Slot.Dispatched (y x : Slot) (u : UnitClass × Nat) (rest : List UnitClass) : Prop :=
  y.stage = .queued ∧ y.steps = rest ∧ y.unit = some u ∧ y.started = true ∧ y.desc = x.desc ∧ y.keys = x.keys ∧ y.rid = x.rid ∧ y.index = x.index

/-- A descriptor as it enters its unit's queue. -/
def State.enqueued (s : State) (x : Slot) (u : UnitClass × Nat) (rest : List UnitClass) (y : Slot) : Slot :=
  { y with
    stage := .queued, steps := rest, unit := some u
    lane := if u.1 = .skipper then some u.2 else y.lane
    sess := if isRaw (opcode x.desc) then (s.engine u.2).sess else y.sess
    pages := y.pages.filter (fun p => ((s.lane p.lane).pageOf p).isSome) }

/-- What a dispatch comes to: the step behind what waits for its unit, its descriptor with it, and every other descriptor as it was where no
pages are shared. -/
theorem dispatchTo_dispatches {s : State} {n : Nat} {x : Slot} (u : UnitClass × Nat) (rest : List UnitClass) (hx : s.slot n = some x) :
    ∃ y, (dispatchTo s n x u rest).slot n = some y ∧ y.Dispatched x u rest ∧
      (dispatchTo s n x u rest).queueOf u = s.queueOf u ++ [n] ∧
      (u.1 ≠ .skipper → ∀ m, m ≠ n → (dispatchTo s n x u rest).slot m = s.slot m) ∧
      (dispatchTo s n x u rest).keys.recs = s.keys.recs ∧ (dispatchTo s n x u rest).commit = s.commit ∧
      (dispatchTo s n x u rest).bus = s.bus := by
  obtain ⟨hstand, hother, rd, m, a, b, hslot⟩ := reserveRandom_reserves u hx
  unfold dispatchTo
  extract_lets t v
  have hmod : t = (reserveRandom s n x u).modSlot n (s.enqueued x u rest) := rfl
  have ht : QueuesStand s t := hstand.trans (.modSlot _ n _)
  have htn : ∃ y, t.slot n = some y ∧ y.Dispatched x u rest := by
    have h := (State.modSlot_slot_self (reserveRandom s n x u) n (s.enqueued x u rest)).trans (congrArg (Option.map _) hslot)
    exact ⟨_, h, rfl, rfl, rfl, rfl, rfl, rfl, rfl, rfl⟩
  have htm : ∀ m, m ≠ n → t.slot m = s.slot m := fun m hm => by
    rw [hmod, State.modSlot_slot, if_neg hm]
    exact hother m hm
  obtain ⟨y, hy, hd⟩ := htn
  obtain ⟨hadm, hkeys, hcommit, hbus⟩ := enqueue_adm t n u
  have hvs : ∀ m, v.slot m = t.slot m := fun m => congrArg (fun a : Admission => tget a.slots m) hadm
  have hq : v.queueOf u = s.queueOf u ++ [n] := (enqueue_queueOf t n u).trans (by rw [ht.queueOf])
  have hr : v.keys.recs = s.keys.recs := (congrArg Keys.recs hkeys).trans ht.recs
  split
  · next hu =>
    have hp := PagesTaken.admitLane v u.2
    obtain ⟨p, hp'⟩ := hp.slot n y ((hvs n).trans hy)
    exact ⟨_, hp', hd, (hp.stand.queueOf u).trans hq, fun h => absurd hu h, hp.stand.recs.trans hr,
      hp.stand.commit.trans (hcommit.trans ht.commit), hp.stand.bus.trans (hbus.trans ht.bus)⟩
  · exact ⟨y, (hvs n).trans hy, hd, hq, fun _ m hm => (hvs m).trans (htm m hm), hr, hcommit.trans ht.commit, hbus.trans ht.bus⟩

theorem exec_stepDispatch_stays {s : State} {n unit : Nat} {x : Slot} (hx : s.slot n = some x) (hp : s.power.pfail = true) :
    exec (.stepDispatch n unit) s = .next s := by
  rw [dispatch_stepDispatch, execStepDispatch, hx]
  dsimp only
  rw [if_pos (.inr (.inr hp))]

section
variable {s : State} {n unit : Nat} {u : UnitClass} {rest : List UnitClass} {x : Slot}

theorem exec_stepDispatch_dispatches (hx : s.slot n = some x) (hst : x.stage = .bound) (hcut : x.cut = none)
    (hsteps : (if x.started = true then x.steps else stepsOf x) = u :: rest) (hp : s.power.pfail = false)
    (hdis : (x.started && u.zeroes && s.disabling x) = false) (hraw : isRaw (opcode x.desc) = true → (s.rawEngine x).isSome = true)
    (hbuf : buffersReady x.desc x.sgSrc x.sgDst x.src = true) (hfree : s.unitFree x (u, unit) = true) (hroom : s.bulkRoom x = true)
    (hrnd : x.started = true ∨ (s.blocksHeld x (u, unit) = true ∧ s.entropy.ready = true ∧ s.supply x = .ready)) :
    exec (.stepDispatch n unit) s = .next (dispatchTo s n x (u, unit) rest) := by
  have hses : (isRaw (opcode x.desc) && (s.rawEngine x).isNone) = false := by
    cases hr : isRaw (opcode x.desc) with
    | false => rfl
    | true => rw [Option.isNone_eq_false_iff.mpr (hraw hr)]; rfl
  have hwait : (!buffersReady x.desc x.sgSrc x.sgDst x.src || !s.unitFree x (u, unit) || !s.bulkRoom x
      || (!x.started && !(s.blocksHeld x (u, unit) && s.entropy.ready))) = false := by
    rcases hrnd with h | ⟨h, h', -⟩
    · simp [hbuf, hfree, hroom, h]
    · simp [hbuf, hfree, hroom, h, h']
  have hsup : (if x.started then Supply.ready else s.supply x) = .ready := by
    rcases hrnd with h | ⟨-, -, h⟩
    · rw [h]; rfl
    · rw [h, ite_self]
  rw [dispatch_stepDispatch, execStepDispatch, hx]
  dsimp only
  rw [if_neg (by simp [hst, hcut, hp]), hsteps]
  dsimp only
  rw [hdis, hses, hwait, hsup]
  rfl

end

/-! ### Out of it -/

/-- A descriptor whose step has ended: on to its next step, or to its result. -/
def Slot.StepEnded (y x : Slot) : Prop := y.unit = none ∧ y.stage = (if x.steps = [] then .ran else .bound)

theorem stepEnd_ends {s : State} {n : Nat} {x z : Slot} (hz : s.slot n = some z) (h : z.steps = x.steps) :
    ∃ a f y, stepEnd s n x = { s with adm := a, free := f } ∧ (stepEnd s n x).slot n = some y ∧ y.StepEnded x := by
  unfold stepEnd
  extract_lets t
  obtain ⟨a, ha⟩ : ∃ a, t = { s with adm := a } := State.modSlot_only s n _
  have ht : ∃ y, t.slot n = some y ∧ y.StepEnded x := by
    have hy := (State.modSlot_slot_self s n (fun y => { y with unit := none, stage := if y.steps = [] then .ran else .bound })).trans
      (congrArg (Option.map _) hz)
    exact ⟨_, hy, rfl, by rw [← h]⟩
  obtain ⟨y, hy, hu, hs⟩ := ht
  split
  · obtain ⟨f, k, -, hk⟩ := totalTime_eq t n x
    obtain ⟨b, hb⟩ := State.modSlot_only { t with free := f } n (fun y => { y with time24 := y.time24 + k })
    have hslot := (State.modSlot_slot_self { t with free := f } n (fun y => { y with time24 := y.time24 + k })).trans
      (congrArg (Option.map _) hy)
    rw [hk]
    exact ⟨b, f, _, hb.trans (by rw [ha]), hslot, hu, hs⟩
  · exact ⟨a, s.free, y, ha, hy, hu, hs⟩

end Sys2Proof.Machine
end

section
open Sys2Proof.Machine

/-! SUPPORT. The units a step ends on (R302, R318, R330, R335, R361). -/

namespace Sys2Proof.Machine

/-- The end of the step of descriptor `n`: on to its next step or to its result, and no key, change, host write or ring with it. -/
def StepEnds (s t : State) (n : Nat) (x : Slot) : Prop :=
  (∃ y, t.slot n = some y ∧ y.StepEnded x) ∧ t.keys = s.keys ∧ t.commit = s.commit ∧ t.bus = s.bus ∧ t.rings = s.rings

/-- `stepEnd` after a change of the units and of what the slot counts. -/
theorem stepEnd_stepEnds {s t : State} {n : Nat} {x z : Slot} (hz : t.slot n = some z) (hsteps : z.steps = x.steps) (h : ChainOnly s t) :
    StepEnds s (stepEnd t n x) n x ∧ (stepEnd t n x).units = t.units := by
  obtain ⟨a, f, y, he, hy, hd⟩ := stepEnd_ends hz hsteps
  obtain ⟨b, u, rfl⟩ := h
  refine ⟨⟨⟨y, hy, hd⟩, ?_⟩, by rw [he]⟩
  rw [he]
  exact ⟨rfl, rfl, rfl, rfl⟩

/-! ### The lanes and the hash units -/

theorem exec_skipperStepDone_ends {s : State} {unit n : Nat} {x : Slot} (hx : s.slot n = some x) (hcut : x.cut = none) (hends : x.ends = none)
    (hu : x.unit = some (.skipper, unit)) (hq : (s.lane unit).queue.contains n = true)
    (hpages : ∀ k ∈ x.symKeys, ∃ p ∈ x.pages, p.lane = unit ∧ p.handle = k.handle) :
    exec (.skipperStepDone n) s = .next (laneDone (unqueue s n (.skipper, unit)) unit n x) := by
  have hall : x.symKeys.all (fun k => x.pages.any (fun u => u.lane == unit && u.handle == k.handle)) = true := by
    refine List.all_eq_true.mpr fun k hk => List.any_eq_true.mpr ?_
    obtain ⟨p, hp, hl, hh⟩ := hpages k hk
    exact ⟨p, hp, by simp [hl, hh]⟩
  rw [dispatch_skipperStepDone, execSkipperStepDone, hx]
  dsimp only
  rw [hu]
  dsimp only
  rw [hq, hcut, hends, hall]
  rfl

theorem laneDone_ends {s : State} {unit n : Nat} {x : Slot} (hx : s.slot n = some x) :
    StepEnds s (laneDone (unqueue s n (.skipper, unit)) unit n x) n x ∧
      ((laneDone (unqueue s n (.skipper, unit)) unit n x).lane unit).queue = (s.lane unit).queue.filter (· != n) := by
  unfold laneDone
  extract_lets w d t
  have hz := (State.modSlot_slot_self t n (fun y => { y with time24 := y.time24 + 15 * d })).trans (congrArg (Option.map _) hx)
  have ht : ChainOnly s t := ⟨_, _, rfl⟩
  obtain ⟨hs, hun⟩ := stepEnd_stepEnds (x := x) hz rfl (ht.trans (.modSlot t n _))
  refine ⟨hs, ?_⟩
  rw [State.lane, hun, State.modSlot_units, ← State.lane]
  simp only [t, State.modLane_lane_self, unqueue]

theorem exec_hashStepDone_ends {s : State} {unit n : Nat} {q : List Nat} {x : Slot} (hx : s.slot n = some x) (hcut : x.cut = none)
    (hends : x.ends = none) (hq : (s.hash unit).queue = n :: q) : ∃ b, exec (.hashStepDone unit) s =
      .next (stepEnd ((unqueue s n (.hash, unit)).modHash unit (fun h => { h with blocks := min (2 ^ 64 - 1) (h.blocks + b) })) n x) := by
  rw [dispatch_hashStepDone, execHashStepDone, hq]
  dsimp only
  rw [hx]
  dsimp only
  rw [hcut, hends]
  exact ⟨_, rfl⟩

theorem unqueue_hash_queue (s : State) (n unit : Nat) :
    ((unqueue s n (.hash, unit)).hash unit).queue = (s.hash unit).queue.filter (· != n) := by
  simp [unqueue, startHash]

/-! ### The engines -/

theorem EnginesOnly.chainOnly {s t : State} (h : EnginesOnly s t) : ChainOnly s t := by
  obtain ⟨_, rfl⟩ := h
  exact ⟨_, _, rfl⟩

/-- An operation that is not a raw command ends its step. -/
theorem engineDone_ends {s : State} {e n extra : Nat} {x : Slot} (hx : s.slot n = some x) (hr : isRaw (opcode x.desc) = false) :
    StepEnds s (engineDone s e n x extra) n x ∧ (engineDone s e n x extra).units = s.units := by
  have hz := (State.modSlot_slot_self s n (fun y => { y with time24 := y.time24 + 20 * extra })).trans (congrArg (Option.map _) hx)
  rw [engineDone, if_neg (by simp [hr])]
  obtain ⟨hs, hun⟩ := stepEnd_stepEnds (x := x) hz rfl (.modSlot s n _)
  exact ⟨hs, hun.trans (State.modSlot_units s n _)⟩

/-- A raw command has run: its result is due, and its engine keeps its session (R335). -/
theorem engineDone_raw {s : State} {e n extra : Nat} {x : Slot} (hx : s.slot n = some x) (hr : isRaw (opcode x.desc) = true) :
    ∃ w y, (engineDone s e n x extra).engine e = { s.engine e with window := w } ∧ (engineDone s e n x extra).slot n = some y ∧
      y.unit = x.unit ∧ y.stage = .ran ∧ y.res = x.res ∧ (engineDone s e n x extra).keys = s.keys ∧
      (engineDone s e n x extra).commit = s.commit ∧ (engineDone s e n x extra).bus = s.bus ∧ (engineDone s e n x extra).rings = s.rings := by
  rw [engineDone, if_pos hr]
  obtain ⟨f, hf, -⟩ := freeUpTo_only s (rawTime s e x).freeP
  dsimp only
  rw [hf]
  generalize ht : (if opcode x.desc = 0x90A then _ else _ : State) = t
  have hw : EnginesOnly { s with free := f } t ∧ ∃ w, t.engine e = { s.engine e with window := w } := by
    rw [← ht]
    split
    · exact ⟨.modEngine { s with free := f } e _, _, State.modEngine_engine_self { s with free := f } e _⟩
    · exact ⟨.refl _, _, rfl⟩
  obtain ⟨⟨l, rfl⟩, w, hw⟩ := hw
  generalize 20 * ((rawTime s e x).p + (freeUpTo s (rawTime s e x).freeP).1 + extra) = k
  generalize hv : ({ s with free := f, units := { s.units with engines := l } } : State) = v at *
  have hy := (State.modSlot_slot_self v n (fun y => { y with stage := .ran, time24 := k })).trans
    (congrArg (Option.map _) ((show v.slot n = s.slot n by rw [← hv]; rfl).trans hx))
  refine ⟨w, _, ?_, hy, rfl, rfl, rfl, ?_⟩
  · rw [State.engine, State.modSlot_units, ← State.engine, hw]
  · rw [State.modSlot_keys, State.modSlot_commit, State.modSlot_bus, State.modSlot_rings, ← hv]
    exact ⟨rfl, rfl, rfl, rfl⟩

/-- The operation on an engine's queue front compares, where it is compared. -/
theorem compared_agrees {x : Slot} {agree : Bool} (h : compared x = true → agree = true) : (compared x && !agree) = false := by
  cases hc : compared x with
  | false => rfl
  | true => rw [h hc]; rfl

end Sys2Proof.Machine

/-- Settles O5: a dispatch puts the step behind what its unit's queue holds, and the end of a step takes it out again. -/
theorem dispatchAndStepEnd : Obligations.DispatchAndStepEnd := by
  unfold Obligations.DispatchAndStepEnd
  refine ⟨fun n unit u rest x s hx hst hcut hsteps => ⟨fun hp => exec_stepDispatch_stays hx hp,
    fun hp hdis hraw hbuf hfree hroom hrnd => ?_⟩, fun unit n q x s hx hcut hends => ⟨fun hu hq hpages => ?_, fun hq => ?_,
    fun agree hq hst hag hran => ⟨fun hr => ?_, fun hr hses => ?_⟩, fun agree hq hst hag => ?_⟩⟩
  · obtain ⟨y, hy, ⟨h1, h2, h3, h4, h5, h6, h7, h8⟩, hqueue, hother, hrecs, hcommit, hbus⟩ := dispatchTo_dispatches (u, unit) rest hx
    rw [exec_stepDispatch_dispatches hx hst hcut hsteps hp hdis hraw hbuf hfree hroom hrnd]
    refine ⟨_, y, rfl, hy, h1, h2, h3, h4, h5, h6, h7, h8, ?_, ?_, ?_, ?_, hother, hrecs, hcommit, hbus⟩ <;>
      · rintro rfl
        exact hqueue
  · obtain ⟨⟨⟨y, hy, hyu, hys⟩, hkept⟩, hqueue⟩ := laneDone_ends (unit := unit) hx
    rw [exec_skipperStepDone_ends hx hcut hends hu hq hpages]
    exact ⟨_, y, rfl, hqueue, hy, hyu, hys, hkept⟩
  · obtain ⟨b, he⟩ := exec_hashStepDone_ends hx hcut hends hq
    obtain ⟨⟨⟨y, hy, hyu, hys⟩, hkept⟩, hun⟩ := stepEnd_stepEnds (s := s) (x := x)
      (t := (unqueue s n (.hash, unit)).modHash unit (fun h => { h with blocks := min (2 ^ 64 - 1) (h.blocks + b) })) hx rfl ⟨_, _, rfl⟩
    refine ⟨_, y, he, ?_, hy, hyu, hys, hkept⟩
    rw [State.hash, hun, ← State.hash, State.modHash_hash_self, ← filter_front hq]
    exact unqueue_hash_queue s n unit
  · have honly := opBlinded_only s n unit x
    obtain ⟨b, w, l, hg⟩ := opBlinded_engine s n unit x
    obtain ⟨⟨⟨y, hy, hyu, hys⟩, hkeys, hcommit, hbus, hrings⟩, hun⟩ :=
      engineDone_ends (e := unit) (extra := blindTime s unit x) ((honly.slot n).trans hx) hr
    have heng : (engineDone (opBlinded s n unit x) unit n x (blindTime s unit x)).engine unit = (opBlinded s n unit x).engine unit := by
      rw [State.engine, hun, ← State.engine]
    rw [exec_hawkmothOpDone_runs agree hx hcut hends hq hst (by simp [hr]) hran, compared_agrees hag, if_neg Bool.false_ne_true]
    refine ⟨_, y, rfl, by rw [heng, hg, ← filter_front hq], hy, hyu, hys, by rw [heng, hg], by rw [heng, hg], hkeys.trans honly.keys,
      hcommit.trans honly.commit, ?_, ?_⟩
    · obtain ⟨_, h⟩ := honly
      rw [hbus, h]
    · obtain ⟨_, h⟩ := honly
      rw [hrings, h]
  · have honly := opBlinded_only s n unit x
    obtain ⟨b, w, l, hg⟩ := opBlinded_engine s n unit x
    obtain ⟨w', y, heng, hy, hyu, hys, hyr, hkeys, hcommit, hbus, hrings⟩ :=
      engineDone_raw (e := unit) (extra := blindTime s unit x) ((honly.slot n).trans hx) hr
    rw [exec_hawkmothOpDone_runs agree hx hcut hends hq hst (fun _ => hses) hran, compared_agrees hag, if_neg Bool.false_ne_true]
    refine ⟨_, y, rfl, by rw [heng, hg, ← filter_front hq], hy, hyu, hys, hyr, by rw [heng, hg], hkeys.trans honly.keys,
      hcommit.trans honly.commit, ?_, ?_⟩
    · obtain ⟨_, h⟩ := honly
      rw [hbus, h]
    · obtain ⟨_, h⟩ := honly
      rw [hrings, h]
  · obtain ⟨m, hm⟩ := plumeCounted_plume s n unit
    obtain ⟨⟨⟨y, hy, hyu, hys⟩, hkept⟩, hun⟩ := stepEnd_stepEnds (s := s) (x := x) (t := plumeCounted s n unit) hx rfl ⟨_, _, rfl⟩
    have hpl : (stepEnd (plumeCounted s n unit) n x).plume unit = (plumeCounted s n unit).plume unit := by
      rw [State.plume, hun, ← State.plume]
    rw [exec_plumeOpDone_runs agree hx hcut hends hq hst, compared_agrees hag, if_neg Bool.false_ne_true]
    exact ⟨_, y, rfl, by rw [hpl, hm, ← filter_front hq], hy, hyu, hys, by rw [hpl, hm], by rw [hpl, hm], hkept⟩
end

section
open Sys2Proof.Machine

/-! SUPPORT. Engines and Plume units after a mismatch or an abort: back in service, or OFFLINE (R349, R350, R358). -/

namespace Sys2Proof.Machine

/-! ### Queues that empty -/

/-- The state of an engine or a Plume unit. -/
def State.unitSt (s : State) (u : UnitClass × Nat) : UnitState :=
  match u with
  | (.hawkmoth, e) => (s.engine e).st
  | (.plume, p) => (s.plume p).st
  | _ => .idle

/-- Between the two states descriptors left the queue of `u`, and no unit changed its state. -/
structure Drains (u : UnitClass × Nat) (s t : State) : Prop where
  queue : ∀ m, m ∉ s.queueOf u → m ∉ t.queueOf u
  st : ∀ v, t.unitSt v = s.unitSt v
  keys : t.keys = s.keys
  commit : t.commit = s.commit
  bus : t.bus = s.bus

theorem unqueue_queueOf (s : State) (n : Nat) (u : UnitClass × Nat) : (unqueue s n u).queueOf u = (s.queueOf u).filter (· != n) := by
  obtain ⟨c, k⟩ := u
  cases c with
  | skipper => simp [unqueue, State.queueOf]
  | hash => exact unqueue_hash_queue s n k
  | hawkmoth =>
    obtain ⟨b, w, h⟩ := unqueue_engine s n k
    rw [State.queueOf, h]
    rfl
  | plume => simp [unqueue, startPlume, State.queueOf]

theorem unqueue_leaves (s : State) (n : Nat) (u : UnitClass × Nat) : n ∉ (unqueue s n u).queueOf u := by
  rw [unqueue_queueOf]
  simp

theorem unqueue_unitSt (s : State) (n : Nat) (u v : UnitClass × Nat) : (unqueue s n u).unitSt v = s.unitSt v := by
  obtain ⟨c, k⟩ := u
  obtain ⟨d, j⟩ := v
  have hmod : ((s.modEngine k (fun x => { x with queue := x.queue.filter (· != n) })).engine j).st = (s.engine j).st := by
    rw [State.modEngine_engine]
    split
    · next h => rw [h]
    · rfl
  cases d with
  | skipper => rfl
  | hash => rfl
  | hawkmoth =>
    cases c with
    | skipper => rfl
    | hash => rfl
    | plume => rfl
    | hawkmoth =>
      obtain ⟨b, w, h⟩ := startEngine_engine (s.modEngine k (fun x => { x with queue := x.queue.filter (· != n) })) k j
      rw [State.unitSt, State.unitSt, unqueue, h]
      exact hmod
  | plume =>
    cases c with
    | skipper => rfl
    | hash => rfl
    | hawkmoth =>
      obtain ⟨l, h⟩ := EnginesOnly.unqueue s n k
      rw [h]
      rfl
    | plume =>
      simp only [State.unitSt, unqueue, startPlume, State.modPlume_plume]
      split
      · next h => simp [h]
      · rfl

namespace Drains

variable {u : UnitClass × Nat}

theorem of_units {s t : State} (hu : t.units = s.units) (hk : t.keys = s.keys) (hc : t.commit = s.commit) (hb : t.bus = s.bus) :
    Drains u s t := by
  have hq : t.queueOf u = s.queueOf u := by
    simp only [State.queueOf, State.lane, State.hash, State.engine, State.plume, hu]
  exact ⟨fun m hm => hq ▸ hm, fun v => by simp only [State.unitSt, State.engine, State.plume, hu], hk, hc, hb⟩

theorem refl (s : State) : Drains u s s := of_units rfl rfl rfl rfl

theorem trans {a b c : State} (h : Drains u a b) (h' : Drains u b c) : Drains u a c :=
  ⟨fun m hm => h'.queue m (h.queue m hm), fun v => (h'.st v).trans (h.st v), h'.keys.trans h.keys, h'.commit.trans h.commit, h'.bus.trans h.bus⟩

theorem fold {α : Type} {g : State → α → State} (hg : ∀ t a, Drains u t (g t a)) (l : List α) (s : State) : Drains u s (l.foldl g s) :=
  foldl_rel refl (fun _ _ _ => trans) g hg l s

theorem modSlot (s : State) (n : Nat) (f : Slot → Slot) : Drains u s (s.modSlot n f) := by
  obtain ⟨a, ha⟩ := State.modSlot_only s n f
  rw [ha]
  exact of_units rfl rfl rfl rfl

theorem unqueue (s : State) (n : Nat) : Drains u s (unqueue s n u) := by
  have h := ChainOnly.unqueue s n u
  refine ⟨fun m hm => ?_, unqueue_unitSt s n u, ?_, ?_, ?_⟩
  · rw [unqueue_queueOf]
    exact fun hf => hm (List.mem_of_mem_filter hf)
  · obtain ⟨_, _, h⟩ := h; rw [h]
  · obtain ⟨_, _, h⟩ := h; rw [h]
  · obtain ⟨_, _, h⟩ := h; rw [h]

end Drains

theorem redispatch_drains (s : State) (u : UnitClass × Nat) (q : List Nat) : Drains u s (redispatch s u q) :=
  .fold (fun t n => (Drains.unqueue t n).trans (.modSlot _ n _)) q s

theorem redispatch_only (s : State) (u : UnitClass × Nat) (q : List Nat) : ChainOnly s (redispatch s u q) :=
  .fold (fun t n => (ChainOnly.unqueue t n u).trans (.modSlot _ n _)) q s

/-- What waited for a unit gone OFFLINE is out of its queue (R358). -/
theorem redispatch_leaves (s : State) (u : UnitClass × Nat) (q : List Nat) {n : Nat} (h : n ∈ q) : n ∉ (redispatch s u q).queueOf u :=
  foldl_reaches (I := fun _ => True) (Q := fun t => n ∉ t.queueOf u) (fun _ _ _ => trivial)
    (fun t k hq => ((Drains.unqueue t k).trans (.modSlot _ k _)).queue n hq) h
    (fun t _ => (Drains.modSlot _ n _).queue n (unqueue_leaves t n u)) (s := s) trivial

/-! ### A self-test that passes -/

theorem goIdle_hawkmoth (s : State) (e : Nat) : ((goIdle s (.hawkmoth, e)).engine e).st = .idle ∧
    ((goIdle s (.hawkmoth, e)).engine e).queue = (s.engine e).queue ∧ (∀ k, k ≠ e → (goIdle s (.hawkmoth, e)).engine k = s.engine k) ∧
    EnginesOnly s (goIdle s (.hawkmoth, e)) := by
  have honly := (EnginesOnly.modEngine s e (fun g => { g with st := .idle })).trans (.startEngine _ e)
  obtain ⟨b, w, h⟩ := startEngine_engine (s.modEngine e (fun g => { g with st := .idle })) e e
  have hb : ∀ (t : State) k, k ≠ e → (startEngine t e).engine k = t.engine k := fun t k hk => by
    unfold startEngine
    split
    · rfl
    · split
      · rw [State.modEngine_engine, if_neg hk]
      · split
        · rfl
        · rw [State.modEngine_engine, if_neg hk]
  rw [goIdle, h, State.modEngine_engine_self]
  exact ⟨rfl, rfl, fun k hk => by rw [hb _ k hk, State.modEngine_engine, if_neg hk], honly⟩

theorem goIdle_plume (s : State) (p : Nat) : ((goIdle s (.plume, p)).plume p).st = .idle ∧
    ((goIdle s (.plume, p)).plume p).queue = (s.plume p).queue ∧ (∀ k, k ≠ p → (goIdle s (.plume, p)).plume k = s.plume k) ∧
    ChainOnly s (goIdle s (.plume, p)) := by
  rw [goIdle, startPlume, State.modPlume_plume_self, State.modPlume_plume_self]
  exact ⟨rfl, rfl, fun k hk => by rw [State.modPlume_plume, if_neg hk, State.modPlume_plume, if_neg hk], _, _, rfl⟩

/-! ### A self-test that fails -/

/-- Of two counts that differ in one place the one is at most one more. -/
theorem length_filter_le_succ {f g : Nat → Bool} {u : Nat} (h : ∀ k, k ≠ u → g k = f k) (n : Nat) :
    ((List.range n).filter f).length ≤ ((List.range n).filter g).length + 1 := by
  have hs : (List.range n).filter f ⊆ u :: (List.range n).filter g := by
    intro k hk
    obtain ⟨hr, hf⟩ := List.mem_filter.mp hk
    by_cases hu : k = u
    · exact hu ▸ List.mem_cons_self
    · exact List.mem_cons_of_mem _ (List.mem_filter.mpr ⟨hr, (h k hu).trans hf⟩)
  exact (List.subperm_of_subset (List.nodup_range.filter f) hs).length_le

/-- A unit whose self-test failed, before the count of what is left (R358, R395, R599). -/
def offlined (s : State) (u : UnitClass × Nat) : State :=
  match u with
  | (.hawkmoth, e) =>
    raise (logMain (redispatch (s.modEngine e (fun g => { g.zeroed with st := .offline })) u (s.engine e).queue)
      5 (0x0500 + e) 0x0501 0xFF 0 []) 1039
  | (.plume, p) =>
    raise (logMain (redispatch (s.modPlume p (fun g => { g with st := .offline, mem := none })) u (s.plume p).queue)
      5 (0x0500 + p) 0x0501 0xFF 1 []) 1039
  | _ => s

/-- What a unit gone OFFLINE leaves. -/
structure Offlined (u : UnitClass × Nat) (s t : State) : Prop where
  st : t.unitSt u = .offline
  others : ∀ v, v ≠ u → t.unitSt v = s.unitSt v
  left : ∀ n ∈ s.queueOf u, n ∉ t.queueOf u
  raised : s.asleep = false → 1039 ∈ t.eic.corePend
  keys : t.keys = s.keys
  commit : t.commit = s.commit

/-- The same from the state with the unit marked OFFLINE. -/
theorem offlined_of_marked {s t : State} {u : UnitClass × Nat} {a b c d e : Nat} {x : Bytes} (hst : t.unitSt u = .offline)
    (hothers : ∀ v, v ≠ u → t.unitSt v = s.unitSt v) (ht : ChainOnly s t) :
    Offlined u s (raise (logMain (redispatch t u (s.queueOf u)) a b c d e x) 1039) := by
  have hd := redispatch_drains t u (s.queueOf u)
  have hl : Drains u (redispatch t u (s.queueOf u)) (raise (logMain (redispatch t u (s.queueOf u)) a b c d e x) 1039) :=
    .of_units (by simp) (by simp) (by simp) (by simp)
  have hall := hd.trans hl
  refine ⟨(hall.st u).trans hst, fun v hv => (hall.st v).trans (hothers v hv), fun n hn => hl.queue n (redispatch_leaves t u _ hn), fun ha => ?_,
    hall.keys.trans ?_, hall.commit.trans ?_⟩
  · refine raise_pends_core (by decide) ?_ (by decide)
    obtain ⟨_, _, hr⟩ := ht.trans (redispatch_only t u (s.queueOf u))
    obtain ⟨l, hm⟩ := logMain_only (redispatch t u (s.queueOf u)) a b c d e x
    rw [hm, hr]
    exact ha
  · obtain ⟨_, _, rfl⟩ := ht; rfl
  · obtain ⟨_, _, rfl⟩ := ht; rfl

theorem offlined_hawkmoth (s : State) (e : Nat) : Offlined (.hawkmoth, e) s (offlined s (.hawkmoth, e)) := by
  refine offlined_of_marked (t := s.modEngine e (fun g => { g.zeroed with st := .offline })) ?_ (fun v hv => ?_) ⟨_, _, rfl⟩
  · rw [State.unitSt, State.modEngine_engine_self]
  · obtain ⟨d, j⟩ := v
    cases d with
    | hawkmoth => rw [State.unitSt, State.modEngine_engine, if_neg (by rintro rfl; exact hv rfl)]; rfl
    | skipper => rfl
    | hash => rfl
    | plume => rfl

theorem offlined_plume (s : State) (p : Nat) : Offlined (.plume, p) s (offlined s (.plume, p)) := by
  refine offlined_of_marked (t := s.modPlume p (fun g => { g with st := .offline, mem := none })) ?_ (fun v hv => ?_) ⟨_, _, rfl⟩
  · rw [State.unitSt, State.modPlume_plume_self]
  · obtain ⟨d, j⟩ := v
    cases d with
    | plume => rw [State.unitSt, State.modPlume_plume, if_neg (by rintro rfl; exact hv rfl)]; rfl
    | skipper => rfl
    | hash => rfl
    | hawkmoth => rfl

theorem goOffline_hawkmoth {s : State} {e : Nat} (h : 8 < s.enginesLeft) : goOffline s (.hawkmoth, e) = offlined s (.hawkmoth, e) := by
  have ho := (offlined_hawkmoth s e).others
  have hle : s.enginesLeft ≤ (offlined s (.hawkmoth, e)).enginesLeft + 1 :=
    length_filter_le_succ (u := e) (fun k hk => congrArg (· != UnitState.offline) (ho (.hawkmoth, k) (by simp [hk]))) 48
  exact if_neg (by change ¬ (offlined s (.hawkmoth, e)).enginesLeft < 8; omega)

theorem goOffline_plume {s : State} {p : Nat} (h : 2 < s.plumesLeft) : goOffline s (.plume, p) = offlined s (.plume, p) := by
  have ho := (offlined_plume s p).others
  have hle : s.plumesLeft ≤ (offlined s (.plume, p)).plumesLeft + 1 :=
    length_filter_le_succ (u := p) (fun k hk => congrArg (· != UnitState.offline) (ho (.plume, k) (by simp [hk]))) 16
  exact if_neg (by change ¬ (offlined s (.plume, p)).plumesLeft < 2; omega)

/-! ### Aborted operations -/

/-- A descriptor ended by a cut with status `st`: no result, no unit. -/
def Slot.CutEnded (y : Slot) (st : Status) : Prop :=
  y.stage = .done ∧ y.unit = none ∧ ∃ r, y.res = some r ∧ r.status = st ∧ r.inline_ = none ∧ r.dst = []

theorem finish_cutEnds {s : State} {n : Nat} {z : Slot} (hz : s.slot n = some z) (st : Status) :
    (∃ y, (finish s n st 0).slot n = some y ∧ y.CutEnded st) ∧ ∀ m, m ≠ n → (finish s n st 0).slot m = s.slot m := by
  refine ⟨⟨_, (State.modSlot_slot_self s n _).trans (congrArg (Option.map _) hz), rfl, rfl, _, rfl, rfl, rfl, rfl⟩, fun m hm => ?_⟩
  rw [finish, State.modSlot_slot, if_neg hm]

/-- The end of one cut descriptor touches no other. -/
theorem endCut_ends {s : State} {n : Nat} {x z : Slot} (hz : s.slot n = some z) (hc : z.chain = x.chain) (st : Status) (running : Bool)
    (u : UnitClass × Nat) : (∃ y, (endCut s n x st running).slot n = some y ∧ y.CutEnded st) ∧
      (∀ m, m ≠ n → (endCut s n x st running).slot m = s.slot m) ∧ Drains u s (endCut s n x st running) := by
  obtain ⟨v, f, hf⟩ : ∃ v f, (if running then freeNat s else (0, s)) = (v, { s with free := f }) := by
    cases running with
    | true => exact ⟨_, _, rfl⟩
    | false => exact ⟨0, s.free, rfl⟩
  unfold endCut
  rw [hf]
  dsimp only
  generalize hw : State.modSlot { s with free := f } n (fun y => { y with unit := none, time24 := y.time24 + 24 * v }) = w
  have hd : Drains u s w := hw ▸ Drains.trans (b := { s with free := f }) (.of_units rfl rfl rfl rfl) (.modSlot _ n _)
  have hslot : w.slot n = some { z with unit := none, time24 := z.time24 + 24 * v } := by
    rw [← hw, State.modSlot_slot_self]
    exact congrArg (Option.map _) hz
  have hother : ∀ m, m ≠ n → w.slot m = s.slot m := fun m hm => by
    rw [← hw, State.modSlot_slot, if_neg hm]
    rfl
  have hfin : (if x.chain.isSome then finish w n st 0 else fail w n st 0) = finish w n st 0 := by
    split
    · rfl
    · next h => rw [fail, failChain_alone hslot (hc.trans (by simpa using h))]
  rw [hfin]
  obtain ⟨he, ho⟩ := finish_cutEnds hslot st
  exact ⟨he, fun m hm => (ho m hm).trans (hother m hm), hd.trans (.modSlot w n _)⟩

/-- One aborted operation of `u`, off its queue and ended. -/
def endAborted (u : UnitClass × Nat) (run : Option Nat) (t : State) (e : Nat × Slot × Status) : State :=
  endCut (unqueue t e.1 u) e.1 e.2.1 e.2.2 (run == some e.1)

section
variable (u : UnitClass × Nat) (run : Option Nat)

theorem endAborted_ends {s : State} {e : Nat × Slot × Status} {z : Slot} (hz : s.slot e.1 = some z) (hc : z.chain = e.2.1.chain) :
    (∃ y, (endAborted u run s e).slot e.1 = some y ∧ y.CutEnded e.2.2) ∧ e.1 ∉ (endAborted u run s e).queueOf u ∧
      (∀ m, m ≠ e.1 → (endAborted u run s e).slot m = s.slot m) ∧ Drains u s (endAborted u run s e) := by
  have hslot : ∀ m, (unqueue s e.1 u).slot m = s.slot m := fun m => congrArg (fun a : Admission => tget a.slots m) (unqueue_adm s e.1 u)
  obtain ⟨he, ho, hd⟩ := endCut_ends ((hslot e.1).trans hz) hc e.2.2 (run == some e.1) u
  exact ⟨he, hd.queue _ (unqueue_leaves s e.1 u), fun m hm => (ho m hm).trans (hslot m), (Drains.unqueue s e.1).trans hd⟩

/-- Every aborted operation of a list ends with its own status, and no other descriptor changes (R349, R350). -/
theorem foldl_endAborted_ends {l : List (Nat × Slot × Status)} {s : State} (hl : ∀ e ∈ l, ∃ z, s.slot e.1 = some z ∧ z.chain = e.2.1.chain)
    (hp : l.Pairwise (fun a b => a.1 ≠ b.1)) :
    (∀ e ∈ l, (∃ y, (l.foldl (endAborted u run) s).slot e.1 = some y ∧ y.CutEnded e.2.2) ∧ e.1 ∉ (l.foldl (endAborted u run) s).queueOf u) ∧
      (∀ m, (∀ e ∈ l, m ≠ e.1) → (l.foldl (endAborted u run) s).slot m = s.slot m) ∧ Drains u s (l.foldl (endAborted u run) s) := by
  induction l generalizing s with
  | nil => exact ⟨fun _ h => (nomatch h), fun _ _ => rfl, .refl s⟩
  | cons e l ih =>
    obtain ⟨hne, hp'⟩ := List.pairwise_cons.1 hp
    obtain ⟨z, hz, hc⟩ := hl e List.mem_cons_self
    obtain ⟨⟨y, hy, hd⟩, hq, ho, hdr⟩ := endAborted_ends u run hz hc
    obtain ⟨hall, hkeep, hdrl⟩ := ih (s := endAborted u run s e) (fun p hp => by
      obtain ⟨w, hw, hwc⟩ := hl p (List.mem_cons_of_mem _ hp)
      exact ⟨w, (ho p.1 (hne p hp).symm).trans hw, hwc⟩) hp'
    rw [List.foldl_cons]
    refine ⟨fun p hp => ?_, fun m hm => ?_, hdr.trans hdrl⟩
    · rcases List.mem_cons.1 hp with rfl | hp
      · exact ⟨⟨y, (hkeep p.1 hne).trans hy, hd⟩, hdrl.queue _ hq⟩
      · exact hall p hp
    · exact (hkeep m (fun p hp => hm p (List.mem_cons_of_mem _ hp))).trans (ho m (hm e List.mem_cons_self))

end

theorem mem_cutOn {s : State} {u : UnitClass × Nat} {e : Nat × Slot × Status} :
    e ∈ s.cutOn u ↔ (e.1, e.2.1) ∈ s.adm.slots ∧ e.2.1.cut = some e.2.2 ∧ e.2.1.unit = some u := by
  obtain ⟨n, x, st⟩ := e
  rw [State.cutOn, List.mem_filterMap]
  constructor
  · rintro ⟨p, hp, h⟩
    split at h
    · cases h
    · next hc =>
      split at h
      · next hu => cases h; exact ⟨hp, hc, hu⟩
      · cases h
  · rintro ⟨hp, hc, hu⟩
    exact ⟨_, hp, by dsimp only at hc hu ⊢; rw [hc]; exact if_pos hu⟩

theorem cutOn_pairwise {s : State} (h : tsorted s.adm.slots = true) (u : UnitClass × Nat) :
    (s.cutOn u).Pairwise (fun a b => a.1 ≠ b.1) := by
  have hs := List.pairwise_map.1 ((tsorted_iff _).1 h)
  refine List.Pairwise.filterMap _ (fun a b hab p hp q hq => ?_) hs
  have hfst : ∀ {c : Nat × Slot} {r : Nat × Slot × Status}, (match c.2.cut with
      | none => none
      | some st => if c.2.unit = some u then some (c.1, c.2, st) else none) = some r → r.1 = c.1 := by
    intro c r hr
    split at hr
    · cases hr
    · split at hr
      · cases hr; rfl
      · cases hr
  rw [hfst hp, hfst hq]
  exact Nat.ne_of_lt hab

/-- An aborted unit, zeroed (R349). -/
def abortZeroed (s : State) (u : UnitClass × Nat) : State :=
  if u.1 = .hawkmoth then closeEngine (s.modEngine u.2 Engine.zeroed) u.2 else s.modPlume u.2 (fun p => { p with mem := none })

theorem abortZeroed_only (s : State) (u : UnitClass × Nat) : ChainOnly s (abortZeroed s u) ∧ (abortZeroed s u).adm = s.adm := by
  unfold abortZeroed
  split
  · exact ⟨⟨_, _, rfl⟩, rfl⟩
  · exact ⟨⟨_, _, rfl⟩, rfl⟩

/-- What the end of an abort leaves of the operations it cut. -/
theorem exec_engineAbortDone_ends {cls : UnitClass} {unit : Nat} {s : State} (hz : cls.zeroes = true) (hs : tsorted s.adm.slots = true) :
    ∃ t, exec (.engineAbortDone cls unit) s = .next t ∧ (∀ n x st, s.slot n = some x → x.cut = some st → x.unit = some (cls, unit) →
      (∃ y, t.slot n = some y ∧ y.CutEnded st) ∧ n ∉ t.queueOf (cls, unit)) ∧ t.keys = s.keys ∧ t.commit = s.commit ∧ t.bus = s.bus := by
  have hmem : ∀ {n x st}, s.slot n = some x → x.cut = some st → x.unit = some (cls, unit) → (n, x, st) ∈ s.cutOn (cls, unit) :=
    fun hx hc hu => mem_cutOn.2 ⟨mem_of_tget hx, hc, hu⟩
  rw [dispatch_engineAbortDone, execEngineAbortDone, if_neg (by simp [hz])]
  by_cases he : s.cutOn (cls, unit) = []
  · refine ⟨s, by rw [he]; rfl, fun n x st hx hc hu => ?_, rfl, rfl, rfl⟩
    have h := hmem hx hc hu
    rw [he] at h
    cases h
  · obtain ⟨⟨a, un, honly⟩, hadm⟩ := abortZeroed_only s (cls, unit)
    have hslot : ∀ m, (abortZeroed s (cls, unit)).slot m = s.slot m := fun m => congrArg (fun a : Admission => tget a.slots m) hadm
    obtain ⟨hall, -, hd⟩ := foldl_endAborted_ends (cls, unit) (s.running (cls, unit)) (l := s.cutOn (cls, unit)) (s := abortZeroed s (cls, unit))
      (fun e h => ⟨e.2.1, (hslot e.1).trans (tget_of_mem hs (mem_cutOn.1 h).1), rfl⟩) (cutOn_pairwise hs _)
    refine ⟨(s.cutOn (cls, unit)).foldl (endAborted (cls, unit) (s.running (cls, unit))) (abortZeroed s (cls, unit)), ?_,
      fun n x st hx hc hu => hall _ (hmem hx hc hu), hd.keys.trans (by rw [honly]), hd.commit.trans (by rw [honly]), hd.bus.trans (by rw [honly])⟩
    dsimp only
    rw [if_neg (by simpa using he)]
    rfl

end Sys2Proof.Machine
end

section
open Sys2Proof.Machine

/-! SUPPORT. Block resets, and what the response to too few units leaves of them (R358, R498, R499, R510). -/

namespace Sys2Proof.Machine

/-! ### A block reset that begins -/

/-- An idle unit enters reset with its state zero; no key and no descriptor changes (R499). -/
theorem enterBlock_enters (s : State) (cls k : Nat) :
    (cls = 1 → ((enterBlock s cls k).lane k).inReset = true ∧ ((enterBlock s cls k).lane k).pages = [] ∧
      ((enterBlock s cls k).lane k).gen.key = none) ∧
    (cls = 2 → ((enterBlock s cls k).hash k).inReset = true ∧ ((enterBlock s cls k).hash k).held = none) ∧
    (cls = 3 → ((enterBlock s cls k).engine k).st = .inReset ∧ ((enterBlock s cls k).engine k).bank = [] ∧
      ∀ j, j ≠ k → (enterBlock s cls k).engine j = s.engine j) ∧
    (cls = 4 → ((enterBlock s cls k).plume k).st = .inReset ∧ ((enterBlock s cls k).plume k).mem = none) ∧
    (enterBlock s cls k).keys = s.keys ∧ (enterBlock s cls k).adm = s.adm := by
  have hask : ∀ (t : State) c w, (askOnce t c w).units = t.units ∧ (askOnce t c w).keys = t.keys ∧ (askOnce t c w).adm = t.adm := by
    intro t c w
    unfold askOnce
    split <;> exact ⟨rfl, rfl, rfl⟩
  unfold enterBlock
  split
  · obtain ⟨hu, hk, ha⟩ := hask (s.modLane k (fun l => { l.cleared l.pages.length with
      pages := [], inReset := true, gen := { gen0 with rekeys := l.gen.rekeys, stalls := l.gen.stalls } })) 3 (100000 + k)
    refine ⟨fun _ => ?_, nofun, nofun, nofun, hk, ha⟩
    rw [State.lane, hu, ← State.lane, State.modLane_lane_self]
    exact ⟨rfl, rfl, rfl⟩
  · refine ⟨nofun, fun _ => ?_, nofun, nofun, rfl, rfl⟩
    rw [State.modHash_hash_self]
    exact ⟨rfl, rfl⟩
  · refine ⟨nofun, nofun, fun _ => ?_, nofun, rfl, rfl⟩
    rw [State.modEngine_engine_self]
    exact ⟨rfl, rfl, fun j hj => by rw [State.modEngine_engine, if_neg hj]⟩
  · next h1 h2 h3 =>
    refine ⟨fun h => absurd h h1, fun h => absurd h h2, fun h => absurd h h3, fun _ => ?_, rfl, rfl⟩
    rw [State.modPlume_plume_self]
    exact ⟨rfl, rfl⟩

section
variable {rq : Req} {cls k : Nat} {s t : State} (ht : Taken s rq 0xA002 1 0x20 t) (hm : t.holds rq 1 true = true)
  (hb : t.units.blockReq = none)
include ht hm hb

theorem exec_blockReset_serves : exec (.blockReset rq cls k) s = .next (
    if blockCount cls ≤ k then refuse (setBlock t 5 (cls % 8) (k % 64) none) rq 0xA002 1 0x20 .inputRange
    else if t.unitIdle cls k then setBlock (enterBlock t cls k) 1 cls k (some rq)
    else refuse (blockRecord (setBlock t 3 cls k none) k 3) rq 0xA002 1 0x20 .notActive) := by
  rw [dispatch_blockReset, execBlockReset, blockReset, roleWrite_taken ht.1 ht.2 hm (by simp [hb])]

end

/-- A refused block reset sets RST_BLOCK alone. -/
theorem refuse_setBlock {t v : State} {res c k : Nat} {l : Recorder} (hv : v = { setBlock t res c k none with log := l }) (rq : Req) (st : Status) :
    (refuse v rq 0xA002 1 0x20 st).units = (setBlock t res c k none).units ∧ (refuse v rq 0xA002 1 0x20 st).keys = t.keys ∧
      (refuse v rq 0xA002 1 0x20 st).adm = t.adm := by
  obtain ⟨o, e, b, h⟩ := refuse_only v rq 0xA002 1 0x20 st
  rw [h, hv]
  exact ⟨rfl, rfl, rfl⟩

/-! ### What the response to a fault leaves of the units -/

/-- RST_BLOCK stands, and a unit that is OFFLINE stays so. -/
structure BlockStands (s t : State) : Prop where
  res : t.units.blockRes = s.units.blockRes
  req : t.units.blockReq = s.units.blockReq
  st : ∀ e, (s.engine e).st = .offline → (t.engine e).st = .offline

namespace BlockStands

theorem of_units {s t : State} (h : t.units = s.units) : BlockStands s t :=
  ⟨by rw [h], by rw [h], fun e he => by rw [State.engine, h]; exact he⟩

theorem refl (s : State) : BlockStands s s := of_units rfl

theorem trans {a b c : State} (h : BlockStands a b) (h' : BlockStands b c) : BlockStands a c :=
  ⟨h'.res.trans h.res, h'.req.trans h.req, fun e he => h'.st e (h.st e he)⟩

theorem fold {α : Type} {g : State → α → State} (hg : ∀ t a, BlockStands t (g t a)) (l : List α) (s : State) : BlockStands s (l.foldl g s) :=
  foldl_rel refl (fun _ _ _ => trans) g hg l s

theorem modSlot (s : State) (n : Nat) (f : Slot → Slot) : BlockStands s (s.modSlot n f) := of_units (State.modSlot_units s n f)

theorem finish (s : State) (n : Nat) (st : Status) (d : Nat) : BlockStands s (finish s n st d) := modSlot s n _

theorem modEngine (s : State) (e : Nat) {f : Engine → Engine} (hf : ∀ x, x.st = .offline → (f x).st = .offline) :
    BlockStands s (s.modEngine e f) := by
  refine ⟨rfl, rfl, fun k hk => ?_⟩
  rw [State.modEngine_engine]
  split
  · next h => exact hf _ (h ▸ hk)
  · exact hk

theorem startEngine (s : State) (e : Nat) : BlockStands s (startEngine s e) := by
  unfold Machine.startEngine
  split
  · exact refl s
  · split
    · exact modEngine s e (fun _ => id)
    · split
      · exact refl s
      · exact modEngine s e (fun _ => id)

theorem unqueue (s : State) (n : Nat) (u : UnitClass × Nat) : BlockStands s (unqueue s n u) := by
  unfold Machine.unqueue
  split
  · exact ⟨rfl, rfl, fun _ => id⟩
  · exact ⟨rfl, rfl, fun _ => id⟩
  · exact trans (modEngine s _ (f := fun x => { x with queue := x.queue.filter (· != n) }) (fun _ => id)) (startEngine _ _)
  · exact ⟨rfl, rfl, fun _ => id⟩

theorem unqueue_finish (s : State) (n : Nat) (u : UnitClass × Nat) (st : Status) (d : Nat) :
    BlockStands s (Machine.finish (Machine.unqueue s n u) n st d) := (unqueue s n u).trans (finish _ n st d)

theorem dropStep_finish (s : State) (n : Nat) (x : Slot) (st : Status) (d : Nat) : BlockStands s (Machine.finish (dropStep s n x) n st d) := by
  unfold dropStep
  split
  · exact finish s n st d
  · exact unqueue_finish s n _ st d

theorem withdraw_finish (s : State) (n : Nat) (st : Status) (d : Nat) : BlockStands s (Machine.finish (withdraw s n) n st d) :=
  trans (b := withdraw s n) (of_units rfl) (finish _ n st d)

theorem endEntry (s : State) (n : Nat) (x : Slot) (st : Status) : BlockStands s (endEntry s n x st) := by
  unfold Machine.endEntry
  split
  · exact modSlot s n _
  · exact finish s n st 0

theorem closeEngine (s : State) (e : Nat) : BlockStands s (closeEngine s e) := by
  refine modEngine s e (fun x hx => ?_)
  rw [if_neg (by simp [hx])]
  exact hx

theorem failChain (s : State) (n : Nat) : BlockStands s (failChain s n) := by
  unfold Machine.failChain
  split
  · exact refl s
  · split
    · exact refl s
    · refine fold (fun t e => ?_) _ s
      extract_lets u
      have hu : BlockStands t u := by
        simp only [u]
        split
        · exact closeEngine t _
        · exact refl t
      split
      · exact hu
      · exact hu.trans (endEntry u _ _ _)

theorem abortRaw (s : State) (n : Nat) : BlockStands s (abortRaw s n) := by
  unfold Machine.abortRaw
  split
  · exact refl s
  · split
    · exact refl s
    · refine trans ?_ (modSlot _ n _)
      split
      · exact refl s
      · exact failChain s n

theorem closeSession (s : State) (e : Nat) : BlockStands s (closeSession s e) := by
  unfold Machine.closeSession
  refine trans ?_ (closeEngine _ e)
  split
  · exact refl s
  · exact abortRaw s _

theorem closeSessions (s : State) (p : Engine → Bool) : BlockStands s (closeSessions s p) := fold closeSession _ s

/-- A cut that ends what waits, as every cut but a disable's does (R81, R134). -/
theorem cutOne {s : State} {k : Cut} {st : Status} (hk : k.waiting = some st) (n : Nat) (x : Slot) : BlockStands s (cutOne s k n x) := by
  unfold Machine.cutOne
  rw [hk]
  split
  · exact refl s
  · exact refl s
  · split
    · exact withdraw_finish s n _ _
    · exact withdraw_finish s n _ _
    · exact refl s
  · exact modSlot s n _
  · split
    · split
      · split
        · exact finish s n _ _
        · exact refl s
      · split
        · exact refl s
        · split
          · exact modSlot s n _
          · exact unqueue_finish s n _ _ _
    · exact dropStep_finish s n x _ _

theorem cutChained {s : State} {k : Cut} {st : Status} (hk : k.waiting = some st) (n : Nat) (x : Slot) (first : Nat) :
    BlockStands s (cutChained s k n x first) := by
  unfold Machine.cutChained
  dsimp only
  split
  · simp [Cut.waiting] at hk
  · split
    · exact refl s
    · split
      · split
        · exact modSlot s n _
        · exact finish s n _ _
      · split
        · exact endEntry s n x _
        · split
          · exact modSlot s n _
          · exact unqueue_finish s n _ _ _

theorem cutRing {s : State} {k : Cut} {st : Status} (hk : k.waiting = some st) (rid : Nat) : BlockStands s (cutRing s k rid) := by
  refine fold (fun t e => ?_) _ s
  unfold cutSlot
  split
  · exact refl t
  · split
    · exact cutOne hk _ _
    · split
      · exact cutChained hk _ _ _
      · exact cutOne hk _ _

theorem dropReservation (s : State) (rid : Nat) : BlockStands s (dropReservation s rid) := by
  unfold Machine.dropReservation
  split
  · exact of_units rfl
  · split
    · exact refl s
    · split
      · exact of_units rfl
      · exact refl s

theorem haltRings (s : State) {k : Cut} {st : Status} (hk : k.waiting = some st) : BlockStands s (haltRings s k) :=
  fold (fun t rid => trans (b := stopRing (Machine.dropReservation t rid) rid .halted)
    ((dropReservation t rid).trans (of_units rfl)) (cutRing hk rid)) _ s

theorem releaseCollar (s : State) : BlockStands s (releaseCollar s) := by
  unfold Machine.releaseCollar
  split
  · dsimp only
    split
    · exact of_units (raise_units _ 1033)
    · exact of_units rfl
  · exact refl s

theorem sendReply (s : State) (rq : Req) (idx sub op st : Nat) (data : Bytes) : BlockStands s (sendReply s rq idx sub op st data) := by
  obtain ⟨o, e, h⟩ := sendReply_only s rq idx sub op st data
  rw [h]
  exact of_units rfl

theorem lockAnswers (s : State) : BlockStands s (lockAnswers s) :=
  fold (fun t j => by
    split
    · exact refl t
    · exact sendReply t _ _ _ _ _ _) _ s

theorem lockEnds (s : State) : BlockStands s (lockEnds s) := by
  have hp : BlockStands s (freePages s (fun _ => true)) := ⟨rfl, rfl, fun _ => id⟩
  exact (hp.trans (closeSessions _ _)).trans (fold (fun t e => modEngine t e (f := fun x => { x.zeroed with blind := [] }) (fun _ => id)) _ _)

/-- Of the units LOCK only clears what the hash units and Plume units hold once its work has ended. -/
theorem lockClear (s : State) : BlockStands s (lockClear s) :=
  trans (b := Machine.lockEnds (Machine.lockAnswers s)) ((lockAnswers s).trans (lockEnds _)) ⟨rfl, rfl, fun _ => id⟩

theorem haltAll (s : State) (cls : AlarmClass) (entropy : Bool) : BlockStands s (haltAll s cls entropy) := by
  obtain ⟨st, hst⟩ := cutOf_waiting cls entropy
  exact trans (b := { s with service := if s.service = .locked then .locked else .halted }) (of_units rfl)
    (((releaseCollar _).trans (haltRings _ hst)).trans (closeSessions _ _))

theorem mainActions {s : State} {cls : AlarmClass} (entropy : Bool) (h2 : 2 ≤ cls.code) : BlockStands s (mainActions s cls entropy) := by
  rw [mainActions_eq entropy h2]
  have hl : BlockStands s (if 3 ≤ cls.code then { Machine.lockClear (Machine.haltAll s cls entropy) with service := .locked }
      else Machine.haltAll s cls entropy) := by
    split
    · exact ((haltAll s cls entropy).trans (lockClear _)).trans (of_units rfl)
    · exact haltAll s cls entropy
  dsimp only
  split
  · exact hl.trans (of_units rfl)
  · exact hl

theorem stoppedActions (s : State) (cls : AlarmClass) : BlockStands s (stoppedActions s cls) := by
  unfold Machine.stoppedActions
  have hl : BlockStands s (if 3 ≤ cls.code then Machine.lockClear s else s) := by
    split
    · exact lockClear s
    · exact refl s
  dsimp only
  split
  · exact hl.trans (of_units rfl)
  · exact hl

theorem mainResponse (s : State) (cls : AlarmClass) (entropy : Bool) : BlockStands s (mainResponse s cls entropy) := by
  by_cases h : s.power.mainOk = false ∨ cls.code ≤ (s.tamper.response.map (·.code)).getD 0 ∨ cls.code < 2
  · rw [mainResponse_untaken entropy h]
    exact refl s
  · simp only [not_or, Bool.not_eq_false, Nat.not_le, Nat.not_lt] at h
    obtain ⟨hm, hr, h2⟩ := h
    have ht : BlockStands s (responding s cls) := of_units rfl
    rw [mainResponse_taken entropy hm hr h2]
    split
    · exact ht
    · split
      · exact ht.trans (stoppedActions _ _)
      · exact (ht.trans (mainActions entropy h2)).trans (of_units (noteService_units _ _))

/-- Too few units left are a fault of class LOCK (R358). -/
theorem faultCompare (s : State) : BlockStands s (faultCompare s .lock) := by
  obtain ⟨l, e, tm, h⟩ := cocoonAlarm_below (cls := .lock) (by decide) s 154 0
  rw [Machine.faultCompare, mainAlarm, h]
  exact trans (b := { s with log := l, eic := e, tamper := tm }) (of_units rfl) (mainResponse _ _ _)

theorem redispatch (s : State) (u : UnitClass × Nat) (q : List Nat) : BlockStands s (redispatch s u q) :=
  fold (fun t n => (unqueue t n u).trans (modSlot _ n _)) q s

end BlockStands

/-- The same of the stored records (R430). -/
theorem faultCompare_recs (s : State) : (faultCompare s .lock).keys.recs = s.keys.recs := by
  obtain ⟨l, e, tm, h⟩ := cocoonAlarm_below (cls := .lock) (by decide) s 154 0
  rw [faultCompare, mainAlarm, h]
  rcases mainResponse_harmless { s with log := l, eic := e, tamper := tm } .lock (154 == 153) with hr | hr
  · rw [hr]
  · exact hr.recs

/-! ### A block reset that ends -/

/-- A unit gone OFFLINE in its self-test, with the fault that too few units left are. -/
theorem goOffline_stands (s : State) {u : UnitClass × Nat} (h : u.1 = .hawkmoth ∨ u.1 = .plume) :
    BlockStands (offlined s u) (goOffline s u) ∧ (goOffline s u).keys.recs = (offlined s u).keys.recs := by
  obtain ⟨c, k⟩ := u
  have hif : ∀ (v : State) (p : Prop) [Decidable p], BlockStands v (if p then faultCompare v .lock else v) ∧
      (if p then faultCompare v .lock else v).keys.recs = v.keys.recs := by
    intro v p _
    split
    · exact ⟨.faultCompare v, faultCompare_recs v⟩
    · exact ⟨.refl v, rfl⟩
  rcases h with h | h
  · cases h
    exact hif (offlined s (.hawkmoth, k)) _
  · cases h
    exact hif (offlined s (.plume, k)) _

theorem offlined_units (s : State) {u : UnitClass × Nat} (h : u.1 = .hawkmoth ∨ u.1 = .plume) :
    (offlined s u).units.blockRes = s.units.blockRes ∧ (offlined s u).units.blockReq = s.units.blockReq := by
  obtain ⟨c, k⟩ := u
  have hr : ∀ (t : State) v q a b c d e x, (raise (logMain (redispatch t v q) a b c d e x) 1039).units.blockRes = t.units.blockRes ∧
      (raise (logMain (redispatch t v q) a b c d e x) 1039).units.blockReq = t.units.blockReq := by
    intro t v q a b c d e x
    rw [raise_units, logMain_units]
    exact ⟨(BlockStands.redispatch t v q).res, (BlockStands.redispatch t v q).req⟩
  rcases h with h | h
  · cases h
    exact hr (s.modEngine k (fun g => { g.zeroed with st := .offline })) _ _ _ _ _ _ _ _
  · cases h
    exact hr (s.modPlume k (fun g => { g with st := .offline, mem := none })) _ _ _ _ _ _ _ _

/-- What leaving a block reset with a self-test that failed leaves (R358, R499). -/
theorem leaveBlock_fails (s : State) (cls k : Nat) :
    (leaveBlock s cls k false).units.blockRes = s.units.blockRes ∧ (leaveBlock s cls k false).units.blockReq = s.units.blockReq ∧
    (leaveBlock s cls k false).keys.recs = s.keys.recs ∧
    (cls = 1 → ((leaveBlock s cls k false).lane k).inReset = true) ∧ (cls = 2 → ((leaveBlock s cls k false).hash k).inReset = true) ∧
    (cls = 3 → ((leaveBlock s cls k false).engine k).st = .offline) := by
  unfold leaveBlock
  split
  · refine ⟨rfl, rfl, rfl, fun _ => ?_, nofun, nofun⟩
    rw [State.modLane_lane_self]
    rfl
  · refine ⟨rfl, rfl, rfl, nofun, fun _ => ?_, nofun⟩
    rw [State.modHash_hash_self]
    rfl
  · obtain ⟨hres, hreq⟩ := offlined_units s (u := (.hawkmoth, k)) (.inl rfl)
    obtain ⟨hs, hk⟩ := goOffline_stands s (u := (.hawkmoth, k)) (.inl rfl)
    have ho := offlined_hawkmoth s k
    rw [if_neg Bool.false_ne_true]
    exact ⟨hs.res.trans hres, hs.req.trans hreq, hk.trans (congrArg Keys.recs ho.keys), nofun, nofun, fun _ => hs.st k ho.st⟩
  · next h1 h2 h3 =>
    obtain ⟨hres, hreq⟩ := offlined_units s (u := (.plume, k)) (.inr rfl)
    obtain ⟨hs, hk⟩ := goOffline_stands s (u := (.plume, k)) (.inr rfl)
    rw [if_neg Bool.false_ne_true]
    exact ⟨hs.res.trans hres, hs.req.trans hreq, hk.trans (congrArg Keys.recs (offlined_plume s k).keys), fun h => absurd h h1,
      fun h => absurd h h2, fun h => absurd h h3⟩

/-- What leaving it with one that passed leaves. -/
theorem leaveBlock_passes (s : State) (cls k : Nat) :
    (leaveBlock s cls k true).units.blockRes = s.units.blockRes ∧ (leaveBlock s cls k true).units.blockReq = s.units.blockReq ∧
    (leaveBlock s cls k true).keys = s.keys ∧ (leaveBlock s cls k true).bus = s.bus ∧
    (cls = 1 → ((leaveBlock s cls k true).lane k).inReset = false) ∧ (cls = 2 → ((leaveBlock s cls k true).hash k).inReset = false) ∧
    (cls = 3 → ((leaveBlock s cls k true).engine k).st = .idle) := by
  unfold leaveBlock
  split
  · refine ⟨rfl, rfl, rfl, rfl, fun _ => ?_, nofun, nofun⟩
    rw [State.modLane_lane_self]
    rfl
  · refine ⟨rfl, rfl, rfl, rfl, nofun, fun _ => ?_, nofun⟩
    rw [State.modHash_hash_self]
    rfl
  · obtain ⟨hst, -, -, l, honly⟩ := goIdle_hawkmoth s k
    rw [if_pos rfl]
    refine ⟨?_, ?_, ?_, ?_, nofun, nofun, fun _ => hst⟩ <;> rw [honly]
  · next h1 h2 h3 =>
    obtain ⟨p, hp⟩ : ∃ p, goIdle s (.plume, k) = { s with units := { s.units with plumes := p } } := ⟨_, rfl⟩
    rw [if_pos rfl, hp]
    exact ⟨rfl, rfl, rfl, rfl, fun h => absurd h h1, fun h => absurd h h2, fun h => absurd h h3⟩

/-- The unit as its self-test leaves it, RST_BLOCK set and the result recorded (R499). -/
def blockLeft (s : State) (res : Nat) (pass : Bool) : State :=
  blockRecord (leaveBlock (setBlock s res s.units.blockCls s.units.blockUnit none) s.units.blockCls s.units.blockUnit pass) s.units.blockUnit res

theorem exec_blockResetDone_passes {rq : Req} {s : State} (h : s.units.blockReq = some rq) :
    exec (.blockResetDone true) s = .next (acceptNow (blockLeft s 2 true) rq 0xA002 1 0x20 []) := by
  rw [dispatch_blockResetDone, execBlockResetDone, h]
  rfl

theorem exec_blockResetDone_fails {rq : Req} {s : State} (h : s.units.blockReq = some rq) :
    exec (.blockResetDone false) s = .next (refuse (blockLeft s 4 false) rq 0xA002 1 0x20 .notActive) := by
  rw [dispatch_blockResetDone, execBlockResetDone, h]
  rfl

end Sys2Proof.Machine

/-- Settles O7: self-tests and aborts leave a unit's queue as they say, and RST_BLOCK outlives the response to too few units. -/
theorem unitsReturnAfterZeroing : Obligations.UnitsReturnAfterZeroing := by
  unfold Obligations.UnitsReturnAfterZeroing
  refine ⟨⟨fun unit s hst => ⟨?_, fun h8 _ ha => ?_⟩, fun unit s hst => ⟨?_, fun h2 _ ha => ?_⟩, fun cls unit s hz hs => ?_⟩,
    fun rq cls k s t ht hm hb => ⟨fun hk hi => ?_, fun hk hi => ?_, fun hk => ?_⟩, fun rq s hrq => ⟨?_, ?_⟩⟩
  · obtain ⟨hidle, hq, ho, l, honly⟩ := goIdle_hawkmoth s unit
    rw [dispatch_engineSelfTestDone, execEngineSelfTestDone, if_pos (.inl ⟨rfl, hst⟩)]
    exact ⟨_, rfl, hidle, hq, ho, by rw [if_pos rfl, honly], by rw [if_pos rfl, honly]⟩
  · have h := offlined_hawkmoth s unit
    rw [dispatch_engineSelfTestDone, execEngineSelfTestDone, if_pos (.inl ⟨rfl, hst⟩), if_neg Bool.false_ne_true, goOffline_hawkmoth h8]
    exact ⟨_, rfl, h.st, h.raised ha, h.left, h.keys, h.commit⟩
  · obtain ⟨hidle, hq, ho, a, u, honly⟩ := goIdle_plume s unit
    rw [dispatch_engineSelfTestDone, execEngineSelfTestDone, if_pos (.inr ⟨rfl, hst⟩)]
    exact ⟨_, rfl, hidle, hq, ho, rfl, by rw [if_pos rfl, honly]⟩
  · have h := offlined_plume s unit
    rw [dispatch_engineSelfTestDone, execEngineSelfTestDone, if_pos (.inr ⟨rfl, hst⟩), if_neg Bool.false_ne_true, goOffline_plume h2]
    exact ⟨_, rfl, h.st, h.raised ha, h.left, h.keys, h.commit⟩
  · obtain ⟨t, ht, hall, hk, hc, hb⟩ := exec_engineAbortDone_ends (unit := unit) hz hs
    refine ⟨t, ht, fun n x st hx hcut hu => ?_, hk, hc, hb⟩
    obtain ⟨⟨y, hy, hd, hun, r, hr, hst, hi, hdst⟩, hq⟩ := hall n x st hx hcut hu
    exact ⟨y, r, hy, hd, hun, hr, hst, hi, hdst, by rintro rfl; exact hq, by rintro rfl; exact hq⟩
  · obtain ⟨h1, h2, h3, h4, hkeys, hadm⟩ := enterBlock_enters t cls k
    rw [exec_blockReset_serves ht hm hb, if_neg (Nat.not_le.2 hk), if_pos hi]
    exact ⟨_, rfl, h1, h2, h3, h4, rfl, rfl, rfl, rfl, hkeys, hadm⟩
  · obtain ⟨l, hl⟩ := logMain_only (setBlock t 3 cls k none) 2 (0x0500 + k) 0x0502 0xFF 3 []
    obtain ⟨hu, hkeys, hadm⟩ := refuse_setBlock hl rq .notActive
    rw [exec_blockReset_serves ht hm hb, if_neg (Nat.not_le.2 hk), if_neg (by simp [hi])]
    exact ⟨_, rfl, congrArg Units.blockRes hu, congrArg Units.blockReq hu, (congrArg Units.engines hu).trans rfl,
      (congrArg Units.lanes hu).trans rfl, hkeys, hadm⟩
  · obtain ⟨hu, hkeys, hadm⟩ := refuse_setBlock (t := t) (res := 5) (c := cls % 8) (k := k % 64) (l := t.log) rfl rq .inputRange
    rw [exec_blockReset_serves ht hm hb, if_pos hk]
    exact ⟨_, rfl, congrArg Units.blockRes hu, congrArg Units.blockReq hu, (congrArg Units.engines hu).trans rfl,
      (congrArg Units.lanes hu).trans rfl, hkeys, hadm⟩
  · obtain ⟨hres, hreq, hkeys, hbus, h1, h2, h3⟩ :=
      leaveBlock_passes (setBlock s 2 s.units.blockCls s.units.blockUnit none) s.units.blockCls s.units.blockUnit
    obtain ⟨l, hl⟩ := logMain_only (leaveBlock (setBlock s 2 s.units.blockCls s.units.blockUnit none) s.units.blockCls s.units.blockUnit true)
      2 (0x0500 + s.units.blockUnit) 0x0502 0xFF 2 []
    rw [exec_blockResetDone_passes hrq, blockLeft, blockRecord, hl]
    generalize leaveBlock (setBlock s 2 s.units.blockCls s.units.blockUnit none) s.units.blockCls s.units.blockUnit true = t at *
    obtain ⟨o, e, h⟩ := acceptNow_only { t with log := l } rq 0xA002 1 0x20
    rw [h]
    refine ⟨_, rfl, hres, hreq, h1, h2, fun hc _ => h3 hc, ?_, hkeys⟩
    dsimp only
    rw [hbus]
    rfl
  · obtain ⟨hres, hreq, hrecs, h1, h2, h3⟩ :=
      leaveBlock_fails (setBlock s 4 s.units.blockCls s.units.blockUnit none) s.units.blockCls s.units.blockUnit
    obtain ⟨l, hl⟩ := logMain_only (leaveBlock (setBlock s 4 s.units.blockCls s.units.blockUnit none) s.units.blockCls s.units.blockUnit false)
      2 (0x0500 + s.units.blockUnit) 0x0502 0xFF 4 []
    rw [exec_blockResetDone_fails hrq, blockLeft, blockRecord, hl]
    generalize leaveBlock (setBlock s 4 s.units.blockCls s.units.blockUnit none) s.units.blockCls s.units.blockUnit false = t at *
    obtain ⟨o, e, b, h⟩ := refuse_only { t with log := l } rq 0xA002 1 0x20 .notActive
    rw [h]
    exact ⟨_, rfl, hres, hreq, h1, h2, h3, hrecs⟩
end
